-- ==== Sys2Proof/Word.lean ====
section
/-! DEFINITION. The machine's words: 32-bit register words, bytes, the two halves, and the place of a bit
field in a register word (spec/00 R8, spec/01 R20). -/

namespace Sys2Proof

/-- A register word (R8). -/
abbrev Word := BitVec 32

/-- A byte of memory or of a message. -/
abbrev Byte := BitVec 8

/-- A 64-bit value: a raw count, a Needle field register (R8, R404). -/
abbrev Dword := BitVec 64

/-- The two halves of the die, Knit and Purl (spec/01). -/
inductive Half where
  | k
  | p
  deriving DecidableEq, Repr

/-- The index that names a half in an address or a table: Knit 0, Purl 1. -/
def Half.n : Half → Nat
  | .k => 0
  | .p => 1

/-- The other half. -/
def Half.other : Half → Half
  | .k => .p
  | .p => .k

/-- The place of a field in a register word, [hi:lo]. -/
structure Fld where
  hi : Nat
  lo : Nat
  deriving DecidableEq, Repr

/-- The access types of Table 0.2 (R10). -/
inductive Acc where
  | rw
  | ro
  | wo
  | w1c
  | w1s
  | rwl
  | trv
  deriving DecidableEq, Repr

/-- One field of a register: its place, its access type, its Reset value, and whether it is Kept across
Level 1 and lower resets (R11, R753). -/
structure FieldDesc where
  hi : Nat
  lo : Nat
  acc : Acc
  reset : Nat
  kept : Bool
  deriving DecidableEq, Repr

/-- One register of a register table: its name, the address of its first instance, the count and the stride
of each of its indices (largest stride first), and its fields; a bit of no field is reserved (R12). -/
structure RegDesc where
  name : String
  base : Nat
  dims : List (Nat × Nat)
  fields : List FieldDesc
  deriving DecidableEq, Repr

end Sys2Proof
end

