-- ==== Sys2Proof/Syntax.lean ====
section
/-! DEFINITION. The commands the block takes from outside, one constructor per row of the table of operations and
events, and the operand types they carry. -/

namespace Sys2Proof

/-- The formats of a CAN frame: classical, FD, XL (R444). -/
inductive CanFmt where
  | cc
  | fd
  | xl
  deriving DecidableEq, Repr

/-- A CAN frame: format, extended identifier, identifier, bit-rate switch, remote frame, data, and for CAN XL its
SEC, SDT, VCID and AF (R447, R464). -/
structure CxFrame where
  fmt : CanFmt
  ide : Bool
  ident : Nat
  brs : Bool
  remote : Bool
  data : List Byte
  sec : Bool
  sdt : Nat
  vcid : Nat
  af : Nat
  deriving DecidableEq, Repr

/-- The outcome of the ECC check of a word or beat that an access reads (R565, R615). -/
inductive Ecc where
  | clean
  | single
  | double
  deriving DecidableEq, Repr

/-- The fields of an action word besides OP (Table 4.10); the constructor of the command gives OP; and what
the ECC shows of the words of local memory and TCAM that it reads as it executes (R152). -/
structure ActWord where
  d : Fin 16
  a : Fin 16
  b : Fin 16
  x : Fin 64
  y : Fin 256
  imm : Word
  ecc : Ecc := .clean
  deriving DecidableEq, Repr

/-- A flit at the hub: its bits, and whether it ends its message (R88, R89). -/
structure HubFlit where
  last : Bool
  flit : BitVec 144
  deriving DecidableEq, Repr

/-- What the snapshot reads of an agreement cycle meet: a double-bit error in the final pass of a resynchronisation, and
the entries whose words hold one (R106, R132, R694). -/
structure IaReads where
  passError : Bool
  bad : List (Half × Fin 4096)
  deriving DecidableEq, Repr

/-- How a frame finds an inline pair: `full`: an inserted frame holds the port and the inline buffer overflows (R192); `ecc`:
what the decoding reads (R152). -/
structure InlRoom where
  full : Bool
  ecc : Ecc
  deriving DecidableEq, Repr

/-- How a frame passes a pair of a stopped engine: its latency in ns, and whether the inline buffer overflows (R187, R192). -/
structure InlHeld where
  lat : Nat
  full : Bool
  deriving DecidableEq, Repr

/-- A snapshot that is done: the store, and what the ECC showed of the bank words it read (R565, R625). -/
structure SnapDone where
  fast : Bool
  eccs : List (BitVec 40 × Ecc)
  deriving DecidableEq, Repr

/-- What the Trivet's read-back of the grant pairs shows (R65, R66, R68, R69). -/
inductive ReadBack where
  /-- The true and the complement line of a half's pair read these levels; `none`: those that the grant latch drives. -/
  | lines (h : Half) (levels : Option (Bool × Bool))
  /-- The holder's pair has disagreed with HOLDER for 20 consecutive TRV cycles. -/
  | disagree
  /-- Both pairs read asserted. -/
  | both
  /-- HOLDER itself holds another value than its three codes. -/
  | invalid (code : Byte)
  deriving DecidableEq, Repr

/-- A pin that resets the chip (R731). -/
inductive RstPin where
  | por
  | srst
  deriving DecidableEq, Repr

/-- What takes a PCIe endpoint down (R644, R677). -/
inductive PciDown where
  | perst
  | link
  | flr
  deriving DecidableEq, Repr

/-- An access to the scratchpad on one port: master, address, bytes to write or the number of bytes to read, and the
ECC outcome of each word it reads, lower word first (R561 to R567, R818). -/
structure SpadOp where
  master : Nat
  addr : Nat
  len : Nat
  write : Bool
  data : List Byte
  eccLo : Ecc
  eccHi : Ecc
  deriving DecidableEq, Repr

/-- What a hart's access finds in its half's caches: a parity error of the L1 I-cache, a single-bit error, a double-bit
error in a clean line, a double-bit error in a dirty line (R608), or a line that they hold as it was before a write that they
do not snoop, of the other half or of the Larder DMA (R605): a read finds the bytes of `v`. -/
inductive CacheErr where
  | parity
  | single
  | doubleClean
  | doubleDirty
  | stale (v : Dword)
  deriving DecidableEq, Repr

/-- What an access meets: the ECC outcome of the words it reads, lower first, that of the mirror's other port, and whether
the other port takes the word it writes (R563, R565, R615, R617); what the caches show (R608); and what hardware does to
the register in the same clock: the W1C bits it sets and the W1S bits it clears (R15, R16), or the increments of a count
(R297). -/
structure BusEnv where
  eccLo : Ecc
  eccHi : Ecc
  mirror : Ecc
  lost : Bool
  cache : Option CacheErr := none
  hw : Nat := 0
  deriving DecidableEq, Repr

/-- An access that meets no error. -/
def BusEnv.clean : BusEnv := { eccLo := .clean, eccHi := .clean, mirror := .clean, lost := false }

/-- An access by a command that has no row of its own: by a master on the buses, of a hart to one of its CSRs, or of JTAG to
the Trivet's RAM (Table 17.1), to read `n` bytes or to write `data`. -/
inductive RegOp where
  | read (m : Byte) (a : BitVec 40) (n : Nat) (e : BusEnv)
  | write (m : Byte) (a : BitVec 40) (data : List Byte) (e : BusEnv)
  | csrRead (hart : Fin 4) (num : BitVec 12)
  | csrWrite (hart : Fin 4) (num : BitVec 12) (v : Dword)
  | trvRam (off : Fin 0x20000) (n : Nat) (data : List Byte)
  deriving DecidableEq, Repr

/-- The operations of the atomic memory instructions of the harts (R604). -/
inductive AmoOp where
  | swap
  | add
  | xor
  | and
  | or
  | min
  | max
  | minu
  | maxu
  deriving DecidableEq, Repr

/-- How a transmission on a CAN bus ends: without error, with lost arbitration, with an error. -/
inductive BusEnd where
  | ok
  | lost
  | error
  deriving DecidableEq, Repr

/-- A descriptor of the PCIe ring (Table 14.8). -/
structure RingDesc where
  cmdAddr : Nat
  cmdLen : Nat
  rspMax : Nat
  rspAddr : Nat
  rspLen : Nat
  deriving DecidableEq, Repr

/-- The commands of the block: one constructor per row of spec/opcode_table.json. -/
inductive Instr where
  /-- REGISTER_WRITE (R10): A write to a register that has no row of its own takes effect according to the access types of its fields, subject to alignment, TRV and RWL protection. -/
  | registerWrite (o : RegOp)
  /-- ACCESS_ERROR_TIMEOUT (R47): An access to a powered-off, reset or unreachable target receives its error response no later than 2 µs after issue. -/
  | accessErrorTimeout (m : Byte) (a : BitVec 40) (write : Bool)
  /-- DRAM_ACCESS (R42): A master access to a DRAM range is served by its own port, or by both ports or the holder's port while mirroring is on. -/
  | dramAccess (m : Byte) (off : Fin 0x400000000) (len : Fin 65) (write : Bool) (data : List Byte) (ecc mirrorEcc : Ecc)
  /-- HEARTBEAT_LAUNCH (R94): At every Gauge raw count that is a multiple of 500, each half's Tension endpoint launches a heartbeat unless launches are suppressed. -/
  | heartbeatLaunch
  /-- HEARTBEAT_RECEIVE (R96): The Trivet takes a heartbeat, judges its validity, restarts the half's heartbeat timer and acts on its STATE, APP_READY and HEALTHY. -/
  | heartbeatReceive (h : Half) (seq : BitVec 16) (st : Fin 16) (ready outValid healthy : Bool) (code : Byte)
  /-- HEARTBEAT_TIMER_EXPIRY (R99): The heartbeat timer of a half expires after 220 TRV cycles without a valid heartbeat, counts a miss and restarts; the third miss declares the half lost. -/
  | heartbeatTimerExpiry (h : Half)
  /-- CAST_ON_WINDOW_CLOSE (R85): When the cast-on window closes with one half in CANDIDATE, that half is granted charge in 1oo1D. -/
  | castOnWindowClose
  /-- GRANT_READBACK_FAULT (R69): If the read-back of the holder's grant pair disagrees with HOLDER for 20 consecutive TRV cycles, the holder is demoted with cause 0x22. -/
  | grantReadbackFault (r : ReadBack)
  /-- HANDOVER_INSTANT (R83): At the trigger instant of a pending planned handover, T7 and T6 take place in one TRV cycle. -/
  | handoverInstant
  /-- FLIT_RECEIVE (R101): A flit arrives on a Tension segment; a bad CRC discards it, counts it and raises an F1 fault. -/
  | flitReceive (h : Half) (cls : Fin 16) (flit : BitVec 144)
  /-- HUB_RELAY (R88): The link hub relays a flit to the other segment in 8 ns to 20 ns and passes heartbeats, snapshots and copies to the Trivet. -/
  | hubRelay (h : Half) (cls : Fin 16) (f : HubFlit)
  /-- IA_TRIGGER (R106): At c0 each half in CHARGE or STANDBY reads its source region and sends it as one snapshot message. -/
  | iaTrigger (r : IaReads)
  /-- IA_COMMIT_SEND (R109): Once both snapshots have been relayed complete, the hub sends a commit flit to both halves in the same Gauge cycle. -/
  | iaCommitSend
  /-- IA_COMMIT_RECEIVE (R110): A half that receives the commit computes and writes the agreed entries to its destination region and raises IA_DONE. -/
  | iaCommitReceive (h : Half)
  /-- IA_COMMIT_TIMEOUT (R111): A half without commit by c0 + 12 µs keeps its destination region, raises IA_DONE and F2, and is demoted if the hub had sent the commit. -/
  | iaCommitTimeout (h : Half)
  /-- IA_RERUN_START (R694): An additional input-agreement round starts at its c0 after a mismatch decision and sets IA_RERUN. -/
  | iaRerunStart
  /-- COL_SUBMIT (R690): A hart's write of GO = 1 submits the PDU in its submission port as a copy for the named stream and release point. -/
  | colSubmit (m : Byte) (h : Fin 4) (v : Word)
  /-- COL_SUBMIT_QUEUE_SPACE (R690): A submission that waited for a full queue is checked and queued, refused or discarded when space frees. -/
  | colSubmitQueueSpace (h : Fin 4)
  /-- COL_RELEASE_POINT (R117): At a copy's release point the Colander releases the matched holder's bytes, releases in 1oo1D, or waits for the missing copy. -/
  | colReleasePoint (n : Fin 256) (rp : Dword)
  /-- COL_WAIT_EXPIRY (R117): When COL_WAIT passes after the release point with one copy present and no transition, the mismatch procedure runs or held copies are discarded. -/
  | colWaitExpiry (n : Fin 256) (rp : Dword)
  /-- COL_RELEASE_PATH_OPEN (R815): A copy held while the holder's release path was closed is released when the path opens. -/
  | colReleasePathOpen
  /-- COL_SELFTEST_END (R698): At the end of the 150 µs self-test the first applicable outcome is taken and BLOCKED bits clear. -/
  | colSelftestEnd (colOk kOk pOk : Bool)
  /-- COL_SELFTEST_PERIODIC (R700): In 1oo2D outside probation the self-test starts every ST_PERIOD minutes. -/
  | colSelftestPeriodic
  /-- ISO_SERVICE_WRITE (R701): A write of COL_CTRL.ISO_SERVICE = 0 drops the isolation of a half in SERVICE. -/
  | isoServiceWrite (m : Byte) (v : Word)
  /-- ALIVE_LINE_TIMEOUT (R125): If the Trivet alive line has not toggled for 2 µs, the half asserts TRIVET_LOST. -/
  | aliveLineTimeout
  /-- TRIVET_LOCKSTEP_ERROR (R125): Assertion of the Trivet lockstep-error line makes the halves assert TRIVET_LOST. -/
  | trivetLockstepError
  /-- TRIVET_WATCHDOG_EXPIRY (R125): Expiry of the Trivet watchdog asserts TRIVET_LOST. -/
  | trivetWatchdogExpiry
  /-- VDD_TRV_FAIL (R128): When VDD_TRV falls below its threshold no safety copy is released, both CHARGE pins go low within 1 µs and FAULTn is asserted. -/
  | vddTrvFail
  /-- RESYNC_PASS_DONE (R132): At the end of a bulk or dirty pass, dirty granules are copied again until 4 KiB or less remains, or T10 follows after 16 passes. -/
  | resyncPassDone (readError : Bool)
  /-- TWIN_HEARTBEAT_SEND (R135): In twin mode each Trivet sends a twin heartbeat every 1 µs. -/
  | twinHeartbeatSend
  /-- TWIN_HEARTBEAT_RECEIVE (R135): A twin heartbeat from the other chip restarts the twin heartbeat timer. -/
  | twinHeartbeatReceive (idx : Fin 2) (cand holds peer : Bool)
  /-- TWIN_HEARTBEAT_TIMEOUT (R138): A twin heartbeat timeout counts a miss; after three, twin charge is taken if TWIN_PEER has been low for 1 µs, else F2 is raised. -/
  | twinHeartbeatTimeout (peer : Bool)
  /-- TWIN_PEER_LOW (R138): TWIN_PEER low for 1 µs after three twin timeouts lets the standby chip take twin charge within 5 µs. -/
  | twinPeerLow
  /-- TEN_APP_WRITE (R143): A write of TEN_APP_x by a hart of its half sets APP_READY and OUT_VALID; writes by other masters are refused. -/
  | tenAppWrite (m : Byte) (h : Half) (v : Word)
  /-- IA_CTRL_WRITE (R144): A write of TEN_IA_CTRL setting ENABLE is refused while the configuration is invalid. -/
  | iaCtrlWrite (m : Byte) (v : Word)
  /-- NE_RUN_START (R158): A write of NE_CTRL.RUN = 1 starts a STOPPED engine with LOADED = 1, or sets START_REJ. -/
  | neRunStart (m : Byte) (i : Fin 24) (hard : Byte)
  /-- NE_RUN_STOP (R166): A write of NE_CTRL.RUN = 0 puts a RUNNING engine into STOPPING, discarding pending events and disarming timers. -/
  | neRunStop (m : Byte) (i : Fin 24) (hard : Byte)
  /-- NE_STOP_COMPLETE (R167): The engine enters STOPPED when the event in progress completes and its DMA bursts have responded. -/
  | neStopComplete (i : Fin 24)
  /-- NE_HARD_STOP (R168): When STOPPING lasts HARD_US, the engine aborts its event and DMA, sets HARD_STOPPED and enters STOPPED. -/
  | neHardStop (i : Fin 24)
  /-- RECIPE_VALIDATED (R162): At the end of validation the engine enters STOPPED with LOADED = 1 and NE_RECIPE set, or with LOADED = 0 and its areas zeroed. -/
  | recipeValidated (i : Fin 24)
  /-- SP9_DISPATCH (R178): The dispatcher writes a frame delivered to SP9 into the receive staging of every engine of its Needle mask in one pass. -/
  | sp9Dispatch (h : Half)
  /-- EVENT_DISPATCH (R171): When the event context is idle the engine takes the highest-priority pending event, decodes, matches and selects a transition. -/
  | eventDispatch (i : Fin 24) (ecc : Ecc)
  /-- EVENT_AGED (R171): An event pending longer than NE_LIMITS.AGE becomes priority 1. -/
  | eventAged (i : Fin 24)
  /-- ACT_WAIT_END (R227): An action word that waited for a FIFO word, free cell, DMA slot, buffer or CRC unit completes when it can. -/
  | actWaitEnd (i : Fin 24) (inl : Bool)
  /-- NE_TIMER_EXPIRY (R242): A Needle timer reaches its Gauge expiry time and sets its pending bit, re-arming if periodic. -/
  | neTimerExpiry (i : Fin 24) (x : Fin 16)
  /-- DMA_TRANSFER_DONE (R232): A Needle DMA transfer completes or is refused, raising a completion or error event for the issuing context. -/
  | dmaTransferDone (i : Fin 24) (chan : Fin 4) (env : List (Nat × BusEnv))
  /-- NE_DOORBELL_WRITE (R172): A write of 1 bits to NE_DOORBELL sets doorbell pending bits, merging with bits already pending. -/
  | neDoorbellWrite (m : Byte) (i : Fin 24) (v : Word)
  /-- NE_BIND_WRITE (R180): A write of NE_BIND binds CX controllers and Hook engines, refusing bits for units bound elsewhere or while not STOPPED. -/
  | neBindWrite (m : Byte) (i : Fin 24) (v : Word)
  /-- NE_INL_CTRL_WRITE (R183): A write of NE_INL_CTRL activates an inline pair, refused for unequal speeds, 10GBASE-R, shared ports or a running engine. -/
  | neInlCtrlWrite (m : Byte) (i : Fin 24) (v : Word)
  /-- INLINE_FRAME_START (R237): When the look-ahead holds a passing frame's first 64 bytes, the inline path runs in the inline context. -/
  | inlineFrameStart (i : Fin 24) (side : Fin 2) (bytes : List Byte) (good : Bool) (stamp lat : Nat) (late : Bool) (room : InlRoom)
  /-- INLINE_STOPPED_FRAME (R190): A frame on an inline pair of a stopped engine is discarded or forwarded unchanged per STOP_POLICY. -/
  | inlineStoppedFrame (i : Fin 24) (side : Fin 2) (bytes : List Byte) (held : InlHeld)
  /-- INLINE_INSERT_SEND (R192): A frame queued by TXINL leaves on its inline port once no passing frame is being sent there. -/
  | inlineInsertSend (i : Fin 24) (side : Fin 2)
  /-- END (R218): Ends the action list, writes the context state and frees the input cells. -/
  | recEnd (i : Fin 24) (inl : Bool) (w : ActWord) (rival : Option SpadOp)
  /-- NOP (R224): Does nothing. -/
  | recNop (i : Fin 24) (inl : Bool) (w : ActWord)
  /-- JMP (R224): Continues at action index IMM. -/
  | recJmp (i : Fin 24) (inl : Bool) (w : ActWord)
  /-- BR (R224): Compares A with B or Y and branches if the condition holds. -/
  | recBr (i : Fin 24) (inl : Bool) (w : ActWord)
  /-- CALL (R228): Pushes the next index and continues at IMM, faulting at stack depth 4. -/
  | recCall (i : Fin 24) (inl : Bool) (w : ActWord)
  /-- RET (R228): Pops the stack and continues there, faulting on an empty stack. -/
  | recRet (i : Fin 24) (inl : Bool) (w : ActWord)
  /-- SETST (R218): Sets the state to be written at END. -/
  | recSetst (i : Fin 24) (inl : Bool) (w : ActWord)
  /-- DISCARD (R224): Frees the cells of the staged input now. -/
  | recDiscard (i : Fin 24) (inl : Bool) (w : ActWord)
  /-- LDI (R224): Loads an immediate into a field register. -/
  | recLdi (i : Fin 24) (inl : Bool) (w : ActWord)
  /-- MOV (R224): Copies one field register to another. -/
  | recMov (i : Fin 24) (inl : Bool) (w : ActWord)
  /-- LD (R223): Loads a value from an area into a field register, faulting outside the area. -/
  | recLd (i : Fin 24) (inl : Bool) (w : ActWord)
  /-- ST (R223): Stores the low bytes of a field register into an area, faulting outside the area. -/
  | recSt (i : Fin 24) (inl : Bool) (w : ActWord) (rival : Option SpadOp)
  /-- EXT (R224): Extracts a bit field into a field register. -/
  | recExt (i : Fin 24) (inl : Bool) (w : ActWord)
  /-- INS (R224): Inserts bits into a field of a register. -/
  | recIns (i : Fin 24) (inl : Bool) (w : ActWord)
  /-- ADD (R224): Adds two registers or a register and an immediate modulo 2^64. -/
  | recAdd (i : Fin 24) (inl : Bool) (w : ActWord)
  /-- SUB (R224): Subtracts a register or immediate. -/
  | recSub (i : Fin 24) (inl : Bool) (w : ActWord)
  /-- AND (R224): Bitwise AND. -/
  | recAnd (i : Fin 24) (inl : Bool) (w : ActWord)
  /-- OR (R224): Bitwise OR. -/
  | recOr (i : Fin 24) (inl : Bool) (w : ActWord)
  /-- XOR (R224): Bitwise XOR. -/
  | recXor (i : Fin 24) (inl : Bool) (w : ActWord)
  /-- SHL (R224): Shifts left. -/
  | recShl (i : Fin 24) (inl : Bool) (w : ActWord)
  /-- SHR (R224): Logical shift right. -/
  | recShr (i : Fin 24) (inl : Bool) (w : ActWord)
  /-- SAR (R224): Arithmetic shift right. -/
  | recSar (i : Fin 24) (inl : Bool) (w : ActWord)
  /-- FSET (R224): Sets context flags. -/
  | recFset (i : Fin 24) (inl : Bool) (w : ActWord) (rival : Option SpadOp)
  /-- FCLR (R224): Clears context flags. -/
  | recFclr (i : Fin 24) (inl : Bool) (w : ActWord) (rival : Option SpadOp)
  /-- FLD (R224): Loads the context flags into a register. -/
  | recFld (i : Fin 24) (inl : Bool) (w : ActWord)
  /-- TPLCPY (R224): Copies template bytes into the build buffer and extends its length. -/
  | recTplcpy (i : Fin 24) (inl : Bool) (w : ActWord)
  /-- BLEN (R224): Sets the build length. -/
  | recBlen (i : Fin 24) (inl : Bool) (w : ActWord)
  /-- CPYIN (R224): Copies input bytes into the build buffer. -/
  | recCpyin (i : Fin 24) (inl : Bool) (w : ActWord)
  /-- CRC (R225): Computes a CRC of the selected kind over area bytes on a CRC unit. -/
  | recCrc (i : Fin 24) (inl : Bool) (w : ActWord)
  /-- TXETH (R229): Queues the build buffer as a frame into SP9 with a class and egress mask. -/
  | recTxeth (i : Fin 24) (inl : Bool) (w : ActWord)
  /-- TXCAN (R229): Writes the build buffer to a transmit buffer of a bound CX controller. -/
  | recTxcan (i : Fin 24) (inl : Bool) (w : ActWord)
  /-- TXSTITCH (R234): Writes the build buffer to the stitch buffer of a stitch on a bound controller. -/
  | recTxstitch (i : Fin 24) (inl : Bool) (w : ActWord)
  /-- TXCOL (R691): Submits the build buffer to the Colander as a stream copy with a release point. -/
  | recTxcol (i : Fin 24) (inl : Bool) (w : ActWord)
  /-- TXINL (R229): Queues the build buffer for insertion on an inline port. -/
  | recTxinl (i : Fin 24) (inl : Bool) (w : ActWord)
  /-- DMAWR (R224): Starts a DMA copy from an area to a physical address. -/
  | recDmawr (i : Fin 24) (inl : Bool) (w : ActWord)
  /-- DMARD (R224): Starts a DMA copy from a physical address into an area. -/
  | recDmard (i : Fin 24) (inl : Bool) (w : ActWord)
  /-- DMAENT (R231): Writes one 16-byte input entry in one DMA write. -/
  | recDmaent (i : Fin 24) (inl : Bool) (w : ActWord)
  /-- TSTART (R233): Arms a timer, clearing any pending expiry of it. -/
  | recTstart (i : Fin 24) (inl : Bool) (w : ActWord)
  /-- TSTOP (R233): Disarms a timer and clears its pending expiry. -/
  | recTstop (i : Fin 24) (inl : Bool) (w : ActWord)
  /-- GTIME (R236): Reads the Gauge raw count or the input's STAMP. -/
  | recGtime (i : Fin 24) (inl : Bool) (w : ActWord) (lag : Fin 5)
  /-- HKPUT (R224): Writes a word to the transmit FIFO of a bound Hook engine. -/
  | recHkput (i : Fin 24) (inl : Bool) (w : ActWord)
  /-- HKGET (R224): Reads the next word of a bound Hook engine's receive FIFO. -/
  | recHkget (i : Fin 24) (inl : Bool) (w : ActWord)
  /-- MBPOST (R589): Posts words to a mailbox channel and rings it in one TRV cycle, or is discarded if FULL. -/
  | recMbpost (i : Fin 24) (inl : Bool) (w : ActWord)
  /-- BELL (R589): Rings a mailbox channel's doorbell. -/
  | recBell (i : Fin 24) (inl : Bool) (w : ActWord)
  /-- LOOKUP (R224): Looks a key up in the TCAM. -/
  | recLookup (i : Fin 24) (inl : Bool) (w : ActWord)
  /-- DECODE (R224): Runs an FMT descriptor over an area into the field registers. -/
  | recDecode (i : Fin 24) (inl : Bool) (w : ActWord)
  /-- INLSKIP (R224): Releases the current inline window and continues at a later window. -/
  | recInlskip (i : Fin 24) (inl : Bool) (w : ActWord)
  /-- INLDROP (R224): Discards the passing inline frame, or cuts it short with an inverted FCS. -/
  | recInldrop (i : Fin 24) (inl : Bool) (w : ActWord)
  /-- MAC_FRAME_RECEIVE (R268): A frame received on a port is checked in order, counted in exactly one outcome and delivered to the plane or discarded. -/
  | macFrameReceive (p : Fin 24) (bytes : List Byte) (codeErr linkLost fcsOk : Bool) (capture : Nat)
  /-- PAUSE_EXPIRY (R285): The pause time runs out and transmission resumes. -/
  | pauseExpiry (p : Fin 24)
  /-- MAC_FRAME_TRANSMIT (R281): The MAC takes a frame from the plane, pads it, appends the FCS and sends it, or discards it if oversize or the link is down. -/
  | macFrameTransmit (p : Fin 24) (capture : Nat)
  /-- PAUSE_FRAME_SEND (R289): On XOFF the MAC sends a PAUSE frame at the next frame boundary ahead of queued frames. -/
  | pauseFrameSend (p : Fin 24)
  /-- PAUSE_REFRESH (R290): While XOFF holds the MAC repeats the PAUSE frame every REFRESH quanta. -/
  | pauseRefresh (p : Fin 24)
  /-- LINK_CHANGE (R279): A port's link goes up or down, updating status, raising status events in running engines and notifying the Larder. -/
  | linkChange (p : Fin 24) (up : Bool)
  /-- PERIOD_BOUNDARY (R300): At a statistics-period boundary the port latches its period counters into shadows, restarts them and advances SEQ. -/
  | periodBoundary (p : Fin 24)
  /-- MAC_PER_CTRL_WRITE (R303): A write of MAC_PER_CTRL.EN starts or freezes period statistics. -/
  | macPerCtrlWrite (m : Byte) (p : Fin 24) (v : Word)
  /-- TL_CTRL_WRITE (R312): A write of TL_CTRL enables a TL port or restarts bring-up on a change, refusing simmer changes on a locked port. -/
  | tlCtrlWrite (m : Byte) (p : Fin 8) (v : Word)
  /-- TL_RESTART_AN (R312): A write of RESTART_AN = 1 takes the link down and restarts bring-up. -/
  | tlRestartAn (m : Byte) (p : Fin 8) (v : Word)
  /-- TL_AN_COMPLETE (R310): Auto-negotiation resolves amplitude and role and sets AN_DONE, or fails and sets AN_FAIL. -/
  | tlAnComplete (p : Fin 8) (page : BitVec 16) (lp24 lp10 : Bool) (lpRole : Fin 3) (res24 lead : Bool)
  /-- TL_TRAINING_COMPLETE (R310): Equaliser and echo-canceller training completes and the link comes up. -/
  | tlTrainingComplete (p : Fin 8)
  /-- TL_AN_RETRY (R308): After an unresolved negotiation the PHY restarts auto-negotiation every 1 s. -/
  | tlAnRetry (p : Fin 8)
  /-- TL_LOSS_OF_LOCK (R311): The receiver loses lock, the link goes down and TRAIN reads 0x4. -/
  | tlLossOfLock (p : Fin 8)
  /-- TL_SQI_ZERO_TIMEOUT (R311): SQI staying at 0 for 2 ms takes the link down. -/
  | tlSqiZeroTimeout (p : Fin 8)
  /-- TL_LINK_FAIL_WAIT_END (R311): After 10 ms of link-fail wait the PHY restarts bring-up. -/
  | tlLinkFailWaitEnd (p : Fin 8)
  /-- TL_SHORT_DETECT (R319): A current limit engaged for 1 ms sets SHORT_DET and counts. -/
  | tlShortDetect (p : Fin 8)
  /-- SD_CTRL_WRITE (R323): A write of SD_CTRL enables a lane or restarts its bring-up on a mode or test change. -/
  | sdCtrlWrite (m : Byte) (l : Fin 8) (v : Word)
  /-- SD_PLL_LOCK (R324): The lane PLL locks. -/
  | sdPllLock (l : Fin 8)
  /-- SD_CDR_LOCK (R324): Clock and data recovery locks. -/
  | sdCdrLock (l : Fin 8)
  /-- SD_SYNC_ACQUIRED (R324): Code-group synchronisation or block lock is reached. -/
  | sdSyncAcquired (l : Fin 8)
  /-- SD_AN_COMPLETE (R324): Auto-negotiation completes and the link comes up. -/
  | sdAnComplete (l : Fin 8) (page : BitVec 16) (speed : Fin 4) (half : Bool)
  /-- SD_SYNC_LOSS (R329): Loss of SYNC or CDR lock takes the link down and restarts the lane at step 2. -/
  | sdSyncLoss (l : Fin 8)
  /-- SGMII_SPEED_CHANGE (R328): A new in-band SGMII speed takes the link down for at least 1 µs and back up at the new speed. -/
  | sgmiiSpeedChange (l : Fin 8) (speed : Fin 4)
  /-- RG_CTRL_WRITE (R335): A write of RG_CTRL enables or disables an RGMII port or changes its speed. -/
  | rgCtrlWrite (m : Byte) (h : Half) (v : Word)
  /-- RG_INBAND_STATUS (R336): In-band status between frames sets the RGMII link, speed and duplex. -/
  | rgInbandStatus (h : Half) (link fd : Bool) (speed : Fin 4)
  /-- RG_SPEED_CHANGE_RESTART (R337): After a speed change TXC restarts at the new frequency once the frame and 1 µs low time have passed. -/
  | rgSpeedChangeRestart (h : Half)
  /-- PLANE_FRAME_INGRESS (R347): A frame entering a plane is classified, looked up, metered, admitted into buffer accounts and queued. -/
  | planeFrameIngress (h : Half) (p : Fin 12)
  /-- TWIN_WINDOW_CLOSE (R396): With no second copy, the held copy is delivered as lone at S1 + W + t_SETTLE. -/
  | twinWindowClose (h : Half)
  /-- DUP_ENTRY_AGE (R390): A duplicate-table entry is freed SW_DUP_AGE ms after creation. -/
  | dupEntryAge (h : Half)
  /-- SCHEDULING_ROUND (R373): Every cell time the central scheduler matches inputs to outputs in three iterations and moves one cell per matched pair. -/
  | schedulingRound (h : Half)
  /-- METER_REFILL (R357): Every 1 µs each meter bucket receives tokens at its rate up to its size. -/
  | meterRefill (h : Half)
  /-- SIEVE_AVG_UPDATE (R368): Every 1 µs the average depth of each account is updated. -/
  | sieveAvgUpdate (h : Half)
  /-- GATE_ENTRY_CHANGE (R378): At each gate-list interval boundary or cycle start the port's gates change to the next entry. -/
  | gateEntryChange (h : Half) (p : Fin 9)
  /-- GATE_CHANGE_REQUEST (R382): A write of SWG_CTRL.CHANGE = 1 sets CHG_PEND or is refused for an invalid admin schedule. -/
  | gateChangeRequest (m : Byte) (h : Half) (p : Fin 9) (v : Word)
  /-- GATE_BANK_SWAP (R382): At the first admin cycle start at least 2 µs after CHANGE the admin bank becomes operational. -/
  | gateBankSwap (h : Half) (p : Fin 9)
  /-- SWG_EN_WRITE (R385): A change of SWG_CTRL.EN takes effect at the port's next frame boundary. -/
  | swgEnWrite (m : Byte) (h : Half) (p : Fin 9) (v : Word)
  /-- SW_BUF_LOW_RESET (R344): A write of any 1 bit to SW_BUF_FREE.LOW sets LOW to the current FREE. -/
  | swBufLowReset (m : Byte) (h : Half) (v : Word)
  /-- REF_FAIL (R408): A Gauge reference fails; with AUTO the Gauge switches to the other within 200 ns, or holds frequency if both failed. -/
  | refFail (r : Half)
  /-- REF_RECOVER (R407): A reference counts as good again after 10 ms without failure, and the PLL pulls to it if both had been lost. -/
  | refRecover (r : Half) (diff : Word)
  /-- GAUGE_REF_SEL_WRITE (R410): A write of GAUGE_REF.SEL switches to the named reference if it is good. -/
  | gaugeRefSelWrite (m : Byte) (v : Word)
  /-- GAUGE_PLL_LOCK (R404): The Gauge PLL first locks after reset or wake and the raw counter starts from 0, advancing GAUGE_EPOCH. -/
  | gaugePllLock
  /-- GAUGE_RAW_READ (R415): A read of GAUGE_RAW_LO returns the low raw bits and latches the high bits for the master. -/
  | gaugeRawRead (m : Byte)
  /-- GAUGE_DOM_READ (R415): A read of GAUGE_DOM_NS returns the domain nanoseconds and latches seconds, fraction and raw count for the master. -/
  | gaugeDomRead (m : Byte) (d : Fin 4)
  /-- GAUGE_CONVERT (R417): A write of CONV_RAW_HI converts a raw count to domain time into the master's result registers within 20 ns. -/
  | gaugeConvert (m : Byte) (d : Fin 4) (v : Word)
  /-- GAUGE_COMMIT_REQUEST (R419): A write of COMMIT = 1 sets the commit instant of the staged parameter set, or is refused while one is pending. -/
  | gaugeCommitRequest (m : Byte) (d : Fin 4) (v : Word)
  /-- GAUGE_COMMIT_CANCEL (R423): A write of CANCEL = 1 drops a pending commit that has not reached its instant. -/
  | gaugeCommitCancel (m : Byte) (d : Fin 4) (v : Word)
  /-- GAUGE_COMMIT (R420): At the commit instant the domain takes its new anchor, base, rate and state. -/
  | gaugeCommit (d : Fin 4)
  /-- DOM_CFG_WRITE (R428): A write of GAUGE_DOM_CFG sets owner, alternate owner and holdover watchdog, and OWNER_NOW follows OWNER. -/
  | domCfgWrite (m : Byte) (d : Fin 4) (v : Word)
  /-- HOLDOVER_TIMEOUT (R427): A LOCKED domain without commit for HOLD_MS enters HOLDOVER and raises F0. -/
  | holdoverTimeout (d : Fin 4)
  /-- GAUGE_COMPARE_EVENT (R430): A compare unit's source time reaches NEXT, the event occurs and NEXT advances by PERIOD. -/
  | gaugeCompareEvent (k : Fin 16)
  /-- PPS_PULSE_END (R433): A PPS output returns low WIDTH_US after its last triggering event. -/
  | ppsPulseEnd (j : Fin 2)
  /-- GAUGE_RATE_FAULT (R679): The Gauge output rate lies more than 5 % from the TRV oscillator over 100 µs, raising an F4 fault. -/
  | gaugeRateFault
  /-- CX_FRAME_RECEIVE (R452): A frame received without error is matched against the acceptance filters and staged in the bound engine or discarded. -/
  | cxFrameReceive (c : Fin 8) (f : CxFrame) (stamp : Nat) (err : Bool)
  /-- CX_TX_ATTEMPT (R455): The controller offers the lowest-identifier full event buffer on the bus and frees or retries it after the attempt. -/
  | cxTxAttempt (c : Fin 8) (e : BusEnd) (delay : Byte)
  /-- CX_BUSOFF_RECOVERY_DONE (R457): Bus-off recovery completes and the channel returns to error active. -/
  | cxBusoffRecoveryDone (c : Fin 8)
  /-- CX_PROTOCOL_EXCEPTION (R448): A received FD or XL frame shows a protocol exception and the controller enters the protocol-exception state. -/
  | cxProtocolException (c : Fin 8)
  /-- CX_PXE_REINTEGRATE (R448): After 11 recessive bits the controller re-integrates to the bus. -/
  | cxPxeReintegrate (c : Fin 8)
  /-- CX_CTRL_WRITE (R460): A write of CX_CTRL enables the controller or is partly ignored while EN is 1. -/
  | cxCtrlWrite (m : Byte) (c : Fin 8) (v : Word)
  /-- DTT_ENABLE (R461): A write of DTT_CTRL.EN = 1 starts DTT in LISTEN, or sets CFG_ERR if a requirement fails. -/
  | dttEnable (m : Byte) (c : Fin 8) (v : Word)
  /-- DTT_DISABLE (R492): A write of DTT_CTRL.EN = 0 finishes the frame in progress, enters OFF and empties stitch buffers. -/
  | dttDisable (m : Byte) (c : Fin 8) (v : Word)
  /-- DTT_LISTEN_TIMEOUT (R470): The listen timer expires without a valid reference; a cold-start node enters COLDSTART, others restart. -/
  | dttListenTimeout (c : Fin 8)
  /-- DTT_START_REF_SEND (R471): In COLDSTART the node sends its start reference at the first idle or domain-aligned instant. -/
  | dttStartRefSend (c : Fin 8) (idle : Bool)
  /-- DTT_START_REF_DONE (R468): The start reference completes without error and the node enters ACTIVE, or with an error and returns to LISTEN. -/
  | dttStartRefDone (c : Fin 8) (e : BusEnd)
  /-- DTT_REFERENCE_RECEIVE (R479): A valid reference in its window integrates or corrects the node's Row time and rate. -/
  | dttReferenceReceive (c : Fin 8) (id : Fin 2048) (stamp : Nat) (data : List Byte)
  /-- DTT_RANKED_REF_SEND (R477): At its rank's position an ACTIVE node sends its ranked reference if no reference SOF has been seen. -/
  | dttRankedRefSend (c : Fin 8) (idle : Bool) (e : BusEnd)
  /-- DTT_ROW_END (R480): A Row ends without an accepted reference; the node continues, counts a miss and may enter PASSIVE or LISTEN. -/
  | dttRowEnd (c : Fin 8)
  /-- DTT_ACTION_POINT (R485): At the action point of a local-transmit stitch an ACTIVE node sends the buffer's data if the bus is idle. -/
  | dttActionPoint (c : Fin 8) (n : Fin 1023) (idle : Bool) (e : BusEnd)
  /-- DTT_MINISLOT_BOUNDARY (R488): At a minislot boundary an event frame that fits starts if the bus is idle. -/
  | dttMinislotBoundary (c : Fin 8) (k : Fin 1024) (idle used : Bool) (e : BusEnd)
  /-- POWER_REQUEST (R496): A write of WAKE_PCTRL.GO requests the state in REQ, performed by a transition of Table 10.2 or refused with REQ_REJ. -/
  | powerRequest (m : Byte) (v : Word)
  /-- AUTO_SLEEP_ENTRY (R496): With AUTO_STATE set and every enabled segment ASLEEP without HOLD, the device enters DOZE or SLEEP by itself. -/
  | autoSleepEntry
  /-- DEVICE_WAKE (R500): A wake from DOZE or SLEEP powers the named halves, re-casts them and lets cast-on arbitration grant charge anew. -/
  | deviceWake
  /-- SEG_BIND_OFF_START (R509): At the bind-off point the segment's sleep timer expires and the segment enters BIND_OFF. -/
  | segBindOffStart (n : Fin 8)
  /-- SEG_ASLEEP (R510): Bind-off completes with members disabled and the segment ASLEEP, or enters WAKING at once if a request was latched. -/
  | segAsleep (n : Fin 8)
  /-- SEG_AWAKE (R514): The WAKING steps complete within 10 µs, the segment is AWAKE and its timer restarts. -/
  | segAwake (n : Fin 8)
  /-- KEEPALIVE_RECEIVE (R509): A keep-alive frame on a member restarts the segment's sleep timer. -/
  | keepaliveReceive (p : Fin 8) (bytes : List Byte) (t : Dword)
  /-- CAN_KEEPALIVE (R507): A CAN frame matching the segment's keep-alive identifier restarts its sleep timer. -/
  | canKeepalive (c : Fin 8) (ident : BitVec 29) (ide : Bool) (t : Dword)
  /-- WAKE_FRAME_RECEIVE (R517): A wake frame seen by a member MAC or wake decoder is matched against the port's entries. -/
  | wakeFrameReceive (p : Fin 8) (bytes : List Byte) (t : Dword)
  /-- KEEPALIVE_SEND (R506): While HOLD and KA_TX are 1, a keep-alive is sent every INTERVAL ms on each member port with link up. -/
  | keepaliveSend (n : Fin 8)
  /-- SEG_HOLD_WRITE (R509): A write of WAKE_SEG_CTRL.HOLD keeps the segment awake, and HOLD = 1 is a wake request. -/
  | segHoldWrite (m : Byte) (n : Fin 8) (v : Word)
  /-- SEG_MEMB_WRITE (R502): A membership write that would put a member in two enabled segments is ignored and sets CFG_REJ. -/
  | segMembWrite (m : Byte) (n : Fin 8) (v : Word)
  /-- CAN_INH_WAKE (R519): An INH level rising and held for t_INH_FILT is a wake request for the channel's segment. -/
  | canInhWake (c : Fin 8) (level : Bool) (t : Dword)
  /-- CX_WAKE_PULSE_END (R519): CXn_WAKE returns low 100 µs after its pulse began. -/
  | cxWakePulseEnd (c : Fin 8)
  /-- USER_PATH_WAKE (R521): A WKUP pin, PERSTn release, QSPI chip select or mailbox post wakes the device per its WAKE_SRC entry. -/
  | userPathWake (i : Fin 13) (c : Fin 64) (t : Dword)
  /-- NODATA_TIMEOUT (R520): Without valid traffic within WAKE_NODATA_T of a data-path wake the device returns to the power state it left. -/
  | nodataTimeout (n : Fin 8)
  /-- WAKE_VALID_TIMEOUT (R522): A user-path wake without valid communication within WAKE_VALID_T counts a false wake and may mask its source. -/
  | wakeValidTimeout (i : Fin 13) (c : Fin 64)
  /-- INSOMNIA_ENTRY_WRITE (R525): An episode lasting WAKE_INSOMNIA_T writes an insomniac entry and copies it to the Larder. -/
  | insomniaEntryWrite (n : Fin 8)
  /-- INSOMNIA_UPDATE (R525): Every second the open insomniac entry's DURATION and COUNT are updated. -/
  | insomniaUpdate (n : Fin 8)
  /-- WAKE_FALSE_CLR_WRITE (R523): A write of WAKE_FALSE_CLR clears the named false-wake counts. -/
  | wakeFalseClrWrite (m : Byte) (v : Word)
  /-- WAKE_INS_CLR_WRITE (R526): A write of WAKE_INS_CLR clears the insomniac logs of the named segments. -/
  | wakeInsClrWrite (m : Byte) (v : Word)
  /-- HK_SET (R540): Sets LC, group pins 0 to 5 or their directions. -/
  | hkSet (e : Fin 16)
  /-- HK_LOOP (R540): Decrements LC and jumps while LC is not zero. -/
  | hkLoop (e : Fin 16)
  /-- HK_JMP (R540): Jumps if its condition holds. -/
  | hkJmp (e : Fin 16) (pins : BitVec 24)
  /-- HK_WAIT (R540): Stalls until a pin reaches a level, with optional timeout. -/
  | hkWait (e : Fin 16) (pins : BitVec 24)
  /-- HK_OUT (R541): Shifts bits out of the OSR to pins, directions or LC. -/
  | hkOut (e : Fin 16)
  /-- HK_IN (R541): Shifts bits from a source into the ISR. -/
  | hkIn (e : Fin 16) (pins : BitVec 24)
  /-- HK_PULL (R545): Moves the oldest transmit FIFO word into the OSR, or stalls on an empty FIFO. -/
  | hkPull (e : Fin 16)
  /-- HK_PUSH (R545): Writes the ISR to the receive FIFO, or stalls on a full FIFO. -/
  | hkPush (e : Fin 16)
  /-- HK_STALL_END (R545): A stalled PULL, PUSH or WAIT completes in the first cycle the FIFO or pin allows. -/
  | hkStallEnd (e : Fin 16) (pins : BitVec 24)
  /-- HK_WAIT_TIMEOUT (R546): A WAIT with timeout still false after COUNT cycles sets WAIT_TO and continues at TARGET. -/
  | hkWaitTimeout (e : Fin 16) (pins : BitVec 24)
  /-- HK_RUN_START (R550): A write of HK_CTRL.RUN = 1 starts a STOPPED engine at HK_PC. -/
  | hkRunStart (m : Byte) (e : Fin 16) (v : Word)
  /-- HK_RUN_STOP (R551): A write of RUN = 0 abandons the instruction, clears the shift registers and stops the engine. -/
  | hkRunStop (m : Byte) (e : Fin 16) (v : Word)
  /-- HK_FLUSH (R557): A write of FLUSH = 1 empties both FIFOs of a STOPPED engine. -/
  | hkFlush (m : Byte) (e : Fin 16) (v : Word)
  /-- HK_PROG_WRITE (R552): A write of HK_PROG stores an instruction while STOPPED, or is refused with PROG_REJECT and an error response. -/
  | hkProgWrite (m : Byte) (e : Fin 16) (w : Fin 64) (v : Word)
  /-- HK_TXF_WRITE (R555): A write of HK_TXF puts a word into the transmit FIFO of an unbound engine. -/
  | hkTxfWrite (m : Byte) (e : Fin 16) (v : Word)
  /-- HK_RXF_READ (R555): A read of HK_RXF removes and returns the oldest receive word of an unbound engine. -/
  | hkRxfRead (m : Byte) (e : Fin 16)
  /-- HOOK_PIN_CFG_WRITE (R537): A write of HOOK_PIN_CFG sets a pin's owner and pulls while both owners are STOPPED, or sets PIN_REJ. -/
  | hookPinCfgWrite (m : Byte) (h : Half) (q : Fin 24) (v : Word)
  /-- SCRATCHPAD_ACCESS (R563): A word access on a bank port is performed, with collisions, ECC, permission windows and ownership applied. -/
  | scratchpadAccess (pa pb : Option SpadOp)
  /-- SWEEP_BLOCK (R578): Every 100 µs the Sweep saves, march-tests and restores one 64-byte block of every bank. -/
  | sweepBlock (h : Half) (finished : Bool) (bad : Option (Fin 16))
  /-- SWEEP_FORCE (R579): A block not finished 50 µs after its start takes its remaining operations ahead of both ports. -/
  | sweepForce (h : Half) (bad : Option (Fin 16))
  /-- SPAD_ZEROING_DONE (R577): The half's banks are zeroed with valid ECC after reset release and waiting accesses proceed. -/
  | spadZeroingDone (h : Half)
  /-- BANK_OWNER_WRITE (R575): A write of BANK_OWNER by the owner or the Trivet sets the bank's owner; other writes are refused. -/
  | bankOwnerWrite (m : Byte) (n : Fin 16) (v : Byte)
  /-- VAULT_ACCESS (R582): A Vault access by the Trivet or within a delegation is performed; any other is refused. -/
  | vaultAccess (m : Byte) (off : Fin 0x40000) (len : Fin 9) (write : Bool) (data : List Byte)
  /-- VAULT_WIPE_DONE (R584): The Vault is zeroed, delegations cleared, the count incremented and accesses accepted again. -/
  | vaultWipeDone
  /-- MBX_MSG_WRITE (R587): The sender writes a message word while FULL is 0, or is refused and counted. -/
  | mbxMsgWrite (m : Byte) (c : Fin 64) (w : Fin 8) (v : Word)
  /-- MBX_RING (R587): The sender's ring sets FULL and raises the receiver's event, or sets MERGED if already FULL. -/
  | mbxRing (m : Byte) (c : Fin 64) (ack : Option Byte)
  /-- MBX_ACK (R587): The receiver's ACK clears FULL and the channel's flags. -/
  | mbxAck (m : Byte) (c : Fin 64)
  /-- MBX_BIND_WRITE (R586): A Trivet write of MBX_BIND binds a channel while the table is unlocked. -/
  | mbxBindWrite (m : Byte) (c : Fin 64) (v : Word)
  /-- MBX_BIND_LOCK_SET (R586): A Trivet write of MBX_BIND_LOCK.LOCK = 1 makes the binding table read-only until Level 1 reset. -/
  | mbxBindLockSet (m : Byte)
  /-- MBX_LOCK_READ (R595): A lock read takes a free lock for the reader or returns the current owner's ID. -/
  | mbxLockRead (k : Fin 32) (readers : List Byte)
  /-- MBX_LOCK_WRITE (R596): A write by the owner or the Trivet frees a lock; others are refused. -/
  | mbxLockWrite (m : Byte) (k : Fin 32)
  /-- MTIMECMP_WRITE (R602): A write of mtimecmp sets the machine timer compare from the next CORE clock. -/
  | mtimecmpWrite (k : Fin 4) (v : Dword)
  /-- MACHINE_TIMER_INTERRUPT (R602): The machine timer interrupt becomes pending when the raw count reaches mtimecmp. -/
  | machineTimerInterrupt (k : Fin 4)
  /-- MIRQ_CLR1_WRITE (R610): A write of MIRQ_CLR1 clears the named clearable pending sources. -/
  | mirqClr1Write (k : Fin 4) (v raised : Dword)
  /-- HART_AMO_SCRATCHPAD (R604): An AMO to own-half scratchpad is performed on port A in two consecutive cycles. -/
  | hartAmoScratchpad (k : Fin 4) (op : AmoOp) (wide : Bool) (a : BitVec 40) (v : Dword) (ecc : Ecc) (b1 b2 : Option SpadOp)
  /-- LOCKSTEP_ERROR (R607): Differing lockstep outputs halt both harts, assert the half's lockstep reset source and suppress the heartbeat. -/
  | lockstepError (h : Half)
  /-- DRAM_TRAINING_DONE (R612): Training of a DRAM port completes, or fails and keeps the half in INIT. -/
  | dramTrainingDone (h : Half) (ok : Bool)
  /-- DRAM_CLEAR_DONE (R816): The background clear of a port's capacity after full training ends and patrol and audit start. -/
  | dramClearDone (h : Half)
  /-- PATROL_BLOCK (R618): The patrol reads the next 64-byte block and handles its errors, auditing the mirror copy when SYNC. -/
  | patrolBlock (h : Half) (ecc mirrorEcc : Ecc)
  /-- RESILVER_DONE (R619): The resilver copy of the mirrored range completes and the mirror enters SYNC. -/
  | resilverDone
  /-- LARDER_SNAPSHOT_TRIGGER (R624): A Larder compare event starts a snapshot of the cyclic or fast store, or is skipped if the previous one is unwritten. -/
  | larderSnapshotTrigger
  /-- LARDER_SNAPSHOT_DONE (R625): A snapshot's header and data pages have been written to its ring. -/
  | larderSnapshotDone (d : SnapDone)
  /-- LARDER_EVENT_WRITE (R626): An event record is written to the event ring, or dropped and counted if events come too fast. -/
  | larderEventWrite (drop : Bool)
  /-- FREEZE_PIN (R628): The FREEZE pin triggers a Larder freeze. -/
  | freezePin
  /-- LARDER_ENABLE (R622): A write of LARDER_CTRL.EN starts recording, or is refused with CFG_ERR for an invalid partition. -/
  | larderEnable (m : Byte) (v : Word)
  /-- KCP_PACKET_ARRIVAL (R637): A KCP packet is checked in order and either replied to at once with an error or counted as an outstanding command. -/
  | kcpPacketArrival (t : Fin 6) (slot : Fin 32) (bytes : List Byte)
  /-- KCP_COMMAND_START (R638): A waiting command starts execution when its opcode group and ordering allow, rechecking role and target. -/
  | kcpCommandStart (t : Fin 6) (tag : BitVec 16)
  /-- KCP_COMMAND_TIMEOUT (R641): A command that has not reached its commit point when its timer expires is dropped with TIMEOUT. -/
  | kcpCommandTimeout (t : Fin 6) (tag : BitVec 16)
  /-- KCP_SELF_EFFECT_START (R643): t_KCP_SELF after its reply, a command that resets or removes its own transport's half starts its effect. -/
  | kcpSelfEffectStart
  /-- TRANSPORT_DOWN (R644): A transport going down drops its uncommitted commands and discards replies of committed ones. -/
  | transportDown (t : Fin 6) (how : PciDown)
  /-- SESSION_IDLE_TIMEOUT (R650): After 60 s without a command a session loses SAFETY, and a UDP session closes. -/
  | sessionIdleTimeout (t : Fin 6) (n : Fin 9)
  /-- AUTH_LOCK_END (R649): 60 s after five failed proofs, SESSION_AUTH on the transport is accepted again. -/
  | authLockEnd (t : Fin 6)
  /-- KCP_DB_WRITE (R659): A write of KCP_DB posts ring slots, which the MP9624 fetches, executes and replies to, or ignores. -/
  | kcpDbWrite (m : Byte) (h : Half) (descs : List (Fin 32 × RingDesc)) (v : Word)
  /-- KCP_SLOT_REPLY (R659): The reply of a ring slot is written with RSP_LEN, BUSY cleared, DONE set and host source 0 raised. -/
  | kcpSlotReply (t : Fin 2) (slot : Fin 32)
  /-- PCIE_APERTURE_ACCESS (R662): A TLP to BAR2 is split into aligned accesses at the aperture base as the endpoint's master. -/
  | pcieApertureAccess (t : Fin 2) (off : BitVec 18) (write : Bool) (be : List Bool) (data : List Byte) (env : List (Nat × BusEnv))
  /-- MSIX_VECTOR_ACTIVE (R675): A vector becoming active sends its MSI-X message, or sets its PBA bit if masked. -/
  | msixVectorActive (t : Fin 2) (v : Fin 32)
  /-- HI_CLR_WRITE (R674): A write of HI_CLR clears the charge-change host interrupt source. -/
  | hiClrWrite (m : Byte) (t : Fin 5) (v : Word) (raised : Bool)
  /-- RDSR (R663): QSPI function returning QH_TSTAT repeatedly. -/
  | rdsr (h : Half) (width : Fin 4) (n : Nat)
  /-- WRCMD (R664): QSPI function writing bytes into the command FIFO, discarding overflow. -/
  | wrcmd (h : Half) (width : Fin 4) (bytes : List Byte)
  /-- RDRSP (R664): QSPI function reading bytes from the reply FIFO. -/
  | rdrsp (h : Half) (width : Fin 4) (n : Nat)
  /-- RDMEM (R665): QSPI function reading words from ascending addresses, returning 0 for late or failed reads. -/
  | rdmem (h : Half) (width : Fin 4) (addr : BitVec 40) (n : Nat) (late : Option Nat) (env : List (Nat × BusEnv))
  /-- WRMEM (R666): QSPI function writing words to ascending addresses. -/
  | wrmem (h : Half) (width : Fin 4) (addr : BitVec 40) (bytes : List Byte) (env : List (Nat × BusEnv))
  /-- CLRSR (R663): QSPI function clearing the sticky bits of QH_TSTAT. -/
  | clrsr (h : Half) (width : Fin 4)
  /-- LB_CMD (R668): Legacy bus write of two bytes into the command FIFO. -/
  | lbCmd (v : BitVec 16)
  /-- LB_RSP (R668): Legacy bus read of two bytes from the reply FIFO. -/
  | lbRsp
  /-- LB_CLR (R668): Legacy bus write clearing the sticky bits of LB_TSTAT. -/
  | lbClr
  /-- LB_WINDOW_ACCESS (R669): Legacy bus halfword accesses in the window latch or perform one 32-bit access. -/
  | lbWindowAccess (a : BitVec 21) (write : Bool) (v : BitVec 16) (e : BusEnv)
  /-- KCP_DATAGRAM_RECEIVE (R672): A UDP KCP datagram is authenticated and replay-checked and its packet handed to the interpreter, or discarded. -/
  | kcpDatagramReceive (h : Half)
  /-- KCP_ARP_REPLY (R670): The UDP endpoint answers an ARP request for KCP_IP. -/
  | kcpArpReply (h : Half)
  /-- PING (R652): Returns SYS_ID, the epoch and the raw count. -/
  | ping (t : Fin 6) (tag : BitVec 16)
  /-- INFO (R652): Returns straps, lifecycle, power state, charge and firmware version. -/
  | info (t : Fin 6) (tag : BitVec 16)
  /-- REG_READ (R654): Reads N register words as master 0x01. -/
  | regRead (t : Fin 6) (tag : BitVec 16) (env : List (Nat × BusEnv))
  /-- REG_WRITE (R654): Writes N register words as master 0x01, stopping at the first failure. -/
  | regWrite (t : Fin 6) (tag : BitVec 16) (env : List (Nat × BusEnv))
  /-- MEM_READ (R654): Reads memory bytes as master 0x01. -/
  | memRead (t : Fin 6) (tag : BitVec 16) (env : List (Nat × BusEnv))
  /-- MEM_WRITE (R654): Writes memory bytes as master 0x01. -/
  | memWrite (t : Fin 6) (tag : BitVec 16) (env : List (Nat × BusEnv))
  /-- RESET (R732): Asserts a reset of the given level on its target for t_RST_MIN and releases it. -/
  | reset (t : Fin 6) (tag : BitVec 16)
  /-- KCP_RESET_RELEASE (R732): t_RST_MIN after a KCP RESET asserted, the reset is released. -/
  | kcpResetRelease (level target index : Byte)
  /-- SESSION_OPEN (R646): Opens a UDP session as OPERATOR. -/
  | sessionOpen (tag : BitVec 16)
  /-- SESSION_AUTH (R647): Returns a 16-byte nonce for a proof. -/
  | sessionAuth (t : Fin 6) (tag : BitVec 16)
  /-- SESSION_PROVE (R647): Checks a CMAC proof and grants SAFETY, or replies AUTH_FAIL or ROLE_HELD. -/
  | sessionProve (t : Fin 6) (tag : BitVec 16)
  /-- SESSION_CLOSE (R650): Closes the session and drops its role. -/
  | sessionClose (t : Fin 6) (tag : BitVec 16)
  /-- SESSION_DROP (R650): Drops SAFETY from the session. -/
  | sessionDrop (t : Fin 6) (tag : BitVec 16)
  /-- FAULT_READ (R683): Returns held fault-log entries from FIRST. -/
  | faultRead (t : Fin 6) (tag : BitVec 16)
  /-- FAULT_CLEAR (R686): Clears SYS_FLT_LATCH if no fault condition is active. -/
  | faultClear (t : Fin 6) (tag : BitVec 16) (raised : Fin 4)
  /-- IMG_BEGIN (R655): Opens an image handle for staging. -/
  | imgBegin (t : Fin 6) (tag : BitVec 16)
  /-- IMG_DATA (R655): Writes image bytes into the staging area. -/
  | imgData (t : Fin 6) (tag : BitVec 16)
  /-- IMG_COMMIT (R768): Verifies a staged image and writes a boot slot or patch area where named. -/
  | imgCommit (t : Fin 6) (tag : BitVec 16)
  /-- IMG_ABORT (R655): Discards an image handle. -/
  | imgAbort (t : Fin 6) (tag : BitVec 16)
  /-- NE_LOAD (R161): Loads a Recipe into a STOPPED engine through LOADING. -/
  | neLoad (t : Fin 6) (tag : BitVec 16)
  /-- NE_RUN (R652): Requests RUNNING or STOPPED for an engine. -/
  | neRun (t : Fin 6) (tag : BitVec 16)
  /-- NE_RESET (R159): Applies a Level 4 reset to an engine, leaving it STOPPED with LOADED = 0. -/
  | neReset (t : Fin 6) (tag : BitVec 16)
  /-- NE_INFO (R652): Returns an engine's status, Recipe, fault and counts. -/
  | neInfo (t : Fin 6) (tag : BitVec 16)
  /-- PROFILE_CFG (R252): Configures a profile, refusing configurations outside its limits. -/
  | profileCfg (t : Fin 6) (tag : BitVec 16)
  /-- PORT_CFG (R652): Writes a port's MAC_CTRL, source address and PAUSE settings. -/
  | portCfg (t : Fin 6) (tag : BitVec 16)
  /-- PORT_FILTER (R276): Writes a unicast or multicast filter entry. -/
  | portFilter (t : Fin 6) (tag : BitVec 16)
  /-- PORT_STATS (R652): Returns a port's counters and period shadows. -/
  | portStats (t : Fin 6) (tag : BitVec 16)
  /-- PORT_PERIOD (R303): Configures period statistics of a port. -/
  | portPeriod (t : Fin 6) (tag : BitVec 16)
  /-- TL_CFG (R652): Writes TL_CTRL of a TL port. -/
  | tlCfg (t : Fin 6) (tag : BitVec 16)
  /-- SD_CFG (R652): Writes SD_CTRL and SD_TXEQ of a lane. -/
  | sdCfg (t : Fin 6) (tag : BitVec 16)
  /-- RG_CFG (R652): Writes RG_CTRL. -/
  | rgCfg (t : Fin 6) (tag : BitVec 16)
  /-- CX_CFG (R652): Writes a CX controller's control and timing registers. -/
  | cxCfg (t : Fin 6) (tag : BitVec 16)
  /-- CX_FILTER (R652): Writes acceptance filters of a CX controller. -/
  | cxFilter (t : Fin 6) (tag : BitVec 16)
  /-- FWD_INSERT (R352): Inserts a forwarding entry into its hashed bucket, refusing a full bucket. -/
  | fwdInsert (t : Fin 6) (tag : BitVec 16)
  /-- FWD_UPDATE (R353): Rewrites a forwarding entry in place. -/
  | fwdUpdate (t : Fin 6) (tag : BitVec 16)
  /-- FWD_DELETE (R353): Invalidates a forwarding entry. -/
  | fwdDelete (t : Fin 6) (tag : BitVec 16)
  /-- FWD_READ (R652): Returns forwarding entries. -/
  | fwdRead (t : Fin 6) (tag : BitVec 16)
  /-- QOS_CFG (R656): Writes an account, Sieve point, meter or port register set. -/
  | qosCfg (t : Fin 6) (tag : BitVec 16)
  /-- GATE_LOAD (R382): Loads an admin gate list and requests the bank swap. -/
  | gateLoad (t : Fin 6) (tag : BitVec 16)
  /-- RED_CFG (R652): Configures redundancy roles, twin check and duplicate ageing. -/
  | redCfg (t : Fin 6) (tag : BitVec 16)
  /-- REF_SEL (R410): Selects the Gauge reference and automatic switchover. -/
  | refSel (t : Fin 6) (tag : BitVec 16)
  /-- DOM_CFG (R428): Sets a domain's owner, alternate and holdover watchdog. -/
  | domCfg (t : Fin 6) (tag : BitVec 16)
  /-- DOM_COMMIT (R419): Stages and requests a domain commit. -/
  | domCommit (t : Fin 6) (tag : BitVec 16)
  /-- CMP_CFG (R432): Configures a Gauge compare unit. -/
  | cmpCfg (t : Fin 6) (tag : BitVec 16)
  /-- PPS_CFG (R433): Configures a PPS output. -/
  | ppsCfg (t : Fin 6) (tag : BitVec 16)
  /-- PTP_CFG (R441): Configures a PTP instance, refusing an owned domain. -/
  | ptpCfg (t : Fin 6) (tag : BitVec 16)
  /-- PTP_STATUS (R652): Returns a PTP instance's state. -/
  | ptpStatus (t : Fin 6) (tag : BitVec 16)
  /-- TSC_CFG (R436): Configures timestamp corrections of a port. -/
  | tscCfg (t : Fin 6) (tag : BitVec 16)
  /-- PATTERN_LOAD (R491): Installs a DTT Pattern after the loader checks. -/
  | patternLoad (t : Fin 6) (tag : BitVec 16)
  /-- DTT_CFG (R492): Writes DTT role, limits and sync registers while OFF. -/
  | dttCfg (t : Fin 6) (tag : BitVec 16)
  /-- DTT_RUN (R461): Enables or disables DTT on a channel. -/
  | dttRun (t : Fin 6) (tag : BitVec 16)
  /-- DTT_INFO (R652): Returns DTT registers and per-stitch counts. -/
  | dttInfo (t : Fin 6) (tag : BitVec 16)
  /-- DTT_COL_MAP (R483): Writes the Colander-fed stitch map while OFF. -/
  | dttColMap (t : Fin 6) (tag : BitVec 16)
  /-- PSTATE_REQ (R496): Requests a power-state transition. -/
  | pstateReq (t : Fin 6) (tag : BitVec 16)
  /-- SEG_CFG (R502): Configures a wake segment. -/
  | segCfg (t : Fin 6) (tag : BitVec 16)
  /-- SEG_HOLD (R509): Sets or clears a segment's HOLD. -/
  | segHold (t : Fin 6) (tag : BitVec 16)
  /-- WAKE_ENTRY (R517): Writes a TL wake entry. -/
  | wakeEntry (t : Fin 6) (tag : BitVec 16)
  /-- WAKE_SRC (R522): Configures a user-path wake source and may clear its count. -/
  | wakeSrc (t : Fin 6) (tag : BitVec 16)
  /-- WAKE_GLOBAL (R652): Writes the global wake registers. -/
  | wakeGlobal (t : Fin 6) (tag : BitVec 16)
  /-- INSOMNIA_READ (R526): Returns a segment's insomniac log. -/
  | insomniaRead (t : Fin 6) (tag : BitVec 16)
  /-- INSOMNIA_CLR (R526): Clears insomniac logs. -/
  | insomniaClr (t : Fin 6) (tag : BitVec 16)
  /-- HK_LOAD (R544): Loads a Hook program into a STOPPED engine, refusing reserved words. -/
  | hkLoad (t : Fin 6) (tag : BitVec 16)
  /-- HK_CFG (R553): Writes a Hook engine's configuration registers. -/
  | hkCfg (t : Fin 6) (tag : BitVec 16)
  /-- HK_RUN (R550): Starts or stops a Hook engine at a PC. -/
  | hkRun (t : Fin 6) (tag : BitVec 16)
  /-- HK_PIN (R537): Writes HOOK_PIN_CFG of a pin. -/
  | hkPin (t : Fin 6) (tag : BitVec 16)
  /-- SPAD_WIN (R573): Writes a scratchpad permission window and PERM_EN. -/
  | spadWin (t : Fin 6) (tag : BitVec 16)
  /-- MBX_BIND (R586): Binds a mailbox channel and optionally locks the table. -/
  | mbxBind (t : Fin 6) (tag : BitVec 16)
  /-- MEM_TEST (R652): Runs a destructive test of a half's banks while in SERVICE. -/
  | memTest (t : Fin 6) (tag : BitVec 16) (bad : Option (Fin 0x200000))
  /-- BANK_OWNER (R575): Sets a bank owner in 6412 mode. -/
  | bankOwner (t : Fin 6) (tag : BitVec 16)
  /-- LARDER_CFG (R622): Configures Larder partitions, sources, triggers and freeze. -/
  | larderCfg (t : Fin 6) (tag : BitVec 16)
  /-- LARDER_FREEZE (R628): Triggers a Larder freeze and returns its instant. -/
  | larderFreeze (t : Fin 6) (tag : BitVec 16)
  /-- LARDER_RELEASE (R629): Releases a held freeze. -/
  | larderRelease (t : Fin 6) (tag : BitVec 16)
  /-- LARDER_PAGES (R631): Exports Larder pages. -/
  | larderPages (t : Fin 6) (tag : BitVec 16) (lapped : Bool)
  /-- LARDER_EVENTS (R631): Exports Larder event records. -/
  | larderEvents (t : Fin 6) (tag : BitVec 16) (lapped : Bool)
  /-- CHG_STATUS (R652): Returns charge and Tension status. -/
  | chgStatus (t : Fin 6) (tag : BitVec 16)
  /-- SERVICE (R82): Takes a half into SERVICE, through a planned handover if it holds charge. -/
  | service (t : Fin 6) (tag : BitVec 16)
  /-- RECAST (R74): Re-casts a half in SERVICE by T9. -/
  | recast (t : Fin 6) (tag : BitVec 16)
  /-- HANDOVER (R83): Schedules a planned handover at the next trigger instant. -/
  | handover (t : Fin 6) (tag : BitVec 16)
  /-- IA_CFG (R144): Writes input-agreement control and region registers. -/
  | iaCfg (t : Fin 6) (tag : BitVec 16)
  /-- RS_CFG (R130): Writes resynchronisation windows. -/
  | rsCfg (t : Fin 6) (tag : BitVec 16)
  /-- COL_CFG (R687): Writes Colander stream entries, discarding queued copies of rewritten streams. -/
  | colCfg (t : Fin 6) (tag : BitVec 16)
  /-- TRV_CFG (R652): Writes probation length and COL_WAIT. -/
  | trvCfg (t : Fin 6) (tag : BitVec 16)
  /-- TWIN_CFG (R135): Sets the twin INDEX. -/
  | twinCfg (t : Fin 6) (tag : BitVec 16)
  /-- DIGESTS (R652): Returns a half's image, Recipe and stream-table digests. -/
  | digests (t : Fin 6) (tag : BitVec 16)
  /-- UPDATE_ADMIT (R133): Stages or clears update digests for a half in SERVICE. -/
  | updateAdmit (t : Fin 6) (tag : BitVec 16)
  /-- LC_GET (R755): Returns the lifecycle state and counters. -/
  | lcGet (t : Fin 6) (tag : BitVec 16)
  /-- LC_SET (R760): Performs an authorised lifecycle transition by programming a fuse word and resetting. -/
  | lcSet (t : Fin 6) (tag : BitVec 16)
  /-- KEY_LOAD (R766): Programs or revokes a key slot, or programs PERM_OFF. -/
  | keyLoad (t : Fin 6) (tag : BitVec 16)
  /-- VAULT_DELEGATE (R582): Sets a Vault delegation. -/
  | vaultDelegate (t : Fin 6) (tag : BitVec 16)
  /-- VAULT_WIPE (R583): Wipes the Vault on command. -/
  | vaultWipe (t : Fin 6) (tag : BitVec 16)
  /-- ROLLBACK_SET (R764): Advances an anti-rollback counter by programming its next word. -/
  | rollbackSet (t : Fin 6) (tag : BitVec 16)
  /-- BOOT_SLOT (R739): Sets the boot source slot in SYS_BOOT. -/
  | bootSlot (t : Fin 6) (tag : BitVec 16)
  /-- DEBUG_UNLOCK (R774): Unlocks debug of named halves in SERVICE with a valid token. -/
  | debugUnlock (t : Fin 6) (tag : BitVec 16)
  /-- FUSE_PROGRAM_DONE (R760): A fuse word's three copies are programmed and read back, after which the lifecycle wipe and reset follow. -/
  | fuseProgramDone
  /-- SYS_FLT_RSEQ_WRITE (R682): The reader advances SYS_FLT_RSEQ, ending the unread-entry interrupt when it reaches WSEQ. -/
  | sysFltRseqWrite (m : Byte) (v : Word)
  /-- RAIL_SUPERVISOR_TRIP (R710): A rail out of range for t_SUP_TRIP asserts its supervisor's reset source. -/
  | railSupervisorTrip (i : Fin 12)
  /-- RAIL_SUPERVISOR_RELEASE (R710): A rail back in range for t_SUP_REL releases its supervisor. -/
  | railSupervisorRelease (i : Fin 12)
  /-- RESET_PIN_ASSERT (R731): A low level on PORn or SRSTn lasting the filter time is a reset source assertion. -/
  | resetPinAssert (p : RstPin)
  /-- RESET_SOURCE_ASSERT (R733): An asserted reset source stops every unit of its reach, puts its pins in reset state, raises its fault and records RST_CAUSE. -/
  | resetSourceAssert (i : Fin 23)
  /-- RESET_SOURCE_RELEASE (R728): When the last source reaching a unit releases, the release sequence of the widest reach asserted starts. -/
  | resetSourceRelease (i : Fin 23)
  /-- RST_RELEASE_WRITE (R730): A Trivet write of RST_RELEASE releases latched resets. -/
  | rstReleaseWrite (m : Byte) (v : Word)
  /-- FUSE_LOAD_DONE (R736): The fuse controller loads and votes every fuse word, or enters the fuse-fault hold. -/
  | fuseLoadDone
  /-- TRIVET_ROM_BOOT_DONE (R749): The Trivet ROM boot completes its self-test, patch verification and Vault wipe. -/
  | trivetRomBootDone (patched : Bool)
  /-- HALF_PLL_LOCK (R725): A half's PLLs lock and the half is released. -/
  | halfPllLock (h : Half)
  /-- HALF_PLL_LOCK_LOSS (R721): A half PLL losing lock asserts the half watchdog source within 2 µs and records CLK_EVT. -/
  | halfPllLockLoss (h : Half)
  /-- HALF_REF_FAIL (R720): A half's reference fails; the half reports HEALTHY = 0 and is demoted while its PLLs hold frequency. -/
  | halfRefFail (h : Half)
  /-- HALF_PLL_HOLD_END (R720): The frequency hold after a half reference failure ends and the PLLs lose lock. -/
  | halfPllHoldEnd (h : Half)
  /-- TRV_OSC_CHECK (R722): Every 100 µs the Trivet oscillator is measured and a deviation over 6 % asserts the Trivet lockstep-error line. -/
  | trvOscCheck (dk dp : BitVec 16)
  /-- OVER_TEMPERATURE_TRIP (R727): The die sensor reaching 120 °C asserts the over-temperature reset source until it reads below 105 °C. -/
  | overTemperatureTrip (tj : BitVec 16) (trip : Bool)
  /-- XTAL_GOOD (R723): The REF_AON crystal becomes good and the AON domain switches from its RC oscillator. -/
  | xtalGood
  /-- IMAGE_LOAD_DONE (R770): The boot ROM finishes loading and verifying a slot's images, falling back once to the other slot on failure. -/
  | imageLoadDone (h : Half) (a b : Bool) (image : List Byte) (recipes : List (Fin 12 × List Byte))
  /-- MODE6412_WRITE (R742): A write of SYS_MODE.M6412 enters 6412 mode or takes the legacy bus down. -/
  | mode6412Write (m : Byte) (v : Word)
  /-- TAMPER_EVENT (R773): A filtered TAMPERn or glitch detector trip sets its cause, counts, wipes the Vault and raises F2. -/
  | tamperEvent (cause : Fin 3)
  /-- HALF_WATCHDOG_EXPIRY (R95): The half watchdog flags a stopped or out-of-range CORE clock or harts not progressing, suppresses the heartbeat and asserts reset source 15 or 16. -/
  | halfWatchdogExpiry (h : Half)
  /-- ALIVE_LINE_TOGGLE (R124): Every 500 ns the Trivet toggles the alive line to each half, restarting the half's 2 µs alive timer. -/
  | aliveLineToggle
  /-- TRANSPORT_UP (R646): A KCP transport comes up (PERSTn release with link up, QH_CFG.EN = 1, entry to 6412 mode, or half reset release) and session 0 opens with role OPERATOR. -/
  | transportUp (t : Fin 6) (width : Fin 16) (speed : Fin 4)
  /-- CX_BUS_INTEGRATED (R494): After being enabled, a CX controller integrates to bus activity and sets CX_STATUS.SYNCED. -/
  | cxBusIntegrated (c : Fin 8)
  /-- SD_PRBS_LOCK (R330): The PRBS31 checker of a lane in PRBS test locks to the received pattern, sets PRBS_LOCK and starts counting bit errors. -/
  | sdPrbsLock (l : Fin 8) (errors : Nat)
  /-- PWR_TEMP_PEAK_RESET (R754): A write of any 1 bit to PWR_TEMP.PEAK sets PEAK to the current TJ. -/
  | pwrTempPeakReset (m : Byte) (v : Word)
  /-- NE_INL_LAT_CLEAR (R193): A write of any 1 bit to NE_INL_LAT.MAX_NS clears the whole field. -/
  | neInlLatClear (m : Byte) (i : Fin 24) (v : Word)
  /-- VDDIO_CLASS_SET (R711): 100 µs after a VDDIO bank first rises above 1.0 V its class is fixed as 1.8 V or 3.3 V, selecting its supervisor thresholds. -/
  | vddioClassSet (bank : Fin 10) (mv : Nat)
  /-- PCIE_BUS_MASTER_ENABLE (R660): The host sets Bus Master Enable and the endpoint's waiting descriptor fetches and reply writes proceed. -/
  | pcieBusMasterEnable (t : Fin 2) (on : Bool)
  /-- MSIX_VECTOR_UNMASK (R675): The host unmasks an MSI-X vector and, if the vector is still active, its message is sent then. -/
  | msixVectorUnmask (t : Fin 2) (v : Fin 32) (addr data : BitVec 64) (mask : Bool)
  /-- RECIPE_VERIFY_DONE (R246): Signature verification of a Recipe image ends; on success the engine enters LOADING and its areas are zeroed, on failure of checks 0x01 to 0x03 the engine keeps its Recipe and KCP replies. -/
  | recipeVerifyDone (i : Fin 24)
  deriving DecidableEq, Repr

end Sys2Proof
end

