-- ==== Sys2Proof/Decode.lean ====
section
/-! DEFINITION. The commands that a word spells: no row of spec/opcode_table.json gives bits, so no word spells one. -/

namespace Sys2Proof

/-- The command that a word of `nbits` bits spells by the bits of the opcode table, which gives none. -/
def decodeTableWord (_nbits _w : Nat) : Option Instr := none

end Sys2Proof
end

