-- ==== Sys2Proof/Config.lean ====
section
/-! DEFINITION. What the spec leaves open and what lies outside the block, as constants without a body: nothing in
Lean can evaluate them, so a statement holds whatever they are. Each has its entry in the assumption log. -/

namespace Sys2Proof

/-- The n-th free value of the run. -/
opaque Config.free : Nat → Nat

/-- The payload of an event record of a type whose layout the spec does not give (R626). -/
opaque Config.evtPayload : Nat → Nat → Nat → List Byte

/-- The header fields SEC, SDT, VCID and AF of a CAN XL event frame, which no rule states (R455, R688). -/
opaque Config.xlSec : Bool
opaque Config.xlSdt : Nat
opaque Config.xlVcid : Nat
opaque Config.xlAf : Nat

/-- The nonces of the security block (R647). -/
opaque Config.nonce : Nat → Nat
/-- The 49-byte compressed public keys of the two ROM keys (R756, R767). -/
opaque Config.romKey : Nat → List Byte

/-- Header fields of an IPv4 reply that no rule states: type of service, identification by SEQ, flags and fragment offset,
time to live (R673). -/
opaque Config.ipTos : Nat
opaque Config.ipIdent : Nat → Nat
opaque Config.ipFlags : Nat
opaque Config.ipTtl : Nat

/-- Firmware version and patch level that INFO reports (R652). -/
opaque Config.fwVersion : Nat
opaque Config.patchLevel : Nat

/-- The layout of the list of sources and the EPOCH on the header page of a Larder snapshot (R625), from the source
registers and the epoch. -/
opaque Config.larderHead : List Byte → Nat → List Byte

/-- What a profile block asks for: switch ports, serial lines, scratchpad in bytes; the cycles and rates of Table 5.2 in its
order, times in ns and rates per second; its numbers of nodes and data in the order of the table; and whether it asks for an
option that the table lists as not supported (R250, R251). -/
structure ProfileCfg where
  ports : List Nat
  lines : Nat
  scratch : Nat
  rates : List Nat
  amounts : List Nat
  extra : Bool
  deriving DecidableEq, Repr, Inhabited

/-- What a profile block spells for the Recipe an engine holds (NE_RECIPE): its layout is that of the Recipe's documentation
(R252, Table 14.5). -/
opaque Config.profileBlock : Nat → List Byte → ProfileCfg

/-- What PTP_STATUS reports of an instance at the n-th free value, which its Recipe computes, and the longest such report
(Table 14.5). -/
opaque Config.ptpStatus : Nat → Nat → List Byte
opaque Config.ptpReplyMax : Nat

/-- The digest of a Recipe set, from the engines and the digests of their Recipes, and the digest reported for a half without
an application image (R132, Table 14.5). -/
opaque Config.setDigest : List (Nat × Nat) → Nat
opaque Config.noImage : Nat

/-- The bytes of an application image that stand at its LOAD_ADDR (Table 17.5 does not say which). -/
opaque Config.imageLoad : List Byte → List Byte

/-- The half that TARGET of IMG_BEGIN names for a load by a host, where it names one (R740). -/
opaque Config.loadTarget : Nat → Option Nat

/-- The half and the boot slot that TARGET of IMG_BEGIN names, where it names one: its codes are not given (Table 14.5). -/
opaque Config.bootTarget : Nat → Option (Nat × Nat)

/-- MEM_TEST: the result byte of a test that passes and of one that fails, the address reported when none failed, and what a
byte of a bank holds after the n-th free value's test (Table 14.5 states none of them). -/
opaque Config.testPass : Byte
opaque Config.testFail : Byte
opaque Config.testNoAddr : Nat
opaque Config.testByte : Nat → Nat → Byte

/-- The boot ROM images of Knit (0) and Purl (1), and the Trivet's ROM of 64 KiB, which no rule gives (R25, R34). -/
opaque Config.rom : Nat → Nat → Byte
opaque Config.trvRom : Nat → Byte

/-- The length in ticks of the interval in which the caps of the Tension link are counted (R93). -/
opaque Config.capInterval : Nat

/-- What a counter of a hart's own execution reads at the n-th free value: mcycle, minstret, mhpmcounter3 to 6, their
unprivileged views and the CSRs that hold program state (R601). -/
opaque Config.hartCount : Nat → Nat → Nat

/-- What a byte of an engine's staging areas holds after its n-th staging, whose placement no rule gives (R154): engine, n,
offset in the window. -/
opaque Config.stagedByte : Nat → Nat → Nat → Byte

end Sys2Proof
end

