-- ==== Sys2Proof/Machine/Bits.lean ====
section
/-! DEFINITION. Bit fields of register words, the order of bytes, and the CRCs the spec names: CRC-16 of
R89, and the CRC-32 of a frame check sequence and CRC-32C. -/

namespace Sys2Proof.Machine
open Sys2Proof

/-- The width of a field. -/
def fldWidth (f : Fld) : Nat := f.hi + 1 - f.lo

/-- The value of field `f` in word `w`. -/
def fget (f : Fld) (w : Word) : Nat := (w >>> f.lo).toNat % 2 ^ fldWidth f

/-- Word `w` with field `f` set to the low bits of `v`, every other bit as it was. -/
def fput (f : Fld) (w : Word) (v : Nat) : Word :=
  BitVec.ofNat 32 (w.toNat % 2 ^ f.lo + (v % 2 ^ fldWidth f) * 2 ^ f.lo + w.toNat / 2 ^ (f.hi + 1) * 2 ^ (f.hi + 1))

/-- Bit `i` of a number. -/
def bitAt (v i : Nat) : Bool := v / 2 ^ i % 2 == 1

/-- 1 for true and 0 for false. -/
def b2n (b : Bool) : Nat := if b then 1 else 0

/-- The number that little-endian bytes spell (R8). -/
def leNat : List Byte → Nat
  | [] => 0
  | b :: bs => b.toNat + 256 * leNat bs

/-- `n` little-endian bytes of a number (R8). -/
def leBytes : Nat → Nat → List Byte
  | 0, _ => []
  | n + 1, v => BitVec.ofNat 8 v :: leBytes n (v / 256)

/-- `n` big-endian bytes of a number, for fields of network frames. -/
def beBytes (n v : Nat) : List Byte := (leBytes n v).reverse

/-- The number that big-endian bytes spell. -/
def beNat (bs : List Byte) : Nat := leNat bs.reverse

/-- Bytes `off` to `off + n - 1` of a list; bytes past its end are left out. -/
def slice (bs : List Byte) (off n : Nat) : List Byte := (bs.drop off).take n

/-- `bs` with the bytes of `v` laid over it from offset `off`. -/
def overlay (bs : List Byte) (off : Nat) (v : List Byte) : List Byte :=
  bs.take off ++ v ++ bs.drop (off + v.length)

/-- `bs` cut or filled with zeros to exactly `n` bytes. -/
def padTo (n : Nat) (bs : List Byte) : List Byte := bs.take n ++ List.replicate (n - bs.length) 0

/-- The bits of a byte, most significant first. -/
def byteBits (b : Byte) : List Bool := (List.range 8).map fun i => b.getLsbD (7 - i)

/-- The bits of a byte, least significant first. -/
def byteBitsR (b : Byte) : List Bool := (List.range 8).map fun i => b.getLsbD i

/-- One step of an unreflected CRC of `n` bits with polynomial `poly`. -/
def crcStep (n poly : Nat) (c : Nat) (b : Bool) : Nat :=
  let top := bitAt c (n - 1) != b
  let sh := (c * 2) % 2 ^ n
  if top then sh ^^^ poly else sh

/-- An unreflected CRC over a list of bits, first bit first. -/
def crcBits (n poly init : Nat) (bits : List Bool) : Nat := bits.foldl (crcStep n poly) init

/-- The CRC-16 of R89: polynomial 0x1021, initial value 0xFFFF, no reflection, no final XOR. -/
def crc16 (bs : List Byte) : Nat := crcBits 16 0x1021 0xFFFF (bs.flatMap byteBits)

/-- One step of a reflected CRC of 32 bits with reflected polynomial `poly`. -/
def crcStepR (poly : Nat) (c : Nat) (b : Bool) : Nat :=
  let low := bitAt c 0 != b
  let sh := c / 2
  if low then sh ^^^ poly else sh

/-- A reflected 32-bit CRC over bytes, with initial value and final XOR of all ones. -/
def crc32With (poly : Nat) (bs : List Byte) : Nat :=
  (bs.flatMap byteBitsR).foldl (crcStepR poly) 0xFFFFFFFF ^^^ 0xFFFFFFFF

/-- The CRC-32 of an Ethernet frame check sequence (reflected polynomial 0xEDB88320). -/
def crc32 (bs : List Byte) : Nat := crc32With 0xEDB88320 bs

/-- CRC-32C (reflected polynomial 0x82F63B78). -/
def crc32c (bs : List Byte) : Nat := crc32With 0x82F63B78 bs

/-- A count that stops at 0xFFFF_FFFF (R145). -/
def satSucc (w : Word) : Word := if w = 0xFFFFFFFF#32 then w else w + 1#32

/-- A number read as a two's complement number of `n` bits. -/
def signedOf (n v : Nat) : Int := if v < 2 ^ (n - 1) then (v : Int) else (v : Int) - (2 ^ n : Nat)

/-- The low `n` bits of an integer, as a number. -/
def intMod (n : Nat) (i : Int) : Nat := (i % (2 ^ n : Nat)).toNat

end Sys2Proof.Machine
end

