-- ==== Sys2Proof/Machine/RegMap.lean ====
section
/-! DEFINITION. The register map: the physical address of every register the spec names (`A.NAME`), the
place of every field (`F.NAME.FIELD`), and the descriptor table with each field's access type and Reset
value, copied from the register tables of spec/01 to spec/17. -/

namespace Sys2Proof.Machine

/-! Registers of block SYS (01_architecture.md, R49, R752, R708). -/

def A.SYS_ID : Nat := 0x30000000
def A.SYS_STRAP : Nat := 0x30000010
def A.SYS_MODE : Nat := 0x30000014
def A.SYS_BOOT : Nat := 0x30000018
def A.SYS_BUSERR_INFO : Nat := 0x30000100
def A.SYS_BUSERR_ADDR_LO : Nat := 0x30000104
def A.SYS_BUSERR_ADDR_HI : Nat := 0x30000108
def A.SYS_BUSERR_CNT : Nat := 0x3000010c
def A.SYS_FLT_WSEQ : Nat := 0x30000200
def A.SYS_FLT_RSEQ : Nat := 0x30000204
def A.SYS_FLT_ACTIVE : Nat := 0x30000208
def A.SYS_FLT_LATCH : Nat := 0x3000020c
def A.SYS_FLT_CNT (c : Nat) : Nat := 0x30000220 + 0x4 * c
def A.SYS_FLT_SLOT (n w : Nat) : Nat := 0x30001000 + 0x20 * n + 0x4 * w

def F.SYS_ID.ID : Fld := ⟨31, 0⟩
def F.SYS_STRAP.SAFEDEF : Fld := ⟨8, 8⟩
def F.SYS_STRAP.TWINSEL : Fld := ⟨7, 7⟩
def F.SYS_STRAP.MODE6412 : Fld := ⟨6, 6⟩
def F.SYS_STRAP.HOSTSEL : Fld := ⟨5, 5⟩
def F.SYS_STRAP.CLKMODE : Fld := ⟨4, 3⟩
def F.SYS_STRAP.BOOTSEL : Fld := ⟨2, 0⟩
def F.SYS_MODE.M6412 : Fld := ⟨0, 0⟩
def F.SYS_BOOT.SRC : Fld := ⟨2, 0⟩
def F.SYS_BUSERR_INFO.VALID : Fld := ⟨31, 31⟩
def F.SYS_BUSERR_INFO.CAUSE : Fld := ⟨11, 9⟩
def F.SYS_BUSERR_INFO.WRITE : Fld := ⟨8, 8⟩
def F.SYS_BUSERR_INFO.MASTER : Fld := ⟨7, 0⟩
def F.SYS_BUSERR_ADDR_LO.ADDR : Fld := ⟨31, 0⟩
def F.SYS_BUSERR_ADDR_HI.ADDR : Fld := ⟨7, 0⟩
def F.SYS_BUSERR_CNT.COUNT : Fld := ⟨31, 0⟩
def F.SYS_FLT_WSEQ.SEQ : Fld := ⟨31, 0⟩
def F.SYS_FLT_RSEQ.SEQ : Fld := ⟨31, 0⟩
def F.SYS_FLT_ACTIVE.COND : Fld := ⟨8, 0⟩
def F.SYS_FLT_LATCH.F4 : Fld := ⟨1, 1⟩
def F.SYS_FLT_LATCH.F3 : Fld := ⟨0, 0⟩
def F.SYS_FLT_CNT.COUNT : Fld := ⟨31, 0⟩
def F.SYS_FLT_SLOT.WORD : Fld := ⟨31, 0⟩

/-! Registers of block RST (16_power_clocks_reset.md, R753). -/

def A.RST_STATUS : Nat := 0x30010000
def A.RST_ACTIVE : Nat := 0x30010004
def A.RST_CTRL : Nat := 0x30010008
def A.RST_RELEASE : Nat := 0x3001000c
def A.RST_CAUSE (d : Nat) : Nat := 0x30010010 + 0x4 * d
def A.RST_FUSE : Nat := 0x30010020
def A.RST_FUSE_CORR : Nat := 0x30010024
def A.RST_PADSET : Nat := 0x30010028
def A.RST_MAP (i : Nat) : Nat := 0x30010100 + 0x4 * i
def A.RST_PAD_GRP (s : Nat) : Nat := 0x30010200 + 0x4 * s
def A.RST_PAD_HOOK_LO (s d : Nat) : Nat := 0x30010210 + 0x10 * s + 0x8 * d
def A.RST_PAD_HOOK_HI (s d : Nat) : Nat := 0x30010214 + 0x10 * s + 0x8 * d

def F.RST_STATUS.P_STATE : Fld := ⟨11, 10⟩
def F.RST_STATUS.K_STATE : Fld := ⟨9, 8⟩
def F.RST_ACTIVE.SRC : Fld := ⟨22, 0⟩
def F.RST_CTRL.L1_RETAIN : Fld := ⟨0, 0⟩
def F.RST_RELEASE.REL : Fld := ⟨22, 0⟩
def F.RST_CAUSE.COUNT : Fld := ⟨31, 16⟩
def F.RST_CAUSE.SOURCE : Fld := ⟨12, 8⟩
def F.RST_CAUSE.LEVEL : Fld := ⟨2, 0⟩
def F.RST_FUSE.FUSE_FAULT : Fld := ⟨31, 31⟩
def F.RST_FUSE.LOADED : Fld := ⟨30, 30⟩
def F.RST_FUSE.WORD : Fld := ⟨8, 0⟩
def F.RST_FUSE_CORR.COUNT : Fld := ⟨31, 0⟩
def F.RST_PADSET.HARDWIRED : Fld := ⟨1, 1⟩
def F.RST_PADSET.SET : Fld := ⟨0, 0⟩
def F.RST_MAP.HOLD : Fld := ⟨8, 8⟩
def F.RST_MAP.FLOOR : Fld := ⟨6, 4⟩
def F.RST_MAP.LEVEL : Fld := ⟨2, 0⟩
def F.RST_PAD_GRP.CODE : Fld := ⟨29, 0⟩
def F.RST_PAD_HOOK_LO.CODE : Fld := ⟨31, 0⟩
def F.RST_PAD_HOOK_HI.CODE : Fld := ⟨15, 0⟩

/-! Registers of block PWR (16_power_clocks_reset.md, R754). -/

def A.PWR_RAIL : Nat := 0x30020000
def A.PWR_RAIL_EVT : Nat := 0x30020004
def A.PWR_EN : Nat := 0x30020008
def A.PWR_TEMP : Nat := 0x30020010
def A.CLK_STATUS : Nat := 0x30020100
def A.CLK_EVT : Nat := 0x30020104
def A.CLK_TRV_DEV : Nat := 0x30020108

def F.PWR_RAIL.GOOD : Fld := ⟨11, 0⟩
def F.PWR_RAIL_EVT.TRIP : Fld := ⟨11, 0⟩
def F.PWR_EN.PWREN : Fld := ⟨4, 0⟩
def F.PWR_TEMP.PEAK : Fld := ⟨31, 16⟩
def F.PWR_TEMP.TJ : Fld := ⟨15, 0⟩
def F.CLK_STATUS.TRV_OK : Fld := ⟨4, 4⟩
def F.CLK_STATUS.GAUGE_LOCK : Fld := ⟨3, 3⟩
def F.CLK_STATUS.COMMON : Fld := ⟨2, 2⟩
def F.CLK_STATUS.PLL_P_LOCK : Fld := ⟨1, 1⟩
def F.CLK_STATUS.PLL_K_LOCK : Fld := ⟨0, 0⟩
def F.CLK_EVT.TRV_DEV : Fld := ⟨2, 2⟩
def F.CLK_EVT.PLL_P_LOST : Fld := ⟨1, 1⟩
def F.CLK_EVT.PLL_K_LOST : Fld := ⟨0, 0⟩
def F.CLK_TRV_DEV.DEV : Fld := ⟨15, 0⟩

/-! Registers of block TRV (02_charge_and_failover.md, R141). -/

def A.TRV_CHARGE : Nat := 0x30030000
def A.TRV_STATE : Nat := 0x30030004
def A.TRV_CAUSE (h : Nat) : Nat := 0x30030008 + 0x4 * h
def A.TRV_CFG : Nat := 0x30030010
def A.TRV_HANDOVER_LO : Nat := 0x30030014
def A.TRV_HANDOVER_HI : Nat := 0x30030018
def A.TRV_TWIN : Nat := 0x30030020

def F.TRV_CHARGE.FROZEN : Fld := ⟨31, 31⟩
def F.TRV_CHARGE.MODE : Fld := ⟨17, 16⟩
def F.TRV_CHARGE.HOLDER : Fld := ⟨7, 0⟩
def F.TRV_STATE.UPDATE_P : Fld := ⟨13, 13⟩
def F.TRV_STATE.UPDATE_K : Fld := ⟨12, 12⟩
def F.TRV_STATE.PROBATION_P : Fld := ⟨11, 11⟩
def F.TRV_STATE.RESYNC_P : Fld := ⟨10, 10⟩
def F.TRV_STATE.PROBATION_K : Fld := ⟨9, 9⟩
def F.TRV_STATE.RESYNC_K : Fld := ⟨8, 8⟩
def F.TRV_STATE.STATE_P : Fld := ⟨7, 4⟩
def F.TRV_STATE.STATE_K : Fld := ⟨3, 0⟩
def F.TRV_CAUSE.COUNT : Fld := ⟨31, 16⟩
def F.TRV_CAUSE.TO : Fld := ⟨15, 12⟩
def F.TRV_CAUSE.FROM : Fld := ⟨11, 8⟩
def F.TRV_CAUSE.CAUSE : Fld := ⟨7, 0⟩
def F.TRV_CFG.PROBATION_N : Fld := ⟨23, 16⟩
def F.TRV_CFG.COL_WAIT : Fld := ⟨12, 8⟩
def F.TRV_HANDOVER_LO.TIME : Fld := ⟨31, 0⟩
def F.TRV_HANDOVER_HI.TIME : Fld := ⟨31, 0⟩
def F.TRV_TWIN.TWIN_EN : Fld := ⟨31, 31⟩
def F.TRV_TWIN.LINK_UP : Fld := ⟨30, 30⟩
def F.TRV_TWIN.INDEX_CLASH : Fld := ⟨29, 29⟩
def F.TRV_TWIN.PEER_HOLD : Fld := ⟨28, 28⟩
def F.TRV_TWIN.ROLE : Fld := ⟨9, 8⟩
def F.TRV_TWIN.INDEX : Fld := ⟨0, 0⟩

/-! Registers of block TEN (02_charge_and_failover.md, R142). -/

def A.TEN_STATUS : Nat := 0x30040000
def A.TEN_APP (h : Nat) : Nat := 0x30040004 + 0x4 * h
def A.TEN_HB_MISS (h : Nat) : Nat := 0x30040010 + 0x4 * h
def A.TEN_CRC_ERR (h : Nat) : Nat := 0x30040018 + 0x4 * h
def A.TEN_REPLAY (h : Nat) : Nat := 0x30040020 + 0x4 * h
def A.TEN_IA_CTRL : Nat := 0x30040030
def A.TEN_IA_SRC (h : Nat) : Nat := 0x30040034 + 0x8 * h
def A.TEN_IA_DST (h : Nat) : Nat := 0x30040038 + 0x8 * h
def A.TEN_IA_STATUS : Nat := 0x30040044
def A.TEN_IA_CONFLICT : Nat := 0x30040048
def A.TEN_IA_FAIL : Nat := 0x3004004c
def A.TEN_RS_BASE (n : Nat) : Nat := 0x30040080 + 0x8 * n
def A.TEN_RS_SIZE (n : Nat) : Nat := 0x30040084 + 0x8 * n

def F.TEN_STATUS.MISS_P : Fld := ⟨17, 16⟩
def F.TEN_STATUS.MISS_K : Fld := ⟨9, 8⟩
def F.TEN_STATUS.SEG_P_UP : Fld := ⟨1, 1⟩
def F.TEN_STATUS.SEG_K_UP : Fld := ⟨0, 0⟩
def F.TEN_APP.OUT_VALID : Fld := ⟨1, 1⟩
def F.TEN_APP.APP_READY : Fld := ⟨0, 0⟩
def F.TEN_HB_MISS.COUNT : Fld := ⟨31, 0⟩
def F.TEN_CRC_ERR.COUNT : Fld := ⟨31, 0⟩
def F.TEN_REPLAY.COUNT : Fld := ⟨31, 0⟩
def F.TEN_IA_CTRL.ENABLE : Fld := ⟨31, 31⟩
def F.TEN_IA_CTRL.TRIG : Fld := ⟨27, 24⟩
def F.TEN_IA_CTRL.ENTRIES : Fld := ⟨12, 0⟩
def F.TEN_IA_SRC.OFFSET : Fld := ⟨21, 4⟩
def F.TEN_IA_DST.OFFSET : Fld := ⟨21, 4⟩
def F.TEN_IA_STATUS.LAST_FAILED_P : Fld := ⟨31, 31⟩
def F.TEN_IA_STATUS.LAST_FAILED_K : Fld := ⟨30, 30⟩
def F.TEN_IA_STATUS.CYCLE : Fld := ⟨15, 0⟩
def F.TEN_IA_CONFLICT.COUNT : Fld := ⟨31, 0⟩
def F.TEN_IA_FAIL.COUNT : Fld := ⟨31, 0⟩
def F.TEN_RS_BASE.OFFSET : Fld := ⟨20, 6⟩
def F.TEN_RS_SIZE.SIZE : Fld := ⟨21, 6⟩

/-! Registers of block COL (15_faults_and_safe_state.md, R707). -/

def A.COL_CTRL : Nat := 0x30050000
def A.COL_STATUS : Nat := 0x30050004
def A.COL_QUEUE : Nat := 0x30050008
def A.COL_LAST_MM : Nat := 0x3005000c
def A.COL_LAST_MM_RP_LO : Nat := 0x30050010
def A.COL_LAST_MM_RP_HI : Nat := 0x30050014
def A.COL_RELEASED : Nat := 0x30050040
def A.COL_MATCH : Nat := 0x30050044
def A.COL_MISMATCH : Nat := 0x30050048
def A.COL_WAIT_EXP : Nat := 0x3005004c
def A.COL_SELFTEST : Nat := 0x30050050
def A.COL_SUB_REJ : Nat := 0x30050054
def A.COL_DISCARD : Nat := 0x30050058
def A.COL_CHAN_REJ : Nat := 0x3005005c
def A.COL_STREAM (s w : Nat) : Nat := 0x30051000 + 0x20 * s + 0x4 * w
def A.COL_STREAM_STAT (s : Nat) : Nat := 0x30053000 + 0x4 * s
def A.COL_SUB_CTRL (h : Nat) : Nat := 0x30054000 + 0x1000 * h
def A.COL_SUB_RP_LO (h : Nat) : Nat := 0x30054004 + 0x1000 * h
def A.COL_SUB_RP_HI (h : Nat) : Nat := 0x30054008 + 0x1000 * h
def A.COL_SUB_STAT (h : Nat) : Nat := 0x3005400c + 0x1000 * h
def A.COL_SUB_DATA (h w : Nat) : Nat := 0x30054800 + 0x1000 * h + 0x4 * w

def F.COL_CTRL.EN : Fld := ⟨31, 31⟩
def F.COL_CTRL.ISO_SERVICE : Fld := ⟨30, 30⟩
def F.COL_CTRL.ST_PERIOD : Fld := ⟨15, 0⟩
def F.COL_STATUS.ST_RUN : Fld := ⟨31, 31⟩
def F.COL_STATUS.COL_FAIL : Fld := ⟨30, 30⟩
def F.COL_STATUS.IA_RERUN : Fld := ⟨29, 29⟩
def F.COL_STATUS.ST_RESULT : Fld := ⟨28, 26⟩
def F.COL_QUEUE.P : Fld := ⟨26, 16⟩
def F.COL_QUEUE.K : Fld := ⟨10, 0⟩
def F.COL_LAST_MM.CODE : Fld := ⟨31, 24⟩
def F.COL_LAST_MM.OFFSET : Fld := ⟨23, 12⟩
def F.COL_LAST_MM.STREAM : Fld := ⟨7, 0⟩
def F.COL_LAST_MM_RP_LO.RAW : Fld := ⟨31, 0⟩
def F.COL_LAST_MM_RP_HI.RAW : Fld := ⟨31, 0⟩
def F.COL_RELEASED.COUNT : Fld := ⟨31, 0⟩
def F.COL_MATCH.COUNT : Fld := ⟨31, 0⟩
def F.COL_MISMATCH.COUNT : Fld := ⟨31, 0⟩
def F.COL_WAIT_EXP.COUNT : Fld := ⟨31, 0⟩
def F.COL_SELFTEST.COUNT : Fld := ⟨31, 0⟩
def F.COL_SUB_REJ.COUNT : Fld := ⟨31, 0⟩
def F.COL_DISCARD.COUNT : Fld := ⟨31, 0⟩
def F.COL_CHAN_REJ.COUNT : Fld := ⟨31, 0⟩
def F.COL_STREAM.WORD : Fld := ⟨31, 0⟩
def F.COL_STREAM_STAT.BLOCKED : Fld := ⟨31, 31⟩
def F.COL_STREAM_STAT.LAST_MM : Fld := ⟨30, 30⟩
def F.COL_STREAM_STAT.MM_RUN : Fld := ⟨25, 24⟩
def F.COL_STREAM_STAT.RELEASED : Fld := ⟨23, 0⟩
def F.COL_SUB_CTRL.GO : Fld := ⟨31, 31⟩
def F.COL_SUB_CTRL.LEN : Fld := ⟨27, 16⟩
def F.COL_SUB_CTRL.STREAM : Fld := ⟨7, 0⟩
def F.COL_SUB_RP_LO.RAW : Fld := ⟨31, 0⟩
def F.COL_SUB_RP_HI.RAW : Fld := ⟨31, 0⟩
def F.COL_SUB_STAT.RESULT : Fld := ⟨2, 0⟩
def F.COL_SUB_DATA.DATA : Fld := ⟨31, 0⟩

/-! Registers of block MAC (06_mac_and_phy.md, R339). -/

def A.MAC_CTRL (p : Nat) : Nat := 0x31000000 + 0x1000000 * (p / 12) + 0x1000 * (p % 12)
def A.MAC_STATUS (p : Nat) : Nat := 0x31000004 + 0x1000000 * (p / 12) + 0x1000 * (p % 12)
def A.MAC_SA_LO (p : Nat) : Nat := 0x31000008 + 0x1000000 * (p / 12) + 0x1000 * (p % 12)
def A.MAC_SA_HI (p : Nat) : Nat := 0x3100000c + 0x1000000 * (p / 12) + 0x1000 * (p % 12)
def A.MAC_PAUSE (p : Nat) : Nat := 0x31000010 + 0x1000000 * (p / 12) + 0x1000 * (p % 12)
def A.MAC_UC_LO (p k : Nat) : Nat := 0x31000040 + 0x1000000 * (p / 12) + 0x1000 * (p % 12) + 0x8 * k
def A.MAC_UC_HI (p k : Nat) : Nat := 0x31000044 + 0x1000000 * (p / 12) + 0x1000 * (p % 12) + 0x8 * k
def A.MAC_MC_LO (p k : Nat) : Nat := 0x31000080 + 0x1000000 * (p / 12) + 0x1000 * (p % 12) + 0x8 * k
def A.MAC_MC_HI (p k : Nat) : Nat := 0x31000084 + 0x1000000 * (p / 12) + 0x1000 * (p % 12) + 0x8 * k
def A.MAC_PER_CTRL (p : Nat) : Nat := 0x310000c0 + 0x1000000 * (p / 12) + 0x1000 * (p % 12)
def A.MAC_PER_STATUS (p : Nat) : Nat := 0x310000c4 + 0x1000000 * (p / 12) + 0x1000 * (p % 12)
def A.MAC_CNT_WRAP (p : Nat) : Nat := 0x310000c8 + 0x1000000 * (p / 12) + 0x1000 * (p % 12)
def A.MAC_CNT_WRAP_EN (p : Nat) : Nat := 0x310000cc + 0x1000000 * (p / 12) + 0x1000 * (p % 12)
def A.MAC_CNT (p k : Nat) : Nat := 0x31000100 + 0x1000000 * (p / 12) + 0x1000 * (p % 12) + 0x4 * k
def A.MAC_PER_LIVE (p k : Nat) : Nat := 0x31000180 + 0x1000000 * (p / 12) + 0x1000 * (p % 12) + 0x4 * k
def A.MAC_PER_SHADOW (p k : Nat) : Nat := 0x310001a0 + 0x1000000 * (p / 12) + 0x1000 * (p % 12) + 0x4 * k

def F.MAC_CTRL.MAX_LEN : Fld := ⟨29, 16⟩
def F.MAC_CTRL.PAUSE_TX_EN : Fld := ⟨5, 5⟩
def F.MAC_CTRL.PAUSE_RX_EN : Fld := ⟨4, 4⟩
def F.MAC_CTRL.BCAST_EN : Fld := ⟨3, 3⟩
def F.MAC_CTRL.FILTER_EN : Fld := ⟨2, 2⟩
def F.MAC_CTRL.TX_EN : Fld := ⟨1, 1⟩
def F.MAC_CTRL.RX_EN : Fld := ⟨0, 0⟩
def F.MAC_STATUS.HD_REJ : Fld := ⟨9, 9⟩
def F.MAC_STATUS.LINK_CHG : Fld := ⟨8, 8⟩
def F.MAC_STATUS.XOFF : Fld := ⟨5, 5⟩
def F.MAC_STATUS.PAUSED : Fld := ⟨4, 4⟩
def F.MAC_STATUS.SPEED : Fld := ⟨3, 1⟩
def F.MAC_STATUS.LINK : Fld := ⟨0, 0⟩
def F.MAC_SA_LO.ADDR : Fld := ⟨31, 0⟩
def F.MAC_SA_HI.ADDR : Fld := ⟨15, 0⟩
def F.MAC_PAUSE.REFRESH : Fld := ⟨31, 16⟩
def F.MAC_PAUSE.QUANTA : Fld := ⟨15, 0⟩
def F.MAC_UC_LO.ADDR : Fld := ⟨31, 0⟩
def F.MAC_UC_HI.VALID : Fld := ⟨31, 31⟩
def F.MAC_UC_HI.ADDR : Fld := ⟨15, 0⟩
def F.MAC_MC_LO.ADDR : Fld := ⟨31, 0⟩
def F.MAC_MC_HI.VALID : Fld := ⟨31, 31⟩
def F.MAC_MC_HI.ADDR : Fld := ⟨15, 0⟩
def F.MAC_PER_CTRL.EN : Fld := ⟨31, 31⟩
def F.MAC_PER_CTRL.CMP : Fld := ⟨19, 16⟩
def F.MAC_PER_STATUS.VALID : Fld := ⟨31, 31⟩
def F.MAC_PER_STATUS.SEQ : Fld := ⟨15, 0⟩
def F.MAC_CNT_WRAP.WRAP : Fld := ⟨23, 0⟩
def F.MAC_CNT_WRAP_EN.EN : Fld := ⟨23, 0⟩
def F.MAC_CNT.COUNT : Fld := ⟨31, 0⟩
def F.MAC_PER_LIVE.COUNT : Fld := ⟨31, 0⟩
def F.MAC_PER_SHADOW.COUNT : Fld := ⟨31, 0⟩

/-! Registers of block RG (06_mac_and_phy.md, R339). -/

def A.RG_CTRL (h : Nat) : Nat := 0x31008800 + 0x1000000 * h
def A.RG_STATUS (h : Nat) : Nat := 0x31008804 + 0x1000000 * h

def F.RG_CTRL.INBAND : Fld := ⟨6, 6⟩
def F.RG_CTRL.SPEED : Fld := ⟨5, 4⟩
def F.RG_CTRL.RXID : Fld := ⟨2, 2⟩
def F.RG_CTRL.TXID : Fld := ⟨1, 1⟩
def F.RG_CTRL.EN : Fld := ⟨0, 0⟩
def F.RG_STATUS.HD_REJ : Fld := ⟨5, 5⟩
def F.RG_STATUS.LINK_CHG : Fld := ⟨4, 4⟩
def F.RG_STATUS.IB_FD : Fld := ⟨3, 3⟩
def F.RG_STATUS.IB_SPEED : Fld := ⟨2, 1⟩
def F.RG_STATUS.IB_LINK : Fld := ⟨0, 0⟩

/-! Registers of block TL (06_mac_and_phy.md, R342). -/

def A.TL_CTRL (p : Nat) : Nat := 0x31010000 + 0x1000000 * (p / 4) + 0x1000 * (p % 4)
def A.TL_STATUS (p : Nat) : Nat := 0x31010004 + 0x1000000 * (p / 4) + 0x1000 * (p % 4)
def A.TL_SQI (p : Nat) : Nat := 0x31010008 + 0x1000000 * (p / 4) + 0x1000 * (p % 4)
def A.TL_AN_LP (p : Nat) : Nat := 0x3101000c + 0x1000000 * (p / 4) + 0x1000 * (p % 4)
def A.TL_PCS_ERR (p : Nat) : Nat := 0x31010010 + 0x1000000 * (p / 4) + 0x1000 * (p % 4)
def A.TL_SHORT_CNT (p : Nat) : Nat := 0x31010014 + 0x1000000 * (p / 4) + 0x1000 * (p % 4)

def F.TL_CTRL.RESTART_AN : Fld := ⟨10, 10⟩
def F.TL_CTRL.APL_PROF : Fld := ⟨9, 8⟩
def F.TL_CTRL.ROLE : Fld := ⟨7, 6⟩
def F.TL_CTRL.SIMMER : Fld := ⟨4, 4⟩
def F.TL_CTRL.AMPL_24 : Fld := ⟨3, 3⟩
def F.TL_CTRL.AN_EN : Fld := ⟨1, 1⟩
def F.TL_CTRL.EN : Fld := ⟨0, 0⟩
def F.TL_STATUS.TRAIN : Fld := ⟨15, 12⟩
def F.TL_STATUS.AN_FAIL : Fld := ⟨11, 11⟩
def F.TL_STATUS.LINK_CHG : Fld := ⟨10, 10⟩
def F.TL_STATUS.SHORT_DET : Fld := ⟨9, 9⟩
def F.TL_STATUS.SIMMER_REJ : Fld := ⟨8, 8⟩
def F.TL_STATUS.SIMMER_LOCK : Fld := ⟨5, 5⟩
def F.TL_STATUS.SIMMER_ACT : Fld := ⟨4, 4⟩
def F.TL_STATUS.LEADER : Fld := ⟨3, 3⟩
def F.TL_STATUS.AMPL_ACT : Fld := ⟨2, 2⟩
def F.TL_STATUS.AN_DONE : Fld := ⟨1, 1⟩
def F.TL_STATUS.LINK : Fld := ⟨0, 0⟩
def F.TL_SQI.MSE : Fld := ⟨31, 16⟩
def F.TL_SQI.SQI : Fld := ⟨2, 0⟩
def F.TL_AN_LP.VALID : Fld := ⟨16, 16⟩
def F.TL_AN_LP.PAGE : Fld := ⟨15, 0⟩
def F.TL_PCS_ERR.COUNT : Fld := ⟨31, 0⟩
def F.TL_SHORT_CNT.COUNT : Fld := ⟨31, 0⟩

/-! Registers of block SD (06_mac_and_phy.md, R343). -/

def A.SD_CTRL (l : Nat) : Nat := 0x31020000 + 0x1000000 * (l / 4) + 0x1000 * (l % 4)
def A.SD_STATUS (l : Nat) : Nat := 0x31020004 + 0x1000000 * (l / 4) + 0x1000 * (l % 4)
def A.SD_TXEQ (l : Nat) : Nat := 0x31020008 + 0x1000000 * (l / 4) + 0x1000 * (l % 4)
def A.SD_CODE_ERR (l : Nat) : Nat := 0x3102000c + 0x1000000 * (l / 4) + 0x1000 * (l % 4)
def A.SD_PRBS_ERR (l : Nat) : Nat := 0x31020010 + 0x1000000 * (l / 4) + 0x1000 * (l % 4)
def A.SD_AN_LP (l : Nat) : Nat := 0x31020014 + 0x1000000 * (l / 4) + 0x1000 * (l % 4)

def F.SD_CTRL.LINK_TIMER : Fld := ⟨15, 15⟩
def F.SD_CTRL.SGMII_SPEED : Fld := ⟨14, 13⟩
def F.SD_CTRL.PRBS_EN : Fld := ⟨12, 12⟩
def F.SD_CTRL.LOOP : Fld := ⟨11, 10⟩
def F.SD_CTRL.RX_POL : Fld := ⟨9, 9⟩
def F.SD_CTRL.TX_POL : Fld := ⟨8, 8⟩
def F.SD_CTRL.AN_EN : Fld := ⟨4, 4⟩
def F.SD_CTRL.MODE : Fld := ⟨3, 1⟩
def F.SD_CTRL.EN : Fld := ⟨0, 0⟩
def F.SD_STATUS.CFG_ERR : Fld := ⟨11, 11⟩
def F.SD_STATUS.HD_REJ : Fld := ⟨10, 10⟩
def F.SD_STATUS.LINK_CHG : Fld := ⟨9, 9⟩
def F.SD_STATUS.PRBS_LOCK : Fld := ⟨8, 8⟩
def F.SD_STATUS.SPEED_RES : Fld := ⟨7, 6⟩
def F.SD_STATUS.LINK : Fld := ⟨4, 4⟩
def F.SD_STATUS.AN_DONE : Fld := ⟨3, 3⟩
def F.SD_STATUS.SYNC : Fld := ⟨2, 2⟩
def F.SD_STATUS.CDR_LOCK : Fld := ⟨1, 1⟩
def F.SD_STATUS.PLL_LOCK : Fld := ⟨0, 0⟩
def F.SD_TXEQ.POST : Fld := ⟨14, 10⟩
def F.SD_TXEQ.PRE : Fld := ⟨9, 5⟩
def F.SD_TXEQ.MAIN : Fld := ⟨4, 0⟩
def F.SD_CODE_ERR.COUNT : Fld := ⟨31, 0⟩
def F.SD_PRBS_ERR.COUNT : Fld := ⟨31, 0⟩
def F.SD_AN_LP.VALID : Fld := ⟨16, 16⟩
def F.SD_AN_LP.PAGE : Fld := ⟨15, 0⟩

/-! Registers of block SW (07_switch_planes.md, R401). -/

def A.SW_STATUS (h : Nat) : Nat := 0x31040000 + 0x1000000 * h
def A.SW_BUF_FREE (h : Nat) : Nat := 0x31040004 + 0x1000000 * h
def A.SW_TWIN (h : Nat) : Nat := 0x31040008 + 0x1000000 * h
def A.SW_DUP_AGE (h : Nat) : Nat := 0x3104000c + 0x1000000 * h
def A.SW_DUP_STATUS (h : Nat) : Nat := 0x31040010 + 0x1000000 * h
def A.SW_RED_SEQ (h : Nat) : Nat := 0x31040014 + 0x1000000 * h
def A.SW_RED_SA_LO (h s : Nat) : Nat := 0x31040018 + 0x1000000 * h + 0x8 * s
def A.SW_RED_SA_HI (h s : Nat) : Nat := 0x3104001c + 0x1000000 * h + 0x8 * s
def A.SW_LFSR_SEED (h : Nat) : Nat := 0x31040028 + 0x1000000 * h
def A.SW_DUP_DISC (h : Nat) : Nat := 0x31040040 + 0x1000000 * h
def A.SW_DUP_LATE (h : Nat) : Nat := 0x31040044 + 0x1000000 * h
def A.SW_DUP_SAMELAN (h : Nat) : Nat := 0x31040048 + 0x1000000 * h
def A.SW_DUP_FULL (h : Nat) : Nat := 0x3104004c + 0x1000000 * h
def A.SW_TWIN_EQUAL (h : Nat) : Nat := 0x31040050 + 0x1000000 * h
def A.SW_TWIN_DIFF (h : Nat) : Nat := 0x31040054 + 0x1000000 * h
def A.SW_TWIN_LONE (h : Nat) : Nat := 0x31040058 + 0x1000000 * h
def A.SW_HSR_OWN (h : Nat) : Nat := 0x3104005c + 0x1000000 * h
def A.SW_NEEDLE_NONE (h : Nat) : Nat := 0x31040060 + 0x1000000 * h
def A.SWP_CFG (h p : Nat) : Nat := 0x31040400 + 0x1000000 * h + 0x40 * p
def A.SWP_PCP_MAP (h p : Nat) : Nat := 0x31040404 + 0x1000000 * h + 0x40 * p
def A.SWP_MISS_MASK (h p : Nat) : Nat := 0x31040408 + 0x1000000 * h + 0x40 * p
def A.SWP_XOFF (h p : Nat) : Nat := 0x3104040c + 0x1000000 * h + 0x40 * p
def A.SWP_IN_CELLS (h p : Nat) : Nat := 0x31040410 + 0x1000000 * h + 0x40 * p
def A.SWP_MISS_DROP (h p : Nat) : Nat := 0x31040420 + 0x1000000 * h + 0x40 * p
def A.SWP_CT_BAD (h p : Nat) : Nat := 0x31040424 + 0x1000000 * h + 0x40 * p
def A.SWQ_LIM (h a : Nat) : Nat := 0x31040800 + 0x1000000 * h + 0x20 * a
def A.SWQ_SIEVE (h a : Nat) : Nat := 0x31040804 + 0x1000000 * h + 0x20 * a
def A.SWQ_DEPTH (h a : Nat) : Nat := 0x31040808 + 0x1000000 * h + 0x20 * a
def A.SWQ_DROP_LIMIT (h a : Nat) : Nat := 0x3104080c + 0x1000000 * h + 0x20 * a
def A.SWQ_DROP_SIEVE (h a : Nat) : Nat := 0x31040810 + 0x1000000 * h + 0x20 * a
def A.SWQ_ECN_MARK (h a : Nat) : Nat := 0x31040814 + 0x1000000 * h + 0x20 * a
def A.SWQ_GATE_OVERSIZE (h a : Nat) : Nat := 0x31040818 + 0x1000000 * h + 0x20 * a
def A.SW_SIEVE_PT (h k j : Nat) : Nat := 0x31041400 + 0x1000000 * h + 0x40 * k + 0x4 * j
def A.MTR_CIR (h m : Nat) : Nat := 0x31041800 + 0x1000000 * h + 0x20 * m
def A.MTR_PIR (h m : Nat) : Nat := 0x31041804 + 0x1000000 * h + 0x20 * m
def A.MTR_CBS (h m : Nat) : Nat := 0x31041808 + 0x1000000 * h + 0x20 * m
def A.MTR_PBS (h m : Nat) : Nat := 0x3104180c + 0x1000000 * h + 0x20 * m
def A.MTR_CTRL (h m : Nat) : Nat := 0x31041810 + 0x1000000 * h + 0x20 * m
def A.MTR_GREEN (h m : Nat) : Nat := 0x31041814 + 0x1000000 * h + 0x20 * m
def A.MTR_YELLOW (h m : Nat) : Nat := 0x31041818 + 0x1000000 * h + 0x20 * m
def A.MTR_RED (h m : Nat) : Nat := 0x3104181c + 0x1000000 * h + 0x20 * m
def A.SWG_CTRL (h p : Nat) : Nat := 0x31042000 + 0x1000000 * h + 0x40 * p
def A.SWG_STATUS (h p : Nat) : Nat := 0x31042004 + 0x1000000 * h + 0x40 * p
def A.SWG_A_BASE_SEC_LO (h p : Nat) : Nat := 0x31042008 + 0x1000000 * h + 0x40 * p
def A.SWG_A_BASE_SEC_HI (h p : Nat) : Nat := 0x3104200c + 0x1000000 * h + 0x40 * p
def A.SWG_A_BASE_NS (h p : Nat) : Nat := 0x31042010 + 0x1000000 * h + 0x40 * p
def A.SWG_A_CYCLE (h p : Nat) : Nat := 0x31042014 + 0x1000000 * h + 0x40 * p
def A.SWG_O_BASE_SEC_LO (h p : Nat) : Nat := 0x31042018 + 0x1000000 * h + 0x40 * p
def A.SWG_O_BASE_SEC_HI (h p : Nat) : Nat := 0x3104201c + 0x1000000 * h + 0x40 * p
def A.SWG_O_BASE_NS (h p : Nat) : Nat := 0x31042020 + 0x1000000 * h + 0x40 * p
def A.SWG_O_CYCLE (h p : Nat) : Nat := 0x31042024 + 0x1000000 * h + 0x40 * p
def A.SWG_GATES (h p b e : Nat) : Nat := 0x31044000 + 0x1000000 * h + 0x1000 * p + 0x800 * b + 0x8 * e
def A.SWG_INTERVAL (h p b e : Nat) : Nat := 0x31044004 + 0x1000000 * h + 0x1000 * p + 0x800 * b + 0x8 * e
def A.SW_FWD (h i w : Nat) : Nat := 0x31050000 + 0x1000000 * h + 0x10 * i + 0x4 * w

def F.SW_STATUS.CFG_ERR : Fld := ⟨0, 0⟩
def F.SW_BUF_FREE.LOW : Fld := ⟨29, 16⟩
def F.SW_BUF_FREE.FREE : Fld := ⟨13, 0⟩
def F.SW_TWIN.CLASS : Fld := ⟨31, 24⟩
def F.SW_TWIN.WIN_US : Fld := ⟨8, 0⟩
def F.SW_DUP_AGE.AGE : Fld := ⟨15, 0⟩
def F.SW_DUP_STATUS.HOLD : Fld := ⟨26, 16⟩
def F.SW_DUP_STATUS.IN_USE : Fld := ⟨10, 0⟩
def F.SW_RED_SEQ.SEQ : Fld := ⟨15, 0⟩
def F.SW_RED_SA_LO.ADDR : Fld := ⟨31, 0⟩
def F.SW_RED_SA_HI.VALID : Fld := ⟨31, 31⟩
def F.SW_RED_SA_HI.ADDR : Fld := ⟨15, 0⟩
def F.SW_LFSR_SEED.SEED : Fld := ⟨15, 0⟩
def F.SW_DUP_DISC.COUNT : Fld := ⟨31, 0⟩
def F.SW_DUP_LATE.COUNT : Fld := ⟨31, 0⟩
def F.SW_DUP_SAMELAN.COUNT : Fld := ⟨31, 0⟩
def F.SW_DUP_FULL.COUNT : Fld := ⟨31, 0⟩
def F.SW_TWIN_EQUAL.COUNT : Fld := ⟨31, 0⟩
def F.SW_TWIN_DIFF.COUNT : Fld := ⟨31, 0⟩
def F.SW_TWIN_LONE.COUNT : Fld := ⟨31, 0⟩
def F.SW_HSR_OWN.COUNT : Fld := ⟨31, 0⟩
def F.SW_NEEDLE_NONE.COUNT : Fld := ⟨31, 0⟩
def F.SWP_CFG.RED : Fld := ⟨31, 30⟩
def F.SWP_CFG.MISS : Fld := ⟨28, 28⟩
def F.SWP_CFG.DEF_TC : Fld := ⟨26, 24⟩
def F.SWP_CFG.PVID : Fld := ⟨11, 0⟩
def F.SWP_PCP_MAP.MAP : Fld := ⟨23, 0⟩
def F.SWP_MISS_MASK.NEEDLE : Fld := ⟨23, 12⟩
def F.SWP_MISS_MASK.EGRESS : Fld := ⟨11, 0⟩
def F.SWP_XOFF.XOFF : Fld := ⟨29, 16⟩
def F.SWP_XOFF.XON : Fld := ⟨13, 0⟩
def F.SWP_IN_CELLS.CELLS : Fld := ⟨13, 0⟩
def F.SWP_MISS_DROP.COUNT : Fld := ⟨31, 0⟩
def F.SWP_CT_BAD.COUNT : Fld := ⟨31, 0⟩
def F.SWQ_LIM.MAX : Fld := ⟨29, 16⟩
def F.SWQ_LIM.MIN : Fld := ⟨13, 0⟩
def F.SWQ_SIEVE.MODE : Fld := ⟨31, 30⟩
def F.SWQ_SIEVE.PROF_G : Fld := ⟨29, 28⟩
def F.SWQ_SIEVE.PROF_Y : Fld := ⟨27, 26⟩
def F.SWQ_SIEVE.PROF_R : Fld := ⟨25, 24⟩
def F.SWQ_SIEVE.W : Fld := ⟨19, 16⟩
def F.SWQ_SIEVE.ECN_THR : Fld := ⟨13, 0⟩
def F.SWQ_DEPTH.AVG : Fld := ⟨29, 16⟩
def F.SWQ_DEPTH.DEPTH : Fld := ⟨13, 0⟩
def F.SWQ_DROP_LIMIT.COUNT : Fld := ⟨31, 0⟩
def F.SWQ_DROP_SIEVE.COUNT : Fld := ⟨31, 0⟩
def F.SWQ_ECN_MARK.COUNT : Fld := ⟨31, 0⟩
def F.SWQ_GATE_OVERSIZE.COUNT : Fld := ⟨31, 0⟩
def F.SW_SIEVE_PT.PROB : Fld := ⟨24, 16⟩
def F.SW_SIEVE_PT.DEPTH : Fld := ⟨13, 0⟩
def F.MTR_CIR.RATE : Fld := ⟨19, 0⟩
def F.MTR_PIR.RATE : Fld := ⟨19, 0⟩
def F.MTR_CBS.SIZE : Fld := ⟨23, 0⟩
def F.MTR_PBS.SIZE : Fld := ⟨23, 0⟩
def F.MTR_CTRL.RED_DROP : Fld := ⟨1, 1⟩
def F.MTR_CTRL.COLOR_AWARE : Fld := ⟨0, 0⟩
def F.MTR_GREEN.COUNT : Fld := ⟨31, 0⟩
def F.MTR_YELLOW.COUNT : Fld := ⟨31, 0⟩
def F.MTR_RED.COUNT : Fld := ⟨31, 0⟩
def F.SWG_CTRL.EN : Fld := ⟨31, 31⟩
def F.SWG_CTRL.CHANGE : Fld := ⟨30, 30⟩
def F.SWG_CTRL.DOMAIN : Fld := ⟨29, 28⟩
def F.SWG_CTRL.OPER : Fld := ⟨24, 24⟩
def F.SWG_CTRL.ADMIN_LEN : Fld := ⟨8, 0⟩
def F.SWG_STATUS.CHG_PEND : Fld := ⟨31, 31⟩
def F.SWG_STATUS.CFG_ERR : Fld := ⟨30, 30⟩
def F.SWG_STATUS.OPER_LEN : Fld := ⟨24, 16⟩
def F.SWG_STATUS.CUR : Fld := ⟨7, 0⟩
def F.SWG_A_BASE_SEC_LO.SEC : Fld := ⟨31, 0⟩
def F.SWG_A_BASE_SEC_HI.SEC : Fld := ⟨31, 0⟩
def F.SWG_A_BASE_NS.NS : Fld := ⟨29, 0⟩
def F.SWG_A_CYCLE.NS : Fld := ⟨29, 0⟩
def F.SWG_O_BASE_SEC_LO.SEC : Fld := ⟨31, 0⟩
def F.SWG_O_BASE_SEC_HI.SEC : Fld := ⟨31, 0⟩
def F.SWG_O_BASE_NS.NS : Fld := ⟨29, 0⟩
def F.SWG_O_CYCLE.NS : Fld := ⟨29, 0⟩
def F.SWG_GATES.GATES : Fld := ⟨7, 0⟩
def F.SWG_INTERVAL.INTERVAL : Fld := ⟨31, 0⟩
def F.SW_FWD.WORD : Fld := ⟨31, 0⟩

/-! Registers of block CX (09_dtt_time_triggered.md, R494). -/

def A.CX_CTRL (c : Nat) : Nat := 0x31060000 + 0x1000000 * (c / 4) + 0x4000 * (c % 4)
def A.CX_STATUS (c : Nat) : Nat := 0x31060004 + 0x1000000 * (c / 4) + 0x4000 * (c % 4)
def A.CX_NBT (c : Nat) : Nat := 0x31060008 + 0x1000000 * (c / 4) + 0x4000 * (c % 4)
def A.CX_DBT (c : Nat) : Nat := 0x3106000c + 0x1000000 * (c / 4) + 0x4000 * (c % 4)
def A.CX_XBT (c : Nat) : Nat := 0x31060010 + 0x1000000 * (c / 4) + 0x4000 * (c % 4)
def A.CX_TDC (c : Nat) : Nat := 0x31060014 + 0x1000000 * (c / 4) + 0x4000 * (c % 4)
def A.CX_PWM (c : Nat) : Nat := 0x31060018 + 0x1000000 * (c / 4) + 0x4000 * (c % 4)
def A.CX_ERRC (c : Nat) : Nat := 0x3106001c + 0x1000000 * (c / 4) + 0x4000 * (c % 4)
def A.CX_RX_OK (c : Nat) : Nat := 0x31060040 + 0x1000000 * (c / 4) + 0x4000 * (c % 4)
def A.CX_RX_DROP (c : Nat) : Nat := 0x31060044 + 0x1000000 * (c / 4) + 0x4000 * (c % 4)
def A.CX_RX_NOFILT (c : Nat) : Nat := 0x31060048 + 0x1000000 * (c / 4) + 0x4000 * (c % 4)
def A.CX_RX_REMOTE (c : Nat) : Nat := 0x3106004c + 0x1000000 * (c / 4) + 0x4000 * (c % 4)
def A.CX_RX_ERR (c : Nat) : Nat := 0x31060050 + 0x1000000 * (c / 4) + 0x4000 * (c % 4)
def A.CX_TX_OK (c : Nat) : Nat := 0x31060054 + 0x1000000 * (c / 4) + 0x4000 * (c % 4)
def A.CX_TX_ERR (c : Nat) : Nat := 0x31060058 + 0x1000000 * (c / 4) + 0x4000 * (c % 4)
def A.CX_ARB_LOST (c : Nat) : Nat := 0x3106005c + 0x1000000 * (c / 4) + 0x4000 * (c % 4)
def A.CX_BUSOFF (c : Nat) : Nat := 0x31060060 + 0x1000000 * (c / 4) + 0x4000 * (c % 4)
def A.CX_PXE (c : Nat) : Nat := 0x31060064 + 0x1000000 * (c / 4) + 0x4000 * (c % 4)
def A.DTT_CTRL (c : Nat) : Nat := 0x31060100 + 0x1000000 * (c / 4) + 0x4000 * (c % 4)
def A.DTT_STATUS (c : Nat) : Nat := 0x31060104 + 0x1000000 * (c / 4) + 0x4000 * (c % 4)
def A.DTT_ROLE (c : Nat) : Nat := 0x31060108 + 0x1000000 * (c / 4) + 0x4000 * (c % 4)
def A.DTT_LIMITS (c : Nat) : Nat := 0x3106010c + 0x1000000 * (c / 4) + 0x4000 * (c % 4)
def A.DTT_SYNC_OFS (c : Nat) : Nat := 0x31060110 + 0x1000000 * (c / 4) + 0x4000 * (c % 4)
def A.DTT_ROW (c : Nat) : Nat := 0x31060114 + 0x1000000 * (c / 4) + 0x4000 * (c % 4)
def A.DTT_QREF_LO (c : Nat) : Nat := 0x31060118 + 0x1000000 * (c / 4) + 0x4000 * (c % 4)
def A.DTT_QREF_HI (c : Nat) : Nat := 0x3106011c + 0x1000000 * (c / 4) + 0x4000 * (c % 4)
def A.DTT_LAST_CORR (c : Nat) : Nat := 0x31060120 + 0x1000000 * (c / 4) + 0x4000 * (c % 4)
def A.DTT_RATE (c : Nat) : Nat := 0x31060124 + 0x1000000 * (c / 4) + 0x4000 * (c % 4)
def A.DTT_REF_LAST (c : Nat) : Nat := 0x31060128 + 0x1000000 * (c / 4) + 0x4000 * (c % 4)
def A.DTT_REF_MISS (c : Nat) : Nat := 0x31060140 + 0x1000000 * (c / 4) + 0x4000 * (c % 4)
def A.DTT_REF_REJ (c : Nat) : Nat := 0x31060144 + 0x1000000 * (c / 4) + 0x4000 * (c % 4)
def A.DTT_COLD_ARB (c : Nat) : Nat := 0x31060148 + 0x1000000 * (c / 4) + 0x4000 * (c % 4)
def A.DTT_COLD_ERR (c : Nat) : Nat := 0x3106014c + 0x1000000 * (c / 4) + 0x4000 * (c % 4)
def A.DTT_TX_BLOCKED (c : Nat) : Nat := 0x31060150 + 0x1000000 * (c / 4) + 0x4000 * (c % 4)
def A.DTT_TX_REJ (c : Nat) : Nat := 0x31060154 + 0x1000000 * (c / 4) + 0x4000 * (c % 4)
def A.DTT_RX_ERR (c : Nat) : Nat := 0x31060158 + 0x1000000 * (c / 4) + 0x4000 * (c % 4)
def A.DTT_ID_ERR (c : Nat) : Nat := 0x3106015c + 0x1000000 * (c / 4) + 0x4000 * (c % 4)
def A.DTT_UNSCHED (c : Nat) : Nat := 0x31060160 + 0x1000000 * (c / 4) + 0x4000 * (c % 4)
def A.DTT_MS_USED (c : Nat) : Nat := 0x31060164 + 0x1000000 * (c / 4) + 0x4000 * (c % 4)
def A.DTT_MS_IDLE (c : Nat) : Nat := 0x31060168 + 0x1000000 * (c / 4) + 0x4000 * (c % 4)
def A.DTT_PASSIVE (c : Nat) : Nat := 0x3106016c + 0x1000000 * (c / 4) + 0x4000 * (c % 4)
def A.DTT_TX_OK (c : Nat) : Nat := 0x31060170 + 0x1000000 * (c / 4) + 0x4000 * (c % 4)
def A.CX_FILT_ID (c i : Nat) : Nat := 0x31060800 + 0x1000000 * (c / 4) + 0x4000 * (c % 4) + 0x8 * i
def A.CX_FILT_MASK (c i : Nat) : Nat := 0x31060804 + 0x1000000 * (c / 4) + 0x4000 * (c % 4) + 0x8 * i
def A.DTT_COL_MAP (c w : Nat) : Nat := 0x31060c00 + 0x1000000 * (c / 4) + 0x4000 * (c % 4) + 0x4 * w
def A.DTT_ST_RX (c s : Nat) : Nat := 0x31061000 + 0x1000000 * (c / 4) + 0x4000 * (c % 4) + 0x4 * s
def A.DTT_ST_EMPTY (c s : Nat) : Nat := 0x31062000 + 0x1000000 * (c / 4) + 0x4000 * (c % 4) + 0x4 * s
def A.DTT_EDGE_VIOL (c s : Nat) : Nat := 0x31063000 + 0x1000000 * (c / 4) + 0x4000 * (c % 4) + 0x4 * s

def F.CX_CTRL.EN : Fld := ⟨31, 31⟩
def F.CX_CTRL.SIC_PWM : Fld := ⟨7, 7⟩
def F.CX_CTRL.AUTO_RECOV : Fld := ⟨6, 6⟩
def F.CX_CTRL.SINGLE_SHOT : Fld := ⟨5, 5⟩
def F.CX_CTRL.LISTEN_ONLY : Fld := ⟨4, 4⟩
def F.CX_CTRL.XL_EN : Fld := ⟨2, 2⟩
def F.CX_CTRL.FD_EN : Fld := ⟨1, 1⟩
def F.CX_STATUS.WR_REJ : Fld := ⟨10, 10⟩
def F.CX_STATUS.CFG_ERR : Fld := ⟨9, 9⟩
def F.CX_STATUS.STATE_CHG : Fld := ⟨8, 8⟩
def F.CX_STATUS.BUS : Fld := ⟨5, 4⟩
def F.CX_STATUS.SYNCED : Fld := ⟨3, 3⟩
def F.CX_NBT.BRP_M1 : Fld := ⟨31, 24⟩
def F.CX_NBT.TSEG1_M1 : Fld := ⟨23, 16⟩
def F.CX_NBT.TSEG2_M1 : Fld := ⟨15, 8⟩
def F.CX_NBT.SJW_M1 : Fld := ⟨7, 0⟩
def F.CX_DBT.BRP_M1 : Fld := ⟨31, 24⟩
def F.CX_DBT.TSEG1_M1 : Fld := ⟨23, 16⟩
def F.CX_DBT.TSEG2_M1 : Fld := ⟨15, 8⟩
def F.CX_DBT.SJW_M1 : Fld := ⟨7, 0⟩
def F.CX_XBT.BRP_M1 : Fld := ⟨31, 24⟩
def F.CX_XBT.TSEG1_M1 : Fld := ⟨23, 16⟩
def F.CX_XBT.TSEG2_M1 : Fld := ⟨15, 8⟩
def F.CX_XBT.SJW_M1 : Fld := ⟨7, 0⟩
def F.CX_TDC.EN : Fld := ⟨31, 31⟩
def F.CX_TDC.TDCO : Fld := ⟨23, 16⟩
def F.CX_TDC.MEAS : Fld := ⟨7, 0⟩
def F.CX_PWM.PWMO : Fld := ⟨23, 16⟩
def F.CX_PWM.PWML : Fld := ⟨15, 8⟩
def F.CX_PWM.PWMS : Fld := ⟨7, 0⟩
def F.CX_ERRC.REC : Fld := ⟨23, 16⟩
def F.CX_ERRC.TEC : Fld := ⟨7, 0⟩
def F.CX_RX_OK.COUNT : Fld := ⟨31, 0⟩
def F.CX_RX_DROP.COUNT : Fld := ⟨31, 0⟩
def F.CX_RX_NOFILT.COUNT : Fld := ⟨31, 0⟩
def F.CX_RX_REMOTE.COUNT : Fld := ⟨31, 0⟩
def F.CX_RX_ERR.COUNT : Fld := ⟨31, 0⟩
def F.CX_TX_OK.COUNT : Fld := ⟨31, 0⟩
def F.CX_TX_ERR.COUNT : Fld := ⟨31, 0⟩
def F.CX_ARB_LOST.COUNT : Fld := ⟨31, 0⟩
def F.CX_BUSOFF.COUNT : Fld := ⟨31, 0⟩
def F.CX_PXE.COUNT : Fld := ⟨31, 0⟩
def F.DTT_CTRL.EN : Fld := ⟨31, 31⟩
def F.DTT_CTRL.SYNC_EN : Fld := ⟨30, 30⟩
def F.DTT_CTRL.SYNC_DOM : Fld := ⟨29, 28⟩
def F.DTT_STATUS.STATE : Fld := ⟨19, 16⟩
def F.DTT_STATUS.WR_REJ : Fld := ⟨10, 10⟩
def F.DTT_STATUS.STATE_CHG : Fld := ⟨9, 9⟩
def F.DTT_STATUS.CFG_ERR : Fld := ⟨8, 8⟩
def F.DTT_STATUS.PAT_OK : Fld := ⟨0, 0⟩
def F.DTT_ROLE.PTAG : Fld := ⟨15, 8⟩
def F.DTT_ROLE.REF_RANK : Fld := ⟨6, 4⟩
def F.DTT_ROLE.COLD_IDX : Fld := ⟨2, 0⟩
def F.DTT_LIMITS.REF_LOSS : Fld := ⟨31, 28⟩
def F.DTT_LIMITS.STITCH_DLEN : Fld := ⟨27, 16⟩
def F.DTT_SYNC_OFS.OFS_NS : Fld := ⟨31, 0⟩
def F.DTT_ROW.ROW : Fld := ⟨21, 16⟩
def F.DTT_ROW.STITCH : Fld := ⟨9, 0⟩
def F.DTT_QREF_LO.RAW : Fld := ⟨31, 0⟩
def F.DTT_QREF_HI.RAW : Fld := ⟨31, 0⟩
def F.DTT_LAST_CORR.CORR : Fld := ⟨31, 0⟩
def F.DTT_RATE.RATE : Fld := ⟨31, 0⟩
def F.DTT_REF_LAST.VALID : Fld := ⟨31, 31⟩
def F.DTT_REF_LAST.RANK : Fld := ⟨30, 28⟩
def F.DTT_REF_LAST.ROW : Fld := ⟨27, 22⟩
def F.DTT_REF_LAST.NODE : Fld := ⟨21, 16⟩
def F.DTT_REF_LAST.ID : Fld := ⟨10, 0⟩
def F.DTT_REF_MISS.COUNT : Fld := ⟨31, 0⟩
def F.DTT_REF_REJ.COUNT : Fld := ⟨31, 0⟩
def F.DTT_COLD_ARB.COUNT : Fld := ⟨31, 0⟩
def F.DTT_COLD_ERR.COUNT : Fld := ⟨31, 0⟩
def F.DTT_TX_BLOCKED.COUNT : Fld := ⟨31, 0⟩
def F.DTT_TX_REJ.COUNT : Fld := ⟨31, 0⟩
def F.DTT_RX_ERR.COUNT : Fld := ⟨31, 0⟩
def F.DTT_ID_ERR.COUNT : Fld := ⟨31, 0⟩
def F.DTT_UNSCHED.COUNT : Fld := ⟨31, 0⟩
def F.DTT_MS_USED.COUNT : Fld := ⟨31, 0⟩
def F.DTT_MS_IDLE.COUNT : Fld := ⟨31, 0⟩
def F.DTT_PASSIVE.COUNT : Fld := ⟨31, 0⟩
def F.DTT_TX_OK.COUNT : Fld := ⟨31, 0⟩
def F.CX_FILT_ID.EN : Fld := ⟨31, 31⟩
def F.CX_FILT_ID.IDE : Fld := ⟨30, 30⟩
def F.CX_FILT_ID.ID : Fld := ⟨28, 0⟩
def F.CX_FILT_MASK.ACC_CC : Fld := ⟨31, 31⟩
def F.CX_FILT_MASK.ACC_FD : Fld := ⟨30, 30⟩
def F.CX_FILT_MASK.ACC_XL : Fld := ⟨29, 29⟩
def F.CX_FILT_MASK.MASK : Fld := ⟨28, 0⟩
def F.DTT_COL_MAP.COL : Fld := ⟨31, 0⟩
def F.DTT_ST_RX.COUNT : Fld := ⟨31, 0⟩
def F.DTT_ST_EMPTY.COUNT : Fld := ⟨31, 0⟩
def F.DTT_EDGE_VIOL.COUNT : Fld := ⟨31, 0⟩

/-! Registers of block HK (11_hook_engines.md, R558). -/

def A.HK_CTRL (e : Nat) : Nat := 0x31070000 + 0x1000000 * (e / 8) + 0x400 * (e % 8)
def A.HK_STATUS (e : Nat) : Nat := 0x31070004 + 0x1000000 * (e / 8) + 0x400 * (e % 8)
def A.HK_CLKDIV (e : Nat) : Nat := 0x31070008 + 0x1000000 * (e / 8) + 0x400 * (e % 8)
def A.HK_PINS (e : Nat) : Nat := 0x3107000c + 0x1000000 * (e / 8) + 0x400 * (e % 8)
def A.HK_CMP (e : Nat) : Nat := 0x31070010 + 0x1000000 * (e / 8) + 0x400 * (e % 8)
def A.HK_CMP_MASK (e : Nat) : Nat := 0x31070014 + 0x1000000 * (e / 8) + 0x400 * (e % 8)
def A.HK_WAITTO (e : Nat) : Nat := 0x31070018 + 0x1000000 * (e / 8) + 0x400 * (e % 8)
def A.HK_FIFO (e : Nat) : Nat := 0x3107001c + 0x1000000 * (e / 8) + 0x400 * (e % 8)
def A.HK_TXF (e : Nat) : Nat := 0x31070020 + 0x1000000 * (e / 8) + 0x400 * (e % 8)
def A.HK_RXF (e : Nat) : Nat := 0x31070024 + 0x1000000 * (e / 8) + 0x400 * (e % 8)
def A.HK_PC (e : Nat) : Nat := 0x31070028 + 0x1000000 * (e / 8) + 0x400 * (e % 8)
def A.HK_LC (e : Nat) : Nat := 0x3107002c + 0x1000000 * (e / 8) + 0x400 * (e % 8)
def A.HK_OSR (e : Nat) : Nat := 0x31070030 + 0x1000000 * (e / 8) + 0x400 * (e % 8)
def A.HK_ISR (e : Nat) : Nat := 0x31070034 + 0x1000000 * (e / 8) + 0x400 * (e % 8)
def A.HK_SCNT (e : Nat) : Nat := 0x31070038 + 0x1000000 * (e / 8) + 0x400 * (e % 8)
def A.HK_UNDERRUN_CNT (e : Nat) : Nat := 0x31070040 + 0x1000000 * (e / 8) + 0x400 * (e % 8)
def A.HK_OVERRUN_CNT (e : Nat) : Nat := 0x31070044 + 0x1000000 * (e / 8) + 0x400 * (e % 8)
def A.HK_WAITTO_CNT (e : Nat) : Nat := 0x31070048 + 0x1000000 * (e / 8) + 0x400 * (e % 8)
def A.HK_PROG (e w : Nat) : Nat := 0x31070100 + 0x1000000 * (e / 8) + 0x400 * (e % 8) + 0x4 * w

def F.HK_CTRL.RUN : Fld := ⟨31, 31⟩
def F.HK_CTRL.FLUSH : Fld := ⟨30, 30⟩
def F.HK_CTRL.NOSTALL : Fld := ⟨2, 2⟩
def F.HK_CTRL.OSR_LEFT : Fld := ⟨1, 1⟩
def F.HK_CTRL.ISR_LEFT : Fld := ⟨0, 0⟩
def F.HK_STATUS.BOUND : Fld := ⟨12, 12⟩
def F.HK_STATUS.CFG_REJ : Fld := ⟨11, 11⟩
def F.HK_STATUS.STOPPED_IN_STALL : Fld := ⟨10, 10⟩
def F.HK_STATUS.PROG_REJECT : Fld := ⟨9, 9⟩
def F.HK_STATUS.OVERRUN : Fld := ⟨8, 8⟩
def F.HK_STATUS.UNDERRUN : Fld := ⟨7, 7⟩
def F.HK_STATUS.WAIT_TO : Fld := ⟨6, 6⟩
def F.HK_STATUS.STALL : Fld := ⟨3, 2⟩
def F.HK_STATUS.STATE : Fld := ⟨1, 0⟩
def F.HK_CLKDIV.DIV_INT : Fld := ⟨31, 16⟩
def F.HK_CLKDIV.DIV_FRAC : Fld := ⟨15, 8⟩
def F.HK_PINS.JMP_PIN : Fld := ⟨23, 20⟩
def F.HK_PINS.IN_BASE : Fld := ⟨19, 16⟩
def F.HK_PINS.OUT_BASE : Fld := ⟨15, 12⟩
def F.HK_PINS.COUNT : Fld := ⟨11, 8⟩
def F.HK_PINS.BASE : Fld := ⟨4, 0⟩
def F.HK_CMP.CMP : Fld := ⟨31, 0⟩
def F.HK_CMP_MASK.MASK : Fld := ⟨31, 0⟩
def F.HK_WAITTO.TARGET : Fld := ⟨31, 26⟩
def F.HK_WAITTO.COUNT : Fld := ⟨23, 0⟩
def F.HK_FIFO.TX_LEVEL : Fld := ⟨27, 24⟩
def F.HK_FIFO.RX_LEVEL : Fld := ⟨19, 16⟩
def F.HK_FIFO.TX_THR : Fld := ⟨11, 8⟩
def F.HK_FIFO.RX_THR : Fld := ⟨3, 0⟩
def F.HK_TXF.DATA : Fld := ⟨31, 0⟩
def F.HK_RXF.DATA : Fld := ⟨31, 0⟩
def F.HK_PC.PC : Fld := ⟨5, 0⟩
def F.HK_LC.LC : Fld := ⟨15, 0⟩
def F.HK_OSR.VALUE : Fld := ⟨31, 0⟩
def F.HK_ISR.VALUE : Fld := ⟨31, 0⟩
def F.HK_SCNT.ISR_CNT : Fld := ⟨13, 8⟩
def F.HK_SCNT.OSR_CNT : Fld := ⟨5, 0⟩
def F.HK_UNDERRUN_CNT.COUNT : Fld := ⟨31, 0⟩
def F.HK_OVERRUN_CNT.COUNT : Fld := ⟨31, 0⟩
def F.HK_WAITTO_CNT.COUNT : Fld := ⟨31, 0⟩
def F.HK_PROG.WORD : Fld := ⟨15, 0⟩

/-! Registers of block HKP (11_hook_engines.md, R558). -/

def A.HOOK_PIN_CFG (h q : Nat) : Nat := 0x31072000 + 0x1000000 * h + 0x4 * q
def A.HOOK_PIN_IN (h : Nat) : Nat := 0x31072080 + 0x1000000 * h
def A.HOOK_PIN_OUT (h : Nat) : Nat := 0x31072084 + 0x1000000 * h
def A.HOOK_PIN_OE (h : Nat) : Nat := 0x31072088 + 0x1000000 * h
def A.HOOK_GSTATUS (h : Nat) : Nat := 0x3107208c + 0x1000000 * h

def F.HOOK_PIN_CFG.CFGD : Fld := ⟨31, 31⟩
def F.HOOK_PIN_CFG.OWNER : Fld := ⟨7, 4⟩
def F.HOOK_PIN_CFG.IN_INV : Fld := ⟨3, 3⟩
def F.HOOK_PIN_CFG.OUT_INV : Fld := ⟨2, 2⟩
def F.HOOK_PIN_CFG.PULL : Fld := ⟨1, 0⟩
def F.HOOK_PIN_IN.LEVEL : Fld := ⟨23, 0⟩
def F.HOOK_PIN_OUT.VALUE : Fld := ⟨23, 0⟩
def F.HOOK_PIN_OE.OE : Fld := ⟨23, 0⟩
def F.HOOK_GSTATUS.PIN_REJ : Fld := ⟨0, 0⟩

/-! Registers of block NE (03_needle_engines.md, R193). -/

def A.NE_CTRL (i : Nat) : Nat := 0x31080000 + 0x1000000 * (i / 12) + 0x1000 * (i % 12)
def A.NE_STATUS (i : Nat) : Nat := 0x31080004 + 0x1000000 * (i / 12) + 0x1000 * (i % 12)
def A.NE_RECIPE (i : Nat) : Nat := 0x31080008 + 0x1000000 * (i / 12) + 0x1000 * (i % 12)
def A.NE_FAULT (i : Nat) : Nat := 0x3108000c + 0x1000000 * (i / 12) + 0x1000 * (i % 12)
def A.NE_EVT_MASK (i : Nat) : Nat := 0x31080010 + 0x1000000 * (i / 12) + 0x1000 * (i % 12)
def A.NE_EVT_PEND (i : Nat) : Nat := 0x31080014 + 0x1000000 * (i / 12) + 0x1000 * (i % 12)
def A.NE_DOORBELL (i : Nat) : Nat := 0x31080018 + 0x1000000 * (i / 12) + 0x1000 * (i % 12)
def A.NE_LIMITS (i : Nat) : Nat := 0x3108001c + 0x1000000 * (i / 12) + 0x1000 * (i % 12)
def A.NE_CMP_SEL (i : Nat) : Nat := 0x31080020 + 0x1000000 * (i / 12) + 0x1000 * (i % 12)
def A.NE_BIND (i : Nat) : Nat := 0x31080024 + 0x1000000 * (i / 12) + 0x1000 * (i % 12)
def A.NE_INL_CTRL (i : Nat) : Nat := 0x31080028 + 0x1000000 * (i / 12) + 0x1000 * (i % 12)
def A.NE_INL_LAT (i : Nat) : Nat := 0x3108002c + 0x1000000 * (i / 12) + 0x1000 * (i % 12)
def A.NE_EVT_DONE (i : Nat) : Nat := 0x31080040 + 0x1000000 * (i / 12) + 0x1000 * (i % 12)
def A.NE_EVT_DROP (i : Nat) : Nat := 0x31080044 + 0x1000000 * (i / 12) + 0x1000 * (i % 12)
def A.NE_EVT_MERGE (i : Nat) : Nat := 0x31080048 + 0x1000000 * (i / 12) + 0x1000 * (i % 12)
def A.NE_RX_DROP (i : Nat) : Nat := 0x3108004c + 0x1000000 * (i / 12) + 0x1000 * (i % 12)
def A.NE_ECC_CORR (i : Nat) : Nat := 0x31080050 + 0x1000000 * (i / 12) + 0x1000 * (i % 12)
def A.NE_INL_BADFCS (i : Nat) : Nat := 0x31080054 + 0x1000000 * (i / 12) + 0x1000 * (i % 12)
def A.NE_INL_UNDERRUN (i : Nat) : Nat := 0x31080058 + 0x1000000 * (i / 12) + 0x1000 * (i % 12)
def A.NE_INL_DISC (i : Nat) : Nat := 0x3108005c + 0x1000000 * (i / 12) + 0x1000 * (i % 12)
def A.NE_INL_PASS (i : Nat) : Nat := 0x31080060 + 0x1000000 * (i / 12) + 0x1000 * (i % 12)

def F.NE_CTRL.HARD_US : Fld := ⟨15, 8⟩
def F.NE_CTRL.RUN : Fld := ⟨0, 0⟩
def F.NE_STATUS.BIND_REJ : Fld := ⟨11, 11⟩
def F.NE_STATUS.HARD_STOPPED : Fld := ⟨10, 10⟩
def F.NE_STATUS.START_REJ : Fld := ⟨9, 9⟩
def F.NE_STATUS.LOADED : Fld := ⟨8, 8⟩
def F.NE_STATUS.STATE : Fld := ⟨2, 0⟩
def F.NE_RECIPE.RECIPE_ID : Fld := ⟨31, 16⟩
def F.NE_RECIPE.VERSION : Fld := ⟨15, 0⟩
def F.NE_FAULT.CAUSE : Fld := ⟨31, 24⟩
def F.NE_FAULT.STATE : Fld := ⟨23, 13⟩
def F.NE_FAULT.ACT : Fld := ⟨12, 0⟩
def F.NE_EVT_MASK.SRC : Fld := ⟨9, 0⟩
def F.NE_EVT_PEND.SRC : Fld := ⟨9, 0⟩
def F.NE_DOORBELL.BELL : Fld := ⟨31, 0⟩
def F.NE_LIMITS.ACT_LIMIT : Fld := ⟨31, 16⟩
def F.NE_LIMITS.AGE : Fld := ⟨15, 0⟩
def F.NE_CMP_SEL.CMP : Fld := ⟨15, 0⟩
def F.NE_BIND.HK : Fld := ⟨11, 4⟩
def F.NE_BIND.CX : Fld := ⟨3, 0⟩
def F.NE_INL_CTRL.EN : Fld := ⟨31, 31⟩
def F.NE_INL_CTRL.LOOP_ON_DOWN : Fld := ⟨10, 10⟩
def F.NE_INL_CTRL.STOP_POLICY : Fld := ⟨9, 9⟩
def F.NE_INL_CTRL.PORT_B : Fld := ⟨7, 4⟩
def F.NE_INL_CTRL.PORT_A : Fld := ⟨3, 0⟩
def F.NE_INL_LAT.MAX_NS : Fld := ⟨15, 0⟩
def F.NE_EVT_DONE.COUNT : Fld := ⟨31, 0⟩
def F.NE_EVT_DROP.COUNT : Fld := ⟨31, 0⟩
def F.NE_EVT_MERGE.COUNT : Fld := ⟨31, 0⟩
def F.NE_RX_DROP.COUNT : Fld := ⟨31, 0⟩
def F.NE_ECC_CORR.COUNT : Fld := ⟨31, 0⟩
def F.NE_INL_BADFCS.COUNT : Fld := ⟨31, 0⟩
def F.NE_INL_UNDERRUN.COUNT : Fld := ⟨31, 0⟩
def F.NE_INL_DISC.COUNT : Fld := ⟨31, 0⟩
def F.NE_INL_PASS.COUNT : Fld := ⟨31, 0⟩

/-! Registers of block SPAD (12_memory_and_mailboxes.md, R598). -/

def A.SPAD_CTRL (h : Nat) : Nat := 0x310a0000 + 0x1000000 * h
def A.SPAD_STATUS (h : Nat) : Nat := 0x310a0004 + 0x1000000 * h
def A.SPAD_COLLIDE_INFO (h : Nat) : Nat := 0x310a0008 + 0x1000000 * h
def A.SPAD_ECC_INFO (h : Nat) : Nat := 0x310a000c + 0x1000000 * h
def A.SPAD_SWEEP_INFO (h : Nat) : Nat := 0x310a0010 + 0x1000000 * h
def A.SPAD_SWEEP_POS (h : Nat) : Nat := 0x310a0014 + 0x1000000 * h
def A.SPAD_COLLIDE_CNT (h : Nat) : Nat := 0x310a0040 + 0x1000000 * h
def A.SPAD_ECC_CORR (h : Nat) : Nat := 0x310a0044 + 0x1000000 * h
def A.SPAD_PERM_DENY (h : Nat) : Nat := 0x310a0048 + 0x1000000 * h
def A.SPAD_SWEEP_FAILS (h : Nat) : Nat := 0x310a004c + 0x1000000 * h
def A.SPAD_WIN_BASE (h w : Nat) : Nat := 0x310a0100 + 0x1000000 * h + 0x10 * w
def A.SPAD_WIN_SIZE (h w : Nat) : Nat := 0x310a0104 + 0x1000000 * h + 0x10 * w
def A.SPAD_WIN_GRANT (h w : Nat) : Nat := 0x310a0108 + 0x1000000 * h + 0x10 * w
def A.SPAD_WIN_NE (h w : Nat) : Nat := 0x310a010c + 0x1000000 * h + 0x10 * w
def A.BANK_OWNER (h n : Nat) : Nat := 0x310a0800 + 0x1000000 * h + 0x4 * n

def F.SPAD_CTRL.SWEEP_EN : Fld := ⟨1, 1⟩
def F.SPAD_CTRL.PERM_EN : Fld := ⟨0, 0⟩
def F.SPAD_STATUS.ZEROING : Fld := ⟨3, 3⟩
def F.SPAD_STATUS.SWEEP_FAIL : Fld := ⟨2, 2⟩
def F.SPAD_STATUS.ECC_DED : Fld := ⟨1, 1⟩
def F.SPAD_STATUS.SPAD_COLLIDE : Fld := ⟨0, 0⟩
def F.SPAD_COLLIDE_INFO.MASTER : Fld := ⟨31, 24⟩
def F.SPAD_COLLIDE_INFO.BANK : Fld := ⟨23, 19⟩
def F.SPAD_COLLIDE_INFO.WORD : Fld := ⟨13, 0⟩
def F.SPAD_ECC_INFO.BANK : Fld := ⟨23, 19⟩
def F.SPAD_ECC_INFO.WORD : Fld := ⟨13, 0⟩
def F.SPAD_SWEEP_INFO.BANK : Fld := ⟨23, 19⟩
def F.SPAD_SWEEP_INFO.BLOCK : Fld := ⟨10, 0⟩
def F.SPAD_SWEEP_POS.PASSES : Fld := ⟨31, 11⟩
def F.SPAD_SWEEP_POS.BLOCK : Fld := ⟨10, 0⟩
def F.SPAD_COLLIDE_CNT.COUNT : Fld := ⟨31, 0⟩
def F.SPAD_ECC_CORR.COUNT : Fld := ⟨31, 0⟩
def F.SPAD_PERM_DENY.COUNT : Fld := ⟨31, 0⟩
def F.SPAD_SWEEP_FAILS.COUNT : Fld := ⟨31, 0⟩
def F.SPAD_WIN_BASE.EN : Fld := ⟨31, 31⟩
def F.SPAD_WIN_BASE.ROT : Fld := ⟨30, 30⟩
def F.SPAD_WIN_BASE.BASE : Fld := ⟨20, 12⟩
def F.SPAD_WIN_SIZE.SIZE : Fld := ⟨21, 12⟩
def F.SPAD_WIN_GRANT.WR : Fld := ⟨27, 16⟩
def F.SPAD_WIN_GRANT.RD : Fld := ⟨11, 0⟩
def F.SPAD_WIN_NE.NE : Fld := ⟨23, 0⟩
def F.BANK_OWNER.OWNER : Fld := ⟨7, 0⟩

/-! Registers of block DRAM (13_harts_dram_larder.md, R632). -/

def A.DRAM_CTRL (h : Nat) : Nat := 0x310b0000 + 0x1000000 * h
def A.DRAM_CFG (h : Nat) : Nat := 0x310b0004 + 0x1000000 * h
def A.DRAM_STATUS (h : Nat) : Nat := 0x310b0008 + 0x1000000 * h
def A.DRAM_PATROL (h : Nat) : Nat := 0x310b000c + 0x1000000 * h
def A.DRAM_MIRROR (h : Nat) : Nat := 0x310b0010 + 0x1000000 * h
def A.DRAM_ECC_ADDR_LO (h : Nat) : Nat := 0x310b0014 + 0x1000000 * h
def A.DRAM_ECC_ADDR_HI (h : Nat) : Nat := 0x310b0018 + 0x1000000 * h
def A.DRAM_ECC_CORR (h : Nat) : Nat := 0x310b0040 + 0x1000000 * h
def A.DRAM_ECC_DED_CNT (h : Nat) : Nat := 0x310b0044 + 0x1000000 * h
def A.DRAM_MIRROR_DIV_CNT (h : Nat) : Nat := 0x310b0048 + 0x1000000 * h

def F.DRAM_CTRL.LOCK : Fld := ⟨31, 31⟩
def F.DRAM_CTRL.AUDIT_EN : Fld := ⟨2, 2⟩
def F.DRAM_CTRL.PATROL_EN : Fld := ⟨1, 1⟩
def F.DRAM_CTRL.EN : Fld := ⟨0, 0⟩
def F.DRAM_CFG.RATE : Fld := ⟨5, 4⟩
def F.DRAM_CFG.DENSITY : Fld := ⟨1, 1⟩
def F.DRAM_CFG.RANKS : Fld := ⟨0, 0⟩
def F.DRAM_STATUS.MIRROR_DIV : Fld := ⟨4, 4⟩
def F.DRAM_STATUS.ECC_DED : Fld := ⟨3, 3⟩
def F.DRAM_STATUS.SELF_REFRESH : Fld := ⟨2, 2⟩
def F.DRAM_STATUS.TRAIN_FAIL : Fld := ⟨1, 1⟩
def F.DRAM_STATUS.TRAINED : Fld := ⟨0, 0⟩
def F.DRAM_PATROL.PASSES : Fld := ⟨31, 8⟩
def F.DRAM_PATROL.HOURS : Fld := ⟨7, 0⟩
def F.DRAM_MIRROR.EN : Fld := ⟨31, 31⟩
def F.DRAM_MIRROR.STATE : Fld := ⟨9, 8⟩
def F.DRAM_MIRROR.RATE : Fld := ⟨7, 0⟩
def F.DRAM_ECC_ADDR_LO.ADDR : Fld := ⟨31, 0⟩
def F.DRAM_ECC_ADDR_HI.ADDR : Fld := ⟨31, 0⟩
def F.DRAM_ECC_CORR.COUNT : Fld := ⟨31, 0⟩
def F.DRAM_ECC_DED_CNT.COUNT : Fld := ⟨31, 0⟩
def F.DRAM_MIRROR_DIV_CNT.COUNT : Fld := ⟨31, 0⟩

/-! Registers of block HOST (14_kcp_host_commands.md, R677). -/

def A.KCP_RING_CTRL (h : Nat) : Nat := 0x310c0000 + 0x1000000 * h
def A.KCP_DB (h : Nat) : Nat := 0x310c0004 + 0x1000000 * h
def A.KCP_BUSY (h : Nat) : Nat := 0x310c0008 + 0x1000000 * h
def A.KCP_DONE (h : Nat) : Nat := 0x310c000c + 0x1000000 * h
def A.PCI_AP_BASE (h : Nat) : Nat := 0x310c0010 + 0x1000000 * h
def A.PCI_STATUS (h : Nat) : Nat := 0x310c0014 + 0x1000000 * h
def A.HI_PEND (h : Nat) : Nat := 0x310c0040 + 0x1000000 * h
def A.HI_EN (h : Nat) : Nat := 0x310c0044 + 0x1000000 * h
def A.HI_CLR (h : Nat) : Nat := 0x310c0048 + 0x1000000 * h
def A.HI_VEC (h s : Nat) : Nat := 0x310c0050 + 0x1000000 * h + 0x4 * s
def A.QH_CFG (h : Nat) : Nat := 0x310c0400 + 0x1000000 * h
def A.QH_TSTAT (h : Nat) : Nat := 0x310c0404 + 0x1000000 * h
def A.QH_EADDR_LO (h : Nat) : Nat := 0x310c0408 + 0x1000000 * h
def A.QH_EADDR_HI (h : Nat) : Nat := 0x310c040c + 0x1000000 * h
def A.QH_HI_PEND (h : Nat) : Nat := 0x310c0440 + 0x1000000 * h
def A.QH_HI_EN (h : Nat) : Nat := 0x310c0444 + 0x1000000 * h
def A.QH_HI_CLR (h : Nat) : Nat := 0x310c0448 + 0x1000000 * h
def A.LB_TSTAT (h : Nat) : Nat := 0x310c0800 + 0x1000000 * h
def A.LB_EADDR_LO (h : Nat) : Nat := 0x310c0804 + 0x1000000 * h
def A.LB_EADDR_HI (h : Nat) : Nat := 0x310c0808 + 0x1000000 * h
def A.LB_HI_PEND (h : Nat) : Nat := 0x310c0840 + 0x1000000 * h
def A.LB_HI_EN (h : Nat) : Nat := 0x310c0844 + 0x1000000 * h
def A.LB_HI_CLR (h : Nat) : Nat := 0x310c0848 + 0x1000000 * h
def A.KCP_UDP_CTRL (h : Nat) : Nat := 0x310c0a00 + 0x1000000 * h
def A.KCP_IP (h : Nat) : Nat := 0x310c0a04 + 0x1000000 * h
def A.KCP_MAC_LO (h : Nat) : Nat := 0x310c0a08 + 0x1000000 * h
def A.KCP_MAC_HI (h : Nat) : Nat := 0x310c0a0c + 0x1000000 * h
def A.KCP_RX_OK (h : Nat) : Nat := 0x310c0f00 + 0x1000000 * h
def A.KCP_RX_BAD (h : Nat) : Nat := 0x310c0f04 + 0x1000000 * h
def A.KCP_HUNT (h : Nat) : Nat := 0x310c0f08 + 0x1000000 * h
def A.KCP_DB_IGNORED (h : Nat) : Nat := 0x310c0f0c + 0x1000000 * h
def A.KCP_UDP_AUTH_FAIL (h : Nat) : Nat := 0x310c0f10 + 0x1000000 * h
def A.KCP_UDP_REPLAY (h : Nat) : Nat := 0x310c0f14 + 0x1000000 * h
def A.KCP_TIMEOUT (h : Nat) : Nat := 0x310c0f18 + 0x1000000 * h

def F.KCP_RING_CTRL.EN : Fld := ⟨0, 0⟩
def F.KCP_DB.DB : Fld := ⟨31, 0⟩
def F.KCP_BUSY.BUSY : Fld := ⟨31, 0⟩
def F.KCP_DONE.DONE : Fld := ⟨31, 0⟩
def F.PCI_AP_BASE.BASE : Fld := ⟨21, 0⟩
def F.PCI_STATUS.PERST : Fld := ⟨31, 31⟩
def F.PCI_STATUS.BME : Fld := ⟨30, 30⟩
def F.PCI_STATUS.WIDTH : Fld := ⟨7, 4⟩
def F.PCI_STATUS.SPEED : Fld := ⟨3, 2⟩
def F.PCI_STATUS.LINK_UP : Fld := ⟨0, 0⟩
def F.HI_PEND.PEND : Fld := ⟨19, 0⟩
def F.HI_EN.EN : Fld := ⟨19, 0⟩
def F.HI_CLR.CLR : Fld := ⟨19, 0⟩
def F.HI_VEC.VEC : Fld := ⟨4, 0⟩
def F.QH_CFG.EN : Fld := ⟨31, 31⟩
def F.QH_CFG.DUMMY : Fld := ⟨7, 0⟩
def F.QH_TSTAT.CMD_SPACE : Fld := ⟨31, 19⟩
def F.QH_TSTAT.RSP_BYTES : Fld := ⟨18, 6⟩
def F.QH_TSTAT.LATE : Fld := ⟨5, 5⟩
def F.QH_TSTAT.DATA_ERR : Fld := ⟨4, 4⟩
def F.QH_TSTAT.WRITE_LOST : Fld := ⟨3, 3⟩
def F.QH_TSTAT.BUS_ERR : Fld := ⟨2, 2⟩
def F.QH_TSTAT.OVF : Fld := ⟨1, 1⟩
def F.QH_TSTAT.RSP_UNDER : Fld := ⟨0, 0⟩
def F.QH_EADDR_LO.ADDR : Fld := ⟨31, 0⟩
def F.QH_EADDR_HI.ADDR : Fld := ⟨7, 0⟩
def F.QH_HI_PEND.PEND : Fld := ⟨19, 0⟩
def F.QH_HI_EN.EN : Fld := ⟨19, 0⟩
def F.QH_HI_CLR.CLR : Fld := ⟨19, 0⟩
def F.LB_TSTAT.CMD_SPACE : Fld := ⟨31, 19⟩
def F.LB_TSTAT.RSP_BYTES : Fld := ⟨18, 6⟩
def F.LB_TSTAT.LATE : Fld := ⟨5, 5⟩
def F.LB_TSTAT.DATA_ERR : Fld := ⟨4, 4⟩
def F.LB_TSTAT.WRITE_LOST : Fld := ⟨3, 3⟩
def F.LB_TSTAT.BUS_ERR : Fld := ⟨2, 2⟩
def F.LB_TSTAT.OVF : Fld := ⟨1, 1⟩
def F.LB_TSTAT.RSP_UNDER : Fld := ⟨0, 0⟩
def F.LB_EADDR_LO.ADDR : Fld := ⟨31, 0⟩
def F.LB_EADDR_HI.ADDR : Fld := ⟨7, 0⟩
def F.LB_HI_PEND.PEND : Fld := ⟨19, 0⟩
def F.LB_HI_EN.EN : Fld := ⟨19, 0⟩
def F.LB_HI_CLR.CLR : Fld := ⟨19, 0⟩
def F.KCP_UDP_CTRL.EN : Fld := ⟨31, 31⟩
def F.KCP_IP.ADDR : Fld := ⟨31, 0⟩
def F.KCP_MAC_LO.ADDR : Fld := ⟨31, 0⟩
def F.KCP_MAC_HI.ADDR : Fld := ⟨15, 0⟩
def F.KCP_RX_OK.COUNT : Fld := ⟨31, 0⟩
def F.KCP_RX_BAD.COUNT : Fld := ⟨31, 0⟩
def F.KCP_HUNT.COUNT : Fld := ⟨31, 0⟩
def F.KCP_DB_IGNORED.COUNT : Fld := ⟨31, 0⟩
def F.KCP_UDP_AUTH_FAIL.COUNT : Fld := ⟨31, 0⟩
def F.KCP_UDP_REPLAY.COUNT : Fld := ⟨31, 0⟩
def F.KCP_TIMEOUT.COUNT : Fld := ⟨31, 0⟩

/-! Registers of block GAUGE (08_gauge_time.md, R442). -/

def A.GAUGE_RAW_LO : Nat := 0x33000000
def A.GAUGE_RAW_HI : Nat := 0x33000004
def A.GAUGE_REF : Nat := 0x33000008
def A.GAUGE_EPOCH : Nat := 0x3300000c
def A.GAUGE_SWITCH_CNT : Nat := 0x33000010
def A.GAUGE_DIFF : Nat := 0x33000014
def A.GAUGE_DOM_NS (d : Nat) : Nat := 0x33000100 + 0x80 * d
def A.GAUGE_DOM_SEC_LO (d : Nat) : Nat := 0x33000104 + 0x80 * d
def A.GAUGE_DOM_SEC_HI (d : Nat) : Nat := 0x33000108 + 0x80 * d
def A.GAUGE_DOM_FRAC (d : Nat) : Nat := 0x3300010c + 0x80 * d
def A.GAUGE_DOM_LRAW_LO (d : Nat) : Nat := 0x33000110 + 0x80 * d
def A.GAUGE_DOM_LRAW_HI (d : Nat) : Nat := 0x33000114 + 0x80 * d
def A.GAUGE_DOM_CFG (d : Nat) : Nat := 0x33000118 + 0x80 * d
def A.GAUGE_DOM_STATUS (d : Nat) : Nat := 0x3300011c + 0x80 * d
def A.GAUGE_DOM_STG_AT_LO (d : Nat) : Nat := 0x33000120 + 0x80 * d
def A.GAUGE_DOM_STG_AT_HI (d : Nat) : Nat := 0x33000124 + 0x80 * d
def A.GAUGE_DOM_STG_RATE_LO (d : Nat) : Nat := 0x33000128 + 0x80 * d
def A.GAUGE_DOM_STG_RATE_HI (d : Nat) : Nat := 0x3300012c + 0x80 * d
def A.GAUGE_DOM_STG_SEC_LO (d : Nat) : Nat := 0x33000130 + 0x80 * d
def A.GAUGE_DOM_STG_SEC_HI (d : Nat) : Nat := 0x33000134 + 0x80 * d
def A.GAUGE_DOM_STG_NS (d : Nat) : Nat := 0x33000138 + 0x80 * d
def A.GAUGE_DOM_STG_FRAC (d : Nat) : Nat := 0x3300013c + 0x80 * d
def A.GAUGE_DOM_CTRL (d : Nat) : Nat := 0x33000140 + 0x80 * d
def A.GAUGE_DOM_RATE_LO (d : Nat) : Nat := 0x33000144 + 0x80 * d
def A.GAUGE_DOM_RATE_HI (d : Nat) : Nat := 0x33000148 + 0x80 * d
def A.GAUGE_DOM_LAST_LO (d : Nat) : Nat := 0x3300014c + 0x80 * d
def A.GAUGE_DOM_LAST_HI (d : Nat) : Nat := 0x33000150 + 0x80 * d
def A.GAUGE_DOM_COMMITS (d : Nat) : Nat := 0x33000154 + 0x80 * d
def A.GAUGE_DOM_CONV_RAW_LO (d : Nat) : Nat := 0x33000160 + 0x80 * d
def A.GAUGE_DOM_CONV_RAW_HI (d : Nat) : Nat := 0x33000164 + 0x80 * d
def A.GAUGE_DOM_CONV_NS (d : Nat) : Nat := 0x33000168 + 0x80 * d
def A.GAUGE_DOM_CONV_SEC_LO (d : Nat) : Nat := 0x3300016c + 0x80 * d
def A.GAUGE_DOM_CONV_SEC_HI (d : Nat) : Nat := 0x33000170 + 0x80 * d
def A.GAUGE_DOM_CONV_FRAC (d : Nat) : Nat := 0x33000174 + 0x80 * d
def A.GAUGE_CMP_CTRL (k : Nat) : Nat := 0x33000400 + 0x20 * k
def A.GAUGE_CMP_NEXT_LO (k : Nat) : Nat := 0x33000404 + 0x20 * k
def A.GAUGE_CMP_NEXT_HI (k : Nat) : Nat := 0x33000408 + 0x20 * k
def A.GAUGE_CMP_NEXT_NS (k : Nat) : Nat := 0x3300040c + 0x20 * k
def A.GAUGE_CMP_PERIOD (k : Nat) : Nat := 0x33000410 + 0x20 * k
def A.GAUGE_CMP_COUNT (k : Nat) : Nat := 0x33000414 + 0x20 * k
def A.GAUGE_CMP_MISSED (k : Nat) : Nat := 0x33000418 + 0x20 * k
def A.GAUGE_PPS_CTRL (j : Nat) : Nat := 0x33000800 + 0x4 * j
def A.GAUGE_TSC_CTRL (p : Nat) : Nat := 0x33001000 + 0x400 * p
def A.GAUGE_TSC_ADJ (p : Nat) : Nat := 0x33001004 + 0x400 * p
def A.GAUGE_TS_RX_CNT (p : Nat) : Nat := 0x33001008 + 0x400 * p
def A.GAUGE_TS_TX_CNT (p : Nat) : Nat := 0x3300100c + 0x400 * p
def A.GAUGE_TS_ONESTEP_SKIP (p : Nat) : Nat := 0x33001010 + 0x400 * p
def A.GAUGE_TS_RX_RING (p i w : Nat) : Nat := 0x33001100 + 0x400 * p + 0x10 * i + 0x4 * w
def A.GAUGE_TS_TX_RING (p i w : Nat) : Nat := 0x33001200 + 0x400 * p + 0x10 * i + 0x4 * w

def F.GAUGE_RAW_LO.RAW : Fld := ⟨31, 0⟩
def F.GAUGE_RAW_HI.RAW : Fld := ⟨31, 0⟩
def F.GAUGE_REF.BOTH_LOST : Fld := ⟨31, 31⟩
def F.GAUGE_REF.SWITCHED : Fld := ⟨30, 30⟩
def F.GAUGE_REF.P_OK : Fld := ⟨9, 9⟩
def F.GAUGE_REF.K_OK : Fld := ⟨8, 8⟩
def F.GAUGE_REF.ACTIVE : Fld := ⟨5, 5⟩
def F.GAUGE_REF.AUTO : Fld := ⟨4, 4⟩
def F.GAUGE_REF.SEL : Fld := ⟨0, 0⟩
def F.GAUGE_EPOCH.EPOCH : Fld := ⟨15, 0⟩
def F.GAUGE_SWITCH_CNT.COUNT : Fld := ⟨31, 0⟩
def F.GAUGE_DIFF.PPB : Fld := ⟨31, 0⟩
def F.GAUGE_DOM_NS.NS : Fld := ⟨31, 0⟩
def F.GAUGE_DOM_SEC_LO.SEC : Fld := ⟨31, 0⟩
def F.GAUGE_DOM_SEC_HI.SEC : Fld := ⟨31, 0⟩
def F.GAUGE_DOM_FRAC.FRAC : Fld := ⟨15, 0⟩
def F.GAUGE_DOM_LRAW_LO.RAW : Fld := ⟨31, 0⟩
def F.GAUGE_DOM_LRAW_HI.RAW : Fld := ⟨31, 0⟩
def F.GAUGE_DOM_CFG.HOLD_MS : Fld := ⟨31, 16⟩
def F.GAUGE_DOM_CFG.ALT_OWNER : Fld := ⟨15, 8⟩
def F.GAUGE_DOM_CFG.OWNER : Fld := ⟨7, 0⟩
def F.GAUGE_DOM_STATUS.COMMIT_PEND : Fld := ⟨31, 31⟩
def F.GAUGE_DOM_STATUS.STAGE_REJ : Fld := ⟨30, 30⟩
def F.GAUGE_DOM_STATUS.STATE : Fld := ⟨17, 16⟩
def F.GAUGE_DOM_STATUS.OWNER_NOW : Fld := ⟨7, 0⟩
def F.GAUGE_DOM_STG_AT_LO.RAW : Fld := ⟨31, 0⟩
def F.GAUGE_DOM_STG_AT_HI.RAW : Fld := ⟨31, 0⟩
def F.GAUGE_DOM_STG_RATE_LO.RATE : Fld := ⟨31, 0⟩
def F.GAUGE_DOM_STG_RATE_HI.RATE : Fld := ⟨7, 0⟩
def F.GAUGE_DOM_STG_SEC_LO.SEC : Fld := ⟨31, 0⟩
def F.GAUGE_DOM_STG_SEC_HI.SEC : Fld := ⟨31, 0⟩
def F.GAUGE_DOM_STG_NS.NS : Fld := ⟨29, 0⟩
def F.GAUGE_DOM_STG_FRAC.FRAC : Fld := ⟨15, 0⟩
def F.GAUGE_DOM_CTRL.COMMIT : Fld := ⟨31, 31⟩
def F.GAUGE_DOM_CTRL.CANCEL : Fld := ⟨30, 30⟩
def F.GAUGE_DOM_CTRL.STATE_REQ : Fld := ⟨9, 8⟩
def F.GAUGE_DOM_CTRL.KEEP_RATE : Fld := ⟨4, 4⟩
def F.GAUGE_DOM_CTRL.MODE : Fld := ⟨1, 0⟩
def F.GAUGE_DOM_RATE_LO.RATE : Fld := ⟨31, 0⟩
def F.GAUGE_DOM_RATE_HI.RATE : Fld := ⟨7, 0⟩
def F.GAUGE_DOM_LAST_LO.RAW : Fld := ⟨31, 0⟩
def F.GAUGE_DOM_LAST_HI.RAW : Fld := ⟨31, 0⟩
def F.GAUGE_DOM_COMMITS.COUNT : Fld := ⟨31, 0⟩
def F.GAUGE_DOM_CONV_RAW_LO.RAW : Fld := ⟨31, 0⟩
def F.GAUGE_DOM_CONV_RAW_HI.RAW : Fld := ⟨31, 0⟩
def F.GAUGE_DOM_CONV_NS.NS : Fld := ⟨31, 0⟩
def F.GAUGE_DOM_CONV_SEC_LO.SEC : Fld := ⟨31, 0⟩
def F.GAUGE_DOM_CONV_SEC_HI.SEC : Fld := ⟨31, 0⟩
def F.GAUGE_DOM_CONV_FRAC.ERR : Fld := ⟨31, 31⟩
def F.GAUGE_DOM_CONV_FRAC.FRAC : Fld := ⟨15, 0⟩
def F.GAUGE_CMP_CTRL.EN : Fld := ⟨31, 31⟩
def F.GAUGE_CMP_CTRL.DOM_EN : Fld := ⟨26, 26⟩
def F.GAUGE_CMP_CTRL.DOM : Fld := ⟨25, 24⟩
def F.GAUGE_CMP_NEXT_LO.NEXT : Fld := ⟨31, 0⟩
def F.GAUGE_CMP_NEXT_HI.NEXT : Fld := ⟨31, 0⟩
def F.GAUGE_CMP_NEXT_NS.NS : Fld := ⟨29, 0⟩
def F.GAUGE_CMP_PERIOD.PERIOD : Fld := ⟨31, 0⟩
def F.GAUGE_CMP_COUNT.COUNT : Fld := ⟨31, 0⟩
def F.GAUGE_CMP_MISSED.COUNT : Fld := ⟨31, 0⟩
def F.GAUGE_PPS_CTRL.EN : Fld := ⟨31, 31⟩
def F.GAUGE_PPS_CTRL.CMP : Fld := ⟨19, 16⟩
def F.GAUGE_PPS_CTRL.WIDTH_US : Fld := ⟨15, 0⟩
def F.GAUGE_TSC_CTRL.EN : Fld := ⟨31, 31⟩
def F.GAUGE_TSC_CTRL.ONESTEP : Fld := ⟨30, 30⟩
def F.GAUGE_TSC_CTRL.ONE_DOM : Fld := ⟨29, 28⟩
def F.GAUGE_TSC_ADJ.ADJ_RX : Fld := ⟨31, 16⟩
def F.GAUGE_TSC_ADJ.ADJ_TX : Fld := ⟨15, 0⟩
def F.GAUGE_TS_RX_CNT.COUNT : Fld := ⟨31, 0⟩
def F.GAUGE_TS_TX_CNT.COUNT : Fld := ⟨31, 0⟩
def F.GAUGE_TS_ONESTEP_SKIP.COUNT : Fld := ⟨31, 0⟩
def F.GAUGE_TS_RX_RING.WORD : Fld := ⟨31, 0⟩
def F.GAUGE_TS_TX_RING.WORD : Fld := ⟨31, 0⟩

/-! Registers of block MBX (12_memory_and_mailboxes.md, R600). -/

def A.MBX_MSG (c w : Nat) : Nat := 0x33010000 + 0x40 * c + 0x4 * w
def A.MBX_DB (c : Nat) : Nat := 0x33010020 + 0x40 * c
def A.MBX_STATUS (c : Nat) : Nat := 0x33010024 + 0x40 * c
def A.MBX_RING_CNT (c : Nat) : Nat := 0x33010028 + 0x40 * c
def A.MBX_REJ_CNT (c : Nat) : Nat := 0x3301002c + 0x40 * c
def A.MBX_BIND (c : Nat) : Nat := 0x33011000 + 0x4 * c
def A.MBX_BIND_LOCK : Nat := 0x33011100
def A.MBX_LOCK (k : Nat) : Nat := 0x33011200 + 0x4 * k
def A.MBX_LOCK_BROKEN : Nat := 0x33011280

def F.MBX_MSG.DATA : Fld := ⟨31, 0⟩
def F.MBX_DB.ACK : Fld := ⟨1, 1⟩
def F.MBX_DB.RING : Fld := ⟨0, 0⟩
def F.MBX_STATUS.FULL : Fld := ⟨31, 31⟩
def F.MBX_STATUS.RX_EPOCH_CHANGED : Fld := ⟨30, 30⟩
def F.MBX_STATUS.SENDER_RESET : Fld := ⟨29, 29⟩
def F.MBX_STATUS.MERGED : Fld := ⟨28, 28⟩
def F.MBX_RING_CNT.COUNT : Fld := ⟨31, 0⟩
def F.MBX_REJ_CNT.COUNT : Fld := ⟨31, 0⟩
def F.MBX_BIND.SENDER : Fld := ⟨15, 8⟩
def F.MBX_BIND.RECEIVER : Fld := ⟨7, 0⟩
def F.MBX_BIND_LOCK.LOCK : Fld := ⟨0, 0⟩
def F.MBX_LOCK.OWNER : Fld := ⟨7, 0⟩
def F.MBX_LOCK_BROKEN.BROKEN : Fld := ⟨31, 0⟩

/-! Registers of block WAKE (10_sleep_and_wake.md, R528). -/

def A.WAKE_PSTATE : Nat := 0x33020000
def A.WAKE_PCTRL : Nat := 0x33020004
def A.WAKE_AON_STATUS : Nat := 0x33020008
def A.WAKE_KA : Nat := 0x3302000c
def A.WAKE_NODATA_T : Nat := 0x33020010
def A.WAKE_VALID_T : Nat := 0x33020014
def A.WAKE_INSOMNIA_T : Nat := 0x33020018
def A.WAKE_DA_LO : Nat := 0x3302001c
def A.WAKE_DA_HI : Nat := 0x33020020
def A.WAKE_PIN_CFG : Nat := 0x33020024
def A.WAKE_FALSE_CLR : Nat := 0x33020030
def A.WAKE_INS_CLR : Nat := 0x33020034
def A.WAKE_SRC (i : Nat) : Nat := 0x33020040 + 0x4 * i
def A.WAKE_FALSE_CNT (i : Nat) : Nat := 0x33020080 + 0x4 * i
def A.WAKE_SEG_CTRL (n : Nat) : Nat := 0x33020100 + 0x40 * n
def A.WAKE_SEG_MEMB (n : Nat) : Nat := 0x33020104 + 0x40 * n
def A.WAKE_SEG_STATUS (n : Nat) : Nat := 0x33020108 + 0x40 * n
def A.WAKE_SEG_BO_LO (n : Nat) : Nat := 0x3302010c + 0x40 * n
def A.WAKE_SEG_BO_HI (n : Nat) : Nat := 0x33020110 + 0x40 * n
def A.WAKE_SEG_CAN_KA_ID (n : Nat) : Nat := 0x33020114 + 0x40 * n
def A.WAKE_SEG_CAN_KA_MASK (n : Nat) : Nat := 0x33020118 + 0x40 * n
def A.WAKE_SEG_NODATA (n : Nat) : Nat := 0x3302011c + 0x40 * n
def A.WAKE_SEG_KA_RX (n : Nat) : Nat := 0x33020120 + 0x40 * n
def A.WAKE_SEG_LATE (n : Nat) : Nat := 0x33020124 + 0x40 * n
def A.WAKE_SEG_SLEEPS (n : Nat) : Nat := 0x33020128 + 0x40 * n
def A.WAKE_TLM_ID (p e : Nat) : Nat := 0x33020400 + 0x80 * p + 0x20 * e
def A.WAKE_TLM_DVAL_LO (p e : Nat) : Nat := 0x33020404 + 0x80 * p + 0x20 * e
def A.WAKE_TLM_DVAL_HI (p e : Nat) : Nat := 0x33020408 + 0x80 * p + 0x20 * e
def A.WAKE_TLM_DMASK_LO (p e : Nat) : Nat := 0x3302040c + 0x80 * p + 0x20 * e
def A.WAKE_TLM_DMASK_HI (p e : Nat) : Nat := 0x33020410 + 0x80 * p + 0x20 * e
def A.WAKE_TLM_CTRL (p e : Nat) : Nat := 0x33020414 + 0x80 * p + 0x20 * e
def A.WAKE_TLM_CNT (p e : Nat) : Nat := 0x33020418 + 0x80 * p + 0x20 * e
def A.WAKE_TL_NOMATCH (p : Nat) : Nat := 0x33020800 + 0x4 * p
def A.WAKE_CX_CFG (c : Nat) : Nat := 0x33020840 + 0x4 * c
def A.WAKE_INS_LOG (n k w : Nat) : Nat := 0x33022000 + 0x400 * n + 0x20 * k + 0x4 * w

def F.WAKE_PSTATE.BUSY : Fld := ⟨31, 31⟩
def F.WAKE_PSTATE.REQ_REJ : Fld := ⟨30, 30⟩
def F.WAKE_PSTATE.CAUSE_TYPE : Fld := ⟨19, 16⟩
def F.WAKE_PSTATE.CAUSE_IDX : Fld := ⟨15, 8⟩
def F.WAKE_PSTATE.SOLO_HALF : Fld := ⟨2, 2⟩
def F.WAKE_PSTATE.STATE : Fld := ⟨1, 0⟩
def F.WAKE_PCTRL.GO : Fld := ⟨31, 31⟩
def F.WAKE_PCTRL.AUTO_STATE : Fld := ⟨9, 8⟩
def F.WAKE_PCTRL.RETAIN : Fld := ⟨4, 4⟩
def F.WAKE_PCTRL.HALF : Fld := ⟨2, 2⟩
def F.WAKE_PCTRL.REQ : Fld := ⟨1, 0⟩
def F.WAKE_AON_STATUS.CFG_REJ : Fld := ⟨8, 8⟩
def F.WAKE_AON_STATUS.XTAL_ON : Fld := ⟨1, 1⟩
def F.WAKE_AON_STATUS.XTAL_OK : Fld := ⟨0, 0⟩
def F.WAKE_KA.INTERVAL : Fld := ⟨15, 0⟩
def F.WAKE_NODATA_T.MS : Fld := ⟨15, 0⟩
def F.WAKE_VALID_T.MS : Fld := ⟨15, 0⟩
def F.WAKE_INSOMNIA_T.S : Fld := ⟨15, 0⟩
def F.WAKE_DA_LO.ADDR : Fld := ⟨31, 0⟩
def F.WAKE_DA_HI.ADDR : Fld := ⟨15, 0⟩
def F.WAKE_PIN_CFG.FILT_US : Fld := ⟨15, 8⟩
def F.WAKE_PIN_CFG.POL : Fld := ⟨7, 0⟩
def F.WAKE_FALSE_CLR.CLR : Fld := ⟨12, 0⟩
def F.WAKE_INS_CLR.CLR : Fld := ⟨7, 0⟩
def F.WAKE_SRC.EN : Fld := ⟨31, 31⟩
def F.WAKE_SRC.MASKED : Fld := ⟨30, 30⟩
def F.WAKE_SRC.POWER : Fld := ⟨25, 24⟩
def F.WAKE_SRC.SEG : Fld := ⟨23, 16⟩
def F.WAKE_SRC.THR : Fld := ⟨15, 0⟩
def F.WAKE_FALSE_CNT.COUNT : Fld := ⟨15, 0⟩
def F.WAKE_SEG_CTRL.EN : Fld := ⟨31, 31⟩
def F.WAKE_SEG_CTRL.HOLD : Fld := ⟨30, 30⟩
def F.WAKE_SEG_CTRL.KA_TX : Fld := ⟨29, 29⟩
def F.WAKE_SEG_CTRL.NODATA_EN : Fld := ⟨28, 28⟩
def F.WAKE_SEG_CTRL.POWER : Fld := ⟨25, 24⟩
def F.WAKE_SEG_CTRL.SLEEP_T : Fld := ⟨15, 0⟩
def F.WAKE_SEG_MEMB.CX : Fld := ⟨15, 8⟩
def F.WAKE_SEG_MEMB.TL : Fld := ⟨7, 0⟩
def F.WAKE_SEG_STATUS.STATE : Fld := ⟨31, 30⟩
def F.WAKE_SEG_STATUS.LATCHED : Fld := ⟨29, 29⟩
def F.WAKE_SEG_STATUS.INS_OPEN : Fld := ⟨28, 28⟩
def F.WAKE_SEG_STATUS.INS_NEXT : Fld := ⟨4, 0⟩
def F.WAKE_SEG_BO_LO.RAW : Fld := ⟨31, 0⟩
def F.WAKE_SEG_BO_HI.RAW : Fld := ⟨31, 0⟩
def F.WAKE_SEG_CAN_KA_ID.EN : Fld := ⟨31, 31⟩
def F.WAKE_SEG_CAN_KA_ID.IDE : Fld := ⟨30, 30⟩
def F.WAKE_SEG_CAN_KA_ID.ID : Fld := ⟨28, 0⟩
def F.WAKE_SEG_CAN_KA_MASK.MASK : Fld := ⟨28, 0⟩
def F.WAKE_SEG_NODATA.COUNT : Fld := ⟨31, 0⟩
def F.WAKE_SEG_KA_RX.COUNT : Fld := ⟨31, 0⟩
def F.WAKE_SEG_LATE.COUNT : Fld := ⟨31, 0⟩
def F.WAKE_SEG_SLEEPS.COUNT : Fld := ⟨31, 0⟩
def F.WAKE_TLM_ID.ID_MASK : Fld := ⟨31, 16⟩
def F.WAKE_TLM_ID.ID_VAL : Fld := ⟨15, 0⟩
def F.WAKE_TLM_DVAL_LO.DATA_VAL : Fld := ⟨31, 0⟩
def F.WAKE_TLM_DVAL_HI.DATA_VAL : Fld := ⟨31, 0⟩
def F.WAKE_TLM_DMASK_LO.DATA_MASK : Fld := ⟨31, 0⟩
def F.WAKE_TLM_DMASK_HI.DATA_MASK : Fld := ⟨31, 0⟩
def F.WAKE_TLM_CTRL.EN : Fld := ⟨31, 31⟩
def F.WAKE_TLM_CNT.COUNT : Fld := ⟨31, 0⟩
def F.WAKE_TL_NOMATCH.COUNT : Fld := ⟨31, 0⟩
def F.WAKE_CX_CFG.INH : Fld := ⟨8, 8⟩
def F.WAKE_CX_CFG.PULSE : Fld := ⟨1, 1⟩
def F.WAKE_CX_CFG.INH_POL : Fld := ⟨0, 0⟩
def F.WAKE_INS_LOG.WORD : Fld := ⟨31, 0⟩

/-! Registers of block SEC (17_security_lifecycle.md, R775). -/

def A.SEC_LC : Nat := 0x33030000
def A.SEC_RB (k : Nat) : Nat := 0x33030004 + 0x4 * k
def A.SEC_BOOT : Nat := 0x33030010
def A.SEC_TAMPER : Nat := 0x33030014
def A.SEC_DEBUG : Nat := 0x33030018
def A.SEC_KEYS : Nat := 0x3303001c
def A.SEC_SIG_FAIL : Nat := 0x33030040
def A.SEC_TAMPER_CNT : Nat := 0x33030044
def A.SEC_FALLBACK_CNT : Nat := 0x33030048
def A.VAULT_STATUS : Nat := 0x33030800
def A.VAULT_WIPE_CNT : Nat := 0x33030804
def A.VAULT_DEL_BASE (j : Nat) : Nat := 0x33030840 + 0x8 * j
def A.VAULT_DEL_CFG (j : Nat) : Nat := 0x33030844 + 0x8 * j

def F.SEC_LC.ABANDONED : Fld := ⟨31, 31⟩
def F.SEC_LC.SVC_LEFT : Fld := ⟨23, 16⟩
def F.SEC_LC.SVC_USED : Fld := ⟨15, 8⟩
def F.SEC_LC.STATE : Fld := ⟨2, 0⟩
def F.SEC_RB.VALUE : Fld := ⟨31, 0⟩
def F.SEC_BOOT.PATCH_OK : Fld := ⟨7, 7⟩
def F.SEC_BOOT.SLOT_P : Fld := ⟨6, 6⟩
def F.SEC_BOOT.SLOT_K : Fld := ⟨5, 5⟩
def F.SEC_BOOT.FAIL_P : Fld := ⟨4, 4⟩
def F.SEC_BOOT.FAIL_K : Fld := ⟨3, 3⟩
def F.SEC_BOOT.FALLBACK_P : Fld := ⟨2, 2⟩
def F.SEC_BOOT.FALLBACK_K : Fld := ⟨1, 1⟩
def F.SEC_TAMPER.PIN_LEVEL : Fld := ⟨8, 8⟩
def F.SEC_TAMPER.GLITCH_CLK : Fld := ⟨2, 2⟩
def F.SEC_TAMPER.GLITCH_V : Fld := ⟨1, 1⟩
def F.SEC_TAMPER.PIN : Fld := ⟨0, 0⟩
def F.SEC_DEBUG.PERM_OFF : Fld := ⟨2, 2⟩
def F.SEC_DEBUG.UNLOCK_P : Fld := ⟨1, 1⟩
def F.SEC_DEBUG.UNLOCK_K : Fld := ⟨0, 0⟩
def F.SEC_KEYS.REVOKED : Fld := ⟨31, 16⟩
def F.SEC_KEYS.PROG : Fld := ⟨15, 0⟩
def F.SEC_SIG_FAIL.COUNT : Fld := ⟨31, 0⟩
def F.SEC_TAMPER_CNT.COUNT : Fld := ⟨31, 0⟩
def F.SEC_FALLBACK_CNT.COUNT : Fld := ⟨31, 0⟩
def F.VAULT_STATUS.WIPING : Fld := ⟨31, 31⟩
def F.VAULT_STATUS.CAUSE : Fld := ⟨2, 0⟩
def F.VAULT_WIPE_CNT.COUNT : Fld := ⟨31, 0⟩
def F.VAULT_DEL_BASE.EN : Fld := ⟨31, 31⟩
def F.VAULT_DEL_BASE.BASE : Fld := ⟨17, 12⟩
def F.VAULT_DEL_CFG.WR : Fld := ⟨31, 31⟩
def F.VAULT_DEL_CFG.RD : Fld := ⟨30, 30⟩
def F.VAULT_DEL_CFG.SIZE : Fld := ⟨22, 16⟩
def F.VAULT_DEL_CFG.MASTER : Fld := ⟨7, 0⟩

/-! Registers of block LARDER (13_harts_dram_larder.md, R633). -/

def A.LARDER_CTRL : Nat := 0x33040000
def A.LARDER_STATUS : Nat := 0x33040004
def A.LARDER_PART_BASE (k : Nat) : Nat := 0x33040010 + 0x8 * k
def A.LARDER_PART_SIZE (k : Nat) : Nat := 0x33040014 + 0x8 * k
def A.LARDER_SRC_BASE (j : Nat) : Nat := 0x33040040 + 0x8 * j
def A.LARDER_SRC_CNT (j : Nat) : Nat := 0x33040044 + 0x8 * j
def A.LARDER_TRIG : Nat := 0x33040080
def A.LARDER_FREEZE : Nat := 0x33040084
def A.LARDER_PRE_N (k : Nat) : Nat := 0x33040088 + 0x8 * k
def A.LARDER_POST_N (k : Nat) : Nat := 0x3304008c + 0x8 * k
def A.LARDER_FRZ_AT_LO : Nat := 0x330400a0
def A.LARDER_FRZ_AT_HI : Nat := 0x330400a4
def A.LARDER_SNAP_CYC : Nat := 0x33040100
def A.LARDER_SNAP_FAST : Nat := 0x33040104
def A.LARDER_SNAP_SKIP : Nat := 0x33040108
def A.LARDER_EVT_CNT : Nat := 0x3304010c
def A.LARDER_EVT_DROP : Nat := 0x33040110
def A.LARDER_FRZ_IGNORED : Nat := 0x33040114

def F.LARDER_CTRL.EN : Fld := ⟨0, 0⟩
def F.LARDER_STATUS.EVT_IRQ : Fld := ⟨3, 3⟩
def F.LARDER_STATUS.FROZEN : Fld := ⟨2, 2⟩
def F.LARDER_STATUS.STOPPED : Fld := ⟨1, 1⟩
def F.LARDER_STATUS.CFG_ERR : Fld := ⟨0, 0⟩
def F.LARDER_PART_BASE.MIB : Fld := ⟨31, 0⟩
def F.LARDER_PART_SIZE.MIB : Fld := ⟨31, 0⟩
def F.LARDER_SRC_BASE.OFFSET : Fld := ⟨21, 3⟩
def F.LARDER_SRC_CNT.STRIDE16 : Fld := ⟨31, 31⟩
def F.LARDER_SRC_CNT.COUNT : Fld := ⟨14, 0⟩
def F.LARDER_TRIG.FAST_CMP : Fld := ⟨7, 4⟩
def F.LARDER_TRIG.CYC_CMP : Fld := ⟨3, 0⟩
def F.LARDER_FREEZE.EN_FAULT : Fld := ⟨31, 31⟩
def F.LARDER_FREEZE.EN_PIN : Fld := ⟨30, 30⟩
def F.LARDER_FREEZE.EN_KCP : Fld := ⟨29, 29⟩
def F.LARDER_PRE_N.N : Fld := ⟨31, 0⟩
def F.LARDER_POST_N.N : Fld := ⟨31, 0⟩
def F.LARDER_FRZ_AT_LO.RAW : Fld := ⟨31, 0⟩
def F.LARDER_FRZ_AT_HI.RAW : Fld := ⟨31, 0⟩
def F.LARDER_SNAP_CYC.COUNT : Fld := ⟨31, 0⟩
def F.LARDER_SNAP_FAST.COUNT : Fld := ⟨31, 0⟩
def F.LARDER_SNAP_SKIP.COUNT : Fld := ⟨31, 0⟩
def F.LARDER_EVT_CNT.COUNT : Fld := ⟨31, 0⟩
def F.LARDER_EVT_DROP.COUNT : Fld := ⟨31, 0⟩
def F.LARDER_FRZ_IGNORED.COUNT : Fld := ⟨31, 0⟩

/-- Descriptors of block SYS (01_architecture.md, R49, R752, R708). -/
def regTabSYS : List RegDesc :=
  [⟨"SYS_ID", 0x30000000, [], [⟨31, 0, .ro, 0x96240a01, false⟩]⟩,
   ⟨"SYS_STRAP", 0x30000010, [], [⟨8, 8, .ro, 0x0, false⟩, ⟨7, 7, .ro, 0x0, false⟩, ⟨6, 6, .ro, 0x0, false⟩, ⟨5, 5, .ro, 0x0, false⟩, ⟨4, 3, .ro, 0x0, false⟩, ⟨2, 0, .ro, 0x0, false⟩]⟩,
   ⟨"SYS_MODE", 0x30000014, [], [⟨0, 0, .trv, 0x0, false⟩]⟩,
   ⟨"SYS_BOOT", 0x30000018, [], [⟨2, 0, .trv, 0x0, false⟩]⟩,
   ⟨"SYS_BUSERR_INFO", 0x30000100, [], [⟨31, 31, .w1c, 0x0, false⟩, ⟨11, 9, .ro, 0x0, false⟩, ⟨8, 8, .ro, 0x0, false⟩, ⟨7, 0, .ro, 0x0, false⟩]⟩,
   ⟨"SYS_BUSERR_ADDR_LO", 0x30000104, [], [⟨31, 0, .ro, 0x0, false⟩]⟩,
   ⟨"SYS_BUSERR_ADDR_HI", 0x30000108, [], [⟨7, 0, .ro, 0x0, false⟩]⟩,
   ⟨"SYS_BUSERR_CNT", 0x3000010c, [], [⟨31, 0, .rw, 0x0, false⟩]⟩,
   ⟨"SYS_FLT_WSEQ", 0x30000200, [], [⟨31, 0, .ro, 0x0, false⟩]⟩,
   ⟨"SYS_FLT_RSEQ", 0x30000204, [], [⟨31, 0, .rw, 0x0, false⟩]⟩,
   ⟨"SYS_FLT_ACTIVE", 0x30000208, [], [⟨8, 0, .ro, 0x0, false⟩]⟩,
   ⟨"SYS_FLT_LATCH", 0x3000020c, [], [⟨1, 1, .ro, 0x0, false⟩, ⟨0, 0, .ro, 0x0, false⟩]⟩,
   ⟨"SYS_FLT_CNT", 0x30000220, [(5, 0x4)], [⟨31, 0, .ro, 0x0, false⟩]⟩,
   ⟨"SYS_FLT_SLOT", 0x30001000, [(256, 0x20), (8, 0x4)], [⟨31, 0, .ro, 0x0, false⟩]⟩]

/-- Descriptors of block RST (16_power_clocks_reset.md, R753). -/
def regTabRST : List RegDesc :=
  [⟨"RST_STATUS", 0x30010000, [], [⟨11, 10, .ro, 0x0, false⟩, ⟨9, 8, .ro, 0x0, false⟩]⟩,
   ⟨"RST_ACTIVE", 0x30010004, [], [⟨22, 0, .ro, 0x0, false⟩]⟩,
   ⟨"RST_CTRL", 0x30010008, [], [⟨0, 0, .trv, 0x1, true⟩]⟩,
   ⟨"RST_RELEASE", 0x3001000c, [], [⟨22, 0, .wo, 0x0, false⟩]⟩,
   ⟨"RST_CAUSE", 0x30010010, [(3, 0x4)], [⟨31, 16, .ro, 0x0, true⟩, ⟨12, 8, .ro, 0x0, true⟩, ⟨2, 0, .ro, 0x0, true⟩]⟩,
   ⟨"RST_FUSE", 0x30010020, [], [⟨31, 31, .ro, 0x0, true⟩, ⟨30, 30, .ro, 0x0, true⟩, ⟨8, 0, .ro, 0x0, true⟩]⟩,
   ⟨"RST_FUSE_CORR", 0x30010024, [], [⟨31, 0, .ro, 0x0, true⟩]⟩,
   ⟨"RST_PADSET", 0x30010028, [], [⟨1, 1, .ro, 0x0, true⟩, ⟨0, 0, .ro, 0x0, true⟩]⟩,
   ⟨"RST_MAP", 0x30010100, [(23, 0x4)], [⟨8, 8, .ro, 0x0, true⟩, ⟨6, 4, .ro, 0x0, true⟩, ⟨2, 0, .ro, 0x0, true⟩]⟩,
   ⟨"RST_PAD_GRP", 0x30010200, [(2, 0x4)], [⟨29, 0, .ro, 0x0, true⟩]⟩,
   ⟨"RST_PAD_HOOK_LO", 0x30010210, [(2, 0x10), (2, 0x8)], [⟨31, 0, .ro, 0x0, true⟩]⟩,
   ⟨"RST_PAD_HOOK_HI", 0x30010214, [(2, 0x10), (2, 0x8)], [⟨15, 0, .ro, 0x0, true⟩]⟩]

/-- Descriptors of block PWR (16_power_clocks_reset.md, R754). -/
def regTabPWR : List RegDesc :=
  [⟨"PWR_RAIL", 0x30020000, [], [⟨11, 0, .ro, 0x0, false⟩]⟩,
   ⟨"PWR_RAIL_EVT", 0x30020004, [], [⟨11, 0, .w1c, 0x0, false⟩]⟩,
   ⟨"PWR_EN", 0x30020008, [], [⟨4, 0, .ro, 0x1f, false⟩]⟩,
   ⟨"PWR_TEMP", 0x30020010, [], [⟨31, 16, .w1c, 0x0, false⟩, ⟨15, 0, .ro, 0x0, false⟩]⟩,
   ⟨"CLK_STATUS", 0x30020100, [], [⟨4, 4, .ro, 0x0, false⟩, ⟨3, 3, .ro, 0x0, false⟩, ⟨2, 2, .ro, 0x0, false⟩, ⟨1, 1, .ro, 0x0, false⟩, ⟨0, 0, .ro, 0x0, false⟩]⟩,
   ⟨"CLK_EVT", 0x30020104, [], [⟨2, 2, .w1c, 0x0, false⟩, ⟨1, 1, .w1c, 0x0, false⟩, ⟨0, 0, .w1c, 0x0, false⟩]⟩,
   ⟨"CLK_TRV_DEV", 0x30020108, [], [⟨15, 0, .ro, 0x0, false⟩]⟩]

/-- Descriptors of block TRV (02_charge_and_failover.md, R141). -/
def regTabTRV : List RegDesc :=
  [⟨"TRV_CHARGE", 0x30030000, [], [⟨31, 31, .ro, 0x0, false⟩, ⟨17, 16, .ro, 0x0, false⟩, ⟨7, 0, .ro, 0x0, false⟩]⟩,
   ⟨"TRV_STATE", 0x30030004, [], [⟨13, 13, .ro, 0x0, false⟩, ⟨12, 12, .ro, 0x0, false⟩, ⟨11, 11, .ro, 0x0, false⟩, ⟨10, 10, .ro, 0x0, false⟩, ⟨9, 9, .ro, 0x0, false⟩, ⟨8, 8, .ro, 0x0, false⟩, ⟨7, 4, .ro, 0x0, false⟩, ⟨3, 0, .ro, 0x0, false⟩]⟩,
   ⟨"TRV_CAUSE", 0x30030008, [(2, 0x4)], [⟨31, 16, .ro, 0x0, false⟩, ⟨15, 12, .ro, 0x0, false⟩, ⟨11, 8, .ro, 0x0, false⟩, ⟨7, 0, .ro, 0x0, false⟩]⟩,
   ⟨"TRV_CFG", 0x30030010, [], [⟨23, 16, .trv, 0x8, false⟩, ⟨12, 8, .trv, 0xa, false⟩]⟩,
   ⟨"TRV_HANDOVER_LO", 0x30030014, [], [⟨31, 0, .trv, 0x0, false⟩]⟩,
   ⟨"TRV_HANDOVER_HI", 0x30030018, [], [⟨31, 0, .trv, 0x0, false⟩]⟩,
   ⟨"TRV_TWIN", 0x30030020, [], [⟨31, 31, .ro, 0x0, false⟩, ⟨30, 30, .ro, 0x0, false⟩, ⟨29, 29, .ro, 0x0, false⟩, ⟨28, 28, .ro, 0x0, false⟩, ⟨9, 8, .ro, 0x0, false⟩, ⟨0, 0, .trv, 0x0, false⟩]⟩]

/-- Descriptors of block TEN (02_charge_and_failover.md, R142). -/
def regTabTEN : List RegDesc :=
  [⟨"TEN_STATUS", 0x30040000, [], [⟨17, 16, .ro, 0x0, false⟩, ⟨9, 8, .ro, 0x0, false⟩, ⟨1, 1, .ro, 0x0, false⟩, ⟨0, 0, .ro, 0x0, false⟩]⟩,
   ⟨"TEN_APP", 0x30040004, [(2, 0x4)], [⟨1, 1, .rw, 0x0, false⟩, ⟨0, 0, .rw, 0x0, false⟩]⟩,
   ⟨"TEN_HB_MISS", 0x30040010, [(2, 0x4)], [⟨31, 0, .ro, 0x0, false⟩]⟩,
   ⟨"TEN_CRC_ERR", 0x30040018, [(2, 0x4)], [⟨31, 0, .ro, 0x0, false⟩]⟩,
   ⟨"TEN_REPLAY", 0x30040020, [(2, 0x4)], [⟨31, 0, .ro, 0x0, false⟩]⟩,
   ⟨"TEN_IA_CTRL", 0x30040030, [], [⟨31, 31, .trv, 0x0, false⟩, ⟨27, 24, .trv, 0x0, false⟩, ⟨12, 0, .trv, 0x0, false⟩]⟩,
   ⟨"TEN_IA_SRC", 0x30040034, [(2, 0x8)], [⟨21, 4, .trv, 0x0, false⟩]⟩,
   ⟨"TEN_IA_DST", 0x30040038, [(2, 0x8)], [⟨21, 4, .trv, 0x0, false⟩]⟩,
   ⟨"TEN_IA_STATUS", 0x30040044, [], [⟨31, 31, .ro, 0x0, false⟩, ⟨30, 30, .ro, 0x0, false⟩, ⟨15, 0, .ro, 0x0, false⟩]⟩,
   ⟨"TEN_IA_CONFLICT", 0x30040048, [], [⟨31, 0, .ro, 0x0, false⟩]⟩,
   ⟨"TEN_IA_FAIL", 0x3004004c, [], [⟨31, 0, .ro, 0x0, false⟩]⟩,
   ⟨"TEN_RS_BASE", 0x30040080, [(8, 0x8)], [⟨20, 6, .trv, 0x0, false⟩]⟩,
   ⟨"TEN_RS_SIZE", 0x30040084, [(8, 0x8)], [⟨21, 6, .trv, 0x0, false⟩]⟩]

/-- Descriptors of block COL (15_faults_and_safe_state.md, R707). -/
def regTabCOL : List RegDesc :=
  [⟨"COL_CTRL", 0x30050000, [], [⟨31, 31, .trv, 0x0, false⟩, ⟨30, 30, .trv, 0x1, false⟩, ⟨15, 0, .trv, 0x3c, false⟩]⟩,
   ⟨"COL_STATUS", 0x30050004, [], [⟨31, 31, .ro, 0x0, false⟩, ⟨30, 30, .ro, 0x0, false⟩, ⟨29, 29, .w1c, 0x0, false⟩, ⟨28, 26, .ro, 0x0, false⟩]⟩,
   ⟨"COL_QUEUE", 0x30050008, [], [⟨26, 16, .ro, 0x0, false⟩, ⟨10, 0, .ro, 0x0, false⟩]⟩,
   ⟨"COL_LAST_MM", 0x3005000c, [], [⟨31, 24, .ro, 0x0, false⟩, ⟨23, 12, .ro, 0x0, false⟩, ⟨7, 0, .ro, 0x0, false⟩]⟩,
   ⟨"COL_LAST_MM_RP_LO", 0x30050010, [], [⟨31, 0, .ro, 0x0, false⟩]⟩,
   ⟨"COL_LAST_MM_RP_HI", 0x30050014, [], [⟨31, 0, .ro, 0x0, false⟩]⟩,
   ⟨"COL_RELEASED", 0x30050040, [], [⟨31, 0, .ro, 0x0, false⟩]⟩,
   ⟨"COL_MATCH", 0x30050044, [], [⟨31, 0, .ro, 0x0, false⟩]⟩,
   ⟨"COL_MISMATCH", 0x30050048, [], [⟨31, 0, .ro, 0x0, false⟩]⟩,
   ⟨"COL_WAIT_EXP", 0x3005004c, [], [⟨31, 0, .ro, 0x0, false⟩]⟩,
   ⟨"COL_SELFTEST", 0x30050050, [], [⟨31, 0, .ro, 0x0, false⟩]⟩,
   ⟨"COL_SUB_REJ", 0x30050054, [], [⟨31, 0, .ro, 0x0, false⟩]⟩,
   ⟨"COL_DISCARD", 0x30050058, [], [⟨31, 0, .ro, 0x0, false⟩]⟩,
   ⟨"COL_CHAN_REJ", 0x3005005c, [], [⟨31, 0, .ro, 0x0, false⟩]⟩,
   ⟨"COL_STREAM", 0x30051000, [(256, 0x20), (8, 0x4)], [⟨31, 0, .trv, 0x0, false⟩]⟩,
   ⟨"COL_STREAM_STAT", 0x30053000, [(256, 0x4)], [⟨31, 31, .ro, 0x0, false⟩, ⟨30, 30, .w1c, 0x0, false⟩, ⟨25, 24, .ro, 0x0, false⟩, ⟨23, 0, .ro, 0x0, false⟩]⟩,
   ⟨"COL_SUB_CTRL", 0x30054000, [(4, 0x1000)], [⟨31, 31, .wo, 0x0, false⟩, ⟨27, 16, .rw, 0x0, false⟩, ⟨7, 0, .rw, 0x0, false⟩]⟩,
   ⟨"COL_SUB_RP_LO", 0x30054004, [(4, 0x1000)], [⟨31, 0, .rw, 0x0, false⟩]⟩,
   ⟨"COL_SUB_RP_HI", 0x30054008, [(4, 0x1000)], [⟨31, 0, .rw, 0x0, false⟩]⟩,
   ⟨"COL_SUB_STAT", 0x3005400c, [(4, 0x1000)], [⟨2, 0, .ro, 0x0, false⟩]⟩] ++
  [⟨"COL_SUB_DATA", 0x30054800, [(4, 0x1000), (512, 0x4)], [⟨31, 0, .rw, 0x0, false⟩]⟩]

/-- Descriptors of block MAC (06_mac_and_phy.md, R339). -/
def regTabMAC : List RegDesc :=
  [⟨"MAC_CTRL", 0x31000000, [(2, 0x1000000), (12, 0x1000)], [⟨29, 16, .trv, 0x2400, false⟩, ⟨5, 5, .trv, 0x0, false⟩, ⟨4, 4, .trv, 0x0, false⟩, ⟨3, 3, .trv, 0x1, false⟩, ⟨2, 2, .trv, 0x0, false⟩, ⟨1, 1, .trv, 0x0, false⟩, ⟨0, 0, .trv, 0x0, false⟩]⟩,
   ⟨"MAC_STATUS", 0x31000004, [(2, 0x1000000), (12, 0x1000)], [⟨9, 9, .w1c, 0x0, false⟩, ⟨8, 8, .w1c, 0x0, false⟩, ⟨5, 5, .ro, 0x0, false⟩, ⟨4, 4, .ro, 0x0, false⟩, ⟨3, 1, .ro, 0x0, false⟩, ⟨0, 0, .ro, 0x0, false⟩]⟩,
   ⟨"MAC_SA_LO", 0x31000008, [(2, 0x1000000), (12, 0x1000)], [⟨31, 0, .trv, 0x0, false⟩]⟩,
   ⟨"MAC_SA_HI", 0x3100000c, [(2, 0x1000000), (12, 0x1000)], [⟨15, 0, .trv, 0x0, false⟩]⟩,
   ⟨"MAC_PAUSE", 0x31000010, [(2, 0x1000000), (12, 0x1000)], [⟨31, 16, .trv, 0x7fff, false⟩, ⟨15, 0, .trv, 0xffff, false⟩]⟩,
   ⟨"MAC_UC_LO", 0x31000040, [(2, 0x1000000), (12, 0x1000), (8, 0x8)], [⟨31, 0, .trv, 0x0, false⟩]⟩,
   ⟨"MAC_UC_HI", 0x31000044, [(2, 0x1000000), (12, 0x1000), (8, 0x8)], [⟨31, 31, .trv, 0x0, false⟩, ⟨15, 0, .trv, 0x0, false⟩]⟩,
   ⟨"MAC_MC_LO", 0x31000080, [(2, 0x1000000), (12, 0x1000), (8, 0x8)], [⟨31, 0, .trv, 0x0, false⟩]⟩,
   ⟨"MAC_MC_HI", 0x31000084, [(2, 0x1000000), (12, 0x1000), (8, 0x8)], [⟨31, 31, .trv, 0x0, false⟩, ⟨15, 0, .trv, 0x0, false⟩]⟩,
   ⟨"MAC_PER_CTRL", 0x310000c0, [(2, 0x1000000), (12, 0x1000)], [⟨31, 31, .trv, 0x0, false⟩, ⟨19, 16, .trv, 0x0, false⟩]⟩,
   ⟨"MAC_PER_STATUS", 0x310000c4, [(2, 0x1000000), (12, 0x1000)], [⟨31, 31, .ro, 0x0, false⟩, ⟨15, 0, .ro, 0x0, false⟩]⟩,
   ⟨"MAC_CNT_WRAP", 0x310000c8, [(2, 0x1000000), (12, 0x1000)], [⟨23, 0, .w1c, 0x0, false⟩]⟩,
   ⟨"MAC_CNT_WRAP_EN", 0x310000cc, [(2, 0x1000000), (12, 0x1000)], [⟨23, 0, .rw, 0x0, false⟩]⟩,
   ⟨"MAC_CNT", 0x31000100, [(2, 0x1000000), (12, 0x1000), (24, 0x4)], [⟨31, 0, .ro, 0x0, false⟩]⟩,
   ⟨"MAC_PER_LIVE", 0x31000180, [(2, 0x1000000), (12, 0x1000), (8, 0x4)], [⟨31, 0, .ro, 0x0, false⟩]⟩,
   ⟨"MAC_PER_SHADOW", 0x310001a0, [(2, 0x1000000), (12, 0x1000), (8, 0x4)], [⟨31, 0, .ro, 0x0, false⟩]⟩]

/-- Descriptors of block RG (06_mac_and_phy.md, R339). -/
def regTabRG : List RegDesc :=
  [⟨"RG_CTRL", 0x31008800, [(2, 0x1000000)], [⟨6, 6, .trv, 0x0, false⟩, ⟨5, 4, .trv, 0x2, false⟩, ⟨2, 2, .trv, 0x0, false⟩, ⟨1, 1, .trv, 0x0, false⟩, ⟨0, 0, .trv, 0x0, false⟩]⟩,
   ⟨"RG_STATUS", 0x31008804, [(2, 0x1000000)], [⟨5, 5, .w1c, 0x0, false⟩, ⟨4, 4, .w1c, 0x0, false⟩, ⟨3, 3, .ro, 0x0, false⟩, ⟨2, 1, .ro, 0x0, false⟩, ⟨0, 0, .ro, 0x0, false⟩]⟩]

/-- Descriptors of block TL (06_mac_and_phy.md, R342). -/
def regTabTL : List RegDesc :=
  [⟨"TL_CTRL", 0x31010000, [(2, 0x1000000), (4, 0x1000)], [⟨10, 10, .wo, 0x0, false⟩, ⟨9, 8, .trv, 0x0, false⟩, ⟨7, 6, .trv, 0x0, false⟩, ⟨4, 4, .trv, 0x1, false⟩, ⟨3, 3, .trv, 0x0, false⟩, ⟨1, 1, .trv, 0x1, false⟩, ⟨0, 0, .trv, 0x0, false⟩]⟩,
   ⟨"TL_STATUS", 0x31010004, [(2, 0x1000000), (4, 0x1000)], [⟨15, 12, .ro, 0x0, false⟩, ⟨11, 11, .w1c, 0x0, false⟩, ⟨10, 10, .w1c, 0x0, false⟩, ⟨9, 9, .w1c, 0x0, false⟩, ⟨8, 8, .w1c, 0x0, false⟩, ⟨5, 5, .ro, 0x0, false⟩, ⟨4, 4, .ro, 0x1, false⟩, ⟨3, 3, .ro, 0x0, false⟩, ⟨2, 2, .ro, 0x0, false⟩, ⟨1, 1, .ro, 0x0, false⟩, ⟨0, 0, .ro, 0x0, false⟩]⟩,
   ⟨"TL_SQI", 0x31010008, [(2, 0x1000000), (4, 0x1000)], [⟨31, 16, .ro, 0x0, false⟩, ⟨2, 0, .ro, 0x0, false⟩]⟩,
   ⟨"TL_AN_LP", 0x3101000c, [(2, 0x1000000), (4, 0x1000)], [⟨16, 16, .ro, 0x0, false⟩, ⟨15, 0, .ro, 0x0, false⟩]⟩,
   ⟨"TL_PCS_ERR", 0x31010010, [(2, 0x1000000), (4, 0x1000)], [⟨31, 0, .ro, 0x0, false⟩]⟩,
   ⟨"TL_SHORT_CNT", 0x31010014, [(2, 0x1000000), (4, 0x1000)], [⟨31, 0, .ro, 0x0, false⟩]⟩]

/-- Descriptors of block SD (06_mac_and_phy.md, R343). -/
def regTabSD : List RegDesc :=
  [⟨"SD_CTRL", 0x31020000, [(2, 0x1000000), (4, 0x1000)], [⟨15, 15, .trv, 0x0, false⟩, ⟨14, 13, .trv, 0x2, false⟩, ⟨12, 12, .trv, 0x0, false⟩, ⟨11, 10, .trv, 0x0, false⟩, ⟨9, 9, .trv, 0x0, false⟩, ⟨8, 8, .trv, 0x0, false⟩, ⟨4, 4, .trv, 0x1, false⟩, ⟨3, 1, .trv, 0x1, false⟩, ⟨0, 0, .trv, 0x0, false⟩]⟩,
   ⟨"SD_STATUS", 0x31020004, [(2, 0x1000000), (4, 0x1000)], [⟨11, 11, .ro, 0x0, false⟩, ⟨10, 10, .w1c, 0x0, false⟩, ⟨9, 9, .w1c, 0x0, false⟩, ⟨8, 8, .ro, 0x0, false⟩, ⟨7, 6, .ro, 0x0, false⟩, ⟨4, 4, .ro, 0x0, false⟩, ⟨3, 3, .ro, 0x0, false⟩, ⟨2, 2, .ro, 0x0, false⟩, ⟨1, 1, .ro, 0x0, false⟩, ⟨0, 0, .ro, 0x0, false⟩]⟩,
   ⟨"SD_TXEQ", 0x31020008, [(2, 0x1000000), (4, 0x1000)], [⟨14, 10, .trv, 0x4, false⟩, ⟨9, 5, .trv, 0x0, false⟩, ⟨4, 0, .trv, 0x18, false⟩]⟩,
   ⟨"SD_CODE_ERR", 0x3102000c, [(2, 0x1000000), (4, 0x1000)], [⟨31, 0, .ro, 0x0, false⟩]⟩,
   ⟨"SD_PRBS_ERR", 0x31020010, [(2, 0x1000000), (4, 0x1000)], [⟨31, 0, .ro, 0x0, false⟩]⟩,
   ⟨"SD_AN_LP", 0x31020014, [(2, 0x1000000), (4, 0x1000)], [⟨16, 16, .ro, 0x0, false⟩, ⟨15, 0, .ro, 0x0, false⟩]⟩]

/-- Descriptors of block SW (07_switch_planes.md, R401). -/
def regTabSW : List RegDesc :=
  [⟨"SW_STATUS", 0x31040000, [(2, 0x1000000)], [⟨0, 0, .ro, 0x0, false⟩]⟩,
   ⟨"SW_BUF_FREE", 0x31040004, [(2, 0x1000000)], [⟨29, 16, .w1c, 0x2000, false⟩, ⟨13, 0, .ro, 0x2000, false⟩]⟩,
   ⟨"SW_TWIN", 0x31040008, [(2, 0x1000000)], [⟨31, 24, .trv, 0x0, false⟩, ⟨8, 0, .trv, 0x0, false⟩]⟩,
   ⟨"SW_DUP_AGE", 0x3104000c, [(2, 0x1000000)], [⟨15, 0, .trv, 0x190, false⟩]⟩,
   ⟨"SW_DUP_STATUS", 0x31040010, [(2, 0x1000000)], [⟨26, 16, .ro, 0x0, false⟩, ⟨10, 0, .ro, 0x0, false⟩]⟩,
   ⟨"SW_RED_SEQ", 0x31040014, [(2, 0x1000000)], [⟨15, 0, .trv, 0x0, false⟩]⟩,
   ⟨"SW_RED_SA_LO", 0x31040018, [(2, 0x1000000), (2, 0x8)], [⟨31, 0, .trv, 0x0, false⟩]⟩,
   ⟨"SW_RED_SA_HI", 0x3104001c, [(2, 0x1000000), (2, 0x8)], [⟨31, 31, .trv, 0x0, false⟩, ⟨15, 0, .trv, 0x0, false⟩]⟩,
   ⟨"SW_LFSR_SEED", 0x31040028, [(2, 0x1000000)], [⟨15, 0, .trv, 0xace1, false⟩]⟩,
   ⟨"SW_DUP_DISC", 0x31040040, [(2, 0x1000000)], [⟨31, 0, .ro, 0x0, false⟩]⟩,
   ⟨"SW_DUP_LATE", 0x31040044, [(2, 0x1000000)], [⟨31, 0, .ro, 0x0, false⟩]⟩,
   ⟨"SW_DUP_SAMELAN", 0x31040048, [(2, 0x1000000)], [⟨31, 0, .ro, 0x0, false⟩]⟩,
   ⟨"SW_DUP_FULL", 0x3104004c, [(2, 0x1000000)], [⟨31, 0, .ro, 0x0, false⟩]⟩,
   ⟨"SW_TWIN_EQUAL", 0x31040050, [(2, 0x1000000)], [⟨31, 0, .ro, 0x0, false⟩]⟩,
   ⟨"SW_TWIN_DIFF", 0x31040054, [(2, 0x1000000)], [⟨31, 0, .ro, 0x0, false⟩]⟩,
   ⟨"SW_TWIN_LONE", 0x31040058, [(2, 0x1000000)], [⟨31, 0, .ro, 0x0, false⟩]⟩,
   ⟨"SW_HSR_OWN", 0x3104005c, [(2, 0x1000000)], [⟨31, 0, .ro, 0x0, false⟩]⟩,
   ⟨"SW_NEEDLE_NONE", 0x31040060, [(2, 0x1000000)], [⟨31, 0, .ro, 0x0, false⟩]⟩,
   ⟨"SWP_CFG", 0x31040400, [(2, 0x1000000), (12, 0x40)], [⟨31, 30, .trv, 0x0, false⟩, ⟨28, 28, .trv, 0x0, false⟩, ⟨26, 24, .trv, 0x0, false⟩, ⟨11, 0, .trv, 0x1, false⟩]⟩,
   ⟨"SWP_PCP_MAP", 0x31040404, [(2, 0x1000000), (12, 0x40)], [⟨23, 0, .trv, 0xfac688, false⟩]⟩] ++
  [⟨"SWP_MISS_MASK", 0x31040408, [(2, 0x1000000), (12, 0x40)], [⟨23, 12, .trv, 0x0, false⟩, ⟨11, 0, .trv, 0x0, false⟩]⟩,
   ⟨"SWP_XOFF", 0x3104040c, [(2, 0x1000000), (12, 0x40)], [⟨29, 16, .trv, 0x200, false⟩, ⟨13, 0, .trv, 0x100, false⟩]⟩,
   ⟨"SWP_IN_CELLS", 0x31040410, [(2, 0x1000000), (12, 0x40)], [⟨13, 0, .ro, 0x0, false⟩]⟩,
   ⟨"SWP_MISS_DROP", 0x31040420, [(2, 0x1000000), (12, 0x40)], [⟨31, 0, .ro, 0x0, false⟩]⟩,
   ⟨"SWP_CT_BAD", 0x31040424, [(2, 0x1000000), (12, 0x40)], [⟨31, 0, .ro, 0x0, false⟩]⟩,
   ⟨"SWQ_LIM", 0x31040800, [(2, 0x1000000), (96, 0x20)], [⟨29, 16, .trv, 0x800, false⟩, ⟨13, 0, .trv, 0x0, false⟩]⟩,
   ⟨"SWQ_SIEVE", 0x31040804, [(2, 0x1000000), (96, 0x20)], [⟨31, 30, .trv, 0x0, false⟩, ⟨29, 28, .trv, 0x0, false⟩, ⟨27, 26, .trv, 0x0, false⟩, ⟨25, 24, .trv, 0x0, false⟩, ⟨19, 16, .trv, 0x4, false⟩, ⟨13, 0, .trv, 0x400, false⟩]⟩,
   ⟨"SWQ_DEPTH", 0x31040808, [(2, 0x1000000), (96, 0x20)], [⟨29, 16, .ro, 0x0, false⟩, ⟨13, 0, .ro, 0x0, false⟩]⟩,
   ⟨"SWQ_DROP_LIMIT", 0x3104080c, [(2, 0x1000000), (96, 0x20)], [⟨31, 0, .ro, 0x0, false⟩]⟩,
   ⟨"SWQ_DROP_SIEVE", 0x31040810, [(2, 0x1000000), (96, 0x20)], [⟨31, 0, .ro, 0x0, false⟩]⟩,
   ⟨"SWQ_ECN_MARK", 0x31040814, [(2, 0x1000000), (96, 0x20)], [⟨31, 0, .ro, 0x0, false⟩]⟩,
   ⟨"SWQ_GATE_OVERSIZE", 0x31040818, [(2, 0x1000000), (96, 0x20)], [⟨31, 0, .ro, 0x0, false⟩]⟩,
   ⟨"SW_SIEVE_PT", 0x31041400, [(2, 0x1000000), (4, 0x40), (16, 0x4)], [⟨24, 16, .trv, 0x0, false⟩, ⟨13, 0, .trv, 0x3fff, false⟩]⟩,
   ⟨"MTR_CIR", 0x31041800, [(2, 0x1000000), (64, 0x20)], [⟨19, 0, .trv, 0x0, false⟩]⟩,
   ⟨"MTR_PIR", 0x31041804, [(2, 0x1000000), (64, 0x20)], [⟨19, 0, .trv, 0x0, false⟩]⟩,
   ⟨"MTR_CBS", 0x31041808, [(2, 0x1000000), (64, 0x20)], [⟨23, 0, .trv, 0x0, false⟩]⟩,
   ⟨"MTR_PBS", 0x3104180c, [(2, 0x1000000), (64, 0x20)], [⟨23, 0, .trv, 0x0, false⟩]⟩,
   ⟨"MTR_CTRL", 0x31041810, [(2, 0x1000000), (64, 0x20)], [⟨1, 1, .trv, 0x1, false⟩, ⟨0, 0, .trv, 0x0, false⟩]⟩,
   ⟨"MTR_GREEN", 0x31041814, [(2, 0x1000000), (64, 0x20)], [⟨31, 0, .ro, 0x0, false⟩]⟩,
   ⟨"MTR_YELLOW", 0x31041818, [(2, 0x1000000), (64, 0x20)], [⟨31, 0, .ro, 0x0, false⟩]⟩] ++
  [⟨"MTR_RED", 0x3104181c, [(2, 0x1000000), (64, 0x20)], [⟨31, 0, .ro, 0x0, false⟩]⟩,
   ⟨"SWG_CTRL", 0x31042000, [(2, 0x1000000), (9, 0x40)], [⟨31, 31, .trv, 0x0, false⟩, ⟨30, 30, .wo, 0x0, false⟩, ⟨29, 28, .trv, 0x0, false⟩, ⟨24, 24, .ro, 0x0, false⟩, ⟨8, 0, .trv, 0x1, false⟩]⟩,
   ⟨"SWG_STATUS", 0x31042004, [(2, 0x1000000), (9, 0x40)], [⟨31, 31, .ro, 0x0, false⟩, ⟨30, 30, .w1c, 0x0, false⟩, ⟨24, 16, .ro, 0x1, false⟩, ⟨7, 0, .ro, 0x0, false⟩]⟩,
   ⟨"SWG_A_BASE_SEC_LO", 0x31042008, [(2, 0x1000000), (9, 0x40)], [⟨31, 0, .trv, 0x0, false⟩]⟩,
   ⟨"SWG_A_BASE_SEC_HI", 0x3104200c, [(2, 0x1000000), (9, 0x40)], [⟨31, 0, .trv, 0x0, false⟩]⟩,
   ⟨"SWG_A_BASE_NS", 0x31042010, [(2, 0x1000000), (9, 0x40)], [⟨29, 0, .trv, 0x0, false⟩]⟩,
   ⟨"SWG_A_CYCLE", 0x31042014, [(2, 0x1000000), (9, 0x40)], [⟨29, 0, .trv, 0xf4240, false⟩]⟩,
   ⟨"SWG_O_BASE_SEC_LO", 0x31042018, [(2, 0x1000000), (9, 0x40)], [⟨31, 0, .ro, 0x0, false⟩]⟩,
   ⟨"SWG_O_BASE_SEC_HI", 0x3104201c, [(2, 0x1000000), (9, 0x40)], [⟨31, 0, .ro, 0x0, false⟩]⟩,
   ⟨"SWG_O_BASE_NS", 0x31042020, [(2, 0x1000000), (9, 0x40)], [⟨29, 0, .ro, 0x0, false⟩]⟩,
   ⟨"SWG_O_CYCLE", 0x31042024, [(2, 0x1000000), (9, 0x40)], [⟨29, 0, .ro, 0xf4240, false⟩]⟩,
   ⟨"SWG_GATES", 0x31044000, [(2, 0x1000000), (9, 0x1000), (2, 0x800), (256, 0x8)], [⟨7, 0, .trv, 0xff, false⟩]⟩,
   ⟨"SWG_INTERVAL", 0x31044004, [(2, 0x1000000), (9, 0x1000), (2, 0x800), (256, 0x8)], [⟨31, 0, .trv, 0x0, false⟩]⟩,
   ⟨"SW_FWD", 0x31050000, [(2, 0x1000000), (4096, 0x10), (4, 0x4)], [⟨31, 0, .trv, 0x0, false⟩]⟩]

/-- Descriptors of block CX (09_dtt_time_triggered.md, R494). -/
def regTabCX : List RegDesc :=
  [⟨"CX_CTRL", 0x31060000, [(2, 0x1000000), (4, 0x4000)], [⟨31, 31, .trv, 0x0, false⟩, ⟨7, 7, .trv, 0x0, false⟩, ⟨6, 6, .trv, 0x1, false⟩, ⟨5, 5, .trv, 0x0, false⟩, ⟨4, 4, .trv, 0x0, false⟩, ⟨2, 2, .trv, 0x0, false⟩, ⟨1, 1, .trv, 0x0, false⟩]⟩,
   ⟨"CX_STATUS", 0x31060004, [(2, 0x1000000), (4, 0x4000)], [⟨10, 10, .w1c, 0x0, false⟩, ⟨9, 9, .ro, 0x0, false⟩, ⟨8, 8, .w1c, 0x0, false⟩, ⟨5, 4, .ro, 0x3, false⟩, ⟨3, 3, .ro, 0x0, false⟩]⟩,
   ⟨"CX_NBT", 0x31060008, [(2, 0x1000000), (4, 0x4000)], [⟨31, 24, .trv, 0x3, false⟩, ⟨23, 16, .trv, 0xc6, false⟩, ⟨15, 8, .trv, 0x31, false⟩, ⟨7, 0, .trv, 0x31, false⟩]⟩,
   ⟨"CX_DBT", 0x3106000c, [(2, 0x1000000), (4, 0x4000)], [⟨31, 24, .trv, 0x3, false⟩, ⟨23, 16, .trv, 0xc6, false⟩, ⟨15, 8, .trv, 0x31, false⟩, ⟨7, 0, .trv, 0x31, false⟩]⟩,
   ⟨"CX_XBT", 0x31060010, [(2, 0x1000000), (4, 0x4000)], [⟨31, 24, .trv, 0x3, false⟩, ⟨23, 16, .trv, 0xc6, false⟩, ⟨15, 8, .trv, 0x31, false⟩, ⟨7, 0, .trv, 0x31, false⟩]⟩,
   ⟨"CX_TDC", 0x31060014, [(2, 0x1000000), (4, 0x4000)], [⟨31, 31, .trv, 0x0, false⟩, ⟨23, 16, .trv, 0x0, false⟩, ⟨7, 0, .ro, 0x0, false⟩]⟩,
   ⟨"CX_PWM", 0x31060018, [(2, 0x1000000), (4, 0x4000)], [⟨23, 16, .trv, 0x0, false⟩, ⟨15, 8, .trv, 0x0, false⟩, ⟨7, 0, .trv, 0x0, false⟩]⟩,
   ⟨"CX_ERRC", 0x3106001c, [(2, 0x1000000), (4, 0x4000)], [⟨23, 16, .ro, 0x0, false⟩, ⟨7, 0, .ro, 0x0, false⟩]⟩,
   ⟨"CX_RX_OK", 0x31060040, [(2, 0x1000000), (4, 0x4000)], [⟨31, 0, .ro, 0x0, false⟩]⟩,
   ⟨"CX_RX_DROP", 0x31060044, [(2, 0x1000000), (4, 0x4000)], [⟨31, 0, .ro, 0x0, false⟩]⟩,
   ⟨"CX_RX_NOFILT", 0x31060048, [(2, 0x1000000), (4, 0x4000)], [⟨31, 0, .ro, 0x0, false⟩]⟩,
   ⟨"CX_RX_REMOTE", 0x3106004c, [(2, 0x1000000), (4, 0x4000)], [⟨31, 0, .ro, 0x0, false⟩]⟩,
   ⟨"CX_RX_ERR", 0x31060050, [(2, 0x1000000), (4, 0x4000)], [⟨31, 0, .ro, 0x0, false⟩]⟩,
   ⟨"CX_TX_OK", 0x31060054, [(2, 0x1000000), (4, 0x4000)], [⟨31, 0, .ro, 0x0, false⟩]⟩,
   ⟨"CX_TX_ERR", 0x31060058, [(2, 0x1000000), (4, 0x4000)], [⟨31, 0, .ro, 0x0, false⟩]⟩,
   ⟨"CX_ARB_LOST", 0x3106005c, [(2, 0x1000000), (4, 0x4000)], [⟨31, 0, .ro, 0x0, false⟩]⟩,
   ⟨"CX_BUSOFF", 0x31060060, [(2, 0x1000000), (4, 0x4000)], [⟨31, 0, .ro, 0x0, false⟩]⟩,
   ⟨"CX_PXE", 0x31060064, [(2, 0x1000000), (4, 0x4000)], [⟨31, 0, .ro, 0x0, false⟩]⟩,
   ⟨"DTT_CTRL", 0x31060100, [(2, 0x1000000), (4, 0x4000)], [⟨31, 31, .trv, 0x0, false⟩, ⟨30, 30, .trv, 0x0, false⟩, ⟨29, 28, .trv, 0x0, false⟩]⟩,
   ⟨"DTT_STATUS", 0x31060104, [(2, 0x1000000), (4, 0x4000)], [⟨19, 16, .ro, 0x0, false⟩, ⟨10, 10, .w1c, 0x0, false⟩, ⟨9, 9, .w1c, 0x0, false⟩, ⟨8, 8, .ro, 0x0, false⟩, ⟨0, 0, .ro, 0x0, false⟩]⟩] ++
  [⟨"DTT_ROLE", 0x31060108, [(2, 0x1000000), (4, 0x4000)], [⟨15, 8, .trv, 0x0, false⟩, ⟨6, 4, .trv, 0x7, false⟩, ⟨2, 0, .trv, 0x7, false⟩]⟩,
   ⟨"DTT_LIMITS", 0x3106010c, [(2, 0x1000000), (4, 0x4000)], [⟨31, 28, .trv, 0x3, false⟩, ⟨27, 16, .trv, 0x40, false⟩]⟩,
   ⟨"DTT_SYNC_OFS", 0x31060110, [(2, 0x1000000), (4, 0x4000)], [⟨31, 0, .trv, 0x0, false⟩]⟩,
   ⟨"DTT_ROW", 0x31060114, [(2, 0x1000000), (4, 0x4000)], [⟨21, 16, .ro, 0x0, false⟩, ⟨9, 0, .ro, 0x3ff, false⟩]⟩,
   ⟨"DTT_QREF_LO", 0x31060118, [(2, 0x1000000), (4, 0x4000)], [⟨31, 0, .ro, 0x0, false⟩]⟩,
   ⟨"DTT_QREF_HI", 0x3106011c, [(2, 0x1000000), (4, 0x4000)], [⟨31, 0, .ro, 0x0, false⟩]⟩,
   ⟨"DTT_LAST_CORR", 0x31060120, [(2, 0x1000000), (4, 0x4000)], [⟨31, 0, .ro, 0x0, false⟩]⟩,
   ⟨"DTT_RATE", 0x31060124, [(2, 0x1000000), (4, 0x4000)], [⟨31, 0, .ro, 0x0, false⟩]⟩,
   ⟨"DTT_REF_LAST", 0x31060128, [(2, 0x1000000), (4, 0x4000)], [⟨31, 31, .ro, 0x0, false⟩, ⟨30, 28, .ro, 0x0, false⟩, ⟨27, 22, .ro, 0x0, false⟩, ⟨21, 16, .ro, 0x0, false⟩, ⟨10, 0, .ro, 0x0, false⟩]⟩,
   ⟨"DTT_REF_MISS", 0x31060140, [(2, 0x1000000), (4, 0x4000)], [⟨31, 0, .ro, 0x0, false⟩]⟩,
   ⟨"DTT_REF_REJ", 0x31060144, [(2, 0x1000000), (4, 0x4000)], [⟨31, 0, .ro, 0x0, false⟩]⟩,
   ⟨"DTT_COLD_ARB", 0x31060148, [(2, 0x1000000), (4, 0x4000)], [⟨31, 0, .ro, 0x0, false⟩]⟩,
   ⟨"DTT_COLD_ERR", 0x3106014c, [(2, 0x1000000), (4, 0x4000)], [⟨31, 0, .ro, 0x0, false⟩]⟩,
   ⟨"DTT_TX_BLOCKED", 0x31060150, [(2, 0x1000000), (4, 0x4000)], [⟨31, 0, .ro, 0x0, false⟩]⟩,
   ⟨"DTT_TX_REJ", 0x31060154, [(2, 0x1000000), (4, 0x4000)], [⟨31, 0, .ro, 0x0, false⟩]⟩,
   ⟨"DTT_RX_ERR", 0x31060158, [(2, 0x1000000), (4, 0x4000)], [⟨31, 0, .ro, 0x0, false⟩]⟩,
   ⟨"DTT_ID_ERR", 0x3106015c, [(2, 0x1000000), (4, 0x4000)], [⟨31, 0, .ro, 0x0, false⟩]⟩,
   ⟨"DTT_UNSCHED", 0x31060160, [(2, 0x1000000), (4, 0x4000)], [⟨31, 0, .ro, 0x0, false⟩]⟩,
   ⟨"DTT_MS_USED", 0x31060164, [(2, 0x1000000), (4, 0x4000)], [⟨31, 0, .ro, 0x0, false⟩]⟩,
   ⟨"DTT_MS_IDLE", 0x31060168, [(2, 0x1000000), (4, 0x4000)], [⟨31, 0, .ro, 0x0, false⟩]⟩] ++
  [⟨"DTT_PASSIVE", 0x3106016c, [(2, 0x1000000), (4, 0x4000)], [⟨31, 0, .ro, 0x0, false⟩]⟩,
   ⟨"DTT_TX_OK", 0x31060170, [(2, 0x1000000), (4, 0x4000)], [⟨31, 0, .ro, 0x0, false⟩]⟩,
   ⟨"CX_FILT_ID", 0x31060800, [(2, 0x1000000), (4, 0x4000), (128, 0x8)], [⟨31, 31, .trv, 0x0, false⟩, ⟨30, 30, .trv, 0x0, false⟩, ⟨28, 0, .trv, 0x0, false⟩]⟩,
   ⟨"CX_FILT_MASK", 0x31060804, [(2, 0x1000000), (4, 0x4000), (128, 0x8)], [⟨31, 31, .trv, 0x0, false⟩, ⟨30, 30, .trv, 0x0, false⟩, ⟨29, 29, .trv, 0x0, false⟩, ⟨28, 0, .trv, 0x0, false⟩]⟩,
   ⟨"DTT_COL_MAP", 0x31060c00, [(2, 0x1000000), (4, 0x4000), (32, 0x4)], [⟨31, 0, .trv, 0x0, false⟩]⟩,
   ⟨"DTT_ST_RX", 0x31061000, [(2, 0x1000000), (4, 0x4000), (1023, 0x4)], [⟨31, 0, .ro, 0x0, false⟩]⟩,
   ⟨"DTT_ST_EMPTY", 0x31062000, [(2, 0x1000000), (4, 0x4000), (1023, 0x4)], [⟨31, 0, .ro, 0x0, false⟩]⟩,
   ⟨"DTT_EDGE_VIOL", 0x31063000, [(2, 0x1000000), (4, 0x4000), (1023, 0x4)], [⟨31, 0, .ro, 0x0, false⟩]⟩]

/-- Descriptors of block HK (11_hook_engines.md, R558). -/
def regTabHK : List RegDesc :=
  [⟨"HK_CTRL", 0x31070000, [(2, 0x1000000), (8, 0x400)], [⟨31, 31, .trv, 0x0, false⟩, ⟨30, 30, .wo, 0x0, false⟩, ⟨2, 2, .trv, 0x0, false⟩, ⟨1, 1, .trv, 0x0, false⟩, ⟨0, 0, .trv, 0x0, false⟩]⟩,
   ⟨"HK_STATUS", 0x31070004, [(2, 0x1000000), (8, 0x400)], [⟨12, 12, .ro, 0x0, false⟩, ⟨11, 11, .w1c, 0x0, false⟩, ⟨10, 10, .w1c, 0x0, false⟩, ⟨9, 9, .w1c, 0x0, false⟩, ⟨8, 8, .w1c, 0x0, false⟩, ⟨7, 7, .w1c, 0x0, false⟩, ⟨6, 6, .w1c, 0x0, false⟩, ⟨3, 2, .ro, 0x0, false⟩, ⟨1, 0, .ro, 0x0, false⟩]⟩,
   ⟨"HK_CLKDIV", 0x31070008, [(2, 0x1000000), (8, 0x400)], [⟨31, 16, .trv, 0x1, false⟩, ⟨15, 8, .trv, 0x0, false⟩]⟩,
   ⟨"HK_PINS", 0x3107000c, [(2, 0x1000000), (8, 0x400)], [⟨23, 20, .trv, 0x0, false⟩, ⟨19, 16, .trv, 0x0, false⟩, ⟨15, 12, .trv, 0x0, false⟩, ⟨11, 8, .trv, 0x0, false⟩, ⟨4, 0, .trv, 0x0, false⟩]⟩,
   ⟨"HK_CMP", 0x31070010, [(2, 0x1000000), (8, 0x400)], [⟨31, 0, .trv, 0x0, false⟩]⟩,
   ⟨"HK_CMP_MASK", 0x31070014, [(2, 0x1000000), (8, 0x400)], [⟨31, 0, .trv, 0x0, false⟩]⟩,
   ⟨"HK_WAITTO", 0x31070018, [(2, 0x1000000), (8, 0x400)], [⟨31, 26, .trv, 0x0, false⟩, ⟨23, 0, .trv, 0x1, false⟩]⟩,
   ⟨"HK_FIFO", 0x3107001c, [(2, 0x1000000), (8, 0x400)], [⟨27, 24, .ro, 0x0, false⟩, ⟨19, 16, .ro, 0x0, false⟩, ⟨11, 8, .trv, 0xf, false⟩, ⟨3, 0, .trv, 0x0, false⟩]⟩,
   ⟨"HK_TXF", 0x31070020, [(2, 0x1000000), (8, 0x400)], [⟨31, 0, .wo, 0x0, false⟩]⟩,
   ⟨"HK_RXF", 0x31070024, [(2, 0x1000000), (8, 0x400)], [⟨31, 0, .ro, 0x0, false⟩]⟩,
   ⟨"HK_PC", 0x31070028, [(2, 0x1000000), (8, 0x400)], [⟨5, 0, .trv, 0x0, false⟩]⟩,
   ⟨"HK_LC", 0x3107002c, [(2, 0x1000000), (8, 0x400)], [⟨15, 0, .trv, 0x0, false⟩]⟩,
   ⟨"HK_OSR", 0x31070030, [(2, 0x1000000), (8, 0x400)], [⟨31, 0, .ro, 0x0, false⟩]⟩,
   ⟨"HK_ISR", 0x31070034, [(2, 0x1000000), (8, 0x400)], [⟨31, 0, .ro, 0x0, false⟩]⟩,
   ⟨"HK_SCNT", 0x31070038, [(2, 0x1000000), (8, 0x400)], [⟨13, 8, .ro, 0x0, false⟩, ⟨5, 0, .ro, 0x0, false⟩]⟩,
   ⟨"HK_UNDERRUN_CNT", 0x31070040, [(2, 0x1000000), (8, 0x400)], [⟨31, 0, .ro, 0x0, false⟩]⟩,
   ⟨"HK_OVERRUN_CNT", 0x31070044, [(2, 0x1000000), (8, 0x400)], [⟨31, 0, .ro, 0x0, false⟩]⟩,
   ⟨"HK_WAITTO_CNT", 0x31070048, [(2, 0x1000000), (8, 0x400)], [⟨31, 0, .ro, 0x0, false⟩]⟩,
   ⟨"HK_PROG", 0x31070100, [(2, 0x1000000), (8, 0x400), (64, 0x4)], [⟨15, 0, .trv, 0x0, false⟩]⟩]

/-- Descriptors of block HKP (11_hook_engines.md, R558). -/
def regTabHKP : List RegDesc :=
  [⟨"HOOK_PIN_CFG", 0x31072000, [(2, 0x1000000), (24, 0x4)], [⟨31, 31, .ro, 0x0, false⟩, ⟨7, 4, .trv, 0xf, false⟩, ⟨3, 3, .trv, 0x0, false⟩, ⟨2, 2, .trv, 0x0, false⟩, ⟨1, 0, .trv, 0x0, false⟩]⟩,
   ⟨"HOOK_PIN_IN", 0x31072080, [(2, 0x1000000)], [⟨23, 0, .ro, 0x0, false⟩]⟩,
   ⟨"HOOK_PIN_OUT", 0x31072084, [(2, 0x1000000)], [⟨23, 0, .ro, 0x0, false⟩]⟩,
   ⟨"HOOK_PIN_OE", 0x31072088, [(2, 0x1000000)], [⟨23, 0, .ro, 0x0, false⟩]⟩,
   ⟨"HOOK_GSTATUS", 0x3107208c, [(2, 0x1000000)], [⟨0, 0, .w1c, 0x0, false⟩]⟩]

/-- Descriptors of block NE (03_needle_engines.md, R193). -/
def regTabNE : List RegDesc :=
  [⟨"NE_CTRL", 0x31080000, [(2, 0x1000000), (12, 0x1000)], [⟨15, 8, .trv, 0x14, false⟩, ⟨0, 0, .trv, 0x0, false⟩]⟩,
   ⟨"NE_STATUS", 0x31080004, [(2, 0x1000000), (12, 0x1000)], [⟨11, 11, .w1c, 0x0, false⟩, ⟨10, 10, .w1c, 0x0, false⟩, ⟨9, 9, .w1c, 0x0, false⟩, ⟨8, 8, .ro, 0x0, false⟩, ⟨2, 0, .ro, 0x1, false⟩]⟩,
   ⟨"NE_RECIPE", 0x31080008, [(2, 0x1000000), (12, 0x1000)], [⟨31, 16, .ro, 0x0, false⟩, ⟨15, 0, .ro, 0x0, false⟩]⟩,
   ⟨"NE_FAULT", 0x3108000c, [(2, 0x1000000), (12, 0x1000)], [⟨31, 24, .ro, 0x0, false⟩, ⟨23, 13, .ro, 0x0, false⟩, ⟨12, 0, .ro, 0x0, false⟩]⟩,
   ⟨"NE_EVT_MASK", 0x31080010, [(2, 0x1000000), (12, 0x1000)], [⟨9, 0, .trv, 0x0, false⟩]⟩,
   ⟨"NE_EVT_PEND", 0x31080014, [(2, 0x1000000), (12, 0x1000)], [⟨9, 0, .ro, 0x0, false⟩]⟩,
   ⟨"NE_DOORBELL", 0x31080018, [(2, 0x1000000), (12, 0x1000)], [⟨31, 0, .w1s, 0x0, false⟩]⟩,
   ⟨"NE_LIMITS", 0x3108001c, [(2, 0x1000000), (12, 0x1000)], [⟨31, 16, .trv, 0x400, false⟩, ⟨15, 0, .trv, 0x32, false⟩]⟩,
   ⟨"NE_CMP_SEL", 0x31080020, [(2, 0x1000000), (12, 0x1000)], [⟨15, 0, .trv, 0x0, false⟩]⟩,
   ⟨"NE_BIND", 0x31080024, [(2, 0x1000000), (12, 0x1000)], [⟨11, 4, .trv, 0x0, false⟩, ⟨3, 0, .trv, 0x0, false⟩]⟩,
   ⟨"NE_INL_CTRL", 0x31080028, [(2, 0x1000000), (12, 0x1000)], [⟨31, 31, .trv, 0x0, false⟩, ⟨10, 10, .trv, 0x0, false⟩, ⟨9, 9, .trv, 0x1, false⟩, ⟨7, 4, .trv, 0x0, false⟩, ⟨3, 0, .trv, 0x0, false⟩]⟩,
   ⟨"NE_INL_LAT", 0x3108002c, [(2, 0x1000000), (12, 0x1000)], [⟨15, 0, .w1c, 0x0, false⟩]⟩,
   ⟨"NE_EVT_DONE", 0x31080040, [(2, 0x1000000), (12, 0x1000)], [⟨31, 0, .ro, 0x0, false⟩]⟩,
   ⟨"NE_EVT_DROP", 0x31080044, [(2, 0x1000000), (12, 0x1000)], [⟨31, 0, .ro, 0x0, false⟩]⟩,
   ⟨"NE_EVT_MERGE", 0x31080048, [(2, 0x1000000), (12, 0x1000)], [⟨31, 0, .ro, 0x0, false⟩]⟩,
   ⟨"NE_RX_DROP", 0x3108004c, [(2, 0x1000000), (12, 0x1000)], [⟨31, 0, .ro, 0x0, false⟩]⟩,
   ⟨"NE_ECC_CORR", 0x31080050, [(2, 0x1000000), (12, 0x1000)], [⟨31, 0, .ro, 0x0, false⟩]⟩,
   ⟨"NE_INL_BADFCS", 0x31080054, [(2, 0x1000000), (12, 0x1000)], [⟨31, 0, .ro, 0x0, false⟩]⟩,
   ⟨"NE_INL_UNDERRUN", 0x31080058, [(2, 0x1000000), (12, 0x1000)], [⟨31, 0, .ro, 0x0, false⟩]⟩,
   ⟨"NE_INL_DISC", 0x3108005c, [(2, 0x1000000), (12, 0x1000)], [⟨31, 0, .ro, 0x0, false⟩]⟩] ++
  [⟨"NE_INL_PASS", 0x31080060, [(2, 0x1000000), (12, 0x1000)], [⟨31, 0, .ro, 0x0, false⟩]⟩]

/-- Descriptors of block SPAD (12_memory_and_mailboxes.md, R598). -/
def regTabSPAD : List RegDesc :=
  [⟨"SPAD_CTRL", 0x310a0000, [(2, 0x1000000)], [⟨1, 1, .trv, 0x1, false⟩, ⟨0, 0, .trv, 0x0, false⟩]⟩,
   ⟨"SPAD_STATUS", 0x310a0004, [(2, 0x1000000)], [⟨3, 3, .ro, 0x1, false⟩, ⟨2, 2, .w1c, 0x0, false⟩, ⟨1, 1, .w1c, 0x0, false⟩, ⟨0, 0, .w1c, 0x0, false⟩]⟩,
   ⟨"SPAD_COLLIDE_INFO", 0x310a0008, [(2, 0x1000000)], [⟨31, 24, .ro, 0x0, false⟩, ⟨23, 19, .ro, 0x0, false⟩, ⟨13, 0, .ro, 0x0, false⟩]⟩,
   ⟨"SPAD_ECC_INFO", 0x310a000c, [(2, 0x1000000)], [⟨23, 19, .ro, 0x0, false⟩, ⟨13, 0, .ro, 0x0, false⟩]⟩,
   ⟨"SPAD_SWEEP_INFO", 0x310a0010, [(2, 0x1000000)], [⟨23, 19, .ro, 0x0, false⟩, ⟨10, 0, .ro, 0x0, false⟩]⟩,
   ⟨"SPAD_SWEEP_POS", 0x310a0014, [(2, 0x1000000)], [⟨31, 11, .ro, 0x0, false⟩, ⟨10, 0, .ro, 0x0, false⟩]⟩,
   ⟨"SPAD_COLLIDE_CNT", 0x310a0040, [(2, 0x1000000)], [⟨31, 0, .ro, 0x0, false⟩]⟩,
   ⟨"SPAD_ECC_CORR", 0x310a0044, [(2, 0x1000000)], [⟨31, 0, .ro, 0x0, false⟩]⟩,
   ⟨"SPAD_PERM_DENY", 0x310a0048, [(2, 0x1000000)], [⟨31, 0, .ro, 0x0, false⟩]⟩,
   ⟨"SPAD_SWEEP_FAILS", 0x310a004c, [(2, 0x1000000)], [⟨31, 0, .ro, 0x0, false⟩]⟩,
   ⟨"SPAD_WIN_BASE", 0x310a0100, [(2, 0x1000000), (64, 0x10)], [⟨31, 31, .trv, 0x0, false⟩, ⟨30, 30, .trv, 0x0, false⟩, ⟨20, 12, .trv, 0x0, false⟩]⟩,
   ⟨"SPAD_WIN_SIZE", 0x310a0104, [(2, 0x1000000), (64, 0x10)], [⟨21, 12, .trv, 0x0, false⟩]⟩,
   ⟨"SPAD_WIN_GRANT", 0x310a0108, [(2, 0x1000000), (64, 0x10)], [⟨27, 16, .trv, 0x0, false⟩, ⟨11, 0, .trv, 0x0, false⟩]⟩,
   ⟨"SPAD_WIN_NE", 0x310a010c, [(2, 0x1000000), (64, 0x10)], [⟨23, 0, .trv, 0x0, false⟩]⟩,
   ⟨"BANK_OWNER", 0x310a0800, [(2, 0x1000000), (16, 0x4)], [⟨7, 0, .rw, 0x0, false⟩]⟩]

/-- Descriptors of block DRAM (13_harts_dram_larder.md, R632). -/
def regTabDRAM : List RegDesc :=
  [⟨"DRAM_CTRL", 0x310b0000, [(2, 0x1000000)], [⟨31, 31, .w1s, 0x0, false⟩, ⟨2, 2, .trv, 0x1, false⟩, ⟨1, 1, .trv, 0x1, false⟩, ⟨0, 0, .trv, 0x0, false⟩]⟩,
   ⟨"DRAM_CFG", 0x310b0004, [(2, 0x1000000)], [⟨5, 4, .rwl, 0x3, false⟩, ⟨1, 1, .rwl, 0x1, false⟩, ⟨0, 0, .rwl, 0x0, false⟩]⟩,
   ⟨"DRAM_STATUS", 0x310b0008, [(2, 0x1000000)], [⟨4, 4, .w1c, 0x0, false⟩, ⟨3, 3, .w1c, 0x0, false⟩, ⟨2, 2, .ro, 0x0, false⟩, ⟨1, 1, .w1c, 0x0, false⟩, ⟨0, 0, .ro, 0x0, false⟩]⟩,
   ⟨"DRAM_PATROL", 0x310b000c, [(2, 0x1000000)], [⟨31, 8, .ro, 0x0, false⟩, ⟨7, 0, .trv, 0x18, false⟩]⟩,
   ⟨"DRAM_MIRROR", 0x310b0010, [(2, 0x1000000)], [⟨31, 31, .rwl, 0x0, false⟩, ⟨9, 8, .ro, 0x0, false⟩, ⟨7, 0, .trv, 0x4, false⟩]⟩,
   ⟨"DRAM_ECC_ADDR_LO", 0x310b0014, [(2, 0x1000000)], [⟨31, 0, .ro, 0x0, false⟩]⟩,
   ⟨"DRAM_ECC_ADDR_HI", 0x310b0018, [(2, 0x1000000)], [⟨31, 0, .ro, 0x0, false⟩]⟩,
   ⟨"DRAM_ECC_CORR", 0x310b0040, [(2, 0x1000000)], [⟨31, 0, .ro, 0x0, false⟩]⟩,
   ⟨"DRAM_ECC_DED_CNT", 0x310b0044, [(2, 0x1000000)], [⟨31, 0, .ro, 0x0, false⟩]⟩,
   ⟨"DRAM_MIRROR_DIV_CNT", 0x310b0048, [(2, 0x1000000)], [⟨31, 0, .ro, 0x0, false⟩]⟩]

/-- Descriptors of block HOST (14_kcp_host_commands.md, R677). -/
def regTabHOST : List RegDesc :=
  [⟨"KCP_RING_CTRL", 0x310c0000, [(2, 0x1000000)], [⟨0, 0, .rw, 0x0, false⟩]⟩,
   ⟨"KCP_DB", 0x310c0004, [(2, 0x1000000)], [⟨31, 0, .w1s, 0x0, false⟩]⟩,
   ⟨"KCP_BUSY", 0x310c0008, [(2, 0x1000000)], [⟨31, 0, .ro, 0x0, false⟩]⟩,
   ⟨"KCP_DONE", 0x310c000c, [(2, 0x1000000)], [⟨31, 0, .w1c, 0x0, false⟩]⟩,
   ⟨"PCI_AP_BASE", 0x310c0010, [(2, 0x1000000)], [⟨21, 0, .rw, 0x400, false⟩]⟩,
   ⟨"PCI_STATUS", 0x310c0014, [(2, 0x1000000)], [⟨31, 31, .ro, 0x1, false⟩, ⟨30, 30, .ro, 0x0, false⟩, ⟨7, 4, .ro, 0x0, false⟩, ⟨3, 2, .ro, 0x0, false⟩, ⟨0, 0, .ro, 0x0, false⟩]⟩,
   ⟨"HI_PEND", 0x310c0040, [(2, 0x1000000)], [⟨19, 0, .ro, 0x0, false⟩]⟩,
   ⟨"HI_EN", 0x310c0044, [(2, 0x1000000)], [⟨19, 0, .rw, 0x0, false⟩]⟩,
   ⟨"HI_CLR", 0x310c0048, [(2, 0x1000000)], [⟨19, 0, .wo, 0x0, false⟩]⟩,
   ⟨"HI_VEC", 0x310c0050, [(2, 0x1000000), (20, 0x4)], [⟨4, 0, .rw, 0x0, false⟩]⟩,
   ⟨"QH_CFG", 0x310c0400, [(2, 0x1000000)], [⟨31, 31, .trv, 0x0, false⟩, ⟨7, 0, .rw, 0x20, false⟩]⟩,
   ⟨"QH_TSTAT", 0x310c0404, [(2, 0x1000000)], [⟨31, 19, .ro, 0x1000, false⟩, ⟨18, 6, .ro, 0x0, false⟩, ⟨5, 5, .w1c, 0x0, false⟩, ⟨4, 4, .w1c, 0x0, false⟩, ⟨3, 3, .w1c, 0x0, false⟩, ⟨2, 2, .w1c, 0x0, false⟩, ⟨1, 1, .w1c, 0x0, false⟩, ⟨0, 0, .w1c, 0x0, false⟩]⟩,
   ⟨"QH_EADDR_LO", 0x310c0408, [(2, 0x1000000)], [⟨31, 0, .ro, 0x0, false⟩]⟩,
   ⟨"QH_EADDR_HI", 0x310c040c, [(2, 0x1000000)], [⟨7, 0, .ro, 0x0, false⟩]⟩,
   ⟨"QH_HI_PEND", 0x310c0440, [(2, 0x1000000)], [⟨19, 0, .ro, 0x0, false⟩]⟩,
   ⟨"QH_HI_EN", 0x310c0444, [(2, 0x1000000)], [⟨19, 0, .rw, 0x0, false⟩]⟩,
   ⟨"QH_HI_CLR", 0x310c0448, [(2, 0x1000000)], [⟨19, 0, .wo, 0x0, false⟩]⟩,
   ⟨"LB_TSTAT", 0x310c0800, [(2, 0x1000000)], [⟨31, 19, .ro, 0x1000, false⟩, ⟨18, 6, .ro, 0x0, false⟩, ⟨5, 5, .w1c, 0x0, false⟩, ⟨4, 4, .w1c, 0x0, false⟩, ⟨3, 3, .w1c, 0x0, false⟩, ⟨2, 2, .w1c, 0x0, false⟩, ⟨1, 1, .w1c, 0x0, false⟩, ⟨0, 0, .w1c, 0x0, false⟩]⟩,
   ⟨"LB_EADDR_LO", 0x310c0804, [(2, 0x1000000)], [⟨31, 0, .ro, 0x0, false⟩]⟩,
   ⟨"LB_EADDR_HI", 0x310c0808, [(2, 0x1000000)], [⟨7, 0, .ro, 0x0, false⟩]⟩] ++
  [⟨"LB_HI_PEND", 0x310c0840, [(2, 0x1000000)], [⟨19, 0, .ro, 0x0, false⟩]⟩,
   ⟨"LB_HI_EN", 0x310c0844, [(2, 0x1000000)], [⟨19, 0, .rw, 0x0, false⟩]⟩,
   ⟨"LB_HI_CLR", 0x310c0848, [(2, 0x1000000)], [⟨19, 0, .wo, 0x0, false⟩]⟩,
   ⟨"KCP_UDP_CTRL", 0x310c0a00, [(2, 0x1000000)], [⟨31, 31, .trv, 0x0, false⟩]⟩,
   ⟨"KCP_IP", 0x310c0a04, [(2, 0x1000000)], [⟨31, 0, .trv, 0x0, false⟩]⟩,
   ⟨"KCP_MAC_LO", 0x310c0a08, [(2, 0x1000000)], [⟨31, 0, .trv, 0x0, false⟩]⟩,
   ⟨"KCP_MAC_HI", 0x310c0a0c, [(2, 0x1000000)], [⟨15, 0, .trv, 0x0, false⟩]⟩,
   ⟨"KCP_RX_OK", 0x310c0f00, [(2, 0x1000000)], [⟨31, 0, .ro, 0x0, false⟩]⟩,
   ⟨"KCP_RX_BAD", 0x310c0f04, [(2, 0x1000000)], [⟨31, 0, .ro, 0x0, false⟩]⟩,
   ⟨"KCP_HUNT", 0x310c0f08, [(2, 0x1000000)], [⟨31, 0, .ro, 0x0, false⟩]⟩,
   ⟨"KCP_DB_IGNORED", 0x310c0f0c, [(2, 0x1000000)], [⟨31, 0, .ro, 0x0, false⟩]⟩,
   ⟨"KCP_UDP_AUTH_FAIL", 0x310c0f10, [(2, 0x1000000)], [⟨31, 0, .ro, 0x0, false⟩]⟩,
   ⟨"KCP_UDP_REPLAY", 0x310c0f14, [(2, 0x1000000)], [⟨31, 0, .ro, 0x0, false⟩]⟩,
   ⟨"KCP_TIMEOUT", 0x310c0f18, [(2, 0x1000000)], [⟨31, 0, .ro, 0x0, false⟩]⟩]

/-- Descriptors of block GAUGE (08_gauge_time.md, R442). -/
def regTabGAUGE : List RegDesc :=
  [⟨"GAUGE_RAW_LO", 0x33000000, [], [⟨31, 0, .ro, 0x0, false⟩]⟩,
   ⟨"GAUGE_RAW_HI", 0x33000004, [], [⟨31, 0, .ro, 0x0, false⟩]⟩,
   ⟨"GAUGE_REF", 0x33000008, [], [⟨31, 31, .ro, 0x0, false⟩, ⟨30, 30, .w1c, 0x0, false⟩, ⟨9, 9, .ro, 0x0, false⟩, ⟨8, 8, .ro, 0x0, false⟩, ⟨5, 5, .ro, 0x0, false⟩, ⟨4, 4, .trv, 0x1, false⟩, ⟨0, 0, .trv, 0x0, false⟩]⟩,
   ⟨"GAUGE_EPOCH", 0x3300000c, [], [⟨15, 0, .ro, 0x0, true⟩]⟩,
   ⟨"GAUGE_SWITCH_CNT", 0x33000010, [], [⟨31, 0, .ro, 0x0, false⟩]⟩,
   ⟨"GAUGE_DIFF", 0x33000014, [], [⟨31, 0, .ro, 0x0, false⟩]⟩,
   ⟨"GAUGE_DOM_NS", 0x33000100, [(4, 0x80)], [⟨31, 0, .ro, 0x0, false⟩]⟩,
   ⟨"GAUGE_DOM_SEC_LO", 0x33000104, [(4, 0x80)], [⟨31, 0, .ro, 0x0, false⟩]⟩,
   ⟨"GAUGE_DOM_SEC_HI", 0x33000108, [(4, 0x80)], [⟨31, 0, .ro, 0x0, false⟩]⟩,
   ⟨"GAUGE_DOM_FRAC", 0x3300010c, [(4, 0x80)], [⟨15, 0, .ro, 0x0, false⟩]⟩,
   ⟨"GAUGE_DOM_LRAW_LO", 0x33000110, [(4, 0x80)], [⟨31, 0, .ro, 0x0, false⟩]⟩,
   ⟨"GAUGE_DOM_LRAW_HI", 0x33000114, [(4, 0x80)], [⟨31, 0, .ro, 0x0, false⟩]⟩,
   ⟨"GAUGE_DOM_CFG", 0x33000118, [(4, 0x80)], [⟨31, 16, .trv, 0x0, false⟩, ⟨15, 8, .trv, 0x0, false⟩, ⟨7, 0, .trv, 0x1, false⟩]⟩,
   ⟨"GAUGE_DOM_STATUS", 0x3300011c, [(4, 0x80)], [⟨31, 31, .ro, 0x0, false⟩, ⟨30, 30, .w1c, 0x0, false⟩, ⟨17, 16, .ro, 0x0, false⟩, ⟨7, 0, .ro, 0x1, false⟩]⟩,
   ⟨"GAUGE_DOM_STG_AT_LO", 0x33000120, [(4, 0x80)], [⟨31, 0, .rw, 0x0, false⟩]⟩,
   ⟨"GAUGE_DOM_STG_AT_HI", 0x33000124, [(4, 0x80)], [⟨31, 0, .rw, 0x0, false⟩]⟩,
   ⟨"GAUGE_DOM_STG_RATE_LO", 0x33000128, [(4, 0x80)], [⟨31, 0, .rw, 0x0, false⟩]⟩,
   ⟨"GAUGE_DOM_STG_RATE_HI", 0x3300012c, [(4, 0x80)], [⟨7, 0, .rw, 0x0, false⟩]⟩,
   ⟨"GAUGE_DOM_STG_SEC_LO", 0x33000130, [(4, 0x80)], [⟨31, 0, .rw, 0x0, false⟩]⟩,
   ⟨"GAUGE_DOM_STG_SEC_HI", 0x33000134, [(4, 0x80)], [⟨31, 0, .rw, 0x0, false⟩]⟩] ++
  [⟨"GAUGE_DOM_STG_NS", 0x33000138, [(4, 0x80)], [⟨29, 0, .rw, 0x0, false⟩]⟩,
   ⟨"GAUGE_DOM_STG_FRAC", 0x3300013c, [(4, 0x80)], [⟨15, 0, .rw, 0x0, false⟩]⟩,
   ⟨"GAUGE_DOM_CTRL", 0x33000140, [(4, 0x80)], [⟨31, 31, .wo, 0x0, false⟩, ⟨30, 30, .wo, 0x0, false⟩, ⟨9, 8, .rw, 0x0, false⟩, ⟨4, 4, .rw, 0x0, false⟩, ⟨1, 0, .rw, 0x0, false⟩]⟩,
   ⟨"GAUGE_DOM_RATE_LO", 0x33000144, [(4, 0x80)], [⟨31, 0, .ro, 0x0, false⟩]⟩,
   ⟨"GAUGE_DOM_RATE_HI", 0x33000148, [(4, 0x80)], [⟨7, 0, .ro, 0x0, false⟩]⟩,
   ⟨"GAUGE_DOM_LAST_LO", 0x3300014c, [(4, 0x80)], [⟨31, 0, .ro, 0x0, false⟩]⟩,
   ⟨"GAUGE_DOM_LAST_HI", 0x33000150, [(4, 0x80)], [⟨31, 0, .ro, 0x0, false⟩]⟩,
   ⟨"GAUGE_DOM_COMMITS", 0x33000154, [(4, 0x80)], [⟨31, 0, .ro, 0x0, false⟩]⟩,
   ⟨"GAUGE_DOM_CONV_RAW_LO", 0x33000160, [(4, 0x80)], [⟨31, 0, .rw, 0x0, false⟩]⟩,
   ⟨"GAUGE_DOM_CONV_RAW_HI", 0x33000164, [(4, 0x80)], [⟨31, 0, .rw, 0x0, false⟩]⟩,
   ⟨"GAUGE_DOM_CONV_NS", 0x33000168, [(4, 0x80)], [⟨31, 0, .ro, 0x0, false⟩]⟩,
   ⟨"GAUGE_DOM_CONV_SEC_LO", 0x3300016c, [(4, 0x80)], [⟨31, 0, .ro, 0x0, false⟩]⟩,
   ⟨"GAUGE_DOM_CONV_SEC_HI", 0x33000170, [(4, 0x80)], [⟨31, 0, .ro, 0x0, false⟩]⟩,
   ⟨"GAUGE_DOM_CONV_FRAC", 0x33000174, [(4, 0x80)], [⟨31, 31, .ro, 0x0, false⟩, ⟨15, 0, .ro, 0x0, false⟩]⟩,
   ⟨"GAUGE_CMP_CTRL", 0x33000400, [(16, 0x20)], [⟨31, 31, .trv, 0x0, false⟩, ⟨26, 26, .trv, 0x0, false⟩, ⟨25, 24, .trv, 0x0, false⟩]⟩,
   ⟨"GAUGE_CMP_NEXT_LO", 0x33000404, [(16, 0x20)], [⟨31, 0, .trv, 0x0, false⟩]⟩,
   ⟨"GAUGE_CMP_NEXT_HI", 0x33000408, [(16, 0x20)], [⟨31, 0, .trv, 0x0, false⟩]⟩,
   ⟨"GAUGE_CMP_NEXT_NS", 0x3300040c, [(16, 0x20)], [⟨29, 0, .trv, 0x0, false⟩]⟩,
   ⟨"GAUGE_CMP_PERIOD", 0x33000410, [(16, 0x20)], [⟨31, 0, .trv, 0x0, false⟩]⟩,
   ⟨"GAUGE_CMP_COUNT", 0x33000414, [(16, 0x20)], [⟨31, 0, .ro, 0x0, false⟩]⟩] ++
  [⟨"GAUGE_CMP_MISSED", 0x33000418, [(16, 0x20)], [⟨31, 0, .ro, 0x0, false⟩]⟩,
   ⟨"GAUGE_PPS_CTRL", 0x33000800, [(2, 0x4)], [⟨31, 31, .trv, 0x0, false⟩, ⟨19, 16, .trv, 0x0, false⟩, ⟨15, 0, .trv, 0x64, false⟩]⟩,
   ⟨"GAUGE_TSC_CTRL", 0x33001000, [(18, 0x400)], [⟨31, 31, .trv, 0x0, false⟩, ⟨30, 30, .trv, 0x0, false⟩, ⟨29, 28, .trv, 0x0, false⟩]⟩,
   ⟨"GAUGE_TSC_ADJ", 0x33001004, [(18, 0x400)], [⟨31, 16, .trv, 0x0, false⟩, ⟨15, 0, .trv, 0x0, false⟩]⟩,
   ⟨"GAUGE_TS_RX_CNT", 0x33001008, [(18, 0x400)], [⟨31, 0, .ro, 0x0, false⟩]⟩,
   ⟨"GAUGE_TS_TX_CNT", 0x3300100c, [(18, 0x400)], [⟨31, 0, .ro, 0x0, false⟩]⟩,
   ⟨"GAUGE_TS_ONESTEP_SKIP", 0x33001010, [(18, 0x400)], [⟨31, 0, .ro, 0x0, false⟩]⟩,
   ⟨"GAUGE_TS_RX_RING", 0x33001100, [(18, 0x400), (16, 0x10), (4, 0x4)], [⟨31, 0, .ro, 0x0, false⟩]⟩,
   ⟨"GAUGE_TS_TX_RING", 0x33001200, [(18, 0x400), (16, 0x10), (4, 0x4)], [⟨31, 0, .ro, 0x0, false⟩]⟩]

/-- Descriptors of block MBX (12_memory_and_mailboxes.md, R600). -/
def regTabMBX : List RegDesc :=
  [⟨"MBX_MSG", 0x33010000, [(64, 0x40), (8, 0x4)], [⟨31, 0, .rw, 0x0, false⟩]⟩,
   ⟨"MBX_DB", 0x33010020, [(64, 0x40)], [⟨1, 1, .wo, 0x0, false⟩, ⟨0, 0, .wo, 0x0, false⟩]⟩,
   ⟨"MBX_STATUS", 0x33010024, [(64, 0x40)], [⟨31, 31, .ro, 0x0, false⟩, ⟨30, 30, .w1c, 0x0, false⟩, ⟨29, 29, .w1c, 0x0, false⟩, ⟨28, 28, .w1c, 0x0, false⟩]⟩,
   ⟨"MBX_RING_CNT", 0x33010028, [(64, 0x40)], [⟨31, 0, .ro, 0x0, false⟩]⟩,
   ⟨"MBX_REJ_CNT", 0x3301002c, [(64, 0x40)], [⟨31, 0, .ro, 0x0, false⟩]⟩,
   ⟨"MBX_BIND", 0x33011000, [(64, 0x4)], [⟨15, 8, .trv, 0x0, false⟩, ⟨7, 0, .trv, 0x0, false⟩]⟩,
   ⟨"MBX_BIND_LOCK", 0x33011100, [], [⟨0, 0, .w1s, 0x0, false⟩]⟩,
   ⟨"MBX_LOCK", 0x33011200, [(32, 0x4)], [⟨7, 0, .rw, 0x0, false⟩]⟩,
   ⟨"MBX_LOCK_BROKEN", 0x33011280, [], [⟨31, 0, .w1c, 0x0, false⟩]⟩]

/-- Descriptors of block WAKE (10_sleep_and_wake.md, R528). -/
def regTabWAKE : List RegDesc :=
  [⟨"WAKE_PSTATE", 0x33020000, [], [⟨31, 31, .ro, 0x0, false⟩, ⟨30, 30, .w1c, 0x0, true⟩, ⟨19, 16, .ro, 0x0, true⟩, ⟨15, 8, .ro, 0x0, true⟩, ⟨2, 2, .ro, 0x0, false⟩, ⟨1, 0, .ro, 0x0, false⟩]⟩,
   ⟨"WAKE_PCTRL", 0x33020004, [], [⟨31, 31, .wo, 0x0, false⟩, ⟨9, 8, .trv, 0x0, true⟩, ⟨4, 4, .trv, 0x1, true⟩, ⟨2, 2, .trv, 0x0, true⟩, ⟨1, 0, .trv, 0x0, true⟩]⟩,
   ⟨"WAKE_AON_STATUS", 0x33020008, [], [⟨8, 8, .w1c, 0x0, true⟩, ⟨1, 1, .ro, 0x1, true⟩, ⟨0, 0, .ro, 0x0, true⟩]⟩,
   ⟨"WAKE_KA", 0x3302000c, [], [⟨15, 0, .trv, 0x64, true⟩]⟩,
   ⟨"WAKE_NODATA_T", 0x33020010, [], [⟨15, 0, .trv, 0x1388, true⟩]⟩,
   ⟨"WAKE_VALID_T", 0x33020014, [], [⟨15, 0, .trv, 0x7d0, true⟩]⟩,
   ⟨"WAKE_INSOMNIA_T", 0x33020018, [], [⟨15, 0, .trv, 0x258, true⟩]⟩,
   ⟨"WAKE_DA_LO", 0x3302001c, [], [⟨31, 0, .trv, 0x0, true⟩]⟩,
   ⟨"WAKE_DA_HI", 0x33020020, [], [⟨15, 0, .trv, 0x0, true⟩]⟩,
   ⟨"WAKE_PIN_CFG", 0x33020024, [], [⟨15, 8, .trv, 0xa, true⟩, ⟨7, 0, .trv, 0x0, true⟩]⟩,
   ⟨"WAKE_FALSE_CLR", 0x33020030, [], [⟨12, 0, .wo, 0x0, false⟩]⟩,
   ⟨"WAKE_INS_CLR", 0x33020034, [], [⟨7, 0, .wo, 0x0, false⟩]⟩,
   ⟨"WAKE_SRC", 0x33020040, [(13, 0x4)], [⟨31, 31, .trv, 0x0, true⟩, ⟨30, 30, .w1c, 0x0, true⟩, ⟨25, 24, .trv, 0x3, true⟩, ⟨23, 16, .trv, 0x0, true⟩, ⟨15, 0, .trv, 0x0, true⟩]⟩,
   ⟨"WAKE_FALSE_CNT", 0x33020080, [(13, 0x4)], [⟨15, 0, .ro, 0x0, true⟩]⟩,
   ⟨"WAKE_SEG_CTRL", 0x33020100, [(8, 0x40)], [⟨31, 31, .trv, 0x0, true⟩, ⟨30, 30, .trv, 0x0, false⟩, ⟨29, 29, .trv, 0x1, true⟩, ⟨28, 28, .trv, 0x1, true⟩, ⟨25, 24, .trv, 0x3, true⟩, ⟨15, 0, .trv, 0x7d0, true⟩]⟩,
   ⟨"WAKE_SEG_MEMB", 0x33020104, [(8, 0x40)], [⟨15, 8, .trv, 0x0, true⟩, ⟨7, 0, .trv, 0x0, true⟩]⟩,
   ⟨"WAKE_SEG_STATUS", 0x33020108, [(8, 0x40)], [⟨31, 30, .ro, 0x0, true⟩, ⟨29, 29, .w1c, 0x0, true⟩, ⟨28, 28, .ro, 0x0, false⟩, ⟨4, 0, .ro, 0x0, true⟩]⟩,
   ⟨"WAKE_SEG_BO_LO", 0x3302010c, [(8, 0x40)], [⟨31, 0, .ro, 0x0, true⟩]⟩,
   ⟨"WAKE_SEG_BO_HI", 0x33020110, [(8, 0x40)], [⟨31, 0, .ro, 0x0, true⟩]⟩,
   ⟨"WAKE_SEG_CAN_KA_ID", 0x33020114, [(8, 0x40)], [⟨31, 31, .trv, 0x0, true⟩, ⟨30, 30, .trv, 0x0, true⟩, ⟨28, 0, .trv, 0x0, true⟩]⟩] ++
  [⟨"WAKE_SEG_CAN_KA_MASK", 0x33020118, [(8, 0x40)], [⟨28, 0, .trv, 0x0, true⟩]⟩,
   ⟨"WAKE_SEG_NODATA", 0x3302011c, [(8, 0x40)], [⟨31, 0, .ro, 0x0, true⟩]⟩,
   ⟨"WAKE_SEG_KA_RX", 0x33020120, [(8, 0x40)], [⟨31, 0, .ro, 0x0, true⟩]⟩,
   ⟨"WAKE_SEG_LATE", 0x33020124, [(8, 0x40)], [⟨31, 0, .ro, 0x0, true⟩]⟩,
   ⟨"WAKE_SEG_SLEEPS", 0x33020128, [(8, 0x40)], [⟨31, 0, .ro, 0x0, true⟩]⟩,
   ⟨"WAKE_TLM_ID", 0x33020400, [(8, 0x80), (4, 0x20)], [⟨31, 16, .trv, 0x0, true⟩, ⟨15, 0, .trv, 0x0, true⟩]⟩,
   ⟨"WAKE_TLM_DVAL_LO", 0x33020404, [(8, 0x80), (4, 0x20)], [⟨31, 0, .trv, 0x0, true⟩]⟩,
   ⟨"WAKE_TLM_DVAL_HI", 0x33020408, [(8, 0x80), (4, 0x20)], [⟨31, 0, .trv, 0x0, true⟩]⟩,
   ⟨"WAKE_TLM_DMASK_LO", 0x3302040c, [(8, 0x80), (4, 0x20)], [⟨31, 0, .trv, 0x0, true⟩]⟩,
   ⟨"WAKE_TLM_DMASK_HI", 0x33020410, [(8, 0x80), (4, 0x20)], [⟨31, 0, .trv, 0x0, true⟩]⟩,
   ⟨"WAKE_TLM_CTRL", 0x33020414, [(8, 0x80), (4, 0x20)], [⟨31, 31, .trv, 0x0, true⟩]⟩,
   ⟨"WAKE_TLM_CNT", 0x33020418, [(8, 0x80), (4, 0x20)], [⟨31, 0, .ro, 0x0, true⟩]⟩,
   ⟨"WAKE_TL_NOMATCH", 0x33020800, [(8, 0x4)], [⟨31, 0, .ro, 0x0, true⟩]⟩,
   ⟨"WAKE_CX_CFG", 0x33020840, [(8, 0x4)], [⟨8, 8, .ro, 0x0, false⟩, ⟨1, 1, .trv, 0x0, true⟩, ⟨0, 0, .trv, 0x0, true⟩]⟩,
   ⟨"WAKE_INS_LOG", 0x33022000, [(8, 0x400), (32, 0x20), (8, 0x4)], [⟨31, 0, .ro, 0x0, true⟩]⟩]

/-- Descriptors of block SEC (17_security_lifecycle.md, R775). -/
def regTabSEC : List RegDesc :=
  [⟨"SEC_LC", 0x33030000, [], [⟨31, 31, .w1c, 0x0, false⟩, ⟨23, 16, .ro, 0x0, false⟩, ⟨15, 8, .ro, 0x0, false⟩, ⟨2, 0, .ro, 0x0, false⟩]⟩,
   ⟨"SEC_RB", 0x33030004, [(3, 0x4)], [⟨31, 0, .ro, 0x0, false⟩]⟩,
   ⟨"SEC_BOOT", 0x33030010, [], [⟨7, 7, .ro, 0x0, false⟩, ⟨6, 6, .ro, 0x0, false⟩, ⟨5, 5, .ro, 0x0, false⟩, ⟨4, 4, .ro, 0x0, false⟩, ⟨3, 3, .ro, 0x0, false⟩, ⟨2, 2, .w1c, 0x0, false⟩, ⟨1, 1, .w1c, 0x0, false⟩]⟩,
   ⟨"SEC_TAMPER", 0x33030014, [], [⟨8, 8, .ro, 0x0, false⟩, ⟨2, 2, .w1c, 0x0, true⟩, ⟨1, 1, .w1c, 0x0, true⟩, ⟨0, 0, .w1c, 0x0, true⟩]⟩,
   ⟨"SEC_DEBUG", 0x33030018, [], [⟨2, 2, .ro, 0x0, false⟩, ⟨1, 1, .ro, 0x0, false⟩, ⟨0, 0, .ro, 0x0, false⟩]⟩,
   ⟨"SEC_KEYS", 0x3303001c, [], [⟨31, 16, .ro, 0x0, false⟩, ⟨15, 0, .ro, 0x0, false⟩]⟩,
   ⟨"SEC_SIG_FAIL", 0x33030040, [], [⟨31, 0, .ro, 0x0, false⟩]⟩,
   ⟨"SEC_TAMPER_CNT", 0x33030044, [], [⟨31, 0, .ro, 0x0, true⟩]⟩,
   ⟨"SEC_FALLBACK_CNT", 0x33030048, [], [⟨31, 0, .ro, 0x0, false⟩]⟩,
   ⟨"VAULT_STATUS", 0x33030800, [], [⟨31, 31, .ro, 0x0, false⟩, ⟨2, 0, .ro, 0x3, false⟩]⟩,
   ⟨"VAULT_WIPE_CNT", 0x33030804, [], [⟨31, 0, .ro, 0x0, true⟩]⟩,
   ⟨"VAULT_DEL_BASE", 0x33030840, [(8, 0x8)], [⟨31, 31, .trv, 0x0, false⟩, ⟨17, 12, .trv, 0x0, false⟩]⟩,
   ⟨"VAULT_DEL_CFG", 0x33030844, [(8, 0x8)], [⟨31, 31, .trv, 0x0, false⟩, ⟨30, 30, .trv, 0x0, false⟩, ⟨22, 16, .trv, 0x0, false⟩, ⟨7, 0, .trv, 0x0, false⟩]⟩]

/-- Descriptors of block LARDER (13_harts_dram_larder.md, R633). -/
def regTabLARDER : List RegDesc :=
  [⟨"LARDER_CTRL", 0x33040000, [], [⟨0, 0, .trv, 0x0, false⟩]⟩,
   ⟨"LARDER_STATUS", 0x33040004, [], [⟨3, 3, .w1c, 0x0, false⟩, ⟨2, 2, .ro, 0x0, false⟩, ⟨1, 1, .ro, 0x0, false⟩, ⟨0, 0, .ro, 0x0, false⟩]⟩,
   ⟨"LARDER_PART_BASE", 0x33040010, [(3, 0x8)], [⟨31, 0, .trv, 0x0, false⟩]⟩,
   ⟨"LARDER_PART_SIZE", 0x33040014, [(3, 0x8)], [⟨31, 0, .trv, 0x0, false⟩]⟩,
   ⟨"LARDER_SRC_BASE", 0x33040040, [(8, 0x8)], [⟨21, 3, .trv, 0x0, false⟩]⟩,
   ⟨"LARDER_SRC_CNT", 0x33040044, [(8, 0x8)], [⟨31, 31, .trv, 0x0, false⟩, ⟨14, 0, .trv, 0x0, false⟩]⟩,
   ⟨"LARDER_TRIG", 0x33040080, [], [⟨7, 4, .trv, 0x0, false⟩, ⟨3, 0, .trv, 0x0, false⟩]⟩,
   ⟨"LARDER_FREEZE", 0x33040084, [], [⟨31, 31, .trv, 0x1, false⟩, ⟨30, 30, .trv, 0x1, false⟩, ⟨29, 29, .trv, 0x1, false⟩]⟩,
   ⟨"LARDER_PRE_N", 0x33040088, [(2, 0x8)], [⟨31, 0, .trv, 0x258, false⟩]⟩,
   ⟨"LARDER_POST_N", 0x3304008c, [(2, 0x8)], [⟨31, 0, .trv, 0x3c, false⟩]⟩,
   ⟨"LARDER_FRZ_AT_LO", 0x330400a0, [], [⟨31, 0, .ro, 0x0, false⟩]⟩,
   ⟨"LARDER_FRZ_AT_HI", 0x330400a4, [], [⟨31, 0, .ro, 0x0, false⟩]⟩,
   ⟨"LARDER_SNAP_CYC", 0x33040100, [], [⟨31, 0, .ro, 0x0, false⟩]⟩,
   ⟨"LARDER_SNAP_FAST", 0x33040104, [], [⟨31, 0, .ro, 0x0, false⟩]⟩,
   ⟨"LARDER_SNAP_SKIP", 0x33040108, [], [⟨31, 0, .ro, 0x0, false⟩]⟩,
   ⟨"LARDER_EVT_CNT", 0x3304010c, [], [⟨31, 0, .ro, 0x0, false⟩]⟩,
   ⟨"LARDER_EVT_DROP", 0x33040110, [], [⟨31, 0, .ro, 0x0, false⟩]⟩,
   ⟨"LARDER_FRZ_IGNORED", 0x33040114, [], [⟨31, 0, .ro, 0x0, false⟩]⟩]

end Sys2Proof.Machine
end

