-- ==== Sys2Proof/Machine/State.lean ====
section
/-! DEFINITION. The state of the block, as plain data: the registers, the memories, and the hidden state of
every unit; and the state after reset. -/

namespace Sys2Proof.Machine
open Sys2Proof

/-- Why a step could stop the machine: no command ends in a fault, since every error of this block is a
response, a flag or a logged fault, and the block goes on (R35, R678). -/
inductive Fault where
  deriving DecidableEq, Repr

/-- Why a command has no meaning here. -/
inductive Refusal where
  /-- Raised by exec alone, for a row whose meaning is not written; safe, since nothing happens. -/
  | notModelled (mnemonic : String)
  deriving DecidableEq, Repr

/-! ### Charge (spec/02) -/

/-- The charge states of a half, Table 2.1 (R73). -/
inductive ChgState where
  | init
  | candidate
  | charge
  | standby
  | demoted
  | service
  | lost
  deriving DecidableEq, Repr

/-- The MODE of TRV_CHARGE: none, 1oo2D, 1oo1D (Table 2.11). -/
inductive ChgMode where
  | none
  | two
  | one
  deriving DecidableEq, Repr

/-- The charge state of one half and its TRV_CAUSE record (Tables 2.12, 2.13). -/
structure HalfChg where
  st : ChgState
  cause : Nat
  fromSt : Nat
  toSt : Nat
  count : Nat
  resync : Bool
  probation : Bool
  update : Bool
  deriving DecidableEq, Repr

/-- The charge arbiter: HOLDER, the code the grant latch drives on the pairs, MODE, the halves, whether a first
grant has existed, whether both pairs read asserted, the levels of the true and the complement line of each pair where
they are not those that the latch drives (R66), the cast-on window's t1, the half that a pending
handover's service request named (R64 to R85, R813), the instant and the former holder of the last handover
performed (R84), the instant of the handover accepted last once it has been performed (Table 14.5), and the raw count of
the last T4 or T5 (R117, R118). -/
structure Charge where
  holder : Byte
  grant : Byte
  mode : ChgMode
  k : HalfChg
  p : HalfChg
  granted : Bool
  bothPairs : Bool
  lineK : Option (Bool × Bool)
  lineP : Option (Bool × Bool)
  window : Option Nat
  service : Option Half
  last : Option (Nat × Half)
  performed : Option Nat
  decided : Option Nat
  deriving DecidableEq, Repr

/-! ### Tension link, input agreement, resynchronisation (spec/02) -/

/-- A diagnostic of class F3 that a half reports: code, SOURCE, and DETAIL words 5 to 7. -/
structure Diag where
  code : Nat
  source : Nat
  d5 : Nat
  d6 : Nat
  d7 : Nat
  deriving DecidableEq, Repr

/-- A flit discarded for a bad CRC that waits for its replay: its class, its 144 bits, and how often in a row it has failed
(R102, R103). -/
structure Replay where
  cls : Nat
  flit : Nat
  fails : Nat
  deriving DecidableEq, Repr

/-- The segment of the Tension link of a half: the next SEQ of each class but the heartbeat's (R90); the classes of the
messages that the hub is relaying, the latest interleaved first (R92); the cap interval in progress and the flits of
classes 0x5 and 0x8 relayed in it (R93); the replay buffer of the last 64 flits, latest first; the flits to be replayed
(R102, R103). -/
structure Segment where
  seqs : List (Nat × Nat)
  busy : List Nat
  capAt : Nat
  used5 : Nat
  used8 : Nat
  buffer : List (Nat × Nat)
  again : List Replay
  deriving DecidableEq, Repr

/-- The Tension endpoint of a half and the Trivet's view of its heartbeats: the next HB_SEQ and message sequence, the
STATE copy, launch suppression, the last valid HB_SEQ, OUT_VALID of the last valid heartbeat, the start of the
heartbeat timer, the run of differing STATEs, the segment's flits, and the diagnostic behind a
HEALTHY = 0 (R88 to R103, R750, R814). -/
structure Endpoint where
  hbSeq : Nat
  msgSeq : Nat
  stateCopy : Nat
  suppressed : Bool
  lastSeq : Option Nat
  outValid : Bool
  hbAt : Nat
  diffRun : Nat
  seg : Segment
  unhealthy : Option Diag
  deriving DecidableEq, Repr

/-- One half's part in an agreement cycle: whether it takes part, whether it still awaits the commit, its snapshot
as (VALUE, STAMP) pairs, and whether the hub has relayed it whole (R105 to R112). -/
structure IaHalf where
  part : Bool
  await : Bool
  snap : List (Nat × Nat)
  relayed : Bool
  deriving DecidableEq, Repr

/-- Input agreement: one more than the raw count of the last trigger taken, c0 of the cycle, HOLDER at c0, whether
the hub sent the commit, whether the conflicts of the cycle are counted, the halves, the c0 of an
additional round, and the cleanliness of the running application cycle and the count of clean ones (R106 to R113,
R132, R694). -/
structure Ia where
  trig : Nat
  c0 : Nat
  holder : Byte
  commitSent : Bool
  counted : Bool
  k : IaHalf
  p : IaHalf
  rerun : Option Nat
  bad : Bool
  clean : Nat
  deriving DecidableEq, Repr

/-- A resynchronisation in progress: the candidate, the pass number, the dirty 64-byte granules (offsets / 64 in a
half's banks, rising), whether the final pass is due at the next c0, admission on staged digests, and the start of the
pass in ticks of `now` with the bytes it copies (R93, R132, R133). -/
structure Resync where
  cand : Half
  pass : Nat
  dirty : List Nat
  final : Bool
  staged : Bool
  start : Nat
  load : Nat
  deriving DecidableEq, Repr

/-- The application image of a half: its SHA-384 digest and its ROLLBACK (R132, R764). -/
structure AppImage where
  digest : Nat
  roll : Nat
  deriving DecidableEq, Repr

/-- The three SHA-384 digests of a half's set: application image, Recipes, stream table (R132). -/
structure Digests where
  image : Nat
  recipes : Nat
  streams : Nat
  deriving DecidableEq, Repr

/-- The TWIN link: consecutive timeouts, whether TWIN_PEER has been low for 1 µs, the start of the timer, and the
start of the chip's cast-on window (R85, R135 to R140). -/
structure Twin where
  misses : Nat
  peerLow : Bool
  at_ : Nat
  window : Option Nat
  deriving DecidableEq, Repr

/-! ### Colander (spec/15) -/

/-- A copy in a Colander queue: stream, release point (0 none), bytes, the raw count of its arrival, and whether its
bytes have been released in probation and it stays for comparison only (R122). -/
structure Copy where
  stream : Nat
  rp : Nat
  bytes : List Byte
  arrived : Nat
  sent : Bool
  deriving DecidableEq, Repr

/-- A self-test that runs: its start st0, and whether it is a periodic one (R697, R700). -/
structure SelfTest where
  start : Nat
  periodic : Bool
  deriving DecidableEq, Repr

/-- The Colander: the queues of the halves, oldest first, the running self-test, streams that wait for a further
test, a periodic test that fell due meanwhile, the start of the last periodic test, and the submissions of harts that wait for space (R115, R690, R696). -/
structure Colander where
  qk : List Copy
  qp : List Copy
  test : Option SelfTest
  again : List Nat
  due : Bool
  lastPer : Nat
  waiting : List (Nat × Copy)
  deriving DecidableEq, Repr

/-! ### Larder (spec/13) -/

/-- An event record that waits to be written: TYPE, CLASS, SOURCE, EPOCH, RAW, PAYLOAD and the two 64-byte copies
of a mirror divergence (Table 13.9). -/
structure EvtRec where
  typ : Nat
  cls : Nat
  source : Nat
  epoch : Nat
  raw : Nat
  payload : List Byte
  ext : List Byte
  deriving DecidableEq, Repr

/-- A snapshot held in a ring: number, T_TRIG, its first page and its page count (R625). -/
structure Snap where
  seq : Nat
  trig : Nat
  page : Nat
  pages : Nat
  deriving DecidableEq, Repr

/-- A snapshot that has been read and is being written: T_TRIG, whether its source half was Purl, the sources'
registers, the bank words that were read, tag by tag, and the tag bytes (R623). -/
structure SnapJob where
  trig : Nat
  fromP : Bool
  srcs : List Byte
  words : List (Option Nat)
  tags : List Byte
  deriving DecidableEq, Repr

/-- One snapshot store: the next page, the next SNAP_SEQ, the snapshots held, oldest first, the one in
progress, and whether the store has stopped (R622). -/
structure LStore where
  next : Nat
  seq : Nat
  snaps : List Snap
  job : Option SnapJob
  stopped : Bool
  deriving DecidableEq, Repr

/-- A held freeze: T, and PRE_N and POST_N of both snapshot stores as they were at T (R628). -/
structure Freeze where
  at_ : Nat
  preC : Nat
  postC : Nat
  preF : Nat
  postF : Nat
  deriving DecidableEq, Repr

/-- A record held in the event ring: its 64-byte slot, its RAW, its length in slots (R626). -/
structure EvtHeld where
  slot : Nat
  raw : Nat
  len : Nat
  seq : Nat
  deriving DecidableEq, Repr

/-- The Larder controller: the snapshot stores; of the event ring the next slot, the next SEQ, the records held, oldest
first, whether it has stopped, the records that wait to be written and whether some were dropped; and the held freeze. -/
structure Larder where
  cyc : LStore
  fast : LStore
  evtNext : Nat
  evtSeq : Nat
  held : List EvtHeld
  evtStopped : Bool
  waiting : List EvtRec
  dropped : Bool
  freeze : Option Freeze
  deriving DecidableEq, Repr

/-! ### Harts and DRAM ports (spec/13) -/

/-- A hart's custom CSRs, whether its timer interrupt is pending, whether lockstep has halted it, and its standard CSRs by
number where they are not 0 (R601, R602, R607, R609). The instruction set of the harts is the RISC-V
specifications'; the block sees a hart through its accesses and its CSRs. -/
structure Hart where
  mtimecmp : Nat
  en0 : Nat
  en1 : Nat
  latched : Nat
  mtip : Bool
  halted : Bool
  csrs : List (Nat × Nat)
  deriving DecidableEq, Repr

/-- A DRAM port: in service, held in self-refresh across a reset or a power state, being cleared after full training,
the 1 MiB granules already cleared, the patrol's block (R611 to R621, R734, R816). -/
structure DramPort where
  service : Bool
  retained : Bool
  clearing : Bool
  cleared : List Nat
  patrol : Nat
  deriving DecidableEq, Repr

/-! ### The interconnect (spec/01) -/

/-- An error response: master, address, direction, CAUSE (Tables 1.10 to 1.12). -/
structure ErrRec where
  master : Nat
  addr : Nat
  write : Bool
  cause : Nat
  deriving DecidableEq, Repr

/-- A register written in a tick, its value before that tick's writes, and whether the Trivet was among the writers. -/
structure RegWrite where
  addr : Nat
  tick : Nat
  before : Word
  trivet : Bool
  deriving DecidableEq, Repr

/-- What the interconnect holds beside its log: the error responses of the tick `errAt`, latest first, and whether the error
held in the log is one of them (R52 to R54); HART_ECC_CORR of both halves (R608); and, newest first, the latest writes of registers
whose value before the write still counts for a clock or two (R275, R353, R432, R452, R573, R575, R587). -/
structure Fabric where
  errAt : Nat
  errs : List ErrRec
  errHeld : Bool
  eccK : Nat
  eccP : Nat
  wrote : List RegWrite
  deriving DecidableEq, Repr

/-! ### Reset and power (spec/16) -/

/-- Where a half stands in reset: held, releasing (waits for its PLLs), running (R725). -/
inductive Phase where
  | held
  | releasing
  | running
  deriving DecidableEq, Repr

/-- Where the chip's release sequence stands (Table 16.5, Table 16.13): held in a Level 0 or 1 reset, waiting for
the fuse load, waiting for the Trivet ROM boot, in the fuse-fault hold, done, and powered down in SLEEP. -/
inductive Stage where
  | held
  | fuses
  | rom
  | hold
  | done
  | asleep
  deriving DecidableEq, Repr

/-- A half as reset and power see it: its PWREN output high, whether its rails are still to come up after that, its
phase, the isolation line, and the cause of the T9 due at its release (0 none). -/
structure HalfRst where
  powered : Bool
  rising : Bool
  phase : Phase
  isolated : Bool
  recast : Nat
  deriving DecidableEq, Repr

/-- A reset that a KCP RESET or a RECAST holds: level, target and index by the codes of R656. -/
structure KReset where
  level : Nat
  target : Nat
  index : Nat
  deriving DecidableEq, Repr

/-- The reset sources and sequences: sources asserted, Level 2 latches, the resets that KCP commands hold, whether the
widest chip reach since the chip's reset began is Level 0, whether the Vault's power-up wipe is due, the stage, the
halves (R725 to R734), and whether VDD_AON or VDDIO_0 has left its range with no AON release since (R685). -/
structure Rst where
  asserted : Nat
  latched : Nat
  kcp : List KReset
  full : Bool
  powerUp : Bool
  stage : Stage
  k : HalfRst
  p : HalfRst
  dark : Bool
  deriving DecidableEq, Repr

/-! ### Sleep and wake (spec/10) -/

/-- A chain of keep-alives of one node (R524): its address or identifier, whether it is a CAN identifier, its source
code, s, the epoch at s, the keep-alives since s, and the number of the log entry when one has been written. -/
structure Episode where
  addr : Nat
  can : Bool
  src : Nat
  start : Nat
  epoch : Nat
  count : Nat
  entry : Option Nat
  deriving DecidableEq, Repr

/-- A wake event of the device: its CAUSE_TYPE, the segment, or the user source plus 16 × the mailbox channel, and the
halves it powers (bit 0 Knit, bit 1 Purl). -/
structure WakeReq where
  typ : Nat
  idx : Nat
  power : Nat
  deriving DecidableEq, Repr

/-- A wake segment: the raw count of its last local keep-alive in ticks of `now`, its episode, its next entry number, a
request that waits for the end of bind-off, and the check for valid traffic after a data-path wake, with the deadline and
the power state to return to, as state + 4 × the half of SOLO (R506, R512, R520, R524). -/
structure Seg where
  lastKa : Nat
  episode : Option Episode
  entries : Nat
  want : Bool
  check : Option (Nat × Nat)
  deriving DecidableEq, Repr

/-- The WAKE block: segments; wake events that wait for the device to wake; the halves whose release the wake in progress
still awaits, the power state it left and its events (R499, R520); user-path wakes that wait for valid communication with
their deadlines, by source + 16 × channel (R522); and the CXn_WAKE pulses that are high, with their starts (R519). -/
structure Wake where
  segs : List (Nat × Seg)
  pend : List WakeReq
  waking : Nat
  prev : Nat
  ends : List WakeReq
  valid : List (Nat × Nat)
  pulses : List (Nat × Nat)
  deriving DecidableEq, Repr

/-! ### Host interfaces (spec/14) -/

/-- Where a UDP command came from: plane, port of arrival, MAC address, IPv4 address and UDP port. -/
structure UdpFrom where
  half : Nat
  port : Nat
  mac : Nat
  ip : Nat
  udp : Nat
  deriving DecidableEq, Repr

/-- An outstanding command: transport, session, TAG, OPCODE, ORDERED, parameters, arrival and deadline in ticks of
`now`, ring slot (on UDP the key slot of its datagram), origin on UDP, whether its execution has started, whether it has committed, whether its reply is
discarded. -/
structure KCmd where
  tr : Nat
  sess : Nat
  tag : Nat
  op : Nat
  ordered : Bool
  params : List Byte
  arrived : Nat
  deadline : Nat
  slot : Nat
  origin : Option UdpFrom
  started : Bool
  committed : Bool
  mute : Bool
  deriving DecidableEq, Repr

/-- An open session: whether it holds SAFETY, the key slot that gave it, the time of its last command, its nonce with
its time of issue, the key slot it was opened with, one more than the highest SEQ accepted (0 none), its own last SEQ (R646 to R650). -/
structure Session where
  safety : Bool
  proved : Nat
  last : Nat
  nonce : Option (Nat × Nat)
  slot : Nat
  rxSeq : Nat
  txSeq : Nat
  deriving DecidableEq, Repr

/-- A transport: up, consecutive wrong proofs, the end of its lock (R649). -/
structure Transport where
  up : Bool
  fails : Nat
  lockEnd : Nat
  deriving DecidableEq, Repr

/-- The command and reply FIFO of a QSPI host port or of the legacy bus, the bytes of a packet taken from the command
FIFO and not yet complete, and whether an error address is held since the last clearing of the status (R637, R664, R667). -/
structure ByteStream where
  cmd : List Byte
  rsp : List Byte
  part : List Byte
  eaddr : Bool
  deriving DecidableEq, Repr

/-- An open image handle: kind, target, size, the bytes sent (R655). -/
structure Image where
  handle : Nat
  kind : Nat
  target : Nat
  size : Nat
  data : List Byte
  deriving DecidableEq, Repr

/-- An effect that waits for t_KCP_SELF after its reply (R643, R732, R760). -/
inductive SelfEffect where
  | reset (r : KReset)
  | recast (h : Half)
  | power (state half : Nat)
  | lifecycle (word value : Nat)
  deriving DecidableEq, Repr

/-- An entry of the MSI-X table. -/
structure MsixEntry where
  addr : Nat
  data : Nat
  masked : Bool
  deriving DecidableEq, Repr

/-- A configured PTP instance: engine, domain, instance block (R440). -/
structure PtpInst where
  ne : Nat
  dom : Nat
  block : List Byte
  deriving DecidableEq, Repr

/-- The KCP engine and the host ports: outstanding commands in order of arrival; sessions by 16 × transport + number;
transports; byte streams of transports 2 to 4; replies that wait for their slot or FIFO (transport, slot, bytes); images; effects that wait, with the
time of their reply; one more than the highest SEQ accepted on SESSION 0 by key slot; ring descriptors as the host sees them by 32 × half + slot, and as a doorbell captured them at 64 more; MSI-X
entries by 32 × half + vector, the vectors that are active, and the PBA; the legacy window base, its write latch and its read
latch; the configured PTP instances, and the profile blocks accepted by engine. -/
structure Kcp where
  cmds : List KCmd
  sess : List (Nat × Session)
  tports : List (Nat × Transport)
  streams : List (Nat × ByteStream)
  ready : List (Nat × Nat × List Byte)
  images : List Image
  waits : List (Nat × SelfEffect)
  seq0 : List (Nat × Nat)
  desc : List (Nat × RingDesc)
  msix : List (Nat × MsixEntry)
  active : Nat
  pba : Nat
  lbWin : Nat
  lbWr : Nat
  lbRd : Nat
  ptp : List (Nat × PtpInst)
  profiles : List (Nat × List Byte)
  deriving DecidableEq, Repr

/-! ### Security (spec/17) -/

/-- A fuse word that is being programmed: word, value, and whether a lifecycle transition follows (R760, R764). -/
structure FuseJob where
  word : Nat
  value : Nat
  lifecycle : Bool
  deriving DecidableEq, Repr

/-- Fuses and boot: the fuse array, copy c of word w at 3w + c as data × 2^16 + CRC; the simmer-lock elements, element e
of TL port p in bit 3p + e (R738); the programmed words as voted at the
last load or read back since; the words that wait for programming, oldest first; the bytes of the boot flashes, Purl at 2^24
(R735 to R740, R762, R769). -/
structure Sec where
  array : List (Nat × Nat)
  simmer : Nat
  voted : List (Nat × Nat)
  jobs : List FuseJob
  flash : List (Nat × Byte)
  deriving DecidableEq, Repr

/-! ### Pins (spec/16, spec/18) -/

/-- Pins: the levels of the straps as tied, SAFEDEF in bit 8 (R739); the low levels of PORn and SRSTn, TAMPERn and FREEZE are
commands; the pads that have left their reset state (R743), as 64 × half + pad; the classes of the VDDIO banks, 1 for
1.8 V and 2 for 3.3 V (R711). -/
structure Pins where
  straps : Nat
  left : List Nat
  classes : List (Nat × Nat)
  deriving DecidableEq, Repr

/-! ### Gauge (spec/08) -/

/-- A parameter set of a domain: anchor A, base time B (seconds, nanoseconds, 2^-16 ns), rate r (R412). -/
structure DomSet where
  anchor : Nat
  sec : Nat
  ns : Nat
  frac : Nat
  rate : Int
  deriving DecidableEq, Repr

/-- A domain: the set in force, the earlier set, and the instant C of a pending commit (R417, R419). -/
structure Dom where
  cur : DomSet
  prev : DomSet
  pend : Option Nat
  deriving DecidableEq, Repr

/-- What a read of GAUGE_DOM_NS latches for its master (R415). -/
structure DomLatch where
  sec : Nat
  frac : Nat
  raw : Nat
  deriving DecidableEq, Repr

/-- A master's conversion registers of a domain: the raw count written, and the result (R417). -/
structure Conv where
  rawLo : Nat
  rawHi : Nat
  ns : Nat
  sec : Nat
  frac : Nat
  err : Bool
  deriving DecidableEq, Repr

/-- The correction registers of a timestamp port as they were until the raw count `ended` (R436). -/
structure TscOld where
  port : Nat
  ended : Nat
  ctrl : Word
  adj : Word
  deriving DecidableEq, Repr

/-- The Gauge: the domains, the per-master latches (raw high word by master; domain latches and conversions by
4 × master + domain), the raw count of each compare unit's last event (plus one), the ends of the PPS pulses, the output fault of code 0x51 (Table 15.9, bit 8),
and earlier values of the timestamp corrections, newest first (R436). -/
structure Gauge where
  doms : List (Nat × Dom)
  rawHi : List (Nat × Nat)
  latches : List (Nat × DomLatch)
  convs : List (Nat × Conv)
  fired : List (Nat × Nat)
  pps0 : Option Nat
  pps1 : Option Nat
  fault : Bool
  tsc : List TscOld
  deriving DecidableEq, Repr

/-! ### CAN XL controllers and DTT (spec/09) -/

/-- One stitch entry of a Pattern (Table 4.15). -/
structure Stitch where
  ident : Nat
  owner : Nat
  flags : Nat
  rowBase : Nat
  rowRep : Nat
  deriving DecidableEq, Repr

/-- An installed Pattern (Table 4.15), lengths in Gauge ticks. -/
structure Pattern where
  rows : Nat
  localNode : Nat
  rowLen : Nat
  stitchLen : Nat
  actionOfs : Nat
  precision : Nat
  driftLimit : Nat
  minislots : Nat
  minislotLen : Nat
  nit : Nat
  listenBase : Nat
  listenStep : Nat
  refIds : List Nat
  startIds : List Nat
  stitches : List Stitch
  deriving DecidableEq, Repr

/-- A full event buffer of a CX controller; buffers stand in filling order (R455). -/
structure CxBuf where
  frame : CxFrame
  deriving DecidableEq, Repr

/-- A written stitch buffer: its data and the raw count at which its write completed (R483, R484). -/
structure StitchBuf where
  data : List Byte
  ready : Nat
  deriving DecidableEq, Repr

/-- One CX controller: event buffers, stitch buffers by stitch, the Pattern, the protocol exception state, bus-off and
whether its recovery runs, whether the channel counts as up; and the DTT node: the end of the listen timer (0: not
running), the SOF stamp of a start reference that is being sent, Q of the Row, k - 1 in units of 2^-32, the Row
number, whether this Row is the first after integration, whether the previous Row and this Row accepted a reference,
the runs of excess corrections and of missed Rows, whether a reference SOF was seen in this Row and this node's own
was sent, whether it sends start references, and the stitches of this Row already counted (R455 to R492). -/
structure Cx where
  bufs : List CxBuf
  stitch : List (Nat × StitchBuf)
  pattern : Option Pattern
  pxe : Bool
  busOff : Bool
  recovering : Bool
  up : Bool
  listenEnd : Nat
  startSof : Option Nat
  q : Nat
  rate : Int
  row : Nat
  firstRow : Bool
  prevRef : Bool
  gotRef : Bool
  corrRun : Nat
  missRun : Nat
  refSeen : Bool
  refSent : Bool
  startRefs : Bool
  counted : List Nat
  deriving DecidableEq, Repr

/-! ### Needle engines (spec/03, spec/04) -/

/-- An input staged in receive staging (Table 3.4), with the raw count of its staging. -/
structure RxInput where
  source : Nat
  status : Nat
  flow : Nat
  stamp : Nat
  data : List Byte
  since : Nat
  aged : Bool
  deriving DecidableEq, Repr

/-- A pending event other than a staged input: its priority of Table 3.9, its index, its event code of Table 4.9,
its context where the source fixes one, the F0 it starts with, and the raw count from which it is pending. -/
structure Pend where
  prio : Nat
  idx : Nat
  code : Nat
  ctx : Nat
  f0 : Nat
  since : Nat
  aged : Bool
  deriving DecidableEq, Repr

/-- A Needle timer: whether it is armed, its expiry, interval and mode, its bound context, and of its TMR entry MODE,
INTERVAL and PHASE (Table 4.14, R233, R241, R242). -/
structure Timer where
  armed : Bool
  expiry : Nat
  interval : Nat
  periodic : Bool
  ctx : Nat
  mode : Nat
  ival : Nat
  phase : Nat := 0
  deriving DecidableEq, Repr

/-- A running context of the action unit: the context index, the state and action index it executes, the call
stack, the field registers, the state SETST names, the transition's NEXT, the words executed, the word it waits on
(opcode and fields), and its staged input. -/
structure ActCtx where
  ctx : Nat
  state : Nat
  pc : Nat
  stack : List Nat
  f : List Dword
  setst : Option Nat
  nextSt : Option Nat
  words : Nat
  wait : Option (Nat × ActWord)
  input : Option RxInput
  deriving DecidableEq, Repr

/-- The inline frame that passes: its entry port (0 A, 1 B), its bytes, its stamp, the offset of the window,
whether it was received with a good FCS, whether INLSKIP has released bytes, its latency in ns, whether the transmit side
runs out of bytes before it ends, and the input staged for it, if cells were free (R153, R186, R187, R237). -/
structure InlFrame where
  port : Nat
  bytes : List Byte
  stamp : Nat
  window : Nat
  good : Bool
  released : Bool
  lat : Nat
  late : Bool
  input : Option RxInput
  deriving DecidableEq, Repr

/-- A DMA transfer in flight: channel, context, direction, area and offset for a read, the physical address, the bytes of a
write, the length, whether a completion event is asked, the staged input whose cells it reads, and whether it is one write of
its 16 bytes (R230 to R232). -/
structure Dma where
  chan : Nat
  ctx : Nat
  write : Bool
  area : Nat
  off : Nat
  addr : Nat
  bytes : List Byte
  len : Nat
  notify : Bool
  src : Option RxInput
  whole : Bool
  deriving DecidableEq, Repr

/-- What the engine holds of its loaded Recipe: header fields and the places of its sections (R196 to R200). -/
structure Recipe where
  inline : Bool
  initState : Nat
  inlAct : Nat
  inlCtx : Nat
  descFrame : Nat
  descCan : Nat
  descInline : Nat
  fmt : Nat
  nfmt : Nat
  state : Nat
  nstate : Nat
  ntrans : Nat
  act : Nat
  nact : Nat
  tpl : Nat
  tplLen : Nat
  const : Nat
  constLen : Nat
  pat : Nat
  patLen : Nat
  digest : Nat
  roll : Nat
  deriving DecidableEq, Repr

/-- A Recipe load: the image, the KCP command that asked for it (transport and tag), and whether checks 0x01 to 0x03 have
passed, so that the engine is LOADING (R161, R246). -/
structure Load where
  image : List Byte
  tr : Nat
  tag : Nat
  verified : Bool
  deriving DecidableEq, Repr

/-- A Needle engine: inputs staged and not yet taken, oldest first; pending events in arrival order; the event
and the inline context; the inline frame in it, and those that have begun to pass and wait for it; timers by number; DMA in
flight; frames queued for insertion (port, bytes); the build buffer (a byte past its end is 0) and the build length; the
Recipe; a load in progress; when it entered STOPPING; how often it has staged anything, the last staging in the receive and
in the transmit area, and the offsets written there since (R150, R154); and the doorbell bits that a write of the tick set
again while they were set (R16). -/
structure Engine where
  rx : List RxInput
  pend : List Pend
  evt : Option ActCtx
  inl : Option ActCtx
  frame : Option InlFrame
  passing : List InlFrame
  timers : List (Nat × Timer)
  dma : List Dma
  inserts : List (Nat × List Byte)
  build : List Byte
  blen : Nat
  recipe : Option Recipe
  load : Option Load
  stopAt : Nat
  stageNo : Nat
  rxNo : Option Nat
  txNo : Option Nat
  fresh : List Nat
  rangAt : Nat
  rang : Nat
  deriving DecidableEq, Repr

/-! ### Ports and switch planes (spec/06, spec/07) -/

/-- What a MAC and its physical layer hold beside their registers, times in ticks of `now`: the end of a received
pause, whether the plane's XOFF has been announced and when the last PAUSE frame was sent, whether an XON PAUSE is
due, the end of the running bring-up wait (link-fail wait, auto-negotiation retry, speed change; 0 none), whether
the link is held down for half duplex (R264), one more than the raw count of the last statistics boundary
taken (R298), and whether a frame was in transmission when a pause, a speed change or a PAUSE frame that is due began to
hold later frames (R285, R289, R337). -/
structure Port where
  pauseEnd : Nat
  announced : Bool
  lastPause : Nat
  xonDue : Bool
  waitEnd : Nat
  held : Bool
  bound : Nat
  begun : Bool
  deriving DecidableEq, Repr

/-- A frame that waits to enter a plane: its ingress port, its bytes from the destination address to the last byte
before the FCS, its receive STAMP, from SP9, SP10 or SP11, the class, egress mask, colour (0 green, 1 yellow,
2 red) and redundancy sequence number that come with it (R348, R399), the Needle engine whose transmit cells hold it (R229),
and on an external port the eighths of a tick of its timestamp (R437) and its counting instant (R299). -/
structure InFrame where
  ingress : Nat
  bytes : List Byte
  stamp : Nat
  cls : Nat
  mask : Nat
  colour : Nat
  seq : Option Nat
  engine : Option Nat
  phase : Nat := 0
  ended : Nat := 0
  deriving DecidableEq, Repr

/-- A copy in the packet buffer: ingress port, egress port, class, bytes, cells, STAMP, colour, FLOW, Needle mask,
STATUS, the RED code of its entry, its sequence number, and how many of its cells have moved to the output. -/
structure PCopy where
  inp : Nat
  outp : Nat
  cls : Nat
  bytes : List Byte
  cells : Nat
  stamp : Nat
  colour : Nat
  flow : Nat
  needle : Nat
  status : Nat
  red : Nat
  seq : Option Nat
  moved : Nat
  deriving DecidableEq, Repr

/-- An entry of the duplicate table (R390): source address, sequence number, S1, LAN or path, HOLD, the egress
ports that carried the sequence, the time of creation, and the held copies. -/
structure DupEnt where
  sa : Nat
  seq : Nat
  s1 : Nat
  lan : Nat
  hold : Bool
  mask : Nat
  born : Nat
  held : List PCopy
  deriving DecidableEq, Repr

/-- Time-aware gates of a port, times in nanoseconds of the domain: the cycle start at which the admin bank takes
over, the first cycle start of the operational list and whether it has come, and after a commit of the domain the
former set with the end of its cycle (R378, R382, R384). -/
structure GateRun where
  swapAt : Option Nat
  first : Nat
  started : Bool
  held : Option (DomSet × Nat)
  deriving DecidableEq, Repr

/-- A switch plane: frames waiting to enter, oldest first; the copies of all virtual output queues, oldest first;
copies handed to an egress whole, oldest first; the instants at which the cells of each transmit FIFO leave it;
grant pointers by 8 × output + class and accept pointers by input; the start of the read port; matches not yet
read (input, output, class); AVG of each account in 1/256 cells; the LFSR; the deficits of each meter's committed and peak
bucket in 1/125 byte; the duplicate table, oldest first; the gates by port (R344 to R400). -/
structure Plane where
  inq : List InFrame
  voq : List PCopy
  handed : List PCopy
  fifo : List (Nat × Nat)
  grantPtr : List (Nat × Nat)
  acceptPtr : List (Nat × Nat)
  readPos : Nat
  unread : List (Nat × Nat × Nat)
  avg : List (Nat × Nat)
  lfsr : Nat
  meter : List (Nat × (Nat × Nat))
  dup : List DupEnt
  gate : List (Nat × GateRun)
  deriving DecidableEq, Repr

/-! ### Hook engines (spec/11) -/

/-- What a Hook engine holds beside its registers: the FIFOs, oldest first; the word PULL moved last; the divider's
accumulator in 1/256 HOOK clocks; the start of the next cycle in which it acts, in ticks of `now`; the address of the next
instruction once that in progress has acted; the cycles since a WAIT began; the levels and directions it has written to
pins of the half; the number (plus one) of the HOOK clock of the last FIFO access, the levels of the FIFOs at its start, and what
that clock has made of the threshold event: 0 nothing, 1 it became pending, 2 it merged (R556); the number (plus one) of the HOOK
clock of the last change of RUN, and whether the engine was STOPPED at its start (R552) (R529 to R557). -/
structure Hook where
  tx : List Word
  rx : List Word
  last : Word
  div : Nat
  due : Nat
  next : Option Nat
  waited : Nat
  out : Nat
  oe : Nat
  clk : Nat
  rx0 : Nat
  tx0 : Nat
  thr : Nat
  sw : Nat
  was : Bool
  deriving DecidableEq, Repr

/-! ### What the block answers and sends -/

/-- The answer to the last bus access: the bytes read as a number (0 for a write), or an error response with its
CAUSE (Table 1.10), or the responses WRITE_LOST and DATA_ERR, which are no error responses (R566), or the
access fault that a hart raises itself without an access (Table 13.2). -/
inductive Resp where
  | ok (v : Nat)
  | err (cause : Nat)
  | writeLost
  | dataErr
  | accessFault
  deriving DecidableEq, Repr

/-- A bank access that waits for zeroing: an access on a port, or an AMO of a hart with its operation, whether it is of
8 bytes, its address and its operand (R577, R604). -/
inductive SpadReq where
  | access (o : SpadOp)
  | amo (hart : Nat) (op : AmoOp) (wide : Bool) (addr : Nat) (v : Nat)
  deriving DecidableEq, Repr

/-- The address of a waiting access. -/
def SpadReq.addr : SpadReq → Nat
  | .access o => o.addr
  | .amo _ _ _ a _ => a

/-- What leaves the block. -/
inductive Output where
  /-- A frame on the line of a port (0 to 23), from the destination address to the FCS. -/
  | frame (port : Nat) (bytes : List Byte)
  /-- The base page that a TL port advertises when auto-negotiation starts: whether it offers 2.4 Vpp, else it requests 1.0 Vpp,
  and its role, 0 none, 1 leader, 2 follower (R819). -/
  | page (port : Nat) (able24 : Bool) (role : Nat)
  /-- A frame to a hart or to host DMA through SP10 of a half: STAMP and bytes. -/
  | sp10 (half : Nat) (stamp : Nat) (bytes : List Byte)
  /-- A frame on a CAN channel. -/
  | can (ctl : Nat) (f : CxFrame)
  /-- A heartbeat flit launched by a half (Table 2.5): its body and its CRC. -/
  | heartbeat (half : Nat) (words : List Nat)
  /-- A message that a half (0, 1) or the hub (2) sends on the segment of a half: its 144-bit flits, the header first (R89,
  R90). -/
  | message (origin : Nat) (seg : Nat) (flits : List Nat)
  /-- A flit that the hub passes on to the segment of a half, and whether it passes it to the Trivet too (R88). -/
  | relayed (seg : Nat) (flit : Nat) (trivet : Bool)
  /-- A twin heartbeat: INDEX, whether the chip has a holder, whether it has twin charge. -/
  | twin (index : Nat) (cand holds : Bool)
  /-- A PDU released by the Colander: stream, release point, bytes. -/
  | released (stream : Nat) (rp : Nat) (bytes : List Byte)
  /-- A KCP reply on a transport. -/
  | reply (transport : Nat) (bytes : List Byte)
  /-- A write to host memory by a PCIe endpoint: address, bytes. -/
  | hostWrite (half : Nat) (addr : Nat) (bytes : List Byte)
  /-- The completion of a read by a PCIe endpoint: its bytes, or none with Completer Abort status (R37). -/
  | completion (half : Nat) (bytes : Option (List Byte))
  /-- An MSI-X message of a half: address and data. -/
  | msix (half : Nat) (addr : Nat) (data : Nat)
  /-- What a read answered one of several masters that read in the same cycle: master and value (R595). -/
  | answer (master : Nat) (value : Nat)
  /-- Bytes answered on the QSPI or legacy bus of a half. -/
  | lanes (half : Nat) (bytes : List Byte)
  deriving DecidableEq, Repr

/-- The state of the block. `now` counts 2 ns ticks and never stops; `raw` is the Gauge's raw counter, which runs
while `rawOn`; `free` counts the free values used; `resp` is the answer to the last access, `respA` to the access
of port A beside it; `spadWait` holds the bank accesses that wait for zeroing (R577), `sweep` when the Sweep began the blocks under test (half 0, 1) and the latest blocks (2 + half)
with their start (R579), `wipe` the cause of a Vault wipe in progress (R584); `alive` the last toggle of the alive line (R124); `out` holds what has left
the block, latest first; `pending` is the queue of commands. -/
structure State where
  pending : List Instr
  now : Nat
  raw : Nat
  rawOn : Bool
  free : Nat
  resp : Option Resp
  respA : Option Resp
  out : List Output
  regs : List (Nat × Word)
  mem : List Host.Cell
  spadWait : List SpadReq
  sweep : List (Nat × Nat)
  wipe : Option Nat
  trivetLost : Bool
  alive : Nat
  chg : Charge
  epK : Endpoint
  epP : Endpoint
  ia : Ia
  resync : Option Resync
  appK : Option AppImage
  appP : Option AppImage
  stagedK : Option Digests
  stagedP : Option Digests
  twin : Twin
  col : Colander
  larder : Larder
  harts : List (Nat × Hart)
  dramK : DramPort
  dramP : DramPort
  rst : Rst
  gauge : Gauge
  cx : List (Nat × Cx)
  ne : List (Nat × Engine)
  hk : List (Nat × Hook)
  ports : List (Nat × Port)
  planeK : Plane
  planeP : Plane
  wake : Wake
  kcp : Kcp
  sec : Sec
  pins : Pins
  fabric : Fabric
  deriving DecidableEq, Repr

/-! ### The unit states that a reset leaves -/

/-- An engine with nothing staged, pending or running. -/
def Engine.init : Engine :=
  { rx := [], pend := [], evt := none, inl := none, frame := none, passing := [], timers := [], dma := [],
    inserts := [], build := [], blen := 0, recipe := none, load := none, stopAt := 0, stageNo := 0, rxNo := none,
    txNo := none, fresh := [], rangAt := 0, rang := 0 }

/-- A timer without a TMR entry: disarmed, bound to context 0 (R241). -/
def Timer.init : Timer :=
  { armed := false, expiry := 0, interval := 0, periodic := false, ctx := 0, mode := 0, ival := 0, phase := 0 }

/-- A CX controller without frames or Pattern. -/
def Cx.init : Cx :=
  { bufs := [], stitch := [], pattern := none, pxe := false, busOff := false, recovering := false, up := false,
    listenEnd := 0, startSof := none, q := 0, rate := 0, row := 0, firstRow := false, prevRef := false,
    gotRef := false, corrRun := 0, missRun := 0, refSeen := false, refSent := false, startRefs := false, counted := [] }

/-- A Hook engine with empty FIFOs that drives nothing. -/
def Hook.init : Hook :=
  { tx := [], rx := [], last := 0, div := 0, due := 0, next := none, waited := 0, out := 0, oe := 0, clk := 0,
    rx0 := 0, tx0 := 0, thr := 0, sw := 0, was := true }

/-- A port that is not paused and waits for nothing. -/
def Port.init : Port :=
  { pauseEnd := 0, announced := false, lastPause := 0, xonDue := false, waitEnd := 0, held := false, bound := 0,
    begun := false }

/-- A gate list that has not started. -/
def GateRun.init : GateRun := { swapAt := none, first := 0, started := false, held := none }

/-- An empty plane, its LFSR loaded from the reset value of its seed (R370, R402). -/
def Plane.init : Plane :=
  { inq := [], voq := [], handed := [], fifo := [], grantPtr := [], acceptPtr := [], readPos := 0, unread := [],
    avg := [], lfsr := 0xACE1, meter := [], dup := [], gate := [] }

/-- The parameter set after a Level 0 or 1 reset (R414). -/
def DomSet.init : DomSet := { anchor := 0, sec := 0, ns := 0, frac := 0, rate := 0 }

/-- A domain after a Level 0 or 1 reset. -/
def Dom.init : Dom := { cur := DomSet.init, prev := DomSet.init, pend := none }

/-- A latch that nothing has latched reads 0 (R415). -/
def DomLatch.init : DomLatch := { sec := 0, frac := 0, raw := 0 }

/-- Conversion registers that no conversion has written. -/
def Conv.init : Conv := { rawLo := 0, rawHi := 0, ns := 0, sec := 0, frac := 0, err := false }

/-- The Gauge after a Level 0 or 1 reset. -/
def Gauge.init : Gauge :=
  { doms := [], rawHi := [], latches := [], convs := [], fired := [], pps0 := none, pps1 := none, fault := false, tsc := [] }

/-- A hart after the reset of its half. -/
def Hart.init : Hart :=
  { mtimecmp := 2 ^ 64 - 1, en0 := 0, en1 := 0, latched := 0, mtip := false, halted := false, csrs := [] }

/-- A wake segment with no history. -/
def Seg.init : Seg := { lastKa := 0, episode := none, entries := 0, want := false, check := none }

/-- The WAKE block with nothing under way. -/
def Wake.init : Wake :=
  { segs := [], pend := [], waking := 0, prev := 0, ends := [], valid := [], pulses := [] }

/-- A byte stream with empty FIFOs. -/
def ByteStream.init : ByteStream := { cmd := [], rsp := [], part := [], eaddr := false }

/-- A transport that is down. -/
def Transport.init : Transport := { up := false, fails := 0, lockEnd := 0 }

/-- A descriptor that nothing has written. -/
def RingDesc.init : RingDesc := { cmdAddr := 0, cmdLen := 0, rspMax := 0, rspAddr := 0, rspLen := 0 }

/-- An MSI-X entry at reset: masked, as the PCI Express specification has it. -/
def MsixEntry.init : MsixEntry := { addr := 0, data := 0, masked := true }

/-- The KCP engine with nothing outstanding. -/
def Kcp.init : Kcp :=
  { cmds := [], sess := [], tports := [], streams := [], ready := [], images := [], waits := [], seq0 := [], desc := [],
    msix := [], active := 0, pba := 0, lbWin := 0, lbWr := 0, lbRd := 0, ptp := [], profiles := [] }

/-- A charge state of INIT with no history (Tables 2.12, 2.13). -/
def HalfChg.init : HalfChg :=
  { st := .init, cause := 0, fromSt := 0, toSt := 0, count := 0, resync := false, probation := false, update := false }

/-- Charge after a Level 0 or 1 reset: no holder. -/
def Charge.init : Charge :=
  { holder := 0, grant := 0, mode := .none, k := HalfChg.init, p := HalfChg.init, granted := false, bothPairs := false,
    lineK := none, lineP := none, window := none, service := none, last := none, performed := none, decided := none }

/-- A segment on which nothing has been sent. -/
def Segment.init : Segment := { seqs := [], busy := [], capAt := 0, used5 := 0, used8 := 0, buffer := [], again := [] }

/-- An endpoint after reset. -/
def Endpoint.init : Endpoint :=
  { hbSeq := 0, msgSeq := 0, stateCopy := 0, suppressed := false, lastSeq := none, outValid := false, hbAt := 0,
    diffRun := 0, seg := Segment.init, unhealthy := none }

/-- A half that takes no part in an agreement. -/
def IaHalf.init : IaHalf := { part := false, await := false, snap := [], relayed := false }

/-- Input agreement after reset. -/
def Ia.init : Ia :=
  { trig := 0, c0 := 0, holder := 0, commitSent := false, counted := false, k := IaHalf.init, p := IaHalf.init,
    rerun := none, bad := false, clean := 0 }

/-- The TWIN link after reset. -/
def Twin.init : Twin := { misses := 0, peerLow := false, at_ := 0, window := none }

/-- The Colander after reset. -/
def Colander.init : Colander :=
  { qk := [], qp := [], test := none, again := [], due := false, lastPer := 0, waiting := [] }

/-- An empty snapshot store. -/
def LStore.init : LStore := { next := 0, seq := 0, snaps := [], job := none, stopped := false }

/-- The Larder after reset. -/
def Larder.init : Larder :=
  { cyc := LStore.init, fast := LStore.init, evtNext := 0, evtSeq := 0, held := [], evtStopped := false, waiting := [],
    dropped := false, freeze := none }

/-- A DRAM port that is not trained. -/
def DramPort.init : DramPort := { service := false, retained := false, clearing := false, cleared := [], patrol := 0 }

/-- The interconnect with no error of this tick. -/
def Fabric.init : Fabric := { errAt := 0, errs := [], errHeld := false, eccK := 0, eccP := 0, wrote := [] }

/-- A half with its rails on, in reset, not isolated. -/
def HalfRst.init : HalfRst := { powered := true, rising := false, phase := .held, isolated := false, recast := 0 }

/-! ### The state after reset -/

/-- One fuse copy with data 0 and its CRC. -/
def fuseZero : Nat := crc16 [0, 0, 0, 0]

/-- The words programmed at test (R736, case 2), as the model has them: the identifier and the provisioning key with data 0,
in three copies (DESIGN CHOICE, log entry 5). -/
def factoryFuses : List (Nat × Nat) :=
  ((List.range 12).map fun k => (k, fuseZero)) ++ (List.range 24).map fun k => (714 + k, fuseZero)

/-- The state right after reset: a Level 0 reset has been released in the AON domain, the fuse controller loads, and everything
below is held (Tables 16.5, 16.13). Every register reads its reset value; PWR_RAIL shows every supervisor released, since
the cast-on sequence goes on. -/
def State.reset : State :=
  { pending := [], now := 0, raw := 0, rawOn := false, free := 0, resp := none, respA := none, out := []
    regs := [(A.PWR_RAIL, 0xFFF)], mem := [], spadWait := [], sweep := [], wipe := none, trivetLost := false, alive := 0
    chg := Charge.init, epK := Endpoint.init, epP := Endpoint.init, ia := Ia.init, resync := none
    appK := none, appP := none, stagedK := none, stagedP := none, twin := Twin.init, col := Colander.init
    larder := Larder.init, harts := [], dramK := DramPort.init, dramP := DramPort.init
    rst := { asserted := 0, latched := 0, kcp := [], full := true, powerUp := true, stage := .fuses
             k := HalfRst.init, p := HalfRst.init, dark := false }
    gauge := Gauge.init, cx := [], ne := [], hk := [], ports := [], planeK := Plane.init, planeP := Plane.init
    wake := Wake.init, kcp := Kcp.init
    sec := { array := factoryFuses, simmer := 0, voted := [], jobs := [], flash := [] }
    pins := { straps := 0, left := [], classes := [] }, fabric := Fabric.init }

end Sys2Proof.Machine
end

