-- ==== Sys2Proof/Machine/Store.lean ====
section
/-! DEFINITION. Sparse data by key: a list of (key, value) pairs, keys strictly rising, no pair equal to what an
unlisted key reads as. Registers, memory bytes and the units' hidden state are held in this form. -/

namespace Sys2Proof.Machine

/-- The value listed for key `k`, if any. -/
def storeFind {α : Type} : List (Nat × α) → Nat → Option α
  | [], _ => none
  | (j, v) :: m, k => if j = k then some v else storeFind m k

/-- The value of key `k`; an unlisted key reads as `d`. -/
def storeGet {α : Type} (d : α) (m : List (Nat × α)) (k : Nat) : α := (storeFind m k).getD d

/-- `m` without key `k`. -/
def storeErase {α : Type} (m : List (Nat × α)) (k : Nat) : List (Nat × α) := m.filter fun kv => kv.1 != k

/-- `m` with `v` listed for key `k`, keys kept rising. -/
def storeInsert {α : Type} : List (Nat × α) → Nat → α → List (Nat × α)
  | [], k, v => [(k, v)]
  | (j, w) :: m, k, v =>
    if k < j then (k, v) :: (j, w) :: m
    else if k = j then (k, v) :: m
    else (j, w) :: storeInsert m k v

/-- `m` with `v` written to key `k`, in canonical form for the default `d`. -/
def storePut {α : Type} [DecidableEq α] (d : α) (m : List (Nat × α)) (k : Nat) (v : α) : List (Nat × α) :=
  if v = d then storeErase m k else storeInsert m k v

/-- `m` with every key for which `p` holds taken back to its default. -/
def storeClear {α : Type} (p : Nat → Bool) (m : List (Nat × α)) : List (Nat × α) := m.filter fun kv => !p kv.1

/-- The canonical form: keys strictly rising, and no pair equal to the default of its key. -/
def storeWf {α : Type} [DecidableEq α] (d : Nat → α) : List (Nat × α) → Bool
  | [] => true
  | [(k, v)] => v != d k
  | (k, v) :: (j, w) :: m => v != d k && k < j && storeWf d ((j, w) :: m)

end Sys2Proof.Machine
end

