-- ==== Sys2Proof/Machine/Ops.lean ====
section
/-! DEFINITION. The named operations over registers, memory and the units' hidden state. -/

namespace Sys2Proof.Machine
open Sys2Proof

/-! ### The register map -/

/-- The register table of the block that an address lies in (Tables 1.7, 1.8). -/
def regTabOf (a : Nat) : List RegDesc :=
  let page := a / 0x10000
  if page = 0x3000 then regTabSYS
  else if page = 0x3001 then regTabRST
  else if page = 0x3002 then regTabPWR
  else if page = 0x3003 then regTabTRV
  else if page = 0x3004 then regTabTEN
  else if page = 0x3005 then regTabCOL
  else if page = 0x3300 then regTabGAUGE
  else if page = 0x3301 then regTabMBX
  else if page = 0x3302 then regTabWAKE
  else if page = 0x3303 then regTabSEC
  else if page = 0x3304 then regTabLARDER
  else if page / 0x100 = 0x31 ∨ page / 0x100 = 0x32 then
    match page % 0x100 with
    | 0 => regTabMAC ++ regTabRG
    | 1 => regTabTL
    | 2 => regTabSD
    | 4 => regTabSW
    | 5 => regTabSW
    | 6 => regTabCX
    | 7 => regTabHK ++ regTabHKP
    | 8 => regTabNE
    | 10 => regTabSPAD
    | 11 => regTabDRAM
    | 12 => regTabHOST
    | _ => []
  else []

/-- Whether an offset is that of an instance, given the counts and strides of the indices. -/
def dimsHit : List (Nat × Nat) → Nat → Bool
  | [], off => off == 0
  | (n, st) :: ds, off => off / st < n && dimsHit ds (off % st)

/-- The indices of the instance at an offset. -/
def dimsIdx : List (Nat × Nat) → Nat → List Nat
  | [], _ => []
  | (_, st) :: ds, off => off / st :: dimsIdx ds (off % st)

/-- The register at an address, if the block's chapter assigns one there. -/
def regDesc? (a : Nat) : Option RegDesc :=
  (regTabOf a).find? fun d => d.base ≤ a && dimsHit d.dims (a - d.base)

/-- The indices of the register at an address, largest stride first. -/
def regIdx (d : RegDesc) (a : Nat) : List Nat := dimsIdx d.dims (a - d.base)

/-- The word that the Reset column of a register spells. -/
def descReset (d : RegDesc) : Word :=
  d.fields.foldl (fun w f => fput ⟨f.hi, f.lo⟩ w f.reset) 0

/-- What a register that nothing has written reads as: its Reset value (R11). Vector s of HI_VEC resets to s
(R676). -/
def regDefault (a : Nat) : Word :=
  match regDesc? a with
  | none => 0
  | some d => if d.base = A.HI_VEC 0 0 then BitVec.ofNat 32 ((a - d.base) % 0x1000000 / 4) else descReset d

/-- The stored value of a register. -/
def State.rd (s : State) (a : Nat) : Word := storeGet (regDefault a) s.regs a

/-- The state with a register's stored value replaced. -/
def State.wr (s : State) (a : Nat) (w : Word) : State := { s with regs := storePut (regDefault a) s.regs a w }

/-- The stored value of a register as a number. -/
def State.rdn (s : State) (a : Nat) : Nat := (s.rd a).toNat

/-- The state with a register's stored value replaced by a number. -/
def State.wrn (s : State) (a v : Nat) : State := s.wr a (BitVec.ofNat 32 v)

/-- A field of a register. -/
def State.fld (s : State) (a : Nat) (f : Fld) : Nat := fget f (s.rd a)

/-- Whether a field of a register is not 0. -/
def State.flag (s : State) (a : Nat) (f : Fld) : Bool := s.fld a f != 0

/-- The state with a field of a register set. -/
def State.setf (s : State) (a : Nat) (f : Fld) (v : Nat) : State := s.wr a (fput f (s.rd a) v)

/-- The state with a one-bit field set to 1 or 0. -/
def State.setb (s : State) (a : Nat) (f : Fld) (b : Bool) : State := s.setf a f (b2n b)

/-- The state with a count register advanced by 1, stopping at 0xFFFF_FFFF (R145). -/
def State.inc (s : State) (a : Nat) : State := s.wr a (satSucc (s.rd a))

/-- The state with a field advanced by 1 modulo its width. -/
def State.incMod (s : State) (a : Nat) (f : Fld) : State := s.setf a f (s.fld a f + 1)

/-- The state with a field advanced by 1, stopping at its largest value. -/
def State.incSat (s : State) (a : Nat) (f : Fld) : State :=
  if s.fld a f + 1 < 2 ^ fldWidth f then s.setf a f (s.fld a f + 1) else s

/-- A 64-bit value held in a low and a high register. -/
def State.rd64 (s : State) (lo hi : Nat) : Nat := s.rdn lo + 2 ^ 32 * s.rdn hi

/-- The state with a 64-bit value put into a low and a high register. -/
def State.wr64 (s : State) (lo hi v : Nat) : State := (s.wrn lo v).wrn hi (v / 2 ^ 32)

/-- The state with every register of an address range for which `p` holds at its Reset value. -/
def State.resetRegs (s : State) (p : Nat → Bool) : State := { s with regs := storeClear p s.regs }

/-! ### Memory -/

/-- What a byte of memory that nothing has written reads as: zero. Banks are zeroed on release (R577), Needle
memory and the Vault are zero after reset or wipe (R149, R584), and DRAM is cleared after training (R816). -/
def memDefault : Byte := 0

/-- The canonical form of memory: addresses strictly rising, and no entry equal to what an unlisted address reads as. -/
def Memory.wf (m : List Host.Cell) : Bool := storeWf (fun _ => memDefault) m

/-- The byte at an address. -/
def State.mb (s : State) (a : Nat) : Byte := storeGet memDefault s.mem a

/-- The state with one byte of memory written. -/
def State.putb (s : State) (a : Nat) (b : Byte) : State := { s with mem := storePut memDefault s.mem a b }

/-- `n` bytes of memory from an address. -/
def State.mbs (s : State) (a n : Nat) : List Byte := (List.range n).map fun i => s.mb (a + i)

/-- `n` bytes of memory as a little-endian number. -/
def State.mrd (s : State) (a n : Nat) : Nat := leNat (s.mbs a n)

/-- The state with bytes written to memory from an address. -/
def State.putbs (s : State) (a : Nat) : List Byte → State
  | [] => s
  | b :: bs => (s.putb a b).putbs (a + 1) bs

/-- The state with every byte of an address range [lo, hi) zero. -/
def State.clearMem (s : State) (lo hi : Nat) : State :=
  { s with mem := storeClear (fun a => lo ≤ a && a < hi) s.mem }

/-- The memory is in its canonical form: addresses rising, no byte listed that reads as an unlisted one does. -/
abbrev State.memWf (s : State) : Prop := storeWf (fun _ => memDefault) s.mem = true

/-! ### Answers, outputs, free values, time -/

/-- The state that has answered an access with a value. -/
def State.ok (s : State) (v : Nat) : State := { s with resp := some (.ok v) }

/-- The state that has sent something. -/
def State.emit (s : State) (o : Output) : State := { s with out := o :: s.out }

/-- The state that has sent something on a field output of a half; isolation keeps it off the field (R701, R702). -/
def State.emitField (s : State) (h : Half) (o : Output) : State :=
  if (match h with | .k => s.rst.k | .p => s.rst.p).isolated then s else s.emit o

/-- The master ID of the Trivet, sole writer of TRV registers (Table 1.14). -/
def trivet : Nat := 1

/-- A register, the value of which still counts for a clock or two, is about to be written by master m; what counts no more is
dropped. -/
def State.noteBefore (s : State) (m a : Nat) : State :=
  let x := s.fabric
  let l := x.wrote.filter fun e => decide (s.now < e.tick + 2)
  let now := fun (e : RegWrite) => decide (e.addr = a ∧ e.tick = s.now)
  let l := if l.any now then l.map fun e => if now e then { e with trivet := e.trivet || m == trivet } else e
    else ⟨a, s.now, s.rd a, m == trivet⟩ :: l
  { s with fabric := { x with wrote := l } }

/-- A register as it was before the writes of the last `n` ticks, this one included. -/
def State.rdWithin (s : State) (n a : Nat) : Nat :=
  match (s.fabric.wrote.filter fun e => decide (e.addr = a ∧ s.now < e.tick + n)).getLast? with
  | some e => e.before.toNat
  | none => s.rdn a

/-- A register as it was before the writes of this tick. -/
def State.rdBefore (s : State) (a : Nat) : Nat := s.rdWithin 1 a

/-- A field of a register as it was before the writes of this tick. -/
def State.fldBefore (s : State) (a : Nat) (f : Fld) : Nat := fget f (BitVec.ofNat 32 (s.rdBefore a))

/-- A register has been written in this tick. -/
def State.wroteNow (s : State) (a : Nat) : Bool :=
  s.fabric.wrote.any fun e => decide (e.addr = a ∧ e.tick = s.now)

/-- The Trivet is among the masters that have written a register in this tick. -/
def State.trivetWrote (s : State) (a : Nat) : Bool :=
  s.fabric.wrote.any fun e => decide (e.addr = a ∧ e.tick = s.now) && e.trivet

/-- Hardware updates a register, unless a write of the same tick replaces the value (R432). -/
def State.wrUnlessWritten (s : State) (a v : Nat) : State := if s.wroteNow a then s else s.wrn a v

/-- The next free value. -/
def State.freeVal (s : State) : Nat := Config.free s.free

/-- The state that has used a free value. -/
def State.useFree (s : State) : State := { s with free := s.free + 1 }

/-- Ticks of 2 ns in a microsecond and in a millisecond. -/
def usTicks : Nat := 500
def msTicks : Nat := 500000

/-- A raw count as the 64-bit counter holds it (R403). -/
def rawMod (v : Nat) : Nat := v % 2 ^ 64

/-! ### The units' hidden state -/

/-- A Needle engine, 0 to 23. -/
def State.eng (s : State) (i : Nat) : Engine := storeGet Engine.init s.ne i
def State.putEng (s : State) (i : Nat) (e : Engine) : State := { s with ne := storePut Engine.init s.ne i e }
def State.mapEng (s : State) (i : Nat) (f : Engine → Engine) : State := s.putEng i (f (s.eng i))

/-- A CX controller, 0 to 7. -/
def State.can (s : State) (c : Nat) : Cx := storeGet Cx.init s.cx c
def State.putCan (s : State) (c : Nat) (x : Cx) : State := { s with cx := storePut Cx.init s.cx c x }
def State.mapCan (s : State) (c : Nat) (f : Cx → Cx) : State := s.putCan c (f (s.can c))

/-- A Hook engine, 0 to 15. -/
def State.hook (s : State) (e : Nat) : Hook := storeGet Hook.init s.hk e
def State.putHook (s : State) (e : Nat) (x : Hook) : State := { s with hk := storePut Hook.init s.hk e x }
def State.mapHook (s : State) (e : Nat) (f : Hook → Hook) : State := s.putHook e (f (s.hook e))

/-- A port, 12 × half + switch port. -/
def State.port (s : State) (p : Nat) : Port := storeGet Port.init s.ports p
def State.putPort (s : State) (p : Nat) (x : Port) : State := { s with ports := storePut Port.init s.ports p x }
def State.mapPort (s : State) (p : Nat) (f : Port → Port) : State := s.putPort p (f (s.port p))

/-- The plane of a half. -/
def State.plane (s : State) : Half → Plane
  | .k => s.planeK
  | .p => s.planeP
def State.putPlane (s : State) (h : Half) (x : Plane) : State :=
  match h with
  | .k => { s with planeK := x }
  | .p => { s with planeP := x }
def State.mapPlane (s : State) (h : Half) (f : Plane → Plane) : State := s.putPlane h (f (s.plane h))

/-- The charge record of a half. -/
def Charge.half (c : Charge) : Half → HalfChg
  | .k => c.k
  | .p => c.p
def Charge.putHalf (c : Charge) (h : Half) (x : HalfChg) : Charge :=
  match h with
  | .k => { c with k := x }
  | .p => { c with p := x }

/-- The charge state of a half (R73). -/
def State.chgOf (s : State) (h : Half) : ChgState := (s.chg.half h).st

/-- Whether a half is in CHARGE or STANDBY. -/
def State.inService (s : State) (h : Half) : Bool :=
  s.chgOf h == .charge || s.chgOf h == .standby

/-- The Tension endpoint of a half. -/
def State.ep (s : State) : Half → Endpoint
  | .k => s.epK
  | .p => s.epP
def State.putEp (s : State) (h : Half) (x : Endpoint) : State :=
  match h with
  | .k => { s with epK := x }
  | .p => { s with epP := x }
def State.mapEp (s : State) (h : Half) (f : Endpoint → Endpoint) : State := s.putEp h (f (s.ep h))

/-- The DRAM port of a half. -/
def State.dram (s : State) : Half → DramPort
  | .k => s.dramK
  | .p => s.dramP
def State.putDram (s : State) (h : Half) (x : DramPort) : State :=
  match h with
  | .k => { s with dramK := x }
  | .p => { s with dramP := x }

/-- Reset and power of a half. -/
def State.hrst (s : State) : Half → HalfRst
  | .k => s.rst.k
  | .p => s.rst.p
def State.putHrst (s : State) (h : Half) (x : HalfRst) : State :=
  match h with
  | .k => { s with rst := { s.rst with k := x } }
  | .p => { s with rst := { s.rst with p := x } }

/-- A half is powered and out of its Level 2 reset (R47). -/
def State.running (s : State) (h : Half) : Bool := (s.hrst h).powered && (s.hrst h).phase == .running

/-- A hart, 0 K0, 1 K1, 2 P0, 3 P1. -/
def State.hart (s : State) (h : Nat) : Hart := storeGet Hart.init s.harts h
def State.putHart (s : State) (h : Nat) (x : Hart) : State := { s with harts := storePut Hart.init s.harts h x }
def State.mapHart (s : State) (h : Nat) (f : Hart → Hart) : State := s.putHart h (f (s.hart h))

/-- A source of MIRQ_PEND1 that is cleared by MIRQ_CLR1 becomes pending in the harts for which `f` holds (R609). -/
def State.hartLatch (s : State) (f : Nat → Bool) (bit : Nat) : State :=
  (List.range 4).foldl (fun s h =>
    if f h then s.mapHart h fun x => { x with latched := x.latched ||| 2 ^ bit } else s) s

/-- A time domain, 0 to 3. -/
def State.dom (s : State) (d : Nat) : Dom := storeGet Dom.init s.gauge.doms d
def State.putDom (s : State) (d : Nat) (x : Dom) : State :=
  { s with gauge := { s.gauge with doms := storePut Dom.init s.gauge.doms d x } }

/-- The half with an index. -/
def halfOf (n : Nat) : Half := if n = 0 then .k else .p

/-- The half a master belongs to, if one (Table 1.14, R428). -/
def masterHalf (m : Nat) : Option Half :=
  if m = 2 ∨ m = 3 ∨ (0x10 ≤ m ∧ m < 0x1C) ∨ (0x30 ≤ m ∧ m < 0x38) ∨ m = 0x40 ∨ m = 0x42 ∨ m = 0x44 then some .k
  else if m = 4 ∨ m = 5 ∨ (0x1C ≤ m ∧ m < 0x28) ∨ (0x38 ≤ m ∧ m < 0x40) ∨ m = 0x41 ∨ m = 0x43 then some .p
  else none

end Sys2Proof.Machine
end

