-- ==== Sys2Proof/Machine/Flags.lean ====
section
/-! DEFINITION. Status flags and the records behind them: fault classes, the fault log and its latches, the
Larder's event queue and freeze, the active fault conditions, and the bus-error log (spec/01, spec/13, spec/15). -/

namespace Sys2Proof.Machine
open Sys2Proof

/-- The code of a charge state (Table 2.1, R73). -/
def ChgState.code : ChgState → Nat
  | .init => 0
  | .candidate => 1
  | .charge => 2
  | .standby => 3
  | .demoted => 4
  | .service => 5
  | .lost => 6

/-- The code of MODE (Table 2.11). -/
def ChgMode.code : ChgMode → Nat
  | .none => 0
  | .two => 1
  | .one => 2

/-- The HOLDER code of a half (Table 2.11). -/
def holderCode : Half → Byte
  | .k => 0xA5
  | .p => 0x5A

/-- ORIGIN of a fault-log entry (Table 15.3). -/
def originHalf (h : Half) : Nat := h.n
def originShared : Nat := 2
def originTwin : Nat := 3

/-! ### Larder event records (R626 to R629) -/

/-- An event record, stamped now, waits to be written while the Larder records. -/
def State.larderEvent (s : State) (typ cls source : Nat) (payload ext : List Byte) : State :=
  if s.flag A.LARDER_CTRL F.LARDER_CTRL.EN then
    { s with larder := { s.larder with waiting := s.larder.waiting ++
      [{ typ := typ, cls := cls, source := source, epoch := s.rdn A.GAUGE_EPOCH, raw := s.raw,
         payload := padTo 40 payload, ext := ext }] } }
  else s

/-- A network event named in a chapter (TYPE 0x03); the layout of its payload is not given (R626). -/
def State.netEvent (s : State) (source kind : Nat) : State :=
  s.larderEvent 3 0xFF source (Config.evtPayload 3 source kind) []

/-- A freeze trigger (R628, R629): the first holds the freeze at this instant; a further one is counted and
recorded. Nothing is frozen while the Larder does not record. -/
def State.freezeTrigger (s : State) : State :=
  if s.flag A.LARDER_CTRL F.LARDER_CTRL.EN then
    match s.larder.freeze with
    | some _ => (s.inc A.LARDER_FRZ_IGNORED).larderEvent 5 0xFF 0 (Config.evtPayload 5 0 0) []
    | none =>
      let frz : Freeze :=
        ⟨s.raw, s.rdn (A.LARDER_PRE_N 0), s.rdn (A.LARDER_POST_N 0), s.rdn (A.LARDER_PRE_N 1), s.rdn (A.LARDER_POST_N 1)⟩
      let s : State := { s with larder := { s.larder with freeze := some frz } }
      (s.setb A.LARDER_STATUS F.LARDER_STATUS.FROZEN true).wr64 A.LARDER_FRZ_AT_LO A.LARDER_FRZ_AT_HI s.raw
  else s

/-! ### Faults (R678 to R681) -/

/-- The eight words of a fault-log entry (Table 15.3). -/
def faultWords (seq code cls origin source raw epoch d5 d6 d7 : Nat) : List Nat :=
  [seq % 2 ^ 32, code * 2 ^ 24 + cls * 2 ^ 21 + origin * 2 ^ 16 + source, raw % 2 ^ 32, raw / 2 ^ 32, epoch,
   d5, d6, d7]

/-- The state with words put into consecutive registers from an address. -/
def State.wrWords (s : State) (a : Nat) : List Nat → State
  | [] => s
  | w :: ws => (s.wrn a w).wrWords (a + 4) ws

/-- A fault of Table 15.2 (R678, R680, R681): it is counted in its class; unless TRIVET_LOST is asserted, an entry
is written; the Larder receives the same content; F3 and F4 set their latch and trigger a freeze. -/
def State.faultD (s : State) (code cls origin source d5 d6 d7 : Nat) : State :=
  let ws := faultWords (s.rdn A.SYS_FLT_WSEQ) code cls origin source s.raw (s.rdn A.GAUGE_EPOCH) d5 d6 d7
  let s := s.inc (A.SYS_FLT_CNT cls)
  let s := if s.trivetLost then s else
    (s.wrWords (A.SYS_FLT_SLOT (s.rdn A.SYS_FLT_WSEQ % 256) 0) ws).incMod A.SYS_FLT_WSEQ F.SYS_FLT_WSEQ.SEQ
  let s := s.larderEvent 1 cls source (ws.flatMap (leBytes 4)) []
  let s := if cls = 3 then s.setb A.SYS_FLT_LATCH F.SYS_FLT_LATCH.F3 true
           else if cls = 4 then s.setb A.SYS_FLT_LATCH F.SYS_FLT_LATCH.F4 true else s
  if 3 ≤ cls ∧ s.flag A.LARDER_FREEZE F.LARDER_FREEZE.EN_FAULT then s.freezeTrigger else s

/-- A fault whose DETAIL words are 0. -/
def State.fault (s : State) (code cls origin source : Nat) : State := s.faultD code cls origin source 0 0 0

/-- A diagnostic of class F3 detected in a half (R78): a half in CHARGE or STANDBY reports HEALTHY = 0 with its code
and T5 logs it; in any other state it is logged with class F2. -/
def State.diagF3 (s : State) (h : Half) (code source d5 d6 : Nat) : State :=
  if s.inService h then s.mapEp h fun e => { e with unhealthy := some (e.unhealthy.getD ⟨code, source, d5, d6, 0⟩) }
  else s.faultD code 2 (originHalf h) source d5 d6 0

/-! ### Bus errors (R49 to R54) -/

/-- The three log registers hold an error, with VALID (R50). -/
def State.logErr (s : State) (e : ErrRec) : State :=
  let s := s.wrn A.SYS_BUSERR_INFO (2 ^ 31 + e.cause * 2 ^ 9 + b2n e.write * 2 ^ 8 + e.master % 256)
  (s.wrn A.SYS_BUSERR_ADDR_LO e.addr).wrn A.SYS_BUSERR_ADDR_HI (e.addr / 2 ^ 32 % 256)

/-- The error responses of this tick, which are those of one cycle (log entry 1), and whether the log holds one of them. -/
def State.errsNow (s : State) : List ErrRec := if s.fabric.errAt = s.now then s.fabric.errs else []
def State.errHeldNow (s : State) : Bool := s.fabric.errAt == s.now && s.fabric.errHeld

/-- The error of the lowest master ID among some of one cycle (R52). -/
def lowestErr (e : ErrRec) (es : List ErrRec) : ErrRec := es.foldl (fun x y => if y.master < x.master then y else x) e

/-- A hart takes an exception: `mcause` and `mtval` (R36); the codes are those of the RISC-V privileged architecture. -/
def State.hartExc (s : State) (k code tval : Nat) : State :=
  s.mapHart k fun x => { x with csrs := storePut 0 (storePut 0 x.csrs 0x342 code) 0x343 tval }

/-- An error response to a master's access (R50 to R52): it is counted; while VALID is 0 it is recorded, VALID is set and an F0
event raised; of several in one cycle the one with the lowest master ID is recorded. A hart takes it as a load or store
access fault (R36). -/
def State.busErr (s : State) (master addr : Nat) (write : Bool) (cause : Nat) : State :=
  let e : ErrRec := ⟨master, addr, write, cause⟩
  let es := s.errsNow
  let held := s.errHeldNow
  let valid := s.flag A.SYS_BUSERR_INFO F.SYS_BUSERR_INFO.VALID
  let s := { s with resp := some (.err cause) }
  let s := if 2 ≤ master ∧ master ≤ 5 then s.hartExc (master - 2) (if write then 7 else 5) addr else s
  let s := s.inc A.SYS_BUSERR_CNT
  let s := { s with fabric := { s.fabric with errAt := s.now, errs := e :: es, errHeld := held || !valid } }
  if !valid then (s.logErr e).faultD 0x90 0 originShared master (addr % 2 ^ 32) (addr / 2 ^ 32) 0
  else if held ∧ master < s.fld A.SYS_BUSERR_INFO F.SYS_BUSERR_INFO.MASTER then s.logErr e
  else s

/-- VALID is written 1 (R53): with error responses in the same cycle, VALID reads 1 and the log holds the one of the lowest
master ID, which raises its F0 event unless one of the cycle has. -/
def State.busErrClear (s : State) : State :=
  match s.errsNow with
  | [] => s.setf A.SYS_BUSERR_INFO F.SYS_BUSERR_INFO.VALID 0
  | e :: es =>
    if s.errHeldNow then s
    else
      let e := lowestErr e es
      let s := { s with fabric := { s.fabric with errHeld := true } }
      (s.logErr e).faultD 0x90 0 originShared e.master (e.addr % 2 ^ 32) (e.addr / 2 ^ 32) 0

/-- SYS_BUSERR_CNT is written: the error responses of the same cycle count on from the value (R54). -/
def State.busErrCount (s : State) (v : Nat) : State := s.wrn A.SYS_BUSERR_CNT (min 0xFFFFFFFF (v + s.errsNow.length))

/-- CAUSE codes of Table 1.10. -/
def cUnmapped : Nat := 0
def cMisaligned : Nat := 1
def cPerm : Nat := 2
def cTrv : Nat := 3
def cOff : Nat := 4
def cLink : Nat := 5
def cLock : Nat := 6

/-- The value that an access delivers: what it read; 0 for a write, and for a read that received an error response (R35) or
that did not take place. -/
def Resp.value : Resp → Nat
  | .ok v => v
  | .err _ => 0
  | .writeLost => 0
  | .dataErr => 0
  | .accessFault => 0

end Sys2Proof.Machine
end

