-- ==== Sys2Proof/Machine/Operands.lean ====
section
/-! DEFINITION. The operand forms of an access: the address map, who may reach what, and what a write does to a
register's fields by their access types (spec/00 R8 to R16, R810, R811; spec/01 R32 to R48, R812; spec/12, spec/13). -/

namespace Sys2Proof.Machine
open Sys2Proof

/-- The regions of Tables 1.7 and 1.8, each with what names the target in it. -/
inductive Region where
  | rom
  | bank (h : Half)
  | vault
  | needle (i : Nat)
  | block (h : Half)
  | shared
  | dk
  | dp
  | unmapped
  deriving DecidableEq, Repr

/-- Bases of the memory regions (Table 1.7). -/
def bankBase : Nat := 0x10000000
def vaultBase : Nat := 0x18000000
def needleBase : Nat := 0x20000000
def dkBase : Nat := 0x1000000000
def dpBase : Nat := 0x1200000000

/-- Where the Trivet's 128 KiB of RAM stand in memory: beyond the address space, since no bus access reaches them (R25). -/
def trvRamBase : Nat := 0x10000000000

/-- The region of an address (Tables 1.7, 1.8). -/
def regionOf (a : Nat) : Region :=
  if a < 0x20000 then .rom
  else if bankBase ≤ a ∧ a < 0x10400000 then .bank (halfOf ((a - bankBase) / 0x200000))
  else if vaultBase ≤ a ∧ a < 0x18040000 then .vault
  else if needleBase ≤ a ∧ a < 0x21800000 then .needle ((a - needleBase) / 0x100000)
  else if 0x30000000 ≤ a ∧ a < 0x30060000 then .shared
  else if 0x31000000 ≤ a ∧ a < 0x31100000 then .block .k
  else if 0x32000000 ≤ a ∧ a < 0x32100000 then .block .p
  else if 0x33000000 ≤ a ∧ a < 0x33050000 then .shared
  else if dkBase ≤ a ∧ a < dpBase then .dk
  else if dpBase ≤ a ∧ a < 0x1400000000 then .dp
  else .unmapped

/-- The base of a Needle window, of its local memory, TCAM and timer view (R149). -/
def neWin (i : Nat) : Nat := needleBase + 0x100000 * i

/-- The half of a Needle or Hook engine, a CX controller or a port, by its number and the count in a half. -/
def unitHalf (n per : Nat) : Half := halfOf (n / per)

/-- A number of bytes and an address that make a naturally aligned access of 1, 2, 4 or 8 bytes. -/
def natural (a n : Nat) : Bool := (n == 1 || n == 2 || n == 4 || n == 8) && a % n == 0

/-- The Tension segment of a half is up. -/
def State.segUp (s : State) (h : Half) : Bool :=
  s.flag A.TEN_STATUS (match h with | .k => F.TEN_STATUS.SEG_K_UP | .p => F.TEN_STATUS.SEG_P_UP)

/-- The MISS field of a half. -/
def missFld : Half → Fld
  | .k => F.TEN_STATUS.MISS_K
  | .p => F.TEN_STATUS.MISS_P

/-- The Tension link joins the halves: both segments are up. -/
def State.linkUp (s : State) : Bool := s.segUp .k && s.segUp .p

/-- Why an access to a half's own regions cannot reach it: the half is off or in reset, or the link it is carried
over is down (R44, R47). -/
def State.halfErr (s : State) (m : Nat) (h : Half) : Option Nat :=
  if masterHalf m = some h then none
  else if !s.running h then some cOff
  else if (masterHalf m).isSome && !s.linkUp then some cLink
  else none

/-- The master IDs of Table 1.14. No master presents another (R58), so an entry that names another matches no access
(R59). -/
def isMaster (m : Nat) : Bool :=
  (1 ≤ m && m ≤ 5) || (0x10 ≤ m && m < 0x28) || (0x30 ≤ m && m < 0x40) || (0x40 ≤ m && m ≤ 0x44) || m == 0x48 || m == 0x49

/-! ### Scratchpad permission (R567 to R576) -/

/-- The bit of a master's group in a window's masks (Table 12.3); none for the Trivet and for masters the table
does not name. -/
def masterGroup (m : Nat) : Option Nat :=
  if 2 ≤ m ∧ m ≤ 5 then some (m - 2)
  else if 0x10 ≤ m ∧ m < 0x28 then some 4
  else if m = 0x40 then some 5
  else if m = 0x41 then some 6
  else if m = 0x42 then some 7
  else if m = 0x43 then some 8
  else if m = 0x44 then some 9
  else if m = 0x48 then some 10
  else if m = 0x49 then some 11
  else none

/-- A field of a window register as accesses see it: a write takes effect in the second `NE` clock after it (R573). -/
def State.winFld (s : State) (a : Nat) (f : Fld) : Nat := fget f (BitVec.ofNat 32 (s.rdWithin 2 a))

/-- Window w of half h is enabled, covers n bytes from offset off, and grants the direction to master m (R569). -/
def State.winGrants (s : State) (h w m off n : Nat) (write : Bool) : Bool :=
  let lo := s.winFld (A.SPAD_WIN_BASE h w) F.SPAD_WIN_BASE.BASE * 4096
  let sz := s.winFld (A.SPAD_WIN_SIZE h w) F.SPAD_WIN_SIZE.SIZE * 4096
  let mask := s.winFld (A.SPAD_WIN_GRANT h w) (if write then F.SPAD_WIN_GRANT.WR else F.SPAD_WIN_GRANT.RD)
  s.winFld (A.SPAD_WIN_BASE h w) F.SPAD_WIN_BASE.EN == 1 && lo ≤ off && off + n ≤ lo + sz &&
  match masterGroup m with
  | none => false
  | some g => bitAt mask g &&
      (g != 4 || bitAt (s.winFld (A.SPAD_WIN_NE h w) F.SPAD_WIN_NE.NE) (m - 0x10))

/-- Some window grants the access (R570); with `rot`, some such window has ROT = 1 (R567). -/
def State.spadGrant (s : State) (h : Half) (m off n : Nat) (write rot : Bool) : Bool :=
  (List.range 64).any fun w =>
    s.winGrants h.n w m off n write && (!rot || s.winFld (A.SPAD_WIN_BASE h.n w) F.SPAD_WIN_BASE.ROT == 1)

/-- 6412 mode is on (SYS_MODE.M6412). -/
def State.mode6412 (s : State) : Bool := s.flag A.SYS_MODE F.SYS_MODE.M6412

/-! ### Masters that are not always present (R60, Tables 1.14 and 17.1) -/

/-- A voted fuse word; none when it is unprogrammed. -/
def State.fuse (s : State) (w : Nat) : Option Nat := storeFind s.sec.voted w

/-- The lifecycle state in force (R755). -/
def State.lc (s : State) : Nat := s.fld A.SEC_LC F.SEC_LC.STATE

/-- The half in which an address lies; JTAG reaches the boot ROM of Knit (R34). -/
def addrHalf (a : Nat) : Option Half :=
  match regionOf a with
  | .rom => some .k
  | .bank h => some h
  | .block h => some h
  | .needle i => some (unitHalf i 12)
  | .dk => some .k
  | .dp => some .p
  | _ => none

/-- DEBUG_UNLOCK holds for a half (R774). -/
def State.unlocked (s : State) (h : Half) : Bool :=
  s.flag A.SEC_DEBUG (match h with | .k => F.SEC_DEBUG.UNLOCK_K | .p => F.SEC_DEBUG.UNLOCK_P)

/-- JTAG may access an address in the lifecycle state in force (Table 17.1). -/
def State.debugMay (s : State) (a : Nat) : Bool :=
  let off := bitAt ((s.fuse 67).getD 0) 0
  if s.lc = 0 then true
  else if s.lc = 1 then !off
  else if s.lc = 3 then !off && match addrHalf a with
    | some h => s.unlocked h
    | none => s.unlocked .k || s.unlocked .p
  else false

/-- A master is present: one of Table 1.14 (R58), the legacy bus in 6412 mode only (R60), JTAG where debug is permitted. An
access of a master that is not present cannot occur, and changes nothing. -/
def State.presented (s : State) (m a : Nat) : Bool :=
  isMaster m && (if m = 0x44 then s.mode6412 else if m = 0x49 then s.debugMay a else true)

/-- The error an access to a bank receives, if any: it crosses banks, is unaligned without ROT, is not granted, or
writes a bank of another owner in 6412 mode (R562, R568, R570, R574). -/
def State.spadErr (s : State) (m a n : Nat) (write : Bool) : Option Nat :=
  let h := halfOf ((a - bankBase) / 0x200000)
  let off := (a - bankBase) % 0x200000
  let bank := (a - bankBase) / 0x20000
  let perm := s.flag (A.SPAD_CTRL h.n) F.SPAD_CTRL.PERM_EN
  if a < bankBase ∨ 0x10400000 < a + n then some cUnmapped
  else match s.halfErr m h with
  | some c => some c
  | none =>
    if n = 0 ∨ 8 < n ∨ a / 0x20000 ≠ (a + n - 1) / 0x20000 then some cMisaligned
    else if !(natural a n) && !(perm && m != trivet && s.spadGrant h m off n write true) then some cMisaligned
    else if perm && m != trivet && !s.spadGrant h m off n write false then some cPerm
    else if write && s.mode6412 && h == .k && m != trivet && m != s.fldBefore (A.BANK_OWNER 0 bank) F.BANK_OWNER.OWNER
    then some cPerm
    else none

/-! ### Vault and Needle windows -/

/-- A delegation lets the master do this (R582). -/
def State.delegated (s : State) (m a n : Nat) (write : Bool) : Bool :=
  (List.range 8).any fun j =>
    let base := s.fld (A.VAULT_DEL_BASE j) F.VAULT_DEL_BASE.BASE * 4096
    let size := s.fld (A.VAULT_DEL_CFG j) F.VAULT_DEL_CFG.SIZE * 4096
    let off := a - vaultBase
    s.flag (A.VAULT_DEL_BASE j) F.VAULT_DEL_BASE.EN && s.fld (A.VAULT_DEL_CFG j) F.VAULT_DEL_CFG.MASTER == m &&
    s.flag (A.VAULT_DEL_CFG j) (if write then F.VAULT_DEL_CFG.WR else F.VAULT_DEL_CFG.RD) &&
    base ≤ off && off + n ≤ base + size

/-- The error a Vault access receives, if any (R582, R584, R812). -/
def State.vaultErr (s : State) (m a n : Nat) (write : Bool) : Option Nat :=
  if !natural a n then some cMisaligned
  else if s.flag A.VAULT_STATUS F.VAULT_STATUS.WIPING then some cOff
  else if m = trivet ∨ s.delegated m a n write then none
  else some cPerm

/-- The run states of a Needle engine as NE_STATUS.STATE codes them (Table 3.5). -/
def neOff : Nat := 0
def neStopped : Nat := 1
def neLoading : Nat := 2
def neRunning : Nat := 3
def neStopping : Nat := 4
def neFaulted : Nat := 5

/-- A reset holds a Needle engine: the Level 2 reset or the power of its half, or a Level 3 reset of its group or a Level 4 reset
of itself (Table 3.6). -/
def State.neHeld (s : State) (i : Nat) : Bool :=
  !s.running (unitHalf i 12) || s.rst.kcp.any fun r =>
    (r.level == 3 && r.target == 2 && r.index == i / 12) || (r.level == 4 && r.target == 6 && r.index == i)

/-- The run state of a Needle engine: OFF while a reset holds it (Table 3.6). -/
def State.neState (s : State) (i : Nat) : Nat :=
  if s.neHeld i then neOff else s.fld (A.NE_STATUS i) F.NE_STATUS.STATE

/-- An access of a Needle engine to blocks or windows of the half h, which is not its own: its DMA reaches nothing of the other
half but its scratchpad (R177). The rule names no CAUSE; the model takes 0b010 (DESIGN CHOICE, log entry 49). -/
def dmaStray (m : Nat) (h : Half) : Bool :=
  decide (0x10 ≤ m) && decide (m < 0x28) && masterHalf m != some h

/-- The error an access to a Needle window receives, if any (R149, R150, R46, R812). The engine's own master ID
writes its context and staging areas. A misaligned access to an unassigned offset meets R35 and R812 both: the model
answers CAUSE 0b000 (DESIGN CHOICE, log entry 49). A Needle of the other half reaches a window only through its DMA, which
reads and writes the other half's scratchpad alone (R177). -/
def State.needleErr (s : State) (m a n : Nat) (write : Bool) : Option Nat :=
  let i := (a - needleBase) / 0x100000
  let off := (a - needleBase) % 0x100000
  let loadable := s.neState i == neStopped || s.neState i == neLoading
  match s.halfErr m (unitHalf i 12) with
  | some c => some c
  | none =>
    if dmaStray m (unitHalf i 12) then some cPerm
    else if off < 0x18000 then
      if !natural a n then some cMisaligned
      else if !write then none
      else if m = trivet then
        if loadable ∨ off < 0x1000 then none else some cPerm
      else if m = 0x10 + i ∧ off < 0x6800 then none
      else some cPerm
    else if 0x20000 ≤ off ∧ off < 0x21000 then
      if !natural a n then some cMisaligned
      else if !write then none
      else if m = trivet ∧ loadable then none else some cPerm
    else if 0x30000 ≤ off ∧ off < 0x30100 then
      if !natural a n then some cMisaligned
      else if !write then none
      else if (masterHalf m).isSome ∧ masterHalf m ≠ some (unitHalf i 12) then some cPerm
      else none
    else some cUnmapped

/-! ### DRAM (R39 to R43, R47, R611, R619, R620) -/

/-- The capacity of a port in bytes (Table 13.5). -/
def State.dramCap (s : State) (h : Half) : Nat :=
  if s.flag (A.DRAM_CFG h.n) F.DRAM_CFG.DENSITY ∨ s.flag (A.DRAM_CFG h.n) F.DRAM_CFG.RANKS then 2 ^ 33 else 2 ^ 32

/-- Mirroring is on. -/
def State.mirrorOn (s : State) : Bool := s.flag (A.DRAM_MIRROR 0) F.DRAM_MIRROR.EN

/-- The mirror's state (Table 13.6). -/
def State.mirrorState (s : State) : Nat := s.fld (A.DRAM_MIRROR 0) F.DRAM_MIRROR.STATE
def mirSync : Nat := 1
def mirDegraded : Nat := 2
def mirResilver : Nat := 3

/-- A port is trained; it may still be being refilled. -/
def State.trained (s : State) (h : Half) : Bool := s.flag (A.DRAM_STATUS h.n) F.DRAM_STATUS.TRAINED

/-- The half named by HOLDER, if one. -/
def State.holder (s : State) : Option Half :=
  if s.chg.holder = holderCode .k then some .k else if s.chg.holder = holderCode .p then some .p else none

/-- The port that serves a read of the mirrored range (R42, Table 13.6). -/
def State.mirrorRead (s : State) (m : Nat) : Option Half :=
  let svc := fun h => (s.dram h).service
  let any := if svc .k then some .k else if svc .p then some .p else none
  let want := match masterHalf m with
    | some h => some h
    | none => s.holder
  match want with
  | some h => if svc h then some h else if svc h.other then some h.other else none
  | none => any

/-- Where a DRAM access goes: the ports it reads or writes, or the CAUSE of its error response. A read that the other half's
port serves is carried over the Tension link (Table 13.6), and fails while that is down (R47). The spec leaves open, and the
model settles (DESIGN CHOICE, log entry 49): JTAG reaches both ranges and is served as the Trivet is (R39, R42); a half's own
master that finds its own port out of service while mirroring is off receives CAUSE 0b100 (R47); a mirrored write goes to
every port in service, whatever the link. -/
def State.dramPorts (s : State) (m a n : Nat) (write : Bool) : Except Nat (List Half) :=
  let own : Half := if a < dpBase then .k else .p
  let off := (a - dkBase) % 0x200000000
  if s.mirrorOn then
    if own = .p then .error cUnmapped
    else if min (s.dramCap .k) (s.dramCap .p) < off + n then .error cUnmapped
    else if write then
      let ps := [Half.k, Half.p].filter fun h =>
        (s.dram h).service || (s.mirrorState == mirResilver && s.trained h)
      if ps = [] then .error cOff else .ok ps
    else match s.mirrorRead m with
      | none => .error cOff
      | some h => if masterHalf m = some h.other ∧ !s.linkUp then .error cLink else .ok [h]
  else if (masterHalf m).isSome ∧ masterHalf m ≠ some own then .error cPerm
  else if s.dramCap own < off + n then .error cUnmapped
  else if (s.dram own).service then .ok [own] else .error cOff

/-- The key in memory of a byte that a port holds. -/
def dramKey (h : Half) (a : Nat) : Nat := (if h = .k then dkBase else dpBase) + (a - dkBase) % 0x200000000

/-! ### Registers (R8 to R16, R810, R811) -/

/-- The chapters assign an address in a register region: a port block of SP9 to SP11 holds offsets 0x0C0 to 0x1BF
only (R340); BANK_OWNER and the legacy bus registers lie in the block of half K only (R598, R677). -/
def assigned (a : Nat) : Bool :=
  let off := a % 0x1000000
  let inMac := (a / 0x1000000 == 0x31 || a / 0x1000000 == 0x32) && 0x9000 ≤ off && off < 0xC000
  (regDesc? a).isSome && (!inMac || (0xC0 ≤ off % 0x1000 && off % 0x1000 < 0x1C0)) &&
  !(0x320A0800 ≤ a && a < 0x320A0840) && !(0x320C0800 ≤ a && a < 0x320C08B0)

/-- A register holds a TRV field. -/
def hasTrv (d : RegDesc) : Bool := d.fields.any fun f => f.acc == .trv

/-- The unit's lock bit, for the registers with RWL fields: DRAM_CTRL.LOCK of the block (R811, R632). -/
def State.locked (s : State) (a : Nat) : Bool :=
  let h := if a / 0x1000000 = 0x31 then 0 else 1
  s.flag (A.DRAM_CTRL h) F.DRAM_CTRL.LOCK

/-- What one field of a register becomes when `new` is written over `old` (Table 0.2, R14). -/
def fieldWrite (locked : Bool) (new : Word) (old : Word) (f : FieldDesc) : Word :=
  let p : Fld := ⟨f.hi, f.lo⟩
  let v := fget p new
  let o := fget p old
  match f.acc with
  | .rw => fput p old v
  | .trv => fput p old v
  | .rwl => if locked then old else fput p old v
  | .w1c => fput p old (o &&& (2 ^ fldWidth p - 1 - v))
  | .w1s => fput p old (o ||| v)
  | .ro => old
  | .wo => old

/-- A register after a write, field by field. -/
def descWrite (locked : Bool) (d : RegDesc) (old new : Word) : Word :=
  d.fields.foldl (fieldWrite locked new) old

/-- The write would change an RWL field (R811). -/
def changesRwl (d : RegDesc) (old new : Word) : Bool :=
  d.fields.any fun f => f.acc == .rwl && fget ⟨f.hi, f.lo⟩ new != fget ⟨f.hi, f.lo⟩ old

/-- The Trivet reaches the DRAM block of a half before the half is released (R612). -/
def State.beforeRelease (s : State) (m a : Nat) (h : Half) : Bool :=
  m == trivet && a / 0x10000 % 0x100 == 11 && (s.hrst h).powered && (s.hrst h).phase == .releasing

/-- The error a register access receives before its register judges it (R9, R35, R44 to R48, R177). The spec does not order the
causes of one access that is refused for several; the model takes unreachable, unassigned, misaligned, cross-half write in
this order (DESIGN CHOICE, log entry 49). -/
def State.regErr (s : State) (m a n : Nat) (write : Bool) : Option Nat :=
  let reach := match regionOf a with
    | .block h => if s.beforeRelease m a h then none else s.halfErr m h
    | _ => none
  match reach with
  | some c => some c
  | none =>
    if !assigned (a / 4 * 4) then some cUnmapped
    else if n ≠ 4 ∨ a % 4 ≠ 0 then some cMisaligned
    else match regionOf a with
      | .block h => if dmaStray m h ∨ (write ∧ (masterHalf m).isSome ∧ masterHalf m ≠ some h) then some cPerm else none
      | _ => none

/-- The half whose boot ROM a master reads: its own; Knit for JTAG (R34). -/
def romHalf (m : Nat) : Half := (masterHalf m).getD .k

/-- The error a boot ROM access receives: a write by any master, and any access by the Trivet or the Larder DMA
(R34). -/
def romErr (m : Nat) (write : Bool) : Option Nat :=
  if write ∨ m = trivet ∨ m = 0x48 then some cPerm else none

/-- A 32-bit write of a register by a master: refused with its error response, or answered and given to `f`, the
register's own effect (R9, R35, R46, R47, R810). -/
def State.guardReg (s : State) (m a : Nat) (f : State → State) : State :=
  if !s.presented m a then s
  else match s.regErr m a 4 true with
  | some c => s.busErr m a true c
  | none =>
    match regDesc? a with
    | none => s.busErr m a true cUnmapped
    | some d => if hasTrv d && m != trivet then s.busErr m a true cTrv else f (s.ok 0)

/-- A register's fields take a written word by their access types (Table 0.2). -/
def State.plainWrite (s : State) (a : Nat) (v : Word) : State :=
  match regDesc? a with
  | none => s
  | some d => s.wr a (descWrite (s.locked a) d (s.rd a) v)

end Sys2Proof.Machine
end

