-- ==== Sys2Proof/Machine/Memory.lean ====
section
/-! DEFINITION. What an access to a memory does: the scratchpad banks with their ports, collisions and ECC, the
Vault, the Needle windows, and the DRAM ports with their mirror (spec/12, spec/13). -/

namespace Sys2Proof.Machine
open Sys2Proof

/-! ### Scratchpad -/

/-- The half a bank address belongs to. -/
def bankHalf (a : Nat) : Half := halfOf ((a - bankBase) / 0x200000)

/-- The address of an offset within a half's banks. -/
def bankAt (h : Half) (off : Nat) : Nat := bankBase + 0x200000 * h.n + off

/-- An offset lies in one of the resynchronisation windows (Table 2.23). -/
def State.inRsWindow (s : State) (off : Nat) : Bool :=
  (List.range 8).any fun n =>
    let base := s.fld (A.TEN_RS_BASE n) F.TEN_RS_BASE.OFFSET * 64
    base ≤ off && off < base + s.fld (A.TEN_RS_SIZE n) F.TEN_RS_SIZE.SIZE * 64

/-- A rising list of numbers with one more member. -/
def insertNat : List Nat → Nat → List Nat
  | [], k => [k]
  | j :: m, k => if k < j then k :: j :: m else if k = j then j :: m else j :: insertNat m k

/-- The granules of a write into the holder's resynchronisation windows become dirty (R132). -/
def State.markDirty (s : State) (h : Half) (off n : Nat) : State :=
  match s.resync with
  | some r =>
    if r.cand = h.other ∧ s.holder = some h ∧ 0 < n then
      let g0 := off / 64
      let gs := ((List.range ((off + n - 1) / 64 + 1 - g0)).map (g0 + ·)).filter fun g => s.inRsWindow (g * 64)
      { s with resync := some { r with dirty := gs.foldl insertNat r.dirty } }
    else s
  | none => s

/-- Bytes written into a bank. -/
def State.spadPut (s : State) (a : Nat) (bs : List Byte) : State :=
  (s.putbs a bs).markDirty (bankHalf a) ((a - bankBase) % 0x200000) bs.length

/-- An access touches the banks of a running half that are being zeroed (R577). -/
def State.zeroingAt (s : State) (a : Nat) : Bool :=
  match regionOf a with
  | .bank h => s.running h && s.flag (A.SPAD_STATUS h.n) F.SPAD_STATUS.ZEROING
  | _ => false

/-- Several words written into banks one after another. -/
def State.spadPutWords (s : State) (a : Nat) : List (List Byte) → State
  | [] => s
  | w :: ws => (s.spadPut a w).spadPutWords (a + w.length) ws

/-- A single-bit error found in a bank: counted, and an F1 fault (R565). -/
def State.spadSingle (s : State) (h : Half) (a source : Nat) : State :=
  (s.inc (A.SPAD_ECC_CORR h.n)).faultD 0x10 1 (originHalf h) source (a % 2 ^ 32) (a / 2 ^ 32) 0

/-- A double-bit error found in a bank: recorded, and the half reports HEALTHY = 0 (R565). -/
def State.spadDouble (s : State) (h : Half) (a source : Nat) : State :=
  let s := s.setf (A.SPAD_STATUS h.n) F.SPAD_STATUS.ECC_DED 1
  let s := s.setf (A.SPAD_ECC_INFO h.n) F.SPAD_ECC_INFO.BANK ((a - bankBase) / 0x20000)
  let s := s.setf (A.SPAD_ECC_INFO h.n) F.SPAD_ECC_INFO.WORD (a % 0x20000 / 8)
  s.diagF3 h 0x11 source (a % 2 ^ 32) (a / 2 ^ 32)

/-- A port B write lost to port A: the first is recorded, each is counted (R563, R564). -/
def State.spadLost (s : State) (h : Half) (a master : Nat) : State :=
  let s := if s.flag (A.SPAD_STATUS h.n) F.SPAD_STATUS.SPAD_COLLIDE then s else
    let s := s.setf (A.SPAD_COLLIDE_INFO h.n) F.SPAD_COLLIDE_INFO.MASTER master
    let s := s.setf (A.SPAD_COLLIDE_INFO h.n) F.SPAD_COLLIDE_INFO.BANK ((a - bankBase) / 0x20000)
    s.setf (A.SPAD_COLLIDE_INFO h.n) F.SPAD_COLLIDE_INFO.WORD (a % 0x20000 / 8)
  (s.setf (A.SPAD_STATUS h.n) F.SPAD_STATUS.SPAD_COLLIDE 1).inc (A.SPAD_COLLIDE_CNT h.n)

/-- How one word of an access ends, worse last (R567). -/
inductive WordEnd where
  | done
  | lost
  | bad
  deriving DecidableEq, Repr

/-- The worse of two outcomes (R567). -/
def WordEnd.worse : WordEnd → WordEnd → WordEnd
  | .bad, _ => .bad
  | _, .bad => .bad
  | .lost, _ => .lost
  | _, .lost => .lost
  | .done, .done => .done

/-- The part of an access that lies in one word: `bs` to write at `a`, or none to read; `lost` when the other port
wins the word; `e` what the ECC of the word shows (R563, R565, R818). -/
def State.spadPiece (s : State) (h : Half) (master a : Nat) (bs : Option (List Byte)) (lost : Bool) (e : Ecc) :
    State × WordEnd :=
  match bs with
  | none =>
    match e with
    | .clean => (s, .done)
    | .single => (s.spadSingle h a master, .done)
    | .double => (s.spadDouble h a master, .bad)
  | some w =>
    if lost then (s.spadLost h a master, .lost)
    else if w.length = 8 then (s.spadPut a w, .done)
    else match e with
      | .clean => (s.spadPut a w, .done)
      | .single => ((s.spadSingle h a master).spadPut a w, .done)
      | .double => (s.spadDouble h a master, .bad)

/-- How many bytes of an access of `n` bytes at `a` lie in its lower word. -/
def lowPart (a n : Nat) : Nat := min n (8 - a % 8)

/-- How a hart receives WRITE_LOST and DATA_ERR: as a store or a load access fault (Table 12.2). -/
def State.delivered (s : State) (m a : Nat) (r : Resp) : State :=
  if m < 2 ∨ 5 < m then s
  else match r with
  | .writeLost => s.hartExc (m - 2) 7 a
  | .dataErr => s.hartExc (m - 2) 5 a
  | _ => s

/-- An access on one port, refused or performed word by word, lower word first; `lost a` says that the other port
writes the word of `a` in the same clock. The second component is its answer. -/
def State.spadPort (s : State) (o : SpadOp) (lost : Nat → Bool) : State × Resp :=
  let n := if o.write then o.data.length else o.len
  let h := bankHalf o.addr
  match s.spadErr o.master o.addr n o.write with
  | some c =>
    let s := if c = cPerm ∧ (s.halfErr o.master h).isNone ∧ s.flag (A.SPAD_CTRL h.n) F.SPAD_CTRL.PERM_EN ∧
        !s.spadGrant h o.master ((o.addr - bankBase) % 0x200000) n o.write false
      then s.inc (A.SPAD_PERM_DENY h.n) else s
    (s.busErr o.master o.addr o.write c, .err c)
  | none =>
    let k := lowPart o.addr n
    let lo := if o.write then some (o.data.take k) else none
    let hi := if o.write then some (o.data.drop k) else none
    let (s, e1) := s.spadPiece h o.master o.addr lo (lost o.addr) o.eccLo
    let (s, e2) := if k < n then s.spadPiece h o.master (o.addr + k) hi (lost (o.addr + k)) o.eccHi else (s, .done)
    match e1.worse e2 with
    | .bad => (s.delivered o.master o.addr .dataErr, .dataErr)
    | .lost => (s.delivered o.master o.addr .writeLost, .writeLost)
    | .done => (s, .ok (if o.write then 0 else s.mrd o.addr n))

/-- The master of an access is present (R58, R60); an access of another cannot occur. -/
def State.there (s : State) (o : SpadOp) : Bool := s.presented o.master o.addr

/-- A write on port A touches the word of `a` (R563). -/
def spadHits (o : SpadOp) (a : Nat) : Bool :=
  o.write && o.addr / 8 ≤ a / 8 && a / 8 ≤ (o.addr + o.data.length - 1) / 8

/-- A write on port A, answered with r, has been performed in the word of `a`: a word in which it met a double-bit error is as it was
(R563, R567, R818). -/
def spadWrote (o : SpadOp) (r : Resp) (a : Nat) : Bool :=
  spadHits o a && match r with
    | .ok _ => true
    | .dataErr => (if a / 8 = o.addr / 8 then o.eccLo else o.eccHi) != .double
    | _ => false

/-- An access of one master alone, answered in `resp`. -/
def State.spadAccess (s : State) (o : SpadOp) : State :=
  let (s, r) := s.spadPort o (fun _ => false)
  { s with resp := some r }

/-! ### Vault -/

/-- An access to the Vault (R582, R584, R812). -/
def State.vaultAccess (s : State) (m a n : Nat) (write : Bool) (data : List Byte) : State :=
  match s.vaultErr m a n write with
  | some c => s.busErr m a write c
  | none => if write then (s.putbs a data).ok 0 else s.ok (s.mrd a n)

/-- A wipe cause: every access fails from now on, and the Vault is zeroed; a cause seen during a wipe restarts it
(R584, R585). -/
def State.vaultWipe (s : State) (cause : Nat) : State :=
  let s := s.setf A.VAULT_STATUS F.VAULT_STATUS.WIPING 1
  { s.clearMem vaultBase (vaultBase + 0x40000) with wipe := some cause }

/-- The delegations and WIPING at their Reset values (R584, R599). -/
def isDelegation (a : Nat) : Bool := A.VAULT_DEL_BASE 0 ≤ a && a < A.VAULT_DEL_BASE 8

/-- The end of a wipe (R584, items 2 to 5). -/
def State.vaultWiped (s : State) : State :=
  match s.wipe with
  | none => s
  | some c =>
    let s := s.clearMem vaultBase (vaultBase + 0x40000)
    let s := s.resetRegs isDelegation
    let s := s.inc A.VAULT_WIPE_CNT
    let s := (s.setf A.VAULT_STATUS F.VAULT_STATUS.CAUSE c).setf A.VAULT_STATUS F.VAULT_STATUS.WIPING 0
    { s with wipe := none }

/-! ### DRAM (R42, R615 to R617, R816) -/

/-- A granule of 1 MiB that an access needs is cleared ahead of the order (R816). -/
def State.granule (s : State) (h : Half) (a : Nat) : State :=
  let d := s.dram h
  if d.clearing then s.putDram h { d with cleared := insertNat d.cleared ((a - dkBase) % 0x200000000 / 0x100000) }
  else s

/-- A single-bit error of a port (R616), or a double-bit error repaired from the mirror (R617, case 1). -/
def State.dramCorrected (s : State) (h : Half) (a source : Nat) : State :=
  (s.inc (A.DRAM_ECC_CORR h.n)).faultD 0x20 1 (originHalf h) source (a % 2 ^ 32) (a / 2 ^ 32) 0

/-- A double-bit error that is not repaired (R617, case 2). -/
def State.dramDouble (s : State) (h : Half) (a source : Nat) : State :=
  let s := (s.setf (A.DRAM_STATUS h.n) F.DRAM_STATUS.ECC_DED 1).inc (A.DRAM_ECC_DED_CNT h.n)
  let s := s.wr64 (A.DRAM_ECC_ADDR_LO h.n) (A.DRAM_ECC_ADDR_HI h.n) a
  s.diagF3 h 0x21 source (a % 2 ^ 32) (a / 2 ^ 32)

/-- Bytes written to every port named. -/
def State.dramPut (s : State) (a : Nat) (bs : List Byte) : List Half → State
  | [] => s
  | h :: hs => ((s.granule h a).putbs (dramKey h a) bs).dramPut a bs hs

/-! ### Caches of the harts (R608) -/

/-- HART_ECC_CORR of a half advanced, stopping at 0xFFFF_FFFF. -/
def State.incHartEcc (s : State) (h : Half) : State :=
  match h with
  | .k => { s with fabric := { s.fabric with eccK := min 0xFFFFFFFF (s.fabric.eccK + 1) } }
  | .p => { s with fabric := { s.fabric with eccP := min 0xFFFFFFFF (s.fabric.eccP + 1) } }

/-- An error that a hart's access finds in the caches of its half: corrected or refetched and counted, with the F1 event of
code 0x04 (Table 15.2), or, in a dirty line, a load access fault and HEALTHY = 0 with code 0x03. The second component says
that the access ends with that fault. -/
def State.cacheErr (s : State) (m a : Nat) : Option CacheErr → State × Bool
  | none => (s, false)
  | some (.stale _) => (s, false)
  | some .doubleDirty =>
    let h := halfOf ((m - 2) / 2)
    ((s.hartExc (m - 2) 5 a).diagF3 h 0x03 m (a % 2 ^ 32) (a / 2 ^ 32), true)
  | some _ =>
    let h := halfOf ((m - 2) / 2)
    ((s.incHartEcc h).faultD 0x04 1 (originHalf h) m (a % 2 ^ 32) (a / 2 ^ 32) 0, false)

/-- A master is a hart. -/
def isHart (m : Nat) : Bool := 2 ≤ m && m ≤ 5

/-- A misaligned access of `n` bytes to DRAM crosses a 4 KiB page: a hart takes an address-misaligned exception (Table
13.1). -/
def crossesPage (a n : Nat) : Bool := decide (4096 < a % 4096 + n)

/-- A DRAM access; `e` is what the ECC of the port that serves a read shows, `other` that of the mirror's other
port, which is read over the Tension link (R42, R616, R617). -/
def State.dramAccess (s : State) (m a n : Nat) (write : Bool) (data : List Byte) (e other : Ecc) : State :=
  match s.dramPorts m a (if write then data.length else n) write with
  | .error c => s.busErr m a write c
  | .ok ps =>
    if write then (s.dramPut a data ps).ok 0
    else match ps with
      | [] => s.busErr m a write cOff
      | h :: _ =>
        let s := s.granule h a
        match e with
        | .clean => s.ok (s.mrd (dramKey h a) n)
        | .single => (s.dramCorrected h a m).ok (s.mrd (dramKey h a) n)
        | .double =>
          if s.mirrorState = mirSync ∧ s.linkUp ∧ other = .clean then
            let v := s.mbs (dramKey h.other a) n
            ((s.putbs (dramKey h a) v).dramCorrected h a m).ok (leNat v)
          else { (s.dramDouble h a m).delivered m a .dataErr with resp := some .dataErr }

/-- A read of a hart, where its caches may hold the line: as memory is, but for a line that they have not seen written
(R605). -/
def State.hartLoad (s : State) (m a n : Nat) (e : BusEnv) : State :=
  match e.cache, s.dramPorts m a n false with
  | some (.stale v), .ok _ => s.ok (v.toNat % 2 ^ (8 * n))
  | _, _ => s.dramAccess m a n false [] e.eccLo e.mirror

/-- A DRAM access with what a hart adds to it: its caches and their errors (R605, R608), and an address-misaligned exception
across a page (Table 13.1). -/
def State.dramBus (s : State) (m a n : Nat) (write : Bool) (data : List Byte) (e : BusEnv) : State :=
  if !isHart m then s.dramAccess m a n write data e.eccLo e.mirror
  else if crossesPage a n then { s.hartExc (m - 2) (if write then 6 else 4) a with resp := some .accessFault }
  else
    let (s, bad) := s.cacheErr m a e.cache
    if bad then { s with resp := some .accessFault }
    else if write then s.dramAccess m a n write data e.eccLo e.mirror
    else s.hartLoad m a n e

end Sys2Proof.Machine
end

