-- ==== Sys2Proof/Machine/Fuse.lean ====
section
/-! DEFINITION. Fuses and straps: the vote of the fuse words, what they give the registers, the sampling of the
straps, and the reset states of the pads (spec/16, R726, R735 to R747; spec/17, R762 to R766). -/

namespace Sys2Proof.Machine
open Sys2Proof

/-! ### The vote (R735, R736) -/

/-- The outcome of the vote of one word: a value, with or without a correction; unprogrammed; failed. -/
inductive Vote where
  | value (v : Nat) (corrected : Bool)
  | blank
  | fail
  deriving DecidableEq, Repr

/-- A copy's data, and whether its CRC is right. -/
def copyData (c : Nat) : Nat := c / 2 ^ 16
def copyValid (c : Nat) : Bool := crc16 (beBytes 4 (copyData c)) == c % 2 ^ 16

/-- A copy with its CRC. -/
def fuseCopy (v : Nat) : Nat := v % 2 ^ 32 * 2 ^ 16 + crc16 (beBytes 4 v)

/-- Words whose factory default is programmed at test (R736, case 2). -/
def testWord (w : Nat) : Bool := w < 4 || (238 ≤ w && w < 246)

/-- The vote of a word with copies a, b and c (R736). -/
def voteCopies (w a b c : Nat) : Vote :=
  let eq := fun x y => copyValid x && copyValid y && copyData x == copyData y
  let out := fun x z => Vote.value (copyData x) (!(copyValid z) || copyData z != copyData x)
  if eq a b then out a c
  else if eq a c then out a b
  else if eq b c then out b a
  else if a = 0 ∧ b = 0 ∧ c = 0 ∧ !testWord w then .blank
  else .fail

/-- The vote of word w of the array. -/
def State.vote (s : State) (w : Nat) : Vote :=
  voteCopies w (storeGet 0 s.sec.array (3 * w)) (storeGet 0 s.sec.array (3 * w + 1)) (storeGet 0 s.sec.array (3 * w + 2))

/-- What the vote of every word gives: the programmed words, the corrections, the first word that failed. -/
structure FuseLoad where
  words : List (Nat × Nat)
  corrected : Nat
  failed : Option Nat
  deriving DecidableEq, Repr

/-- Every word voted. -/
def State.voteAll (s : State) : FuseLoad :=
  (List.range 512).foldl (fun l w =>
    match s.vote w with
    | .value v c => { l with words := l.words ++ [(w, v)], corrected := l.corrected + b2n c }
    | .blank => l
    | .fail => { l with failed := some (l.failed.getD w) }) ⟨[], 0, none⟩

/-! ### RST_MAP (R726, Table 16.6) -/

/-- NONE as a level: less reach than any other. -/
def levelNone : Nat := 7

/-- Floor, factory level and factory HOLD of a source (Table 16.6); a fixed level is its own floor. -/
def srcFactory (i : Nat) : Nat × Nat × Bool :=
  if i = 0 ∨ i = 1 ∨ i = 10 then (0, 0, false)
  else if i = 2 then (1, 1, false)
  else if i = 3 ∨ i = 4 ∨ i = 5 ∨ i = 6 ∨ i = 11 ∨ i = 12 then (2, 2, false)
  else if i = 7 ∨ i = 8 then (7, 2, false)
  else if i = 13 then (7, 1, false)
  else if 15 ≤ i ∧ i ≤ 18 then (2, 2, true)
  else if i = 19 then (6, 6, false)
  else if i = 21 then (1, 1, false)
  else (7, 7, false)

/-- A source with a fixed level (R726, item 6). -/
def srcFixed (i : Nat) : Bool := i == 0 || i == 1 || i == 2 || i == 10 || i == 19

/-- Floor, effective level and HOLD of a source (R726). -/
def State.srcMap (s : State) (i : Nat) : Nat × Nat × Bool :=
  let (floor, level, hold) := srcFactory i
  if srcFixed i then (floor, level, hold)
  else match s.fuse (8 + i) with
  | none => (floor, level, hold)
  | some w =>
    let l := w % 8
    let l := if l ≠ 0 ∧ l ≠ 1 ∧ l ≠ 2 ∧ l ≠ 7 then floor else if floor < l then floor else l
    (floor, l, bitAt w 8)

/-- RST_MAP[i] as it reads. -/
def State.rstMapWord (s : State) (i : Nat) : Nat :=
  let (floor, level, hold) := s.srcMap i
  b2n hold * 2 ^ 8 + floor * 2 ^ 4 + level

/-! ### Pad states (R738, R744, R745) -/

/-- Hardwired default codes of the pin groups, group g in [3g + 2:3g] (Table 16.11). -/
def padDefault : Nat :=
  1 + 2 * 2 ^ 3 + 2 * 2 ^ 6 + 0 * 2 ^ 9 + 1 * 2 ^ 12 + 2 * 2 ^ 15 + 2 * 2 ^ 18 + 1 * 2 ^ 21 + 0 * 2 ^ 24

/-- The largest permitted code of a group; group 0 and 7 permit 0b000 and 0b001 only (Table 16.11). -/
def padMax (g : Nat) : Nat := if g = 0 ∨ g = 7 then 1 else if g = 2 ∨ g = 5 ∨ g = 6 then 4 else if g = 4 then 5 else 3

/-- RST_PAD_GRP of a set, as voted and decoded. -/
def State.padGrp (s : State) (set : Nat) : Nat := ((s.fuse (32 + set)).getD 0 ^^^ padDefault) % 2 ^ 30

/-- RST_PAD_HOOK_LO and RST_PAD_HOOK_HI of a set and a half: two bits per pin, XOR 0b10. -/
def State.padHookLo (s : State) (set h : Nat) : Nat := (s.fuse (34 + 4 * set + 2 * h)).getD 0 ^^^ 0xAAAAAAAA
def State.padHookHi (s : State) (set h : Nat) : Nat :=
  ((s.fuse (35 + 4 * set + 2 * h)).getD 0 ^^^ 0xAAAA) % 2 ^ 16

/-- The pad-state set in force: that of the sampled SAFEDEF, and before the first sampling that of its level (R741). -/
def State.padSet (s : State) : Nat :=
  if s.rst.stage = .fuses then s.pins.straps / 2 ^ 8 % 2 else s.fld A.RST_PADSET F.RST_PADSET.SET

/-- Hardwired defaults are in force (R737). -/
def State.padHard (s : State) : Bool := s.flag A.RST_PADSET F.RST_PADSET.HARDWIRED

/-- The reset state of group g (R743, R745). -/
def State.padReset (s : State) (g : Nat) : Nat :=
  let hard := padDefault / 2 ^ (3 * g) % 8
  let c := s.padGrp s.padSet / 2 ^ (3 * g) % 8
  if s.padHard ∨ padMax g < c then hard else c

/-- The reset state of Hook pin q of half h. -/
def State.hookReset (s : State) (h q : Nat) : Nat :=
  if s.padHard then 2
  else if q < 16 then s.padHookLo s.padSet h / 2 ^ (2 * q) % 4 else s.padHookHi s.padSet h / 2 ^ (2 * (q - 16)) % 4

/-- Pads by number within a half: CX transmit pins 0 to 3, RGMII outputs 4, DRAM RESETn and CKE 5, other DRAM outputs 6,
QSPI boot chip selects, clock and data 7, TL ports 8 to 11, SerDes lanes 12 to 15, PCIe transmit 16, Hook pins 32 to 55. -/
def padCx (c : Nat) : Nat := c % 4
def padRg : Nat := 4
def padDram : Nat := 5
def padDramOut : Nat := 6
def padQspi : Nat := 7
def padTl (p : Nat) : Nat := 8 + p % 4
def padSd (l : Nat) : Nat := 12 + l % 4
def padPcie : Nat := 16
def padHook (q : Nat) : Nat := 32 + q
/-- The PPS outputs, pads of no half. -/
def padPps (j : Nat) : Nat := 128 + j

/-- A pad leaves its reset state at its configuration event (Tables 16.11, 16.12); a pad under reset or isolation does
not (R747). -/
def State.padLeave (s : State) (h : Half) (n : Nat) : State :=
  if s.running h ∧ !(s.hrst h).isolated then { s with pins := { s.pins with left := insertNat s.pins.left (64 * h.n + n) } } else s

/-- A pad outside the halves leaves its reset state. -/
def State.padLeaveShared (s : State) (n : Nat) : State :=
  { s with pins := { s.pins with left := insertNat s.pins.left n } }

/-- A pad returns to its reset state (R313, R322, R334). -/
def State.padReturn (s : State) (h : Half) (n : Nat) : State :=
  { s with pins := { s.pins with left := s.pins.left.filter fun m => m ≠ 64 * h.n + n } }

/-- Every pad of a half returns to its reset state (R747). -/
def State.padsReset (s : State) (h : Half) : State :=
  { s with pins := { s.pins with left := s.pins.left.filter fun n => n / 64 ≠ h.n } }

/-- A pad is past its configuration event. -/
def State.padLeft (s : State) (h : Half) (n : Nat) : Bool := s.pins.left.contains (64 * h.n + n)

/-- TL port p is simmer-locked: one of its three elements is blown (R738). -/
def State.simmerLocked (s : State) (p : Nat) : Bool := s.sec.simmer / 2 ^ (3 * p) % 8 != 0

/-! ### What enables a port beside its own register -/

/-- A supervisor of PWR_RAIL has released (R710, Table 16.16). -/
def State.rail (s : State) (i : Nat) : Bool := bitAt (s.fld A.PWR_RAIL F.PWR_RAIL.GOOD) i

/-- The member with this bit of WAKE_SEG_MEMB belongs to a segment that is ASLEEP or WAKING (R510, R511, R514). -/
def State.bound (s : State) (bit : Nat) : Bool :=
  (List.range 8).any fun n => bitAt (s.rdn (A.WAKE_SEG_MEMB n)) bit && s.flag (A.WAKE_SEG_CTRL n) F.WAKE_SEG_CTRL.EN &&
    decide (2 ≤ s.fld (A.WAKE_SEG_STATUS n) F.WAKE_SEG_STATUS.STATE)

/-- A TL port is enabled: its EN, the rail of its PHY, and no segment that sleeps (R510, R715). -/
def State.tlEn (s : State) (p : Nat) : Bool := s.flag (A.TL_CTRL p) F.TL_CTRL.EN && s.rail 8 && !s.bound p

/-- A CX channel is enabled: its EN, and no segment that sleeps (R510). -/
def State.cxEn (s : State) (c : Nat) : Bool := s.flag (A.CX_CTRL c) F.CX_CTRL.EN && !s.bound (8 + c)

/-! ### Straps (R739, Table 16.10) -/

/-- The straps are sampled: SYS_STRAP, the reset values they set, and SAFEDEF. -/
def State.sampleStraps (s : State) : State :=
  let v := s.pins.straps
  let s := s.wrn A.SYS_STRAP (v % 2 ^ 9)
  let s := (s.wrn A.SYS_BOOT (v % 8)).wrn A.SYS_MODE (v / 2 ^ 6 % 2)
  let s := s.setf A.TRV_TWIN F.TRV_TWIN.TWIN_EN (v / 2 ^ 7)
  let s := s.setf A.CLK_STATUS F.CLK_STATUS.COMMON (v / 2 ^ 4)
  let s := s.setf A.RST_PADSET F.RST_PADSET.SET (v / 2 ^ 8)
  (s.setf (A.QH_CFG 0) F.QH_CFG.EN (v / 2 ^ 5)).setf (A.QH_CFG 1) F.QH_CFG.EN (v / 2 ^ 5)

/-! ### Lifecycle (R763) -/

/-- SVC_USED: the programmed words among 68 to 99. -/
def State.svcUsed (s : State) : Nat := ((List.range 32).filter fun i => (s.fuse (68 + i)).isSome).length

/-- The lifecycle state that the fuses hold. -/
def State.lcFuse (s : State) : Nat :=
  if (s.fuse 66).isSome then 4
  else if (s.fuse 65).isSome then (if s.svcUsed % 2 = 1 then 3 else 2)
  else if (s.fuse 64).isSome then 1 else 0

/-- SEC_LC as a Level 1 release leaves it. -/
def State.loadLc (s : State) : State :=
  let u := s.svcUsed
  ((s.setf A.SEC_LC F.SEC_LC.STATE s.lcFuse).setf A.SEC_LC F.SEC_LC.SVC_USED u).setf A.SEC_LC F.SEC_LC.SVC_LEFT (32 - u)

end Sys2Proof.Machine
end

