-- ==== Sys2Proof/Machine/NeedleCore.lean ====
section
/-! DEFINITION. What reaches a Needle engine from the rest of the half: staged inputs and pending events, and the
entry to FAULTED (spec/03). -/

namespace Sys2Proof.Machine
open Sys2Proof

/-- Priorities of Table 3.9. -/
def prCmp : Nat := 2
def prTimer : Nat := 3
def prCan : Nat := 4
def prFrame : Nat := 5
def prHook : Nat := 6
def prTwin : Nat := 7
def prDma : Nat := 8
def prBell : Nat := 9
def prStatus : Nat := 10

/-- The cells an input of `n` data bytes occupies (R154). -/
def rxCells (n : Nat) : Nat := 1 + (n + 63) / 64

/-- The receive cells that staged inputs, the event in progress, the frames that pass and the transfers that read an input hold
(R153, R155, R230). -/
def Engine.cellsUsed (e : Engine) : Nat :=
  let cur := match e.evt with
    | some c => c.input.toList
    | none => []
  let pass := (e.frame.toList ++ e.passing).filterMap fun x => x.input
  let held := pass ++ (cur ++ e.dma.filterMap fun d => d.src).eraseDups
  (e.rx ++ held).foldl (fun n r => n + rxCells r.data.length) 0

/-- Something is staged in the receive area, or in the transmit area: what its bytes are from then on no rule says (R154). -/
def Engine.stageRx (e : Engine) : Engine :=
  { e with stageNo := e.stageNo + 1, rxNo := some e.stageNo, fresh := e.fresh.filter fun k => decide (0x4000 ≤ k) }
def Engine.stageTx (e : Engine) : Engine :=
  { e with stageNo := e.stageNo + 1, txNo := some e.stageNo, fresh := e.fresh.filter fun k => decide (k < 0x4000) }

/-- An input arrives at an engine: it is staged, or dropped whole and counted when the engine does not run or too
few of the 192 cells are free (R155, R156). -/
def State.neStage (s : State) (i : Nat) (source status flow stamp : Nat) (data : List Byte) : State :=
  let e := s.eng i
  if s.neState i = neRunning ∧ e.cellsUsed + rxCells data.length ≤ 192 then
    s.putEng i { e.stageRx with rx := e.rx ++ [⟨source, status, flow, stamp, data, s.raw, false⟩] }
  else s.inc (A.NE_RX_DROP i)

/-- An event becomes pending in a running engine; a bit that is pending already merges and is counted (R172). -/
def State.nePend (s : State) (i : Nat) (p : Pend) : State :=
  if s.neState i = neRunning then
    let e := s.eng i
    if e.pend.any fun q => q.prio = p.prio ∧ q.idx = p.idx ∧ q.code = p.code then s.inc (A.NE_EVT_MERGE i)
    else s.putEng i { e with pend := e.pend ++ [p] }
  else s

/-- The event of a source that is a pending bit. -/
def pendBit (s : State) (prio idx f0 : Nat) : Pend := ⟨prio, idx, 0, 0, f0, s.raw, false⟩

/-- A twin-check divergence event: queued up to 16, then dropped and counted (R173). -/
def State.neTwin (s : State) (i f0 : Nat) : State :=
  if s.neState i = neRunning then
    let e := s.eng i
    if 16 ≤ (e.pend.filter fun q => q.prio = prTwin).length then s.inc (A.NE_EVT_DROP i)
    else s.putEng i { e with pend := e.pend ++ [pendBit s prTwin 0 f0] }
  else s

/-- The bits of a write of NE_DOORBELL that are set already: the engine may clear one of them in the same clock (R16). -/
def State.rings (s : State) (i bits : Nat) : State :=
  s.mapEng i fun e =>
    let old := if e.rangAt = s.now then e.rang else 0
    { e with rangAt := s.now, rang := old ||| (bits &&& s.rdn (A.NE_DOORBELL i)) }

/-- Doorbell bits set in NE_DOORBELL: each becomes a pending event, or merges with the bit already set (R172). -/
def State.neBell (s : State) (i bits : Nat) : State :=
  let s := s.rings i bits
  let s := (List.range 32).foldl (fun s b =>
    if bitAt bits b then
      if s.neState i = neRunning then s.nePend i (pendBit s prBell b 0)
      else if bitAt (s.rdn (A.NE_DOORBELL i)) b then s.inc (A.NE_EVT_MERGE i) else s
    else s) s
  s.wrn (A.NE_DOORBELL i) (s.rdn (A.NE_DOORBELL i) ||| bits)

/-- A status change of switch port n: pending in every running engine of the half; the engine of an inline pair
that holds the port also receives the inline-port event (R279). -/
def State.neStatusPort (s : State) (h : Half) (n : Nat) : State :=
  (List.range 12).foldl (fun s k =>
    let i := h.n * 12 + k
    let s := s.nePend i (pendBit s prStatus n 0)
    if s.flag (A.NE_INL_CTRL i) F.NE_INL_CTRL.EN then
      if s.fld (A.NE_INL_CTRL i) F.NE_INL_CTRL.PORT_A = n then s.nePend i (pendBit s prStatus 0x40 0)
      else if s.fld (A.NE_INL_CTRL i) F.NE_INL_CTRL.PORT_B = n then s.nePend i (pendBit s prStatus 0x41 0)
      else s
    else s) s

/-- The engine of the half to which CX controller c (0 to 7) is bound, if one. -/
def State.cxEngine (s : State) (c : Nat) : Option Nat :=
  ((List.range 12).map fun k => c / 4 * 12 + k).find? fun i => bitAt (s.fld (A.NE_BIND i) F.NE_BIND.CX) (c % 4)

/-- The engine of the half to which Hook engine e (0 to 15) is bound, if one. -/
def State.hkEngine (s : State) (e : Nat) : Option Nat :=
  ((List.range 12).map fun k => e / 8 * 12 + k).find? fun i => bitAt (s.fld (A.NE_BIND i) F.NE_BIND.HK) (e % 8)

/-- Gauge compare event k is pending in every engine that selects it. -/
def State.neCompare (s : State) (k : Nat) : State :=
  (List.range 24).foldl (fun s i =>
    if bitAt (s.fld (A.NE_CMP_SEL i) F.NE_CMP_SEL.CMP) k then s.nePend i (pendBit s prCmp k 0) else s) s

/-- Frames of the engine's transmit staging that still wait for SP9 are discarded (R160). -/
def State.dropTx (s : State) (i : Nat) : State :=
  s.mapPlane (unitHalf i 12) fun x => { x with inq := x.inq.filter fun f => f.engine ≠ some i }

/-- The 64-byte bursts of a transfer, and the transfer cut off after k of them. -/
def Dma.bursts (d : Dma) : Nat := (d.len + 63) / 64
def Dma.cut (d : Dma) (k : Nat) : Dma := { d with len := min d.len (64 * k), bytes := d.bytes.take (64 * k), notify := false }

/-- The DMA channels of an engine stop at the next burst boundary: how many bursts of the transfer in progress on each have
been moved by then is a free value, and the transfers behind it have not begun (R160, R168). -/
def State.stopDma (s : State) (i : Nat) : State :=
  let e := s.eng i
  let left := (List.range 4).filterMap fun ch =>
    (e.dma.find? fun d => d.chan == ch).map fun d => d.cut (Config.free (s.free + ch) % (d.bursts + 1))
  let s := s.putEng i { e with dma := left.filter fun d => d.len != 0 }
  { s with free := s.free + 4 }

/-- Entry to FAULTED (R160): the cause, state and action index are recorded and an F2 fault raised; transmit
staging, timers and what waits end, DMA stops at the next burst boundary; RUN reads 0 (Table 3.14). Frames that have begun to
pass finish under the inline context (R191). -/
def State.neFault (s : State) (i cause st act : Nat) : State :=
  let s := (s.setf (A.NE_STATUS i) F.NE_STATUS.STATE neFaulted).setf (A.NE_CTRL i) F.NE_CTRL.RUN 0
  let s := s.dropTx i
  let s := s.wrn (A.NE_FAULT i) (cause * 2 ^ 24 + st % 2 ^ 11 * 2 ^ 13 + act % 2 ^ 13)
  let s := (s.stopDma i).mapEng i fun e =>
    { e with rx := [], pend := [], evt := none, inserts := [], build := [], blen := 0,
             timers := e.timers.map fun t => (t.1, { t.2 with armed := false }) }
  s.fault 0x19 2 (originHalf (unitHalf i 12)) (0x10 + i)

end Sys2Proof.Machine
end

