-- ==== Sys2Proof/Machine/GaugeCore.lean ====
section
/-! DEFINITION. Time of the Gauge: domain time at a raw count, conversions, commit instants, compare instants, and
timestamp corrections (spec/08). -/

namespace Sys2Proof.Machine
open Sys2Proof

/-- Nanoseconds in a second, in units of 2^-16 ns. -/
def secFrac : Int := 1000000000 * 65536

/-- A domain time: seconds modulo 2^64, nanoseconds, 2^-16 ns. -/
structure DomTime where
  sec : Nat
  ns : Nat
  frac : Nat
  deriving DecidableEq, Repr

/-- A time in units of 2^-16 ns as seconds, nanoseconds and fraction (R413, items 2 and 3). -/
def timeOf (t : Int) : DomTime :=
  let rest := (t % secFrac).toNat
  ⟨intMod 64 (t / secFrac), rest / 65536, rest % 65536⟩

/-- The base time of a set in units of 2^-16 ns. -/
def DomSet.base (d : DomSet) : Int := ((d.sec * 1000000000 + d.ns) * 65536 + d.frac : Nat)

/-- The time of a set at a raw count, in units of 2^-16 ns, without wrapping of the seconds (R413). -/
def DomSet.at (d : DomSet) (r : Nat) : Int :=
  let e : Int := (r : Int) - d.anchor
  d.base + 2 * e * 65536 + (2 * e * d.rate) / 4294967296

/-- The set of a domain that is in force at a raw count: the earlier one before the latest commit instant (R412). -/
def Dom.setAt (d : Dom) (r : Nat) : DomSet := if d.cur.anchor ≤ r then d.cur else d.prev

/-- The time of domain d now. -/
def State.domNow (s : State) (d : Nat) : DomTime := timeOf ((s.dom d).cur.at s.raw)

/-- A conversion: none when the raw count is older than the earlier set (R417). -/
def Dom.convert (d : Dom) (r : Nat) : Option DomTime :=
  if d.cur.anchor ≤ r then some (timeOf (d.cur.at r))
  else if d.prev.anchor ≤ r then some (timeOf (d.prev.at r)) else none

/-- The raw count at which a set first reaches a time given in seconds and nanoseconds: the least E with
2E(2^48 + r) at or above the distance from the base, scaled (R413, R430). -/
def DomSet.reaches (d : DomSet) (sec ns : Nat) : Nat :=
  let dist : Int := (((sec * 1000000000 + ns) * 65536 : Nat) : Int) - d.base
  let den : Int := 2 * (281474976710656 + d.rate)
  let e : Int := -((-(dist * 4294967296)) / den)
  ((d.anchor : Int) + e).toNat

/-- The commit instant of a request (R419). -/
def State.commitInstant (s : State) (at_ : Nat) : Nat :=
  if s.raw + 16 ≤ at_ then at_ else (s.raw + 16 + 499) / 500 * 500

/-- The raw count of the last event of compare unit k, if it has had one. -/
def State.cmpLast (s : State) (k : Nat) : Option Nat :=
  match storeGet 0 s.gauge.fired k with
  | 0 => none
  | n + 1 => some n

/-- The domain that compare unit k compares against, none for the raw counter. The unit uses what is written to its registers
from the tick after the write (R432). -/
def State.cmpDom (s : State) (k : Nat) : Option Nat :=
  let c := A.GAUGE_CMP_CTRL k
  if s.fldBefore c F.GAUGE_CMP_CTRL.DOM_EN = 1 then some (s.fldBefore c F.GAUGE_CMP_CTRL.DOM) else none

/-- NEXT of compare unit k, in ticks or in nanoseconds of its domain (R430, item 5). -/
def State.cmpNext (s : State) (k : Nat) : Nat :=
  let nx := s.rdBefore (A.GAUGE_CMP_NEXT_LO k) + 2 ^ 32 * s.rdBefore (A.GAUGE_CMP_NEXT_HI k)
  if (s.cmpDom k).isSome then nx * 1000000000 + s.fldBefore (A.GAUGE_CMP_NEXT_NS k) F.GAUGE_CMP_NEXT_NS.NS else nx

/-- The source time of compare unit k, in the same units. -/
def State.cmpSource (s : State) (k : Nat) : Nat :=
  match s.cmpDom k with
  | some d =>
    let t := s.domNow d
    t.sec * 1000000000 + t.ns
  | none => s.raw

/-- The source time of compare unit k has reached NEXT, and the unit has had no event in this tick (R430). -/
def State.cmpDue (s : State) (k : Nat) : Bool :=
  s.rawOn && s.fldBefore (A.GAUGE_CMP_CTRL k) F.GAUGE_CMP_CTRL.EN == 1 && decide (s.cmpNext k ≤ s.cmpSource k) &&
    s.cmpLast k != some s.raw

/-- The raw count of compare unit k's next event, as its NEXT stands (R83). -/
def State.cmpInstant (s : State) (k : Nat) : Nat :=
  let c := A.GAUGE_CMP_CTRL k
  let next := s.rd64 (A.GAUGE_CMP_NEXT_LO k) (A.GAUGE_CMP_NEXT_HI k)
  let at_ := if s.flag c F.GAUGE_CMP_CTRL.DOM_EN then
      (s.dom (s.fld c F.GAUGE_CMP_CTRL.DOM)).cur.reaches next (s.fld (A.GAUGE_CMP_NEXT_NS k) F.GAUGE_CMP_NEXT_NS.NS)
    else next
  max at_ (s.raw + 1)

/-! ### Timestamp corrections (Table 8.4, R434 to R437), in units of 0.25 ns -/

/-- The modes a port can be stamped in. -/
inductive TsMode where
  | sgmii10
  | sgmii100
  | sgmii1000
  | baseX1000
  | baseX2500
  | baseR10G
  | t1l
  | rgmii
  deriving DecidableEq, Repr

/-- Receive and transmit corrections of Table 8.4. -/
def TsMode.corr : TsMode → Int × Int
  | .sgmii10 => (16480, 10440)
  | .sgmii100 => (1648, 1044)
  | .sgmii1000 => (312, 208)
  | .baseX1000 => (298, 196)
  | .baseX2500 => (128, 86)
  | .baseR10G => (195, 137)
  | .t1l => (12560, 7920)
  | .rgmii => (6, 8)

/-- The mode of switch port n of a half (SP0 to SP3 SerDes, SP4 to SP7 T1L, SP8 RGMII). -/
def State.tsMode (s : State) (h : Half) (n : Nat) : TsMode :=
  if n < 4 then
    let l := h.n * 4 + n
    match s.fld (A.SD_CTRL l) F.SD_CTRL.MODE with
    | 0 => match s.fld (A.MAC_STATUS (h.n * 12 + n)) F.MAC_STATUS.SPEED with
      | 0 => .sgmii10
      | 1 => .sgmii100
      | _ => .sgmii1000
    | 1 => .baseX1000
    | 2 => .baseX2500
    | _ => .baseR10G
  else if n < 8 then .t1l else .rgmii

/-- GAUGE_TSC_CTRL and GAUGE_TSC_ADJ of port p change now. What they held before stands for the frame that the port is in
(R436); a value that ceased 10 ms ago, longer than any frame lasts, is forgotten. -/
def State.tscChange (s : State) (p : Nat) : State :=
  let g := s.gauge
  { s with gauge := { g with
    tsc := ⟨p, s.raw, s.rd (A.GAUGE_TSC_CTRL p), s.rd (A.GAUGE_TSC_ADJ p)⟩ :: g.tsc.filter fun x => s.raw < x.ended + 10 * msTicks } }

/-- The correction registers in force on port p for a frame captured at raw count r: a change counts from the next frame
boundary (R436), which the model places at the frame's capture point (DESIGN CHOICE, log entry 51). -/
def State.tscAt (s : State) (p r : Nat) : TscOld :=
  let olds := s.gauge.tsc.filter fun x => decide (x.port = p ∧ r < x.ended)
  olds.getLast?.getD ⟨p, s.raw, s.rd (A.GAUGE_TSC_CTRL p), s.rd (A.GAUGE_TSC_ADJ p)⟩

/-- A capture in eighths of a tick, corrected when EN is 1: a receive stamp loses the correction and ADJ_RX, a
transmit stamp gains the correction and ADJ_TX (R435). -/
def State.stamp (s : State) (h : Half) (n : Nat) (rx : Bool) (capture : Nat) : Nat :=
  let x := s.tscAt (h.n * 9 + n) (capture / 8)
  if fget F.GAUGE_TSC_CTRL.EN x.ctrl = 1 then
    let c := (s.tsMode h n).corr
    if rx then ((capture : Int) - c.1 - signedOf 16 (fget F.GAUGE_TSC_ADJ.ADJ_RX x.adj)).toNat
    else ((capture : Int) + c.2 + signedOf 16 (fget F.GAUGE_TSC_ADJ.ADJ_TX x.adj)).toNat
  else capture

end Sys2Proof.Machine
end

