-- ==== Sys2Proof/Machine/CxCore.lean ====
section
/-! DEFINITION. CAN XL controllers: event and stitch buffers, error state, channel status, acceptance filters
(spec/09, R444 to R460, R483, R484). Controllers are numbered 0 to 7. -/

namespace Sys2Proof.Machine
open Sys2Proof

/-- The half of controller c. -/
def cxHalf (c : Nat) : Half := unitHalf c 4

/-- DTT states (Table 9.3). -/
def dOff : Nat := 0
def dListen : Nat := 1
def dCold : Nat := 2
def dInteg : Nat := 3
def dActive : Nat := 4
def dPassive : Nat := 5

/-- The DTT state of a channel. -/
def State.dtt (s : State) (c : Nat) : Nat := s.fld (A.DTT_STATUS c) F.DTT_STATUS.STATE

/-- The bit time a timing register defines, in ns (R446). -/
def bitTime (w : Word) : Nat :=
  (fget F.CX_NBT.BRP_M1 w + 1) * (1 + (fget F.CX_NBT.TSEG1_M1 w + 1) + (fget F.CX_NBT.TSEG2_M1 w + 1))

/-- The bound t_FRAME(D) in ticks, rounded up (R465). -/
def State.tFrame (s : State) (c d : Nat) : Nat :=
  (40 * bitTime (s.rd (A.CX_NBT c)) + (124 + 9 * d) * bitTime (s.rd (A.CX_XBT c)) + 1) / 2

/-- A channel counts as up (R458). -/
def State.cxUp (s : State) (c : Nat) : Bool :=
  if s.dtt c = dOff then s.cxEn c && !(s.can c).busOff else s.dtt c == dActive

/-- A change between up and down is reported (R458). -/
def State.cxStatus (s : State) (c : Nat) : State :=
  let up := s.cxUp c
  if (s.can c).up = up then s
  else
    let s := s.mapCan c fun x => { x with up := up }
    let s := s.setf (A.CX_STATUS c) F.CX_STATUS.STATE_CHG 1
    let s := match s.cxEngine c with
      | some i => s.nePend i (pendBit s prStatus (0x20 + c % 4) 0)
      | none => s
    s.netEvent (0x20 + c) (b2n up)

/-- BUS as the error counters and EN stand (Table 9.9; error states as in ISO 11898-1). -/
def State.cxBus (s : State) (c : Nat) : State :=
  let e := A.CX_ERRC c
  let v := if !s.cxEn c then 3 else if (s.can c).busOff then 2
    else if 128 ≤ s.fld e F.CX_ERRC.TEC ∨ 128 ≤ s.fld e F.CX_ERRC.REC then 1 else 0
  s.setf (A.CX_STATUS c) F.CX_STATUS.BUS v

/-- A DTT node enters LISTEN: its Row time is given up; `timer` starts the listen timer (R470). -/
def State.dttForget (s : State) (c : Nat) (timer : Bool) : State :=
  s.mapCan c fun x =>
    let p := match x.pattern with
      | some p => s.raw + p.listenBase + p.localNode * p.listenStep
      | none => 0
    { x with listenEnd := if timer then p else 0, startSof := none, prevRef := false, gotRef := false, corrRun := 0,
             missRun := 0, refSeen := false, refSent := false, startRefs := false, firstRow := false, counted := [] }

/-- The DTT state changes: an F0 event, and for PASSIVE an F2 event (R468). -/
def State.dttEnter (s : State) (c st : Nat) : State :=
  if s.dtt c = st then s
  else
    let a := A.DTT_STATUS c
    let s := (s.setf a F.DTT_STATUS.STATE st).setf a F.DTT_STATUS.STATE_CHG 1
    let s := s.fault 0x5A 0 (originHalf (cxHalf c)) 0
    let s := if st = dPassive then (s.inc (A.DTT_PASSIVE c)).fault 0x59 2 (originHalf (cxHalf c)) 0 else s
    s.cxStatus c

/-- Entry to LISTEN. -/
def State.dttListen (s : State) (c : Nat) (timer : Bool) : State := (s.dttForget c timer).dttEnter c dListen

/-- Entry to bus-off (R457, R468): event buffers are freed, the entry is counted, an F2 event raised. -/
def State.cxBusOff (s : State) (c : Nat) : State :=
  let auto := s.flag (A.CX_CTRL c) F.CX_CTRL.AUTO_RECOV
  let s := s.mapCan c fun x => { x with bufs := [], busOff := true, recovering := auto }
  let s := (s.setf (A.CX_ERRC c) F.CX_ERRC.TEC 0xFF).inc (A.CX_BUSOFF c)
  let s := (s.cxBus c).fault 0x58 2 (originHalf (cxHalf c)) 0
  let s := if s.dtt c = dOff then s else s.dttListen c false
  s.cxStatus c

/-- A transmission fails with an error: the transmit error counter rises by 8 (ISO 11898-1). -/
def State.cxTxErr (s : State) (c : Nat) : State :=
  let t := s.fld (A.CX_ERRC c) F.CX_ERRC.TEC + 8
  let s := s.inc (A.CX_TX_ERR c)
  if 255 < t then s.cxBusOff c else (s.setf (A.CX_ERRC c) F.CX_ERRC.TEC t).cxBus c

/-- A transmission succeeds: the transmit error counter falls by 1 (ISO 11898-1). -/
def State.cxTxOk (s : State) (c : Nat) : State :=
  let t := s.fld (A.CX_ERRC c) F.CX_ERRC.TEC
  ((s.inc (A.CX_TX_OK c)).setf (A.CX_ERRC c) F.CX_ERRC.TEC (t - 1)).cxBus c

/-- A reception ends with or without error (ISO 11898-1): the receive error counter rises or falls by 1. -/
def State.cxRxCount (s : State) (c : Nat) (err : Bool) : State :=
  let r := s.fld (A.CX_ERRC c) F.CX_ERRC.REC
  if err then ((s.inc (A.CX_RX_ERR c)).setf (A.CX_ERRC c) F.CX_ERRC.REC (min 255 (r + 1))).cxBus c
  else ((s.inc (A.CX_RX_OK c)).setf (A.CX_ERRC c) F.CX_ERRC.REC (if 127 < r then 127 else r - 1)).cxBus c

/-- The controller takes part in bus traffic: enabled, integrated, neither bus-off nor in a protocol exception. -/
def State.cxOn (s : State) (c : Nat) : Bool :=
  s.cxEn c && s.flag (A.CX_STATUS c) F.CX_STATUS.SYNCED && !(s.can c).busOff && !(s.can c).pxe

/-- The controller sends and receives frames of a format (Table 9.9, FD_EN and XL_EN). -/
def State.cxFormat (s : State) (c : Nat) : CanFmt → Bool
  | .cc => true
  | .fd => s.flag (A.CX_CTRL c) F.CX_CTRL.FD_EN
  | .xl => s.flag (A.CX_CTRL c) F.CX_CTRL.XL_EN

/-- The event buffers that the controller may offer: those whose format it sends (R455, Table 9.9). -/
def State.cxOffered (s : State) (c : Nat) : List CxBuf := (s.can c).bufs.filter fun b => s.cxFormat c b.frame.fmt

/-- A frame enters a free event buffer, if one of the 8 is free (R455). -/
def State.cxFill (s : State) (c : Nat) (f : CxFrame) : Option State :=
  if (s.can c).bufs.length < 8 then some (s.mapCan c fun x => { x with bufs := x.bufs ++ [⟨f⟩] }) else none

/-- The buffer offered first: the lowest identifier, filled first (R455). -/
def cxFirst : List CxBuf → Option CxBuf
  | [] => none
  | b :: bs =>
    match cxFirst bs with
    | none => some b
    | some d => if d.frame.ident < b.frame.ident then some d else some b

/-- Filter i accepts a frame (R452); a filter written in this clock is taken as it was before. -/
def State.cxFilter (s : State) (c i : Nat) (f : CxFrame) : Bool :=
  let id := A.CX_FILT_ID c i
  let mk := A.CX_FILT_MASK c i
  let acc := match f.fmt with
    | .cc => F.CX_FILT_MASK.ACC_CC
    | .fd => F.CX_FILT_MASK.ACC_FD
    | .xl => F.CX_FILT_MASK.ACC_XL
  s.fldBefore id F.CX_FILT_ID.EN == 1 && s.fldBefore mk acc == 1 && (s.fldBefore id F.CX_FILT_ID.IDE == b2n f.ide) &&
  ((f.ident ^^^ s.fldBefore id F.CX_FILT_ID.ID) &&& s.fldBefore mk F.CX_FILT_MASK.MASK) == 0

/-- A frame staged in the bound engine, or dropped and counted where none is bound (R453, R486). -/
def State.cxStage (s : State) (c flow stamp : Nat) (f : CxFrame) : State :=
  match s.cxEngine c with
  | some i => s.neStage i (0x20 + c % 4) 1 flow stamp f.data
  | none => s.inc (A.CX_RX_DROP c)

/-- A frame checked against the acceptance filters (R447, R452, R453). -/
def State.cxAccept (s : State) (c stamp : Nat) (f : CxFrame) : State :=
  if f.remote then s.inc (A.CX_RX_REMOTE c)
  else match (List.range 128).find? fun i => s.cxFilter c i f with
    | some i => s.cxStage c i stamp f
    | none => s.inc (A.CX_RX_NOFILT c)

/-- Stitch s of a channel is fed by the Colander (R483). -/
def State.colMap (s : State) (c st : Nat) : Bool := bitAt (s.rdn (A.DTT_COL_MAP c (st / 32))) (st % 32)

/-- A write of a stitch buffer that completes at raw count `ready` (R234, R483, R484); one that the Pattern has no
stitch for, or that is too long, is discarded and counted. -/
def State.stitchWrite (s : State) (c st : Nat) (data : List Byte) (ready : Nat) : State :=
  let known := match (s.can c).pattern with
    | some p => decide (st < p.stitches.length)
    | none => false
  if !known ∨ s.fld (A.DTT_LIMITS c) F.DTT_LIMITS.STITCH_DLEN < data.length then s.inc (A.DTT_TX_REJ c)
  else s.mapCan c fun x => { x with stitch := storeInsert x.stitch st ⟨data, ready⟩ }

end Sys2Proof.Machine
end

