-- ==== Sys2Proof/Machine/ColCore.lean ====
section
/-! DEFINITION. What the charge arbiter needs of the Colander: the grant pairs and the release paths, the queues, the streams and
their egress channels, and release without comparison (spec/02, R66 to R72, R115 to R121, R137, R815; spec/15, R687 to R691;
spec/16, R750). -/

namespace Sys2Proof.Machine
open Sys2Proof

/-! ### Release paths and pins -/

/-- The levels that a bad line gives the pair of a half, if any (R66). -/
def Charge.line (c : Charge) : Half → Option (Bool × Bool)
  | .k => c.lineK
  | .p => c.lineP
def Charge.putLine (c : Charge) (h : Half) (l : Option (Bool × Bool)) : Charge :=
  match h with
  | .k => { c with lineK := l }
  | .p => { c with lineP := l }

/-- The true and the complement line of the pair of a half: as the grant latch drives them, or as they read (R66). -/
def State.pairLines (s : State) (h : Half) : Bool × Bool :=
  (s.chg.line h).getD (s.chg.grant == holderCode h, s.chg.grant != holderCode h)

/-- The pair of a half is asserted: its true line is 1 and its complement line is 0 (R66). -/
def State.pairOn (s : State) (h : Half) : Bool := (s.pairLines h).1 && !(s.pairLines h).2

/-- Both pairs read asserted (R68). -/
def State.pairsBoth (s : State) : Bool := s.chg.bothPairs || (s.pairOn .k && s.pairOn .p)

/-- The release path of a half's copies is open (R67, R68, R128). -/
def State.pathOpen (s : State) (h : Half) : Bool := s.pairOn h && !s.pairsBoth

/-- Twin charge allows the chip to release: not in twin mode, or in twin charge (R136, R137). -/
def State.twinMay (s : State) : Bool :=
  !s.flag A.TRV_TWIN F.TRV_TWIN.TWIN_EN || s.fld A.TRV_TWIN F.TRV_TWIN.ROLE == 1

/-- The level of CHARGE_K or CHARGE_P (R70, R72, R136). -/
def State.chargePin (s : State) (h : Half) : Bool := s.pathOpen h && s.twinMay

/-! ### Colander queues -/

def Colander.queue (c : Colander) : Half → List Copy
  | .k => c.qk
  | .p => c.qp
def Colander.putQueue (c : Colander) (h : Half) (q : List Copy) : Colander :=
  match h with
  | .k => { c with qk := q }
  | .p => { c with qp := q }

/-- The 64-byte units a copy occupies (R691). -/
def Copy.units (c : Copy) : Nat := (c.bytes.length + 16 + 63) / 64

/-- The units a queue holds; a copy kept for comparison only holds none. -/
def queueUnits (q : List Copy) : Nat := q.foldl (fun n c => if c.sent then n else n + c.units) 0

/-- A half's queue replaced, and COL_QUEUE with it. -/
def State.putColQueue (s : State) (h : Half) (q : List Copy) : State :=
  let s := { s with col := s.col.putQueue h q }
  s.setf A.COL_QUEUE (match h with | .k => F.COL_QUEUE.K | .p => F.COL_QUEUE.P) (queueUnits q)

/-- A count register advanced by n, stopping at 0xFFFF_FFFF. -/
def State.incBy (s : State) (a n : Nat) : State := s.wrn a (min 0xFFFFFFFF (s.rdn a + n))

/-- The queued copies of a half for which `f` holds are discarded and counted in COL_DISCARD. -/
def State.colDiscard (s : State) (h : Half) (f : Copy → Bool) : State :=
  let q := s.col.queue h
  let s := s.incBy A.COL_DISCARD (q.filter fun c => f c && !c.sent).length
  s.putColQueue h (q.filter fun c => !f c)

/-! ### Streams -/

/-- Word w of the entry of stream n (Table 15.4). -/
def State.streamWord (s : State) (n w : Nat) : Nat := s.rdn (A.COL_STREAM n w)

/-- VALID, MAXLEN and the submitter of a half in a stream entry (Table 15.4). -/
def State.streamValid (s : State) (n : Nat) : Bool := bitAt (s.streamWord n 0) 31
def State.streamMax (s : State) (n : Nat) : Nat := s.streamWord n 0 / 2 ^ 16 % 2 ^ 12
def State.streamSrc (s : State) (n : Nat) : Half → Nat
  | .k => s.streamWord n 0 % 256
  | .p => s.streamWord n 0 / 256 % 256

/-- A stream is BLOCKED (R696). -/
def State.blocked (s : State) (n : Nat) : Bool := s.flag (A.COL_STREAM_STAT n) F.COL_STREAM_STAT.BLOCKED

/-! ### Egress (R688) -/

/-- An event frame for a CAN controller: identifier, format, bit-rate switch and data (R455, R688); the further
header fields of CAN XL are not stated. -/
def eventFrame (fmt : Nat) (ide brs : Bool) (ident : Nat) (data : List Byte) : CxFrame :=
  { fmt := if fmt = 0 then .cc else if fmt = 1 then .fd else .xl, ide := ide, ident := ident, brs := brs,
    remote := false, data := data, sec := Config.xlSec, sdt := Config.xlSdt, vcid := Config.xlVcid,
    af := Config.xlAf }

/-- The bytes of a released copy reach the egress channel that word v of its entry names (R121, R688, R689): a
stitch write completes after the delivery at 8 bytes/ns and the hand-off of Table 9.6. -/
def State.egress (s : State) (bytes : List Byte) (v : Nat) : State :=
  let h := halfOf (v / 2 ^ 30 % 2)
  let c := 4 * h.n + v / 2 ^ 26 % 4
  let t := v % 2 ^ 10
  if !bitAt v 31 ∨ !s.inService h then s
  else match v / 2 ^ 28 % 4 with
  | 0 =>
    if s.colMap c t then s.stitchWrite c t bytes (s.raw + (bytes.length + 15) / 16 + 250)
    else s.inc A.COL_CHAN_REJ
  | 1 =>
    let id := leNat (bytes.take 4)
    match s.cxFill c (eventFrame (v / 2 ^ 24 % 4) (bitAt id 31) (bitAt v 23) (id % 2 ^ 29) (bytes.drop 4)) with
    | some s => s
    | none => s.inc A.COL_CHAN_REJ
  | 2 =>
    s.mapPlane h fun x => { x with inq := x.inq ++ [{ ingress := 10, bytes := bytes, stamp := s.raw,
                                                      cls := v / 2 ^ 20 % 8, mask := v % 2 ^ 9, colour := 0, seq := none, engine := none }] }
  | _ => s

/-- A copy is released: it is counted, and its bytes go to the four channels of its stream (R688, Table 15.13). -/
def State.colRelease (s : State) (c : Copy) : State :=
  let s := (s.inc A.COL_RELEASED).incMod (A.COL_STREAM_STAT c.stream) F.COL_STREAM_STAT.RELEASED
  let s := s.emit (.released c.stream c.rp c.bytes)
  [1, 2, 3, 4].foldl (fun s w => s.egress c.bytes (s.streamWord c.stream w)) s

/-- The copies of a stream and release point. -/
def Copy.is (n rp : Nat) (c : Copy) : Bool := c.stream == n && c.rp == rp

/-- The oldest copy of a half for a stream and release point. -/
def State.copyOf (s : State) (h : Half) (n rp : Nat) : Option Copy := (s.col.queue h).find? (Copy.is n rp)

/-- Nothing but a mismatch keeps the holder's copies from release: its path is open, the chip may release, the
Colander has not failed (R67, R136, R698, R815). -/
def State.mayRelease (s : State) (h : Half) : Bool :=
  s.pathOpen h && s.twinMay && !s.flag A.COL_STATUS F.COL_STATUS.COL_FAIL

/-- Whether R750 lets the holder's copies out. -/
def State.outValid (s : State) (h : Half) : Bool := s.flag A.COL_CTRL F.COL_CTRL.EN && (s.ep h).outValid

/-- The level of TWIN_HOLD: high while the Colander may release copies of a half (R137, R750). -/
def State.twinHold (s : State) : Bool :=
  s.flag A.TRV_TWIN F.TRV_TWIN.TWIN_EN && [Half.k, Half.p].any fun h => s.mayRelease h && s.outValid h

/-- The half whose bytes a pair is released with: the former holder's before a handover instant (R84). -/
def State.bytesFrom (s : State) (h : Half) (rp : Nat) : Half :=
  match s.chg.last with
  | some (t, f) => if rp ≠ 0 ∧ rp < t then f else h
  | none => h

/-- A release point has come. -/
def State.dueNow (s : State) (rp : Nat) : Bool := rp ≤ s.raw

/-- A pair put into a list of pairs before the first whose key is not smaller. -/
def insertKey (x : Nat × Nat) : List (Nat × Nat) → List (Nat × Nat)
  | [] => [x]
  | y :: ys => if x.1 ≤ y.1 then x :: y :: ys else y :: insertKey x ys

/-- The release point and stream of the copies of a queue that are due. -/
def State.queueKeys (s : State) (h : Half) : List (Nat × Nat) :=
  ((s.col.queue h).filter fun c => s.dueNow c.rp).map fun c => (c.rp, c.stream)

/-- The release point and stream of every copy that is due, oldest release point first; as often as the half that has more
such copies has them. -/
def State.dueKeys (s : State) : List (Nat × Nat) :=
  let k := s.queueKeys .k
  let rest := k.foldl (fun l x => l.erase x) (s.queueKeys .p)
  (k ++ rest).foldr insertKey []

/-- A queue without the oldest copy for which `f` holds. -/
def dropFirst (f : Copy → Bool) : List Copy → List Copy
  | [] => []
  | c :: cs => if f c then cs else c :: dropFirst f cs

/-- The oldest copies of a stream and release point leave both queues. -/
def State.takePair (s : State) (n rp : Nat) : State :=
  (s.putColQueue .k (dropFirst (Copy.is n rp) s.col.qk)).putColQueue .p (dropFirst (Copy.is n rp) s.col.qp)

/-- In 1oo1D, with the standby half gone, the holder's due copies are released at once, without comparison (R117, case 5);
what cannot be released now stays. -/
def State.releaseAlone (s : State) (h : Half) : State :=
  if !s.mayRelease h ∨ !s.outValid h then s
  else s.dueKeys.foldl (fun s k =>
    match s.copyOf h k.2 k.1 with
    | some c => if c.sent then s.takePair k.2 k.1 else (s.takePair k.2 k.1).colRelease c
    | none => s) s

end Sys2Proof.Machine
end

