-- ==== Sys2Proof/Machine/Crypto.lean ====
section
/-! DEFINITION. The algorithms of the security block that the spec names and other documents define: SHA-384, ECDSA over P-384,
AES-256-CMAC and the RFC 3394 key wrap (spec/04, R201, R202; spec/14, R647, R671; spec/17, R759, R766, R767, R774). Their constants
are computed here as those documents define them. -/

namespace Sys2Proof.Machine
open Sys2Proof

/-! ### SHA-384 -/

/-- The largest number of `k` more bits below `r` whose power `e` is at most `t`. -/
def rootBits (e t : Nat) : Nat → Nat → Nat
  | 0, r => r
  | k + 1, r => rootBits e t k (if (r + 2 ^ k) ^ e ≤ t then r + 2 ^ k else r)

/-- The first 64 bits of the fractional part of the root of order `e` of a small number. -/
def fracRoot (e p : Nat) : Dword := BitVec.ofNat 64 (rootBits e (p * 2 ^ (64 * e)) 70 0)

/-- The prime numbers below 410, of which there are 80. -/
def smallPrimes : List Nat :=
  (List.range 410).filter fun n => decide (2 ≤ n) && (List.range n).all fun d => decide (d < 2) || n % d != 0

/-- The constants of the 80 rounds, and the initial hash value. -/
def shaConsts : List Dword := smallPrimes.map (fracRoot 3)
def shaInit : List Dword := ((smallPrimes.drop 8).take 8).map (fracRoot 2)

/-- The four mixing functions of the algorithm, each the sum modulo 2 of three rotations or of two and a shift. -/
def shaBig (i j k : Nat) (x : Dword) : Dword := x.rotateRight i ^^^ x.rotateRight j ^^^ x.rotateRight k
def shaSmall (i j k : Nat) (x : Dword) : Dword := x.rotateRight i ^^^ x.rotateRight j ^^^ (x >>> k)

/-- The message schedule, latest word first: `n` more words. -/
def shaSched : Nat → List Dword → List Dword
  | 0, w => w
  | n + 1, w => shaSched n ((shaSmall 19 61 6 (w.getD 1 0) + w.getD 6 0 + shaSmall 1 8 7 (w.getD 14 0) + w.getD 15 0) :: w)

/-- One round on the eight working words. -/
def shaRound (v : List Dword) (c : Dword × Dword) : List Dword :=
  let x := fun k => v.getD k 0
  let t := x 7 + shaBig 14 18 41 (x 4) + ((x 4 &&& x 5) ^^^ (~~~(x 4) &&& x 6)) + c.1 + c.2
  let t2 := shaBig 28 34 39 (x 0) + ((x 0 &&& x 1) ^^^ (x 0 &&& x 2) ^^^ (x 1 &&& x 2))
  [t + t2, x 0, x 1, x 2, x 3 + t, x 4, x 5, x 6]

/-- A 128-byte block is hashed. -/
def shaBlock (h : List Dword) (b : List Byte) : List Dword :=
  let w := (List.range 16).map fun k => BitVec.ofNat 64 (beNat (slice b (8 * k) 8))
  let v := (shaConsts.zip (shaSched 64 w.reverse).reverse).foldl shaRound h
  List.zipWith (fun a b => a + b) h v

/-- A message filled up to whole blocks, with its length in bits at the end. -/
def shaPad (bs : List Byte) : List Byte :=
  bs ++ [0x80#8] ++ List.replicate ((239 - bs.length % 128) % 128) 0 ++ beBytes 16 (8 * bs.length)

/-- SHA-384 of bytes, as a number whose most significant byte is the first of the digest. -/
def sha384 (bs : List Byte) : Nat :=
  let m := shaPad bs
  let h := (List.range (m.length / 128)).foldl (fun h k => shaBlock h (slice m (128 * k) 128)) shaInit
  (h.take 6).foldl (fun n w => n * 2 ^ 64 + w.toNat) 0

/-! ### ECDSA over P-384 -/

/-- The field prime, the coefficient b of the curve y² = x³ - 3x + b, the order of the base point, and the base point. -/
def ecP : Nat := 2 ^ 384 - 2 ^ 128 - 2 ^ 96 + 2 ^ 32 - 1
def ecB : Nat := 0xB3312FA7E23EE7E4988E056BE3F82D19181D9C6EFE8141120314088F5013875AC656398D8A2ED19D2A85C8EDD3EC2AEF
def ecN : Nat := 0xFFFFFFFFFFFFFFFFFFFFFFFFFFFFFFFFFFFFFFFFFFFFFFFFC7634D81F4372DDF581A0DB248B0A77AECEC196ACCC52973
def ecG : Nat × Nat :=
  (0xAA87CA22BE8B05378EB1C71EF320AD746E1D3B628BA79B9859F741E082542A385502F25DBF55296C3A545E3872760AB7,
   0x3617DE4A96262C6F5D9E98BF9292DC29F8F41DBD289A147CE9DA3113B5F0B8C00A60B1CE1D7E819D7A431D7C90EA0E5F)

/-- A power modulo m, for exponents below 2^384. -/
def powMod (m b e : Nat) : Nat :=
  (List.range 384).foldr (fun k r => let q := r * r % m; if bitAt e k then q * b % m else q) 1

/-- The inverse modulo a prime. -/
def invMod (m a : Nat) : Nat := powMod m a (m - 2)

/-- The difference modulo the field prime. -/
def ecSub (a b : Nat) : Nat := (a + ecP - b % ecP) % ecP

/-- The third point of a line of slope l through a point, mirrored. -/
def ecThird (l : Nat) (a : Nat × Nat) (x : Nat) : Nat × Nat :=
  let x3 := ecSub (l * l) (a.1 + x)
  (x3, ecSub (l * ecSub a.1 x3) a.2)

/-- The sum of two points of the curve; none is the point at infinity. -/
def ecAdd : Option (Nat × Nat) → Option (Nat × Nat) → Option (Nat × Nat)
  | none, b => b
  | a, none => a
  | some a, some b =>
    if a.1 ≠ b.1 then some (ecThird (ecSub b.2 a.2 * invMod ecP (ecSub b.1 a.1) % ecP) a b.1)
    else if a.2 = b.2 ∧ a.2 ≠ 0 then some (ecThird ((3 * a.1 * a.1 + ecP - 3) * invMod ecP (2 * a.2) % ecP) a b.1)
    else none

/-- A multiple of a point. -/
def ecMul (n : Nat) (a : Nat × Nat) : Option (Nat × Nat) :=
  (List.range 384).foldr (fun k r => let d := ecAdd r r; if bitAt n k then ecAdd d (some a) else d) none

/-- The point that a 49-byte compressed public key names, if it names one. -/
def ecPoint (k : List Byte) : Option (Nat × Nat) :=
  let x := beNat (k.drop 1)
  let c := (x * x * x + (ecP - 3) * x + ecB) % ecP
  let y := powMod ecP c ((ecP + 1) / 4)
  let odd := (k.headD 0).toNat
  if k.length ≠ 49 ∨ ecP ≤ x ∨ y * y % ecP ≠ c ∨ (odd ≠ 2 ∧ odd ≠ 3) then none
  else some (x, if y % 2 = odd % 2 then y else (ecP - y) % ecP)

/-- The verdict on a signature of 96 bytes: r and s, each a 48-byte big-endian integer, under a public key (R201). -/
def ecdsaOk (key : List Byte) (digest : Nat) (sig : List Byte) : Bool :=
  let r := beNat (sig.take 48)
  let s := beNat (sig.drop 48)
  match ecPoint key with
  | none => false
  | some q =>
    if sig.length ≠ 96 ∨ r = 0 ∨ ecN ≤ r ∨ s = 0 ∨ ecN ≤ s then false
    else
      let w := invMod ecN s
      match ecAdd (ecMul (digest * w % ecN) ecG) (ecMul (r * w % ecN) q) with
      | none => false
      | some p => p.1 % ecN == r

/-! ### AES-256 -/

/-- Multiplication of bytes as polynomials over two elements modulo x⁸ + x⁴ + x³ + x + 1. -/
def gfMul (a b : Nat) : Nat :=
  (List.range 8).foldr (fun k r =>
    let d := if 128 ≤ r then (2 * r) ^^^ 0x11B else 2 * r
    if bitAt b k then d ^^^ a else d) 0

/-- The inverse of a byte, 0 for 0: its power 254. -/
def gfInv (a : Nat) : Nat :=
  let sq := fun x => gfMul x x
  let a3 := gfMul (sq a) a
  let a15 := gfMul (sq (sq a3)) a3
  let a127 := gfMul (sq (gfMul (sq (gfMul (sq a15) a)) a)) a
  sq a127

/-- The byte substitution and its inverse. -/
def aesSub (a : Nat) : Nat :=
  let b := gfInv a
  let rot := fun k => b * 2 ^ k % 256 + b / 2 ^ (8 - k)
  b ^^^ rot 1 ^^^ rot 2 ^^^ rot 3 ^^^ rot 4 ^^^ 0x63
def aesUnsub (a : Nat) : Nat :=
  let rot := fun k => a * 2 ^ k % 256 + a / 2 ^ (8 - k)
  gfInv (rot 1 ^^^ rot 3 ^^^ rot 6 ^^^ 0x05)

/-- The key schedule, latest word first: `n` more words, of which the next has number `k`. -/
def aesSched : Nat → Nat → List (List Nat) → List (List Nat)
  | 0, _, w => w
  | n + 1, k, w =>
    let t := w.headD []
    let t := if k % 8 = 0 then
        List.zipWith (fun a b => a ^^^ b) ((t.drop 1 ++ t.take 1).map aesSub) [2 ^ (k / 8 - 1), 0, 0, 0]
      else if k % 8 = 4 then t.map aesSub else t
    aesSched n (k + 1) (List.zipWith (fun a b => a ^^^ b) (w.getD 7 []) t :: w)

/-- The 15 round keys of a 32-byte key. -/
def aesKeys (key : List Nat) : List (List Nat) :=
  let w := (aesSched 52 8 (((List.range 8).map fun k => (key.drop (4 * k)).take 4).reverse)).reverse
  (List.range 15).map fun r => ((w.drop (4 * r)).take 4).flatten

/-- A block mixed with a round key; its bytes moved along the rows by `d` columns times the row; its columns multiplied by a
circulant matrix. -/
def aesXor (a b : List Nat) : List Nat := List.zipWith (fun x y => x ^^^ y) a b
def aesShift (d : Nat) (b : List Nat) : List Nat := (List.range 16).map fun k => b.getD ((k + 4 * d * (k % 4)) % 16) 0
def aesMix (m : List Nat) (b : List Nat) : List Nat :=
  (List.range 16).map fun k =>
    (List.range 4).foldl (fun v j => v ^^^ gfMul (b.getD (k / 4 * 4 + j) 0) (m.getD ((j + 4 - k % 4) % 4) 0)) 0

/-- A block of 16 bytes encrypted and decrypted under round keys. -/
def aesEnc (ks : List (List Nat)) (b : List Nat) : List Nat :=
  let b := ((ks.drop 1).take 13).foldl (fun b k => aesXor (aesMix [2, 3, 1, 1] (aesShift 1 (b.map aesSub))) k) (aesXor b (ks.headD []))
  aesXor (aesShift 1 (b.map aesSub)) (ks.getD 14 [])
def aesDec (ks : List (List Nat)) (b : List Nat) : List Nat :=
  let b := (aesShift 3 (aesXor b (ks.getD 14 []))).map aesUnsub
  let b := ((ks.drop 1).take 13).foldr (fun k b => (aesShift 3 (aesMix [14, 11, 13, 9] (aesXor b k))).map aesUnsub) b
  aesXor b (ks.headD [])

/-- The bytes of a number, most significant first. -/
def natBytes (n v : Nat) : List Nat := (beBytes n v).map fun b => b.toNat
/-- The number that bytes spell, most significant first. -/
def bytesNat (b : List Nat) : Nat := b.foldl (fun n x => n * 256 + x) 0

/-- The key bytes of 8 fuse words, word 0 first and little-endian, as the unique identifier is read (R759). -/
def keyBytes (ws : List Nat) : List Nat := (ws.flatMap fun w => leBytes 4 w).map fun b => b.toNat

/-- A block doubled in the field of 128-bit blocks. -/
def cmacDouble (v : Nat) : Nat := if 2 ^ 127 ≤ v then (2 * v % 2 ^ 128) ^^^ 0x87 else 2 * v

/-- AES-256-CMAC of bytes under the key in 8 fuse words, as a number. -/
def cmac256 (ws : List Nat) (bs : List Byte) : Nat :=
  let ks := aesKeys (keyBytes ws)
  let enc := fun v => bytesNat (aesEnc ks (natBytes 16 v))
  let k1 := cmacDouble (enc 0)
  let n := (bs.length - 1) / 16
  let last := bs.drop (16 * n)
  let fin := if last.length = 16 then beNat last ^^^ k1 else beNat (padTo 16 (last ++ [0x80#8])) ^^^ cmacDouble k1
  let v := (List.range n).foldl (fun v k => enc (v ^^^ beNat (slice bs (16 * k) 16))) 0
  enc (v ^^^ fin)

/-- The RFC 3394 unwrapping of a 40-byte wrapped key under the key in 8 fuse words: the 8 words of the key, if the integrity
check holds. -/
def keyUnwrap (ws : List Nat) (bs : List Byte) : Option (List Nat) :=
  let ks := aesKeys (keyBytes ws)
  let r := (List.range 4).map fun k => beNat (slice bs (8 + 8 * k) 8)
  let (a, r) := (List.range 24).foldr (fun t (a, r) =>
      let b := bytesNat (aesDec ks (natBytes 16 ((a ^^^ (t + 1)) * 2 ^ 64 + r.getD (t % 4) 0)))
      (b / 2 ^ 64, r.set (t % 4) (b % 2 ^ 64))) (beNat (bs.take 8), r)
  if a = 0xA6A6A6A6A6A6A6A6 then some ((List.range 8).map fun k => leNat (slice (r.flatMap fun v => beBytes 8 v) (4 * k) 4)) else none

end Sys2Proof.Machine
end

