-- ==== Sys2Proof/Machine/ChargeCore.lean ====
section
/-! DEFINITION. The charge arbiter: release paths, the transitions of Table 2.2 with everything that happens in the
same decision, cast-on arbitration, planned handovers (spec/02, R64 to R86, R120, R813; spec/15, R695, R699, R701;
spec/08, R428). -/

namespace Sys2Proof.Machine
open Sys2Proof

/-- Every stream's registers changed. -/
def State.mapStreams (s : State) (f : State → Nat → State) : State := (List.range 256).foldl f s

/-- Every MM_RUN is 0 (R695). -/
def State.clearRuns (s : State) (keep : List Nat) : State :=
  s.mapStreams fun s n => if keep.contains n then s else s.setf (A.COL_STREAM_STAT n) F.COL_STREAM_STAT.MM_RUN 0

/-- Every BLOCKED bit is 0 (R698). -/
def State.clearBlocked (s : State) (keep : List Nat) : State :=
  s.mapStreams fun s n => if keep.contains n then s else s.setf (A.COL_STREAM_STAT n) F.COL_STREAM_STAT.BLOCKED 0

/-- A running self-test is abandoned (R699). -/
def State.abandonTest (s : State) : State :=
  match s.col.test with
  | none => s
  | some _ =>
    let s := { s with col := { s.col with test := none, again := [] } }
    let s := (s.setf A.COL_STATUS F.COL_STATUS.ST_RUN 0).setf A.COL_STATUS F.COL_STATUS.ST_RESULT 6
    (s.clearBlocked []).clearRuns []

/-! ### Transitions -/

/-- MODE changes; when it leaves 1oo2D every MM_RUN is set to 0 (R695). -/
def State.setMode (s : State) (m : ChgMode) : State :=
  let was := s.chg.mode
  let s := { s with chg := { s.chg with mode := m } }
  if was = .two ∧ m ≠ .two then s.clearRuns [] else s

/-- A half enters a state: TRV_CAUSE, the copy in its endpoint, the Larder's record, and the interrupt sources of a
changed charge state (R73, R74, R78, R814, Tables 13.4 and 14.12). -/
def State.enter (s : State) (h : Half) (dest : ChgState) (cause : Nat) : State :=
  let c := s.chg.half h
  let c' : HalfChg := { c with st := dest, cause := cause, fromSt := c.st.code, toSt := dest.code, count := min 0xFFFF (c.count + 1) }
  let s := { s with chg := s.chg.putHalf h c' }
  let s := s.mapEp h fun e => { e with stateCopy := dest.code }
  let s := s.larderEvent 2 0xFF h.n (Config.evtPayload 2 h.n (cause * 256 + c.st.code * 16 + dest.code)) []
  let s := s.hartLatch (fun k => halfOf (k / 2) == h) 34
  [A.HI_PEND 0, A.HI_PEND 1, A.QH_HI_PEND 0, A.QH_HI_PEND 1, A.LB_HI_PEND 0].foldl
    (fun s a => s.wrn a (s.rdn a ||| 2 ^ 17)) s

/-- Isolation of a half asserted or dropped (R701); it returns the half's pins to their reset states (R747). -/
def State.isolate (s : State) (h : Half) (on : Bool) : State :=
  let r := s.hrst h
  let s := s.putHrst h { r with isolated := on }
  if on then s.padsReset h else s

/-- Domains whose OWNER belongs to a half that leaves pass to an ALT_OWNER of a half that serves (R428). -/
def State.ownerHandover (s : State) (h : Half) : State :=
  (List.range 4).foldl (fun s d =>
    let cfg := A.GAUGE_DOM_CFG d
    let alt := s.fld cfg F.GAUGE_DOM_CFG.ALT_OWNER
    let st := A.GAUGE_DOM_STATUS d
    match masterHalf alt with
    | some a =>
      if alt ≠ 0 ∧ masterHalf (s.fld cfg F.GAUGE_DOM_CFG.OWNER) = some h ∧ s.inService a ∧ a ≠ h then
        let s := s.setf st F.GAUGE_DOM_STATUS.OWNER_NOW alt
        if s.fld st F.GAUGE_DOM_STATUS.STATE = 1 then s.setf st F.GAUGE_DOM_STATUS.STATE 2 else s
      else s
    | none => s) s

/-- A pending planned handover is cancelled (R813). -/
def State.cancelHandover (s : State) : State :=
  let s := { s with chg := { s.chg with service := none } }
  s.wr64 A.TRV_HANDOVER_LO A.TRV_HANDOVER_HI 0

/-- The staged digests of a half cleared (R133). -/
def State.clearStaged (s : State) (h : Half) : State :=
  match h with
  | .k => { s with stagedK := none }
  | .p => { s with stagedP := none }

/-- PROBATION and UPDATE of a half. -/
def State.setProbation (s : State) (h : Half) (prob upd : Bool) : State :=
  let c := s.chg.half h
  { s with chg := s.chg.putHalf h { c with probation := prob, update := upd } }

/-- RESYNC of a half, and the resynchronisation itself when it ends. -/
def State.endResync (s : State) : State :=
  match s.resync with
  | none => s
  | some r =>
    let c := s.chg.half r.cand
    { s with resync := none, chg := s.chg.putHalf r.cand { c with resync := false } }

/-- A half leaves by T4, T5 or T8: its target state, the cause, and for T4 and T5 the diagnostic it is logged with. -/
structure Exit where
  half : Half
  dest : ChgState
  cause : Nat
  diag : Option Diag
  deriving DecidableEq, Repr

/-- T4, T5 and T8 leave these states (Table 2.2). -/
def Exit.allowed (x : Exit) (c : ChgState) : Bool :=
  match x.dest with
  | .lost => c == .init || c == .candidate || c == .charge || c == .standby || c == .demoted
  | .demoted => c == .charge || c == .standby
  | .service => c != .charge && c != .service
  | _ => false

/-- What belongs to one half's leaving: its record, its one F3 fault, its queue, its isolation, a pending handover,
a running self-test, its part in input agreement and resynchronisation (R78, R120, R699, R701, R813). -/
def State.exitOne (s : State) (x : Exit) : State :=
  let was := s.inService x.half
  let s := s.enter x.half x.dest x.cause
  let s := match x.diag with
    | some d => s.faultD d.code 3 (originHalf x.half) d.source d.d5 d.d6 d.d7
    | none => s
  let s := s.cancelHandover.abandonTest
  let s := if was then s.colDiscard x.half (fun _ => true) else s
  let s := s.setProbation x.half false false
  let iso := match x.dest with
    | .service => s.flag A.COL_CTRL F.COL_CTRL.ISO_SERVICE || (s.hrst x.half).isolated
    | _ => true
  let s := s.isolate x.half iso
  let ia := s.ia
  let s := match x.half with
    | .k => { s with ia := { ia with k := { ia.k with part := false, await := false } } }
    | .p => { s with ia := { ia with p := { ia.p with part := false, await := false } } }
  match s.resync with
  | some r => if r.cand = x.half then s.endResync else s
  | none => s

/-- HOLDER has changed in the cycle of a trigger c0: the agreement of that cycle takes the new one (R108). -/
def State.iaHolder (s : State) : State :=
  if s.ia.c0 = s.raw ∧ !s.ia.commitSent then { s with ia := { s.ia with holder := s.chg.holder } } else s

/-- No half is in CHARGE or STANDBY: a half already in CANDIDATE opens the cast-on window now, and its
resynchronisation ends (R85). -/
def State.openWindow (s : State) : State :=
  if s.inService .k ∨ s.inService .p then s
  else
    let s := s.endResync
    if s.chgOf .k = .candidate ∨ s.chgOf .p = .candidate then { s with chg := { s.chg with window := some s.raw } } else s

/-- What the exits of a decision leave (R75 to R77, R81, R85, R117 case 5, R133, R428): the staged digests go only with a
half that takes charge out of update standby. -/
def State.settle (s : State) (old : Option Half) : State :=
  match old with
  | some h =>
    if s.chgOf h = .charge then
      if s.chgOf h.other = .standby then s else (s.setMode .one).releaseAlone h
    else if s.chgOf h.other = .standby then
      let upd := (s.chg.half h.other).update
      let s := s.enter h.other .charge 0x31
      let s := s.setProbation h.other false false
      let s := if upd then s.clearStaged h.other else s
      let s := { s with chg := { s.chg with holder := holderCode h.other, grant := 0, last := none } }
      (s.setMode .one).iaHolder
    else
      let s := { s with chg := { s.chg with holder := 0, grant := 0, last := none } }
      let s := (s.setMode .none).fault 0x48 4 originShared 0
      s.iaHolder.openWindow
  | none => s

/-- The half in CHARGE, if one. -/
def State.charged (s : State) : Option Half :=
  if s.chgOf .k = .charge then some .k else if s.chgOf .p = .charge then some .p else none

/-- Of the exits of one half in one TRV cycle, T4 comes before T5 and T5 before T8 (R80). -/
def Exit.rank (x : Exit) : Nat :=
  match x.dest with
  | .lost => 0
  | .demoted => 1
  | _ => 2

/-- An exit is the one that its half takes among those of one cycle (R80). -/
def Exit.first (xs : List Exit) (x : Exit) : Bool := !xs.any fun y => y.half == x.half && decide (y.rank < x.rank)

/-- The arbiter takes the allowed exits of one TRV cycle, one of each half (R80, R81); none while TRIVET_LOST is asserted
(R126). -/
def State.exits (s : State) (xs : List Exit) : State :=
  if s.trivetLost then s
  else
    let xs := xs.filter fun x => x.allowed (s.chgOf x.half)
    let xs := xs.filter (Exit.first xs)
    if xs = [] then s
    else
      let old := s.charged
      let gone := xs.filter fun x => s.inService x.half
      let s := { s with chg := { s.chg with decided := some s.raw } }
      let s := xs.foldl State.exitOne s
      let s := s.settle old
      gone.foldl (fun s x => s.ownerHandover x.half) s

/-- T4 of one half (R78: the code follows the cause). -/
def State.toLost (s : State) (h : Half) (cause code : Nat) : State := s.exits [⟨h, .lost, cause, some ⟨code, 0, 0, 0, 0⟩⟩]

/-- T5 of one half. -/
def State.demote (s : State) (h : Half) (cause : Nat) (d : Diag) : State := s.exits [⟨h, .demoted, cause, some d⟩]

/-- T8 of one half. -/
def State.toService (s : State) (h : Half) (cause : Nat) : State := s.exits [⟨h, .service, cause, none⟩]

/-! ### Cast-on arbitration (R85) -/

/-- A candidate is granted charge alone (T2). -/
def State.grantAlone (s : State) (h : Half) : State :=
  let s := s.enter h .charge 0x02
  let s := { s with chg := { s.chg with holder := holderCode h, grant := holderCode h, granted := true, window := none, last := none } }
  (s.setMode .one).iaHolder

/-- Both candidates are granted: Knit charge, Purl standby (T2, T3). -/
def State.grantBoth (s : State) : State := ((s.grantAlone .k).enter .p .standby 0x02).setMode .two

/-- The cast-on window closes, once 100 µs have passed since t1: a half in CANDIDATE alone is granted charge (R85, case 2). -/
def State.castOnClose (s : State) : State :=
  match s.chg.window with
  | none => s
  | some t =>
    if s.raw < t + 100 * usTicks then s
    else
      let s := { s with chg := { s.chg with window := none } }
      if s.inService .k ∨ s.inService .p then s
      else if s.chgOf .k = .candidate then s.grantAlone .k
      else if s.chgOf .p = .candidate then s.grantAlone .p
      else s

/-! ### Resynchronisation (R130 to R133) -/

/-- The windows may not be copied: one ends beyond the banks, or they exceed 2 MiB together (R130). -/
def State.windowsBad (s : State) : Bool :=
  let size := fun n => s.fld (A.TEN_RS_SIZE n) F.TEN_RS_SIZE.SIZE * 64
  let base := fun n => s.fld (A.TEN_RS_BASE n) F.TEN_RS_BASE.OFFSET * 64
  (List.range 8).any (fun n => size n != 0 && decide (0x200000 < base n + size n)) ||
  decide (0x200000 < (List.range 8).foldl (fun t n => t + size n) 0)

/-- T10: a resynchronisation is refused (R130, R132, R133). -/
def State.refuseResync (s : State) (h : Half) (cause : Nat) : State :=
  if s.trivetLost then s
  else
    let s := (s.endResync.enter h .service cause).clearStaged h
    s.isolate h (s.flag A.COL_CTRL F.COL_CTRL.ISO_SERVICE || (s.hrst h).isolated)

/-- The application image of a half. -/
def State.app (s : State) : Half → Option AppImage
  | .k => s.appK
  | .p => s.appP

/-- The Recipes of a half: engine of the half and digest. -/
def State.recipeSet (s : State) (h : Half) : List (Nat × Nat) :=
  (List.range 12).filterMap fun i => ((s.eng (12 * h.n + i)).recipe).map fun r => (i, r.digest)

/-- The Colander stream table as bytes; one table serves both halves. -/
def State.streamTable (s : State) : List Byte :=
  (List.range 2048).flatMap fun k => leBytes 4 (s.rdn (A.COL_STREAM 0 0 + 4 * k))

/-- The digests of a half's set, and those staged for it. -/
def State.digests (s : State) (h : Half) : Digests :=
  ⟨((s.app h).map fun a => a.digest).getD Config.noImage, Config.setDigest (s.recipeSet h), sha384 s.streamTable⟩
def State.staged (s : State) : Half → Option Digests
  | .k => s.stagedK
  | .p => s.stagedP

/-- The windows' granules of the holder's banks copied into the candidate's banks. -/
def State.copyWindow (s : State) (from_ : Half) (base size : Nat) : State :=
  s.putbs (bankAt from_.other base) (s.mbs (bankAt from_ base) size)

/-- Every window copied once (R130). -/
def State.copyWindows (s : State) (from_ : Half) : State :=
  (List.range 8).foldl (fun s n =>
    s.copyWindow from_ (s.fld (A.TEN_RS_BASE n) F.TEN_RS_BASE.OFFSET * 64)
      (s.fld (A.TEN_RS_SIZE n) F.TEN_RS_SIZE.SIZE * 64)) s

/-- Dirty granules copied. -/
def State.copyGranules (s : State) (from_ : Half) (gs : List Nat) : State :=
  gs.foldl (fun s g => s.copyWindow from_ (g * 64) 64) s

/-- The bytes of all windows together. -/
def State.windowBytes (s : State) : Nat :=
  (List.range 8).foldl (fun t n => t + s.fld (A.TEN_RS_SIZE n) F.TEN_RS_SIZE.SIZE * 64) 0

/-- Re-admission of a candidate begins (R130, R132 steps 1 and 2, R133): the bulk copy reads the windows as they are
now, and later writes make granules dirty. With different digests and invalid windows at once the model takes the digests'
cause (DESIGN CHOICE, log entry 49), and it counts the bulk copy as the first of the 16 passes (DESIGN CHOICE, log entry
49). -/
def State.startResync (s : State) (h : Half) : State :=
  let okHolder := decide (s.digests h = s.digests h.other)
  let okStaged := decide (some (s.digests h) = s.staged h)
  if !okHolder && !okStaged then s.refuseResync h 0x34
  else if s.windowsBad then s.refuseResync h 0x38
  else
    let c := s.chg.half h
    let r : Resync := ⟨h, 1, [], false, okStaged && !okHolder, s.now, s.windowBytes⟩
    let s := { s with resync := some r, chg := s.chg.putHalf h { c with resync := true } }
    s.copyWindows h.other

/-- T1 (R74, R85, R132); a window that has closed before it grants the other half first. -/
def State.t1 (s : State) (h : Half) : State :=
  if s.trivetLost ∨ s.chgOf h ≠ .init then s
  else
    let s := s.castOnClose.enter h .candidate 0x01
    if s.inService .k ∨ s.inService .p then
      if s.holder = some h.other then s.startResync h else s
    else match s.chg.window with
      | none => { s with chg := { s.chg with window := some s.raw } }
      | some t =>
        if s.chgOf h.other = .candidate ∧ s.raw < t + 100 * usTicks then s.grantBoth
        else { s with chg := { s.chg with window := some t } }

/-! ### Planned handovers (R82, R83, R813) -/

/-- The compare unit of TEN_IA_CTRL.TRIG. -/
def State.trigUnit (s : State) : Nat := s.fld A.TEN_IA_CTRL F.TEN_IA_CTRL.TRIG

/-- A planned handover is pending. -/
def State.handoverPending (s : State) : Bool := s.rd64 A.TRV_HANDOVER_LO A.TRV_HANDOVER_HI != 0

/-- A planned handover may be accepted: the other half is in STANDBY, out of probation or in update standby, none
is pending, and a trigger instant exists (R82, R83, R813). -/
def State.mayHandover (s : State) : Bool :=
  match s.holder with
  | none => false
  | some h =>
    let c := s.chg.half h.other
    c.st == .standby && (!c.probation || c.update) && !s.handoverPending &&
    s.flag (A.GAUGE_CMP_CTRL s.trigUnit) F.GAUGE_CMP_CTRL.EN

/-- A planned handover is accepted; `service` is the half that T8 then takes out. -/
def State.planHandover (s : State) (service : Option Half) : State :=
  let s := { s with chg := { s.chg with service := service, performed := none } }
  s.wr64 A.TRV_HANDOVER_LO A.TRV_HANDOVER_HI (s.cmpInstant s.trigUnit)

/-- T7 and T6 in one cycle at the instant, then T8 where it was asked (R82 to R84, R133). A pending instant with no half in
CHARGE, or none in STANDBY, which only a register write can make, changes no state (R74). -/
def State.doHandover (s : State) : State :=
  match s.holder with
  | none => s.cancelHandover
  | some h =>
    let n := h.other
    if s.chgOf h ≠ .charge ∨ s.chgOf n ≠ .standby then s.cancelHandover
    else
    let serv := s.chg.service
    let c := s.chg.half n
    let at_ := s.rd64 A.TRV_HANDOVER_LO A.TRV_HANDOVER_HI
    let s := if c.update then s.clearStaged n else s
    let s := (s.enter h .standby 0x30).enter n .charge 0x30
    let s := (s.setProbation n false false).cancelHandover
    let s := { s with chg := { s.chg with holder := holderCode n, grant := holderCode n, last := some (at_, h), performed := some at_ } }
    let s := s.iaHolder
    match serv with
    | some x => if x = h then s.toService h 0x32 else s
    | none => s

end Sys2Proof.Machine
end

