-- ==== Sys2Proof/Machine/GateCore.lean ====
section
/-! DEFINITION. Time-aware gates: the list in force, the entry at a time, and what fits (spec/07, R377 to R386). -/

namespace Sys2Proof.Machine
open Sys2Proof

/-- The gate run of port p of a half. -/
def State.gate (s : State) (h : Half) (p : Nat) : GateRun := storeGet GateRun.init (s.plane h).gate p
def State.putGate (s : State) (h : Half) (p : Nat) (g : GateRun) : State :=
  s.mapPlane h fun x => { x with gate := storePut GateRun.init x.gate p g }

/-- Whole nanoseconds of a domain set now. -/
def State.gateNs (s : State) (d : DomSet) : Nat := (d.at s.raw / 65536).toNat

/-- The set a port's gate list runs on: the domain's, or the former one to the end of its cycle (R384). -/
def State.gateSet (s : State) (h : Half) (p : Nat) : DomSet :=
  let cur := (s.dom (s.fld (A.SWG_CTRL h.n p) F.SWG_CTRL.DOMAIN)).cur
  match (s.gate h p).held with
  | some (d, e) => if s.gateNs d < e then d else cur
  | none => cur

/-- Operational base time and cycle in nanoseconds. -/
def State.operBase (s : State) (h : Half) (p : Nat) : Nat :=
  s.rd64 (A.SWG_O_BASE_SEC_LO h.n p) (A.SWG_O_BASE_SEC_HI h.n p) * 1000000000 +
    s.fld (A.SWG_O_BASE_NS h.n p) F.SWG_O_BASE_NS.NS
def State.operCycle (s : State) (h : Half) (p : Nat) : Nat := s.fld (A.SWG_O_CYCLE h.n p) F.SWG_O_CYCLE.NS

/-- Admin base time and cycle in nanoseconds. -/
def State.adminBase (s : State) (h : Half) (p : Nat) : Nat :=
  s.rd64 (A.SWG_A_BASE_SEC_LO h.n p) (A.SWG_A_BASE_SEC_HI h.n p) * 1000000000 +
    s.fld (A.SWG_A_BASE_NS h.n p) F.SWG_A_BASE_NS.NS
def State.adminCycle (s : State) (h : Half) (p : Nat) : Nat := s.fld (A.SWG_A_CYCLE h.n p) F.SWG_A_CYCLE.NS

/-- The first cycle start base + k × cycle that is not before t (R378, R382). -/
def cycleStart (base cycle t : Nat) : Nat :=
  if t ≤ base ∨ cycle = 0 then base else base + (t - base + cycle - 1) / cycle * cycle

/-- The operational list of a port: gate bits and intervals, in order. -/
def State.gateList (s : State) (h : Half) (p : Nat) : List (Nat × Nat) :=
  let b := s.fld (A.SWG_CTRL h.n p) F.SWG_CTRL.OPER
  (List.range (s.fld (A.SWG_STATUS h.n p) F.SWG_STATUS.OPER_LEN)).map fun e =>
    (s.fld (A.SWG_GATES h.n p b e) F.SWG_GATES.GATES, s.rdn (A.SWG_INTERVAL h.n p b e))

/-- The entry that covers an offset in the cycle: its index, and the time left in it; the last entry holds to the
end of the cycle, and the list is cut there (R378). -/
def gateEntry (cycle : Nat) : List (Nat × Nat) → Nat → Nat → Nat × Nat
  | [], i, off => (i - 1, cycle - off)
  | [_], i, off => (i, cycle - off)
  | (_, n) :: es, i, off =>
    if off < n then (i, n - off)
    else
      let r := gateEntry (cycle - n) es (i + 1) (off - n)
      r

/-- The offset in the running cycle. -/
def State.gateOff (s : State) (h : Half) (p : Nat) : Nat :=
  let t := s.gateNs (s.gateSet h p)
  let c := s.operCycle h p
  if c = 0 then 0 else (t - s.operBase h p) % c

/-- The open time of class c from an offset on: entries in which its gate stays open count as one interval, to the
end of the cycle at most (R379, R381). -/
def openFor (c cycle : Nat) : List (Nat × Nat) → Nat → Nat
  | [], _ => 0
  | [(g, _)], off => if bitAt g c then cycle - off else 0
  | (g, n) :: es, off =>
    if off < n then
      if bitAt g c then min (n - off) (cycle - off) + (if n ≤ cycle then openFor c (cycle - n) es 0 else 0) else 0
    else openFor c (cycle - n) es (off - n)

/-- The longest single open interval of class c in a list; `run` is the one that reaches this entry (R381). -/
def longestOpen (c : Nat) : Nat → List (Nat × Nat) → Nat → Nat
  | _, [], run => run
  | cycle, [(g, _)], run => if bitAt g c then run + cycle else run
  | cycle, (g, n) :: es, run =>
    let n' := min n cycle
    if bitAt g c then longestOpen c (cycle - n') es (run + n')
    else max run (longestOpen c (cycle - n') es 0)

/-- The gates of a port run. -/
def State.gated (s : State) (h : Half) (p : Nat) : Bool := p < 9 && s.flag (A.SWG_CTRL h.n p) F.SWG_CTRL.EN

/-- The open time class c has from now; none before the first cycle start, when all gates are closed (R378). -/
def State.openNow (s : State) (h : Half) (p c : Nat) : Nat :=
  if (s.gate h p).started || decide ((s.gate h p).first ≤ s.gateNs (s.gateSet h p)) then openFor c (s.operCycle h p) (s.gateList h p) (s.gateOff h p) else 0

/-- Gate lists on a domain whose set changes keep its former set to the end of their cycle (R384). -/
def State.gatesHold (s : State) (d : Nat) (old : DomSet) : State :=
  [Half.k, Half.p].foldl (fun s h => (List.range 9).foldl (fun s p =>
    let g := s.gate h p
    if s.gated h p ∧ s.fld (A.SWG_CTRL h.n p) F.SWG_CTRL.DOMAIN = d ∧ g.started ∧ g.held.isNone then
      s.putGate h p { g with held := some (old, cycleStart (s.operBase h p) (s.operCycle h p) (s.gateNs old + 1)) }
    else s) s) s

end Sys2Proof.Machine
end

