-- ==== Sys2Proof/Machine/MacCore.lean ====
section
/-! DEFINITION. The port counters (spec/06, R293 to R304), ports numbered 12 × half + switch port. -/

namespace Sys2Proof.Machine
open Sys2Proof

/-- The period counter that sums a free-running counter, if one does (Table 6.5). -/
def periodOf (k : Nat) : Option Nat :=
  if k = 0 then some 0 else if k = 1 then some 1 else if 7 ≤ k ∧ k ≤ 11 then some 2 else if k = 12 then some 3
  else if k = 13 then some 4 else if k = 14 then some 5 else if k = 15 then some 6
  else if 20 ≤ k ∧ k ≤ 22 then some 7 else none

/-- The raw count of the last event that marks the statistics periods of a port; an event that is due in the present tick counts,
also before GAUGE_COMPARE_EVENT has run (R17, R299). -/
def State.perEvent (s : State) (p : Nat) : Option Nat :=
  let k := s.fld (A.MAC_PER_CTRL p) F.MAC_PER_CTRL.CMP
  if s.cmpDue k then some s.raw else s.cmpLast k

/-- The boundary at raw count t: the live counters are latched into the shadows and restart, SEQ advances, VALID is set (R300). -/
def State.periodClose (s : State) (p t : Nat) : State :=
  let s := (List.range 8).foldl (fun s j =>
    (s.wr (A.MAC_PER_SHADOW p j) (s.rd (A.MAC_PER_LIVE p j))).wr (A.MAC_PER_LIVE p j) 0) s
  let s := (s.incMod (A.MAC_PER_STATUS p) F.MAC_PER_STATUS.SEQ).setf (A.MAC_PER_STATUS p) F.MAC_PER_STATUS.VALID 1
  s.mapPort p fun x => { x with bound := t + 1 }

/-- The boundary that a port has not yet taken, if it lies at or before an instant. -/
def State.perPending (s : State) (p at_ : Nat) : Option Nat :=
  if s.flag (A.MAC_PER_CTRL p) F.MAC_PER_CTRL.EN then
    (s.perEvent p).filter fun t => decide ((s.port p).bound ≤ t) && decide (t ≤ at_)
  else none

/-- A period counter of a port advances, saturating, for an event at an instant: a boundary at or before the instant is taken
first, and an event from before the last boundary counts in the period that it closed (R298 to R302). -/
def State.perCnt (s : State) (p j n at_ : Nat) : State :=
  if s.flag (A.MAC_PER_CTRL p) F.MAC_PER_CTRL.EN then
    let s := match s.perPending p at_ with
      | some t => s.periodClose p t
      | none => s
    let a := if at_ + 1 < (s.port p).bound then A.MAC_PER_SHADOW p j else A.MAC_PER_LIVE p j
    s.wrn a (min 0xFFFFFFFF (s.rdn a + n))
  else s

/-- Counter k of a port advances by `n` modulo 2^32 for an event at an instant; a change of its bit 31 sets its WRAP bit (R293,
R295); its period counter advances while period statistics run (R302, R303). -/
def State.macCntAt (s : State) (p k n at_ : Nat) : State :=
  let old := s.rdn (A.MAC_CNT p k)
  let new := (old + n) % 2 ^ 32
  let s := s.wrn (A.MAC_CNT p k) new
  let s := if bitAt old 31 ≠ bitAt new 31 then
    s.wrn (A.MAC_CNT_WRAP p) (s.rdn (A.MAC_CNT_WRAP p) ||| 2 ^ k) else s
  match periodOf k with
  | some j => s.perCnt p j n at_
  | none => s

/-- A counter advances for an event of the present tick. -/
def State.macCnt (s : State) (p k n : Nat) : State := s.macCntAt p k n s.raw

/-- A broadcast, multicast or unicast destination: the offset of its counter from RX_UCAST or TX_UCAST. -/
def castOf (bs : List Byte) : Nat :=
  if (bs.take 6).all fun b => b = 0xFF then 2 else if (bs.headD 0).getLsbD 0 then 1 else 0

/-- A frame counted as received at its counting instant: RX_FRAMES_OK, its octets with the FCS, and its destination type
(Table 6.3, R299). -/
def State.rxCount (s : State) (p : Nat) (bs : List Byte) (at_ : Nat) : State :=
  ((s.macCntAt p 0 1 at_).macCntAt p 1 (bs.length + 4) at_).macCntAt p (2 + castOf bs) 1 at_

/-- A frame counted as sent; `n` is its length with padding and without FCS. -/
def State.txCount (s : State) (p : Nat) (bs : List Byte) (n : Nat) : State :=
  ((s.macCnt p 14 1).macCnt p 15 (n + 4)).macCnt p (16 + castOf bs) 1

/-- The speed of switch port n of a half in Mbit/s (Table 7.1). -/
def State.portMbps (s : State) (h : Half) (n : Nat) : Nat :=
  if n = 9 then 32000 else if n = 10 then 16000 else if n = 11 then 25000
  else if 4 ≤ n ∧ n < 8 then 10
  else match s.fld (A.MAC_STATUS (12 * h.n + n)) F.MAC_STATUS.SPEED with
    | 0 => 10
    | 1 => 100
    | 2 => 1000
    | 3 => 2500
    | _ => 10000

end Sys2Proof.Machine
end

