-- ==== Sys2Proof/Machine/PlaneCore.lean ====
section
/-! DEFINITION. What a switch plane does with a frame: classification, lookup, metering, the Sieve, admission,
duplicates and the twin check (spec/07, R344 to R371, R387 to R400). -/

namespace Sys2Proof.Machine
open Sys2Proof

/-! ### Parsing -/

/-- Byte i of a frame, 0 past its end. -/
def byteAt (bs : List Byte) (i : Nat) : Nat := (bs.getD i 0).toNat

/-- Two bytes of a frame in network order. -/
def be16At (bs : List Byte) (i : Nat) : Nat := byteAt bs i * 256 + byteAt bs (i + 1)

/-- A TPID of an outer tag (R347). -/
def isTpid (e : Nat) : Bool := e == 0x8100 || e == 0x88A8

/-- The outer tag of a frame: PCP, DEI, VID (R347). -/
def outerTag (bs : List Byte) : Option (Nat × Bool × Nat) :=
  if isTpid (be16At bs 12) then
    let t := be16At bs 14
    some (t / 0x2000, bitAt t 12, t % 0x1000)
  else none

/-- The offset of the EtherType after at most two VLAN tags (R371, R438). -/
def etherOff (bs : List Byte) : Nat :=
  if isTpid (be16At bs 12) then (if isTpid (be16At bs 16) then 20 else 16) else 12

/-- A 48-bit address as the tables hold it, byte 0 in bits [7:0]. -/
def addrOf (bs : List Byte) (off : Nat) : Nat := leNat (slice bs off 6)

/-- The cells a stored frame of `n` bytes occupies (R345). -/
def frameCells (n : Nat) : Nat := (n + 16 + 255) / 256

/-! ### Counters and the records of the buffer -/

/-- The port of a half as the port blocks number it. -/
def portNo (h : Half) (n : Nat) : Nat := 12 * h.n + n

/-- Cells charged to account (o, c): copies queued or held (R361). -/
def Plane.depth (x : Plane) (o c : Nat) : Nat :=
  let f := fun n (q : PCopy) => if q.outp = o ∧ q.cls = c then n + q.cells else n
  x.dup.foldl (fun n d => d.held.foldl f n) (x.voq.foldl f 0)

/-- Cells in the buffer that came from port i (R365). -/
def Plane.inCells (x : Plane) (i : Nat) : Nat :=
  let f := fun n (q : PCopy) => if q.inp = i then n + q.cells else n
  x.dup.foldl (fun n d => d.held.foldl f n) (x.voq.foldl f 0)

/-- All cells in the buffer. -/
def Plane.cells (x : Plane) : Nat :=
  let f := fun n (q : PCopy) => n + q.cells
  x.dup.foldl (fun n d => d.held.foldl f n) (x.voq.foldl f 0)

/-- Frames of a port may leave on its line: its link is up and TX_EN is 1 (R283). -/
def State.txOpen (s : State) (p : Nat) : Bool :=
  s.flag (A.MAC_STATUS p) F.MAC_STATUS.LINK && s.flag (A.MAC_CTRL p) F.MAC_CTRL.TX_EN

/-- A port may send PAUSE frames: PAUSE_TX_EN is 1, QUANTA is not 0 and frames may leave (R289, R292). -/
def State.pauseMay (s : State) (p : Nat) : Bool :=
  s.flag (A.MAC_CTRL p) F.MAC_CTRL.PAUSE_TX_EN && s.fld (A.MAC_PAUSE p) F.MAC_PAUSE.QUANTA != 0 && s.txOpen p

/-- A PAUSE frame of a port is due: that with quanta 0 after XON, or the first one of an XOFF (R289, R290). -/
def State.pauseDue (s : State) (p : Nat) : Bool :=
  s.pauseMay p && ((s.port p).xonDue || (s.flag (A.MAC_STATUS p) F.MAC_STATUS.XOFF && !(s.port p).announced))

/-- TXC of an RGMII port is held, or about to be, for a change of speed (R337). -/
def State.txcHeld (s : State) (p : Nat) : Bool := p % 12 == 8 && (s.port p).waitEnd != 0

/-- A TL port belongs to a segment that is in BIND_OFF: it finishes the frame in transmission and begins no other (R510). -/
def State.bindHeld (s : State) (p : Nat) : Bool :=
  let n := p % 12
  4 ≤ n && n < 8 && (List.range 8).any fun k => bitAt (s.rdn (A.WAKE_SEG_MEMB k)) (p / 12 * 4 + (n - 4)) &&
    s.flag (A.WAKE_SEG_CTRL k) F.WAKE_SEG_CTRL.EN && s.fld (A.WAKE_SEG_STATUS k) F.WAKE_SEG_STATUS.STATE == 1

/-- A port begins no new frame of the plane: a received pause, a change of speed, a PAUSE frame that goes first, or bind-off
(R285, R289, R337, R510). -/
def State.txHeld (s : State) (p : Nat) : Bool :=
  s.flag (A.MAC_STATUS p) F.MAC_STATUS.PAUSED || s.txcHeld p || s.pauseDue p || s.bindHeld p

/-- A frame of a port is in transmission: the oldest one that the plane has handed over, or one whose cells are on their way. -/
def State.lineBusy (s : State) (p : Nat) : Bool :=
  let x := s.plane (unitHalf p 12)
  s.txOpen p && ((x.handed.any fun q => q.outp = p % 12) || x.voq.any fun q => q.outp = p % 12 ∧ 0 < q.moved)

/-- What begins to hold the frames of a port lets the one in transmission end (R285, R289, R337, R510). -/
def State.txMark (s : State) (p : Nat) : State :=
  if s.txHeld p then s else s.mapPort p fun x => { x with begun := s.lineBusy p }

/-- The XOFF state of ingress port i by its cell count (R365); XON at or above XOFF counts as XOFF − 1. -/
def State.xoffUpdate (s : State) (h : Half) (i : Nat) : State :=
  let n := (s.plane h).inCells i
  let xoff := s.fld (A.SWP_XOFF h.n i) F.SWP_XOFF.XOFF
  let xon0 := s.fld (A.SWP_XOFF h.n i) F.SWP_XOFF.XON
  let xon := if xoff ≤ xon0 then xoff - 1 else xon0
  let p := portNo h i
  let was := s.flag (A.MAC_STATUS p) F.MAC_STATUS.XOFF
  let s := s.setf (A.SWP_IN_CELLS h.n i) F.SWP_IN_CELLS.CELLS n
  if 9 ≤ i then s
  else if !was ∧ xoff ≤ n then (s.txMark p).setf (A.MAC_STATUS p) F.MAC_STATUS.XOFF 1
  else if was ∧ n ≤ xon then
    let s := (s.txMark p).setf (A.MAC_STATUS p) F.MAC_STATUS.XOFF 0
    s.mapPort p fun q => { q with xonDue := q.announced || q.xonDue, announced := false }
  else s

/-- The registers that show the buffer: depth of account (o, c), cells of ingress port i, free cells and their low
mark, and duplicate entries. -/
def State.planeShow (s : State) (h : Half) (i o c : Nat) : State :=
  let x := s.plane h
  let s := s.setf (A.SWQ_DEPTH h.n (8 * o + c)) F.SWQ_DEPTH.DEPTH (x.depth o c)
  let free := 8192 - x.cells
  let s := s.setf (A.SW_BUF_FREE h.n) F.SW_BUF_FREE.FREE free
  let s := if free < s.fld (A.SW_BUF_FREE h.n) F.SW_BUF_FREE.LOW then
    s.setf (A.SW_BUF_FREE h.n) F.SW_BUF_FREE.LOW free else s
  s.xoffUpdate h i

/-- SW_DUP_STATUS: the entries in use, and those in HOLD (Table 7.6). -/
def Plane.dupStatus (x : Plane) : Nat := x.dup.length + 2 ^ 16 * (x.dup.filter fun e => e.hold).length

/-! ### Classification and lookup (R347 to R356) -/

/-- How a frame is to be forwarded: class, egress set, Needle mask, FLOW, RED, and the meter, if one. -/
structure Fwd where
  cls : Nat
  egress : Nat
  needle : Nat
  flow : Nat
  red : Nat
  meter : Option Nat
  deriving DecidableEq, Repr

/-- The class a PCP maps to at an ingress port. -/
def State.pcpClass (s : State) (h : Half) (i pcp : Nat) : Nat :=
  s.fld (A.SWP_PCP_MAP h.n i) F.SWP_PCP_MAP.MAP / 8 ^ pcp % 8

/-- VID, if any (none for VID 4095), and class of a frame (R347, items 1 to 4; R348; R399). -/
def State.classify (s : State) (h : Half) (f : InFrame) : Option Nat × Nat :=
  let pvid := s.fld (A.SWP_CFG h.n f.ingress) F.SWP_CFG.PVID
  let own := 9 ≤ f.ingress
  match outerTag f.bytes with
  | none => (some pvid, if own then f.cls else s.fld (A.SWP_CFG h.n f.ingress) F.SWP_CFG.DEF_TC)
  | some (pcp, _, vid) =>
    let c := if own then f.cls else s.pcpClass h f.ingress pcp
    (if vid = 4095 then none else if vid = 0 then some pvid else some vid, c)

/-- The bucket of a destination address and VID (R350). -/
def fwdBucket (da : List Byte) (vid : Nat) : Nat :=
  crc16 (da ++ [BitVec.ofNat 8 (vid / 256), BitVec.ofNat 8 vid]) % 1024

/-- Word w of forwarding entry i. -/
def State.fwdWord (s : State) (h : Half) (i w : Nat) : Nat := s.rdn (A.SW_FWD h.n i w)

/-- Word w of forwarding entry i as a lookup finds it: as it was before a write of the same `SW` clock (R353). -/
def State.fwdSeen (s : State) (h : Half) (i w : Nat) : Nat := s.rdBefore (A.SW_FWD h.n i w)

/-- The entry of a bucket that a frame matches, the lowest way first (R351). -/
def State.fwdLookup (s : State) (h : Half) (f : InFrame) (vid : Nat) : Option Nat :=
  let b := fwdBucket (f.bytes.take 6) vid
  let da := addrOf f.bytes 0
  ((List.range 4).map fun w => 4 * b + w).find? fun i =>
    bitAt (s.fwdSeen h i 3) 31 && s.fwdSeen h i 0 == da % 2 ^ 32 && s.fwdSeen h i 1 % 2 ^ 16 == da / 2 ^ 32 &&
    s.fwdSeen h i 1 / 2 ^ 16 % 2 ^ 12 == vid && bitAt (s.fwdSeen h i 3) f.ingress

/-- The decision of a matching entry (Table 7.2); RED 0b11 counts as none. -/
def State.fwdEntry (s : State) (h : Half) (i cls : Nat) : Fwd :=
  let w2 := s.fwdSeen h i 2
  let w3 := s.fwdSeen h i 3
  let red := w3 / 2 ^ 29 % 4
  { cls := if bitAt w2 31 then w2 / 2 ^ 28 % 8 else cls
    egress := w2 % 4096
    needle := w2 / 2 ^ 12 % 4096
    flow := i
    red := if red = 3 then 0 else red
    meter := if bitAt w3 21 then some (w3 / 2 ^ 22 % 64) else none }

/-- The forwarding decision of a frame: that of its direct mask, its entry, or the miss action; none for a miss
that discards (R348, R351, R354). -/
def State.fwdDecide (s : State) (h : Half) (f : InFrame) : Option Fwd :=
  if f.mask ≠ 0 ∧ (f.ingress = 9 ∨ f.ingress = 10) then
    some ⟨f.cls, f.mask, 0, 0xFFFFFFFF, 0, none⟩
  else
    let (vid, cls) := s.classify h f
    match vid.bind fun v => s.fwdLookup h f v with
    | some i => some (s.fwdEntry h i cls)
    | none =>
      if s.flag (A.SWP_CFG h.n f.ingress) F.SWP_CFG.MISS then
        some ⟨cls, s.fld (A.SWP_MISS_MASK h.n f.ingress) F.SWP_MISS_MASK.EGRESS,
              s.fld (A.SWP_MISS_MASK h.n f.ingress) F.SWP_MISS_MASK.NEEDLE, 0xFFFFFFFF, 0, none⟩
      else none

/-- Port n of a half belongs to an active inline pair (R184). -/
def State.inlinePort (s : State) (h : Half) (n : Nat) : Bool :=
  (List.range 12).any fun k =>
    let c := A.NE_INL_CTRL (12 * h.n + k)
    s.flag c F.NE_INL_CTRL.EN &&
      (s.fld c F.NE_INL_CTRL.PORT_A == n || s.fld c F.NE_INL_CTRL.PORT_B == n)

/-! ### Metering (R357 to R360), tokens in 1/125 byte -/

/-- Tokens of a bucket, given its size in bytes and its deficit. -/
def tokens (size deficit : Nat) : Nat := size * 125 - deficit

/-- The colour of a metered frame of `n` bytes plus FCS: 0 green, 1 yellow, 2 red (R358). -/
def State.meterColour (s : State) (h : Half) (m n : Nat) (dei : Bool) : Nat :=
  let b := (n + 4) * 125
  let (dc, dp) := storeGet (0, 0) (s.plane h).meter m
  let tc := tokens (s.fld (A.MTR_CBS h.n m) F.MTR_CBS.SIZE) dc
  let tp := tokens (s.fld (A.MTR_PBS h.n m) F.MTR_PBS.SIZE) dp
  let yellow := dei && s.flag (A.MTR_CTRL h.n m) F.MTR_CTRL.COLOR_AWARE
  if tp < b then 2 else if yellow ∨ tc < b then 1 else 0

/-- The meter after a frame of a colour: the tokens that R358 takes, and the colour's count. -/
def State.meterTake (s : State) (h : Half) (m n colour : Nat) : State :=
  let b := (n + 4) * 125
  let x := s.plane h
  let (dc, dp) := storeGet (0, 0) x.meter m
  let put := fun (d : Nat × Nat) => s.putPlane h { x with meter := storePut (0, 0) x.meter m d }
  match colour with
  | 0 => (put (dc + b, dp + b)).inc (A.MTR_GREEN h.n m)
  | 1 => (put (dc, dp + b)).inc (A.MTR_YELLOW h.n m)
  | _ => s.inc (A.MTR_RED h.n m)

/-! ### The Sieve (R367 to R371) -/

/-- One step of the plane's LFSR, x^16 + x^14 + x^13 + x^11 + 1 (R370). -/
def lfsrStep (v : Nat) : Nat :=
  let b := (b2n (bitAt v 0) + b2n (bitAt v 2) + b2n (bitAt v 3) + b2n (bitAt v 5)) % 2
  v / 2 + b * 2 ^ 15

/-- The drop probability of profile k at an average depth in 1/256 cells: PROB of the highest-indexed point whose
DEPTH is at or below it (R369). -/
def State.sieveProb (s : State) (h : Half) (k avg : Nat) : Nat :=
  (List.range 16).foldl (fun p j =>
    if s.fld (A.SW_SIEVE_PT h.n k j) F.SW_SIEVE_PT.DEPTH * 256 ≤ avg then
      s.fld (A.SW_SIEVE_PT h.n k j) F.SW_SIEVE_PT.PROB else p) 0

/-- A 16-bit one's complement sum of a header checksum updated for a changed word (R371). -/
def checksumUpdate (sum old new : Nat) : Nat :=
  let t := (0xFFFF - sum) + (0xFFFF - old) + new
  let t := t % 0x10000 + t / 0x10000
  let t := t % 0x10000 + t / 0x10000
  0xFFFF - t

/-- A copy of an IP frame with ECN 0b01 or 0b10 marked 0b11, the IPv4 header checksum updated (R371). -/
def ecnMark (bs : List Byte) : Option (List Byte) :=
  let e := etherOff bs
  let ip := e + 2
  if be16At bs e = 0x0800 then
    let tos := byteAt bs (ip + 1)
    if tos % 4 = 1 ∨ tos % 4 = 2 then
      let w := be16At bs ip
      let w' := w - tos % 4 + 3
      let c := checksumUpdate (be16At bs (ip + 10)) w w'
      some (overlay (overlay bs ip (beBytes 2 w')) (ip + 10) (beBytes 2 c))
    else none
  else if be16At bs e = 0x86DD then
    let w := be16At bs ip
    let ecn := w / 16 % 4
    if ecn = 1 ∨ ecn = 2 then some (overlay bs ip (beBytes 2 (w - ecn * 16 + 48))) else none
  else none

/-- The Sieve's decision on a copy: none when it is dropped, else the copy, marked where ECN asks (R369, R371). -/
def State.sieve (s : State) (h : Half) (q : PCopy) : Option PCopy × State :=
  let a := 8 * q.outp + q.cls
  let r := A.SWQ_SIEVE h.n a
  let x := s.plane h
  let avg := storeGet 0 x.avg a
  match s.fld r F.SWQ_SIEVE.MODE with
  | 1 =>
    let k := s.fld r (if q.colour = 0 then F.SWQ_SIEVE.PROF_G else if q.colour = 1 then F.SWQ_SIEVE.PROF_Y
                      else F.SWQ_SIEVE.PROF_R)
    let p := s.sieveProb h k avg
    let s1 := s.putPlane h { x with lfsr := lfsrStep x.lfsr }
    if x.lfsr % 256 < p then (none, s1.inc (A.SWQ_DROP_SIEVE h.n a)) else (some q, s1)
  | 2 =>
    if s.fld r F.SWQ_SIEVE.ECN_THR * 256 ≤ avg then
      match ecnMark q.bytes with
      | some bs => (some { q with bytes := bs }, s.inc (A.SWQ_ECN_MARK h.n a))
      | none => (some q, s)
    else (some q, s)
  | _ => (some q, s)

/-! ### Admission (R361, R362) -/

/-- The sum of all MIN values of a plane. -/
def State.minSum (s : State) (h : Half) : Nat :=
  (List.range 96).foldl (fun n a => n + s.fld (A.SWQ_LIM h.n a) F.SWQ_LIM.MIN) 0

/-- MIN of an account as admission uses it (R362). -/
def State.minOf (s : State) (h : Half) (a : Nat) : Nat :=
  if 4096 < s.minSum h then 0 else s.fld (A.SWQ_LIM h.n a) F.SWQ_LIM.MIN

/-- Cells of the pool in use: what accounts hold above their reserve. -/
def State.poolUsed (s : State) (h : Half) : Nat :=
  (List.range 96).foldl (fun n a => n + ((s.plane h).depth (a / 8) (a % 8) - s.minOf h a)) 0

/-- The pool's size (R361). -/
def State.poolSize (s : State) (h : Half) : Nat :=
  8192 - (if 4096 < s.minSum h then 0 else s.minSum h)

/-- `n` more cells of an account are accepted one by one: from the reserve below `min`, from the pool below `max`
while it has a free cell (R361). -/
def admits (min max : Nat) : Nat → Nat → Nat → Bool
  | 0, _, _ => true
  | n + 1, count, free =>
    if count < min then admits min max n (count + 1) free
    else match free with
      | 0 => false
      | free + 1 => count < max && admits min max n (count + 1) free

/-- A copy fits into the buffer (R361). -/
def State.fits (s : State) (h : Half) (q : PCopy) : Bool :=
  let a := 8 * q.outp + q.cls
  admits (s.minOf h a) (s.fld (A.SWQ_LIM h.n a) F.SWQ_LIM.MAX) q.cells ((s.plane h).depth q.outp q.cls)
    (s.poolSize h - s.poolUsed h)

/-! ### Redundancy (R387 to R394) -/

/-- The redundancy role of port n of a half: 0 none, 1 LAN A, 2 LAN B, 3 HSR. -/
def State.redRole (s : State) (h : Half) (n : Nat) : Nat :=
  if n < 9 then s.fld (A.SWP_CFG h.n n) F.SWP_CFG.RED else 0

/-- The redundancy trailer of a PRP frame: sequence number and LAN (0 A, 1 B), where it is valid (R392). -/
def rctOf (bs : List Byte) : Option (Nat × Nat) :=
  let n := bs.length
  let lan := byteAt bs (n - 4) / 16
  let size := be16At bs (n - 4) % 4096
  if 20 ≤ n ∧ be16At bs (n - 2) = 0x88FB ∧ (lan = 0xA ∨ lan = 0xB) ∧ size + etherOff bs + 2 = n then
    some (be16At bs (n - 6), lan - 0xA)
  else none

/-- The HSR tag of a frame: sequence number and path (0 A, 1 B). -/
def hsrOf (bs : List Byte) : Option (Nat × Nat) :=
  let e := etherOff bs
  if be16At bs e = 0x892F then some (be16At bs (e + 4), byteAt bs (e + 2) / 16 % 2) else none

/-- The sequence number and LAN or path of a frame under a RED code. -/
def redKey (red : Nat) (bs : List Byte) : Option (Nat × Nat) :=
  if red = 1 then rctOf bs else if red = 2 then hsrOf bs else none

/-- A frame without its RCT or HSR tag (R392). -/
def redStrip (bs : List Byte) : List Byte :=
  match rctOf bs with
  | some _ => bs.take (bs.length - 6)
  | none =>
    match hsrOf bs with
    | some _ =>
      let e := etherOff bs
      bs.take e ++ bs.drop (e + 6)
    | none => bs

/-- A frame with an RCT of LAN `lan` (0 A, 1 B) and a sequence number (R389). -/
def rctAdd (bs : List Byte) (lan seq : Nat) : List Byte :=
  let size := bs.length + 6 - (etherOff bs + 2)
  bs ++ beBytes 2 seq ++ beBytes 2 ((0xA + lan) * 4096 + size % 4096) ++ beBytes 2 0x88FB

/-- A frame with its RCT's LAN rewritten (R389). -/
def rctLan (bs : List Byte) (lan : Nat) : List Byte :=
  let n := bs.length
  overlay bs (n - 4) (beBytes 2 ((0xA + lan) * 4096 + be16At bs (n - 4) % 4096))

/-- A frame with an HSR tag of a path (0 A, 1 B) and a sequence number (R389). -/
def hsrAdd (bs : List Byte) (path seq : Nat) : List Byte :=
  let e := etherOff bs
  let size := bs.length - e + 4
  bs.take e ++ beBytes 2 0x892F ++ beBytes 2 (path * 4096 + size % 4096) ++ beBytes 2 seq ++ bs.drop e

/-- The bytes of a copy as they leave on port o of a half (R389, R392). -/
def State.redLeave (s : State) (h : Half) (q : PCopy) (bs : List Byte) : List Byte :=
  if q.outp = 11 then bs
  else match s.redRole h q.outp with
    | 0 => redStrip bs
    | 3 =>
      match hsrOf bs with
      | some _ => bs
      | none => match q.seq with
        | some n => hsrAdd bs h.n n
        | none => bs
    | r =>
      match rctOf bs with
      | some _ => rctLan bs (r - 1)
      | none => match q.seq with
        | some n => rctAdd bs (r - 1) n
        | none => bs

/-! ### Queueing copies -/

/-- A copy is offered to its account: the Sieve decides, then the limits; the copy is queued, or discarded and
counted, an abandoned copy of an internal port only while other copies live (R361, R364, R366, R367). The second
component says whether it took the copy: 0 queued, 1 dropped by the Sieve, 2 refused by the limits. -/
def State.offer (s : State) (h : Half) (q : PCopy) : State × Nat :=
  match s.sieve h q with
  | (none, s) => (s, 1)
  | (some q, s) =>
    if s.fits h q then
      let s := s.mapPlane h fun x => { x with voq := x.voq ++ [q] }
      (s.planeShow h q.inp q.outp q.cls, 0)
    else (s, 2)

/-- Every copy of a frame is offered in ascending order of egress port; the second component says whether some copy
was taken, the third lists the accounts that refused one. -/
def State.offerAll (s : State) (h : Half) : List PCopy → Bool → List Nat → State × Bool × List Nat
  | [], live, no => (s, live, no)
  | q :: qs, live, no =>
    match s.offer h q with
    | (s, 2) => s.offerAll h qs live (no ++ [8 * q.outp + q.cls])
    | (s, _) => s.offerAll h qs true no

/-- Refused copies are counted in SWQ_DROP_LIMIT of their accounts (R361). -/
def State.countRefused (s : State) (h : Half) (no : List Nat) : State :=
  no.foldl (fun s a => s.inc (A.SWQ_DROP_LIMIT h.n a)) s

/-- The copies of a frame for the ports of a mask, ascending. -/
def copiesFor (f : InFrame) (d : Fwd) (colour : Nat) (seq : Option Nat) (mask : Nat) : List PCopy :=
  ((List.range 12).filter fun o => bitAt mask o).map fun o =>
    { inp := f.ingress, outp := o, cls := d.cls, bytes := f.bytes, cells := frameCells f.bytes.length,
      stamp := f.stamp, colour := colour, flow := d.flow, needle := d.needle, status := 0, red := d.red,
      seq := seq, moved := 0 }

/-! ### Duplicates and the twin check (R390 to R398) -/

/-- Twin check is on for a class, with its window in ticks (R395). -/
def State.twinWindow (s : State) (h : Half) (cls : Nat) : Option Nat :=
  let w := s.fld (A.SW_TWIN h.n) F.SW_TWIN.WIN_US
  if w ≠ 0 ∧ bitAt (s.fld (A.SW_TWIN h.n) F.SW_TWIN.CLASS) cls then some (w * usTicks) else none

/-- A new entry of the duplicate table; the oldest DONE entry gives way when all 1024 are in use; none when every
entry is in HOLD (R391). -/
def dupInsert (dup : List DupEnt) (e : DupEnt) : Option (List DupEnt) :=
  if dup.length < 1024 then some (dup ++ [e])
  else if dup.any fun d => !d.hold ∧ d.held = [] then
    some (dup.eraseP (fun d => !d.hold ∧ d.held = []) ++ [e])
  else none

/-- The table without the entries that are older than SW_DUP_AGE: they are free, and a copy is new (R390). -/
def Plane.dupAlive (x : Plane) (now age : Nat) : Plane :=
  { x with dup := x.dup.filter fun d => d.held ≠ [] ∨ now < d.born + age }

/-- The entry with a key. -/
def dupFind (dup : List DupEnt) (sa seq : Nat) : Option DupEnt := dup.find? fun d => d.sa = sa ∧ d.seq = seq

/-- The table with the entry of a key replaced. -/
def dupSet (dup : List DupEnt) (e : DupEnt) : List DupEnt :=
  dup.map fun d => if d.sa = e.sa ∧ d.seq = e.seq then e else d

/-- A copy that the twin check releases joins its queue; it is charged already (R396). -/
def State.release (s : State) (h : Half) (qs : List PCopy) (bit : Nat) (stamp : Nat) : State :=
  let qs := qs.map fun q => { q with status := q.status + bit, stamp := stamp }
  s.mapPlane h fun x => { x with voq := x.voq ++ qs }

/-- A divergence event to every engine of a Needle mask, and a network event (R396, case 2). -/
def State.twinDiverge (s : State) (h : Half) (needle flow : Nat) : State :=
  let s := (List.range 12).foldl (fun s k => if bitAt needle k then s.neTwin (12 * h.n + k) flow else s) s
  s.netEvent flow 0x74

/-- Accounts of dropped held copies shown anew. -/
def State.showAll (s : State) (h : Half) (qs : List PCopy) : State :=
  qs.foldl (fun s q => s.planeShow h q.inp q.outp q.cls) s

/-- A second copy meets a held one (R396, cases 1 to 3 and 5; every case sets the entry to DONE). -/
def State.twinSecond (s : State) (h : Half) (e : DupEnt) (f : InFrame) (d : Fwd) (lan w : Nat) : State :=
  let set := fun (s : State) (e : DupEnt) => s.mapPlane h fun x => { x with dup := dupSet x.dup { e with hold := false } }
  if e.s1 + w ≤ f.stamp then (set s e).inc (A.SW_DUP_LATE h.n)
  else if lan = e.lan then (set s e).inc (A.SW_DUP_SAMELAN h.n)
  else
    let first := (e.held.head?.map fun q => q.bytes).getD []
    if redStrip first = redStrip f.bytes then
      let stamp := min e.s1 f.stamp
      let useSecond := f.stamp < e.s1 ∨ (f.stamp = e.s1 ∧ lan = 0)
      let qs := e.held.map fun q => if useSecond then { q with bytes := f.bytes, inp := f.ingress, flow := d.flow } else q
      ((set s { e with held := [] }).release h qs 2 stamp).inc (A.SW_TWIN_EQUAL h.n)
    else
      let s := (set s { e with held := [] }).inc (A.SW_TWIN_DIFF h.n)
      (s.twinDiverge h d.needle d.flow).showAll h e.held

/-- What a plane did with a frame. -/
inductive Ingress where
  | taken
  | refused
  deriving DecidableEq, Repr

/-- Copies of a frame are offered: refused when the limits take none of them, in which case an internal port waits
uncounted (R363, R366). -/
def State.queueCopies (s : State) (h : Half) (f : InFrame) (qs : List PCopy) : State × Ingress :=
  if qs = [] then (s, .taken)
  else match s.offerAll h qs false [] with
    | (s1, true, no) => (s1.countRefused h no, .taken)
    | (s1, false, no) => (if 9 ≤ f.ingress then s else s1.countRefused h no, .refused)

/-- Copies for SP9 and SP10 that the twin check holds outside their queues, charged to their accounts; a copy that does not fit is
dropped and counted. The last component says whether the Sieve or the hold list took one. -/
def State.holdCopies (s : State) (h : Half) (qs : List PCopy) : List PCopy × State × Bool :=
  qs.foldl (fun (acc : List PCopy × State × Bool) q =>
    match acc.2.1.sieve h q with
    | (none, s) => (acc.1, s, true)
    | (some q, s) =>
      if s.fits h q then (acc.1 ++ [q], s, true)
      else (acc.1, s.inc (A.SWQ_DROP_LIMIT h.n (8 * q.outp + q.cls)), acc.2.2))
    ([], s, false)

/-- A redundant frame with a valid tag: duplicates are discarded, and SP9 and SP10 receive it under the twin check
where that is on (R390, R393 to R397). `qs` are its copies. -/
def State.dupIngress (s : State) (h : Half) (f : InFrame) (d : Fwd) (seq lan : Nat) (qs : List PCopy) :
    State × Ingress :=
  let sa := addrOf f.bytes 6
  let age := s.fld (A.SW_DUP_AGE h.n) F.SW_DUP_AGE.AGE * msTicks
  let x := (s.plane h).dupAlive s.now age
  let toOwn := qs.filter fun q => q.outp = 9 ∨ q.outp = 10
  let other := qs.filter fun q => q.outp ≠ 9 ∧ q.outp ≠ 10
  let maskOf := fun (l : List PCopy) => l.foldl (fun m q => m ||| 2 ^ q.outp) 0
  let tw := if toOwn = [] then none else s.twinWindow h d.cls
  let e : DupEnt := ⟨sa, seq, f.stamp, lan, tw.isSome, maskOf qs, s.now, []⟩
  match dupFind x.dup sa seq with
  | none =>
    match dupInsert x.dup e with
    | none => (s.inc (A.SW_DUP_FULL h.n)).queueCopies h f qs
    | some dup =>
      match tw with
      | none =>
        let (s1, r) := s.queueCopies h f qs
        match r with
        | .taken => (s1.mapPlane h fun x => { x with dup := dup }, .taken)
        | .refused => (s1, .refused)
      | some _ =>
        let (s1, r) := s.queueCopies h f other
        let (held, s2, live) := s1.holdCopies h toOwn
        if !live ∧ (other = [] ∨ r = .refused) then (s2, .refused)
        else
          let e := { e with held := held, hold := !held.isEmpty }
          ((s2.mapPlane h fun x => { x with dup := dupSet dup e }).showAll h held, .taken)
  | some old =>
    match tw with
    | none => (s.inc (if lan = old.lan then A.SW_DUP_SAMELAN h.n else A.SW_DUP_DISC h.n), .taken)
    | some w =>
      let fresh := other.filter fun q => !bitAt old.mask q.outp
      let (s1, _) := s.queueCopies h f fresh
      let old := { old with mask := old.mask ||| maskOf fresh }
      let s1 := s1.mapPlane h fun x => { x with dup := dupSet x.dup old }
      if old.hold then (s1.twinSecond h old f d lan w, .taken)
      else (s1.inc (A.SW_DUP_LATE h.n), .taken)

/-- A frame of an HSR ring whose source address is one of the plane's own (R394). -/
def State.hsrOwn (s : State) (h : Half) (bs : List Byte) : Bool :=
  (List.range 2).any fun k =>
    s.flag (A.SW_RED_SA_HI h.n k) F.SW_RED_SA_HI.VALID &&
    addrOf bs 6 == s.rdn (A.SW_RED_SA_LO h.n k) + 2 ^ 32 * s.fld (A.SW_RED_SA_HI h.n k) F.SW_RED_SA_HI.ADDR

/-- The sequence number of R388 a frame takes: one from SP9 or SP10 with a redundant entry, or a direct-mask frame
whose mask names a port of the plane with a redundancy role. A frame from SP11 brings its own. -/
def State.redSequence (s : State) (h : Half) (f : InFrame) (d : Fwd) : Option Nat × State :=
  let own := f.ingress = 9 ∨ f.ingress = 10
  let direct := f.mask ≠ 0
  let named := (List.range 9).any fun n => bitAt d.egress n && s.redRole h n != 0
  if own ∧ ((direct ∧ named) ∨ (!direct ∧ d.red ≠ 0)) then
    (some (s.fld (A.SW_RED_SEQ h.n) F.SW_RED_SEQ.SEQ), s.incMod (A.SW_RED_SEQ h.n) F.SW_RED_SEQ.SEQ)
  else (f.seq, s)

/-- Copies that leave on a port with a redundancy role, carry no tag and came with no sequence number: the rule gives them one (R389)
without a number, which is a free value; a copy for SP11 takes none with it. -/
def State.redNumber (s : State) (h : Half) (bs : List Byte) (qs : List PCopy) : List PCopy × State :=
  let needs := fun (q : PCopy) => q.seq.isNone &&
    match s.redRole h q.outp with
    | 0 => false
    | 3 => (hsrOf bs).isNone
    | _ => (rctOf bs).isNone
  if qs.any needs then (qs.map fun q => if needs q then { q with seq := some (s.freeVal % 2 ^ 16) } else q, s.useFree) else (qs, s)

/-- A frame enters a plane (R347 to R366, R387 to R397). A meter colours it when its last cell has been written, so not when it is
refused (R358). -/
def State.planeIngress (s : State) (h : Half) (f : InFrame) : State × Ingress :=
  match s.fwdDecide h f with
  | none => (s.inc (A.SWP_MISS_DROP h.n f.ingress), .taken)
  | some d =>
    let set := (List.range 12).foldl (fun m o => if bitAt d.egress o ∧ o ≠ f.ingress then m + 2 ^ o else m) 0
    let noNeedle := decide (bitAt set 9 ∧ d.needle = 0)
    let s := if noNeedle then s.inc (A.SW_NEEDLE_NONE h.n) else s
    let set := if noNeedle then set - 2 ^ 9 else set
    let downSp11 := decide (bitAt set 11 ∧ !s.segUp h)
    let ports := (List.range 12).foldl (fun m o =>
      if bitAt set o ∧ !(o < 9 ∧ s.inlinePort h o) ∧ !(o = 11 ∧ downSp11) then m + 2 ^ o else m) 0
    if set = 0 then (s.inc (A.SWP_MISS_DROP h.n f.ingress), .taken)
    else if d.red = 2 ∧ f.ingress ≠ 9 ∧ f.ingress ≠ 10 ∧ s.hsrOwn h f.bytes then
      (s.inc (A.SW_HSR_OWN h.n), .taken)
    else
      let s := if downSp11 then s.macCnt (portNo h 11) 20 1 else s
      let dei := match outerTag f.bytes with
        | some (_, dei, _) => dei
        | none => false
      let colour := match d.meter with
        | some m => s.meterColour h m f.bytes.length dei
        | none => if f.ingress = 11 then f.colour else 0
      let take := fun (s : State) => match d.meter with
        | some m => s.meterTake h m f.bytes.length colour
        | none => s
      let redDrop := match d.meter with
        | some m => decide (colour = 2) && s.flag (A.MTR_CTRL h.n m) F.MTR_CTRL.RED_DROP
        | none => false
      if redDrop then (take s, .taken)
      else
        let (seq, s1) := s.redSequence h f d
        let (qs, s1) := s1.redNumber h f.bytes (copiesFor f d colour seq ports)
        match (match (if f.ingress = 9 ∨ f.ingress = 10 then none else redKey d.red f.bytes) with
          | some (n, lan) => s1.dupIngress h f d n lan qs
          | none => s1.queueCopies h f qs) with
        | (s2, .taken) => (take s2, .taken)
        | r => r

end Sys2Proof.Machine
end

