-- ==== Sys2Proof/Machine/Tension.lean ====
section
/-! DEFINITION. The commands of the Tension link, of input agreement, of the charge arbiter and of the loss of the
Trivet (spec/02, R64 to R145, but for the Colander and TWIN). -/

namespace Sys2Proof.Machine
open Sys2Proof

/-! ### Heartbeats -/

/-- The body of a header flit (Table 2.3): class, SEQ, DATA_FLITS, ORIGIN and the class-specific bits. -/
def headerBody (cls seq n origin spec : Nat) : Nat :=
  cls % 16 * 2 ^ 124 + seq % 16 * 2 ^ 120 + n % 256 * 2 ^ 112 + origin % 4 * 2 ^ 110 + spec

/-- A flit: a body and the CRC-16 over it (R89). -/
def flitOf (body : Nat) : Nat := body * 2 ^ 16 + crc16 (beBytes 16 body)

/-- A flit's CRC is good (R89). -/
def flitGood (f : Nat) : Bool := crc16 (beBytes 16 (f / 2 ^ 16)) == f % 2 ^ 16

/-- A half (0, 1) or the hub (2) sends a message of a class other than the heartbeat's on the segment of a half: the header
with the class's next SEQ, and the data flits (R90). -/
def State.sendMsg (s : State) (origin : Nat) (h : Half) (cls spec : Nat) (datas : List Nat) : State :=
  let g := (s.ep h).seg
  let key := 16 * origin + cls
  let seq := storeGet 0 g.seqs key
  let s := s.mapEp h fun e => { e with seg := { g with seqs := storePut 0 g.seqs key ((seq + 1) % 16) } }
  s.emit (.message origin h.n ((headerBody cls seq datas.length origin spec :: datas).map flitOf))

/-- The body of a heartbeat flit (Tables 2.3 and 2.5). -/
def State.heartbeatBody (s : State) (h : Half) : Nat :=
  let e := s.ep h
  let app := A.TEN_APP h.n
  let code := match e.unhealthy with
    | some d => d.code % 256
    | none => 0
  headerBody 1 e.msgSeq 0 h.n 0 + e.hbSeq * 2 ^ 94 + e.stateCopy % 16 * 2 ^ 90 +
  s.fld app F.TEN_APP.APP_READY * 2 ^ 89 + s.fld app F.TEN_APP.OUT_VALID * 2 ^ 88 +
  b2n e.unhealthy.isNone * 2 ^ 87 + code * 2 ^ 79 + s.raw % 2 ^ 64 * 2 ^ 15

/-- One endpoint launches a heartbeat, unless it is suppressed or its half is not running (R94, R95). -/
def State.hbLaunch (s : State) (h : Half) : State :=
  let e := s.ep h
  if e.suppressed ∨ !s.running h then s
  else
    let body := s.heartbeatBody h
    let s := s.emit (.heartbeat h.n [body, crc16 (beBytes 16 body)])
    s.putEp h { e with hbSeq := (e.hbSeq + 1) % 65536, msgSeq := (e.msgSeq + 1) % 16 }

/-- HEARTBEAT_LAUNCH (R94): at raw counts that are multiples of 500. -/
def execHeartbeatLaunch (s : State) : Host.Outcome State Fault Refusal :=
  if s.rawOn ∧ s.raw % 500 = 0 then .next ((s.hbLaunch .k).hbLaunch .p) else .next s

/-- A heartbeat is valid (R96). -/
def hbValid (last : Option Nat) (seq : Nat) : Bool :=
  match last with
  | none => true
  | some l => let d := (seq + 65536 - l) % 65536
              1 ≤ d && d ≤ 4

/-- HEARTBEAT_RECEIVE (R96): a heartbeat with a good CRC reaches the Trivet. -/
def execHeartbeatReceive (h : Half) (seq : BitVec 16) (st : Fin 16) (ready outValid healthy : Bool) (code : Byte)
    (s : State) : Host.Outcome State Fault Refusal :=
  let e := s.ep h
  if s.trivetLost ∨ !hbValid e.lastSeq seq.toNat then .next s
  else
    let differs := decide (st.val ≠ (s.chgOf h).code)
    let run := if differs then min 4 (e.diffRun + 1) else 0
    let s := s.putEp h { e with lastSeq := some seq.toNat, outValid := outValid, hbAt := s.now, diffRun := run }
    let s := s.setf A.TEN_STATUS (missFld h) 0
    let s := if run = 3 then s.fault 0x35 2 (originHalf h) 0 else s
    if !healthy then
      let d := match e.unhealthy with
        | some d => if d.code = code.toNat then d else ⟨code.toNat, 0, 0, 0, 0⟩
        | none => ⟨code.toNat, 0, 0, 0, 0⟩
      .next (s.demote h 0x20 d)
    else if ready then .next (s.t1 h) else .next s

/-- A command that awaits its turn in the queue is of the same tick, since time passes only when the queue is empty (log entry
1). -/
def State.soon (s : State) (f : Instr → Bool) : Bool := s.pending.any f

/-- A valid heartbeat of a half arrives on this tick: the expiry is cancelled (R18, R99). -/
def State.hbSoon (s : State) (h : Half) : Bool :=
  s.soon fun c => match c with
    | .heartbeatReceive g seq _ _ _ _ _ => decide (g = h) && hbValid (s.ep h).lastSeq seq.toNat
    | _ => false

/-- The heartbeat timer of a half expires: 220 TRV cycles, at least 1.067 µs, since it started; it runs while the half is out
of reset (R98, R99). -/
def State.hbExpired (s : State) (h : Half) : Bool :=
  s.running h && decide ((s.ep h).hbAt + 534 ≤ s.now) && !s.hbSoon h

/-- One expiry counts one miss, and the timer restarts (R99). -/
def State.hbMiss (s : State) (h : Half) : State :=
  let s := (s.mapEp h fun e => { e with hbAt := s.now }).inc (A.TEN_HB_MISS h.n)
  s.setf A.TEN_STATUS (missFld h) (min 3 (s.fld A.TEN_STATUS (missFld h) + 1))

/-- HEARTBEAT_TIMER_EXPIRY (R98 to R100): with an expiry of the other half that stands in the queue it falls on the same TRV
cycle, and both third misses are taken in one decision (R81). The third miss of a half that T4 does not leave is logged with
class F2 (R78). -/
def execHeartbeatTimerExpiry (h : Half) (s : State) : Host.Outcome State Fault Refusal :=
  if s.trivetLost ∨ !s.hbExpired h then .next s
  else
    let also := s.soon (fun c => decide (c = .heartbeatTimerExpiry h.other)) && s.hbExpired h.other
    let hs := if also then [h, h.other] else [h]
    let third := hs.filter fun h => s.fld A.TEN_STATUS (missFld h) == 2
    let s := hs.foldl State.hbMiss s
    let xs := third.map fun h => (⟨h, .lost, 0x10, some ⟨0x32, 0, 0, 0, 0⟩⟩ : Exit)
    let stay := third.filter fun h => !(⟨h, .lost, 0, none⟩ : Exit).allowed (s.chgOf h)
    .next ((stay.foldl (fun s h => s.fault 0x32 2 (originHalf h) 0) s).exits xs)

/-- CAST_ON_WINDOW_CLOSE (R85): 100 µs after t1, a half in CANDIDATE alone is granted charge. -/
def execCastOnWindowClose (s : State) : Host.Outcome State Fault Refusal :=
  .next (if s.trivetLost then s else s.castOnClose)

/-- GRANT_READBACK_FAULT (R65, R66, R68, R69). What the lines do holds without the Trivet too: a bad line de-asserts a pair or
asserts the second one, and both pairs asserted close both paths. -/
def execGrantReadbackFault (r : ReadBack) (s : State) : Host.Outcome State Fault Refusal :=
  match r with
  | .lines h l =>
    let t := { s with chg := s.chg.putLine h l }
    .next (if t.pairsBoth ∧ !s.pairsBoth then t.fault 0x46 4 originShared 0 else t)
  | .both => .next ({ s with chg := { s.chg with bothPairs := true } }.fault 0x46 4 originShared 0)
  | .disagree =>
    match s.holder with
    | some h => .next (s.demote h 0x22 ⟨0x45, 0, 0, 0, 0⟩)
    | none => .next s
  | .invalid c =>
    if s.trivetLost ∨ c = 0 ∨ c = holderCode .k ∨ c = holderCode .p then .next s
    else
      let s := { s with chg := { s.chg with holder := c, grant := 0 } }
      .next (s.fault 0x47 4 originShared 0)

/-- HANDOVER_INSTANT (R83): the trigger instant of a pending planned handover has come. -/
def execHandoverInstant (s : State) : Host.Outcome State Fault Refusal :=
  if s.handoverPending ∧ !s.trivetLost ∧ s.rd64 A.TRV_HANDOVER_LO A.TRV_HANDOVER_HI ≤ s.raw then .next s.doHandover
  else .next s

/-! ### Flits -/

/-- A segment goes down: the half is lost, its plane's copies for SP11 are discarded, and what it was receiving there is lost (R103,
R400). -/
def State.segmentDown (s : State) (h : Half) : State :=
  let s := s.setf A.TEN_STATUS (match h with | .k => F.TEN_STATUS.SEG_K_UP | .p => F.TEN_STATUS.SEG_P_UP) 0
  let x := s.plane h
  let n := (x.voq.filter fun q => q.outp = 11).length + (x.handed.filter fun q => q.outp = 11).length
  let s := s.putPlane h { x with
    inq := x.inq.filter (fun f => f.ingress ≠ 11), voq := x.voq.filter (fun q => q.outp ≠ 11),
    handed := x.handed.filter (fun q => q.outp ≠ 11) }
  let s := (s.macCnt (12 * h.n + 11) 20 n).showAll h (x.voq.filter fun q => q.outp = 11)
  let s := s.larderEvent 3 0xFF h.n (Config.evtPayload 3 h.n 0x31) []
  let may := (⟨h, .lost, 0x13, none⟩ : Exit).allowed (s.chgOf h)
  if may ∧ !s.trivetLost then s.toLost h 0x13 0x31 else s.fault 0x31 2 (originHalf h) 0

/-- The flit of a class that waits for its replay, if one does; the others. -/
def Segment.replaying (g : Segment) (cls : Nat) : Option Replay := g.again.find? fun r => r.cls == cls
def Segment.dropReplay (g : Segment) (cls : Nat) : Segment := { g with again := g.again.filter fun r => r.cls != cls }

/-- A flit of class `cls` in the replay buffer, which keeps the last 64 (R102). -/
def Segment.keep (g : Segment) (cls flit : Nat) : Segment := { g with buffer := ((cls, flit) :: g.buffer).take 64 }

/-- A flit with a bad CRC: its failures in a row, and its replay from the buffer (R102). -/
def Segment.failed (g : Segment) (cls flit : Nat) : Segment :=
  let n := match g.replaying cls with
    | some r => r.fails + 1
    | none => 1
  { g.dropReplay cls with again := ⟨cls, flit, n⟩ :: (g.dropReplay cls).again }

/-- FLIT_RECEIVE (R101 to R103): a flit of class `cls` arrives on the segment of a half, with its 144 bits. A flit with a bad CRC
is counted, logged and, unless it is a heartbeat, replayed ahead of every flit not yet sent: the next flit of its class is the
replay. The fourth failure of one flit in a row takes the segment down. -/
def execFlitReceive (h : Half) (cls : Fin 16) (flit : BitVec 144) (s : State) : Host.Outcome State Fault Refusal :=
  let g := (s.ep h).seg
  if !s.segUp h then .next s
  else if flitGood flit.toNat then
    .next (s.mapEp h fun e => { e with seg := (g.dropReplay cls).keep cls flit.toNat })
  else
    let s := (s.inc (A.TEN_CRC_ERR h.n)).fault 0x30 1 (originHalf h) 0
    if cls.val = 1 then .next s
    else if (g.replaying cls).any fun r => r.fails == 3 then
      .next ((s.mapEp h fun e => { e with seg := g.dropReplay cls }).segmentDown h)
    else .next ((s.mapEp h fun e => { e with seg := g.failed cls flit.toNat }).inc (A.TEN_REPLAY h.n))

/-! ### Relaying (R88, R91 to R93) -/

/-- The priority of a class, 0 the highest (Table 2.4); idle and reserved flits have none. -/
def classPrio (cls : Nat) : Option Nat :=
  match cls with
  | 1 => some 0
  | 2 => some 1
  | 3 => some 2
  | 4 => some 3
  | 5 => some 4
  | 6 => some 5
  | 7 => some 5
  | 8 => some 6
  | _ => none

/-- The body bits that a class may carry in one tick and direction: 16 Gbit/s for class 0x5, 25 Gbit/s for class 0x8 (Table
2.4). -/
def classCap (cls : Nat) : Option Nat := if cls = 5 then some 32 else if cls = 8 then some 50 else none

/-- A flit of a class may be sent on a segment now: it continues the message in progress, or it begins one of higher priority
than that (R92), and its class is within its cap (R93). -/
def Segment.may (g : Segment) (now cls : Nat) : Bool :=
  let turn := match g.busy, classPrio cls with
    | _, none => false
    | [], some _ => true
    | c :: _, some p => c == cls || (match classPrio c with | some q => decide (p < q) | none => true)
  let fresh := g.capAt != now / Config.capInterval
  let used := if fresh then 0 else if cls = 5 then g.used5 else g.used8
  turn && match classCap cls with
    | none => true
    | some b => decide (128 * (used + 1) ≤ b * Config.capInterval)

/-- A flit of a class is sent: its message is the one in progress until its last flit, and it counts in the cap interval. -/
def Segment.sent (g : Segment) (now cls : Nat) (last : Bool) : Segment :=
  let rest := if g.busy.head? = some cls then g.busy.tail else g.busy
  let fresh := g.capAt != now / Config.capInterval
  let u5 := if fresh then 0 else g.used5
  let u8 := if fresh then 0 else g.used8
  { g with busy := if last then rest else cls :: rest, capAt := now / Config.capInterval
           used5 := if cls = 5 then u5 + 1 else u5, used8 := if cls = 8 then u8 + 1 else u8 }

/-- The hub passes a flit of this class to the Trivet as well: heartbeats, Colander copies, and the end of a snapshot (R88). -/
def toTrivet (cls : Nat) (last : Bool) : Bool := cls == 1 || cls == 3 || (cls == 4 && last)

/-- HUB_RELAY (R88): the hub relays a flit from a half's segment to the other one. A
flit that must wait for a message of equal or higher priority, or for the next cap interval, is not relayed yet (R92, R93). A
whole snapshot (class 0x4) of a half that takes part is then relayed complete (R109). -/
def execHubRelay (h : Half) (cls : Fin 16) (f : HubFlit) (s : State) : Host.Outcome State Fault Refusal :=
  let g := (s.ep h).seg
  if s.linkUp ∧ g.may s.now cls then
    let s := s.mapEp h fun e => { e with seg := g.sent s.now cls f.last }
    let s := s.emit (.relayed h.other.n f.flit.toNat (toTrivet cls f.last))
    let ia := s.ia
    if cls.val = 4 ∧ f.last then
      match h with
      | .k => .next { s with ia := { ia with k := { ia.k with relayed := ia.k.part } } }
      | .p => .next { s with ia := { ia with p := { ia.p with relayed := ia.p.part } } }
    else .next s
  else .next s

/-! ### Input agreement -/

def Ia.half (i : Ia) : Half → IaHalf
  | .k => i.k
  | .p => i.p
def Ia.putHalf (i : Ia) (h : Half) (x : IaHalf) : Ia :=
  match h with
  | .k => { i with k := x }
  | .p => { i with p := x }

/-- Entries per region; source and destination of a half, as offsets from the first bank of half K. -/
def State.iaEntries (s : State) : Nat := s.fld A.TEN_IA_CTRL F.TEN_IA_CTRL.ENTRIES
def State.iaSrc (s : State) (h : Half) : Nat := s.fld (A.TEN_IA_SRC h.n) F.TEN_IA_SRC.OFFSET * 16
def State.iaDst (s : State) (h : Half) : Nat := s.fld (A.TEN_IA_DST h.n) F.TEN_IA_DST.OFFSET * 16

/-- The configuration of input agreement is valid (R144). -/
def State.iaValid (s : State) : Bool :=
  let n := 16 * s.iaEntries
  let within := fun (h : Half) (a : Nat) => h.n * 0x200000 ≤ a && a + n ≤ (h.n + 1) * 0x200000
  let apart := fun (a b : Nat) => decide (a + n ≤ b) || decide (b + n ≤ a)
  decide (1 ≤ s.iaEntries) && decide (s.iaEntries ≤ 4096) &&
  [Half.k, Half.p].all fun h => within h (s.iaSrc h) && within h (s.iaDst h) && apart (s.iaSrc h) (s.iaDst h)

/-- The snapshot of a half's source region: VALUE and STAMP of each entry (Table 2.6); an entry whose read meets a double-bit
error, one of `bad`, is sent as never updated (Table 12.2). -/
def State.iaSnap (s : State) (h : Half) (bad : List (Half × Fin 4096)) : List (Nat × Nat) :=
  (List.range s.iaEntries).map fun i =>
    let a := bankBase + s.iaSrc h + 16 * i
    if bad.any fun b => b.1 == h && b.2.val == i then (0, 0) else (s.mrd a 8, s.mrd (a + 8) 8)

/-- The snapshot message of a half: one data flit for an entry (R106). -/
def State.sendSnap (s : State) (h : Half) (es : List (Nat × Nat)) : State :=
  s.sendMsg h.n h 4 0 (es.map fun e => e.1 % 2 ^ 64 + 2 ^ 64 * (e.2 % 2 ^ 64))

/-- The double-bit errors that snapshot reads meet: recorded, and HEALTHY = 0 (R565), and each an F2 event (Table 12.2), with the
code of a scratchpad double-bit error (DESIGN CHOICE, log entry 49). -/
def State.snapErrors (s : State) (bad : List (Half × Fin 4096)) : State :=
  bad.foldl (fun s b =>
    let a := bankBase + s.iaSrc b.1 + 16 * b.2.val
    let s := if s.inService b.1 then s.fault 0x11 2 (originHalf b.1) 0 else s
    s.spadDouble b.1 a 0) s

/-- The agreed entry of one index, given HOLDER's half; with no holder Knit's entry decides (R108). -/
def agree (holder : Byte) (k p : Nat × Nat) : Nat × Nat :=
  if k.2 < p.2 then p else if p.2 < k.2 then k else if holder = holderCode .p then p else k

/-- Indices whose stamps are equal and values differ (R108, case 3). -/
def conflicts (k p : List (Nat × Nat)) : Nat := ((k.zip p).filter fun e => e.1.2 = e.2.2 ∧ e.1.1 ≠ e.2.1).length

/-- Agreed entries written to a half's destination region, which stands where TEN_IA_DST and TEN_IA_CTRL.ENTRIES place it when
the commit comes, also if a write has moved it since c0 (DESIGN CHOICE, log entry 49). -/
def State.iaWrite (s : State) (h : Half) (es : List (Nat × Nat)) : State :=
  s.spadPut (bankBase + s.iaDst h) (es.flatMap fun e => leBytes 8 e.1 ++ leBytes 8 e.2)

/-- IA_DONE to the harts of a half. -/
def State.iaDone (s : State) (h : Half) : State := s.hartLatch (fun k => halfOf (k / 2) == h) 0

/-- LAST_FAILED of a half. -/
def State.iaFailed (s : State) (h : Half) (b : Bool) : State :=
  s.setb A.TEN_IA_STATUS (match h with | .k => F.TEN_IA_STATUS.LAST_FAILED_K | .p => F.TEN_IA_STATUS.LAST_FAILED_P) b

/-- Items 1 and 2 of R111 for a half: the agreement fails; `log` writes the F2 event. -/
def State.iaFail (s : State) (h : Half) (log : Bool) : State :=
  let s := (s.iaFailed h true).inc A.TEN_IA_FAIL
  let s := if log then s.fault 0x34 2 (originHalf h) 0 else s
  let s := { s with ia := { s.ia with bad := true } }
  s.iaDone h

/-- An agreement cycle begins at c0: snapshots are read and sent, or the cycle fails (R105, R106, R112, R820). CYCLE counts every
c0 of an enabled agreement, a failed one and that of an additional round among them (DESIGN CHOICE, log entry 49). -/
def State.iaCycle (s : State) (also : Option Half) (bad : List (Half × Fin 4096)) : State :=
  if !s.flag A.TEN_IA_CTRL F.TEN_IA_CTRL.ENABLE then s
  else
    let s := s.incMod A.TEN_IA_STATUS F.TEN_IA_STATUS.CYCLE
    let parts := [Half.k, Half.p].filter fun h => s.inService h || also == some h
    if !s.iaValid then parts.foldl (fun s h => s.iaFail h true) s
    else
      let two := parts.length = 2
      let mk := fun (h : Half) => if parts.contains h then (⟨true, decide two, s.iaSnap h bad, false⟩ : IaHalf) else ⟨false, false, [], false⟩
      let ia := { s.ia with c0 := s.raw, holder := s.chg.holder, commitSent := false, counted := false, k := mk .k, p := mk .p }
      let s := s.snapErrors (bad.filter fun b => parts.contains b.1 && decide (b.2.val < s.iaEntries))
      let s := parts.foldl (fun s h => s.sendSnap h (ia.half h).snap) { s with ia := ia }
      match parts with
      | [h] => ((s.iaWrite h (ia.half h).snap).iaFailed h false).iaDone h
      | _ => s

/-- The half in probation is judged at a trigger (Table 2.9, step 5; R132, R133). -/
def State.judgeProbation (s : State) : State :=
  match s.holder with
  | none => { s with ia := { s.ia with bad := false } }
  | some h =>
    let c := s.chg.half h.other
    if c.st = .standby ∧ c.probation ∧ !c.update then
      let clean := if s.ia.bad then s.ia.clean else s.ia.clean + 1
      let s := { s with ia := { s.ia with bad := false, clean := clean } }
      if s.fld A.TRV_CFG F.TRV_CFG.PROBATION_N ≤ clean ∧ !s.trivetLost then
        (s.setProbation h.other false false).setMode .two
      else s
    else { s with ia := { s.ia with bad := false } }

/-- T3 at the final pass (Table 2.9, step 4; R132, R133): PROBATION, with UPDATE for staged digests; with
PROBATION_N = 0, step 5 coincides. -/
def State.admitHalf (s : State) (r : Resync) : State :=
  let h := r.cand
  let s := s.endResync.enter h .standby 0x03
  let s := { s with ia := { s.ia with clean := 0 } }
  if r.staged then s.setProbation h true true
  else if s.fld A.TRV_CFG F.TRV_CFG.PROBATION_N = 0 then s.setMode .two
  else s.setProbation h true false

/-- IA_TRIGGER (R106): the compare event TRIG has occurred. Probation is judged; the agreement cycle begins, with a
candidate whose final pass is due; that pass copies the last dirty granules and T3 follows, or a read error refuses
the candidate. With an invalid configuration the candidate, which takes part in this cycle, fails with the others and T3 still
follows (DESIGN CHOICE, log entry 49). `e` says which reads meet a double-bit error. -/
def execIaTrigger (e : IaReads) (s : State) : Host.Outcome State Fault Refusal :=
  let f := storeGet 0 s.gauge.fired s.trigUnit
  if f = 0 ∨ f ≤ s.ia.trig then .next s
  else
    let s := { s with ia := { s.ia with trig := f } }
    let s := s.judgeProbation
    match s.resync with
    | some r =>
      if r.final ∧ !s.trivetLost then
        if e.passError then
          .next (((s.iaCycle none e.bad).fault 0x11 2 (originHalf r.cand.other) 0).refuseResync r.cand 0x39)
        else
          let s := s.iaCycle (some r.cand) e.bad
          .next ((s.copyGranules r.cand.other r.dirty).admitHalf r)
      else .next (s.iaCycle none e.bad)
    | none => .next (s.iaCycle none e.bad)

/-- IA_COMMIT_SEND (R108, R109): both snapshots are relayed complete; the hub sends each half a commit with HOLDER at c0. -/
def execIaCommitSend (s : State) : Host.Outcome State Fault Refusal :=
  let i := s.ia
  if i.k.part ∧ i.p.part ∧ i.k.relayed ∧ i.p.relayed ∧ !i.commitSent then
    let s := { s with ia := { i with commitSent := true } }
    .next ((s.sendMsg 2 .k 2 i.holder.toNat []).sendMsg 2 .p 2 i.holder.toNat [])
  else .next s

/-- Conflicts of the running cycle are counted once, each with an F1 event (R108, case 3). -/
def State.countConflicts (s : State) : State :=
  if s.ia.counted then s
  else
    let n := conflicts s.ia.k.snap s.ia.p.snap
    let s := { s with ia := { s.ia with counted := true } }
    (List.range n).foldl (fun s _ => (s.inc A.TEN_IA_CONFLICT).fault 0x33 1 originShared 0) s

/-- IA_COMMIT_RECEIVE (R110): a half that awaits the commit writes the agreed entries. -/
def execIaCommitReceive (h : Half) (s : State) : Host.Outcome State Fault Refusal :=
  let i := s.ia
  if i.commitSent ∧ (i.half h).await then
    let s := s.countConflicts
    let es := (i.k.snap.zip i.p.snap).map fun e => agree i.holder e.1 e.2
    let s := { s with ia := s.ia.putHalf h { s.ia.half h with await := false } }
    .next (((s.iaWrite h es).iaFailed h false).iaDone h)
  else .next s

/-- IA_COMMIT_TIMEOUT (R111): no commit by c0 + 12 µs, one of that very tick among those in time (R18); the half is demoted if
the hub had sent it. -/
def execIaCommitTimeout (h : Half) (s : State) : Host.Outcome State Fault Refusal :=
  let i := s.ia
  let arrives := i.commitSent && i.c0 + 12 * usTicks == s.raw && s.soon fun c => decide (c = .iaCommitReceive h)
  if (i.half h).await ∧ i.c0 + 12 * usTicks ≤ s.raw ∧ !arrives then
    let s := { s with ia := s.ia.putHalf h { s.ia.half h with await := false } }
    let dem := i.commitSent && s.inService h && !s.trivetLost
    let s := s.iaFail h (!dem)
    if dem then .next (s.demote h 0x23 ⟨0x34, 0, 0, 0, 0⟩) else .next s
  else .next s

/-- IA_RERUN_START (R694): the c0 of an additional round has come. -/
def execIaRerunStart (s : State) : Host.Outcome State Fault Refusal :=
  match s.ia.rerun with
  | none => .next s
  | some c =>
    if s.raw < c then .next s
    else
      let s := { s with ia := { s.ia with rerun := none } }
      .next ((s.iaCycle none []).setf A.COL_STATUS F.COL_STATUS.IA_RERUN 1)

/-- A write of TEN_IA_CTRL (R144): ENABLE stays 0 where the configuration is invalid. -/
def State.iaCtrlWrite (s : State) (m : Nat) (v : Word) : State :=
  let a := A.TEN_IA_CTRL
  s.guardReg m a fun s =>
    let was := s.flag a F.TEN_IA_CTRL.ENABLE
    let s := s.plainWrite a v
    if !was ∧ s.flag a F.TEN_IA_CTRL.ENABLE ∧ !s.iaValid then s.setf a F.TEN_IA_CTRL.ENABLE 0 else s

/-- IA_CTRL_WRITE (R144). -/
def execIaCtrlWrite (m : Byte) (v : Word) (s : State) : Host.Outcome State Fault Refusal :=
  .next (s.iaCtrlWrite m.toNat v)

/-- A write of TEN_APP_K or TEN_APP_P (R143). -/
def State.tenAppWrite (s : State) (m : Nat) (h : Half) (v : Word) : State :=
  let a := A.TEN_APP h.n
  s.guardReg m a fun s =>
    if m = 2 + 2 * h.n ∨ m = 3 + 2 * h.n then s.plainWrite a v else s.busErr m a true cPerm

/-- TEN_APP_WRITE (R143). -/
def execTenAppWrite (m : Byte) (h : Half) (v : Word) (s : State) : Host.Outcome State Fault Refusal :=
  .next (s.tenAppWrite m.toNat h v)

/-! ### Resynchronisation -/

/-- RESYNC_PASS_DONE (R91, R93, R132): a pass ends, not before its bytes have crossed the segment at 16 Gbit/s; what writes have
dirtied since is copied again until 4 KiB or less remains, within 16 passes, the bulk copy among them (DESIGN CHOICE, log entry
49). A double-bit error of a read is an F2 event and refuses the candidate. -/
def execResyncPassDone (readError : Bool) (s : State) : Host.Outcome State Fault Refusal :=
  match s.resync with
  | none => .next s
  | some r =>
    if s.trivetLost ∨ r.final ∨ s.now < r.start + r.load / 4 then .next s
    else if readError then .next ((s.fault 0x11 2 (originHalf r.cand.other) 0).refuseResync r.cand 0x39)
    else if r.dirty.length ≤ 64 then .next { s with resync := some { r with final := true } }
    else if 16 ≤ r.pass then .next (s.refuseResync r.cand 0x35)
    else
      let s := s.copyGranules r.cand.other r.dirty
      .next { s with resync := some { r with pass := r.pass + 1, dirty := [], start := s.now, load := 64 * r.dirty.length } }

/-! ### Loss of the Trivet (R124 to R128) -/

/-- A self-test that runs when the Trivet is lost ends, abandoned; its streams stay blocked until reset (R126). -/
def State.dropTest (s : State) : State :=
  match s.col.test with
  | none => s
  | some _ =>
    let s := { s with col := { s.col with test := none, again := [], due := false } }
    (s.setf A.COL_STATUS F.COL_STATUS.ST_RUN 0).setf A.COL_STATUS F.COL_STATUS.ST_RESULT 6

/-- TRIVET_LOST is asserted: the grant latch freezes and both halves assert FAULTn for an F4 fault (R126). -/
def State.loseTrivet (s : State) : State :=
  if s.trivetLost then s else { s with trivetLost := true }.dropTest.fault 0x70 4 originShared 0

/-- ALIVE_LINE_TOGGLE (R124): the Trivet toggles the alive lines. -/
def execAliveLineToggle (s : State) : Host.Outcome State Fault Refusal := .next { s with alive := s.now }

/-- ALIVE_LINE_TIMEOUT (R125): the alive line has not toggled for 2 µs, as a half that runs sees it; a toggle of that very tick
comes in time (R18). -/
def execAliveLineTimeout (s : State) : Host.Outcome State Fault Refusal :=
  if (s.running .k || s.running .p) && decide (s.alive + 2 * usTicks ≤ s.now) &&
      !(s.alive + 2 * usTicks == s.now && s.soon fun c => decide (c = .aliveLineToggle)) then .next s.loseTrivet else .next s

/-- TRIVET_LOCKSTEP_ERROR (R125). -/
def execTrivetLockstepError (s : State) : Host.Outcome State Fault Refusal := .next s.loseTrivet

/-- TRIVET_WATCHDOG_EXPIRY (R125). -/
def execTrivetWatchdogExpiry (s : State) : Host.Outcome State Fault Refusal := .next s.loseTrivet

/-- VDD_TRV_FAIL (R128): the Trivet's supply is gone: no grant pair is driven, and the halves assert FAULTn. -/
def execVddTrvFail (s : State) : Host.Outcome State Fault Refusal :=
  let s := s.loseTrivet
  .next { s with chg := { s.chg with grant := 0, bothPairs := false, lineK := none, lineP := none } }

end Sys2Proof.Machine
end

