-- ==== Sys2Proof/Machine/Colander.lean ====
section
/-! DEFINITION. The Colander: submission, pairing, release, the mismatch procedure and the self-test (spec/02, R115 to
R122, R815, R84; spec/15, R687 to R701; spec/16, R750). -/

namespace Sys2Proof.Machine
open Sys2Proof

/-! ### Self-test (R696 to R700) -/

/-- The self-test starts. -/
def State.startTest (s : State) (periodic : Bool) : State :=
  let s := { s with col := { s.col with test := some ⟨s.raw, periodic⟩, lastPer := if periodic then s.raw else s.col.lastPer } }
  (s.setf A.COL_STATUS F.COL_STATUS.ST_RUN 1).inc A.COL_SELFTEST

/-- A periodic self-test may start (R700). -/
def State.testMay (s : State) : Bool :=
  s.chg.mode == .two && !s.chg.k.probation && !s.chg.p.probation && !s.trivetLost &&
  s.fld A.COL_CTRL F.COL_CTRL.ST_PERIOD != 0

/-! ### Mismatches (R693 to R696) -/

/-- The offset of the first differing byte; 0xFFF for a length difference (Table 15.13). -/
def firstDiff (a b : List Byte) : Nat :=
  if a.length ≠ b.length then 0xFFF else ((List.range a.length).find? fun i => a[i]? ≠ b[i]?).getD 0xFFF

/-- COL_LAST_MM and its release point. -/
def State.lastMm (s : State) (code off n rp : Nat) : State :=
  let s := s.wrn A.COL_LAST_MM (code * 2 ^ 24 + min off 0xFFF * 2 ^ 12 + n)
  s.wr64 A.COL_LAST_MM_RP_LO A.COL_LAST_MM_RP_HI rp

/-- The F2 fault of codes 0x40 and 0x41 with its DETAIL words (Table 15.3). -/
def State.faultMm (s : State) (code rp : Nat) : State :=
  s.faultD code 2 originShared 0 (s.rdn A.COL_LAST_MM) (rp % 2 ^ 32) (rp / 2 ^ 32)

/-- An additional round of input agreement is scheduled (R694). -/
def State.scheduleRound (s : State) : State :=
  let soon := s.flag (A.GAUGE_CMP_CTRL s.trigUnit) F.GAUGE_CMP_CTRL.EN && s.cmpInstant s.trigUnit ≤ s.raw + 20 * usTicks
  if soon ∨ s.ia.rerun.isSome ∨ !s.flag A.TEN_IA_CTRL F.TEN_IA_CTRL.ENABLE then s
  else { s with ia := { s.ia with rerun := some ((s.raw + 2 * usTicks + 499) / 500 * 500) } }

/-- Every queued copy of a stream is discarded and counted. -/
def State.colPurge (s : State) (n : Nat) : State :=
  (s.colDiscard .k fun c => c.stream = n).colDiscard .p fun c => c.stream = n

/-- A stream is blocked (R696); while TRIVET_LOST is asserted no self-test runs (R126). -/
def State.block (s : State) (n : Nat) : State :=
  let s := (s.setf (A.COL_STREAM_STAT n) F.COL_STREAM_STAT.BLOCKED 1).colPurge n
  if s.trivetLost then s
  else match s.col.test with
  | none => s.startTest false
  | some _ => { s with col := { s.col with again := s.col.again ++ [n] } }

/-- MM_RUN of a stream, and its advance with LAST_MM (R693). -/
def State.mmRun (s : State) (n : Nat) : Nat := s.fld (A.COL_STREAM_STAT n) F.COL_STREAM_STAT.MM_RUN
def State.countRun (s : State) (n : Nat) : State :=
  (s.incSat (A.COL_STREAM_STAT n) F.COL_STREAM_STAT.MM_RUN).setf (A.COL_STREAM_STAT n) F.COL_STREAM_STAT.LAST_MM 1

/-- The mismatch procedure, outside probation, of a pair already taken out of the queues (R693, R694, R696). -/
def State.mismatch (s : State) (code off n rp : Nat) : State :=
  let s := s.lastMm code off n rp
  let s := s.faultMm code rp
  let s := s.countRun n
  let s := State.scheduleRound { s with ia := { s.ia with bad := true } }
  if s.trivetLost || s.mmRun n == 3 then s.block n else s

/-- A mismatch of the standby half's copy in probation: T5, but for update standby (R122, R133). -/
def State.probMismatch (s : State) (sb : Half) (code off n rp : Nat) : State :=
  let s := (s.inc A.COL_MISMATCH).lastMm code off n rp
  let s := { s with ia := { s.ia with bad := true } }
  let c := s.chg.half sb
  if c.st = .standby ∧ c.probation ∧ !c.update then
    s.demote sb 0x24 ⟨code, 0, s.rdn A.COL_LAST_MM, rp % 2 ^ 32, rp / 2 ^ 32⟩
  else s

/-! ### Release (R115 to R122) -/

/-- The oldest copies of a stream and release point are discarded; those not yet released are counted. -/
def State.discardPair (s : State) (n rp : Nat) : State :=
  let k := [Half.k, Half.p].filter fun h => match s.copyOf h n rp with
    | some c => !c.sent
    | none => false
  (s.incBy A.COL_DISCARD k.length).takePair n rp

/-- COL_WAIT in raw counts. -/
def State.colWait (s : State) : Nat := s.fld A.TRV_CFG F.TRV_CFG.COL_WAIT * usTicks

/-- The raw count at which the wait for a stream and release point ends (R117, case 4; R815). -/
def State.waitEnd (s : State) (n rp : Nat) : Nat :=
  let t := if rp ≠ 0 then rp else match s.copyOf .k n rp, s.copyOf .p n rp with
    | some a, some b => min a.arrived b.arrived
    | some a, none => a.arrived
    | none, some b => b.arrived
    | none, none => s.raw
  t + s.colWait

/-- A due pair in 1oo2D with both copies present (R117, cases 1 and 2); while the path is closed it is held, and discarded at the
end of the wait (R815). -/
def State.judgeBoth (s : State) (h : Half) (own oth : Copy) (expired : Bool) : State :=
  let n := own.stream
  let rp := own.rp
  if !s.pathOpen h then (if expired then s.discardPair n rp else s)
  else if own.bytes ≠ oth.bytes then
    ((s.takePair n rp).inc A.COL_MISMATCH).mismatch 0x40 (firstDiff own.bytes oth.bytes) n rp
  else if s.mayRelease h then
    let s := (s.takePair n rp).inc A.COL_MATCH
    let s := s.setf (A.COL_STREAM_STAT n) F.COL_STREAM_STAT.MM_RUN 0
    s.colRelease (if s.bytesFrom h rp = h then own else oth)
  else if expired then s.discardPair n rp else s

/-- In probation the holder's copies of a stream and release point that have not been released are released at once, whatever
stands before them (R122). -/
def State.releaseUnsent (s : State) (h : Half) (n rp : Nat) : State :=
  let q := (s.col.queue h).filter fun c => c.is n rp && !c.sent
  let s := s.putColQueue h ((s.col.queue h).map fun c => if c.is n rp then { c with sent := true } else c)
  q.foldl State.colRelease s

/-- A due pair while the other half is in probation, or whose holder's copy was released in probation (R122). -/
def State.judgeProb (s : State) (h : Half) (n rp : Nat) (expired : Bool) : State :=
  match s.copyOf h n rp, s.copyOf h.other n rp with
  | some own, oth =>
    if !own.sent ∧ !s.mayRelease h then (if expired then s.discardPair n rp else s)
    else
      let s := if s.mayRelease h && s.outValid h then s.releaseUnsent h n rp else s
      match oth with
      | some oth =>
        let s := s.takePair n rp
        if own.bytes = oth.bytes then s.inc A.COL_MATCH
        else s.probMismatch h.other 0x40 (firstDiff own.bytes oth.bytes) n rp
      | none => if expired then (s.takePair n rp).probMismatch h.other 0x41 0xFFF n rp else s
  | none, some _ =>
    if expired then
      ((s.discardPair n rp).inc A.COL_WAIT_EXP).faultMm 0x41 rp
    else s
  | none, none => s

/-- The copies of a stream and release point are due: they are released, compared, held or discarded (R84, R117,
R119, R122, R750, R815); `expired` when COL_WAIT has passed. -/
def State.judge (s : State) (n rp : Nat) (expired : Bool) : State :=
  match s.holder with
  | none => if expired then s.discardPair n rp else s
  | some h =>
    let own := s.copyOf h n rp
    let oth := s.copyOf h.other n rp
    let prob := s.chgOf h.other == .standby && (s.chg.half h.other).probation
    let sent := match own with
      | some c => c.sent
      | none => false
    if !s.outValid h ∧ !sent then s.discardPair n rp
    else if prob ∨ sent then s.judgeProb h n rp expired
    else if s.chg.mode = .two then
      match own, oth with
      | some a, some b => s.judgeBoth h a b expired
      | none, none => s
      | _, _ =>
        if !expired then s
        else if !s.pathOpen h then s.discardPair n rp
        else ((s.takePair n rp).inc A.COL_WAIT_EXP).mismatch 0x41 0xFFF n rp
    else match s.copyOf (s.bytesFrom h rp) n rp with
      | some a =>
        if s.mayRelease h then (s.takePair n rp).colRelease a
        else if expired then s.discardPair n rp else s
      | none => if expired then s.discardPair n rp else s

/-- Overdue copies released in release-point order (R120, R815). -/
def State.releaseDue (s : State) : State := s.dueKeys.foldl (fun s k => s.judge k.2 k.1 false) s

/-! ### Submission (R690 to R692) -/

/-- The units a half's queue holds, and whether a copy finds space (R115, R691). -/
def State.colSpace (s : State) (h : Half) (c : Copy) : Bool := queueUnits (s.col.queue h) + c.units ≤ 1024

/-- The checks of Table 15.5 in their order: RESULT. -/
def State.submitCheck (s : State) (h : Half) (m : Nat) (c : Copy) : Nat :=
  let n := c.stream
  let own := (s.col.queue h).filter (Copy.is n c.rp)
  let oth := (s.col.queue h.other).filter (Copy.is n c.rp)
  if !s.streamValid n then 3
  else if m ≠ s.streamSrc n h then 1
  else if c.bytes.length = 0 ∨ s.streamMax n < c.bytes.length then 2
  else if !s.inService h then 4
  else if s.blocked n then 6
  else if c.rp ≠ 0 ∧ oth.length < own.length then 5
  else 0

/-- A copy that finds space is checked, and queued, refused or discarded; a copy whose release point has passed or is
0 is judged at once (R117, R690, R691). -/
def State.colSubmit (s : State) (h : Half) (m : Nat) (c : Copy) : State × Nat :=
  let r := s.submitCheck h m c
  let s := if r = 0 then
      let s := s.putColQueue h (s.col.queue h ++ [{ c with arrived := s.raw }])
      if s.dueNow c.rp then s.judge c.stream c.rp false else s
    else if r = 4 ∨ r = 6 then s.inc A.COL_DISCARD else s.inc A.COL_SUB_REJ
  (s, r)

/-- The copy that the submission port of hart h holds. -/
def State.portCopy (s : State) (h : Nat) : Copy :=
  let n := min 2048 (s.fld (A.COL_SUB_CTRL h) F.COL_SUB_CTRL.LEN)
  let bytes := ((List.range 512).flatMap fun w => leBytes 4 (s.rdn (A.COL_SUB_DATA h w))).take n
  ⟨s.fld (A.COL_SUB_CTRL h) F.COL_SUB_CTRL.STREAM, s.rd64 (A.COL_SUB_RP_LO h) (A.COL_SUB_RP_HI h),
   bytes ++ List.replicate (s.fld (A.COL_SUB_CTRL h) F.COL_SUB_CTRL.LEN - n) 0, 0, false⟩

/-- The half of a hart. -/
def hartHalf (h : Nat) : Half := halfOf (h / 2)

/-- A submission of hart h completes. -/
def State.portSubmit (s : State) (h : Nat) (c : Copy) : State :=
  let (s, r) := s.colSubmit (hartHalf h) (2 + h) c
  (s.setf (A.COL_SUB_STAT h) F.COL_SUB_STAT.RESULT r).ok 0

/-- A write of the control register of the submission port of hart h (R690). -/
def State.colSubWrite (s : State) (m h : Nat) (v : Word) : State :=
  let a := A.COL_SUB_CTRL h
  s.guardReg m a fun s =>
    if m ≠ 2 + h then s.busErr m a true cPerm
    else
      let s := s.plainWrite a v
      if fget F.COL_SUB_CTRL.GO v = 0 then s
      else
        let c := s.portCopy h
        if s.colSpace (hartHalf h) c then s.portSubmit h c
        else { s with resp := none, col := { s.col with waiting := s.col.waiting ++ [(h, c)] } }

/-- COL_SUBMIT (R690). -/
def execColSubmit (m : Byte) (h : Fin 4) (v : Word) (s : State) : Host.Outcome State Fault Refusal :=
  .next (s.colSubWrite m.toNat h v)

/-- COL_SUBMIT_QUEUE_SPACE (R690): a submission that waits finds space. -/
def execColSubmitQueueSpace (h : Fin 4) (s : State) : Host.Outcome State Fault Refusal :=
  match s.col.waiting.find? fun w => w.1 = h.val with
  | none => .next s
  | some (_, c) =>
    if s.colSpace (hartHalf h) c then
      let s := { s with col := { s.col with waiting := s.col.waiting.filter fun w => w.1 ≠ h.val } }
      .next (s.portSubmit h c)
    else .next s

/-- COL_RELEASE_POINT (R117, R119, R122). -/
def execColReleasePoint (n : Fin 256) (rp : Dword) (s : State) : Host.Outcome State Fault Refusal :=
  if s.dueNow rp.toNat then .next (s.judge n rp.toNat false) else .next s

/-- A transition decided on the tick of the expiry of a wait left the half of the present copy as the holder (R118). -/
def State.keptAtExpiry (s : State) (n rp : Nat) : Bool :=
  s.chg.decided == some (s.waitEnd n rp) && s.chg.mode == .one &&
  match s.holder with
  | some h => (s.copyOf h n rp).isSome
  | none => false

/-- A submission of a copy of the stream and release point awaits its turn in this tick: it arrives in time (R18). -/
def State.copySoon (s : State) (n rp : Nat) : Bool :=
  s.waitEnd n rp == s.raw && s.soon fun c => match c with
    | .colSubmit _ h v => fget F.COL_SUB_CTRL.GO v == 1 && fget F.COL_SUB_CTRL.STREAM v == n &&
        s.rd64 (A.COL_SUB_RP_LO h) (A.COL_SUB_RP_HI h) == rp
    | _ => false

/-- COL_WAIT_EXPIRY (R18, R117 case 4, R118, R122, R815). -/
def execColWaitExpiry (n : Fin 256) (rp : Dword) (s : State) : Host.Outcome State Fault Refusal :=
  let held := (s.copyOf .k n rp.toNat).isSome || (s.copyOf .p n rp.toNat).isSome
  if held ∧ s.waitEnd n rp.toNat ≤ s.raw ∧ !s.keptAtExpiry n rp.toNat ∧ !s.copySoon n rp.toNat then
    .next (s.judge n rp.toNat true)
  else .next s

/-- HOLDER reaches the grant pairs, which read as they should (R66). -/
def State.driveGrant (s : State) : State :=
  let g := match s.holder with
    | some h => holderCode h
    | none => 0
  { s with chg := { s.chg with grant := g, bothPairs := false, lineK := none, lineP := none } }

/-- COL_RELEASE_PATH_OPEN (R66, R67, R120, R815): HOLDER has reached the grant pairs. While TRIVET_LOST is asserted the grant
latch is frozen and the pairs keep their levels (R126). -/
def execColReleasePathOpen (s : State) : Host.Outcome State Fault Refusal :=
  .next (if s.trivetLost then s.releaseDue else s.driveGrant.releaseDue)

/-! ### Self-test -/

/-- ST_RESULT of an end of the self-test (Table 15.13). -/
def testResult (colOk kOk pOk : Bool) : Nat :=
  if !colOk then 5 else if !kOk && !pOk then 4 else if !kOk then 2 else if !pOk then 3 else 1

/-- COL_SELFTEST_END (R696 to R698): 150 µs after its start the self-test ends with the results of its steps. -/
def execColSelftestEnd (colOk kOk pOk : Bool) (s : State) : Host.Outcome State Fault Refusal :=
  match s.col.test with
  | none => .next s
  | some t =>
    if s.trivetLost ∨ s.raw < t.start + 150 * usTicks then .next s
    else
      let r := testResult colOk kOk pOk
      let keep := if t.periodic && r == 1 then s.col.again else []
      let due := s.col.due
      let s := { s with col := { s.col with test := none, again := [], due := false } }
      let s := (s.setf A.COL_STATUS F.COL_STATUS.ST_RUN 0).setf A.COL_STATUS F.COL_STATUS.ST_RESULT r
      let d : Diag := ⟨0x42, 0, 0, 0, 0⟩
      let s := match r with
        | 5 => (s.setf A.COL_STATUS F.COL_STATUS.COL_FAIL 1).fault 0x44 4 originShared 0
        | 4 => s.exits [⟨.k, .demoted, 0x21, some d⟩, ⟨.p, .demoted, 0x21, some d⟩]
        | 2 => s.demote .k 0x21 d
        | 3 => s.demote .p 0x21 d
        | _ =>
          if t.periodic then s
          else match s.charged with
          | some h => (s.toService h.other 0x36).fault 0x43 2 originShared 0
          | none => s.fault 0x43 2 originShared 0
      let s := (s.clearBlocked keep).clearRuns keep
      if keep ≠ [] then .next { s.startTest false with col := { (s.startTest false).col with due := due } }
      else if due && s.testMay then .next (s.startTest true) else .next s

/-- COL_SELFTEST_PERIODIC (R700): ST_PERIOD minutes since the last periodic self-test. -/
def execColSelftestPeriodic (s : State) : Host.Outcome State Fault Refusal :=
  let period := s.fld A.COL_CTRL F.COL_CTRL.ST_PERIOD * 60000 * msTicks
  if !s.testMay ∨ s.raw < s.col.lastPer + period then .next s
  else match s.col.test with
  | some _ => .next { s with col := { s.col with due := true } }
  | none => .next (s.startTest true)

/-! ### COL registers -/

/-- A write of COL_CTRL (R701): ISO_SERVICE drives the isolation of a half in SERVICE. -/
def State.colCtrlWrite (s : State) (m : Nat) (v : Word) : State :=
  let a := A.COL_CTRL
  s.guardReg m a fun s =>
    let s := s.plainWrite a v
    [Half.k, Half.p].foldl (fun s h =>
      if s.chgOf h = .service then s.isolate h (s.flag a F.COL_CTRL.ISO_SERVICE) else s) s

/-- ISO_SERVICE_WRITE (R701); while the lifecycle state is SERVICE, EN stays 0 (R757). -/
def execIsoServiceWrite (m : Byte) (v : Word) (s : State) : Host.Outcome State Fault Refusal :=
  .next (s.colCtrlWrite m.toNat (if s.lc = 3 then fput F.COL_CTRL.EN v 0 else v))

/-- A word of a stream entry is rewritten: queued copies of the stream are discarded and counted (R687). -/
def State.colStreamWrite (s : State) (m n w : Nat) (v : Word) : State :=
  let a := A.COL_STREAM n w
  s.guardReg m a fun s => (s.plainWrite a v).colPurge n

end Sys2Proof.Machine
end

