-- ==== Sys2Proof/Machine/WakeCore.lean ====
section
/-! DEFINITION. The WAKE block as the other units see it: valid traffic and valid communication, the end of a wake, and a
wake request to a segment (spec/10, R506 to R524). -/

namespace Sys2Proof.Machine
open Sys2Proof

/-! ### Segments -/

def State.seg (s : State) (n : Nat) : Seg := storeGet Seg.init s.wake.segs n
def State.putSeg (s : State) (n : Nat) (x : Seg) : State :=
  { s with wake := { s.wake with segs := storePut Seg.init s.wake.segs n x } }
def State.mapSeg (s : State) (n : Nat) (f : Seg → Seg) : State := s.putSeg n (f (s.seg n))

/-- States of a segment (Table 10.3). -/
def sgAwake : Nat := 0
def sgBindOff : Nat := 1
def sgAsleep : Nat := 2
def sgWaking : Nat := 3

/-- The state of a segment. -/
def State.segState (s : State) (n : Nat) : Nat := s.fld (A.WAKE_SEG_STATUS n) F.WAKE_SEG_STATUS.STATE
def State.setSeg (s : State) (n v : Nat) : State := s.setf (A.WAKE_SEG_STATUS n) F.WAKE_SEG_STATUS.STATE v

/-- A segment is enabled; its HOLD is 1. -/
def State.segOn (s : State) (n : Nat) : Bool := s.flag (A.WAKE_SEG_CTRL n) F.WAKE_SEG_CTRL.EN
def State.segHold (s : State) (n : Nat) : Bool := s.flag (A.WAKE_SEG_CTRL n) F.WAKE_SEG_CTRL.HOLD

/-- The member bits of a segment: TL port p in bit p, CX channel c in bit 8 + c. -/
def State.segHas (s : State) (n bit : Nat) : Bool := bitAt (s.rdn (A.WAKE_SEG_MEMB n)) bit

/-- The enabled segment of a member (R502). -/
def State.segOf (s : State) (bit : Nat) : Option Nat := (List.range 8).find? fun n => s.segOn n && s.segHas n bit

/-- SLEEP_T of a segment in ticks (R509). -/
def State.sleepT (s : State) (n : Nat) : Nat := s.fld (A.WAKE_SEG_CTRL n) F.WAKE_SEG_CTRL.SLEEP_T * msTicks

/-- The bind-off point B of a segment; while HOLD is 1 the timer restarts on every tick (R509). -/
def State.segB (s : State) (n : Nat) : Nat :=
  if s.segHold n then s.raw + s.sleepT n else s.rd64 (A.WAKE_SEG_BO_LO n) (A.WAKE_SEG_BO_HI n)

/-- The sleep timer of a segment restarts at instant t (R509). -/
def State.segRestart (s : State) (n t : Nat) : State :=
  s.wr64 (A.WAKE_SEG_BO_LO n) (A.WAKE_SEG_BO_HI n) (rawMod (t + s.sleepT n))

/-! ### Power states (R495, Table 10.1) -/

def psRun : Nat := 0
def psSolo : Nat := 1
def psDoze : Nat := 2
def psSleep : Nat := 3

/-- WAKE_PSTATE.STATE, and BUSY. -/
def State.pstate (s : State) : Nat := s.fld A.WAKE_PSTATE F.WAKE_PSTATE.STATE
def State.powerBusy (s : State) : Bool := s.flag A.WAKE_PSTATE F.WAKE_PSTATE.BUSY

/-- A POWER field, 0b00 read as 0b11. -/
def powerField (v : Nat) : Nat := if v = 0 then 3 else v

/-- A half is off (Table 10.1). -/
def State.halfOff (s : State) (h : Half) : Bool := !(s.hrst h).powered

/-- A POWER field names a half that is off. -/
def State.namesOff (s : State) (power : Nat) : Bool :=
  (bitAt power 0 && s.halfOff .k) || (bitAt power 1 && s.halfOff .p)

/-- A wake event waits for the device to wake, where it names a half that is off (R499, R515). -/
def State.wakeEvent (s : State) (r : WakeReq) : State :=
  if s.namesOff r.power then { s with wake := { s.wake with pend := s.wake.pend ++ [r] } } else s

/-! ### Valid traffic and communication (R520, R522) -/

/-- Valid communication of user-path wakes for which `f` holds of the key, source + 16 × channel. -/
def State.validComm (s : State) (f : Nat → Bool) : State :=
  { s with wake := { s.wake with valid := s.wake.valid.filter fun v => !f v.1 } }

/-- Valid traffic on a member: the check of its segment ends, and so do the checks of WKUP wakes. -/
def State.validTraffic (s : State) (bit : Nat) : State :=
  match s.segOf bit with
  | some n => (s.mapSeg n fun x => { x with check := none }).validComm fun k => decide (k < 8)
  | none => s

/-- A KCP command has completed on a transport: PCIe K and P are sources 8 and 9, the QSPI host ports 10 and 11. -/
def State.validCommand (s : State) (t : Nat) : State :=
  s.validComm fun k => decide (k < 8) || (decide (t < 4) && k == 8 + t)

/-- The receiver of a channel has read it. -/
def State.validMbx (s : State) (c : Nat) : State := s.validComm fun k => k == 12 + 16 * c

/-- A keep-alive or wake frame as R504 and Table 10.4 lay it out: its SUBTYPE, its sender, its group and its data. -/
structure WakeMsg where
  sub : Nat
  sa : Nat
  group : Nat
  data : Nat
  deriving DecidableEq, Repr

/-- The message in a frame given from its destination address on, if it is a keep-alive or wake frame (R504). -/
def State.wakeMsg (s : State) (bs : List Byte) : Option WakeMsg :=
  let da := addrOf bs 0
  let own := s.rdn A.WAKE_DA_LO + 2 ^ 32 * s.fld A.WAKE_DA_HI F.WAKE_DA_HI.ADDR
  if be16At bs 12 = 0x88B5 ∧ (da = own ∨ da = 2 ^ 48 - 1) ∧ (byteAt bs 14 = 1 ∨ byteAt bs 14 = 2) ∧ byteAt bs 15 = 1 then
    some ⟨byteAt bs 14, addrOf bs 6, be16At bs 16, beNat (padTo 8 (slice bs 18 8))⟩
  else none

/-- A frame delivered to the plane by the MAC of a TL port is valid traffic, unless it is a wake frame. -/
def State.validFrame (s : State) (p : Nat) (bs : List Byte) : State :=
  let n := p % 12
  if 4 ≤ n ∧ n < 8 ∧ (s.wakeMsg bs).all (fun m => m.sub != 2) then s.validTraffic (p / 12 * 4 + (n - 4)) else s

/-! ### The end of a wake (R520, R522) -/

/-- The time within which valid traffic must come, in ticks. -/
def State.nodataTicks (s : State) : Nat := s.fld A.WAKE_NODATA_T F.WAKE_NODATA_T.MS * msTicks
def State.validTicks (s : State) : Nat := s.fld A.WAKE_VALID_T F.WAKE_VALID_T.MS * msTicks

/-- One event of a wake that has ended: a data-path wake of a segment with NODATA_EN starts the check for valid traffic, a
user-path wake that for valid communication. -/
def State.startCheck (s : State) (prev : Nat) (r : WakeReq) : State :=
  if r.typ = 3 then
    { s with wake := { s.wake with valid := storeInsert s.wake.valid r.idx (s.now + s.validTicks) } }
  else if r.typ ≠ 5 ∧ s.flag (A.WAKE_SEG_CTRL r.idx) F.WAKE_SEG_CTRL.NODATA_EN then
    s.mapSeg r.idx fun x => { x with check := some (s.now + s.nodataTicks, prev) }
  else s

/-- A half has been released: the wake in progress ends when no further half is awaited. -/
def State.wakeReleased (s : State) (h : Half) : State :=
  let w := s.wake
  if bitAt w.waking h.n then
    let left := w.waking - 2 ^ h.n
    let s := { s with wake := { w with waking := left, ends := if left = 0 then [] else w.ends } }
    if left = 0 then
      w.ends.foldl (fun s r => s.startCheck w.prev r) (s.setf A.WAKE_PSTATE F.WAKE_PSTATE.BUSY 0)
    else s
  else s

end Sys2Proof.Machine
end

