-- ==== Sys2Proof/Machine/Cx.lean ====
section
/-! DEFINITION. The commands of the CAN XL controllers and of DTT (spec/09). -/

namespace Sys2Proof.Machine
open Sys2Proof

/-! ### Row time (R462, R463, R476) -/

/-- round(k × x) for a rate k - 1 in units of 2^-32; halves round up. -/
def rateMul (rate : Int) (x : Nat) : Nat := ((4294967296 + rate) * x + 2147483648).toNat / 4294967296

/-- The raw instant of a Row offset (R462, item 3). -/
def Cx.instant (x : Cx) (p : Pattern) (off : Nat) : Nat := x.q + rateMul x.rate off - rateMul x.rate p.actionOfs

/-- The instant at which the next Row occurrence begins (R462, item 4). -/
def Cx.rowEnd (x : Cx) (p : Pattern) : Nat := x.q + rateMul x.rate p.rowLen - rateMul x.rate p.actionOfs

/-- An entry of the Pattern is used in a Row; it is local transmit, local receive. -/
def Stitch.usedIn (e : Stitch) (row : Nat) : Bool := e.rowRep != 0 && row % e.rowRep == e.rowBase
def Stitch.tx (e : Stitch) : Bool := bitAt e.flags 0
def Stitch.rx (e : Stitch) : Bool := bitAt e.flags 1

/-- Where a stamp falls in the Row: a stitch, the minislot segment, or elsewhere (R463, R487). -/
inductive RowPlace where
  | stitch (n : Nat)
  | minislot
  | other
  deriving DecidableEq, Repr

/-- The place of a stamp in the current Row. -/
def Cx.place (x : Cx) (p : Pattern) (t : Nat) : RowPlace :=
  let n := p.stitches.length
  if t < x.instant p 0 ∨ x.rowEnd p ≤ t then .other
  else match (List.range n).find? fun i => t < x.instant p ((i + 1) * p.stitchLen) with
    | some i => .stitch i
    | none => if t < x.instant p (n * p.stitchLen + p.minislots * p.minislotLen) then .minislot else .other

/-- A stamp lies in the acceptance window around a Row offset (R463, R476). -/
def Cx.inWindow (x : Cx) (p : Pattern) (off t : Nat) : Bool :=
  x.instant p (off - p.precision) ≤ t && t < x.instant p (off + p.precision)

/-- An identifier of the Pattern's tables is used, and its value (Table 4.15). -/
def idUsed (v : Nat) : Bool := v / 2 ^ 31 % 2 == 0
def idOf (v : Nat) : Nat := v % 2 ^ 29

/-- The rank whose REF_ID a frame carries; whether it carries a START_ID. -/
def Pattern.rankOf (p : Pattern) (id : Nat) : Option Nat :=
  (List.range 4).find? fun j => match p.refIds[j]? with
    | some v => idUsed v && idOf v == id
    | none => false
def Pattern.isStart (p : Pattern) (id : Nat) : Bool := p.startIds.any fun v => idUsed v && idOf v == id

/-- The node's rank and its start identifier, where it has one (Table 9.11). -/
def State.dttRank (s : State) (c : Nat) (p : Pattern) : Option Nat :=
  let j := s.fld (A.DTT_ROLE c) F.DTT_ROLE.REF_RANK
  match p.refIds[j]? with
  | some v => if idUsed v then some j else none
  | none => none
def State.dttColdId (s : State) (c : Nat) (p : Pattern) : Option Nat :=
  match p.startIds[s.fld (A.DTT_ROLE c) F.DTT_ROLE.COLD_IDX]? with
  | some v => if idUsed v then some (idOf v) else none
  | none => none

/-- A CAN XL frame of DTT (R464). -/
def dttFrame (id : Nat) (data : List Byte) : CxFrame :=
  { fmt := .xl, ide := false, ident := id, brs := false, remote := false, data := data, sec := false, sdt := 0, vcid := 0, af := 0 }

/-- The data of a reference message (Table 9.2). -/
def State.refData (s : State) (c : Nat) (p : Pattern) (row : Nat) (start : Bool) : List Byte :=
  [BitVec.ofNat 8 row, BitVec.ofNat 8 (b2n start), BitVec.ofNat 8 p.localNode,
   BitVec.ofNat 8 (s.fld (A.DTT_ROLE c) F.DTT_ROLE.PTAG)]

/-- DTT registers that show Row time. -/
def State.dttShow (s : State) (c : Nat) : State :=
  let x := s.can c
  let s := s.wr64 (A.DTT_QREF_LO c) (A.DTT_QREF_HI c) x.q
  let s := s.setf (A.DTT_ROW c) F.DTT_ROW.ROW x.row
  s.wrn (A.DTT_RATE c) (intMod 32 x.rate)

/-- A frame of DTT leaves on the bus; nothing leaves while LISTEN_ONLY is 1 (R451). -/
def State.dttEmit (s : State) (c : Nat) (f : CxFrame) : State := s.emitField (cxHalf c) (.can c f)

/-- The node may transmit: it is on the bus and not listen-only. -/
def State.dttMay (s : State) (c : Nat) : Bool := s.cxOn c && !s.flag (A.CX_CTRL c) F.CX_CTRL.LISTEN_ONLY

/-- The counts of a DTT transmission (R466). -/
def State.dttTxEnd (s : State) (c : Nat) (e : BusEnd) : State :=
  match e with
  | .ok => (s.cxTxOk c).inc (A.DTT_TX_OK c)
  | .lost => s.inc (A.CX_ARB_LOST c)
  | .error => s.cxTxErr c

/-- DTT_REF_LAST of an accepted reference. -/
def State.refLast (s : State) (c id : Nat) (rank : Option Nat) (data : List Byte) : State :=
  let r := match rank with
    | some j => j
    | none => 7
  s.wrn (A.DTT_REF_LAST c)
    (2 ^ 31 + r * 2 ^ 28 + byteAt0 data 0 % 64 * 2 ^ 22 + byteAt0 data 2 % 64 * 2 ^ 16 + id % 2048)
where
  /-- Byte i, 0 past the end. -/
  byteAt0 (bs : List Byte) (i : Nat) : Nat := (bs.getD i 0).toNat

/-! ### References (R469, R474, R478, R479) -/

/-- The first reference of a node that is in LISTEN, COLDSTART or PASSIVE (R474). -/
def State.dttIntegrate (s : State) (c : Nat) (p : Pattern) (id : Nat) (rank : Option Nat) (stamp : Nat)
    (data : List Byte) : State :=
  let row := (data.headD 0).toNat
  let s := s.dttForget c false
  let s := s.mapCan c fun x =>
    { x with q := stamp - rateMul x.rate (2 * rank.getD 0 * p.precision), row := row, firstRow := true, gotRef := true,
             refSeen := true }
  let s := (s.dttShow c).refLast c id rank data
  (s.inc (A.DTT_ST_RX c 0)).dttEnter c dInteg

/-- A change of k by a correction, held to 1 ± 0.001 (R479, item 3). -/
def rateStep (rate corr : Int) (rowLen : Nat) : Int :=
  max (-4294967) (min 4294967 (rate + (corr * 4294967296) / (2 * rowLen)))

/-- An accepted reference in INTEGRATING or ACTIVE corrects Row time (R479, R481); `own` marks the node's own. -/
def State.dttCorrect (s : State) (c : Nat) (p : Pattern) (id : Nat) (rank : Option Nat) (stamp : Nat) (own : Bool)
    (data : List Byte) : State :=
  let x := s.can c
  let e := x.q + rateMul x.rate (2 * rank.getD 0 * p.precision)
  let corr : Int := if own then 0 else (stamp : Int) - e
  let sync := s.flag (A.DTT_CTRL c) F.DTT_CTRL.SYNC_EN && s.dttRank c p == some 0
  let rate := if x.prevRef ∧ !sync then rateStep x.rate corr p.rowLen else x.rate
  let big := decide (p.driftLimit < corr.natAbs)
  let run := if big then x.corrRun + 1 else 0
  let s := s.putCan c { x with q := ((x.q : Int) + corr).toNat, rate := rate, gotRef := true, refSeen := true,
                               corrRun := run, startRefs := x.startRefs && rank.isNone }
  let s := (s.wrn (A.DTT_LAST_CORR c) (intMod 32 corr)).inc (A.DTT_ST_RX c 0)
  let s := (s.dttShow c).refLast c id rank data
  if s.dtt c = dInteg then (if big then s else s.dttEnter c dActive)
  else if 2 ≤ run then s.dttEnter c dPassive else s

/-- A reference message received without error. -/
def State.dttReference (s : State) (c id stamp : Nat) (data : List Byte) : State :=
  match (s.can c).pattern with
  | none => s
  | some p =>
    let st := s.dtt c
    let x := s.can c
    let rank := p.rankOf id
    if st = dOff then s
    else
      let row := (data.headD 0).toNat
      let tracked := st = dInteg ∨ st = dActive
      let s := if (st = dInteg ∨ st = dActive ∨ st = dPassive) ∧ x.place p stamp = .stitch 0 then
        s.mapCan c fun x => { x with refSeen := true } else s
      let valid := (rank.isSome || p.isStart id) && data.length == 4 &&
        (data.getD 3 0).toNat == s.fld (A.DTT_ROLE c) F.DTT_ROLE.PTAG && decide (row < p.rows) &&
        (!decide tracked || row == x.row)
      if !valid then s.inc (A.DTT_REF_REJ c)
      else if !decide tracked then s.dttIntegrate c p id rank stamp data
      else if !x.inWindow p (p.actionOfs + 2 * rank.getD 0 * p.precision) stamp then s.inc (A.DTT_EDGE_VIOL c 0)
      else if x.gotRef then s
      else s.dttCorrect c p id rank stamp false data

/-- DTT_REFERENCE_RECEIVE (R479). -/
def execDttReferenceReceive (c : Fin 8) (id : Fin 2048) (stamp : Nat) (data : List Byte) (s : State) :
    Host.Outcome State Fault Refusal :=
  if s.cxOn c then .next (((s.cxRxCount c false).validTraffic (8 + c)).dttReference c id stamp data) else .next s

/-! ### Receiving -/

/-- A frame that is no reference, received while the node tracks Rows (R486, R487, R489, R490). -/
def State.dttData (s : State) (c : Nat) (p : Pattern) (stamp : Nat) (err : Bool) (f : CxFrame) : State :=
  let x := s.can c
  match x.place p stamp with
  | .other => s.inc (A.DTT_UNSCHED c)
  | .minislot => if err then s else s.cxAccept c stamp f
  | .stitch n =>
    match p.stitches[n]? with
    | none => s
    | some e =>
      if !e.usedIn x.row then s.inc (A.DTT_UNSCHED c)
      else if n = 0 ∨ !(e.tx || e.rx) then s
      else if !x.inWindow p (n * p.stitchLen + p.actionOfs) stamp then
        if x.counted.contains n then s
        else (s.inc (A.DTT_EDGE_VIOL c n)).mapCan c fun x => { x with counted := n :: x.counted }
      else if !e.rx then s
      else if err then s.inc (A.DTT_RX_ERR c)
      else if f.ide ∨ f.ident ≠ idOf e.ident then s.inc (A.DTT_ID_ERR c)
      else
        let s := if x.counted.contains n then s
          else (s.inc (A.DTT_ST_RX c n)).mapCan c fun x => { x with counted := n :: x.counted }
        s.cxStage c (0x8000 + n) stamp f

/-- CX_FRAME_RECEIVE (R452): a frame ends on the bus, without or with an error; `stamp` is its start-of-frame stamp
(R454). A frame of a format that is not enabled is not received (Table 9.9). -/
def execCxFrameReceive (c : Fin 8) (f : CxFrame) (stamp : Nat) (err : Bool) (s : State) :
    Host.Outcome State Fault Refusal :=
  if !s.cxOn c ∨ !s.cxFormat c f.fmt then .next s
  else
    let s := s.cxRxCount c err
    let s := if err then s else s.validTraffic (8 + c)
    let st := s.dtt c
    if st = dOff then .next (if err then s else s.cxAccept c stamp f)
    else match (s.can c).pattern with
      | none => .next s
      | some p =>
        let isRef := !f.ide && ((p.rankOf f.ident).isSome || p.isStart f.ident)
        if isRef then
          if err then
            if (s.can c).place p stamp = .stitch 0 then .next (s.mapCan c fun x => { x with refSeen := true })
            else .next s
          else .next (s.dttReference c f.ident stamp f.data)
        else if st = dInteg ∨ st = dActive ∨ st = dPassive then .next (s.dttData c p stamp err f)
        else .next s

/-! ### Transmitting event frames -/

/-- An attempt to send an event frame ends (R455, R456). -/
def State.cxAttempt (s : State) (c : Nat) (b : CxBuf) (e : BusEnd) (delay : Byte) (once : Bool) : State :=
  let s := if s.flag (A.CX_TDC c) F.CX_TDC.EN ∧ b.frame.fmt ≠ .cc then
    s.setf (A.CX_TDC c) F.CX_TDC.MEAS delay.toNat else s
  let free := fun (s : State) => s.mapCan c fun x => { x with bufs := x.bufs.erase b }
  match e with
  | .ok => (free (s.cxTxOk c)).emitField (cxHalf c) (.can c b.frame)
  | .lost =>
    let s := s.inc (A.CX_ARB_LOST c)
    if once then free s else s
  | .error => (if once then free s else s).cxTxErr c

/-- CX_TX_ATTEMPT (R455, R456): outside DTT, the offered frame is attempted; `delay` is the transmitter delay measured
(R450). -/
def execCxTxAttempt (c : Fin 8) (e : BusEnd) (delay : Byte) (s : State) : Host.Outcome State Fault Refusal :=
  if s.dttMay c ∧ s.dtt c = dOff then
    match cxFirst (s.cxOffered c) with
    | some b => .next (s.cxAttempt c b e delay (s.flag (A.CX_CTRL c) F.CX_CTRL.SINGLE_SHOT))
    | none => .next s
  else .next s

/-- CX_BUSOFF_RECOVERY_DONE (R457): the channel returns to error active; a DTT node starts its listen timer (R468). -/
def execCxBusoffRecoveryDone (c : Fin 8) (s : State) : Host.Outcome State Fault Refusal :=
  let x := s.can c
  if x.busOff ∧ x.recovering then
    let s := (s.putCan c { x with busOff := false, recovering := false }).wr (A.CX_ERRC c) 0
    let s := if s.dtt c = dListen then s.dttForget c true else s
    .next ((s.cxBus c).cxStatus c)
  else .next s

/-- CX_PROTOCOL_EXCEPTION (R448). -/
def execCxProtocolException (c : Fin 8) (s : State) : Host.Outcome State Fault Refusal :=
  if s.cxOn c then .next ((s.inc (A.CX_PXE c)).mapCan c fun x => { x with pxe := true }) else .next s

/-- CX_PXE_REINTEGRATE (R448): after 11 recessive bits. -/
def execCxPxeReintegrate (c : Fin 8) (s : State) : Host.Outcome State Fault Refusal :=
  .next (s.mapCan c fun x => { x with pxe := false })

/-- CX_BUS_INTEGRATED (Table 9.9): an enabled controller has integrated to bus activity. -/
def execCxBusIntegrated (c : Fin 8) (s : State) : Host.Outcome State Fault Refusal :=
  if s.cxEn c then .next (s.setf (A.CX_STATUS c) F.CX_STATUS.SYNCED 1) else .next s

/-- A write of CX_CTRL (R449, R457, R459, R460). -/
def State.cxCtrlWrite (s : State) (m c : Nat) (v : Word) : State :=
  let a := A.CX_CTRL c
  let st := A.CX_STATUS c
  s.guardReg m a fun s =>
    let was := s.flag a F.CX_CTRL.EN
    let on := s.cxEn c
    let keep := [F.CX_CTRL.XL_EN, F.CX_CTRL.FD_EN]
    let rej := was && keep.any fun f => fget f v != s.fld a f
    let v := if was then keep.foldl (fun v f => fput f v (s.fld a f)) v else v
    let s := if rej then s.setf st F.CX_STATUS.WR_REJ 1 else s
    let s := s.plainWrite a v
    let p := A.CX_PWM c
    let bad := s.flag a F.CX_CTRL.EN && s.flag a F.CX_CTRL.SIC_PWM &&
      (!s.flag p F.CX_PWM.PWMO || !s.flag p F.CX_PWM.PWML || !s.flag p F.CX_PWM.PWMS)
    let s := if bad then s.setf a F.CX_CTRL.EN 0 else s
    let s := s.setb st F.CX_STATUS.CFG_ERR bad
    let s := s.padLeave (cxHalf c) (padCx c)
    let en := s.cxEn c
    let s := if en ∧ !on then s.mapCan c fun x => { x with recovering := x.busOff }
      else if !en then (s.setf st F.CX_STATUS.SYNCED 0).mapCan c fun x => { x with pxe := false }
      else s
    (s.cxBus c).cxStatus c

/-- CX_CTRL_WRITE (R460). -/
def execCxCtrlWrite (m : Byte) (c : Fin 8) (v : Word) (s : State) : Host.Outcome State Fault Refusal :=
  .next (s.cxCtrlWrite m.toNat c v)

/-- A write of a timing, compensation or PWM register: ignored with WR_REJ while EN is 1 (R460). -/
def State.cxTimingWrite (s : State) (m c a : Nat) (v : Word) : State :=
  s.guardReg m a fun s =>
    if s.flag (A.CX_CTRL c) F.CX_CTRL.EN then s.setf (A.CX_STATUS c) F.CX_STATUS.WR_REJ 1 else s.plainWrite a v

/-! ### DTT control -/

/-- The requirements of R461. -/
def State.dttRequirements (s : State) (c : Nat) : Bool :=
  let x := bitTime (s.rd (A.CX_XBT c))
  s.flag (A.CX_CTRL c) F.CX_CTRL.XL_EN && bitTime (s.rd (A.CX_NBT c)) == 1000 && decide (50 ≤ x) && decide (x ≤ 500) &&
  s.flag (A.DTT_STATUS c) F.DTT_STATUS.PAT_OK

/-- The node goes OFF (R492): the stitch buffers are emptied. -/
def State.dttOff (s : State) (c : Nat) : State :=
  let s := (s.dttForget c false).mapCan c fun x => { x with stitch := [] }
  (s.setf (A.DTT_ROW c) F.DTT_ROW.STITCH 0x3FF).dttEnter c dOff

/-- A write of DTT_CTRL (R461, R467, R470, R492). With EN 0 the start reference that the node is sending is finished first. -/
def State.dttCtrlWrite (s : State) (m c : Nat) (v : Word) : State :=
  let a := A.DTT_CTRL c
  s.guardReg m a fun s =>
    let was := s.flag a F.DTT_CTRL.EN
    let s := s.plainWrite a v
    if !s.flag a F.DTT_CTRL.EN then (if was ∧ (s.can c).startSof = none then s.dttOff c else s)
    else if was ∨ s.dtt c ≠ dOff then s
    else if !s.dttRequirements c then
      (s.setf a F.DTT_CTRL.EN 0).setf (A.DTT_STATUS c) F.DTT_STATUS.CFG_ERR 1
    else
      let s := s.setf (A.DTT_STATUS c) F.DTT_STATUS.CFG_ERR 0
      let s := s.mapCan c fun x => { x with rate := 0 }
      let s := (s.wr (A.DTT_RATE c) 0).wr (A.DTT_REF_LAST c) 0
      s.dttListen c (!(s.can c).busOff)

/-- DTT_ENABLE (R461): a write of DTT_CTRL with EN = 1. -/
def execDttEnable (m : Byte) (c : Fin 8) (v : Word) (s : State) : Host.Outcome State Fault Refusal :=
  .next (s.dttCtrlWrite m.toNat c (fput F.DTT_CTRL.EN v 1))

/-- DTT_DISABLE (R492): a write with EN = 0. -/
def execDttDisable (m : Byte) (c : Fin 8) (v : Word) (s : State) : Host.Outcome State Fault Refusal :=
  .next (s.dttCtrlWrite m.toNat c (fput F.DTT_CTRL.EN v 0))

/-- A write of DTT_ROLE, DTT_LIMITS, DTT_SYNC_OFS or DTT_COL_MAP: only in OFF; else ignored with WR_REJ (R492). -/
def State.dttOffWrite (s : State) (m c a : Nat) (v : Word) : State :=
  s.guardReg m a fun s =>
    if s.dtt c ≠ dOff then s.setf (A.DTT_STATUS c) F.DTT_STATUS.WR_REJ 1
    else
      let s := s.plainWrite a v
      if a = A.DTT_LIMITS c then
        let s := s.setf a F.DTT_LIMITS.REF_LOSS (max 1 (s.fld a F.DTT_LIMITS.REF_LOSS))
        s.setf a F.DTT_LIMITS.STITCH_DLEN (max 1 (min 2048 (s.fld a F.DTT_LIMITS.STITCH_DLEN)))
      else s

/-! ### Cold start -/

/-- DTT_LISTEN_TIMEOUT (R470): it acts once its tick has passed, so that a reference of that tick wins (R18). -/
def execDttListenTimeout (c : Fin 8) (s : State) : Host.Outcome State Fault Refusal :=
  let x := s.can c
  match x.pattern with
  | none => .next s
  | some p =>
    if s.dtt c = dListen ∧ x.listenEnd ≠ 0 ∧ x.listenEnd < s.raw then
      match s.dttColdId c p with
      | none => .next (s.putCan c { x with listenEnd := x.listenEnd + p.listenBase + p.localNode * p.listenStep })
      | some _ => .next ((s.putCan c { x with listenEnd := 0 }).dttEnter c dCold)
    else .next s

/-- Domain nanoseconds, floored, of the domain SYNC_DOM at a raw count. -/
def State.syncNs (s : State) (c raw : Nat) : Int :=
  (s.dom (s.fld (A.DTT_CTRL c) F.DTT_CTRL.SYNC_DOM)).cur.at raw / 65536

/-- The number of domain-aligned instants at or before a raw count: it steps at each (R482). -/
def State.alignedCount (s : State) (c : Nat) (p : Pattern) (raw : Nat) : Int :=
  (s.syncNs c raw - s.rdn (A.DTT_SYNC_OFS c)) / (2 * p.rowLen)

/-- A raw count is a domain-aligned instant (R482). -/
def State.aligned (s : State) (c : Nat) (p : Pattern) (raw : Nat) : Bool :=
  s.alignedCount c p (raw - 1) != s.alignedCount c p raw

/-- DTT_START_REF_SEND (R471): with the bus idle, at a domain-aligned instant where SYNC_EN is 1. -/
def execDttStartRefSend (c : Fin 8) (idle : Bool) (s : State) : Host.Outcome State Fault Refusal :=
  let x := s.can c
  match x.pattern with
  | none => .next s
  | some p =>
    match s.dttColdId c p with
    | none => .next s
    | some id =>
      let at_ := !s.flag (A.DTT_CTRL c) F.DTT_CTRL.SYNC_EN || s.aligned c p s.raw
      if s.dtt c = dCold ∧ x.startSof = none ∧ s.dttMay c ∧ idle ∧ at_ then
        .next ((s.putCan c { x with startSof := some s.raw }).dttEmit c (dttFrame id (s.refData c p 0 true)))
      else .next s

/-- DTT_START_REF_DONE (R472, R473, R475): the start reference ends; where DTT_CTRL.EN has been written 0 meanwhile, the node goes
OFF now (R492). -/
def execDttStartRefDone (c : Fin 8) (e : BusEnd) (s : State) : Host.Outcome State Fault Refusal :=
  let x := s.can c
  match x.pattern, x.startSof with
  | some p, some t =>
    if s.dtt c ≠ dCold then .next s
    else
      let s := s.dttTxEnd c e
      if !s.flag (A.DTT_CTRL c) F.DTT_CTRL.EN then .next (s.dttOff c)
      else match e with
      | .ok =>
        let s := (s.dttForget c false).mapCan c fun x =>
          { x with q := t, row := 0, gotRef := true, refSeen := true, refSent := true,
                   startRefs := (s.dttRank c p).isNone }
        let s := (s.dttShow c).refLast c ((s.dttColdId c p).getD 0) none (s.refData c p 0 true)
        .next ((s.inc (A.DTT_ST_RX c 0)).dttEnter c dActive)
      | .lost => .next ((s.inc (A.DTT_COLD_ARB c)).mapCan c fun x => { x with startSof := none })
      | .error =>
        if (s.can c).busOff then .next (s.inc (A.DTT_COLD_ERR c))
        else .next ((s.inc (A.DTT_COLD_ERR c)).dttListen c true)
  | _, _ => .next s

/-! ### Rows -/

/-- DTT_RANKED_REF_SEND (R475, R477): at the position of the node's rank, or of its start references, with the bus
idle and no reference SOF seen; `e` is how the message ends. -/
def execDttRankedRefSend (c : Fin 8) (idle : Bool) (e : BusEnd) (s : State) : Host.Outcome State Fault Refusal :=
  let x := s.can c
  match x.pattern with
  | none => .next s
  | some p =>
    if s.dtt c ≠ dActive ∨ !s.dttMay c ∨ !idle ∨ x.refSeen ∨ x.refSent then .next s
    else
      let send := fun (id : Nat) (rank : Option Nat) (start : Bool) =>
        let row := if start then 0 else x.row
        let d := s.refData c p row start
        if s.raw ≠ x.instant p (p.actionOfs + 2 * rank.getD 0 * p.precision) then s
        else
          let s := (s.putCan c { x with refSent := true, refSeen := true }).dttEmit c (dttFrame id d)
          let s := s.dttTxEnd c e
          if e = .ok ∧ !x.gotRef then s.dttCorrect c p id rank s.raw true d else s
      match s.dttRank c p with
      | some j => .next (send (idOf (p.refIds.getD j 0)) (some j) false)
      | none =>
        match s.dttColdId c p with
        | some id => if x.startRefs then .next (send id none true) else .next s
        | none => .next s

/-- The counts of the Row that ends: every used local stitch not yet counted was empty; stitch 0 where no reference
was accepted (R480, R490). -/
def State.dttCountRow (s : State) (c : Nat) (p : Pattern) : State :=
  let x := s.can c
  let s := (List.range p.stitches.length).foldl (fun s n =>
    match p.stitches[n]? with
    | none => s
    | some e =>
      if n ≠ 0 ∧ e.usedIn x.row ∧ (e.tx || e.rx) ∧ !x.counted.contains n then s.inc (A.DTT_ST_EMPTY c n) else s) s
  if x.gotRef then s else (s.inc (A.DTT_ST_EMPTY c 0)).inc (A.DTT_REF_MISS c)

/-- The nearest domain-aligned instant to a raw count (R482). -/
def State.nearestAligned (s : State) (c : Nat) (p : Pattern) (raw : Nat) : Nat :=
  let per : Int := 2 * p.rowLen
  let t := s.syncNs c raw
  let d := (t - s.rdn (A.DTT_SYNC_OFS c)) % per
  let goal := (if 2 * d ≤ per then t - d else t - d + per).toNat
  (s.dom (s.fld (A.DTT_CTRL c) F.DTT_CTRL.SYNC_DOM)).cur.reaches (goal / 1000000000) (goal % 1000000000)

/-- Q of the next Row and k: as expected, or for the synchronised master moved towards the aligned instants (R479,
R482). -/
def State.nextRow (s : State) (c : Nat) (p : Pattern) : Nat × Int :=
  let x := s.can c
  let qh := x.q + rateMul x.rate p.rowLen
  if s.dtt c = dActive ∧ s.flag (A.DTT_CTRL c) F.DTT_CTRL.SYNC_EN ∧ s.dttRank c p = some 0 then
    let r := (s.dom (s.fld (A.DTT_CTRL c) F.DTT_CTRL.SYNC_DOM)).cur.rate
    let k : Int := 1208925819614629174706176 / (281474976710656 + r) - 4294967296
    let lim : Int := (p.driftLimit / 2 : Nat)
    let d : Int := (s.nearestAligned c p qh : Int) - qh
    (((qh : Int) + max (-lim) (min lim d)).toNat, k)
  else (qh, x.rate)

/-- DTT_ROW_END (R480, R481, R490, Table 9.4): the Row ends. -/
def execDttRowEnd (c : Fin 8) (s : State) : Host.Outcome State Fault Refusal :=
  let x := s.can c
  match x.pattern with
  | none => .next s
  | some p =>
    let st := s.dtt c
    let (q, k) := s.nextRow c p
    if (st = dInteg ∨ st = dActive ∨ st = dPassive) ∧ q - rateMul k p.actionOfs ≤ s.raw then
      let s := s.dttCountRow c p
      let miss := if x.gotRef then 0 else x.missRun + 1
      if st = dInteg ∧ !x.firstRow ∧ !x.gotRef then .next (s.dttListen c true)
      else
        let s := s.putCan c { x with
          q := q, rate := k, row := (x.row + 1) % p.rows, firstRow := false, prevRef := x.gotRef, gotRef := false,
          corrRun := if x.gotRef then x.corrRun else 0, missRun := miss, refSeen := false, refSent := false, counted := [] }
        let s := s.dttShow c
        if st = dActive ∧ s.fld (A.DTT_LIMITS c) F.DTT_LIMITS.REF_LOSS ≤ miss then .next (s.dttEnter c dPassive)
        else .next s
    else .next s

/-- DTT_ACTION_POINT (R484, R485): the action point of stitch n of the Row; `e` is how a transmission ends. -/
def execDttActionPoint (c : Fin 8) (n : Fin 1023) (idle : Bool) (e : BusEnd) (s : State) :
    Host.Outcome State Fault Refusal :=
  let x := s.can c
  match x.pattern with
  | none => .next s
  | some p =>
    match p.stitches[n.val]? with
    | none => .next s
    | some en =>
      if s.dtt c = dActive ∧ n.val ≠ 0 ∧ en.tx ∧ en.usedIn x.row ∧ s.dttMay c ∧
          s.raw = x.instant p (n * p.stitchLen + p.actionOfs) then
        match storeFind x.stitch n with
        | none => .next s
        | some b =>
          if s.raw < b.ready + 2000 ∨ b.data = [] then .next s
          else
            let s := s.putCan c { x with stitch := storeErase x.stitch n }
            if !idle then .next (s.inc (A.DTT_TX_BLOCKED c))
            else
              let s := (s.dttEmit c (dttFrame (idOf en.ident) b.data)).dttTxEnd c e
              if e = .ok ∧ !x.counted.contains n.val then
                .next ((s.inc (A.DTT_ST_RX c n)).mapCan c fun x => { x with counted := n.val :: x.counted })
              else .next s
      else .next s

/-- Event buffers that hold classical or FD frames are discarded on a DTT channel (R488, item 5). -/
def State.dttPurge (s : State) (c : Nat) : State :=
  let bad := fun (b : CxBuf) => b.frame.fmt != .xl
  let n := ((s.can c).bufs.filter bad).length
  let s := s.mapCan c fun x => { x with bufs := x.bufs.filter fun b => !bad b }
  s.wrn (A.DTT_TX_REJ c) (min 0xFFFFFFFF (s.rdn (A.DTT_TX_REJ c) + n))

/-- DTT_MINISLOT_BOUNDARY (R488, R489): boundary k of the minislot segment; `used` says that the bus was not idle
throughout the minislot that ends here; `e` is how a transmission ends. -/
def execDttMinislotBoundary (c : Fin 8) (k : Fin 1024) (idle used : Bool) (e : BusEnd) (s : State) :
    Host.Outcome State Fault Refusal :=
  let x := s.can c
  match x.pattern with
  | none => .next s
  | some p =>
    let st := s.dtt c
    let base := p.stitches.length * p.stitchLen
    let tracked := st = dInteg ∨ st = dActive ∨ st = dPassive
    if ¬ tracked ∨ p.minislots < k.val ∨ s.raw ≠ x.instant p (base + k * p.minislotLen) then .next s
    else
      let s := if k.val = 0 then s else s.inc (if used then A.DTT_MS_USED c else A.DTT_MS_IDLE c)
      if st ≠ dActive ∨ k.val = p.minislots ∨ !s.dttMay c then .next s
      else
        let s := s.dttPurge c
        match cxFirst (s.cxOffered c) with
        | none => .next s
        | some b =>
          if !idle ∨ x.instant p (base + p.minislots * p.minislotLen) < s.raw + s.tFrame c b.frame.data.length then .next s
          else
            let s := s.cxAttempt c b e 0 (s.flag (A.CX_CTRL c) F.CX_CTRL.SINGLE_SHOT || e == .error)
            .next (if e = .ok then s.inc (A.DTT_TX_OK c) else s)

end Sys2Proof.Machine
end

