-- ==== Sys2Proof/Machine/Gauge.lean ====
section
/-! DEFINITION. The commands of the Gauge (spec/08). -/

namespace Sys2Proof.Machine
open Sys2Proof

/-! ### References (R406 to R411) -/

/-- The OK bit of a reference. -/
def refOk : Half → Fld
  | .k => F.GAUGE_REF.K_OK
  | .p => F.GAUGE_REF.P_OK

/-- The CLKMODE straps select one common reference, REF_K, for both halves and the Gauge (Table 16.3). -/
def State.commonRef (s : State) : Bool := 2 ≤ s.fld A.SYS_STRAP F.SYS_STRAP.CLKMODE

/-- The PLL runs from another reference, counted as a switchover (R409). -/
def State.refSwitch (s : State) (r : Half) : State :=
  (s.setf A.GAUGE_REF F.GAUGE_REF.ACTIVE r.n).inc A.GAUGE_SWITCH_CNT

/-- REF_FAIL (R408): a reference fails; with AUTO the Gauge switches to the other if it is good; if both have failed
the PLL holds its frequency (R411). -/
def execRefFail (r : Half) (s : State) : Host.Outcome State Fault Refusal :=
  let was := s.flag A.GAUGE_REF (refOk r)
  let s1 := s.setf A.GAUGE_REF (refOk r) 0
  let s1 := if s.commonRef then s1.setf A.GAUGE_REF (refOk r.other) 0 else s1
  if !was then .next s
  else if !s1.flag A.GAUGE_REF (refOk r.other) then
    .next ((s1.setf A.GAUGE_REF F.GAUGE_REF.BOTH_LOST 1).fault 0x50 2 originShared 0)
  else if s1.fld A.GAUGE_REF F.GAUGE_REF.ACTIVE = r.n ∧ s1.flag A.GAUGE_REF F.GAUGE_REF.AUTO then
    .next (((s1.refSwitch r.other).setf A.GAUGE_REF F.GAUGE_REF.SWITCHED 1).fault 0x50 2 originShared 0)
  else .next s1

/-- REF_RECOVER (R407): a reference is good again; if both had been lost the PLL pulls to it (R411). `diff` is the
measured frequency difference that GAUGE_DIFF shows (R409). -/
def execRefRecover (r : Half) (diff : Word) (s : State) : Host.Outcome State Fault Refusal :=
  if s.commonRef ∧ r = .p then .next s
  else
    let s := s.setf A.GAUGE_REF (refOk r) 1
    let s := if s.commonRef then s.setf A.GAUGE_REF (refOk r.other) 1 else s
    let s := if s.flag A.GAUGE_REF F.GAUGE_REF.BOTH_LOST then
      (s.setf A.GAUGE_REF F.GAUGE_REF.BOTH_LOST 0).setf A.GAUGE_REF F.GAUGE_REF.ACTIVE r.n else s
    let both := s.flag A.GAUGE_REF F.GAUGE_REF.K_OK && s.flag A.GAUGE_REF F.GAUGE_REF.P_OK
    .next (if both then s.wr A.GAUGE_DIFF diff else s)

/-- A written SEL that names a good reference switches to it (R410). -/
def State.refSelect (s : State) : State :=
  let r := halfOf (s.fld A.GAUGE_REF F.GAUGE_REF.SEL)
  if s.flag A.GAUGE_REF (refOk r) ∧ s.fld A.GAUGE_REF F.GAUGE_REF.ACTIVE ≠ r.n then s.refSwitch r else s

/-- A write of GAUGE_REF (R410). -/
def State.gaugeRefWrite (s : State) (m : Nat) (v : Word) : State :=
  s.guardReg m A.GAUGE_REF fun s => (s.plainWrite A.GAUGE_REF v).refSelect

/-- GAUGE_REF_SEL_WRITE (R410). -/
def execGaugeRefSelWrite (m : Byte) (v : Word) (s : State) : Host.Outcome State Fault Refusal :=
  .next (s.gaugeRefWrite m.toNat v)

/-- GAUGE_PLL_LOCK (R404): the raw counter starts from 0 and the epoch advances. -/
def execGaugePllLock (s : State) : Host.Outcome State Fault Refusal :=
  if s.rawOn ∨ s.rst.stage = .held ∨ s.rst.stage = .fuses ∨ s.rst.stage = .hold ∨ s.rst.stage = .asleep then .next s
  else
    let s := (s.incMod A.GAUGE_EPOCH F.GAUGE_EPOCH.EPOCH).setf A.CLK_STATUS F.CLK_STATUS.GAUGE_LOCK 1
    let s := (s.padLeaveShared (padPps 0)).padLeaveShared (padPps 1)
    .next { s with raw := 0, rawOn := true }

/-! ### Reading time (R415 to R417) -/

/-- The key of a master's latch of a domain. -/
def latchKey (m d : Nat) : Nat := 4 * m + d

/-- A read of GAUGE_RAW_LO latches the high bits for its master (R415). -/
def State.rawRead (s : State) (m : Nat) : State :=
  let g := s.gauge
  ({ s with gauge := { g with rawHi := storePut 0 g.rawHi m (s.raw / 2 ^ 32) } } : State).ok (s.raw % 2 ^ 32)

/-- GAUGE_RAW_READ (R415). -/
def execGaugeRawRead (m : Byte) (s : State) : Host.Outcome State Fault Refusal :=
  .next (if s.presented m.toNat A.GAUGE_RAW_LO then s.rawRead m.toNat else s)

/-- A read of GAUGE_DOM_NS latches seconds, fraction and raw count for its master (R415). -/
def State.domRead (s : State) (m d : Nat) : State :=
  let t := s.domNow d
  let g := s.gauge
  ({ s with gauge := { g with latches := storePut DomLatch.init g.latches (latchKey m d) ⟨t.sec, t.frac, s.raw⟩ } } :
    State).ok t.ns

/-- GAUGE_DOM_READ (R415). -/
def execGaugeDomRead (m : Byte) (d : Fin 4) (s : State) : Host.Outcome State Fault Refusal :=
  .next (if s.presented m.toNat (A.GAUGE_DOM_NS d) then s.domRead m.toNat d else s)

/-- A master's conversion registers of a domain. -/
def State.conv (s : State) (m d : Nat) : Conv := storeGet Conv.init s.gauge.convs (latchKey m d)
def State.putConv (s : State) (m d : Nat) (c : Conv) : State :=
  { s with gauge := { s.gauge with convs := storePut Conv.init s.gauge.convs (latchKey m d) c } }

/-- A write of GAUGE_DOM_CONV_RAW_LO, kept per master. -/
def State.convLo (s : State) (m d : Nat) (v : Word) : State :=
  s.guardReg m (A.GAUGE_DOM_CONV_RAW_LO d) fun s => s.putConv m d { s.conv m d with rawLo := v.toNat }

/-- A write of GAUGE_DOM_CONV_RAW_HI converts the raw count (R417). -/
def State.convHi (s : State) (m d : Nat) (v : Word) : State :=
  s.guardReg m (A.GAUGE_DOM_CONV_RAW_HI d) fun s =>
    let c := s.conv m d
    match (s.dom d).convert (c.rawLo + 2 ^ 32 * v.toNat) with
    | some t => s.putConv m d { c with rawHi := v.toNat, ns := t.ns, sec := t.sec, frac := t.frac, err := false }
    | none => s.putConv m d { c with rawHi := v.toNat, ns := 0, sec := 0, frac := 0, err := true }

/-- GAUGE_CONVERT (R417). -/
def execGaugeConvert (m : Byte) (d : Fin 4) (v : Word) (s : State) : Host.Outcome State Fault Refusal :=
  .next (s.convHi m.toNat d v)

/-! ### Commits (R419 to R428) -/

/-- The master may stage and commit for the domain (R424). -/
def State.domOwner (s : State) (m d : Nat) : Bool :=
  m == trivet || m == s.fld (A.GAUGE_DOM_STATUS d) F.GAUGE_DOM_STATUS.OWNER_NOW

/-- STAGE_REJ of a domain is set (R423). -/
def State.stageRej (s : State) (d : Nat) : State := s.setf (A.GAUGE_DOM_STATUS d) F.GAUGE_DOM_STATUS.STAGE_REJ 1

/-- A write to a staging register: refused from a master that does not own the domain, ignored while a commit is
pending (R423, R424); staged nanoseconds are stored as at most 999 999 999. -/
def State.stageWrite (s : State) (m d a : Nat) (v : Word) : State :=
  s.guardReg m a fun s =>
    if !s.domOwner m d then s.busErr m a true cPerm
    else if (s.dom d).pend.isSome then s.stageRej d
    else
      let s := s.plainWrite a v
      if a = A.GAUGE_DOM_STG_NS d ∧ 999999999 < s.fld a F.GAUGE_DOM_STG_NS.NS then
        s.setf a F.GAUGE_DOM_STG_NS.NS 999999999
      else s

/-- CANCEL = 1 before C drops the pending commit, and nothing else changes (R423). -/
def State.commitCancel (s : State) (d : Nat) : State :=
  match (s.dom d).pend with
  | some c =>
    if s.raw < c then
      (s.putDom d { s.dom d with pend := none }).setf (A.GAUGE_DOM_STATUS d) F.GAUGE_DOM_STATUS.COMMIT_PEND 0
    else s
  | none => s

/-- COMMIT = 1 sets the commit instant, or is refused for the reserved mode (R419, Table 8.1). -/
def State.commitRequest (s : State) (d : Nat) : State :=
  if s.fld (A.GAUGE_DOM_CTRL d) F.GAUGE_DOM_CTRL.MODE = 3 then s.stageRej d
  else
    let c := s.commitInstant (s.rd64 (A.GAUGE_DOM_STG_AT_LO d) (A.GAUGE_DOM_STG_AT_HI d))
    (s.putDom d { s.dom d with pend := some c }).setf (A.GAUGE_DOM_STATUS d) F.GAUGE_DOM_STATUS.COMMIT_PEND 1

/-- A write of GAUGE_DOM_CTRL (R419, R423, R424). -/
def State.domCtrlWrite (s : State) (m d : Nat) (v : Word) : State :=
  let a := A.GAUGE_DOM_CTRL d
  s.guardReg m a fun s =>
    if !s.domOwner m d then s.busErr m a true cPerm
    else if fget F.GAUGE_DOM_CTRL.CANCEL v = 1 then s.commitCancel d
    else if (s.dom d).pend.isSome then s.stageRej d
    else
      let s := s.plainWrite a v
      if fget F.GAUGE_DOM_CTRL.COMMIT v = 1 then s.commitRequest d else s

/-- GAUGE_COMMIT_REQUEST (R419): a write of COMMIT = 1, with the other fields of the written word. -/
def execGaugeCommitRequest (m : Byte) (d : Fin 4) (v : Word) (s : State) : Host.Outcome State Fault Refusal :=
  .next (s.domCtrlWrite m.toNat d (fput F.GAUGE_DOM_CTRL.COMMIT v 1))

/-- GAUGE_COMMIT_CANCEL (R423): a write of CANCEL = 1. -/
def execGaugeCommitCancel (m : Byte) (d : Fin 4) (v : Word) (s : State) : Host.Outcome State Fault Refusal :=
  .next (s.domCtrlWrite m.toNat d (fput F.GAUGE_DOM_CTRL.CANCEL v 1))

/-- The staged time, seconds read as two's complement, in units of 2^-16 ns (R421). -/
def State.stagedTime (s : State) (d : Nat) : Int :=
  let sec := s.rd64 (A.GAUGE_DOM_STG_SEC_LO d) (A.GAUGE_DOM_STG_SEC_HI d)
  signedOf 64 sec * secFrac +
    (s.fld (A.GAUGE_DOM_STG_NS d) F.GAUGE_DOM_STG_NS.NS * 65536 +
     s.fld (A.GAUGE_DOM_STG_FRAC d) F.GAUGE_DOM_STG_FRAC.FRAC : Nat)

/-- The set that a commit at C puts in force (R420, Table 8.1). -/
def State.committedSet (s : State) (d c : Nat) : DomSet :=
  let ctrl := A.GAUGE_DOM_CTRL d
  let old := (s.dom d).cur
  let staged := signedOf 40 (s.rdn (A.GAUGE_DOM_STG_RATE_LO d) +
    2 ^ 32 * s.fld (A.GAUGE_DOM_STG_RATE_HI d) F.GAUGE_DOM_STG_RATE_HI.RATE)
  let rate := if s.flag ctrl F.GAUGE_DOM_CTRL.KEEP_RATE then old.rate else staged
  let b := match s.fld ctrl F.GAUGE_DOM_CTRL.MODE with
    | 0 => old.at c
    | 1 => old.at c + s.stagedTime d
    | _ => s.stagedTime d
  let t := timeOf b
  ⟨c, t.sec, t.ns, t.frac, rate⟩

/-- A pending planned handover follows its compare unit (R83). -/
def State.handoverFollow (s : State) (d : Nat) : State :=
  let k := s.fld A.TEN_IA_CTRL F.TEN_IA_CTRL.TRIG
  let c := A.GAUGE_CMP_CTRL k
  if s.rd64 A.TRV_HANDOVER_LO A.TRV_HANDOVER_HI ≠ 0 ∧ s.flag c F.GAUGE_CMP_CTRL.DOM_EN ∧
      s.fld c F.GAUGE_CMP_CTRL.DOM = d then
    s.wr64 A.TRV_HANDOVER_LO A.TRV_HANDOVER_HI (s.cmpInstant k)
  else s

/-- GAUGE_COMMIT (R420): at C the domain takes its new set and the state that STATE_REQ names (R425). -/
def execGaugeCommit (d : Fin 4) (s : State) : Host.Outcome State Fault Refusal :=
  match (s.dom d).pend with
  | none => .next s
  | some c =>
    if s.raw < c then .next s
    else
      let old := (s.dom d).cur
      let new := s.committedSet d c
      let s := s.putDom d ⟨new, old, none⟩
      let st := A.GAUGE_DOM_STATUS d
      let s := s.setf st F.GAUGE_DOM_STATUS.COMMIT_PEND 0
      let s := match s.fld (A.GAUGE_DOM_CTRL d) F.GAUGE_DOM_CTRL.STATE_REQ with
        | 1 => s.setf st F.GAUGE_DOM_STATUS.STATE 1
        | 2 => s.setf st F.GAUGE_DOM_STATUS.STATE 2
        | 3 => s.setf st F.GAUGE_DOM_STATUS.STATE 0
        | _ => s
      let r := intMod 40 new.rate
      let s := s.wr64 (A.GAUGE_DOM_RATE_LO d) (A.GAUGE_DOM_RATE_HI d) r
      let s := s.wr64 (A.GAUGE_DOM_LAST_LO d) (A.GAUGE_DOM_LAST_HI d) c
      let s := s.inc (A.GAUGE_DOM_COMMITS d)
      let same := decide (old.rate = new.rate ∧ timeOf (old.at c) = timeOf (new.at c))
      .next ((if same then s else s.gatesHold d old).handoverFollow d)

/-- A write of GAUGE_DOM_CFG: OWNER_NOW follows OWNER (R428). -/
def State.domCfgWrite (s : State) (m d : Nat) (v : Word) : State :=
  s.guardReg m (A.GAUGE_DOM_CFG d) fun s =>
    let s := s.plainWrite (A.GAUGE_DOM_CFG d) v
    s.setf (A.GAUGE_DOM_STATUS d) F.GAUGE_DOM_STATUS.OWNER_NOW (s.fld (A.GAUGE_DOM_CFG d) F.GAUGE_DOM_CFG.OWNER)

/-- DOM_CFG_WRITE (R428). -/
def execDomCfgWrite (m : Byte) (d : Fin 4) (v : Word) (s : State) : Host.Outcome State Fault Refusal :=
  .next (s.domCfgWrite m.toNat d v)

/-- HOLDOVER_TIMEOUT (R427): a commit instant on the same tick wins (R18). -/
def execHoldoverTimeout (d : Fin 4) (s : State) : Host.Outcome State Fault Refusal :=
  let ms := s.fld (A.GAUGE_DOM_CFG d) F.GAUGE_DOM_CFG.HOLD_MS
  let st := A.GAUGE_DOM_STATUS d
  let due := (s.dom d).cur.anchor + ms * msTicks
  let won := match (s.dom d).pend with
    | some c => c ≤ due
    | none => false
  if s.rawOn ∧ ms ≠ 0 ∧ s.fld st F.GAUGE_DOM_STATUS.STATE = 1 ∧ due ≤ s.raw ∧ !won then
    .next (((s.setf st F.GAUGE_DOM_STATUS.STATE 2).fault 0x91 0 originShared
      (s.fld st F.GAUGE_DOM_STATUS.OWNER_NOW)).netEvent d 0x91)
  else .next s

/-! ### Compare events and PPS (R429 to R433) -/

/-- NEXT advances by PERIOD until it lies above the source time; further advances are counted (R430). A register written in
the tick of the advance keeps what was written (R432). -/
def State.cmpAdvance (s : State) (k : Nat) : State :=
  let c := A.GAUGE_CMP_CTRL k
  let per := s.rdBefore (A.GAUGE_CMP_PERIOD k)
  if per = 0 then (if s.wroteNow c then s else s.setf c F.GAUGE_CMP_CTRL.EN 0)
  else
    let dom := (s.cmpDom k).isSome
    let next := s.cmpNext k
    let n := (s.cmpSource k - next) / per + 1
    let new := next + n * per
    let hi := if dom then new / 1000000000 else new
    let s := (s.wrUnlessWritten (A.GAUGE_CMP_NEXT_LO k) (hi % 2 ^ 32)).wrUnlessWritten (A.GAUGE_CMP_NEXT_HI k) (hi / 2 ^ 32 % 2 ^ 32)
    let s := if dom then s.wrUnlessWritten (A.GAUGE_CMP_NEXT_NS k) (new % 1000000000) else s
    s.wrn (A.GAUGE_CMP_MISSED k) (min 0xFFFFFFFF (s.rdn (A.GAUGE_CMP_MISSED k) + (n - 1)))

/-- The end of the pulse of an enabled PPS output that names unit k (R433). -/
def State.ppsEnd (s : State) (j k : Nat) : Option Nat :=
  let c := A.GAUGE_PPS_CTRL j
  if s.flag c F.GAUGE_PPS_CTRL.EN ∧ s.fld c F.GAUGE_PPS_CTRL.CMP = k then
    some (s.now + s.fld c F.GAUGE_PPS_CTRL.WIDTH_US * usTicks)
  else none

/-- GAUGE_COMPARE_EVENT (R430): the event is counted, NEXT advances, PPS outputs rise or restart their width, and
the event is pending in the engines that select it. -/
def execGaugeCompareEvent (k : Fin 16) (s : State) : Host.Outcome State Fault Refusal :=
  if s.cmpDue k then
    let s := (s.cmpAdvance k).inc (A.GAUGE_CMP_COUNT k)
    let g := s.gauge
    let pps0 := (s.ppsEnd 0 k).or g.pps0
    let pps1 := (s.ppsEnd 1 k).or g.pps1
    let s := { s with gauge := { g with fired := storePut 0 g.fired k (s.raw + 1), pps0 := pps0, pps1 := pps1 } }
    .next ((s.neCompare k).hartLatch (fun _ => true) (k + 1))
  else .next s

/-- PPS_PULSE_END (R433): the output returns low when its width has passed. -/
def execPpsPulseEnd (j : Fin 2) (s : State) : Host.Outcome State Fault Refusal :=
  let g := s.gauge
  let ended := fun t : Option Nat => t.filter fun e => decide (s.now < e)
  if j = 0 then .next { s with gauge := { g with pps0 := ended g.pps0 } }
  else .next { s with gauge := { g with pps1 := ended g.pps1 } }

/-- GAUGE_RATE_FAULT (R679, code 0x51): an F4 fault, active until the next Level 1 reset (Table 15.9). -/
def execGaugeRateFault (s : State) : Host.Outcome State Fault Refusal :=
  let s := { s with gauge := { s.gauge with fault := true } }
  .next (s.fault 0x51 4 originShared 0)

end Sys2Proof.Machine
end

