-- ==== Sys2Proof/Machine/Spad.lean ====
section
/-! DEFINITION. The commands of spec/12 on banks and Vault, of spec/13 on DRAM accesses, and R47. -/

namespace Sys2Proof.Machine
open Sys2Proof

/-- One clock of a bank's ports (R563): port A is performed and answered in `respA`; a port B write to a word that
port A writes is lost; a port B read sees port A's write, and a port A read sees port B's. -/
def State.spadClock (s : State) (pa pb : Option SpadOp) : State :=
  match pa, pb with
  | none, none => s
  | some a, none => { s.spadPort a (fun _ => false) |>.1 with respA := some (s.spadPort a fun _ => false).2 }
  | none, some b => s.spadAccess b
  | some a, some b =>
    if a.write then
      let (s, ra) := s.spadPort a (fun _ => false)
      let (s, rb) := s.spadPort b fun x => spadWrote a ra x
      { s with respA := some ra, resp := some rb }
    else
      let (s, rb) := s.spadPort b (fun _ => false)
      let (s, ra) := s.spadPort a (fun _ => false)
      { s with respA := some ra, resp := some rb }

/-! ### AMOs of harts (R604) -/

/-- The value an AMO writes, from the value read and its operand, as numbers of `n` bits. -/
def amoValue (op : AmoOp) (n old v : Nat) : Nat :=
  match op with
  | .swap => v
  | .add => (old + v) % 2 ^ n
  | .xor => old ^^^ v
  | .and => old &&& v
  | .or => old ||| v
  | .min => if signedOf n old ≤ signedOf n v then old else v
  | .max => if signedOf n v ≤ signedOf n old then old else v
  | .minu => min old v
  | .maxu => max old v

/-- The region of an address is the banks of the hart's own half, and the access is aligned (Table 13.2). -/
def amoReaches (k n a : Nat) : Bool :=
  match regionOf a with
  | .bank h => decide (h = halfOf (k / 2)) && a % n == 0
  | _ => false

/-- An address lies in a DRAM range. -/
def isDram (a : Nat) : Bool :=
  match regionOf a with
  | .dk => true
  | .dp => true
  | _ => false

/-- An access on port B in a cycle of an AMO: a write to the AMO's word is lost. -/
def State.amoOther (s : State) (a : Nat) : Option SpadOp → State
  | none => { s with resp := none }
  | some b =>
    let (s, r) := s.spadPort b fun x => x / 8 == a / 8
    { s with resp := some r }

/-- What an AMO of `n` bytes that has read `old` answers: the value, sign-extended as the instruction's register takes it. -/
def amoAnswer (n old : Nat) : Resp := .ok (intMod 64 (signedOf (8 * n) old))

/-- An AMO of hart k to DRAM (Table 13.2): its read, and its write if the read is answered with a value. One that is misaligned
raises an address-misaligned exception (PRESUMED from the RISC-V specifications, log entry 50). -/
def State.dramAmo (s : State) (k : Nat) (op : AmoOp) (n a v : Nat) (e : Ecc) : State :=
  let m := 2 + k
  if a % n ≠ 0 then { (s.amoOther a none).hartExc k 6 a with respA := some .accessFault }
  else
    let s := s.dramAccess m a n false [] e .clean
    match s.resp with
    | some (.ok old) =>
      let s := s.dramAccess m a n true (leBytes n (amoValue op (8 * n) old (v % 2 ^ (8 * n)))) .clean .clean
      { s with resp := none, respA := some (amoAnswer n old) }
    | some (.err c) => { (s.hartExc k 7 a) with resp := none, respA := some (.err c) }
    | some r => { (s.delivered m a r) with resp := none, respA := some r }
    | none => { s with respA := none }

/-- An AMO of hart k at address a, with what the ECC of the word shows, and the accesses of port B in its two cycles; its
answer stands in `respA`. A region that Table 13.2 gives no AMO raises an access fault. -/
def State.spadAmo (s : State) (k : Nat) (op : AmoOp) (wide : Bool) (a v : Nat) (e : Ecc) (b1 b2 : Option SpadOp) : State :=
  let n := if wide then 8 else 4
  let m := 2 + k
  if isDram a then s.dramAmo k op n a v e
  else if !amoReaches k n a then { ((s.amoOther a none).hartExc k 7 a) with respA := some .accessFault }
  else
    let (s, r) := s.spadPort ⟨m, a, n, false, [], e, e⟩ (fun _ => false)
    match r with
    | .ok old =>
      let s := s.amoOther a b1
      let (s, w) := s.spadPort ⟨m, a, n, true, leBytes n (amoValue op (8 * n) old (v % 2 ^ (8 * n))), .clean, .clean⟩ (fun _ => false)
      let s := s.amoOther a b2
      { s with respA := some (match w with
          | .ok _ => amoAnswer n old
          | w => w) }
    | .err c => { ((s.amoOther a none).hartExc k 7 a) with respA := some (.err c) }
    | r => { (s.amoOther a none) with respA := some r }

/-- SCRATCHPAD_ACCESS (R563): while the banks of the half are being zeroed, the accesses wait (R577). -/
def execScratchpadAccess (pa pb : Option SpadOp) (s : State) : Host.Outcome State Fault Refusal :=
  let pa := pa.filter s.there
  let pb := pb.filter s.there
  let zeroing := (pa.toList ++ pb.toList).any fun o => s.zeroingAt o.addr
  if zeroing then .next { s with spadWait := s.spadWait ++ (pa.toList ++ pb.toList).map SpadReq.access, resp := none, respA := none }
  else .next (s.spadClock pa pb)

/-- Accesses that waited proceed in their order. -/
def State.spadAll (s : State) : List SpadReq → State
  | [] => s
  | .access o :: os => (s.spadAccess o).spadAll os
  | .amo k op wide a v :: os => (s.spadAmo k op wide a v .clean none none).spadAll os

/-- SPAD_ZEROING_DONE (R577): the half's banks are zero with valid ECC, and waiting accesses proceed. -/
def execSpadZeroingDone (h : Half) (s : State) : Host.Outcome State Fault Refusal :=
  if s.running h ∧ s.flag (A.SPAD_STATUS h.n) F.SPAD_STATUS.ZEROING then
    let s := s.clearMem (bankAt h 0) (bankAt h 0x200000)
    let s := s.setf (A.SPAD_STATUS h.n) F.SPAD_STATUS.ZEROING 0
    let mine := s.spadWait.filter fun o => bankHalf o.addr = h
    let rest := s.spadWait.filter fun o => bankHalf o.addr ≠ h
    .next ({ s with spadWait := rest }.spadAll mine)
  else .next s

/-- The Sweep has tested a block of every bank of the half: a mismatch in a bank is recorded, and the half reports
HEALTHY = 0 (R581); the position moves on, and a pass is counted after the last of 2048 blocks (R578). -/
def State.sweepDone (s : State) (h : Half) (bad : Option (Fin 16)) : State :=
  let blk := s.fld (A.SPAD_SWEEP_POS h.n) F.SPAD_SWEEP_POS.BLOCK
  let s := match bad with
    | none => s
    | some b =>
      let bank := h.n * 16 + b.val
      let s := s.setf (A.SPAD_STATUS h.n) F.SPAD_STATUS.SWEEP_FAIL 1
      let s := s.setf (A.SPAD_SWEEP_INFO h.n) F.SPAD_SWEEP_INFO.BANK bank
      let s := s.setf (A.SPAD_SWEEP_INFO h.n) F.SPAD_SWEEP_INFO.BLOCK blk
      let a := bankBase + 0x20000 * bank + 64 * blk
      (s.inc (A.SPAD_SWEEP_FAILS h.n)).diagF3 h 0x12 0 a 0
  let s := s.setf (A.SPAD_SWEEP_POS h.n) F.SPAD_SWEEP_POS.BLOCK (blk + 1)
  let s := if blk + 1 = 2048 then s.incMod (A.SPAD_SWEEP_POS h.n) F.SPAD_SWEEP_POS.PASSES else s
  { s with sweep := storeErase s.sweep h.n }

/-- 100 µs have passed since the Sweep began a block of this half (R578). -/
def State.sweepDue (s : State) (h : Half) : Bool :=
  match storeFind s.sweep (2 + h.n) with
  | some t => decide (t + 100 * usTicks ≤ s.now)
  | none => true

/-- The Sweep may test a block of this half. -/
def State.sweeping (s : State) (h : Half) : Bool :=
  s.running h && !s.flag (A.SPAD_STATUS h.n) F.SPAD_STATUS.ZEROING && s.flag (A.SPAD_CTRL h.n) F.SPAD_CTRL.SWEEP_EN

/-- SWEEP_BLOCK (R578): every 100 µs, the next block of every bank is saved, tested and restored, transparently to every master;
`finished` says whether idle bank cycles sufficed, `bad` which bank failed the march test, if one. -/
def execSweepBlock (h : Half) (finished : Bool) (bad : Option (Fin 16)) (s : State) :
    Host.Outcome State Fault Refusal :=
  if s.sweeping h ∧ (storeFind s.sweep h.n).isNone ∧ s.sweepDue h then
    let s := { s with sweep := storeInsert s.sweep (2 + h.n) s.now }
    if finished then .next (s.sweepDone h bad)
    else .next { s with sweep := storeInsert s.sweep h.n s.now }
  else .next s

/-- SWEEP_FORCE (R579): a block not finished 50 µs after its start takes its remaining operations ahead of both
ports and ends. -/
def execSweepForce (h : Half) (bad : Option (Fin 16)) (s : State) : Host.Outcome State Fault Refusal :=
  match storeFind s.sweep h.n with
  | some t => if s.sweeping h ∧ t + 50 * usTicks ≤ s.now then .next (s.sweepDone h bad) else .next s
  | none => .next s

/-- BANK_OWNER_WRITE (R575): the owner or the Trivet sets the owner of a bank of Knit; while 6412 mode is off, and
from any other master, the write is refused (R576). The owner is that at the start of the clock; beside a write of the Trivet in
the same clock, the owner's is not taken. -/
def State.bankOwnerWrite (s : State) (m n v : Nat) : State :=
  let a := A.BANK_OWNER 0 n
  s.guardReg m a fun s =>
    if s.mode6412 ∧ (m = trivet ∨ m = s.fldBefore a F.BANK_OWNER.OWNER) then
      if m ≠ trivet ∧ s.trivetWrote a then s else (s.noteBefore m a).setf a F.BANK_OWNER.OWNER v
    else s.busErr m a true cPerm

def execBankOwnerWrite (m : Byte) (n : Fin 16) (v : Byte) (s : State) : Host.Outcome State Fault Refusal :=
  .next (s.bankOwnerWrite m.toNat n v.toNat)

/-- VAULT_ACCESS (R582). -/
def execVaultAccess (m : Byte) (off : Fin 0x40000) (len : Fin 9) (write : Bool) (data : List Byte) (s : State) :
    Host.Outcome State Fault Refusal :=
  let a := vaultBase + off
  .next (if s.presented m.toNat a then s.vaultAccess m.toNat a (if write then data.length else len) write data else s)

/-- VAULT_WIPE_DONE (R584). -/
def execVaultWipeDone (s : State) : Host.Outcome State Fault Refusal := .next s.vaultWiped

/-- DRAM_ACCESS (R42): an access of up to 64 bytes to a DRAM range; a hart's may not cross a page (Table 13.1). -/
def execDramAccess (m : Byte) (off : Fin 0x400000000) (len : Fin 65) (write : Bool) (data : List Byte)
    (ecc mirrorEcc : Ecc) (s : State) : Host.Outcome State Fault Refusal :=
  let a := dkBase + off
  .next (if s.presented m.toNat a then s.dramBus m.toNat a (if write then (data.take 64).length else len) write (data.take 64)
    { BusEnv.clean with eccLo := ecc, mirror := mirrorEcc } else s)

/-- ACCESS_ERROR_TIMEOUT (R47): an access to a target that is powered off, in reset, or beyond a link that is down
receives its error response, and has no effect; an access that its target can answer is not timed out. -/
def execAccessErrorTimeout (m : Byte) (a : BitVec 40) (write : Bool) (s : State) :
    Host.Outcome State Fault Refusal :=
  let c := match regionOf a.toNat with
    | .bank h => s.halfErr m.toNat h
    | .block h => s.halfErr m.toNat h
    | .needle i => s.halfErr m.toNat (unitHalf i 12)
    | .dk => match s.dramPorts m.toNat a.toNat 1 write with
      | .error c => if c = cOff then some c else none
      | .ok _ => none
    | .dp => match s.dramPorts m.toNat a.toNat 1 write with
      | .error c => if c = cOff then some c else none
      | .ok _ => none
    | _ => none
  match (if s.presented m.toNat a.toNat then c else none) with
  | some c => .next (s.busErr m.toNat a.toNat write c)
  | none => .next s

end Sys2Proof.Machine
end

