-- ==== Sys2Proof/Machine/Harts.lean ====
section
/-! DEFINITION. The commands of the application harts (spec/13, R602, R604, R609, R610). The instructions of the harts are
those of the RISC-V specifications; the block sees their accesses and their custom CSRs. -/

namespace Sys2Proof.Machine
open Sys2Proof

/-- A hart runs: its half is released, and lockstep has not halted it. -/
def State.hartRuns (s : State) (k : Nat) : Bool := s.running (halfOf (k / 2)) && !(s.hart k).halted

/-- The machine timer interrupt follows the raw count (R602). -/
def State.timerFollow (s : State) (k : Nat) : State :=
  s.mapHart k fun x => { x with mtip := decide (x.mtimecmp ≤ s.raw) }

/-- MTIMECMP_WRITE (R602): in force from the next CORE clock. -/
def execMtimecmpWrite (k : Fin 4) (v : Dword) (s : State) : Host.Outcome State Fault Refusal :=
  if s.hartRuns k then .next ((s.mapHart k fun x => { x with mtimecmp := v.toNat }).timerFollow k) else .next s

/-- MACHINE_TIMER_INTERRUPT (R602). -/
def execMachineTimerInterrupt (k : Fin 4) (s : State) : Host.Outcome State Fault Refusal :=
  if s.running (halfOf (k / 2)) then .next (s.timerFollow k) else .next s

/-- The sources of MIRQ_PEND1 that MIRQ_CLR1 clears: 0 to 16 and 34 (Table 13.4). -/
def clr1Mask : Nat := 0x1FFFF + 2 ^ 34

/-- A write of MIRQ_CLR1; `raised` are the sources that set their bits in the same CORE clock (R610). -/
def State.clr1Write (s : State) (k v raised : Nat) : State :=
  s.mapHart k fun x => { x with latched := (x.latched &&& (2 ^ 64 - 1 - (v &&& clr1Mask))) ||| (raised &&& clr1Mask) }

/-- MIRQ_CLR1_WRITE (R610). -/
def execMirqClr1Write (k : Fin 4) (v raised : Dword) (s : State) : Host.Outcome State Fault Refusal :=
  if s.hartRuns k then .next (s.clr1Write k v.toNat raised.toNat) else .next s

/-- HART_AMO_SCRATCHPAD (R604): an AMO to any address, with the accesses of port B in the read cycle and in the write cycle. While the banks are
being zeroed it waits (R577). -/
def execHartAmoScratchpad (k : Fin 4) (op : AmoOp) (wide : Bool) (a : BitVec 40) (v : Dword) (ecc : Ecc)
    (b1 b2 : Option SpadOp) (s : State) : Host.Outcome State Fault Refusal :=
  let h := halfOf (k / 2)
  let b1 := b1.filter s.there
  let b2 := b2.filter s.there
  if !s.hartRuns k then .next s
  else if amoReaches k (if wide then 8 else 4) a.toNat && s.flag (A.SPAD_STATUS h.n) F.SPAD_STATUS.ZEROING then
    .next { s with spadWait := s.spadWait ++ SpadReq.amo k op wide a.toNat v.toNat :: (b1.toList ++ b2.toList).map SpadReq.access
                   resp := none, respA := none }
  else .next (s.spadAmo k op wide a.toNat v.toNat ecc b1 b2)

end Sys2Proof.Machine
end

