-- ==== Sys2Proof/Machine/HookCore.lean ====
section
/-! DEFINITION. Hook engines: states, FIFOs with their threshold event, pins, and the engine cycle (spec/11, R529 to R557).
Engines are numbered 8 × half + number in the half. -/

namespace Sys2Proof.Machine
open Sys2Proof

/-- The half of engine e. -/
def hkHalf (e : Nat) : Half := unitHalf e 8

/-- States of an engine (R549), and what it stalls on. -/
def hkStopped : Nat := 0
def hkRunning : Nat := 1
def hkStalled : Nat := 2
def stallNone : Nat := 0
def stallPull : Nat := 1
def stallPush : Nat := 2
def stallWait : Nat := 3

def State.hkState (s : State) (e : Nat) : Nat := s.fld (A.HK_STATUS e) F.HK_STATUS.STATE

/-- Ticks of `now` in one HOOK clock of 4 ns, and the number (plus one) of the present one. -/
def hookClock : Nat := 2
def State.hkClock (s : State) : Nat := s.now / hookClock + 1

/-- RUN changes in this HOOK clock: how the clock began is kept. -/
def State.hkSwitch (s : State) (e : Nat) : State :=
  let c := s.hkClock
  s.mapHook e fun x => if x.sw = c then x else { x with sw := c, was := s.hkState e == hkStopped }

/-- The engine was STOPPED at the start of this HOOK clock, which decides each access in it (R552). -/
def State.hkIdle (s : State) (e : Nat) : Bool :=
  let x := s.hook e
  if x.sw = s.hkClock then x.was else s.hkState e == hkStopped

/-- STATE and STALL of an engine. -/
def State.setHk (s : State) (e st stall : Nat) : State :=
  (s.setf (A.HK_STATUS e) F.HK_STATUS.STATE st).setf (A.HK_STATUS e) F.HK_STATUS.STALL stall

/-! ### FIFOs (R548, R555, R556) -/

/-- Thresholds, where their side is enabled (R556). -/
def State.rxThr (s : State) (e : Nat) : Option Nat :=
  let v := s.fld (A.HK_FIFO e) F.HK_FIFO.RX_THR
  if v = 0 then none else some (min 8 v)
def State.txThr (s : State) (e : Nat) : Option Nat :=
  let v := s.fld (A.HK_FIFO e) F.HK_FIFO.TX_THR
  if 8 ≤ v then none else some v

/-- A FIFO is at its threshold. -/
def State.hkAtThr (s : State) (e : Nat) : Bool :=
  (s.rxThr e).any (fun t => decide (t ≤ (s.hook e).rx.length)) || (s.txThr e).any fun t => decide ((s.hook e).tx.length ≤ t)

/-- The threshold event of engine e in its bound Needle engine i (Table 3.9, priority 6). -/
def State.hkRaise (s : State) (e i : Nat) : State :=
  let merged := s.neState i == neRunning && (s.eng i).pend.any fun q => q.prio = prHook ∧ q.idx = e % 8
  (s.nePend i (pendBit s prHook (e % 8) 0)).mapHook e fun x => { x with thr := if merged then 2 else if s.neState i = neRunning then 1 else 0 }

/-- The level has gone back within the HOOK clock: the event that this clock raised is withdrawn (R556). -/
def State.hkWithdraw (s : State) (e i : Nat) : State :=
  let s := if (s.hook e).thr = 1 then s.mapEng i fun x => { x with pend := x.pend.filter fun q => !(q.prio = prHook ∧ q.idx = e % 8) }
    else s.wrn (A.NE_EVT_MERGE i) (s.rdn (A.NE_EVT_MERGE i) - 1)
  s.mapHook e fun x => { x with thr := 0 }

/-- An engine's FIFOs as this HOOK clock finds them: the levels at its start, and no threshold event of it yet (R556). -/
def Hook.opened (x : Hook) (clk : Nat) : Hook :=
  if x.clk = clk then x else { x with clk := clk, rx0 := x.rx.length, tx0 := x.tx.length, thr := 0 }

/-- An engine with its FIFOs put, and the levels that HK_FIFO shows. -/
def State.hkLevels (s : State) (e : Nat) (x : Hook) : State :=
  ((s.putHook e x).setf (A.HK_FIFO e) F.HK_FIFO.TX_LEVEL x.tx.length).setf (A.HK_FIFO e) F.HK_FIFO.RX_LEVEL x.rx.length

/-- The threshold event of the bound Needle engine, where `on` says that this HOOK clock has one, and `was` that it has been
raised in it (R556). -/
def State.hkEdge (s : State) (e : Nat) (on was : Bool) : State :=
  match s.hkEngine e with
  | some i => if on && !was then s.hkRaise e i else if !on && was then s.hkWithdraw e i else s
  | none => s

/-- A level rises to the receive threshold, or falls to the transmit threshold, from the start of the HOOK clock to FIFOs of
`nrx` and `ntx` words (R556). -/
def State.hkCrossed (s : State) (e : Nat) (x : Hook) (ntx nrx : Nat) : Bool :=
  (s.rxThr e).any (fun t => decide (x.rx0 < t) && decide (t ≤ nrx)) || (s.txThr e).any fun t => decide (t < x.tx0) && decide (ntx ≤ t)

/-- The FIFOs of an engine replaced: levels, and the threshold event of the bound Needle engine when over this HOOK clock the
receive level rises to its threshold or the transmit level falls to its own (R556). -/
def State.putFifos (s : State) (e : Nat) (tx rx : List Word) : State :=
  let x := (s.hook e).opened s.hkClock
  (s.hkLevels e { x with tx := tx, rx := rx }).hkEdge e (s.hkCrossed e x tx.length rx.length) (x.thr != 0)

/-- A word put into the transmit FIFO; none when it is full. -/
def State.hkPut (s : State) (e : Nat) (w : Word) : Option State :=
  let x := s.hook e
  if x.tx.length < 8 then some (s.putFifos e (x.tx ++ [w]) x.rx) else none

/-- The oldest word of the receive FIFO, removed; none when it is empty. -/
def State.hkGet (s : State) (e : Nat) : Option (Word × State) :=
  match (s.hook e).rx with
  | [] => none
  | w :: rx => some (w, s.putFifos e (s.hook e).tx rx)

/-! ### Pins (R534 to R538) -/

/-- The number of Hook pins of a half. -/
def hookPins : Nat := 24

/-- The level of Hook pin q of a half as an engine reads it. -/
def State.pinIn (s : State) (h : Half) (q : Nat) : Bool :=
  decide (q < hookPins) && (bitAt (s.rdn (A.HOOK_PIN_IN h.n)) q != s.flag (A.HOOK_PIN_CFG h.n q) F.HOOK_PIN_CFG.IN_INV)

/-- Group size of an engine. -/
def State.hkCount (s : State) (e : Nat) : Nat := s.fld (A.HK_PINS e) F.HK_PINS.COUNT

/-- Hook pin of group pin i. -/
def State.hkPin (s : State) (e i : Nat) : Nat := s.fld (A.HK_PINS e) F.HK_PINS.BASE + i

/-- The level of group pin i; a pin beyond the group reads 0 (Table 11.4). -/
def State.groupIn (s : State) (e i : Nat) : Bool := decide (i < s.hkCount e) && s.pinIn (hkHalf e) (s.hkPin e i)

/-- Engine e owns Hook pin q of its half (R536). -/
def State.hkOwner (s : State) (e q : Nat) : Bool := s.fld (A.HOOK_PIN_CFG (e / 8) q) F.HOOK_PIN_CFG.OWNER == e % 8

/-- A number with bit i set or cleared. -/
def setBit (v i : Nat) (b : Bool) : Nat := (if bitAt v i then v - 2 ^ i else v) + b2n b * 2 ^ i

/-- Levels or directions given to consecutive group pins from `at_`: pins beyond the group, and pins the engine does not own,
are unaffected (R536). -/
def State.drive (s : State) (e at_ : Nat) (dirs : Bool) : List Bool → State
  | [] => s
  | b :: bs =>
    let q := s.hkPin e at_
    let x := s.hook e
    let s := if at_ < s.hkCount e ∧ s.hkOwner e q then
        s.putHook e (if dirs then { x with oe := setBit x.oe q b } else { x with out := setBit x.out q b })
      else s
    s.drive e (at_ + 1) dirs bs

/-- The engine that owns Hook pin q, if one. -/
def State.pinOwner (s : State) (h : Half) (q : Nat) : Option Nat :=
  let o := s.fld (A.HOOK_PIN_CFG h.n q) F.HOOK_PIN_CFG.OWNER
  if o < 8 then some (8 * h.n + o) else none

/-- The word of the pins for which `f` holds. -/
def pinBits (f : Nat → Bool) : Nat := (List.range hookPins).foldl (fun v q => v + b2n (f q) * 2 ^ q) 0
/-- HOOK_PIN_OUT and HOOK_PIN_OE: the owner's output values, and the pins that are driven; a pin in its reset state is not
(R536, R537, R702). -/
def State.pinOutWord (s : State) (h : Half) : Nat :=
  pinBits fun q => (s.pinOwner h q).any fun e => bitAt (s.hook e).out q
def State.pinOeWord (s : State) (h : Half) : Nat :=
  pinBits fun q => s.padLeft h (padHook q) && (s.pinOwner h q).any fun e => bitAt (s.hook e).oe q

/-! ### The engine cycle (R532, R533) -/

/-- The level at which the owner drives Hook pin q, if it is driven; else the pin is released to its PULL setting (R536). -/
def State.hookPin (s : State) (h : Half) (q : Nat) : Option Bool :=
  if bitAt (s.pinOeWord h) q then some (bitAt (s.pinOutWord h) q != s.flag (A.HOOK_PIN_CFG h.n q) F.HOOK_PIN_CFG.OUT_INV) else none

/-- The time moves on by `n` engine cycles. -/
def State.hkCycles (s : State) (e n : Nat) : State :=
  let int := max 1 (s.fld (A.HK_CLKDIV e) F.HK_CLKDIV.DIV_INT)
  let frac := if int = 65535 then 0 else s.fld (A.HK_CLKDIV e) F.HK_CLKDIV.DIV_FRAC
  let x := s.hook e
  let acc := x.div + n * frac
  s.putHook e { x with div := acc % 256, due := x.due + (n * int + acc / 256) * hookClock }

/-- The program counter of the instruction that acts at `due`. -/
def State.hkPc (s : State) (e : Nat) : Nat := (s.hook e).next.getD (s.fld (A.HK_PC e) F.HK_PC.PC) % 64

/-- The instruction word there. -/
def State.hkWord (s : State) (e : Nat) : Nat := s.fld (A.HK_PROG e (s.hkPc e)) F.HK_PROG.WORD

def hkOp (w : Nat) : Nat := w / 2 ^ 9 % 8
def hkDelay (w : Nat) : Nat := w / 2 ^ 12 % 16
def hkArg (w : Nat) : Nat := w % 2 ^ 9

/-- The engine acts now, with an instruction of opcode `op`. -/
def State.hkReady (s : State) (e op : Nat) : Bool :=
  s.running (hkHalf e) && s.hkState e != hkStopped && decide ((s.hook e).due ≤ s.now) && hkOp (s.hkWord e) == op

/-- The instruction at hkPc becomes the instruction in progress. -/
def State.hkBegin (s : State) (e : Nat) : State :=
  let pc := s.hkPc e
  (s.setf (A.HK_PC e) F.HK_PC.PC pc).mapHook e fun x => { x with next := none }

/-- The instruction in progress has acted: after its delay cycles the one at `pc` follows (R533, R543). -/
def State.hkDone (s : State) (e pc : Nat) : State :=
  let d := hkDelay (s.hkWord e)
  let s := (s.setHk e hkRunning stallNone).hkCycles e (1 + d)
  s.mapHook e fun x => { x with next := some (pc % 64), waited := 0 }

/-- The instruction has acted, and the next one follows. -/
def State.hkNext (s : State) (e : Nat) : State := s.hkDone e (s.hkPc e + 1)

/-- The instruction in progress stalls in this cycle. -/
def State.hkStall (s : State) (e why : Nat) : State :=
  ((s.setHk e hkStalled why).hkCycles e 1).mapHook e fun x => { x with waited := x.waited + 1 }

/-! ### Shift registers (R541, R542) -/

def State.osr (s : State) (e : Nat) : Nat := s.rdn (A.HK_OSR e)
def State.isr (s : State) (e : Nat) : Nat := s.rdn (A.HK_ISR e)
def State.osrCnt (s : State) (e : Nat) : Nat := s.fld (A.HK_SCNT e) F.HK_SCNT.OSR_CNT
def State.isrCnt (s : State) (e : Nat) : Nat := s.fld (A.HK_SCNT e) F.HK_SCNT.ISR_CNT

/-- A COUNT field, 0 read as 32. -/
def hkCountOf (w : Nat) : Nat := if w % 32 = 0 then 32 else w % 32

/-- The bits OUT takes, the first one taken first, and the field they are as a number. -/
def takeField (left : Bool) (v c : Nat) : Nat := if left then v / 2 ^ (32 - c) else v % 2 ^ c
def takeBits (left : Bool) (v c : Nat) : List Bool :=
  (List.range c).map fun i => if left then bitAt v (31 - i) else bitAt v i

/-- The OSR after COUNT bits have left it. -/
def osrAfter (left : Bool) (v c : Nat) : Nat := if left then v * 2 ^ c % 2 ^ 32 else v / 2 ^ c

/-- The number that bits spell as they enter the ISR one after another: the first ends lowest when it shifts right, highest
when it shifts left. -/
def enterField (left : Bool) (bits : List Bool) : Nat :=
  if left then bits.foldl (fun n b => 2 * n + b2n b) 0 else bits.foldr (fun b n => b2n b + 2 * n) 0

/-- The ISR after a field of COUNT bits has entered it. -/
def isrAfter (left : Bool) (v c field : Nat) : Nat :=
  if left then (v * 2 ^ c + field) % 2 ^ 32 else v / 2 ^ c + field * 2 ^ (32 - c)

end Sys2Proof.Machine
end

