-- ==== Sys2Proof/Machine/Hook.lean ====
section
/-! DEFINITION. The commands of the Hook engines (spec/11, R540 to R557): each instruction of Table 11.3, as the engine acts on
it in the cycle that is due, and the writes of the engines' registers. `pins` are the levels of the half's 24 pins after the
synchroniser. -/

namespace Sys2Proof.Machine
open Sys2Proof

/-- The pins of the half as they read in this cycle. -/
def State.samplePins (s : State) (e : Nat) (pins : BitVec 24) : State := s.wrn (A.HOOK_PIN_IN (e / 8)) pins.toNat

/-! ### Instructions -/

/-- SET (Table 11.3). -/
def State.hkSet (s : State) (e : Nat) : State :=
  let s := s.hkBegin e
  let a := hkArg (s.hkWord e)
  let dest := a / 2 ^ 7
  let data := a % 64
  let bits := (List.range 6).map fun i => bitAt data i
  let s := if bitAt a 6 then s
    else if dest = 0 then s.wrn (A.HK_LC e) data
    else if dest = 1 then s.drive e 0 false bits
    else if dest = 2 then s.drive e 0 true bits
    else s
  s.hkNext e

/-- HK_SET (R540). -/
def execHkSet (e : Fin 16) (s : State) : Host.Outcome State Fault Refusal :=
  if s.hkReady e 0 then .next (s.hkSet e) else .next s

/-- LOOP (Table 11.3). -/
def State.hkLoop (s : State) (e : Nat) : State :=
  let s := s.hkBegin e
  let a := hkArg (s.hkWord e)
  let lc := s.rdn (A.HK_LC e)
  if a / 2 ^ 6 ≠ 0 ∨ lc = 0 then s.hkNext e else (s.wrn (A.HK_LC e) (lc - 1)).hkDone e (a % 64)

/-- HK_LOOP (R540). -/
def execHkLoop (e : Fin 16) (s : State) : Host.Outcome State Fault Refusal :=
  if s.hkReady e 1 then .next (s.hkLoop e) else .next s

/-- The compare result (R530). -/
def State.hkCompare (s : State) (e : Nat) : Bool :=
  (s.isr e &&& s.rdn (A.HK_CMP_MASK e)) == (s.rdn (A.HK_CMP e) &&& s.rdn (A.HK_CMP_MASK e))

/-- COND of a JMP (Table 11.4). -/
def State.hkCond (s : State) (e c : Nat) : Bool :=
  let pin := s.groupIn e (s.fld (A.HK_PINS e) F.HK_PINS.JMP_PIN)
  match c with
  | 0 => true
  | 1 => s.hkCompare e
  | 2 => !s.hkCompare e
  | 3 => pin
  | 4 => !pin
  | 5 => (s.hook e).tx.isEmpty
  | 6 => decide (8 ≤ (s.hook e).rx.length)
  | _ => s.osrCnt e == 32

/-- JMP (Table 11.3). -/
def State.hkJmp (s : State) (e : Nat) : State :=
  let s := s.hkBegin e
  let a := hkArg (s.hkWord e)
  if s.hkCond e (a / 2 ^ 6) then s.hkDone e (a % 64) else s.hkNext e

/-- HK_JMP (R540). -/
def execHkJmp (e : Fin 16) (pins : BitVec 24) (s : State) : Host.Outcome State Fault Refusal :=
  let s := s.samplePins e pins
  if s.hkReady e 2 then .next (s.hkJmp e) else .next s

/-- The operand of a WAIT is reserved (R544). -/
def waitReserved (a : Nat) : Bool := decide (1 < a / 2 ^ 5 % 4) || (a / 2 ^ 5 % 4 == 0 && a / 2 ^ 3 % 4 != 0)

/-- The pin of a WAIT is at its level. -/
def State.waitTrue (s : State) (e a : Nat) : Bool :=
  let idx := a % 32
  let level := if a / 2 ^ 5 % 4 = 0 then s.groupIn e (idx % 8) else s.pinIn (hkHalf e) idx
  level == bitAt a 7

/-- A WAIT in the cycle that is due (R545, R546). -/
def State.hkWait (s : State) (e : Nat) : State :=
  let s := s.hkBegin e
  let a := hkArg (s.hkWord e)
  if waitReserved a || s.waitTrue e a then s.hkNext e
  else if bitAt a 8 ∧ max 1 (s.fld (A.HK_WAITTO e) F.HK_WAITTO.COUNT) ≤ (s.hook e).waited then
    let s := (s.setf (A.HK_STATUS e) F.HK_STATUS.WAIT_TO 1).inc (A.HK_WAITTO_CNT e)
    s.hkDone e (s.fld (A.HK_WAITTO e) F.HK_WAITTO.TARGET)
  else s.hkStall e stallWait

/-- HK_WAIT (R540). -/
def execHkWait (e : Fin 16) (pins : BitVec 24) (s : State) : Host.Outcome State Fault Refusal :=
  let s := s.samplePins e pins
  if s.hkReady e 3 then .next (s.hkWait e) else .next s

/-- HK_WAIT_TIMEOUT (R546): the cycle in which a stalled WAIT times out. -/
def execHkWaitTimeout (e : Fin 16) (pins : BitVec 24) (s : State) : Host.Outcome State Fault Refusal :=
  let s := s.samplePins e pins
  let late := decide (max 1 (s.fld (A.HK_WAITTO e) F.HK_WAITTO.COUNT) ≤ (s.hook e).waited)
  if s.hkReady e 3 && s.hkState e == hkStalled && bitAt (hkArg (s.hkWord e)) 8 && late then .next (s.hkWait e) else .next s

/-- OUT (R541, R542). -/
def State.hkOut (s : State) (e : Nat) : State :=
  let s := s.hkBegin e
  let a := hkArg (s.hkWord e)
  let dest := a / 2 ^ 6
  if bitAt a 5 ∨ 3 < dest then s.hkNext e
  else
    let c := hkCountOf a
    let left := s.flag (A.HK_CTRL e) F.HK_CTRL.OSR_LEFT
    let v := s.osr e
    let bits := takeBits left v c
    let at_ := s.fld (A.HK_PINS e) F.HK_PINS.OUT_BASE
    let s := s.wrn (A.HK_OSR e) (osrAfter left v c)
    let s := s.setf (A.HK_SCNT e) F.HK_SCNT.OSR_CNT (min 32 (s.osrCnt e + c))
    let s := if dest = 1 then s.drive e at_ false bits
      else if dest = 2 then s.drive e at_ true bits
      else if dest = 3 then s.wrn (A.HK_LC e) (takeField left v c % 65536)
      else s
    s.hkNext e

/-- HK_OUT (R541). -/
def execHkOut (e : Fin 16) (s : State) : Host.Outcome State Fault Refusal :=
  if s.hkReady e 4 then .next (s.hkOut e) else .next s

/-- The field of COUNT bits that IN takes from its source. -/
def State.inField (s : State) (e src c : Nat) : Nat :=
  let left := s.flag (A.HK_CTRL e) F.HK_CTRL.ISR_LEFT
  match src with
  | 0 => enterField left ((List.range c).map fun i => s.groupIn e (s.fld (A.HK_PINS e) F.HK_PINS.IN_BASE + i))
  | 1 => s.rdn (A.HK_LC e) % 2 ^ c
  | 2 => enterField left (takeBits (s.flag (A.HK_CTRL e) F.HK_CTRL.OSR_LEFT) (s.osr e) c)
  | 3 => 0
  | _ => 2 ^ c - 1

/-- IN (R541, R542). -/
def State.hkIn (s : State) (e : Nat) : State :=
  let s := s.hkBegin e
  let a := hkArg (s.hkWord e)
  let src := a / 2 ^ 6
  if bitAt a 5 ∨ 4 < src then s.hkNext e
  else
    let c := hkCountOf a
    let v := isrAfter (s.flag (A.HK_CTRL e) F.HK_CTRL.ISR_LEFT) (s.isr e) c (s.inField e src c)
    let s := s.wrn (A.HK_ISR e) v
    (s.setf (A.HK_SCNT e) F.HK_SCNT.ISR_CNT (min 32 (s.isrCnt e + c))).hkNext e

/-- HK_IN (R541). -/
def execHkIn (e : Fin 16) (pins : BitVec 24) (s : State) : Host.Outcome State Fault Refusal :=
  let s := s.samplePins e pins
  if s.hkReady e 5 then .next (s.hkIn e) else .next s

/-- The OSR loaded with a word. -/
def State.osrLoad (s : State) (e : Nat) (w : Word) : State :=
  (s.wr (A.HK_OSR e) w).setf (A.HK_SCNT e) F.HK_SCNT.OSR_CNT 0

/-- PULL in the cycle that is due (R545, R547). -/
def State.hkPull (s : State) (e : Nat) : State :=
  let s := s.hkBegin e
  if hkArg (s.hkWord e) ≠ 0 then s.hkNext e
  else match (s.hook e).tx with
    | w :: tx =>
      let s := (s.osrLoad e w).putFifos e tx (s.hook e).rx
      (s.mapHook e fun x => { x with last := w }).hkNext e
    | [] =>
      let s := (s.setf (A.HK_STATUS e) F.HK_STATUS.UNDERRUN 1).inc (A.HK_UNDERRUN_CNT e)
      if s.flag (A.HK_CTRL e) F.HK_CTRL.NOSTALL then (s.osrLoad e (s.hook e).last).hkNext e else s.hkStall e stallPull

/-- HK_PULL (R545). -/
def execHkPull (e : Fin 16) (s : State) : Host.Outcome State Fault Refusal :=
  if s.hkReady e 6 then .next (s.hkPull e) else .next s

/-- The ISR and its count cleared. -/
def State.isrClear (s : State) (e : Nat) : State := (s.wr (A.HK_ISR e) 0).setf (A.HK_SCNT e) F.HK_SCNT.ISR_CNT 0

/-- PUSH in the cycle that is due (R545, R547). -/
def State.hkPush (s : State) (e : Nat) : State :=
  let s := s.hkBegin e
  let a := hkArg (s.hkWord e)
  if a / 2 ≠ 0 then s.hkNext e
  else if (s.hook e).rx.length < 8 then
    let align := a % 2 == 1 && !s.flag (A.HK_CTRL e) F.HK_CTRL.ISR_LEFT
    let w := if align then s.isr e / 2 ^ (32 - s.isrCnt e) else s.isr e
    let s := s.putFifos e (s.hook e).tx ((s.hook e).rx ++ [BitVec.ofNat 32 w])
    (s.isrClear e).hkNext e
  else
    let s := (s.setf (A.HK_STATUS e) F.HK_STATUS.OVERRUN 1).inc (A.HK_OVERRUN_CNT e)
    if s.flag (A.HK_CTRL e) F.HK_CTRL.NOSTALL then (s.isrClear e).hkNext e else s.hkStall e stallPush

/-- HK_PUSH (R545). -/
def execHkPush (e : Fin 16) (s : State) : Host.Outcome State Fault Refusal :=
  if s.hkReady e 7 then .next (s.hkPush e) else .next s

/-- HK_STALL_END (R545): the first cycle in which the FIFO or the pin lets a stalled instruction complete. -/
def execHkStallEnd (e : Fin 16) (pins : BitVec 24) (s : State) : Host.Outcome State Fault Refusal :=
  let s := s.samplePins e pins
  if s.hkState e ≠ hkStalled then .next s
  else if s.hkReady e 6 && !(s.hook e).tx.isEmpty then .next (s.hkPull e)
  else if s.hkReady e 7 && decide ((s.hook e).rx.length < 8) then .next (s.hkPush e)
  else if s.hkReady e 3 && s.waitTrue e (hkArg (s.hkWord e)) then .next (s.hkWait e)
  else .next s

/-! ### Run states (R549 to R553, R557) -/

/-- An engine stops (R551). -/
def State.hkStop (s : State) (e : Nat) : State :=
  let s := s.hkSwitch e
  let x := s.hook e
  let pc := if x.due ≤ s.now then s.hkPc e else s.fld (A.HK_PC e) F.HK_PC.PC
  let s := if s.hkState e = hkStalled then s.setf (A.HK_STATUS e) F.HK_STATUS.STOPPED_IN_STALL 1 else s
  let s := (((s.wr (A.HK_OSR e) 0).wr (A.HK_ISR e) 0).wr (A.HK_SCNT e) 0).setf (A.HK_PC e) F.HK_PC.PC pc
  (s.setHk e hkStopped stallNone).mapHook e fun x => { x with next := none, waited := 0 }

/-- An engine starts (R550). -/
def State.hkStart (s : State) (e : Nat) : State :=
  ((s.hkSwitch e).setHk e hkRunning stallNone).mapHook e fun x => { x with next := none, waited := 0, due := s.now, last := 0 }

def State.cfgRej (s : State) (e : Nat) : State := s.setf (A.HK_STATUS e) F.HK_STATUS.CFG_REJ 1

/-- A write of HK_CTRL: RUN starts or stops; the other fields change only while STOPPED (R550, R551, R553, R557). The state at the
start of the HOOK clock decides (R552). -/
def State.hkCtrlWrite (s : State) (m e : Nat) (v : Word) : State :=
  let a := A.HK_CTRL e
  s.guardReg m a fun s =>
    let stopped := s.hkIdle e
    let halted := s.hkState e == hkStopped
    let keep := [F.HK_CTRL.NOSTALL, F.HK_CTRL.OSR_LEFT, F.HK_CTRL.ISR_LEFT]
    let moves := keep.any fun f => fget f v != s.fld a f
    let flush := decide (fget F.HK_CTRL.FLUSH v = 1)
    let s := if stopped then keep.foldl (fun s f => s.setf a f (fget f v)) s
      else if moves || flush then s.cfgRej e else s
    let s := if stopped && flush then s.putFifos e [] [] else s
    if fget F.HK_CTRL.RUN v = 1 then
      if stopped && halted then (s.setf a F.HK_CTRL.RUN 1).hkStart e else s
    else if halted then s
    else (s.setf a F.HK_CTRL.RUN 0).hkStop e

/-- HK_RUN_START (R550): a write with RUN = 1. -/
def execHkRunStart (m : Byte) (e : Fin 16) (v : Word) (s : State) : Host.Outcome State Fault Refusal :=
  .next (s.hkCtrlWrite m.toNat e (fput F.HK_CTRL.RUN v 1))

/-- HK_RUN_STOP (R551): a write with RUN = 0. -/
def execHkRunStop (m : Byte) (e : Fin 16) (v : Word) (s : State) : Host.Outcome State Fault Refusal :=
  .next (s.hkCtrlWrite m.toNat e (fput F.HK_CTRL.RUN v 0))

/-- HK_FLUSH (R557): a write with FLUSH = 1. -/
def execHkFlush (m : Byte) (e : Fin 16) (v : Word) (s : State) : Host.Outcome State Fault Refusal :=
  .next (s.hkCtrlWrite m.toNat e (fput F.HK_CTRL.FLUSH v 1))

/-- A write of a register that changes only while STOPPED (R532, R553). -/
def State.hkStoppedWrite (s : State) (m e a : Nat) (v : Word) : State :=
  s.guardReg m a fun s =>
    if !s.hkIdle e then s.cfgRej e
    else
      let s := s.plainWrite a v
      if a = A.HK_CLKDIV e then s.setf a F.HK_CLKDIV.DIV_INT (max 1 (s.fld a F.HK_CLKDIV.DIV_INT)) else s

/-- A write of HK_PINS, refused as R535 says. A group of no pins may name base 0, and a COUNT above 8 is refused
(DESIGN CHOICE, log entry 49: the spec does not say). -/
def State.hkPinsWrite (s : State) (m e : Nat) (v : Word) : State :=
  let count := fget F.HK_PINS.COUNT v
  let bad := decide (24 < fget F.HK_PINS.BASE v + count) ||
    (count != 0 && (decide (count ≤ fget F.HK_PINS.OUT_BASE v) || decide (count ≤ fget F.HK_PINS.IN_BASE v))) || decide (8 < count)
  if bad then s.guardReg m (A.HK_PINS e) fun s => s.cfgRej e else s.hkStoppedWrite m e (A.HK_PINS e) v

/-- A write of HK_PROG (R552). -/
def State.hkProgWrite (s : State) (m e w : Nat) (v : Word) : State :=
  let a := A.HK_PROG e w
  s.guardReg m a fun s =>
    if s.hkIdle e then s.plainWrite a v
    else (s.setf (A.HK_STATUS e) F.HK_STATUS.PROG_REJECT 1).busErr m a true cPerm

/-- HK_PROG_WRITE (R552). -/
def execHkProgWrite (m : Byte) (e : Fin 16) (w : Fin 64) (v : Word) (s : State) : Host.Outcome State Fault Refusal :=
  .next (s.hkProgWrite m.toNat e w v)

/-! ### FIFO registers (R555) -/

/-- A master reaches the FIFOs of an unbound engine: the Trivet, and the harts of its half. -/
def State.fifoMaster (s : State) (m e : Nat) : Bool :=
  (s.hkEngine e).isNone && (m == trivet || m == 2 + 2 * (e / 8) || m == 3 + 2 * (e / 8))

/-- A write of HK_TXF. -/
def State.hkTxfWrite (s : State) (m e : Nat) (v : Word) : State :=
  let a := A.HK_TXF e
  s.guardReg m a fun s =>
    if s.fifoMaster m e then
      match s.hkPut e v with
      | some s' => s'
      | none => s.busErr m a true cPerm
    else s.busErr m a true cPerm

/-- HK_TXF_WRITE (R555). -/
def execHkTxfWrite (m : Byte) (e : Fin 16) (v : Word) (s : State) : Host.Outcome State Fault Refusal :=
  .next (s.hkTxfWrite m.toNat e v)

/-- A read of HK_RXF. -/
def State.hkRxfRead (s : State) (m e : Nat) : State :=
  let a := A.HK_RXF e
  if !s.presented m a then s
  else match s.regErr m a 4 false with
  | some c => s.busErr m a false c
  | none =>
    if s.fifoMaster m e then
      match s.hkGet e with
      | some (w, s') => s'.ok w.toNat
      | none => s.busErr m a false cPerm
    else s.busErr m a false cPerm

/-- HK_RXF_READ (R555). -/
def execHkRxfRead (m : Byte) (e : Fin 16) (s : State) : Host.Outcome State Fault Refusal :=
  .next (s.hkRxfRead m.toNat e)

/-! ### Pins (R537) -/

/-- An owner code names no engine, or one that is STOPPED. -/
def State.ownerIdle (s : State) (h : Half) (o : Nat) : Bool := decide (8 ≤ o) || s.hkIdle (8 * h.n + o)

/-- A write of HOOK_PIN_CFG. -/
def State.hookPinWrite (s : State) (m : Nat) (h : Half) (q : Nat) (v : Word) : State :=
  let a := A.HOOK_PIN_CFG h.n q
  s.guardReg m a fun s =>
    if s.ownerIdle h (s.fld a F.HOOK_PIN_CFG.OWNER) && s.ownerIdle h (fget F.HOOK_PIN_CFG.OWNER v) then
      ((s.plainWrite a v).setf a F.HOOK_PIN_CFG.CFGD 1).padLeave h (padHook q)
    else s.setf (A.HOOK_GSTATUS h.n) F.HOOK_GSTATUS.PIN_REJ 1

/-- HOOK_PIN_CFG_WRITE (R537). -/
def execHookPinCfgWrite (m : Byte) (h : Half) (q : Fin 24) (v : Word) (s : State) : Host.Outcome State Fault Refusal :=
  .next (s.hookPinWrite m.toNat h q v)

end Sys2Proof.Machine
end

