-- ==== Sys2Proof/Machine/Mailbox.lean ====
section
/-! DEFINITION. The mailbox channels and hardware locks (spec/12, R586 to R597). Whether a hart or a host sees a
channel is computed from its FULL bit when the interrupt state is read (R609, R674). -/

namespace Sys2Proof.Machine
open Sys2Proof

/-- Sender and receiver of a channel. -/
def State.mbxSender (s : State) (c : Nat) : Nat := s.fld (A.MBX_BIND c) F.MBX_BIND.SENDER
def State.mbxReceiver (s : State) (c : Nat) : Nat := s.fld (A.MBX_BIND c) F.MBX_BIND.RECEIVER

/-- A channel is bound (R586). -/
def State.mbxBound (s : State) (c : Nat) : Bool := s.mbxSender c != 0 && s.mbxReceiver c != 0

/-- A channel holds an unacknowledged message. -/
def State.mbxFull (s : State) (c : Nat) : Bool := s.flag (A.MBX_STATUS c) F.MBX_STATUS.FULL

/-- FULL at the start of the TRV cycle, which decides every access of that cycle (R587). -/
def State.mbxWasFull (s : State) (c : Nat) : Bool := s.fldBefore (A.MBX_STATUS c) F.MBX_STATUS.FULL == 1

/-- A write of a message word (Table 12.4). -/
def State.mbxMsgWrite (s : State) (m c w : Nat) (v : Word) : State :=
  let a := A.MBX_MSG c w
  s.guardReg m a fun s =>
    if !s.mbxBound c ∨ m ≠ s.mbxSender c then s.busErr m a true cPerm
    else if s.mbxWasFull c then (s.inc (A.MBX_REJ_CNT c)).busErr m a true cPerm
    else s.wr a v

/-- A ring of a bound channel by its sender (Table 12.4, R590). With FULL at 1 it merges; where an ACK of the same cycle has
cleared FULL and its flags, they stay clear (R588). -/
def State.mbxRing (s : State) (c : Nat) : State :=
  let a := A.MBX_STATUS c
  let was := s.mbxWasFull c
  let s := s.inc (A.MBX_RING_CNT c)
  if was then (if s.mbxFull c then s.setf a F.MBX_STATUS.MERGED 1 else s)
  else
    let s := (s.noteBefore (s.mbxSender c) a).setf a F.MBX_STATUS.FULL 1
    let r := s.mbxReceiver c
    if 0x10 ≤ r ∧ r < 0x28 then s.neBell (r - 0x10) (2 ^ (c % 32)) else s

/-- An acknowledgement clears FULL with its flags; with FULL at 0 it has no effect (Table 12.4). -/
def State.mbxAck (s : State) (c : Nat) : State :=
  if s.mbxWasFull c then ((s.noteBefore (s.mbxReceiver c) (A.MBX_STATUS c)).wr (A.MBX_STATUS c) 0).validMbx c else s

/-- A write of a doorbell with its RING and ACK bits: each is obeyed from the master it belongs to; a write that is
neither receives an error response (R587). -/
def State.mbxDbWrite (s : State) (m c : Nat) (v : Word) : State :=
  let a := A.MBX_DB c
  s.guardReg m a fun s =>
    let ring := decide (fget F.MBX_DB.RING v = 1) && m == s.mbxSender c
    let ack := decide (fget F.MBX_DB.ACK v = 1) && m == s.mbxReceiver c
    if !s.mbxBound c ∨ (!ring ∧ !ack) then s.busErr m a true cPerm
    else
      let s := if ring then s.mbxRing c else s
      if ack then s.mbxAck c else s

/-- MBX_MSG_WRITE (R587). -/
def execMbxMsgWrite (m : Byte) (c : Fin 64) (w : Fin 8) (v : Word) (s : State) : Host.Outcome State Fault Refusal :=
  .next (s.mbxMsgWrite m.toNat c w v)

/-- MBX_RING (R587, R588): a write of RING = 1; `ack` is a master whose ACK falls in the same TRV cycle. FULL at the
start of the cycle decides both: with FULL at 1 the ring is counted as merged and FULL ends at 0. -/
def execMbxRing (m : Byte) (c : Fin 64) (ack : Option Byte) (s : State) : Host.Outcome State Fault Refusal :=
  let s := s.mbxDbWrite m.toNat c 1
  match ack with
  | none => .next s
  | some r => .next (s.mbxDbWrite r.toNat c 2)

/-- MBX_ACK (R587): a write of ACK = 1. -/
def execMbxAck (m : Byte) (c : Fin 64) (s : State) : Host.Outcome State Fault Refusal :=
  .next (s.mbxDbWrite m.toNat c 2)

/-- A write of MBX_STATUS: its W1C bits may be cleared by the receiver or the Trivet (R600). -/
def State.mbxStatusWrite (s : State) (m c : Nat) (v : Word) : State :=
  let a := A.MBX_STATUS c
  s.guardReg m a fun s =>
    if m = trivet ∨ (s.mbxBound c ∧ m = s.mbxReceiver c) then s.plainWrite a v else s.busErr m a true cPerm

/-- A write of a binding; one that would change a locked binding is refused (R586). -/
def State.mbxBindWrite (s : State) (m c : Nat) (v : Word) : State :=
  let a := A.MBX_BIND c
  s.guardReg m a fun s =>
    if s.flag A.MBX_BIND_LOCK F.MBX_BIND_LOCK.LOCK then
      if fget F.MBX_BIND.SENDER v = s.mbxSender c ∧ fget F.MBX_BIND.RECEIVER v = s.mbxReceiver c then s
      else s.busErr m a true cLock
    else s.plainWrite a v

/-- MBX_BIND_WRITE (R586). -/
def execMbxBindWrite (m : Byte) (c : Fin 64) (v : Word) (s : State) : Host.Outcome State Fault Refusal :=
  .next (s.mbxBindWrite m.toNat c v)

/-- A write of MBX_BIND_LOCK, by the Trivet only (Table 12.9). -/
def State.mbxBindLockWrite (s : State) (m : Nat) (v : Word) : State :=
  let a := A.MBX_BIND_LOCK
  s.guardReg m a fun s => if m = trivet then s.plainWrite a v else s.busErr m a true cTrv

/-- MBX_BIND_LOCK_SET (R586). -/
def execMbxBindLockSet (m : Byte) (s : State) : Host.Outcome State Fault Refusal :=
  .next (s.mbxBindLockWrite m.toNat 1)

/-- Owner of a lock, 0 when it is free. -/
def State.lockOwner (s : State) (k : Nat) : Nat := s.fld (A.MBX_LOCK k) F.MBX_LOCK.OWNER

/-- The value a reader of a lock receives, given the owner after the cycle. -/
def lockValue (owner m : Nat) : Nat := if owner = m then 0 else owner

/-- One cycle of reads of lock k (R595): a free lock goes to the lowest reading master. -/
def State.lockReads (s : State) (k : Nat) (readers : List Nat) : State :=
  let owner0 := s.lockOwner k
  let owner := if owner0 = 0 then readers.foldl (fun o m => if o = 0 ∨ m < o then m else o) 0 else owner0
  let s := s.wrn (A.MBX_LOCK k) owner
  readers.foldl (fun s m => (s.ok (lockValue owner m)).emit (.answer m (lockValue owner m))) s

/-- MBX_LOCK_READ (R595): the masters that read lock k in one TRV cycle. -/
def execMbxLockRead (k : Fin 32) (readers : List Byte) (s : State) : Host.Outcome State Fault Refusal :=
  .next (s.lockReads k ((readers.map fun b => b.toNat).filter fun m => s.presented m (A.MBX_LOCK k)))

/-- A write of lock k (R596). -/
def State.lockWrite (s : State) (m k : Nat) : State :=
  let a := A.MBX_LOCK k
  s.guardReg m a fun s =>
    if (s.lockOwner k ≠ 0 ∧ m = s.lockOwner k) ∨ m = trivet then s.wr a 0 else s.busErr m a true cPerm

/-- MBX_LOCK_WRITE (R596). -/
def execMbxLockWrite (m : Byte) (k : Fin 32) (s : State) : Host.Outcome State Fault Refusal :=
  .next (s.lockWrite m.toNat k)

/-- A post of a Needle (R589): words and ring in one cycle, or discarded whole while FULL is 1. -/
def State.mbxPost (s : State) (c : Nat) (words : List Nat) : State :=
  if s.mbxWasFull c then s.inc (A.MBX_REJ_CNT c) else (s.wrWords (A.MBX_MSG c 0) words).mbxRing c

/-- Masters for which `f` holds are reset: flags of their channels and the locks they own (R591, R597). -/
def State.mastersReset (s : State) (f : Nat → Bool) : State :=
  let s := (List.range 64).foldl (fun s c =>
    if s.mbxFull c then
      let s := if f (s.mbxReceiver c) then s.setf (A.MBX_STATUS c) F.MBX_STATUS.RX_EPOCH_CHANGED 1 else s
      if f (s.mbxSender c) then s.setf (A.MBX_STATUS c) F.MBX_STATUS.SENDER_RESET 1 else s
    else s) s
  (List.range 32).foldl (fun s k =>
    let o := s.lockOwner k
    if o ≠ 0 ∧ f o then
      (s.wr (A.MBX_LOCK k) 0).wrn A.MBX_LOCK_BROKEN (s.rdn A.MBX_LOCK_BROKEN ||| 2 ^ k)
    else s) s

end Sys2Proof.Machine
end

