-- ==== Sys2Proof/Machine/KcpCore.lean ====
section
/-! DEFINITION. Transports, sessions and replies of the Kalet Command Protocol (spec/14, R634 to R651, R659 to R661,
R664, R671 to R673). -/

namespace Sys2Proof.Machine
open Sys2Proof

/-! ### Transports and sessions -/

/-- The half of a transport; UDP belongs to none (Table 14.1). -/
def trHalf (t : Nat) : Option Half :=
  if t = 0 ∨ t = 2 ∨ t = 4 then some .k else if t = 1 ∨ t = 3 then some .p else none

def State.tport (s : State) (t : Nat) : Transport := storeGet Transport.init s.kcp.tports t
def State.putTport (s : State) (t : Nat) (x : Transport) : State :=
  { s with kcp := { s.kcp with tports := storePut Transport.init s.kcp.tports t x } }

/-- The key of a session: 16 × transport + number. -/
def sessKey (t n : Nat) : Nat := 16 * t + n

/-- An open session. -/
def State.session (s : State) (t n : Nat) : Option Session := storeFind s.kcp.sess (sessKey t n)
def State.putSession (s : State) (t n : Nat) (x : Session) : State :=
  { s with kcp := { s.kcp with sess := storeInsert s.kcp.sess (sessKey t n) x } }
def State.closeSession (s : State) (t n : Nat) : State :=
  { s with kcp := { s.kcp with sess := storeErase s.kcp.sess (sessKey t n) } }

/-- A session that opens as OPERATOR, with key slot `slot` (R646). -/
def Session.opened (slot now : Nat) : Session :=
  { safety := false, proved := 0, last := now, nonce := none, slot := slot, rxSeq := 0, txSeq := 0 }

/-- Loss of SAFETY (R650). -/
def Session.operator (x : Session) : Session := { x with safety := false, proved := 0 }

/-! ### Ring descriptors (Table 14.8) -/

/-- A ring descriptor as the host sees it. -/
def State.ringDesc (s : State) (h k : Nat) : RingDesc := storeGet RingDesc.init s.kcp.desc (32 * h + k)

/-! ### Byte streams (R664) -/

/-- The bytes that each FIFO holds. -/
def fifoBytes : Nat := 4096

def State.stream (s : State) (t : Nat) : ByteStream := storeGet ByteStream.init s.kcp.streams t

/-- The status register of a byte-stream transport. -/
def tstatOf (t : Nat) : Nat := if t = 2 then A.QH_TSTAT 0 else if t = 3 then A.QH_TSTAT 1 else A.LB_TSTAT 0

/-- The FIFOs of a transport replaced, and its status register with them. -/
def State.putStream (s : State) (t : Nat) (x : ByteStream) : State :=
  let s := { s with kcp := { s.kcp with streams := storePut ByteStream.init s.kcp.streams t x } }
  let s := s.setf (tstatOf t) F.QH_TSTAT.CMD_SPACE (fifoBytes - x.cmd.length)
  s.setf (tstatOf t) F.QH_TSTAT.RSP_BYTES (min fifoBytes x.rsp.length)

/-- Replies that wait for room enter the reply FIFO whole, in completion order; one longer than the FIFO enters when the
FIFO is empty (R664). -/
def State.fillStream (s : State) (t : Nat) : List (Nat × Nat × List Byte) → State
  | [] => s
  | (u, k, bs) :: rest =>
    if u = t then
      let x := s.stream t
      if x.rsp.length + bs.length ≤ fifoBytes ∨ x.rsp = [] then
        let s := { s with kcp := { s.kcp with ready := s.kcp.ready.erase (u, k, bs) } }
        (s.putStream t { x with rsp := x.rsp ++ bs }).fillStream t rest
      else s
    else s.fillStream t rest

/-! ### Replies (R636, R651, R659, R661, R673) -/

/-- A packet: header, data, CRC-32C (R636). -/
def packet (op tag sess status : Nat) (data : List Byte) : List Byte :=
  let body := [0x4B#8, 0x43#8, 0x01#8, 0x00#8] ++ leBytes 2 op ++ leBytes 2 tag ++ leBytes 4 data.length ++
    leBytes 2 sess ++ leBytes 2 status ++ data
  body ++ leBytes 4 (crc32c body)

/-- The one's complement sum of 16-bit big-endian words. -/
def onesSum : List Byte → Nat
  | [] => 0
  | [b] => b.toNat * 256
  | a :: b :: bs => a.toNat * 256 + b.toNat + onesSum bs

/-- The Internet checksum of a sum. -/
def foldSum (n : Nat) : Nat :=
  let m := n % 65536 + n / 65536
  let m := m % 65536 + m / 65536
  65535 - m % 65536

/-- The key words of a MAC slot or of slot 15 (Table 17.3). -/
def State.keyWords (s : State) (slot : Nat) : List Nat :=
  let base := if slot = 15 then 238 else 190 + 8 * (slot - 4)
  (List.range 8).map fun i => (s.fuse (base + i)).getD 0

/-- The CMAC of bytes under a key slot, 16 bytes. -/
def State.cmac (s : State) (slot : Nat) (bs : List Byte) : List Byte := beBytes 16 (cmac256 (s.keyWords slot) bs)

/-- The six bytes of KCP_MAC of a half. -/
def State.kcpMac (s : State) (h : Half) : List Byte :=
  leBytes 4 (s.rdn (A.KCP_MAC_LO h.n)) ++ leBytes 2 (s.fld (A.KCP_MAC_HI h.n) F.KCP_MAC_HI.ADDR)

/-- The reply datagram of a packet, from KCP_MAC, KCP_IP and port 51724 to the origin of the command (R671, R673). -/
def State.udpFrame (s : State) (o : UdpFrom) (seq slot sess : Nat) (pkt : List Byte) : List Byte :=
  let h := halfOf o.half
  let ip := s.rdn (A.KCP_IP h.n)
  let body := leBytes 2 sess ++ [BitVec.ofNat 8 slot, 0#8] ++ leBytes 8 seq ++ pkt
  let load := body ++ s.cmac slot body
  let ulen := 8 + load.length
  let head0 := [0x45#8, BitVec.ofNat 8 Config.ipTos] ++ beBytes 2 (20 + ulen) ++ beBytes 2 (Config.ipIdent seq) ++
    beBytes 2 Config.ipFlags ++ [BitVec.ofNat 8 Config.ipTtl, 17#8]
  let addrs := beBytes 4 ip ++ beBytes 4 o.ip
  let head := head0 ++ beBytes 2 (foldSum (onesSum (head0 ++ addrs))) ++ addrs
  let udp0 := beBytes 2 51724 ++ beBytes 2 o.udp ++ beBytes 2 ulen
  let sum := foldSum (onesSum (addrs ++ [0#8, 17#8] ++ beBytes 2 ulen ++ udp0 ++ [0#8, 0#8] ++ load))
  beBytes 6 o.mac ++ s.kcpMac h ++ [0x08#8, 0x00#8] ++ head ++ udp0 ++ beBytes 2 (if sum = 0 then 65535 else sum) ++ load

/-- A frame of the endpoint of a plane enters the plane by direct mask to a port; a plane in reset sends nothing (R673). -/
def State.kcpFrame (s : State) (h : Half) (port : Nat) (bs : List Byte) : State :=
  if s.running h then
    s.mapPlane h fun x => { x with inq := x.inq ++
      [{ ingress := 10, bytes := bs, stamp := s.raw, cls := 0, mask := 2 ^ port, colour := 0, seq := none, engine := none }] }
  else s

/-- Where a reply goes: transport, session, key slot and sequence number for UDP, ring slot for PCIe, origin for UDP. -/
structure ReplyTo where
  tr : Nat
  sess : Nat
  slot : Nat
  origin : Option UdpFrom
  deriving DecidableEq, Repr

/-- A packet handed to its transport: a ring slot takes it when KCP_SLOT_REPLY comes, a stream through its reply FIFO, UDP
as a datagram with the session's own sequence number. -/
def State.handReply (s : State) (r : ReplyTo) (pkt : List Byte) : State :=
  let s := { s with kcp := { s.kcp with ready := if r.tr ≤ 4 then s.kcp.ready ++ [(r.tr, r.slot, pkt)] else s.kcp.ready } }
  if r.tr ≤ 1 then s
  else if r.tr ≤ 4 then (s.emit (.reply r.tr pkt)).fillStream r.tr s.kcp.ready
  else
    let s := s.emit (.reply r.tr pkt)
    match r.origin with
    | none => s
    | some o =>
      match s.session 5 r.sess with
      | none => s
      | some x =>
        let s := s.putSession 5 r.sess { x with txSeq := x.txSeq + 1 }
        s.kcpFrame (halfOf o.half) o.port (s.udpFrame o (x.txSeq + 1) x.slot r.sess pkt)

/-- Status codes of Table 14.4. -/
def stOk : Nat := 0
def stBadCrc : Nat := 1
def stBadVersion : Nat := 2
def stBadLength : Nat := 3
def stUnknown : Nat := 4
def stBadParam : Nat := 5
def stTagBusy : Nat := 6
def stTooMany : Nat := 7
def stTimeout : Nat := 8
def stNotAuth : Nat := 9
def stRoleHeld : Nat := 0xA
def stAuthFail : Nat := 0xB
def stAuthLocked : Nat := 0xC
def stNoSession : Nat := 0xD
def stRspSpace : Nat := 0xE
def stBadState : Nat := 0x10
def stHalfOff : Nat := 0x11
def stNotStandby : Nat := 0x12
def stInProbation : Nat := 0x13
def stLocked : Nat := 0x14
def stPstateRefused : Nat := 0x15
def stBucketFull : Nat := 0x20
def stEntryExists : Nat := 0x21
def stGateCfg : Nat := 0x22
def stDomainOwned : Nat := 0x23
def stProfileLimit : Nat := 0x24
def stHookWord : Nat := 0x25
def stOverwritten : Nat := 0x26
def stNotFound : Nat := 0x27
def stBusError : Nat := 0x30
def stWriteLost : Nat := 0x31
def stDataErr : Nat := 0x32

/-- The destination of a command's reply. -/
def KCmd.replyTo (c : KCmd) : ReplyTo := ⟨c.tr, c.sess, c.slot, c.origin⟩

/-- An outstanding command, by transport and tag. -/
def State.kcmd (s : State) (t tag : Nat) : Option KCmd := s.kcp.cmds.find? fun c => c.tr = t ∧ c.tag = tag

/-- The outstanding commands with one replaced. -/
def State.putKcmd (s : State) (c : KCmd) : State :=
  { s with kcp := { s.kcp with cmds := s.kcp.cmds.map fun d => if d.tr = c.tr ∧ d.tag = c.tag then c else d } }

/-- A command ends: it leaves the outstanding ones, and its reply is handed to its transport unless it is muted; while
TRIVET_LOST is asserted nothing is sent (R644, R645). -/
def State.finish (s : State) (c : KCmd) (status : Nat) (data : List Byte) : State :=
  let s := { s with kcp := { s.kcp with cmds := s.kcp.cmds.filter fun d => !(d.tr == c.tr && d.tag == c.tag) } }
  let s := s.validCommand c.tr
  if c.mute ∨ s.trivetLost then s
  else s.handReply c.replyTo (packet (c.op + 0x8000) c.tag c.sess status data)

/-! ### Up and down -/

/-- A transport comes up: session 0 opens as OPERATOR on transports 0 to 4 (R646). -/
def State.transportUp (s : State) (t : Nat) : State :=
  if (s.tport t).up then s
  else
    let s := s.putTport t { s.tport t with up := true }
    if t ≤ 4 then s.putSession t 0 (Session.opened 0 s.now) else s

/-- A transport goes down: commands that have not committed are dropped, the replies of the others discarded, its session
loses SAFETY and ends, its FIFOs are emptied, and its ring slots are no longer in progress (R644, R650). -/
def State.transportDown (s : State) (t : Nat) : State :=
  if (s.tport t).up then
    let s := s.putTport t { s.tport t with up := false }
    let s := s.closeSession t 0
    let s := { s with kcp := { s.kcp with
      cmds := (s.kcp.cmds.filter fun c => c.tr ≠ t || c.committed).map fun c => if c.tr = t then { c with mute := true } else c
      ready := s.kcp.ready.filter fun r => r.1 ≠ t } }
    if 2 ≤ t ∧ t ≤ 4 then s.putStream t { ByteStream.init with eaddr := (s.stream t).eaddr } else if t ≤ 1 then s.wr (A.KCP_BUSY t) 0 else s
  else s

/-- A UDP session closes: its commands are handled as those of a transport that goes down (R644). -/
def State.closeUdp (s : State) (n : Nat) : State :=
  let s := s.closeSession 5 n
  { s with kcp := { s.kcp with
    cmds := (s.kcp.cmds.filter fun c => !(c.tr == 5 && c.sess == n) || c.committed).map fun c =>
      if c.tr = 5 ∧ c.sess = n then { c with mute := true } else c } }

/-- Every session loses SAFETY by a lifecycle transition: UDP sessions that held it close (R650, R760). -/
def State.dropSafety (s : State) : State :=
  s.kcp.sess.foldl (fun s e =>
    if e.2.safety then
      if e.1 / 16 = 5 then s.closeUdp (e.1 % 16) else s.putSession (e.1 / 16) (e.1 % 16) e.2.operator
    else s) s

end Sys2Proof.Machine
end

