-- ==== Sys2Proof/Machine/Keys.lean ====
section
/-! DEFINITION. Key slots, signatures and anti-rollback counters (spec/17, R755 to R768; spec/04, R201, R202). -/

namespace Sys2Proof.Machine
open Sys2Proof

/-- A little-endian field of bytes. -/
def u (b : List Byte) (off n : Nat) : Nat := leNat (slice b off n)

/-- The attribute word of slot k is programmed; a revocation mark names the slot (Tables 17.3, 17.4). -/
def State.slotProg (s : State) (k : Nat) : Bool :=
  if k = 15 then true else decide (k < 10) && (s.fuse (124 + k)).any fun v => v / 65536 == 0x4B53
def State.slotRevoked (s : State) (k : Nat) : Bool :=
  (List.range 4).any fun j => (s.fuse (134 + j)).any fun v => v / 65536 == 0x5256 && v % 16 == k

/-- A slot is usable in the lifecycle state in force (R765). -/
def State.slotUsable (s : State) (k : Nat) : Bool :=
  s.lc != 4 && (if k = 15 then decide (s.lc ≤ 1) else s.slotProg k && !s.slotRevoked k)

/-- USE of a slot (Table 17.4). -/
def State.slotUse (s : State) (k : Nat) : Nat := (s.fuse (124 + k)).getD 0 % 256

/-- A MAC slot has the role SAFETY, or OPERATOR or SAFETY; slot 15 has SAFETY (R765), and is the only one to give it in
BLANK (Table 17.1). -/
def State.slotSafety (s : State) (k : Nat) : Bool :=
  s.slotUsable k && (k == 15 || (decide (4 ≤ k ∧ k ≤ 9) && s.slotUse k == 2 && s.lc != 0))
def State.slotRole (s : State) (k : Nat) : Bool :=
  s.slotUsable k && (k == 15 || (decide (4 ≤ k ∧ k ≤ 9) && (s.slotUse k == 1 || s.slotUse k == 2)))

/-- The 49 bytes of signing slot j (Table 17.3). -/
def State.signKey (s : State) (j : Nat) : List Byte :=
  ((List.range 13).flatMap fun w => leBytes 4 ((s.fuse (138 + 13 * j + w)).getD 0)).take 49

/-- The 48 bytes of a SHA-384 digest. -/
def digestBytes (d : Nat) : List Byte := beBytes 48 d

/-- The key that a KEY_ID names, with its slot or ROM number (R767). -/
def State.keyOf (s : State) (id : List Byte) : Option (Nat × List Byte) :=
  let n := byteAt id 0
  let k := if n < 4 then some (s.signKey n) else if n = 0xE0 ∨ n = 0xE1 then some (Config.romKey n) else none
  k.bind fun k => if id.drop 1 = (digestBytes (sha384 k)).take 15 then some (n, k) else none

/-- A key may sign images of a kind (0 application images, 1 Recipes, 2 Trivet patches) in the state in force; `rid` is a
Recipe's RECIPE_ID (Table 17.1, R756, R765). -/
def State.maySign (s : State) (n kind rid : Nat) : Bool :=
  if n = 0xE0 then s.lc != 4 && kind == 2
  else if n = 0xE1 then s.lc != 4 && kind == 1 && decide (0x100 ≤ rid ∧ rid ≤ 0x1FF)
  else kind != 2 && s.lc != 0 && s.slotUsable n && bitAt (s.slotUse n) kind

/-- The signature block of an image verifies with a key permitted for its kind (R201, R202). -/
def State.signed (s : State) (kind rid : Nat) (img : List Byte) : Bool :=
  let body := img.take (img.length - 112)
  let sig := img.drop (img.length - 112)
  match s.keyOf (sig.take 16) with
  | none => false
  | some (n, k) => s.maySign n kind rid && ecdsaOk k (sha384 body) (sig.drop 16)

/-- The value of anti-rollback counter k (R764). -/
def State.rollback (s : State) (k : Nat) : Nat :=
  (List.range 8).foldl (fun v i => max v ((s.fuse (100 + 8 * k + i)).getD 0)) 0

/-- The unique identifier, fuse words 0 to 3. -/
def State.uid (s : State) : List Byte := (List.range 4).flatMap fun w => leBytes 4 ((s.fuse w).getD 0)

end Sys2Proof.Machine
end

