-- ==== Sys2Proof/Machine/KcpTable.lean ====
section
/-! DEFINITION. The opcodes of the Kalet Command Protocol, with role, timeout, parameter length, target half and longest
reply (spec/14, Table 14.5, R651, R652, R661), and how a command's execution acts and replies. -/

namespace Sys2Proof.Machine
open Sys2Proof

/-! ### The table -/

/-- The role an opcode requires: O, S and S* (R652). -/
inductive Role where
  | any
  | safety
  | target
  deriving DecidableEq, Repr

/-- A row of Table 14.5: opcode, role, whether its default timeout is 2 000 ms, the parameter length that it takes, the
target half where its parameters name one, and the longest reply data (an error's data included). -/
structure OpRow where
  op : Nat
  role : Role
  slow : Bool
  len : List Byte → Nat
  half : List Byte → Option Half
  max : List Byte → Nat

/-- The half with a number, if the number is below `n` units of `per` in each half. -/
def numHalf (per v : Nat) : Option Half := if v < 2 * per then some (unitHalf v per) else none

/-- The target half by the forms of R652: none, H, NE, the NE of NE_LOAD, CH, HK, and PORT of TSC_CFG. -/
def noHalf (_ : List Byte) : Option Half := none
def hHalf (p : List Byte) : Option Half := numHalf 1 (byteAt p 0)
def neHalf (p : List Byte) : Option Half := numHalf 12 (byteAt p 0)
def loadHalf (p : List Byte) : Option Half := numHalf 12 (byteAt p 2)
def chHalf (p : List Byte) : Option Half := numHalf 4 (byteAt p 0)
def hookParam (p : List Byte) : Option Half := numHalf 8 (byteAt p 0)
def tsHalf (p : List Byte) : Option Half := numHalf 9 (byteAt p 0)

/-- The length of QOS_CFG by its KIND (R656). -/
def qosLen (p : List Byte) : Nat :=
  match byteAt p 1 with
  | 0 => 12
  | 1 => 8
  | 2 => 24
  | 3 => 20
  | _ => p.length

/-- The length of KEY_LOAD: no key to revoke a slot or to program PERM_OFF, 49 bytes for a signing slot, 40 for a MAC slot
(R766). -/
def keyLen (p : List Byte) : Nat :=
  let k := byteAt p 0
  if byteAt p 1 = 0xFF ∨ k = 0xFE then 2 else if k < 4 then 51 else if k < 10 then 42 else p.length

/-- Opcode group 0x00. -/
def opsGeneral : List OpRow :=
  [⟨0x0001, .any, false, fun _ => 0, noHalf, fun _ => 14⟩,
   ⟨0x0002, .any, false, fun _ => 0, noHalf, fun _ => 16⟩,
   ⟨0x0003, .any, false, fun _ => 12, noHalf, fun p => 4 * min 256 (u p 8 4)⟩,
   ⟨0x0004, .safety, false, fun p => 12 + 4 * u p 8 4, noHalf, fun _ => 5⟩,
   ⟨0x0005, .any, false, fun _ => 12, noHalf, fun p => min 65536 (u p 8 4)⟩,
   ⟨0x0006, .safety, false, fun p => 12 + u p 8 4, noHalf, fun _ => 5⟩,
   ⟨0x0007, .safety, false, fun _ => 3, noHalf, fun _ => 4⟩,
   ⟨0x0008, .any, false, fun _ => 0, noHalf, fun _ => 2⟩,
   ⟨0x0009, .any, false, fun _ => 0, noHalf, fun _ => 16⟩,
   ⟨0x000A, .any, false, fun _ => 17, noHalf, fun _ => 4⟩,
   ⟨0x000B, .any, false, fun _ => 0, noHalf, fun _ => 0⟩,
   ⟨0x000C, .any, false, fun _ => 0, noHalf, fun _ => 0⟩,
   ⟨0x000D, .any, false, fun _ => 6, noHalf, fun p => 32 * min 256 (u p 4 2)⟩,
   ⟨0x000E, .safety, false, fun _ => 0, noHalf, fun _ => 0⟩]

/-- Opcode group 0x01. -/
def opsImage : List OpRow :=
  [⟨0x0101, .any, false, fun _ => 6, noHalf, fun _ => 4⟩,
   ⟨0x0102, .any, false, fun p => max 7 (min 65542 p.length), noHalf, fun _ => 4⟩,
   ⟨0x0103, .safety, true, fun _ => 2, noHalf, fun _ => 48⟩,
   ⟨0x0104, .any, false, fun _ => 2, noHalf, fun _ => 0⟩,
   ⟨0x0105, .target, false, fun _ => 3, loadHalf, fun _ => 4⟩,
   ⟨0x0106, .target, false, fun _ => 2, neHalf, fun _ => 5⟩,
   ⟨0x0107, .target, false, fun _ => 1, neHalf, fun _ => 4⟩,
   ⟨0x0108, .any, false, fun _ => 1, neHalf, fun _ => 48⟩,
   ⟨0x0109, .target, false, fun p => max 1 p.length, neHalf, fun _ => 4⟩]

/-- Opcode group 0x02. -/
def opsPort : List OpRow :=
  [⟨0x0201, .target, false, fun _ => 16, hHalf, fun _ => 5⟩,
   ⟨0x0202, .target, false, fun _ => 11, hHalf, fun _ => 5⟩,
   ⟨0x0203, .any, false, fun _ => 2, hHalf, fun _ => 136⟩,
   ⟨0x0204, .target, false, fun _ => 4, hHalf, fun _ => 5⟩,
   ⟨0x0205, .target, false, fun _ => 6, hHalf, fun _ => 5⟩,
   ⟨0x0206, .target, false, fun _ => 10, hHalf, fun _ => 5⟩,
   ⟨0x0207, .target, false, fun _ => 5, hHalf, fun _ => 5⟩,
   ⟨0x0208, .target, false, fun _ => 25, chHalf, fun _ => 5⟩,
   ⟨0x0209, .target, false, fun p => 3 + 8 * byteAt p 2, chHalf, fun _ => 5⟩]

/-- Opcode group 0x03. -/
def opsSwitch : List OpRow :=
  [⟨0x0301, .target, false, fun _ => 17, hHalf, fun _ => 5⟩,
   ⟨0x0302, .target, false, fun _ => 19, hHalf, fun _ => 5⟩,
   ⟨0x0303, .target, false, fun _ => 3, hHalf, fun _ => 5⟩,
   ⟨0x0304, .any, false, fun _ => 5, hHalf, fun p => 16 * min 4096 (u p 3 2)⟩,
   ⟨0x0305, .target, false, fun p => qosLen p, hHalf, fun _ => 5⟩,
   ⟨0x0306, .target, false, fun p => 21 + 8 * u p 3 2, hHalf, fun _ => 8⟩,
   ⟨0x0307, .target, false, fun _ => 30, hHalf, fun _ => 5⟩]

/-- Opcode group 0x04. -/
def opsGauge : List OpRow :=
  [⟨0x0401, .safety, false, fun _ => 2, noHalf, fun _ => 5⟩,
   ⟨0x0402, .safety, false, fun _ => 5, noHalf, fun _ => 5⟩,
   ⟨0x0403, .safety, false, fun _ => 31, noHalf, fun _ => 8⟩,
   ⟨0x0404, .safety, false, fun _ => 21, noHalf, fun _ => 5⟩,
   ⟨0x0405, .any, false, fun _ => 5, noHalf, fun _ => 5⟩,
   ⟨0x0406, .safety, false, fun p => max 3 p.length, noHalf, fun _ => 4⟩,
   ⟨0x0407, .any, false, fun _ => 1, noHalf, fun _ => Config.ptpReplyMax⟩,
   ⟨0x0408, .target, false, fun _ => 9, tsHalf, fun _ => 5⟩]

/-- Opcode group 0x05. -/
def opsDtt : List OpRow :=
  [⟨0x0501, .target, false, fun _ => 2, chHalf, fun _ => 4⟩,
   ⟨0x0502, .target, false, fun _ => 17, chHalf, fun _ => 5⟩,
   ⟨0x0503, .target, false, fun _ => 2, chHalf, fun _ => 5⟩,
   ⟨0x0504, .any, false, fun _ => 5, chHalf, fun p => 44 + 12 * min 1023 (u p 3 2)⟩,
   ⟨0x0505, .safety, false, fun _ => 129, chHalf, fun _ => 5⟩]

/-- Opcode group 0x06. -/
def opsWake : List OpRow :=
  [⟨0x0601, .safety, false, fun _ => 2, noHalf, fun _ => 4⟩,
   ⟨0x0602, .safety, false, fun _ => 17, noHalf, fun _ => 5⟩,
   ⟨0x0603, .any, false, fun _ => 2, noHalf, fun _ => 5⟩,
   ⟨0x0604, .any, false, fun _ => 23, noHalf, fun _ => 5⟩,
   ⟨0x0605, .safety, false, fun _ => 6, noHalf, fun _ => 5⟩,
   ⟨0x0606, .safety, false, fun _ => 30, noHalf, fun _ => 5⟩,
   ⟨0x0607, .any, false, fun _ => 1, noHalf, fun _ => 1024⟩,
   ⟨0x0608, .any, false, fun _ => 1, noHalf, fun _ => 5⟩]

/-- Opcode group 0x07. -/
def opsHook : List OpRow :=
  [⟨0x0701, .target, false, fun p => 2 + 2 * byteAt p 1, hookParam, fun _ => 5⟩,
   ⟨0x0702, .target, false, fun _ => 29, hookParam, fun _ => 5⟩,
   ⟨0x0703, .target, false, fun _ => 3, hookParam, fun _ => 5⟩,
   ⟨0x0704, .target, false, fun _ => 6, hHalf, fun _ => 5⟩]

/-- Opcode group 0x08. -/
def opsMem : List OpRow :=
  [⟨0x0801, .safety, false, fun _ => 19, hHalf, fun _ => 5⟩,
   ⟨0x0802, .safety, false, fun _ => 4, noHalf, fun _ => 5⟩,
   ⟨0x0803, .safety, true, fun _ => 1, hHalf, fun _ => 9⟩,
   ⟨0x0804, .safety, false, fun _ => 2, noHalf, fun _ => 5⟩]

/-- Opcode group 0x09. -/
def opsLarder : List OpRow :=
  [⟨0x0901, .safety, false, fun _ => 112, noHalf, fun _ => 5⟩,
   ⟨0x0902, .any, false, fun _ => 0, noHalf, fun _ => 8⟩,
   ⟨0x0903, .safety, false, fun _ => 0, noHalf, fun _ => 0⟩,
   ⟨0x0904, .any, false, fun _ => 7, noHalf, fun p => 4096 * min 16 (u p 5 2)⟩,
   ⟨0x0905, .any, false, fun _ => 6, noHalf, fun p => min 65536 (192 * u p 4 2)⟩]

/-- Opcode group 0x0A. -/
def opsCharge : List OpRow :=
  [⟨0x0A01, .any, false, fun _ => 0, noHalf, fun _ => 20⟩,
   ⟨0x0A02, .safety, false, fun _ => 1, noHalf, fun _ => 8⟩,
   ⟨0x0A03, .safety, false, fun _ => 1, noHalf, fun _ => 4⟩,
   ⟨0x0A04, .safety, false, fun _ => 0, noHalf, fun _ => 8⟩,
   ⟨0x0A05, .safety, false, fun _ => 20, noHalf, fun _ => 5⟩,
   ⟨0x0A06, .safety, false, fun _ => 64, noHalf, fun _ => 5⟩,
   ⟨0x0A07, .safety, false, fun p => 2 + 32 * byteAt p 1, noHalf, fun _ => 5⟩,
   ⟨0x0A08, .safety, false, fun _ => 2, noHalf, fun _ => 5⟩,
   ⟨0x0A09, .safety, false, fun _ => 1, noHalf, fun _ => 5⟩,
   ⟨0x0A0A, .any, false, fun _ => 1, noHalf, fun _ => 144⟩,
   ⟨0x0A0B, .safety, false, fun p => 2 + 144 * byteAt p 1, noHalf, fun _ => 4⟩]

/-- Opcode group 0x0B. -/
def opsSecurity : List OpRow :=
  [⟨0x0B01, .any, false, fun _ => 0, noHalf, fun _ => 9⟩,
   ⟨0x0B02, .safety, false, fun _ => 17, noHalf, fun _ => 4⟩,
   ⟨0x0B03, .safety, false, fun p => keyLen p, noHalf, fun _ => 4⟩,
   ⟨0x0B04, .safety, false, fun _ => 9, noHalf, fun _ => 5⟩,
   ⟨0x0B05, .safety, false, fun _ => 0, noHalf, fun _ => 0⟩,
   ⟨0x0B06, .safety, false, fun _ => 5, noHalf, fun _ => 4⟩,
   ⟨0x0B07, .safety, false, fun _ => 1, noHalf, fun _ => 4⟩,
   ⟨0x0B08, .safety, false, fun _ => 17, noHalf, fun _ => 4⟩]

/-- Table 14.5. -/
def kcpOps : List OpRow :=
  opsGeneral ++ opsImage ++ opsPort ++ opsSwitch ++ opsGauge ++ opsDtt ++ opsWake ++ opsHook ++ opsMem ++ opsLarder ++ opsCharge ++ opsSecurity


/-- The row of an opcode. -/
def opRow (op : Nat) : Option OpRow := kcpOps.find? fun r => r.op = op

/-! ### A command that executes -/

/-- The command of a transport and tag acts, if it has the opcode, has started, and its timer has not expired before its
commit point; nothing acts while TRIVET_LOST is asserted (R640, R641, R645). -/
def State.onCmd (s : State) (t tag op : Nat) (f : State → KCmd → State) : State :=
  match s.kcmd t tag with
  | none => s
  | some c =>
    if c.op = op ∧ c.started ∧ !s.trivetLost ∧ (c.committed ∨ s.now ≤ c.deadline) then f s c else s

/-- A reply without data, and OK with data. -/
def State.say (s : State) (c : KCmd) (status : Nat) : State := s.finish c status []
def State.okData (s : State) (c : KCmd) (data : List Byte) : State := s.finish c stOk data

/-- BAD_PARAM with the byte offset of the parameter (Table 14.4). -/
def State.badParam (s : State) (c : KCmd) (off : Nat) : State := s.finish c stBadParam (leBytes 4 off)

/-- The effect `f` of a command whose parameters are in range: each check names the offset of its parameter. -/
def State.checked (s : State) (c : KCmd) (cs : List (Bool × Nat)) (f : State → State) : State :=
  match cs.find? fun x => !x.1 with
  | some x => s.badParam c x.2
  | none => f s

end Sys2Proof.Machine
end

