-- ==== Sys2Proof/Machine/KcpUdp.lean ====
section
/-! DEFINITION. Which frames at SP10 the UDP endpoint of a plane takes (spec/14, R670). -/

namespace Sys2Proof.Machine
open Sys2Proof

/-- The offset of the UDP header behind an IPv4 header at offset 14. -/
def udpOff (bs : List Byte) : Nat := 14 + byteAt bs 14 % 16 * 4

/-- Bytes of a big-endian field. -/
def beAt (bs : List Byte) (off n : Nat) : Nat := beNat (slice bs off n)

/-- Bits 12 to 0 and 13 of the flags and fragment offset: an IPv4 datagram is a fragment. -/
def ipFragment (bs : List Byte) : Bool := be16At bs 20 % 0x4000 != 0

/-- An untagged IPv4 frame to an address that carries UDP to port 51724; a fragment that is not the first carries no port. -/
def udpTo (ip : Nat) (bs : List Byte) : Bool :=
  be16At bs 12 == 0x0800 && byteAt bs 14 / 16 == 4 && decide (5 ≤ byteAt bs 14 % 16) && byteAt bs 23 == 17 &&
  beAt bs 30 4 == ip && (be16At bs (udpOff bs + 2) == 51724 || be16At bs 20 % 0x2000 != 0)

/-- An untagged ARP request for an address. -/
def arpFor (ip : Nat) (bs : List Byte) : Bool :=
  be16At bs 12 == 0x0806 && slice bs 14 8 == [0#8, 1#8, 8#8, 0#8, 6#8, 4#8, 0#8, 1#8] && beAt bs 38 4 == ip

/-- The endpoint of a plane is active. -/
def State.udpOn (s : State) (h : Half) : Bool := s.flag (A.KCP_UDP_CTRL h.n) F.KCP_UDP_CTRL.EN

/-- The endpoint of a plane takes this frame as a datagram, or as an ARP request. -/
def State.takesUdp (s : State) (h : Half) (bs : List Byte) : Bool := s.udpOn h && udpTo (s.rdn (A.KCP_IP h.n)) bs
def State.takesArp (s : State) (h : Half) (bs : List Byte) : Bool := s.udpOn h && arpFor (s.rdn (A.KCP_IP h.n)) bs

/-- The endpoint of a plane takes the frame of a copy handed to SP10. -/
def State.kcpTakes (s : State) (h : Half) (q : PCopy) : Bool :=
  q.outp == 10 && (let bs := s.redLeave h q q.bytes; s.takesUdp h bs || s.takesArp h bs)

end Sys2Proof.Machine
end

