-- ==== Sys2Proof/Machine/Plane.lean ====
section
/-! DEFINITION. The commands of the switch planes (spec/07) and the dispatch of SP9 (spec/03, R178). -/

namespace Sys2Proof.Machine
open Sys2Proof

/-! ### Precision time messages (R438) -/

/-- Where the PTP header of a frame begins, and the offset of its IPv4 UDP checksum, or that it is carried over
IPv6: 0 Ethernet, 1 IPv4, 2 IPv6. -/
def ptpAt (bs : List Byte) : Option (Nat × Nat × Nat) :=
  let e := etherOff bs
  let ip := e + 2
  let typ := be16At bs e
  if typ = 0x88F7 then some (ip, 0, 0)
  else if typ = 0x0800 ∧ byteAt bs (ip + 9) = 17 then
    let u := ip + byteAt bs ip % 16 * 4
    if be16At bs (u + 2) = 319 then some (u + 8, 1, u + 6) else none
  else if typ = 0x86DD ∧ byteAt bs (ip + 6) = 17 ∧ be16At bs (ip + 42) = 319 then some (ip + 48, 2, ip + 46)
  else none

/-- A PTP event frame's header offset (R438). -/
def ptpEvent (bs : List Byte) : Option Nat :=
  match ptpAt bs with
  | some (o, _, _) => if byteAt bs o % 16 ≤ 3 then some o else none
  | none => none

/-- A PTP event frame writes its entry into the receive or transmit ring of its port (R438); `t` is the corrected
timestamp in eighths of a tick. -/
def State.ptpRing (s : State) (p : Nat) (rx : Bool) (t : Nat) (bs : List Byte) : State :=
  match ptpEvent bs with
  | none => s
  | some o =>
    let g := p / 12 * 9 + p % 12
    let cnt := if rx then A.GAUGE_TS_RX_CNT g else A.GAUGE_TS_TX_CNT g
    let n := s.rdn cnt
    let slot := if rx then A.GAUGE_TS_RX_RING g (n % 16) 0 else A.GAUGE_TS_TX_RING g (n % 16) 0
    let w2 := be16At bs (o + 30) * 2 ^ 16 + byteAt bs (o + 4) * 2 ^ 8 + byteAt bs o % 16 * 16 + t % 8
    (s.wrWords slot [t / 8 % 2 ^ 32, t / 8 / 2 ^ 32 % 2 ^ 32, w2, n]).inc cnt

/-! ### Ingress -/

/-- The plane has taken a frame of an external port: it is counted, and a PTP event frame enters the receive ring (Table 6.2,
R438). -/
def State.rxTaken (s : State) (p : Nat) (f : InFrame) : State :=
  ((s.rxCount p f.bytes f.ended).ptpRing p true (8 * f.stamp + f.phase) f.bytes).validFrame p f.bytes

/-- PLANE_FRAME_INGRESS (R347): the oldest frame that waits at an ingress port is offered to the plane. On an external port that
is check 7 of Table 6.2: the frame is delivered and counted, or discarded and counted in RX_OVERFLOW (R277, R278). On SP9, SP10
and SP11 a frame that the buffer cannot take goes on waiting (R366), and they count what the plane receives (R294). -/
def execPlaneFrameIngress (h : Half) (p : Fin 12) (s : State) : Host.Outcome State Fault Refusal :=
  let x := s.plane h
  match x.inq.find? fun f => f.ingress = p.val with
  | none => .next s
  | some f =>
    let s1 := s.putPlane h { x with inq := x.inq.eraseP fun f => f.ingress = p.val }
    match s1.planeIngress h f with
    | (s2, .taken) =>
      .next (if p.val < 9 then s2.rxTaken (portNo h p) f else s2.rxCount (portNo h p) f.bytes s2.raw)
    | (s2, .refused) => .next (if p.val < 9 then s2.macCntAt (portNo h p) 13 1 f.ended else s)

/-- TWIN_WINDOW_CLOSE (R396, case 4): the oldest held copies whose window has closed t_SETTLE ago leave as lone. -/
def execTwinWindowClose (h : Half) (s : State) : Host.Outcome State Fault Refusal :=
  let x := s.plane h
  let w := s.fld (A.SW_TWIN h.n) F.SW_TWIN.WIN_US * usTicks
  match x.dup.find? fun d => d.held ≠ [] ∧ d.s1 + w + 4 * usTicks ≤ s.raw with
  | none => .next s
  | some d =>
    let s := s.putPlane h { x with dup := dupSet x.dup { d with hold := false, held := [] } }
    .next (((s.release h d.held 4 d.s1).inc (A.SW_TWIN_LONE h.n)))

/-- DUP_ENTRY_AGE (R390): entries older than SW_DUP_AGE are freed. -/
def execDupEntryAge (h : Half) (s : State) : Host.Outcome State Fault Refusal :=
  let age := s.fld (A.SW_DUP_AGE h.n) F.SW_DUP_AGE.AGE * msTicks
  .next (s.mapPlane h fun x => x.dupAlive s.now age)

/-! ### Scheduling (R372 to R374) -/

/-- The time in nanoseconds that a frame of `n` bytes takes on a port: preamble, SFD, padding and FCS included
(R379). -/
def frameNs (mbps n : Nat) : Nat := ((max n 60 + 12) * 8 * 1000 + mbps - 1) / mbps

/-- The head copy of VOQ(i, o, c): the oldest with these keys. -/
def Plane.head (x : Plane) (i o c : Nat) : Option PCopy :=
  x.voq.find? fun q => q.inp = i ∧ q.outp = o ∧ q.cls = c

/-- A head frame that is longer than every open interval of its class is discarded and counted (R381). -/
def State.gateDiscard (s : State) (h : Half) : State :=
  let x := s.plane h
  let bad := fun (q : PCopy) => q.moved = 0 && s.gated h q.outp && x.head q.inp q.outp q.cls == some q &&
    decide (longestOpen q.cls (s.operCycle h q.outp) (s.gateList h q.outp) 0 <
      frameNs (s.portMbps h q.outp) (s.redLeave h q q.bytes).length)
  let out := x.voq.filter bad
  let s := s.putPlane h { x with voq := x.voq.filter fun q => !bad q }
  (out.foldl (fun s q => s.inc (A.SWQ_GATE_OVERSIZE h.n (8 * q.outp + q.cls))) s).showAll h out

/-- The copy that an output is sending, if one. -/
def Plane.sending (x : Plane) (o : Nat) : Option PCopy := x.voq.find? fun q => q.outp = o ∧ 0 < q.moved

/-- VOQ(i, o, c) is eligible (R372, R378 to R380): a pause holds it, but not for a dead link (R283, R285), and so does an
active inline pair that has the output (R184). -/
def State.eligible (s : State) (h : Half) (i o c : Nat) : Bool :=
  let x := s.plane h
  match x.head i o c with
  | none => false
  | some q =>
    let room := decide ((x.fifo.filter fun e => e.1 = o ∧ s.now < e.2).length < 2)
    room && match x.sending o with
      | some b => b == q
      | none =>
        !(o < 9 && ((s.txOpen (portNo h o) && s.flag (A.MAC_STATUS (portNo h o)) F.MAC_STATUS.PAUSED) || s.inlinePort h o)) &&
        (!s.gated h o || decide (frameNs (s.portMbps h o) (s.redLeave h q q.bytes).length ≤ s.openNow h o c))

/-- All eligible VOQs as (input, output, class). -/
def State.eligibles (s : State) (h : Half) : List (Nat × Nat × Nat) :=
  let keys := (s.plane h).voq.map fun q => (q.inp, q.outp, q.cls)
  keys.eraseDups.filter fun k => s.eligible h k.1 k.2.1 k.2.2

/-- The member of a list of port numbers that comes first at or after a pointer, in rotation over 12 ports. -/
def rotFirst (ptr : Nat) (xs : List Nat) : Option Nat :=
  xs.foldl (fun best x => match best with
    | none => some x
    | some b => if (x + 12 - ptr) % 12 < (b + 12 - ptr) % 12 then some x else some b) none

/-- The pointers and the matches of a scheduling round. -/
structure Sched where
  grantPtr : List (Nat × Nat)
  acceptPtr : List (Nat × Nat)
  matched : List (Nat × Nat × Nat)
  deriving DecidableEq, Repr

/-- Grants of one iteration: each unmatched output with requests grants the first requesting input, in rotation,
of the highest class requested (R373). -/
def schedGrants (el : List (Nat × Nat × Nat)) (st : Sched) (busyI busyO : List Nat) : List (Nat × Nat × Nat) :=
  (List.range 12).filterMap fun o =>
    if busyO.contains o ∨ st.matched.any (fun m => m.2.1 = o) then none
    else
      let req := el.filter fun k => k.2.1 = o ∧ !busyI.contains k.1 ∧ !st.matched.any (fun m => m.1 = k.1)
      if req = [] then none
      else
        let c := req.foldl (fun c k => max c k.2.2) 0
        let ins := (req.filter fun k => k.2.2 = c).map fun k => k.1
        (rotFirst (storeGet 0 st.grantPtr (8 * o + c)) ins).map fun i => (i, o, c)

/-- Each unmatched input accepts the first granting output in rotation; in the first iteration the pointers move
past the pair (R373). -/
def schedAccept (first : Bool) (grants : List (Nat × Nat × Nat)) (st : Sched) : Sched :=
  (List.range 12).foldl (fun st i =>
    let outs := (grants.filter fun g => g.1 = i).map fun g => g.2.1
    match rotFirst (storeGet 0 st.acceptPtr i) outs with
    | none => st
    | some o =>
      let c := ((grants.find? fun g => g.1 = i ∧ g.2.1 = o).map fun g => g.2.2).getD 0
      let st := { st with matched := st.matched ++ [(i, o, c)] }
      if first then
        let gp := storePut 0 st.grantPtr (8 * o + c) ((i + 1) % 12)
        { st with grantPtr := gp, acceptPtr := storePut 0 st.acceptPtr i ((o + 1) % 12) }
      else st) st

/-- Three iterations of request, grant and accept (R373). -/
def schedMatch (el : List (Nat × Nat × Nat)) (busyI busyO : List Nat) (st : Sched) : Sched :=
  let one := fun (first : Bool) (st : Sched) => schedAccept first (schedGrants el st busyI busyO) st
  one false (one false (one true st))

/-- The bytes of a copy's next cell; the first cell carries 16 bytes of metadata. -/
def cellBytes (q : PCopy) : Nat :=
  min 256 (q.bytes.length + 16 - 256 * q.moved)

/-- The instant at which a cell put into output o's transmit FIFO has left it. -/
def State.fifoEnd (s : State) (h : Half) (o n : Nat) : Nat :=
  let last := (s.plane h).fifo.foldl (fun t e => if e.1 = o then max t e.2 else t) s.now
  last + (n * 8 * 500 + s.portMbps h o - 1) / s.portMbps h o

/-- One cell of a matched pair moves to the transmit FIFO; with its last cell the copy's cells are freed and the
egress holds the frame (R364, R374). -/
def State.moveCell (s : State) (h : Half) (m : Nat × Nat × Nat) : State :=
  let x := s.plane h
  match x.head m.1 m.2.1 m.2.2 with
  | none => s
  | some q =>
    let fifo := (x.fifo.filter fun e => s.now < e.2) ++ [(m.2.1, s.fifoEnd h m.2.1 (cellBytes q))]
    if q.moved + 1 < q.cells then
      s.putPlane h { x with voq := x.voq.replace q { q with moved := q.moved + 1 }, fifo := fifo }
    else
      let done := x.handed ++ [{ q with moved := q.cells }]
      (s.putPlane h { x with voq := x.voq.erase q, fifo := fifo, handed := done }).planeShow h q.inp q.outp q.cls

/-- The read port serves matched cells in ascending output order from its start position, 32 bytes in each of the 8
`SW` clocks of the round; cells it does not reach stay matched (R374). -/
def State.serveCells (s : State) (h : Half) : List (Nat × Nat × Nat) → Nat → State
  | [], _ => s
  | m :: ms, clocks =>
    match (s.plane h).head m.1 m.2.1 m.2.2 with
    | none => s.serveCells h ms clocks
    | some q =>
      let need := (cellBytes q + 31) / 32
      if need ≤ clocks then (s.moveCell h m).serveCells h ms (clocks - need)
      else s.mapPlane h fun x => { x with unread := m :: ms }

/-- Matches in the order of service from a start position. -/
def serviceOrder (start : Nat) (ms : List (Nat × Nat × Nat)) : List (Nat × Nat × Nat) :=
  (List.range 12).flatMap fun k => ms.filter fun m => m.2.1 = (start + k) % 12

/-- SCHEDULING_ROUND (R373). -/
def execSchedulingRound (h : Half) (s : State) : Host.Outcome State Fault Refusal :=
  let s := s.gateDiscard h
  let x := s.plane h
  let busyI := x.unread.map fun m => m.1
  let busyO := x.unread.map fun m => m.2.1
  let st := schedMatch (s.eligibles h) busyI busyO ⟨x.grantPtr, x.acceptPtr, []⟩
  let all := serviceOrder x.readPos (x.unread ++ st.matched)
  let pos := (x.readPos + 1) % 12
  let s := s.putPlane h { x with grantPtr := st.grantPtr, acceptPtr := st.acceptPtr, unread := [], readPos := pos }
  .next (s.serveCells h all 8)

/-! ### Meters and averages -/

/-- METER_REFILL (R357): every bucket receives a microsecond's tokens at its rate; PIR below CIR counts as CIR. -/
def execMeterRefill (h : Half) (s : State) : Host.Outcome State Fault Refusal :=
  let refill := fun (e : Nat × (Nat × Nat)) =>
    let cir := s.fld (A.MTR_CIR h.n e.1) F.MTR_CIR.RATE
    let pir := max cir (s.fld (A.MTR_PIR h.n e.1) F.MTR_PIR.RATE)
    (e.1, (min e.2.1 (s.fld (A.MTR_CBS h.n e.1) F.MTR_CBS.SIZE * 125) - cir,
           min e.2.2 (s.fld (A.MTR_PBS h.n e.1) F.MTR_PBS.SIZE * 125) - pir))
  let x := s.plane h
  .next (s.putPlane h { x with meter := (x.meter.map refill).filter fun e => e.2 ≠ (0, 0) })

/-- AVG of account a after an update, in 1/256 cells (R368). -/
def avgNext (w avg depth : Nat) : Nat :=
  ((avg : Int) + ((depth * 256 : Nat) - (avg : Int)) / (2 ^ w : Nat)).toNat

/-- SIEVE_AVG_UPDATE (R368): the average depth of every account. -/
def execSieveAvgUpdate (h : Half) (s : State) : Host.Outcome State Fault Refusal :=
  .next ((List.range 96).foldl (fun s a =>
    let x := s.plane h
    let v := avgNext (s.fld (A.SWQ_SIEVE h.n a) F.SWQ_SIEVE.W) (storeGet 0 x.avg a) (x.depth (a / 8) (a % 8))
    (s.putPlane h { x with avg := storePut 0 x.avg a v }).setf (A.SWQ_DEPTH h.n a) F.SWQ_DEPTH.AVG (v / 256)) s)

/-! ### Time-aware gates -/

/-- GATE_ENTRY_CHANGE (R378): at an interval boundary or cycle start the entry now in force is shown and acts; a
former set that outlived a commit ends with its cycle (R384). -/
def execGateEntryChange (h : Half) (p : Fin 9) (s : State) : Host.Outcome State Fault Refusal :=
  if s.gated h p then
    let g := s.gate h p
    let t := s.gateNs (s.gateSet h p)
    let held := g.held.filter fun e => decide (s.gateNs e.1 < e.2)
    let started := g.started || decide (g.first ≤ t)
    let s := s.putGate h p { g with held := held, started := started }
    if started then
      .next (s.setf (A.SWG_STATUS h.n p) F.SWG_STATUS.CUR
        (gateEntry (s.operCycle h p) (s.gateList h p) 0 (s.gateOff h p)).1)
    else .next s
  else .next s

/-- A change of EN: the list runs from its first cycle start that is not past (R378, R385). -/
def State.gateEn (s : State) (h : Half) (p : Nat) (was : Bool) : State :=
  if !was ∧ s.gated h p then
    let g := s.gate h p
    let first := cycleStart (s.operBase h p) (s.operCycle h p) (s.gateNs (s.gateSet h p))
    s.putGate h p { g with first := first, started := false, held := none }
  else s

/-- CHANGE = 1 (R382): refused with CFG_ERR for an admin CYCLE outside its range or a length of 0 (R386). -/
def State.gateChange (s : State) (h : Half) (p : Nat) : State :=
  let c := s.adminCycle h p
  if c < 1000 ∨ 999999999 < c ∨ s.fld (A.SWG_CTRL h.n p) F.SWG_CTRL.ADMIN_LEN = 0 then
    s.setf (A.SWG_STATUS h.n p) F.SWG_STATUS.CFG_ERR 1
  else
    let cur := (s.dom (s.fld (A.SWG_CTRL h.n p) F.SWG_CTRL.DOMAIN)).cur
    let at_ := cycleStart (s.adminBase h p) c (s.gateNs cur + 2000)
    (s.putGate h p { s.gate h p with swapAt := some at_ }).setf (A.SWG_STATUS h.n p) F.SWG_STATUS.CHG_PEND 1

/-- A write of SWG_CTRL; a length above 256 is stored as 256. -/
def State.gateCtrlWrite (s : State) (m : Nat) (h : Half) (p : Nat) (v : Word) : State :=
  let a := A.SWG_CTRL h.n p
  s.guardReg m a fun s =>
    let was := s.flag a F.SWG_CTRL.EN
    let s := s.plainWrite a v
    let s := if 256 < s.fld a F.SWG_CTRL.ADMIN_LEN then s.setf a F.SWG_CTRL.ADMIN_LEN 256 else s
    let s := s.gateEn h p was
    if fget F.SWG_CTRL.CHANGE v = 1 then s.gateChange h p else s

/-- GATE_CHANGE_REQUEST (R382): a write of SWG_CTRL with CHANGE = 1. -/
def execGateChangeRequest (m : Byte) (h : Half) (p : Fin 9) (v : Word) (s : State) :
    Host.Outcome State Fault Refusal :=
  .next (s.gateCtrlWrite m.toNat h p (fput F.SWG_CTRL.CHANGE v 1))

/-- SWG_EN_WRITE (R385): a write of SWG_CTRL that leaves CHANGE at 0. -/
def execSwgEnWrite (m : Byte) (h : Half) (p : Fin 9) (v : Word) (s : State) : Host.Outcome State Fault Refusal :=
  .next (s.gateCtrlWrite m.toNat h p (fput F.SWG_CTRL.CHANGE v 0))

/-- GATE_BANK_SWAP (R382): at the admin cycle start the admin bank, with its base, cycle and length, becomes
operational, and the bank formerly operational becomes the admin bank. -/
def execGateBankSwap (h : Half) (p : Fin 9) (s : State) : Host.Outcome State Fault Refusal :=
  let g := s.gate h p
  let cur := (s.dom (s.fld (A.SWG_CTRL h.n p) F.SWG_CTRL.DOMAIN)).cur
  match g.swapAt with
  | none => .next s
  | some t =>
    if s.gateNs cur < t then .next s
    else
      let c := A.SWG_CTRL h.n p
      let s := s.setf c F.SWG_CTRL.OPER (1 - s.fld c F.SWG_CTRL.OPER)
      let s := s.wr (A.SWG_O_BASE_SEC_LO h.n p) (s.rd (A.SWG_A_BASE_SEC_LO h.n p))
      let s := s.wr (A.SWG_O_BASE_SEC_HI h.n p) (s.rd (A.SWG_A_BASE_SEC_HI h.n p))
      let s := s.wr (A.SWG_O_BASE_NS h.n p) (s.rd (A.SWG_A_BASE_NS h.n p))
      let s := s.wr (A.SWG_O_CYCLE h.n p) (s.rd (A.SWG_A_CYCLE h.n p))
      let st := A.SWG_STATUS h.n p
      let s := s.setf st F.SWG_STATUS.OPER_LEN (s.fld c F.SWG_CTRL.ADMIN_LEN)
      let s := (s.setf st F.SWG_STATUS.CHG_PEND 0).setf st F.SWG_STATUS.CUR 0
      .next (s.putGate h p { swapAt := none, first := t, started := true, held := none })

/-- SW_BUF_LOW_RESET (R344): any 1 bit written to SW_BUF_FREE.LOW sets LOW to FREE. -/
def State.bufLowWrite (s : State) (m : Nat) (h : Half) (v : Word) : State :=
  let a := A.SW_BUF_FREE h.n
  s.guardReg m a fun s =>
    if fget F.SW_BUF_FREE.LOW v = 0 then s else s.setf a F.SW_BUF_FREE.LOW (s.fld a F.SW_BUF_FREE.FREE)

def execSwBufLowReset (m : Byte) (h : Half) (v : Word) (s : State) : Host.Outcome State Fault Refusal :=
  .next (s.bufLowWrite m.toNat h v)

/-! ### Delivery to the Needles -/

/-- SP9_DISPATCH (R178): the oldest frame delivered to SP9 is written into the receive staging of every engine of
its Needle mask in one pass; an engine that cannot stage it drops it alone (R179). -/
def execSp9Dispatch (h : Half) (s : State) : Host.Outcome State Fault Refusal :=
  let x := s.plane h
  match x.handed.find? fun q => q.outp = 9 with
  | none => .next s
  | some q =>
    let s := s.putPlane h { x with handed := x.handed.erase q }
    let bs := s.redLeave h q q.bytes
    let s := (List.range 12).foldl (fun s k =>
      if bitAt q.needle k then s.neStage (12 * h.n + k) q.inp (1 + q.status) q.flow q.stamp bs else s) s
    .next (s.txCount (portNo h 9) bs bs.length)

end Sys2Proof.Machine
end

