-- ==== Sys2Proof/Machine/Mac.lean ====
section
/-! DEFINITION. The commands of the MACs: receiving, sending, PAUSE, link status and period statistics (spec/06, R262
to R304), with the timestamp rings and one-step rewriting (spec/08, R434 to R439). Ports are numbered 12 × half +
switch port. -/

namespace Sys2Proof.Machine
open Sys2Proof

/-! ### Link status -/

/-- Drops what port p is sending, its oldest frame handed over, else the copy whose cells are on their way, if one is in
transmission (R284): not while TX_EN is 0, nor a frame that has not begun (R283, R285). -/
def State.txAbort (s : State) (p : Nat) : State :=
  let h := unitHalf p 12
  let o := p % 12
  let x := s.plane h
  if !s.flag (A.MAC_CTRL p) F.MAC_CTRL.TX_EN ∨ (s.txHeld p ∧ !(s.port p).begun) ∨ s.inlinePort h o then s
  else
    let s := s.mapPort p fun x => { x with begun := false }
    match x.handed.find? fun q => q.outp = o with
    | some q => (s.putPlane h { x with handed := x.handed.erase q }).macCnt p 21 1
    | none =>
      match x.voq.find? fun q => q.outp = o ∧ 0 < q.moved with
      | some q =>
        ((s.putPlane h { x with voq := x.voq.erase q }).macCnt p 21 1).planeShow h q.inp q.outp q.cls
      | none => s

/-- The LINK and LINK_CHG bits of the physical layer of port p, where its registers have them (Tables 6.21, 6.23). -/
def State.phyLink (s : State) (p : Nat) (up : Bool) : State :=
  let n := p % 12
  if n < 4 then
    let a := A.SD_STATUS (p / 12 * 4 + n)
    (s.setb a F.SD_STATUS.LINK up).setf a F.SD_STATUS.LINK_CHG 1
  else if n < 8 then
    let a := A.TL_STATUS (p / 12 * 4 + (n - 4))
    (s.setb a F.TL_STATUS.LINK up).setf a F.TL_STATUS.LINK_CHG 1
  else s

/-- The link of an external port goes up or down (R279, R280, R284). -/
def State.macLink (s : State) (p : Nat) (up : Bool) : State :=
  let a := A.MAC_STATUS p
  if s.flag a F.MAC_STATUS.LINK = up then s
  else
    let s := if up then s else (s.macCnt p 23 1).txAbort p
    let s := (s.setb a F.MAC_STATUS.LINK up).setf a F.MAC_STATUS.LINK_CHG 1
    let s := s.phyLink p up
    let s := s.neStatusPort (unitHalf p 12) (p % 12)
    s.netEvent p (b2n up)

/-! ### One-step messages (R439) -/

/-- A time of a set at a count of eighths of a tick, in units of 2^-16 ns (R413, R439). -/
def DomSet.atEighths (d : DomSet) (t : Nat) : Int :=
  let e : Int := (t : Int) - 8 * d.anchor
  d.base + e * 16384 + (e * d.rate) / 17179869184

/-- A Sync message that leaves a port, rewritten in one step (R439); one over IPv6 is counted instead. -/
def State.oneStep (s : State) (p t : Nat) (bs : List Byte) : List Byte × State :=
  let g := p / 12 * 9 + p % 12
  let c := A.GAUGE_TSC_CTRL g
  match ptpAt bs with
  | none => (bs, s)
  | some (o, form, sum) =>
    if p % 12 < 4 ∧ s.flag c F.GAUGE_TSC_CTRL.ONESTEP ∧ byteAt bs o % 16 = 0 ∧ !bitAt (byteAt bs (o + 6)) 1 then
      if form = 2 then (bs, s.inc (A.GAUGE_TS_ONESTEP_SKIP g))
      else
        let d := s.dom (s.fld c F.GAUGE_TSC_CTRL.ONE_DOM)
        let time := timeOf ((d.setAt (t / 8)).atEighths t)
        let corr := (beNat (slice bs (o + 8) 8) + time.frac) % 2 ^ 64
        let bs := overlay bs (o + 34) (beBytes 6 time.sec ++ beBytes 4 time.ns)
        let bs := overlay bs (o + 8) (beBytes 8 corr)
        (if form = 1 then overlay bs sum [0, 0] else bs, s)
    else (bs, s)

/-! ### PAUSE -/

/-- Ticks of a number of quanta at a port's speed, 512 bit times each (R285). -/
def quantaTicks (mbps q : Nat) : Nat := (q * 512 * 500 + mbps - 1) / mbps

/-- A received PAUSE frame of `q` quanta (R285, R286, R288). -/
def State.pauseRx (s : State) (p q : Nat) : State :=
  if s.flag (A.MAC_CTRL p) F.MAC_CTRL.PAUSE_RX_EN then
    let mbps := s.portMbps (unitHalf p 12) (p % 12)
    let s := if q = 0 then s else s.txMark p
    let s := s.mapPort p fun x => { x with pauseEnd := s.now + quantaTicks mbps q }
    s.setb (A.MAC_STATUS p) F.MAC_STATUS.PAUSED (q ≠ 0)
  else s

/-- PAUSE_EXPIRY (R285): the pause time of a port has run out. -/
def execPauseExpiry (p : Fin 24) (s : State) : Host.Outcome State Fault Refusal :=
  if s.flag (A.MAC_STATUS p) F.MAC_STATUS.PAUSED ∧ (s.port p).pauseEnd ≤ s.now then
    .next (s.setf (A.MAC_STATUS p) F.MAC_STATUS.PAUSED 0)
  else .next s

/-! ### Receiving -/

/-- The address filter (R273, R274), by the entries as they were before a write of the same `SW` clock (R275). -/
def State.macFilter (s : State) (p : Nat) (bs : List Byte) : Bool :=
  let c := A.MAC_CTRL p
  let hit := fun (lo hi : Nat → Nat) => (List.range 8).any fun k =>
    let v := s.rdBefore (hi k)
    bitAt v 31 && addrOf bs 0 == s.rdBefore (lo k) + 2 ^ 32 * (v % 2 ^ 16)
  if castOf bs = 2 then s.flag c F.MAC_CTRL.BCAST_EN
  else if !s.flag c F.MAC_CTRL.FILTER_EN then true
  else if castOf bs = 0 then hit (A.MAC_UC_LO p) (A.MAC_UC_HI p)
  else hit (A.MAC_MC_LO p) (A.MAC_MC_HI p)

/-- A copy to port o of a half could leave by cut-through: the conditions of R375, on a port that may begin a frame now (R283,
R285, R289, R337). -/
def State.cutThrough (s : State) (h : Half) (f : InFrame) (d : Fwd) (o maxLen : Nat) : Bool :=
  let x := s.plane h
  !(x.voq.any fun q => q.outp = o) && !(x.handed.any fun q => q.outp = o) &&
  s.txOpen (portNo h o) && !s.txHeld (portNo h o) &&
  decide (s.portMbps h o ≤ s.portMbps h f.ingress) && d.meter.isNone && d.red == 0 && s.redRole h o == 0 &&
  (!s.gated h o || decide (frameNs (s.portMbps h o) maxLen ≤ s.openNow h o d.cls))

/-- Near-end loop of a SerDes lane: frames sent return to the receive side (Table 6.9). -/
def State.nearLoop (s : State) (p : Nat) : Bool :=
  decide (p % 12 < 4) && !s.flag (A.SD_CTRL (p / 12 * 4 + p % 12)) F.SD_CTRL.PRBS_EN &&
  s.fld (A.SD_CTRL (p / 12 * 4 + p % 12)) F.SD_CTRL.LOOP == 1

/-- A cut-through copy of a bad frame ends on the line with an inverted FCS, counted in SWP_CT_BAD alone (R376, item 1); in
near-end loop its port receives it, and finds it too long or its FCS wrong (Table 6.2). -/
def State.cutEnd (s : State) (p : Nat) (bs : List Byte) : State :=
  let s := s.inc (A.SWP_CT_BAD (p / 12) (p % 12))
  if s.nearLoop p then s.macCnt p (if s.fld (A.MAC_CTRL p) F.MAC_CTRL.MAX_LEN < bs.length then 10 else 7) 1
  else s.emitField (unitHalf p 12) (.frame p (bs ++ leBytes 4 (crc32 bs ^^^ 0xFFFFFFFF)))

/-- The copy of a bad frame to port o: when it could leave by cut-through, the Sieve and the limits take its first cell, and it
ends bad; otherwise it was not begun and is discarded (R375, R376). -/
def State.cutCopy (s : State) (h : Half) (f : InFrame) (d : Fwd) (maxLen o : Nat) : State :=
  if bitAt d.egress o ∧ o ≠ f.ingress ∧ !s.inlinePort h o ∧ s.cutThrough h f d o maxLen then
    (copiesFor f d 0 none (2 ^ o)).foldl (fun s q =>
      match s.sieve h q with
      | (none, s) => s
      | (some q, s) =>
        if s.fits h { q with cells := 1 } then s.cutEnd (portNo h o) q.bytes
        else s.inc (A.SWQ_DROP_LIMIT h.n (8 * o + q.cls))) s
  else s

/-- A bad frame that is longer than its first cell ends its cut-through copies on SP0 to SP8; the receivers on the other outputs
discard it (R270, R376). A MAC control frame or a frame that the address filter stops never reached the plane (R272, R273). -/
def State.cutBad (s : State) (p : Nat) (bs : List Byte) (stamp : Nat) : State :=
  let h := unitHalf p 12
  let f : InFrame := ⟨p % 12, bs, stamp, 0, 0, 0, none, none, 0, s.raw⟩
  if bs.length ≤ 240 ∨ s.inlinePort h (p % 12) ∨ be16At bs 12 = 0x8808 ∨ !s.macFilter p bs then s
  else match s.fwdDecide h f with
  | none => s
  | some d => (List.range 9).foldl (fun s o => s.cutCopy h f d (s.fld (A.MAC_CTRL p) F.MAC_CTRL.MAX_LEN) o) s

/-- A frame that passed checks 1 to 6: it waits to be offered to the plane, which decides check 7 (PLANE_FRAME_INGRESS). The ports
of an inline pair deliver to their engine instead, and count it here (R184). -/
def State.macDeliver (s : State) (p : Nat) (bs : List Byte) (t : Nat) : State :=
  let h := unitHalf p 12
  let f : InFrame := ⟨p % 12, bs, t / 8, 0, 0, 0, none, none, t % 8, s.raw⟩
  if s.inlinePort h (p % 12) then (s.rxCount p bs s.raw).ptpRing p true t bs
  else s.mapPlane h fun x => { x with inq := x.inq ++ [f] }

/-- A frame received by the MAC of port p, checked in the order of Table 6.2 (R267 to R278). A frame that meets a link that is
down did not keep its link (check 1). -/
def State.macRx (s : State) (p : Nat) (bs : List Byte) (codeErr linkLost fcsOk : Bool) (capture : Nat) : State :=
  let c := A.MAC_CTRL p
  let maxLen := s.fld c F.MAC_CTRL.MAX_LEN
  let t := s.stamp (unitHalf p 12) (p % 12) true capture
  if bs = [] ∨ !s.flag c F.MAC_CTRL.RX_EN then s
  else if linkLost ∨ !s.flag (A.MAC_STATUS p) F.MAC_STATUS.LINK then (s.macCnt p 11 1).cutBad p bs (t / 8)
  else if codeErr then (s.macCnt p 8 1).cutBad p bs (t / 8)
  else if bs.length < 60 then s.macCnt p 9 1
  else if maxLen < bs.length then (s.macCnt p 10 1).cutBad p (bs.take maxLen) (t / 8)
  else if !fcsOk then (s.macCnt p 7 1).cutBad p bs (t / 8)
  else if be16At bs 12 = 0x8808 then
    if be16At bs 14 = 1 then (s.macCnt p 5 1).pauseRx p (be16At bs 16) else s.macCnt p 6 1
  else if !s.macFilter p bs then s.macCnt p 12 1
  else s.macDeliver p bs t

/-- The receiver of port p passes what its line brings to the MAC: the lane runs without loop or PRBS test, the TL port or the
RGMII port is enabled (R313, R322, R334, Table 6.9). -/
def State.rxLine (s : State) (p : Nat) : Bool :=
  let n := p % 12
  if n < 4 then
    let c := A.SD_CTRL (p / 12 * 4 + n)
    s.flag c F.SD_CTRL.EN && !s.flag c F.SD_CTRL.PRBS_EN && s.fld c F.SD_CTRL.LOOP % 3 == 0
  else if n < 8 then s.tlEn (p / 12 * 4 + (n - 4)) else n == 8 && s.flag (A.RG_CTRL (p / 12)) F.RG_CTRL.EN

/-- Far-end loop of a SerDes lane: received line data is sent back, retimed (Table 6.9). -/
def State.farLoop (s : State) (p : Nat) : Bool :=
  let c := A.SD_CTRL (p / 12 * 4 + p % 12)
  decide (p % 12 < 4) && s.flag c F.SD_CTRL.EN && !s.flag c F.SD_CTRL.PRBS_EN && s.fld c F.SD_CTRL.LOOP == 2

/-- MAC_FRAME_RECEIVE (R268): a frame ends on the line of an external port; `bytes` runs from the destination
address to the last byte before the FCS, `capture` is its timestamp capture in eighths of a tick. -/
def execMacFrameReceive (p : Fin 24) (bytes : List Byte) (codeErr linkLost fcsOk : Bool) (capture : Nat) (s : State) :
    Host.Outcome State Fault Refusal :=
  if s.farLoop p then
    .next (s.emitField (unitHalf p 12) (.frame p (bytes ++ leBytes 4 (if fcsOk then crc32 bytes else crc32 bytes ^^^ 0xFFFFFFFF))))
  else if p.val % 12 < 9 ∧ (linkLost ∨ s.rxLine p) then .next (s.macRx p bytes codeErr linkLost fcsOk capture) else .next s

/-! ### Sending PAUSE frames -/

/-- The bytes of a PAUSE frame of port p before its FCS (R289). -/
def State.pauseBytes (s : State) (p q : Nat) : List Byte :=
  let sa := leBytes 4 (s.rdn (A.MAC_SA_LO p)) ++ leBytes 2 (s.fld (A.MAC_SA_HI p) F.MAC_SA_HI.ADDR)
  padTo 60 ([0x01, 0x80, 0xC2, 0x00, 0x00, 0x01] ++ sa ++ beBytes 2 0x8808 ++ beBytes 2 1 ++ beBytes 2 q)

/-- A frame with its FCS. -/
def withFcs (bs : List Byte) : List Byte := bs ++ leBytes 4 (crc32 bs)

/-- A frame of the MAC, without its FCS, leaves port p, or returns to its receive side in near-end loop (Table 6.9). -/
def State.lineOut (s : State) (p : Nat) (bs : List Byte) (capture : Nat) : State :=
  if s.nearLoop p then s.macRx p bs false false true capture
  else s.emitField (unitHalf p 12) (.frame p (withFcs bs))

/-- A PAUSE frame leaves a port. -/
def State.pauseSend (s : State) (p q : Nat) : State :=
  (s.macCnt p 19 1).lineOut p (s.pauseBytes p q) (8 * s.raw)

/-- A PAUSE frame of a port may start: at a frame boundary, with TXC running (R289, R337). -/
def State.pauseNow (s : State) (p : Nat) : Bool :=
  s.pauseMay p && !s.txcHeld p && !((s.port p).begun && s.lineBusy p)

/-- PAUSE_FRAME_SEND (R289 to R291): at a frame boundary, the PAUSE frame with quanta 0 that an XON left due, or the first one of
an XOFF. -/
def execPauseFrameSend (p : Fin 24) (s : State) : Host.Outcome State Fault Refusal :=
  let x := s.port p
  if !s.pauseNow p then .next s
  else if x.xonDue then .next ((s.putPort p { x with xonDue := false }).pauseSend p 0)
  else if s.flag (A.MAC_STATUS p) F.MAC_STATUS.XOFF ∧ !x.announced then
    .next ((s.putPort p { x with announced := true, lastPause := s.now }).pauseSend p (s.fld (A.MAC_PAUSE p) F.MAC_PAUSE.QUANTA))
  else .next s

/-- PAUSE_REFRESH (R290, R292): while XOFF holds, the PAUSE frame is repeated every REFRESH quanta. -/
def execPauseRefresh (p : Fin 24) (s : State) : Host.Outcome State Fault Refusal :=
  let x := s.port p
  let q := s.fld (A.MAC_PAUSE p) F.MAC_PAUSE.QUANTA
  let r0 := s.fld (A.MAC_PAUSE p) F.MAC_PAUSE.REFRESH
  let r := if q ≤ r0 then max 1 (q / 2) else r0
  let due := x.lastPause + quantaTicks (s.portMbps (unitHalf p 12) (p.val % 12)) r
  if s.pauseNow p ∧ s.flag (A.MAC_STATUS p) F.MAC_STATUS.XOFF ∧ x.announced ∧ due ≤ s.now then
    .next ((s.putPort p { x with lastPause := s.now }).pauseSend p q)
  else .next s

/-! ### Sending -/

/-- The frame in transmission when a hold began is out; a change of speed now holds TXC low for 1 µs (R285, R337). -/
def State.txEnded (s : State) (p : Nat) : State :=
  s.mapPort p fun x =>
    { x with begun := false, waitEnd := if p % 12 = 8 ∧ x.waitEnd ≠ 0 then s.now + usTicks else x.waitEnd }

/-- A frame of port p, ready but for padding and FCS, leaves (R281, R438, R439). -/
def State.macSend (s : State) (p : Nat) (bs : List Byte) (capture : Nat) : State :=
  let t := s.stamp (unitHalf p 12) (p % 12) false capture
  let bs := padTo (max 60 bs.length) bs
  let s := s.ptpRing p false t bs
  let (bs, s) := s.oneStep p t bs
  ((s.txCount p bs bs.length).txEnded p).lineOut p bs capture

/-- The oldest frame handed to an external port waits: for the end of a pause, of a change of speed or for a PAUSE frame that
goes first, unless it is in transmission already, or while an inline pair has the port (R184, R285, R289, R337). A port whose
frames cannot leave holds none (R283). -/
def State.txWaits (s : State) (p : Nat) : Bool :=
  decide (p % 12 < 9) && s.txOpen p && (s.inlinePort (unitHalf p 12) (p % 12) || (s.txHeld p && !(s.port p).begun))

/-- A frame for SP11 crosses the Tension link, or is discarded while the half's segment is down; a plane whose own segment is down
receives nothing (R294, R399, R400). -/
def State.sp11Send (s : State) (h : Half) (q : PCopy) : State :=
  if s.segUp h then
    let f : InFrame := ⟨11, q.bytes, q.stamp, q.cls, 0, q.colour, q.seq, none, 0, 0⟩
    let s := s.txCount (portNo h 11) q.bytes q.bytes.length
    if s.segUp h.other then s.mapPlane h.other fun x => { x with inq := x.inq ++ [f] } else s
  else s.macCnt (portNo h 11) 20 1

/-- MAC_FRAME_TRANSMIT (R281 to R283): the MAC takes the oldest frame the plane has handed to its port and sends or
discards it; SP10 hands its frame to its receiver, unless the UDP endpoint takes it (R670), SP11 to the other plane. -/
def execMacFrameTransmit (p : Fin 24) (capture : Nat) (s : State) : Host.Outcome State Fault Refusal :=
  let h := unitHalf p 12
  let o := p.val % 12
  let x := s.plane h
  match x.handed.find? fun q => q.outp = o ∧ !s.kcpTakes h q with
  | none => .next s
  | some q =>
    let s1 := s.putPlane h { x with handed := x.handed.erase q }
    let bs := s.redLeave h q q.bytes
    if o = 9 ∨ s.txWaits p then .next s
    else if o = 10 then .next ((s1.txCount p bs bs.length).emit (.sp10 h.n q.stamp bs))
    else if o = 11 then .next (s1.sp11Send h q)
    else if s.fld (A.MAC_CTRL p) F.MAC_CTRL.MAX_LEN < bs.length then .next (s1.macCnt p 22 1)
    else if !s.txOpen p then .next (s1.macCnt p 20 1)
    else .next (s1.macSend p bs capture)

/-! ### Period statistics (R298 to R304) -/

/-- PERIOD_BOUNDARY (R300): the compare event selected in MAC_PER_CTRL.CMP has occurred, and a counted event has not yet made the
port take the boundary. -/
def execPeriodBoundary (p : Fin 24) (s : State) : Host.Outcome State Fault Refusal :=
  match s.perPending p s.raw with
  | some t => .next (s.periodClose p t)
  | none => .next s

/-- A write of MAC_PER_CTRL: EN from 0 to 1 restarts the live counters and SEQ (R303, R304); boundaries are those of the selected
unit from the write on (R298). -/
def State.perCtrlWrite (s : State) (m p : Nat) (v : Word) : State :=
  let a := A.MAC_PER_CTRL p
  s.guardReg m a fun s =>
    let was := s.flag a F.MAC_PER_CTRL.EN
    let cmp := s.fld a F.MAC_PER_CTRL.CMP
    let s := s.plainWrite a v
    let s := if was ∧ s.fld a F.MAC_PER_CTRL.CMP = cmp then s
      else s.mapPort p fun x => { x with bound := storeGet 0 s.gauge.fired (s.fld a F.MAC_PER_CTRL.CMP) }
    if !was ∧ s.flag a F.MAC_PER_CTRL.EN then
      let s := (List.range 8).foldl (fun s j => s.wr (A.MAC_PER_LIVE p j) 0) s
      s.setf (A.MAC_PER_STATUS p) F.MAC_PER_STATUS.SEQ 0
    else s

/-- MAC_PER_CTRL_WRITE (R303). -/
def execMacPerCtrlWrite (m : Byte) (p : Fin 24) (v : Word) (s : State) : Host.Outcome State Fault Refusal :=
  .next (s.perCtrlWrite m.toNat p v)

/-- A write of MAC_CTRL stores a MAX_LEN outside 64 to 9216 as the nearer limit (R267). -/
def State.macCtrlWrite (s : State) (m p : Nat) (v : Word) : State :=
  let a := A.MAC_CTRL p
  s.guardReg m a fun s =>
    let s := s.plainWrite a v
    s.setf a F.MAC_CTRL.MAX_LEN (max 64 (min 9216 (s.fld a F.MAC_CTRL.MAX_LEN)))

end Sys2Proof.Machine
end

