-- ==== Sys2Proof/Machine/Phy.lean ====
section
/-! DEFINITION. The commands of the physical layers: T1L PHYs, SerDes lanes and RGMII ports (spec/06, R305 to R343).
TL ports and lanes are numbered 4 × half + number in the half. -/

namespace Sys2Proof.Machine
open Sys2Proof

/-- The port of TL port p and of lane l, numbered 12 × half + switch port. -/
def tlPort (p : Nat) : Nat := p / 4 * 12 + 4 + p % 4
def sdPort (l : Nat) : Nat := l / 4 * 12 + l % 4

/-- The speed a MAC runs at, as MAC_STATUS.SPEED codes it. -/
def State.macSpeed (s : State) (p v : Nat) : State := s.setf (A.MAC_STATUS p) F.MAC_STATUS.SPEED v

/-- A speed field whose code 0b11 is treated as 0b10. -/
def speed3 (v : Nat) : Nat := if v = 3 then 2 else v

/-! ### T1L PHYs -/

/-- Conditions 1 to 3 of R306: the port permits 2.4 Vpp. -/
def State.tlOwn24 (s : State) (p : Nat) : Bool :=
  let c := A.TL_CTRL p
  !s.simmerLocked p && !s.flag (A.TL_STATUS p) F.TL_STATUS.SIMMER_ACT && s.fld c F.TL_CTRL.APL_PROF < 2 && s.flag c F.TL_CTRL.AMPL_24

/-- The role a TL port advertises: 0 none, 1 leader, 2 follower (R819). -/
def State.tlRole (s : State) (p : Nat) : Nat := s.fld (A.TL_CTRL p) F.TL_CTRL.ROLE % 3

/-- The PHY starts bring-up: auto-negotiation, for which it advertises its base page and drives 1.0 Vpp until 2.4 Vpp is resolved
(R306, R819), or training with the amplitude and role as configured (R307, R310). -/
def State.tlStart (s : State) (p : Nat) : State :=
  let st := A.TL_STATUS p
  let c := A.TL_CTRL p
  let s := s.mapPort (tlPort p) fun x => { x with waitEnd := 0 }
  let s := s.setf st F.TL_STATUS.AN_DONE 0
  if s.flag c F.TL_CTRL.AN_EN then
    let s := (s.setf st F.TL_STATUS.TRAIN 1).setf st F.TL_STATUS.AMPL_ACT 0
    s.emitField (unitHalf p 4) (.page p (s.tlOwn24 p) (s.tlRole p))
  else
    let s := (s.setf st F.TL_STATUS.TRAIN 2).setb st F.TL_STATUS.AMPL_ACT (s.tlOwn24 p)
    s.setb st F.TL_STATUS.LEADER (s.fld c F.TL_CTRL.ROLE = 1)

/-- The PHY is off, with its link down (R310, R313). -/
def State.tlStop (s : State) (p : Nat) : State :=
  let st := A.TL_STATUS p
  let s := s.macLink (tlPort p) false
  let s := s.mapPort (tlPort p) fun x => { x with waitEnd := 0 }
  ((s.setf st F.TL_STATUS.TRAIN 0).setf st F.TL_STATUS.AN_DONE 0).setf st F.TL_STATUS.AMPL_ACT 0

/-- The effect of a write of TL_CTRL (R306, R310 to R318). -/
def State.tlCtrlApply (s : State) (p : Nat) (v : Word) : State :=
  let c := A.TL_CTRL p
  let st := A.TL_STATUS p
  let old := s.rd c
  let lock := s.simmerLocked p
  let s := if lock ∧ (fget F.TL_CTRL.SIMMER v = 0 ∨ fget F.TL_CTRL.AMPL_24 v = 1) then
    s.setf st F.TL_STATUS.SIMMER_REJ 1 else s
  let v := if lock then fput F.TL_CTRL.AMPL_24 (fput F.TL_CTRL.SIMMER v 1) 0 else v
  let s := s.plainWrite c v
  let s := s.setb st F.TL_STATUS.SIMMER_ACT (lock || s.flag c F.TL_CTRL.SIMMER)
  let was := fget F.TL_CTRL.EN old = 1
  let en := s.tlEn p
  let s := if s.flag c F.TL_CTRL.EN then s.padLeave (unitHalf p 4) (padTl p) else s.padReturn (unitHalf p 4) (padTl p)
  let same := [F.TL_CTRL.AN_EN, F.TL_CTRL.AMPL_24, F.TL_CTRL.SIMMER, F.TL_CTRL.APL_PROF, F.TL_CTRL.ROLE].all
    fun f => fget f old = s.fld c f
  if !en then s.tlStop p
  else if !was then s.tlStart p
  else if !same ∨ fget F.TL_CTRL.RESTART_AN v = 1 then (s.macLink (tlPort p) false).tlStart p
  else s

/-- A write of TL_CTRL. -/
def State.tlCtrlWrite (s : State) (m p : Nat) (v : Word) : State :=
  s.guardReg m (A.TL_CTRL p) fun s => s.tlCtrlApply p v

/-- TL_CTRL_WRITE (R312): a write that leaves RESTART_AN at 0. -/
def execTlCtrlWrite (m : Byte) (p : Fin 8) (v : Word) (s : State) : Host.Outcome State Fault Refusal :=
  .next (s.tlCtrlWrite m.toNat p (fput F.TL_CTRL.RESTART_AN v 0))

/-- TL_RESTART_AN (R312): a write with RESTART_AN = 1. -/
def execTlRestartAn (m : Byte) (p : Fin 8) (v : Word) (s : State) : Host.Outcome State Fault Refusal :=
  .next (s.tlCtrlWrite m.toNat p (fput F.TL_CTRL.RESTART_AN v 1))

/-- TL_AN_COMPLETE (R308, R310): the partner's page, its abilities for 2.4 and 1.0 Vpp, its role (0 none, 1 leader,
2 follower), whether 2.4 Vpp was resolved, and who leads where neither end is forced. -/
def execTlAnComplete (p : Fin 8) (page : BitVec 16) (lp24 lp10 : Bool) (lpRole : Fin 3) (res24 lead : Bool) (s : State) :
    Host.Outcome State Fault Refusal :=
  let c := A.TL_CTRL p
  let st := A.TL_STATUS p
  if s.tlEn p ∧ s.flag c F.TL_CTRL.AN_EN ∧ s.fld st F.TL_STATUS.TRAIN = 1 ∧
      (s.port (tlPort p)).waitEnd = 0 then
    let s := s.wrn (A.TL_AN_LP p) (2 ^ 16 + page.toNat)
    let use24 := s.tlOwn24 p && lp24 && res24
    let role := s.tlRole p
    if (!use24 ∧ !lp10) ∨ (role ≠ 0 ∧ role = lpRole.val) then
      let s := s.setf st F.TL_STATUS.AN_FAIL 1
      .next (s.mapPort (tlPort p) fun x => { x with waitEnd := s.now + 900 * msTicks })
    else
      let leader := if role ≠ 0 then decide (role = 1) else if lpRole.val ≠ 0 then decide (lpRole.val = 2) else lead
      let s := (s.setb st F.TL_STATUS.AMPL_ACT use24).setb st F.TL_STATUS.LEADER leader
      .next ((s.setf st F.TL_STATUS.AN_DONE 1).setf st F.TL_STATUS.TRAIN 2)
  else .next s

/-- TL_TRAINING_COMPLETE (Table 6.6, steps 3 and 4): the link is up at 10 Mbit/s. -/
def execTlTrainingComplete (p : Fin 8) (s : State) : Host.Outcome State Fault Refusal :=
  let st := A.TL_STATUS p
  if s.tlEn p ∧ s.fld st F.TL_STATUS.TRAIN = 2 then
    let s := (s.setf st F.TL_STATUS.TRAIN 3).macSpeed (tlPort p) 0
    .next (s.macLink (tlPort p) true)
  else .next s

/-- TL_AN_RETRY (R308): 1 s ± 10 % after it failed, auto-negotiation starts again. -/
def execTlAnRetry (p : Fin 8) (s : State) : Host.Outcome State Fault Refusal :=
  let x := s.port (tlPort p)
  if s.tlEn p ∧ s.fld (A.TL_STATUS p) F.TL_STATUS.TRAIN = 1 ∧ x.waitEnd ≠ 0 ∧
      x.waitEnd ≤ s.now then .next (s.tlStart p)
  else .next s

/-- A TL link fails: TRAIN reads 0x4 for 10 ms (R311). -/
def State.tlFail (s : State) (p : Nat) : State :=
  let st := A.TL_STATUS p
  if s.fld st F.TL_STATUS.TRAIN = 3 then
    let s := (s.macLink (tlPort p) false).setf st F.TL_STATUS.TRAIN 4
    s.mapPort (tlPort p) fun x => { x with waitEnd := s.now + 10 * msTicks }
  else s

/-- TL_LOSS_OF_LOCK (R311). -/
def execTlLossOfLock (p : Fin 8) (s : State) : Host.Outcome State Fault Refusal := .next (s.tlFail p)

/-- TL_SQI_ZERO_TIMEOUT (R311): SQI has been 0 for 2 ms. -/
def execTlSqiZeroTimeout (p : Fin 8) (s : State) : Host.Outcome State Fault Refusal :=
  .next ((s.setf (A.TL_SQI p) F.TL_SQI.SQI 0).tlFail p)

/-- TL_LINK_FAIL_WAIT_END (R311): bring-up restarts. -/
def execTlLinkFailWaitEnd (p : Fin 8) (s : State) : Host.Outcome State Fault Refusal :=
  if s.fld (A.TL_STATUS p) F.TL_STATUS.TRAIN = 4 ∧ (s.port (tlPort p)).waitEnd ≤ s.now then .next (s.tlStart p)
  else .next s

/-- TL_SHORT_DETECT (R319): the current limit has been engaged for 1 ms. -/
def execTlShortDetect (p : Fin 8) (s : State) : Host.Outcome State Fault Refusal :=
  if s.tlEn p then
    .next ((s.setf (A.TL_STATUS p) F.TL_STATUS.SHORT_DET 1).inc (A.TL_SHORT_CNT p))
  else .next s

/-! ### SerDes lanes -/

/-- Auto-negotiation applies to a lane (R325). -/
def State.sdAn (s : State) (l : Nat) : Bool :=
  s.flag (A.SD_CTRL l) F.SD_CTRL.AN_EN && decide (s.fld (A.SD_CTRL l) F.SD_CTRL.MODE < 3)

/-- The speed of a lane as MAC_STATUS codes it (R327). -/
def State.sdSpeed (s : State) (l : Nat) : Nat :=
  match s.fld (A.SD_CTRL l) F.SD_CTRL.MODE with
  | 0 => speed3 (if s.sdAn l then s.fld (A.SD_STATUS l) F.SD_STATUS.SPEED_RES
                 else s.fld (A.SD_CTRL l) F.SD_CTRL.SGMII_SPEED)
  | 1 => 2
  | 2 => 3
  | _ => 4

/-- A lane's link down, and bring-up from step `n` of Table 6.8: the locks of that step and later ones clear. -/
def State.sdRestart (s : State) (l n : Nat) : State :=
  let st := A.SD_STATUS l
  let s := s.macLink (sdPort l) false
  let s := s.mapPort (sdPort l) fun x => { x with waitEnd := 0, held := false }
  let s := if n ≤ 1 then s.setf st F.SD_STATUS.PLL_LOCK 0 else s
  let s := (s.setf st F.SD_STATUS.CDR_LOCK 0).setf st F.SD_STATUS.SYNC 0
  (s.setf st F.SD_STATUS.AN_DONE 0).setf st F.SD_STATUS.PRBS_LOCK 0

/-- Without SGMII auto-negotiation the speed is SGMII_SPEED, at once (R327, item 2); with it, the partner's report stands. -/
def State.sdForced (s : State) (l : Nat) : State :=
  if s.sdAn l ∨ s.fld (A.SD_CTRL l) F.SD_CTRL.MODE ≠ 0 then s
  else
    let s := s.setf (A.SD_STATUS l) F.SD_STATUS.SPEED_RES (speed3 (s.fld (A.SD_CTRL l) F.SD_CTRL.SGMII_SPEED))
    s.macSpeed (sdPort l) (s.sdSpeed l)

/-- The effect of a write of SD_CTRL (R321 to R324). -/
def State.sdCtrlApply (s : State) (l : Nat) (v : Word) : State :=
  let c := A.SD_CTRL l
  let st := A.SD_STATUS l
  let old := s.rd c
  let s := s.plainWrite c v
  let s := if s.flag c F.SD_CTRL.EN then s.padLeave (unitHalf l 4) (padSd l) else s.padReturn (unitHalf l 4) (padSd l)
  let s := s.setb st F.SD_STATUS.CFG_ERR (decide (3 < s.fld c F.SD_CTRL.MODE))
  let s := s.sdForced l
  let same := [F.SD_CTRL.MODE, F.SD_CTRL.LOOP, F.SD_CTRL.PRBS_EN, F.SD_CTRL.RX_POL, F.SD_CTRL.TX_POL,
    F.SD_CTRL.LINK_TIMER].all fun f => fget f old = s.fld c f
  if s.flag c F.SD_CTRL.EN ∧ fget F.SD_CTRL.EN old = 1 ∧ same then s else s.sdRestart l 1

/-- A write of SD_CTRL. -/
def State.sdCtrlWrite (s : State) (m l : Nat) (v : Word) : State :=
  s.guardReg m (A.SD_CTRL l) fun s => s.sdCtrlApply l v

/-- SD_CTRL_WRITE (R323, R324). -/
def execSdCtrlWrite (m : Byte) (l : Fin 8) (v : Word) (s : State) : Host.Outcome State Fault Refusal :=
  .next (s.sdCtrlWrite m.toNat l v)

/-- A lane may come up: enabled, with a valid mode and its rail in range (R321, R322, R715). -/
def State.sdOn (s : State) (l : Nat) : Bool :=
  s.flag (A.SD_CTRL l) F.SD_CTRL.EN && s.rail (6 + l / 4) && !s.flag (A.SD_STATUS l) F.SD_STATUS.CFG_ERR

/-- SD_PLL_LOCK (Table 6.8, step 1). -/
def execSdPllLock (l : Fin 8) (s : State) : Host.Outcome State Fault Refusal :=
  if s.sdOn l then .next (s.setf (A.SD_STATUS l) F.SD_STATUS.PLL_LOCK 1) else .next s

/-- SD_CDR_LOCK (Table 6.8, step 2). -/
def execSdCdrLock (l : Fin 8) (s : State) : Host.Outcome State Fault Refusal :=
  if s.sdOn l ∧ s.flag (A.SD_STATUS l) F.SD_STATUS.PLL_LOCK then
    .next (s.setf (A.SD_STATUS l) F.SD_STATUS.CDR_LOCK 1)
  else .next s

/-- SD_SYNC_ACQUIRED (Table 6.8, step 3). -/
def execSdSyncAcquired (l : Fin 8) (s : State) : Host.Outcome State Fault Refusal :=
  if s.sdOn l ∧ s.flag (A.SD_STATUS l) F.SD_STATUS.CDR_LOCK then
    .next (s.setf (A.SD_STATUS l) F.SD_STATUS.SYNC 1)
  else .next s

/-- The partner of a lane reports half duplex: the link is held down (R264). -/
def State.halfDuplex (s : State) (p : Nat) : State :=
  let s := (s.macLink p false).setf (A.MAC_STATUS p) F.MAC_STATUS.HD_REJ 1
  s.mapPort p fun x => { x with held := true }

/-- SD_AN_COMPLETE (Table 6.8, step 4; R327): the partner's page or control word, on SGMII the speed it reports, and
whether half duplex resulted (R264). -/
def execSdAnComplete (l : Fin 8) (page : BitVec 16) (speed : Fin 4) (half : Bool) (s : State) :
    Host.Outcome State Fault Refusal :=
  let st := A.SD_STATUS l
  if s.sdOn l ∧ s.sdAn l ∧ s.flag st F.SD_STATUS.SYNC then
    let s := (s.wrn (A.SD_AN_LP l) (2 ^ 16 + page.toNat)).setf st F.SD_STATUS.AN_DONE 1
    let s := if s.fld (A.SD_CTRL l) F.SD_CTRL.MODE = 0 then s.setf st F.SD_STATUS.SPEED_RES (speed3 speed) else s
    if half then .next ((s.halfDuplex (sdPort l)).setf st F.SD_STATUS.HD_REJ 1)
    else .next (s.mapPort (sdPort l) fun x => { x with held := false })
  else .next s

/-- SD_SYNC_LOSS (R329): synchronisation or CDR lock is lost; the lane restarts at step 2. -/
def execSdSyncLoss (l : Fin 8) (s : State) : Host.Outcome State Fault Refusal :=
  let st := A.SD_STATUS l
  if s.flag st F.SD_STATUS.SYNC ∨ s.flag st F.SD_STATUS.CDR_LOCK then .next (s.sdRestart l 2) else .next s

/-- SGMII_SPEED_CHANGE (R328): the partner reports a new speed in band; the link is down for at least 1 µs. -/
def execSgmiiSpeedChange (l : Fin 8) (speed : Fin 4) (s : State) : Host.Outcome State Fault Refusal :=
  let st := A.SD_STATUS l
  if s.fld (A.SD_CTRL l) F.SD_CTRL.MODE = 0 ∧ s.sdAn l ∧ s.flag st F.SD_STATUS.AN_DONE ∧
      s.fld st F.SD_STATUS.SPEED_RES ≠ speed3 speed then
    let s := (s.macLink (sdPort l) false).setf st F.SD_STATUS.SPEED_RES (speed3 speed)
    .next (s.mapPort (sdPort l) fun x => { x with waitEnd := s.now + usTicks })
  else .next s

/-- SD_PRBS_LOCK (Table 6.9): the PRBS31 checker locks and counts the bit errors it sees. -/
def execSdPrbsLock (l : Fin 8) (errors : Nat) (s : State) : Host.Outcome State Fault Refusal :=
  if s.sdOn l ∧ s.flag (A.SD_CTRL l) F.SD_CTRL.PRBS_EN ∧ s.flag (A.SD_STATUS l) F.SD_STATUS.CDR_LOCK then
    let s := s.setf (A.SD_STATUS l) F.SD_STATUS.PRBS_LOCK 1
    .next (s.wrn (A.SD_PRBS_ERR l) (min 0xFFFFFFFF (s.rdn (A.SD_PRBS_ERR l) + errors)))
  else .next s

/-! ### RGMII ports -/

/-- The configured speed of an RGMII port: in band, or RG_CTRL.SPEED (R336). -/
def State.rgSpeed (s : State) (h : Half) : Nat :=
  if s.flag (A.RG_CTRL h.n) F.RG_CTRL.INBAND then speed3 (s.fld (A.RG_STATUS h.n) F.RG_STATUS.IB_SPEED)
  else speed3 (s.fld (A.RG_CTRL h.n) F.RG_CTRL.SPEED)

/-- The RGMII port follows its controls and in-band status: link, and a change of speed, which waits for TXC to
restart while the link is up (R334 to R337, R264). `was` says that EN was 1 before. -/
def State.rgFollow (s : State) (h : Half) (was : Bool) : State :=
  let p := portNo h 8
  let c := A.RG_CTRL h.n
  let st := A.RG_STATUS h.n
  if !s.flag c F.RG_CTRL.EN then
    ((s.macLink p false).mapPort p fun x => { x with waitEnd := 0, held := false }).padReturn h padRg
  else
    let v := s.rgSpeed h
    let moved := decide (s.fld (A.MAC_STATUS p) F.MAC_STATUS.SPEED ≠ v)
    let s := if !was ∨ !moved then s.macSpeed p v
      else if s.flag (A.MAC_STATUS p) F.MAC_STATUS.LINK then
        (s.txMark p).mapPort p fun x => { x with waitEnd := s.now + usTicks }
      else (s.macSpeed p v).mapPort p fun x => { x with waitEnd := s.now + usTicks }
    if s.flag c F.RG_CTRL.INBAND then
      if s.flag st F.RG_STATUS.IB_LINK ∧ !s.flag st F.RG_STATUS.IB_FD then
        (s.halfDuplex p).setf st F.RG_STATUS.HD_REJ 1
      else (s.mapPort p fun x => { x with held := false }).macLink p (s.flag st F.RG_STATUS.IB_LINK)
    else (s.mapPort p fun x => { x with held := false }).macLink p true

/-- A write of RG_CTRL (R334 to R337). -/
def State.rgCtrlWrite (s : State) (m : Nat) (h : Half) (v : Word) : State :=
  let c := A.RG_CTRL h.n
  s.guardReg m c fun s =>
    let was := s.flag c F.RG_CTRL.EN
    let s := s.plainWrite c v
    let s := if s.flag c F.RG_CTRL.EN then s.padLeave h padRg else s
    s.rgFollow h was

/-- RG_CTRL_WRITE (R335). -/
def execRgCtrlWrite (m : Byte) (h : Half) (v : Word) (s : State) : Host.Outcome State Fault Refusal :=
  .next (s.rgCtrlWrite m.toNat h v)

/-- RG_INBAND_STATUS (R336): the in-band status between frames; ignored while EN is 0 (R334). -/
def execRgInbandStatus (h : Half) (link fd : Bool) (speed : Fin 4) (s : State) : Host.Outcome State Fault Refusal :=
  let st := A.RG_STATUS h.n
  if s.flag (A.RG_CTRL h.n) F.RG_CTRL.EN then
    let s := if s.flag st F.RG_STATUS.IB_LINK ≠ link then s.setf st F.RG_STATUS.LINK_CHG 1 else s
    let s := ((s.setb st F.RG_STATUS.IB_LINK link).setb st F.RG_STATUS.IB_FD fd).setf st F.RG_STATUS.IB_SPEED speed
    .next (s.rgFollow h true)
  else .next s

/-- RG_SPEED_CHANGE_RESTART (R337): the frame in transmission is out and TXC has been low for 1 µs; TXC restarts at
the new frequency. -/
def execRgSpeedChangeRestart (h : Half) (s : State) : Host.Outcome State Fault Refusal :=
  let p := portNo h 8
  let x := s.port p
  if x.waitEnd ≠ 0 ∧ x.waitEnd ≤ s.now ∧ !(x.begun && s.lineBusy p) then
    .next ((s.macSpeed p (s.rgSpeed h)).putPort p { x with waitEnd := 0 })
  else .next s

/-! ### Link status -/

/-- The physical layer of port p can carry a link: Table 6.6 step 4, Table 6.8 step 5, Table 6.9, R334, R336. -/
def State.linkReady (s : State) (p : Nat) : Bool :=
  let n := p % 12
  let x := s.port p
  if n < 4 then
    let l := p / 12 * 4 + n
    let c := A.SD_CTRL l
    let st := A.SD_STATUS l
    s.sdOn l && !s.flag c F.SD_CTRL.PRBS_EN && s.fld c F.SD_CTRL.LOOP != 2 && s.flag st F.SD_STATUS.PLL_LOCK &&
    decide (x.waitEnd ≤ s.now) && !x.held &&
    (s.fld c F.SD_CTRL.LOOP == 1 || (s.flag st F.SD_STATUS.SYNC && (!s.sdAn l || s.flag st F.SD_STATUS.AN_DONE)))
  else if n < 8 then
    let q := p / 12 * 4 + (n - 4)
    s.tlEn q && s.fld (A.TL_STATUS q) F.TL_STATUS.TRAIN == 3
  else n == 8 && s.flag (A.RG_CTRL (p / 12)) F.RG_CTRL.EN &&
    (!s.flag (A.RG_CTRL (p / 12)) F.RG_CTRL.INBAND || (s.flag (A.RG_STATUS (p / 12)) F.RG_STATUS.IB_LINK && !x.held))

/-- LINK_CHANGE (R279): the link of an external port comes up where its physical layer is ready, or goes down; that of an RGMII port
follows EN and the in-band status alone (R334, R336). -/
def execLinkChange (p : Fin 24) (up : Bool) (s : State) : Host.Outcome State Fault Refusal :=
  if 9 ≤ p.val % 12 then .next s
  else if up then
    if s.linkReady p then
      let s := if p.val % 12 < 4 then
        (s.macSpeed p (s.sdSpeed (p.val / 12 * 4 + p.val % 12))).mapPort p fun x => { x with waitEnd := 0 } else s
      .next (s.macLink p true)
    else .next s
  else if p.val % 12 = 8 ∧ s.linkReady p then .next s
  else .next (s.macLink p false)

end Sys2Proof.Machine
end

