-- ==== Sys2Proof/Machine/LarderCore.lean ====
section
/-! DEFINITION. DRAM ports entering and leaving service with their mirror, and the stores of the Larder (spec/13, R611 to
R633). -/

namespace Sys2Proof.Machine
open Sys2Proof

/-! ### The Larder's stores (R622 to R630) -/

/-- Base address and size in bytes of the partition of store k (0 cyclic, 1 fast, 2 event). -/
def State.partBase (s : State) (k : Nat) : Nat := dkBase + 0x100000 * s.rdn (A.LARDER_PART_BASE k)
def State.partSize (s : State) (k : Nat) : Nat := 0x100000 * s.rdn (A.LARDER_PART_SIZE k)

/-- The port in whose range store k lies. -/
def State.partPort (s : State) (k : Nat) : Half := if s.partBase k < dpBase then .k else .p

/-- Store k is unused, or lies where R622 lets it lie. -/
def State.partOk (s : State) (k : Nat) : Bool :=
  let lo := s.partBase k
  let hi := lo + s.partSize k
  s.partSize k == 0 ||
  if s.mirrorOn then decide (hi ≤ dkBase + min (s.dramCap .k) (s.dramCap .p))
  else match s.partPort k with
    | .k => decide (hi ≤ dkBase + s.dramCap .k)
    | .p => decide (hi ≤ dpBase + s.dramCap .p)

/-- Two stores share bytes. -/
def State.partsMeet (s : State) (j k : Nat) : Bool :=
  s.partSize j != 0 && s.partSize k != 0 &&
  decide (s.partBase j < s.partBase k + s.partSize k) && decide (s.partBase k < s.partBase j + s.partSize j)

/-- The tags a snapshot holds, and its pages (R623, R625). -/
def State.tagCount (s : State) : Nat :=
  (List.range 8).foldl (fun n j => n + s.fld (A.LARDER_SRC_CNT j) F.LARDER_SRC_CNT.COUNT) 0
def snapPages (tags : Nat) : Nat := 1 + (8 * tags + 4031) / 4032

/-- The pages of a snapshot store. -/
def State.storePages (s : State) (k : Nat) : Nat := s.partSize k / 4096

/-- The frozen set of a snapshot store would take more than 7/8 of its pages (R630). -/
def State.freezeTooLarge (s : State) (k : Nat) : Bool :=
  s.partSize k != 0 &&
  decide (7 * s.storePages k < 8 * ((s.rdn (A.LARDER_PRE_N k) + s.rdn (A.LARDER_POST_N k)) * snapPages s.tagCount))

/-- The configuration lets recording start (R622, R623, R630). -/
def State.larderOk (s : State) : Bool :=
  s.partOk 0 && s.partOk 1 && s.partOk 2 && !s.partsMeet 0 1 && !s.partsMeet 0 2 && !s.partsMeet 1 2 &&
  !s.freezeTooLarge 0 && !s.freezeTooLarge 1 && decide (s.tagCount ≤ 65536) &&
  (List.range 8).all fun j => decide (s.fld (A.LARDER_SRC_CNT j) F.LARDER_SRC_CNT.COUNT ≤ 16384)

/-- A snapshot store by its number. -/
def Larder.store (l : Larder) (k : Nat) : LStore := if k = 0 then l.cyc else l.fast
def Larder.putStore (l : Larder) (k : Nat) (x : LStore) : Larder :=
  if k = 0 then { l with cyc := x } else { l with fast := x }

/-- Store k stops: recording in it ends, STOPPED is set, and an F2 fault raised (R622). -/
def State.storeStop (s : State) (k : Nat) : State :=
  let l := s.larder
  let l := if k = 2 then { l with evtStopped := true } else l.putStore k { l.store k with job := none, stopped := true }
  let s := { s with larder := l }
  (s.setf A.LARDER_STATUS F.LARDER_STATUS.STOPPED 1).fault 0x24 2 originShared k

/-- Store k has stopped. -/
def Larder.isStopped (l : Larder) (k : Nat) : Bool := if k = 2 then l.evtStopped else (l.store k).stopped

/-- The stores in the range of a port stop while the Larder records (R622). -/
def State.storesStop (s : State) (h : Half) : State :=
  if s.flag A.LARDER_CTRL F.LARDER_CTRL.EN ∧ !s.mirrorOn then
    [0, 1, 2].foldl (fun s k =>
      if s.partSize k ≠ 0 ∧ s.partPort k = h ∧ !s.larder.isStopped k then s.storeStop k else s) s
  else s

/-! ### Ports (R613, R619, R816) -/

/-- DRAM_MIRROR.STATE, which reads the same in both halves (R632). -/
def State.setMirror (s : State) (v : Nat) : State :=
  (s.setf (A.DRAM_MIRROR 0) F.DRAM_MIRROR.STATE v).setf (A.DRAM_MIRROR 1) F.DRAM_MIRROR.STATE v

/-- The first byte of a port's range. -/
def portBase (h : Half) : Nat := match h with | .k => dkBase | .p => dpBase

/-- A port leaves service: the mirror enters DEGRADED, and the Larder's stores in its range stop (R619, R622). -/
def State.portLeaves (s : State) (h : Half) : State :=
  let was := (s.dram h).service
  let s := s.putDram h { s.dram h with service := false }
  let s := if s.mirrorOn then s.setMirror mirDegraded else s
  if was then s.storesStop h else s

/-- The contents of a port are lost (R816). -/
def State.portLost (s : State) (h : Half) : State :=
  let s := s.clearMem (portBase h) (portBase h + 0x200000000)
  s.putDram h { s.dram h with clearing := false, cleared := [] }

/-- A trained port takes up service: alone, or beside a mirror port in service, from which it is refilled first (R619). -/
def State.portEnters (s : State) (h : Half) : State :=
  if s.mirrorOn then
    if (s.dram h.other).service then (s.putDram h { s.dram h with service := false }).setMirror mirResilver
    else (s.putDram h { s.dram h with service := true }).setMirror mirDegraded
  else s.putDram h { s.dram h with service := true }

/-- `n` bytes from address `src` copied to `dst`, as the sparse memory lists them. -/
def State.copyRange (s : State) (src dst n : Nat) : State :=
  let cells := s.mem.filter fun c => src ≤ c.1 && c.1 < src + n
  cells.foldl (fun s c => s.putb (c.1 - src + dst) c.2) (s.clearMem dst (dst + n))

/-- The capacity that patrol, audit and resilver cover on a port (R618, R620). -/
def State.coverCap (s : State) (h : Half) : Nat :=
  if s.mirrorOn then min (s.dramCap .k) (s.dramCap .p) else s.dramCap h

/-! ### Rings (R625, R626, R629) -/

/-- The snapshots of store k that the held freeze freezes (R628). -/
def State.frozenSnaps (s : State) (k : Nat) : List Snap :=
  match s.larder.freeze with
  | none => []
  | some f =>
    let xs := (s.larder.store k).snaps
    let pre := xs.filter fun x => x.trig < f.at_
    let post := xs.filter fun x => f.at_ ≤ x.trig
    pre.drop (pre.length - (if k = 0 then f.preC else f.preF)) ++ post.take (if k = 0 then f.postC else f.postF)

/-- The post window of store k is complete. -/
def State.postDone (s : State) (k : Nat) : Bool :=
  match s.larder.freeze with
  | none => true
  | some f =>
    let n := ((s.larder.store k).snaps.filter fun x => f.at_ ≤ x.trig).length
    s.partSize k == 0 || (s.larder.store k).stopped || decide ((if k = 0 then f.postC else f.postF) ≤ n)

/-- An event record is frozen: stamped from the first frozen snapshot's T_TRIG to the last one's, inclusive. -/
def State.frozenEvt (s : State) (e : EvtHeld) : Bool :=
  let trigs := (s.frozenSnaps 0 ++ s.frozenSnaps 1).map fun x => x.trig
  match trigs with
  | [] => false
  | t :: ts =>
    let lo := ts.foldl min t
    let hi := ts.foldl max t
    decide (lo ≤ e.raw) && (decide (e.raw ≤ hi) || !(s.postDone 0 && s.postDone 1))

/-- A place for `n` consecutive units of a ring of `total` that meets none of the frozen spans (start, length): from `next`
on, then from the ring's start; none when there is no such place. -/
def ringPlace (next total n : Nat) (frozen : List (Nat × Nat)) : Option Nat :=
  let free := fun st => decide (st + n ≤ total) && frozen.all fun f => decide (st + n ≤ f.1) || decide (f.1 + f.2 ≤ st)
  let starts := next :: 0 :: frozen.map fun f => f.1 + f.2
  let later := (starts.filter fun st => decide (next ≤ st) && free st)
  let early := (starts.filter fun st => decide (st < next) && free st)
  match later with
  | st :: rest => some (rest.foldl min st)
  | [] => match early with
    | st :: rest => some (rest.foldl min st)
    | [] => none

/-- Two spans share a unit. -/
def spansMeet (a n b m : Nat) : Bool := decide (a < b + m) && decide (b < a + n)

/-- The Larder writes bytes to DRAM as master 0x48. -/
def State.larderPut (s : State) (a : Nat) (bs : List Byte) : State :=
  match s.dramPorts 0x48 a bs.length true with
  | .ok ps => s.dramPut a bs ps
  | .error _ => s

/-- A page with its trailer (Table 13.8): 4032 bytes, then the fields and the CRC over all before it. -/
def larderPage (body : List Byte) (store flags epoch seq trig page pages first : Nat) : List Byte :=
  let p := padTo 4032 body ++ [0x4C#8, 0x52#8, 0x44#8, 0x50#8, BitVec.ofNat 8 store, BitVec.ofNat 8 flags] ++
    leBytes 2 epoch ++ leBytes 8 seq ++ leBytes 8 trig ++ leBytes 8 trig ++ leBytes 8 trig ++ leBytes 2 page ++
    leBytes 2 pages ++ leBytes 4 first ++ List.replicate 12 0
  p ++ leBytes 4 (crc32c p)

/-- An event record (Table 13.9). -/
def evtBytes (e : EvtRec) (seq : Nat) (dropped : Bool) : List Byte :=
  let p := [BitVec.ofNat 8 e.typ, BitVec.ofNat 8 (if e.ext = [] then 1 else 3), BitVec.ofNat 8 e.cls,
    BitVec.ofNat 8 (b2n dropped)] ++ leBytes 2 e.source ++ leBytes 2 e.epoch ++ leBytes 8 e.raw ++ leBytes 4 seq ++
    padTo 40 e.payload
  p ++ leBytes 4 (crc32c p) ++ (if e.ext = [] then [] else padTo 128 e.ext)

end Sys2Proof.Machine
end

