-- ==== Sys2Proof/Machine/ResetCore.lean ====
section
/-! DEFINITION. Resets: their sources and reach, what asserting one does to the units it reaches, and the release sequences
(spec/16, R725 to R734, R747, R749; spec/12 R577; spec/13 R816; spec/14 R644, R677). -/

namespace Sys2Proof.Machine
open Sys2Proof

/-! ### Sources (Table 16.6) -/

/-- The half that a source belongs to, if one (R726, item 2). -/
def srcHalf (i : Nat) : Option Half :=
  if i = 3 ∨ i = 5 ∨ i = 7 ∨ i = 11 ∨ i = 15 ∨ i = 17 then some .k
  else if i = 4 ∨ i = 6 ∨ i = 8 ∨ i = 12 ∨ i = 16 ∨ i = 18 then some .p
  else none

/-- The effective level of a source, and its HOLD. -/
def State.srcLevel (s : State) (i : Nat) : Nat := (s.srcMap i).2.1
def State.srcHold (s : State) (i : Nat) : Bool := (s.srcMap i).2.2

/-- A Level 2 reach of a source includes a half. -/
def srcReaches (i : Nat) (h : Half) : Bool := srcHalf i == none || srcHalf i == some h

/-- The code of Table 15.2 that belongs to a source, with its class. -/
def srcCode (i : Nat) : Option (Nat × Nat) :=
  if (3 ≤ i ∧ i ≤ 8) ∨ i = 11 ∨ i = 12 then some (0x60, 3)
  else if i = 15 ∨ i = 16 then some (0x02, 3)
  else if i = 17 ∨ i = 18 then some (0x01, 3)
  else if i = 21 then some (0x61, 4)
  else none

/-- Supervisors of a half's rails give T4 cause 0x11; any other reset of Level 2 or wider cause 0x12 (Table 2.13). -/
def srcCause (i : Nat) : Nat := if (3 ≤ i ∧ i ≤ 8) ∨ i = 11 ∨ i = 12 then 0x11 else 0x12

/-- A source is asserted. -/
def State.asserted (s : State) (i : Nat) : Bool := bitAt s.rst.asserted i

/-- A source of the chip-wide levels, or a KCP reset of Level 1, holds the chip. -/
def State.chipHeld (s : State) : Bool :=
  ((List.range 23).any fun i => s.asserted i && decide (s.srcLevel i ≤ 1)) || s.rst.kcp.any fun r => decide (r.level ≤ 1)

/-- A Level 0 source holds the chip. -/
def State.fullHeld (s : State) : Bool := (List.range 23).any fun i => s.asserted i && s.srcLevel i == 0

/-- A latched or asserted source of Level 2 reaches a half. -/
def State.srcHolds (s : State) (h : Half) : Bool :=
  (List.range 23).any fun i => (s.asserted i || bitAt s.rst.latched i) && s.srcLevel i == 2 && srcReaches i h

/-- Something holds a half in reset: a wider reset, a source, a KCP reset, or its power (R717, R718, R728). -/
def State.halfHeld (s : State) (h : Half) : Bool :=
  s.chipHeld || s.srcHolds h || s.rst.kcp.any (fun r => r.level == 2 && r.index == h.n) ||
  !(s.hrst h).powered || (s.hrst h).rising

/-- RST_CAUSE[d] records a source and a level (R733). -/
def State.recordCause (s : State) (d src level : Nat) : State :=
  let s := s.incSat (A.RST_CAUSE d) F.RST_CAUSE.COUNT
  (s.setf (A.RST_CAUSE d) F.RST_CAUSE.SOURCE src).setf (A.RST_CAUSE d) F.RST_CAUSE.LEVEL level

/-! ### What a reset leaves in the units it reaches -/

/-- A key of the units numbered from h × per on belongs to half h. -/
def ofHalf (h : Half) (per n : Nat) : Bool := n / per == h.n

/-- Registers of pages `lo` to `hi` of a half's block return to their Reset values (R677, R598, R632 and others). -/
def State.resetPages (s : State) (h : Half) (lo hi : Nat) : State :=
  s.resetRegs fun a => a / 0x1000000 == 0x31 + h.n && decide (lo ≤ a / 0x10000 % 0x100) && decide (a / 0x10000 % 0x100 ≤ hi)

/-- A load in progress is abandoned: its command ends as failed, with a status that no rule gives (R165). -/
def State.abandonLoad (s : State) (i : Nat) : State :=
  match (s.eng i).load with
  | none => s
  | some l =>
    if l.verified then
      match s.kcmd l.tr l.tag with
      | some c => s.useFree.finish c (s.freeVal % 0xFFFF + 1) []
      | none => s
    else s

/-- A Needle engine in reset: registers, memory, TCAM and what it holds (R194, Table 3.6); a load whose image is still being
verified goes on (R164). -/
def State.resetNeedle (s : State) (i : Nat) : State :=
  let s := s.abandonLoad i
  let load := (s.eng i).load.filter fun l => !l.verified
  let s := { s with kcp := { s.kcp with profiles := storeErase s.kcp.profiles i } }
  let base := A.NE_CTRL i
  let s := s.resetRegs fun a => decide (base ≤ a) && decide (a < base + 0x1000)
  let s := s.clearMem (neWin i) (neWin i + 0x100000)
  (s.putEng i { Engine.init with load := load, stageNo := (s.eng i).stageNo }).mastersReset fun m => m == 0x10 + i

/-- A Needle engine out of reset is STOPPED with LOADED = 0 (Table 3.6); while the reset holds it, it is OFF
(`State.neState`). -/
def State.startNeedle (s : State) (i : Nat) : State := s.setf (A.NE_STATUS i) F.NE_STATUS.STATE neStopped

/-- A Hook engine in reset: registers, program, FIFOs; its pins take their reset states (R554). -/
def State.resetHook (s : State) (e : Nat) : State :=
  let base := A.HK_CTRL e
  let lost := (List.range 24).filter fun q => s.hkOwner e q
  let s := { s with pins := { s.pins with left := s.pins.left.filter fun n =>
    !(n / 64 == e / 8 && lost.any fun q => n % 64 == padHook q) } }
  let s := s.resetRegs fun a => decide (base ≤ a) && decide (a < base + 0x400)
  (s.putHook e Hook.init).mastersReset fun m => m == 0x30 + e

/-- The switch plane of a half in reset, with its MACs and physical layers (R341, R402). -/
def State.resetPlane (s : State) (h : Half) : State :=
  let s := s.resetPages h 0 5
  let s := s.putPlane h Plane.init
  { s with ports := storeClear (ofHalf h 12) s.ports
           pins := { s.pins with left := s.pins.left.filter fun n =>
             !(n / 64 == h.n && (n % 64 == padRg || (padTl 0 ≤ n % 64 && n % 64 ≤ padSd 3))) } }

/-- The CAN controllers of a half in reset (R494). -/
def State.resetCan (s : State) (h : Half) : State :=
  let s := s.resetPages h 6 6
  { s with cx := storeClear (ofHalf h 4) s.cx
           pins := { s.pins with left := s.pins.left.filter fun n => !(n / 64 == h.n && n % 64 ≤ 3) } }

/-- A DRAM port in reset: out of service, its registers at their Reset values but for the common DRAM_MIRROR, its contents
lost unless `keep` says that it is held in self-refresh (R497, R619, R632, R816). -/
def State.resetDram (s : State) (h : Half) (keep : Bool) : State :=
  let s := s.portLeaves h
  let mir := s.rd (A.DRAM_MIRROR h.n)
  let s := (s.resetPages h 11 11).wr (A.DRAM_MIRROR h.n) mir
  let s := if keep then s.setf (A.DRAM_STATUS h.n) F.DRAM_STATUS.SELF_REFRESH 1 else s.portLost h
  { s.putDram h { DramPort.init with retained := keep } with pins := { s.pins with left := s.pins.left.filter fun n =>
      !(n / 64 == h.n && (n % 64 == padDram || n % 64 == padDramOut)) } }

/-- The harts of a half in reset: their CSRs, readiness and submission ports (Table 2.19, R606, R707). -/
def State.resetHarts (s : State) (h : Half) : State :=
  let s := { s with harts := storeClear (ofHalf h 2) s.harts
                    col := { s.col with waiting := s.col.waiting.filter fun w => !ofHalf h 2 w.1 } }
  let s := s.wr (A.TEN_APP h.n) 0
  s.resetRegs fun a => decide (A.COL_SUB_CTRL (2 * h.n) ≤ a) && decide (a < A.COL_SUB_CTRL (2 * h.n + 2))

/-- A half enters its Level 2 reset: every unit of its block, its transports and its pins; QH_CFG.EN takes the strap
(R635, R677, R747). -/
def State.resetHalf (s : State) (h : Half) (keep : Bool) : State :=
  let s := [0, 1, 2, 3, 4].foldl (fun s t => if trHalf t = some h then s.transportDown t else s) s
  let s := s.resetDram h keep
  let s := (s.resetPlane h).resetCan h
  let s := (List.range 12).foldl (fun s i => s.resetNeedle (12 * h.n + i)) s
  let s := (List.range 8).foldl (fun s e => s.resetHook (8 * h.n + e)) s
  let s := ((s.resetPages h 7 8).resetPages h 10 10).resetPages h 12 12
  let s := s.setf (A.QH_CFG h.n) F.QH_CFG.EN (s.fld A.SYS_STRAP F.SYS_STRAP.HOSTSEL)
  let s := s.resetHarts h
  let s := s.mastersReset fun m => masterHalf m == some h
  let s := { s with spadWait := s.spadWait.filter (fun o => !decide (bankHalf o.addr = h)), sweep := storeErase (storeErase s.sweep h.n) (2 + h.n) }
  let s := s.setf A.TEN_STATUS (match h with | .k => F.TEN_STATUS.SEG_K_UP | .p => F.TEN_STATUS.SEG_P_UP) 0
  let s := s.setf A.CLK_STATUS (match h with | .k => F.CLK_STATUS.PLL_K_LOCK | .p => F.CLK_STATUS.PLL_P_LOCK) 0
  let k := s.kcp
  let s := { s with kcp := { k with desc := storeClear (fun n => n / 32 % 2 == h.n) k.desc, msix := storeClear (ofHalf h 32) k.msix
                                    streams := storeClear (fun t => trHalf t == some h) k.streams
                                    active := if h = Half.k then k.active / 2 ^ 32 * 2 ^ 32 else k.active % 2 ^ 32
                                    pba := if h = Half.k then k.pba / 2 ^ 32 * 2 ^ 32 else k.pba % 2 ^ 32 } }
  let s : State := match h with
    | .k => { s with appK := none }
    | .p => { s with appP := none }
  s.padsReset h

/-- A half is taken into reset: it is held, and its units reset, once. -/
def State.holdHalf (s : State) (h : Half) (keep : Bool) : State :=
  let r := s.hrst h
  (s.putHrst h { r with phase := .held }).resetHalf h keep

/-- Registers that keep values across a Level 1 reset: fields marked Kept, SYS_FLT_LATCH (R708), PWR_TEMP.PEAK (R754), and
VAULT_STATUS.WIPING, since a wipe goes on without the cores (R584); of the Vault's registers only the wipe count is kept
(R599). -/
def keptWord (a : Nat) (w : Word) : Word :=
  if a = A.SYS_FLT_LATCH then w
  else if a = A.VAULT_STATUS then fput F.VAULT_STATUS.WIPING (regDefault a) (fget F.VAULT_STATUS.WIPING w)
  else if a = A.PWR_TEMP then w
  else if a = A.PWR_RAIL then w
  else match regDesc? a with
    | none => regDefault a
    | some d => d.fields.foldl (fun v f => if f.kept then fput ⟨f.hi, f.lo⟩ v (fget ⟨f.hi, f.lo⟩ w) else v) (descReset d)

/-- Every register after a Level 1 reset. -/
def keepRegs (m : List (Nat × Word)) : List (Nat × Word) :=
  m.filterMap fun e =>
    let w := keptWord e.1 e.2
    if w = regDefault e.1 then none else some (e.1, w)

/-- PWR_RAIL and PWR_TEMP.TJ tell what is outside the block; they outlive every reset. -/
def liveRegs (m : List (Nat × Word)) : List (Nat × Word) :=
  m.filterMap fun e =>
    let w := if e.1 = A.PWR_RAIL then e.2 else if e.1 = A.PWR_TEMP then fput F.PWR_TEMP.PEAK e.2 0 else regDefault e.1
    if w = regDefault e.1 then none else some (e.1, w)

/-- The DRAM of a port is held in self-refresh across a Level 1 reset by `src` (R734); a wake from SLEEP follows
WAKE_PCTRL.RETAIN, which the entry has applied already. -/
def State.l1Retains (s : State) (h : Half) (src : Nat) : Bool :=
  (s.dram h).retained ||
  (s.flag A.RST_CTRL F.RST_CTRL.L1_RETAIN && s.trained h && src != 2 && src != 5 && src != 6 && src != 21)

/-- A half in a chip reset: PWREN is high again, and rails that were off come up first (R718, R754). -/
def chipHalf (r : HalfRst) : HalfRst :=
  { powered := true, rising := r.rising || !r.powered, phase := .held, isolated := false, recast := 0 }

/-- Every unit outside the AON domain is reset; with `full`, the AON domain too (R733, Table 16.5). -/
def State.resetChip (s : State) (full : Bool) (keepK keepP : Bool) : State :=
  let s := (s.clearMem bankBase (bankBase + 0x400000)).clearMem needleBase (needleBase + 0x1800000)
  let s := if keepK then s else s.portLost .k
  let s := if keepP then s else s.portLost .p
  let port := fun (b : Bool) => { DramPort.init with retained := b }
  let r := s.rst
  { s with
    regs := if full then liveRegs s.regs else keepRegs s.regs
    spadWait := [], sweep := [], wipe := if full then none else s.wipe, rawOn := false, trivetLost := false, alive := s.now
    chg := Charge.init, epK := Endpoint.init, epP := Endpoint.init, ia := Ia.init, resync := none
    appK := none, appP := none, stagedK := none, stagedP := none, twin := Twin.init
    col := Colander.init, larder := Larder.init, harts := [], dramK := port keepK, dramP := port keepP
    gauge := Gauge.init, cx := [], ne := [], hk := [], ports := [], planeK := Plane.init, planeP := Plane.init
    wake := if full then Wake.init else s.wake
    kcp := Kcp.init
    sec := { s.sec with jobs := [] }
    pins := { s.pins with left := [] }
    rst := { r with latched := 0, kcp := r.kcp.filter (fun x => x.level ≤ 1), stage := .held
                    k := chipHalf r.k, p := chipHalf r.p } }

/-! ### Assertion (R728, R733) -/

/-- T4 of the halves that a reset reaches, with the source's code or 0x62 (R78). -/
def State.resetExits (s : State) (hs : List Half) (cause : Nat) (code : Option (Nat × Nat)) : State :=
  if s.rst.stage ≠ .done then s
  else s.exits (hs.map fun h => ⟨h, .lost, cause, some ⟨(code.getD (0x62, 3)).1, 0, 0, 0, 0⟩⟩)

/-- T4 is possible in some of the halves. -/
def State.exitsMay (s : State) (hs : List Half) : Bool :=
  !s.trivetLost && s.rst.stage == .done && hs.any fun h => (⟨h, .lost, 0, none⟩ : Exit).allowed (s.chgOf h)

/-- A reset of Level 0 or 1 by source `src` is asserted: both halves leave by T4, RST_CAUSE records it in every domain, and
the units are reset. A Level 0 reset leaves its records at the values of their Level 0 column. -/
def State.assertChip (s : State) (src level cause : Nat) (code : Option (Nat × Nat)) : State :=
  let keepK := level == 1 && s.l1Retains .k src
  let keepP := level == 1 && s.l1Retains .p src
  let logged := s.exitsMay [.k, .p]
  let s := s.resetExits [.k, .p] cause code
  let s := match code with
    | some (c, cls) => if logged then s else s.fault c cls originShared src
    | none => s
  let s := ((s.recordCause 0 src level).recordCause 1 src level).recordCause 2 src level
  let loading := s.rst.stage == .held || s.rst.stage == .fuses
  let s := { s with rst := { s.rst with full := level == 0 || (s.rst.full && loading), powerUp := s.rst.powerUp || level == 0 } }
  s.resetChip (level == 0) keepK keepP

/-- A Level 2 reset of some halves by source `src` is asserted. -/
def State.assertHalves (s : State) (src cause : Nat) (code : Option (Nat × Nat)) (hs : List Half) : State :=
  let logged := s.exitsMay hs
  let s := s.resetExits hs cause code
  let s := match code with
    | some (c, _) => if logged then s else s.fault c 2 (match hs with | [h] => originHalf h | _ => originShared) src
    | none => s
  hs.foldl (fun s h => (s.recordCause (1 + h.n) src 2).holdHalf h false) s

/-- The fault of a source that resets nothing: a class F3 diagnostic goes the way of R78. -/
def State.srcFault (s : State) (src : Nat) : State :=
  match srcCode src, srcHalf src with
  | some (c, 3), some h => s.diagF3 h c src 0 0
  | some (c, cls), _ => s.fault c cls originShared src
  | none, _ => s

/-- Source i asserts (R726, R730, R733). -/
def State.assertSource (s : State) (i : Nat) : State :=
  if s.asserted i then s
  else
    let level := s.srcLevel i
    let r := s.rst
    let s := { s with rst := { r with asserted := r.asserted ||| 2 ^ i, dark := r.dark || i == 1 || i == 10 } }
    if level ≤ 1 then s.assertChip i level (srcCause i) (srcCode i)
    else if level = 2 then
      let s := if s.srcHold i then { s with rst := { s.rst with latched := s.rst.latched ||| 2 ^ i } } else s
      s.assertHalves i (srcCause i) (srcCode i) ([Half.k, Half.p].filter fun h => srcReaches i h)
    else s.srcFault i

/-! ### Release (R728, R729, R749) -/

/-- A half whose last holder has released starts its release sequence, once the chip's own sequence is done. -/
def State.tryHalf (s : State) (h : Half) : State :=
  if s.rst.stage = .done ∧ (s.hrst h).phase = .held ∧ !s.halfHeld h then
    s.putHrst h { s.hrst h with phase := .releasing }
  else s

/-- 6412 mode is entered: every bank belongs to the legacy bus, whose transport comes up (R576, R742). -/
def State.enter6412 (s : State) : State :=
  let s := (List.range 16).foldl (fun s n => s.setf (A.BANK_OWNER 0 n) F.BANK_OWNER.OWNER 0x44) s
  if s.running .k then s.transportUp 4 else s

/-- Straps and lifecycle state as the release of a Level 1 reset takes them (R739, R755). -/
def State.startUp (s : State) : State :=
  let s := s.sampleStraps.loadLc
  if s.mode6412 then s.enter6412 else s

/-- The chip leaves its reset once the last source of Level 0 or 1 has released: after a Level 0 reset the fuses are
loaded first; after a Level 1 reset the straps are sampled and the Trivet ROM boots (Table 16.5). -/
def State.tryChip (s : State) : State :=
  if s.rst.stage = .held ∧ !s.chipHeld then
    if s.rst.full then { s with rst := { s.rst with stage := .fuses, dark := false } }
    else { s.startUp with rst := { s.rst with stage := .rom } }
  else s

/-- What may be released is. -/
def State.tryRelease (s : State) : State := (s.tryChip.tryHalf .k).tryHalf .p

/-- Source i releases. -/
def State.releaseSource (s : State) (i : Nat) : State :=
  if s.asserted i then
    ({ s with rst := { s.rst with asserted := s.rst.asserted - 2 ^ i } } : State).tryRelease
  else s

/-- The latches of the sources in a mask are released (R730). -/
def State.releaseLatches (s : State) (mask : Nat) : State :=
  let l := (List.range 23).foldl (fun n i => if bitAt s.rst.latched i && !bitAt mask i then n + 2 ^ i else n) 0
  ({ s with rst := { s.rst with latched := l } } : State).tryRelease

/-- A half leaves reset (R577, R606, R725, R740, R747): its segment trains with a heartbeat timer that has missed nothing (R100), the banks are being zeroed, its engines are
STOPPED, its transports come up, and a re-cast ends with T9 into INIT. -/
def State.releaseHalf (s : State) (h : Half) : State :=
  let r := s.hrst h
  let cause := r.recast
  let s := s.putHrst h { r with phase := .running, recast := 0 }
  let s := s.setf A.CLK_STATUS (match h with | .k => F.CLK_STATUS.PLL_K_LOCK | .p => F.CLK_STATUS.PLL_P_LOCK) 1
  let s := s.setf A.TEN_STATUS (match h with | .k => F.TEN_STATUS.SEG_K_UP | .p => F.TEN_STATUS.SEG_P_UP) 1
  let s := s.setf A.TEN_STATUS (missFld h) 0
  let code := (s.ep h).stateCopy
  let s := s.putEp h { Endpoint.init with stateCopy := code, hbAt := s.now }
  let s := s.clearMem (bankAt h 0) (bankAt h 0x200000)
  let s := s.setf (A.SPAD_STATUS h.n) F.SPAD_STATUS.ZEROING 1
  let s := (List.range 12).foldl (fun s i => s.startNeedle (12 * h.n + i)) s
  let s := if s.chgOf h = .service ∧ cause ≠ 0 ∧ !s.trivetLost then (s.enter h .init cause).isolate h false else s
  let s := if s.fld A.SYS_BOOT F.SYS_BOOT.SRC ≤ 1 then s.padLeave h padQspi else s
  let s := if s.flag (A.QH_CFG h.n) F.QH_CFG.EN then s.transportUp (2 + h.n) else s
  let s := if h = .k ∧ s.mode6412 then s.transportUp 4 else s
  s.wakeReleased h

/-! ### KCP resets (R656, R732) -/

/-- The Hook group of a half in reset: every engine, and HOOK_PIN_CFG (R554). -/
def State.resetHookGroup (s : State) (h : Half) : State :=
  let s := (List.range 8).foldl (fun s e => s.resetHook (8 * h.n + e)) s
  let s := s.resetPages h 7 7
  { s with pins := { s.pins with left := s.pins.left.filter fun n => !(n / 64 == h.n && padHook 0 ≤ n % 64) } }

/-- A KCP reset asserts its level on its target, and holds it until it is released. -/
def State.kcpAssert (s : State) (r : KReset) : State :=
  let h := halfOf r.index
  let s := { s with rst := { s.rst with kcp := s.rst.kcp ++ [r] } }
  match r.level, r.target with
  | 1, _ => s.assertChip 19 1 0x12 none
  | 2, _ => s.assertHalves 19 0x12 none [h]
  | 3, 1 => s.resetPlane h
  | 3, 2 => (List.range 12).foldl (fun s i => s.resetNeedle (12 * h.n + i)) s
  | 3, 3 => s.resetHookGroup h
  | 3, 4 => s.resetCan h
  | 3, 5 => s.resetDram h false
  | 4, 6 => s.resetNeedle r.index
  | 4, 7 => s.resetHook r.index
  | _, _ => s

/-- A KCP reset is released: the units it held run their release sequence. -/
def State.kcpRelease (s : State) (r : KReset) : State :=
  if s.rst.kcp.contains r then
    let s := { s with rst := { s.rst with kcp := s.rst.kcp.erase r } }
    let h := halfOf r.index
    match r.level, r.target with
    | 3, 2 => if s.running h then (List.range 12).foldl (fun s i => s.startNeedle (12 * h.n + i)) s else s
    | 4, 6 => if s.running (unitHalf r.index 12) then s.startNeedle r.index else s
    | _, _ => s.tryRelease
  else s

/-- T9 is due at the release of a half's Level 2 reset, with the cause given: latched resets of the half are released
(R74, R730), and a debug unlock of it ends (R774). -/
def State.armRecast (s : State) (h : Half) (cause : Nat) : State :=
  let mask := (List.range 23).foldl (fun n i => if srcHalf i = some h then n + 2 ^ i else n) 0
  let s := s.releaseLatches mask
  let s := s.setf A.SEC_DEBUG (match h with | .k => F.SEC_DEBUG.UNLOCK_K | .p => F.SEC_DEBUG.UNLOCK_P) 0
  s.putHrst h { s.hrst h with recast := cause }

/-- T9 begins: latched resets of the half are released, and a Level 2 reset of it is asserted; T9 is taken at its release
with the cause given (R74, R500, R730). -/
def State.recast (s : State) (h : Half) (cause : Nat) : State :=
  (s.kcpAssert ⟨2, 0, h.n⟩).armRecast h cause

end Sys2Proof.Machine
end

