-- ==== Sys2Proof/Machine/Reset.lean ====
section
/-! DEFINITION. The commands of rails, clocks, resets, fuses and boot (spec/16), of the harts' lockstep and watchdogs
(spec/02, spec/13), of tamper and fuse programming (spec/17), and of transports coming up and going down (spec/14). -/

namespace Sys2Proof.Machine
open Sys2Proof

/-! ### Rails (R709 to R718) -/

/-- The reset source of a supervisor, by its bit in PWR_RAIL (Tables 16.6, 16.16). -/
def railSrc (i : Nat) : Nat := i + 1

/-- The half of a supervisor's rail, if one. -/
def railHalf (i : Nat) : Option Half :=
  if i = 2 ∨ i = 4 ∨ i = 6 ∨ i = 10 then some .k else if i = 3 ∨ i = 5 ∨ i = 7 ∨ i = 11 then some .p else none

/-- The bit of PWR_EN for the output that switches a rail (Table 16.2). -/
def railEn (i : Nat) : Option Nat :=
  if i = 1 then some 4 else if i = 4 then some 2 else if i = 5 then some 3
  else match railHalf i with
    | some h => some h.n
    | none => none

/-- A supervisor reports nothing while the output that switches its rail is low (R717). -/
def State.railMasked (s : State) (i : Nat) : Bool :=
  match railEn i with
  | some b => !bitAt (s.fld A.PWR_EN F.PWR_EN.PWREN) b
  | none => false

/-- GOOD bit of a supervisor. -/
def State.setRail (s : State) (i : Nat) (on : Bool) : State :=
  let g := s.fld A.PWR_RAIL F.PWR_RAIL.GOOD
  let g := if bitAt g i then g - 2 ^ i else g
  s.setf A.PWR_RAIL F.PWR_RAIL.GOOD (if on then g + 2 ^ i else g)

/-- What runs from an analogue rail goes down with it (R715). -/
def State.railLoss (s : State) (i : Nat) : State :=
  if i = 8 then (List.range 8).foldl (fun s p => s.tlStop p) s
  else if i = 6 then (List.range 4).foldl (fun s l => s.sdRestart l 1) s
  else if i = 7 then (List.range 4).foldl (fun s l => s.sdRestart (4 + l) 1) s
  else if i = 4 ∨ i = 5 then
    let h := halfOf (i - 4)
    (s.portLost h).putDram h { s.dram h with retained := false, clearing := false, cleared := [] }
  else s

/-- Enabled TL ports start when their rail returns (R715). -/
def State.railBack (s : State) (i : Nat) : State :=
  if i = 8 then (List.range 8).foldl (fun s p => if s.tlEn p ∧ s.running (unitHalf p 4) then s.tlStart p else s) s else s

/-- Every supervisor of a half's rails has released (R718). -/
def State.railsUp (s : State) (h : Half) : Bool := [2, 4, 6, 10].all fun i => s.rail (i + h.n)

/-- RAIL_SUPERVISOR_TRIP (R710): by its bit in PWR_RAIL. -/
def execRailSupervisorTrip (i : Fin 12) (s : State) : Host.Outcome State Fault Refusal :=
  if s.railMasked i then .next s
  else
    let s := s.setRail i false
    let s := s.wrn A.PWR_RAIL_EVT (s.rdn A.PWR_RAIL_EVT ||| 2 ^ i.val)
    .next ((s.assertSource (railSrc i)).railLoss i)

/-- RAIL_SUPERVISOR_RELEASE (R710): the last rail of a half that was being powered lets it be released (R718); the return
of VDD_TRV wipes the Vault (R583). -/
def execRailSupervisorRelease (i : Fin 12) (s : State) : Host.Outcome State Fault Refusal :=
  if s.railMasked i ∨ s.rail i then .next s
  else
    let s := s.setRail i true
    let s := match railHalf i with
      | some h => if (s.hrst h).rising ∧ s.railsUp h then s.putHrst h { s.hrst h with rising := false } else s
      | none => s
    let s := ((s.releaseSource (railSrc i)).tryRelease).railBack i
    .next (if i.val = 1 then s.vaultWipe 3 else s)

/-- VDDIO_CLASS_SET (R711): the class of a bank 100 µs after it first rose above 1.0 V, by its voltage in mV. -/
def execVddioClassSet (bank : Fin 10) (mv : Nat) (s : State) : Host.Outcome State Fault Refusal :=
  if mv < 500 then .next { s with pins := { s.pins with classes := storeErase s.pins.classes bank } }
  else if 1000 < mv ∧ (storeFind s.pins.classes bank.val).isNone then
    .next { s with pins := { s.pins with classes := storeInsert s.pins.classes bank (if mv < 2500 then 1 else 2) } }
  else .next s

/-! ### Pins and sources (R726 to R733) -/

/-- RESET_PIN_ASSERT (R731). -/
def execResetPinAssert (p : RstPin) (s : State) : Host.Outcome State Fault Refusal :=
  match p with
  | .por => .next (s.assertSource 0)
  | .srst => .next (s.assertSource 13)

/-- RESET_SOURCE_ASSERT (R733); source 19 is the KCP resets, which assert by their own commands. -/
def execResetSourceAssert (i : Fin 23) (s : State) : Host.Outcome State Fault Refusal :=
  if i.val = 19 then .next s else .next (s.assertSource i)

/-- RESET_SOURCE_RELEASE (R728). -/
def execResetSourceRelease (i : Fin 23) (s : State) : Host.Outcome State Fault Refusal :=
  if i.val = 19 then .next s else .next (s.releaseSource i)

/-- A write of RST_RELEASE (R730): only the Trivet may. -/
def State.rstReleaseWrite (s : State) (m : Nat) (v : Word) : State :=
  s.guardReg m A.RST_RELEASE fun s =>
    if m = trivet then s.releaseLatches (fget F.RST_RELEASE.REL v) else s.busErr m A.RST_RELEASE true cTrv

/-- RST_RELEASE_WRITE (R730). -/
def execRstReleaseWrite (m : Byte) (v : Word) (s : State) : Host.Outcome State Fault Refusal :=
  .next (s.rstReleaseWrite m.toNat v)

/-! ### Release sequences (Table 16.5, Table 16.13) -/

/-- FUSE_LOAD_DONE (R735 to R737): every word is voted, and the straps are sampled; or the device holds. A Level 1 source
that has asserted meanwhile holds the sequence there (R728). -/
def execFuseLoadDone (s : State) : Host.Outcome State Fault Refusal :=
  if s.rst.stage = .fuses then
    let l := s.voteAll
    match l.failed with
    | some w =>
      let s := { s with rst := { s.rst with stage := .hold } }
      let s := (s.setf A.RST_FUSE F.RST_FUSE.FUSE_FAULT 1).setf A.RST_FUSE F.RST_FUSE.WORD w
      let s := (s.incBy A.RST_FUSE_CORR l.corrected).setf A.RST_PADSET F.RST_PADSET.HARDWIRED 1
      .next (s.fault 0x71 4 originShared w)
    | none =>
      let s := { s with sec := { s.sec with voted := l.words } }
      let s := (s.setf A.RST_FUSE F.RST_FUSE.LOADED 1).incBy A.RST_FUSE_CORR l.corrected
      if s.chipHeld then .next { s with rst := { s.rst with stage := .held, full := false } }
      else .next { s.startUp with rst := { s.rst with stage := .rom, full := false } }
  else .next s

/-- TRIVET_ROM_BOOT_DONE (R749, R771): with the Gauge locked the Trivet has booted, patched or not; after a Level 0 reset the
Vault is wiped; then the halves are released. -/
def execTrivetRomBootDone (patched : Bool) (s : State) : Host.Outcome State Fault Refusal :=
  if s.rst.stage = .rom ∧ s.rawOn then
    let s := s.setb A.SEC_BOOT F.SEC_BOOT.PATCH_OK patched
    let s := if s.rst.powerUp then s.vaultWipe 3 else s
    let s := { s with rst := { s.rst with stage := .done, powerUp := false } }
    .next s.tryRelease
  else .next s

/-- HALF_PLL_LOCK (R725): the half is released. -/
def execHalfPllLock (h : Half) (s : State) : Host.Outcome State Fault Refusal :=
  if (s.hrst h).phase = .releasing ∧ !s.halfHeld h then .next (s.releaseHalf h) else .next s

/-! ### Clocks (R719 to R723) -/

/-- A flag of a half's lockstep comparators or watchdog: heartbeats are suppressed until reset release, and the reset source
asserts (R95, R607, R721). -/
def State.halfError (s : State) (h : Half) (src : Nat) : State :=
  (s.mapEp h fun e => { e with suppressed := true }).assertSource src

/-- The PLLs of a half lose lock (R721). -/
def State.pllLoss (s : State) (h : Half) : State :=
  let s := s.setf A.CLK_EVT (match h with | .k => F.CLK_EVT.PLL_K_LOST | .p => F.CLK_EVT.PLL_P_LOST) 1
  let s := s.setf A.CLK_STATUS (match h with | .k => F.CLK_STATUS.PLL_K_LOCK | .p => F.CLK_STATUS.PLL_P_LOCK) 0
  s.halfError h (15 + h.n)

/-- HALF_PLL_LOCK_LOSS (R721). -/
def execHalfPllLockLoss (h : Half) (s : State) : Host.Outcome State Fault Refusal :=
  if s.running h then .next (s.pllLoss h) else .next s

/-- T5 of a half whose reference has failed (R720). -/
def refExit (h : Half) : Exit := ⟨h, .demoted, 0x20, some ⟨0x02, 0, 0, 0, 0⟩⟩

/-- HALF_REF_FAIL (R720): the half reports HEALTHY = 0 with code 0x02, and T5 follows; in a common-reference mode both
halves are demoted in one decision. A half in neither CHARGE nor STANDBY logs the failure with class F2 (R78). -/
def execHalfRefFail (h : Half) (s : State) : Host.Outcome State Fault Refusal :=
  if 2 ≤ s.fld A.SYS_STRAP F.SYS_STRAP.CLKMODE then
    let stay := [Half.k, Half.p].filter fun h => s.running h && !s.inService h
    if h = .k then .next ((stay.foldl (fun s h => s.fault 0x02 2 (originHalf h) 0) s).exits [refExit .k, refExit .p]) else .next s
  else if s.running h then .next (s.diagF3 h 0x02 0 0 0)
  else .next s

/-- HALF_PLL_HOLD_END (R720, case 4): in a common-reference mode both halves' PLLs lose lock. -/
def execHalfPllHoldEnd (h : Half) (s : State) : Host.Outcome State Fault Refusal :=
  let lose := fun (s : State) (x : Half) => if s.running x then s.pllLoss x else s
  if 2 ≤ s.fld A.SYS_STRAP F.SYS_STRAP.CLKMODE then
    if h = .k then .next (lose (lose s .k) .p) else .next s
  else .next (lose s h)

/-- A deviation in units of 0.01 % is beyond 6 %. -/
def devBad (d : BitVec 16) : Bool := decide (600 < (signedOf 16 d.toNat).natAbs)

/-- TRV_OSC_CHECK (R722): the Trivet oscillator against REF_K and REF_P over 100 µs. -/
def execTrvOscCheck (dk dp : BitVec 16) (s : State) : Host.Outcome State Fault Refusal :=
  let k := s.flag A.GAUGE_REF F.GAUGE_REF.K_OK
  let p := s.flag A.GAUGE_REF F.GAUGE_REF.P_OK
  let s := s.setf A.CLK_TRV_DEV F.CLK_TRV_DEV.DEV (if s.flag A.GAUGE_REF F.GAUGE_REF.ACTIVE then dp.toNat else dk.toNat)
  if !k && !p then .next s
  else if (!k || devBad dk) && (!p || devBad dp) then
    .next ((s.setf A.CLK_EVT F.CLK_EVT.TRV_DEV 1).setf A.CLK_STATUS F.CLK_STATUS.TRV_OK 0).loseTrivet
  else .next (s.setf A.CLK_STATUS F.CLK_STATUS.TRV_OK 1)

/-- The hottest die sensor is read: TJ, and PEAK, its highest value (R754). -/
def State.readTemp (s : State) (tj : Nat) : State :=
  let s := s.setf A.PWR_TEMP F.PWR_TEMP.TJ tj
  if signedOf 16 (s.fld A.PWR_TEMP F.PWR_TEMP.PEAK) < signedOf 16 tj then s.setf A.PWR_TEMP F.PWR_TEMP.PEAK tj else s

/-- OVER_TEMPERATURE_TRIP (R727): the sensor reads `tj`, in units of 0.125 °C; between 115 °C and 125 °C `trip` says whether
the trip, accurate to 5 °C, asserts; below 105 °C it releases. -/
def execOverTemperatureTrip (tj : BitVec 16) (trip : Bool) (s : State) : Host.Outcome State Fault Refusal :=
  let t := signedOf 16 tj.toNat
  let s := s.readTemp tj.toNat
  if 1000 ≤ t ∨ (920 ≤ t ∧ trip = true) then .next (s.assertSource 21)
  else if t < 840 then .next (s.releaseSource 21)
  else .next s

/-- A write of PWR_TEMP: any 1 bit in PEAK sets it to TJ (R754). -/
def State.pwrTempWrite (s : State) (m : Nat) (v : Word) : State :=
  s.guardReg m A.PWR_TEMP fun s =>
    if fget F.PWR_TEMP.PEAK v = 0 then s else s.setf A.PWR_TEMP F.PWR_TEMP.PEAK (s.fld A.PWR_TEMP F.PWR_TEMP.TJ)

/-- PWR_TEMP_PEAK_RESET (R754). -/
def execPwrTempPeakReset (m : Byte) (v : Word) (s : State) : Host.Outcome State Fault Refusal :=
  .next (s.pwrTempWrite m.toNat v)

/-- XTAL_GOOD (R723). -/
def execXtalGood (s : State) : Host.Outcome State Fault Refusal :=
  if s.flag A.WAKE_AON_STATUS F.WAKE_AON_STATUS.XTAL_ON then .next (s.setf A.WAKE_AON_STATUS F.WAKE_AON_STATUS.XTAL_OK 1)
  else .next s

/-! ### Errors of the halves (R95, R607) -/

/-- LOCKSTEP_ERROR (R607): both harts of the half halt. -/
def execLockstepError (h : Half) (s : State) : Host.Outcome State Fault Refusal :=
  if s.running h then
    let halt := fun (s : State) (k : Nat) => s.mapHart k fun x => { x with halted := true }
    .next ((halt (halt s (2 * h.n)) (2 * h.n + 1)).halfError h (17 + h.n))
  else .next s

/-- HALF_WATCHDOG_EXPIRY (R95). -/
def execHalfWatchdogExpiry (h : Half) (s : State) : Host.Outcome State Fault Refusal :=
  if s.running h then .next (s.halfError h (15 + h.n)) else .next s

/-! ### Boot images (R740, R770) -/

/-- The application image of a half is in place: its bytes at LOAD_ADDR in DRAM, its digest and its ROLLBACK (Table 17.5). -/
def State.loadImage (s : State) (h : Half) (img : List Byte) : State :=
  let a := leNat (slice img 16 8)
  let bytes := Config.imageLoad img
  let s := match s.dramPorts (2 + 2 * h.n) a bytes.length true with
    | .ok ps => s.dramPut a bytes ps
    | .error _ => s
  let d : AppImage := ⟨sha384 img, leNat (slice img 12 4)⟩
  match h with
  | .k => { s with appK := some d }
  | .p => { s with appP := some d }

/-- A verified Recipe enters a STOPPED engine, which is LOADING from now on; no command waits for it. -/
def State.bootRecipe (s : State) (i : Nat) (img : List Byte) : State :=
  if s.neState i = neStopped ∧ (s.eng i).load.isNone then
    let s := (s.setf (A.NE_STATUS i) F.NE_STATUS.STATE neLoading).clearMem (neWin i) (neWin i + 0x6800)
    s.mapEng i fun e => { e with load := some ⟨img, 6, 0, true⟩ }
  else s

/-- The boot ROM enters the image of a hart with PMP entry 0 NAPOT over the boot ROM, R and X, locked, and the others OFF (R606);
the register numbers are those of the RISC-V specifications (PRESUMED, log entry 50). -/
def State.bootPmp (s : State) (k : Nat) : State :=
  s.mapHart k fun x => { x with csrs := storePut 0 (storePut 0 x.csrs 0x3A0 0x9D) 0x3B0 0x3FFF }

/-- What a slot's manifest names is taken: the application image, if it names one, which both harts enter, and the Recipes with
their engines (R606, R740, R769). -/
def State.bootSet (s : State) (h : Half) (img : List Byte) (recipes : List (Fin 12 × List Byte)) : State :=
  let s := if img = [] then s else ((s.loadImage h img).bootPmp (2 * h.n)).bootPmp (2 * h.n + 1)
  recipes.foldl (fun s r => s.bootRecipe (12 * h.n + r.1) r.2) s

/-- IMAGE_LOAD_DONE (R500, R740, R770): `a` and `b` say whether the manifest and images of slot A and slot B verify; the images
come with them. A half that wakes from DOZE takes its images from DRAM whatever the boot source. BLANK starts no application
image, and RETIRED accepts none (Table 17.1). -/
def execImageLoadDone (h : Half) (a b : Bool) (image : List Byte) (recipes : List (Fin 12 × List Byte)) (s : State) :
    Host.Outcome State Fault Refusal :=
  let src := s.fld A.SYS_BOOT F.SYS_BOOT.SRC
  let may := s.lc != 0 && s.lc != 4
  if s.running h && decide (src ≤ 1) then
    let first := may && (if src = 0 then a else b)
    let second := may && (if src = 0 then b else a)
    let slot := match h with | .k => F.SEC_BOOT.SLOT_K | .p => F.SEC_BOOT.SLOT_P
    let fall := match h with | .k => F.SEC_BOOT.FALLBACK_K | .p => F.SEC_BOOT.FALLBACK_P
    let fail := match h with | .k => F.SEC_BOOT.FAIL_K | .p => F.SEC_BOOT.FAIL_P
    if first then .next ((s.setf A.SEC_BOOT slot src).bootSet h image recipes)
    else
      let s := (s.setf A.SEC_BOOT fall 1).inc A.SEC_FALLBACK_CNT
      let s := s.setf A.SEC_BOOT slot (1 - src)
      if second then .next (s.bootSet h image recipes) else .next (s.setf A.SEC_BOOT fail 1)
  else if s.running h && may && a && (s.chg.half h).cause == 0x37 then .next (s.bootSet h image recipes)
  else .next s

/-! ### 6412 mode (R742) -/

/-- A write of SYS_MODE. -/
def State.mode6412Write (s : State) (m : Nat) (v : Word) : State :=
  s.guardReg m A.SYS_MODE fun s =>
    let was := s.mode6412
    let s := s.plainWrite A.SYS_MODE v
    if !was && s.mode6412 then s.enter6412 else if was && !s.mode6412 then s.transportDown 4 else s

/-- MODE6412_WRITE (R742). -/
def execMode6412Write (m : Byte) (v : Word) (s : State) : Host.Outcome State Fault Refusal :=
  .next (s.mode6412Write m.toNat v)

/-! ### Tamper and fuses (R760, R772, R773) -/

/-- TAMPER_EVENT (R773): TAMPERn (0), a voltage glitch (1), a clock glitch (2). The Vault is wiped, after a lifecycle fuse
programming that is under way; source 20 asserts, for TAMPERn until the pin returns. -/
def execTamperEvent (cause : Fin 3) (s : State) : Host.Outcome State Fault Refusal :=
  let s := s.setf A.SEC_TAMPER ⟨cause, cause⟩ 1
  let s := s.inc A.SEC_TAMPER_CNT
  let s := if s.sec.jobs.any (fun j => j.lifecycle) then s else s.vaultWipe (if cause.val = 0 then 0 else 1)
  let s := (s.fault 0x80 2 originShared cause).assertSource 20
  .next (if cause.val = 0 then s else s.releaseSource 20)

/-- FUSE_PROGRAM_DONE (R760, R762): the oldest waiting word has been programmed in its three copies and read back; a
lifecycle transition then wipes the Vault, ends every SAFETY role, and asserts a Level 1 reset. -/
def execFuseProgramDone (s : State) : Host.Outcome State Fault Refusal :=
  match s.sec.jobs with
  | [] => .next s
  | j :: rest =>
    let c := fuseCopy j.value
    let arr := [0, 1, 2].foldl (fun m i => storePut 0 m (3 * j.word + i) c) s.sec.array
    let s := { s with sec := { s.sec with array := arr, voted := storeInsert s.sec.voted j.word (j.value % 2 ^ 32), jobs := rest } }
    if j.lifecycle then .next ((s.vaultWipe 2).dropSafety.kcpAssert ⟨1, 0xFF, 0xFF⟩) else .next s

/-- KCP_RESET_RELEASE (R732). -/
def execKcpResetRelease (level target index : Byte) (s : State) : Host.Outcome State Fault Refusal :=
  .next (s.kcpRelease ⟨level.toNat, target.toNat, index.toNat⟩)

/-! ### Fault log (R682) -/

/-- SYS_FLT_RSEQ_WRITE (R682). -/
def execSysFltRseqWrite (m : Byte) (v : Word) (s : State) : Host.Outcome State Fault Refusal :=
  .next (s.guardReg m.toNat A.SYS_FLT_RSEQ fun s => s.plainWrite A.SYS_FLT_RSEQ v)

/-! ### Transports (R644, R646) -/

/-- TRANSPORT_UP (R646): PCIe comes up with PERSTn released and the link trained to `width` lanes at `speed`; a QSPI host port
with its EN; the legacy bus in 6412 mode; each with its half released. -/
def execTransportUp (t : Fin 6) (width : Fin 16) (speed : Fin 4) (s : State) : Host.Outcome State Fault Refusal :=
  match trHalf t with
  | none => .next s
  | some h =>
    if !s.running h then .next s
    else if t.val ≤ 1 then
      let a := A.PCI_STATUS h.n
      let s := (s.setf a F.PCI_STATUS.PERST 0).setf a F.PCI_STATUS.LINK_UP 1
      let s := (s.setf a F.PCI_STATUS.WIDTH width).setf a F.PCI_STATUS.SPEED speed
      .next ((s.padLeave h padPcie).transportUp t)
    else if t.val = 4 then .next (if s.mode6412 then s.transportUp 4 else s)
    else .next (if s.flag (A.QH_CFG h.n) F.QH_CFG.EN then s.transportUp t else s)

/-- Offsets 0x000 to 0x09C of a half's host interface, with descriptors and MSI-X, return to their Reset values (R677). -/
def State.resetPcie (s : State) (h : Half) : State :=
  let base := A.KCP_RING_CTRL h.n
  let s := s.resetRegs fun a => decide (base ≤ a) && decide (a < base + 0xA0)
  let k := s.kcp
  { s with kcp := { k with desc := storeClear (fun n => n / 32 % 2 == h.n) k.desc, msix := storeClear (ofHalf h 32) k.msix
                           active := if h = Half.k then k.active / 2 ^ 32 * 2 ^ 32 else k.active % 2 ^ 32
                           pba := if h = Half.k then k.pba / 2 ^ 32 * 2 ^ 32 else k.pba % 2 ^ 32 } }

/-- TRANSPORT_DOWN (R644): a PCIe endpoint by PERSTn, link loss or Function Level Reset; any other transport when what holds
it up has ended. -/
def execTransportDown (t : Fin 6) (how : PciDown) (s : State) : Host.Outcome State Fault Refusal :=
  match trHalf t with
  | none => .next s
  | some h =>
    if t.val ≤ 1 then
      let s := s.transportDown t
      let a := A.PCI_STATUS h.n
      let live := s.rd a
      match how with
      | .perst => .next (s.resetPcie h)
      | .flr => .next ((s.resetPcie h).wr a (fput F.PCI_STATUS.BME live 0))
      | .link => .next ((s.setf a F.PCI_STATUS.LINK_UP 0).setf a F.PCI_STATUS.BME 0)
    else
      let on := s.running h && (if t.val = 4 then s.mode6412 else s.flag (A.QH_CFG h.n) F.QH_CFG.EN)
      .next (if on then s else s.transportDown t)

end Sys2Proof.Machine
end

