-- ==== Sys2Proof/Machine/Wake.lean ====
section
/-! DEFINITION. The commands of sleep and wake (spec/10): power states, wake segments with their bind-off, wake requests from
frames, pins and hosts, false wakes, and the insomniac log. -/

namespace Sys2Proof.Machine
open Sys2Proof

/-! ### The insomniac log (R524 to R526) -/

/-- Seconds in ticks of 2 ns. -/
def secTicks : Nat := 500000000

/-- The eight words of an insomniac entry (Table 10.6). -/
def insWords (e : Episode) (k raw : Nat) (isOpen : Bool) : List Nat :=
  [e.addr % 2 ^ 32, b2n e.can * 2 ^ 31 + b2n isOpen * 2 ^ 30 + e.src * 2 ^ 16 + (if e.can then 0 else e.addr / 2 ^ 32 % 2 ^ 16),
   e.start % 2 ^ 32, e.start / 2 ^ 32, k % 65536 * 65536 + e.epoch % 65536, (raw - e.start) / secTicks, e.count, 0]

/-- Entry k of segment n written or updated. -/
def State.insPut (s : State) (n : Nat) (e : Episode) (k : Nat) (isOpen : Bool) : State :=
  s.wrWords (A.WAKE_INS_LOG n (k % 32) 0) (insWords e k s.raw isOpen)

/-- The Larder's copy of an entry (R525). -/
def State.insCopy (s : State) (n : Nat) (e : Episode) (k : Nat) (isOpen : Bool) : State :=
  s.larderEvent 6 0xFF n ((insWords e k s.raw isOpen).flatMap (leBytes 4)) []

/-- The episode of segment n ends: its entry is updated a last time and closed (R524, R525). -/
def State.endEpisode (s : State) (n : Nat) : State :=
  let x := s.seg n
  match x.episode with
  | none => s
  | some e =>
    let s := s.putSeg n { x with episode := none }
    match e.entry with
    | none => s
    | some k => ((s.insPut n e k false).insCopy n e k false).setf (A.WAKE_SEG_STATUS n) F.WAKE_SEG_STATUS.INS_OPEN 0

/-- INSOMNIA_ENTRY_WRITE (R525): the episode of segment n has lasted WAKE_INSOMNIA_T. -/
def execInsomniaEntryWrite (n : Fin 8) (s : State) : Host.Outcome State Fault Refusal :=
  let x := s.seg n
  match x.episode with
  | none => .next s
  | some e =>
    if e.entry.isNone ∧ e.start + s.fld A.WAKE_INSOMNIA_T F.WAKE_INSOMNIA_T.S * secTicks ≤ s.raw then
      let k := x.entries
      let st := A.WAKE_SEG_STATUS n
      let s := s.putSeg n { x with episode := some { e with entry := some k }, entries := k + 1 }
      let s := (s.setf st F.WAKE_SEG_STATUS.INS_NEXT (k + 1)).setf st F.WAKE_SEG_STATUS.INS_OPEN 1
      .next ((s.insPut n e k true).insCopy n e k true)
    else .next s

/-- INSOMNIA_UPDATE (R525): every second. -/
def execInsomniaUpdate (n : Fin 8) (s : State) : Host.Outcome State Fault Refusal :=
  match (s.seg n).episode with
  | none => .next s
  | some e =>
    match e.entry with
    | none => .next s
    | some k =>
      if s.rdn (A.WAKE_INS_LOG n (k % 32) 5) < (s.raw - e.start) / secTicks then .next (s.insPut n e k true) else .next s

/-- The log of segment n cleared (R526). -/
def State.insClear (s : State) (n : Nat) : State :=
  let st := A.WAKE_SEG_STATUS n
  let s := s.resetRegs fun a => decide (A.WAKE_INS_LOG n 0 0 ≤ a) && decide (a < A.WAKE_INS_LOG n 32 0)
  let s := (s.setf st F.WAKE_SEG_STATUS.INS_NEXT 0).setf st F.WAKE_SEG_STATUS.INS_OPEN 0
  s.mapSeg n fun x => { x with episode := none, entries := 0 }

/-- A write of WAKE_INS_CLR (R526). -/
def State.insClrWrite (s : State) (m : Nat) (v : Word) : State :=
  s.guardReg m A.WAKE_INS_CLR fun s =>
    (List.range 8).foldl (fun s n => if bitAt v.toNat n then s.insClear n else s) s

/-- WAKE_INS_CLR_WRITE (R526). -/
def execWakeInsClrWrite (m : Byte) (v : Word) (s : State) : Host.Outcome State Fault Refusal :=
  .next (s.insClrWrite m.toNat v)

/-! ### Segments (R502 to R515) -/

/-- The timer of an AWAKE segment restarts by something that is no keep-alive. -/
def State.segFresh (s : State) (n t : Nat) : State := (s.endEpisode n).segRestart n t

/-- What is done for every member of segment n. -/
def State.eachMember (s : State) (n : Nat) (f : State → Nat → State) : State :=
  (List.range 16).foldl (fun s bit => if s.segHas n bit then f s bit else s) s

/-- Bind-off begins (R509, R510): the episode ends, and a member TL port that is sending lets that frame end. -/
def State.segBindOff (s : State) (n : Nat) : State :=
  let s := (s.endEpisode n).eachMember n fun s bit => if bit < 8 then s.txMark (tlPort bit) else s
  (s.setSeg n sgBindOff).mapSeg n fun x => { x with want := false }

/-- A member of segment n is still sending a frame (R510, steps 2 and 3). -/
def State.segSending (s : State) (n : Nat) : Bool :=
  (List.range 16).any fun bit => s.segHas n bit &&
    if bit < 8 then (s.port (tlPort bit)).begun && s.lineBusy (tlPort bit) else (s.can (bit - 8)).startSof.isSome

/-- A request that comes after B waits for the end of bind-off (R512, case 2). -/
def State.segLatch (s : State) (n : Nat) : State :=
  (s.setf (A.WAKE_SEG_STATUS n) F.WAKE_SEG_STATUS.LATCHED 1).mapSeg n fun x => { x with want := true }

/-- A wake request with instant t reaches segment n (R509, R512, R515). -/
def State.segRequest (s : State) (n t : Nat) (r : WakeReq) : State :=
  let s := s.wakeEvent r
  let st := s.segState n
  let b := s.segB n
  if st = sgAwake then
    if t < b then s.segFresh n t else ((s.segBindOff n).segLatch n).inc (A.WAKE_SEG_LATE n)
  else if st = sgBindOff then
    let s := s.inc (A.WAKE_SEG_LATE n)
    if t < b then (s.setSeg n sgAwake).segFresh n t else s.segLatch n
  else if st = sgAsleep then (s.inc (A.WAKE_SEG_LATE n)).setSeg n sgWaking
  else s

/-- The wake event of segment n with CAUSE_TYPE `typ`. -/
def State.segReq (s : State) (n typ : Nat) : WakeReq :=
  ⟨typ, n, powerField (s.fld (A.WAKE_SEG_CTRL n) F.WAKE_SEG_CTRL.POWER)⟩

/-- A keep-alive with instant t from a sender on a member of segment n (R507, R509, R524). -/
def State.segKeepAlive (s : State) (n t addr src : Nat) (can : Bool) : State :=
  let s := s.inc (A.WAKE_SEG_KA_RX n)
  let st := s.segState n
  if s.segHold n then s
  else if t < s.segB n ∧ (st = sgAwake ∨ st = sgBindOff) then
    let fresh : Episode := ⟨addr, can, src, t, s.rdn A.GAUGE_EPOCH, 1, none⟩
    let x := s.seg n
    let s := match x.episode with
      | none => s.putSeg n { x with episode := some fresh }
      | some e =>
        if e.addr = addr ∧ e.can = can then s.putSeg n { x with episode := some { e with count := min 0xFFFFFFFF (e.count + 1) } }
        else (s.endEpisode n).mapSeg n fun x => { x with episode := some fresh }
    (s.setSeg n sgAwake).segRestart n t
  else s.segRequest n t (s.segReq n 4)

/-- SEG_BIND_OFF_START (R509). -/
def execSegBindOffStart (n : Fin 8) (s : State) : Host.Outcome State Fault Refusal :=
  if s.segOn n ∧ s.segState n = sgAwake ∧ !s.segHold n ∧ s.rawOn ∧ s.segB n ≤ s.raw then .next (s.segBindOff n)
  else .next s

/-- A member of a segment goes down (R510, steps 2 and 3). -/
def State.memberDown (s : State) (bit : Nat) : State :=
  if bit < 8 then (if s.running (unitHalf bit 4) then s.tlStop bit else s)
  else
    let c := bit - 8
    if s.running (unitHalf c 4) then
      let s := (s.setf (A.CX_STATUS c) F.CX_STATUS.SYNCED 0).mapCan c fun x => { x with pxe := false }
      let s := s.cxBus c
      if s.dtt c = dOff then s.cxStatus c else s.dttOff c
    else s

/-- A member of a segment comes back (R514, steps 1 and 2). -/
def State.memberUp (s : State) (bit : Nat) : State :=
  if bit < 8 then (if s.running (unitHalf bit 4) ∧ s.tlEn bit then s.tlStart bit else s)
  else
    let c := bit - 8
    if s.running (unitHalf c 4) then
      let s := (s.mapCan c fun x => { x with recovering := x.busOff }).cxBus c
      if s.flag (A.DTT_CTRL c) F.DTT_CTRL.EN ∧ s.dttRequirements c ∧ s.cxEn c then s.dttListen c (!(s.can c).busOff)
      else s.cxStatus c
    else s

/-- SEG_ASLEEP (R510, step 4; R512, case 2): once every member has finished the frame it was sending. -/
def execSegAsleep (n : Fin 8) (s : State) : Host.Outcome State Fault Refusal :=
  if s.segState n = sgBindOff ∧ !s.segSending n then
    let s := (s.setSeg n sgAsleep).eachMember n State.memberDown
    let s := (s.inc (A.WAKE_SEG_SLEEPS n)).netEvent n 2
    if (s.seg n).want then .next ((s.setSeg n sgWaking).mapSeg n fun x => { x with want := false }) else .next s
  else .next s

/-- CXn_WAKE pulses of the members of a waking segment (R519). -/
def State.cxPulse (s : State) (bit : Nat) : State :=
  if 8 ≤ bit ∧ s.flag (A.WAKE_CX_CFG (bit - 8)) F.WAKE_CX_CFG.PULSE then
    { s with wake := { s.wake with pulses := storeInsert s.wake.pulses (bit - 8) s.now } }
  else s

/-- SEG_AWAKE (R514). -/
def execSegAwake (n : Fin 8) (s : State) : Host.Outcome State Fault Refusal :=
  if s.segState n = sgWaking then
    let s := (s.setSeg n sgAwake).eachMember n State.memberUp
    .next ((s.eachMember n State.cxPulse).segRestart n s.raw)
  else .next s

/-- CX_WAKE_PULSE_END (R519): 100 µs after the pulse began. -/
def execCxWakePulseEnd (c : Fin 8) (s : State) : Host.Outcome State Fault Refusal :=
  match storeFind s.wake.pulses c.val with
  | none => .next s
  | some t =>
    if t + 100 * usTicks ≤ s.now then .next { s with wake := { s.wake with pulses := storeErase s.wake.pulses c } }
    else .next s

/-! ### Keep-alives and wake frames (R504 to R507, R516, R517) -/

/-- The MAC of TL port p receives (R505). -/
def State.tlHears (s : State) (p : Nat) : Bool :=
  s.running (unitHalf p 4) && s.tlEn p && s.flag (A.MAC_CTRL (tlPort p)) F.MAC_CTRL.RX_EN &&
  s.flag (A.MAC_STATUS (tlPort p)) F.MAC_STATUS.LINK

/-- The wake decoder of TL port p, a member of segment n, is armed and clocked (R516, R518). -/
def State.decoderArmed (s : State) (p n : Nat) : Bool :=
  (s.segState n == sgAsleep || s.halfOff (unitHalf p 4)) && s.flag A.WAKE_AON_STATUS F.WAKE_AON_STATUS.XTAL_ON

/-- KEEPALIVE_RECEIVE (R505, R509): the MAC of a member reports a frame that passed checks 1 to 4, with its counting instant. -/
def execKeepaliveReceive (p : Fin 8) (bytes : List Byte) (t : Dword) (s : State) : Host.Outcome State Fault Refusal :=
  match s.segOf p, s.wakeMsg bytes with
  | some n, some m =>
    if s.tlHears p ∧ m.sub = 1 then .next (s.segKeepAlive n t.toNat m.sa p false) else .next s
  | _, _ => .next s

/-- CAN_KEEPALIVE (R507): a frame received without error on a channel, with the instant of its end. -/
def execCanKeepalive (c : Fin 8) (ident : BitVec 29) (ide : Bool) (t : Dword) (s : State) : Host.Outcome State Fault Refusal :=
  match s.segOf (8 + c) with
  | none => .next s
  | some n =>
    let id := A.WAKE_SEG_CAN_KA_ID n
    let mask := s.fld (A.WAKE_SEG_CAN_KA_MASK n) F.WAKE_SEG_CAN_KA_MASK.MASK
    let hit := s.flag id F.WAKE_SEG_CAN_KA_ID.EN && (s.flag id F.WAKE_SEG_CAN_KA_ID.IDE == ide) &&
      ((ident.toNat ^^^ s.fld id F.WAKE_SEG_CAN_KA_ID.ID) &&& mask) == 0
    if s.running (cxHalf c) && s.cxOn c && hit then .next (s.segKeepAlive n t.toNat ident.toNat (0x20 + c) true) else .next s

/-- Wake entry e of TL port p matches a wake frame (R517). -/
def State.entryHit (s : State) (p e : Nat) (m : WakeMsg) : Bool :=
  let id := A.WAKE_TLM_ID p e
  let val := s.rd64 (A.WAKE_TLM_DVAL_LO p e) (A.WAKE_TLM_DVAL_HI p e)
  let mask := s.rd64 (A.WAKE_TLM_DMASK_LO p e) (A.WAKE_TLM_DMASK_HI p e)
  s.flag (A.WAKE_TLM_CTRL p e) F.WAKE_TLM_CTRL.EN &&
  ((m.group ^^^ s.fld id F.WAKE_TLM_ID.ID_VAL) &&& s.fld id F.WAKE_TLM_ID.ID_MASK) == 0 &&
  ((m.data ^^^ val) &&& mask) == 0

/-- WAKE_FRAME_RECEIVE (R505, R516, R517): seen by the MAC of a member or by its armed wake decoder. -/
def execWakeFrameReceive (p : Fin 8) (bytes : List Byte) (t : Dword) (s : State) : Host.Outcome State Fault Refusal :=
  match s.segOf p, s.wakeMsg bytes with
  | some n, some m =>
    if (s.tlHears p || s.decoderArmed p n) && m.sub == 2 then
      let hits := (List.range 4).filter fun e => s.entryHit p e m
      if hits = [] then .next (s.inc (A.WAKE_TL_NOMATCH p))
      else
        let s := hits.foldl (fun s e => s.inc (A.WAKE_TLM_CNT p e)) s
        .next (s.segRequest n t.toNat (s.segReq n 1))
    else .next s
  | _, _ => .next s

/-- The keep-alive that TL port p sends (R504, R506). -/
def State.keepAlive (s : State) (p : Nat) : List Byte :=
  let port := tlPort p
  leBytes 4 (s.rdn A.WAKE_DA_LO) ++ leBytes 2 (s.fld A.WAKE_DA_HI F.WAKE_DA_HI.ADDR) ++
  leBytes 4 (s.rdn (A.MAC_SA_LO port)) ++ leBytes 2 (s.rdn (A.MAC_SA_HI port)) ++
  [0x88#8, 0xB5#8, 0x01#8, 0x01#8] ++ List.replicate 44 0

/-- KEEPALIVE_SEND (R506): every INTERVAL milliseconds while HOLD and KA_TX are 1. -/
def execKeepaliveSend (n : Fin 8) (s : State) : Host.Outcome State Fault Refusal :=
  let c := A.WAKE_SEG_CTRL n
  if s.segOn n ∧ s.segHold n ∧ s.flag c F.WAKE_SEG_CTRL.KA_TX ∧
      (s.seg n).lastKa + s.fld A.WAKE_KA F.WAKE_KA.INTERVAL * msTicks ≤ s.now then
    let s := s.mapSeg n fun x => { x with lastKa := s.now }
    .next (s.eachMember n fun s p =>
      if p < 8 ∧ s.running (unitHalf p 4) ∧ s.flag (A.MAC_STATUS (tlPort p)) F.MAC_STATUS.LINK then
        s.macSend (tlPort p) (s.keepAlive p) (8 * s.raw)
      else s)
  else .next s

/-! ### Writes of segment registers (R502, R509) -/

/-- Enabling segment n would make a member of two enabled segments (R502). -/
def State.membClash (s : State) (n : Nat) : Bool :=
  (List.range 8).any fun k => k != n && s.segOn k && (s.rdn (A.WAKE_SEG_MEMB k) &&& s.rdn (A.WAKE_SEG_MEMB n)) != 0

/-- What a change of WAKE_SEG_CTRL does: `t0` is the SLEEP_T before it, `hold` the HOLD, `on` the EN. -/
def State.segFollow (s : State) (n t0 : Nat) (hold on : Bool) : State :=
  let b := s.rd64 (A.WAKE_SEG_BO_LO n) (A.WAKE_SEG_BO_HI n)
  let t1 := s.sleepT n
  let s := if t0 = t1 then s else s.wr64 (A.WAKE_SEG_BO_LO n) (A.WAKE_SEG_BO_HI n) (rawMod (b + t1 - t0))
  let s := if hold ∧ !s.segHold n then s.segRestart n s.raw else s
  if s.segOn n then
    let s := if on then s else (s.setSeg n sgAwake).segFresh n s.raw
    if !hold ∧ s.segHold n then (s.endEpisode n).segRequest n s.raw (s.segReq n 5) else s
  else if on then
    let s := (s.endEpisode n).mapSeg n fun x => { x with want := false, check := none }
    if 2 ≤ s.segState n then (s.setSeg n sgAwake).eachMember n State.memberUp else s.setSeg n sgAwake
  else s

/-- A write of WAKE_SEG_CTRL: SLEEP_T below 100 is stored as 100; one that enables members of another enabled segment is
ignored as a whole with CFG_REJ (R502). -/
def State.segCtrlWrite (s : State) (m n : Nat) (v : Word) : State :=
  let a := A.WAKE_SEG_CTRL n
  s.guardReg m a fun s =>
    if fget F.WAKE_SEG_CTRL.EN v = 1 ∧ s.membClash n then s.setf A.WAKE_AON_STATUS F.WAKE_AON_STATUS.CFG_REJ 1
    else
      let t0 := s.sleepT n
      let hold := s.segHold n
      let on := s.segOn n
      let s := s.plainWrite a v
      let s := s.setf a F.WAKE_SEG_CTRL.SLEEP_T (max 100 (s.fld a F.WAKE_SEG_CTRL.SLEEP_T))
      s.segFollow n t0 hold on

/-- SEG_HOLD_WRITE (R509, R512). -/
def execSegHoldWrite (m : Byte) (n : Fin 8) (v : Word) (s : State) : Host.Outcome State Fault Refusal :=
  .next (s.segCtrlWrite m.toNat n v)

/-- A write of WAKE_SEG_MEMB: ignored with CFG_REJ while EN is 1 (Table 10.12). -/
def State.segMembWrite (s : State) (m n : Nat) (v : Word) : State :=
  s.guardReg m (A.WAKE_SEG_MEMB n) fun s =>
    if s.segOn n then s.setf A.WAKE_AON_STATUS F.WAKE_AON_STATUS.CFG_REJ 1 else s.plainWrite (A.WAKE_SEG_MEMB n) v

/-- SEG_MEMB_WRITE (R502). -/
def execSegMembWrite (m : Byte) (n : Fin 8) (v : Word) (s : State) : Host.Outcome State Fault Refusal :=
  .next (s.segMembWrite m.toNat n v)

/-! ### Pins and user paths (R519 to R523) -/

/-- CAN_INH_WAKE (R519): CXn_INH has held `level` for t_INH_FILT; a level that rises, with its polarity, is a wake request
for the segment of the channel, at instant t. -/
def execCanInhWake (c : Fin 8) (level : Bool) (t : Dword) (s : State) : Host.Outcome State Fault Refusal :=
  let a := A.WAKE_CX_CFG c
  let pol := s.flag a F.WAKE_CX_CFG.INH_POL
  let was := s.flag a F.WAKE_CX_CFG.INH != pol
  let s := s.setb a F.WAKE_CX_CFG.INH level
  if !was && (level != pol) then
    match s.segOf (8 + c) with
    | some n => .next (s.segRequest n t.toNat (s.segReq n 2))
    | none => .next s
  else .next s

/-- USER_PATH_WAKE (R521 to R523): source i of Table 10.5 at instant t; for a mailbox post, the channel, whose receiver's
half is off. -/
def execUserPathWake (i : Fin 13) (c : Fin 64) (t : Dword) (s : State) : Host.Outcome State Fault Refusal :=
  let a := A.WAKE_SRC i
  let off := match masterHalf (s.mbxReceiver c) with
    | some h => s.halfOff h
    | none => false
  if s.flag a F.WAKE_SRC.EN ∧ (i.val < 12 ∨ off = true) then
    let idx := if i.val < 12 then i.val else 12 + 16 * c.val
    let s := s.wakeEvent ⟨3, idx, powerField (s.fld a F.WAKE_SRC.POWER)⟩
    .next ((List.range 8).foldl (fun s n =>
      if bitAt (s.fld a F.WAKE_SRC.SEG) n ∧ s.segOn n then s.segRequest n t.toNat { s.segReq n 3 with idx := idx } else s) s)
  else .next s

/-- WAKE_VALID_TIMEOUT (R522, R523): a wake by source i, for a mailbox post by channel c, has led to no valid communication;
the count of a source with EN = 0 is unchanged. It acts once its tick has passed, so that communication on that tick wins (R18). -/
def execWakeValidTimeout (i : Fin 13) (c : Fin 64) (s : State) : Host.Outcome State Fault Refusal :=
  let key := if i.val < 12 then i.val else 12 + 16 * c.val
  match storeFind s.wake.valid key with
  | none => .next s
  | some d =>
    if d < s.now then
      let s : State := { s with wake := { s.wake with valid := storeErase s.wake.valid key } }
      let cnt := A.WAKE_FALSE_CNT i
      let a := A.WAKE_SRC i
      if !s.flag a F.WAKE_SRC.EN then .next s
      else
        let s := s.incSat cnt F.WAKE_FALSE_CNT.COUNT
        let thr := s.fld a F.WAKE_SRC.THR
        if thr ≠ 0 ∧ thr ≤ s.fld cnt F.WAKE_FALSE_CNT.COUNT then
          let s := (s.setf a F.WAKE_SRC.EN 0).setf a F.WAKE_SRC.MASKED 1
          .next ((s.fault 0x92 0 originShared i).netEvent i 3)
        else .next s
    else .next s

/-- A write of WAKE_FALSE_CLR (R523). -/
def State.falseClrWrite (s : State) (m : Nat) (v : Word) : State :=
  s.guardReg m A.WAKE_FALSE_CLR fun s =>
    (List.range 13).foldl (fun s i => if bitAt v.toNat i then s.wr (A.WAKE_FALSE_CNT i) 0 else s) s

/-- WAKE_FALSE_CLR_WRITE (R523). -/
def execWakeFalseClrWrite (m : Byte) (v : Word) (s : State) : Host.Outcome State Fault Refusal :=
  .next (s.falseClrWrite m.toNat v)

/-! ### Power states (R495 to R501) -/

/-- A bit of PWR_EN set or cleared. -/
def State.pwren (s : State) (b : Nat) (on : Bool) : State :=
  let v := s.fld A.PWR_EN F.PWR_EN.PWREN
  let v := if bitAt v b then v - 2 ^ b else v
  s.setf A.PWR_EN F.PWR_EN.PWREN (if on then v + 2 ^ b else v)

/-- The supervisors of a half's rails report nothing while its rails are off (R717). -/
def State.railsDown (s : State) (h : Half) (keep : Bool) : State :=
  let s := ((s.setRail (2 + h.n) false).setRail (6 + h.n) false).setRail (10 + h.n) false
  if keep then s else s.setRail (4 + h.n) false

/-- The rails of a half are removed: it is isolated first, and held in its Level 2 reset; `keep` keeps its DRAM in
self-refresh (R497, R717). -/
def State.powerOff (s : State) (h : Half) (keep : Bool) : State :=
  let s := (s.isolate h true).pwren h.n false
  let s := (s.pwren (2 + h.n) keep).railsDown h keep
  (s.putHrst h { s.hrst h with powered := false, rising := false }).holdHalf h keep

/-- A half is powered: it is released once its supervisors have released (R718). -/
def State.powerOn (s : State) (h : Half) : State :=
  let s := (s.pwren h.n true).pwren (2 + h.n) true
  s.putHrst h { s.hrst h with powered := true, rising := true }

def State.setPstate (s : State) (v : Nat) : State := s.setf A.WAKE_PSTATE F.WAKE_PSTATE.STATE v
def State.reqRej (s : State) : State := s.setf A.WAKE_PSTATE F.WAKE_PSTATE.REQ_REJ 1

/-- The state and SOLO_HALF as the halves are powered. -/
def State.poweredState (s : State) : State :=
  match s.halfOff .k, s.halfOff .p with
  | false, true => (s.setPstate psSolo).setf A.WAKE_PSTATE F.WAKE_PSTATE.SOLO_HALF 0
  | true, false => (s.setPstate psSolo).setf A.WAKE_PSTATE F.WAKE_PSTATE.SOLO_HALF 1
  | _, _ => (s.setPstate psRun).setf A.WAKE_PSTATE F.WAKE_PSTATE.SOLO_HALF 0

/-- An enabled entry exists on a member port of an enabled segment: the crystal stays on (R518). -/
def State.xtalNeeded (s : State) : Bool :=
  (List.range 8).any fun p => (s.segOf p).isSome && (List.range 4).any fun e => s.flag (A.WAKE_TLM_CTRL p e) F.WAKE_TLM_CTRL.EN

/-- Step 4 of R497: the Trivet, the Gauge and the shared blocks are powered down. -/
def State.sleepDown (s : State) : State :=
  let s := (List.range 8).foldl (fun s n => s.endEpisode n) s
  let retain := s.flag A.WAKE_PCTRL F.WAKE_PCTRL.RETAIN
  let keepK := s.dramK.retained && retain
  let keepP := s.dramP.retained && retain
  let s := s.resetChip false keepK keepP
  let off := fun (r : HalfRst) => { r with powered := false, rising := false, isolated := true }
  let r := s.rst
  let s := { s with rst := { r with stage := .asleep, k := off r.k, p := off r.p } }
  let s := ((s.railsDown .k keepK).railsDown .p keepP).setRail 1 false
  let s := s.setf A.PWR_EN F.PWR_EN.PWREN (b2n keepK * 4 + b2n keepP * 8)
  let s := if s.xtalNeeded then s else
    (s.setf A.WAKE_AON_STATUS F.WAKE_AON_STATUS.XTAL_ON 0).setf A.WAKE_AON_STATUS F.WAKE_AON_STATUS.XTAL_OK 0
  s.setPstate psSleep

/-- Entry to DOZE or SLEEP (R497). -/
def State.enterPower (s : State) (dest : Nat) : State :=
  let soft := [Half.k, Half.p].filter fun h =>
    s.chgOf h == .init || s.chgOf h == .candidate || s.chgOf h == .standby || s.chgOf h == .demoted
  let s := s.exits (soft.map fun h => ⟨h, .service, 0x37, none⟩)
  let retain := decide (dest = psDoze) || s.flag A.WAKE_PCTRL F.WAKE_PCTRL.RETAIN
  let held := [Half.k, Half.p].filter fun h => s.chgOf h == .charge
  let s := s.exits (held.map fun h => ⟨h, .lost, 0x11, some ⟨0x62, 0, 0, 0, 0⟩⟩)
  let s := [Half.k, Half.p].foldl (fun s h => if s.halfOff h then s else s.powerOff h (s.trained h && retain)) s
  let s := (s.setPstate psDoze).setf A.WAKE_PSTATE F.WAKE_PSTATE.SOLO_HALF 0
  if dest = psSleep then s.sleepDown else s

/-- A half may be powered off alone: it is in SERVICE or LOST (Table 10.2). -/
def State.mayPowerOff (s : State) (h : Half) : Bool := s.chgOf h == .service || s.chgOf h == .lost

/-- A half is powered off alone. -/
def State.soloOff (s : State) (h : Half) : State := (s.powerOff h false).poweredState

/-- The half that is off in SOLO. -/
def State.soloOffHalf (s : State) : Half := (halfOf (s.fld A.WAKE_PSTATE F.WAKE_PSTATE.SOLO_HALF)).other

/-- A wake of halves begins, from the power state in force. -/
def State.beginWake (s : State) (hs : List Half) (evs : List WakeReq) : State :=
  let prev := s.pstate + 4 * s.fld A.WAKE_PSTATE F.WAKE_PSTATE.SOLO_HALF
  let mask := hs.foldl (fun n h => n + 2 ^ h.n) 0
  let s := hs.foldl State.powerOn s
  let s := { s with wake := { s.wake with waking := mask, prev := prev, ends := evs } }
  (s.setf A.WAKE_PSTATE F.WAKE_PSTATE.BUSY 1).poweredState

/-- A power request (Table 10.2, R496, R499): REQ, and for SOLO the half dest power off. -/
def State.powerRequest (s : State) (req : Nat) (h : Half) : State :=
  let ps := s.pstate
  if s.powerBusy then s.reqRej
  else if ps = psRun ∧ req = psSolo then (if s.mayPowerOff h then s.soloOff h else s.reqRej)
  else if ps = psSolo ∧ req = psRun then s.beginWake [s.soloOffHalf] []
  else if (ps = psRun ∨ ps = psSolo) ∧ (req = psDoze ∨ req = psSleep) then s.enterPower req
  else if ps = psDoze ∧ req = psSleep then s.sleepDown
  else s.reqRej

/-- A write of WAKE_PCTRL (R496). -/
def State.pctrlWrite (s : State) (m : Nat) (v : Word) : State :=
  s.guardReg m A.WAKE_PCTRL fun s =>
    let s := s.plainWrite A.WAKE_PCTRL v
    if fget F.WAKE_PCTRL.GO v = 1 then
      s.powerRequest (s.fld A.WAKE_PCTRL F.WAKE_PCTRL.REQ) (halfOf (s.fld A.WAKE_PCTRL F.WAKE_PCTRL.HALF))
    else s

/-- POWER_REQUEST (R496): a write of WAKE_PCTRL with GO = 1. -/
def execPowerRequest (m : Byte) (v : Word) (s : State) : Host.Outcome State Fault Refusal :=
  .next (s.pctrlWrite m.toNat (fput F.WAKE_PCTRL.GO v 1))

/-- AUTO_SLEEP_ENTRY (R496, Table 10.2). -/
def execAutoSleepEntry (s : State) : Host.Outcome State Fault Refusal :=
  let dest := s.fld A.WAKE_PCTRL F.WAKE_PCTRL.AUTO_STATE
  let ps := s.pstate
  let quiet := (List.range 8).all fun n => !s.segOn n || (s.segState n == sgAsleep && !s.segHold n)
  if s.powerBusy ∨ dest < psDoze then .next s
  else if (ps = psRun ∨ ps = psSolo) ∧ quiet then .next (s.enterPower dest)
  else if ps = psDoze ∧ dest = psSleep then .next s.sleepDown
  else .next s

/-- A half that wakes from DOZE (R500): the Trivet takes it by T8 out of LOST, and T9 follows at its release. -/
def State.wakeRecast (s : State) (h : Half) : State :=
  let s := if s.chgOf h = .lost then s.toService h 0x37 else s
  s.armRecast h 0x37

/-- The chip wakes from SLEEP: a Level 1 reset is held until VDD_TRV is back (R501); the timers of AWAKE segments start
with the raw counter. -/
def State.wakeChip (s : State) : State :=
  let r := s.rst
  let s := { s with rst := { r with stage := .held, asserted := if bitAt r.asserted 2 then r.asserted else r.asserted + 2 ^ 2, full := false }, raw := 0 }
  let s := (s.pwren 4 true).setf A.WAKE_AON_STATUS F.WAKE_AON_STATUS.XTAL_ON 1
  let iso := fun (r : HalfRst) => { r with isolated := !r.powered }
  let s := { s with rst := { s.rst with k := iso s.rst.k, p := iso s.rst.p } }
  (List.range 8).foldl (fun s n => if s.segOn n ∧ s.segState n = sgAwake then s.segRestart n 0 else s) s

/-- DEVICE_WAKE (R496, R499 to R501, R515): the wake events that wait power the halves they name. -/
def execDeviceWake (s : State) : Host.Outcome State Fault Refusal :=
  let evs := s.wake.pend.filter fun r => s.namesOff r.power
  let s0 := { s with wake := { s.wake with pend := [] } }
  match evs with
  | [] => .next s0
  | r :: _ =>
    if s.powerBusy then .next s
    else
      let hs := [Half.k, Half.p].filter fun h => s.halfOff h && evs.any fun e => bitAt e.power h.n
      let ps := s.pstate
      let s := s0.beginWake hs evs
      let s := (s.setf A.WAKE_PSTATE F.WAKE_PSTATE.CAUSE_TYPE r.typ).setf A.WAKE_PSTATE F.WAKE_PSTATE.CAUSE_IDX
        (if r.typ = 3 then r.idx % 16 else r.idx)
      if ps = psDoze then .next (hs.foldl State.wakeRecast s)
      else if ps = psSleep then .next s.wakeChip
      else .next s

/-- NODATA_TIMEOUT (R520): no valid traffic on segment n by the deadline; the device returns to the state it
left. It acts once its tick has passed, so that traffic on that tick wins (R18). -/
def execNodataTimeout (n : Fin 8) (s : State) : Host.Outcome State Fault Refusal :=
  match (s.seg n).check with
  | none => .next s
  | some (d, prev) =>
    if d < s.now then
      let s := (s.inc (A.WAKE_SEG_NODATA n)).mapSeg n fun x => { x with check := none }
      let ps := s.pstate
      if s.powerBusy ∨ psDoze ≤ ps then .next s
      else if psDoze ≤ prev % 4 then .next (s.enterPower (prev % 4))
      else
        let off := (halfOf (prev / 4)).other
        .next (if ps = psRun ∧ s.mayPowerOff off then s.soloOff off else s)
    else .next s

end Sys2Proof.Machine
end

