-- ==== Sys2Proof/Machine/KcpEngine.lean ====
section
/-! DEFINITION. The command engine: arrival, start and timeout of commands, sessions, replies to ring slots, UDP datagrams,
effects that wait for their reply (spec/14, R634 to R661, R670 to R673). -/

namespace Sys2Proof.Machine
open Sys2Proof

/-! ### Arrival (R636 to R638, Table 14.3) -/

/-- A count register of the host interface of a transport's half; a UDP packet counts in the plane of its arrival. -/
def State.kcpCount (s : State) (h n : Nat) (reg : Nat → Nat) : State := s.incBy (reg h) n

/-- The half whose counters a transport counts in. -/
def trCount (t : Nat) (o : Option UdpFrom) : Nat :=
  match trHalf t with
  | some h => h.n
  | none => (o.map fun x => x.half).getD 0

/-- A packet that a transport has received: transport, the session of its datagram (0 elsewhere), ring slot or the
key slot of its datagram, origin, bytes. -/
structure Arrived where
  tr : Nat
  sess : Nat
  slot : Nat
  origin : Option UdpFrom
  bytes : List Byte

/-- Check 8: SESSION names an open session; SESSION_OPEN comes with 0 on UDP, before there is one (Table 14.5). -/
def State.sessionOk (s : State) (a : Arrived) : Bool :=
  let n := u a.bytes 12 2
  n == a.sess && ((s.session a.tr n).isSome || (a.tr == 5 && n == 0 && u a.bytes 4 2 == 8))

/-- The status of the first check of Table 14.3 that a packet fails. -/
def State.arriveCheck (s : State) (a : Arrived) : Option Nat :=
  let b := a.bytes
  let plen := u b 8 4
  let op := u b 4 2
  let mine := s.kcp.cmds.filter fun c => c.tr = a.tr
  let safe := (s.session a.tr a.sess).any fun x => x.safety
  if b.take 2 ≠ [0x4B#8, 0x43#8] then some stBadCrc
  else if 69632 < plen ∨ b.length ≠ 20 + plen then some stBadLength
  else if crc32c (b.take (16 + plen)) ≠ u b (16 + plen) 4 then some stBadCrc
  else if byteAt b 2 ≠ 1 ∨ byteAt b 3 / 2 ≠ 0 then some stBadVersion
  else match opRow op with
    | none => some stUnknown
    | some r =>
      if 32 ≤ mine.length then some stTooMany
      else if mine.any fun c => c.tag == u b 6 2 then some stTagBusy
      else if !s.sessionOk a then some stNoSession
      else if r.role == Role.safety && !safe then some stNotAuth else none

/-- A command joins the outstanding ones in order of arrival; those of one tick stand in ascending transport code (R638). -/
def joinCmds (c : KCmd) : List KCmd → List KCmd
  | [] => [c]
  | d :: ds => if d.arrived = c.arrived ∧ c.tr < d.tr ∧ !d.started then c :: d :: ds else d :: joinCmds c ds

/-- The timeout of a packet in ms: its own, or its opcode's default (R641, R652). -/
def timeoutMs (b : List Byte) : Nat :=
  let own := u b 14 2
  if own ≠ 0 then own else if (opRow (u b 4 2)).any fun r => r.slow then 2000 else 100

/-- A packet is received: it fails a check and is replied to at once, or its command becomes outstanding. -/
def State.receive (s : State) (a : Arrived) : State :=
  let b := a.bytes
  let h := trCount a.tr a.origin
  match s.arriveCheck a with
  | some st =>
    let s := s.kcpCount h 1 A.KCP_RX_BAD
    s.handReply ⟨a.tr, a.sess, a.slot, a.origin⟩ (packet (u b 4 2 % 0x8000 + 0x8000) (u b 6 2) a.sess st [])
  | none =>
    let s := s.kcpCount h 1 A.KCP_RX_OK
    let s := match s.session a.tr a.sess with
      | some x => s.putSession a.tr a.sess { x with last := s.now }
      | none => s
    let c : KCmd :=
      { tr := a.tr, sess := a.sess, tag := u b 6 2, op := u b 4 2, ordered := bitAt (byteAt b 3) 0,
        params := slice b 16 (u b 8 4), arrived := s.now, deadline := s.now + timeoutMs b * msTicks, slot := a.slot,
        origin := a.origin, started := false, committed := false, mute := false }
    { s with kcp := { s.kcp with cmds := joinCmds c s.kcp.cmds } }

/-! #### Byte streams -/

/-- Bytes from the next 0x4B 0x43 on; a last byte 0x4B may be the first of them. -/
def hunt : List Byte → List Byte
  | [] => []
  | [b] => if b = 0x4B#8 then [b] else []
  | a :: b :: bs => if a = 0x4B#8 ∧ b = 0x43#8 then a :: b :: bs else hunt (b :: bs)

/-- The Trivet takes what the command FIFO holds, hunts for SYNC, and receives one packet when it is complete. -/
def State.streamArrive (s : State) (t : Nat) : State :=
  let x := s.stream t
  let all := x.part ++ x.cmd
  let p := hunt all
  let s := s.kcpCount (trCount t none) (all.length - p.length) A.KCP_HUNT
  let keep := fun (s : State) (rest : List Byte) => s.putStream t { x with cmd := [], part := rest }
  let plen := u p 8 4
  let a : Arrived := ⟨t, 0, 0, none, p.take (20 + plen)⟩
  if p.length < 16 then keep s p
  else if 69632 < plen then (keep s (p.drop 2)).receive { a with bytes := p.take 16 }
  else if p.length < 20 + plen then keep s p
  else (keep s (p.drop (20 + plen))).receive a

/-! #### Ring slots -/

/-- A descriptor as the doorbell captured it. -/
def State.slotDesc (s : State) (t k : Nat) : RingDesc := storeGet RingDesc.init s.kcp.desc (64 + 32 * t + k)

/-- Bus Master Enable of a PCIe endpoint that is up. -/
def State.pciMay (s : State) (t : Nat) : Bool := (s.tport t).up && s.flag (A.PCI_STATUS t) F.PCI_STATUS.BME

/-- A posted slot whose packet has not been read yet. -/
def State.slotWaits (s : State) (t k : Nat) : Bool :=
  bitAt (s.rdn (A.KCP_BUSY t)) k && !(s.kcp.cmds.any fun c => c.tr == t && c.slot == k) &&
  !(s.kcp.ready.any fun r => r.1 == t && r.2.1 == k)

/-- KCP_PACKET_ARRIVAL (R637): on PCIe `bytes` is what host memory holds at CMD_ADDR of a posted slot, CMD_LEN bytes; a byte
stream takes what its command FIFO holds. Nothing is taken before the chip's release sequence is done. -/
def execKcpPacketArrival (t : Fin 6) (slot : Fin 32) (bytes : List Byte) (s : State) : Host.Outcome State Fault Refusal :=
  if s.trivetLost ∨ s.rst.stage ≠ .done ∨ !(s.tport t).up then .next s
  else if t.val ≤ 1 then
    if s.pciMay t ∧ s.slotWaits t slot ∧ bytes.length = (s.slotDesc t slot).cmdLen then
      .next (s.receive ⟨t, 0, slot, none, bytes⟩)
    else .next s
  else if t.val ≤ 4 then .next (s.streamArrive t)
  else .next s

/-! #### UDP datagrams (R670 to R672) -/

/-- A datagram for the endpoint of a plane: plane, port of arrival, source MAC, source address and port, payload. -/
def udpParts (h : Half) (q : PCopy) (bs : List Byte) : UdpFrom × List Byte :=
  let o := udpOff bs
  (⟨h.n, q.inp, beAt bs 6 6, beAt bs 26 4, be16At bs o⟩, slice bs (o + 8) (be16At bs (o + 4) - 8))

/-- A payload is authenticated, checked for replay, and its packet received. -/
def State.datagram (s : State) (o : UdpFrom) (p : List Byte) : State :=
  let sess := u p 0 2
  let slot := byteAt p 2
  let seq := u p 4 8
  let n := p.length - 16
  let pkt : Arrived := ⟨5, sess, slot, some o, slice p 12 (n - 12)⟩
  if p.length < 28 ∨ !s.slotRole slot ∨ s.cmac slot (p.take n) ≠ p.drop n then s.kcpCount o.half 1 A.KCP_UDP_AUTH_FAIL
  else if sess = 0 then
    if seq < storeGet 0 s.kcp.seq0 slot then s.kcpCount o.half 1 A.KCP_UDP_REPLAY
    else ({ s with kcp := { s.kcp with seq0 := storePut 0 s.kcp.seq0 slot (seq + 1) } } : State).receive pkt
  else match s.session 5 sess with
    | none => s.receive pkt
    | some x =>
      if seq < x.rxSeq then s.kcpCount o.half 1 A.KCP_UDP_REPLAY
      else if slot ≠ x.slot then s.kcpCount o.half 1 A.KCP_UDP_AUTH_FAIL
      else (s.putSession 5 sess { x with rxSeq := seq + 1 }).receive pkt

/-- A plane's oldest copy at SP10 that `f` takes leaves it. -/
def State.takeSp10 (s : State) (h : Half) (f : List Byte → Bool) : Option (PCopy × List Byte × State) :=
  let x := s.plane h
  match x.handed.find? fun q => q.outp == 10 && f (s.redLeave h q q.bytes) with
  | none => none
  | some q =>
    let bs := s.redLeave h q q.bytes
    some (q, bs, (s.putPlane h { x with handed := x.handed.erase q }).txCount (portNo h 10) bs bs.length)

/-- KCP_DATAGRAM_RECEIVE (R670 to R672): the endpoint of a plane takes the oldest datagram that waits for it at SP10; a
fragment is discarded. -/
def execKcpDatagramReceive (h : Half) (s : State) : Host.Outcome State Fault Refusal :=
  if s.trivetLost ∨ !s.running h then .next s
  else match s.takeSp10 h (s.takesUdp h) with
    | none => .next s
    | some (q, bs, s) =>
      if ipFragment bs then .next s
      else
        let (o, p) := udpParts h q bs
        .next (s.datagram o p)

/-- The reply to an ARP request, from KCP_MAC and KCP_IP to its sender. -/
def State.arpReply (s : State) (h : Half) (bs : List Byte) : List Byte :=
  slice bs 6 6 ++ s.kcpMac h ++ [8#8, 6#8, 0#8, 1#8, 8#8, 0#8, 6#8, 4#8, 0#8, 2#8] ++ s.kcpMac h ++
  beBytes 4 (s.rdn (A.KCP_IP h.n)) ++ slice bs 22 10

/-- KCP_ARP_REPLY (R670): the endpoint of a plane answers the oldest ARP request that waits for it at SP10, by direct mask
to the port on which it arrived. -/
def execKcpArpReply (h : Half) (s : State) : Host.Outcome State Fault Refusal :=
  if !s.running h then .next s
  else match s.takeSp10 h (s.takesArp h) with
    | none => .next s
    | some (q, bs, s) => .next (s.kcpFrame h q.inp (s.arpReply h bs))

/-! ### Start, timeout (R638 to R642) -/

/-- A command need not wait: no earlier one of its group, and with ORDERED no earlier one of its transport, is outstanding. -/
def KCmd.mayStart (c : KCmd) (cs : List KCmd) : Bool :=
  (cs.takeWhile fun d => !(d.tr == c.tr && d.tag == c.tag)).all fun d =>
    d.op / 0x100 != c.op / 0x100 && !(c.ordered && d.tr == c.tr)

/-- Whether a command's session holds SAFETY. -/
def State.cmdSafe (s : State) (c : KCmd) : Bool := (s.session c.tr c.sess).any fun x => x.safety

/-- The status with which a command ends at its start, if it does: its length, its role, its target half, and on PCIe the
reply buffer (R642, R651, R652, R661). -/
def State.cmdCheck (s : State) (c : KCmd) (r : OpRow) : Option Nat :=
  let h := r.half c.params
  let need := match r.role with
    | .any => false
    | .safety => true
    | .target => h.any s.inService
  let room := (s.slotDesc c.tr c.slot).rspMax
  if c.params.length ≠ r.len c.params then some stBadLength
  else if need && !s.cmdSafe c then some stNotAuth
  else if h.any fun h => !s.running h then some stHalfOff
  else if c.tr ≤ 1 ∧ 20 ≤ room ∧ room < 20 + r.max c.params then some stRspSpace
  else none

/-- KCP_COMMAND_START (R638, R639, R642). -/
def execKcpCommandStart (t : Fin 6) (tag : BitVec 16) (s : State) : Host.Outcome State Fault Refusal :=
  match s.kcmd t tag.toNat with
  | none => .next s
  | some c =>
    if c.started ∨ s.trivetLost ∨ c.deadline < s.now ∨ !c.mayStart s.kcp.cmds then .next s
    else match opRow c.op with
      | none => .next s
      | some r =>
        match s.cmdCheck c r with
        | some st => .next (s.say c st)
        | none => .next (s.putKcmd { c with started := true })

/-- A load that a command asked for and that has not entered LOADING is dropped with it. -/
def State.dropLoads (s : State) (c : KCmd) : State :=
  (List.range 24).foldl (fun s i =>
    if ((s.eng i).load).any fun l => l.tr == c.tr && l.tag == c.tag && !l.verified then
      s.mapEng i fun e => { e with load := none }
    else s) s

/-- KCP_COMMAND_TIMEOUT (R641): the timer of a command that has not reached its commit point has expired. It acts once
its tick has passed, so that a commit on that tick wins (R18). -/
def execKcpCommandTimeout (t : Fin 6) (tag : BitVec 16) (s : State) : Host.Outcome State Fault Refusal :=
  match s.kcmd t tag.toNat with
  | none => .next s
  | some c =>
    if c.committed ∨ s.trivetLost ∨ s.now ≤ c.deadline then .next s
    else .next (((s.dropLoads c).kcpCount (trCount c.tr c.origin) 1 A.KCP_TIMEOUT).say c stTimeout)

/-! ### Sessions (R649, R650) -/

/-- Ticks of 2 ns in 60 s. -/
def minuteTicks : Nat := 60 * secTicks

/-- SESSION_IDLE_TIMEOUT (R650): 60 s have passed without a command on a session; a command on the last tick
wins (R18). -/
def execSessionIdleTimeout (t : Fin 6) (n : Fin 9) (s : State) : Host.Outcome State Fault Refusal :=
  match s.session t n with
  | none => .next s
  | some x =>
    if s.trivetLost ∨ s.now ≤ x.last + minuteTicks then .next s
    else if t.val = 5 then .next (s.closeUdp n)
    else if x.safety then .next (s.putSession t n x.operator) else .next s

/-- AUTH_LOCK_END (R649). -/
def execAuthLockEnd (t : Fin 6) (s : State) : Host.Outcome State Fault Refusal :=
  let x := s.tport t
  if x.lockEnd ≠ 0 ∧ x.lockEnd ≤ s.now then .next (s.putTport t { x with fails := 0, lockEnd := 0 }) else .next s

/-! ### Replies of ring slots (R659 to R661) -/

/-- KCP_SLOT_REPLY (R659): the reply of a slot and RSP_LEN are written, BUSY is cleared and DONE set. -/
def execKcpSlotReply (t : Fin 2) (slot : Fin 32) (s : State) : Host.Outcome State Fault Refusal :=
  match s.kcp.ready.find? fun r => r.1 = t.val ∧ r.2.1 = slot.val with
  | none => .next s
  | some r =>
    if s.trivetLost ∨ !s.pciMay t then .next s
    else
      let d := s.slotDesc t slot
      let fits := decide (20 ≤ d.rspMax ∧ r.2.2.length ≤ d.rspMax)
      let s := { s with kcp := { s.kcp with ready := s.kcp.ready.erase r } }
      let s := if fits then s.emit (.hostWrite t d.rspAddr r.2.2) else s
      let seen := { s.ringDesc t slot with rspLen := if fits then r.2.2.length else 0 }
      let s := { s with kcp := { s.kcp with desc := storePut RingDesc.init s.kcp.desc (32 * t + slot) seen } }
      let s := s.setf (A.KCP_BUSY t) ⟨slot, slot⟩ 0
      .next (s.setf (A.KCP_DONE t) ⟨slot, slot⟩ 1)

/-! ### Effects on the half of a command's own transport (R643, R732, R760) -/

/-- t_KCP_SELF: 100 µs (Table 14.14). -/
def selfTicks : Nat := 100 * usTicks

/-- An effect waits for t_KCP_SELF after the reply just handed over. -/
def State.later (s : State) (e : SelfEffect) : State :=
  { s with kcp := { s.kcp with waits := s.kcp.waits ++ [(s.now, e)] } }

/-- A fuse word waits for its programming, unless a supervisor reports a rail out of range (R760, steps 2 and 3). -/
def State.program (s : State) (word value : Nat) (lifecycle : Bool) : State :=
  if s.fld A.PWR_RAIL F.PWR_RAIL.GOOD = 0xFFF then
    { s with sec := { s.sec with jobs := s.sec.jobs ++ [⟨word, value, lifecycle⟩] } }
  else s.setf A.SEC_LC F.SEC_LC.ABANDONED 1

/-- An effect starts. -/
def State.selfStart (s : State) : SelfEffect → State
  | .reset r => s.kcpAssert r
  | .recast h => if s.chgOf h = .service then s.recast h 0x33 else s
  | .power st h => s.powerRequest st (halfOf h)
  | .lifecycle w v => s.program w v true

/-- KCP_SELF_EFFECT_START (R643): the oldest effect whose t_KCP_SELF has passed starts. -/
def execKcpSelfEffectStart (s : State) : Host.Outcome State Fault Refusal :=
  match s.kcp.waits with
  | [] => .next s
  | (at_, e) :: rest =>
    if s.now < at_ + selfTicks then .next s
    else .next (({ s with kcp := { s.kcp with waits := rest } } : State).selfStart e)

end Sys2Proof.Machine
end

