-- ==== Sys2Proof/Machine/NeedleDec.lean ====
section
/-! DEFINITION. The local memory of a Needle engine as its own units read it, decoding, and the start of the inline path
(spec/03, R147, R153; spec/04, R203 to R209, R237). -/

namespace Sys2Proof.Machine
open Sys2Proof

/-! ### Local memory -/

/-- A byte, and `n` bytes as a number, at an offset of a window. -/
def State.nb (s : State) (i off : Nat) : Byte := s.mb (neWin i + off)
def State.nrd (s : State) (i off n : Nat) : Nat := s.mrd (neWin i + off) n

/-- The state with bytes written at an offset of a window. -/
def State.putN (s : State) (i off : Nat) (bs : List Byte) : State := s.putbs (neWin i + off) bs

/-- State and flags of a context (Table 3.2). -/
def State.ctxState (s : State) (i c : Nat) : Nat := s.nrd i (16 * c) 2
def State.ctxFlags (s : State) (i c : Nat) : Nat := s.nrd i (16 * c + 2) 2

/-! ### Decoding (R203 to R209) -/

/-- What decoding fills: the field registers and the key. -/
structure Decoded where
  f : List Dword
  key : List Byte
  deriving DecidableEq, Repr

/-- Sixteen field registers, all 0. -/
def noFields : List Dword := List.replicate 16 0

/-- The field that entry `fe` cuts from the input, whose byte at an offset is `get`, with its layer base (R203). -/
def fieldOf (get : Nat → Byte) (base fe : Nat) : Nat :=
  let off := base + fe / 2 ^ 22
  let pos := fe / 2 ^ 19 % 8
  let w := fe / 2 ^ 13 % 64 + 1
  let n := (pos + w + 7) / 8
  beNat ((List.range n).map fun k => get (off + k)) / 2 ^ (8 * n - pos - w) % 2 ^ w

/-- One field entry applied: register and key bytes (R203, R204, Table 4.5). -/
def applyField (get : Nat → Byte) (base : Nat) (d : Decoded) (fe : Nat) : Decoded :=
  let v := fieldOf get base fe
  let dest := fe / 2 ^ 8 % 32
  let f := if dest < 16 then d.f.set dest (BitVec.ofNat 64 v) else d.f
  let w := fe / 2 ^ 13 % 64 + 1
  { f := f, key := if bitAt fe 3 then (overlay d.key (fe / 16 % 16) (beBytes (w / 8) v)).take 16 else d.key }

/-- The layer base of the descriptor at an address (R206). -/
def State.layerBase (s : State) (a prev : Nat) (f : List Dword) : Nat :=
  let mode := s.mrd (a + 3) 1
  s.mrd (a + 4) 2 + (if bitAt mode 4 then prev else 0) +
  (if bitAt mode 5 then (f.getD (mode % 16) 0).toNat % 65536 * 2 ^ (mode / 64) else 0)

/-- A chain of at most `fuel` descriptors of the Recipe of engine i, from `desc`, after a layer with base `prev`. -/
def State.decodeFrom (s : State) (i : Nat) (r : Recipe) (get : Nat → Byte) : Nat → Nat → Nat → Decoded → Decoded
  | 0, _, _, d => d
  | fuel + 1, desc, prev, d =>
    if r.nfmt ≤ desc then d
    else
      let a := neWin i + r.fmt + 32 * desc
      let base := s.layerBase a prev d.f
      let fields := (List.range (min 6 (s.mrd (a + 1) 1))).map fun j => s.mrd (a + 8 + 4 * j) 4
      let d := fields.foldl (applyField get base) d
      let next := s.mrd (a + 2) 1
      if next = 0xFF then d else s.decodeFrom i r get fuel next base d

/-- The descriptor that the header names, if one (0xFF names none), and its chain, at most 8 (R207). -/
def State.decode (s : State) (i : Nat) (r : Recipe) (get : Nat → Byte) (desc : Nat) (d : Decoded) : Decoded :=
  if desc = 0xFF then d else s.decodeFrom i r get 8 desc 0 d

/-! ### The inline path starts (R237) -/

/-- The window of a frame: 64 bytes from its offset; a byte past the frame's end reads as 0 (R207, R208). -/
def InlFrame.byte (x : InlFrame) (k : Nat) : Byte := if k < 64 then x.bytes.getD (x.window + k) 0 else 0

/-- The inline context at the start of the path (R237). -/
def State.inlCtx (s : State) (i : Nat) (r : Recipe) (x : InlFrame) : ActCtx :=
  let d := s.decode i r x.byte r.descInline ⟨noFields, List.replicate 16 0⟩
  let f := (d.f.set 14 (BitVec.ofNat 64 (0x40 + x.port))).set 15 (BitVec.ofNat 64 x.stamp)
  { ctx := r.inlCtx, state := s.ctxState i r.inlCtx, pc := r.inlAct, stack := [], f := f, setst := none, nextSt := none,
    words := 0, wait := none, input := none }

end Sys2Proof.Machine
end

