-- ==== Sys2Proof/Machine/NeedleCtl.lean ====
section
/-! DEFINITION. A Needle engine from outside: window, run states, bindings, inline frames and timers (spec/03,
R147 to R194, R241, R242). -/

namespace Sys2Proof.Machine
open Sys2Proof

/-! ### Local memory and the window (R147 to R152) -/

/-- A timer of an engine. -/
def Engine.timer (e : Engine) (x : Nat) : Timer := storeGet Timer.init e.timers x
def Engine.putTimer (e : Engine) (x : Nat) (t : Timer) : Engine := { e with timers := storePut Timer.init e.timers x t }

/-- The 16 bytes of the timer view (Table 3.3); the mode word is that of Table 4.14. -/
def timerView (t : Timer) : List Byte :=
  leBytes 8 t.expiry ++ leBytes 4 t.interval ++ leBytes 4 (t.mode % 2 + 2 * b2n t.periodic)

/-! ### The inline pair (R183 to R192, R237, R238) -/

/-- The switch port of side 0 (A) or 1 (B) of an engine's pair. -/
def State.inlPort (s : State) (i side : Nat) : Nat :=
  s.fld (A.NE_INL_CTRL i) (if side = 0 then F.NE_INL_CTRL.PORT_A else F.NE_INL_CTRL.PORT_B)

/-- A switch port of the engine's plane has its link up. -/
def State.inlLink (s : State) (i n : Nat) : Bool := s.flag (A.MAC_STATUS (portNo (unitHalf i 12) n)) F.MAC_STATUS.LINK

/-- The port on which a frame that entered on a side leaves: the other one, or with LOOP_ON_DOWN the same one while the
other's link is down; none where the frame is discarded (R189). -/
def State.inlOut (s : State) (i side : Nat) : Option Nat :=
  let o := s.inlPort i (1 - side)
  if s.inlLink i o then some o
  else if s.flag (A.NE_INL_CTRL i) F.NE_INL_CTRL.LOOP_ON_DOWN then some (s.inlPort i side) else none

/-- Bytes with their FCS leave on a switch port of the engine's plane, and its MAC counts the frame (R184). -/
def State.inlEmit (s : State) (i n : Nat) (bs : List Byte) (fcs : List Byte) : State :=
  let h := unitHalf i 12
  (s.txCount (portNo h n) bs bs.length).emitField h (.frame (portNo h n) (bs ++ fcs))

/-- The FCS over bytes, or its inverse. -/
def fcsOf (invert : Bool) (bs : List Byte) : List Byte :=
  leBytes 4 (if invert then crc32 bs ^^^ 0xFFFFFFFF else crc32 bs)

/-- The highest inline latency seen (Table 3.20). -/
def State.inlLat (s : State) (i lat : Nat) : State :=
  let a := A.NE_INL_LAT i
  s.setf a F.NE_INL_LAT.MAX_NS (max (s.fld a F.NE_INL_LAT.MAX_NS) (min 0xFFFF lat))

/-- A frame that passes leaves, with the bytes as they now are: FCS recomputed, or inverted after a bad receive FCS or an
underrun (R187, R188); or it is discarded (R189). -/
def State.inlLeave (s : State) (i : Nat) (fr : InlFrame) : State :=
  match s.inlOut i fr.port with
  | none => s.inc (A.NE_INL_DISC i)
  | some o =>
    let s := if fr.good then s else s.inc (A.NE_INL_BADFCS i)
    let s := if fr.late then s.inc (A.NE_INL_UNDERRUN i) else s
    ((s.inlEmit i o fr.bytes (fcsOf (!fr.good || fr.late) fr.bytes)).inc (A.NE_INL_PASS i)).inlLat i fr.lat

/-- The inline context is free: the next frame that has begun to pass takes it, if the Recipe has an inline path (R237); without
one the frames leave unchanged. -/
def State.inlNext (s : State) (i : Nat) : State :=
  let e := s.eng i
  match e.passing, e.recipe with
  | [], _ => s.putEng i { e with frame := none, inl := none }
  | x :: xs, some r =>
    if r.inline then s.putEng i { e with frame := some x, inl := some (s.inlCtx i r x), passing := xs }
    else (x :: xs).foldl (fun s x => s.inlLeave i x) (s.putEng i { e with frame := none, inl := none, passing := [] })
  | xs, none => xs.foldl (fun s x => s.inlLeave i x) (s.putEng i { e with frame := none, inl := none, passing := [] })

/-- The frame in the inline context leaves, and the context ends. -/
def State.inlFinish (s : State) (i : Nat) : State :=
  match (s.eng i).frame with
  | none => s
  | some fr => ((s.mapEng i fun e => { e with frame := none, inl := none }).inlLeave i fr).inlNext i

/-- The frame in the inline context is discarded, or cut short with an inverted FCS once bytes have been released (Table
4.12). -/
def State.inlDrop (s : State) (i : Nat) : State :=
  match (s.eng i).frame with
  | none => s
  | some fr =>
    let s := s.mapEng i fun e => { e with frame := none, inl := none }
    let s := if !fr.released then s.inc (A.NE_INL_DISC i)
      else match s.inlOut i fr.port with
        | none => s.inc (A.NE_INL_DISC i)
        | some o => s.inlEmit i o (fr.bytes.take fr.window) (fcsOf true (fr.bytes.take fr.window))
    s.inlNext i

/-- A fault of Table 3.7 (R160). The frame in the inline context finishes under the handling it began with (R191); a fault of
that context itself ends its Recipe, and the frame passes unchanged from there on. -/
def State.neHalt (s : State) (i : Nat) (inl : Bool) (cause st act : Nat) : State :=
  let s := s.neFault i cause st act
  if inl then s.inlFinish i else s

/-! ### ECC, and accesses to the window (R149 to R152, R812) -/

/-- A single-bit error in local memory or TCAM: corrected, counted, F1 (R152). -/
def State.neSingle (s : State) (i : Nat) : State :=
  (s.inc (A.NE_ECC_CORR i)).fault 0x18 1 (originHalf (unitHalf i 12)) (0x10 + i)

/-- A double-bit error puts a RUNNING or STOPPING engine in FAULTED, with what its event context executes (R152, Table 3.6). -/
def State.neDouble (s : State) (i : Nat) : State :=
  if s.neState i = neRunning ∨ s.neState i = neStopping then
    match (s.eng i).evt with
    | some c => s.neHalt i false 3 c.state c.pc
    | none => s.neHalt i false 3 0 0
  else s

/-- A byte of a window as a read finds it. What a staging area holds where the engine has staged something, and no write has come
since, is a free value: no rule places the cells within it (R154). -/
def State.windowByte (s : State) (i off : Nat) : Byte :=
  let e := s.eng i
  let no := if off < 0x1000 ∨ 0x6800 ≤ off then none else if off < 0x4000 then e.rxNo else e.txNo
  match no with
  | none => s.nb i off
  | some k => if e.fresh.contains off then s.nb i off else Config.stagedByte i k off

/-- The value that a read of a window returns. -/
def State.windowRead (s : State) (i off n : Nat) : State :=
  if 0x30000 ≤ off then
    s.ok (leNat (slice (timerView ((s.eng i).timer ((off - 0x30000) / 16))) (off % 16) n))
  else s.ok (leNat ((List.range n).map fun k => s.windowByte i (off + k)))

/-- Bytes written to local memory or the TCAM; in a staging area they stand until something is staged there again. -/
def State.windowWrite (s : State) (i off : Nat) (data : List Byte) : State :=
  let s := s.putN i off data
  if 0x1000 ≤ off ∧ off < 0x6800 then
    s.mapEng i fun e =>
      { e with fresh := e.fresh ++ ((List.range data.length).map fun k => off + k).filter fun k => !e.fresh.contains k }
  else s

/-- An access to a window (R149 to R152, R812, R818). A write that meets the action unit's write of the same word of the context
area is lost. Of a word with a double-bit error a read and a narrower write answer DATA_ERR; the rule for a read is that of the
scratchpad (DEDUCED, log entry 52). -/
def State.needleAccess (s : State) (m a n : Nat) (write : Bool) (data : List Byte) (env : BusEnv) : State :=
  let i := (a - needleBase) / 0x100000
  let off := (a - needleBase) % 0x100000
  match s.needleErr m a n write with
  | some c => s.busErr m a write c
  | none =>
    if 0x30000 ≤ off then (if write then s.ok 0 else s.windowRead i off n)
    else if write ∧ off < 0x1000 ∧ env.lost then { s with resp := some .writeLost }
    else
      let ecc := if write ∧ n = 8 then Ecc.clean else env.eccLo
      match ecc with
      | .double => { s.neDouble i with resp := some .dataErr }
      | .single => if write then ((s.neSingle i).windowWrite i off data).ok 0 else (s.neSingle i).windowRead i off n
      | .clean => if write then (s.windowWrite i off data).ok 0 else s.windowRead i off n

/-- INLINE_STOPPED_FRAME (R190): a frame that enters a pair of an engine that is neither RUNNING nor STOPPING, with its FCS. -/
def execInlineStoppedFrame (i : Fin 24) (side : Fin 2) (bytes : List Byte) (held : InlHeld) (s : State) :
    Host.Outcome State Fault Refusal :=
  let i := i.val
  let on := s.flag (A.NE_INL_CTRL i) F.NE_INL_CTRL.EN && s.neState i != neRunning && s.neState i != neStopping
  if !on then .next s
  else if held.full || !s.flag (A.NE_INL_CTRL i) F.NE_INL_CTRL.STOP_POLICY then .next (s.inc (A.NE_INL_DISC i))
  else match s.inlOut i side with
    | none => .next (s.inc (A.NE_INL_DISC i))
    | some o =>
      let n := bytes.length - 4
      .next (((s.inlEmit i o (bytes.take n) (bytes.drop n)).inc (A.NE_INL_PASS i)).inlLat i held.lat)

/-- A frame that passes is being sent on the port of a side (R192). -/
def State.inlBusy (s : State) (i side : Nat) : Bool :=
  ((s.eng i).frame.toList ++ (s.eng i).passing).any fun x => s.inlOut i x.port == some (s.inlPort i side)

/-- INLINE_INSERT_SEND (R192): the oldest frame queued for a port of the pair leaves once no passing frame is being sent there. -/
def execInlineInsertSend (i : Fin 24) (side : Fin 2) (s : State) : Host.Outcome State Fault Refusal :=
  let i := i.val
  let e := s.eng i
  match e.inserts.find? fun x => x.1 = side.val with
  | none => .next s
  | some x =>
    if s.inlBusy i side ∨ !s.flag (A.NE_INL_CTRL i) F.NE_INL_CTRL.EN then .next s
    else
      let s := s.putEng i { e with inserts := e.inserts.erase x }
      let n := s.inlPort i side
      if s.inlLink i n then
        let bs := padTo (max 60 x.2.length) x.2
        .next (s.inlEmit i n bs (fcsOf false bs))
      else .next (s.inc (A.NE_INL_DISC i))

/-! ### Running and stopping (R156 to R169) -/

/-- The first raw count at or after `raw` that is PHASE modulo INTERVAL (Table 4.14). -/
def firstExpiry (raw phase ival : Nat) : Nat := raw + (((phase : Int) - raw) % ival).toNat

/-- The timers whose MODE has bit 0 are armed at the entry to RUNNING (R241). -/
def Engine.armAll (e : Engine) (raw : Nat) : Engine :=
  { e with timers := e.timers.map fun (x, t) =>
      if bitAt t.mode 0 then
        (x, { t with armed := true, expiry := firstExpiry raw t.phase t.ival, interval := t.ival, periodic := bitAt t.mode 1 })
      else (x, t) }

/-- All timers are disarmed. -/
def Engine.disarm (e : Engine) : Engine := { e with timers := e.timers.map fun (x, t) => (x, { t with armed := false }) }

/-- A STOPPED engine with a Recipe enters RUNNING; doorbell bits that were set become pending. -/
def State.neStart (s : State) (i : Nat) : State :=
  let s := (s.setf (A.NE_STATUS i) F.NE_STATUS.STATE neRunning).setf (A.NE_CTRL i) F.NE_CTRL.RUN 1
  let s := s.mapEng i fun e => e.armAll s.raw
  (List.range 32).foldl (fun s b => if bitAt (s.rdn (A.NE_DOORBELL i)) b then s.nePend i (pendBit s prBell b 0) else s) s

/-- A RUNNING engine enters STOPPING (R166). -/
def State.neStop (s : State) (i : Nat) : State :=
  let s := (s.setf (A.NE_STATUS i) F.NE_STATUS.STATE neStopping).setf (A.NE_CTRL i) F.NE_CTRL.RUN 0
  let e := s.eng i
  let s := s.incBy (A.NE_EVT_DROP i) (e.pend.length + e.rx.length)
  let s := s.wr (A.NE_DOORBELL i) 0
  s.putEng i { e.disarm with rx := [], pend := [], stopAt := s.now }

/-- A write of NE_CTRL (R158, Table 3.14): HARD_US of 0 is stored as 1; RUN asks for RUNNING or STOPPED. -/
def State.neCtrlWrite (s : State) (m i : Nat) (v : Word) : State :=
  s.guardReg m (A.NE_CTRL i) fun s =>
    let s := s.setf (A.NE_CTRL i) F.NE_CTRL.HARD_US (max 1 (fget F.NE_CTRL.HARD_US v))
    if fget F.NE_CTRL.RUN v = 1 then
      if s.neState i = neStopped ∧ s.flag (A.NE_STATUS i) F.NE_STATUS.LOADED then s.neStart i
      else s.setf (A.NE_STATUS i) F.NE_STATUS.START_REJ 1
    else if s.neState i = neRunning then s.neStop i else s

/-- NE_RUN_START (R158): a write of RUN = 1. -/
def execNeRunStart (m : Byte) (i : Fin 24) (hard : Byte) (s : State) : Host.Outcome State Fault Refusal :=
  .next (s.neCtrlWrite m.toNat i (BitVec.ofNat 32 (hard.toNat * 256 + 1)))

/-- NE_RUN_STOP (R166): a write of RUN = 0. -/
def execNeRunStop (m : Byte) (i : Fin 24) (hard : Byte) (s : State) : Host.Outcome State Fault Refusal :=
  .next (s.neCtrlWrite m.toNat i (BitVec.ofNat 32 (hard.toNat * 256)))

/-- The event in progress has completed, and every DMA burst has received its response (R167). -/
def State.neQuiet (s : State) (i : Nat) : Bool := (s.eng i).evt.isNone && (s.eng i).dma.isEmpty

/-- NE_STOP_COMPLETE (R167). -/
def execNeStopComplete (i : Fin 24) (s : State) : Host.Outcome State Fault Refusal :=
  if s.neState i = neStopping ∧ s.neQuiet i then .next (s.setf (A.NE_STATUS i) F.NE_STATUS.STATE neStopped) else .next s

/-! ### Doorbell, bindings, limits -/

/-- A write of NE_DOORBELL, by the Trivet or a hart of the engine's half (Table 3.19, R172). -/
def State.neBellWrite (s : State) (m i : Nat) (v : Word) : State :=
  let a := A.NE_DOORBELL i
  s.guardReg m a fun s =>
    let hart := decide (2 ≤ m ∧ m ≤ 5) && decide (masterHalf m = some (unitHalf i 12))
    if m = trivet ∨ hart then s.neBell i v.toNat else s.busErr m a true cPerm

/-- NE_DOORBELL_WRITE (R172). -/
def execNeDoorbellWrite (m : Byte) (i : Fin 24) (v : Word) (s : State) : Host.Outcome State Fault Refusal :=
  .next (s.neBellWrite m.toNat i v)

/-- A binding or inline write is refused. -/
def State.bindRej (s : State) (i : Nat) : State := s.setf (A.NE_STATUS i) F.NE_STATUS.BIND_REJ 1

/-- The units that other engines of the half have bound, as NE_BIND codes them. -/
def State.boundElsewhere (s : State) (i : Nat) : Nat :=
  (List.range 12).foldl (fun v k =>
    let j := i / 12 * 12 + k
    if j = i then v else v ||| s.rdn (A.NE_BIND j)) 0

/-- A write of NE_BIND (R180, R181). -/
def State.neBindWrite (s : State) (m i : Nat) (v : Word) : State :=
  s.guardReg m (A.NE_BIND i) fun s =>
    if s.neState i ≠ neStopped then s.bindRej i
    else
      let want := v.toNat % 4096
      let bad := want &&& s.boundElsewhere i
      let s := s.wrn (A.NE_BIND i) (want - bad)
      if bad = 0 then s else s.bindRej i

/-- NE_BIND_WRITE (R180). -/
def execNeBindWrite (m : Byte) (i : Fin 24) (v : Word) (s : State) : Host.Outcome State Fault Refusal :=
  .next (s.neBindWrite m.toNat i v)

/-- Ports a and b may form the pair of engine i (R183, R185). -/
def State.inlMay (s : State) (i a b : Nat) : Bool :=
  let h := unitHalf i 12
  a != b && decide (a ≤ 8) && decide (b ≤ 8) && s.portMbps h a == s.portMbps h b && decide (s.portMbps h a ≤ 2500) &&
  (List.range 12).all fun k =>
    let j := i / 12 * 12 + k
    j == i || !s.flag (A.NE_INL_CTRL j) F.NE_INL_CTRL.EN ||
    [a, b].all fun n => n != s.inlPort j 0 && n != s.inlPort j 1

/-- A write of NE_INL_CTRL (R181, R183, R185): of a refused pair EN stays 0. Copies that the plane holds for the ports of the pair
are not sent while EN is 1 (R184). -/
def State.neInlWrite (s : State) (m i : Nat) (v : Word) : State :=
  let a := A.NE_INL_CTRL i
  s.guardReg m a fun s =>
    if s.neState i ≠ neStopped then s.bindRej i
    else if fget F.NE_INL_CTRL.EN v = 0 ∨ s.inlMay i (fget F.NE_INL_CTRL.PORT_A v) (fget F.NE_INL_CTRL.PORT_B v) then s.plainWrite a v
    else ((s.plainWrite a v).setf a F.NE_INL_CTRL.EN 0).bindRej i

/-- NE_INL_CTRL_WRITE (R183). -/
def execNeInlCtrlWrite (m : Byte) (i : Fin 24) (v : Word) (s : State) : Host.Outcome State Fault Refusal :=
  .next (s.neInlWrite m.toNat i v)

/-- A write of NE_INL_LAT: any 1 bit clears the whole field (Table 3.20). -/
def State.neLatWrite (s : State) (m i : Nat) (v : Word) : State :=
  let a := A.NE_INL_LAT i
  s.guardReg m a fun s => if fget F.NE_INL_LAT.MAX_NS v = 0 then s else s.setf a F.NE_INL_LAT.MAX_NS 0

/-- NE_INL_LAT_CLEAR (R193). -/
def execNeInlLatClear (m : Byte) (i : Fin 24) (v : Word) (s : State) : Host.Outcome State Fault Refusal :=
  .next (s.neLatWrite m.toNat i v)

/-- A write of NE_LIMITS: ACT_LIMIT outside 16 to 8192 is stored as the nearer limit (Table 3.20). -/
def State.neLimitsWrite (s : State) (m i : Nat) (v : Word) : State :=
  let a := A.NE_LIMITS i
  s.guardReg m a fun s =>
    let s := s.plainWrite a v
    s.setf a F.NE_LIMITS.ACT_LIMIT (max 16 (min 8192 (fget F.NE_LIMITS.ACT_LIMIT v)))

/-- A write of NE_EVT_MASK: bit 0 is RO and reads whether an aged event waits (Table 3.18). -/
def State.neMaskWrite (s : State) (m i : Nat) (v : Word) : State :=
  let a := A.NE_EVT_MASK i
  s.guardReg m a fun s => s.setf a F.NE_EVT_MASK.SRC (fget F.NE_EVT_MASK.SRC v / 2 * 2)

/-! ### Timers (R233, R241, R242) -/

/-- A pending expiry of timer x is cleared. -/
def Engine.clearExpiry (e : Engine) (x : Nat) : Engine :=
  { e with pend := e.pend.filter fun p => !(p.prio == prTimer && p.idx == x) }

/-- NE_TIMER_EXPIRY (R242): an armed timer whose expiry time has come sets its pending bit, and is re-armed if periodic. -/
def execNeTimerExpiry (i : Fin 24) (x : Fin 16) (s : State) : Host.Outcome State Fault Refusal :=
  let i := i.val
  let t := (s.eng i).timer x
  if t.armed ∧ t.expiry ≤ s.raw then
    let t' := if t.periodic then { t with expiry := rawMod (t.expiry + t.interval) } else { t with armed := false }
    let s := s.mapEng i fun e => e.putTimer x t'
    .next (s.nePend i { pendBit s prTimer x 0 with ctx := t.ctx })
  else .next s

end Sys2Proof.Machine
end

