-- ==== Sys2Proof/Machine/NeedleEvt.lean ====
section
/-! DEFINITION. Events of a Needle engine: decoding, matching, the choice of the event, the transition it takes
(spec/03, R170 to R176; spec/04, R203 to R220, R237). -/

namespace Sys2Proof.Machine
open Sys2Proof

/-! ### Matching (R210 to R213) -/

/-- TCAM entry n of engine i is valid and matches a key. -/
def State.tcamHit (s : State) (i : Nat) (key : List Byte) (n : Nat) : Bool :=
  let a := neWin i + 0x20000 + 64 * n
  bitAt (s.mrd (a + 32) 1) 0 &&
  (List.range 16).all fun k => ((key.getD k 0 ^^^ s.mb (a + k)) &&& s.mb (a + 16 + k)) == 0

/-- The context that entry n gives; a CTX_MODE that Table 4.6 does not define gives a free value. -/
def State.tcamCtx (s : State) (i n f0 : Nat) : Nat :=
  let a := neWin i + 0x20000 + 64 * n
  let base := s.mrd (a + 35) 1
  match s.mrd (a + 34) 1 with
  | 0 => base
  | 1 => f0 % 256
  | 2 => base + f0 % 256
  | _ => s.freeVal % 256

/-- The lookup of a key: the entry hit, class and context (R211, R212). -/
def State.tcamLookup (s : State) (i : Nat) (key : List Byte) (f0 : Nat) : Option Nat × Nat × Nat :=
  match (List.range 64).find? (s.tcamHit i key) with
  | some n => (some n, s.mrd (neWin i + 0x20000 + 64 * n + 33) 1, s.tcamCtx i n f0)
  | none => (none, 0xFF, 0)

/-- An input comes from a CX controller. -/
def RxInput.can (x : RxInput) : Bool := decide (0x20 ≤ x.source ∧ x.source < 0x24)

/-- The fields, class and context of a staged input (R205, R211). -/
def State.classifyInput (s : State) (i : Nat) (r : Recipe) (x : RxInput) : List Dword × Nat × Nat :=
  let key := List.replicate 14 0 ++ [BitVec.ofNat 8 x.flow, BitVec.ofNat 8 x.source]
  let d := s.decode i r (fun k => x.data.getD k 0) (if x.can then r.descCan else r.descFrame) ⟨noFields, key⟩
  let (_, cls, ctx) := s.tcamLookup i d.key (d.f.headD 0).toNat
  (d.f, cls, ctx)

/-! ### Transitions (R214 to R219) -/

/-- An event as the search of a transition sees it: code, index, class (none where no lookup was made), context, field
registers at the start, and its staged input. -/
structure Evt where
  code : Nat
  idx : Option Nat
  cls : Option Nat
  ctx : Nat
  f : List Dword
  input : Option RxInput
  deriving DecidableEq, Repr

/-- MATCH of a transition fits a class (Table 4.8). -/
def clsFits (want : Nat) (cls : Option Nat) : Bool :=
  if want = 0xFD then true
  else match cls with
    | none => false
    | some c => if want = 0xFE then decide (c ≤ 0xFC) else c == want

/-- The address of transition t of the Recipe of engine i. -/
def transAt (i : Nat) (r : Recipe) (t : Nat) : Nat := neWin i + r.state + 128 + 8 * ((r.nstate + 1) / 2) + 16 * t

/-- A transition may be taken (R216). -/
def State.transFits (s : State) (i : Nat) (r : Recipe) (ev : Evt) (flags t : Nat) : Bool :=
  let a := transAt i r t
  let code := s.mrd a 1
  let idx := s.mrd (a + 8) 2
  (code == 0xF || code == ev.code) && (idx == 0xFFFF || ev.idx == some idx) && clsFits (s.mrd (a + 1) 1) ev.cls &&
  (flags % 256 &&& s.mrd (a + 2) 1) == s.mrd (a + 3) 1

/-- The transition that an event takes in a state, if any. -/
def State.findTrans (s : State) (i : Nat) (r : Recipe) (ev : Evt) (st flags : Nat) : Option Nat :=
  let a := neWin i + r.state + 128 + 4 * st
  ((List.range (s.mrd (a + 2) 2)).map fun k => s.mrd a 2 + k).find? (s.transFits i r ev flags)

/-! ### The choice of the event (R171, R174, Table 3.9) -/

/-- What may be taken: a staged input or a pending event. -/
inductive Cand where
  | inp (x : RxInput)
  | pend (p : Pend)
  deriving DecidableEq, Repr

/-- Priority, index, and whether it has waited longer than AGE (Table 3.9). -/
def Cand.prio : Cand → Nat
  | .inp x => if x.can then prCan else prFrame
  | .pend p => p.prio
def Cand.index : Cand → Nat
  | .inp x => if x.can then x.source - 0x20 else 0
  | .pend p => if p.prio = prTwin then 0 else p.idx
def Cand.aged : Cand → Bool
  | .inp x => x.aged
  | .pend p => p.aged

/-- Rank of a candidate: aged first, by priority; then priority and index. -/
def Cand.rank (c : Cand) : Nat := if c.aged then c.prio * 1000 else 1000000 + c.prio * 1000 + c.index

/-- The first candidate of lowest rank. -/
def firstCand : List Cand → Option Cand
  | [] => none
  | c :: cs =>
    match firstCand cs with
    | none => some c
    | some d => if d.rank < c.rank then some d else some c

/-- Events that have waited longer than AGE are marked (R171). -/
def State.neAge (s : State) (i : Nat) : State :=
  let age := s.fld (A.NE_LIMITS i) F.NE_LIMITS.AGE * usTicks
  s.mapEng i fun e =>
    { e with rx := e.rx.map fun x => { x with aged := x.aged || decide (x.since + age < s.raw) },
             pend := e.pend.map fun p => { p with aged := p.aged || decide (p.since + age < s.raw) } }

/-- EVENT_AGED (R171). -/
def execEventAged (i : Fin 24) (s : State) : Host.Outcome State Fault Refusal := .next (s.neAge i)

/-- The source of a candidate is enabled in NE_EVT_MASK. -/
def State.neEnabled (s : State) (i : Nat) (c : Cand) : Bool :=
  bitAt (s.fld (A.NE_EVT_MASK i) F.NE_EVT_MASK.SRC) (c.prio - 1)

/-- A state awaits input x with timer t as its timeout, and both became pending on one clock for one context (R174). -/
def State.timeoutLoses (s : State) (i : Nat) (r : Recipe) (p : Pend) (x : RxInput) : Bool :=
  let (f, cls, ctx) := s.classifyInput i r x
  let st := s.ctxState i ctx
  let fl := s.ctxFlags i ctx
  p.prio == prTimer && p.since == x.since && p.ctx == ctx && decide (st < r.nstate) &&
  (s.findTrans i r ⟨if x.can then 1 else 0, none, some cls, ctx, f, none⟩ st fl).isSome &&
  (s.findTrans i r ⟨2, some p.idx, none, ctx, noFields, none⟩ st fl).isSome

/-- The pending events without the expiries that R174 discards. -/
def State.dropTimeouts (s : State) (i : Nat) (r : Recipe) : State :=
  s.mapEng i fun e => { e with pend := e.pend.filter fun p => !(e.rx.any fun x => s.timeoutLoses i r p x) }

/-- The position of a status-change source in STAT_CTX (Table 4.7). -/
def statPos (idx : Nat) : Nat := if idx < 12 then idx else if idx < 0x24 then idx - 0x20 + 12 else idx - 0x40 + 16

/-- The link or channel of a status-change source is up. -/
def State.statUp (s : State) (i idx : Nat) : Bool :=
  if idx < 12 then s.inlLink i idx
  else if idx < 0x24 then (s.can (i / 12 * 4 + (idx - 0x20))).up
  else s.inlLink i (s.inlPort i (idx - 0x40))

/-- F0 to F15 with F0 alone set. -/
def fields0 (v : Nat) : List Dword := noFields.set 0 (BitVec.ofNat 64 v)

/-- The event of a candidate: code, index, context and registers of Table 4.9. -/
def State.evtOf (s : State) (i : Nat) (r : Recipe) : Cand → Evt
  | .inp x =>
    let (f, cls, ctx) := s.classifyInput i r x
    ⟨if x.can then 1 else 0, none, some cls, ctx, f, some x⟩
  | .pend p =>
    let b := neWin i + r.state
    if p.prio = prCmp then ⟨3, some p.idx, none, s.mrd (b + 16 + p.idx) 1, noFields, none⟩
    else if p.prio = prTimer then ⟨2, some p.idx, none, p.ctx, noFields, none⟩
    else if p.prio = prHook then ⟨4, some p.idx, none, s.mrd (b + 64 + p.idx) 1, noFields, none⟩
    else if p.prio = prTwin then ⟨5, none, none, s.mrd (b + 90) 1, fields0 p.f0, none⟩
    else if p.prio = prDma then ⟨p.code, some p.idx, none, p.ctx, fields0 p.f0, none⟩
    else if p.prio = prBell then ⟨8, some p.idx, none, s.mrd (b + 32 + p.idx) 1, noFields, none⟩
    else ⟨9, some (statPos p.idx), none, s.mrd (b + 72 + statPos p.idx) 1, fields0 (b2n (s.statUp i p.idx)), none⟩

/-- A candidate is taken out of what waits; a doorbell bit is cleared (Table 3.19), unless a write of the same clock has set it
again: it then stays set, and its event pending (R16). -/
def State.takeCand (s : State) (i : Nat) : Cand → State
  | .inp x => s.mapEng i fun e => { e with rx := e.rx.erase x }
  | .pend p =>
    let s := s.mapEng i fun e => { e with pend := e.pend.erase p }
    if p.prio = prBell then
      let bells := s.rdn (A.NE_DOORBELL i)
      let e := s.eng i
      if e.rangAt = s.now ∧ bitAt e.rang p.idx then
        s.putEng i { e with pend := e.pend ++ [pendBit s prBell p.idx 0], rang := e.rang - 2 ^ p.idx }
      else if bitAt bells p.idx then s.wrn (A.NE_DOORBELL i) (bells - 2 ^ p.idx) else s
    else s

/-- An event of the event context completes: the state is written where one is due (R218), and it is counted. -/
def State.evtEnd (s : State) (i ctx : Nat) (dest : Option Nat) : State :=
  let s := match dest with
    | some st => s.putN i (16 * ctx) (leBytes 2 st)
    | none => s
  (s.mapEng i fun e => { e with evt := none }).inc (A.NE_EVT_DONE i)

/-- An event starts: its transition is selected and its action list begins, or it completes without a word (R213, R216,
R217, R219). -/
def State.evtStart (s : State) (i : Nat) (r : Recipe) (ev : Evt) : State :=
  let st := s.ctxState i ev.ctx
  if 255 < ev.ctx then s.neHalt i false 5 0 0
  else if r.nstate ≤ st then s.neHalt i false 4 st 0
  else
    let hit := s.findTrans i r ev st (s.ctxFlags i ev.ctx)
    let (start, next) := match hit with
      | some t => (s.mrd (transAt i r t + 6) 2, s.mrd (transAt i r t + 4) 2)
      | none => (s.mrd (neWin i + r.state + 4) 2, 0xFFFF)
    let dest := if next = 0xFFFF then none else some next
    if start = 0xFFFF then s.evtEnd i ev.ctx dest
    else
      let c : ActCtx :=
        { ctx := ev.ctx, state := st, pc := start, stack := [], f := ev.f, setst := none, nextSt := dest, words := 0,
          wait := none, input := ev.input }
      s.mapEng i fun e => { e with evt := some c }

/-- The candidates of an engine whose source is enabled, in arrival order. -/
def State.cands (s : State) (i : Nat) : List Cand :=
  (((s.eng i).rx.map Cand.inp) ++ (s.eng i).pend.map Cand.pend).filter (s.neEnabled i)

/-- The idle event context of a RUNNING engine takes its next event (R171). -/
def State.dispatch (s : State) (i : Nat) : State :=
  match (s.eng i).recipe with
  | none => s
  | some r =>
    if s.neState i ≠ neRunning ∨ (s.eng i).evt.isSome then s
    else
      let s := (s.neAge i).dropTimeouts i r
      match firstCand (s.cands i) with
      | none => s
      | some c => ((s.takeCand i c).evtStart i r (s.evtOf i r c)).useFree

/-- EVENT_DISPATCH (R171); `ecc` is what the ECC shows of the words of local memory and TCAM that it reads (R152). -/
def execEventDispatch (i : Fin 24) (ecc : Ecc) (s : State) : Host.Outcome State Fault Refusal :=
  if s.neState i ≠ neRunning then .next s
  else match ecc with
    | .clean => .next (s.dispatch i)
    | .single => .next ((s.neSingle i).dispatch i)
    | .double => .next (s.neDouble i)

/-! ### A frame begins to pass (R153, R154, R192, R237) -/

/-- The input that a frame of the pair is staged as: one descriptor cell and its data cells, SOURCE 0x40 or 0x41, if so many
cells are free (R153 to R155). -/
def State.inlInput (s : State) (i side : Nat) (bytes : List Byte) (good : Bool) (stamp : Nat) : Option RxInput :=
  if (s.eng i).cellsUsed + rxCells bytes.length ≤ 192 then some ⟨0x40 + side, b2n good, 0, stamp, bytes, s.raw, false⟩ else none

/-- INLINE_FRAME_START (R237): a frame begins to pass a RUNNING or STOPPING engine on one side, whole in `bytes` without FCS;
`good` says how its FCS ends, `lat` its latency in ns, `late` that the transmit side will run out of bytes (R187). While a
frame of the other direction is in the inline context, it waits for that within its look-ahead. A frame that finds too few
free cells passes without being staged, and is counted as R155 says (DESIGN CHOICE, log entry 32). -/
def execInlineFrameStart (i : Fin 24) (side : Fin 2) (bytes : List Byte) (good : Bool) (stamp lat : Nat) (late : Bool)
    (room : InlRoom) (s : State) : Host.Outcome State Fault Refusal :=
  let i := i.val
  let run := s.neState i == neRunning || s.neState i == neStopping
  if !(s.flag (A.NE_INL_CTRL i) F.NE_INL_CTRL.EN && run) then .next s
  else if room.full then .next (s.inc (A.NE_INL_DISC i))
  else
    let inp := s.inlInput i side bytes good stamp
    let x : InlFrame := ⟨side, bytes, stamp, 0, good, false, lat, late, inp⟩
    let s := if inp.isSome then s else s.inc (A.NE_RX_DROP i)
    let s := s.mapEng i fun e => { e.stageRx with passing := e.passing ++ [x] }
    let s := if (s.eng i).frame.isSome then s else s.inlNext i
    match room.ecc with
    | .clean => .next s
    | .single => .next (s.neSingle i)
    | .double => .next (s.neHalt i (s.eng i).inl.isSome 3 0 0)

end Sys2Proof.Machine
end

