-- ==== Sys2Proof/Machine/NeedleAct.lean ====
section
/-! DEFINITION. The action unit of a Needle engine and the action words that touch its own contexts (spec/04, R221 to
R228, R237 to R240). A command gives the word that executes; it acts when it stands at the action index. -/

namespace Sys2Proof.Machine
open Sys2Proof

/-! ### Words, fields, areas -/

/-- The 64 bits of a word with an opcode (Table 4.10). -/
def actBits (op : Nat) (w : ActWord) : Nat :=
  op * 2 ^ 58 + w.d * 2 ^ 54 + w.a * 2 ^ 50 + w.b * 2 ^ 46 + w.x * 2 ^ 40 + w.y * 2 ^ 32 + w.imm.toNat

/-- The value of a field register, and a context with one replaced. -/
def ActCtx.get (c : ActCtx) (k : Nat) : Nat := (c.f.getD k 0).toNat
def ActCtx.put (c : ActCtx) (k v : Nat) : ActCtx := { c with f := c.f.set k (BitVec.ofNat 64 v) }

/-- IMM sign-extended to 64 bits. -/
def sext32 (w : Word) : Nat := (w.signExtend 64).toNat

/-- The receive descriptor of an input (Table 3.4). -/
def RxInput.desc (x : RxInput) : List Byte :=
  padTo 64 (leBytes 2 x.data.length ++ [BitVec.ofNat 8 x.source, BitVec.ofNat 8 x.status] ++ leBytes 4 x.flow ++ leBytes 8 x.stamp)

/-- Bytes of the build buffer. -/
def buildSize : Nat := 9216

/-- How a word ends: it goes on with a context, ends its list, faults with a cause, waits, or ends the inline path
having itself disposed of the frame. -/
inductive ActRes where
  | go (s : State) (c : ActCtx)
  | done (s : State) (c : ActCtx)
  | fault (cause : Nat)
  | wait
  | gone (s : State)
  deriving DecidableEq, Repr

/-- Size and bytes of a readable area (Table 4.11); none where the context has no such area. -/
def State.area (s : State) (i : Nat) (inl : Bool) (r : Recipe) (c : ActCtx) (k : Nat) : Option (Nat × (Nat → Byte)) :=
  let e := s.eng i
  match k with
  | 0 => c.input.map fun x => (x.data.length, fun j => x.data.getD j 0)
  | 1 => some (12, fun j => s.nb i (16 * c.ctx + 4 + j))
  | 2 => some (r.constLen, fun j => s.nb i (r.const + j))
  | 3 => some (r.tplLen, fun j => s.nb i (r.tpl + j))
  | 4 => some (buildSize, fun j => e.build.getD j 0)
  | 5 => c.input.map fun x => (64, fun j => x.desc.getD j 0)
  | 6 => some (4096, fun j => s.nb i j)
  | 7 => if inl then e.frame.map fun x => (64, x.byte) else none
  | _ => none

/-- `n` bytes of an area from an offset, if they lie wholly within it (R223). -/
def State.areaRead (s : State) (i : Nat) (inl : Bool) (r : Recipe) (c : ActCtx) (k off n : Nat) : Option (List Byte) :=
  match s.area i inl r c k with
  | some (size, get) => if off + n ≤ size then some ((List.range n).map fun j => get (off + j)) else none
  | none => none

/-- Bytes laid over the build buffer. -/
def Engine.putBuild (e : Engine) (off : Nat) (bs : List Byte) : Engine :=
  { e.stageTx with build := overlay (padTo (max e.build.length (off + bs.length)) e.build) off bs }

/-- Bytes laid over the window of the passing frame; those beyond its end are ignored (R238). -/
def InlFrame.write (x : InlFrame) (off : Nat) (bs : List Byte) : InlFrame :=
  let at_ := x.window + off
  { x with bytes := (overlay (padTo (max x.bytes.length at_) x.bytes) at_ bs).take x.bytes.length }

/-- Bytes written to an area, if they lie wholly within one that may be written (Table 4.11, R223, R228). -/
def State.areaWrite (s : State) (i : Nat) (inl : Bool) (c : ActCtx) (k off : Nat) (bs : List Byte) : Option State :=
  let n := bs.length
  match k with
  | 1 => if off + n ≤ 12 then some (s.putN i (16 * c.ctx + 4 + off) bs) else none
  | 4 => if off + n ≤ buildSize then some (s.mapEng i fun e => e.putBuild off bs) else none
  | 6 => if off + n ≤ 4096 then some (s.putN i off bs) else none
  | 7 =>
    if inl ∧ off + n ≤ 64 then some (s.mapEng i fun e => { e with frame := e.frame.map fun x => x.write off bs })
    else none
  | _ => none

/-! ### The execution of a word (R170, R175, R182, R224, R239) -/

/-- Opcodes and areas that the inline path may use, and those that the event context may (R239). -/
def wordAllowed (inl : Bool) (op : Nat) (w : ActWord) : Bool :=
  if inl then
    (op ≤ 5 || (8 ≤ op && op ≤ 0x18) || op == 0x27 || (0x2B ≤ op && op ≤ 0x2F)) &&
    ((op != 0x0A && op != 0x0B) || [1, 2, 3, 6, 7].contains w.x.val)
  else op != 0x2E && op != 0x2F

/-- The event context yields at this boundary to a word of the inline context that is ready (R170). -/
def Engine.yields (e : Engine) : Bool :=
  match e.inl with
  | some c => c.wait.isNone
  | none => false

/-- The context that executes, with its Recipe, when it is at a word boundary. -/
def State.actCtx (s : State) (i : Nat) (inl : Bool) : Option (Recipe × ActCtx) :=
  let e := s.eng i
  let live := inl || ((s.neState i == neRunning || s.neState i == neStopping) && !e.yields)
  match e.recipe, if inl then e.inl else e.evt with
  | some r, some c => if live then some (r, c) else none
  | _, _ => none

/-- A meaning of an opcode: engine, whether the inline context executes, word, state, Recipe, and the context past the word. -/
abbrev WordBody := Nat → Bool → ActWord → State → Recipe → ActCtx → ActRes

/-- The word at the action index of a context. -/
def State.wordAt (s : State) (i : Nat) (r : Recipe) (pc : Nat) : Nat := s.nrd i (r.act + 8 * pc) 8

/-- The context past a word. -/
def ActCtx.next (c : ActCtx) : ActCtx := { c with pc := c.pc + 1, words := c.words + 1, wait := none }

/-- A single-bit error of a word that it reads is corrected and counted (R152). -/
def State.eccWord (s : State) (i : Nat) (w : ActWord) : State := if w.ecc = .single then s.neSingle i else s

/-- What the word `op`, `w` does when it stands at the action index of a context that does not wait: the context as it was,
and how the word ends; none where nothing executes. -/
def State.actRes (s : State) (i : Nat) (inl : Bool) (op : Nat) (w : ActWord) (body : WordBody) : Option (ActCtx × ActRes) :=
  match s.actCtx i inl with
  | none => none
  | some (r, c) =>
    if c.wait.isSome then none
    else if r.nact ≤ c.pc ∨ 0x30 ≤ s.wordAt i r c.pc / 2 ^ 58 then some (c, .fault 2)
    else if s.wordAt i r c.pc ≠ actBits op w then none
    else if w.ecc = .double then some (c, .fault 3)
    else if !inl ∧ s.fld (A.NE_LIMITS i) F.NE_LIMITS.ACT_LIMIT ≤ c.words then some (c, .fault 1)
    else if !wordAllowed inl op w then some (c, .fault 2)
    else some (c, body i inl w (s.eccWord i w) r c.next)

/-- A context of an engine replaced. -/
def State.putCtx (s : State) (i : Nat) (inl : Bool) (c : ActCtx) : State :=
  s.mapEng i fun e => if inl then { e with inl := some c } else { e with evt := some c }

/-- A word ends; a single-bit error in it has been corrected and counted, whatever the word came to (R152). -/
def State.actEnd (s : State) (i : Nat) (inl : Bool) (op : Nat) (w : ActWord) (c : ActCtx) : ActRes → State
  | .go s c => s.putCtx i inl c
  | .done s c => if inl then s.inlFinish i else s.evtEnd i c.ctx (c.setst <|> c.nextSt)
  | .fault cause => (s.eccWord i w).neHalt i inl cause c.state c.pc
  | .wait => (s.eccWord i w).putCtx i inl { c with wait := some (op, w) }
  | .gone s => s

/-- A word executes. -/
def State.act (s : State) (i : Nat) (inl : Bool) (op : Nat) (w : ActWord) (body : WordBody) : State :=
  match s.actRes i inl op w body with
  | none => s
  | some (c, res) => s.actEnd i inl op w c res

/-! ### Another master writes the context area in the same clock (R151) -/

/-- A rival access to the window of engine i: it loses when it writes a 64-bit word of which the action unit writes bytes
`lo` to `lo + n - 1` of the context area. -/
def State.rival (s : State) (i lo n : Nat) : Option SpadOp → State
  | none => s
  | some o =>
    let off := (o.addr - needleBase) % 0x100000
    let k := if o.write then o.data.length else o.len
    let m := o.master
    let meets := decide (0 < n) && decide (off / 8 ≤ (lo + n - 1) / 8) && decide (lo / 8 ≤ (off + k - 1) / 8)
    if regionOf o.addr ≠ .needle i ∨ !s.there o then s
    else if o.write ∧ off < 0x1000 ∧ meets ∧ (s.needleErr m o.addr k true).isNone then { s with resp := some .writeLost }
    else s.needleAccess m o.addr k o.write o.data { BusEnv.clean with eccLo := o.eccLo, eccHi := o.eccHi }

/-- The bytes of the context area that a word writes when it executes: offset and count. -/
def ctxWrites (op : Nat) (w : ActWord) (c : ActCtx) : ActRes → Nat × Nat
  | .go _ _ =>
    if op = 0x0B then
      let off := w.imm.toNat + (if bitAt w.y 7 then c.get w.a % 65536 else 0)
      if w.x.val = 1 then (16 * c.ctx + 4 + off, w.y % 16) else if w.x.val = 6 then (off, w.y % 16) else (0, 0)
    else (16 * c.ctx + 2, 2)
  | .done _ c => if (c.setst <|> c.nextSt).isSome then (16 * c.ctx, 2) else (0, 0)
  | _ => (0, 0)

/-- A word executes beside an access of another master. -/
def State.actBeside (s : State) (i : Nat) (inl : Bool) (op : Nat) (w : ActWord) (body : WordBody) (o : Option SpadOp) : State :=
  match s.actRes i inl op w body with
  | none => s.rival i 0 0 o
  | some (c, res) =>
    let (lo, n) := ctxWrites op w c res
    (s.actEnd i inl op w c res).rival i lo n o

/-! ### Control flow -/

/-- END (R218, R238). -/
def wEnd : WordBody := fun _ _ _ s _ c => .done s c

/-- END; `rival` is an access of another master in the same clock. -/
def execRecEnd (i : Fin 24) (inl : Bool) (w : ActWord) (rival : Option SpadOp) (s : State) : Host.Outcome State Fault Refusal :=
  .next (s.actBeside i inl 0x00 w wEnd rival)

/-- NOP. -/
def execRecNop (i : Fin 24) (inl : Bool) (w : ActWord) (s : State) : Host.Outcome State Fault Refusal :=
  .next (s.act i inl 0x01 w fun _ _ _ s _ c => .go s c)

/-- JMP. -/
def execRecJmp (i : Fin 24) (inl : Bool) (w : ActWord) (s : State) : Host.Outcome State Fault Refusal :=
  .next (s.act i inl 0x02 w fun _ _ w s _ c => .go s { c with pc := w.imm.toNat % 2 ^ 13 })

/-- Whether a branch condition holds between 64-bit values (Table 4.12); a bit beyond bit 63 is clear. -/
def brHolds (cond a b : Nat) : Bool :=
  match cond with
  | 0 => a == b
  | 1 => a != b
  | 2 => decide (a < b)
  | 3 => decide (b ≤ a)
  | 4 => decide (signedOf 64 a < signedOf 64 b)
  | 5 => decide (signedOf 64 b ≤ signedOf 64 a)
  | 6 => bitAt a b
  | _ => !bitAt a b

/-- BR. -/
def execRecBr (i : Fin 24) (inl : Bool) (w : ActWord) (s : State) : Host.Outcome State Fault Refusal :=
  .next (s.act i inl 0x03 w fun _ _ w s _ c =>
    let b := if bitAt w.x 2 then w.y.val else c.get w.b
    if brHolds (w.x / 8) (c.get w.a) b then .go s { c with pc := w.imm.toNat % 2 ^ 13 } else .go s c)

/-- CALL (R228). -/
def execRecCall (i : Fin 24) (inl : Bool) (w : ActWord) (s : State) : Host.Outcome State Fault Refusal :=
  .next (s.act i inl 0x04 w fun _ _ w s _ c =>
    if 4 ≤ c.stack.length then .fault 2 else .go s { c with pc := w.imm.toNat % 2 ^ 13, stack := c.pc :: c.stack })

/-- RET (R228). -/
def execRecRet (i : Fin 24) (inl : Bool) (w : ActWord) (s : State) : Host.Outcome State Fault Refusal :=
  .next (s.act i inl 0x05 w fun _ _ _ s _ c =>
    match c.stack with
    | [] => .fault 2
    | p :: st => .go s { c with pc := p, stack := st })

/-- SETST (R218). -/
def execRecSetst (i : Fin 24) (inl : Bool) (w : ActWord) (s : State) : Host.Outcome State Fault Refusal :=
  .next (s.act i inl 0x06 w fun _ _ w s _ c => .go s { c with setst := some (w.imm.toNat % 2 ^ 10) })

/-- DISCARD. -/
def execRecDiscard (i : Fin 24) (inl : Bool) (w : ActWord) (s : State) : Host.Outcome State Fault Refusal :=
  .next (s.act i inl 0x07 w fun _ _ _ s _ c => .go s { c with input := none })

/-! ### Registers and arithmetic -/

/-- LDI. -/
def execRecLdi (i : Fin 24) (inl : Bool) (w : ActWord) (s : State) : Host.Outcome State Fault Refusal :=
  .next (s.act i inl 0x08 w fun _ _ w s _ c =>
    .go s (c.put w.d (if bitAt w.x 1 then w.imm.toNat * 2 ^ 32 + c.get w.d % 2 ^ 32
                      else if bitAt w.x 0 then sext32 w.imm else w.imm.toNat)))

/-- MOV. -/
def execRecMov (i : Fin 24) (inl : Bool) (w : ActWord) (s : State) : Host.Outcome State Fault Refusal :=
  .next (s.act i inl 0x09 w fun _ _ w s _ c => .go s (c.put w.d (c.get w.a)))

/-- The offset of a load or store, and whether its width is one of R223. -/
def ldstOff (w : ActWord) (c : ActCtx) : Nat := w.imm.toNat + (if bitAt w.y 7 then c.get w.a % 65536 else 0)
def ldstWidth (w : ActWord) : Bool := [1, 2, 4, 8].contains (w.y % 16)

/-- LD (R223). -/
def execRecLd (i : Fin 24) (inl : Bool) (w : ActWord) (s : State) : Host.Outcome State Fault Refusal :=
  .next (s.act i inl 0x0A w fun i inl w s r c =>
    if !ldstWidth w then .fault 2
    else match s.areaRead i inl r c w.x (ldstOff w c) (w.y % 16) with
      | some bs => .go s (c.put w.d (if bitAt w.y 6 then beNat bs else leNat bs))
      | none => .fault 2)

/-- The effect of ST (R223). -/
def wSt : WordBody := fun i inl w s _ c =>
  if !ldstWidth w then .fault 2
  else
    let n := w.y % 16
    let v := c.get w.d
    match s.areaWrite i inl c w.x (ldstOff w c) (if bitAt w.y 6 then beBytes n v else leBytes n v) with
    | some s => .go s c
    | none => .fault 2

/-- ST (R151, R223). -/
def execRecSt (i : Fin 24) (inl : Bool) (w : ActWord) (rival : Option SpadOp) (s : State) : Host.Outcome State Fault Refusal :=
  .next (s.actBeside i inl 0x0B w wSt rival)

/-- X and Y name a bit field of a register (Table 4.12). -/
def fieldOk (w : ActWord) : Bool := 1 ≤ w.y.val && w.x.val + w.y.val ≤ 64

/-- EXT. -/
def execRecExt (i : Fin 24) (inl : Bool) (w : ActWord) (s : State) : Host.Outcome State Fault Refusal :=
  .next (s.act i inl 0x0C w fun _ _ w s _ c =>
    if fieldOk w then .go s (c.put w.d (c.get w.a / 2 ^ w.x.val % 2 ^ w.y.val)) else .fault 2)

/-- INS. -/
def execRecIns (i : Fin 24) (inl : Bool) (w : ActWord) (s : State) : Host.Outcome State Fault Refusal :=
  .next (s.act i inl 0x0D w fun _ _ w s _ c =>
    let d := c.get w.d
    let hi := w.x.val + w.y.val
    if fieldOk w then
      .go s (c.put w.d (d % 2 ^ w.x.val + c.get w.a % 2 ^ w.y.val * 2 ^ w.x.val + d / 2 ^ hi * 2 ^ hi))
    else .fault 2)

/-- The second operand of an arithmetic word: B, or IMM where X[0] is 1. -/
def aluB (sext : Bool) (w : ActWord) (c : ActCtx) : Nat :=
  if bitAt w.x 0 then (if sext then sext32 w.imm else w.imm.toNat) else c.get w.b

/-- A word that puts a function of A and its second operand into D, modulo 2^64. -/
def wAlu (sext : Bool) (f : Nat → Nat → Nat) : WordBody := fun _ _ w s _ c =>
  .go s (c.put w.d (f (c.get w.a) (aluB sext w c)))

/-- ADD. -/
def execRecAdd (i : Fin 24) (inl : Bool) (w : ActWord) (s : State) : Host.Outcome State Fault Refusal :=
  .next (s.act i inl 0x0E w (wAlu true fun a b => a + b))

/-- SUB. -/
def execRecSub (i : Fin 24) (inl : Bool) (w : ActWord) (s : State) : Host.Outcome State Fault Refusal :=
  .next (s.act i inl 0x0F w (wAlu true fun a b => a + (2 ^ 64 - b)))

/-- AND. -/
def execRecAnd (i : Fin 24) (inl : Bool) (w : ActWord) (s : State) : Host.Outcome State Fault Refusal :=
  .next (s.act i inl 0x10 w (wAlu false fun a b => a &&& b))

/-- OR. -/
def execRecOr (i : Fin 24) (inl : Bool) (w : ActWord) (s : State) : Host.Outcome State Fault Refusal :=
  .next (s.act i inl 0x11 w (wAlu false fun a b => a ||| b))

/-- XOR. -/
def execRecXor (i : Fin 24) (inl : Bool) (w : ActWord) (s : State) : Host.Outcome State Fault Refusal :=
  .next (s.act i inl 0x12 w (wAlu false fun a b => a ^^^ b))

/-- SHL. -/
def execRecShl (i : Fin 24) (inl : Bool) (w : ActWord) (s : State) : Host.Outcome State Fault Refusal :=
  .next (s.act i inl 0x13 w (wAlu false fun a b => a * 2 ^ (b % 64)))

/-- SHR. -/
def execRecShr (i : Fin 24) (inl : Bool) (w : ActWord) (s : State) : Host.Outcome State Fault Refusal :=
  .next (s.act i inl 0x14 w (wAlu false fun a b => a / 2 ^ (b % 64)))

/-- SAR. -/
def execRecSar (i : Fin 24) (inl : Bool) (w : ActWord) (s : State) : Host.Outcome State Fault Refusal :=
  .next (s.act i inl 0x15 w (wAlu false fun a b => intMod 64 (signedOf 64 a / (2 ^ (b % 64) : Nat))))

/-! ### Context flags -/

/-- A word that replaces the flags of the context by a function of them. -/
def wFlags (f : Nat → Nat → Nat) : WordBody := fun i _ w s _ c =>
  .go (s.putN i (16 * c.ctx + 2) (leBytes 2 (f (s.ctxFlags i c.ctx) (w.imm.toNat % 65536)))) c

/-- FSET. -/
def execRecFset (i : Fin 24) (inl : Bool) (w : ActWord) (rival : Option SpadOp) (s : State) : Host.Outcome State Fault Refusal :=
  .next (s.actBeside i inl 0x16 w (wFlags fun v m => v ||| m) rival)

/-- FCLR. -/
def execRecFclr (i : Fin 24) (inl : Bool) (w : ActWord) (rival : Option SpadOp) (s : State) : Host.Outcome State Fault Refusal :=
  .next (s.actBeside i inl 0x17 w (wFlags fun v m => v &&& (65535 - m)) rival)

/-- FLD. -/
def execRecFld (i : Fin 24) (inl : Bool) (w : ActWord) (s : State) : Host.Outcome State Fault Refusal :=
  .next (s.act i inl 0x18 w fun i _ w s _ c => .go s (c.put w.d (s.ctxFlags i c.ctx)))

/-! ### Lookup, decoding, the inline window -/

/-- LOOKUP: the keys stand in network byte order, most significant byte of A first; the hit index without a hit is not
stated, and free. -/
def execRecLookup (i : Fin 24) (inl : Bool) (w : ActWord) (s : State) : Host.Outcome State Fault Refusal :=
  .next (s.act i inl 0x2C w fun i _ w s _ c =>
    match s.tcamLookup i (beBytes 8 (c.get w.a) ++ beBytes 8 (c.get w.b)) (c.get 0) with
    | (hit, cls, ctx) =>
      if 255 < ctx then .fault 5
      else .go s.useFree (c.put w.d (cls + hit.getD (s.freeVal % 256) * 2 ^ 8 + ctx * 2 ^ 16)))

/-- DECODE: field registers only. -/
def execRecDecode (i : Fin 24) (inl : Bool) (w : ActWord) (s : State) : Host.Outcome State Fault Refusal :=
  .next (s.act i inl 0x2D w fun i inl w s r c =>
    match s.area i inl r c (w.x / 8) with
    | none => .fault 2
    | some (size, get) =>
      let off := c.get w.a
      if size < off ∨ r.nfmt ≤ w.imm.toNat % 256 then .fault 2
      else
        let byte := fun k => if off + k < size then get (off + k) else 0
        .go s { c with f := (s.decodeFrom i r byte 8 (w.imm.toNat % 256) 0 ⟨c.f, List.replicate 16 0⟩).f })

/-- INLSKIP: the window moves on, and the path ends with the frame if the frame ends before it is filled. -/
def execRecInlskip (i : Fin 24) (inl : Bool) (w : ActWord) (s : State) : Host.Outcome State Fault Refusal :=
  .next (s.act i inl 0x2E w fun i _ w s _ c =>
    let n := w.imm.toNat
    if n = 0 ∨ 255 < n then .fault 2
    else match (s.eng i).frame with
      | none => .fault 2
      | some x =>
        let y : InlFrame := { x with window := x.window + 64 * n, released := true }
        let s := s.mapEng i fun e => { e with frame := some y }
        if y.window + 64 ≤ y.bytes.length then .go s c else .done s c)

/-- INLDROP. -/
def execRecInldrop (i : Fin 24) (inl : Bool) (w : ActWord) (s : State) : Host.Outcome State Fault Refusal :=
  .next (s.act i inl 0x2F w fun i _ _ s _ _ => .gone (s.inlDrop i))

end Sys2Proof.Machine
end

