-- ==== Sys2Proof/Machine/NeedleIo.lean ====
section
/-! DEFINITION. Action words that build, check and send, that start DMA, and that reach timers, the Gauge, Hook FIFOs and
mailboxes (spec/04, R224 to R236), and the end of a wait (R227). -/

namespace Sys2Proof.Machine
open Sys2Proof

/-! ### The build buffer -/

/-- Bytes copied into the build buffer, which grows to the end of the copy. -/
def State.buildCopy (s : State) (i off : Nat) (bs : List Byte) (c : ActCtx) : ActRes :=
  if buildSize < off + bs.length then .fault 2
  else .go (s.mapEng i fun e => { e.putBuild off bs with blen := max e.blen (off + bs.length) }) c

/-- TPLCPY. -/
def execRecTplcpy (i : Fin 24) (inl : Bool) (w : ActWord) (s : State) : Host.Outcome State Fault Refusal :=
  .next (s.act i inl 0x19 w fun i inl w s r c =>
    match s.areaRead i inl r c 3 (w.imm.toNat % 65536) (w.imm.toNat / 65536) with
    | none => .fault 2
    | some bs => s.buildCopy i (if bitAt w.x 0 then c.get w.a % 65536 else 0) bs c)

/-- BLEN; a length beyond the buffer lies outside its area. -/
def execRecBlen (i : Fin 24) (inl : Bool) (w : ActWord) (s : State) : Host.Outcome State Fault Refusal :=
  .next (s.act i inl 0x1A w fun i _ w s _ c =>
    let n := (if bitAt w.x 0 then c.get w.a else w.imm.toNat) % 2 ^ 14
    if buildSize < n then .fault 2 else .go (s.mapEng i fun e => { e with blen := n }) c)

/-- CPYIN. -/
def execRecCpyin (i : Fin 24) (inl : Bool) (w : ActWord) (s : State) : Host.Outcome State Fault Refusal :=
  .next (s.act i inl 0x1B w fun i inl w s r c =>
    match s.areaRead i inl r c 0 (w.imm.toNat % 65536) (c.get w.b % 2 ^ 14) with
    | none => .fault 2
    | some bs => s.buildCopy i (w.imm.toNat / 65536) bs c)

/-! ### CRC (R225, Table 4.13) -/

/-- The low 16 bits of a number in reverse order. -/
def reflect16 (v : Nat) : Nat := (List.range 16).foldl (fun r k => r + b2n (bitAt v k) * 2 ^ (15 - k)) 0

/-- A CRC of kind `y` over bytes; IMM gives initial value and final XOR of the CRC-16 kinds. Polynomials and initial values of
the CAN kinds are those of ISO 11898-1 (PRESUMED from that standard, log entry 7). -/
def crcKind (y imm : Nat) (bs : List Byte) : Option Nat :=
  let init := imm % 65536
  let fin := imm / 65536 % 65536
  let norm := fun poly => crcBits 16 poly init (bs.flatMap byteBits) ^^^ fin
  let refl := fun poly => (bs.flatMap byteBitsR).foldl (crcStepR poly) (reflect16 init) ^^^ fin
  match y with
  | 0x00 => some (crc32 bs)
  | 0x01 => some (crc32c bs)
  | 0x02 => some (norm 0x1021)
  | 0x03 => some (refl 0x8408)
  | 0x04 => some (norm 0x8005)
  | 0x05 => some (refl 0xA001)
  | 0x06 => some (crcBits 15 0x4599 0 (bs.flatMap byteBits))
  | 0x07 => some (crcBits 17 0x1685B 0x10000 (bs.flatMap byteBits))
  | 0x08 => some (crcBits 21 0x102899 0x100000 (bs.flatMap byteBits))
  | 0x09 => some (crcBits 13 0x19E7 0x1000 (bs.flatMap byteBits))
  | 0x0A => some (crcBits 32 0xF4ACFB13 0x80000000 (bs.flatMap byteBits))
  | _ => none

/-- CRC. -/
def execRecCrc (i : Fin 24) (inl : Bool) (w : ActWord) (s : State) : Host.Outcome State Fault Refusal :=
  .next (s.act i inl 0x1C w fun i inl w s r c =>
    match (s.areaRead i inl r c (w.x / 8) (c.get w.a) (c.get w.b)).bind (crcKind w.y w.imm.toNat) with
    | none => .fault 2
    | some v => .go s (c.put w.d v))

/-! ### Transmission (R227 to R229) -/

/-- The transmit cells of n bytes (Table 3.2). -/
def txCells (n : Nat) : Nat := (n + 63) / 64

/-- The transmit cells in use: frames that wait for SP9, and frames queued for insertion. -/
def State.txUsed (s : State) (i : Nat) : Nat :=
  let q := (s.plane (unitHalf i 12)).inq.filter fun f => f.engine = some i
  q.foldl (fun n f => n + txCells f.bytes.length) 0 + (s.eng i).inserts.foldl (fun n x => n + txCells x.2.length) 0

/-- The bytes of the build buffer. -/
def Engine.built (e : Engine) : List Byte := padTo e.blen e.build

/-- A word that sends the build buffer: a fault below `least` bytes, a wait while too few of the 160 cells are free;
otherwise `f` sends the bytes, from a state in which the buffer is empty, or waits (R227 to R229). -/
def State.sendBuild (s : State) (i least : Nat) (c : ActCtx) (f : State → List Byte → Option State) : ActRes :=
  let e := s.eng i
  if e.blen = 0 ∨ e.blen < least then .fault 2
  else if 160 < s.txUsed i + txCells e.blen then .wait
  else match f (s.putEng i { e.stageTx with build := [], blen := 0 }) e.built with
    | some s => .go s c
    | none => .wait

/-- The effect of TXETH. -/
def wTxeth : WordBody := fun i _ w s _ c =>
  if bitAt w.imm.toNat 9 then .fault 2
  else s.sendBuild i 14 c fun s bs =>
    let f : InFrame :=
      { ingress := 9, bytes := bs, stamp := s.raw, cls := w.y % 8, mask := w.imm.toNat % 4096, colour := 0, seq := none,
        engine := some i }
    some (s.mapPlane (unitHalf i 12) fun x => { x with inq := x.inq ++ [f] })

/-- CX controller c of the half is bound to engine i, and Hook engine h. -/
def State.boundCx (s : State) (i c : Nat) : Bool := bitAt (s.fld (A.NE_BIND i) F.NE_BIND.CX) c
def State.boundHk (s : State) (i h : Nat) : Bool := bitAt (s.fld (A.NE_BIND i) F.NE_BIND.HK) h

/-- The effect of TXCAN. -/
def wTxcan : WordBody := fun i _ w s _ c =>
  if !s.boundCx i (w.x % 4) ∨ w.y.val % 4 = 3 then .fault 2
  else s.sendBuild i 1 c fun s bs =>
    s.cxFill (i / 12 * 4 + w.x % 4)
      (eventFrame (w.y % 4) (bitAt w.y 2) (bitAt w.y 3) (c.get w.a % 2 ^ 29) bs)

/-- The effect of TXSTITCH (R234, R483). -/
def wTxstitch : WordBody := fun i _ w s _ c =>
  let ch := i / 12 * 4 + w.x % 4
  let st := w.imm.toNat % 2 ^ 10
  if !s.boundCx i (w.x % 4) then .fault 2
  else s.sendBuild i 1 c fun s bs =>
    some (if s.colMap ch st then s.inc (A.DTT_TX_REJ ch) else s.stitchWrite ch st bs s.raw)

/-- The effect of TXCOL (R115, R691): a stream number beyond 255 names no valid stream. -/
def wTxcol : WordBody := fun i _ w s _ c =>
  s.sendBuild i 1 c fun s bs =>
    let h := unitHalf i 12
    let n := w.imm.toNat % 65536
    let cp : Copy := ⟨n, c.get w.a, bs, 0, false⟩
    if 255 < n then some (s.inc A.COL_SUB_REJ)
    else if s.colSpace h cp then some (s.colSubmit h (0x10 + i) cp).1 else none

/-- The effect of TXINL. -/
def wTxinl : WordBody := fun i _ w s _ c =>
  s.sendBuild i 1 c fun s bs => some (s.mapEng i fun e => { e with inserts := e.inserts ++ [(w.x.val % 2, bs)] })

/-- TXETH. -/
def execRecTxeth (i : Fin 24) (inl : Bool) (w : ActWord) (s : State) : Host.Outcome State Fault Refusal :=
  .next (s.act i inl 0x1D w wTxeth)
/-- TXCAN. -/
def execRecTxcan (i : Fin 24) (inl : Bool) (w : ActWord) (s : State) : Host.Outcome State Fault Refusal :=
  .next (s.act i inl 0x1E w wTxcan)
/-- TXSTITCH. -/
def execRecTxstitch (i : Fin 24) (inl : Bool) (w : ActWord) (s : State) : Host.Outcome State Fault Refusal :=
  .next (s.act i inl 0x1F w wTxstitch)
/-- TXCOL. -/
def execRecTxcol (i : Fin 24) (inl : Bool) (w : ActWord) (s : State) : Host.Outcome State Fault Refusal :=
  .next (s.act i inl 0x20 w wTxcol)
/-- TXINL. -/
def execRecTxinl (i : Fin 24) (inl : Bool) (w : ActWord) (s : State) : Host.Outcome State Fault Refusal :=
  .next (s.act i inl 0x21 w wTxinl)

/-! ### DMA (R227, R230 to R232) -/

/-- A transfer is put on its channel; the word waits while the channel holds 4. -/
def State.dmaIssue (s : State) (i : Nat) (d : Dma) (c : ActCtx) : ActRes :=
  if 4 ≤ ((s.eng i).dma.filter fun x => x.chan = d.chan).length then .wait
  else .go (s.mapEng i fun e => { e with dma := e.dma ++ [d] }) c

/-- The effect of DMAWR: the bytes are those of the area when the word executes. -/
def wDmawr : WordBody := fun i inl w s r c =>
  let n := c.get w.b
  if n = 0 ∨ 4096 < n then .fault 2
  else match s.areaRead i inl r c (w.x / 8) (w.imm.toNat % 65536) n with
    | none => .fault 2
    | some bs =>
      s.dmaIssue i ⟨w.x % 4, c.ctx, true, 0, 0, c.get w.a % 2 ^ 40, bs, n, bitAt w.y 0,
        if w.x.val / 8 = 0 ∨ w.x.val / 8 = 5 then c.input else none, false⟩ c

/-- The size of an area that DMARD may fill. -/
def dmardSize (k : Nat) : Option Nat :=
  if k = 1 then some 12 else if k = 4 then some buildSize else if k = 6 then some 4096 else none

/-- The effect of DMARD. -/
def wDmard : WordBody := fun i _ w s _ c =>
  let n := c.get w.b
  let off := w.imm.toNat % 65536
  match dmardSize (w.x / 8) with
  | none => .fault 2
  | some size =>
    if n = 0 ∨ 4096 < n ∨ size < off + n then .fault 2
    else s.dmaIssue i ⟨w.x % 4, c.ctx, false, w.x / 8, off, c.get w.a % 2 ^ 40, [], n, true, none, false⟩ c

/-- The STAMP of the input, or of the passing frame; none where there is neither. -/
def State.inputStamp (s : State) (i : Nat) (inl : Bool) (c : ActCtx) : Option Nat :=
  if inl then (s.eng i).frame.map fun x => x.stamp else c.input.map fun x => x.stamp

/-- The effect of DMAENT (R231). -/
def wDmaent : WordBody := fun i inl w s _ c =>
  let a := c.get w.a % 2 ^ 40
  match if bitAt w.x 2 then some (c.get w.b) else s.inputStamp i inl c with
  | none => .fault 2
  | some st =>
    if a % 16 ≠ 0 then .fault 2
    else s.dmaIssue i ⟨w.x % 4, c.ctx, true, 0, 0, a, leBytes 8 (c.get w.d) ++ leBytes 8 st, 16, bitAt w.y 0, none, true⟩ c

/-- DMAWR. -/
def execRecDmawr (i : Fin 24) (inl : Bool) (w : ActWord) (s : State) : Host.Outcome State Fault Refusal :=
  .next (s.act i inl 0x22 w wDmawr)
/-- DMARD. -/
def execRecDmard (i : Fin 24) (inl : Bool) (w : ActWord) (s : State) : Host.Outcome State Fault Refusal :=
  .next (s.act i inl 0x23 w wDmard)
/-- DMAENT. -/
def execRecDmaent (i : Fin 24) (inl : Bool) (w : ActWord) (s : State) : Host.Outcome State Fault Refusal :=
  .next (s.act i inl 0x24 w wDmaent)

/-! ### Timers, time -/

/-- TSTART (R233). -/
def execRecTstart (i : Fin 24) (inl : Bool) (w : ActWord) (s : State) : Host.Outcome State Fault Refusal :=
  .next (s.act i inl 0x25 w fun i _ w s _ c =>
    let x := w.x % 16
    let n := w.imm.toNat
    if n = 0 then .fault 2
    else .go (s.mapEng i fun e =>
      let t := e.timer x
      (e.clearExpiry x).putTimer x
        { t with armed := true, expiry := rawMod (s.raw + n), interval := n, periodic := bitAt w.y 0,
                 ctx := if bitAt w.y 1 then c.ctx else t.ctx }) c)

/-- TSTOP (R233). -/
def execRecTstop (i : Fin 24) (inl : Bool) (w : ActWord) (s : State) : Host.Outcome State Fault Refusal :=
  .next (s.act i inl 0x26 w fun i _ w s _ c =>
    let x := w.x % 16
    .go (s.mapEng i fun e => (e.clearExpiry x).putTimer x { e.timer x with armed := false }) c)

/-- GTIME (R236): `lag` is how many ticks older than the word the count is. -/
def execRecGtime (i : Fin 24) (inl : Bool) (w : ActWord) (lag : Fin 5) (s : State) : Host.Outcome State Fault Refusal :=
  .next (s.act i inl 0x27 w fun i inl w s _ c =>
    if w.y.val = 0 then .go s (c.put w.d (rawMod (s.raw + (2 ^ 64 - lag))))
    else match s.inputStamp i inl c with
      | some st => .go s (c.put w.d st)
      | none => .fault 2)

/-! ### Hook FIFOs and mailboxes (R182, R235) -/

/-- The effect of HKPUT. -/
def wHkput : WordBody := fun i _ w s _ c =>
  if !s.boundHk i (w.x % 8) then .fault 2
  else match s.hkPut (i / 12 * 8 + w.x % 8) (BitVec.ofNat 32 (c.get w.a)) with
    | some s => .go s c
    | none => .wait

/-- The effect of HKGET. -/
def wHkget : WordBody := fun i _ w s _ c =>
  if !s.boundHk i (w.x % 8) then .fault 2
  else match s.hkGet (i / 12 * 8 + w.x % 8) with
    | some (v, s) => .go s (c.put w.d v.toNat)
    | none => .wait

/-- HKPUT. -/
def execRecHkput (i : Fin 24) (inl : Bool) (w : ActWord) (s : State) : Host.Outcome State Fault Refusal :=
  .next (s.act i inl 0x28 w wHkput)
/-- HKGET. -/
def execRecHkget (i : Fin 24) (inl : Bool) (w : ActWord) (s : State) : Host.Outcome State Fault Refusal :=
  .next (s.act i inl 0x29 w wHkget)

/-- A channel is bound with the engine as its sender (R235). -/
def State.boundMbx (s : State) (i ch : Nat) : Bool := s.mbxBound ch && s.mbxSender ch == 0x10 + i

/-- MBPOST (R589). -/
def execRecMbpost (i : Fin 24) (inl : Bool) (w : ActWord) (s : State) : Host.Outcome State Fault Refusal :=
  .next (s.act i inl 0x2A w fun i _ w s _ c =>
    let ch := w.imm.toNat % 64
    let n := w.y.val
    if !s.boundMbx i ch ∨ n = 0 ∨ 8 < n ∨ 15 < w.a.val + (n - 1) / 2 then .fault 2
    else .go (s.mbxPost ch ((List.range n).map fun k => c.get (w.a + k / 2) / 2 ^ (32 * (k % 2)) % 2 ^ 32)) c)

/-- BELL (R589). -/
def execRecBell (i : Fin 24) (inl : Bool) (w : ActWord) (s : State) : Host.Outcome State Fault Refusal :=
  .next (s.act i inl 0x2B w fun i _ w s _ c =>
    let ch := w.imm.toNat % 64
    if !s.boundMbx i ch then .fault 2 else .go (s.mbxRing ch) c)

/-! ### The end of a wait (R182, R227) -/

/-- The meaning of an opcode that may wait. -/
def waitBody (op : Nat) : WordBody :=
  match op with
  | 0x1D => wTxeth
  | 0x1E => wTxcan
  | 0x1F => wTxstitch
  | 0x20 => wTxcol
  | 0x21 => wTxinl
  | 0x22 => wDmawr
  | 0x23 => wDmard
  | 0x24 => wDmaent
  | 0x28 => wHkput
  | 0x29 => wHkget
  | _ => fun _ _ _ _ _ _ => .wait

/-- ACT_WAIT_END (R227): the word that a context waits on completes, if it now can. -/
def execActWaitEnd (i : Fin 24) (inl : Bool) (s : State) : Host.Outcome State Fault Refusal :=
  let i := i.val
  match s.actCtx i inl with
  | none => .next s
  | some (r, c) =>
    match c.wait with
    | none => .next s
    | some (op, w) => .next (s.actEnd i inl op w c (waitBody op i inl w s r c.next))

end Sys2Proof.Machine
end

