-- ==== Sys2Proof/Machine/Larder.lean ====
section
/-! DEFINITION. The commands of spec/13 on DRAM ports and the Larder. -/

namespace Sys2Proof.Machine
open Sys2Proof

/-! ### DRAM ports -/

/-- A port may train: its half runs, DRAM_CTRL.LOCK is set, VDDQ is good, and it is not trained (R612). -/
def State.mayTrain (s : State) (h : Half) : Bool :=
  s.running h && s.flag (A.DRAM_CTRL h.n) F.DRAM_CTRL.LOCK && s.rail (4 + h.n) && !s.trained h

/-- Training succeeds: a port held in self-refresh keeps its contents; any other has run full training and clears its
capacity (R614, R816). The port takes up service, and DRAM_CTRL.EN reads 1. -/
def State.trainOk (s : State) (h : Half) : State :=
  let kept := (s.dram h).retained
  let s := (s.setf (A.DRAM_STATUS h.n) F.DRAM_STATUS.TRAINED 1).setf (A.DRAM_STATUS h.n) F.DRAM_STATUS.SELF_REFRESH 0
  let s := if kept then s else
    let s := s.portLost h
    s.putDram h { s.dram h with clearing := true, cleared := [] }
  let s := s.putDram h { s.dram h with retained := false }
  (s.setf (A.DRAM_CTRL h.n) F.DRAM_CTRL.EN 1).portEnters h

/-- DRAM_TRAINING_DONE (R612, R613): training or retraining of a port ends. -/
def execDramTrainingDone (h : Half) (ok : Bool) (s : State) : Host.Outcome State Fault Refusal :=
  if s.mayTrain h then
    let s := (s.padLeave h padDram).padLeave h padDramOut
    if ok then .next (s.trainOk h)
    else
      let s := s.setf (A.DRAM_STATUS h.n) F.DRAM_STATUS.TRAIN_FAIL 1
      .next ((s.fault 0x22 2 (originHalf h) h.n).portLeaves h)
  else .next s

/-- DRAM_CLEAR_DONE (R816): the background clear of a port has ended. -/
def execDramClearDone (h : Half) (s : State) : Host.Outcome State Fault Refusal :=
  let d := s.dram h
  if d.clearing then .next (s.putDram h { d with clearing := false, cleared := [] }) else .next s

/-- The mirror's record of a divergence: address, differing words, the authoritative copy and the overwritten one
(R621, Table 13.9). -/
def State.divergence (s : State) (a : Nat) (auth other : List Byte) : State :=
  let w := (List.range 8).foldl (fun m i => if slice auth (8 * i) 8 = slice other (8 * i) 8 then m else m + 2 ^ i) 0
  s.larderEvent 4 1 0 (leBytes 8 a ++ [BitVec.ofNat 8 w]) (auth ++ other)

/-- The audit of a block by the patrol of DK while the mirror is SYNC (R621): clean copies that differ are logged, counted
and repaired from the port of the half that holds charge. -/
def State.audit (s : State) (off : Nat) : State :=
  let k := s.mbs (dkBase + off) 64
  let p := s.mbs (dpBase + off) 64
  if k = p then s
  else
    let s := (s.inc (A.DRAM_MIRROR_DIV_CNT 0)).setf (A.DRAM_STATUS 0) F.DRAM_STATUS.MIRROR_DIV 1
    let s := s.faultD 0x23 1 originShared 0 ((dkBase + off) % 2 ^ 32) ((dkBase + off) / 2 ^ 32) 0
    match s.holder with
    | some .p => (s.divergence (dkBase + off) p k).putbs (dkBase + off) p
    | some .k => (s.divergence (dkBase + off) k p).putbs (dpBase + off) k
    | none => s.divergence (dkBase + off) k p

/-- One block of the patrol: its ECC on this port, and on the mirror's other port (R616 to R618, R621). -/
def State.patrolBlock (s : State) (h : Half) (e other : Ecc) : State :=
  let d := s.dram h
  let off := d.patrol * 64
  let a := portBase h + off
  let sync := s.mirrorState == mirSync
  let s := match e with
    | .clean => if sync && h == Half.k && other == Ecc.clean && !s.dramP.clearing && s.flag (A.DRAM_CTRL 0) F.DRAM_CTRL.AUDIT_EN then s.audit off else s
    | .single => s.dramCorrected h a 0
    | .double =>
      if sync && other == Ecc.clean then (s.putbs a (s.mbs (portBase h.other + off) 64)).dramCorrected h a 0
      else s.dramDouble h a 0
  let last := s.coverCap h / 64 ≤ d.patrol + 1
  let s := if last then s.incMod (A.DRAM_PATROL h.n) F.DRAM_PATROL.PASSES else s
  s.putDram h { s.dram h with patrol := if last then 0 else d.patrol + 1 }

/-- PATROL_BLOCK (R618). -/
def execPatrolBlock (h : Half) (ecc mirrorEcc : Ecc) (s : State) : Host.Outcome State Fault Refusal :=
  if s.running h && s.flag (A.DRAM_CTRL h.n) F.DRAM_CTRL.PATROL_EN && (s.dram h).service && !(s.dram h).clearing then
    .next (s.patrolBlock h ecc mirrorEcc)
  else .next s

/-- RESILVER_DONE (R619): the copy ends, and the mirror enters SYNC. -/
def execResilverDone (s : State) : Host.Outcome State Fault Refusal :=
  if s.mirrorState = mirResilver then
    let src : Half := if s.dramK.service then .k else .p
    if (s.dram src).service ∧ s.trained src.other then
      let s := s.copyRange (portBase src) (portBase src.other) (s.coverCap src)
      .next ((s.putDram src.other { s.dram src.other with service := true }).setMirror mirSync)
    else .next s
  else .next s

/-- A write of DRAM_CTRL: the Trivet takes a trained port out of service with EN 0, and back with EN 1 (Table 13.11). -/
def State.dramCtrlWrite (s : State) (m : Nat) (h : Half) (v : Word) : State :=
  s.guardReg m (A.DRAM_CTRL h.n) fun s =>
    let was := s.flag (A.DRAM_CTRL h.n) F.DRAM_CTRL.EN
    let s := s.plainWrite (A.DRAM_CTRL h.n) v
    let on := s.flag (A.DRAM_CTRL h.n) F.DRAM_CTRL.EN
    if was && !on then s.portLeaves h else if !was && on && s.trained h then s.portEnters h else s

/-- A write of DRAM_CFG: locked fields are kept with an error (R811); 8 Gbit with 2 ranks is refused and sets TRAIN_FAIL. -/
def State.dramCfgWrite (s : State) (m : Nat) (h : Half) (v : Word) : State :=
  let a := A.DRAM_CFG h.n
  s.guardReg m a fun s =>
    match regDesc? a with
    | none => s
    | some d =>
      if s.locked a && changesRwl d (s.rd a) v then s.busErr m a true cLock
      else if fget F.DRAM_CFG.DENSITY v = 1 ∧ fget F.DRAM_CFG.RANKS v = 1 then
        s.setf (A.DRAM_STATUS h.n) F.DRAM_STATUS.TRAIN_FAIL 1
      else s.plainWrite a v

/-- A write of DRAM_MIRROR in either block sets the common value (R632): EN is locked with its block's LOCK (R811); RATE is
kept within 1 to 16. Mirroring that starts takes the ports in service as they are; mirroring that ends frees both. -/
def State.dramMirrorWrite (s : State) (m : Nat) (h : Half) (v : Word) : State :=
  let a := A.DRAM_MIRROR h.n
  s.guardReg m a fun s =>
    let en := fget F.DRAM_MIRROR.EN v
    let rate := max 1 (min 16 (fget F.DRAM_MIRROR.RATE v))
    let both := fun (s : State) (f : Fld) (x : Nat) => (s.setf (A.DRAM_MIRROR 0) f x).setf (A.DRAM_MIRROR 1) f x
    let was := s.mirrorOn
    let bad := s.locked a && en != s.fld a F.DRAM_MIRROR.EN
    let s := both s F.DRAM_MIRROR.RATE rate
    if bad then s.busErr m a true cLock
    else
      let s := both s F.DRAM_MIRROR.EN en
      if !was && en == 1 then
        if s.dramK.service && s.dramP.service then
          let keep := s.holder.getD .k
          (s.putDram keep.other { s.dram keep.other with service := false }).setMirror mirResilver
        else s.setMirror mirDegraded
      else if was && en == 0 then
        let back := fun (s : State) (x : Half) => s.putDram x { s.dram x with service := s.trained x }
        (back (back s .k) .p).setMirror 0
      else s

/-! ### The Larder -/

/-- A write of LARDER_CTRL.EN (R622, R630): recording starts with every store from its beginning, but for pages and records
that a held freeze keeps; a configuration that may not record is refused with CFG_ERR. -/
def State.larderCtrlWrite (s : State) (m : Nat) (v : Word) : State :=
  s.guardReg m A.LARDER_CTRL fun s =>
    let was := s.flag A.LARDER_CTRL F.LARDER_CTRL.EN
    if fget F.LARDER_CTRL.EN v = 0 then s.setf A.LARDER_CTRL F.LARDER_CTRL.EN 0
    else if was then s
    else if s.larderOk then
      let fresh := fun (k : Nat) => { LStore.init with snaps := s.frozenSnaps k }
      let l := s.larder
      let l := { l with cyc := fresh 0, fast := fresh 1, evtNext := 0, evtSeq := 0, held := l.held.filter s.frozenEvt
                        evtStopped := false, waiting := [], dropped := false }
      let s := { s with larder := l }
      let s := (s.setf A.LARDER_STATUS F.LARDER_STATUS.CFG_ERR 0).setf A.LARDER_STATUS F.LARDER_STATUS.STOPPED 0
      s.setf A.LARDER_CTRL F.LARDER_CTRL.EN 1
    else s.setf A.LARDER_STATUS F.LARDER_STATUS.CFG_ERR 1

/-- LARDER_ENABLE (R622). -/
def execLarderEnable (m : Byte) (v : Word) (s : State) : Host.Outcome State Fault Refusal :=
  .next (s.larderCtrlWrite m.toNat v)

/-- The half whose banks a snapshot reads (R623). -/
def State.snapHalf (s : State) : Half :=
  match s.charged with
  | some h => h
  | none => if s.rst.k.powered then .k else .p

/-- The offsets of the tags within a half's banks, in ascending source and index (R623). -/
def State.tagOffsets (s : State) : List Nat :=
  (List.range 8).flatMap fun j =>
    let off := s.fld (A.LARDER_SRC_BASE j) F.LARDER_SRC_BASE.OFFSET * 8
    let cnt := s.fld (A.LARDER_SRC_CNT j) F.LARDER_SRC_CNT.COUNT
    let stride := if s.flag (A.LARDER_SRC_CNT j) F.LARDER_SRC_CNT.STRIDE16 then 16 else 8
    (List.range cnt).map fun i => off + i * stride

/-- One 8-byte read of the Larder from a half's banks, on their port B (R570, Table 12.1). A refused read gives 0, and what
lies beyond the banks reads 0 (R35). -/
def State.readTag (s : State) (h : Half) (off : Nat) : State × List Byte :=
  if 0x200000 ≤ off then (s, List.replicate 8 0)
  else
    let (s, r) := s.spadPort ⟨0x48, bankAt h off, 8, false, [], .clean, .clean⟩ fun _ => false
    match r with
    | .ok v => (s, leBytes 8 v)
    | _ => (s, List.replicate 8 0)

/-- The VALUE bytes of tags, read one after another. -/
def State.readTags (s : State) (h : Half) : List Nat → State × List Byte
  | [] => (s, [])
  | off :: offs =>
    let (s, bs) := s.readTag h off
    let (s, rest) := s.readTags h offs
    (s, bs ++ rest)

/-- The bank words that a snapshot reads, tag by tag; none where the read is refused or lies beyond the banks (R570, R35). -/
def State.tagWords (s : State) (h : Half) : List (Option Nat) :=
  s.tagOffsets.map fun off =>
    if 0x200000 ≤ off ∨ (s.spadErr 0x48 (bankAt h off) 8 false).isSome then none else some (bankAt h off)

/-- What the ECC showed of the words that a snapshot read (R565): a single-bit error is corrected and counted; the tag of a word
with a double-bit error is taken as 0, and an event record names the address (Table 12.2); its TYPE, and that the errors are
reported when the snapshot is done, are the model's (DESIGN CHOICE, log entries 14 and 49). -/
def State.snapEcc (s : State) (eccs : List (BitVec 40 × Ecc)) : List (Option Nat) → List Byte → State × List Byte
  | [], bs => (s, bs)
  | w :: ws, bs =>
    let e := w.bind fun a => (eccs.find? fun x => x.1.toNat / 8 = a / 8).map fun x => (a, x.2)
    let (s, v) := match e with
      | some (a, .single) => (s.spadSingle (bankHalf a) a 0x48, bs.take 8)
      | some (a, .double) => ((s.spadDouble (bankHalf a) a 0x48).larderEvent 3 0xFF 0x48 (leBytes 8 a) [], List.replicate 8 0)
      | _ => (s, bs.take 8)
    let (s, rest) := s.snapEcc eccs ws (bs.drop 8)
    (s, v ++ rest)

/-- The source registers as bytes. -/
def State.srcBytes (s : State) : List Byte :=
  (List.range 8).flatMap fun j => leBytes 4 (s.rdn (A.LARDER_SRC_BASE j)) ++ leBytes 4 (s.rdn (A.LARDER_SRC_CNT j))

/-- A trigger of snapshot store k starts a snapshot: the store is in use, and the snapshot before has been written (R624). -/
def State.snapStarts (s : State) (k : Nat) : Bool :=
  s.partSize k != 0 && !(s.larder.store k).stopped && (s.larder.store k).job.isNone

/-- A trigger of snapshot store k: it takes the snapshot that has been read, or skips it and counts (R624). -/
def State.snapTrigger (s : State) (k : Nat) (j : SnapJob) : State :=
  let x := s.larder.store k
  if s.partSize k = 0 ∨ x.stopped then s
  else match x.job with
    | some _ => s.inc A.LARDER_SNAP_SKIP
    | none => { s with larder := s.larder.putStore k { x with job := some j } }

/-- LARDER_SNAPSHOT_TRIGGER (R624): the compare events of this tick trigger their stores, and one read serves both. -/
def execLarderSnapshotTrigger (s : State) : Host.Outcome State Fault Refusal :=
  if s.flag A.LARDER_CTRL F.LARDER_CTRL.EN then
    let due := fun f => s.cmpLast (s.fld A.LARDER_TRIG f) == some s.raw
    let c := due F.LARDER_TRIG.CYC_CMP
    let f := due F.LARDER_TRIG.FAST_CMP
    let h := s.snapHalf
    let words := s.tagWords h
    let (s, tags) := if (c && s.snapStarts 0) || (f && s.snapStarts 1) then s.readTags h s.tagOffsets else (s, [])
    let j : SnapJob := ⟨s.raw, h == .p, s.srcBytes, words, tags⟩
    let s := if c then s.snapTrigger 0 j else s
    .next (if f then s.snapTrigger 1 j else s)
  else .next s

/-- The pages of a snapshot, written from its first page on (R625). -/
def State.putPages (s : State) (k st : Nat) (j : SnapJob) (seq : Nat) (frozen : Bool) : State :=
  let n := snapPages (j.tags.length / 8)
  let flags := b2n frozen * 2 + b2n j.fromP * 4
  let epoch := s.rdn A.GAUGE_EPOCH
  (List.range n).foldl (fun s p =>
    let body := if p = 0 then Config.larderHead j.srcs epoch else slice j.tags ((p - 1) * 4032) 4032
    let fl := if p = 0 then flags + 1 else flags
    s.larderPut (s.partBase k + (st + p) * 4096)
      (larderPage body k fl epoch seq j.trig p n (if p = 0 then 0 else (p - 1) * 504))) s

/-- The snapshot of store k is written over its oldest unfrozen ones (R625, R628, R629). -/
def State.snapWrite (s : State) (k : Nat) : State :=
  let x := s.larder.store k
  match x.job with
  | none => s
  | some j =>
    let n := snapPages (j.tags.length / 8)
    let frozen := s.frozenSnaps k
    let spans := frozen.map fun f => (f.page, f.pages)
    match ringPlace x.next (s.storePages k) n spans with
    | none => { s with larder := s.larder.putStore k { x with job := none } }
    | some st =>
      let keep := x.snaps.filter fun y => !spansMeet y.page y.pages st n
      let y : LStore := { x with next := st + n, seq := x.seq + 1, job := none, snaps := keep ++ [⟨x.seq, j.trig, st, n⟩] }
      let s := { s with larder := s.larder.putStore k y }
      let isFrozen := (s.frozenSnaps k).any fun z => z.page == st
      let s := s.putPages k st j x.seq isFrozen
      s.inc (if k = 0 then A.LARDER_SNAP_CYC else A.LARDER_SNAP_FAST)

/-- The errors that the reads of the snapshot in progress of store k met; one read serves both stores (R624). -/
def State.tagErrors (s : State) (k : Nat) (eccs : List (BitVec 40 × Ecc)) : State :=
  match (s.larder.store k).job with
  | none => s
  | some j =>
    let (s, tags) := s.snapEcc eccs j.words j.tags
    let told := fun (x : LStore) =>
      { x with job := x.job.map fun y => if y.trig = j.trig then { y with words := [], tags := tags } else y }
    { s with larder := { s.larder with cyc := told s.larder.cyc, fast := told s.larder.fast } }

/-- LARDER_SNAPSHOT_DONE (R625): the snapshot in progress of the cyclic or the fast store has been written. -/
def execLarderSnapshotDone (d : SnapDone) (s : State) : Host.Outcome State Fault Refusal :=
  let k := b2n d.fast
  .next ((if d.eccs = [] then s else s.tagErrors k d.eccs).snapWrite k)

/-- The oldest waiting record is written to the event ring (R626, R627). -/
def State.evtWrite (s : State) : State :=
  match s.larder.waiting with
  | [] => s
  | e :: rest =>
    let l := s.larder
    let s := { s with larder := { l with waiting := rest } }
    if s.partSize 2 = 0 ∨ l.evtStopped then s
    else
      let n := if e.ext = [] then 1 else 3
      let spans := (l.held.filter s.frozenEvt).map fun x => (x.slot, x.len)
      match ringPlace l.evtNext (s.partSize 2 / 64) n spans with
      | none => { s with larder := { s.larder with dropped := true } }.inc A.LARDER_EVT_DROP
      | some st =>
        let keep := l.held.filter fun x => !spansMeet x.slot x.len st n
        let s := s.larderPut (s.partBase 2 + st * 64) (evtBytes e (l.evtSeq % 2 ^ 32) l.dropped)
        let l : Larder := { s.larder with evtNext := st + n, evtSeq := l.evtSeq + 1, dropped := false
                                          held := keep ++ [⟨st, e.raw, n, l.evtSeq⟩] }
        let s := { s with larder := l }.inc A.LARDER_EVT_CNT
        if (2 ≤ e.cls ∧ e.cls ≤ 4) ∨ e.typ = 5 then s.setf A.LARDER_STATUS F.LARDER_STATUS.EVT_IRQ 1 else s

/-- LARDER_EVENT_WRITE (R626): the oldest waiting record is written, or, where events come too fast, the latest is dropped
and counted. -/
def execLarderEventWrite (drop : Bool) (s : State) : Host.Outcome State Fault Refusal :=
  if drop then
    if s.larder.waiting = [] then .next s
    else .next ({ s with larder := { s.larder with waiting := s.larder.waiting.dropLast, dropped := true } }.inc A.LARDER_EVT_DROP)
  else .next s.evtWrite

/-- FREEZE_PIN (R628). -/
def execFreezePin (s : State) : Host.Outcome State Fault Refusal :=
  if s.flag A.LARDER_FREEZE F.LARDER_FREEZE.EN_PIN then .next s.freezeTrigger else .next s

/-- A KCP release ends the held freeze (R629). -/
def State.freezeRelease (s : State) : State :=
  { s with larder := { s.larder with freeze := none } }.setf A.LARDER_STATUS F.LARDER_STATUS.FROZEN 0

end Sys2Proof.Machine
end

