-- ==== Sys2Proof/Machine/Recipe.lean ====
section
/-! DEFINITION. The load of a Recipe: its image, the checks of Table 4.16 and the areas it fills (spec/03, R161 to R165;
spec/04, R195 to R200, R245 to R247). -/

namespace Sys2Proof.Machine
open Sys2Proof

/-! ### The image -/

/-- An entry of the section table (Table 4.2). -/
structure Sect where
  typ : Nat
  zero : Nat
  count : Nat
  off : Nat
  size : Nat
  crc : Nat
  deriving DecidableEq, Repr

/-- The section table. -/
def sects (img : List Byte) : List Sect :=
  (List.range (byteAt img 20)).map fun k =>
    let a := 64 + 16 * k
    ⟨byteAt img a, byteAt img (a + 1), u img (a + 2) 2, u img (a + 4) 4, u img (a + 8) 4, u img (a + 12) 4⟩

/-- The section of a type, and its bytes. -/
def sectOf (img : List Byte) (t : Nat) : Option Sect := (sects img).find? fun x => x.typ = t
def Sect.data (x : Sect) (img : List Byte) : List Byte := slice img x.off x.size
def sectData (img : List Byte) (t : Nat) : List Byte := ((sectOf img t).map fun x => x.data img).getD []
def sectCount (img : List Byte) (t : Nat) : Nat := ((sectOf img t).map fun x => x.count).getD 0

/-- Section types (Table 4.3). -/
def tFmt : Nat := 1
def tMatch : Nat := 2
def tState : Nat := 3
def tAct : Nat := 4
def tTpl : Nat := 5
def tTmr : Nat := 6
def tConst : Nat := 7
def tPattern : Nat := 8

/-- The resident sections in the order of R199. -/
def residents : List Nat := [tFmt, tState, tAct, tTpl, tConst, tPattern]

/-- A size rounded up to 64 bytes. -/
def round64 (n : Nat) : Nat := (n + 63) / 64 * 64

/-- The window offset of a resident section (R199). -/
def placeOf (img : List Byte) (t : Nat) : Nat :=
  (residents.takeWhile fun r => r != t).foldl (fun a r => a + round64 (sectData img r).length) 0x6800

/-- Every byte is 0. -/
def zeros (b : List Byte) : Bool := b.all fun x => x == 0

/-! ### Checks 0x01 to 0x03 (R196, R202, R246) -/

/-- Check 0x01: `n` bytes were received. -/
def chkSize (img : List Byte) : Bool :=
  let n := u img 12 4
  n == img.length && n % 8 == 0 && decide (368 ≤ n ∧ n ≤ 98304)

/-- The first of checks 0x01 to 0x03 that fails. -/
def State.precheck (s : State) (img : List Byte) : Option Nat :=
  if !chkSize img then some 1
  else if !s.signed 1 (u img 8 2) img then some 2
  else if u img 16 4 < s.rollback 1 then some 3 else none

/-! ### Checks 0x04 to 0x0F (Table 4.16) -/

/-- Check 0x04. -/
def chkHeader (img : List Byte) : Bool :=
  img.take 4 == [0x4E#8, 0x44#8, 0x4C#8, 0x45#8] && u img 4 2 == 1 && u img 6 2 == 0x40 &&
  u img 60 4 == crc32c (img.take 60) && u img 8 2 != 0 && byteAt img 21 / 2 == 0 &&
  zeros (slice img 30 2) && zeros (slice img 48 12)

/-- Two stretches of an image do not overlap. -/
def apart (a n b m : Nat) : Bool := decide (a + n ≤ b) || decide (b + m ≤ a)

/-- COUNT of a section is within its limits (R198, Table 4.3). -/
def countFits (x : Sect) : Bool :=
  match x.typ with
  | 1 => decide (1 ≤ x.count ∧ x.count ≤ 256)
  | 2 => decide (1 ≤ x.count ∧ x.count ≤ 64)
  | 3 => decide (1 ≤ x.count ∧ x.count ≤ 1024)
  | 4 => decide (1 ≤ x.count ∧ x.count ≤ 8192)
  | 6 => decide (1 ≤ x.count ∧ x.count ≤ 16)
  | 8 => decide (2 ≤ x.count ∧ x.count ≤ 1023)
  | _ => x.count == 0

/-- Check 0x05. R198 names SIZE too, which check 0x07 judges against COUNT and NTRANS: the model leaves SIZE to that check
(DESIGN CHOICE, log entry 49). -/
def chkTable (img : List Byte) : Bool :=
  let n := byteAt img 20
  let lim := img.length - 112
  let ss := sects img
  let one := fun (x : Sect) =>
    decide (1 ≤ x.typ ∧ x.typ ≤ 8) && x.zero == 0 && x.off % 8 == 0 && x.size % 8 == 0 && decide (64 + 16 * n ≤ x.off) &&
    decide (x.off + x.size ≤ lim)
  decide (2 ≤ n ∧ n ≤ 9 ∧ 64 + 16 * n ≤ lim) && ss.all one &&
  ((List.range n).all fun i => (List.range i).all fun j =>
    match ss[i]?, ss[j]? with
    | some x, some y => x.typ != y.typ && apart x.off x.size y.off y.size
    | _, _ => true) &&
  (sectOf img tState).isSome && (sectOf img tAct).isSome && ss.all countFits

/-- Check 0x06. -/
def chkCrc (img : List Byte) : Bool := (sects img).all fun x => crc32c (x.data img) == x.crc

/-- NSTATE and NTRANS of an image. -/
def nStates (img : List Byte) : Nat := u (sectData img tState) 0 2
def nTrans (img : List Byte) : Nat := u (sectData img tState) 2 2

/-- SIZE of a section agrees with COUNT and NTRANS and is within its limit (Table 4.3). -/
def sectFits (img : List Byte) (x : Sect) : Bool :=
  match x.typ with
  | 1 => x.size == 32 * x.count
  | 2 => x.size == 64 * x.count
  | 3 =>
    x.count == nStates img && decide (1 ≤ nTrans img ∧ nTrans img ≤ 4096) &&
    x.size == 128 + 8 * ((x.count + 1) / 2) + 16 * nTrans img
  | 4 => x.size == 8 * x.count
  | 5 => decide (8 ≤ x.size ∧ x.size ≤ 32768)
  | 6 => x.size == 16 * x.count
  | 7 => decide (8 ≤ x.size ∧ x.size ≤ 4096)
  | _ => x.size == 80 + 8 * x.count

/-- Checks 0x07 and 0x08. -/
def chkSizes (img : List Byte) : Bool := (sects img).all (sectFits img)
def chkArea (img : List Byte) : Bool :=
  decide (residents.foldl (fun n t => n + round64 (sectData img t).length) 0 ≤ 71680)

/-- Descriptor d of an image, and whether the chain from it ends within `fuel` descriptors. -/
def fmtOf (img : List Byte) (d : Nat) : List Byte := slice (sectData img tFmt) (32 * d) 32
def chainEnds (img : List Byte) : Nat → Nat → Bool
  | 0, d => d == 0xFF
  | fuel + 1, d => d == 0xFF || chainEnds img fuel (byteAt (fmtOf img d) 2)

/-- A field entry meets R204. -/
def fieldFits (fe : Nat) : Bool :=
  let w := fe / 2 ^ 13 % 64 + 1
  !bitAt fe 3 || (fe / 2 ^ 19 % 8 == 0 && w % 8 == 0 && decide (fe / 16 % 16 + w / 8 ≤ 16))

/-- Check 0x09, on each of the six field entries of a descriptor. -/
def chkFmt (img : List Byte) : Bool :=
  let n := sectCount img tFmt
  let named := fun d => d == 0xFF || decide (d < n)
  ((List.range n).all fun d =>
    let b := fmtOf img d
    decide (byteAt b 0 ≤ 3) && decide (byteAt b 1 ≤ 6) && named (byteAt b 2) &&
    ((List.range 6).all fun j => fieldFits (u b (8 + 4 * j) 4)) && chainEnds img 8 d) &&
  named (byteAt img 27) && named (byteAt img 28) && named (byteAt img 29)

/-- Check 0x0A. -/
def chkMatch (img : List Byte) : Bool :=
  (List.range (sectCount img tMatch)).all fun k =>
    let b := slice (sectData img tMatch) (64 * k) 64
    decide (byteAt b 33 ≤ 0xFC) && decide (byteAt b 34 ≤ 2) && zeros (b.drop 36)

/-- Check 0x0B. -/
def chkState (img : List Byte) : Bool :=
  let b := sectData img tState
  let ns := nStates img
  let nt := nTrans img
  let na := sectCount img tAct
  let act := fun a => a == 0xFFFF || decide (a < na)
  let t0 := 128 + 8 * ((ns + 1) / 2)
  decide (u img 22 2 < ns) && act (u b 4 2) && zeros (slice b 6 10) && zeros (slice b 91 37) &&
  zeros (slice b (128 + 4 * ns) (t0 - (128 + 4 * ns))) &&
  ((List.range ns).all fun k => decide (u b (128 + 4 * k) 2 + u b (130 + 4 * k) 2 ≤ nt)) &&
  (List.range nt).all fun k =>
    let e := slice b (t0 + 16 * k) 16
    (decide (byteAt e 0 ≤ 9) || byteAt e 0 == 0xF) && (u e 4 2 == 0xFFFF || decide (u e 4 2 < ns)) && act (u e 6 2) &&
    zeros (e.drop 10)

/-- The fields that Table 4.12 names for an opcode: D, A, B, X, Y, IMM as bits 0 to 5. -/
def opFields (op : Nat) : Nat :=
  match op with
  | 0x00 | 0x01 | 0x05 | 0x07 | 0x2F => 0
  | 0x02 | 0x04 | 0x06 | 0x16 | 0x17 | 0x2B | 0x2E => 32
  | 0x03 => 62
  | 0x08 => 41
  | 0x09 => 3
  | 0x0A | 0x0B => 59
  | 0x0C | 0x0D => 27
  | 0x18 => 1
  | 0x19 | 0x1A | 0x2D => 42
  | 0x1B => 36
  | 0x1C => 63
  | 0x1D => 48
  | 0x1E => 26
  | 0x1F => 40
  | 0x20 => 34
  | 0x21 | 0x26 => 8
  | 0x22 | 0x23 => 62
  | 0x24 => 31
  | 0x25 => 56
  | 0x27 => 17
  | 0x28 => 10
  | 0x29 => 9
  | 0x2A => 50
  | 0x2C => 7
  | _ => 47

/-- OP, X, Y and IMM of the bits of a word. -/
def wOp (w : Nat) : Nat := w / 2 ^ 58 % 64
def wX (w : Nat) : Nat := w / 2 ^ 40 % 64
def wY (w : Nat) : Nat := w / 2 ^ 32 % 256
def wImm (w : Nat) : Nat := w % 2 ^ 32

/-- Every field that Table 4.12 does not name is 0 (R222). -/
def onlyNamed (w : Nat) : Bool :=
  let f := opFields (wOp w)
  [(0, w / 2 ^ 54 % 16), (1, w / 2 ^ 50 % 16), (2, w / 2 ^ 46 % 16), (3, wX w), (4, wY w), (5, wImm w)].all
    fun (k, v) => bitAt f k || v == 0

/-- The action words of an image. -/
def actWords (img : List Byte) : List Nat := (List.range (sectCount img tAct)).map fun k => u (sectData img tAct) (8 * k) 8

/-- One word passes check 0x0C. -/
def wordFits (ns na w : Nat) : Bool :=
  let op := wOp w
  let y := wY w
  decide (op ≤ 0x2F) && onlyNamed w &&
  (if op = 2 ∨ op = 3 ∨ op = 4 then decide (wImm w % 2 ^ 13 < na)
   else if op = 6 then decide (wImm w % 2 ^ 10 < ns)
   else if op = 0x0A ∨ op = 0x0B then [1, 2, 4, 8].contains (y % 16) && y / 16 % 4 == 0
   else if op = 0x0C ∨ op = 0x0D then decide (1 ≤ y ∧ wX w + y ≤ 64)
   else if op = 0x2E then decide (1 ≤ wImm w ∧ wImm w ≤ 255)
   else true)

/-- Check 0x0C. -/
def chkAct (img : List Byte) : Bool :=
  let ws := actWords img
  let na := ws.length
  let ia := u img 24 2
  ws.all (wordFits (nStates img) na) && [0, 2, 5].contains (wOp (ws.getLastD 0)) &&
  (if bitAt (byteAt img 21) 0 then decide (ia < na) else ia == 0xFFFF)

/-- Check 0x0D; a length that a register holds is judged when the word executes. -/
def chkOffsets (img : List Byte) : Bool :=
  let size := fun k => if k = 2 then some (sectData img tConst).length else if k = 3 then some (sectData img tTpl).length
    else if k = 4 then some buildSize else none
  let within := fun k n => match size k with
    | some m => decide (n ≤ m)
    | none => true
  (actWords img).all fun w =>
    let op := wOp w
    if (op = 0x0A ∨ op = 0x0B) ∧ !bitAt (wY w) 7 then within (wX w) (wImm w + wY w % 16)
    else if op = 0x19 then
      within 3 (wImm w % 65536 + wImm w / 65536) && (bitAt (wX w) 0 || within 4 (wImm w / 65536))
    else if op = 0x1B then within 4 (wImm w / 65536)
    else if op = 0x22 then within (wX w / 8) (wImm w % 65536)
    else true

/-- Check 0x0E. -/
def chkTmr (img : List Byte) : Bool :=
  (List.range (sectCount img tTmr)).all fun k =>
    let b := slice (sectData img tTmr) (16 * k) 16
    decide (byteAt b 0 / 4 = 0) && decide (1 ≤ u b 4 4) && decide (u b 8 4 < u b 4 4)

/-- The Pattern that a PATTERN section holds (Table 4.15). -/
def patternOf (b : List Byte) : Pattern :=
  { rows := u b 0 2, localNode := byteAt b 6, rowLen := u b 8 4, stitchLen := u b 12 4, actionOfs := u b 26 2,
    precision := u b 24 2, driftLimit := u b 28 2, minislots := u b 4 2, minislotLen := u b 16 4, nit := u b 20 4,
    listenBase := u b 32 4, listenStep := u b 36 4, refIds := (List.range 4).map fun k => u b (40 + 4 * k) 4,
    startIds := (List.range 4).map fun k => u b (56 + 4 * k) 4,
    stitches := (List.range (u b 2 2)).map fun k =>
      let e := slice b (80 + 8 * k) 8
      ⟨u e 0 4, byteAt e 4, byteAt e 5, byteAt e 6, byteAt e 7⟩ }

/-- Check 0x0F (R243, R244). -/
def chkPattern (img : List Byte) : Bool :=
  match sectOf img tPattern with
  | none => true
  | some x =>
    let b := x.data img
    let n := u b 2 2
    decide (1 ≤ u b 0 2 ∧ u b 0 2 ≤ 64) && n == x.count && decide (u b 4 2 ≤ 1023) && decide (byteAt b 6 ≤ 63) &&
    decide (125000 ≤ u b 8 4 ∧ u b 8 4 ≤ 32000000) && (n * u b 12 4 + u b 4 2 * u b 16 4 + u b 20 4 == u b 8 4) &&
    ((List.range n).all fun k => [1, 2, 4, 8, 16, 32, 64].contains (byteAt b (80 + 8 * k + 7))) &&
    (actWords img).all fun w => wOp w != 0x1F || decide (wImm w % 2 ^ 10 < n)

/-- The first of checks 0x04 to 0x0F that fails (R245). -/
def validate (img : List Byte) : Option Nat :=
  if !chkHeader img then some 4
  else if !chkTable img then some 5
  else if !chkCrc img then some 6
  else if !chkSizes img then some 7
  else if !chkArea img then some 8
  else if !chkFmt img then some 9
  else if !chkMatch img then some 10
  else if !chkState img then some 11
  else if !chkAct img then some 12
  else if !chkOffsets img then some 13
  else if !chkTmr img then some 14
  else if !chkPattern img then some 15 else none

/-! ### The load (R161 to R163, R199, R200, R220, R241) -/

/-- What the engine keeps of a Recipe. -/
def recipeOf (img : List Byte) : Recipe :=
  { inline := bitAt (byteAt img 21) 0, initState := u img 22 2, inlAct := u img 24 2, inlCtx := byteAt img 26,
    descFrame := byteAt img 27, descCan := byteAt img 28, descInline := byteAt img 29, fmt := placeOf img tFmt,
    nfmt := sectCount img tFmt, state := placeOf img tState, nstate := nStates img, ntrans := nTrans img,
    act := placeOf img tAct, nact := sectCount img tAct, tpl := placeOf img tTpl, tplLen := (sectData img tTpl).length,
    const := placeOf img tConst, constLen := (sectData img tConst).length, pat := placeOf img tPattern,
    patLen := (sectData img tPattern).length, digest := sha384 img, roll := u img 16 4 }

/-- A timer as its TMR entry sets it up. -/
def timerOf (b : List Byte) : Timer :=
  { armed := false, expiry := 0, interval := u b 4 4, periodic := bitAt (byteAt b 0) 1, ctx := byteAt b 1,
    mode := byteAt b 0, ival := u b 4 4, phase := u b 8 4 }

/-- The timers of an image. -/
def timersOf (img : List Byte) : List (Nat × Timer) :=
  (List.range (sectCount img tTmr)).map fun k => (k, timerOf (slice (sectData img tTmr) (16 * k) 16))

/-- Context area and staging areas become zero (R163). -/
def State.neClear (s : State) (i : Nat) : State :=
  (s.clearMem (neWin i) (neWin i + 0x6800)).mapEng i fun e => { e with rxNo := none, txNo := none, fresh := [] }

/-- Recipe area and TCAM become zero (R162). -/
def State.neClearRecipe (s : State) (i : Nat) : State :=
  (s.clearMem (neWin i + 0x6800) (neWin i + 0x18000)).clearMem (neWin i + 0x20000) (neWin i + 0x21000)

/-- The sections are written to their places, and every context takes the initial state. -/
def State.neInstall (s : State) (i : Nat) (img : List Byte) : State :=
  let s := (s.neClear i).neClearRecipe i
  let s := residents.foldl (fun s t => s.putN i (placeOf img t) (sectData img t)) s
  let s := s.putN i 0x20000 (sectData img tMatch)
  (List.range 256).foldl (fun s c => s.putN i (16 * c) (slice img 22 2)) s

/-- The command behind a load ends with a status. -/
def State.loadReply (s : State) (l : Load) (status : Nat) : State :=
  match s.kcmd l.tr l.tag with
  | some c => s.finish c status []
  | none => s

/-- RECIPE_VERIFY_DONE (R161, R246): checks 0x01 to 0x03 of the load that engine i waits for have run. In LOADING over an earlier
Recipe, LOADED and NE_RECIPE keep their values until validation ends (DESIGN CHOICE, log entry 49). -/
def execRecipeVerifyDone (i : Fin 24) (s : State) : Host.Outcome State Fault Refusal :=
  let i := i.val
  match (s.eng i).load with
  | none => .next s
  | some l =>
    if l.verified then .next s
    else match s.kcmd l.tr l.tag with
      | none => .next (s.mapEng i fun e => { e with load := none })
      | some c =>
        let drop := s.mapEng i fun e => { e with load := none }
        if s.neState i ≠ neStopped then .next (drop.finish c stBadState [])
        else match s.precheck l.image with
          | some code => .next (drop.finish c (0x100 + code) [])
          | none =>
            let s := (s.setf (A.NE_STATUS i) F.NE_STATUS.STATE neLoading).neClear i
            let s := s.mapEng i fun e => { e with load := some { l with verified := true } }
            .next (s.putKcmd { c with committed := true })

/-- RECIPE_VALIDATED (R162, R247): the validation of the Recipe that engine i loads ends. -/
def execRecipeValidated (i : Fin 24) (s : State) : Host.Outcome State Fault Refusal :=
  let i := i.val
  match (s.eng i).load with
  | none => .next s
  | some l =>
    if s.neState i ≠ neLoading ∨ !l.verified then .next s
    else
      let s := s.setf (A.NE_STATUS i) F.NE_STATUS.STATE neStopped
      match validate l.image with
      | some code =>
        let s := (s.setf (A.NE_STATUS i) F.NE_STATUS.LOADED 0).wr (A.NE_RECIPE i) 0
        let s := (s.neClear i).neClearRecipe i
        let s := s.mapEng i fun e => { e with load := none, recipe := none, timers := [], inl := none }
        .next (s.loadReply l (0x100 + code))
      | none =>
        let s := (s.setf (A.NE_STATUS i) F.NE_STATUS.LOADED 1).wrn (A.NE_RECIPE i) (u l.image 8 2 * 65536 + u l.image 10 2)
        let s := s.neInstall i l.image
        let s := s.mapEng i fun e => { e with load := none, recipe := some (recipeOf l.image), timers := timersOf l.image }
        .next (s.loadReply l stOk)

end Sys2Proof.Machine
end

