-- ==== Sys2Proof/Machine/Twin.lean ====
section
/-! DEFINITION. Twin mode: heartbeats between two chips, chip charge (spec/02, R134 to R140). The spec gives chip
charge the rules of R85 and R86; here a chip is a candidate while it has a holder, and each heartbeat carries that
and whether the chip has twin charge. -/

namespace Sys2Proof.Machine
open Sys2Proof

/-- Twin mode is on, and its Trivet runs (R134). -/
def State.twinOn (s : State) : Bool := s.flag A.TRV_TWIN F.TRV_TWIN.TWIN_EN && !s.trivetLost

/-- ROLE, and the clash bit (Table 2.16). -/
def State.role (s : State) : Nat := s.fld A.TRV_TWIN F.TRV_TWIN.ROLE
def State.clash (s : State) : Bool := s.flag A.TRV_TWIN F.TRV_TWIN.INDEX_CLASH

/-- The chip takes twin charge: its Colander releases under R120 (R138). -/
def State.twinTake (s : State) : State :=
  if s.clash then s
  else
    let s := { s with twin := { s.twin with window := none } }
    (s.setf A.TRV_TWIN F.TRV_TWIN.ROLE 1).releaseDue

/-- The chip goes to twin standby. -/
def State.twinStandby (s : State) : State :=
  State.setf { s with twin := { s.twin with window := none } } A.TRV_TWIN F.TRV_TWIN.ROLE 2

/-- The level of TWIN_PEER as sampled: a high level ends a low time. -/
def State.peerLevel (s : State) (high : Bool) : State :=
  let s := s.setb A.TRV_TWIN F.TRV_TWIN.PEER_HOLD high
  if high then { s with twin := { s.twin with peerLow := false } } else s

/-- The chip's cast-on window opens when it has a holder, and is closed 100 µs later (R85, R135). -/
def State.twinCastOn (s : State) : State :=
  if s.role ≠ 0 ∨ s.holder.isNone then s
  else match s.twin.window with
  | none => { s with twin := { s.twin with window := some s.raw } }
  | some t => if t + 100 * usTicks ≤ s.raw then s.twinTake else s

/-- TWIN_HEARTBEAT_SEND (R135): every 1 µs. -/
def execTwinHeartbeatSend (s : State) : Host.Outcome State Fault Refusal :=
  if s.twinOn ∧ s.rawOn ∧ s.raw % 500 = 0 then
    let s := s.twinCastOn
    .next (s.emit (.twin (s.fld A.TRV_TWIN F.TRV_TWIN.INDEX) s.holder.isSome (s.role = 1)))
  else .next s

/-- TWIN_HEARTBEAT_RECEIVE (R135, R140): a heartbeat of the other chip, and the level of TWIN_PEER at it. Within the
cast-on window, INDEX 0 takes Knit's part; a chip that finds twin charge taken goes to standby (R85, R86). -/
def execTwinHeartbeatReceive (idx : Fin 2) (cand holds peer : Bool) (s : State) : Host.Outcome State Fault Refusal :=
  if !s.twinOn then .next s
  else
    let s := s.peerLevel peer
    let s := { s with twin := { s.twin with misses := 0, at_ := s.now } }
    let s := s.setf A.TRV_TWIN F.TRV_TWIN.LINK_UP 1
    let own := s.fld A.TRV_TWIN F.TRV_TWIN.INDEX
    if own = idx.val then
      if s.clash then .next s
      else
        let s := (s.setf A.TRV_TWIN F.TRV_TWIN.INDEX_CLASH 1).setf A.TRV_TWIN F.TRV_TWIN.ROLE 0
        .next (s.fault 0x72 4 originTwin 0)
    else
      let s := s.setf A.TRV_TWIN F.TRV_TWIN.INDEX_CLASH 0
      if s.role ≠ 0 ∨ s.holder.isNone then .next s
      else if holds then .next s.twinStandby
      else if cand then
        if own = 0 then .next s.twinTake else .next s.twinStandby
      else .next s

/-- A twin heartbeat arrives on the tick of the expiry: the expiry is cancelled (R18, R99). -/
def State.twinSoon (s : State) : Bool :=
  s.soon fun c => match c with
    | .twinHeartbeatReceive _ _ _ _ => true
    | _ => false

/-- TWIN_HEARTBEAT_TIMEOUT (R98 to R100, R138, R139): 220 TRV cycles without a twin heartbeat. -/
def execTwinHeartbeatTimeout (peer : Bool) (s : State) : Host.Outcome State Fault Refusal :=
  if !s.twinOn ∨ s.now < s.twin.at_ + 534 ∨ s.twinSoon then .next s
  else
    let s := s.peerLevel peer
    let n := s.twin.misses
    let s := { s with twin := { s.twin with misses := min 3 (n + 1), at_ := s.now } }
    if n = 2 then
      let s := s.setf A.TRV_TWIN F.TRV_TWIN.LINK_UP 0
      if s.role ≠ 2 then .next s
      else if peer then .next (s.fault 0x73 2 originTwin 0)
      else if s.twin.peerLow then .next s.twinTake else .next s
    else .next s

/-- TWIN_PEER_LOW (R138): TWIN_PEER has been low for 1 µs. -/
def execTwinPeerLow (s : State) : Host.Outcome State Fault Refusal :=
  if !s.twinOn then .next s
  else
    let s := s.peerLevel false
    let s := { s with twin := { s.twin with peerLow := true } }
    if s.twin.misses = 3 ∧ s.role = 2 then .next s.twinTake else .next s

end Sys2Proof.Machine
end

