-- ==== Sys2Proof/Machine/View.lean ====
section
/-! DEFINITION. What a read of a register returns where it is computed from the state of its unit, and what a read does
(Table 0.2 and the register tables of every chapter). -/

namespace Sys2Proof.Machine
open Sys2Proof

/-- Index k of a register, and the number of a unit of which each half has `per`. -/
def ix (l : List Nat) (k : Nat) : Nat := l.getD k 0
def ux (per : Nat) (l : List Nat) : Nat := ix l 0 * per + ix l 1

/-- The word whose bit k is `f k`, for k below n. -/
def bitsOf (n : Nat) (f : Nat → Bool) : Nat := (List.range n).foldl (fun v k => v + b2n (f k) * 2 ^ k) 0

/-! ### Faults and reset -/

/-- SYS_FLT_ACTIVE (R703, Table 15.9). -/
def State.fltActive (s : State) : Nat :=
  let down := fun h => s.chgOf h == .demoted || s.chgOf h == .lost
  bitsOf 9 fun k =>
    match k with
    | 0 => down .k
    | 1 => down .p
    | 2 => s.chg.granted && s.chg.holder == 0
    | 3 => s.trivetLost
    | 4 => s.flag A.COL_STATUS F.COL_STATUS.COL_FAIL
    | 5 => s.flag A.RST_FUSE F.RST_FUSE.FUSE_FAULT
    | 6 => decide (psDoze ≤ s.pstate)
    | 7 => s.flag A.TRV_TWIN F.TRV_TWIN.INDEX_CLASH
    | _ => s.gauge.fault

/-- FAULTn is asserted, low: while a condition or a latch bit is set, and throughout a Level 0 or Level 1 reset with its release
sequence, and SLEEP; not while its driver has no supply or no AON release has come since (R684, R685). Otherwise the open drain
is at high impedance. -/
def State.faultPin (s : State) : Bool :=
  !s.rst.dark && (s.rst.stage != .done || s.fltActive != 0 || s.rd A.SYS_FLT_LATCH != 0)

/-- The reset state of a half as RST_STATUS codes it (Table 16.15). -/
def State.rstState (s : State) (h : Half) : Nat :=
  match (s.hrst h).phase with
  | .running => 0
  | .releasing => 2
  | .held => if (List.range 23).any fun i => bitAt s.rst.latched i && srcReaches i h then 3 else 1

/-- RST_STATUS. -/
def State.rstStatus (s : State) : Nat := s.rstState .p * 2 ^ 10 + s.rstState .k * 2 ^ 8

/-! ### Charge (Tables 2.11 to 2.13) -/

/-- TRV_CHARGE. -/
def State.chargeWord (s : State) : Nat := b2n s.trivetLost * 2 ^ 31 + s.chg.mode.code * 2 ^ 16 + s.chg.holder.toNat

/-- TRV_STATE. -/
def State.stateWord (s : State) : Nat :=
  let k := s.chg.k
  let p := s.chg.p
  b2n p.update * 2 ^ 13 + b2n k.update * 2 ^ 12 + b2n p.probation * 2 ^ 11 + b2n p.resync * 2 ^ 10 + b2n k.probation * 2 ^ 9 +
    b2n k.resync * 2 ^ 8 + p.st.code * 2 ^ 4 + k.st.code

/-- TRV_CAUSE of a half. -/
def HalfChg.causeWord (x : HalfChg) : Nat := x.count * 2 ^ 16 + x.toSt * 2 ^ 12 + x.fromSt * 2 ^ 8 + x.cause

/-! ### Interrupts -/

/-- The port interrupt of port p (R295). -/
def State.portIrq (s : State) (p : Nat) : Bool := (s.rdn (A.MAC_CNT_WRAP p) &&& s.rdn (A.MAC_CNT_WRAP_EN p)) != 0

/-- An unread fault-log entry exists (R682). -/
def State.faultUnread (s : State) : Bool := s.rd A.SYS_FLT_WSEQ != s.rd A.SYS_FLT_RSEQ

/-- An engine of the half is FAULTED. -/
def State.neDown (s : State) (h : Half) : Bool := (List.range 12).any fun i => s.neState (12 * h.n + i) == neFaulted

/-- MIRQ_PEND0 of hart k: its channels that are FULL (Table 13.3). -/
def State.mirqPend0 (s : State) (k : Nat) : Nat := bitsOf 64 fun c => s.mbxFull c && s.mbxReceiver c == 2 + k

/-- MIRQ_PEND1 of hart k (Table 13.4). -/
def State.mirqPend1 (s : State) (k : Nat) : Nat :=
  let h := halfOf (k / 2)
  let level := bitsOf 44 fun b =>
    if 17 ≤ b ∧ b ≤ 28 then s.portIrq (12 * h.n + (b - 17))
    else if 35 ≤ b ∧ b ≤ 42 then (s.hkEngine (8 * h.n + (b - 35))).isNone && s.hkAtThr (8 * h.n + (b - 35))
    else match b with
      | 29 => s.flag A.SYS_BUSERR_INFO F.SYS_BUSERR_INFO.VALID
      | 30 => s.faultUnread
      | 31 => s.flag A.LARDER_STATUS F.LARDER_STATUS.EVT_IRQ
      | 32 => s.flag (A.DRAM_STATUS h.n) F.DRAM_STATUS.ECC_DED || s.flag (A.DRAM_STATUS h.n) F.DRAM_STATUS.MIRROR_DIV
      | 33 => s.trivetLost
      | 43 => s.neDown h
      | _ => false
  level ||| ((s.hart k).latched &&& clr1Mask)

/-- mip.MEIP of hart k (R609). -/
def State.meip (s : State) (k : Nat) : Bool :=
  (s.mirqPend0 k &&& (s.hart k).en0) != 0 || (s.mirqPend1 k &&& (s.hart k).en1) != 0

/-- The HI_PEND, HI_EN and HI_CLR registers of a transport's endpoint. -/
def hiPendOf (t : Nat) : Nat := if t ≤ 1 then A.HI_PEND t else if t ≤ 3 then A.QH_HI_PEND (t - 2) else A.LB_HI_PEND 0
def hiEnOf (t : Nat) : Nat := if t ≤ 1 then A.HI_EN t else if t ≤ 3 then A.QH_HI_EN (t - 2) else A.LB_HI_EN 0

/-- HI_PEND of a transport's endpoint (Table 14.12); bit 17 is latched in the register. -/
def State.hiPend (s : State) (t : Nat) : Nat :=
  let h := (trHalf t).getD .k
  bitsOf 20 fun b =>
    if 2 ≤ b ∧ b ≤ 13 then s.portIrq (12 * h.n + (b - 2))
    else match b with
      | 0 => if t ≤ 1 then s.rdn (A.KCP_DONE t) != 0 else !(s.stream t).rsp.isEmpty
      | 1 => (List.range 64).any fun c => s.mbxFull c && s.mbxReceiver c == 0x40 + t
      | 14 => s.flag A.SYS_BUSERR_INFO F.SYS_BUSERR_INFO.VALID
      | 15 => s.faultUnread
      | 16 => s.flag A.LARDER_STATUS F.LARDER_STATUS.EVT_IRQ
      | 17 => bitAt (s.rdn (hiPendOf t)) 17
      | 18 => s.trivetLost
      | _ => s.neDown h

/-- QSPI_IRQn_K (2), QSPI_IRQn_P (3) or LB_IRQn (4) is low: a source of its endpoint is pending and enabled; otherwise, while its
half is in reset, and on the legacy bus outside 6412 mode it is at high impedance (R676, R784, Table 16.12). -/
def State.irqPin (s : State) (t : Nat) : Bool :=
  (t != 4 || s.mode6412) && s.running ((trHalf t).getD .k) && (s.hiPend t &&& s.rdn (hiEnOf t)) != 0

/-- Vector v of a PCIe endpoint is active: a pending and enabled source names it (R675). -/
def State.vecActive (s : State) (t v : Nat) : Bool :=
  let on := s.hiPend t &&& s.rdn (hiEnOf t)
  (List.range 20).any fun b => bitAt on b && s.fld (A.HI_VEC t b) F.HI_VEC.VEC == v

/-! ### Engines -/

/-- NE_EVT_PEND of engine i (Table 3.18): bit 0 aged, bit p - 1 priority p. -/
def State.evtPend (s : State) (i : Nat) : Nat :=
  let e := s.eng i
  let prio := fun r : RxInput => if r.can then prCan else prFrame
  bitsOf 10 fun b =>
    if b = 0 then e.rx.any (fun r => r.aged) || e.pend.any fun p => p.aged
    else e.rx.any (fun r => prio r == b + 1) || e.pend.any fun p => p.prio == b + 1

/-- DTT_ROW of controller c: the stitch that contains the present raw count (R462, R463). -/
def State.rowWord (s : State) (c : Nat) : Nat :=
  let x := s.can c
  let base := s.rdn (A.DTT_ROW c) / 1024 * 1024
  match x.pattern with
  | none => base + 0x3FF
  | some p =>
    let st := s.dtt c
    if st = dOff ∨ st = dListen ∨ st = dCold then base + 0x3FF
    else match x.place p s.raw with
      | .stitch n => base + n
      | _ => base + 0x3FF

/-! ### The view of a register -/

/-- What a read of a register with descriptor `d` returns, for master m; side effects are those of `State.regRead`. -/
def State.viewSys (s : State) (b : Nat) (i : List Nat) (w : Nat) : Nat :=
  if b = A.SYS_FLT_ACTIVE then s.fltActive
  else if b = A.RST_STATUS then s.rstStatus
  else if b = A.RST_ACTIVE then s.rst.asserted ||| s.rst.latched
  else if b = A.RST_MAP 0 then s.rstMapWord (ix i 0)
  else if b = A.RST_PAD_GRP 0 then s.padGrp (ix i 0)
  else if b = A.RST_PAD_HOOK_LO 0 0 then s.padHookLo (ix i 0) (ix i 1)
  else if b = A.RST_PAD_HOOK_HI 0 0 then s.padHookHi (ix i 0) (ix i 1)
  else if b = A.TRV_CHARGE then s.chargeWord
  else if b = A.TRV_STATE then s.stateWord
  else if b = A.TRV_CAUSE 0 then (s.chg.half (halfOf (ix i 0))).causeWord
  else w

/-- Registers of the Gauge, the WAKE block and the SEC region. -/
def State.viewShared (s : State) (m b : Nat) (i : List Nat) (w : Nat) : Nat :=
  let d := ix i 0
  let l := storeGet DomLatch.init s.gauge.latches (latchKey m d)
  let c := s.conv m d
  if b = A.GAUGE_RAW_HI then storeGet 0 s.gauge.rawHi m
  else if b = A.GAUGE_DOM_SEC_LO 0 then l.sec % 2 ^ 32
  else if b = A.GAUGE_DOM_SEC_HI 0 then l.sec / 2 ^ 32
  else if b = A.GAUGE_DOM_FRAC 0 then l.frac
  else if b = A.GAUGE_DOM_LRAW_LO 0 then l.raw % 2 ^ 32
  else if b = A.GAUGE_DOM_LRAW_HI 0 then l.raw / 2 ^ 32
  else if b = A.GAUGE_DOM_CONV_RAW_LO 0 then c.rawLo
  else if b = A.GAUGE_DOM_CONV_RAW_HI 0 then c.rawHi
  else if b = A.GAUGE_DOM_CONV_NS 0 then c.ns
  else if b = A.GAUGE_DOM_CONV_SEC_LO 0 then c.sec % 2 ^ 32
  else if b = A.GAUGE_DOM_CONV_SEC_HI 0 then c.sec / 2 ^ 32
  else if b = A.GAUGE_DOM_CONV_FRAC 0 then b2n c.err * 2 ^ 31 + c.frac
  else if b = A.WAKE_SEG_BO_LO 0 then s.segB d % 2 ^ 32
  else if b = A.WAKE_SEG_BO_HI 0 then rawMod (s.segB d) / 2 ^ 32
  else if b = A.SEC_RB 0 then s.rollback d
  else if b = A.SEC_KEYS then bitsOf 16 s.slotProg + 2 ^ 16 * bitsOf 16 s.slotRevoked
  else if b = A.SEC_TAMPER then w % 8 + b2n (!s.asserted 20) * 2 ^ 8
  else if b = A.SEC_DEBUG then w % 4 + b2n (bitAt ((s.fuse 67).getD 0) 0) * 4
  else w

/-- Registers of a half's block. -/
def State.viewBlock (s : State) (b : Nat) (i : List Nat) (w : Nat) : Nat :=
  let h := halfOf (ix i 0)
  if b = A.TL_CTRL 0 then
    if s.simmerLocked (ux 4 i) then (fput F.TL_CTRL.AMPL_24 (fput F.TL_CTRL.SIMMER (BitVec.ofNat 32 w) 1) 0).toNat else w
  else if b = A.TL_STATUS 0 then
    let lock := s.simmerLocked (ux 4 i)
    let v := fput F.TL_STATUS.SIMMER_LOCK (BitVec.ofNat 32 w) (b2n lock)
    (if lock then fput F.TL_STATUS.SIMMER_ACT v 1 else v).toNat
  else if b = A.SW_STATUS 0 then b2n (decide (4096 < s.minSum h))
  else if b = A.SW_DUP_STATUS 0 then (s.plane h).dupStatus
  else if b = A.DTT_ROW 0 then s.rowWord (ux 4 i)
  else if b = A.HK_STATUS 0 then (fput F.HK_STATUS.BOUND (BitVec.ofNat 32 w) (b2n (s.hkEngine (ux 8 i)).isSome)).toNat
  else if b = A.HOOK_PIN_CFG 0 0 then
    if fget F.HOOK_PIN_CFG.CFGD (BitVec.ofNat 32 w) = 1 then w
    else (fput F.HOOK_PIN_CFG.PULL (BitVec.ofNat 32 w) (s.hookReset h.n (ix i 1))).toNat
  else if b = A.HOOK_PIN_OUT 0 then s.pinOutWord h
  else if b = A.HOOK_PIN_OE 0 then s.pinOeWord h
  else if b = A.NE_STATUS 0 then (fput F.NE_STATUS.STATE (BitVec.ofNat 32 w) (s.neState (ux 12 i))).toNat
  else if b = A.NE_EVT_MASK 0 then w + s.evtPend (ux 12 i) % 2
  else if b = A.NE_EVT_PEND 0 then s.evtPend (ux 12 i)
  else if b = A.BANK_OWNER 0 0 then (if s.mode6412 then w else 0)
  else if b = A.KCP_DB 0 then 0
  else if b = A.HI_PEND 0 then s.hiPend h.n
  else if b = A.QH_HI_PEND 0 then s.hiPend (2 + h.n)
  else if b = A.LB_HI_PEND 0 then s.hiPend 4
  else w

/-- The value a read of a register by master m returns. -/
def State.regView (s : State) (m a : Nat) : Nat :=
  match regDesc? a with
  | none => 0
  | some d =>
    let i := regIdx d a
    let w := s.rdn a
    match regionOf a with
    | .block _ => s.viewBlock d.base i w
    | _ => if a < 0x33000000 then s.viewSys d.base i w else s.viewShared m d.base i w

/-- A master may read the message words of a channel (Table 12.4), or the submission port of a hart (R690). -/
def State.readDenied (s : State) (m b : Nat) (i : List Nat) : Bool :=
  if b = A.MBX_MSG 0 0 then
    !(s.mbxBound (ix i 0) && (m == s.mbxSender (ix i 0) || m == s.mbxReceiver (ix i 0) || m == trivet))
  else if b = A.MBX_DB 0 then !s.mbxBound (ix i 0)
  else if b = A.COL_SUB_CTRL 0 ∨ b = A.COL_SUB_RP_LO 0 ∨ b = A.COL_SUB_RP_HI 0 ∨ b = A.COL_SUB_STAT 0 ∨
      b = A.COL_SUB_DATA 0 0 then m != 2 + ix i 0
  else false

/-- A 32-bit read of a register (R9, R35, R415, R555, R595). -/
def State.regRead (s : State) (m a : Nat) : State :=
  if !s.presented m a then s
  else match s.regErr m a 4 false with
  | some c => s.busErr m a false c
  | none =>
    match regDesc? a with
    | none => s.busErr m a false cUnmapped
    | some d =>
      let i := regIdx d a
      if s.readDenied m d.base i then s.busErr m a false cPerm
      else if d.base = A.GAUGE_RAW_LO then s.rawRead m
      else if d.base = A.GAUGE_DOM_NS 0 then s.domRead m (ix i 0)
      else if d.base = A.HK_RXF 0 then s.hkRxfRead m (ux 8 i)
      else if d.base = A.MBX_LOCK 0 then s.lockReads (ix i 0) [m]
      else s.ok (s.regView m a)

end Sys2Proof.Machine
end

