-- ==== Sys2Proof/Machine/RegAccess.lean ====
section
/-! DEFINITION. What a write of any register does: the effect its unit gives it, or that of its fields' access types with
the values that its table stores instead (spec/00 R8 to R16, R810, R811, and the register tables of every chapter); and an
access to any address of the map (spec/01, Tables 1.7 and 1.8). -/

namespace Sys2Proof.Machine
open Sys2Proof

/-- A register without an effect of its own takes a write by its fields' access types. -/
def State.fieldsWrite (s : State) (m a : Nat) (v : Word) : State := s.guardReg m a fun s => s.plainWrite a v

/-- A register whose field f is stored within lo to hi. -/
def State.clampWrite (s : State) (m a : Nat) (v : Word) (f : Fld) (lo hi : Nat) : State :=
  s.guardReg m a fun s =>
    let s := s.plainWrite a v
    s.setf a f (max lo (min hi (s.fld a f)))

/-- A register that only the Trivet may write, whatever its fields' access types (R810). -/
def State.trivetWrite (s : State) (m a : Nat) (v : Word) : State :=
  s.guardReg m a fun s => if m = trivet then s.plainWrite a v else s.busErr m a true cTrv

/-! ### Registers whose write has an effect that no other row names -/

/-- COL_CTRL: while the lifecycle state is SERVICE, EN stays 0 (R757). -/
def State.colCtrlGuard (s : State) (m : Nat) (v : Word) : State :=
  s.colCtrlWrite m (if s.lc = 3 then fput F.COL_CTRL.EN v 0 else v)

/-- A register of the submission port of hart h is written by that hart alone (R690). -/
def State.colPortWrite (s : State) (m h a : Nat) (v : Word) : State :=
  s.guardReg m a fun s => if m = 2 + h then s.plainWrite a v else s.busErr m a true cPerm

/-- SWP_CFG: a PVID of 0 or 4095 is stored as 1. -/
def State.swpCfgWrite (s : State) (m a : Nat) (v : Word) : State :=
  s.guardReg m a fun s =>
    let s := s.plainWrite a v
    let p := s.fld a F.SWP_CFG.PVID
    if p = 0 ∨ p = 4095 then s.setf a F.SWP_CFG.PVID 1 else s

/-- A word of an address or acceptance filter, of the forwarding table or of a permission window, or a register of a compare
unit: what happens in the same clock meets the value before (R275, R353, R432, R452, R573). -/
def State.tableWrite (s : State) (m a : Nat) (v : Word) : State :=
  s.guardReg m a fun s => (s.noteBefore m a).plainWrite a v

/-- A gate entry of a port: the operational bank takes no write (R383). -/
def State.gateEntryWrite (s : State) (m a : Nat) (i : List Nat) (v : Word) : State :=
  s.guardReg m a fun s =>
    if ix i 2 = s.fld (A.SWG_CTRL (ix i 0) (ix i 1)) F.SWG_CTRL.OPER then s.busErr m a true cPerm else s.plainWrite a v

/-- GAUGE_CMP_CTRL: disabling the unit of a pending planned handover cancels it (R813). Where TEN_IA_CTRL.TRIG has been rewritten
since, the spec does not say which unit that is; the model takes the one TRIG names now (DESIGN CHOICE, log entry 49). -/
def State.cmpCtrlWrite (s : State) (m k : Nat) (v : Word) : State :=
  let a := A.GAUGE_CMP_CTRL k
  s.guardReg m a fun s =>
    let s := (s.noteBefore m a).plainWrite a v
    if !s.flag a F.GAUGE_CMP_CTRL.EN ∧ s.fld A.TEN_IA_CTRL F.TEN_IA_CTRL.TRIG = k ∧
        s.rd64 A.TRV_HANDOVER_LO A.TRV_HANDOVER_HI ≠ 0 then s.cancelHandover else s

/-- GAUGE_PPS_CTRL: a width of 0 is stored as 1; while EN is 0 the output is low (R433). -/
def State.ppsCtrlWrite (s : State) (m j : Nat) (v : Word) : State :=
  let a := A.GAUGE_PPS_CTRL j
  s.guardReg m a fun s =>
    let s := s.plainWrite a v
    let s := s.setf a F.GAUGE_PPS_CTRL.WIDTH_US (max 1 (s.fld a F.GAUGE_PPS_CTRL.WIDTH_US))
    if s.flag a F.GAUGE_PPS_CTRL.EN then s
    else if j = 0 then { s with gauge := { s.gauge with pps0 := none } } else { s with gauge := { s.gauge with pps1 := none } }

/-- GAUGE_TSC_CTRL: ONESTEP exists on SerDes ports only (spec/08, GAUGE_TSC_CTRL). -/
def State.tscCtrlWrite (s : State) (m n : Nat) (v : Word) : State :=
  let a := A.GAUGE_TSC_CTRL n
  s.guardReg m a fun s => (s.tscChange n).plainWrite a (if n % 9 < 4 then v else fput F.GAUGE_TSC_CTRL.ONESTEP v 0)

/-- GAUGE_TSC_ADJ: the frame that the port is in keeps the corrections it began with (R436). -/
def State.tscAdjWrite (s : State) (m n : Nat) (v : Word) : State :=
  let a := A.GAUGE_TSC_ADJ n
  s.guardReg m a fun s => (s.tscChange n).plainWrite a v

/-- HI_CLR clears bit 17 of HI_PEND; `raised` is a charge-state change in the same clock (R674). -/
def State.hiClrWrite (s : State) (m t : Nat) (v : Word) (raised : Bool) : State :=
  let a := if t ≤ 1 then A.HI_CLR t else if t ≤ 3 then A.QH_HI_CLR (t - 2) else A.LB_HI_CLR 0
  s.guardReg m a fun s => if bitAt v.toNat 17 && !raised then s.wr (hiPendOf t) 0 else s

/-- QH_CFG, whose fields are judged one by one (R810): EN by the Trivet, with the transport up or down; DUMMY by any
master, stored as at least 8. -/
def State.qhCfgWrite (s : State) (m : Nat) (h : Half) (v : Word) : State :=
  let a := A.QH_CFG h.n
  match s.regErr m a 4 true with
  | some c => s.busErr m a true c
  | none =>
    let was := s.flag a F.QH_CFG.EN
    let en := fget F.QH_CFG.EN v == 1
    let s := (s.ok 0).setf a F.QH_CFG.DUMMY (max 8 (fget F.QH_CFG.DUMMY v))
    if m ≠ trivet then (if en = was then s else s.busErr m a true cTrv)
    else
      let s := s.setb a F.QH_CFG.EN en
      if en ∧ !was then s.transportUp (2 + h.n) else if !en ∧ was then s.transportDown (2 + h.n) else s

/-- KCP_DB (R659, R660): a bit posts its slot, whose descriptor is read at once, or is ignored and counted while the ring is off or the slot is not free. -/
def State.kcpDbWrite (s : State) (m h : Nat) (v : Word) : State :=
  let a := A.KCP_DB h
  s.guardReg m a fun s =>
    (List.range 32).foldl (fun s k =>
      if bitAt v.toNat k then
        let used := bitAt (s.rdn (A.KCP_BUSY h)) k || bitAt (s.rdn (A.KCP_DONE h)) k
        if !s.flag (A.KCP_RING_CTRL h) F.KCP_RING_CTRL.EN || used then s.inc (A.KCP_DB_IGNORED h)
        else
          let s := { s with kcp := { s.kcp with desc := storePut RingDesc.init s.kcp.desc (64 + 32 * h + k) (s.ringDesc h k) } }
          s.wrn (A.KCP_BUSY h) (s.rdn (A.KCP_BUSY h) ||| 2 ^ k)
      else s) s

/-! ### The write of a register, by block -/

/-- SYS, RST, CLK and PWR, TRV, TEN, COL. -/
def State.writeSys (s : State) (m a b : Nat) (i : List Nat) (v : Word) : State :=
  if b = A.SYS_MODE then s.mode6412Write m v
  else if b = A.SYS_BUSERR_INFO then s.guardReg m a fun s => if fget F.SYS_BUSERR_INFO.VALID v = 1 then s.busErrClear else s
  else if b = A.SYS_BUSERR_CNT then s.guardReg m a fun s => s.busErrCount v.toNat
  else if b = A.RST_RELEASE then s.rstReleaseWrite m v
  else if b = A.PWR_TEMP then s.pwrTempWrite m v
  else if b = A.TRV_CFG then s.clampWrite m a v F.TRV_CFG.COL_WAIT 8 20
  else if b = A.TEN_APP 0 then s.tenAppWrite m (halfOf (ix i 0)) v
  else if b = A.TEN_IA_CTRL then s.iaCtrlWrite m v
  else if b = A.COL_CTRL then s.colCtrlGuard m v
  else if b = A.COL_STREAM 0 0 then s.colStreamWrite m (ix i 0) (ix i 1) v
  else if b = A.COL_SUB_CTRL 0 then s.colSubWrite m (ix i 0) v
  else if b = A.COL_SUB_RP_LO 0 ∨ b = A.COL_SUB_RP_HI 0 ∨ b = A.COL_SUB_STAT 0 ∨ b = A.COL_SUB_DATA 0 0 then
    s.colPortWrite m (ix i 0) a v
  else s.fieldsWrite m a v

/-- MACs, physical layers, switch planes. -/
def State.writePort (s : State) (m a b : Nat) (i : List Nat) (v : Word) : State :=
  let h := halfOf (ix i 0)
  if b = A.MAC_CTRL 0 then s.macCtrlWrite m (ux 12 i) v
  else if b = A.MAC_PER_CTRL 0 then s.perCtrlWrite m (ux 12 i) v
  else if (A.MAC_UC_LO 0 0 ≤ b ∧ b ≤ A.MAC_MC_HI 0 0) ∨ b = A.SW_FWD 0 0 0 then s.tableWrite m a v
  else if b = A.RG_CTRL 0 then s.rgCtrlWrite m h v
  else if b = A.TL_CTRL 0 then s.tlCtrlWrite m (ux 4 i) v
  else if b = A.SD_CTRL 0 then s.sdCtrlWrite m (ux 4 i) v
  else if b = A.SW_BUF_FREE 0 then s.bufLowWrite m h v
  else if b = A.SW_TWIN 0 then s.clampWrite m a v F.SW_TWIN.WIN_US 0 500
  else if b = A.SW_DUP_AGE 0 then s.clampWrite m a v F.SW_DUP_AGE.AGE 1 65535
  else if b = A.SWP_CFG 0 0 then s.swpCfgWrite m a v
  else if b = A.SW_SIEVE_PT 0 0 0 then s.clampWrite m a v F.SW_SIEVE_PT.PROB 0 256
  else if b = A.SWG_CTRL 0 0 then s.gateCtrlWrite m h (ix i 1) v
  else if b = A.SWG_GATES 0 0 0 0 ∨ b = A.SWG_INTERVAL 0 0 0 0 then s.gateEntryWrite m a i v
  else s.fieldsWrite m a v

/-- CX controllers and Hook engines. -/
def State.writeCxHk (s : State) (m a b : Nat) (i : List Nat) (v : Word) : State :=
  let c := ux 4 i
  let e := ux 8 i
  if b = A.CX_CTRL 0 then s.cxCtrlWrite m c v
  else if b = A.CX_NBT 0 ∨ b = A.CX_DBT 0 ∨ b = A.CX_XBT 0 ∨ b = A.CX_TDC 0 ∨ b = A.CX_PWM 0 then s.cxTimingWrite m c a v
  else if b = A.CX_FILT_ID 0 0 ∨ b = A.CX_FILT_MASK 0 0 then s.tableWrite m a v
  else if b = A.DTT_CTRL 0 then s.dttCtrlWrite m c v
  else if b = A.DTT_ROLE 0 ∨ b = A.DTT_LIMITS 0 ∨ b = A.DTT_SYNC_OFS 0 ∨ b = A.DTT_COL_MAP 0 0 then s.dttOffWrite m c a v
  else if b = A.HK_CTRL 0 then s.hkCtrlWrite m e v
  else if b = A.HK_CLKDIV 0 ∨ b = A.HK_WAITTO 0 ∨ b = A.HK_PC 0 ∨ b = A.HK_LC 0 then s.hkStoppedWrite m e a v
  else if b = A.HK_PINS 0 then s.hkPinsWrite m e v
  else if b = A.HK_PROG 0 0 then s.hkProgWrite m e (ix i 2) v
  else if b = A.HK_TXF 0 then s.hkTxfWrite m e v
  else if b = A.HOOK_PIN_CFG 0 0 then s.hookPinWrite m (halfOf (ix i 0)) (ix i 1) v
  else s.fieldsWrite m a v

/-- Needle engines, scratchpad control, DRAM ports, host interfaces. -/
def State.writeUnit (s : State) (m a b : Nat) (i : List Nat) (v : Word) : State :=
  let n := ux 12 i
  let h := halfOf (ix i 0)
  if b = A.NE_CTRL 0 then s.neCtrlWrite m n v
  else if b = A.NE_DOORBELL 0 then s.neBellWrite m n v
  else if b = A.NE_BIND 0 then s.neBindWrite m n v
  else if b = A.NE_INL_CTRL 0 then s.neInlWrite m n v
  else if b = A.NE_INL_LAT 0 then s.neLatWrite m n v
  else if b = A.NE_LIMITS 0 then s.neLimitsWrite m n v
  else if b = A.NE_EVT_MASK 0 then s.neMaskWrite m n v
  else if A.SPAD_WIN_BASE 0 0 ≤ b ∧ b ≤ A.SPAD_WIN_NE 0 0 then s.tableWrite m a v
  else if b = A.BANK_OWNER 0 0 then s.bankOwnerWrite m (ix i 1) (fget F.BANK_OWNER.OWNER v)
  else if b = A.DRAM_CTRL 0 then s.dramCtrlWrite m h v
  else if b = A.DRAM_CFG 0 then s.dramCfgWrite m h v
  else if b = A.DRAM_MIRROR 0 then s.dramMirrorWrite m h v
  else if b = A.DRAM_PATROL 0 then s.clampWrite m a v F.DRAM_PATROL.HOURS 1 255
  else if b = A.KCP_DB 0 then s.kcpDbWrite m h.n v
  else if b = A.HI_CLR 0 then s.hiClrWrite m h.n v false
  else if b = A.QH_HI_CLR 0 then s.hiClrWrite m (2 + h.n) v false
  else if b = A.LB_HI_CLR 0 then s.hiClrWrite m 4 v false
  else if b = A.QH_CFG 0 then s.qhCfgWrite m h v
  else s.fieldsWrite m a v

/-- GAUGE and MBX. -/
def State.writeGauge (s : State) (m a b : Nat) (i : List Nat) (v : Word) : State :=
  let d := ix i 0
  if b = A.GAUGE_REF then s.gaugeRefWrite m v
  else if b = A.GAUGE_DOM_CFG 0 then s.domCfgWrite m d v
  else if A.GAUGE_DOM_STG_AT_LO 0 ≤ b ∧ b ≤ A.GAUGE_DOM_STG_FRAC 0 then s.stageWrite m d a v
  else if b = A.GAUGE_DOM_CTRL 0 then s.domCtrlWrite m d v
  else if b = A.GAUGE_DOM_CONV_RAW_LO 0 then s.convLo m d v
  else if b = A.GAUGE_DOM_CONV_RAW_HI 0 then s.convHi m d v
  else if b = A.GAUGE_CMP_CTRL 0 then s.cmpCtrlWrite m d v
  else if A.GAUGE_CMP_NEXT_LO 0 ≤ b ∧ b ≤ A.GAUGE_CMP_PERIOD 0 then s.tableWrite m a v
  else if b = A.GAUGE_PPS_CTRL 0 then s.ppsCtrlWrite m d v
  else if b = A.GAUGE_TSC_CTRL 0 then s.tscCtrlWrite m d v
  else if b = A.GAUGE_TSC_ADJ 0 then s.tscAdjWrite m d v
  else if b = A.MBX_MSG 0 0 then s.mbxMsgWrite m d (ix i 1) v
  else if b = A.MBX_DB 0 then s.mbxDbWrite m d v
  else if b = A.MBX_STATUS 0 then s.mbxStatusWrite m d v
  else if b = A.MBX_BIND 0 then s.mbxBindWrite m d v
  else if b = A.MBX_BIND_LOCK then s.mbxBindLockWrite m v
  else if b = A.MBX_LOCK 0 then s.lockWrite m d
  else s.fieldsWrite m a v

/-- WAKE, SEC and LARDER. -/
def State.writeAon (s : State) (m a b : Nat) (i : List Nat) (v : Word) : State :=
  if b = A.WAKE_PCTRL then s.pctrlWrite m v
  else if b = A.WAKE_KA then s.clampWrite m a v ⟨15, 0⟩ 10 65535
  else if b = A.WAKE_NODATA_T ∨ b = A.WAKE_VALID_T ∨ b = A.WAKE_INSOMNIA_T then s.clampWrite m a v ⟨15, 0⟩ 1 65535
  else if b = A.WAKE_PIN_CFG then s.clampWrite m a v F.WAKE_PIN_CFG.FILT_US 1 255
  else if b = A.WAKE_FALSE_CLR then s.falseClrWrite m v
  else if b = A.WAKE_INS_CLR then s.insClrWrite m v
  else if b = A.WAKE_SEG_CTRL 0 then s.segCtrlWrite m (ix i 0) v
  else if b = A.WAKE_SEG_MEMB 0 then s.segMembWrite m (ix i 0) v
  else if b = A.LARDER_CTRL then s.larderCtrlWrite m v
  else if a / 0x10000 = 0x3303 then s.trivetWrite m a v
  else s.fieldsWrite m a v

/-- A 32-bit write of a register by a master. -/
def State.regWrite (s : State) (m a : Nat) (v : Word) : State :=
  match regDesc? a with
  | none => s.fieldsWrite m a v
  | some d =>
    let i := regIdx d a
    let b := d.base
    let page := a / 0x10000 % 0x100
    match regionOf a with
    | .block _ =>
      if page ≤ 5 then s.writePort m a b i v
      else if page ≤ 7 then s.writeCxHk m a b i v
      else s.writeUnit m a b i v
    | _ =>
      if a < 0x33000000 then s.writeSys m a b i v
      else if page ≤ 1 then s.writeGauge m a b i v
      else s.writeAon m a b i v

/-! ### What hardware does in the same clock (R15, R16, R297) -/

/-- A register after a write, with the W1C bits that hardware sets in the same clock (R15). A W1S bit that the write sets stays
set when hardware clears it in the same clock (R16), so the write needs nothing more. -/
def State.sameClock (s : State) (a hw : Nat) : State :=
  if hw = 0 then s
  else match regDesc? a with
  | none => s
  | some d =>
    s.wr a (d.fields.foldl (fun w f =>
      let p : Fld := ⟨f.hi, f.lo⟩
      if f.acc = .w1c then fput p w (fget p w ||| fget p (BitVec.ofNat 32 hw)) else w) (s.rd a))

/-- A read of a register; a read of a MAC counter returns the value before the `hw` increments of the same clock (R297). -/
def State.readBefore (s : State) (m a hw : Nat) : State :=
  let s := s.regRead m a
  let counter := match regDesc? a with
    | some d => d.base == A.MAC_CNT 0 0
    | none => false
  match s.resp with
  | some (.ok v) => if counter && hw != 0 then s.ok ((v + 2 ^ 32 - hw % 2 ^ 32) % 2 ^ 32) else s
  | _ => s

/-! ### An access to any address -/

/-- A read of a boot ROM: a hart's goes through its caches (Table 13.2, R608). The spec does not say which widths and
alignments the region takes; the model reads any (DESIGN CHOICE, log entry 49). -/
def State.romRead (s : State) (m a n : Nat) (e : BusEnv) : State :=
  let (s, bad) := if isHart m then s.cacheErr m a e.cache else (s, false)
  if bad then { s with resp := some .accessFault }
  else s.ok (leNat ((List.range n).map fun k => Config.rom (romHalf m).n (a + k)))

/-- A register access: a read leaves out, and a write leaves standing, what hardware does to the register in the same clock
(R15, R16, R297). -/
def State.regBus (s : State) (m a : Nat) (write : Bool) (data : List Byte) (e : BusEnv) : State :=
  if write then (s.regWrite m a (BitVec.ofNat 32 (leNat data))).sameClock a e.hw else s.readBefore m a e.hw

/-- The answer of an access in `resp`, as master m receives it (Table 12.2). -/
def State.hartReceive (s : State) (m a : Nat) : State :=
  match s.resp with
  | some r => s.delivered m a r
  | none => s

/-- An access of master m to `n` bytes at `a`, or of `data` to `a`, as its target performs or refuses it; its answer stands in
`resp`, and an exception of a hart in its CSRs (R36, R566). Banks that are being zeroed make it wait, and it is answered later. -/
def State.busAccess (s : State) (m a n : Nat) (write : Bool) (data : List Byte) (e : BusEnv) : State :=
  let n := if write then data.length else n
  if !s.presented m a then { s with resp := none }
  else match regionOf a with
  | .rom =>
    if 0x20000 < a + n then s.busErr m a write cUnmapped
    else match romErr m write with
      | some c => s.busErr m a write c
      | none => s.romRead m a n e
  | .bank _ =>
    let o : SpadOp := ⟨m, a, n, write, data, e.eccLo, e.eccHi⟩
    if s.zeroingAt a then { s with spadWait := s.spadWait ++ [SpadReq.access o], resp := none }
    else
      let (s, r) := s.spadPort o fun _ => e.lost
      { s with resp := some r }
  | .vault => s.vaultAccess m a n write data
  | .needle _ => (s.needleAccess m a n write data e).hartReceive m a
  | .dk => (s.dramBus m a n write data e).hartReceive m a
  | .dp => (s.dramBus m a n write data e).hartReceive m a
  | .unmapped => s.busErr m a write cUnmapped
  | _ =>
    match s.regErr m a n write with
    | some c => s.busErr m a write c
    | none => s.regBus m a write data e

/-! ### CSRs of the harts (Tables 13.1 and 13.3) -/

/-- The CSRs of the privileged architecture that hold what a hart last wrote to them: trap vectors, scratch, exception and
translation registers of M and S mode (PRESUMED from the RISC-V specifications, log entry 50). -/
def csrKept : List Nat := [0x105, 0x140, 0x141, 0x142, 0x143, 0x180, 0x305, 0x340, 0x341, 0x342, 0x343]

/-- The CSRs whose value follows from the program that the hart runs, by the rules of the RISC-V specifications: floating
point, status, delegation, enables and counter control, cycle and instruction counts, and mhpmcounter3 to 6. -/
def csrProgram (num : Nat) : Bool :=
  [0x001, 0x002, 0x003, 0x100, 0x104, 0x106, 0x144, 0x300, 0x302, 0x303, 0x304, 0x306, 0x320, 0xB00, 0xB02, 0xC00, 0xC02].contains num ||
  (0x323 ≤ num && num ≤ 0x33F) || (0xB03 ≤ num && num ≤ 0xB06) || (0xC03 ≤ num && num ≤ 0xC06)

/-- The configuration byte of PMP entry i of a hart. -/
def Hart.pmpCfg (x : Hart) (i : Nat) : Nat := storeGet 0 x.csrs (0x3A0 + 2 * (i / 8)) / 2 ^ (8 * (i % 8)) % 256

/-- A PMP entry is locked. -/
def Hart.pmpLocked (x : Hart) (i : Nat) : Bool := bitAt (x.pmpCfg i) 7

/-- A PMP configuration byte as it is stored over `old`: reserved bits 0; a locked entry, NA4 (which a granularity of 4 KiB does
not offer) and W without R leave it as it was (Table 13.1). -/
def pmpByte (old v : Nat) : Nat :=
  if bitAt old 7 ∨ v / 8 % 4 = 2 ∨ (bitAt v 1 ∧ !bitAt v 0) then old else v % 32 + v / 128 * 128

/-- An address register of the PMP is locked with its entry, or with the next one in TOR mode. -/
def Hart.pmpAddrLocked (x : Hart) (i : Nat) : Bool :=
  x.pmpLocked i || (i < 15 && x.pmpLocked (i + 1) && x.pmpCfg (i + 1) / 8 % 4 == 1)

/-- What pmpaddr i reads: in NAPOT mode its low 9 bits are 1, else its low 10 bits are 0 (granularity 4 KiB). -/
def Hart.pmpAddr (x : Hart) (i : Nat) : Nat :=
  let v := storeGet 0 x.csrs (0x3B0 + i)
  if 16 ≤ x.pmpCfg i % 32 then v / 512 * 512 + 511 else v / 1024 * 1024

/-- A read of a standard CSR (Table 13.1): the identification registers, the raw count as `time`, the pending interrupts, the
PMP; counters 7 to 31 read 0; a CSR that the hart has not is an illegal instruction. -/
def State.csrStdRead (s : State) (k num : Nat) : State :=
  let x := s.hart k
  if num = 0x301 then s.ok 0x800000000014112D
  else if num = 0xF11 ∨ num = 0xF12 then s.ok 0
  else if num = 0xF13 then s.ok 0x96240A01
  else if num = 0xF14 then s.ok k
  else if num = 0xC01 then s.ok s.raw
  else if num = 0x344 then s.ok (b2n x.mtip * 2 ^ 7 + b2n (s.meip k) * 2 ^ 11)
  else if (0xB07 ≤ num ∧ num ≤ 0xB1F) ∨ (0xC07 ≤ num ∧ num ≤ 0xC1F) then s.ok 0
  else if num = 0x3A0 ∨ num = 0x3A2 ∨ csrKept.contains num then s.ok (storeGet 0 x.csrs num)
  else if 0x3B0 ≤ num ∧ num ≤ 0x3BF then s.ok (x.pmpAddr (num - 0x3B0))
  else if csrProgram num then s.useFree.ok (Config.hartCount s.free num % 2 ^ 64)
  else { s.hartExc k 2 0 with resp := some .accessFault }

/-- A write of a standard CSR: PMP entries unless they are locked; Sv39 or no translation in `satp`; the registers that keep
what is written. `misa` is read-only; a write of an identification register, of `time`, or of a CSR that the hart has not is
an illegal instruction. -/
def State.csrStdWrite (s : State) (k num v : Nat) : State :=
  let put := fun (v : Nat) => s.mapHart k fun x => { x with csrs := storePut 0 x.csrs num v }
  if num = 0x3A0 ∨ num = 0x3A2 then
    let x := s.hart k
    put (leNat ((List.range 8).map fun j =>
      BitVec.ofNat 8 (pmpByte (x.pmpCfg ((num - 0x3A0) * 4 + j)) (v / 2 ^ (8 * j) % 256))))
  else if 0x3B0 ≤ num ∧ num ≤ 0x3BF then (if (s.hart k).pmpAddrLocked (num - 0x3B0) then s else put (v % 2 ^ 38))
  else if num = 0x180 then (if v / 2 ^ 60 = 0 ∨ v / 2 ^ 60 = 8 then put v else s)
  else if csrKept.contains num then put v
  else if num = 0x301 ∨ num = 0x344 ∨ csrProgram num ∨ (0xB07 ≤ num ∧ num ≤ 0xB1F) then s
  else { s.hartExc k 2 0 with resp := some .accessFault }

/-- JTAG reaches the Trivet's RAM in BLANK alone (Table 17.1); the RAM stands in memory beyond the 40-bit address space. -/
def State.trvRamAccess (s : State) (off n : Nat) (data : List Byte) : State :=
  if s.lc ≠ 0 ∨ 0x20000 < off + n ∨ 0x20000 < off + data.length then { s with resp := none }
  else if data.isEmpty then s.ok (s.mrd (trvRamBase + off) n) else (s.putbs (trvRamBase + off) data).ok 0

/-- A read of a CSR by a hart in M mode: a custom CSR, or a standard one. -/
def State.csrRead (s : State) (k num : Nat) : State :=
  let x := s.hart k
  if num = 0x7C0 then s.ok x.mtimecmp
  else if num = 0x7C1 then s.ok x.en0
  else if num = 0x7C2 then s.ok (s.mirqPend0 k)
  else if num = 0x7C3 then s.ok x.en1
  else if num = 0x7C4 then s.ok (s.mirqPend1 k)
  else if num = 0x7C5 then s.ok 0
  else s.csrStdRead k num

/-- A write of a CSR by a hart in M mode. -/
def State.csrWrite (s : State) (k num v : Nat) : State :=
  if num = 0x7C0 then (s.mapHart k fun x => { x with mtimecmp := v }).timerFollow k
  else if num = 0x7C1 then s.mapHart k fun x => { x with en0 := v }
  else if num = 0x7C3 then s.mapHart k fun x => { x with en1 := v }
  else if num = 0x7C5 then s.clr1Write k v 0
  else if num = 0x7C2 ∨ num = 0x7C4 then s
  else s.csrStdWrite k num v

/-- REGISTER_WRITE (R10): an access that has no row of its own. -/
def execRegisterWrite (o : RegOp) (s : State) : Host.Outcome State Fault Refusal :=
  match o with
  | .read m a n e => .next (s.busAccess m.toNat a.toNat n false [] e)
  | .write m a data e => .next (s.busAccess m.toNat a.toNat data.length true data e)
  | .csrRead k num => if s.hartRuns k then .next (s.csrRead k num.toNat) else .next s
  | .csrWrite k num v => if s.hartRuns k then .next (s.csrWrite k num.toNat v.toNat) else .next s
  | .trvRam off n data => .next (s.trvRamAccess off n data)

end Sys2Proof.Machine
end

