-- ==== Sys2Proof/Machine/NeedleDma.lean ====
section
/-! DEFINITION. Runs of accesses at ascending addresses, and the DMA transfers of the Needle engines (spec/03, R167; spec/04,
R230 to R232; spec/08, R418). -/

namespace Sys2Proof.Machine
open Sys2Proof

/-! ### Runs of accesses -/

/-- The lengths of the naturally aligned accesses that cover `n` bytes from `a`, each of at most `top` bytes. -/
def chunkLens (top : Nat) : Nat → Nat → Nat → List Nat
  | 0, _, _ => []
  | fuel + 1, a, n =>
    if n = 0 then []
    else
      let k := if top = 8 ∧ a % 8 = 0 ∧ 8 ≤ n then 8 else if 4 ≤ top ∧ a % 4 = 0 ∧ 4 ≤ n then 4 else if a % 2 = 0 ∧ 2 ≤ n then 2 else 1
      k :: chunkLens top fuel (a + k) (n - k)

/-- An address lies in a register region, which takes 32-bit accesses only (R9, R418). -/
def inRegs (a : Nat) : Bool :=
  match regionOf a with
  | .block _ => true
  | .shared => true
  | _ => false

/-- The accesses that cover `n` bytes from `a`. -/
def chunksOf (a n : Nat) : List Nat := chunkLens (if inRegs a then 4 else 8) n a n

/-- How a run of accesses ends: the bytes read, and the index and the answer of the access that failed, if one did. -/
structure Run where
  bytes : List Byte
  bad : Option (Nat × Resp)
  deriving DecidableEq, Repr

/-- What access k of a run meets. -/
def envAt (env : List (Nat × BusEnv)) (k : Nat) : BusEnv := storeGet BusEnv.clean env k

/-- Reads of the given lengths at ascending addresses by master m, up to the first that fails. -/
def State.runRead (s : State) (m : Nat) (env : List (Nat × BusEnv)) : Nat → Nat → List Nat → State × Run
  | _, _, [] => (s, ⟨[], none⟩)
  | k, a, n :: ns =>
    let s := s.busAccess m a n false [] (envAt env k)
    match s.resp with
    | some (.ok v) =>
      let (s, r) := s.runRead m env (k + 1) (a + n) ns
      (s, { r with bytes := leBytes n v ++ r.bytes })
    | some r => (s, ⟨[], some (k, r)⟩)
    | none => (s, ⟨[], none⟩)

/-- Writes of bytes cut to the given lengths, up to the first that fails. -/
def State.runWrite (s : State) (m : Nat) (env : List (Nat × BusEnv)) : Nat → Nat → List Nat → List Byte → State × Run
  | _, _, [], _ => (s, ⟨[], none⟩)
  | k, a, n :: ns, bs =>
    let s := s.busAccess m a n true (bs.take n) (envAt env k)
    match s.resp with
    | some (.ok _) => s.runWrite m env (k + 1) (a + n) ns (bs.drop n)
    | some r => (s, ⟨[], some (k, r)⟩)
    | none => (s, ⟨[], none⟩)

/-- A run touches banks that are being zeroed, so it waits (R577). -/
def State.runWaits (s : State) (a n : Nat) : Bool := s.zeroingAt a || s.zeroingAt (a + n - 1)

/-! ### DMA transfers -/

/-- F0 of the error event of an answer (Tables 1.10 and 12.2). -/
def dmaCode : Resp → Nat
  | .err c => c
  | .writeLost => 8
  | .dataErr => 9
  | _ => 0

/-- The bytes of a DMARD land in its area. -/
def State.dmaLand (s : State) (i : Nat) (d : Dma) (bs : List Byte) : State :=
  if d.area = 1 then s.putN i (16 * d.ctx + 4 + d.off) bs
  else if d.area = 4 then s.mapEng i fun e => e.putBuild d.off bs
  else s.putN i d.off bs

/-- The accesses of a transfer; one that misses R418 performs none and is refused. DMAENT writes its 16 bytes in one write, so
nothing of it stands where a part is refused or lost (R231). -/
def State.dmaRun (s : State) (i : Nat) (d : Dma) (env : List (Nat × BusEnv)) : State × Run :=
  let m := 0x10 + i
  if inRegs d.addr ∧ (d.addr % 4 ≠ 0 ∨ d.len % 4 ≠ 0) then
    (s.busErr m d.addr d.write cMisaligned, ⟨[], some (0, .err cMisaligned)⟩)
  else
    let cs := chunksOf d.addr d.len
    if d.write then
      let (t, r) := s.runWrite m env 0 d.addr cs d.bytes
      if d.whole ∧ r.bad.isSome then ({ t with mem := s.mem }, r) else (t, r)
    else s.runRead m env 0 d.addr cs

/-- DMA_TRANSFER_DONE (R232): the oldest transfer of a channel of engine i ends; `env` is what its accesses meet. -/
def execDmaTransferDone (i : Fin 24) (chan : Fin 4) (env : List (Nat × BusEnv)) (s : State) : Host.Outcome State Fault Refusal :=
  let i := i.val
  let e := s.eng i
  match e.dma.find? fun d => d.chan = chan.val with
  | none => .next s
  | some d =>
    if s.runWaits d.addr d.len then .next s
    else
      let s := s.putEng i { e with dma := e.dma.erase d }
      let (s, r) := s.dmaRun i d env
      let s := if d.write then s else s.dmaLand i d r.bytes
      let done : Pend := { pendBit s prDma chan 0 with ctx := d.ctx, code := 6 }
      match r.bad with
      | some (_, x) => .next (s.nePend i { done with code := 7, f0 := dmaCode x })
      | none => .next (if d.notify then s.nePend i done else s)

/-! ### The hard stop (R168) -/

/-- What the transfers of an engine still move up to the burst boundary at which they stop. -/
def State.flushDma (s : State) (i : Nat) : State :=
  let ds := (s.eng i).dma
  let s := s.mapEng i fun e => { e with dma := [] }
  ds.foldl (fun s d =>
    if s.runWaits d.addr d.len then s
    else
      let (s, r) := s.dmaRun i d []
      if d.write then s else s.dmaLand i d r.bytes) s

/-- NE_HARD_STOP (R168): STOPPING has lasted HARD_US; completion on the same clock counts as completion. DMA stops at the next
burst boundary. -/
def execNeHardStop (i : Fin 24) (s : State) : Host.Outcome State Fault Refusal :=
  let i := i.val
  let limit := s.fld (A.NE_CTRL i) F.NE_CTRL.HARD_US * usTicks
  if s.neState i = neStopping ∧ (s.eng i).stopAt + limit ≤ s.now then
    if s.neQuiet i then .next (s.setf (A.NE_STATUS i) F.NE_STATUS.STATE neStopped)
    else
      let (st, pc) := match (s.eng i).evt with
        | some c => (c.state, c.pc)
        | none => (0, 0)
      let s := ((s.mapEng i fun e => { e with evt := none }).stopDma i).flushDma i
      let s := s.setf (A.NE_STATUS i) F.NE_STATUS.STATE neStopped
      let s := s.setf (A.NE_STATUS i) F.NE_STATUS.HARD_STOPPED 1
      .next (s.wrn (A.NE_FAULT i) (6 * 2 ^ 24 + st % 2 ^ 11 * 2 ^ 13 + pc % 2 ^ 13))
  else .next s

end Sys2Proof.Machine
end

