-- ==== Sys2Proof/Machine/HostPort.lean ====
section
/-! DEFINITION. The host ports: the PCIe ring, aperture and messages, the QSPI host ports, the legacy bus, host interrupts
(spec/14, R659 to R669, R674 to R676). -/

namespace Sys2Proof.Machine
open Sys2Proof

/-! ### PCIe ring and aperture (R659, R660, R662) -/

/-- KCP_DB_WRITE (R659): the host has written the descriptors given, and a master writes KCP_DB. -/
def execKcpDbWrite (m : Byte) (h : Half) (descs : List (Fin 32 × RingDesc)) (v : Word) (s : State) :
    Host.Outcome State Fault Refusal :=
  let put := fun (l : List (Nat × RingDesc)) (d : Fin 32 × RingDesc) => storePut RingDesc.init l (32 * h.n + d.1) d.2
  let s := { s with kcp := { s.kcp with desc := descs.foldl put s.kcp.desc } }
  .next (s.kcpDbWrite m.toNat h.n v)

/-- PCIE_BUS_MASTER_ENABLE (R660): the host writes Bus Master Enable of an endpoint whose link is up. -/
def execPcieBusMasterEnable (t : Fin 2) (on : Bool) (s : State) : Host.Outcome State Fault Refusal :=
  if (s.tport t).up then .next (s.setb (A.PCI_STATUS t) F.PCI_STATUS.BME on) else .next s

/-- The stretches of enabled bytes, as offset and length; `k` is the offset, `n` the length of the stretch that runs. -/
def beRuns (k n : Nat) : List Bool → List (Nat × Nat)
  | [] => if n = 0 then [] else [(k - n, n)]
  | b :: bs => if b then beRuns (k + 1) (n + 1) bs else (if n = 0 then [] else [(k - n, n)]) ++ beRuns (k + 1) 0 bs

/-- The naturally aligned accesses of up to 8 bytes that a TLP from address `a` is split into, as offset and length. -/
def tlpPieces (a : Nat) (be : List Bool) : List (Nat × Nat) :=
  (beRuns 0 0 be).flatMap fun r =>
    (chunkLens 8 r.2 (a + r.1) r.2).foldl (fun l n => l ++ [((l.getLast?.map fun x => x.1 + x.2).getD r.1, n)]) []

/-- The accesses of a TLP: every one is made; the bytes read, and the first answer that is no success. -/
def State.tlpRun (s : State) (m a : Nat) (write : Bool) (data : List Byte) (env : List (Nat × BusEnv)) :
    Nat → List (Nat × Nat) → State × Run
  | _, [] => (s, ⟨[], none⟩)
  | k, (o, n) :: ps =>
    let s := s.busAccess m (a + o) n write (if write then padTo n (slice data o n) else []) (envAt env k)
    let r := s.resp
    let (s, rest) := s.tlpRun m a write data env (k + 1) ps
    match r with
    | some (.ok v) => (s, { rest with bytes := leBytes n v ++ rest.bytes })
    | some x => (s, { rest with bad := some (k, x) })
    | none => (s, rest)

/-- PCIE_APERTURE_ACCESS (R662): a TLP to BAR2 at an offset, with its byte enables. A read is completed with its bytes, or
with Completer Abort status where an access received an error response or DATA_ERR (R37, Table 12.2); a failing write is
discarded (R38). -/
def execPcieApertureAccess (t : Fin 2) (off : BitVec 18) (write : Bool) (be : List Bool) (data : List Byte)
    (env : List (Nat × BusEnv)) (s : State) : Host.Outcome State Fault Refusal :=
  let a := 0x40000 * s.fld (A.PCI_AP_BASE t) F.PCI_AP_BASE.BASE + off.toNat
  if !(s.tport t).up ∨ s.runWaits a be.length then .next s
  else
    let (s, r) := s.tlpRun (0x40 + t) a write data env 0 (tlpPieces a be)
    let s := if write then s else s.emit (.completion t (if r.bad.isSome then none else some r.bytes))
    .next { s with resp := some (match r.bad with
      | some x => x.2
      | none => .ok (if write then 0 else leNat r.bytes)) }

/-! ### MSI-X (R675) -/

/-- The number of vector v of endpoint t in the table, in `active` and in the PBA. -/
def msixNo (t v : Nat) : Nat := 32 * t + v

/-- A bit of a number set or cleared. -/
def putBit (n k : Nat) (b : Bool) : Nat := if bitAt n k = b then n else if b then n + 2 ^ k else n - 2 ^ k

/-- The message of a vector. -/
def State.msixSend (s : State) (t v : Nat) : State :=
  let e := storeGet MsixEntry.init s.kcp.msix (msixNo t v)
  s.emit (.msix t e.addr e.data)

/-- MSIX_VECTOR_ACTIVE (R675): vector v of an endpoint is judged: when it has become active its message is sent, or its PBA
bit is set while it is masked. -/
def execMsixVectorActive (t : Fin 2) (v : Fin 32) (s : State) : Host.Outcome State Fault Refusal :=
  let n := msixNo t v
  let now := s.vecActive t v
  let was := bitAt s.kcp.active n
  if now = was ∨ (now ∧ !s.pciMay t) then .next s
  else
    let s := { s with kcp := { s.kcp with active := putBit s.kcp.active n now } }
    if !now then .next s
    else if (storeGet MsixEntry.init s.kcp.msix n).masked then
      .next { s with kcp := { s.kcp with pba := putBit s.kcp.pba n true } }
    else .next (s.msixSend t v)

/-- MSIX_VECTOR_UNMASK (R675): the host writes a vector's entry in the MSI-X table; unmasked with its PBA bit set, its
message is sent if it is still active. -/
def execMsixVectorUnmask (t : Fin 2) (v : Fin 32) (addr data : BitVec 64) (mask : Bool) (s : State) :
    Host.Outcome State Fault Refusal :=
  let n := msixNo t v
  if !(s.tport t).up then .next s
  else
    let s := { s with kcp := { s.kcp with msix := storePut MsixEntry.init s.kcp.msix n ⟨addr.toNat, data.toNat % 2 ^ 32, mask⟩ } }
    if mask ∨ !bitAt s.kcp.pba n then .next s
    else
      let s := { s with kcp := { s.kcp with pba := putBit s.kcp.pba n false } }
      .next (if s.vecActive t v then s.msixSend t v else s)

/-- HI_CLR_WRITE (R674): a write of HI_CLR of a transport's endpoint; `raised` is a charge state that changes in the same
clock. -/
def execHiClrWrite (m : Byte) (t : Fin 5) (v : Word) (raised : Bool) (s : State) : Host.Outcome State Fault Refusal :=
  .next (s.hiClrWrite m.toNat t v raised)

/-! ### Byte-stream transports (R664) -/

/-- A sticky bit of a transport's status is set. -/
def State.sticky (s : State) (t : Nat) (f : Fld) : State := s.setf (tstatOf t) f 1

/-- Bytes written to the command FIFO: those beyond its space are discarded. -/
def State.cmdPush (s : State) (t : Nat) (bs : List Byte) : State :=
  let x := s.stream t
  let room := fifoBytes - x.cmd.length
  let s := s.putStream t { x with cmd := x.cmd ++ bs.take room }
  if room < bs.length then s.sticky t F.QH_TSTAT.OVF else s

/-- `n` bytes read from the reply FIFO: 0x00 once it is empty. Replies that wait for room follow. -/
def State.rspPop (s : State) (t n : Nat) : List Byte × State :=
  let x := s.stream t
  let s1 := s.putStream t { x with rsp := x.rsp.drop n }
  let s1 := if x.rsp.length < n then s1.sticky t F.QH_TSTAT.RSP_UNDER else s1
  (padTo n x.rsp, s1.fillStream t s1.kcp.ready)

/-- The registers that hold the error address of a transport. -/
def eaddrLo (t : Nat) : Nat := if t = 4 then A.LB_EADDR_LO 0 else A.QH_EADDR_LO (t - 2)
def eaddrHi (t : Nat) : Nat := if t = 4 then A.LB_EADDR_HI 0 else A.QH_EADDR_HI (t - 2)

/-- The sticky bit of an answer. -/
def respBit : Resp → Option Fld
  | .err _ => some F.QH_TSTAT.BUS_ERR
  | .writeLost => some F.QH_TSTAT.WRITE_LOST
  | .dataErr => some F.QH_TSTAT.DATA_ERR
  | _ => none

/-- The answer of an access at `a` enters the transaction status; the address of the first failing one since the last
clearing is held (R667). -/
def State.portStatus (s : State) (t a : Nat) : State :=
  match s.resp.bind respBit with
  | none => s
  | some f =>
    let s := s.sticky t f
    let x := s.stream t
    if x.eaddr then s
    else
      let s := { s with kcp := { s.kcp with streams := storePut ByteStream.init s.kcp.streams t { x with eaddr := true } } }
      (s.wrn (eaddrLo t) a).wrn (eaddrHi t) (a / 2 ^ 32)

/-- The sticky bits of a transport's status cleared. -/
def State.clearSticky (s : State) (t : Nat) : State :=
  let s := s.setf (tstatOf t) ⟨5, 0⟩ 0
  let x := s.stream t
  { s with kcp := { s.kcp with streams := storePut ByteStream.init s.kcp.streams t { x with eaddr := false } } }

/-! ### QSPI host ports (R663 to R667) -/

/-- A QSPI host port takes a transaction: it is enabled, its half runs, and the width is one it knows (R663, item 3). -/
def State.qspiTakes (s : State) (h : Half) (width : Fin 4) : Bool :=
  s.running h && s.flag (A.QH_CFG h.n) F.QH_CFG.EN && width != 3

/-- RDSR (R663): QH_TSTAT, lowest byte first, repeated for `n` bytes. -/
def execRdsr (h : Half) (width : Fin 4) (n : Nat) (s : State) : Host.Outcome State Fault Refusal :=
  if s.qspiTakes h width then
    let w := leBytes 4 (s.rdn (A.QH_TSTAT h.n))
    .next (s.emit (.lanes h.n ((List.range n).map fun k => w.getD (k % 4) 0)))
  else .next s

/-- WRCMD (R664). -/
def execWrcmd (h : Half) (width : Fin 4) (bytes : List Byte) (s : State) : Host.Outcome State Fault Refusal :=
  if s.qspiTakes h width then .next (s.cmdPush (2 + h.n) bytes) else .next s

/-- RDRSP (R664). -/
def execRdrsp (h : Half) (width : Fin 4) (n : Nat) (s : State) : Host.Outcome State Fault Refusal :=
  if s.qspiTakes h width then
    let (bs, s) := s.rspPop (2 + h.n) n
    .next (s.emit (.lanes h.n bs))
  else .next s

/-- The words of RDMEM from word k on: a failed read returns 0; a late one returns 0 for itself and for all that follow. -/
def State.rdmem (s : State) (h : Half) (a : Nat) (late : Option Nat) (env : List (Nat × BusEnv)) :
    Nat → Nat → List Byte × State
  | 0, _ => ([], s)
  | n + 1, k =>
    let at_ := (a + 4 * k) % 2 ^ 40
    let s := s.busAccess (0x42 + h.n) at_ 4 false [] (envAt env k)
    let r := s.resp
    let s := s.portStatus (2 + h.n) at_
    if late = some k ∨ r = none then (List.replicate (4 * (n + 1)) 0, s.sticky (2 + h.n) F.QH_TSTAT.LATE)
    else
      let (bs, s) := s.rdmem h a late env n (k + 1)
      (leBytes 4 ((r.map Resp.value).getD 0) ++ bs, s)

/-- RDMEM (R665): `n` words from an address; `late` is the word whose read does not complete in time. -/
def execRdmem (h : Half) (width : Fin 4) (addr : BitVec 40) (n : Nat) (late : Option Nat) (env : List (Nat × BusEnv))
    (s : State) : Host.Outcome State Fault Refusal :=
  if s.qspiTakes h width then
    let (bs, s) := s.rdmem h addr.toNat late env n 0
    .next (s.emit (.lanes h.n bs))
  else .next s

/-- The whole words of WRMEM from word k on; bytes of an incomplete last word are discarded. -/
def State.wrmem (s : State) (h : Half) (a : Nat) (env : List (Nat × BusEnv)) : Nat → List Byte → State
  | k, b0 :: b1 :: b2 :: b3 :: bs =>
    let at_ := (a + 4 * k) % 2 ^ 40
    let s := s.busAccess (0x42 + h.n) at_ 4 true [b0, b1, b2, b3] (envAt env k)
    (s.portStatus (2 + h.n) at_).wrmem h a env (k + 1) bs
  | _, [] => s
  | _, _ => s.sticky (2 + h.n) F.QH_TSTAT.BUS_ERR

/-- WRMEM (R666). -/
def execWrmem (h : Half) (width : Fin 4) (addr : BitVec 40) (bytes : List Byte) (env : List (Nat × BusEnv)) (s : State) :
    Host.Outcome State Fault Refusal :=
  if s.qspiTakes h width then
    if addr.toNat % 4 ≠ 0 then .next (s.sticky (2 + h.n) F.QH_TSTAT.BUS_ERR)
    else .next (s.wrmem h addr.toNat env 0 bytes)
  else .next s

/-- CLRSR (R663). -/
def execClrsr (h : Half) (width : Fin 4) (s : State) : Host.Outcome State Fault Refusal :=
  if s.qspiTakes h width then .next (s.clearSticky (2 + h.n)) else .next s

/-! ### Legacy bus (R668, R669) -/

/-- The legacy bus answers: 6412 mode, with Knit out of reset. -/
def State.lbOn (s : State) : Bool := s.mode6412 && s.running .k

/-- A halfword on the data lines. -/
def State.lbData (s : State) (v : Nat) : State := s.emit (.lanes 0 (leBytes 2 v))

/-- LB_CMD (R668): two bytes into the command FIFO, the low byte first. -/
def execLbCmd (v : BitVec 16) (s : State) : Host.Outcome State Fault Refusal :=
  if s.lbOn then .next (s.cmdPush 4 (leBytes 2 v.toNat)) else .next s

/-- A read of LB_RSP. -/
def State.lbRsp (s : State) : State :=
  let (bs, s) := s.rspPop 4 2
  s.emit (.lanes 0 bs)

/-- LB_RSP (R668). -/
def execLbRsp (s : State) : Host.Outcome State Fault Refusal := if s.lbOn then .next s.lbRsp else .next s

/-- LB_CLR (R668). -/
def execLbClr (s : State) : Host.Outcome State Fault Refusal := if s.lbOn then .next (s.clearSticky 4) else .next s

/-- An access of the legacy bus to the buses, its answer in the transaction status; a read that fails is 0. -/
def State.lbAccess (s : State) (a n : Nat) (write : Bool) (v : Nat) (e : BusEnv) : Nat × State :=
  let s := s.busAccess 0x44 a n write (if write then leBytes n v else []) e
  ((s.resp.map Resp.value).getD 0, s.portStatus 4 a)

/-- The window (R669): `o` is the offset in it. -/
def State.lbWindow (s : State) (o : Nat) (write : Bool) (v : Nat) (e : BusEnv) : State :=
  let a := 0x10000 * s.kcp.lbWin + o / 4 * 4
  let high := o / 2 % 2 == 1
  if write then
    if high then (s.lbAccess a 4 true (v * 65536 + s.kcp.lbWr) e).2 else { s with kcp := { s.kcp with lbWr := v } }
  else if high then s.lbData s.kcp.lbRd
  else
    let (x, s) := s.lbAccess a 4 false 0 e
    ({ s with kcp := { s.kcp with lbRd := x / 65536 } } : State).lbData x

/-- A read of the registers of the map; none for an address that the map does not name. -/
def State.lbRegRead (s : State) (a : Nat) : Option State :=
  let t := s.rdn (A.LB_TSTAT 0)
  if a = 0x200000 ∨ a = 0x200008 then some (s.lbData 0)
  else if a = 0x200002 then some s.lbRsp
  else if a = 0x200004 then some (s.lbData t)
  else if a = 0x200006 then some (s.lbData (t / 65536))
  else if 0x200800 ≤ a ∧ a < 0x200820 then
    some (s.lbData (s.fld (A.BANK_OWNER 0 ((a - 0x200800) / 2)) F.BANK_OWNER.OWNER))
  else if a = 0x201000 then some (s.lbData s.kcp.lbWin)
  else if a = 0x201002 then some (s.lbData (s.kcp.lbWin / 65536))
  else none

/-- A write of the registers of the map. -/
def State.lbRegWrite (s : State) (a v : Nat) : Option State :=
  let w := s.kcp.lbWin
  if a = 0x200000 then some (s.cmdPush 4 (leBytes 2 v))
  else if a = 0x200002 ∨ a = 0x200004 ∨ a = 0x200006 then some s
  else if a = 0x200008 then some (s.clearSticky 4)
  else if 0x200800 ≤ a ∧ a < 0x200820 then
    let n := (a - 0x200800) / 2
    some ((s.bankOwnerWrite 0x44 n (v % 256)).portStatus 4 (A.BANK_OWNER 0 n))
  else if a = 0x201000 then some { s with kcp := { s.kcp with lbWin := w / 65536 * 65536 + v } }
  else if a = 0x201002 then some { s with kcp := { s.kcp with lbWin := w % 65536 + v % 256 * 65536 } }
  else none

/-- A halfword access of the legacy bus to any address of its map (Table 14.10). -/
def State.lbCycle (s : State) (a : Nat) (write : Bool) (v : Nat) (e : BusEnv) : State :=
  if a < 0x200000 then
    let (x, s) := s.lbAccess (bankBase + a) 2 write v e
    if write then s else s.lbData x
  else if 0x210000 ≤ a ∧ a < 0x220000 then s.lbWindow (a - 0x210000) write v e
  else
    let bad := (if write then s else s.lbData 0).sticky 4 F.QH_TSTAT.BUS_ERR
    ((if write then s.lbRegWrite a v else s.lbRegRead a).getD bad)

/-- LB_WINDOW_ACCESS (R668, R669): a halfword access at LB_A[21:1], to the window or to any other address of the map; banks that are
being zeroed hold LB_WAITn low. -/
def execLbWindowAccess (a : BitVec 21) (write : Bool) (v : BitVec 16) (e : BusEnv) (s : State) :
    Host.Outcome State Fault Refusal :=
  let a := a.toNat * 2
  let target := if a < 0x200000 then bankBase + a else 0x10000 * s.kcp.lbWin + (a - 0x210000) / 4 * 4
  if !s.lbOn ∨ ((a < 0x200000 ∨ 0x210000 ≤ a) ∧ s.zeroingAt target) then .next s
  else .next (s.lbCycle a write v.toNat e)

end Sys2Proof.Machine
end

