-- ==== Sys2Proof/Machine/KcpGeneral.lean ====
section
/-! DEFINITION. What the commands of opcode group 0x00 do: identity, register and memory access, resets, sessions, the fault
log (spec/14, R643 to R656, Table 14.5; spec/15, R683, R686; spec/16, R732). -/

namespace Sys2Proof.Machine
open Sys2Proof

/-! ### Accesses of the Trivet -/

/-- The F2 event of a Trivet read that met DATA_ERR in a half in service, where the fault behind it is left to T5 (R78,
Table 12.2). -/
def State.trivetDataErr (s : State) (a : Nat) : State :=
  let log := fun (h : Half) (code : Nat) =>
    if s.inService h then s.faultD code 2 (originHalf h) trivet (a % 2 ^ 32) (a / 2 ^ 32) 0 else s
  match regionOf a with
  | .bank h => log h 0x11
  | .dk => log .k 0x21
  | .dp => log .p 0x21
  | _ => s

/-- A command ends as its run of accesses from address `a` with the lengths `cs` ended: OK with data, or BUS_ERROR, WRITE_LOST
or DATA_ERR with the index of the access and its CAUSE (R654, Table 14.4). -/
def State.runReply (s : State) (c : KCmd) (a : Nat) (cs : List Nat) (r : Run) (data : List Byte) : State :=
  match r.bad with
  | none => s.okData c data
  | some (k, .err x) => s.finish c stBusError (leBytes 4 k ++ [BitVec.ofNat 8 x])
  | some (k, .writeLost) => s.finish c stWriteLost (leBytes 4 k ++ [0#8])
  | some (k, _) => (s.trivetDataErr (a + (cs.take k).foldl Nat.add 0)).finish c stDataErr (leBytes 4 k ++ [0#8])

/-- Register writes of the Trivet, up to the first that fails, whose index and answer it gives. -/
def State.trvWrites (s : State) : Nat → List (Nat × Nat) → State × Option (Nat × Resp)
  | _, [] => (s, none)
  | k, (a, v) :: ws =>
    let s := s.busAccess trivet a 4 true (leBytes 4 v) BusEnv.clean
    match s.resp with
    | some (.ok _) => s.trvWrites (k + 1) ws
    | some r => (s, some (k, r))
    | none => s.trvWrites (k + 1) ws

/-- A command performs register writes and replies: OK with the data that `f` reads afterwards, or BUS_ERROR. -/
def State.writesThen (s : State) (c : KCmd) (ws : List (Nat × Nat)) (f : State → List Byte) : State :=
  let (s, bad) := s.trvWrites 0 ws
  s.runReply c 0 [] ⟨[], bad⟩ (f s)

/-- A command performs register writes and replies without data. -/
def State.writes (s : State) (c : KCmd) (ws : List (Nat × Nat)) : State := s.writesThen c ws fun _ => []

/-- A command replies with registers that the Trivet reads one after another. -/
def State.trvReads (s : State) : Nat → List Nat → State × Run
  | _, [] => (s, ⟨[], none⟩)
  | k, a :: as =>
    let s := s.busAccess trivet a 4 false [] BusEnv.clean
    match s.resp with
    | some (.ok v) =>
      let (s, r) := s.trvReads (k + 1) as
      (s, { r with bytes := leBytes 4 v ++ r.bytes })
    | some r => (s, ⟨[], some (k, r)⟩)
    | none => s.trvReads (k + 1) as
def State.reads (s : State) (c : KCmd) (as : List Nat) : State :=
  let (s, r) := s.trvReads 0 as
  s.runReply c 0 [] r r.bytes

/-! ### Identity -/

/-- PING (Table 14.5). -/
def execPing (t : Fin 6) (tag : BitVec 16) (s : State) : Host.Outcome State Fault Refusal :=
  .next (s.onCmd t tag.toNat 0x0001 fun s c =>
    s.okData c (leBytes 4 (s.rdn A.SYS_ID) ++ leBytes 2 (s.rdn A.GAUGE_EPOCH) ++ leBytes 8 s.raw))

/-- INFO (Table 14.5). -/
def execInfo (t : Fin 6) (tag : BitVec 16) (s : State) : Host.Outcome State Fault Refusal :=
  .next (s.onCmd t tag.toNat 0x0002 fun s c =>
    s.okData c (leBytes 4 (s.rdn A.SYS_STRAP) ++ leBytes 1 s.lc ++ leBytes 1 s.pstate ++ [s.chg.holder] ++
      leBytes 1 s.chg.mode.code ++ leBytes 4 Config.fwVersion ++ leBytes 4 Config.patchLevel))

/-! ### Register and memory access (R654) -/

/-- The run of accesses of a command at ADDR, with the lengths `cs`; it waits while it would meet banks that are being zeroed. -/
def State.cmdRun (s : State) (c : KCmd) (cs : List Nat) (write : Bool) (data : List Byte) (env : List (Nat × BusEnv)) : State :=
  let a := u c.params 0 8
  if s.runWaits a (cs.foldl Nat.add 0) then s
  else
    let (s, r) := if write then s.runWrite trivet env 0 a cs data else s.runRead trivet env 0 a cs
    s.runReply c a cs r r.bytes

/-- REG_READ (R654): N words; `env` is what the accesses meet. -/
def execRegRead (t : Fin 6) (tag : BitVec 16) (env : List (Nat × BusEnv)) (s : State) : Host.Outcome State Fault Refusal :=
  .next (s.onCmd t tag.toNat 0x0003 fun s c =>
    let n := u c.params 8 4
    s.checked c [(decide (1 ≤ n ∧ n ≤ 256), 8)] fun s => s.cmdRun c (List.replicate n 4) false [] env)

/-- A word of REG_WRITE would set COL_CTRL.EN (R757). -/
def setsColEn (p : List Byte) : Bool :=
  (List.range (u p 8 4)).any fun k =>
    u p 0 8 + 4 * k == A.COL_CTRL && fget F.COL_CTRL.EN (BitVec.ofNat 32 (u p (12 + 4 * k) 4)) == 1

/-- REG_WRITE (R654, R757). -/
def execRegWrite (t : Fin 6) (tag : BitVec 16) (env : List (Nat × BusEnv)) (s : State) : Host.Outcome State Fault Refusal :=
  .next (s.onCmd t tag.toNat 0x0004 fun s c =>
    let n := u c.params 8 4
    s.checked c [(decide (1 ≤ n ∧ n ≤ 256), 8)] fun s =>
      if s.lc = 3 ∧ setsColEn c.params then s.say c stBadState
      else s.cmdRun c (List.replicate n 4) true (c.params.drop 12) env)

/-- MEM_READ (R654): LEN bytes in naturally aligned accesses. -/
def execMemRead (t : Fin 6) (tag : BitVec 16) (env : List (Nat × BusEnv)) (s : State) : Host.Outcome State Fault Refusal :=
  .next (s.onCmd t tag.toNat 0x0005 fun s c =>
    let n := u c.params 8 4
    s.checked c [(decide (1 ≤ n ∧ n ≤ 65536), 8)] fun s => s.cmdRun c (chunksOf (u c.params 0 8) n) false [] env)

/-- MEM_WRITE (R654). -/
def execMemWrite (t : Fin 6) (tag : BitVec 16) (env : List (Nat × BusEnv)) (s : State) : Host.Outcome State Fault Refusal :=
  .next (s.onCmd t tag.toNat 0x0006 fun s c =>
    let n := u c.params 8 4
    s.checked c [(decide (1 ≤ n ∧ n ≤ 65536), 8)] fun s =>
      s.cmdRun c (chunksOf (u c.params 0 8) n) true (c.params.drop 12) env)

/-! ### RESET (R643, R656, R732) -/

/-- The half that carries a command's transport; a UDP command is carried by the plane of its arrival. -/
def KCmd.carrier (c : KCmd) : Option Half :=
  match trHalf c.tr with
  | some h => some h
  | none => c.origin.map fun o => halfOf o.half

/-- The combinations of R656: how many values of INDEX a level and target take; none for a combination not given. -/
def resetIndexes (level target : Nat) : Option Nat :=
  match level, target with
  | 2, 0 | 3, 1 | 3, 2 | 3, 3 | 3, 4 | 3, 5 => some 2
  | 4, 6 => some 24
  | 4, 7 => some 16
  | _, _ => none

/-- RESET (R656, R732): the reset asserts at once, or, when it reaches the half of the command's own transport, t_KCP_SELF
after the reply. -/
def execReset (t : Fin 6) (tag : BitVec 16) (s : State) : Host.Outcome State Fault Refusal :=
  .next (s.onCmd t tag.toNat 0x0007 fun s c =>
    let r : KReset := ⟨byteAt c.params 0, byteAt c.params 1, byteAt c.params 2⟩
    let chip := r.level == 1
    let n := resetIndexes r.level r.target
    s.checked c [(decide (1 ≤ r.level ∧ r.level ≤ 4), 0), (if chip then r.target == 0xFF else n.isSome, 1),
        (if chip then r.index == 0xFF else decide (r.index < n.getD 0), 2)] fun s =>
      if chip ∨ (r.level = 2 ∧ c.carrier = some (halfOf r.index)) then (s.say c stOk).later (.reset r)
      else (s.kcpAssert r).say c stOk)

/-! ### Sessions (R646 to R650) -/

/-- The lowest session number of UDP that is free. -/
def State.freeSession (s : State) : Option Nat := ((List.range 8).map (· + 1)).find? fun n => (s.session 5 n).isNone

/-- SESSION_OPEN (R646): a datagram with SESSION 0 opens a session as OPERATOR under the key slot of its datagram. -/
def execSessionOpen (tag : BitVec 16) (s : State) : Host.Outcome State Fault Refusal :=
  .next (s.onCmd 5 tag.toNat 0x0008 fun s c =>
    match (if c.sess = 0 then s.freeSession else none) with
    | none => s.say c stBadState
    | some n =>
      let s := s.putSession 5 n (Session.opened c.slot s.now)
      let s := s.putKcmd { c with sess := n }
      s.okData { c with sess := n } (leBytes 2 n))

/-- A wrong proof or authorisation: the fifth in a row on a transport locks SESSION_AUTH for 60 s (R649). -/
def State.authFail (s : State) (t : Nat) : State :=
  let x := s.tport t
  if 4 ≤ x.fails then s.putTport t { x with fails := 0, lockEnd := s.now + minuteTicks }
  else s.putTport t { x with fails := x.fails + 1 }

/-- SESSION_AUTH (R647, R649). -/
def execSessionAuth (t : Fin 6) (tag : BitVec 16) (s : State) : Host.Outcome State Fault Refusal :=
  .next (s.onCmd t tag.toNat 0x0009 fun s c =>
    if s.now < (s.tport t).lockEnd then s.say c stAuthLocked
    else
      let n := Config.nonce s.free % 2 ^ 128
      let s := s.useFree
      match s.session t c.sess with
      | none => s.say c stNoSession
      | some x => (s.putSession t c.sess { x with nonce := some (n, s.now) }).okData c (leBytes 16 n))

/-- A proof is right: a fresh nonce, a SAFETY slot, and the CMAC of NONCE, transport and SESSION under it (R647). -/
def State.proofOk (s : State) (t : Nat) (x : Session) (c : KCmd) : Bool :=
  let slot := byteAt c.params 0
  s.slotSafety slot &&
  match x.nonce with
  | none => false
  | some (n, at_) => decide (s.now ≤ at_ + 10 * secTicks) &&
      s.cmac slot (leBytes 16 n ++ leBytes 1 t ++ leBytes 2 c.sess) == c.params.drop 1

/-- Another session holds SAFETY. -/
def State.roleHeld (s : State) (t n : Nat) : Bool := s.kcp.sess.any fun e => e.1 != sessKey t n && e.2.safety

/-- SESSION_PROVE (R647 to R649): the proof is checked and counted even while another session holds SAFETY. -/
def execSessionProve (t : Fin 6) (tag : BitVec 16) (s : State) : Host.Outcome State Fault Refusal :=
  .next (s.onCmd t tag.toNat 0x000A fun s c =>
    match s.session t c.sess with
    | none => s.say c stNoSession
    | some x =>
      let held := s.roleHeld t c.sess
      let x1 := { x with nonce := none }
      if s.proofOk t x c then
        let s := s.putTport t { s.tport t with fails := 0 }
        if held then (s.putSession t c.sess x1).say c stRoleHeld
        else (s.putSession t c.sess { x1 with safety := true, proved := byteAt c.params 0 }).okData c [1#8]
      else ((s.putSession t c.sess x1).authFail t).say c (if held then stRoleHeld else stAuthFail))

/-- SESSION_CLOSE (R650): a UDP session closes once its reply is handed over; any other returns to OPERATOR. -/
def execSessionClose (t : Fin 6) (tag : BitVec 16) (s : State) : Host.Outcome State Fault Refusal :=
  .next (s.onCmd t tag.toNat 0x000B fun s c =>
    let s := s.say c stOk
    if t.val = 5 then s.closeUdp c.sess
    else match s.session t c.sess with
      | none => s
      | some x => s.putSession t c.sess x.operator)

/-- SESSION_DROP (R650). -/
def execSessionDrop (t : Fin 6) (tag : BitVec 16) (s : State) : Host.Outcome State Fault Refusal :=
  .next (s.onCmd t tag.toNat 0x000C fun s c =>
    let s := match s.session t c.sess with
      | none => s
      | some x => s.putSession t c.sess x.operator
    s.say c stOk)

/-! ### Fault log (R683, R686) -/

/-- The entry of the fault log with a sequence number. -/
def State.faultEntry (s : State) (q : Nat) : List Byte :=
  (List.range 8).flatMap fun k => leBytes 4 (s.rdn (A.SYS_FLT_SLOT (q % 256) k))

/-- FAULT_READ (R683). -/
def execFaultRead (t : Fin 6) (tag : BitVec 16) (s : State) : Host.Outcome State Fault Refusal :=
  .next (s.onCmd t tag.toNat 0x000D fun s c =>
    let first := u c.params 0 4
    let n := u c.params 4 2
    let w := s.rdn A.SYS_FLT_WSEQ
    s.checked c [(decide (1 ≤ n ∧ n ≤ 256), 4)] fun s =>
      if w ≤ first then s.say c stNotFound
      else
        let lo := max first (w - 256)
        let hi := min (first + n) w
        s.okData c ((List.range (hi - lo)).flatMap fun k => s.faultEntry (lo + k)))

/-- FAULT_CLEAR (R686): `raised` are the latches, F3 in bit 0 and F4 in bit 1, that a fault sets in the same cycle. -/
def execFaultClear (t : Fin 6) (tag : BitVec 16) (raised : Fin 4) (s : State) : Host.Outcome State Fault Refusal :=
  .next (s.onCmd t tag.toNat 0x000E fun s c =>
    if s.fltActive ≠ 0 then s.say c stBadState
    else
      let keep := fun (s : State) (f : Fld) (b : Nat) => if bitAt raised b then s else s.setf A.SYS_FLT_LATCH f 0
      (keep (keep s F.SYS_FLT_LATCH.F3 0) F.SYS_FLT_LATCH.F4 1).say c stOk)

end Sys2Proof.Machine
end

