-- ==== Sys2Proof/Machine/KcpPort.lean ====
section
/-! DEFINITION. What the commands of opcode groups 0x02 and 0x03 do: ports, CAN controllers, forwarding, quality of service,
gates, redundancy (spec/14, R652, R656, Table 14.5; spec/06, R276; spec/07, R350 to R353, R382, R386). -/

namespace Sys2Proof.Machine
open Sys2Proof

/-- The words of a parameter block from an offset, written to registers one after another. -/
def imageWrites (p : List Byte) (off : Nat) (as : List Nat) : List (Nat × Nat) :=
  as.zipIdx.map fun (a, k) => (a, u p (off + 4 * k) 4)

/-- A command that writes the registers `as` from its parameters at `off`. -/
def State.images (s : State) (c : KCmd) (off : Nat) (as : List Nat) : State := s.writes c (imageWrites c.params off as)

/-- Parameter byte k. -/
def KCmd.b (c : KCmd) (k : Nat) : Nat := byteAt c.params k

/-- The effect of a command whose leading byte parameters are below the limits given, in order from offset 0. -/
def State.bytesBelow (s : State) (c : KCmd) (lims : List Nat) (f : State → State) : State :=
  s.checked c (lims.zipIdx.map fun (n, k) => (decide (c.b k < n), k)) f

/-! ### Group 0x02 -/

/-- PORT_CFG (Table 14.5). -/
def execPortCfg (t : Fin 6) (tag : BitVec 16) (s : State) : Host.Outcome State Fault Refusal :=
  .next (s.onCmd t tag.toNat 0x0201 fun s c => s.bytesBelow c [2, 9] fun s =>
    let n := 12 * c.b 0 + c.b 1
    s.writes c [(A.MAC_CTRL n, u c.params 2 4), (A.MAC_SA_LO n, u c.params 6 4), (A.MAC_SA_HI n, u c.params 10 2),
      (A.MAC_PAUSE n, u c.params 12 4)])

/-- PORT_FILTER (R276): HI with VALID 0, LO, HI with the VALID asked for. -/
def execPortFilter (t : Fin 6) (tag : BitVec 16) (s : State) : Host.Outcome State Fault Refusal :=
  .next (s.onCmd t tag.toNat 0x0202 fun s c =>
    s.checked c [(decide (c.b 0 < 2), 0), (decide (c.b 1 < 9), 1), (decide (c.b 2 < 2), 2), (decide (c.b 3 < 8), 3),
        (decide (c.b 10 < 2), 10)] fun s =>
      let n := 12 * c.b 0 + c.b 1
      let lo := if c.b 2 = 0 then A.MAC_UC_LO n (c.b 3) else A.MAC_MC_LO n (c.b 3)
      let hi := if c.b 2 = 0 then A.MAC_UC_HI n (c.b 3) else A.MAC_MC_HI n (c.b 3)
      let top := u c.params 8 2
      s.writes c [(hi, top), (lo, u c.params 4 4), (hi, c.b 10 * 2 ^ 31 + top)])

/-- PORT_STATS (Table 14.5). -/
def execPortStats (t : Fin 6) (tag : BitVec 16) (s : State) : Host.Outcome State Fault Refusal :=
  .next (s.onCmd t tag.toNat 0x0203 fun s c => s.bytesBelow c [2, 12] fun s =>
    let n := 12 * c.b 0 + c.b 1
    s.reads c ((List.range 24).map (A.MAC_CNT n) ++ [A.MAC_CNT_WRAP n, A.MAC_PER_STATUS n] ++
      (List.range 8).map (A.MAC_PER_SHADOW n)))

/-- PORT_PERIOD (R303). -/
def execPortPeriod (t : Fin 6) (tag : BitVec 16) (s : State) : Host.Outcome State Fault Refusal :=
  .next (s.onCmd t tag.toNat 0x0204 fun s c => s.bytesBelow c [2, 12, 2, 16] fun s =>
    s.writes c [(A.MAC_PER_CTRL (12 * c.b 0 + c.b 1), c.b 2 * 2 ^ 31 + c.b 3 * 2 ^ 16)])

/-- TL_CFG (Table 14.5). -/
def execTlCfg (t : Fin 6) (tag : BitVec 16) (s : State) : Host.Outcome State Fault Refusal :=
  .next (s.onCmd t tag.toNat 0x0205 fun s c => s.bytesBelow c [2, 4] fun s => s.images c 2 [A.TL_CTRL (4 * c.b 0 + c.b 1)])

/-- SD_CFG (Table 14.5). -/
def execSdCfg (t : Fin 6) (tag : BitVec 16) (s : State) : Host.Outcome State Fault Refusal :=
  .next (s.onCmd t tag.toNat 0x0206 fun s c => s.bytesBelow c [2, 4] fun s =>
    s.images c 2 [A.SD_CTRL (4 * c.b 0 + c.b 1), A.SD_TXEQ (4 * c.b 0 + c.b 1)])

/-- RG_CFG (Table 14.5). -/
def execRgCfg (t : Fin 6) (tag : BitVec 16) (s : State) : Host.Outcome State Fault Refusal :=
  .next (s.onCmd t tag.toNat 0x0207 fun s c => s.bytesBelow c [2] fun s => s.images c 1 [A.RG_CTRL (c.b 0)])

/-- CX_CFG (Table 14.5, R460): the timing registers before CX_CTRL, whose EN closes them. -/
def execCxCfg (t : Fin 6) (tag : BitVec 16) (s : State) : Host.Outcome State Fault Refusal :=
  .next (s.onCmd t tag.toNat 0x0208 fun s c => s.bytesBelow c [8] fun s =>
    let n := c.b 0
    s.writes c (imageWrites c.params 5 [A.CX_NBT n, A.CX_DBT n, A.CX_XBT n, A.CX_TDC n, A.CX_PWM n] ++
      [(A.CX_CTRL n, u c.params 1 4)]))

/-- CX_FILTER (Table 14.5). -/
def execCxFilter (t : Fin 6) (tag : BitVec 16) (s : State) : Host.Outcome State Fault Refusal :=
  .next (s.onCmd t tag.toNat 0x0209 fun s c =>
    s.checked c [(decide (c.b 0 < 8), 0), (decide (c.b 1 < 128), 1), (decide (c.b 1 + c.b 2 ≤ 128), 2)] fun s =>
      s.images c 3 ((List.range (c.b 2)).flatMap fun k =>
        [A.CX_FILT_ID (c.b 0) (c.b 1 + k), A.CX_FILT_MASK (c.b 0) (c.b 1 + k)]))

/-! ### Group 0x03: forwarding (R350 to R353) -/

/-- The bucket that an entry's DA and VID hash to; `e` is the entry's 16 bytes. -/
def entryBucket (e : List Byte) : Nat := fwdBucket (e.take 6) (u e 6 2 % 4096)

/-- VID of an entry is a VLAN (Table 7.2). -/
def entryVidOk (e : List Byte) : Bool := decide (1 ≤ u e 6 2 % 4096 ∧ u e 6 2 % 4096 ≤ 4094)

/-- Entry i of a half is valid. -/
def State.fwdValid (s : State) (h : Half) (i : Nat) : Bool := bitAt (s.fwdWord h i 3) 31

/-- Entry i is valid, has the DA and VID of `e`, and shares an INGRESS bit with it (Table 14.4). -/
def State.fwdClash (s : State) (h : Half) (e : List Byte) (i : Nat) : Bool :=
  s.fwdValid h i && s.fwdWord h i 0 == u e 0 4 && s.fwdWord h i 1 % 2 ^ 28 == u e 4 4 % 2 ^ 28 &&
  (s.fwdWord h i 3 &&& u e 12 4) % 4096 != 0

/-- The entries of a bucket. -/
def bucketWays (b : Nat) : List Nat := (List.range 4).map fun w => 4 * b + w

/-- The writes of an entry in the order of R353. -/
def entryWrites (h i : Nat) (e : List Byte) : List (Nat × Nat) :=
  let w3 := u e 12 4 % 2 ^ 31
  [(A.SW_FWD h i 3, w3), (A.SW_FWD h i 0, u e 0 4), (A.SW_FWD h i 1, u e 4 4), (A.SW_FWD h i 2, u e 8 4),
   (A.SW_FWD h i 3, 2 ^ 31 + w3)]

/-- FWD_INSERT (R352). -/
def execFwdInsert (t : Fin 6) (tag : BitVec 16) (s : State) : Host.Outcome State Fault Refusal :=
  .next (s.onCmd t tag.toNat 0x0301 fun s c =>
    let e := slice c.params 1 16
    s.checked c [(decide (c.b 0 < 2), 0), (entryVidOk e, 1)] fun s =>
      let h := halfOf (c.b 0)
      let ways := bucketWays (entryBucket e)
      if ways.any (s.fwdClash h e) then s.say c stEntryExists
      else match ways.find? fun i => !s.fwdValid h i with
        | none => s.say c stBucketFull
        | some i => s.writesThen c (entryWrites h.n i e) fun _ => leBytes 2 i)

/-- FWD_UPDATE (R353). -/
def execFwdUpdate (t : Fin 6) (tag : BitVec 16) (s : State) : Host.Outcome State Fault Refusal :=
  .next (s.onCmd t tag.toNat 0x0302 fun s c =>
    let e := slice c.params 3 16
    let i := u c.params 1 2
    s.checked c [(decide (c.b 0 < 2), 0), (decide (i < 4096), 1), (entryVidOk e && entryBucket e == i / 4, 3)] fun s =>
      let h := halfOf (c.b 0)
      if !s.fwdValid h i then s.say c stNotFound
      else if (bucketWays (i / 4)).any fun j => j != i && s.fwdClash h e j then s.say c stEntryExists
      else s.writes c (entryWrites h.n i e))

/-- FWD_DELETE (R353). -/
def execFwdDelete (t : Fin 6) (tag : BitVec 16) (s : State) : Host.Outcome State Fault Refusal :=
  .next (s.onCmd t tag.toNat 0x0303 fun s c =>
    let i := u c.params 1 2
    s.checked c [(decide (c.b 0 < 2), 0), (decide (i < 4096), 1)] fun s =>
      let h := halfOf (c.b 0)
      if s.fwdValid h i then s.writes c [(A.SW_FWD h.n i 3, s.fwdWord h i 3 % 2 ^ 31)] else s.say c stNotFound)

/-- FWD_READ (Table 14.5). -/
def execFwdRead (t : Fin 6) (tag : BitVec 16) (s : State) : Host.Outcome State Fault Refusal :=
  .next (s.onCmd t tag.toNat 0x0304 fun s c =>
    let first := u c.params 1 2
    let n := u c.params 3 2
    s.checked c [(decide (c.b 0 < 2), 0), (decide (first < 4096), 1), (decide (1 ≤ n ∧ n ≤ 4096 ∧ first + n ≤ 4096), 3)] fun s =>
      s.reads c ((List.range n).flatMap fun k => (List.range 4).map fun w => A.SW_FWD (c.b 0) (first + k) w))

/-! ### Group 0x03: quality of service, gates, redundancy -/

/-- The registers that a KIND and INDEX of QOS_CFG write, in the order of their images; none for an INDEX out of range
(R656). -/
def qosRegs (h kind i : Nat) : Option (List Nat) :=
  match kind with
  | 0 => if i < 96 then some [A.SWQ_LIM h i, A.SWQ_SIEVE h i] else none
  | 1 => if i < 64 then some [A.SW_SIEVE_PT h (i / 16) (i % 16)] else none
  | 2 => if i < 64 then some [A.MTR_CIR h i, A.MTR_PIR h i, A.MTR_CBS h i, A.MTR_PBS h i, A.MTR_CTRL h i] else none
  | 3 => if i < 12 then some [A.SWP_CFG h i, A.SWP_PCP_MAP h i, A.SWP_MISS_MASK h i, A.SWP_XOFF h i] else none
  | _ => none

/-- QOS_CFG (R656). -/
def execQosCfg (t : Fin 6) (tag : BitVec 16) (s : State) : Host.Outcome State Fault Refusal :=
  .next (s.onCmd t tag.toNat 0x0305 fun s c =>
    let rs := qosRegs (c.b 0) (c.b 1) (u c.params 2 2)
    s.checked c [(decide (c.b 0 < 2), 0), (decide (c.b 1 < 4), 1), (rs.isSome, 2)] fun s => s.images c 4 (rs.getD []))

/-- The writes of GATE_LOAD into the admin bank and its base, cycle and length; `b` is that bank. -/
def gateWrites (p : List Byte) (h port b len : Nat) (ctrl : Word) : List (Nat × Nat) :=
  imageWrites p 21 ((List.range len).flatMap fun e => [A.SWG_GATES h port b e, A.SWG_INTERVAL h port b e]) ++
  imageWrites p 5 [A.SWG_A_BASE_SEC_LO h port, A.SWG_A_BASE_SEC_HI h port, A.SWG_A_BASE_NS h port, A.SWG_A_CYCLE h port] ++
  [(A.SWG_CTRL h port, ctrl.toNat)]

/-- GATE_LOAD (R382, R386): the admin list is loaded and its swap requested; the reply names the raw count of the swap. -/
def execGateLoad (t : Fin 6) (tag : BitVec 16) (s : State) : Host.Outcome State Fault Refusal :=
  .next (s.onCmd t tag.toNat 0x0306 fun s c =>
    let len := u c.params 3 2
    s.checked c [(decide (c.b 0 < 2), 0), (decide (c.b 1 < 9), 1), (decide (c.b 2 < 4), 2), (decide (len ≤ 256), 3)] fun s =>
      let h := halfOf (c.b 0)
      let n := c.b 1
      let a := A.SWG_CTRL h.n n
      let v := fput F.SWG_CTRL.DOMAIN (fput F.SWG_CTRL.ADMIN_LEN (fput F.SWG_CTRL.CHANGE (s.rd a) 1) len) (c.b 2)
      let cycle := u c.params 17 4
      let (s, bad) := s.trvWrites 0 (gateWrites c.params h.n n (1 - s.fld a F.SWG_CTRL.OPER) len v)
      if bad.isNone ∧ (len = 0 ∨ cycle < 1000 ∨ 999999999 < cycle) then s.say c stGateCfg
      else
        let at_ := (s.dom (c.b 2)).cur.reaches 0 ((s.gate h n).swapAt.getD 0)
        s.runReply c 0 [] ⟨[], bad⟩ (leBytes 8 at_))

/-- RED_CFG (Table 14.5): an own address that is not 0 is valid. -/
def execRedCfg (t : Fin 6) (tag : BitVec 16) (s : State) : Host.Outcome State Fault Refusal :=
  .next (s.onCmd t tag.toNat 0x0307 fun s c =>
    s.checked c ((decide (c.b 0 < 2), 0) :: (List.range 9).map fun k => (decide (c.b (1 + k) < 4), 1 + k)) fun s =>
      let h := c.b 0
      let red := (List.range 9).map fun k => (A.SWP_CFG h k, (fput F.SWP_CFG.RED (s.rd (A.SWP_CFG h k)) (c.b (1 + k))).toNat)
      let own := (List.range 2).flatMap fun k =>
        let a := u c.params (18 + 6 * k) 6
        [(A.SW_RED_SA_LO h k, a % 2 ^ 32), (A.SW_RED_SA_HI h k, b2n (a != 0) * 2 ^ 31 + a / 2 ^ 32)]
      s.writes c (red ++ imageWrites c.params 10 [A.SW_TWIN h, A.SW_DUP_AGE h] ++ own))

end Sys2Proof.Machine
end

