-- ==== Sys2Proof/Machine/KcpCharge.lean ====
section
/-! DEFINITION. What the commands of opcode group 0x0A do: charge, input agreement, resynchronisation, the Colander's stream
entries, twin mode, update digests (spec/14, Table 14.5; spec/02, R74, R82, R83, R130, R133, R144, R813; spec/15, R687). -/

namespace Sys2Proof.Machine
open Sys2Proof

/-- CHG_STATUS (Table 14.5). -/
def execChgStatus (t : Fin 6) (tag : BitVec 16) (s : State) : Host.Outcome State Fault Refusal :=
  .next (s.onCmd t tag.toNat 0x0A01 fun s c =>
    s.reads c [A.TRV_CHARGE, A.TRV_STATE, A.TRV_CAUSE 0, A.TRV_CAUSE 1, A.TEN_STATUS])

/-! ### Planned handovers (R82, R83, R813) -/

/-- The status with which a planned handover is refused, if it is: the other half is not in STANDBY, or in probation without
being in update standby, one is pending, or no trigger instant exists; nothing holds charge. -/
def State.handoverRefusal (s : State) : Option Nat :=
  match s.holder with
  | none => some stBadState
  | some h =>
    let c := s.chg.half h.other
    if s.handoverPending then some stBadState
    else if c.st ≠ .standby then some stNotStandby
    else if c.probation && !c.update then some stInProbation
    else if !s.flag (A.GAUGE_CMP_CTRL s.trigUnit) F.GAUGE_CMP_CTRL.EN then some stBadState
    else none

/-- A command that asks for a planned handover: accepted, it commits and waits; once the handover has been performed it
replies with its instant, or BAD_STATE when it was cancelled. -/
def State.handoverCmd (s : State) (c : KCmd) (service : Option Half) : State :=
  if c.committed then
    if s.handoverPending then s
    else match s.chg.performed with
      | some at_ => s.okData c (leBytes 8 at_)
      | none => s.say c stBadState
  else match s.handoverRefusal with
    | some st => s.say c st
    | none => (s.planHandover service).putKcmd { c with committed := true }

/-- SERVICE (R74, R82, R813): a planned handover for the holder, T8 at once for any other half that is not in SERVICE. -/
def execService (t : Fin 6) (tag : BitVec 16) (s : State) : Host.Outcome State Fault Refusal :=
  .next (s.onCmd t tag.toNat 0x0A02 fun s c => s.bytesBelow c [2] fun s =>
    let h := halfOf (c.b 0)
    if c.committed ∨ s.holder = some h then s.handoverCmd c (some h)
    else if s.handoverPending ∨ s.chgOf h = .service then s.say c stBadState
    else (s.toService h 0x32).okData c (leBytes 8 0))

/-- HANDOVER (R83, R813). -/
def execHandover (t : Fin 6) (tag : BitVec 16) (s : State) : Host.Outcome State Fault Refusal :=
  .next (s.onCmd t tag.toNat 0x0A04 fun s c => s.handoverCmd c none)

/-- RECAST (R74, T9; R643). -/
def execRecast (t : Fin 6) (tag : BitVec 16) (s : State) : Host.Outcome State Fault Refusal :=
  .next (s.onCmd t tag.toNat 0x0A03 fun s c => s.bytesBelow c [2] fun s =>
    let h := halfOf (c.b 0)
    if s.chgOf h ≠ .service then s.say c stBadState
    else if c.carrier = some h then (s.say c stOk).later (.recast h)
    else (s.recast h 0x33).say c stOk)

/-! ### Registers of the shared block -/

/-- IA_CFG (R144): the regions before TEN_IA_CTRL; BAD_PARAM for it where ENABLE is refused. -/
def execIaCfg (t : Fin 6) (tag : BitVec 16) (s : State) : Host.Outcome State Fault Refusal :=
  .next (s.onCmd t tag.toNat 0x0A05 fun s c =>
    let v := u c.params 0 4
    let (s, bad) := s.trvWrites 0 (imageWrites c.params 4 [A.TEN_IA_SRC 0, A.TEN_IA_DST 0, A.TEN_IA_SRC 1, A.TEN_IA_DST 1] ++
      [(A.TEN_IA_CTRL, v)])
    if bad.isNone && bitAt v 31 && !s.flag A.TEN_IA_CTRL F.TEN_IA_CTRL.ENABLE then s.badParam c 0
    else s.runReply c 0 [] ⟨[], bad⟩ [])

/-- RS_CFG (R130). -/
def execRsCfg (t : Fin 6) (tag : BitVec 16) (s : State) : Host.Outcome State Fault Refusal :=
  .next (s.onCmd t tag.toNat 0x0A06 fun s c =>
    s.images c 0 ((List.range 8).flatMap fun n => [A.TEN_RS_BASE n, A.TEN_RS_SIZE n]))

/-- COL_CFG (R687): N stream entries of eight words from FIRST on. -/
def execColCfg (t : Fin 6) (tag : BitVec 16) (s : State) : Host.Outcome State Fault Refusal :=
  .next (s.onCmd t tag.toNat 0x0A07 fun s c =>
    s.checked c [(decide (c.b 0 + c.b 1 ≤ 256), 1)] fun s =>
      s.images c 2 ((List.range (c.b 1)).flatMap fun k => (List.range 8).map (A.COL_STREAM (c.b 0 + k))))

/-- TRV_CFG (Table 2.15): COL_WAIT is stored within its range. -/
def execTrvCfg (t : Fin 6) (tag : BitVec 16) (s : State) : Host.Outcome State Fault Refusal :=
  .next (s.onCmd t tag.toNat 0x0A08 fun s c =>
    s.writes c [(A.TRV_CFG, c.b 0 * 2 ^ 16 + min 31 (c.b 1) * 2 ^ 8)])

/-- TWIN_CFG (R135). -/
def execTwinCfg (t : Fin 6) (tag : BitVec 16) (s : State) : Host.Outcome State Fault Refusal :=
  .next (s.onCmd t tag.toNat 0x0A09 fun s c => s.bytesBelow c [2] fun s => s.writes c [(A.TRV_TWIN, c.b 0)])

/-! ### Digests (R132, R133) -/

/-- DIGESTS (Table 14.5). -/
def execDigests (t : Fin 6) (tag : BitVec 16) (s : State) : Host.Outcome State Fault Refusal :=
  .next (s.onCmd t tag.toNat 0x0A0A fun s c => s.bytesBelow c [2] fun s =>
    let d := s.digests (halfOf (c.b 0))
    s.okData c (beBytes 48 d.image ++ beBytes 48 d.recipes ++ beBytes 48 d.streams))

/-- Three digests of 48 bytes. -/
def digestsAt (b : List Byte) (off : Nat) : Digests :=
  ⟨beNat (slice b off 48), beNat (slice b (off + 48) 48), beNat (slice b (off + 96) 48)⟩

/-- UPDATE_ADMIT (R133): digests are staged for a half in SERVICE, or those staged are cleared. -/
def execUpdateAdmit (t : Fin 6) (tag : BitVec 16) (s : State) : Host.Outcome State Fault Refusal :=
  .next (s.onCmd t tag.toNat 0x0A0B fun s c => s.bytesBelow c [2, 2] fun s =>
    let h := halfOf (c.b 0)
    let d := if c.b 1 = 0 then none else some (digestsAt c.params 2)
    if s.chgOf h ≠ .service then s.say c stBadState
    else
      let s : State := match h with
        | .k => { s with stagedK := d }
        | .p => { s with stagedP := d }
      s.say c stOk)

end Sys2Proof.Machine
end

