-- ==== Sys2Proof/Machine/Profile.lean ====
section
/-! DEFINITION. The field-network profiles: their RECIPE_IDs, the ports and units they take, and their limits (spec/05, R248 to
R252). -/

namespace Sys2Proof.Machine
open Sys2Proof

/-- The profiles of Table 5.1. -/
inductive Profile where
  | profinetRt
  | profinetIrt
  | etherCat
  | eipAdapter
  | eipScanner
  | modbusTcp
  | modbusRtu
  | profibus
  | canOpen
  | j1939
  | nmea2000
  | iec450
  | iec61162
  | hartIp
  | dtt
  deriving DecidableEq, Repr

/-- The profile of a RECIPE_ID (R248, Table 5.1). -/
def profileOf (id : Nat) : Option Profile :=
  match id with
  | 0x0101 => some .profinetRt
  | 0x0102 => some .profinetIrt
  | 0x0103 => some .etherCat
  | 0x0104 => some .eipAdapter
  | 0x0105 => some .eipScanner
  | 0x0106 => some .modbusTcp
  | 0x0107 => some .modbusRtu
  | 0x0108 => some .profibus
  | 0x0109 => some .canOpen
  | 0x010A => some .j1939
  | 0x010B => some .nmea2000
  | 0x010C => some .iec450
  | 0x010D => some .iec61162
  | 0x010E => some .hartIp
  | 0x0110 => some .dtt
  | _ => none

/-! ### Ports and units (R250, Table 5.1) -/

/-- The profile passes frames through an inline pair. -/
def Profile.inlinePair (x : Profile) : Bool := x == .profinetIrt || x == .etherCat

/-- A profile of Ethernet ports without an inline pair. -/
def Profile.ethernet (x : Profile) : Bool :=
  x == .profinetRt || x == .eipAdapter || x == .eipScanner || x == .modbusTcp || x == .iec450 || x == .hartIp

/-- Hook engines per serial line, and the most lines of one engine; 0 where the profile has no line. -/
def Profile.hooksPerLine : Profile → Nat
  | .modbusRtu => 1
  | .profibus => 2
  | .iec61162 => 1
  | _ => 0
def Profile.maxLines : Profile → Nat
  | .modbusRtu => 4
  | .profibus => 1
  | .iec61162 => 8
  | _ => 0

/-- The most CX channels of one engine. -/
def Profile.maxChannels : Profile → Nat
  | .canOpen => 4
  | .j1939 => 4
  | .nmea2000 => 2
  | .dtt => 1
  | _ => 0

/-- The scratchpad of a profile in KiB, with its lines and channels. -/
def Profile.scratchKib (x : Profile) (lines channels : Nat) : Nat :=
  match x with
  | .profinetRt => 96
  | .profinetIrt => 96
  | .etherCat => 64
  | .eipAdapter => 96
  | .eipScanner => 128
  | .modbusTcp => 64
  | .modbusRtu => 16 * lines
  | .profibus => 16
  | .canOpen => 32 * channels
  | .j1939 => 32 * channels
  | .nmea2000 => 64 * channels
  | .iec450 => 64
  | .iec61162 => 4 * lines
  | .hartIp => 128
  | .dtt => 32 * channels

/-- How many of the low n bits of a number are 1. -/
def bitCount (n v : Nat) : Nat := (List.range n).foldl (fun c k => c + b2n (bitAt v k)) 0

/-- The inline pair of engine i is on two ports among SP0 to SP3 and SP8, both at 100 Mbit/s. -/
def State.profilePair (s : State) (i : Nat) : Bool :=
  s.flag (A.NE_INL_CTRL i) F.NE_INL_CTRL.EN &&
  [s.inlPort i 0, s.inlPort i 1].all fun p => (p ≤ 3 || p == 8) && s.portMbps (unitHalf i 12) p == 100

/-- Ports, lines, Hook engines, channels and scratchpad of a configuration of engine i fit Table 5.1. -/
def State.profileFits (s : State) (i : Nat) (x : Profile) (c : ProfileCfg) : Bool :=
  let hooks := bitCount 8 (s.fld (A.NE_BIND i) F.NE_BIND.HK)
  let chans := bitCount 4 (s.fld (A.NE_BIND i) F.NE_BIND.CX)
  (if x.inlinePair then s.profilePair i else !s.flag (A.NE_INL_CTRL i) F.NE_INL_CTRL.EN) &&
  (if x.ethernet then
     c.ports.all fun p => p ≤ 8 && (x != .profinetRt || (4 ≤ p && p ≤ 7) || s.portMbps (unitHalf i 12) p == 100)
   else c.ports.isEmpty) &&
  decide (c.lines ≤ x.maxLines) && (x.maxLines == 0 || c.lines != 0) &&
  (if x == .etherCat then decide (hooks ≤ 2) else hooks == x.hooksPerLine * c.lines) &&
  decide (chans ≤ x.maxChannels) && (x.maxChannels == 0 || chans != 0) &&
  decide (c.scratch ≤ 1024 * x.scratchKib c.lines chans)

/-! ### Limits (R251, Table 5.2) -/

/-- The range and step of each cycle or rate: times in ns, rates per second. -/
def Profile.rateLimits : Profile → List (Nat × Nat × Nat)
  | .profinetRt => [(1000000, 1000000, 1), (1, 512, 1)]
  | .profinetIrt => [(250000, 4000000, 250000)]
  | .etherCat => [(100000, 100000000, 1)]
  | .eipAdapter => [(2000000, 10000000000, 1)]
  | .eipScanner => [(2000000, 10000000000, 1)]
  | .modbusTcp => [(5000000, 60000000000, 1)]
  | .modbusRtu => [(1200, 115200, 1)]
  | .profibus => [(9600, 12000000, 1)]
  | .canOpen => [(10000, 1000000, 1)]
  | .j1939 => [(250000, 500000, 250000)]
  | .nmea2000 => [(250000, 250000, 1)]
  | .iec450 => [(0, 1000, 1)]
  | .iec61162 => [(4800, 38400, 33600)]
  | .hartIp => [(10000000, 60000000000, 1)]
  | .dtt => [(250000, 64000000, 1)]

/-- The range of each number of nodes and data, in the order of the table. -/
def Profile.amountLimits : Profile → List (Nat × Nat)
  | .profinetRt => [(0, 2), (0, 64), (0, 1440), (0, 1440)]
  | .profinetIrt => [(0, 1), (0, 64), (0, 1440), (0, 1440)]
  | .etherCat => [(0, 8), (0, 8), (0, 1024), (0, 1024)]
  | .eipAdapter => [(0, 16), (0, 504)]
  | .eipScanner => [(0, 64), (0, 128)]
  | .modbusTcp => [(0, 16), (0, 128), (0, 32)]
  | .modbusRtu => [(1, 247)]
  | .profibus => [(0, 244), (0, 244)]
  | .canOpen => [(1, 127), (0, 64), (0, 64)]
  | .j1939 => [(0, 253), (0, 1785)]
  | .nmea2000 => [(0, 252), (0, 223), (0, 256)]
  | .iec450 => [(0, 32)]
  | .iec61162 => [(0, 82), (0, 64)]
  | .hartIp => [(0, 128)]
  | .dtt => [(0, 63)]

/-- Values that a configuration names lie in their ranges, one for each of the table's. -/
def ratesFit (vs : List Nat) (rs : List (Nat × Nat × Nat)) : Bool :=
  vs.length == rs.length && (vs.zip rs).all fun (v, lo, hi, step) => decide (lo ≤ v ∧ v ≤ hi) && (v - lo) % step == 0
def amountsFit (vs : List Nat) (rs : List (Nat × Nat)) : Bool :=
  vs.length == rs.length && (vs.zip rs).all fun (v, lo, hi) => decide (lo ≤ v ∧ v ≤ hi)

/-- A profile block for the Recipe of engine i lies within Tables 5.1 and 5.2 (R252); a RECIPE_ID that Table 5.1 does not list is
no profile. -/
def State.profileOk (s : State) (i : Nat) (block : List Byte) : Bool :=
  match profileOf (s.fld (A.NE_RECIPE i) F.NE_RECIPE.RECIPE_ID) with
  | none => false
  | some x =>
    let c := Config.profileBlock (s.rdn (A.NE_RECIPE i)) block
    s.profileFits i x c && ratesFit c.rates x.rateLimits && amountsFit c.amounts x.amountLimits && !c.extra

end Sys2Proof.Machine
end

