-- ==== Sys2Proof/Machine/KcpImage.lean ====
section
/-! DEFINITION. What the commands of opcode group 0x01 do: images, Needle engines, profiles (spec/14, R653, R655, Table 14.5;
spec/17, R768 to R771; spec/03, R158 to R165; spec/05, R252). -/

namespace Sys2Proof.Machine
open Sys2Proof

/-! ### Images (R655, R768, R769, R771) -/

/-- The staging area's size: 16 MiB (R655). -/
def stagingBytes : Nat := 0x1000000

def State.image (s : State) (k : Nat) : Option Image := s.kcp.images.find? fun i => i.handle = k
def State.dropImage (s : State) (k : Nat) : State :=
  { s with kcp := { s.kcp with images := s.kcp.images.filter fun i => i.handle ≠ k } }
def State.putImage (s : State) (i : Image) : State :=
  { s with kcp := { s.kcp with images := s.kcp.images.map fun j => if j.handle = i.handle then i else j } }

/-- A handle that no open image has; its value is not stated. -/
def State.newHandle (s : State) : Nat :=
  (((List.range 4).map fun k => (s.freeVal + k) % 65536).find? fun n => (s.image n).isNone).getD 0

/-- IMG_BEGIN (R655). -/
def execImgBegin (t : Fin 6) (tag : BitVec 16) (s : State) : Host.Outcome State Fault Refusal :=
  .next (s.onCmd t tag.toNat 0x0101 fun s c =>
    let kind := byteAt c.params 0
    let size := u c.params 2 4
    s.checked c [(decide (kind ≤ 2), 0), (decide (size ≤ if kind = 1 then 98304 else stagingBytes), 2)] fun s =>
      if 4 ≤ s.kcp.images.length then s.say c stBadState
      else
        let n := s.newHandle
        let i : Image := ⟨n, kind, byteAt c.params 1, size, []⟩
        let s := s.useFree
        ({ s with kcp := { s.kcp with images := s.kcp.images ++ [i] } } : State).okData c (leBytes 2 n))

/-- IMG_DATA (R655). -/
def execImgData (t : Fin 6) (tag : BitVec 16) (s : State) : Host.Outcome State Fault Refusal :=
  .next (s.onCmd t tag.toNat 0x0102 fun s c =>
    let off := u c.params 2 4
    let bs := c.params.drop 6
    match s.image (u c.params 0 2) with
    | none => s.say c stNotFound
    | some i =>
      s.checked c [(decide (off + bs.length ≤ i.size), 2)] fun s =>
        (s.putImage { i with data := overlay (padTo (max off i.data.length) i.data) off bs }).say c stOk)

/-- The size limit of an envelope by its MAGIC (Table 17.5). -/
def envLimit (img : List Byte) : Nat :=
  if img.take 4 = [0x41#8, 0x50#8, 0x50#8, 0x49#8] then 0x700000
  else if img.take 4 = [0x54#8, 0x50#8, 0x43#8, 0x48#8] then 0x8000
  else if img.take 4 = [0x4D#8, 0x4E#8, 0x46#8, 0x54#8] then 0x1000 else 0

/-- Checks 0x01 to 0x03 of an image in an envelope: size, signature, rollback counter (R768, Table 17.5). -/
def State.precheckEnv (s : State) (kind : Nat) (img : List Byte) : Option Nat :=
  let n := u img 8 4
  if n ≠ img.length ∨ n % 8 ≠ 0 ∨ n < 176 ∨ envLimit img < n then some 1
  else if !s.signed kind 0 img then some 2
  else if u img 12 4 < s.rollback kind then some 3 else none

/-- Checks 0x01 to 0x03 of an image by its kind. -/
def State.imageCheck (s : State) (i : Image) : Option Nat :=
  if i.kind = 1 then s.precheck i.data else s.precheckEnv i.kind i.data

/-- Bytes written to a half's boot flash. -/
def State.flashPut (s : State) (h off : Nat) (bs : List Byte) : State :=
  let f := (List.range bs.length).foldl (fun m k => storePut 0 m (h * 2 ^ 24 + off + k) (bs.getD k 0)) s.sec.flash
  { s with sec := { s.sec with flash := f } }

/-- Offsets of slots A and B and of the patch area in a boot flash (R769). -/
def slotOff (k : Nat) : Nat := k * 0x780000
def patchOff : Nat := 0xF00000

/-- The boot source is the host load on a transport (R740, Table 16.10). -/
def State.hostLoads (s : State) (t : Nat) : Bool :=
  let src := s.fld A.SYS_BOOT F.SYS_BOOT.SRC
  (src == 2 && decide (t ≤ 1)) || (src == 3 && (t == 2 || t == 3)) || (src == 4 && t == 5)

/-- An application image that a half waits for from its host (R740, case 2). -/
def State.hostImage (s : State) (t : Nat) (i : Image) : State :=
  match (if i.kind = 0 ∧ s.hostLoads t then Config.loadTarget i.target else none) with
  | some h => if s.running (halfOf h) ∧ (s.app (halfOf h)).isNone then s.loadImage (halfOf h) i.data else s
  | none => s

/-- Where a verified image goes: the boot slot that TARGET names, or for a patch the patch area of both halves (R655, R771). -/
def State.imageStore (s : State) (i : Image) : State :=
  if i.kind = 2 then (s.flashPut 0 patchOff i.data).flashPut 1 patchOff i.data
  else match (if i.kind = 0 then Config.bootTarget i.target else none) with
    | some (h, k) => s.flashPut (h % 2) (slotOff (k % 2)) i.data
    | none => s

/-- IMG_COMMIT (R768). -/
def execImgCommit (t : Fin 6) (tag : BitVec 16) (s : State) : Host.Outcome State Fault Refusal :=
  .next (s.onCmd t tag.toNat 0x0103 fun s c =>
    match s.image (u c.params 0 2) with
    | none => s.say c stNotFound
    | some i =>
      match s.imageCheck i with
      | some code => (s.inc A.SEC_SIG_FAIL).say c (0x100 + code)
      | none => ((s.imageStore i).hostImage t i).okData c (digestBytes (sha384 i.data)))

/-- IMG_ABORT (R655). -/
def execImgAbort (t : Fin 6) (tag : BitVec 16) (s : State) : Host.Outcome State Fault Refusal :=
  .next (s.onCmd t tag.toNat 0x0104 fun s c =>
    let k := u c.params 0 2
    match s.image k with
    | none => s.say c stNotFound
    | some _ => (s.dropImage k).say c stOk)

/-! ### Needle engines (R158 to R165) -/

/-- The load of a command waits for its verification. -/
def State.loads (s : State) (c : KCmd) : Bool :=
  (List.range 24).any fun i => ((s.eng i).load).any fun l => l.tr == c.tr && l.tag == c.tag

/-- NE_LOAD (R161, R655): the handle is consumed, and a STOPPED engine takes the image; the reply follows the load. -/
def execNeLoad (t : Fin 6) (tag : BitVec 16) (s : State) : Host.Outcome State Fault Refusal :=
  .next (s.onCmd t tag.toNat 0x0105 fun s c =>
    if s.loads c then s
    else
      let k := u c.params 0 2
      let n := byteAt c.params 2
      match s.image k with
      | none => s.say c stNotFound
      | some i =>
        (s.dropImage k).checked c [(decide (n < 24), 2)] fun s =>
          if s.neState n ≠ neStopped ∨ (s.eng n).load.isSome then s.say c stBadState
          else s.mapEng n fun e => { e with load := some ⟨i.data, c.tr, c.tag, false⟩ })

/-- NE_RUN (R158). -/
def execNeRun (t : Fin 6) (tag : BitVec 16) (s : State) : Host.Outcome State Fault Refusal :=
  .next (s.onCmd t tag.toNat 0x0106 fun s c =>
    let n := byteAt c.params 0
    let run := byteAt c.params 1
    s.checked c [(decide (n < 24), 0), (decide (run ≤ 1), 1)] fun s =>
      s.writesThen c [(A.NE_CTRL n, (fput F.NE_CTRL.RUN (s.rd (A.NE_CTRL n)) run).toNat)] fun s =>
        leBytes 4 (s.regView trivet (A.NE_STATUS n)))

/-- NE_RESET (R159). -/
def execNeReset (t : Fin 6) (tag : BitVec 16) (s : State) : Host.Outcome State Fault Refusal :=
  .next (s.onCmd t tag.toNat 0x0107 fun s c =>
    let n := byteAt c.params 0
    s.checked c [(decide (n < 24), 0)] fun s => (s.kcpAssert ⟨4, 6, n⟩).say c stOk)

/-- NE_INFO (Table 14.5). -/
def execNeInfo (t : Fin 6) (tag : BitVec 16) (s : State) : Host.Outcome State Fault Refusal :=
  .next (s.onCmd t tag.toNat 0x0108 fun s c =>
    let n := byteAt c.params 0
    s.checked c [(decide (n < 24), 0)] fun s =>
      s.reads c ([A.NE_STATUS n, A.NE_RECIPE n, A.NE_FAULT n, A.NE_EVT_DONE n, A.NE_EVT_DROP n, A.NE_EVT_MERGE n, A.NE_RX_DROP n,
        A.NE_ECC_CORR n, A.NE_INL_BADFCS n, A.NE_INL_UNDERRUN n, A.NE_INL_DISC n, A.NE_INL_PASS n]))

/-- PROFILE_CFG (R252): a STOPPED engine with a Recipe takes a profile block within its limits. -/
def execProfileCfg (t : Fin 6) (tag : BitVec 16) (s : State) : Host.Outcome State Fault Refusal :=
  .next (s.onCmd t tag.toNat 0x0109 fun s c =>
    let n := byteAt c.params 0
    let block := c.params.drop 1
    s.checked c [(decide (n < 24), 0)] fun s =>
      if s.neState n ≠ neStopped ∨ !s.flag (A.NE_STATUS n) F.NE_STATUS.LOADED then s.say c stBadState
      else if !s.profileOk n block then s.say c stProfileLimit
      else ({ s with kcp := { s.kcp with profiles := storeInsert s.kcp.profiles n block } } : State).say c stOk)

end Sys2Proof.Machine
end

