-- ==== Sys2Proof/Machine/KcpMem.lean ====
section
/-! DEFINITION. What the commands of opcode groups 0x08 and 0x09 do: permission windows, mailbox bindings, the bank test, bank
owners, the Larder (spec/14, Table 14.5; spec/12, R569 to R576, R586; spec/13, R622 to R631). -/

namespace Sys2Proof.Machine
open Sys2Proof

/-! ### Group 0x08 -/

/-- SPAD_WIN (R569, R573): the window's BASE, which holds EN, after the rest; PERM_EN last. -/
def execSpadWin (t : Fin 6) (tag : BitVec 16) (s : State) : Host.Outcome State Fault Refusal :=
  .next (s.onCmd t tag.toNat 0x0801 fun s c =>
    s.checked c [(decide (c.b 0 < 2), 0), (decide (c.b 1 < 64), 1), (decide (c.b 18 < 2), 18)] fun s =>
      let h := c.b 0
      let w := c.b 1
      s.writes c (imageWrites c.params 6 [A.SPAD_WIN_SIZE h w, A.SPAD_WIN_GRANT h w, A.SPAD_WIN_NE h w] ++
        [(A.SPAD_WIN_BASE h w, u c.params 2 4),
         (A.SPAD_CTRL h, (fput F.SPAD_CTRL.PERM_EN (s.rd (A.SPAD_CTRL h)) (c.b 18)).toNat)]))

/-- MBX_BIND (R586): LOCKED where a locked table would change. -/
def execMbxBind (t : Fin 6) (tag : BitVec 16) (s : State) : Host.Outcome State Fault Refusal :=
  .next (s.onCmd t tag.toNat 0x0802 fun s c =>
    s.checked c [(decide (c.b 0 < 64), 0), (decide (c.b 3 < 2), 3)] fun s =>
      let n := c.b 0
      let same := s.mbxSender n == c.b 1 && s.mbxReceiver n == c.b 2
      if s.flag A.MBX_BIND_LOCK F.MBX_BIND_LOCK.LOCK ∧ !same then s.say c stLocked
      else
        let lock := if c.b 3 = 1 then [(A.MBX_BIND_LOCK, 1)] else []
        s.writes c ((A.MBX_BIND n, c.b 1 * 2 ^ 8 + c.b 2) :: lock))

/-- What the banks of a half hold after a test: values that no rule states. -/
def State.testBanks (s : State) (h : Half) : State :=
  s.useFree.putbs (bankAt h 0) ((List.range 0x200000).map (Config.testByte s.free))

/-- MEM_TEST (Table 14.5): `bad` is the offset of the first failing address, if one failed. A test waits while its banks are
being zeroed. -/
def execMemTest (t : Fin 6) (tag : BitVec 16) (bad : Option (Fin 0x200000)) (s : State) : Host.Outcome State Fault Refusal :=
  .next (s.onCmd t tag.toNat 0x0803 fun s c => s.bytesBelow c [2] fun s =>
    let h := halfOf (c.b 0)
    if s.chgOf h ≠ .service then s.say c stBadState
    else if s.zeroingAt (bankAt h 0) then s
    else
      let s := s.testBanks h
      match bad with
      | none => s.okData c (Config.testPass :: leBytes 8 Config.testNoAddr)
      | some o => s.okData c (Config.testFail :: leBytes 8 (bankAt h o)))

/-- BANK_OWNER (R575, R576). -/
def execBankOwner (t : Fin 6) (tag : BitVec 16) (s : State) : Host.Outcome State Fault Refusal :=
  .next (s.onCmd t tag.toNat 0x0804 fun s c => s.bytesBelow c [16] fun s =>
    if s.mode6412 then s.writes c [(A.BANK_OWNER 0 (c.b 0), c.b 1)] else s.say c stBadState)

/-! ### Group 0x09 -/

/-- LARDER_CFG (R622 to R630): the registers of Table 13.12 in the order of their offsets. -/
def execLarderCfg (t : Fin 6) (tag : BitVec 16) (s : State) : Host.Outcome State Fault Refusal :=
  .next (s.onCmd t tag.toNat 0x0901 fun s c =>
    s.images c 0 (((List.range 3).flatMap fun k => [A.LARDER_PART_BASE k, A.LARDER_PART_SIZE k]) ++
      ((List.range 8).flatMap fun j => [A.LARDER_SRC_BASE j, A.LARDER_SRC_CNT j]) ++ [A.LARDER_TRIG, A.LARDER_FREEZE] ++
      (List.range 2).flatMap fun k => [A.LARDER_PRE_N k, A.LARDER_POST_N k]))

/-- LARDER_FREEZE (R628, R629): the reply names T of the freeze that is held; BAD_STATE where the trigger is not enabled or
nothing is recorded. -/
def execLarderFreeze (t : Fin 6) (tag : BitVec 16) (s : State) : Host.Outcome State Fault Refusal :=
  .next (s.onCmd t tag.toNat 0x0902 fun s c =>
    if s.flag A.LARDER_FREEZE F.LARDER_FREEZE.EN_KCP ∧ s.flag A.LARDER_CTRL F.LARDER_CTRL.EN then
      let s := s.freezeTrigger
      s.okData c (leBytes 8 (s.rd64 A.LARDER_FRZ_AT_LO A.LARDER_FRZ_AT_HI))
    else s.say c stBadState)

/-- LARDER_RELEASE (R629). -/
def execLarderRelease (t : Fin 6) (tag : BitVec 16) (s : State) : Host.Outcome State Fault Refusal :=
  .next (s.onCmd t tag.toNat 0x0903 fun s c => s.freezeRelease.say c stOk)

/-- The Larder DMA reads spans of DRAM, (address, length), one after another: all bytes, or the first span that an error
response refuses with its CAUSE. -/
def State.larderRead (s : State) : Nat → List (Nat × Nat) → State × Except (Nat × Nat) (List Byte)
  | _, [] => (s, .ok [])
  | k, (a, n) :: rest =>
    match s.dramPorts 0x48 a n false with
    | .error x => (s, .error (k, x))
    | .ok [] => (s, .error (k, cOff))
    | .ok (h :: _) =>
      let bs := s.mbs (dramKey h a) n
      match (s.granule h a).larderRead (k + 1) rest with
      | (s, .ok r) => (s, .ok (bs ++ r))
      | (s, .error e) => (s, .error e)

/-- A reply with what the Larder DMA read. -/
def State.larderReply (s : State) (c : KCmd) (spans : List (Nat × Nat)) : State :=
  match s.larderRead 0 spans with
  | (s, .ok bs) => s.okData c bs
  | (s, .error (k, x)) => s.finish c stBusError (leBytes 4 k ++ leBytes 1 x)

/-- LARDER_PAGES (R631): pages of the cyclic or the fast store by index; `lapped`: the snapshot being written overwrites one of
them meanwhile. -/
def execLarderPages (t : Fin 6) (tag : BitVec 16) (lapped : Bool) (s : State) : Host.Outcome State Fault Refusal :=
  .next (s.onCmd t tag.toNat 0x0904 fun s c =>
    let k := c.b 0
    let first := u c.params 1 4
    let n := u c.params 5 2
    s.checked c [(decide (k < 2), 0), (decide (1 ≤ n ∧ n ≤ 16), 5)] fun s =>
      if s.storePages k < first + n then s.say c stNotFound
      else if lapped ∧ (s.larder.store k).job.isSome then s.say c stOverwritten
      else s.larderReply c ((List.range n).map fun i => (s.partBase k + (first + i) * 4096, 4096)))

/-- The longest run of records from the front that fits in `room` slots of 64 bytes. -/
def fitRecords : Nat → List EvtHeld → List EvtHeld
  | _, [] => []
  | room, e :: es => if e.len ≤ room then e :: fitRecords (room - e.len) es else []

/-- LARDER_EVENTS (R631): up to N records from the one numbered FIRST_SEQ, up to 64 KiB; `lapped`: one of them is overwritten
meanwhile by a record that waits. -/
def execLarderEvents (t : Fin 6) (tag : BitVec 16) (lapped : Bool) (s : State) : Host.Outcome State Fault Refusal :=
  .next (s.onCmd t tag.toNat 0x0905 fun s c =>
    let n := u c.params 4 2
    s.checked c [(decide (1 ≤ n ∧ n ≤ 1024), 4)] fun s =>
      match s.larder.held.find? fun e => e.seq % 2 ^ 32 = u c.params 0 4 with
      | none => s.say c stNotFound
      | some e0 =>
        if lapped ∧ s.larder.waiting ≠ [] then s.say c stOverwritten
        else
          let es := s.larder.held.filter fun e => decide (e0.seq ≤ e.seq) && decide (e.seq < e0.seq + n)
          s.larderReply c ((fitRecords 1024 es).map fun e => (s.partBase 2 + e.slot * 64, e.len * 64)))

end Sys2Proof.Machine
end

