-- ==== Sys2Proof/Machine/KcpSecure.lean ====
section
/-! DEFINITION. What the commands of opcode group 0x0B do: lifecycle, keys, Vault, anti-rollback, boot source, debug (spec/14,
Table 14.5; spec/17, R755 to R774; spec/12, R582, R583). -/

namespace Sys2Proof.Machine
open Sys2Proof

/-- LC_GET (R755, R763): the state, SVC_USED and SVC_LEFT. -/
def execLcGet (t : Fin 6) (tag : BitVec 16) (s : State) : Host.Outcome State Fault Refusal :=
  .next (s.onCmd t tag.toNat 0x0B01 fun s c =>
    s.okData c (leBytes 1 s.lc ++ leBytes 4 s.svcUsed ++ leBytes 4 (32 - s.svcUsed)))

/-! ### LC_SET (R758 to R760) -/

/-- The slot that gave the session of a command SAFETY. -/
def State.cmdSlot (s : State) (c : KCmd) : Nat := ((s.session c.tr c.sess).map fun x => x.proved).getD 0

/-- BLANK may become PROVISIONED: a signing slot with USE bit 0 and a SAFETY MAC slot are programmed and not revoked. -/
def State.mayProvision (s : State) : Bool :=
  let good := fun k => s.slotProg k && !s.slotRevoked k
  (List.range 4).any (fun k => good k && bitAt (s.slotUse k) 0) && [4, 5, 6, 7, 8, 9].any fun k => good k && s.slotUse k == 2

/-- The fuse word and value of a transition of Table 17.2; none for any other target. -/
def State.lcWord (s : State) (dest : Nat) : Option (Nat × Nat) :=
  let used := s.svcUsed
  let visit := some (68 + used, 0x53560000 + used)
  match s.lc, dest with
  | 0, 1 => if s.mayProvision then some (64, 0x4C430001) else none
  | 1, 2 => some (65, 0x4C430002)
  | 2, 3 => if used < 32 then visit else none
  | 3, 2 => visit
  | from_, 4 => if from_ = 4 then none else some (66, 0x4C430004)
  | _, _ => none

/-- The authorisation of R759, and the token of R774 with the fields in their order. -/
def State.lcAuth (s : State) (c : KCmd) (dest : Nat) : List Byte :=
  s.cmac (s.cmdSlot c) (leBytes 1 dest ++ s.uid ++ leBytes 2 s.svcUsed)
def State.debugToken (s : State) (c : KCmd) (mask : Nat) : List Byte :=
  s.cmac (s.cmdSlot c) (s.uid ++ leBytes 2 s.svcUsed ++ leBytes 1 mask)

/-- LC_SET: the reply, and after t_KCP_SELF the programming of the transition's word (R760). -/
def execLcSet (t : Fin 6) (tag : BitVec 16) (s : State) : Host.Outcome State Fault Refusal :=
  .next (s.onCmd t tag.toNat 0x0B02 fun s c =>
    match s.lcWord (c.b 0) with
    | none => s.say c stBadState
    | some (w, v) =>
      if s.lcAuth c (c.b 0) ≠ slice c.params 1 16 then (s.authFail t).say c stAuthFail
      else (s.say c stOk).later (.lifecycle w v))

/-! ### KEY_LOAD (R762, R765, R766) -/

/-- A revocation leaves a usable signing slot with USE bit 0 and a usable SAFETY MAC slot. -/
def State.mayRevoke (s : State) (k : Nat) : Bool :=
  let good := fun j => j != k && s.slotUsable j
  (List.range 4).any (fun j => good j && bitAt (s.slotUse j) 0) && [4, 5, 6, 7, 8, 9].any fun j => good j && s.slotUse j == 2

/-- The first word of a list that is not programmed. -/
def State.freeWord (s : State) (ws : List Nat) : Option Nat := ws.find? fun w => (s.fuse w).isNone

/-- The attribute word of a slot (Table 17.4). -/
def attrWord (k use_ : Nat) : Nat × Nat := (124 + k, 0x4B53 * 2 ^ 16 + use_)

/-- Fuse words that a list of values takes from `base` on. -/
def wordsAt (base : Nat) (vs : List Nat) : List (Nat × Nat) := vs.zipIdx.map fun (v, i) => (base + i, v)

/-- What KEY_LOAD programs: fuse words, or the status and reply data it ends with. -/
def State.keyLoad (s : State) (c : KCmd) : Except (Nat × List Byte) (List (Nat × Nat)) :=
  let k := c.b 0
  let role := c.b 1
  let bad := fun (off : Nat) => Except.error (stBadParam, leBytes 4 off)
  let state : Except (Nat × List Byte) (List (Nat × Nat)) := .error (stBadState, [])
  if role = 0xFF then
    if 10 ≤ k ∨ !s.mayRevoke k then bad 0
    else match s.freeWord [134, 135, 136, 137] with
      | none => bad 0
      | some w => .ok [(w, 0x5256 * 2 ^ 16 + k)]
  else if s.lc = 2 ∨ s.lc = 4 then state
  else if k = 0xFE then
    if role ≠ 1 then bad 1 else if (s.fuse 67).isSome then state else .ok [(67, 1)]
  else if k = 15 then state
  else if 10 ≤ k then bad 0
  else if s.slotProg k then state
  else if role = 0 ∨ (k < 4 ∧ 3 < role) ∨ (4 ≤ k ∧ 2 < role) then bad 1
  else if k < 4 then
    let key := slice c.params 2 49 ++ [0#8, 0#8, 0#8]
    .ok (wordsAt (138 + 13 * k) ((List.range 13).map fun i => u key (4 * i) 4) ++ [attrWord k role])
  else
    let under := if s.lc ≤ 1 then 15 else s.cmdSlot c
    match keyUnwrap (s.keyWords under) (slice c.params 2 40) with
    | none => .error (stAuthFail, [])
    | some key => .ok (wordsAt (190 + 8 * (k - 4)) (key.take 8) ++ [attrWord k role])

/-- Fuse words wait for their programming, in order. -/
def State.fuseJobs (s : State) (ws : List (Nat × Nat)) : State :=
  { s with sec := { s.sec with jobs := s.sec.jobs ++ ws.map fun w => ⟨w.1, w.2, false⟩ } }

/-- A command that has asked for fuse words replies once they have been programmed. -/
def State.fusesDone (s : State) (c : KCmd) : State := if s.sec.jobs = [] then s.say c stOk else s

/-- KEY_LOAD (R766): the words are programmed one after another, and the reply follows the last. -/
def execKeyLoad (t : Fin 6) (tag : BitVec 16) (s : State) : Host.Outcome State Fault Refusal :=
  .next (s.onCmd t tag.toNat 0x0B03 fun s c =>
    if c.committed then s.fusesDone c
    else match s.keyLoad c with
      | .error (st, data) => (if st = stAuthFail then s.authFail t else s).finish c st data
      | .ok ws => (s.fuseJobs ws).putKcmd { c with committed := true })

/-! ### The rest -/

/-- VAULT_DELEGATE (R582): the configuration before EN. -/
def execVaultDelegate (t : Fin 6) (tag : BitVec 16) (s : State) : Host.Outcome State Fault Refusal :=
  .next (s.onCmd t tag.toNat 0x0B04 fun s c => s.bytesBelow c [8] fun s =>
    s.writes c [(A.VAULT_DEL_CFG (c.b 0), u c.params 5 4), (A.VAULT_DEL_BASE (c.b 0), u c.params 1 4)])

/-- VAULT_WIPE (R583): cause 0b100. -/
def execVaultWipe (t : Fin 6) (tag : BitVec 16) (s : State) : Host.Outcome State Fault Refusal :=
  .next (s.onCmd t tag.toNat 0x0B05 fun s c => (s.vaultWipe 4).say c stOk)

/-- The largest ROLLBACK that R764 allows for counter k: the least of the images of kind k that run in a half in service. -/
def State.runningRolls (s : State) (k : Nat) : List Nat :=
  [Half.k, Half.p].flatMap fun h =>
    if !s.inService h then []
    else if k = 0 then (s.app h).toList.map fun a => a.roll
    else if k = 1 then (List.range 12).filterMap fun i => ((s.eng (12 * h.n + i)).recipe).map fun r => r.roll
    else []

/-- ROLLBACK_SET (R764): the counter's next word takes the value, unless a supply is out of range (R760, step 2). -/
def execRollbackSet (t : Fin 6) (tag : BitVec 16) (s : State) : Host.Outcome State Fault Refusal :=
  .next (s.onCmd t tag.toNat 0x0B06 fun s c =>
    if c.committed then s.fusesDone c
    else s.bytesBelow c [3] fun s =>
      let k := c.b 0
      let v := u c.params 1 4
      if v = s.rollback k then s.say c stOk
      else if v < s.rollback k ∨ (s.runningRolls k).any fun r => decide (r < v) then s.badParam c 1
      else match s.freeWord ((List.range 8).map fun i => 100 + 8 * k + i) with
        | none => s.say c stBadState
        | some w =>
          let n := s.sec.jobs.length
          let s := s.program w v false
          if s.sec.jobs.length = n then s.say c stBadState else s.putKcmd { c with committed := true })

/-- BOOT_SLOT (R739). -/
def execBootSlot (t : Fin 6) (tag : BitVec 16) (s : State) : Host.Outcome State Fault Refusal :=
  .next (s.onCmd t tag.toNat 0x0B07 fun s c => s.bytesBelow c [2] fun s => s.writes c [(A.SYS_BOOT, c.b 0)])

/-- DEBUG_UNLOCK (R774). -/
def execDebugUnlock (t : Fin 6) (tag : BitVec 16) (s : State) : Host.Outcome State Fault Refusal :=
  .next (s.onCmd t tag.toNat 0x0B08 fun s c => s.bytesBelow c [4] fun s =>
    let mask := c.b 0
    let off := bitAt ((s.fuse 67).getD 0) 0
    let idle := fun (h : Half) => !bitAt mask h.n || s.chgOf h == .service
    if s.lc ≠ 3 ∨ off ∨ !(idle .k && idle .p) then s.say c stBadState
    else if s.debugToken c mask ≠ slice c.params 1 16 then (s.authFail t).say c stAuthFail
    else
      let s := if bitAt mask 0 then s.setf A.SEC_DEBUG F.SEC_DEBUG.UNLOCK_K 1 else s
      (if bitAt mask 1 then s.setf A.SEC_DEBUG F.SEC_DEBUG.UNLOCK_P 1 else s).say c stOk)

end Sys2Proof.Machine
end

