-- ==== Sys2Proof/Machine/KcpTime.lean ====
section
/-! DEFINITION. What the commands of opcode groups 0x04 and 0x05 do: the Gauge, PTP instances, DTT (spec/14, Table 14.5;
spec/08, R410, R419 to R441; spec/09, R461, R483, R491, R492). -/

namespace Sys2Proof.Machine
open Sys2Proof

/-! ### Group 0x04 -/

/-- REF_SEL (R410). -/
def execRefSel (t : Fin 6) (tag : BitVec 16) (s : State) : Host.Outcome State Fault Refusal :=
  .next (s.onCmd t tag.toNat 0x0401 fun s c => s.bytesBelow c [2, 2] fun s =>
    s.writes c [(A.GAUGE_REF, c.b 1 * 2 ^ 4 + c.b 0)])

/-- DOM_CFG (R428). -/
def execDomCfg (t : Fin 6) (tag : BitVec 16) (s : State) : Host.Outcome State Fault Refusal :=
  .next (s.onCmd t tag.toNat 0x0402 fun s c => s.bytesBelow c [4] fun s =>
    s.writes c [(A.GAUGE_DOM_CFG (c.b 0), u c.params 3 2 * 2 ^ 16 + c.b 2 * 2 ^ 8 + c.b 1)])

/-- The writes of DOM_COMMIT: the staged set, then the request. -/
def commitWrites (p : List Byte) (d mode req keep : Nat) : List (Nat × Nat) :=
  [(A.GAUGE_DOM_STG_AT_LO d, u p 4 4), (A.GAUGE_DOM_STG_AT_HI d, u p 8 4), (A.GAUGE_DOM_STG_RATE_LO d, u p 12 4),
   (A.GAUGE_DOM_STG_RATE_HI d, u p 16 1), (A.GAUGE_DOM_STG_SEC_LO d, u p 17 4), (A.GAUGE_DOM_STG_SEC_HI d, u p 21 4),
   (A.GAUGE_DOM_STG_NS d, u p 25 4), (A.GAUGE_DOM_STG_FRAC d, u p 29 2),
   (A.GAUGE_DOM_CTRL d, 2 ^ 31 + req * 2 ^ 8 + keep * 2 ^ 4 + mode)]

/-- DOM_COMMIT (R419, R423): the reply names the commit instant. -/
def execDomCommit (t : Fin 6) (tag : BitVec 16) (s : State) : Host.Outcome State Fault Refusal :=
  .next (s.onCmd t tag.toNat 0x0403 fun s c => s.bytesBelow c [4, 3, 4, 2] fun s =>
    let d := c.b 0
    if (s.dom d).pend.isSome then s.say c stBadState
    else s.writesThen c (commitWrites c.params d (c.b 1) (c.b 2) (c.b 3)) fun s => leBytes 8 ((s.dom d).pend.getD 0))

/-- CMP_CFG (R432): the unit is disabled around the change. -/
def execCmpCfg (t : Fin 6) (tag : BitVec 16) (s : State) : Host.Outcome State Fault Refusal :=
  .next (s.onCmd t tag.toNat 0x0404 fun s c => s.bytesBelow c [16] fun s =>
    let k := c.b 0
    let v := u c.params 1 4
    s.writes c ((A.GAUGE_CMP_CTRL k, v % 2 ^ 31) ::
      imageWrites c.params 5 [A.GAUGE_CMP_NEXT_LO k, A.GAUGE_CMP_NEXT_HI k, A.GAUGE_CMP_NEXT_NS k, A.GAUGE_CMP_PERIOD k] ++
      [(A.GAUGE_CMP_CTRL k, v)]))

/-- PPS_CFG (R433). -/
def execPpsCfg (t : Fin 6) (tag : BitVec 16) (s : State) : Host.Outcome State Fault Refusal :=
  .next (s.onCmd t tag.toNat 0x0405 fun s c => s.bytesBelow c [2] fun s => s.images c 1 [A.GAUGE_PPS_CTRL (c.b 0)])

/-- An instance on engine n would own domain d: the engine is not the domain's alternate owner. -/
def State.ptpOwns (s : State) (n d : Nat) : Bool := s.fld (A.GAUGE_DOM_CFG d) F.GAUGE_DOM_CFG.ALT_OWNER != 0x10 + n

/-- PTP_CFG (R440, R441): one of four instances takes an engine, a domain and a block; two do not own one domain. -/
def execPtpCfg (t : Fin 6) (tag : BitVec 16) (s : State) : Host.Outcome State Fault Refusal :=
  .next (s.onCmd t tag.toNat 0x0406 fun s c => s.bytesBelow c [4, 24, 4] fun s =>
    let d := c.b 2
    let other := s.kcp.ptp.any fun e => e.1 != c.b 0 && e.2.dom == d && s.ptpOwns e.2.ne d
    if other && s.ptpOwns (c.b 1) d then s.say c stDomainOwned
    else
      let x : PtpInst := ⟨c.b 1, d, c.params.drop 3⟩
      ({ s with kcp := { s.kcp with ptp := storeInsert s.kcp.ptp (c.b 0) x } } : State).say c stOk)

/-- PTP_STATUS (Table 14.5): what the instance's Recipe reports. -/
def execPtpStatus (t : Fin 6) (tag : BitVec 16) (s : State) : Host.Outcome State Fault Refusal :=
  .next (s.onCmd t tag.toNat 0x0407 fun s c => s.bytesBelow c [4] fun s =>
    match storeFind s.kcp.ptp (c.b 0) with
    | none => s.say c stNotFound
    | some _ => s.useFree.okData c ((Config.ptpStatus (c.b 0) s.free).take Config.ptpReplyMax))

/-- TSC_CFG (R436). -/
def execTscCfg (t : Fin 6) (tag : BitVec 16) (s : State) : Host.Outcome State Fault Refusal :=
  .next (s.onCmd t tag.toNat 0x0408 fun s c => s.bytesBelow c [18] fun s =>
    s.images c 1 [A.GAUGE_TSC_CTRL (c.b 0), A.GAUGE_TSC_ADJ (c.b 0)])

/-! ### Group 0x05: the Pattern loader (R491, Table 9.5) -/

/-- An identifier word of a Pattern is used; its identifier. -/
def patUsed (w : Nat) : Bool := !bitAt w 31
def patId (w : Nat) : Nat := w % 2 ^ 29

/-- The used ones of a list of identifier words. -/
def patIds (ws : List Nat) : List Nat := (ws.filter patUsed).map patId

/-- A list is strictly ascending; its members are pairwise distinct. -/
def ascending : List Nat → Bool
  | [] => true
  | [_] => true
  | a :: b :: l => decide (a < b) && ascending (b :: l)
def distinct : List Nat → Bool
  | [] => true
  | a :: l => !l.contains a && distinct l

/-- Checks 0x22 and 0x23. -/
def patRows (p : Pattern) : Bool :=
  [1, 2, 4, 8, 16, 32, 64].contains p.rows && p.stitches.all fun e => decide (e.rowRep ≤ p.rows ∧ e.rowBase < e.rowRep)
def patStitch0 (p : Pattern) : Bool :=
  match p.stitches with
  | [] => false
  | e :: _ => !patUsed e.ident && e.owner == 0xFF && e.flags == 0 && e.rowBase == 0 && e.rowRep == 1

/-- Checks 0x24 and 0x25. -/
def patRefs (p : Pattern) : Bool :=
  let refs := patIds p.refIds
  refs != [] && (p.refIds.take refs.length).all patUsed && ascending refs && refs.all fun i => decide (i ≤ 0x7FF)
def patStarts (p : Pattern) : Bool :=
  let refs := patIds p.refIds
  let starts := patIds p.startIds
  distinct starts && (starts.all fun i => refs.all fun r => decide (r < i)) &&
  (patIds (p.stitches.map fun e => e.ident)).all fun i => decide (i ≤ 0x7FF) && !refs.contains i && !starts.contains i

/-- A rank or index field is 0b111 or names a used identifier (check 0x26). -/
def patNames (ids : List Nat) (k : Nat) : Bool := k == 7 || (decide (k < ids.length) && patUsed (ids.getD k 0))

/-- Checks 0x27, 0x28, 0x2B and 0x2C. -/
def patOwners (p : Pattern) : Bool :=
  p.stitches.all fun e => (decide (e.owner ≤ 63) || e.owner == 0xFF) && bitAt e.flags 0 == (e.owner == p.localNode)
def patPrecision (p : Pattern) : Bool :=
  decide (250 ≤ p.precision ∧ 1 ≤ p.driftLimit ∧ p.driftLimit ≤ p.precision ∧ p.precision ≤ p.actionOfs)
def patNit (p : Pattern) : Bool := decide ((p.minislots = 0 ∨ 500 ≤ p.minislotLen) ∧ 2 * p.precision ≤ p.nit)
def patListen (p : Pattern) : Bool :=
  decide (2 * p.rowLen ≤ p.listenBase ∧ p.stitchLen ≤ p.listenStep ∧ p.listenBase + 63 * p.listenStep ≤ 0xFFFFFFFF)

/-- The first of checks 0x22 to 0x2D that a Pattern fails on channel c. -/
def State.patternCheck (s : State) (c : Nat) (p : Pattern) : Option Nat :=
  let n := (patIds p.refIds).length
  let xl := bitTime (s.rd (A.CX_XBT c))
  let rates := bitTime (s.rd (A.CX_NBT c)) == 1000 && decide (50 ≤ xl ∧ xl ≤ 500)
  let dlen := s.fld (A.DTT_LIMITS c) F.DTT_LIMITS.STITCH_DLEN
  if !patRows p then some 0x22
  else if !patStitch0 p then some 0x23
  else if !patRefs p then some 0x24
  else if !patStarts p then some 0x25
  else if !(patNames p.refIds (s.fld (A.DTT_ROLE c) F.DTT_ROLE.REF_RANK) &&
      patNames p.startIds (s.fld (A.DTT_ROLE c) F.DTT_ROLE.COLD_IDX)) then some 0x26
  else if !patOwners p then some 0x27
  else if !patPrecision p then some 0x28
  else if p.stitchLen < p.actionOfs + (2 * n - 1) * p.precision + s.tFrame c 4 then some 0x29
  else if p.stitchLen < p.actionOfs + p.precision + s.tFrame c dlen then some 0x2A
  else if !patNit p then some 0x2B
  else if !patListen p then some 0x2C
  else if !rates || decide (2 * p.rowLen ≤ s.rdn (A.DTT_SYNC_OFS c)) then some 0x2D else none

/-- The Pattern of the Recipe that engine i holds. -/
def State.enginePattern (s : State) (i : Nat) : Option Pattern :=
  (s.eng i).recipe.bind fun r =>
    if r.patLen = 0 then none else some (patternOf (s.mbs (neWin i + r.pat) r.patLen))

/-- PATTERN_LOAD (R491). -/
def execPatternLoad (t : Fin 6) (tag : BitVec 16) (s : State) : Host.Outcome State Fault Refusal :=
  .next (s.onCmd t tag.toNat 0x0501 fun s c => s.bytesBelow c [8, 24] fun s =>
    let ch := c.b 0
    match (if s.cxEngine ch = some (c.b 1) ∧ s.dtt ch = dOff then s.enginePattern (c.b 1) else none) with
    | none => s.say c 0x121
    | some p =>
      match s.patternCheck ch p with
      | some code => s.say c (0x100 + code)
      | none =>
        let s := s.mapCan ch fun x => { x with pattern := some p }
        (s.setf (A.DTT_STATUS ch) F.DTT_STATUS.PAT_OK 1).say c stOk)

/-! ### Group 0x05: DTT -/

/-- DTT_CFG (R492): DTT_CTRL is written with EN 0. -/
def execDttCfg (t : Fin 6) (tag : BitVec 16) (s : State) : Host.Outcome State Fault Refusal :=
  .next (s.onCmd t tag.toNat 0x0502 fun s c => s.bytesBelow c [8] fun s =>
    let ch := c.b 0
    if s.dtt ch ≠ dOff then s.say c stBadState
    else s.writes c (imageWrites c.params 1 [A.DTT_ROLE ch, A.DTT_LIMITS ch, A.DTT_SYNC_OFS ch] ++
      [(A.DTT_CTRL ch, u c.params 13 4 % 2 ^ 31)]))

/-- DTT_RUN (R461, R492). -/
def execDttRun (t : Fin 6) (tag : BitVec 16) (s : State) : Host.Outcome State Fault Refusal :=
  .next (s.onCmd t tag.toNat 0x0503 fun s c => s.bytesBelow c [8, 2] fun s =>
    let ch := c.b 0
    s.writesThen c [(A.DTT_CTRL ch, (fput F.DTT_CTRL.EN (s.rd (A.DTT_CTRL ch)) (c.b 1)).toNat)] fun s =>
      leBytes 4 (s.regView trivet (A.DTT_STATUS ch)))

/-- DTT_INFO (Table 14.5). -/
def execDttInfo (t : Fin 6) (tag : BitVec 16) (s : State) : Host.Outcome State Fault Refusal :=
  .next (s.onCmd t tag.toNat 0x0504 fun s c =>
    let ch := c.b 0
    let first := u c.params 1 2
    let n := u c.params 3 2
    s.checked c [(decide (ch < 8), 0), (decide (first ≤ 1023), 1), (decide (first + n ≤ 1023), 3)] fun s =>
      s.reads c ([A.DTT_CTRL ch, A.DTT_STATUS ch, A.DTT_ROLE ch, A.DTT_LIMITS ch, A.DTT_SYNC_OFS ch, A.DTT_ROW ch,
          A.DTT_QREF_LO ch, A.DTT_QREF_HI ch, A.DTT_LAST_CORR ch, A.DTT_RATE ch, A.DTT_REF_LAST ch] ++
        (List.range n).flatMap fun k =>
          [A.DTT_ST_RX ch (first + k), A.DTT_ST_EMPTY ch (first + k), A.DTT_EDGE_VIOL ch (first + k)]))

/-- DTT_COL_MAP (R483). -/
def execDttColMap (t : Fin 6) (tag : BitVec 16) (s : State) : Host.Outcome State Fault Refusal :=
  .next (s.onCmd t tag.toNat 0x0505 fun s c => s.bytesBelow c [8] fun s =>
    let ch := c.b 0
    if s.dtt ch ≠ dOff then s.say c stBadState else s.images c 1 ((List.range 32).map (A.DTT_COL_MAP ch)))

end Sys2Proof.Machine
end

