-- ==== Sys2Proof/Machine/KcpWake.lean ====
section
/-! DEFINITION. What the commands of opcode groups 0x06 and 0x07 do: power states, wake segments and sources, the insomniac
log, Hook engines (spec/14, Table 14.5; spec/10, R496, R499, R502 to R526; spec/11, R537, R544, R550, R553). -/

namespace Sys2Proof.Machine
open Sys2Proof

/-! ### Group 0x06 -/

/-- A request matches a row of Table 10.2, and no transition is in progress (R496, R499). -/
def State.powerRow (s : State) (req : Nat) (h : Half) : Bool :=
  let ps := s.pstate
  let up := ps == psRun || ps == psSolo
  !s.powerBusy && ((ps == psRun && req == psSolo && s.mayPowerOff h) || (ps == psSolo && req == psRun) ||
    (up && decide (psDoze ≤ req)) || (ps == psDoze && req == psSleep))

/-- A request removes the half that carries the command's transport (R643). -/
def State.powerOwn (s : State) (c : KCmd) (req : Nat) (h : Half) : Bool :=
  match c.carrier with
  | none => false
  | some g => (req == psSolo && g == h) || (decide (psDoze ≤ req) && !s.halfOff g)

/-- PSTATE_REQ (R496, R499, R643). -/
def execPstateReq (t : Fin 6) (tag : BitVec 16) (s : State) : Host.Outcome State Fault Refusal :=
  .next (s.onCmd t tag.toNat 0x0601 fun s c => s.bytesBelow c [4, 2] fun s =>
    let req := c.b 0
    let h := halfOf (c.b 1)
    if !s.powerRow req h then s.reqRej.say c stPstateRefused
    else if s.powerOwn c req h then (s.say c stOk).later (.power req (c.b 1))
    else (s.powerRequest req h).say c stOk)

/-- SEG_CFG (R502): HOLD keeps its value; a segment is enabled after its membership has been written, and disabled before. -/
def execSegCfg (t : Fin 6) (tag : BitVec 16) (s : State) : Host.Outcome State Fault Refusal :=
  .next (s.onCmd t tag.toNat 0x0602 fun s c => s.bytesBelow c [8] fun s =>
    let n := c.b 0
    let v := fput F.WAKE_SEG_CTRL.HOLD (BitVec.ofNat 32 (u c.params 1 4)) (b2n (s.segHold n))
    let ctrl := [(A.WAKE_SEG_CTRL n, v.toNat)]
    let ws := imageWrites c.params 5 [A.WAKE_SEG_MEMB n, A.WAKE_SEG_CAN_KA_ID n, A.WAKE_SEG_CAN_KA_MASK n]
    s.writes c (if fget F.WAKE_SEG_CTRL.EN v = 1 then ws ++ ctrl else ctrl ++ ws))

/-- SEG_HOLD (R509). -/
def execSegHold (t : Fin 6) (tag : BitVec 16) (s : State) : Host.Outcome State Fault Refusal :=
  .next (s.onCmd t tag.toNat 0x0603 fun s c => s.bytesBelow c [8, 2] fun s =>
    let a := A.WAKE_SEG_CTRL (c.b 0)
    s.writes c [(a, (fput F.WAKE_SEG_CTRL.HOLD (s.rd a) (c.b 1)).toNat)])

/-- WAKE_ENTRY (R517): EN is written last. -/
def execWakeEntry (t : Fin 6) (tag : BitVec 16) (s : State) : Host.Outcome State Fault Refusal :=
  .next (s.onCmd t tag.toNat 0x0604 fun s c =>
    s.checked c [(decide (c.b 0 < 8), 0), (decide (c.b 1 < 4), 1), (decide (c.b 22 < 2), 22)] fun s =>
      let p := c.b 0
      let e := c.b 1
      s.writes c (imageWrites c.params 2 [A.WAKE_TLM_ID p e, A.WAKE_TLM_DVAL_LO p e, A.WAKE_TLM_DVAL_HI p e,
          A.WAKE_TLM_DMASK_LO p e, A.WAKE_TLM_DMASK_HI p e] ++
        [(A.WAKE_TLM_CTRL p e, (fput F.WAKE_TLM_CTRL.EN 0 (c.b 22)).toNat)]))

/-- WAKE_SRC (R522, R523). -/
def execWakeSrc (t : Fin 6) (tag : BitVec 16) (s : State) : Host.Outcome State Fault Refusal :=
  .next (s.onCmd t tag.toNat 0x0605 fun s c =>
    s.checked c [(decide (c.b 0 < 13), 0), (decide (c.b 5 < 2), 5)] fun s =>
      let clear := if c.b 5 = 1 then [(A.WAKE_FALSE_CLR, 2 ^ c.b 0)] else []
      s.writes c ((A.WAKE_SRC (c.b 0), u c.params 1 4) :: clear))

/-- WAKE_GLOBAL (Table 14.5): GO is not written. -/
def execWakeGlobal (t : Fin 6) (tag : BitVec 16) (s : State) : Host.Outcome State Fault Refusal :=
  .next (s.onCmd t tag.toNat 0x0606 fun s c =>
    s.writes c ((A.WAKE_PCTRL, u c.params 0 4 % 2 ^ 31) ::
      imageWrites c.params 4 [A.WAKE_KA, A.WAKE_NODATA_T, A.WAKE_VALID_T, A.WAKE_INSOMNIA_T, A.WAKE_PIN_CFG, A.WAKE_DA_LO] ++
      [(A.WAKE_DA_HI, u c.params 28 2)]))

/-- INSOMNIA_READ (R526). -/
def execInsomniaRead (t : Fin 6) (tag : BitVec 16) (s : State) : Host.Outcome State Fault Refusal :=
  .next (s.onCmd t tag.toNat 0x0607 fun s c => s.bytesBelow c [8] fun s =>
    s.reads c ((List.range 32).flatMap fun k => (List.range 8).map (A.WAKE_INS_LOG (c.b 0) k)))

/-- INSOMNIA_CLR (R526). -/
def execInsomniaClr (t : Fin 6) (tag : BitVec 16) (s : State) : Host.Outcome State Fault Refusal :=
  .next (s.onCmd t tag.toNat 0x0608 fun s c => s.writes c [(A.WAKE_INS_CLR, c.b 0)])

/-! ### Group 0x07 -/

/-- A Hook word holds a reserved code or a non-zero field shown as 0 (R544). -/
def hookReserved (w : Nat) : Bool :=
  let a := hkArg w
  match hkOp w with
  | 0 => bitAt a 6 || a / 2 ^ 7 == 3
  | 1 => a / 2 ^ 6 != 0
  | 2 => false
  | 3 => waitReserved a
  | 4 => bitAt a 5 || decide (3 < a / 2 ^ 6)
  | 5 => bitAt a 5 || decide (4 < a / 2 ^ 6)
  | 6 => a != 0
  | _ => a / 2 != 0

/-- HK_LOAD (R544, R552). -/
def execHkLoad (t : Fin 6) (tag : BitVec 16) (s : State) : Host.Outcome State Fault Refusal :=
  .next (s.onCmd t tag.toNat 0x0701 fun s c =>
    let e := c.b 0
    let ws := (List.range (c.b 1)).map fun k => u c.params (2 + 2 * k) 2
    s.checked c [(decide (e < 16), 0), (decide (1 ≤ c.b 1 ∧ c.b 1 ≤ 64), 1)] fun s =>
      if s.hkState e ≠ hkStopped then s.say c stBadState
      else match ws.findIdx? hookReserved with
        | some k => s.finish c stHookWord (leBytes 1 k)
        | none => s.writes c (ws.zipIdx.map fun (w, k) => (A.HK_PROG e k, w)))

/-- HK_CTRL with RUN put; its flags are bits 2 to 0. -/
def State.hkCtrlImage (s : State) (e flags : Nat) (run : Bool) : Nat :=
  (fput F.HK_CTRL.RUN (fput ⟨2, 0⟩ (s.rd (A.HK_CTRL e)) flags) (b2n run)).toNat

/-- HK_CFG (R553): RUN keeps its value. -/
def execHkCfg (t : Fin 6) (tag : BitVec 16) (s : State) : Host.Outcome State Fault Refusal :=
  .next (s.onCmd t tag.toNat 0x0702 fun s c => s.bytesBelow c [16] fun s =>
    let e := c.b 0
    s.writes c ((A.HK_CTRL e, s.hkCtrlImage e (u c.params 1 4 % 8) (s.hkState e != hkStopped)) ::
      imageWrites c.params 5 [A.HK_CLKDIV e, A.HK_PINS e, A.HK_WAITTO e, A.HK_FIFO e, A.HK_CMP e, A.HK_CMP_MASK e]))

/-- HK_RUN (R550, R551): a start writes PC and then RUN; a stop leaves the PC to R551. -/
def execHkRun (t : Fin 6) (tag : BitVec 16) (s : State) : Host.Outcome State Fault Refusal :=
  .next (s.onCmd t tag.toNat 0x0703 fun s c => s.bytesBelow c [16, 2, 64] fun s =>
    let e := c.b 0
    let ctrl := (A.HK_CTRL e, s.hkCtrlImage e (s.rdn (A.HK_CTRL e) % 8) (c.b 1 == 1))
    s.writesThen c (if c.b 1 = 1 then [(A.HK_PC e, c.b 2), ctrl] else [ctrl]) fun s =>
      leBytes 4 (s.regView trivet (A.HK_STATUS e)))

/-- HK_PIN (R537). -/
def execHkPin (t : Fin 6) (tag : BitVec 16) (s : State) : Host.Outcome State Fault Refusal :=
  .next (s.onCmd t tag.toNat 0x0704 fun s c => s.bytesBelow c [2, 24] fun s => s.images c 2 [A.HOOK_PIN_CFG (c.b 0) (c.b 1)])

end Sys2Proof.Machine
end

