-- ==== Sys2Proof/Machine/Dispatch.lean ====
section
/-! DEFINITION. What every command does: one arm per constructor of Instr, one direct call of its meaning. -/

namespace Sys2Proof.Machine
open Sys2Proof

/-- The effect of a command on everything but the queue. -/
def exec (i : Instr) (s : State) : Host.Outcome State Fault Refusal :=
  match i with
  | .registerWrite o => Sys2Proof.Machine.execRegisterWrite o s
  | .accessErrorTimeout m a write => Sys2Proof.Machine.execAccessErrorTimeout m a write s
  | .dramAccess m off len write data ecc mirrorEcc => Sys2Proof.Machine.execDramAccess m off len write data ecc mirrorEcc s
  | .heartbeatLaunch => Sys2Proof.Machine.execHeartbeatLaunch s
  | .heartbeatReceive h seq st ready outValid healthy code => Sys2Proof.Machine.execHeartbeatReceive h seq st ready outValid healthy code s
  | .heartbeatTimerExpiry h => Sys2Proof.Machine.execHeartbeatTimerExpiry h s
  | .castOnWindowClose => Sys2Proof.Machine.execCastOnWindowClose s
  | .grantReadbackFault r => Sys2Proof.Machine.execGrantReadbackFault r s
  | .handoverInstant => Sys2Proof.Machine.execHandoverInstant s
  | .flitReceive h cls flit => Sys2Proof.Machine.execFlitReceive h cls flit s
  | .hubRelay h cls f => Sys2Proof.Machine.execHubRelay h cls f s
  | .iaTrigger r => Sys2Proof.Machine.execIaTrigger r s
  | .iaCommitSend => Sys2Proof.Machine.execIaCommitSend s
  | .iaCommitReceive h => Sys2Proof.Machine.execIaCommitReceive h s
  | .iaCommitTimeout h => Sys2Proof.Machine.execIaCommitTimeout h s
  | .iaRerunStart => Sys2Proof.Machine.execIaRerunStart s
  | .colSubmit m h v => Sys2Proof.Machine.execColSubmit m h v s
  | .colSubmitQueueSpace h => Sys2Proof.Machine.execColSubmitQueueSpace h s
  | .colReleasePoint n rp => Sys2Proof.Machine.execColReleasePoint n rp s
  | .colWaitExpiry n rp => Sys2Proof.Machine.execColWaitExpiry n rp s
  | .colReleasePathOpen => Sys2Proof.Machine.execColReleasePathOpen s
  | .colSelftestEnd colOk kOk pOk => Sys2Proof.Machine.execColSelftestEnd colOk kOk pOk s
  | .colSelftestPeriodic => Sys2Proof.Machine.execColSelftestPeriodic s
  | .isoServiceWrite m v => Sys2Proof.Machine.execIsoServiceWrite m v s
  | .aliveLineTimeout => Sys2Proof.Machine.execAliveLineTimeout s
  | .trivetLockstepError => Sys2Proof.Machine.execTrivetLockstepError s
  | .trivetWatchdogExpiry => Sys2Proof.Machine.execTrivetWatchdogExpiry s
  | .vddTrvFail => Sys2Proof.Machine.execVddTrvFail s
  | .resyncPassDone readError => Sys2Proof.Machine.execResyncPassDone readError s
  | .twinHeartbeatSend => Sys2Proof.Machine.execTwinHeartbeatSend s
  | .twinHeartbeatReceive idx cand holds peer => Sys2Proof.Machine.execTwinHeartbeatReceive idx cand holds peer s
  | .twinHeartbeatTimeout peer => Sys2Proof.Machine.execTwinHeartbeatTimeout peer s
  | .twinPeerLow => Sys2Proof.Machine.execTwinPeerLow s
  | .tenAppWrite m h v => Sys2Proof.Machine.execTenAppWrite m h v s
  | .iaCtrlWrite m v => Sys2Proof.Machine.execIaCtrlWrite m v s
  | .neRunStart m ix hard => Sys2Proof.Machine.execNeRunStart m ix hard s
  | .neRunStop m ix hard => Sys2Proof.Machine.execNeRunStop m ix hard s
  | .neStopComplete ix => Sys2Proof.Machine.execNeStopComplete ix s
  | .neHardStop ix => Sys2Proof.Machine.execNeHardStop ix s
  | .recipeValidated ix => Sys2Proof.Machine.execRecipeValidated ix s
  | .sp9Dispatch h => Sys2Proof.Machine.execSp9Dispatch h s
  | .eventDispatch ix ecc => Sys2Proof.Machine.execEventDispatch ix ecc s
  | .eventAged ix => Sys2Proof.Machine.execEventAged ix s
  | .actWaitEnd ix inl => Sys2Proof.Machine.execActWaitEnd ix inl s
  | .neTimerExpiry ix x => Sys2Proof.Machine.execNeTimerExpiry ix x s
  | .dmaTransferDone ix chan env => Sys2Proof.Machine.execDmaTransferDone ix chan env s
  | .neDoorbellWrite m ix v => Sys2Proof.Machine.execNeDoorbellWrite m ix v s
  | .neBindWrite m ix v => Sys2Proof.Machine.execNeBindWrite m ix v s
  | .neInlCtrlWrite m ix v => Sys2Proof.Machine.execNeInlCtrlWrite m ix v s
  | .inlineFrameStart ix side bytes good stamp lat late room => Sys2Proof.Machine.execInlineFrameStart ix side bytes good stamp lat late room s
  | .inlineStoppedFrame ix side bytes held => Sys2Proof.Machine.execInlineStoppedFrame ix side bytes held s
  | .inlineInsertSend ix side => Sys2Proof.Machine.execInlineInsertSend ix side s
  | .recEnd ix inl w rival => Sys2Proof.Machine.execRecEnd ix inl w rival s
  | .recNop ix inl w => Sys2Proof.Machine.execRecNop ix inl w s
  | .recJmp ix inl w => Sys2Proof.Machine.execRecJmp ix inl w s
  | .recBr ix inl w => Sys2Proof.Machine.execRecBr ix inl w s
  | .recCall ix inl w => Sys2Proof.Machine.execRecCall ix inl w s
  | .recRet ix inl w => Sys2Proof.Machine.execRecRet ix inl w s
  | .recSetst ix inl w => Sys2Proof.Machine.execRecSetst ix inl w s
  | .recDiscard ix inl w => Sys2Proof.Machine.execRecDiscard ix inl w s
  | .recLdi ix inl w => Sys2Proof.Machine.execRecLdi ix inl w s
  | .recMov ix inl w => Sys2Proof.Machine.execRecMov ix inl w s
  | .recLd ix inl w => Sys2Proof.Machine.execRecLd ix inl w s
  | .recSt ix inl w rival => Sys2Proof.Machine.execRecSt ix inl w rival s
  | .recExt ix inl w => Sys2Proof.Machine.execRecExt ix inl w s
  | .recIns ix inl w => Sys2Proof.Machine.execRecIns ix inl w s
  | .recAdd ix inl w => Sys2Proof.Machine.execRecAdd ix inl w s
  | .recSub ix inl w => Sys2Proof.Machine.execRecSub ix inl w s
  | .recAnd ix inl w => Sys2Proof.Machine.execRecAnd ix inl w s
  | .recOr ix inl w => Sys2Proof.Machine.execRecOr ix inl w s
  | .recXor ix inl w => Sys2Proof.Machine.execRecXor ix inl w s
  | .recShl ix inl w => Sys2Proof.Machine.execRecShl ix inl w s
  | .recShr ix inl w => Sys2Proof.Machine.execRecShr ix inl w s
  | .recSar ix inl w => Sys2Proof.Machine.execRecSar ix inl w s
  | .recFset ix inl w rival => Sys2Proof.Machine.execRecFset ix inl w rival s
  | .recFclr ix inl w rival => Sys2Proof.Machine.execRecFclr ix inl w rival s
  | .recFld ix inl w => Sys2Proof.Machine.execRecFld ix inl w s
  | .recTplcpy ix inl w => Sys2Proof.Machine.execRecTplcpy ix inl w s
  | .recBlen ix inl w => Sys2Proof.Machine.execRecBlen ix inl w s
  | .recCpyin ix inl w => Sys2Proof.Machine.execRecCpyin ix inl w s
  | .recCrc ix inl w => Sys2Proof.Machine.execRecCrc ix inl w s
  | .recTxeth ix inl w => Sys2Proof.Machine.execRecTxeth ix inl w s
  | .recTxcan ix inl w => Sys2Proof.Machine.execRecTxcan ix inl w s
  | .recTxstitch ix inl w => Sys2Proof.Machine.execRecTxstitch ix inl w s
  | .recTxcol ix inl w => Sys2Proof.Machine.execRecTxcol ix inl w s
  | .recTxinl ix inl w => Sys2Proof.Machine.execRecTxinl ix inl w s
  | .recDmawr ix inl w => Sys2Proof.Machine.execRecDmawr ix inl w s
  | .recDmard ix inl w => Sys2Proof.Machine.execRecDmard ix inl w s
  | .recDmaent ix inl w => Sys2Proof.Machine.execRecDmaent ix inl w s
  | .recTstart ix inl w => Sys2Proof.Machine.execRecTstart ix inl w s
  | .recTstop ix inl w => Sys2Proof.Machine.execRecTstop ix inl w s
  | .recGtime ix inl w lag => Sys2Proof.Machine.execRecGtime ix inl w lag s
  | .recHkput ix inl w => Sys2Proof.Machine.execRecHkput ix inl w s
  | .recHkget ix inl w => Sys2Proof.Machine.execRecHkget ix inl w s
  | .recMbpost ix inl w => Sys2Proof.Machine.execRecMbpost ix inl w s
  | .recBell ix inl w => Sys2Proof.Machine.execRecBell ix inl w s
  | .recLookup ix inl w => Sys2Proof.Machine.execRecLookup ix inl w s
  | .recDecode ix inl w => Sys2Proof.Machine.execRecDecode ix inl w s
  | .recInlskip ix inl w => Sys2Proof.Machine.execRecInlskip ix inl w s
  | .recInldrop ix inl w => Sys2Proof.Machine.execRecInldrop ix inl w s
  | .macFrameReceive p bytes codeErr linkLost fcsOk capture => Sys2Proof.Machine.execMacFrameReceive p bytes codeErr linkLost fcsOk capture s
  | .pauseExpiry p => Sys2Proof.Machine.execPauseExpiry p s
  | .macFrameTransmit p capture => Sys2Proof.Machine.execMacFrameTransmit p capture s
  | .pauseFrameSend p => Sys2Proof.Machine.execPauseFrameSend p s
  | .pauseRefresh p => Sys2Proof.Machine.execPauseRefresh p s
  | .linkChange p up => Sys2Proof.Machine.execLinkChange p up s
  | .periodBoundary p => Sys2Proof.Machine.execPeriodBoundary p s
  | .macPerCtrlWrite m p v => Sys2Proof.Machine.execMacPerCtrlWrite m p v s
  | .tlCtrlWrite m p v => Sys2Proof.Machine.execTlCtrlWrite m p v s
  | .tlRestartAn m p v => Sys2Proof.Machine.execTlRestartAn m p v s
  | .tlAnComplete p page lp24 lp10 lpRole res24 lead => Sys2Proof.Machine.execTlAnComplete p page lp24 lp10 lpRole res24 lead s
  | .tlTrainingComplete p => Sys2Proof.Machine.execTlTrainingComplete p s
  | .tlAnRetry p => Sys2Proof.Machine.execTlAnRetry p s
  | .tlLossOfLock p => Sys2Proof.Machine.execTlLossOfLock p s
  | .tlSqiZeroTimeout p => Sys2Proof.Machine.execTlSqiZeroTimeout p s
  | .tlLinkFailWaitEnd p => Sys2Proof.Machine.execTlLinkFailWaitEnd p s
  | .tlShortDetect p => Sys2Proof.Machine.execTlShortDetect p s
  | .sdCtrlWrite m l v => Sys2Proof.Machine.execSdCtrlWrite m l v s
  | .sdPllLock l => Sys2Proof.Machine.execSdPllLock l s
  | .sdCdrLock l => Sys2Proof.Machine.execSdCdrLock l s
  | .sdSyncAcquired l => Sys2Proof.Machine.execSdSyncAcquired l s
  | .sdAnComplete l page speed half => Sys2Proof.Machine.execSdAnComplete l page speed half s
  | .sdSyncLoss l => Sys2Proof.Machine.execSdSyncLoss l s
  | .sgmiiSpeedChange l speed => Sys2Proof.Machine.execSgmiiSpeedChange l speed s
  | .rgCtrlWrite m h v => Sys2Proof.Machine.execRgCtrlWrite m h v s
  | .rgInbandStatus h link fd speed => Sys2Proof.Machine.execRgInbandStatus h link fd speed s
  | .rgSpeedChangeRestart h => Sys2Proof.Machine.execRgSpeedChangeRestart h s
  | .planeFrameIngress h p => Sys2Proof.Machine.execPlaneFrameIngress h p s
  | .twinWindowClose h => Sys2Proof.Machine.execTwinWindowClose h s
  | .dupEntryAge h => Sys2Proof.Machine.execDupEntryAge h s
  | .schedulingRound h => Sys2Proof.Machine.execSchedulingRound h s
  | .meterRefill h => Sys2Proof.Machine.execMeterRefill h s
  | .sieveAvgUpdate h => Sys2Proof.Machine.execSieveAvgUpdate h s
  | .gateEntryChange h p => Sys2Proof.Machine.execGateEntryChange h p s
  | .gateChangeRequest m h p v => Sys2Proof.Machine.execGateChangeRequest m h p v s
  | .gateBankSwap h p => Sys2Proof.Machine.execGateBankSwap h p s
  | .swgEnWrite m h p v => Sys2Proof.Machine.execSwgEnWrite m h p v s
  | .swBufLowReset m h v => Sys2Proof.Machine.execSwBufLowReset m h v s
  | .refFail r => Sys2Proof.Machine.execRefFail r s
  | .refRecover r diff => Sys2Proof.Machine.execRefRecover r diff s
  | .gaugeRefSelWrite m v => Sys2Proof.Machine.execGaugeRefSelWrite m v s
  | .gaugePllLock => Sys2Proof.Machine.execGaugePllLock s
  | .gaugeRawRead m => Sys2Proof.Machine.execGaugeRawRead m s
  | .gaugeDomRead m d => Sys2Proof.Machine.execGaugeDomRead m d s
  | .gaugeConvert m d v => Sys2Proof.Machine.execGaugeConvert m d v s
  | .gaugeCommitRequest m d v => Sys2Proof.Machine.execGaugeCommitRequest m d v s
  | .gaugeCommitCancel m d v => Sys2Proof.Machine.execGaugeCommitCancel m d v s
  | .gaugeCommit d => Sys2Proof.Machine.execGaugeCommit d s
  | .domCfgWrite m d v => Sys2Proof.Machine.execDomCfgWrite m d v s
  | .holdoverTimeout d => Sys2Proof.Machine.execHoldoverTimeout d s
  | .gaugeCompareEvent k => Sys2Proof.Machine.execGaugeCompareEvent k s
  | .ppsPulseEnd j => Sys2Proof.Machine.execPpsPulseEnd j s
  | .gaugeRateFault => Sys2Proof.Machine.execGaugeRateFault s
  | .cxFrameReceive c f stamp err => Sys2Proof.Machine.execCxFrameReceive c f stamp err s
  | .cxTxAttempt c e delay => Sys2Proof.Machine.execCxTxAttempt c e delay s
  | .cxBusoffRecoveryDone c => Sys2Proof.Machine.execCxBusoffRecoveryDone c s
  | .cxProtocolException c => Sys2Proof.Machine.execCxProtocolException c s
  | .cxPxeReintegrate c => Sys2Proof.Machine.execCxPxeReintegrate c s
  | .cxCtrlWrite m c v => Sys2Proof.Machine.execCxCtrlWrite m c v s
  | .dttEnable m c v => Sys2Proof.Machine.execDttEnable m c v s
  | .dttDisable m c v => Sys2Proof.Machine.execDttDisable m c v s
  | .dttListenTimeout c => Sys2Proof.Machine.execDttListenTimeout c s
  | .dttStartRefSend c idle => Sys2Proof.Machine.execDttStartRefSend c idle s
  | .dttStartRefDone c e => Sys2Proof.Machine.execDttStartRefDone c e s
  | .dttReferenceReceive c id stamp data => Sys2Proof.Machine.execDttReferenceReceive c id stamp data s
  | .dttRankedRefSend c idle e => Sys2Proof.Machine.execDttRankedRefSend c idle e s
  | .dttRowEnd c => Sys2Proof.Machine.execDttRowEnd c s
  | .dttActionPoint c n idle e => Sys2Proof.Machine.execDttActionPoint c n idle e s
  | .dttMinislotBoundary c k idle used e => Sys2Proof.Machine.execDttMinislotBoundary c k idle used e s
  | .powerRequest m v => Sys2Proof.Machine.execPowerRequest m v s
  | .autoSleepEntry => Sys2Proof.Machine.execAutoSleepEntry s
  | .deviceWake => Sys2Proof.Machine.execDeviceWake s
  | .segBindOffStart n => Sys2Proof.Machine.execSegBindOffStart n s
  | .segAsleep n => Sys2Proof.Machine.execSegAsleep n s
  | .segAwake n => Sys2Proof.Machine.execSegAwake n s
  | .keepaliveReceive p bytes t => Sys2Proof.Machine.execKeepaliveReceive p bytes t s
  | .canKeepalive c ident ide t => Sys2Proof.Machine.execCanKeepalive c ident ide t s
  | .wakeFrameReceive p bytes t => Sys2Proof.Machine.execWakeFrameReceive p bytes t s
  | .keepaliveSend n => Sys2Proof.Machine.execKeepaliveSend n s
  | .segHoldWrite m n v => Sys2Proof.Machine.execSegHoldWrite m n v s
  | .segMembWrite m n v => Sys2Proof.Machine.execSegMembWrite m n v s
  | .canInhWake c level t => Sys2Proof.Machine.execCanInhWake c level t s
  | .cxWakePulseEnd c => Sys2Proof.Machine.execCxWakePulseEnd c s
  | .userPathWake ix c t => Sys2Proof.Machine.execUserPathWake ix c t s
  | .nodataTimeout n => Sys2Proof.Machine.execNodataTimeout n s
  | .wakeValidTimeout ix c => Sys2Proof.Machine.execWakeValidTimeout ix c s
  | .insomniaEntryWrite n => Sys2Proof.Machine.execInsomniaEntryWrite n s
  | .insomniaUpdate n => Sys2Proof.Machine.execInsomniaUpdate n s
  | .wakeFalseClrWrite m v => Sys2Proof.Machine.execWakeFalseClrWrite m v s
  | .wakeInsClrWrite m v => Sys2Proof.Machine.execWakeInsClrWrite m v s
  | .hkSet e => Sys2Proof.Machine.execHkSet e s
  | .hkLoop e => Sys2Proof.Machine.execHkLoop e s
  | .hkJmp e pins => Sys2Proof.Machine.execHkJmp e pins s
  | .hkWait e pins => Sys2Proof.Machine.execHkWait e pins s
  | .hkOut e => Sys2Proof.Machine.execHkOut e s
  | .hkIn e pins => Sys2Proof.Machine.execHkIn e pins s
  | .hkPull e => Sys2Proof.Machine.execHkPull e s
  | .hkPush e => Sys2Proof.Machine.execHkPush e s
  | .hkStallEnd e pins => Sys2Proof.Machine.execHkStallEnd e pins s
  | .hkWaitTimeout e pins => Sys2Proof.Machine.execHkWaitTimeout e pins s
  | .hkRunStart m e v => Sys2Proof.Machine.execHkRunStart m e v s
  | .hkRunStop m e v => Sys2Proof.Machine.execHkRunStop m e v s
  | .hkFlush m e v => Sys2Proof.Machine.execHkFlush m e v s
  | .hkProgWrite m e w v => Sys2Proof.Machine.execHkProgWrite m e w v s
  | .hkTxfWrite m e v => Sys2Proof.Machine.execHkTxfWrite m e v s
  | .hkRxfRead m e => Sys2Proof.Machine.execHkRxfRead m e s
  | .hookPinCfgWrite m h q v => Sys2Proof.Machine.execHookPinCfgWrite m h q v s
  | .scratchpadAccess pa pb => Sys2Proof.Machine.execScratchpadAccess pa pb s
  | .sweepBlock h finished bad => Sys2Proof.Machine.execSweepBlock h finished bad s
  | .sweepForce h bad => Sys2Proof.Machine.execSweepForce h bad s
  | .spadZeroingDone h => Sys2Proof.Machine.execSpadZeroingDone h s
  | .bankOwnerWrite m n v => Sys2Proof.Machine.execBankOwnerWrite m n v s
  | .vaultAccess m off len write data => Sys2Proof.Machine.execVaultAccess m off len write data s
  | .vaultWipeDone => Sys2Proof.Machine.execVaultWipeDone s
  | .mbxMsgWrite m c w v => Sys2Proof.Machine.execMbxMsgWrite m c w v s
  | .mbxRing m c ack => Sys2Proof.Machine.execMbxRing m c ack s
  | .mbxAck m c => Sys2Proof.Machine.execMbxAck m c s
  | .mbxBindWrite m c v => Sys2Proof.Machine.execMbxBindWrite m c v s
  | .mbxBindLockSet m => Sys2Proof.Machine.execMbxBindLockSet m s
  | .mbxLockRead k readers => Sys2Proof.Machine.execMbxLockRead k readers s
  | .mbxLockWrite m k => Sys2Proof.Machine.execMbxLockWrite m k s
  | .mtimecmpWrite k v => Sys2Proof.Machine.execMtimecmpWrite k v s
  | .machineTimerInterrupt k => Sys2Proof.Machine.execMachineTimerInterrupt k s
  | .mirqClr1Write k v raised => Sys2Proof.Machine.execMirqClr1Write k v raised s
  | .hartAmoScratchpad k op wide a v ecc b1 b2 => Sys2Proof.Machine.execHartAmoScratchpad k op wide a v ecc b1 b2 s
  | .lockstepError h => Sys2Proof.Machine.execLockstepError h s
  | .dramTrainingDone h ok => Sys2Proof.Machine.execDramTrainingDone h ok s
  | .dramClearDone h => Sys2Proof.Machine.execDramClearDone h s
  | .patrolBlock h ecc mirrorEcc => Sys2Proof.Machine.execPatrolBlock h ecc mirrorEcc s
  | .resilverDone => Sys2Proof.Machine.execResilverDone s
  | .larderSnapshotTrigger => Sys2Proof.Machine.execLarderSnapshotTrigger s
  | .larderSnapshotDone d => Sys2Proof.Machine.execLarderSnapshotDone d s
  | .larderEventWrite drop => Sys2Proof.Machine.execLarderEventWrite drop s
  | .freezePin => Sys2Proof.Machine.execFreezePin s
  | .larderEnable m v => Sys2Proof.Machine.execLarderEnable m v s
  | .kcpPacketArrival t slot bytes => Sys2Proof.Machine.execKcpPacketArrival t slot bytes s
  | .kcpCommandStart t tag => Sys2Proof.Machine.execKcpCommandStart t tag s
  | .kcpCommandTimeout t tag => Sys2Proof.Machine.execKcpCommandTimeout t tag s
  | .kcpSelfEffectStart => Sys2Proof.Machine.execKcpSelfEffectStart s
  | .transportDown t how => Sys2Proof.Machine.execTransportDown t how s
  | .sessionIdleTimeout t n => Sys2Proof.Machine.execSessionIdleTimeout t n s
  | .authLockEnd t => Sys2Proof.Machine.execAuthLockEnd t s
  | .kcpDbWrite m h descs v => Sys2Proof.Machine.execKcpDbWrite m h descs v s
  | .kcpSlotReply t slot => Sys2Proof.Machine.execKcpSlotReply t slot s
  | .pcieApertureAccess t off write be data env => Sys2Proof.Machine.execPcieApertureAccess t off write be data env s
  | .msixVectorActive t v => Sys2Proof.Machine.execMsixVectorActive t v s
  | .hiClrWrite m t v raised => Sys2Proof.Machine.execHiClrWrite m t v raised s
  | .rdsr h width n => Sys2Proof.Machine.execRdsr h width n s
  | .wrcmd h width bytes => Sys2Proof.Machine.execWrcmd h width bytes s
  | .rdrsp h width n => Sys2Proof.Machine.execRdrsp h width n s
  | .rdmem h width addr n late env => Sys2Proof.Machine.execRdmem h width addr n late env s
  | .wrmem h width addr bytes env => Sys2Proof.Machine.execWrmem h width addr bytes env s
  | .clrsr h width => Sys2Proof.Machine.execClrsr h width s
  | .lbCmd v => Sys2Proof.Machine.execLbCmd v s
  | .lbRsp => Sys2Proof.Machine.execLbRsp s
  | .lbClr => Sys2Proof.Machine.execLbClr s
  | .lbWindowAccess a write v e => Sys2Proof.Machine.execLbWindowAccess a write v e s
  | .kcpDatagramReceive h => Sys2Proof.Machine.execKcpDatagramReceive h s
  | .kcpArpReply h => Sys2Proof.Machine.execKcpArpReply h s
  | .ping t tag => Sys2Proof.Machine.execPing t tag s
  | .info t tag => Sys2Proof.Machine.execInfo t tag s
  | .regRead t tag env => Sys2Proof.Machine.execRegRead t tag env s
  | .regWrite t tag env => Sys2Proof.Machine.execRegWrite t tag env s
  | .memRead t tag env => Sys2Proof.Machine.execMemRead t tag env s
  | .memWrite t tag env => Sys2Proof.Machine.execMemWrite t tag env s
  | .reset t tag => Sys2Proof.Machine.execReset t tag s
  | .kcpResetRelease level target index => Sys2Proof.Machine.execKcpResetRelease level target index s
  | .sessionOpen tag => Sys2Proof.Machine.execSessionOpen tag s
  | .sessionAuth t tag => Sys2Proof.Machine.execSessionAuth t tag s
  | .sessionProve t tag => Sys2Proof.Machine.execSessionProve t tag s
  | .sessionClose t tag => Sys2Proof.Machine.execSessionClose t tag s
  | .sessionDrop t tag => Sys2Proof.Machine.execSessionDrop t tag s
  | .faultRead t tag => Sys2Proof.Machine.execFaultRead t tag s
  | .faultClear t tag raised => Sys2Proof.Machine.execFaultClear t tag raised s
  | .imgBegin t tag => Sys2Proof.Machine.execImgBegin t tag s
  | .imgData t tag => Sys2Proof.Machine.execImgData t tag s
  | .imgCommit t tag => Sys2Proof.Machine.execImgCommit t tag s
  | .imgAbort t tag => Sys2Proof.Machine.execImgAbort t tag s
  | .neLoad t tag => Sys2Proof.Machine.execNeLoad t tag s
  | .neRun t tag => Sys2Proof.Machine.execNeRun t tag s
  | .neReset t tag => Sys2Proof.Machine.execNeReset t tag s
  | .neInfo t tag => Sys2Proof.Machine.execNeInfo t tag s
  | .profileCfg t tag => Sys2Proof.Machine.execProfileCfg t tag s
  | .portCfg t tag => Sys2Proof.Machine.execPortCfg t tag s
  | .portFilter t tag => Sys2Proof.Machine.execPortFilter t tag s
  | .portStats t tag => Sys2Proof.Machine.execPortStats t tag s
  | .portPeriod t tag => Sys2Proof.Machine.execPortPeriod t tag s
  | .tlCfg t tag => Sys2Proof.Machine.execTlCfg t tag s
  | .sdCfg t tag => Sys2Proof.Machine.execSdCfg t tag s
  | .rgCfg t tag => Sys2Proof.Machine.execRgCfg t tag s
  | .cxCfg t tag => Sys2Proof.Machine.execCxCfg t tag s
  | .cxFilter t tag => Sys2Proof.Machine.execCxFilter t tag s
  | .fwdInsert t tag => Sys2Proof.Machine.execFwdInsert t tag s
  | .fwdUpdate t tag => Sys2Proof.Machine.execFwdUpdate t tag s
  | .fwdDelete t tag => Sys2Proof.Machine.execFwdDelete t tag s
  | .fwdRead t tag => Sys2Proof.Machine.execFwdRead t tag s
  | .qosCfg t tag => Sys2Proof.Machine.execQosCfg t tag s
  | .gateLoad t tag => Sys2Proof.Machine.execGateLoad t tag s
  | .redCfg t tag => Sys2Proof.Machine.execRedCfg t tag s
  | .refSel t tag => Sys2Proof.Machine.execRefSel t tag s
  | .domCfg t tag => Sys2Proof.Machine.execDomCfg t tag s
  | .domCommit t tag => Sys2Proof.Machine.execDomCommit t tag s
  | .cmpCfg t tag => Sys2Proof.Machine.execCmpCfg t tag s
  | .ppsCfg t tag => Sys2Proof.Machine.execPpsCfg t tag s
  | .ptpCfg t tag => Sys2Proof.Machine.execPtpCfg t tag s
  | .ptpStatus t tag => Sys2Proof.Machine.execPtpStatus t tag s
  | .tscCfg t tag => Sys2Proof.Machine.execTscCfg t tag s
  | .patternLoad t tag => Sys2Proof.Machine.execPatternLoad t tag s
  | .dttCfg t tag => Sys2Proof.Machine.execDttCfg t tag s
  | .dttRun t tag => Sys2Proof.Machine.execDttRun t tag s
  | .dttInfo t tag => Sys2Proof.Machine.execDttInfo t tag s
  | .dttColMap t tag => Sys2Proof.Machine.execDttColMap t tag s
  | .pstateReq t tag => Sys2Proof.Machine.execPstateReq t tag s
  | .segCfg t tag => Sys2Proof.Machine.execSegCfg t tag s
  | .segHold t tag => Sys2Proof.Machine.execSegHold t tag s
  | .wakeEntry t tag => Sys2Proof.Machine.execWakeEntry t tag s
  | .wakeSrc t tag => Sys2Proof.Machine.execWakeSrc t tag s
  | .wakeGlobal t tag => Sys2Proof.Machine.execWakeGlobal t tag s
  | .insomniaRead t tag => Sys2Proof.Machine.execInsomniaRead t tag s
  | .insomniaClr t tag => Sys2Proof.Machine.execInsomniaClr t tag s
  | .hkLoad t tag => Sys2Proof.Machine.execHkLoad t tag s
  | .hkCfg t tag => Sys2Proof.Machine.execHkCfg t tag s
  | .hkRun t tag => Sys2Proof.Machine.execHkRun t tag s
  | .hkPin t tag => Sys2Proof.Machine.execHkPin t tag s
  | .spadWin t tag => Sys2Proof.Machine.execSpadWin t tag s
  | .mbxBind t tag => Sys2Proof.Machine.execMbxBind t tag s
  | .memTest t tag bad => Sys2Proof.Machine.execMemTest t tag bad s
  | .bankOwner t tag => Sys2Proof.Machine.execBankOwner t tag s
  | .larderCfg t tag => Sys2Proof.Machine.execLarderCfg t tag s
  | .larderFreeze t tag => Sys2Proof.Machine.execLarderFreeze t tag s
  | .larderRelease t tag => Sys2Proof.Machine.execLarderRelease t tag s
  | .larderPages t tag lapped => Sys2Proof.Machine.execLarderPages t tag lapped s
  | .larderEvents t tag lapped => Sys2Proof.Machine.execLarderEvents t tag lapped s
  | .chgStatus t tag => Sys2Proof.Machine.execChgStatus t tag s
  | .service t tag => Sys2Proof.Machine.execService t tag s
  | .recast t tag => Sys2Proof.Machine.execRecast t tag s
  | .handover t tag => Sys2Proof.Machine.execHandover t tag s
  | .iaCfg t tag => Sys2Proof.Machine.execIaCfg t tag s
  | .rsCfg t tag => Sys2Proof.Machine.execRsCfg t tag s
  | .colCfg t tag => Sys2Proof.Machine.execColCfg t tag s
  | .trvCfg t tag => Sys2Proof.Machine.execTrvCfg t tag s
  | .twinCfg t tag => Sys2Proof.Machine.execTwinCfg t tag s
  | .digests t tag => Sys2Proof.Machine.execDigests t tag s
  | .updateAdmit t tag => Sys2Proof.Machine.execUpdateAdmit t tag s
  | .lcGet t tag => Sys2Proof.Machine.execLcGet t tag s
  | .lcSet t tag => Sys2Proof.Machine.execLcSet t tag s
  | .keyLoad t tag => Sys2Proof.Machine.execKeyLoad t tag s
  | .vaultDelegate t tag => Sys2Proof.Machine.execVaultDelegate t tag s
  | .vaultWipe t tag => Sys2Proof.Machine.execVaultWipe t tag s
  | .rollbackSet t tag => Sys2Proof.Machine.execRollbackSet t tag s
  | .bootSlot t tag => Sys2Proof.Machine.execBootSlot t tag s
  | .debugUnlock t tag => Sys2Proof.Machine.execDebugUnlock t tag s
  | .fuseProgramDone => Sys2Proof.Machine.execFuseProgramDone s
  | .sysFltRseqWrite m v => Sys2Proof.Machine.execSysFltRseqWrite m v s
  | .railSupervisorTrip ix => Sys2Proof.Machine.execRailSupervisorTrip ix s
  | .railSupervisorRelease ix => Sys2Proof.Machine.execRailSupervisorRelease ix s
  | .resetPinAssert p => Sys2Proof.Machine.execResetPinAssert p s
  | .resetSourceAssert ix => Sys2Proof.Machine.execResetSourceAssert ix s
  | .resetSourceRelease ix => Sys2Proof.Machine.execResetSourceRelease ix s
  | .rstReleaseWrite m v => Sys2Proof.Machine.execRstReleaseWrite m v s
  | .fuseLoadDone => Sys2Proof.Machine.execFuseLoadDone s
  | .trivetRomBootDone patched => Sys2Proof.Machine.execTrivetRomBootDone patched s
  | .halfPllLock h => Sys2Proof.Machine.execHalfPllLock h s
  | .halfPllLockLoss h => Sys2Proof.Machine.execHalfPllLockLoss h s
  | .halfRefFail h => Sys2Proof.Machine.execHalfRefFail h s
  | .halfPllHoldEnd h => Sys2Proof.Machine.execHalfPllHoldEnd h s
  | .trvOscCheck dk dp => Sys2Proof.Machine.execTrvOscCheck dk dp s
  | .overTemperatureTrip tj trip => Sys2Proof.Machine.execOverTemperatureTrip tj trip s
  | .xtalGood => Sys2Proof.Machine.execXtalGood s
  | .imageLoadDone h a b image recipes => Sys2Proof.Machine.execImageLoadDone h a b image recipes s
  | .mode6412Write m v => Sys2Proof.Machine.execMode6412Write m v s
  | .tamperEvent cause => Sys2Proof.Machine.execTamperEvent cause s
  | .halfWatchdogExpiry h => Sys2Proof.Machine.execHalfWatchdogExpiry h s
  | .aliveLineToggle => Sys2Proof.Machine.execAliveLineToggle s
  | .transportUp t width speed => Sys2Proof.Machine.execTransportUp t width speed s
  | .cxBusIntegrated c => Sys2Proof.Machine.execCxBusIntegrated c s
  | .sdPrbsLock l errors => Sys2Proof.Machine.execSdPrbsLock l errors s
  | .pwrTempPeakReset m v => Sys2Proof.Machine.execPwrTempPeakReset m v s
  | .neInlLatClear m ix v => Sys2Proof.Machine.execNeInlLatClear m ix v s
  | .vddioClassSet bank mv => Sys2Proof.Machine.execVddioClassSet bank mv s
  | .pcieBusMasterEnable t on => Sys2Proof.Machine.execPcieBusMasterEnable t on s
  | .msixVectorUnmask t v addr data mask => Sys2Proof.Machine.execMsixVectorUnmask t v addr data mask s
  | .recipeVerifyDone ix => Sys2Proof.Machine.execRecipeVerifyDone ix s

end Sys2Proof.Machine
end

