-- ==== Sys2Proof/Machine/Tick.lean ====
section
/-! DEFINITION. What a step does when no command waits: one tick of 2 ns passes (spec/08, R403, R404). -/

namespace Sys2Proof.Machine
open Sys2Proof

/-- A tick: time goes on, and the Gauge's raw counter with it while it runs. -/
def State.tick (s : State) : State := { s with now := s.now + 1, raw := if s.rawOn then rawMod (s.raw + 1) else s.raw }

end Sys2Proof.Machine
end

