-- ==== Sys2Proof/Safety.lean ====
section
/-! DEFINITION. What statements say of safe running, in the terms of spec/02: who holds charge, and what a command leaves as
it is. -/

namespace Sys2Proof.Machine
open Sys2Proof

/-- At most one half is in CHARGE (R73, R74). -/
def State.oneCharge (s : State) : Bool := !(s.chgOf .k == .charge && s.chgOf .p == .charge)

/-- The memory of a state is in its canonical form. -/
def State.memOk (s : State) : Bool := Memory.wf s.mem

/-- The registers of a state are in their canonical form: no register is listed at its reset value. -/
def State.regsOk (s : State) : Bool := storeWf regDefault s.regs

/-- Memory and registers are in their canonical form, and at most one half is in CHARGE. -/
def State.sound (s : State) : Bool := s.memOk && s.regsOk && s.oneCharge

/-- A state that keeps a queue and a time, and is sound. -/
def State.kept (q : List Instr) (n : Nat) (s : State) : Prop := s.pending = q ∧ s.now = n ∧ s.sound = true

/-! ### Frames -/

/-- Every register but those listed reads the same. -/
def State.regsBut (s t : State) (as : List Nat) : Prop := ∀ a, a ∉ as → t.rd a = s.rd a

/-- Every register but those listed reads the same, and nothing but registers has changed. -/
def State.onlyRegs (s t : State) (as : List Nat) : Prop := s.regsBut t as ∧ { t with regs := s.regs } = s

/-- Every byte of memory but the n from address a on reads the same. -/
def State.bytesBut (s t : State) (a n : Nat) : Prop := ∀ k, k < a ∨ a + n ≤ k → t.mb k = s.mb k

/-- The same of the n bytes from each of two addresses on. -/
def State.bytesBut2 (s t : State) (a b n : Nat) : Prop :=
  ∀ k, (k < a ∨ a + n ≤ k) ∧ (k < b ∨ b + n ≤ k) → t.mb k = s.mb k

/-- Every Needle engine, CX controller, Hook engine, port, hart or time domain but one is as it was. -/
def State.engsBut (s t : State) (i : Nat) : Prop := ∀ k, k ≠ i → t.eng k = s.eng k
def State.cansBut (s t : State) (c : Nat) : Prop := ∀ k, k ≠ c → t.can k = s.can k
def State.hooksBut (s t : State) (e : Nat) : Prop := ∀ k, k ≠ e → t.hook k = s.hook k
def State.portsBut (s t : State) (p : Nat) : Prop := ∀ k, k ≠ p → t.port k = s.port k
def State.hartsBut (s t : State) (h : Nat) : Prop := ∀ k, k ≠ h → t.hart k = s.hart k
def State.domsBut (s t : State) (d : Nat) : Prop := ∀ k, k ≠ d → t.dom k = s.dom k

/-! ### Register accesses (spec/00, spec/01) -/

/-- A 32-bit access of master m reaches the register at a: the master is present, nothing on the way refuses it, and a register
with TRV fields is written by the Trivet (R9, R35, R44 to R48, R60, R810). -/
abbrev State.reaches (s : State) (m a : Nat) (write : Bool) : Prop :=
  s.presented m a = true ∧ s.regErr m a 4 write = none ∧ (write = true → m = trivet ∨ (regDesc? a).any hasTrv = false)

/-- The registers whose write does more than their fields' access types say, by the address of their first instance: each has
an effect of its own in its chapter, or stores another value than the one written. -/
def ownEffect : List Nat :=
  [A.SYS_MODE, A.RST_RELEASE, A.PWR_TEMP, A.TRV_CFG, A.TEN_APP 0, A.TEN_IA_CTRL, A.COL_CTRL, A.COL_STREAM 0 0,
   A.COL_SUB_CTRL 0, A.COL_SUB_RP_LO 0, A.COL_SUB_RP_HI 0, A.COL_SUB_STAT 0, A.COL_SUB_DATA 0 0, A.MAC_CTRL 0,
   A.MAC_PER_CTRL 0, A.RG_CTRL 0, A.TL_CTRL 0, A.SD_CTRL 0, A.SW_BUF_FREE 0, A.SW_TWIN 0, A.SW_DUP_AGE 0,
   A.SWP_CFG 0 0, A.SW_SIEVE_PT 0 0 0, A.SWG_CTRL 0 0] ++
  [A.SWG_GATES 0 0 0 0, A.SWG_INTERVAL 0 0 0 0, A.CX_CTRL 0, A.CX_NBT 0, A.CX_DBT 0, A.CX_XBT 0, A.CX_TDC 0,
   A.CX_PWM 0, A.DTT_CTRL 0, A.DTT_ROLE 0, A.DTT_LIMITS 0, A.DTT_SYNC_OFS 0, A.DTT_COL_MAP 0 0, A.HK_CTRL 0,
   A.HK_CLKDIV 0, A.HK_WAITTO 0, A.HK_PC 0, A.HK_LC 0, A.HK_PINS 0, A.HK_PROG 0 0, A.HK_TXF 0, A.HOOK_PIN_CFG 0 0,
   A.NE_CTRL 0, A.NE_DOORBELL 0] ++
  [A.NE_BIND 0, A.NE_INL_CTRL 0, A.NE_INL_LAT 0, A.NE_LIMITS 0, A.NE_EVT_MASK 0, A.BANK_OWNER 0 0, A.DRAM_CTRL 0,
   A.DRAM_CFG 0, A.DRAM_MIRROR 0, A.DRAM_PATROL 0, A.KCP_DB 0, A.HI_CLR 0, A.QH_HI_CLR 0, A.LB_HI_CLR 0, A.QH_CFG 0,
   A.GAUGE_REF, A.GAUGE_DOM_CFG 0, A.GAUGE_DOM_CTRL 0, A.GAUGE_DOM_CONV_RAW_LO 0, A.GAUGE_DOM_CONV_RAW_HI 0,
   A.GAUGE_CMP_CTRL 0, A.GAUGE_PPS_CTRL 0, A.GAUGE_TSC_CTRL 0, A.GAUGE_TSC_ADJ 0, A.MBX_MSG 0 0] ++
  [A.MBX_DB 0, A.MBX_STATUS 0, A.MBX_BIND 0, A.MBX_BIND_LOCK, A.MBX_LOCK 0, A.WAKE_PCTRL, A.WAKE_KA, A.WAKE_NODATA_T,
   A.WAKE_VALID_T, A.WAKE_INSOMNIA_T, A.WAKE_PIN_CFG, A.WAKE_FALSE_CLR, A.WAKE_INS_CLR, A.WAKE_SEG_CTRL 0,
   A.WAKE_SEG_MEMB 0, A.LARDER_CTRL, A.GAUGE_DOM_STG_AT_LO 0, A.GAUGE_DOM_STG_AT_HI 0, A.GAUGE_DOM_STG_RATE_LO 0,
   A.GAUGE_DOM_STG_RATE_HI 0, A.GAUGE_DOM_STG_SEC_LO 0, A.GAUGE_DOM_STG_SEC_HI 0, A.GAUGE_DOM_STG_NS 0,
   A.GAUGE_DOM_STG_FRAC 0]

/-- The registers whose read does more than return a value (R415, R555, R595). -/
def readEffect : List Nat := [A.GAUGE_RAW_LO, A.GAUGE_DOM_NS 0, A.HK_RXF 0, A.MBX_LOCK 0]

/-- The address lies in a register region (Table 1.7). -/
abbrev regRegion (a : Nat) : Prop := regionOf a = .shared ∨ regionOf a = .block .k ∨ regionOf a = .block .p

/-! ### Needle engines (spec/04) -/

/-- The inline or the event context c of engine i executes the word `op`, `w` in this cycle: it stands at its action index, the
context does not wait, the limit of words is not reached, and the word is one its path may use (R170, R182, R224, R239). -/
abbrev State.actsWord (s : State) (i : Nat) (inl : Bool) (op : Nat) (w : ActWord) (r : Recipe) (c : ActCtx) : Prop :=
  s.actCtx i inl = some (r, c) ∧ c.wait = none ∧ c.pc < r.nact ∧ s.wordAt i r c.pc = actBits op w ∧ w.ecc = .clean ∧
  (inl = true ∨ c.words < s.fld (A.NE_LIMITS i) F.NE_LIMITS.ACT_LIMIT) ∧ wordAllowed inl op w = true

/-! ### Hook engines (spec/11) -/

/-- Engine e acts in this cycle on an instruction of opcode `op`: its half runs, it is not STOPPED, its cycle is due
(R533, R540, R549). -/
abbrev State.hookActs (s : State) (e op : Nat) : Prop :=
  s.running (hkHalf e) = true ∧ s.hkState e ≠ hkStopped ∧ (s.hook e).due ≤ s.now ∧ hkOp (s.hkWord e) = op

/-- The instruction of engine e has acted: the engine is RUNNING, HK_PC names the instruction, the one at `pc` modulo 64
follows, and it is due after one cycle and DELAY more (R532, R533, R543). -/
def State.hookWent (s t : State) (e pc : Nat) : Prop :=
  let n := 1 + hkDelay (s.hkWord e)
  let int := max 1 (s.fld (A.HK_CLKDIV e) F.HK_CLKDIV.DIV_INT)
  let frac := if int = 65535 then 0 else s.fld (A.HK_CLKDIV e) F.HK_CLKDIV.DIV_FRAC
  let acc := (s.hook e).div + n * frac
  t.hkState e = hkRunning ∧ t.fld (A.HK_STATUS e) F.HK_STATUS.STALL = stallNone ∧
  t.fld (A.HK_PC e) F.HK_PC.PC = s.hkPc e ∧ (t.hook e).next = some (pc % 64) ∧
  (t.hook e).due = (s.hook e).due + (n * int + acc / 256) * hookClock ∧ (t.hook e).div = acc % 256

/-- Of the Hook engines only engine e has changed, of the registers only those listed, and nothing else. -/
def State.hookOnly (s t : State) (e : Nat) (as : List Nat) : Prop :=
  s.regsBut t as ∧ s.hooksBut t e ∧ { t with regs := s.regs, hk := s.hk } = s

end Sys2Proof.Machine
end

