-- ==== Sys2Proof/WellFormed.lean ====
section
/-! DEFINITION. Well-formed commands: the bounds that operand types do not express. The meanings are total and need none of
them; they say which operands a sender can give. -/

namespace Sys2Proof

/-- A CAN frame's fields fit their widths, and its data the format (R444, R447). -/
def CxFrame.ok (f : CxFrame) : Bool :=
  let most := match f.fmt with
    | .cc => 8
    | .fd => 64
    | .xl => 2048
  decide (f.ident < (if f.ide then 2 ^ 29 else 2 ^ 11)) && decide (f.data.length ≤ most) && decide (f.sdt < 256) &&
  decide (f.vcid < 256) && decide (f.af < 2 ^ 32)

/-- A bank access is of 1 to 8 bytes, by a master ID, at a 40-bit address; a write carries its bytes. -/
def SpadOp.ok (o : SpadOp) : Bool :=
  decide (o.master < 256) && decide (o.addr < 2 ^ 40) && decide (1 ≤ o.len ∧ o.len ≤ 8) &&
  (!o.write || o.data.length == o.len)

/-- A register access moves 1 to 64 bytes; a CSR has a number of its own; an access to the Trivet RAM reads or writes. -/
def RegOp.ok : RegOp → Bool
  | .read _ _ n _ => decide (1 ≤ n ∧ n ≤ 64)
  | .write _ _ data _ => decide (1 ≤ data.length ∧ data.length ≤ 64)
  | .csrRead _ _ => true
  | .csrWrite _ _ _ => true
  | .trvRam _ n data => decide (n ≤ 64) && decide (data.length ≤ 64) && (data == [] || n == 0)

/-- The fields of a ring descriptor fit their widths (Table 14.8). -/
def RingDesc.ok (d : RingDesc) : Bool :=
  decide (d.cmdAddr < 2 ^ 64) && decide (d.cmdLen < 2 ^ 32) && decide (d.rspMax < 2 ^ 32) && decide (d.rspAddr < 2 ^ 64) &&
  decide (d.rspLen < 2 ^ 32)

/-- An optional operand is absent or meets a check. -/
def optOk {α : Type} (p : α → Bool) : Option α → Bool
  | none => true
  | some x => p x

/-- An access reads at least one byte or carries the bytes that it writes. -/
def accessOk (len : Nat) (write : Bool) (data : List Byte) : Bool := if write then data != [] else decide (1 ≤ len)

/-- Bytes that are pairwise distinct. -/
def distinctOf : List Byte → Bool
  | [] => true
  | b :: bs => !bs.contains b && distinctOf bs

/-- A command is well-formed. -/
def Instr.wf : Instr → Bool
  | .registerWrite o => o.ok
  | .accessErrorTimeout _ _ _ => true
  | .dramAccess _ _ len write data _ _ => accessOk len write data && decide (data.length ≤ 64)
  | .heartbeatLaunch => true
  | .heartbeatReceive _ _ _ _ _ _ _ => true
  | .heartbeatTimerExpiry _ => true
  | .castOnWindowClose => true
  | .grantReadbackFault _ => true
  | .handoverInstant => true
  | .flitReceive _ _ _ => true
  | .hubRelay _ _ _ => true
  | .iaTrigger _ => true
  | .iaCommitSend => true
  | .iaCommitReceive _ => true
  | .iaCommitTimeout _ => true
  | .iaRerunStart => true
  | .colSubmit _ _ _ => true
  | .colSubmitQueueSpace _ => true
  | .colReleasePoint _ _ => true
  | .colWaitExpiry _ _ => true
  | .colReleasePathOpen => true
  | .colSelftestEnd _ _ _ => true
  | .colSelftestPeriodic => true
  | .isoServiceWrite _ _ => true
  | .aliveLineTimeout => true
  | .trivetLockstepError => true
  | .trivetWatchdogExpiry => true
  | .vddTrvFail => true
  | .resyncPassDone _ => true
  | .twinHeartbeatSend => true
  | .twinHeartbeatReceive _ _ _ _ => true
  | .twinHeartbeatTimeout _ => true
  | .twinPeerLow => true
  | .tenAppWrite _ _ _ => true
  | .iaCtrlWrite _ _ => true
  | .neRunStart _ _ _ => true
  | .neRunStop _ _ _ => true
  | .neStopComplete _ => true
  | .neHardStop _ => true
  | .recipeValidated _ => true
  | .sp9Dispatch _ => true
  | .eventDispatch _ _ => true
  | .eventAged _ => true
  | .actWaitEnd _ _ => true
  | .neTimerExpiry _ _ => true
  | .dmaTransferDone _ _ _ => true
  | .neDoorbellWrite _ _ _ => true
  | .neBindWrite _ _ _ => true
  | .neInlCtrlWrite _ _ _ => true
  | .inlineFrameStart _ _ bytes _ stamp _ _ _ => decide (14 ≤ bytes.length) && decide (stamp < 2 ^ 64)
  | .inlineStoppedFrame _ _ bytes _ => decide (14 ≤ bytes.length)
  | .inlineInsertSend _ _ => true
  | .recEnd _ _ _ rival => optOk SpadOp.ok rival
  | .recNop _ _ _ => true
  | .recJmp _ _ _ => true
  | .recBr _ _ _ => true
  | .recCall _ _ _ => true
  | .recRet _ _ _ => true
  | .recSetst _ _ _ => true
  | .recDiscard _ _ _ => true
  | .recLdi _ _ _ => true
  | .recMov _ _ _ => true
  | .recLd _ _ _ => true
  | .recSt _ _ _ rival => optOk SpadOp.ok rival
  | .recExt _ _ _ => true
  | .recIns _ _ _ => true
  | .recAdd _ _ _ => true
  | .recSub _ _ _ => true
  | .recAnd _ _ _ => true
  | .recOr _ _ _ => true
  | .recXor _ _ _ => true
  | .recShl _ _ _ => true
  | .recShr _ _ _ => true
  | .recSar _ _ _ => true
  | .recFset _ _ _ rival => optOk SpadOp.ok rival
  | .recFclr _ _ _ rival => optOk SpadOp.ok rival
  | .recFld _ _ _ => true
  | .recTplcpy _ _ _ => true
  | .recBlen _ _ _ => true
  | .recCpyin _ _ _ => true
  | .recCrc _ _ _ => true
  | .recTxeth _ _ _ => true
  | .recTxcan _ _ _ => true
  | .recTxstitch _ _ _ => true
  | .recTxcol _ _ _ => true
  | .recTxinl _ _ _ => true
  | .recDmawr _ _ _ => true
  | .recDmard _ _ _ => true
  | .recDmaent _ _ _ => true
  | .recTstart _ _ _ => true
  | .recTstop _ _ _ => true
  | .recGtime _ _ _ _ => true
  | .recHkput _ _ _ => true
  | .recHkget _ _ _ => true
  | .recMbpost _ _ _ => true
  | .recBell _ _ _ => true
  | .recLookup _ _ _ => true
  | .recDecode _ _ _ => true
  | .recInlskip _ _ _ => true
  | .recInldrop _ _ _ => true
  | .macFrameReceive _ bytes _ _ _ capture => decide (14 ≤ bytes.length) && decide (capture < 2 ^ 67)
  | .pauseExpiry _ => true
  | .macFrameTransmit _ capture => decide (capture < 2 ^ 67)
  | .pauseFrameSend _ => true
  | .pauseRefresh _ => true
  | .linkChange _ _ => true
  | .periodBoundary _ => true
  | .macPerCtrlWrite _ _ _ => true
  | .tlCtrlWrite _ _ _ => true
  | .tlRestartAn _ _ _ => true
  | .tlAnComplete _ _ _ _ _ _ _ => true
  | .tlTrainingComplete _ => true
  | .tlAnRetry _ => true
  | .tlLossOfLock _ => true
  | .tlSqiZeroTimeout _ => true
  | .tlLinkFailWaitEnd _ => true
  | .tlShortDetect _ => true
  | .sdCtrlWrite _ _ _ => true
  | .sdPllLock _ => true
  | .sdCdrLock _ => true
  | .sdSyncAcquired _ => true
  | .sdAnComplete _ _ _ _ => true
  | .sdSyncLoss _ => true
  | .sgmiiSpeedChange _ _ => true
  | .rgCtrlWrite _ _ _ => true
  | .rgInbandStatus _ _ _ _ => true
  | .rgSpeedChangeRestart _ => true
  | .planeFrameIngress _ _ => true
  | .twinWindowClose _ => true
  | .dupEntryAge _ => true
  | .schedulingRound _ => true
  | .meterRefill _ => true
  | .sieveAvgUpdate _ => true
  | .gateEntryChange _ _ => true
  | .gateChangeRequest _ _ _ _ => true
  | .gateBankSwap _ _ => true
  | .swgEnWrite _ _ _ _ => true
  | .swBufLowReset _ _ _ => true
  | .refFail _ => true
  | .refRecover _ _ => true
  | .gaugeRefSelWrite _ _ => true
  | .gaugePllLock => true
  | .gaugeRawRead _ => true
  | .gaugeDomRead _ _ => true
  | .gaugeConvert _ _ _ => true
  | .gaugeCommitRequest _ _ _ => true
  | .gaugeCommitCancel _ _ _ => true
  | .gaugeCommit _ => true
  | .domCfgWrite _ _ _ => true
  | .holdoverTimeout _ => true
  | .gaugeCompareEvent _ => true
  | .ppsPulseEnd _ => true
  | .gaugeRateFault => true
  | .cxFrameReceive _ f stamp _ => f.ok && decide (stamp < 2 ^ 64)
  | .cxTxAttempt _ _ _ => true
  | .cxBusoffRecoveryDone _ => true
  | .cxProtocolException _ => true
  | .cxPxeReintegrate _ => true
  | .cxCtrlWrite _ _ _ => true
  | .dttEnable _ _ _ => true
  | .dttDisable _ _ _ => true
  | .dttListenTimeout _ => true
  | .dttStartRefSend _ _ => true
  | .dttStartRefDone _ _ => true
  | .dttReferenceReceive _ _ stamp data => decide (stamp < 2 ^ 64) && decide (data.length ≤ 2048)
  | .dttRankedRefSend _ _ _ => true
  | .dttRowEnd _ => true
  | .dttActionPoint _ _ _ _ => true
  | .dttMinislotBoundary _ _ _ _ _ => true
  | .powerRequest _ _ => true
  | .autoSleepEntry => true
  | .deviceWake => true
  | .segBindOffStart _ => true
  | .segAsleep _ => true
  | .segAwake _ => true
  | .keepaliveReceive _ bytes _ => decide (14 ≤ bytes.length)
  | .canKeepalive _ _ _ _ => true
  | .wakeFrameReceive _ bytes _ => decide (14 ≤ bytes.length)
  | .keepaliveSend _ => true
  | .segHoldWrite _ _ _ => true
  | .segMembWrite _ _ _ => true
  | .canInhWake _ _ _ => true
  | .cxWakePulseEnd _ => true
  | .userPathWake _ _ _ => true
  | .nodataTimeout _ => true
  | .wakeValidTimeout _ _ => true
  | .insomniaEntryWrite _ => true
  | .insomniaUpdate _ => true
  | .wakeFalseClrWrite _ _ => true
  | .wakeInsClrWrite _ _ => true
  | .hkSet _ => true
  | .hkLoop _ => true
  | .hkJmp _ _ => true
  | .hkWait _ _ => true
  | .hkOut _ => true
  | .hkIn _ _ => true
  | .hkPull _ => true
  | .hkPush _ => true
  | .hkStallEnd _ _ => true
  | .hkWaitTimeout _ _ => true
  | .hkRunStart _ _ _ => true
  | .hkRunStop _ _ _ => true
  | .hkFlush _ _ _ => true
  | .hkProgWrite _ _ _ _ => true
  | .hkTxfWrite _ _ _ => true
  | .hkRxfRead _ _ => true
  | .hookPinCfgWrite _ _ _ _ => true
  | .scratchpadAccess pa pb => optOk SpadOp.ok pa && optOk SpadOp.ok pb
  | .sweepBlock _ _ _ => true
  | .sweepForce _ _ => true
  | .spadZeroingDone _ => true
  | .bankOwnerWrite _ _ _ => true
  | .vaultAccess _ _ len write data => accessOk len write data && decide (data.length ≤ 8)
  | .vaultWipeDone => true
  | .mbxMsgWrite _ _ _ _ => true
  | .mbxRing _ _ _ => true
  | .mbxAck _ _ => true
  | .mbxBindWrite _ _ _ => true
  | .mbxBindLockSet _ => true
  | .mbxLockRead _ readers => distinctOf readers
  | .mbxLockWrite _ _ => true
  | .mtimecmpWrite _ _ => true
  | .machineTimerInterrupt _ => true
  | .mirqClr1Write _ _ _ => true
  | .hartAmoScratchpad _ _ _ _ _ _ b1 b2 => optOk SpadOp.ok b1 && optOk SpadOp.ok b2
  | .lockstepError _ => true
  | .dramTrainingDone _ _ => true
  | .dramClearDone _ => true
  | .patrolBlock _ _ _ => true
  | .resilverDone => true
  | .larderSnapshotTrigger => true
  | .larderSnapshotDone _ => true
  | .larderEventWrite _ => true
  | .freezePin => true
  | .larderEnable _ _ => true
  | .kcpPacketArrival _ _ _ => true
  | .kcpCommandStart _ _ => true
  | .kcpCommandTimeout _ _ => true
  | .kcpSelfEffectStart => true
  | .transportDown _ _ => true
  | .sessionIdleTimeout _ _ => true
  | .authLockEnd _ => true
  | .kcpDbWrite _ _ descs _ => descs.all fun d => d.2.ok
  | .kcpSlotReply _ _ => true
  | .pcieApertureAccess _ _ _ be data _ => decide (1 ≤ be.length) && be.length == data.length
  | .msixVectorActive _ _ => true
  | .hiClrWrite _ _ _ _ => true
  | .rdsr _ _ _ => true
  | .wrcmd _ _ _ => true
  | .rdrsp _ _ _ => true
  | .rdmem _ _ _ _ late _ => late.all fun k => decide (k < 65536)
  | .wrmem _ _ _ _ _ => true
  | .clrsr _ _ => true
  | .lbCmd _ => true
  | .lbRsp => true
  | .lbClr => true
  | .lbWindowAccess _ _ _ _ => true
  | .kcpDatagramReceive _ => true
  | .kcpArpReply _ => true
  | .ping _ _ => true
  | .info _ _ => true
  | .regRead _ _ _ => true
  | .regWrite _ _ _ => true
  | .memRead _ _ _ => true
  | .memWrite _ _ _ => true
  | .reset _ _ => true
  | .kcpResetRelease _ _ _ => true
  | .sessionOpen _ => true
  | .sessionAuth _ _ => true
  | .sessionProve _ _ => true
  | .sessionClose _ _ => true
  | .sessionDrop _ _ => true
  | .faultRead _ _ => true
  | .faultClear _ _ _ => true
  | .imgBegin _ _ => true
  | .imgData _ _ => true
  | .imgCommit _ _ => true
  | .imgAbort _ _ => true
  | .neLoad _ _ => true
  | .neRun _ _ => true
  | .neReset _ _ => true
  | .neInfo _ _ => true
  | .profileCfg _ _ => true
  | .portCfg _ _ => true
  | .portFilter _ _ => true
  | .portStats _ _ => true
  | .portPeriod _ _ => true
  | .tlCfg _ _ => true
  | .sdCfg _ _ => true
  | .rgCfg _ _ => true
  | .cxCfg _ _ => true
  | .cxFilter _ _ => true
  | .fwdInsert _ _ => true
  | .fwdUpdate _ _ => true
  | .fwdDelete _ _ => true
  | .fwdRead _ _ => true
  | .qosCfg _ _ => true
  | .gateLoad _ _ => true
  | .redCfg _ _ => true
  | .refSel _ _ => true
  | .domCfg _ _ => true
  | .domCommit _ _ => true
  | .cmpCfg _ _ => true
  | .ppsCfg _ _ => true
  | .ptpCfg _ _ => true
  | .ptpStatus _ _ => true
  | .tscCfg _ _ => true
  | .patternLoad _ _ => true
  | .dttCfg _ _ => true
  | .dttRun _ _ => true
  | .dttInfo _ _ => true
  | .dttColMap _ _ => true
  | .pstateReq _ _ => true
  | .segCfg _ _ => true
  | .segHold _ _ => true
  | .wakeEntry _ _ => true
  | .wakeSrc _ _ => true
  | .wakeGlobal _ _ => true
  | .insomniaRead _ _ => true
  | .insomniaClr _ _ => true
  | .hkLoad _ _ => true
  | .hkCfg _ _ => true
  | .hkRun _ _ => true
  | .hkPin _ _ => true
  | .spadWin _ _ => true
  | .mbxBind _ _ => true
  | .memTest _ _ _ => true
  | .bankOwner _ _ => true
  | .larderCfg _ _ => true
  | .larderFreeze _ _ => true
  | .larderRelease _ _ => true
  | .larderPages _ _ _ => true
  | .larderEvents _ _ _ => true
  | .chgStatus _ _ => true
  | .service _ _ => true
  | .recast _ _ => true
  | .handover _ _ => true
  | .iaCfg _ _ => true
  | .rsCfg _ _ => true
  | .colCfg _ _ => true
  | .trvCfg _ _ => true
  | .twinCfg _ _ => true
  | .digests _ _ => true
  | .updateAdmit _ _ => true
  | .lcGet _ _ => true
  | .lcSet _ _ => true
  | .keyLoad _ _ => true
  | .vaultDelegate _ _ => true
  | .vaultWipe _ _ => true
  | .rollbackSet _ _ => true
  | .bootSlot _ _ => true
  | .debugUnlock _ _ => true
  | .fuseProgramDone => true
  | .sysFltRseqWrite _ _ => true
  | .railSupervisorTrip _ => true
  | .railSupervisorRelease _ => true
  | .resetPinAssert _ => true
  | .resetSourceAssert _ => true
  | .resetSourceRelease _ => true
  | .rstReleaseWrite _ _ => true
  | .fuseLoadDone => true
  | .trivetRomBootDone _ => true
  | .halfPllLock _ => true
  | .halfPllLockLoss _ => true
  | .halfRefFail _ => true
  | .halfPllHoldEnd _ => true
  | .trvOscCheck _ _ => true
  | .overTemperatureTrip _ _ => true
  | .xtalGood => true
  | .imageLoadDone _ _ _ _ _ => true
  | .mode6412Write _ _ => true
  | .tamperEvent _ => true
  | .halfWatchdogExpiry _ => true
  | .aliveLineToggle => true
  | .transportUp _ _ _ => true
  | .cxBusIntegrated _ => true
  | .sdPrbsLock _ _ => true
  | .pwrTempPeakReset _ _ => true
  | .neInlLatClear _ _ _ => true
  | .vddioClassSet _ mv => decide (mv ≤ 4000)
  | .pcieBusMasterEnable _ _ => true
  | .msixVectorUnmask _ _ _ _ _ => true
  | .recipeVerifyDone _ => true

end Sys2Proof
end

