-- ==== Sys2Proof/Certificates/Slice0/Obligations.lean ====
section
/-! DEFINITION. The statements for the provers: what the commands of spec/ do, what a step does, and what every command keeps. -/

open Sys2Proof Sys2Proof.Machine

/-- SET, LOOP and JMP (Table 11.3, R536, R543, R544). -/
def Obligations.HookSetLoopJmpEffects : Prop :=
  ∀ (s : State) (e : Fin 16) (pins : BitVec 24),
    (s.hookActs e 0 →
      let a := hkArg (s.hkWord e)
      let at_ := fun q => s.hkPin e 0 ≤ q ∧ q < s.hkPin e 0 + min 6 (s.hkCount e) ∧ s.hkOwner e q = true
      ∃ t, exec (.hkSet e) s = .next t ∧ s.hookWent t e (s.hkPc e + 1) ∧
        t.rdn (A.HK_LC e) = (if a < 64 then a else s.rdn (A.HK_LC e)) ∧
        (∀ q, 128 ≤ a ∧ a < 192 ∧ at_ q → bitAt (t.hook e).out q = bitAt a (q - s.hkPin e 0)) ∧
        (∀ q, ¬ (128 ≤ a ∧ a < 192 ∧ at_ q) → bitAt (t.hook e).out q = bitAt (s.hook e).out q) ∧
        (∀ q, 256 ≤ a ∧ a < 320 ∧ at_ q → bitAt (t.hook e).oe q = bitAt a (q - s.hkPin e 0)) ∧
        (∀ q, ¬ (256 ≤ a ∧ a < 320 ∧ at_ q) → bitAt (t.hook e).oe q = bitAt (s.hook e).oe q) ∧
        (t.hook e).tx = (s.hook e).tx ∧ (t.hook e).rx = (s.hook e).rx ∧
        s.hookOnly t e [A.HK_PC e, A.HK_STATUS e, A.HK_LC e]) ∧
    (s.hookActs e 1 →
      let a := hkArg (s.hkWord e)
      let goes := a < 64 ∧ s.rdn (A.HK_LC e) ≠ 0
      ∃ t, exec (.hkLoop e) s = .next t ∧ s.hookWent t e (if goes then a else s.hkPc e + 1) ∧
        t.rdn (A.HK_LC e) = (if goes then s.rdn (A.HK_LC e) - 1 else s.rdn (A.HK_LC e)) ∧
        (t.hook e).out = (s.hook e).out ∧ (t.hook e).oe = (s.hook e).oe ∧
        (t.hook e).tx = (s.hook e).tx ∧ (t.hook e).rx = (s.hook e).rx ∧
        s.hookOnly t e [A.HK_PC e, A.HK_STATUS e, A.HK_LC e]) ∧
    (s.hookActs e 2 →
      let u := s.samplePins e pins
      let a := hkArg (s.hkWord e)
      ∃ t, exec (.hkJmp e pins) s = .next t ∧
        s.hookWent t e (if u.hkCond e (a / 64) then a % 64 else s.hkPc e + 1) ∧
        t.rdn (A.HOOK_PIN_IN (e / 8)) = pins.toNat ∧
        (t.hook e).out = (s.hook e).out ∧ (t.hook e).oe = (s.hook e).oe ∧
        (t.hook e).tx = (s.hook e).tx ∧ (t.hook e).rx = (s.hook e).rx ∧
        s.hookOnly t e [A.HK_PC e, A.HK_STATUS e, A.HOOK_PIN_IN (e / 8)])

/-- WAIT, OUT and IN (Table 11.3, R541, R542, R544 to R546). -/
def Obligations.HookShiftEffects : Prop :=
  ∀ (s : State) (e : Fin 16) (pins : BitVec 24),
    (s.hookActs e 3 →
      let u := s.samplePins e pins
      let a := hkArg (s.hkWord e)
      let free := waitReserved a = true ∨ u.waitTrue e a = true
      let ends := ¬ free ∧ bitAt a 8 = true ∧ max 1 (s.fld (A.HK_WAITTO e) F.HK_WAITTO.COUNT) ≤ (s.hook e).waited
      ∃ t, exec (.hkWait e pins) s = .next t ∧
        (free → s.hookWent t e (s.hkPc e + 1) ∧ t.rd (A.HK_WAITTO_CNT e) = s.rd (A.HK_WAITTO_CNT e)) ∧
        (ends → s.hookWent t e (s.fld (A.HK_WAITTO e) F.HK_WAITTO.TARGET) ∧
          t.fld (A.HK_STATUS e) F.HK_STATUS.WAIT_TO = 1 ∧ t.rd (A.HK_WAITTO_CNT e) = satSucc (s.rd (A.HK_WAITTO_CNT e))) ∧
        (¬ free ∧ ¬ ends → t.hkState e = hkStalled ∧ t.fld (A.HK_STATUS e) F.HK_STATUS.STALL = stallWait ∧
          t.hkPc e = s.hkPc e ∧ (t.hook e).waited = (s.hook e).waited + 1 ∧ (s.hook e).due < (t.hook e).due) ∧
        (t.hook e).out = (s.hook e).out ∧ (t.hook e).oe = (s.hook e).oe ∧
        (t.hook e).tx = (s.hook e).tx ∧ (t.hook e).rx = (s.hook e).rx ∧
        s.hookOnly t e [A.HK_PC e, A.HK_STATUS e, A.HK_WAITTO_CNT e, A.HOOK_PIN_IN (e / 8)]) ∧
    (s.hookActs e 4 →
      let a := hkArg (s.hkWord e)
      let ok := bitAt a 5 = false ∧ a / 64 ≤ 3
      let c := hkCountOf a
      let left := s.flag (A.HK_CTRL e) F.HK_CTRL.OSR_LEFT
      ∃ t, exec (.hkOut e) s = .next t ∧ s.hookWent t e (s.hkPc e + 1) ∧
        (ok → t.osr e = (if left then s.osr e * 2 ^ c % 2 ^ 32 else s.osr e / 2 ^ c) ∧ t.osrCnt e = min 32 (s.osrCnt e + c) ∧
          (a / 64 = 3 → t.rdn (A.HK_LC e) = (if left then s.osr e / 2 ^ (32 - c) else s.osr e % 2 ^ c) % 65536)) ∧
        (¬ ok → t.osr e = s.osr e ∧ t.osrCnt e = s.osrCnt e) ∧
        (¬ (ok ∧ a / 64 = 3) → t.rdn (A.HK_LC e) = s.rdn (A.HK_LC e)) ∧
        (¬ (ok ∧ a / 64 = 1) → (t.hook e).out = (s.hook e).out) ∧ (¬ (ok ∧ a / 64 = 2) → (t.hook e).oe = (s.hook e).oe) ∧
        (t.hook e).tx = (s.hook e).tx ∧ (t.hook e).rx = (s.hook e).rx ∧ t.isrCnt e = s.isrCnt e ∧
        s.hookOnly t e [A.HK_PC e, A.HK_STATUS e, A.HK_OSR e, A.HK_SCNT e, A.HK_LC e]) ∧
    (s.hookActs e 5 →
      let a := hkArg (s.hkWord e)
      let ok := bitAt a 5 = false ∧ a / 64 ≤ 4
      let c := hkCountOf a
      let left := s.flag (A.HK_CTRL e) F.HK_CTRL.ISR_LEFT
      let field := (s.samplePins e pins).inField e (a / 64) c
      ∃ t, exec (.hkIn e pins) s = .next t ∧ s.hookWent t e (s.hkPc e + 1) ∧
        (ok → t.isr e = (if left then (s.isr e * 2 ^ c + field) % 2 ^ 32 else s.isr e / 2 ^ c + field * 2 ^ (32 - c)) % 2 ^ 32 ∧
          t.isrCnt e = min 32 (s.isrCnt e + c)) ∧
        (¬ ok → t.isr e = s.isr e ∧ t.isrCnt e = s.isrCnt e) ∧
        (t.hook e).out = (s.hook e).out ∧ (t.hook e).oe = (s.hook e).oe ∧
        (t.hook e).tx = (s.hook e).tx ∧ (t.hook e).rx = (s.hook e).rx ∧ t.osrCnt e = s.osrCnt e ∧
        s.hookOnly t e [A.HK_PC e, A.HK_STATUS e, A.HK_ISR e, A.HK_SCNT e, A.HOOK_PIN_IN (e / 8)])
/-- PULL and PUSH (R545, R547), HK_STALL_END and HK_WAIT_TIMEOUT (R545, R546). -/
def Obligations.HookFifoInstructionEffects : Prop :=
  ∀ (s : State) (e : Fin 16) (i : Fin 24) (pins : BitVec 24) (w : Word) (ws : List Word),
    let raised := pendBit s prHook (e % 8) 0
    let fresh := s.hkEngine e = some i.val ∧ s.neState i = neRunning ∧ (s.hook e).clk ≠ s.hkClock ∧
      ((s.eng i).pend.all fun p => p.prio != prHook) = true
    (s.hookActs e 6 ∧ hkArg (s.hkWord e) = 0 ∧ (s.hook e).tx = w :: ws →
      ∃ t, exec (.hkPull e) s = .next t ∧ s.hookWent t e (s.hkPc e + 1) ∧ t.rd (A.HK_OSR e) = w ∧ t.osrCnt e = 0 ∧
        (t.hook e).tx = ws ∧ (t.hook e).rx = (s.hook e).rx ∧ (t.hook e).out = (s.hook e).out ∧ (t.hook e).oe = (s.hook e).oe ∧
        (s.hkEngine e = none → s.hookOnly t e [A.HK_PC e, A.HK_STATUS e, A.HK_OSR e, A.HK_SCNT e, A.HK_FIFO e]) ∧
        (fresh ∧ s.txThr e = some ws.length → (t.eng i).pend = (s.eng i).pend ++ [raised] ∧ s.engsBut t i)) ∧
    (s.hookActs e 6 ∧ hkArg (s.hkWord e) = 0 ∧ (s.hook e).tx = [] →
      ∃ t, exec (.hkPull e) s = .next t ∧ t.fld (A.HK_STATUS e) F.HK_STATUS.UNDERRUN = 1 ∧
        t.rd (A.HK_UNDERRUN_CNT e) = satSucc (s.rd (A.HK_UNDERRUN_CNT e)) ∧
        (if s.flag (A.HK_CTRL e) F.HK_CTRL.NOSTALL then
          s.hookWent t e (s.hkPc e + 1) ∧ t.rd (A.HK_OSR e) = (s.hook e).last ∧ t.osrCnt e = 0
        else t.hkState e = hkStalled ∧ t.fld (A.HK_STATUS e) F.HK_STATUS.STALL = stallPull ∧ t.hkPc e = s.hkPc e ∧
          t.rd (A.HK_OSR e) = s.rd (A.HK_OSR e)) ∧
        (t.hook e).tx = [] ∧ (t.hook e).rx = (s.hook e).rx ∧
        s.hookOnly t e [A.HK_PC e, A.HK_STATUS e, A.HK_OSR e, A.HK_SCNT e, A.HK_UNDERRUN_CNT e]) ∧
    (s.hookActs e 7 ∧ hkArg (s.hkWord e) < 2 ∧ (s.hook e).rx.length < 8 →
      let v := if hkArg (s.hkWord e) = 1 ∧ s.flag (A.HK_CTRL e) F.HK_CTRL.ISR_LEFT = false then s.isr e / 2 ^ (32 - s.isrCnt e) else s.isr e
      ∃ t, exec (.hkPush e) s = .next t ∧ s.hookWent t e (s.hkPc e + 1) ∧ t.isr e = 0 ∧ t.isrCnt e = 0 ∧
        (t.hook e).rx = (s.hook e).rx ++ [BitVec.ofNat 32 v] ∧ (t.hook e).tx = (s.hook e).tx ∧
        (t.hook e).out = (s.hook e).out ∧ (t.hook e).oe = (s.hook e).oe ∧
        (s.hkEngine e = none → s.hookOnly t e [A.HK_PC e, A.HK_STATUS e, A.HK_ISR e, A.HK_SCNT e, A.HK_FIFO e]) ∧
        (fresh ∧ s.rxThr e = some ((s.hook e).rx.length + 1) → (t.eng i).pend = (s.eng i).pend ++ [raised] ∧ s.engsBut t i)) ∧
    (s.hookActs e 7 ∧ hkArg (s.hkWord e) < 2 ∧ 8 ≤ (s.hook e).rx.length →
      ∃ t, exec (.hkPush e) s = .next t ∧ t.fld (A.HK_STATUS e) F.HK_STATUS.OVERRUN = 1 ∧
        t.rd (A.HK_OVERRUN_CNT e) = satSucc (s.rd (A.HK_OVERRUN_CNT e)) ∧
        (if s.flag (A.HK_CTRL e) F.HK_CTRL.NOSTALL then s.hookWent t e (s.hkPc e + 1) ∧ t.isr e = 0 ∧ t.isrCnt e = 0
        else t.hkState e = hkStalled ∧ t.fld (A.HK_STATUS e) F.HK_STATUS.STALL = stallPush ∧ t.hkPc e = s.hkPc e ∧ t.isr e = s.isr e) ∧
        (t.hook e).tx = (s.hook e).tx ∧ (t.hook e).rx = (s.hook e).rx ∧
        s.hookOnly t e [A.HK_PC e, A.HK_STATUS e, A.HK_ISR e, A.HK_SCNT e, A.HK_OVERRUN_CNT e]) ∧
    (s.hookActs e 6 ∧ s.hkState e = hkStalled ∧ hkArg (s.hkWord e) = 0 ∧ (s.hook e).tx = w :: ws →
      ∃ t, exec (.hkStallEnd e pins) s = .next t ∧ s.hookWent t e (s.hkPc e + 1) ∧ t.rd (A.HK_OSR e) = w ∧ (t.hook e).tx = ws) ∧
    (s.hookActs e 7 ∧ s.hkState e = hkStalled ∧ hkArg (s.hkWord e) < 2 ∧ (s.hook e).rx.length < 8 →
      ∃ t, exec (.hkStallEnd e pins) s = .next t ∧ s.hookWent t e (s.hkPc e + 1) ∧ t.isr e = 0 ∧
        (t.hook e).rx.length = (s.hook e).rx.length + 1) ∧
    (s.hookActs e 3 ∧ s.hkState e = hkStalled ∧ (s.samplePins e pins).waitTrue e (hkArg (s.hkWord e)) = true →
      ∃ t, exec (.hkStallEnd e pins) s = .next t ∧ s.hookWent t e (s.hkPc e + 1)) ∧
    (s.hookActs e 3 ∧ s.hkState e = hkStalled ∧ waitReserved (hkArg (s.hkWord e)) = false ∧ bitAt (hkArg (s.hkWord e)) 8 = true ∧
        (s.samplePins e pins).waitTrue e (hkArg (s.hkWord e)) = false ∧
        max 1 (s.fld (A.HK_WAITTO e) F.HK_WAITTO.COUNT) ≤ (s.hook e).waited →
      ∃ t, exec (.hkWaitTimeout e pins) s = .next t ∧ s.hookWent t e (s.fld (A.HK_WAITTO e) F.HK_WAITTO.TARGET) ∧
        t.fld (A.HK_STATUS e) F.HK_STATUS.WAIT_TO = 1 ∧ t.rd (A.HK_WAITTO_CNT e) = satSucc (s.rd (A.HK_WAITTO_CNT e)) ∧
        s.hookOnly t e [A.HK_PC e, A.HK_STATUS e, A.HK_WAITTO_CNT e, A.HOOK_PIN_IN (e / 8)])

/-- HK_CTRL, HK_PROG, HK_TXF, HK_RXF and HOOK_PIN_CFG (R537, R550 to R557). -/
def Obligations.HookControlWrites : Prop :=
  ∀ (s : State) (m : Byte) (h : Half) (e : Fin 16) (q : Fin 24) (w : Fin 64) (v x : Word) (xs : List Word),
    (s.reaches m.toNat (A.HK_CTRL e) true ∧ s.hkIdle e = true ∧ s.hkState e = hkStopped →
      ∃ t, exec (.hkRunStart m e v) s = .next t ∧ t.resp = some (.ok 0) ∧ t.hkState e = hkRunning ∧
        t.flag (A.HK_CTRL e) F.HK_CTRL.RUN = true ∧ t.hkPc e = s.fld (A.HK_PC e) F.HK_PC.PC ∧ (t.hook e).due = s.now ∧
        (fget F.HK_CTRL.FLUSH v = 0 → (t.hook e).tx = (s.hook e).tx ∧ (t.hook e).rx = (s.hook e).rx) ∧
        (t.hook e).out = (s.hook e).out ∧ (t.hook e).oe = (s.hook e).oe ∧
        (fget F.HK_CTRL.FLUSH v = 0 → s.regsBut t [A.HK_CTRL e, A.HK_STATUS e] ∧ s.hooksBut t e ∧
          { t with regs := s.regs, hk := s.hk, resp := s.resp } = s)) ∧
    (s.reaches m.toNat (A.HK_CTRL e) true ∧ s.hkIdle e = false ∧ s.hkState e ≠ hkStopped →
      ∃ t, exec (.hkRunStop m e v) s = .next t ∧ t.resp = some (.ok 0) ∧ t.hkState e = hkStopped ∧
        t.flag (A.HK_CTRL e) F.HK_CTRL.RUN = false ∧ t.osr e = 0 ∧ t.isr e = 0 ∧ t.rdn (A.HK_SCNT e) = 0 ∧
        (s.hkState e = hkStalled → t.fld (A.HK_STATUS e) F.HK_STATUS.STOPPED_IN_STALL = 1) ∧
        t.fld (A.HK_PC e) F.HK_PC.PC = (if (s.hook e).due ≤ s.now then s.hkPc e else s.fld (A.HK_PC e) F.HK_PC.PC) ∧
        (t.hook e).tx = (s.hook e).tx ∧ (t.hook e).rx = (s.hook e).rx ∧
        (t.hook e).out = (s.hook e).out ∧ (t.hook e).oe = (s.hook e).oe ∧
        s.regsBut t [A.HK_CTRL e, A.HK_STATUS e, A.HK_OSR e, A.HK_ISR e, A.HK_SCNT e, A.HK_PC e] ∧ s.hooksBut t e ∧
        { t with regs := s.regs, hk := s.hk, resp := s.resp } = s) ∧
    (s.reaches m.toNat (A.HK_CTRL e) true ∧ s.hkIdle e = true ∧ s.hkState e = hkStopped ∧ fget F.HK_CTRL.RUN v = 0 →
      ∃ t, exec (.hkFlush m e v) s = .next t ∧ t.resp = some (.ok 0) ∧ (t.hook e).tx = [] ∧ (t.hook e).rx = [] ∧
        t.hkState e = hkStopped ∧ s.hooksBut t e ∧
        (s.hkEngine e = none → s.regsBut t [A.HK_CTRL e, A.HK_FIFO e] ∧ { t with regs := s.regs, hk := s.hk, resp := s.resp } = s)) ∧
    (s.reaches m.toNat (A.HK_CTRL e) true ∧ s.hkIdle e = false ∧ fget F.HK_CTRL.RUN v = 1 →
      ∃ t, exec (.hkFlush m e v) s = .next t ∧ t.fld (A.HK_STATUS e) F.HK_STATUS.CFG_REJ = 1 ∧
        s.regsBut t [A.HK_STATUS e] ∧ { t with regs := s.regs, resp := s.resp } = s) ∧
    (s.reaches m.toNat (A.HK_PROG e w) true ∧ s.hkIdle e = true →
      ∃ t, exec (.hkProgWrite m e w v) s = .next t ∧ t.resp = some (.ok 0) ∧
        t.fld (A.HK_PROG e w) F.HK_PROG.WORD = v.toNat % 65536 ∧
        s.regsBut t [A.HK_PROG e w] ∧ { t with regs := s.regs, resp := s.resp } = s) ∧
    (s.reaches m.toNat (A.HK_PROG e w) true ∧ s.hkIdle e = false →
      ∃ t, exec (.hkProgWrite m e w v) s = .next t ∧ t.resp = some (.err cPerm) ∧
        t.fld (A.HK_STATUS e) F.HK_STATUS.PROG_REJECT = 1 ∧ t.rd (A.HK_PROG e w) = s.rd (A.HK_PROG e w)) ∧
    (s.reaches m.toNat (A.HK_TXF e) true ∧ s.fifoMaster m.toNat e = true ∧ (s.hook e).tx.length < 8 →
      ∃ t, exec (.hkTxfWrite m e v) s = .next t ∧ t.resp = some (.ok 0) ∧ (t.hook e).tx = (s.hook e).tx ++ [v] ∧
        (t.hook e).rx = (s.hook e).rx ∧ t.fld (A.HK_FIFO e) F.HK_FIFO.TX_LEVEL = (s.hook e).tx.length + 1 ∧
        s.regsBut t [A.HK_FIFO e] ∧ s.hooksBut t e ∧ { t with regs := s.regs, hk := s.hk, resp := s.resp } = s) ∧
    (s.reaches m.toNat (A.HK_TXF e) true ∧ (s.fifoMaster m.toNat e = false ∨ 8 ≤ (s.hook e).tx.length) →
      ∃ t, exec (.hkTxfWrite m e v) s = .next t ∧ t.resp = some (.err cPerm) ∧ t.hk = s.hk) ∧
    (s.reaches m.toNat (A.HK_RXF e) false ∧ s.fifoMaster m.toNat e = true ∧ (s.hook e).rx = x :: xs →
      ∃ t, exec (.hkRxfRead m e) s = .next t ∧ t.resp = some (.ok x.toNat) ∧ (t.hook e).rx = xs ∧
        (t.hook e).tx = (s.hook e).tx ∧ s.regsBut t [A.HK_FIFO e] ∧ s.hooksBut t e ∧
        { t with regs := s.regs, hk := s.hk, resp := s.resp } = s) ∧
    (s.reaches m.toNat (A.HOOK_PIN_CFG h.n q) true ∧ s.ownerIdle h (s.fld (A.HOOK_PIN_CFG h.n q) F.HOOK_PIN_CFG.OWNER) = true ∧
        s.ownerIdle h (fget F.HOOK_PIN_CFG.OWNER v) = true ∧ s.running h = true ∧ (s.hrst h).isolated = false →
      ∃ t, exec (.hookPinCfgWrite m h q v) s = .next t ∧ t.resp = some (.ok 0) ∧
        t.fld (A.HOOK_PIN_CFG h.n q) F.HOOK_PIN_CFG.OWNER = fget F.HOOK_PIN_CFG.OWNER v ∧
        t.fld (A.HOOK_PIN_CFG h.n q) F.HOOK_PIN_CFG.CFGD = 1 ∧ t.padLeft h (padHook q) = true ∧
        s.regsBut t [A.HOOK_PIN_CFG h.n q] ∧ { t with regs := s.regs, pins := s.pins, resp := s.resp } = s) ∧
    (s.reaches m.toNat (A.HOOK_PIN_CFG h.n q) true ∧ s.ownerIdle h (s.fld (A.HOOK_PIN_CFG h.n q) F.HOOK_PIN_CFG.OWNER) = false →
      ∃ t, exec (.hookPinCfgWrite m h q v) s = .next t ∧ t.fld (A.HOOK_GSTATUS h.n) F.HOOK_GSTATUS.PIN_REJ = 1 ∧
        s.regsBut t [A.HOOK_GSTATUS h.n] ∧ { t with regs := s.regs, resp := s.resp } = s)

/-- SCRATCHPAD_ACCESS (R563 to R567, R577). -/
def Obligations.ScratchpadPortEffects : Prop :=
  ∀ (s : State) (o p : SpadOp),
    (s.presented o.master o.addr = true ∧ s.zeroingAt o.addr = false ∧ o.write = true ∧
        s.spadErr o.master o.addr o.data.length true = none ∧ o.eccLo = .clean ∧ o.eccHi = .clean →
      ∃ t, exec (.scratchpadAccess none (some o)) s = .next t ∧ t.resp = some (.ok 0) ∧ t.mbs o.addr o.data.length = o.data ∧
        s.bytesBut t o.addr o.data.length ∧ (s.resync = none → t.resync = none) ∧
        { t with mem := s.mem, resp := s.resp, resync := s.resync } = s) ∧
    (s.presented o.master o.addr = true ∧ s.zeroingAt o.addr = false ∧ o.write = false ∧
        s.spadErr o.master o.addr o.len false = none ∧ o.eccLo = .clean ∧ o.eccHi = .clean →
      ∃ t, exec (.scratchpadAccess none (some o)) s = .next t ∧ t.resp = some (.ok (leNat (s.mbs o.addr o.len))) ∧
        { t with resp := s.resp } = s) ∧
    (s.presented o.master o.addr = true ∧ s.zeroingAt o.addr = false ∧ o.write = false ∧
        s.spadErr o.master o.addr o.len false = none ∧ o.addr % 8 + o.len ≤ 8 ∧ o.eccLo = .single →
      ∃ t, exec (.scratchpadAccess none (some o)) s = .next t ∧ t.resp = some (.ok (leNat (s.mbs o.addr o.len))) ∧
        t.rd (A.SPAD_ECC_CORR (bankHalf o.addr).n) = satSucc (s.rd (A.SPAD_ECC_CORR (bankHalf o.addr).n)) ∧
        t.rd (A.SYS_FLT_CNT 1) = satSucc (s.rd (A.SYS_FLT_CNT 1)) ∧ t.mem = s.mem) ∧
    (s.presented o.master o.addr = true ∧ s.zeroingAt o.addr = false ∧ o.write = false ∧
        s.spadErr o.master o.addr o.len false = none ∧ o.addr % 8 + o.len ≤ 8 ∧ o.eccLo = .double →
      ∃ t, exec (.scratchpadAccess none (some o)) s = .next t ∧ t.resp = some .dataErr ∧
        t.fld (A.SPAD_STATUS (bankHalf o.addr).n) F.SPAD_STATUS.ECC_DED = 1 ∧
        t.fld (A.SPAD_ECC_INFO (bankHalf o.addr).n) F.SPAD_ECC_INFO.BANK = (o.addr - bankBase) / 0x20000 ∧
        t.fld (A.SPAD_ECC_INFO (bankHalf o.addr).n) F.SPAD_ECC_INFO.WORD = o.addr % 0x20000 / 8 ∧ t.mem = s.mem) ∧
    (s.presented p.master p.addr = true ∧ s.presented o.master o.addr = true ∧
        s.zeroingAt p.addr = false ∧ s.zeroingAt o.addr = false ∧ p.write = true ∧ o.write = true ∧
        s.spadErr p.master p.addr p.data.length true = none ∧ s.spadErr o.master o.addr o.data.length true = none ∧
        p.eccLo = .clean ∧ p.addr % 8 + p.data.length ≤ 8 ∧ o.addr % 8 + o.data.length ≤ 8 ∧ p.addr / 8 = o.addr / 8 →
      let h := (bankHalf o.addr).n
      ∃ t, exec (.scratchpadAccess (some p) (some o)) s = .next t ∧ t.respA = some (.ok 0) ∧ t.resp = some .writeLost ∧
        t.mbs p.addr p.data.length = p.data ∧ s.bytesBut t p.addr p.data.length ∧
        t.fld (A.SPAD_STATUS h) F.SPAD_STATUS.SPAD_COLLIDE = 1 ∧
        t.rd (A.SPAD_COLLIDE_CNT h) = satSucc (s.rd (A.SPAD_COLLIDE_CNT h)) ∧
        (s.flag (A.SPAD_STATUS h) F.SPAD_STATUS.SPAD_COLLIDE = false →
          t.fld (A.SPAD_COLLIDE_INFO h) F.SPAD_COLLIDE_INFO.MASTER = o.master % 256) ∧
        s.regsBut t [A.SPAD_STATUS h, A.SPAD_COLLIDE_CNT h, A.SPAD_COLLIDE_INFO h]) ∧
    (s.presented o.master o.addr = true ∧ s.zeroingAt o.addr = true →
      ∃ t, exec (.scratchpadAccess none (some o)) s = .next t ∧ t.resp = none ∧ t.spadWait = s.spadWait ++ [.access o] ∧
        { t with spadWait := s.spadWait, resp := s.resp, respA := s.respA } = s)
/-- SWEEP_BLOCK, SWEEP_FORCE, SPAD_ZEROING_DONE and BANK_OWNER_WRITE (R575 to R581). -/
def Obligations.SweepAndZeroingEffects : Prop :=
  ∀ (s : State) (h : Half) (b : Fin 16) (m v : Byte) (n : Fin 16) (at_ : Nat),
    let blk := s.fld (A.SPAD_SWEEP_POS h.n) F.SPAD_SWEEP_POS.BLOCK
    let pos := [A.SPAD_SWEEP_POS h.n]
    (s.sweeping h = true ∧ s.sweepDue h = true ∧ storeFind s.sweep h.n = none →
      (∃ t, exec (.sweepBlock h true none) s = .next t ∧ t.fld (A.SPAD_SWEEP_POS h.n) F.SPAD_SWEEP_POS.BLOCK = (blk + 1) % 2048 ∧
        (blk ≠ 2047 → t.fld (A.SPAD_SWEEP_POS h.n) F.SPAD_SWEEP_POS.PASSES = s.fld (A.SPAD_SWEEP_POS h.n) F.SPAD_SWEEP_POS.PASSES) ∧
        s.regsBut t pos ∧ { t with regs := s.regs, sweep := s.sweep } = s) ∧
      (∃ t, exec (.sweepBlock h true (some b)) s = .next t ∧ t.fld (A.SPAD_STATUS h.n) F.SPAD_STATUS.SWEEP_FAIL = 1 ∧
        t.fld (A.SPAD_SWEEP_INFO h.n) F.SPAD_SWEEP_INFO.BANK = h.n * 16 + b ∧
        t.fld (A.SPAD_SWEEP_INFO h.n) F.SPAD_SWEEP_INFO.BLOCK = blk ∧
        t.rd (A.SPAD_SWEEP_FAILS h.n) = satSucc (s.rd (A.SPAD_SWEEP_FAILS h.n)) ∧ t.mem = s.mem) ∧
      (∃ t, exec (.sweepBlock h false none) s = .next t ∧ storeFind t.sweep h.n = some s.now ∧ storeFind t.sweep (2 + h.n) = some s.now ∧
        { t with sweep := s.sweep } = s)) ∧
    (s.sweepDue h = false → exec (.sweepBlock h true none) s = .next s) ∧
    (s.sweeping h = true ∧ storeFind s.sweep h.n = some at_ ∧ at_ + 50 * usTicks ≤ s.now →
      ∃ t, exec (.sweepForce h none) s = .next t ∧ t.fld (A.SPAD_SWEEP_POS h.n) F.SPAD_SWEEP_POS.BLOCK = (blk + 1) % 2048 ∧
        storeFind t.sweep h.n = none ∧ s.regsBut t pos ∧ { t with regs := s.regs, sweep := s.sweep } = s) ∧
    (s.running h = true ∧ s.flag (A.SPAD_STATUS h.n) F.SPAD_STATUS.ZEROING = true ∧ s.spadWait = [] →
      ∃ t, exec (.spadZeroingDone h) s = .next t ∧ t.flag (A.SPAD_STATUS h.n) F.SPAD_STATUS.ZEROING = false ∧
        (∀ q, q < 0x200000 → t.mb (bankAt h q) = 0) ∧ s.bytesBut t (bankAt h 0) 0x200000 ∧
        s.regsBut t [A.SPAD_STATUS h.n] ∧ { t with regs := s.regs, mem := s.mem } = s) ∧
    (s.reaches m.toNat (A.BANK_OWNER 0 n) true ∧ s.mode6412 = true ∧
        (m.toNat = trivet ∨ m.toNat = s.fldBefore (A.BANK_OWNER 0 n) F.BANK_OWNER.OWNER ∧ s.trivetWrote (A.BANK_OWNER 0 n) = false) →
      ∃ t, exec (.bankOwnerWrite m n v) s = .next t ∧ t.resp = some (.ok 0) ∧
        t.fld (A.BANK_OWNER 0 n) F.BANK_OWNER.OWNER = v.toNat ∧
        s.regsBut t [A.BANK_OWNER 0 n] ∧ { t with regs := s.regs, resp := s.resp, fabric := s.fabric } = s) ∧
    (s.reaches m.toNat (A.BANK_OWNER 0 n) true ∧
        (s.mode6412 = false ∨ m.toNat ≠ trivet ∧ m.toNat ≠ s.fldBefore (A.BANK_OWNER 0 n) F.BANK_OWNER.OWNER) →
      ∃ t, exec (.bankOwnerWrite m n v) s = .next t ∧ t.resp = some (.err cPerm) ∧ t.rd (A.BANK_OWNER 0 n) = s.rd (A.BANK_OWNER 0 n))
/-- VAULT_ACCESS and VAULT_WIPE_DONE (R582, R584). -/
def Obligations.VaultAccessAndWipe : Prop :=
  ∀ (s : State) (m : Byte) (off : Fin 0x40000) (len : Fin 9) (data : List Byte) (c : Nat),
    let a := vaultBase + off.val
    (s.presented m.toNat a = true ∧ s.vaultErr m.toNat a data.length true = none →
      ∃ t, exec (.vaultAccess m off len true data) s = .next t ∧ t.resp = some (.ok 0) ∧ t.mbs a data.length = data ∧
        s.bytesBut t a data.length ∧ { t with mem := s.mem, resp := s.resp } = s) ∧
    (s.presented m.toNat a = true ∧ s.vaultErr m.toNat a len false = none →
      ∃ t, exec (.vaultAccess m off len false data) s = .next t ∧ t.resp = some (.ok (leNat (s.mbs a len))) ∧
        { t with resp := s.resp } = s) ∧
    (s.presented m.toNat a = true ∧ s.vaultErr m.toNat a data.length true = some c →
      ∃ t, exec (.vaultAccess m off len true data) s = .next t ∧ t.resp = some (.err c) ∧
        t.rd A.SYS_BUSERR_CNT = satSucc (s.rd A.SYS_BUSERR_CNT) ∧ t.mem = s.mem) ∧
    (s.wipe = some c →
      ∃ t, exec .vaultWipeDone s = .next t ∧ (∀ q, q < 0x40000 → t.mb (vaultBase + q) = 0) ∧
        s.bytesBut t vaultBase 0x40000 ∧ t.wipe = none ∧
        (∀ q, q < 8 → t.rd (A.VAULT_DEL_BASE q) = regDefault (A.VAULT_DEL_BASE q) ∧ t.rd (A.VAULT_DEL_CFG q) = regDefault (A.VAULT_DEL_CFG q)) ∧
        t.rd A.VAULT_WIPE_CNT = satSucc (s.rd A.VAULT_WIPE_CNT) ∧ t.fld A.VAULT_STATUS F.VAULT_STATUS.WIPING = 0 ∧
        t.fld A.VAULT_STATUS F.VAULT_STATUS.CAUSE = c % 8 ∧
        (∀ a, a ∉ [A.VAULT_WIPE_CNT, A.VAULT_STATUS] ∧ isDelegation a = false → t.rd a = s.rd a) ∧
        { t with regs := s.regs, mem := s.mem, wipe := s.wipe } = s)

/-- MBX_MSG_WRITE, MBX_RING, MBX_ACK, MBX_BIND_WRITE and MBX_BIND_LOCK_SET (R586 to R590). -/
def Obligations.MailboxEffects : Prop :=
  ∀ (s : State) (m r : Byte) (c : Fin 64) (w : Fin 8) (i : Fin 24) (v : Word),
    let st := A.MBX_STATUS c
    let host := ¬ (0x10 ≤ s.mbxReceiver c ∧ s.mbxReceiver c < 0x28)
    (s.reaches m.toNat (A.MBX_MSG c w) true ∧ s.mbxBound c = true ∧ m.toNat = s.mbxSender c ∧ s.mbxWasFull c = false →
      ∃ t, exec (.mbxMsgWrite m c w v) s = .next t ∧ t.resp = some (.ok 0) ∧ t.rd (A.MBX_MSG c w) = v ∧
        s.regsBut t [A.MBX_MSG c w] ∧ { t with regs := s.regs, resp := s.resp } = s) ∧
    (s.reaches m.toNat (A.MBX_MSG c w) true ∧ s.mbxBound c = true ∧ m.toNat = s.mbxSender c ∧ s.mbxWasFull c = true →
      ∃ t, exec (.mbxMsgWrite m c w v) s = .next t ∧ t.resp = some (.err cPerm) ∧
        t.rd (A.MBX_REJ_CNT c) = satSucc (s.rd (A.MBX_REJ_CNT c)) ∧ t.rd (A.MBX_MSG c w) = s.rd (A.MBX_MSG c w)) ∧
    (s.reaches m.toNat (A.MBX_DB c) true ∧ s.mbxBound c = true ∧ m.toNat = s.mbxSender c ∧ s.mbxWasFull c = false →
      ∃ t, exec (.mbxRing m c none) s = .next t ∧ t.resp = some (.ok 0) ∧ t.mbxFull c = true ∧
        t.rd (A.MBX_RING_CNT c) = satSucc (s.rd (A.MBX_RING_CNT c)) ∧
        (host → s.regsBut t [st, A.MBX_RING_CNT c] ∧ { t with regs := s.regs, resp := s.resp, fabric := s.fabric } = s) ∧
        (s.mbxReceiver c = 0x10 + i → bitAt (t.rdn (A.NE_DOORBELL i)) (c % 32) = true ∧
          (s.neState i = neRunning ∧ (s.eng i).pend = [] → (t.eng i).pend = [pendBit s prBell (c % 32) 0]) ∧ s.engsBut t i)) ∧
    (s.reaches m.toNat (A.MBX_DB c) true ∧ s.mbxBound c = true ∧ m.toNat = s.mbxSender c ∧ s.mbxWasFull c = true ∧ s.mbxFull c = true →
      ∃ t, exec (.mbxRing m c none) s = .next t ∧ t.resp = some (.ok 0) ∧ t.mbxFull c = true ∧
        t.fld st F.MBX_STATUS.MERGED = 1 ∧ t.rd (A.MBX_RING_CNT c) = satSucc (s.rd (A.MBX_RING_CNT c)) ∧
        s.regsBut t [st, A.MBX_RING_CNT c] ∧ { t with regs := s.regs, resp := s.resp } = s) ∧
    (s.reaches m.toNat (A.MBX_DB c) true ∧ s.reaches r.toNat (A.MBX_DB c) true ∧ s.mbxBound c = true ∧ m.toNat = s.mbxSender c ∧
        r.toNat = s.mbxReceiver c ∧ s.mbxWasFull c = true →
      ∃ t, exec (.mbxRing m c (some r)) s = .next t ∧ t.mbxFull c = false ∧
        t.rd (A.MBX_RING_CNT c) = satSucc (s.rd (A.MBX_RING_CNT c))) ∧
    (s.reaches m.toNat (A.MBX_DB c) true ∧ s.mbxBound c = true ∧ m.toNat = s.mbxReceiver c →
      (s.mbxWasFull c = true → ∃ t, exec (.mbxAck m c) s = .next t ∧ t.resp = some (.ok 0) ∧ t.rd st = 0 ∧
        s.regsBut t [st] ∧ { t with regs := s.regs, wake := s.wake, resp := s.resp, fabric := s.fabric } = s) ∧
      (s.mbxWasFull c = false → ∃ t, exec (.mbxAck m c) s = .next t ∧ t.resp = some (.ok 0) ∧ { t with resp := s.resp } = s)) ∧
    (s.reaches m.toNat (A.MBX_DB c) true ∧ (s.mbxBound c = false ∨ m.toNat ≠ s.mbxSender c) →
      ∃ t, exec (.mbxRing m c none) s = .next t ∧ t.resp = some (.err cPerm) ∧ t.rd st = s.rd st) ∧
    (s.reaches m.toNat (A.MBX_BIND c) true ∧ s.flag A.MBX_BIND_LOCK F.MBX_BIND_LOCK.LOCK = false →
      ∃ t, exec (.mbxBindWrite m c v) s = .next t ∧ t.resp = some (.ok 0) ∧
        t.mbxSender c = fget F.MBX_BIND.SENDER v ∧ t.mbxReceiver c = fget F.MBX_BIND.RECEIVER v ∧
        s.regsBut t [A.MBX_BIND c] ∧ { t with regs := s.regs, resp := s.resp } = s) ∧
    (s.reaches m.toNat (A.MBX_BIND c) true ∧ s.flag A.MBX_BIND_LOCK F.MBX_BIND_LOCK.LOCK = true ∧ fget F.MBX_BIND.SENDER v ≠ s.mbxSender c →
      ∃ t, exec (.mbxBindWrite m c v) s = .next t ∧ t.resp = some (.err cLock) ∧ t.rd (A.MBX_BIND c) = s.rd (A.MBX_BIND c)) ∧
    (s.reaches m.toNat A.MBX_BIND_LOCK true ∧ m.toNat = trivet →
      ∃ t, exec (.mbxBindLockSet m) s = .next t ∧ t.resp = some (.ok 0) ∧ t.flag A.MBX_BIND_LOCK F.MBX_BIND_LOCK.LOCK = true ∧
        s.regsBut t [A.MBX_BIND_LOCK] ∧ { t with regs := s.regs, resp := s.resp } = s)
/-- MBX_LOCK_READ and MBX_LOCK_WRITE (R595, R596). -/
def Obligations.HardwareLockEffects : Prop :=
  ∀ (s : State) (k : Fin 32) (m x : Byte),
    (s.presented m.toNat (A.MBX_LOCK k) = true ∧ s.presented x.toNat (A.MBX_LOCK k) = true ∧ s.lockOwner k = 0 ∧
        0 < m.toNat ∧ m.toNat < x.toNat →
      ∃ t, exec (.mbxLockRead k [x, m]) s = .next t ∧ t.lockOwner k = m.toNat ∧
        t.out = .answer m.toNat 0 :: .answer x.toNat m.toNat :: s.out ∧
        s.regsBut t [A.MBX_LOCK k] ∧ { t with regs := s.regs, out := s.out, resp := s.resp } = s) ∧
    (s.presented m.toNat (A.MBX_LOCK k) = true ∧ s.lockOwner k ≠ 0 →
      ∃ t, exec (.mbxLockRead k [m]) s = .next t ∧ t.lockOwner k = s.lockOwner k ∧
        t.resp = some (.ok (if m.toNat = s.lockOwner k then 0 else s.lockOwner k)) ∧
        s.regsBut t [A.MBX_LOCK k] ∧ { t with regs := s.regs, out := s.out, resp := s.resp } = s) ∧
    (s.reaches m.toNat (A.MBX_LOCK k) true ∧ (m.toNat = trivet ∨ (s.lockOwner k ≠ 0 ∧ m.toNat = s.lockOwner k)) →
      ∃ t, exec (.mbxLockWrite m k) s = .next t ∧ t.resp = some (.ok 0) ∧ t.lockOwner k = 0 ∧
        s.regsBut t [A.MBX_LOCK k] ∧ { t with regs := s.regs, resp := s.resp } = s) ∧
    (s.reaches m.toNat (A.MBX_LOCK k) true ∧ m.toNat ≠ trivet ∧ m.toNat ≠ s.lockOwner k →
      ∃ t, exec (.mbxLockWrite m k) s = .next t ∧ t.resp = some (.err cPerm) ∧ t.lockOwner k = s.lockOwner k)
/-- MTIMECMP_WRITE, MACHINE_TIMER_INTERRUPT, MIRQ_CLR1_WRITE and HART_AMO_SCRATCHPAD (R602, R604, R609, R610). -/
def Obligations.HartRegisterEffects : Prop :=
  ∀ (s : State) (k : Fin 4) (v x : Dword) (op : AmoOp) (a : BitVec 40) (h : Half),
    (s.hartRuns k = true →
      (∃ t, exec (.mtimecmpWrite k v) s = .next t ∧ (t.hart k).mtimecmp = v.toNat ∧ (t.hart k).mtip = decide (v.toNat ≤ s.raw) ∧
        (t.hart k).latched = (s.hart k).latched ∧ s.hartsBut t k ∧ { t with harts := s.harts } = s) ∧
      (∃ t, exec (.mirqClr1Write k v x) s = .next t ∧
        (∀ q, q < 64 → bitAt (t.hart k).latched q =
          ((bitAt (s.hart k).latched q && !(bitAt v.toNat q && bitAt clr1Mask q)) || (bitAt x.toNat q && bitAt clr1Mask q))) ∧
        s.hartsBut t k ∧ { t with harts := s.harts } = s)) ∧
    (s.running (halfOf (k / 2)) = true →
      ∃ t, exec (.machineTimerInterrupt k) s = .next t ∧ (t.hart k).mtip = decide ((s.hart k).mtimecmp ≤ s.raw) ∧
        { t.hart k with mtip := (s.hart k).mtip } = s.hart k ∧ s.hartsBut t k ∧ { t with harts := s.harts } = s) ∧
    (s.hartRuns k = true ∧ amoReaches k 4 a.toNat = true ∧ s.zeroingAt a.toNat = false ∧
        s.spadErr (2 + k) a.toNat 4 false = none ∧ s.spadErr (2 + k) a.toNat 4 true = none →
      let old := leNat (s.mbs a.toNat 4)
      ∃ t, exec (.hartAmoScratchpad k op false a v .clean none none) s = .next t ∧
        t.respA = some (.ok (intMod 64 (signedOf 32 old))) ∧
        leNat (t.mbs a.toNat 4) = amoValue op 32 old (v.toNat % 2 ^ 32) ∧ s.bytesBut t a.toNat 4 ∧
        (s.resync = none → { t with mem := s.mem, resp := s.resp, respA := s.respA } = s)) ∧
    (s.hartRuns k = true ∧ amoReaches k 8 a.toNat = true ∧ s.zeroingAt a.toNat = false ∧
        s.spadErr (2 + k) a.toNat 8 false = none ∧ s.spadErr (2 + k) a.toNat 8 true = none →
      let old := leNat (s.mbs a.toNat 8)
      ∃ t, exec (.hartAmoScratchpad k op true a v .clean none none) s = .next t ∧ t.respA = some (.ok old) ∧
        leNat (t.mbs a.toNat 8) = amoValue op 64 old v.toNat ∧ s.bytesBut t a.toNat 8 ∧
        (s.resync = none → { t with mem := s.mem, resp := s.resp, respA := s.respA } = s)) ∧
    (s.hartRuns k = true ∧ isDram a.toNat = true ∧ a.toNat % 4 = 0 ∧ s.dramPorts (2 + k) a.toNat 4 false = .ok [h] ∧
        s.dramPorts (2 + k) a.toNat 4 true = .ok [h] →
      let old := leNat (s.mbs (dramKey h a.toNat) 4)
      ∃ t, exec (.hartAmoScratchpad k op false a v .clean none none) s = .next t ∧
        t.respA = some (.ok (intMod 64 (signedOf 32 old))) ∧
        leNat (t.mbs (dramKey h a.toNat) 4) = amoValue op 32 old (v.toNat % 2 ^ 32) ∧ s.bytesBut t (dramKey h a.toNat) 4) ∧
    (s.hartRuns k = true ∧ isDram a.toNat = false ∧ amoReaches k 4 a.toNat = false →
      ∃ t, exec (.hartAmoScratchpad k op false a v .clean none none) s = .next t ∧ t.respA = some .accessFault ∧ t.mem = s.mem)

/-- DRAM_ACCESS and ACCESS_ERROR_TIMEOUT (R42, R47, R615 to R617). -/
def Obligations.DramAccessEffects : Prop :=
  ∀ (s : State) (m : Byte) (off : Fin 0x400000000) (len : Fin 65) (data : List Byte) (e x : Ecc) (h : Half) (hs : List Half)
    (c : Nat) (i : Fin 24) (a : BitVec 40) (write : Bool) (v : Dword),
    let at_ := dkBase + off.val
    let fits := fun n => s.presented m.toNat at_ = true ∧ (isHart m.toNat = true → crossesPage at_ n = false)
    let dead := fun (t : State) => t.resp = some (.err c) ∧ t.rd A.SYS_BUSERR_CNT = satSucc (s.rd A.SYS_BUSERR_CNT) ∧ t.mem = s.mem
    (fits data.length ∧ data.length ≤ 64 ∧ s.dramPorts m.toNat at_ data.length true = .ok [h] →
      ∃ t, exec (.dramAccess m off len true data e x) s = .next t ∧ t.resp = some (.ok 0) ∧
        t.mbs (dramKey h at_) data.length = data ∧ s.bytesBut t (dramKey h at_) data.length ∧
        { t with mem := s.mem, dramK := s.dramK, dramP := s.dramP, resp := s.resp } = s) ∧
    (fits data.length ∧ data.length ≤ 64 ∧ s.dramPorts m.toNat at_ data.length true = .ok [.k, .p] →
      ∃ t, exec (.dramAccess m off len true data e x) s = .next t ∧ t.resp = some (.ok 0) ∧
        t.mbs (dramKey .k at_) data.length = data ∧ t.mbs (dramKey .p at_) data.length = data ∧
        s.bytesBut2 t (dramKey .k at_) (dramKey .p at_) data.length ∧
        { t with mem := s.mem, dramK := s.dramK, dramP := s.dramP, resp := s.resp } = s) ∧
    (fits len ∧ s.dramPorts m.toNat at_ len false = .ok (h :: hs) →
      (∃ t, exec (.dramAccess m off len false data .clean x) s = .next t ∧ t.resp = some (.ok (leNat (s.mbs (dramKey h at_) len))) ∧
        { t with dramK := s.dramK, dramP := s.dramP, resp := s.resp } = s) ∧
      (∃ t, exec (.dramAccess m off len false data .single x) s = .next t ∧ t.resp = some (.ok (leNat (s.mbs (dramKey h at_) len))) ∧
        t.rd (A.DRAM_ECC_CORR h.n) = satSucc (s.rd (A.DRAM_ECC_CORR h.n)) ∧ t.rd (A.SYS_FLT_CNT 1) = satSucc (s.rd (A.SYS_FLT_CNT 1)) ∧
        t.mem = s.mem)) ∧
    (fits len ∧ s.dramPorts m.toNat at_ len false = .ok (h :: hs) ∧ s.mirrorState = mirSync ∧ s.linkUp = true →
      ∃ t, exec (.dramAccess m off len false data .double .clean) s = .next t ∧
        t.resp = some (.ok (leNat (s.mbs (dramKey h.other at_) len))) ∧ t.mbs (dramKey h at_) len = s.mbs (dramKey h.other at_) len ∧
        s.bytesBut t (dramKey h at_) len ∧ t.rd (A.DRAM_ECC_CORR h.n) = satSucc (s.rd (A.DRAM_ECC_CORR h.n)) ∧
        t.rd (A.SYS_FLT_CNT 1) = satSucc (s.rd (A.SYS_FLT_CNT 1))) ∧
    (fits len ∧ s.dramPorts m.toNat at_ len false = .ok (h :: hs) ∧ (s.mirrorState ≠ mirSync ∨ x ≠ .clean) →
      ∃ t, exec (.dramAccess m off len false data .double x) s = .next t ∧ t.resp = some .dataErr ∧
        t.fld (A.DRAM_STATUS h.n) F.DRAM_STATUS.ECC_DED = 1 ∧
        t.rd (A.DRAM_ECC_DED_CNT h.n) = satSucc (s.rd (A.DRAM_ECC_DED_CNT h.n)) ∧ t.mem = s.mem) ∧
    (fits 8 ∧ isHart m.toNat = true ∧ a.toNat = at_ ∧ isDram a.toNat = true ∧ s.dramPorts m.toNat at_ 8 false = .ok hs →
      exec (.registerWrite (.read m a 8 ⟨e, e, x, false, some (.stale v), 0⟩)) s = .next { s with resp := some (.ok v.toNat) }) ∧
    (s.presented m.toNat at_ = true ∧ isHart m.toNat = true ∧ crossesPage at_ len = true →
      ∃ t, exec (.dramAccess m off len false data e x) s = .next t ∧ t.resp = some .accessFault ∧
        { t with harts := s.harts, resp := s.resp } = s) ∧
    (fits len ∧ s.dramPorts m.toNat at_ len false = .error c → ∃ t, exec (.dramAccess m off len false data e x) s = .next t ∧ dead t) ∧
    (fits data.length ∧ data.length ≤ 64 ∧ s.dramPorts m.toNat at_ data.length true = .error c →
      ∃ t, exec (.dramAccess m off len true data e x) s = .next t ∧ dead t) ∧
    (s.presented m.toNat a.toNat = true ∧ (regionOf a.toNat = .bank h ∨ regionOf a.toNat = .block h ∨
        regionOf a.toNat = .needle i ∧ h = unitHalf i 12) ∧ s.halfErr m.toNat h = some c →
      ∃ t, exec (.accessErrorTimeout m a write) s = .next t ∧ dead t) ∧
    (s.presented m.toNat a.toNat = true ∧ (regionOf a.toNat = .dk ∨ regionOf a.toNat = .dp) ∧ c = cOff ∧
        s.dramPorts m.toNat a.toNat 1 write = .error c → ∃ t, exec (.accessErrorTimeout m a write) s = .next t ∧ dead t) ∧
    ((regionOf a.toNat = .bank h ∨ regionOf a.toNat = .block h) ∧ s.halfErr m.toNat h = none →
      exec (.accessErrorTimeout m a write) s = .next s)
/-- DRAM_TRAINING_DONE, DRAM_CLEAR_DONE, PATROL_BLOCK and RESILVER_DONE (R612 to R619, R816). -/
def Obligations.DramPortEffects : Prop :=
  ∀ (s : State) (h : Half) (x : Ecc),
    (s.mayTrain h = true ∧ s.mirrorOn = false →
      (∃ t, exec (.dramTrainingDone h true) s = .next t ∧ t.trained h = true ∧ (t.dram h).service = true ∧
        t.flag (A.DRAM_CTRL h.n) F.DRAM_CTRL.EN = true ∧ t.flag (A.DRAM_STATUS h.n) F.DRAM_STATUS.SELF_REFRESH = false ∧
        ((s.dram h).retained = true → t.mem = s.mem) ∧
        ((s.dram h).retained = false → (∀ q, q < 0x200000000 → t.mb (portBase h + q) = 0) ∧ (t.dram h).clearing = true ∧
          s.bytesBut t (portBase h) 0x200000000) ∧
        t.dram h.other = s.dram h.other ∧ s.regsBut t [A.DRAM_STATUS h.n, A.DRAM_CTRL h.n] ∧
        { t with regs := s.regs, mem := s.mem, dramK := s.dramK, dramP := s.dramP, pins := s.pins } = s) ∧
      (∃ t, exec (.dramTrainingDone h false) s = .next t ∧ t.flag (A.DRAM_STATUS h.n) F.DRAM_STATUS.TRAIN_FAIL = true ∧
        (t.dram h).service = false ∧ t.trained h = false ∧ t.mem = s.mem)) ∧
    ((s.dram h).clearing = true →
      ∃ t, exec (.dramClearDone h) s = .next t ∧ t.dram h = { s.dram h with clearing := false, cleared := [] } ∧
        t.dram h.other = s.dram h.other ∧ { t with dramK := s.dramK, dramP := s.dramP } = s) ∧
    (s.running h = true ∧ s.flag (A.DRAM_CTRL h.n) F.DRAM_CTRL.PATROL_EN = true ∧ (s.dram h).service = true ∧
        (s.dram h).clearing = false ∧ s.mirrorOn = false ∧ s.mirrorState = 0 →
      let last := s.dramCap h / 64 ≤ (s.dram h).patrol + 1
      ∃ t, exec (.patrolBlock h .clean x) s = .next t ∧ (t.dram h).patrol = (if last then 0 else (s.dram h).patrol + 1) ∧
        t.fld (A.DRAM_PATROL h.n) F.DRAM_PATROL.PASSES =
          (if last then (s.fld (A.DRAM_PATROL h.n) F.DRAM_PATROL.PASSES + 1) % 2 ^ 24
           else s.fld (A.DRAM_PATROL h.n) F.DRAM_PATROL.PASSES) ∧
        s.regsBut t [A.DRAM_PATROL h.n] ∧ { t with regs := s.regs, dramK := s.dramK, dramP := s.dramP } = s) ∧
    (s.mirrorState = mirResilver ∧ s.dramK.service = true ∧ s.trained .p = true →
      ∃ t, exec .resilverDone s = .next t ∧ t.dramP.service = true ∧ t.mirrorState = mirSync ∧ t.dramK = s.dramK ∧
        (∀ q, q < s.coverCap .k → t.mb (dpBase + q) = s.mb (dkBase + q)) ∧ s.bytesBut t dpBase (s.coverCap .k) ∧
        s.regsBut t [A.DRAM_MIRROR 0, A.DRAM_MIRROR 1] ∧ { t with regs := s.regs, mem := s.mem, dramP := s.dramP } = s)

/-- LARDER_ENABLE, LARDER_SNAPSHOT_TRIGGER, LARDER_SNAPSHOT_DONE, LARDER_EVENT_WRITE and FREEZE_PIN (R622 to R630). -/
def Obligations.LarderRecordingEffects : Prop :=
  ∀ (s : State) (m : Byte) (v : Word) (fast : Bool) (ec : List (BitVec 40 × Ecc)) (a : BitVec 40) (j : SnapJob) (st : Nat) (e : EvtRec) (es : List EvtRec) (h : Half),
    let k := b2n fast
    let x := s.larder.store k
    let cnt := if fast then A.LARDER_SNAP_FAST else A.LARDER_SNAP_CYC
    let n := snapPages (j.tags.length / 8)
    let len := if e.ext = [] then 1 else 3
    let base := s.partBase 2 + st * 64
    (s.reaches m.toNat A.LARDER_CTRL true ∧ s.flag A.LARDER_CTRL F.LARDER_CTRL.EN = false ∧ fget F.LARDER_CTRL.EN v = 1 ∧ s.larderOk = true →
      ∃ t, exec (.larderEnable m v) s = .next t ∧ t.resp = some (.ok 0) ∧ t.flag A.LARDER_CTRL F.LARDER_CTRL.EN = true ∧
        t.flag A.LARDER_STATUS F.LARDER_STATUS.CFG_ERR = false ∧ t.larder.cyc.job = none ∧ t.larder.fast.job = none ∧
        t.larder.cyc.next = 0 ∧ t.larder.fast.next = 0 ∧ t.larder.evtNext = 0 ∧ t.larder.waiting = [] ∧
        t.larder.freeze = s.larder.freeze ∧ s.regsBut t [A.LARDER_CTRL, A.LARDER_STATUS] ∧
        { t with regs := s.regs, larder := s.larder, resp := s.resp } = s) ∧
    (s.reaches m.toNat A.LARDER_CTRL true ∧ s.flag A.LARDER_CTRL F.LARDER_CTRL.EN = false ∧ fget F.LARDER_CTRL.EN v = 1 ∧ s.larderOk = false →
      ∃ t, exec (.larderEnable m v) s = .next t ∧ t.flag A.LARDER_CTRL F.LARDER_CTRL.EN = false ∧
        t.flag A.LARDER_STATUS F.LARDER_STATUS.CFG_ERR = true ∧ s.regsBut t [A.LARDER_STATUS] ∧
        { t with regs := s.regs, resp := s.resp } = s) ∧
    (s.reaches m.toNat A.LARDER_CTRL true ∧ fget F.LARDER_CTRL.EN v = 0 →
      ∃ t, exec (.larderEnable m v) s = .next t ∧ t.flag A.LARDER_CTRL F.LARDER_CTRL.EN = false ∧
        s.regsBut t [A.LARDER_CTRL] ∧ { t with regs := s.regs, resp := s.resp } = s) ∧
    (s.flag A.LARDER_CTRL F.LARDER_CTRL.EN = true ∧
        s.cmpLast (s.fld A.LARDER_TRIG (if fast then F.LARDER_TRIG.FAST_CMP else F.LARDER_TRIG.CYC_CMP)) = some s.raw ∧
        s.cmpLast (s.fld A.LARDER_TRIG (if fast then F.LARDER_TRIG.CYC_CMP else F.LARDER_TRIG.FAST_CMP)) ≠ some s.raw ∧
        s.partSize k ≠ 0 ∧ x.stopped = false →
      (x.job = none → ∃ t, exec .larderSnapshotTrigger s = .next t ∧
        (t.larder.store k).job = some ⟨s.raw, s.snapHalf == .p, s.srcBytes, s.tagWords s.snapHalf, (s.readTags s.snapHalf s.tagOffsets).2⟩ ∧
        t.larder.store (1 - k) = s.larder.store (1 - k) ∧ t.mem = s.mem) ∧
      (x.job = none ∧ (∀ o ∈ s.tagOffsets, o < 0x200000 ∧ s.spadErr 0x48 (bankAt s.snapHalf o) 8 false = none) →
        ∃ t, exec .larderSnapshotTrigger s = .next t ∧
          (t.larder.store k).job = some ⟨s.raw, s.snapHalf == .p, s.srcBytes, s.tagWords s.snapHalf, s.tagOffsets.flatMap fun o => s.mbs (bankAt s.snapHalf o) 8⟩ ∧
          { t with larder := s.larder, resp := s.resp } = s) ∧
      (x.job ≠ none → ∃ t, exec .larderSnapshotTrigger s = .next t ∧
        t.rd A.LARDER_SNAP_SKIP = satSucc (s.rd A.LARDER_SNAP_SKIP) ∧ s.onlyRegs t [A.LARDER_SNAP_SKIP])) ∧
    (x.job = some j ∧ ringPlace x.next (s.storePages k) n ((s.frozenSnaps k).map fun f => (f.page, f.pages)) = some st →
      ∃ t, exec (.larderSnapshotDone ⟨fast, []⟩) s = .next t ∧ (t.larder.store k).job = none ∧ (t.larder.store k).next = st + n ∧
        (t.larder.store k).seq = x.seq + 1 ∧ (t.larder.store k).snaps.getLast? = some ⟨x.seq, j.trig, st, n⟩ ∧
        t.rd cnt = satSucc (s.rd cnt) ∧ (s.mirrorOn = false → s.bytesBut t (s.partBase k + st * 4096) (n * 4096)) ∧
        t.larder.store (1 - k) = s.larder.store (1 - k)) ∧
    (x.job = some j ∧ ec ≠ [] → exec (.larderSnapshotDone ⟨fast, ec⟩) s = exec (.larderSnapshotDone ⟨fast, []⟩) (s.tagErrors k ec)) ∧
    (x.job = some j ∧ j.words = [some a.toNat] ∧ j.tags.length = 8 ∧ s.flag A.LARDER_CTRL F.LARDER_CTRL.EN = false →
      ((s.tagErrors k [(a, .single)]).larder.store k).job = some { j with words := [] } ∧
      (s.tagErrors k [(a, .single)]).rd (A.SPAD_ECC_CORR (bankHalf a.toNat).n) = satSucc (s.rd (A.SPAD_ECC_CORR (bankHalf a.toNat).n)) ∧
      ((s.tagErrors k [(a, .double)]).larder.store k).job = some { j with words := [], tags := List.replicate 8 0 } ∧
      (s.tagErrors k [(a, .double)]).flag (A.SPAD_STATUS (bankHalf a.toNat).n) F.SPAD_STATUS.ECC_DED = true) ∧
    (s.larder.waiting = e :: es ∧ s.partSize 2 ≠ 0 ∧ s.larder.evtStopped = false ∧
        ringPlace s.larder.evtNext (s.partSize 2 / 64) len ((s.larder.held.filter s.frozenEvt).map fun x => (x.slot, x.len)) = some st ∧
        s.mirrorOn = false ∧ (match s.dramPorts 0x48 base (64 * len) true with | .ok ps => ps == [h] | .error _ => false) = true ∧
        e.payload.length = 40 ∧ (e.ext = [] ∨ e.ext.length = 128) →
      ∃ t, exec (.larderEventWrite false) s = .next t ∧ t.larder.waiting = es ∧ t.larder.evtNext = st + len ∧
        t.larder.dropped = false ∧ t.rd A.LARDER_EVT_CNT = satSucc (s.rd A.LARDER_EVT_CNT) ∧
        t.mbs (dramKey h base) (64 * len) = evtBytes e (s.larder.evtSeq % 2 ^ 32) s.larder.dropped ∧
        s.bytesBut t (dramKey h base) (64 * len) ∧ s.regsBut t [A.LARDER_EVT_CNT, A.LARDER_STATUS]) ∧
    (s.larder.waiting = e :: es →
      ∃ t, exec (.larderEventWrite true) s = .next t ∧ t.larder.waiting = (e :: es).dropLast ∧ t.larder.dropped = true ∧
        t.rd A.LARDER_EVT_DROP = satSucc (s.rd A.LARDER_EVT_DROP) ∧ s.regsBut t [A.LARDER_EVT_DROP] ∧
        { t with regs := s.regs, larder := s.larder } = s) ∧
    (s.flag A.LARDER_FREEZE F.LARDER_FREEZE.EN_PIN = true ∧ s.flag A.LARDER_CTRL F.LARDER_CTRL.EN = true →
      (s.larder.freeze = none → ∃ t, exec .freezePin s = .next t ∧
        t.larder.freeze = some ⟨s.raw, s.rdn (A.LARDER_PRE_N 0), s.rdn (A.LARDER_POST_N 0), s.rdn (A.LARDER_PRE_N 1),
          s.rdn (A.LARDER_POST_N 1)⟩ ∧ t.flag A.LARDER_STATUS F.LARDER_STATUS.FROZEN = true ∧
        t.rd64 A.LARDER_FRZ_AT_LO A.LARDER_FRZ_AT_HI = s.raw % 2 ^ 64 ∧
        s.regsBut t [A.LARDER_STATUS, A.LARDER_FRZ_AT_LO, A.LARDER_FRZ_AT_HI] ∧ { t with regs := s.regs, larder := s.larder } = s) ∧
      (s.larder.freeze ≠ none → ∃ t, exec .freezePin s = .next t ∧ t.larder.freeze = s.larder.freeze ∧
        t.rd A.LARDER_FRZ_IGNORED = satSucc (s.rd A.LARDER_FRZ_IGNORED) ∧ s.regsBut t [A.LARDER_FRZ_IGNORED]))

/-- Table 0.2 (R10, R14, R811). -/
def Obligations.FieldAccessTypes : Prop :=
  ∀ (a : Nat) (d : RegDesc) (f : FieldDesc) (locked : Bool) (old new : Word),
    let p : Fld := ⟨f.hi, f.lo⟩
    let w := descWrite locked d old new
    (regDesc? a = some d ∧ f ∈ d.fields →
      (f.acc = .rw ∨ f.acc = .trv → fget p w = fget p new) ∧
      (f.acc = .rwl → fget p w = if locked then fget p old else fget p new) ∧
      (f.acc = .ro ∨ f.acc = .wo → fget p w = fget p old) ∧
      (f.acc = .w1c → ∀ q, q < 32 → f.lo ≤ q → q ≤ f.hi → w.getLsbD q = (old.getLsbD q && !new.getLsbD q)) ∧
      (f.acc = .w1s → ∀ q, q < 32 → f.lo ≤ q → q ≤ f.hi → w.getLsbD q = (old.getLsbD q || new.getLsbD q))) ∧
    (regDesc? a = some d → ∀ q, q < 32 → (d.fields.any fun f => decide (f.lo ≤ q) && decide (q ≤ f.hi)) = false →
      w.getLsbD q = old.getLsbD q)
/-- REGISTER_WRITE (R8 to R10, R35, R810). -/
def Obligations.RegisterAccessEffects : Prop :=
  ∀ (s : State) (m : Byte) (a : BitVec 40) (v : Word) (n : Nat) (data : List Byte) (e : BusEnv) (d : RegDesc) (c : Nat) (k : Fin 4) (x : Dword)
    (o : Fin 0x20000),
    (regRegion a.toNat ∧ s.reaches m.toNat a.toNat true ∧ regDesc? a.toNat = some d ∧ d.base ∉ ownEffect ∧
        (a.toNat / 0x10000 = 0x3303 → m.toNat = trivet) ∧
        (d.base = A.SYS_BUSERR_INFO ∨ d.base = A.SYS_BUSERR_CNT → s.errsNow = []) →
      ∃ t, exec (.registerWrite (.write m a (leBytes 4 v.toNat) e)) s = .next t ∧ t.resp = some (.ok 0) ∧
        (e.hw = 0 → t.rd a.toNat = descWrite (s.locked a.toNat) d (s.rd a.toNat) v) ∧
        (∀ f ∈ d.fields, f.acc = .w1c → fget ⟨f.hi, f.lo⟩ (t.rd a.toNat) =
          fget ⟨f.hi, f.lo⟩ (descWrite (s.locked a.toNat) d (s.rd a.toNat) v) ||| fget ⟨f.hi, f.lo⟩ (BitVec.ofNat 32 e.hw)) ∧
        s.regsBut t [a.toNat] ∧ { t with regs := s.regs, fabric := s.fabric, resp := s.resp } = s) ∧
    (regRegion a.toNat ∧ s.reaches m.toNat a.toNat false ∧ regDesc? a.toNat = some d ∧ d.base ∉ readEffect ∧
        s.readDenied m.toNat d.base (regIdx d a.toNat) = false →
      ∃ t, exec (.registerWrite (.read m a 4 e)) s = .next t ∧ { t with resp := s.resp } = s ∧
        (e.hw = 0 ∨ d.base ≠ A.MAC_CNT 0 0 → t.resp = some (.ok (s.regView m.toNat a.toNat))) ∧
        (d.base = A.MAC_CNT 0 0 ∧ 0 < e.hw ∧ e.hw ≤ s.regView m.toNat a.toNat ∧ s.regView m.toNat a.toNat < 2 ^ 32 →
          t.resp = some (.ok (s.regView m.toNat a.toNat - e.hw)))) ∧
    (regRegion a.toNat ∧ s.presented m.toNat a.toNat = true ∧ s.regErr m.toNat a.toNat n false = some c →
      ∃ t, exec (.registerWrite (.read m a n e)) s = .next t ∧ t = s.busErr m.toNat a.toNat false c) ∧
    (regRegion a.toNat ∧ s.presented m.toNat a.toNat = true ∧ s.regErr m.toNat a.toNat data.length true = some c →
      ∃ t, exec (.registerWrite (.write m a data e)) s = .next t ∧ t = s.busErr m.toNat a.toNat true c) ∧
    (regionOf a.toNat = .shared ∧ s.presented m.toNat a.toNat = true ∧ assigned (a.toNat / 4 * 4) = true ∧ (data.length ≠ 4 ∨ a.toNat % 4 ≠ 0) →
      ∃ t, exec (.registerWrite (.write m a data e)) s = .next t ∧ t = s.busErr m.toNat a.toNat true cMisaligned) ∧
    (regionOf a.toNat = .unmapped ∧ s.presented m.toNat a.toNat = true →
      (∃ t, exec (.registerWrite (.read m a n e)) s = .next t ∧ t = s.busErr m.toNat a.toNat false cUnmapped) ∧
      (∃ t, exec (.registerWrite (.write m a data e)) s = .next t ∧ t = s.busErr m.toNat a.toNat true cUnmapped)) ∧
    (regRegion a.toNat ∧ s.presented m.toNat a.toNat = true ∧ s.regErr m.toNat a.toNat 4 true = none ∧ regDesc? a.toNat = some d ∧
        hasTrv d = true ∧ d.base ≠ A.QH_CFG 0 ∧ m.toNat ≠ trivet →
      ∃ t, exec (.registerWrite (.write m a (leBytes 4 v.toNat) e)) s = .next t ∧ t = s.busErr m.toNat a.toNat true cTrv) ∧
    (s.hartRuns k = true →
      (∃ t, exec (.registerWrite (.csrRead k 0x7C0)) s = .next t ∧ t.resp = some (.ok (s.hart k).mtimecmp) ∧
        { t with resp := s.resp } = s) ∧
      (∃ t, exec (.registerWrite (.csrRead k 0xF14)) s = .next t ∧ t.resp = some (.ok k.val) ∧ { t with resp := s.resp } = s) ∧
      (∃ t, exec (.registerWrite (.csrRead k 0xC01)) s = .next t ∧ t.resp = some (.ok s.raw) ∧ { t with resp := s.resp } = s) ∧
      (∃ t, exec (.registerWrite (.csrWrite k 0x305 x)) s = .next t ∧ storeGet 0 (t.hart k).csrs 0x305 = x.toNat ∧
        s.hartsBut t k ∧ { t with harts := s.harts } = s) ∧
      (∃ t, exec (.registerWrite (.csrWrite k 0x7C1 x)) s = .next t ∧ t.hart k = { s.hart k with en0 := x.toNat } ∧
        s.hartsBut t k ∧ { t with harts := s.harts } = s) ∧
      (∃ t, exec (.registerWrite (.csrWrite k 0x7C3 x)) s = .next t ∧ t.hart k = { s.hart k with en1 := x.toNat } ∧
        s.hartsBut t k ∧ { t with harts := s.harts } = s)) ∧
    (s.lc = 0 ∧ data ≠ [] ∧ o + data.length ≤ 0x20000 →
      ∃ t, exec (.registerWrite (.trvRam o 0 data)) s = .next t ∧ t.resp = some (.ok 0) ∧
        t.mbs (trvRamBase + o) data.length = data ∧ s.bytesBut t (trvRamBase + o) data.length ∧
        { t with mem := s.mem, resp := s.resp } = s) ∧
    (s.lc = 0 ∧ o + n ≤ 0x20000 →
      ∃ t, exec (.registerWrite (.trvRam o n [])) s = .next t ∧ t.resp = some (.ok (leNat (s.mbs (trvRamBase + o) n))) ∧
        { t with resp := s.resp } = s)
/-- R51, for the one operation by which every error response is given. -/
def Obligations.BusErrorWhileHeld : Prop :=
  ∀ (s : State) (m a c : Nat) (write : Bool),
    s.flag A.SYS_BUSERR_INFO F.SYS_BUSERR_INFO.VALID = true ∧ s.errHeldNow = false →
      let t := s.busErr m a write c
      t.resp = some (.err c) ∧ t.rd A.SYS_BUSERR_CNT = satSucc (s.rd A.SYS_BUSERR_CNT) ∧
        s.regsBut t [A.SYS_BUSERR_CNT] ∧ (isHart m = true → s.hartsBut t (m - 2)) ∧ (isHart m = false → t.harts = s.harts) ∧
        { t with regs := s.regs, harts := s.harts, fabric := s.fabric, resp := s.resp } = s
/-- R50, R52 to R54, and R36. -/
def Obligations.BusErrorRecorded : Prop :=
  ∀ (s : State) (m m2 : Byte) (a b : BitVec 40) (c c2 : Fin 8) (write w2 : Bool) (k : Fin 4) (v : Word) (e : BusEnv),
    let t := s.busErr m.toNat a.toNat write c
    (s.flag A.SYS_BUSERR_INFO F.SYS_BUSERR_INFO.VALID = false →
      t.resp = some (.err c) ∧ t.rd A.SYS_BUSERR_CNT = satSucc (s.rd A.SYS_BUSERR_CNT) ∧
        t.flag A.SYS_BUSERR_INFO F.SYS_BUSERR_INFO.VALID = true ∧ t.fld A.SYS_BUSERR_INFO F.SYS_BUSERR_INFO.CAUSE = c ∧
        t.fld A.SYS_BUSERR_INFO F.SYS_BUSERR_INFO.MASTER = m.toNat ∧
        t.flag A.SYS_BUSERR_INFO F.SYS_BUSERR_INFO.WRITE = write ∧
        t.rdn A.SYS_BUSERR_ADDR_LO = a.toNat % 2 ^ 32 ∧ t.rdn A.SYS_BUSERR_ADDR_HI = a.toNat / 2 ^ 32 ∧
        t.rd (A.SYS_FLT_CNT 0) = satSucc (s.rd (A.SYS_FLT_CNT 0)) ∧
        { t with regs := s.regs, larder := s.larder, harts := s.harts, fabric := s.fabric, resp := s.resp } = s ∧
        (let u := t.busErr m2.toNat b.toNat w2 c2
         u.fld A.SYS_BUSERR_INFO F.SYS_BUSERR_INFO.MASTER = min m.toNat m2.toNat ∧
         (m2.toNat < m.toNat → u.rdn A.SYS_BUSERR_ADDR_LO = b.toNat % 2 ^ 32) ∧
         u.rd A.SYS_BUSERR_CNT = satSucc (t.rd A.SYS_BUSERR_CNT) ∧ u.rd (A.SYS_FLT_CNT 0) = t.rd (A.SYS_FLT_CNT 0))) ∧
    (m.toNat = 2 + k.val → storeGet 0 (t.hart k).csrs 0x342 = (if write then 7 else 5) ∧ storeGet 0 (t.hart k).csrs 0x343 = a.toNat ∧
      s.hartsBut t k) ∧
    (s.reaches m.toNat A.SYS_BUSERR_INFO true ∧ fget F.SYS_BUSERR_INFO.VALID v = 1 ∧ e.hw = 0 →
      ∃ t, exec (.registerWrite (.write m (BitVec.ofNat 40 A.SYS_BUSERR_INFO) (leBytes 4 v.toNat) e)) s = .next t ∧ t.resp = some (.ok 0) ∧
        t.flag A.SYS_BUSERR_INFO F.SYS_BUSERR_INFO.VALID =
          (!s.errsNow.isEmpty && (!s.errHeldNow || s.flag A.SYS_BUSERR_INFO F.SYS_BUSERR_INFO.VALID))) ∧
    (s.reaches m.toNat A.SYS_BUSERR_CNT true ∧ e.hw = 0 →
      ∃ t, exec (.registerWrite (.write m (BitVec.ofNat 40 A.SYS_BUSERR_CNT) (leBytes 4 v.toNat) e)) s = .next t ∧ t.resp = some (.ok 0) ∧
        t.rdn A.SYS_BUSERR_CNT = min 0xFFFFFFFF (v.toNat + s.errsNow.length) ∧ s.regsBut t [A.SYS_BUSERR_CNT])

/-- HEARTBEAT_LAUNCH, HEARTBEAT_RECEIVE and HEARTBEAT_TIMER_EXPIRY (R94 to R100). -/
def Obligations.HeartbeatEffects : Prop :=
  ∀ (s : State) (h : Half) (seq : BitVec 16) (st : Fin 16) (ready outValid healthy : Bool) (code : Byte),
    let e := s.ep h
    let miss := s.fld A.TEN_STATUS (missFld h)
    (s.rawOn = true ∧ s.raw % 500 = 0 →
      (s.running .k = true ∧ s.running .p = true ∧ s.epK.suppressed = false ∧ s.epP.suppressed = false →
        ∃ t, exec .heartbeatLaunch s = .next t ∧ t.epK.hbSeq = (s.epK.hbSeq + 1) % 65536 ∧ t.epP.hbSeq = (s.epP.hbSeq + 1) % 65536 ∧
          t.out = .heartbeat 1 [s.heartbeatBody .p, crc16 (beBytes 16 (s.heartbeatBody .p))] ::
            .heartbeat 0 [s.heartbeatBody .k, crc16 (beBytes 16 (s.heartbeatBody .k))] :: s.out ∧
          { t with epK := s.epK, epP := s.epP, out := s.out } = s) ∧
      (s.epK.suppressed = true ∧ s.epP.suppressed = true → exec .heartbeatLaunch s = .next s)) ∧
    (s.trivetLost = false ∧ hbValid e.lastSeq seq.toNat = true ∧ st.val = (s.chgOf h).code ∧ (ready = false ∨ s.chgOf h ≠ .init) →
      ∃ t, exec (.heartbeatReceive h seq st ready outValid true code) s = .next t ∧
        t.ep h = { e with lastSeq := some seq.toNat, outValid := outValid, hbAt := s.now, diffRun := 0 } ∧
        t.fld A.TEN_STATUS (missFld h) = 0 ∧ s.regsBut t [A.TEN_STATUS] ∧ { t with regs := s.regs, epK := s.epK, epP := s.epP } = s ∧
        t.ep h.other = s.ep h.other) ∧
    (s.trivetLost = false ∧ hbValid e.lastSeq seq.toNat = true ∧ s.chgOf h = .init ∧ s.inService h.other = false ∧
        s.chg.window = none →
      ∃ t, exec (.heartbeatReceive h seq st true outValid true code) s = .next t ∧ t.chgOf h = .candidate ∧
        (t.chg.half h).cause = 0x01 ∧ t.chg.window = some s.raw ∧ t.chgOf h.other = s.chgOf h.other ∧ t.mem = s.mem) ∧
    (s.trivetLost = false ∧ hbValid e.lastSeq seq.toNat = true ∧ s.inService h = true →
      ∃ t, exec (.heartbeatReceive h seq st ready outValid false code) s = .next t ∧ t.chgOf h = .demoted ∧
        (t.chg.half h).cause = 0x20 ∧ t.mem = s.mem) ∧
    (s.trivetLost = true ∨ hbValid e.lastSeq seq.toNat = false →
      exec (.heartbeatReceive h seq st ready outValid healthy code) s = .next s) ∧
    (s.hbSoon h = true ∨ s.now < e.hbAt + 534 → exec (.heartbeatTimerExpiry h) s = .next s) ∧
    (s.trivetLost = false ∧ s.hbExpired h = true ∧ (s.soon fun c => decide (c = .heartbeatTimerExpiry h.other)) = false →
      (miss < 2 → ∃ t, exec (.heartbeatTimerExpiry h) s = .next t ∧ t.fld A.TEN_STATUS (missFld h) = miss + 1 ∧
        t.rd (A.TEN_HB_MISS h.n) = satSucc (s.rd (A.TEN_HB_MISS h.n)) ∧ (t.ep h).hbAt = s.now ∧ t.chg = s.chg ∧
        s.regsBut t [A.TEN_STATUS, A.TEN_HB_MISS h.n] ∧ { t with regs := s.regs, epK := s.epK, epP := s.epP } = s) ∧
      (miss = 2 ∧ s.chgOf h ≠ .service ∧ s.chgOf h ≠ .lost →
        ∃ t, exec (.heartbeatTimerExpiry h) s = .next t ∧ t.chgOf h = .lost ∧ (t.chg.half h).cause = 0x10 ∧ t.mem = s.mem)) ∧
    (s.trivetLost = false ∧ s.hbExpired h = true ∧ s.hbExpired h.other = true ∧
        (s.soon fun c => decide (c = .heartbeatTimerExpiry h.other)) = true ∧ miss = 2 ∧
        s.fld A.TEN_STATUS (missFld h.other) = 2 ∧ s.chgOf h = .charge ∧ s.chgOf h.other = .standby →
      ∃ t, exec (.heartbeatTimerExpiry h) s = .next t ∧ t.chgOf h = .lost ∧ t.chgOf h.other = .lost ∧ t.chg.holder = 0 ∧
        t.chg.mode = .none ∧ t.mem = s.mem)
/-- R77, for the operations by which the arbiter takes T4 and T5. -/
def Obligations.StandbyHalfTakenOut : Prop :=
  ∀ (s : State) (h : Half) (cause code : Nat) (d : Diag),
    s.trivetLost = false ∧ s.chgOf h = .charge ∧ s.chgOf h.other = .standby →
      (let t := s.toLost h.other cause code
       t.chgOf h = .charge ∧ t.chgOf h.other = .lost ∧ t.chg.holder = s.chg.holder ∧ t.chg.mode = .one) ∧
      (let t := s.demote h.other cause d
       t.chgOf h = .charge ∧ t.chgOf h.other = .demoted ∧ t.chg.holder = s.chg.holder ∧ t.chg.mode = .one)
/-- R75 and R76. -/
def Obligations.HolderTakenOut : Prop :=
  ∀ (s : State) (h : Half) (cause code : Nat),
    let t := s.toLost h cause code
    (s.trivetLost = false ∧ s.chgOf h = .charge ∧ s.chgOf h.other = .standby →
      t.chgOf h = .lost ∧ t.chgOf h.other = .charge ∧ (t.chg.half h.other).cause = 0x31 ∧ t.chg.holder = holderCode h.other ∧
      t.chg.mode = .one ∧ t.rd (A.SYS_FLT_CNT 3) = satSucc (s.rd (A.SYS_FLT_CNT 3)) ∧ t.rd (A.SYS_FLT_CNT 4) = s.rd (A.SYS_FLT_CNT 4) ∧
      t.mem = s.mem) ∧
    (s.trivetLost = false ∧ s.chgOf h = .charge ∧ s.chgOf h.other ≠ .standby ∧ s.chgOf h.other ≠ .charge →
      t.chgOf h = .lost ∧ t.chg.holder = 0 ∧ t.chg.mode = .none ∧
      t.rd (A.SYS_FLT_CNT 4) = satSucc (s.rd (A.SYS_FLT_CNT 4)) ∧ t.mem = s.mem)
/-- CAST_ON_WINDOW_CLOSE, GRANT_READBACK_FAULT and HANDOVER_INSTANT (R65 to R69, R83 to R85). -/
def Obligations.CastOnAndHandoverEffects : Prop :=
  ∀ (s : State) (h : Half) (t1 : Nat) (c : Byte) (l : Bool × Bool),
    (s.trivetLost = false ∧ s.chg.window = some t1 ∧ t1 + 100 * usTicks ≤ s.raw ∧ s.chgOf h = .candidate ∧
        s.chgOf h.other ≠ .candidate ∧ s.inService h.other = false →
      ∃ t, exec .castOnWindowClose s = .next t ∧ t.chgOf h = .charge ∧ (t.chg.half h).cause = 0x02 ∧ t.chg.holder = holderCode h ∧
        t.chg.grant = holderCode h ∧ t.chg.mode = .one ∧ t.chg.window = none ∧ t.chgOf h.other = s.chgOf h.other ∧ t.mem = s.mem) ∧
    (s.trivetLost = true ∨ s.chg.window = none → exec .castOnWindowClose s = .next s) ∧
    (s.chg.window = some t1 ∧ s.raw < t1 + 100 * usTicks → exec .castOnWindowClose s = .next s) ∧
    (s.trivetLost = false ∧ s.holder = some h ∧ s.chgOf h = .charge →
      ∃ t, exec (.grantReadbackFault .disagree) s = .next t ∧ t.chgOf h = .demoted ∧ (t.chg.half h).cause = 0x22 ∧ t.mem = s.mem) ∧
    (∃ t, exec (.grantReadbackFault .both) s = .next t ∧ t.chg = { s.chg with bothPairs := true } ∧ t.chargePin .k = false ∧
        t.chargePin .p = false ∧ t.rd (A.SYS_FLT_CNT 4) = satSucc (s.rd (A.SYS_FLT_CNT 4)) ∧ t.mem = s.mem) ∧
    (∃ t, exec (.grantReadbackFault (.lines h (some l))) s = .next t ∧ t.chg = s.chg.putLine h (some l) ∧
        (l ≠ (true, false) → t.pathOpen h = false) ∧
        (l = (true, false) ∧ s.pairOn h.other = true → t.pathOpen .k = false ∧ t.pathOpen .p = false) ∧ t.mem = s.mem) ∧
    (s.trivetLost = false →
      (c ≠ 0 ∧ c ≠ holderCode .k ∧ c ≠ holderCode .p →
        ∃ t, exec (.grantReadbackFault (.invalid c)) s = .next t ∧ t.chg = { s.chg with holder := c, grant := 0 } ∧ t.holder = none ∧
          t.rd (A.SYS_FLT_CNT 4) = satSucc (s.rd (A.SYS_FLT_CNT 4)) ∧ t.mem = s.mem)) ∧
    (s.trivetLost = true → exec (.grantReadbackFault .disagree) s = .next s ∧ exec (.grantReadbackFault (.invalid c)) s = .next s) ∧
    (s.handoverPending = true ∧ s.trivetLost = false ∧ s.rd64 A.TRV_HANDOVER_LO A.TRV_HANDOVER_HI ≤ s.raw ∧ s.holder = some h ∧
        s.chg.service = none →
      ∃ t, exec .handoverInstant s = .next t ∧ t.chgOf h = .standby ∧ t.chgOf h.other = .charge ∧
        (t.chg.half h.other).probation = false ∧ (t.chg.half h.other).update = false ∧
        t.chg.holder = holderCode h.other ∧ t.chg.grant = holderCode h.other ∧ t.handoverPending = false ∧ t.mem = s.mem) ∧
    (s.handoverPending = false ∨ s.trivetLost = true ∨ s.raw < s.rd64 A.TRV_HANDOVER_LO A.TRV_HANDOVER_HI →
      exec .handoverInstant s = .next s)
/-- FLIT_RECEIVE and HUB_RELAY (R88 to R93, R101 to R103, R109). -/
def Obligations.LinkFlitEffects : Prop :=
  ∀ (s : State) (h : Half) (cls : Fin 16) (flit : BitVec 144) (last : Bool) (c : Nat) (cs : List Nat),
    let e := s.ep h
    let fails := match e.seg.replaying cls with
      | some r => r.fails
      | none => 0
    let upFld := if h = .k then F.TEN_STATUS.SEG_K_UP else F.TEN_STATUS.SEG_P_UP
    let counted := fun (t : State) => t.rd (A.TEN_CRC_ERR h.n) = satSucc (s.rd (A.TEN_CRC_ERR h.n)) ∧ t.mem = s.mem
    (s.segUp h = true ∧ flitGood flit.toNat = true →
      ∃ t, exec (.flitReceive h cls flit) s = .next t ∧ (t.ep h).seg.replaying cls = none ∧
        (t.ep h).seg.buffer = ((cls.val, flit.toNat) :: e.seg.buffer).take 64 ∧ t.ep h.other = s.ep h.other ∧
        { t.ep h with seg := e.seg } = e ∧ { t with epK := s.epK, epP := s.epP } = s) ∧
    (s.segUp h = true ∧ flitGood flit.toNat = false ∧ cls = 1 →
      ∃ t, exec (.flitReceive h cls flit) s = .next t ∧ counted t ∧ t.ep h = e ∧
        t.rd (A.SYS_FLT_CNT 1) = satSucc (s.rd (A.SYS_FLT_CNT 1)) ∧ t.rd (A.TEN_REPLAY h.n) = s.rd (A.TEN_REPLAY h.n) ∧ t.chg = s.chg) ∧
    (s.segUp h = true ∧ flitGood flit.toNat = false ∧ cls ≠ 1 ∧ fails ≠ 3 →
      ∃ t, exec (.flitReceive h cls flit) s = .next t ∧ counted t ∧
        (t.ep h).seg.replaying cls = some ⟨cls, flit.toNat, fails + 1⟩ ∧ (t.ep h).seg.buffer = e.seg.buffer ∧
        t.rd (A.TEN_REPLAY h.n) = satSucc (s.rd (A.TEN_REPLAY h.n)) ∧ t.chg = s.chg) ∧
    (s.segUp h = true ∧ flitGood flit.toNat = false ∧ cls ≠ 1 ∧ fails = 3 ∧ s.trivetLost = false ∧ s.chgOf h ≠ .service ∧ s.chgOf h ≠ .lost →
      ∃ t, exec (.flitReceive h cls flit) s = .next t ∧ counted t ∧ t.chgOf h = .lost ∧ (t.chg.half h).cause = 0x13 ∧
        t.flag A.TEN_STATUS upFld = false) ∧
    (s.segUp h = false → exec (.flitReceive h cls flit) s = .next s) ∧
    (s.linkUp = true ∧ e.seg.may s.now cls = true →
      ∃ t, exec (.hubRelay h cls ⟨last, flit⟩) s = .next t ∧
        t.out = .relayed h.other.n flit.toNat (decide (cls = 1 ∨ cls = 3 ∨ cls = 4 ∧ last = true)) :: s.out ∧
        (last = false → (t.ep h).seg.busy.head? = some cls.val) ∧ t.ep h.other = s.ep h.other ∧
        t.ia.half h.other = s.ia.half h.other ∧
        (t.ia.half h).relayed = (if cls = 4 ∧ last = true then (s.ia.half h).part else (s.ia.half h).relayed) ∧
        { t with ia := s.ia, out := s.out, epK := s.epK, epP := s.epP } = s) ∧
    (e.seg.busy = [] ∧ 1 ≤ cls.val ∧ cls.val ≤ 8 ∧ cls ≠ 5 ∧ cls ≠ 8 → e.seg.may s.now cls = true) ∧
    (e.seg.busy = c :: cs ∧ c ≠ cls.val ∧ 1 ≤ c ∧ c ≤ cls.val ∧ c ≠ 6 ∧ cls.val ≤ 8 → e.seg.may s.now cls = false) ∧
    (s.linkUp = false ∨ e.seg.may s.now cls = false → exec (.hubRelay h cls ⟨last, flit⟩) s = .next s)

/-- IA_TRIGGER, IA_COMMIT_SEND, IA_COMMIT_RECEIVE, IA_COMMIT_TIMEOUT, IA_RERUN_START, IA_CTRL_WRITE and TEN_APP_WRITE. -/
def Obligations.InputAgreementEffects : Prop :=
  ∀ (s : State) (h : Half) (m : Byte) (v : Word) (e : Bool) (b : List (Half × Fin 4096)) (c : Nat) (r : Resync),
    let f := storeGet 0 s.gauge.fired s.trigUnit
    let on := s.flag A.TEN_IA_CTRL F.TEN_IA_CTRL.ENABLE
    let dst := bankBase + s.iaDst h
    let n := 16 * s.iaEntries
    let failed := if h = .k then F.TEN_IA_STATUS.LAST_FAILED_K else F.TEN_IA_STATUS.LAST_FAILED_P
    (f = 0 ∨ f ≤ s.ia.trig → exec (.iaTrigger ⟨e, b⟩) s = .next s) ∧
    (s.ia.trig < f ∧ s.resync = none ∧ on = true ∧ s.iaValid = true ∧ s.inService .k = true ∧ s.inService .p = true →
      ∃ t, exec (.iaTrigger ⟨e, b⟩) s = .next t ∧ t.ia.trig = f ∧ t.ia.c0 = s.raw ∧ t.ia.holder = s.chg.holder ∧
        t.ia.k = ⟨true, true, s.iaSnap .k b, false⟩ ∧ t.ia.p = ⟨true, true, s.iaSnap .p b, false⟩ ∧ t.ia.commitSent = false ∧
        t.mem = s.mem ∧ (b = [] → s.regsBut t [A.TEN_IA_STATUS] ∧ t.out.length = s.out.length + 2)) ∧
    (s.ia.trig < f ∧ s.resync = none ∧ on = true ∧ s.iaValid = true ∧ s.inService h = true ∧ s.inService h.other = false →
      ∃ t, exec (.iaTrigger ⟨e, []⟩) s = .next t ∧ t.mbs dst n = s.mbs (bankBase + s.iaSrc h) n ∧ s.bytesBut t dst n ∧
        t.flag A.TEN_IA_STATUS failed = false ∧ (t.ia.half h).await = false ∧
        bitAt (t.hart (2 * h.n)).latched 0 = true ∧ bitAt (t.hart (2 * h.n + 1)).latched 0 = true) ∧
    (s.ia.trig < f ∧ s.resync = some r ∧ r.final = true ∧ s.trivetLost = false ∧ s.chgOf r.cand = .candidate ∧ s.chgOf r.cand.other = .charge →
      (∃ t, exec (.iaTrigger ⟨false, b⟩) s = .next t ∧ t.resync = none ∧ t.chgOf r.cand = .standby ∧ (t.chg.half r.cand).cause = 0x03) ∧
      (∃ t, exec (.iaTrigger ⟨true, b⟩) s = .next t ∧ t.resync = none ∧ t.chgOf r.cand = .service ∧ (t.chg.half r.cand).cause = 0x39)) ∧
    (s.ia.k.part = true ∧ s.ia.p.part = true ∧ s.ia.k.relayed = true ∧ s.ia.p.relayed = true ∧ s.ia.commitSent = false →
      ∃ t, exec .iaCommitSend s = .next t ∧ t.ia = { s.ia with commitSent := true } ∧ t.out.length = s.out.length + 2 ∧
        { t with ia := s.ia, epK := s.epK, epP := s.epP, out := s.out } = s) ∧
    (s.ia.k.relayed = false ∨ s.ia.p.relayed = false ∨ s.ia.commitSent = true → exec .iaCommitSend s = .next s) ∧
    (s.ia.commitSent = true ∧ (s.ia.half h).await = true ∧ s.ia.k.snap.length = s.iaEntries ∧ s.ia.p.snap.length = s.iaEntries →
      let es := (s.ia.k.snap.zip s.ia.p.snap).map fun e => agree s.ia.holder e.1 e.2
      ∃ t, exec (.iaCommitReceive h) s = .next t ∧ (t.ia.half h).await = false ∧ t.ia.half h.other = s.ia.half h.other ∧
        t.mbs dst n = es.flatMap (fun e => leBytes 8 e.1 ++ leBytes 8 e.2) ∧ s.bytesBut t dst n ∧
        t.flag A.TEN_IA_STATUS failed = false ∧ bitAt (t.hart (2 * h.n)).latched 0 = true) ∧
    (s.ia.commitSent = false ∨ (s.ia.half h).await = false → exec (.iaCommitReceive h) s = .next s) ∧
    ((s.ia.half h).await = true ∧ s.ia.c0 + 12 * usTicks ≤ s.raw ∧
        (s.ia.c0 + 12 * usTicks < s.raw ∨ (s.soon fun x => decide (x = .iaCommitReceive h)) = false) →
      (s.ia.commitSent = false → ∃ t, exec (.iaCommitTimeout h) s = .next t ∧ (t.ia.half h).await = false ∧
        t.flag A.TEN_IA_STATUS failed = true ∧ t.rd A.TEN_IA_FAIL = satSucc (s.rd A.TEN_IA_FAIL) ∧
        bitAt (t.hart (2 * h.n)).latched 0 = true ∧ t.chg = s.chg ∧ t.mem = s.mem) ∧
      (s.ia.commitSent = true ∧ s.inService h = true ∧ s.trivetLost = false →
        ∃ t, exec (.iaCommitTimeout h) s = .next t ∧ t.chgOf h = .demoted ∧ (t.chg.half h).cause = 0x23 ∧ t.mem = s.mem)) ∧
    ((s.ia.half h).await = false ∨ s.raw < s.ia.c0 + 12 * usTicks → exec (.iaCommitTimeout h) s = .next s) ∧
    (s.ia.rerun = some c ∧ c ≤ s.raw →
      ∃ t, exec .iaRerunStart s = .next t ∧ t.ia.rerun = none ∧ t.flag A.COL_STATUS F.COL_STATUS.IA_RERUN = true ∧ t.chg = s.chg) ∧
    (s.reaches m.toNat A.TEN_IA_CTRL true →
      ∃ t, exec (.iaCtrlWrite m v) s = .next t ∧ t.resp = some (.ok 0) ∧
        t.fld A.TEN_IA_CTRL F.TEN_IA_CTRL.ENTRIES = fget F.TEN_IA_CTRL.ENTRIES v ∧
        t.fld A.TEN_IA_CTRL F.TEN_IA_CTRL.TRIG = fget F.TEN_IA_CTRL.TRIG v ∧
        (on = false → t.flag A.TEN_IA_CTRL F.TEN_IA_CTRL.ENABLE = true → t.iaValid = true) ∧
        s.regsBut t [A.TEN_IA_CTRL] ∧ { t with regs := s.regs, resp := s.resp } = s) ∧
    (s.reaches m.toNat (A.TEN_APP h.n) true →
      (m.toNat = 2 + 2 * h.n ∨ m.toNat = 3 + 2 * h.n → ∃ t, exec (.tenAppWrite m h v) s = .next t ∧ t.resp = some (.ok 0) ∧
        t.fld (A.TEN_APP h.n) F.TEN_APP.APP_READY = fget F.TEN_APP.APP_READY v ∧
        t.fld (A.TEN_APP h.n) F.TEN_APP.OUT_VALID = fget F.TEN_APP.OUT_VALID v ∧
        s.regsBut t [A.TEN_APP h.n] ∧ { t with regs := s.regs, resp := s.resp } = s) ∧
      (m.toNat ≠ 2 + 2 * h.n ∧ m.toNat ≠ 3 + 2 * h.n → ∃ t, exec (.tenAppWrite m h v) s = .next t ∧ t.resp = some (.err cPerm) ∧
        t.rd (A.TEN_APP h.n) = s.rd (A.TEN_APP h.n)))
/-- RESYNC_PASS_DONE (Table 2.9, steps 2 and 3). -/
def Obligations.ResyncPassEffects : Prop :=
  ∀ (s : State) (r : Resync) (e : Bool),
    (s.resync = some r ∧ s.trivetLost = false ∧ r.final = false ∧ r.start + r.load / 4 ≤ s.now →
      (r.dirty.length ≤ 64 → ∃ t, exec (.resyncPassDone false) s = .next t ∧ t.resync = some { r with final := true } ∧
        { t with resync := s.resync } = s) ∧
      (64 < r.dirty.length ∧ r.pass < 16 → ∃ t, exec (.resyncPassDone false) s = .next t ∧
        t.resync = some { r with pass := r.pass + 1, dirty := [], start := s.now, load := 64 * r.dirty.length } ∧ t = { s.copyGranules r.cand.other r.dirty with resync := t.resync }) ∧
      (64 < r.dirty.length ∧ 16 ≤ r.pass → ∃ t, exec (.resyncPassDone false) s = .next t ∧ t.resync = none ∧
        t.chgOf r.cand = .service ∧ (t.chg.half r.cand).cause = 0x35 ∧ t.chgOf r.cand.other = s.chgOf r.cand.other ∧ t.mem = s.mem) ∧
      (∃ t, exec (.resyncPassDone true) s = .next t ∧ t.resync = none ∧ t.chgOf r.cand = .service ∧
        (t.chg.half r.cand).cause = 0x39 ∧ t.chgOf r.cand.other = s.chgOf r.cand.other ∧ t.mem = s.mem)) ∧
    (s.resync = none ∨ s.trivetLost = true ∨ s.resync = some r ∧ s.now < r.start + r.load / 4 → exec (.resyncPassDone e) s = .next s)
/-- ALIVE_LINE_TOGGLE, ALIVE_LINE_TIMEOUT, TRIVET_LOCKSTEP_ERROR, TRIVET_WATCHDOG_EXPIRY and VDD_TRV_FAIL (R124 to R128). -/
def Obligations.TrivetLossEffects : Prop :=
  ∀ (s : State) (xs : List Exit),
    let f4 := A.SYS_FLT_CNT 4
    (∃ t, exec .aliveLineToggle s = .next t ∧ t = { s with alive := s.now }) ∧
    ((s.running .k = true ∨ s.running .p = true) ∧ s.alive + 2 * usTicks ≤ s.now ∧ s.trivetLost = false ∧
        (s.alive + 2 * usTicks < s.now ∨ (s.soon fun c => decide (c = .aliveLineToggle)) = false) →
      ∃ t, exec .aliveLineTimeout s = .next t ∧ t.trivetLost = true ∧ t.rd f4 = satSucc (s.rd f4) ∧ t.chg = s.chg ∧ t.mem = s.mem) ∧
    (s.now < s.alive + 2 * usTicks → exec .aliveLineTimeout s = .next s) ∧
    (s.trivetLost = false →
      (∃ t, exec .trivetLockstepError s = .next t ∧ t.trivetLost = true ∧ t.rd f4 = satSucc (s.rd f4) ∧ t.chg = s.chg ∧ t.mem = s.mem) ∧
      (∃ t, exec .trivetWatchdogExpiry s = .next t ∧ t.trivetLost = true ∧ t.rd f4 = satSucc (s.rd f4) ∧ t.chg = s.chg ∧ t.mem = s.mem)) ∧
    (∃ t, exec .vddTrvFail s = .next t ∧ t.trivetLost = true ∧ t.chg = { s.chg with grant := 0, bothPairs := false, lineK := none, lineP := none } ∧ t.chargePin .k = false ∧
      t.chargePin .p = false ∧ t.mem = s.mem) ∧
    (s.trivetLost = true → exec .trivetLockstepError s = .next s ∧ exec .trivetWatchdogExpiry s = .next s ∧
      exec .aliveLineTimeout s = .next s ∧ s.exits xs = s)
/-- TWIN_HEARTBEAT_SEND, TWIN_HEARTBEAT_RECEIVE, TWIN_HEARTBEAT_TIMEOUT and TWIN_PEER_LOW (R134 to R140). -/
def Obligations.TwinEffects : Prop :=
  ∀ (s : State) (idx : Fin 2) (cand holds peer : Bool),
    let own := s.fld A.TRV_TWIN F.TRV_TWIN.INDEX
    (s.twinOn = true ∧ s.rawOn = true ∧ s.raw % 500 = 0 →
      ∃ t, exec .twinHeartbeatSend s = .next t ∧ t.out.head? = some (.twin own t.holder.isSome (t.role = 1)) ∧ t.mem = s.mem ∧
        (s.role ≠ 0 → t.out = .twin own s.holder.isSome (s.role = 1) :: s.out ∧ { t with out := s.out } = s)) ∧
    (s.twinOn = true ∧ own ≠ idx.val →
      ∃ t, exec (.twinHeartbeatReceive idx cand holds peer) s = .next t ∧ t.twin.misses = 0 ∧ t.twin.at_ = s.now ∧
        t.flag A.TRV_TWIN F.TRV_TWIN.LINK_UP = true ∧ t.clash = false ∧
        t.flag A.TRV_TWIN F.TRV_TWIN.PEER_HOLD = peer ∧
        (s.role ≠ 0 → t.role = s.role) ∧ (s.role = 0 ∧ s.holder.isSome = true ∧ holds = true → t.role = 2) ∧
        (s.role = 0 ∧ s.holder.isSome = true ∧ holds = false ∧ cand = true → t.role = if own = 0 then 1 else 2)) ∧
    (s.twinOn = true ∧ own = idx.val ∧ s.clash = false →
      ∃ t, exec (.twinHeartbeatReceive idx cand holds peer) s = .next t ∧ t.clash = true ∧ t.role = 0 ∧
        t.rd (A.SYS_FLT_CNT 4) = satSucc (s.rd (A.SYS_FLT_CNT 4)) ∧ t.chg = s.chg ∧ t.mem = s.mem) ∧
    (s.twinOn = true ∧ s.twin.at_ + 534 ≤ s.now ∧ s.twinSoon = false →
      (s.twin.misses < 2 → ∃ t, exec (.twinHeartbeatTimeout peer) s = .next t ∧ t.twin.misses = s.twin.misses + 1 ∧ t.twin.at_ = s.now ∧
        t.role = s.role ∧ t.chg = s.chg ∧ t.mem = s.mem) ∧
      (s.twin.misses = 2 ∧ s.role = 2 → ∃ t, exec (.twinHeartbeatTimeout true) s = .next t ∧ t.twin.misses = 3 ∧ t.role = 2 ∧
        t.flag A.TRV_TWIN F.TRV_TWIN.LINK_UP = false ∧ t.rd (A.SYS_FLT_CNT 2) = satSucc (s.rd (A.SYS_FLT_CNT 2)) ∧ t.mem = s.mem) ∧
      (s.twin.misses = 2 ∧ s.role = 2 ∧ s.twin.peerLow = true ∧ s.clash = false ∧ s.col.qk = [] ∧ s.col.qp = [] →
        ∃ t, exec (.twinHeartbeatTimeout false) s = .next t ∧ t.twin.misses = 3 ∧ t.role = 1 ∧ t.mem = s.mem)) ∧
    (s.twinOn = true →
      (s.twin.misses ≠ 3 ∨ s.role ≠ 2 → ∃ t, exec .twinPeerLow s = .next t ∧ t.twin.peerLow = true ∧ t.role = s.role ∧
        t.flag A.TRV_TWIN F.TRV_TWIN.PEER_HOLD = false ∧ s.regsBut t [A.TRV_TWIN] ∧ { t with regs := s.regs, twin := s.twin } = s) ∧
      (s.twin.misses = 3 ∧ s.role = 2 ∧ s.clash = false ∧ s.col.qk = [] ∧ s.col.qp = [] →
        ∃ t, exec .twinPeerLow s = .next t ∧ t.role = 1 ∧ t.chg = s.chg ∧ t.mem = s.mem)) ∧
    (s.twinOn = false → exec .twinHeartbeatSend s = .next s ∧ exec (.twinHeartbeatReceive idx cand holds peer) s = .next s ∧
      exec (.twinHeartbeatTimeout peer) s = .next s ∧ exec .twinPeerLow s = .next s)

/-- COL_SUBMIT and COL_SUBMIT_QUEUE_SPACE (R690, R691). -/
def Obligations.ColanderSubmission : Prop :=
  ∀ (s : State) (h : Fin 4) (m : Byte) (v : Word) (x : Copy),
    let a := A.COL_SUB_CTRL h
    let hf := hartHalf h
    let c := ((s.ok 0).plainWrite a v).portCopy h
    let r := s.submitCheck hf (2 + h) c
    (s.reaches m.toNat a true ∧ m.toNat = 2 + h.val ∧ fget F.COL_SUB_CTRL.GO v = 1 ∧ s.colSpace hf c = true →
      (r = 0 ∧ s.raw < c.rp → ∃ t, exec (.colSubmit m h v) s = .next t ∧ t.resp = some (.ok 0) ∧
        t.col.queue hf = s.col.queue hf ++ [{ c with arrived := s.raw }] ∧ t.col.queue hf.other = s.col.queue hf.other ∧
        t.fld (A.COL_SUB_STAT h) F.COL_SUB_STAT.RESULT = 0 ∧ s.regsBut t [a, A.COL_SUB_STAT h, A.COL_QUEUE] ∧
        { t with regs := s.regs, col := s.col, resp := s.resp } = s) ∧
      (r = 0 → ∃ t, exec (.colSubmit m h v) s = .next t ∧ t.resp = some (.ok 0) ∧ t.fld (A.COL_SUB_STAT h) F.COL_SUB_STAT.RESULT = 0) ∧
      (r = 1 ∨ r = 2 ∨ r = 3 ∨ r = 5 → ∃ t, exec (.colSubmit m h v) s = .next t ∧ t.fld (A.COL_SUB_STAT h) F.COL_SUB_STAT.RESULT = r ∧
        t.rd A.COL_SUB_REJ = satSucc (s.rd A.COL_SUB_REJ) ∧ t.col = s.col ∧ s.regsBut t [a, A.COL_SUB_STAT h, A.COL_SUB_REJ]) ∧
      (r = 4 ∨ r = 6 → ∃ t, exec (.colSubmit m h v) s = .next t ∧ t.fld (A.COL_SUB_STAT h) F.COL_SUB_STAT.RESULT = r ∧
        t.rd A.COL_DISCARD = satSucc (s.rd A.COL_DISCARD) ∧ t.col = s.col ∧ s.regsBut t [a, A.COL_SUB_STAT h, A.COL_DISCARD])) ∧
    (s.reaches m.toNat a true ∧ m.toNat = 2 + h.val ∧ fget F.COL_SUB_CTRL.GO v = 1 ∧ s.colSpace hf c = false →
      ∃ t, exec (.colSubmit m h v) s = .next t ∧ t.resp = none ∧ t.col = { s.col with waiting := s.col.waiting ++ [(h.val, c)] } ∧
        s.regsBut t [a]) ∧
    (s.reaches m.toNat a true ∧ m.toNat ≠ 2 + h.val →
      ∃ t, exec (.colSubmit m h v) s = .next t ∧ t.resp = some (.err cPerm) ∧ t.col = s.col ∧ t.rd a = s.rd a) ∧
    (s.col.waiting.find? (fun w => w.1 == h.val) = some (h.val, x) ∧ s.colSpace hf x = true ∧ s.submitCheck hf (2 + h) x = 0 ∧ s.raw < x.rp →
      ∃ t, exec (.colSubmitQueueSpace h) s = .next t ∧ t.resp = some (.ok 0) ∧
        t.col.queue hf = s.col.queue hf ++ [{ x with arrived := s.raw }] ∧ (t.col.waiting.all fun w => w.1 != h.val) = true ∧
        t.fld (A.COL_SUB_STAT h) F.COL_SUB_STAT.RESULT = 0 ∧ s.regsBut t [A.COL_SUB_STAT h, A.COL_QUEUE]) ∧
    (s.col.waiting.find? (fun w => w.1 == h.val) = some (h.val, x) ∧ s.colSpace hf x = true →
      ∃ t, exec (.colSubmitQueueSpace h) s = .next t ∧ t.resp = some (.ok 0) ∧ (t.col.waiting.all fun w => w.1 != h.val) = true ∧
        t.fld (A.COL_SUB_STAT h) F.COL_SUB_STAT.RESULT = s.submitCheck hf (2 + h) x) ∧
    (s.col.waiting.find? (fun w => w.1 == h.val) = none → exec (.colSubmitQueueSpace h) s = .next s)
/-- COL_RELEASE_POINT, COL_WAIT_EXPIRY and COL_RELEASE_PATH_OPEN (R117, R119, R815). -/
def Obligations.ColanderRelease : Prop :=
  ∀ (s : State) (h : Half) (n : Fin 256) (rp : Dword) (a b : Copy),
    let st := A.COL_STREAM_STAT n
    (s.holder = some h ∧ s.raw < rp.toNat → exec (.colReleasePoint n rp) s = .next s) ∧
    (s.holder = some h ∧ rp.toNat ≤ s.raw ∧ s.chg.mode = .two ∧ (s.chg.half h.other).probation = false ∧ s.outValid h = true ∧
        s.mayRelease h = true ∧ s.copyOf h n rp.toNat = some a ∧ s.copyOf h.other n rp.toNat = some b ∧ a.sent = false ∧ s.chg.last = none →
      (a.bytes = b.bytes → ∃ t, exec (.colReleasePoint n rp) s = .next t ∧ .released n rp.toNat a.bytes ∈ t.out ∧
        t.rd A.COL_MATCH = satSucc (s.rd A.COL_MATCH) ∧ t.rd A.COL_RELEASED = satSucc (s.rd A.COL_RELEASED) ∧
        t.fld st F.COL_STREAM_STAT.MM_RUN = 0 ∧ t.col.queue h = dropFirst (Copy.is n rp.toNat) (s.col.queue h) ∧
        t.col.queue h.other = dropFirst (Copy.is n rp.toNat) (s.col.queue h.other) ∧ t.chg = s.chg ∧ t.mem = s.mem) ∧
      (a.bytes ≠ b.bytes → ∃ t, exec (.colReleasePoint n rp) s = .next t ∧ t.out = s.out ∧
        t.rd A.COL_MISMATCH = satSucc (s.rd A.COL_MISMATCH) ∧ t.rd A.COL_RELEASED = s.rd A.COL_RELEASED ∧
        t.rdn A.COL_LAST_MM = 0x40 * 2 ^ 24 + min (firstDiff a.bytes b.bytes) 0xFFF * 2 ^ 12 + n.val ∧
        (t.col.queue h).length < (s.col.queue h).length ∧ t.chg = s.chg ∧ t.mem = s.mem)) ∧
    (s.holder = some h ∧ rp.toNat ≤ s.raw ∧ s.chg.mode = .one ∧ (s.chg.half h.other).probation = false ∧ s.outValid h = true ∧
        s.mayRelease h = true ∧ ((s.copyOf h n rp.toNat).any fun x => x.sent) = false ∧ s.copyOf (s.bytesFrom h rp.toNat) n rp.toNat = some a →
      ∃ t, exec (.colReleasePoint n rp) s = .next t ∧ .released n rp.toNat a.bytes ∈ t.out ∧
        t.rd A.COL_RELEASED = satSucc (s.rd A.COL_RELEASED) ∧ t.rd A.COL_MATCH = s.rd A.COL_MATCH ∧
        t.col.queue h = dropFirst (Copy.is n rp.toNat) (s.col.queue h) ∧ t.chg = s.chg ∧ t.mem = s.mem) ∧
    (s.bytesFrom h rp.toNat = (match s.chg.last with
      | some (i, f) => if rp.toNat ≠ 0 ∧ rp.toNat < i then f else h
      | none => h)) ∧
    (s.holder = some h ∧ s.waitEnd n rp.toNat ≤ s.raw ∧ s.chg.mode = .two ∧ (s.chg.half h.other).probation = false ∧ s.outValid h = true ∧
        s.pathOpen h = true ∧ s.copyOf h n rp.toNat = some a ∧ s.copyOf h.other n rp.toNat = none ∧ a.sent = false ∧
        s.copySoon n rp.toNat = false →
      ∃ t, exec (.colWaitExpiry n rp) s = .next t ∧ t.out = s.out ∧ t.rd A.COL_WAIT_EXP = satSucc (s.rd A.COL_WAIT_EXP) ∧
        t.rdn A.COL_LAST_MM = 0x41 * 2 ^ 24 + 0xFFF * 2 ^ 12 + n.val ∧ (t.col.queue h).length < (s.col.queue h).length ∧
        t.chg = s.chg ∧ t.mem = s.mem) ∧
    (s.copyOf .k n rp.toNat = none ∧ s.copyOf .p n rp.toNat = none → exec (.colWaitExpiry n rp) s = .next s) ∧
    (s.trivetLost = false ∧ s.dueKeys = [(rp.toNat, n.val)] ∧ s.holder = some h ∧ s.chg.mode = .two ∧ s.chg.last = none ∧
        (s.chg.half h.other).probation = false ∧ s.outValid h = true ∧ s.driveGrant.mayRelease h = true ∧
        s.copyOf h n rp.toNat = some a ∧ s.copyOf h.other n rp.toNat = some b ∧ a.sent = false ∧ a.bytes = b.bytes →
      ∃ t, exec .colReleasePathOpen s = .next t ∧ .released n rp.toNat a.bytes ∈ t.out ∧ t.chg.grant = holderCode h ∧
        t.chg.bothPairs = false ∧ t.rd A.COL_MATCH = satSucc (s.rd A.COL_MATCH) ∧ t.rd A.COL_RELEASED = satSucc (s.rd A.COL_RELEASED) ∧
        t.col.queue h = dropFirst (Copy.is n rp.toNat) (s.col.queue h) ∧ t.mem = s.mem) ∧
    (s.trivetLost = true ∧ s.dueKeys = [] → exec .colReleasePathOpen s = .next s) ∧
    (s.dueKeys = [] ∧ s.trivetLost = false →
      ∃ t, exec .colReleasePathOpen s = .next t ∧ t.chg.bothPairs = false ∧
        t.chg.grant = (match s.holder with | some x => holderCode x | none => 0) ∧
        t.chg.lineK = none ∧ t.chg.lineP = none ∧
        { t with chg := { t.chg with grant := s.chg.grant, bothPairs := s.chg.bothPairs, lineK := s.chg.lineK, lineP := s.chg.lineP } } = s)
/-- COL_SELFTEST_END, COL_SELFTEST_PERIODIC and ISO_SERVICE_WRITE (R696 to R701). -/
def Obligations.ColanderSelftest : Prop :=
  ∀ (s : State) (h : Half) (m : Byte) (v : Word) (x : SelfTest) (c k p : Bool),
    let r := testResult c k p
    (s.col.test = none → exec (.colSelftestEnd c k p) s = .next s) ∧
    (s.col.test = some x ∧ s.raw < x.start + 150 * usTicks → exec (.colSelftestEnd c k p) s = .next s) ∧
    (s.col.test = some x ∧ x.start + 150 * usTicks ≤ s.raw ∧ s.trivetLost = false ∧ s.col.again = [] ∧ s.col.due = false →
      ∃ t, exec (.colSelftestEnd c k p) s = .next t ∧ t.col.test = none ∧ t.flag A.COL_STATUS F.COL_STATUS.ST_RUN = false ∧
        t.fld A.COL_STATUS F.COL_STATUS.ST_RESULT = r ∧ t.mem = s.mem ∧
        (r = 5 → t.flag A.COL_STATUS F.COL_STATUS.COL_FAIL = true ∧ t.rd (A.SYS_FLT_CNT 4) = satSucc (s.rd (A.SYS_FLT_CNT 4)) ∧
          t.chg = s.chg) ∧
        (r = 2 ∧ s.inService .k = true → t.chgOf .k = .demoted ∧ (t.chg.half .k).cause = 0x21) ∧
        (r = 3 ∧ s.inService .p = true → t.chgOf .p = .demoted ∧ (t.chg.half .p).cause = 0x21) ∧
        (r = 1 ∧ x.periodic = true → t.chg = s.chg) ∧
        (r = 1 ∧ x.periodic = false ∧ s.charged = some h ∧ s.chgOf h.other = .standby →
          t.chgOf h.other = .service ∧ (t.chg.half h.other).cause = 0x36 ∧ t.chgOf h = .charge ∧ t.chg.mode = .one)) ∧
    (s.testMay = true ∧ s.col.lastPer + s.fld A.COL_CTRL F.COL_CTRL.ST_PERIOD * 60000 * msTicks ≤ s.raw →
      (s.col.test = none → ∃ t, exec .colSelftestPeriodic s = .next t ∧ t.col.test = some ⟨s.raw, true⟩ ∧
        t.flag A.COL_STATUS F.COL_STATUS.ST_RUN = true ∧ t.rd A.COL_SELFTEST = satSucc (s.rd A.COL_SELFTEST) ∧
        s.regsBut t [A.COL_STATUS, A.COL_SELFTEST] ∧ { t with regs := s.regs, col := s.col } = s) ∧
      (s.col.test ≠ none → ∃ t, exec .colSelftestPeriodic s = .next t ∧ t = { s with col := { s.col with due := true } })) ∧
    (s.testMay = false → exec .colSelftestPeriodic s = .next s) ∧
    (s.reaches m.toNat A.COL_CTRL true →
      ∃ t, exec (.isoServiceWrite m v) s = .next t ∧ t.resp = some (.ok 0) ∧
        t.fld A.COL_CTRL F.COL_CTRL.ISO_SERVICE = fget F.COL_CTRL.ISO_SERVICE v ∧ t.fld A.COL_CTRL F.COL_CTRL.EN = (if s.lc = 3 then 0 else fget F.COL_CTRL.EN v) ∧
        (s.chgOf h = .service → (t.hrst h).isolated = (fget F.COL_CTRL.ISO_SERVICE v == 1)) ∧
        (s.chgOf h ≠ .service → (t.hrst h).isolated = (s.hrst h).isolated) ∧ t.chg = s.chg ∧ t.mem = s.mem)

/-- Table 4.12, 0x01 to 0x09, 0x0C to 0x15 and 0x18. -/
def Obligations.ActionWordRegisters : Prop :=
  ∀ (s : State) (i : Fin 24) (inl : Bool) (w : ActWord) (r : Recipe) (c : ActCtx),
    let sb := if bitAt w.x 0 then (w.imm.signExtend 64).toNat else c.get w.b
    let zb := if bitAt w.x 0 then w.imm.toNat else c.get w.b
    (s.actsWord i inl 0x01 w r c →
      exec (.recNop i inl w) s = .next (s.putCtx i inl (c.next))) ∧
    (s.actsWord i inl 0x02 w r c →
      exec (.recJmp i inl w) s = .next (s.putCtx i inl ({ c.next with pc := w.imm.toNat % 2 ^ 13 }))) ∧
    (s.actsWord i inl 0x03 w r c ∧ (if bitAt w.x 2 then brHolds (w.x / 8) (c.get w.a) w.y else brHolds (w.x / 8) (c.get w.a) (c.get w.b)) = true →
      exec (.recBr i inl w) s = .next (s.putCtx i inl ({ c.next with pc := w.imm.toNat % 2 ^ 13 }))) ∧
    (s.actsWord i inl 0x03 w r c ∧ (if bitAt w.x 2 then brHolds (w.x / 8) (c.get w.a) w.y else brHolds (w.x / 8) (c.get w.a) (c.get w.b)) = false →
      exec (.recBr i inl w) s = .next (s.putCtx i inl (c.next))) ∧
    (s.actsWord i inl 0x04 w r c ∧ c.stack.length < 4 →
      exec (.recCall i inl w) s = .next (s.putCtx i inl ({ c.next with pc := w.imm.toNat % 2 ^ 13, stack := (c.pc + 1) :: c.stack }))) ∧
    (s.actsWord i inl 0x05 w r c ∧ c.stack ≠ [] →
      exec (.recRet i inl w) s = .next (s.putCtx i inl ({ c.next with pc := c.stack.headD 0, stack := c.stack.tail }))) ∧
    (s.actsWord i inl 0x06 w r c →
      exec (.recSetst i inl w) s = .next (s.putCtx i inl ({ c.next with setst := some (w.imm.toNat % 2 ^ 10) }))) ∧
    (s.actsWord i inl 0x07 w r c →
      exec (.recDiscard i inl w) s = .next (s.putCtx i inl ({ c.next with input := none }))) ∧
    (s.actsWord i inl 0x08 w r c ∧ bitAt w.x 1 = false ∧ bitAt w.x 0 = false →
      exec (.recLdi i inl w) s = .next (s.putCtx i inl (c.next.put w.d w.imm.toNat))) ∧
    (s.actsWord i inl 0x08 w r c ∧ bitAt w.x 1 = false ∧ bitAt w.x 0 = true →
      exec (.recLdi i inl w) s = .next (s.putCtx i inl (c.next.put w.d (sext32 w.imm)))) ∧
    (s.actsWord i inl 0x08 w r c ∧ bitAt w.x 1 = true →
      exec (.recLdi i inl w) s = .next (s.putCtx i inl (c.next.put w.d (w.imm.toNat * 2 ^ 32 + c.get w.d % 2 ^ 32)))) ∧
    (s.actsWord i inl 0x09 w r c →
      exec (.recMov i inl w) s = .next (s.putCtx i inl (c.next.put w.d (c.get w.a)))) ∧
    (s.actsWord i inl 0x0C w r c ∧ 1 ≤ w.y.val ∧ w.x.val + w.y.val ≤ 64 →
      exec (.recExt i inl w) s = .next (s.putCtx i inl (c.next.put w.d (c.get w.a / 2 ^ w.x.val % 2 ^ w.y.val)))) ∧
    (s.actsWord i inl 0x0D w r c ∧ 1 ≤ w.y.val ∧ w.x.val + w.y.val ≤ 64 →
      exec (.recIns i inl w) s = .next (s.putCtx i inl (c.next.put w.d (c.get w.d % 2 ^ w.x.val + c.get w.a % 2 ^ w.y.val * 2 ^ w.x.val +
          c.get w.d / 2 ^ (w.x.val + w.y.val) * 2 ^ (w.x.val + w.y.val))))) ∧
    (s.actsWord i inl 0x0E w r c →
      exec (.recAdd i inl w) s = .next (s.putCtx i inl (c.next.put w.d (c.get w.a + sb)))) ∧
    (s.actsWord i inl 0x0F w r c →
      exec (.recSub i inl w) s = .next (s.putCtx i inl (c.next.put w.d (2 ^ 64 + c.get w.a - sb)))) ∧
    (s.actsWord i inl 0x10 w r c →
      exec (.recAnd i inl w) s = .next (s.putCtx i inl (c.next.put w.d (c.get w.a &&& zb)))) ∧
    (s.actsWord i inl 0x11 w r c →
      exec (.recOr i inl w) s = .next (s.putCtx i inl (c.next.put w.d (c.get w.a ||| zb)))) ∧
    (s.actsWord i inl 0x12 w r c →
      exec (.recXor i inl w) s = .next (s.putCtx i inl (c.next.put w.d (c.get w.a ^^^ zb)))) ∧
    (s.actsWord i inl 0x13 w r c →
      exec (.recShl i inl w) s = .next (s.putCtx i inl (c.next.put w.d (c.get w.a <<< (zb % 64))))) ∧
    (s.actsWord i inl 0x14 w r c →
      exec (.recShr i inl w) s = .next (s.putCtx i inl (c.next.put w.d (c.get w.a >>> (zb % 64))))) ∧
    (s.actsWord i inl 0x15 w r c →
      exec (.recSar i inl w) s = .next (s.putCtx i inl ({ c.next with f := c.f.set w.d (BitVec.sshiftRight (BitVec.ofNat 64 (c.get w.a)) (zb % 64)) }))) ∧
    (s.actsWord i inl 0x18 w r c →
      exec (.recFld i inl w) s = .next (s.putCtx i inl (c.next.put w.d (s.ctxFlags i c.ctx))))
/-- Table 4.12, 0x00, 0x0A, 0x0B, 0x16 and 0x17. -/
def Obligations.ActionWordMemory : Prop :=
  ∀ (s : State) (i : Fin 24) (inl : Bool) (w : ActWord) (r : Recipe) (c : ActCtx) (bs : List Byte) (st : Nat),
    let n := w.y.val % 16
    let off := w.imm.toNat + (if bitAt w.y 7 then c.get w.a % 65536 else 0)
    let v := if bitAt w.y 6 then beBytes n (c.get w.d) else leBytes n (c.get w.d)
    let vars := neWin i + (16 * c.ctx + 4)
    let fl := neWin i + (16 * c.ctx + 2)
    (s.actsWord i inl 0x0A w r c ∧ (n = 1 ∨ n = 2 ∨ n = 4 ∨ n = 8) ∧ s.areaRead i inl r c w.x off n = some bs →
      exec (.recLd i inl w) s = .next (s.putCtx i inl (c.next.put w.d (if bitAt w.y 6 then beNat bs else leNat bs)))) ∧
    (s.actsWord i inl 0x0B w r c ∧ (n = 1 ∨ n = 2 ∨ n = 4 ∨ n = 8) ∧ w.x.val = 1 ∧ off + n ≤ 12 →
      ∃ t, exec (.recSt i inl w none) s = .next t ∧ t.mbs (vars + off) n = v ∧ s.bytesBut t (vars + off) n ∧
        { t with mem := s.mem } = s.putCtx i inl c.next) ∧
    (s.actsWord i inl 0x0B w r c ∧ (n = 1 ∨ n = 2 ∨ n = 4 ∨ n = 8) ∧ w.x.val = 6 ∧ off + n ≤ 4096 →
      ∃ t, exec (.recSt i inl w none) s = .next t ∧ t.mbs (neWin i + off) n = v ∧ s.bytesBut t (neWin i + off) n ∧
        { t with mem := s.mem } = s.putCtx i inl c.next) ∧
    (s.actsWord i inl 0x0B w r c ∧ (n = 1 ∨ n = 2 ∨ n = 4 ∨ n = 8) ∧ w.x.val = 4 ∧ off + n ≤ 9216 →
      ∃ t, exec (.recSt i inl w none) s = .next t ∧ slice (t.eng i).build off n = v ∧ t.mem = s.mem ∧ s.engsBut t i ∧
        { t with ne := s.ne } = s) ∧
    (s.actsWord i inl 0x0B w r c ∧ (n = 1 ∨ n = 2 ∨ n = 4 ∨ n = 8) ∧ w.x.val = 7 ∧ inl = true ∧ off + n ≤ 64 →
      ∃ t, exec (.recSt i inl w none) s = .next t ∧ (t.eng i).frame = (s.eng i).frame.map (fun x => x.write off v) ∧
        (t.eng i).inl = some c.next ∧ s.engsBut t i ∧ { t with ne := s.ne } = s) ∧
    (s.actsWord i inl 0x16 w r c →
      ∃ t, exec (.recFset i inl w none) s = .next t ∧ t.ctxFlags i c.ctx = (s.ctxFlags i c.ctx ||| w.imm.toNat % 65536) ∧
        s.bytesBut t fl 2 ∧ { t with mem := s.mem } = s.putCtx i inl c.next) ∧
    (s.actsWord i inl 0x17 w r c →
      ∃ t, exec (.recFclr i inl w none) s = .next t ∧ t.ctxFlags i c.ctx = (s.ctxFlags i c.ctx &&& (65535 - w.imm.toNat % 65536)) ∧
        s.bytesBut t fl 2 ∧ { t with mem := s.mem } = s.putCtx i inl c.next) ∧
    (s.actsWord i false 0x00 w r c ∧ (c.setst = some st ∨ (c.setst = none ∧ c.nextSt = some st)) →
      ∃ t, exec (.recEnd i false w none) s = .next t ∧ (t.eng i).evt = none ∧ t.ctxState i c.ctx = st % 65536 ∧
        t.rd (A.NE_EVT_DONE i) = satSucc (s.rd (A.NE_EVT_DONE i)) ∧ s.bytesBut t (neWin i + 16 * c.ctx) 2 ∧
        s.regsBut t [A.NE_EVT_DONE i] ∧ s.engsBut t i) ∧
    (s.actsWord i false 0x00 w r c ∧ c.setst = none ∧ c.nextSt = none →
      ∃ t, exec (.recEnd i false w none) s = .next t ∧ (t.eng i).evt = none ∧ t.mem = s.mem ∧
        t.rd (A.NE_EVT_DONE i) = satSucc (s.rd (A.NE_EVT_DONE i)) ∧ s.regsBut t [A.NE_EVT_DONE i] ∧ s.engsBut t i)
/-- R160, R175 and Table 3.7. -/
def Obligations.ActionUnitFaults : Prop :=
  ∀ (s : State) (i : Fin 24) (inl : Bool) (w : ActWord) (r : Recipe) (c : ActCtx),
    let gone := fun (cause : Nat) (t : State) =>
      t.neState i = neFaulted ∧ t.rdn (A.NE_FAULT i) = cause * 2 ^ 24 + c.state % 2 ^ 11 * 2 ^ 13 + c.pc % 2 ^ 13 ∧
      t.rd (A.SYS_FLT_CNT 2) = satSucc (s.rd (A.SYS_FLT_CNT 2)) ∧ (t.eng i).rx = [] ∧ (t.eng i).pend = [] ∧
      (t.eng i).evt = none ∧ (t.eng i).inl = (s.eng i).inl ∧ (t.eng i).frame = (s.eng i).frame ∧
      ((t.eng i).dma.all fun d => !d.notify) = true ∧ (t.eng i).dma.length ≤ 4 ∧ t.mem = s.mem
    (s.actCtx i false = some (r, c) ∧ c.wait = none ∧ c.pc < r.nact ∧ s.wordAt i r c.pc = actBits 0x01 w ∧ w.ecc ≠ .double ∧
        s.fld (A.NE_LIMITS i) F.NE_LIMITS.ACT_LIMIT ≤ c.words →
      ∃ t, exec (.recNop i false w) s = .next t ∧ gone 1 t) ∧
    (s.actCtx i false = some (r, c) ∧ c.wait = none ∧ c.pc < r.nact ∧ s.wordAt i r c.pc = actBits 0x2E w ∧ w.ecc ≠ .double ∧
        c.words < s.fld (A.NE_LIMITS i) F.NE_LIMITS.ACT_LIMIT →
      ∃ t, exec (.recInlskip i false w) s = .next t ∧ gone 2 t) ∧
    (s.actCtx i false = some (r, c) ∧ c.wait = none ∧ r.nact ≤ c.pc →
      ∃ t, exec (.recNop i false w) s = .next t ∧ gone 2 t) ∧
    (s.actCtx i false = some (r, c) ∧ c.wait = none ∧ c.pc < r.nact ∧ s.wordAt i r c.pc = actBits 0x01 w ∧ w.ecc = .double →
      ∃ t, exec (.recNop i false w) s = .next t ∧ gone 3 t) ∧
    (s.actCtx i false = some (r, c) ∧ c.wait = none ∧ c.pc < r.nact ∧ s.wordAt i r c.pc = actBits 0x01 w ∧ w.ecc = .single ∧
        c.words < s.fld (A.NE_LIMITS i) F.NE_LIMITS.ACT_LIMIT →
      ∃ t, exec (.recNop i false w) s = .next t ∧ t.eng i = { s.eng i with evt := some c.next } ∧
        t.rd (A.NE_ECC_CORR i) = satSucc (s.rd (A.NE_ECC_CORR i)) ∧ t.rd (A.SYS_FLT_CNT 1) = satSucc (s.rd (A.SYS_FLT_CNT 1)) ∧
        t.mem = s.mem) ∧
    (s.actsWord i true 0x2E w r c ∧ s.neHeld i = false ∧ (w.imm.toNat = 0 ∨ 255 < w.imm.toNat) →
      ∃ t, exec (.recInlskip i true w) s = .next t ∧ t.neState i = neFaulted ∧ (t.eng i).evt = none ∧
        t.rdn (A.NE_FAULT i) = 2 * 2 ^ 24 + c.state % 2 ^ 11 * 2 ^ 13 + c.pc % 2 ^ 13) ∧
    (s.actsWord i false 0x04 w r c ∧ 4 ≤ c.stack.length → ∃ t, exec (.recCall i false w) s = .next t ∧ gone 2 t) ∧
    (s.actsWord i false 0x05 w r c ∧ c.stack = [] → ∃ t, exec (.recRet i false w) s = .next t ∧ gone 2 t) ∧
    (s.actsWord i false 0x0C w r c ∧ 64 < w.x.val + w.y.val → ∃ t, exec (.recExt i false w) s = .next t ∧ gone 2 t) ∧
    (s.actsWord i false 0x0A w r c ∧ s.areaRead i false r c w.x (w.imm.toNat + (if bitAt w.y 7 then c.get w.a % 65536 else 0)) (w.y % 16) = none →
      ∃ t, exec (.recLd i false w) s = .next t ∧ gone 2 t) ∧
    (s.actCtx i inl = none → exec (.recNop i inl w) s = .next s ∧ exec (.recAdd i inl w) s = .next s ∧
      exec (.recEnd i inl w none) s = .next s ∧ exec (.actWaitEnd i inl) s = .next s) ∧
    (s.actCtx i inl = some (r, c) ∧ c.wait ≠ none → exec (.recNop i inl w) s = .next s ∧ exec (.recTxeth i inl w) s = .next s) ∧
    (s.actCtx i inl = some (r, c) ∧ c.pc < r.nact ∧ s.wordAt i r c.pc = actBits 0x02 w → exec (.recNop i inl w) s = .next s)

/-- Table 4.12, 0x19 to 0x1C and 0x2C to 0x2F. -/
def Obligations.ActionWordBuildAndLook : Prop :=
  ∀ (s : State) (i : Fin 24) (inl : Bool) (w : ActWord) (r : Recipe) (c : ActCtx) (bs : List Byte) (v hit cls ctx : Nat) (x : InlFrame),
    let imm := w.imm.toNat
    let adv := fun (t : State) => (if inl then (t.eng i).inl else (t.eng i).evt) = some c.next ∧ s.engsBut t i ∧ { t with ne := s.ne } = s
    let tdst := if bitAt w.x 0 then c.get w.a % 65536 else 0
    let blen := (if bitAt w.x 0 then c.get w.a else imm) % 2 ^ 14
    (s.actsWord i inl 0x19 w r c ∧ s.areaRead i inl r c 3 (imm % 65536) (imm / 65536) = some bs ∧ tdst + bs.length ≤ 9216 →
      ∃ t, exec (.recTplcpy i inl w) s = .next t ∧ slice (t.eng i).build tdst bs.length = bs ∧
        (t.eng i).blen = max (s.eng i).blen (tdst + bs.length) ∧ adv t) ∧
    (s.actsWord i inl 0x1A w r c ∧ blen ≤ 9216 →
      ∃ t, exec (.recBlen i inl w) s = .next t ∧ (t.eng i).blen = blen ∧ (t.eng i).build = (s.eng i).build ∧ adv t) ∧
    (s.actsWord i inl 0x1B w r c ∧ s.areaRead i inl r c 0 (imm % 65536) (c.get w.b % 2 ^ 14) = some bs ∧ imm / 65536 + bs.length ≤ 9216 →
      ∃ t, exec (.recCpyin i inl w) s = .next t ∧ slice (t.eng i).build (imm / 65536) bs.length = bs ∧
        (t.eng i).blen = max (s.eng i).blen (imm / 65536 + bs.length) ∧ adv t) ∧
    (s.actsWord i inl 0x1C w r c ∧ s.areaRead i inl r c (w.x / 8) (c.get w.a) (c.get w.b) = some bs ∧ crcKind w.y imm bs = some v →
      exec (.recCrc i inl w) s = .next (s.putCtx i inl (c.next.put w.d v))) ∧
    (s.actsWord i inl 0x2C w r c ∧
        s.tcamLookup i (beBytes 8 (c.get w.a) ++ beBytes 8 (c.get w.b)) (c.get 0) = (some hit, cls, ctx) ∧ ctx ≤ 255 →
      exec (.recLookup i inl w) s = .next (s.useFree.putCtx i inl (c.next.put w.d (cls + hit * 2 ^ 8 + ctx * 2 ^ 16)))) ∧
    (s.actsWord i inl 0x2C w r c ∧ s.tcamLookup i (beBytes 8 (c.get w.a) ++ beBytes 8 (c.get w.b)) (c.get 0) = (none, cls, ctx) →
      ∃ h ≤ 255, exec (.recLookup i inl w) s = .next (s.useFree.putCtx i inl (c.next.put w.d (0xFF + h * 2 ^ 8)))) ∧
    (s.actsWord i inl 0x2D w r c ∧ imm % 256 < r.nfmt ∧ (s.areaRead i inl r c (w.x / 8) (c.get w.a) 0).isSome = true →
      exec (.recDecode i inl w) s = .next (s.putCtx i inl { c.next with f :=
        (s.decodeFrom i r (fun k => ((s.areaRead i inl r c (w.x / 8) (c.get w.a + k) 1).getD []).headD 0) 8 (imm % 256) 0
          ⟨c.f, List.replicate 16 0⟩).f })) ∧
    (s.actsWord i true 0x2E w r c ∧ 1 ≤ imm ∧ imm ≤ 255 ∧ (s.eng i).frame = some x ∧ x.window + 64 * imm + 64 ≤ x.bytes.length →
      ∃ t, exec (.recInlskip i true w) s = .next t ∧ (t.eng i).frame = some { x with window := x.window + 64 * imm, released := true } ∧
        (t.eng i).inl = some c.next ∧ s.engsBut t i ∧ { t with ne := s.ne } = s) ∧
    (s.actsWord i true 0x2E w r c ∧ 1 ≤ imm ∧ imm ≤ 255 ∧ (s.eng i).frame = some x ∧ (s.eng i).passing = [] ∧
        x.bytes.length < x.window + 64 * imm + 64 ∧ s.inlOut i x.port = none →
      ∃ t, exec (.recInlskip i true w) s = .next t ∧ (t.eng i).frame = none ∧ (t.eng i).inl = none ∧
        t.rd (A.NE_INL_DISC i) = satSucc (s.rd (A.NE_INL_DISC i)) ∧ s.regsBut t [A.NE_INL_DISC i] ∧ s.engsBut t i) ∧
    (s.actsWord i true 0x2E w r c ∧ 1 ≤ imm ∧ imm ≤ 255 ∧ (s.eng i).frame = some x ∧ (s.eng i).passing = [] ∧
        x.bytes.length < x.window + 64 * imm + 64 ∧ (s.inlOut i x.port).isSome = true →
      ∃ t, exec (.recInlskip i true w) s = .next t ∧ (t.eng i).frame = none ∧ (t.eng i).inl = none ∧
        t.rd (A.NE_INL_PASS i) = satSucc (s.rd (A.NE_INL_PASS i)) ∧ s.engsBut t i) ∧
    (s.actsWord i true 0x2F w r c ∧ (s.eng i).frame = some x ∧ x.released = true ∧ (s.eng i).passing = [] →
      ∃ t, exec (.recInldrop i true w) s = .next t ∧ (t.eng i).frame = none ∧ (t.eng i).inl = none ∧ s.engsBut t i) ∧
    (s.actsWord i true 0x2F w r c ∧ (s.eng i).frame = some x ∧ x.released = false ∧ (s.eng i).passing = [] →
      ∃ t, exec (.recInldrop i true w) s = .next t ∧ (t.eng i).frame = none ∧ (t.eng i).inl = none ∧
        t.rd (A.NE_INL_DISC i) = satSucc (s.rd (A.NE_INL_DISC i)) ∧ s.regsBut t [A.NE_INL_DISC i] ∧ s.engsBut t i ∧
        { t with regs := s.regs, ne := s.ne } = s)
/-- Table 4.12, 0x1D to 0x24, and ACT_WAIT_END (R227). -/
def Obligations.ActionWordSend : Prop :=
  ∀ (s : State) (i : Fin 24) (w : ActWord) (r : Recipe) (c : ActCtx) (bs : List Byte) (inl : Bool) (v : Word) (st : Nat),
    let e := s.eng i
    let imm := w.imm.toNat
    let hk := i.val / 12 * 8 + w.x.val % 8
    let hf := unitHalf i 12
    let ch := i.val / 12 * 4 + w.x.val % 4
    let canSend := 0 < e.blen ∧ s.txUsed i + txCells e.blen ≤ 160
    let sent := fun (t : State) => (t.eng i).evt = some c.next ∧ (t.eng i).blen = 0 ∧ (t.eng i).build = [] ∧ t.mem = s.mem ∧ s.engsBut t i
    let room := (e.dma.filter fun x => x.chan = w.x.val % 4).length < 4
    let area := w.x.val / 8
    let size := if area = 1 then 12 else if area = 4 then 9216 else 4096
    (s.actsWord i false 0x1D w r c ∧ bitAt imm 9 = false ∧ 14 ≤ e.blen ∧ canSend →
      ∃ t, exec (.recTxeth i false w) s = .next t ∧ sent t ∧ s.regsBut t [] ∧
        (t.plane hf).inq = (s.plane hf).inq ++ [⟨9, e.built, s.raw, w.y % 8, imm % 4096, 0, none, some i, 0, 0⟩]) ∧
    (s.actsWord i false 0x1D w r c ∧ bitAt imm 9 = false ∧ 14 ≤ e.blen ∧ 160 < s.txUsed i + txCells e.blen →
      exec (.recTxeth i false w) s = .next (s.putCtx i false { c with wait := some (0x1D, w) })) ∧
    (s.actsWord i false 0x1E w r c ∧ s.boundCx i (w.x % 4) = true ∧ w.y.val % 4 ≠ 3 ∧ canSend ∧ (s.can ch).bufs.length < 8 →
      ∃ t, exec (.recTxcan i false w) s = .next t ∧ sent t ∧ s.regsBut t [] ∧
        (t.can ch).bufs = (s.can ch).bufs ++ [⟨eventFrame (w.y % 4) (bitAt w.y 2) (bitAt w.y 3) (c.get w.a % 2 ^ 29) e.built⟩]) ∧
    (s.actsWord i false 0x1E w r c ∧ s.boundCx i (w.x % 4) = true ∧ w.y.val % 4 ≠ 3 ∧ canSend ∧ 8 ≤ (s.can ch).bufs.length →
      exec (.recTxcan i false w) s = .next (s.putCtx i false { c with wait := some (0x1E, w) })) ∧
    (s.actsWord i false 0x1F w r c ∧ s.boundCx i (w.x % 4) = true ∧ canSend ∧ s.colMap ch (imm % 1024) = true →
      ∃ t, exec (.recTxstitch i false w) s = .next t ∧ sent t ∧ t.rd (A.DTT_TX_REJ ch) = satSucc (s.rd (A.DTT_TX_REJ ch)) ∧
        s.regsBut t [A.DTT_TX_REJ ch] ∧ t.cx = s.cx) ∧
    (s.actsWord i false 0x1F w r c ∧ s.boundCx i (w.x % 4) = true ∧ canSend ∧ s.colMap ch (imm % 1024) = false ∧
        ((s.can ch).pattern.any fun p => decide (imm % 1024 < p.stitches.length)) = true ∧
        e.blen ≤ s.fld (A.DTT_LIMITS ch) F.DTT_LIMITS.STITCH_DLEN →
      ∃ t, exec (.recTxstitch i false w) s = .next t ∧ sent t ∧ s.regsBut t [] ∧
        storeGet ⟨[], 0⟩ (t.can ch).stitch (imm % 1024) = ⟨e.built, s.raw⟩ ∧ s.cansBut t ch) ∧
    (s.actsWord i false 0x20 w r c ∧ canSend ∧ 255 < imm % 65536 →
      ∃ t, exec (.recTxcol i false w) s = .next t ∧ sent t ∧ t.rd A.COL_SUB_REJ = satSucc (s.rd A.COL_SUB_REJ) ∧ t.col = s.col) ∧
    (s.actsWord i false 0x20 w r c ∧ canSend ∧ imm % 65536 ≤ 255 ∧ s.raw < c.get w.a ∧
        s.colSpace hf ⟨imm % 65536, c.get w.a, e.built, 0, false⟩ = true ∧
        s.submitCheck hf (0x10 + i) ⟨imm % 65536, c.get w.a, e.built, 0, false⟩ = 0 →
      ∃ t, exec (.recTxcol i false w) s = .next t ∧ sent t ∧
        t.col.queue hf = s.col.queue hf ++ [⟨imm % 65536, c.get w.a, e.built, s.raw, false⟩]) ∧
    (s.actsWord i false 0x21 w r c ∧ canSend →
      ∃ t, exec (.recTxinl i false w) s = .next t ∧ sent t ∧ (t.eng i).inserts = e.inserts ++ [(w.x.val % 2, e.built)] ∧
        { t with ne := s.ne } = s) ∧
    (s.actsWord i false 0x22 w r c ∧ 1 ≤ c.get w.b ∧ c.get w.b ≤ 4096 ∧ s.areaRead i false r c area (imm % 65536) (c.get w.b) = some bs ∧ room →
      ∃ t, exec (.recDmawr i false w) s = .next t ∧ (t.eng i).evt = some c.next ∧ s.engsBut t i ∧ { t with ne := s.ne } = s ∧
        (t.eng i).dma = e.dma ++ [⟨w.x % 4, c.ctx, true, 0, 0, c.get w.a % 2 ^ 40, bs, c.get w.b, bitAt w.y 0,
          if area = 0 ∨ area = 5 then c.input else none, false⟩]) ∧
    (s.actsWord i false 0x23 w r c ∧ 1 ≤ c.get w.b ∧ c.get w.b ≤ 4096 ∧ (area = 1 ∨ area = 4 ∨ area = 6) ∧
        imm % 65536 + c.get w.b ≤ size →
      (room → ∃ t, exec (.recDmard i false w) s = .next t ∧ (t.eng i).evt = some c.next ∧ s.engsBut t i ∧ { t with ne := s.ne } = s ∧
        (t.eng i).dma = e.dma ++ [⟨w.x % 4, c.ctx, false, area, imm % 65536, c.get w.a % 2 ^ 40, [], c.get w.b, true, none, false⟩]) ∧
      (¬ room → exec (.recDmard i false w) s = .next (s.putCtx i false { c with wait := some (0x23, w) }))) ∧
    (s.actsWord i false 0x24 w r c ∧ (if bitAt w.x 2 then some (c.get w.b) else s.inputStamp i false c) = some st ∧ c.get w.a % 16 = 0 ∧ room →
      ∃ t, exec (.recDmaent i false w) s = .next t ∧ (t.eng i).evt = some c.next ∧ s.engsBut t i ∧ { t with ne := s.ne } = s ∧
        (t.eng i).dma = e.dma ++ [⟨w.x % 4, c.ctx, true, 0, 0, c.get w.a % 2 ^ 40,
          leBytes 8 (c.get w.d) ++ leBytes 8 st, 16, bitAt w.y 0, none, true⟩]) ∧
    (s.actCtx i false = some (r, c) ∧ c.wait = some (0x1D, w) ∧ bitAt imm 9 = false ∧ 14 ≤ e.blen ∧ canSend →
      ∃ t, exec (.actWaitEnd i false) s = .next t ∧ sent t ∧ s.regsBut t [] ∧
        (t.plane hf).inq = (s.plane hf).inq ++ [⟨9, e.built, s.raw, w.y % 8, imm % 4096, 0, none, some i, 0, 0⟩]) ∧
    (s.actCtx i false = some (r, c) ∧ c.wait = some (0x1E, w) ∧ s.boundCx i (w.x % 4) = true ∧ w.y.val % 4 ≠ 3 ∧ canSend ∧
        (s.can ch).bufs.length < 8 →
      ∃ t, exec (.actWaitEnd i false) s = .next t ∧ sent t ∧ s.regsBut t [] ∧
        (t.can ch).bufs = (s.can ch).bufs ++ [⟨eventFrame (w.y % 4) (bitAt w.y 2) (bitAt w.y 3) (c.get w.a % 2 ^ 29) e.built⟩]) ∧
    (s.actCtx i false = some (r, c) ∧ c.wait = some (0x1F, w) ∧ s.boundCx i (w.x % 4) = true ∧ canSend ∧ s.colMap ch (imm % 1024) = true →
      ∃ t, exec (.actWaitEnd i false) s = .next t ∧ sent t ∧ t.rd (A.DTT_TX_REJ ch) = satSucc (s.rd (A.DTT_TX_REJ ch))) ∧
    (s.actCtx i false = some (r, c) ∧ c.wait = some (0x20, w) ∧ canSend ∧ imm % 65536 ≤ 255 ∧ s.raw < c.get w.a ∧
        s.colSpace hf ⟨imm % 65536, c.get w.a, e.built, 0, false⟩ = true ∧
        s.submitCheck hf (0x10 + i) ⟨imm % 65536, c.get w.a, e.built, 0, false⟩ = 0 →
      ∃ t, exec (.actWaitEnd i false) s = .next t ∧ sent t ∧
        t.col.queue hf = s.col.queue hf ++ [⟨imm % 65536, c.get w.a, e.built, s.raw, false⟩]) ∧
    (s.actCtx i false = some (r, c) ∧ c.wait = some (0x21, w) ∧ canSend →
      ∃ t, exec (.actWaitEnd i false) s = .next t ∧ sent t ∧ (t.eng i).inserts = e.inserts ++ [(w.x.val % 2, e.built)]) ∧
    (s.actCtx i false = some (r, c) ∧ c.wait = some (0x22, w) ∧ 1 ≤ c.get w.b ∧ c.get w.b ≤ 4096 ∧
        s.areaRead i false r c area (imm % 65536) (c.get w.b) = some bs ∧ room →
      ∃ t, exec (.actWaitEnd i false) s = .next t ∧ (t.eng i).evt = some c.next ∧
        (t.eng i).dma = e.dma ++ [⟨w.x % 4, c.ctx, true, 0, 0, c.get w.a % 2 ^ 40, bs, c.get w.b, bitAt w.y 0,
          if area = 0 ∨ area = 5 then c.input else none, false⟩]) ∧
    (s.actCtx i false = some (r, c) ∧ c.wait = some (0x23, w) ∧ 1 ≤ c.get w.b ∧ c.get w.b ≤ 4096 ∧
        (area = 1 ∨ area = 4 ∨ area = 6) ∧ imm % 65536 + c.get w.b ≤ size ∧ room →
      ∃ t, exec (.actWaitEnd i false) s = .next t ∧ (t.eng i).evt = some c.next ∧
        (t.eng i).dma = e.dma ++ [⟨w.x % 4, c.ctx, false, area, imm % 65536, c.get w.a % 2 ^ 40, [], c.get w.b, true, none, false⟩]) ∧
    (s.actCtx i false = some (r, c) ∧ c.wait = some (0x24, w) ∧
        (if bitAt w.x 2 then some (c.get w.b) else s.inputStamp i false c) = some st ∧ c.get w.a % 16 = 0 ∧ room →
      ∃ t, exec (.actWaitEnd i false) s = .next t ∧ (t.eng i).evt = some c.next ∧
        (t.eng i).dma = e.dma ++ [⟨w.x % 4, c.ctx, true, 0, 0, c.get w.a % 2 ^ 40,
          leBytes 8 (c.get w.d) ++ leBytes 8 st, 16, bitAt w.y 0, none, true⟩]) ∧
    (s.actCtx i false = some (r, c) ∧ c.wait = some (0x28, w) ∧ s.boundHk i (w.x % 8) = true ∧ (s.hook hk).tx.length < 8 →
      ∃ t, exec (.actWaitEnd i false) s = .next t ∧ (t.eng i).evt = some c.next ∧
        (t.hook hk).tx = (s.hook hk).tx ++ [BitVec.ofNat 32 (c.get w.a)]) ∧
    (s.actCtx i false = some (r, c) ∧ c.wait = some (0x29, w) ∧ s.boundHk i (w.x % 8) = true ∧ (s.hook hk).rx.head? = some v →
      ∃ t, exec (.actWaitEnd i false) s = .next t ∧ (t.eng i).evt = some (c.next.put w.d v.toNat) ∧
        (t.hook hk).rx = (s.hook hk).rx.tail) ∧
    (s.actCtx i false = some (r, c) ∧ c.wait = some (0x23, w) ∧ w.ecc = .clean ∧ 1 ≤ c.get w.b ∧ c.get w.b ≤ 4096 ∧
        (area = 1 ∨ area = 4 ∨ area = 6) ∧ imm % 65536 + c.get w.b ≤ size ∧ ¬ room →
      exec (.actWaitEnd i false) s = .next (s.putCtx i false c)) ∧
    (s.actCtx i inl = some (r, c) ∧ c.wait = none → exec (.actWaitEnd i inl) s = .next s)
/-- Table 4.12, 0x25 to 0x2B. -/
def Obligations.ActionWordUnits : Prop :=
  ∀ (s : State) (i : Fin 24) (inl : Bool) (w : ActWord) (r : Recipe) (c : ActCtx) (lag : Fin 5) (v : Word) (st : Nat),
    let e := s.eng i
    let imm := w.imm.toNat
    let tm := w.x.val % 16
    let hk := i.val / 12 * 8 + w.x.val % 8
    let ch := imm % 64
    let far := ¬ (0x10 ≤ s.mbxReceiver ch ∧ s.mbxReceiver ch < 0x28)
    let adv := fun (t : State) => (if inl then (t.eng i).inl else (t.eng i).evt) = some c.next ∧ s.engsBut t i
    let posts := 1 ≤ w.y.val ∧ w.y.val ≤ 8 ∧ w.a.val + (w.y.val - 1) / 2 ≤ 15
    let mine := s.mbxBound ch = true ∧ s.mbxSender ch = 0x10 + i
    (s.actsWord i inl 0x25 w r c ∧ 0 < imm →
      ∃ t, exec (.recTstart i inl w) s = .next t ∧ adv t ∧ { t with ne := s.ne } = s ∧ ((t.eng i).timer tm).armed = true ∧
        ((t.eng i).timer tm).expiry = rawMod (s.raw + imm) ∧ ((t.eng i).timer tm).interval = imm ∧
        ((t.eng i).timer tm).periodic = bitAt w.y 0 ∧ ((t.eng i).timer tm).ctx = (if bitAt w.y 1 then c.ctx else (e.timer tm).ctx) ∧
        ((t.eng i).pend.all fun p => !(p.prio == prTimer && p.idx == tm)) = true) ∧
    (s.actsWord i inl 0x26 w r c →
      ∃ t, exec (.recTstop i inl w) s = .next t ∧ adv t ∧ { t with ne := s.ne } = s ∧
        (t.eng i).timer tm = { e.timer tm with armed := false } ∧
        ((t.eng i).pend.all fun p => !(p.prio == prTimer && p.idx == tm)) = true) ∧
    (s.actsWord i inl 0x27 w r c ∧ w.y = 0 ∧ lag.val ≤ s.raw →
      exec (.recGtime i inl w lag) s = .next (s.putCtx i inl (c.next.put w.d (s.raw - lag)))) ∧
    (s.actsWord i inl 0x27 w r c ∧ w.y ≠ 0 ∧ s.inputStamp i inl c = some st →
      exec (.recGtime i inl w lag) s = .next (s.putCtx i inl (c.next.put w.d st))) ∧
    (s.actsWord i false 0x28 w r c ∧ s.boundHk i (w.x % 8) = true →
      ((s.hook hk).tx.length < 8 → ∃ t, exec (.recHkput i false w) s = .next t ∧ (t.eng i).evt = some c.next ∧
        (t.hook hk).tx = (s.hook hk).tx ++ [BitVec.ofNat 32 (c.get w.a)] ∧ (t.hook hk).rx = (s.hook hk).rx ∧ s.hooksBut t hk ∧ t.mem = s.mem) ∧
      (8 ≤ (s.hook hk).tx.length → exec (.recHkput i false w) s = .next (s.putCtx i false { c with wait := some (0x28, w) }))) ∧
    (s.actsWord i false 0x29 w r c ∧ s.boundHk i (w.x % 8) = true →
      ((s.hook hk).rx.head? = some v → ∃ t, exec (.recHkget i false w) s = .next t ∧
        (t.eng i).evt = some (c.next.put w.d v.toNat) ∧ (t.hook hk).rx = (s.hook hk).rx.tail ∧ (t.hook hk).tx = (s.hook hk).tx ∧
        s.hooksBut t hk ∧ t.mem = s.mem) ∧
      ((s.hook hk).rx = [] → exec (.recHkget i false w) s = .next (s.putCtx i false { c with wait := some (0x29, w) }))) ∧
    (s.actsWord i false 0x2A w r c ∧ mine ∧ posts ∧ s.mbxWasFull ch = false →
      ∃ t, exec (.recMbpost i false w) s = .next t ∧ (t.eng i).evt = some c.next ∧
        (∀ k < w.y.val, t.rdn (A.MBX_MSG ch k) = c.get (w.a + k / 2) / 2 ^ (32 * (k % 2)) % 2 ^ 32) ∧
        t.mbxFull ch = true ∧ t.rd (A.MBX_RING_CNT ch) = satSucc (s.rd (A.MBX_RING_CNT ch)) ∧ t.mem = s.mem ∧
        (far → s.regsBut t (A.MBX_STATUS ch :: A.MBX_RING_CNT ch :: (List.range w.y.val).map (A.MBX_MSG ch)))) ∧
    (s.actsWord i false 0x2A w r c ∧ mine ∧ posts ∧ s.mbxWasFull ch = true →
      ∃ t, exec (.recMbpost i false w) s = .next t ∧ (t.eng i).evt = some c.next ∧
        t.rd (A.MBX_REJ_CNT ch) = satSucc (s.rd (A.MBX_REJ_CNT ch)) ∧ s.regsBut t [A.MBX_REJ_CNT ch] ∧ t.mem = s.mem) ∧
    (s.actsWord i inl 0x2B w r c ∧ mine ∧ s.mbxWasFull ch = false →
      ∃ t, exec (.recBell i inl w) s = .next t ∧ (if inl then (t.eng i).inl else (t.eng i).evt) = some c.next ∧ t.mbxFull ch = true ∧
        t.rd (A.MBX_RING_CNT ch) = satSucc (s.rd (A.MBX_RING_CNT ch)) ∧ t.mem = s.mem ∧
        (far → s.regsBut t [A.MBX_STATUS ch, A.MBX_RING_CNT ch])) ∧
    (s.actsWord i inl 0x2B w r c ∧ mine ∧ s.mbxWasFull ch = true ∧ s.mbxFull ch = true →
      ∃ t, exec (.recBell i inl w) s = .next t ∧ (if inl then (t.eng i).inl else (t.eng i).evt) = some c.next ∧ t.mbxFull ch = true ∧
        t.flag (A.MBX_STATUS ch) F.MBX_STATUS.MERGED = true ∧ t.rd (A.MBX_RING_CNT ch) = satSucc (s.rd (A.MBX_RING_CNT ch)) ∧
        s.regsBut t [A.MBX_STATUS ch, A.MBX_RING_CNT ch] ∧ t.mem = s.mem)

/-- NE_RUN_START, NE_RUN_STOP, NE_STOP_COMPLETE, NE_HARD_STOP, NE_DOORBELL_WRITE, NE_BIND_WRITE, NE_INL_CTRL_WRITE,
NE_INL_LAT_CLEAR and NE_TIMER_EXPIRY. -/
def Obligations.NeedleRunEffects : Prop :=
  ∀ (s : State) (m : Byte) (i : Fin 24) (hard : Byte) (v : Word) (b : Fin 32) (x : Fin 16),
    let e := s.eng i
    let st := A.NE_STATUS i
    let tm := e.timer x
    let bellHart := m.toNat = trivet ∨ (2 ≤ m.toNat ∧ m.toNat ≤ 5 ∧ masterHalf m.toNat = some (unitHalf i 12))
    (s.reaches m.toNat (A.NE_CTRL i) true →
      (s.neState i = neStopped ∧ s.flag st F.NE_STATUS.LOADED = true →
        ∃ t, exec (.neRunStart m i hard) s = .next t ∧ t.resp = some (.ok 0) ∧ t.neState i = neRunning ∧
          t.flag (A.NE_CTRL i) F.NE_CTRL.RUN = true ∧ t.fld (A.NE_CTRL i) F.NE_CTRL.HARD_US = max 1 hard.toNat ∧
          (t.eng i).timers = (e.armAll s.raw).timers ∧ s.engsBut t i ∧ s.regsBut t [st, A.NE_CTRL i, A.NE_EVT_MERGE i] ∧
          (s.rd (A.NE_DOORBELL i) = 0 → t.eng i = e.armAll s.raw ∧ s.regsBut t [st, A.NE_CTRL i]) ∧
          { t with regs := s.regs, ne := s.ne, resp := s.resp } = s) ∧
      (s.neState i ≠ neStopped ∨ s.flag st F.NE_STATUS.LOADED = false →
        ∃ t, exec (.neRunStart m i hard) s = .next t ∧ t.resp = some (.ok 0) ∧ t.flag st F.NE_STATUS.START_REJ = true ∧
          t.neState i = s.neState i ∧ s.regsBut t [st, A.NE_CTRL i] ∧ { t with regs := s.regs, resp := s.resp } = s) ∧
      (s.neState i = neRunning →
        ∃ t, exec (.neRunStop m i hard) s = .next t ∧ t.resp = some (.ok 0) ∧ t.neState i = neStopping ∧
          t.flag (A.NE_CTRL i) F.NE_CTRL.RUN = false ∧ (t.eng i).rx = [] ∧ (t.eng i).pend = [] ∧ (t.eng i).evt = e.evt ∧
          (t.eng i).stopAt = s.now ∧ t.rd (A.NE_DOORBELL i) = 0 ∧
          t.rdn (A.NE_EVT_DROP i) = min 0xFFFFFFFF (s.rdn (A.NE_EVT_DROP i) + (e.pend.length + e.rx.length)) ∧
          s.engsBut t i ∧ s.regsBut t [st, A.NE_CTRL i, A.NE_DOORBELL i, A.NE_EVT_DROP i] ∧
          { t with regs := s.regs, ne := s.ne, resp := s.resp } = s)) ∧
    (s.neState i = neStopping ∧ e.evt = none ∧ e.dma = [] →
      ∃ t, exec (.neStopComplete i) s = .next t ∧ t.neState i = neStopped ∧ s.onlyRegs t [st]) ∧
    (s.neState i ≠ neStopping → exec (.neStopComplete i) s = .next s ∧ exec (.neHardStop i) s = .next s) ∧
    (s.neState i = neStopping ∧ e.stopAt + s.fld (A.NE_CTRL i) F.NE_CTRL.HARD_US * usTicks ≤ s.now ∧ e.dma = [] ∧ e.evt ≠ none →
      ∃ t, exec (.neHardStop i) s = .next t ∧ t.neState i = neStopped ∧ t.flag st F.NE_STATUS.HARD_STOPPED = true ∧
        t.rdn (A.NE_FAULT i) / 2 ^ 24 = 6 ∧ (t.eng i).evt = none ∧ (t.eng i).dma = [] ∧ s.engsBut t i ∧
        s.regsBut t [st, A.NE_FAULT i] ∧ t.mem = s.mem ∧ t.chg = s.chg ∧ t.kcp = s.kcp) ∧
    (s.neState i = neStopping ∧ e.stopAt + s.fld (A.NE_CTRL i) F.NE_CTRL.HARD_US * usTicks ≤ s.now ∧ e.dma = [] ∧ e.evt = none →
      ∃ t, exec (.neHardStop i) s = .next t ∧ t.neState i = neStopped ∧ s.onlyRegs t [st] ∧
        t.flag st F.NE_STATUS.HARD_STOPPED = s.flag st F.NE_STATUS.HARD_STOPPED) ∧
    (s.reaches m.toNat (A.NE_DOORBELL i) true ∧ bellHart ∧ s.neState i = neRunning ∧
        (e.pend.all fun q => !(q.prio == prBell && q.idx == b.val)) = true →
      ∃ t, exec (.neDoorbellWrite m i (BitVec.ofNat 32 (2 ^ b.val))) s = .next t ∧ t.resp = some (.ok 0) ∧
        (t.eng i).pend = e.pend ++ [⟨prBell, b, 0, 0, 0, s.raw, false⟩] ∧
        t.rd (A.NE_DOORBELL i) = (s.rd (A.NE_DOORBELL i) ||| BitVec.ofNat 32 (2 ^ b.val)) ∧ s.engsBut t i ∧
        s.regsBut t [A.NE_DOORBELL i] ∧ { t with regs := s.regs, ne := s.ne, resp := s.resp } = s) ∧
    (s.reaches m.toNat (A.NE_DOORBELL i) true ∧ bellHart →
      ∃ t, exec (.neDoorbellWrite m i v) s = .next t ∧ t.resp = some (.ok 0) ∧ t.rd (A.NE_DOORBELL i) = (s.rd (A.NE_DOORBELL i) ||| v) ∧
        s.engsBut t i ∧ s.regsBut t [A.NE_DOORBELL i, A.NE_EVT_MERGE i] ∧ { t with regs := s.regs, ne := s.ne, resp := s.resp } = s) ∧
    (s.reaches m.toNat (A.NE_BIND i) true →
      (s.neState i = neStopped ∧ (v.toNat % 4096 &&& s.boundElsewhere i) = 0 →
        ∃ t, exec (.neBindWrite m i v) s = .next t ∧ t.resp = some (.ok 0) ∧ t.rdn (A.NE_BIND i) = v.toNat % 4096 ∧
          s.regsBut t [A.NE_BIND i] ∧ { t with regs := s.regs, resp := s.resp } = s) ∧
      (s.neState i = neStopped ∧ (v.toNat % 4096 &&& s.boundElsewhere i) ≠ 0 →
        ∃ t, exec (.neBindWrite m i v) s = .next t ∧ t.flag st F.NE_STATUS.BIND_REJ = true ∧
          (t.rdn (A.NE_BIND i) &&& s.boundElsewhere i) = 0 ∧ s.regsBut t [st, A.NE_BIND i]) ∧
      (s.neState i ≠ neStopped → ∃ t, exec (.neBindWrite m i v) s = .next t ∧ t.flag st F.NE_STATUS.BIND_REJ = true ∧
        s.regsBut t [st])) ∧
    (s.reaches m.toNat (A.NE_INL_CTRL i) true →
      (s.neState i = neStopped ∧ s.inlMay i (fget F.NE_INL_CTRL.PORT_A v) (fget F.NE_INL_CTRL.PORT_B v) = true →
        ∃ t, exec (.neInlCtrlWrite m i v) s = .next t ∧ t.resp = some (.ok 0) ∧
          t.fld (A.NE_INL_CTRL i) F.NE_INL_CTRL.EN = fget F.NE_INL_CTRL.EN v ∧
          t.fld (A.NE_INL_CTRL i) F.NE_INL_CTRL.PORT_A = fget F.NE_INL_CTRL.PORT_A v ∧
          t.fld (A.NE_INL_CTRL i) F.NE_INL_CTRL.PORT_B = fget F.NE_INL_CTRL.PORT_B v ∧
          s.regsBut t [A.NE_INL_CTRL i] ∧ { t with regs := s.regs, resp := s.resp } = s) ∧
      (s.neState i = neStopped ∧ fget F.NE_INL_CTRL.EN v = 1 ∧ s.inlMay i (fget F.NE_INL_CTRL.PORT_A v) (fget F.NE_INL_CTRL.PORT_B v) = false →
        ∃ t, exec (.neInlCtrlWrite m i v) s = .next t ∧ t.flag (A.NE_INL_CTRL i) F.NE_INL_CTRL.EN = false ∧
          t.flag st F.NE_STATUS.BIND_REJ = true ∧ s.regsBut t [A.NE_INL_CTRL i, st])) ∧
    (s.reaches m.toNat (A.NE_INL_LAT i) true ∧ fget F.NE_INL_LAT.MAX_NS v ≠ 0 →
      ∃ t, exec (.neInlLatClear m i v) s = .next t ∧ t.resp = some (.ok 0) ∧ t.fld (A.NE_INL_LAT i) F.NE_INL_LAT.MAX_NS = 0 ∧
        s.regsBut t [A.NE_INL_LAT i] ∧ { t with regs := s.regs, resp := s.resp } = s) ∧
    (s.neState i = neRunning ∧ tm.armed = true ∧ tm.expiry ≤ s.raw ∧ (e.pend.all fun q => !(q.prio == prTimer && q.idx == x.val)) = true →
      ∃ t, exec (.neTimerExpiry i x) s = .next t ∧ (t.eng i).pend = e.pend ++ [⟨prTimer, x, 0, tm.ctx, 0, s.raw, false⟩] ∧
        (t.eng i).timer x = (if tm.periodic then { tm with expiry := rawMod (tm.expiry + tm.interval) } else { tm with armed := false }) ∧
        s.engsBut t i ∧ { t with ne := s.ne } = s) ∧
    (tm.armed = false ∨ s.raw < tm.expiry → exec (.neTimerExpiry i x) s = .next s)
/-- EVENT_DISPATCH, EVENT_AGED, INLINE_FRAME_START, INLINE_STOPPED_FRAME, INLINE_INSERT_SEND and DMA_TRANSFER_DONE. -/
def Obligations.NeedleEventEffects : Prop :=
  ∀ (s : State) (i : Fin 24) (r : Recipe) (k : Cand) (tn : Nat) (side : Fin 2) (bs : List Byte) (good late full : Bool)
    (stamp lat o : Nat) (d : Dma) (chan : Fin 4) (x : List Byte),
    let e := s.eng i
    let s1 := (s.neAge i).dropTimeouts i r
    let ev := s1.evtOf i r k
    let st := s.ctxState i ev.ctx
    let first := (e.dma.find? fun y => y.chan = chan.val) = some d
    let dest := s.mrd (transAt i r tn + 4) 2
    let start := s.mrd (transAt i r tn + 6) 2
    let en := s.flag (A.NE_INL_CTRL i) F.NE_INL_CTRL.EN
    let runs := s.neState i = neRunning ∨ s.neState i = neStopping
    let inp := s.inlInput i side bs good stamp
    let fr : InlFrame := ⟨side, bs, stamp, 0, good, false, lat, late, inp⟩
    (s.neState i = neRunning ∧ e.evt = none ∧ e.recipe = some r ∧ firstCand (s1.cands i) = some k ∧ ev.ctx ≤ 255 ∧ st < r.nstate ∧
        s.findTrans i r ev st (s.ctxFlags i ev.ctx) = some tn ∧ start ≠ 0xFFFF →
      ∃ t, exec (.eventDispatch i .clean) s = .next t ∧
        (t.eng i).evt = some ⟨ev.ctx, st, start, [], ev.f, none, if dest = 0xFFFF then none else some dest, 0, none, ev.input⟩ ∧
        t.mem = s.mem ∧ s.engsBut t i ∧ s.regsBut t [A.NE_DOORBELL i]) ∧
    (s.neState i = neRunning ∧ e.evt = none ∧ e.recipe = some r ∧ firstCand (s1.cands i) = some k ∧ ev.ctx ≤ 255 ∧ st < r.nstate ∧
        s.findTrans i r ev st (s.ctxFlags i ev.ctx) = some tn ∧ start = 0xFFFF →
      ∃ t, exec (.eventDispatch i .clean) s = .next t ∧ (t.eng i).evt = none ∧ t.rd (A.NE_EVT_DONE i) = satSucc (s.rd (A.NE_EVT_DONE i)) ∧
        t.ctxState i ev.ctx = (if dest = 0xFFFF then st else dest) ∧ s.bytesBut t (neWin i + 16 * ev.ctx) 2 ∧
        s.engsBut t i ∧ s.regsBut t [A.NE_DOORBELL i, A.NE_EVT_DONE i]) ∧
    (s.neState i = neRunning ∧ e.evt = none ∧ e.recipe = some r ∧ firstCand (s1.cands i) = some k ∧ ev.ctx ≤ 255 ∧ st < r.nstate ∧
        s.findTrans i r ev st (s.ctxFlags i ev.ctx) = none →
      ∃ t, exec (.eventDispatch i .clean) s = .next t ∧ t.mem = s.mem ∧ s.engsBut t i ∧
        (if s.mrd (neWin i + r.state + 4) 2 = 0xFFFF then (t.eng i).evt = none ∧ t.rd (A.NE_EVT_DONE i) = satSucc (s.rd (A.NE_EVT_DONE i))
        else (t.eng i).evt = some ⟨ev.ctx, st, s.mrd (neWin i + r.state + 4) 2, [], ev.f, none, none, 0, none, ev.input⟩)) ∧
    (s.neState i ≠ neRunning → exec (.eventDispatch i .clean) s = .next s) ∧
    (s.neState i = neRunning → ∃ t, exec (.eventDispatch i .double) s = .next t ∧ t.neState i = neFaulted ∧
      t.rdn (A.NE_FAULT i) / 2 ^ 24 = 3) ∧
    (∃ t, exec (.eventAged i) s = .next t ∧
      (t.eng i).pend = e.pend.map (fun p => { p with aged := p.aged || decide (p.since + s.fld (A.NE_LIMITS i) F.NE_LIMITS.AGE * usTicks < s.raw) }) ∧
      (t.eng i).rx.length = e.rx.length ∧ s.engsBut t i ∧ { t with ne := s.ne } = s) ∧
    (en = true ∧ runs ∧ e.frame = none ∧ e.passing = [] ∧ e.recipe = some r ∧ r.inline = true →
      ∃ t, exec (.inlineFrameStart i side bs good stamp lat late ⟨false, .clean⟩) s = .next t ∧ (t.eng i).frame = some fr ∧
        (t.eng i).passing = [] ∧ (t.eng i).inl = some (s.inlCtx i r fr) ∧ s.engsBut t i ∧ s.regsBut t [A.NE_RX_DROP i] ∧
        (if inp = none then t.rd (A.NE_RX_DROP i) = satSucc (s.rd (A.NE_RX_DROP i)) else t.rd (A.NE_RX_DROP i) = s.rd (A.NE_RX_DROP i)) ∧
        { t with regs := s.regs, ne := s.ne } = s) ∧
    ((s.inlCtx i r fr).pc = r.inlAct ∧ (s.inlCtx i r fr).ctx = r.inlCtx ∧ (s.inlCtx i r fr).get 14 = 0x40 + side.val ∧
      (inp ≠ none → inp = some ⟨0x40 + side, b2n good, 0, stamp, bs, s.raw, false⟩)) ∧
    (en = true ∧ runs ∧ e.frame ≠ none →
      ∃ t, exec (.inlineFrameStart i side bs good stamp lat late ⟨false, .clean⟩) s = .next t ∧ (t.eng i).frame = e.frame ∧
        (t.eng i).inl = e.inl ∧ (t.eng i).passing = e.passing ++ [fr] ∧ s.engsBut t i ∧ s.regsBut t [A.NE_RX_DROP i]) ∧
    (en = true ∧ runs →
      ∃ t, exec (.inlineFrameStart i side bs good stamp lat late ⟨true, .clean⟩) s = .next t ∧
        t.rd (A.NE_INL_DISC i) = satSucc (s.rd (A.NE_INL_DISC i)) ∧ s.onlyRegs t [A.NE_INL_DISC i]) ∧
    (en = true ∧ ¬ runs ∧ (full = true ∨ s.flag (A.NE_INL_CTRL i) F.NE_INL_CTRL.STOP_POLICY = false ∨ s.inlOut i side = none) →
      ∃ t, exec (.inlineStoppedFrame i side bs ⟨lat, full⟩) s = .next t ∧ t.rd (A.NE_INL_DISC i) = satSucc (s.rd (A.NE_INL_DISC i)) ∧
        s.onlyRegs t [A.NE_INL_DISC i]) ∧
    (en = true ∧ ¬ runs ∧ s.flag (A.NE_INL_CTRL i) F.NE_INL_CTRL.STOP_POLICY = true ∧ s.inlOut i side = some o ∧
        (s.hrst (unitHalf i 12)).isolated = false →
      ∃ t, exec (.inlineStoppedFrame i side bs ⟨lat, false⟩) s = .next t ∧
        t.out = .frame (portNo (unitHalf i 12) o) (bs.take (bs.length - 4) ++ bs.drop (bs.length - 4)) :: s.out ∧
        t.rd (A.NE_INL_PASS i) = satSucc (s.rd (A.NE_INL_PASS i)) ∧ { t with regs := s.regs, out := s.out } = s) ∧
    (en = true ∧ s.inlBusy i side = false ∧ (e.inserts.find? fun y => y.1 = side.val) = some (side.val, x) ∧
        s.inlLink i (s.inlPort i side) = false →
      ∃ t, exec (.inlineInsertSend i side) s = .next t ∧ (t.eng i).inserts = e.inserts.erase (side.val, x) ∧
        t.rd (A.NE_INL_DISC i) = satSucc (s.rd (A.NE_INL_DISC i)) ∧ s.engsBut t i ∧ { t with regs := s.regs, ne := s.ne } = s) ∧
    (s.inlBusy i side = true → exec (.inlineInsertSend i side) s = .next s) ∧
    (en = true ∧ s.inlBusy i side = false ∧ (e.inserts.find? fun y => y.1 = side.val) = some (side.val, x) ∧
        s.inlLink i (s.inlPort i side) = true ∧ (s.hrst (unitHalf i 12)).isolated = false →
      let sent := padTo (max 60 x.length) x
      ∃ t, exec (.inlineInsertSend i side) s = .next t ∧ (t.eng i).inserts = e.inserts.erase (side.val, x) ∧
        t.out = .frame (portNo (unitHalf i 12) (s.inlPort i side)) (sent ++ fcsOf false sent) :: s.out ∧ s.engsBut t i) ∧
    (first ∧ d.write = true ∧ d.len = 8 ∧ d.bytes.length = 8 ∧ d.addr % 8 = 0 ∧
        bankBase ≤ d.addr ∧ d.addr < 0x10400000 ∧ s.zeroingAt d.addr = false ∧ s.zeroingAt (d.addr + 7) = false ∧
        s.spadErr (0x10 + i) d.addr 8 true = none ∧ s.resync = none →
      ∃ t, exec (.dmaTransferDone i chan []) s = .next t ∧ (t.eng i).dma = e.dma.erase d ∧ t.mbs d.addr 8 = d.bytes ∧ s.bytesBut t d.addr 8 ∧
        s.engsBut t i ∧ (d.notify = false → { t with mem := s.mem, ne := s.ne, resp := s.resp } = s) ∧
        (d.notify = true ∧ s.neState i = neRunning ∧ e.pend = [] → (t.eng i).pend = [⟨prDma, chan, 6, d.ctx, 0, s.raw, false⟩])) ∧
    (first ∧ d.write = false ∧ d.area = 6 ∧ d.off + 8 ≤ 4096 ∧ d.len = 8 ∧ d.addr % 8 = 0 ∧ bankBase ≤ d.addr ∧ d.addr < 0x10400000 ∧
        s.zeroingAt d.addr = false ∧ s.zeroingAt (d.addr + 7) = false ∧ s.spadErr (0x10 + i) d.addr 8 false = none →
      ∃ t, exec (.dmaTransferDone i chan []) s = .next t ∧ (t.eng i).dma = e.dma.erase d ∧
        t.mbs (neWin i + d.off) 8 = s.mbs d.addr 8 ∧ s.bytesBut t (neWin i + d.off) 8 ∧ s.engsBut t i) ∧
    (s.neState i = neRunning ∧ e.pend = [] ∧ first ∧ d.write = true ∧ d.len = 8 ∧ d.bytes.length = 8 ∧
        d.addr % 8 = 0 ∧ regionOf d.addr = .unmapped ∧ s.zeroingAt d.addr = false ∧ s.zeroingAt (d.addr + 7) = false →
      ∃ t, exec (.dmaTransferDone i chan []) s = .next t ∧ (t.eng i).dma = e.dma.erase d ∧ t.mem = s.mem ∧
        (t.eng i).pend = [⟨prDma, chan, 7, d.ctx, cUnmapped, s.raw, false⟩] ∧
        t.rd A.SYS_BUSERR_CNT = satSucc (s.rd A.SYS_BUSERR_CNT)) ∧
    (e.dma = [] → exec (.dmaTransferDone i chan []) s = .next s)
/-- RECIPE_VERIFY_DONE and RECIPE_VALIDATED (R161 to R163, R245 to R247). -/
def Obligations.RecipeLoadEffects : Prop :=
  ∀ (s : State) (i : Fin 24) (l : Load) (c : KCmd),
    (s.neState i = neStopped ∧ (s.eng i).load = some l ∧ l.verified = false ∧ s.kcmd l.tr l.tag = some c →
      ∃ t, exec (.recipeVerifyDone i) s = .next t ∧
        (s.precheck l.image ≠ none → (t.eng i).load = none ∧ t.neState i = neStopped ∧ t.mem = s.mem) ∧
        (s.precheck l.image = none → (t.eng i).load = some { l with verified := true } ∧ t.neState i = neLoading ∧
          (∀ q, q < 0x6800 → t.mb (neWin i + q) = 0) ∧ s.bytesBut t (neWin i) 0x6800)) ∧
    ((s.eng i).load = none → exec (.recipeVerifyDone i) s = .next s ∧ exec (.recipeValidated i) s = .next s) ∧
    (s.neState i = neLoading ∧ (s.eng i).load = some l ∧ l.verified = true →
      (validate l.image = none → ∃ t, exec (.recipeValidated i) s = .next t ∧ t.neState i = neStopped ∧
        t.flag (A.NE_STATUS i) F.NE_STATUS.LOADED = true ∧ (t.eng i).recipe = some (recipeOf l.image) ∧ (t.eng i).load = none ∧
        t.rdn (A.NE_RECIPE i) = u l.image 8 2 * 65536 + u l.image 10 2 ∧ s.engsBut t i ∧ t.kcmd l.tr l.tag = none ∧
        (s.kcmd l.tr l.tag = none → s.bytesBut t (neWin i) 0x100000 ∧
          s.regsBut t [A.NE_STATUS i, A.NE_RECIPE i] ∧ { t with regs := s.regs, mem := s.mem, ne := s.ne } = s)) ∧
      (validate l.image ≠ none → ∃ t, exec (.recipeValidated i) s = .next t ∧ t.neState i = neStopped ∧
        t.flag (A.NE_STATUS i) F.NE_STATUS.LOADED = false ∧ (t.eng i).recipe = none ∧ (t.eng i).load = none ∧
        t.rd (A.NE_RECIPE i) = 0 ∧ s.engsBut t i ∧ t.kcmd l.tr l.tag = none ∧
        (s.kcmd l.tr l.tag = none → s.bytesBut t (neWin i) 0x21000 ∧
          s.regsBut t [A.NE_STATUS i, A.NE_RECIPE i] ∧ { t with regs := s.regs, mem := s.mem, ne := s.ne } = s)))

/-- MAC_FRAME_RECEIVE (R268 to R288, Table 6.2). -/
def Obligations.MacReceiveEffects : Prop :=
  ∀ (s : State) (p : Fin 24) (bs : List Byte) (code lost fcs : Bool) (capture : Nat),
    let c := A.MAC_CTRL p
    let h := unitHalf p 12
    let n := bs.length
    let at_ := s.stamp h (p % 12) true capture
    let f : InFrame := ⟨p % 12, bs, at_ / 8, 0, 0, 0, none, none, at_ % 8, s.raw⟩
    let still := s.perPending p s.raw = none
    let up := s.flag (A.MAC_STATUS p) F.MAC_STATUS.LINK = true
    let line := s.farLoop p = false ∧ s.flag c F.MAC_CTRL.RX_EN = true ∧ p.val % 12 < 9 ∧ bs ≠ []
    let on := line ∧ s.rxLine p = true ∧ up
    let ok := on ∧ 60 ≤ n ∧ n ≤ s.fld c F.MAC_CTRL.MAX_LEN
    let counts := fun (t : State) (k : Nat) =>
      t.rdn (A.MAC_CNT p k) = (s.rdn (A.MAC_CNT p k) + 1) % 2 ^ 32 ∧
      (bitAt (t.rdn (A.MAC_CNT p k)) 31 ≠ bitAt (s.rdn (A.MAC_CNT p k)) 31 → k < 24 → bitAt (t.rdn (A.MAC_CNT_WRAP p)) k = true)
    let mine := fun (k : Nat) => [A.MAC_CNT p k, A.MAC_CNT_WRAP p, A.MAC_PER_LIVE p ((periodOf k).getD 0), A.MAC_PER_SHADOW p ((periodOf k).getD 0)]
    let ends := fun (t : State) (k : Nat) => counts t k ∧ (still → s.onlyRegs t (mine k))
    (s.farLoop p = false ∧ (s.flag c F.MAC_CTRL.RX_EN = false ∨ 9 ≤ p.val % 12 ∨ bs = []) →
      exec (.macFrameReceive p bs code lost fcs capture) s = .next s) ∧
    (s.farLoop p = false ∧ s.rxLine p = false → exec (.macFrameReceive p bs code false fcs capture) s = .next s) ∧
    (s.farLoop p = true → ∃ t, exec (.macFrameReceive p bs code lost true capture) s = .next t ∧
      t.out = (if (s.hrst h).isolated then s.out else .frame p (withFcs bs) :: s.out) ∧ { t with out := s.out } = s) ∧
    (line ∧ n ≤ 240 → ∃ t, exec (.macFrameReceive p bs code true fcs capture) s = .next t ∧ ends t 11) ∧
    (line ∧ s.rxLine p = true ∧ ¬ up ∧ n ≤ 240 → ∃ t, exec (.macFrameReceive p bs code false fcs capture) s = .next t ∧ ends t 11) ∧
    (on ∧ n ≤ 240 → ∃ t, exec (.macFrameReceive p bs true false fcs capture) s = .next t ∧ ends t 8) ∧
    (on ∧ n < 60 → ∃ t, exec (.macFrameReceive p bs false false fcs capture) s = .next t ∧ ends t 9) ∧
    (on ∧ 60 ≤ n ∧ s.fld c F.MAC_CTRL.MAX_LEN < n ∧ s.fld c F.MAC_CTRL.MAX_LEN ≤ 240 →
      ∃ t, exec (.macFrameReceive p bs false false fcs capture) s = .next t ∧ ends t 10) ∧
    (ok ∧ n ≤ 240 → ∃ t, exec (.macFrameReceive p bs false false false capture) s = .next t ∧ ends t 7) ∧
    (ok ∧ be16At bs 12 = 0x8808 ∧ be16At bs 14 ≠ 1 →
      ∃ t, exec (.macFrameReceive p bs false false true capture) s = .next t ∧ ends t 6) ∧
    (ok ∧ be16At bs 12 = 0x8808 ∧ be16At bs 14 = 1 ∧ s.flag c F.MAC_CTRL.PAUSE_RX_EN = false →
      ∃ t, exec (.macFrameReceive p bs false false true capture) s = .next t ∧ ends t 5) ∧
    (ok ∧ be16At bs 12 = 0x8808 ∧ be16At bs 14 = 1 ∧ s.flag c F.MAC_CTRL.PAUSE_RX_EN = true →
      ∃ t, exec (.macFrameReceive p bs false false true capture) s = .next t ∧ counts t 5 ∧
        t.flag (A.MAC_STATUS p) F.MAC_STATUS.PAUSED = decide (be16At bs 16 ≠ 0) ∧
        (t.port p).pauseEnd = s.now + quantaTicks (s.portMbps h (p % 12)) (be16At bs 16) ∧
        s.regsBut t (A.MAC_STATUS p :: mine 5) ∧ s.portsBut t p ∧ { t with regs := s.regs, ports := s.ports } = s) ∧
    (ok ∧ be16At bs 12 ≠ 0x8808 ∧ s.macFilter p bs = false →
      ∃ t, exec (.macFrameReceive p bs false false true capture) s = .next t ∧ ends t 12) ∧
    (ok ∧ be16At bs 12 ≠ 0x8808 ∧ s.macFilter p bs = true ∧ s.inlinePort h (p % 12) = false →
      ∃ t, exec (.macFrameReceive p bs false false true capture) s = .next t ∧
        (t.plane h).inq = (s.plane h).inq ++ [f] ∧ { t with planeK := s.planeK, planeP := s.planeP } = s ∧
        { t.plane h with inq := (s.plane h).inq } = s.plane h ∧ t.plane h.other = s.plane h.other) ∧
    (ok ∧ be16At bs 12 ≠ 0x8808 ∧ s.macFilter p bs = true ∧ s.inlinePort h (p % 12) = true →
      ∃ t, exec (.macFrameReceive p bs false false true capture) s = .next t ∧ counts t 0 ∧
        t.rdn (A.MAC_CNT p 1) = (s.rdn (A.MAC_CNT p 1) + n + 4) % 2 ^ 32 ∧ counts t (2 + castOf bs) ∧
        t.planeK = s.planeK ∧ t.planeP = s.planeP ∧ t.mem = s.mem ∧ t.ne = s.ne)
/-- MAC_FRAME_TRANSMIT, PAUSE_EXPIRY, PAUSE_FRAME_SEND, PAUSE_REFRESH, PERIOD_BOUNDARY and MAC_PER_CTRL_WRITE (R281 to R304). -/
def Obligations.MacSendEffects : Prop :=
  ∀ (s : State) (p : Fin 24) (m : Byte) (v : Word) (q : PCopy) (j : Fin 8) (capture at_ : Nat),
    let c := A.MAC_CTRL p
    let h := unitHalf p 12
    let x := s.plane h
    let st := A.MAC_STATUS p
    let bs := s.redLeave h q q.bytes
    let full := padTo (max 60 bs.length) bs
    let pc := A.MAC_PER_CTRL p
    let cnt := fun (t : State) (k n : Nat) => t.rdn (A.MAC_CNT p k) = (s.rdn (A.MAC_CNT p k) + n) % 2 ^ 32
    let next := x.handed.find? (fun q => q.outp = p.val % 12 ∧ !s.kcpTakes h q) = some q
    let ext := next ∧ p.val % 12 < 9 ∧ s.txWaits p = false
    let oneStep := p.val % 12 < 4 ∧ s.flag (A.GAUGE_TSC_CTRL (p / 12 * 9 + p % 12)) F.GAUGE_TSC_CTRL.ONESTEP = true
    let taken := fun (t : State) => (t.plane h).handed = x.handed.erase q ∧ (t.plane h).voq = x.voq ∧ (t.plane h).inq = x.inq ∧
      t.mem = s.mem ∧ t.ne = s.ne
    let may := s.flag c F.MAC_CTRL.PAUSE_TX_EN = true ∧ s.flag c F.MAC_CTRL.TX_EN = true ∧ s.fld (A.MAC_PAUSE p) F.MAC_PAUSE.QUANTA ≠ 0 ∧
      s.flag st F.MAC_STATUS.LINK = true ∧ s.txcHeld p = false ∧ ¬ ((s.port p).begun = true ∧ s.lineBusy p = true) ∧ s.nearLoop p = false
    let pause := fun (q : Nat) => Output.frame p (withFcs (padTo 60 ([0x01, 0x80, 0xC2, 0x00, 0x00, 0x01] ++
      leBytes 4 (s.rdn (A.MAC_SA_LO p)) ++ leBytes 2 (s.fld (A.MAC_SA_HI p) F.MAC_SA_HI.ADDR) ++ [0x88, 0x08, 0x00, 0x01] ++ beBytes 2 q)))
    let sent := fun (t : State) (o : Output) => t.out = (if (s.hrst h).isolated then s.out else o :: s.out)
    let quanta := s.fld (A.MAC_PAUSE p) F.MAC_PAUSE.QUANTA
    let again := s.fld (A.MAC_PAUSE p) F.MAC_PAUSE.REFRESH
    (x.handed.find? (fun q => q.outp = p.val % 12 ∧ !s.kcpTakes h q) = none → exec (.macFrameTransmit p capture) s = .next s) ∧
    (next ∧ s.txWaits p = true → exec (.macFrameTransmit p capture) s = .next s) ∧
    (ext ∧ s.fld c F.MAC_CTRL.MAX_LEN < bs.length →
      ∃ t, exec (.macFrameTransmit p capture) s = .next t ∧ cnt t 22 1 ∧ t.out = s.out ∧ taken t) ∧
    (ext ∧ bs.length ≤ s.fld c F.MAC_CTRL.MAX_LEN ∧ (s.flag st F.MAC_STATUS.LINK = false ∨ s.flag c F.MAC_CTRL.TX_EN = false) →
      ∃ t, exec (.macFrameTransmit p capture) s = .next t ∧ cnt t 20 1 ∧ t.out = s.out ∧ taken t) ∧
    (ext ∧ bs.length ≤ s.fld c F.MAC_CTRL.MAX_LEN ∧ s.flag st F.MAC_STATUS.LINK = true ∧ s.flag c F.MAC_CTRL.TX_EN = true ∧
        (ptpAt full = none ∨ ¬ oneStep) ∧ s.nearLoop p = false →
      ∃ t, exec (.macFrameTransmit p capture) s = .next t ∧ sent t (.frame p (withFcs full)) ∧ cnt t 14 1 ∧
        cnt t 15 (full.length + 4) ∧ cnt t (16 + castOf full) 1 ∧ taken t) ∧
    (next ∧ p.val % 12 = 10 →
      ∃ t, exec (.macFrameTransmit p capture) s = .next t ∧ t.out = .sp10 h.n q.stamp bs :: s.out ∧ cnt t 14 1 ∧ taken t) ∧
    (next ∧ p.val % 12 = 11 ∧ s.segUp h = true ∧ s.segUp h.other = true →
      ∃ t, exec (.macFrameTransmit p capture) s = .next t ∧ cnt t 14 1 ∧ taken t ∧ t.out = s.out ∧
        (t.plane h.other).inq = (s.plane h.other).inq ++ [⟨11, q.bytes, q.stamp, q.cls, 0, q.colour, q.seq, none, 0, 0⟩]) ∧
    (next ∧ p.val % 12 = 11 ∧ s.segUp h = false →
      ∃ t, exec (.macFrameTransmit p capture) s = .next t ∧ cnt t 20 1 ∧ taken t ∧ t.out = s.out ∧ t.plane h.other = s.plane h.other) ∧
    (s.flag st F.MAC_STATUS.PAUSED = true ∧ (s.port p).pauseEnd ≤ s.now →
      ∃ t, exec (.pauseExpiry p) s = .next t ∧ t.flag st F.MAC_STATUS.PAUSED = false ∧ s.onlyRegs t [st]) ∧
    (s.now < (s.port p).pauseEnd → exec (.pauseExpiry p) s = .next s) ∧
    (may ∧ s.flag st F.MAC_STATUS.XOFF = true ∧ (s.port p).announced = false ∧ (s.port p).xonDue = false →
      ∃ t, exec (.pauseFrameSend p) s = .next t ∧ sent t (pause quanta) ∧ cnt t 19 1 ∧
        t.port p = { s.port p with announced := true, lastPause := s.now } ∧
        s.regsBut t [A.MAC_CNT p 19, A.MAC_CNT_WRAP p] ∧ s.portsBut t p) ∧
    (may ∧ (s.port p).xonDue = true →
      ∃ t, exec (.pauseFrameSend p) s = .next t ∧ sent t (pause 0) ∧ cnt t 19 1 ∧
        t.port p = { s.port p with xonDue := false } ∧ s.regsBut t [A.MAC_CNT p 19, A.MAC_CNT_WRAP p] ∧ s.portsBut t p) ∧
    (may ∧ s.flag st F.MAC_STATUS.XOFF = true ∧ (s.port p).announced = true ∧
        (s.port p).lastPause + quantaTicks (s.portMbps h (p.val % 12)) (if quanta ≤ again then max 1 (quanta / 2) else again) ≤ s.now →
      ∃ t, exec (.pauseRefresh p) s = .next t ∧ sent t (pause quanta) ∧ cnt t 19 1 ∧
        t.port p = { s.port p with lastPause := s.now } ∧ s.regsBut t [A.MAC_CNT p 19, A.MAC_CNT_WRAP p] ∧ s.portsBut t p) ∧
    (quanta = 0 → exec (.pauseFrameSend p) s = .next s ∧ exec (.pauseRefresh p) s = .next s) ∧
    (s.flag pc F.MAC_PER_CTRL.EN = true ∧ s.perEvent p = some at_ ∧ (s.port p).bound ≤ at_ ∧ at_ ≤ s.raw →
      ∃ t, exec (.periodBoundary p) s = .next t ∧ t.rd (A.MAC_PER_SHADOW p j) = s.rd (A.MAC_PER_LIVE p j) ∧
        t.rd (A.MAC_PER_LIVE p j) = 0 ∧ t.flag (A.MAC_PER_STATUS p) F.MAC_PER_STATUS.VALID = true ∧
        t.fld (A.MAC_PER_STATUS p) F.MAC_PER_STATUS.SEQ =
          (s.fld (A.MAC_PER_STATUS p) F.MAC_PER_STATUS.SEQ + 1) % 2 ^ fldWidth F.MAC_PER_STATUS.SEQ ∧
        (t.port p).bound = at_ + 1 ∧ t.mem = s.mem) ∧
    (s.flag pc F.MAC_PER_CTRL.EN = false → exec (.periodBoundary p) s = .next s) ∧
    (s.reaches m.toNat pc true →
      ∃ t, exec (.macPerCtrlWrite m p v) s = .next t ∧ t.resp = some (.ok 0) ∧ t.fld pc F.MAC_PER_CTRL.EN = fget F.MAC_PER_CTRL.EN v ∧
        t.fld pc F.MAC_PER_CTRL.CMP = fget F.MAC_PER_CTRL.CMP v ∧ s.portsBut t p ∧ t.mem = s.mem) ∧
    (s.reaches m.toNat pc true ∧ s.flag pc F.MAC_PER_CTRL.EN = false ∧ fget F.MAC_PER_CTRL.EN v = 1 →
      ∃ t, exec (.macPerCtrlWrite m p v) s = .next t ∧ t.flag pc F.MAC_PER_CTRL.EN = true ∧
        t.fld pc F.MAC_PER_CTRL.CMP = fget F.MAC_PER_CTRL.CMP v ∧ t.rd (A.MAC_PER_LIVE p j) = 0 ∧
        t.fld (A.MAC_PER_STATUS p) F.MAC_PER_STATUS.SEQ = 0 ∧ t.rd (A.MAC_PER_SHADOW p j) = s.rd (A.MAC_PER_SHADOW p j) ∧ t.mem = s.mem)

/-- The TL commands of spec/06 (R305 to R319, Table 6.6). -/
def Obligations.T1lEffects : Prop :=
  ∀ (s : State) (p : Fin 8) (m : Byte) (v : Word) (page : BitVec 16) (lp24 lp10 res24 lead : Bool) (role : Fin 3),
    let c := A.TL_CTRL p
    let st := A.TL_STATUS p
    let n := tlPort p
    let own := s.fld c F.TL_CTRL.ROLE
    let train := s.fld st F.TL_STATUS.TRAIN
    let wait := (s.port n).waitEnd
    let use24 := s.tlOwn24 p && lp24 && res24
    let bad := (use24 = false ∧ lp10 = false) ∨ (own ≠ 0 ∧ own ≠ 3 ∧ own = role.val)
    let starts := fun (t : State) => t.flag (A.MAC_STATUS n) F.MAC_STATUS.LINK = false ∧ t.flag st F.TL_STATUS.AN_DONE = false ∧
      t.fld st F.TL_STATUS.TRAIN = (if t.flag c F.TL_CTRL.AN_EN then 1 else 2) ∧ (t.port n).waitEnd = 0 ∧ t.mem = s.mem
    let stored := fun (t : State) => t.fld c F.TL_CTRL.AN_EN = fget F.TL_CTRL.AN_EN v ∧
      t.fld c F.TL_CTRL.APL_PROF = fget F.TL_CTRL.APL_PROF v ∧ t.fld c F.TL_CTRL.ROLE = fget F.TL_CTRL.ROLE v ∧
      t.fld c F.TL_CTRL.SIMMER = (if s.simmerLocked p then 1 else fget F.TL_CTRL.SIMMER v) ∧
      t.fld c F.TL_CTRL.AMPL_24 = (if s.simmerLocked p then 0 else fget F.TL_CTRL.AMPL_24 v) ∧
      (s.simmerLocked p = true ∧ (fget F.TL_CTRL.SIMMER v = 0 ∨ fget F.TL_CTRL.AMPL_24 v = 1) → t.flag st F.TL_STATUS.SIMMER_REJ = true)
    let may := s.reaches m.toNat c true
    (may → ∃ t, exec (.tlCtrlWrite m p v) s = .next t ∧ t.resp = some (.ok 0) ∧ stored t ∧ t.fld c F.TL_CTRL.EN = fget F.TL_CTRL.EN v) ∧
    (may ∧ fget F.TL_CTRL.EN v = 0 →
      ∃ t, exec (.tlCtrlWrite m p v) s = .next t ∧ stored t ∧ t.flag c F.TL_CTRL.EN = false ∧ t.fld st F.TL_STATUS.TRAIN = 0 ∧
        t.flag (A.MAC_STATUS n) F.MAC_STATUS.LINK = false ∧ t.flag st F.TL_STATUS.AMPL_ACT = false ∧ t.mem = s.mem) ∧
    (may ∧ fget F.TL_CTRL.EN v = 1 ∧ s.flag c F.TL_CTRL.EN = false ∧ s.rail 8 = true ∧ s.bound p = false ∧
        s.flag (A.MAC_STATUS n) F.MAC_STATUS.LINK = false →
      ∃ t, exec (.tlCtrlWrite m p v) s = .next t ∧ stored t ∧ starts t) ∧
    (may ∧ fget F.TL_CTRL.EN v = 1 ∧ s.flag c F.TL_CTRL.EN = true ∧ s.rail 8 = true ∧ s.bound p = false →
      ∃ t, exec (.tlRestartAn m p v) s = .next t ∧ stored t ∧ starts t) ∧
    (s.tlEn p = true ∧ s.flag c F.TL_CTRL.AN_EN = true ∧ train = 1 ∧ wait = 0 ∧ ¬ bad →
      ∃ t, exec (.tlAnComplete p page lp24 lp10 role res24 lead) s = .next t ∧ t.rdn (A.TL_AN_LP p) = 0x10000 + page.toNat ∧
        t.flag st F.TL_STATUS.AMPL_ACT = use24 ∧ t.flag st F.TL_STATUS.AN_DONE = true ∧ t.fld st F.TL_STATUS.TRAIN = 2 ∧
        t.flag st F.TL_STATUS.LEADER = (if own = 1 then true else if own = 2 then false else if role = 2 then true
          else if role = 1 then false else lead) ∧ s.onlyRegs t [st, A.TL_AN_LP p]) ∧
    (s.tlEn p = true ∧ s.flag c F.TL_CTRL.AN_EN = true ∧ train = 1 ∧ wait = 0 ∧ bad →
      ∃ t, exec (.tlAnComplete p page lp24 lp10 role res24 lead) s = .next t ∧ t.flag st F.TL_STATUS.AN_FAIL = true ∧
        t.fld st F.TL_STATUS.TRAIN = 1 ∧ s.now < (t.port n).waitEnd ∧ s.regsBut t [st, A.TL_AN_LP p] ∧ s.portsBut t n ∧
        { t with regs := s.regs, ports := s.ports } = s) ∧
    (s.tlEn p = true ∧ train = 2 →
      ∃ t, exec (.tlTrainingComplete p) s = .next t ∧ t.fld st F.TL_STATUS.TRAIN = 3 ∧
        t.flag (A.MAC_STATUS n) F.MAC_STATUS.LINK = true ∧ t.fld (A.MAC_STATUS n) F.MAC_STATUS.SPEED = 0 ∧ t.mem = s.mem) ∧
    (s.tlEn p = true ∧ train = 1 ∧ wait ≠ 0 ∧ wait ≤ s.now ∧ s.flag (A.MAC_STATUS n) F.MAC_STATUS.LINK = false →
      ∃ t, exec (.tlAnRetry p) s = .next t ∧ starts t ∧ s.regsBut t [st]) ∧
    (train = 3 →
      (∃ t, exec (.tlLossOfLock p) s = .next t ∧ t.fld st F.TL_STATUS.TRAIN = 4 ∧ t.mem = s.mem ∧
        t.flag (A.MAC_STATUS n) F.MAC_STATUS.LINK = false ∧ (t.port n).waitEnd = s.now + 10 * msTicks) ∧
      (∃ t, exec (.tlSqiZeroTimeout p) s = .next t ∧ t.fld st F.TL_STATUS.TRAIN = 4 ∧ t.fld (A.TL_SQI p) F.TL_SQI.SQI = 0 ∧
        t.flag (A.MAC_STATUS n) F.MAC_STATUS.LINK = false ∧ (t.port n).waitEnd = s.now + 10 * msTicks ∧ t.mem = s.mem)) ∧
    (train = 4 ∧ wait ≤ s.now ∧ s.flag (A.MAC_STATUS n) F.MAC_STATUS.LINK = false →
      ∃ t, exec (.tlLinkFailWaitEnd p) s = .next t ∧ starts t ∧ s.regsBut t [st]) ∧
    (s.tlEn p = true →
      ∃ t, exec (.tlShortDetect p) s = .next t ∧ t.flag st F.TL_STATUS.SHORT_DET = true ∧
        t.rd (A.TL_SHORT_CNT p) = satSucc (s.rd (A.TL_SHORT_CNT p)) ∧ s.onlyRegs t [st, A.TL_SHORT_CNT p])
/-- The SD, SGMII and RG commands of spec/06 and LINK_CHANGE (R264, R279, R321 to R337). -/
def Obligations.SerdesRgmiiEffects : Prop :=
  ∀ (s : State) (l : Fin 8) (h : Half) (p : Fin 24) (m : Byte) (v : Word) (page : BitVec 16) (speed : Fin 4) (b fd : Bool) (errors : Nat),
    let c := A.SD_CTRL l
    let st := A.SD_STATUS l
    let n := sdPort l
    let rate := if speed = 3 then 2 else speed.val
    let same := [F.SD_CTRL.MODE, F.SD_CTRL.LOOP, F.SD_CTRL.PRBS_EN, F.SD_CTRL.RX_POL, F.SD_CTRL.TX_POL, F.SD_CTRL.LINK_TIMER].all
      fun f => fget f v == s.fld c f
    let rc := A.RG_CTRL h.n
    let rs := A.RG_STATUS h.n
    let g := portNo h 8
    let ms := A.MAC_STATUS p
    (s.reaches m.toNat c true → ∃ t, exec (.sdCtrlWrite m l v) s = .next t ∧ t.resp = some (.ok 0) ∧
      t.fld c F.SD_CTRL.MODE = fget F.SD_CTRL.MODE v ∧ t.fld c F.SD_CTRL.EN = fget F.SD_CTRL.EN v ∧ t.fld c F.SD_CTRL.AN_EN = fget F.SD_CTRL.AN_EN v) ∧
    (s.reaches m.toNat c true ∧ (fget F.SD_CTRL.EN v = 0 ∨ s.flag c F.SD_CTRL.EN = false ∨ same = false) →
      ∃ t, exec (.sdCtrlWrite m l v) s = .next t ∧ t.fld c F.SD_CTRL.MODE = fget F.SD_CTRL.MODE v ∧
        t.fld c F.SD_CTRL.EN = fget F.SD_CTRL.EN v ∧ t.flag (A.MAC_STATUS n) F.MAC_STATUS.LINK = false ∧
        t.flag st F.SD_STATUS.CFG_ERR = decide (3 < fget F.SD_CTRL.MODE v) ∧ t.flag st F.SD_STATUS.PLL_LOCK = false ∧
        t.flag st F.SD_STATUS.CDR_LOCK = false ∧ t.flag st F.SD_STATUS.SYNC = false ∧ t.flag st F.SD_STATUS.AN_DONE = false ∧
        t.mem = s.mem) ∧
    (s.sdOn l = true →
      (∃ t, exec (.sdPllLock l) s = .next t ∧ t.flag st F.SD_STATUS.PLL_LOCK = true ∧ s.onlyRegs t [st]) ∧
      (s.flag st F.SD_STATUS.PLL_LOCK = true →
        ∃ t, exec (.sdCdrLock l) s = .next t ∧ t.flag st F.SD_STATUS.CDR_LOCK = true ∧ s.onlyRegs t [st]) ∧
      (s.flag st F.SD_STATUS.CDR_LOCK = true →
        ∃ t, exec (.sdSyncAcquired l) s = .next t ∧ t.flag st F.SD_STATUS.SYNC = true ∧ s.onlyRegs t [st]) ∧
      (s.flag st F.SD_STATUS.CDR_LOCK = true ∧ s.flag c F.SD_CTRL.PRBS_EN = true →
        ∃ t, exec (.sdPrbsLock l errors) s = .next t ∧ t.flag st F.SD_STATUS.PRBS_LOCK = true ∧
          t.rdn (A.SD_PRBS_ERR l) = min 0xFFFFFFFF (s.rdn (A.SD_PRBS_ERR l) + errors) ∧ s.onlyRegs t [st, A.SD_PRBS_ERR l]) ∧
      (s.flag st F.SD_STATUS.SYNC = true ∧ s.sdAn l = true →
        (∃ t, exec (.sdAnComplete l page speed false) s = .next t ∧ t.rdn (A.SD_AN_LP l) = 0x10000 + page.toNat ∧
          t.flag st F.SD_STATUS.AN_DONE = true ∧ (t.port n).held = false ∧ s.regsBut t [st, A.SD_AN_LP l] ∧ s.portsBut t n ∧
          t.fld st F.SD_STATUS.SPEED_RES = (if s.fld c F.SD_CTRL.MODE = 0 then rate else s.fld st F.SD_STATUS.SPEED_RES)) ∧
        (∃ t, exec (.sdAnComplete l page speed true) s = .next t ∧ t.flag (A.MAC_STATUS n) F.MAC_STATUS.LINK = false ∧
          t.flag st F.SD_STATUS.HD_REJ = true ∧ t.flag (A.MAC_STATUS n) F.MAC_STATUS.HD_REJ = true ∧ (t.port n).held = true ∧
          t.mem = s.mem))) ∧
    (s.sdOn l = false → exec (.sdPllLock l) s = .next s) ∧
    (s.flag st F.SD_STATUS.SYNC = true →
      ∃ t, exec (.sdSyncLoss l) s = .next t ∧ t.flag (A.MAC_STATUS n) F.MAC_STATUS.LINK = false ∧ t.mem = s.mem ∧
        t.flag st F.SD_STATUS.CDR_LOCK = false ∧ t.flag st F.SD_STATUS.SYNC = false ∧ t.flag st F.SD_STATUS.AN_DONE = false ∧
        t.fld st F.SD_STATUS.PLL_LOCK = s.fld st F.SD_STATUS.PLL_LOCK) ∧
    (s.fld c F.SD_CTRL.MODE = 0 ∧ s.flag c F.SD_CTRL.AN_EN = true ∧ s.flag st F.SD_STATUS.AN_DONE = true ∧
        s.fld st F.SD_STATUS.SPEED_RES ≠ rate →
      ∃ t, exec (.sgmiiSpeedChange l speed) s = .next t ∧ t.fld st F.SD_STATUS.SPEED_RES = rate ∧
        t.flag (A.MAC_STATUS n) F.MAC_STATUS.LINK = false ∧ (t.port n).waitEnd = s.now + usTicks ∧ t.mem = s.mem) ∧
    (s.reaches m.toNat rc true → ∃ t, exec (.rgCtrlWrite m h v) s = .next t ∧ t.resp = some (.ok 0) ∧
      t.fld rc F.RG_CTRL.EN = fget F.RG_CTRL.EN v ∧ t.fld rc F.RG_CTRL.INBAND = fget F.RG_CTRL.INBAND v ∧ t.fld rc F.RG_CTRL.SPEED = fget F.RG_CTRL.SPEED v) ∧
    (s.reaches m.toNat rc true ∧ fget F.RG_CTRL.INBAND v = 0 ∧ fget F.RG_CTRL.EN v = 1 ∧ s.flag rc F.RG_CTRL.EN = false →
      ∃ t, exec (.rgCtrlWrite m h v) s = .next t ∧ t.flag (A.MAC_STATUS g) F.MAC_STATUS.LINK = true ∧
        t.fld (A.MAC_STATUS g) F.MAC_STATUS.SPEED = (if fget F.RG_CTRL.SPEED v = 3 then 2 else fget F.RG_CTRL.SPEED v) ∧ t.mem = s.mem) ∧
    (s.reaches m.toNat rc true ∧ fget F.RG_CTRL.EN v = 0 →
      ∃ t, exec (.rgCtrlWrite m h v) s = .next t ∧ t.flag (A.MAC_STATUS g) F.MAC_STATUS.LINK = false ∧ (t.port g).waitEnd = 0 ∧
        t.mem = s.mem) ∧
    (s.flag rc F.RG_CTRL.EN = true ∧ s.flag rc F.RG_CTRL.INBAND = true →
      (∃ t, exec (.rgInbandStatus h b fd speed) s = .next t ∧ t.flag rs F.RG_STATUS.IB_LINK = b ∧ t.flag rs F.RG_STATUS.IB_FD = fd ∧
        t.fld rs F.RG_STATUS.IB_SPEED = speed.val ∧ t.flag (A.MAC_STATUS g) F.MAC_STATUS.LINK = (b && fd) ∧
        (b = true ∧ fd = false → t.flag rs F.RG_STATUS.HD_REJ = true ∧ (t.port g).held = true) ∧ t.mem = s.mem)) ∧
    (s.flag rc F.RG_CTRL.EN = false → exec (.rgInbandStatus h b fd speed) s = .next s) ∧
    ((s.port g).waitEnd ≠ 0 ∧ (s.port g).waitEnd ≤ s.now ∧ ¬ ((s.port g).begun = true ∧ s.lineBusy g = true) →
      ∃ t, exec (.rgSpeedChangeRestart h) s = .next t ∧ (t.port g).waitEnd = 0 ∧
        t.fld (A.MAC_STATUS g) F.MAC_STATUS.SPEED = s.rgSpeed h ∧ s.regsBut t [A.MAC_STATUS g] ∧ s.portsBut t g ∧
        { t with regs := s.regs, ports := s.ports } = s) ∧
    (p.val % 12 < 9 ∧ s.flag ms F.MAC_STATUS.LINK = false ∧ s.linkReady p = true →
      ∃ t, exec (.linkChange p true) s = .next t ∧ t.flag ms F.MAC_STATUS.LINK = true ∧ t.flag ms F.MAC_STATUS.LINK_CHG = true ∧
        t.rd (A.MAC_CNT p 23) = s.rd (A.MAC_CNT p 23) ∧ t.mem = s.mem) ∧
    (s.linkReady p = false → exec (.linkChange p true) s = .next s) ∧
    (s.flag ms F.MAC_STATUS.LINK = true ∧ (p.val % 12 < 8 ∨ p.val % 12 = 8 ∧ s.linkReady p = false) →
      ∃ t, exec (.linkChange p false) s = .next t ∧ t.flag ms F.MAC_STATUS.LINK = false ∧ t.flag ms F.MAC_STATUS.LINK_CHG = true ∧
        t.rdn (A.MAC_CNT p 23) = (s.rdn (A.MAC_CNT p 23) + 1) % 2 ^ 32 ∧ t.mem = s.mem)

/-- PLANE_FRAME_INGRESS, SP9_DISPATCH, TWIN_WINDOW_CLOSE, DUP_ENTRY_AGE and SW_BUF_LOW_RESET. -/
def Obligations.PlaneFrameEffects : Prop :=
  ∀ (s : State) (h : Half) (p : Fin 12) (o : Fin 9) (k : Fin 12) (f : InFrame) (d : Fwd) (e : DupEnt) (q : PCopy) (m : Byte) (v : Word),
    let x := s.plane h
    let front := x.inq.find? (fun f => f.ingress = p.val) = some f
    let rest := x.inq.eraseP (fun f => f.ingress = p.val)
    let a := 8 * o.val + d.cls
    let one := front ∧ s.fwdDecide h f = some d ∧ d.egress = 2 ^ o.val ∧ d.meter = none ∧ d.red = 0 ∧ o.val ≠ p.val ∧
      s.inlinePort h o = false ∧ s.fld (A.SWQ_SIEVE h.n a) F.SWQ_SIEVE.MODE = 0 ∧ s.redRole h o = 0
    let pp := portNo h p
    let got := fun (t : State) => t.rdn (A.MAC_CNT pp 0) = (s.rdn (A.MAC_CNT pp 0) + 1) % 2 ^ 32 ∧
      t.rdn (A.MAC_CNT pp 1) = (s.rdn (A.MAC_CNT pp 1) + f.bytes.length + 4) % 2 ^ 32 ∧
      t.rdn (A.MAC_CNT pp (2 + castOf f.bytes)) = (s.rdn (A.MAC_CNT pp (2 + castOf f.bytes)) + 1) % 2 ^ 32
    let copy : PCopy := ⟨p, o, d.cls, f.bytes, frameCells f.bytes.length, f.stamp, if p = 11 then f.colour else 0, d.flow, d.needle, 0, 0,
      f.seq, 0⟩
    let i := 12 * h.n + k
    let bs := s.redLeave h q q.bytes
    let staged := bitAt q.needle k ∧ s.neState i = neRunning ∧ (s.eng i).cellsUsed + rxCells bs.length ≤ 192
    let buf := A.SW_BUF_FREE h.n
    (x.inq.find? (fun f => f.ingress = p.val) = none → exec (.planeFrameIngress h p) s = .next s) ∧
    (front ∧ s.fwdDecide h f = none →
      ∃ t, exec (.planeFrameIngress h p) s = .next t ∧ t.plane h = { x with inq := rest } ∧
        t.rd (A.SWP_MISS_DROP h.n p) = satSucc (s.rd (A.SWP_MISS_DROP h.n p)) ∧ got t ∧ t.mem = s.mem ∧ t.ne = s.ne) ∧
    (one ∧ s.fits h copy = true →
      ∃ t, exec (.planeFrameIngress h p) s = .next t ∧ (t.plane h).inq = rest ∧ (t.plane h).voq = x.voq ++ [copy] ∧
        (t.plane h).handed = x.handed ∧ t.fld (A.SWQ_DEPTH h.n a) F.SWQ_DEPTH.DEPTH =
          ((t.plane h).depth o d.cls) % 2 ^ fldWidth F.SWQ_DEPTH.DEPTH ∧ got t ∧ t.mem = s.mem ∧ t.ne = s.ne) ∧
    (one ∧ s.fits h copy = false ∧ p.val < 9 →
      ∃ t, exec (.planeFrameIngress h p) s = .next t ∧ t.plane h = { x with inq := rest } ∧
        t.rd (A.SWQ_DROP_LIMIT h.n a) = satSucc (s.rd (A.SWQ_DROP_LIMIT h.n a)) ∧
        t.rdn (A.MAC_CNT pp 13) = (s.rdn (A.MAC_CNT pp 13) + 1) % 2 ^ 32 ∧ t.mem = s.mem ∧
        (s.perPending pp f.ended = none → s.regsBut t [A.SWQ_DROP_LIMIT h.n a, A.MAC_CNT pp 13, A.MAC_CNT_WRAP pp,
          A.MAC_PER_LIVE pp 4, A.MAC_PER_SHADOW pp 4])) ∧
    (one ∧ s.fits h copy = false ∧ 9 ≤ p.val → exec (.planeFrameIngress h p) s = .next s) ∧
    (x.handed.find? (fun q => q.outp = 9) = some q →
      ∃ t, exec (.sp9Dispatch h) s = .next t ∧ t.plane h = { x with handed := x.handed.erase q } ∧
        t.rdn (A.MAC_CNT (portNo h 9) 14) = (s.rdn (A.MAC_CNT (portNo h 9) 14) + 1) % 2 ^ 32 ∧ t.mem = s.mem ∧
        t.eng i = (if staged then { (s.eng i).stageRx with rx := (s.eng i).rx ++ [⟨q.inp, 1 + q.status, q.flow, q.stamp, bs, s.raw, false⟩] }
          else s.eng i) ∧
        t.rd (A.NE_RX_DROP i) = (if bitAt q.needle k ∧ ¬ staged then satSucc (s.rd (A.NE_RX_DROP i)) else s.rd (A.NE_RX_DROP i))) ∧
    (x.handed.find? (fun q => q.outp = 9) = none → exec (.sp9Dispatch h) s = .next s) ∧
    (x.dup.find? (fun d => d.held ≠ [] ∧ d.s1 + s.fld (A.SW_TWIN h.n) F.SW_TWIN.WIN_US * usTicks + 4 * usTicks ≤ s.raw) = some e →
      ∃ t, exec (.twinWindowClose h) s = .next t ∧
        (t.plane h).voq = x.voq ++ e.held.map (fun q => { q with status := q.status + 4, stamp := e.s1 }) ∧
        (t.plane h).dup = dupSet x.dup { e with hold := false, held := [] } ∧
        t.rd (A.SW_TWIN_LONE h.n) = satSucc (s.rd (A.SW_TWIN_LONE h.n)) ∧
        s.onlyRegs { t with planeK := s.planeK, planeP := s.planeP } [A.SW_TWIN_LONE h.n]) ∧
    (∃ t, exec (.dupEntryAge h) s = .next t ∧
        (t.plane h).dup = x.dup.filter (fun d => d.held ≠ [] ∨ s.now < d.born + s.fld (A.SW_DUP_AGE h.n) F.SW_DUP_AGE.AGE * msTicks) ∧
        (t.plane h).voq = x.voq ∧ { t with planeK := s.planeK, planeP := s.planeP } = s ∧
        t.regView m.toNat (A.SW_DUP_STATUS h.n) = (t.plane h).dup.length + 2 ^ 16 * ((t.plane h).dup.filter (fun d => d.hold)).length) ∧
    (s.reaches m.toNat buf true →
      ∃ t, exec (.swBufLowReset m h v) s = .next t ∧ t.resp = some (.ok 0) ∧ t.fld buf F.SW_BUF_FREE.FREE = s.fld buf F.SW_BUF_FREE.FREE ∧
        t.fld buf F.SW_BUF_FREE.LOW = (if fget F.SW_BUF_FREE.LOW v = 0 then s.fld buf F.SW_BUF_FREE.LOW else s.fld buf F.SW_BUF_FREE.FREE) ∧
        s.onlyRegs { t with resp := s.resp } [buf])
/-- SCHEDULING_ROUND, METER_REFILL, SIEVE_AVG_UPDATE and the gate commands. -/
def Obligations.PlaneScheduleEffects : Prop :=
  ∀ (s : State) (h : Half) (p : Fin 9) (i o : Fin 12) (a : Fin 96) (q : PCopy) (m : Byte) (v : Word) (at_ : Nat),
    let x := s.plane h
    let c := A.SWG_CTRL h.n p
    let st := A.SWG_STATUS h.n p
    let cycle := s.adminCycle h p
    let cur := (s.dom (s.fld c F.SWG_CTRL.DOMAIN)).cur
    let was := storeGet 0 x.avg a.val
    let avg := ((was : Int) + (((x.depth (a.val / 8) (a.val % 8) * 256 : Nat) : Int) - (was : Int)) /
      ((2 ^ s.fld (A.SWQ_SIEVE h.n a) F.SWQ_SIEVE.W : Nat) : Int)).toNat
    let set := fget F.SWG_CTRL.ADMIN_LEN v
    let cir := fun (e : Nat × (Nat × Nat)) => s.fld (A.MTR_CIR h.n e.1) F.MTR_CIR.RATE
    let refilled := fun (e : Nat × (Nat × Nat)) =>
      (e.1, (min e.2.1 (s.fld (A.MTR_CBS h.n e.1) F.MTR_CBS.SIZE * 125) - cir e,
        min e.2.2 (s.fld (A.MTR_PBS h.n e.1) F.MTR_PBS.SIZE * 125) - max (cir e) (s.fld (A.MTR_PIR h.n e.1) F.MTR_PIR.RATE)))
    (x.voq = [] ∧ x.unread = [] →
      exec (.schedulingRound h) s = .next (s.putPlane h { x with readPos := (x.readPos + 1) % 12 })) ∧
    (x.voq = [q] ∧ x.unread = [] ∧ x.fifo = [] ∧ q.inp = i.val ∧ q.outp = o.val ∧ q.cls < 8 ∧ q.moved = 0 ∧ q.cells = 1 ∧ q.bytes.length ≤ 240 ∧
        s.gated h o = false ∧ (o.val < 9 → s.inlinePort h o = false ∧ (s.txOpen (portNo h o) = true → s.flag (A.MAC_STATUS (portNo h o)) F.MAC_STATUS.PAUSED = false)) →
      ∃ t, exec (.schedulingRound h) s = .next t ∧ (t.plane h).voq = [] ∧ (t.plane h).handed = x.handed ++ [{ q with moved := 1 }] ∧
        storeGet 0 (t.plane h).grantPtr (8 * o.val + q.cls) = (i.val + 1) % 12 ∧ storeGet 0 (t.plane h).acceptPtr i.val = (o.val + 1) % 12 ∧
        (t.plane h).unread = [] ∧ (t.plane h).readPos = (x.readPos + 1) % 12 ∧ (t.plane h).inq = x.inq ∧ t.mem = s.mem ∧ t.ne = s.ne) ∧
    (∃ t, exec (.meterRefill h) s = .next t ∧
      t.plane h = { x with meter := (x.meter.map refilled).filter (fun e => e.2 ≠ (0, 0)) } ∧ { t with planeK := s.planeK, planeP := s.planeP } = s) ∧
    (∃ t, exec (.sieveAvgUpdate h) s = .next t ∧ storeGet 0 (t.plane h).avg a.val = avg ∧
      t.fld (A.SWQ_DEPTH h.n a) F.SWQ_DEPTH.AVG = avg / 256 % 2 ^ fldWidth F.SWQ_DEPTH.AVG ∧
      t.fld (A.SWQ_DEPTH h.n a) F.SWQ_DEPTH.DEPTH = s.fld (A.SWQ_DEPTH h.n a) F.SWQ_DEPTH.DEPTH ∧ (t.plane h).voq = x.voq ∧ t.mem = s.mem) ∧
    (s.gated h p = true ∧ (s.gate h p).started = true →
      ∃ t, exec (.gateEntryChange h p) s = .next t ∧
        t.fld st F.SWG_STATUS.CUR = (gateEntry (s.operCycle h p) (s.gateList h p) 0 (s.gateOff h p)).1 % 256 ∧
        (t.gate h p).started = true ∧ s.onlyRegs { t with planeK := s.planeK, planeP := s.planeP } [st]) ∧
    (s.gated h p = false → exec (.gateEntryChange h p) s = .next s) ∧
    ((s.gate h p).swapAt = some at_ ∧ at_ ≤ s.gateNs cur →
      ∃ t, exec (.gateBankSwap h p) s = .next t ∧ t.fld c F.SWG_CTRL.OPER = 1 - s.fld c F.SWG_CTRL.OPER ∧
        t.operBase h p = s.adminBase h p ∧ t.operCycle h p = s.adminCycle h p ∧
        t.fld st F.SWG_STATUS.OPER_LEN = s.fld c F.SWG_CTRL.ADMIN_LEN ∧ t.flag st F.SWG_STATUS.CHG_PEND = false ∧
        t.fld st F.SWG_STATUS.CUR = 0 ∧ t.gate h p = ⟨none, at_, true, none⟩ ∧ t.mem = s.mem) ∧
    ((s.gate h p).swapAt = none → exec (.gateBankSwap h p) s = .next s) ∧
    (s.reaches m.toNat c true →
      (∃ t, exec (.swgEnWrite m h p v) s = .next t ∧ t.resp = some (.ok 0) ∧ t.fld c F.SWG_CTRL.EN = fget F.SWG_CTRL.EN v ∧
        t.fld c F.SWG_CTRL.ADMIN_LEN = min set 256 ∧ (t.gate h p).swapAt = (s.gate h p).swapAt) ∧
      (∃ t, exec (.gateChangeRequest m h p v) s = .next t ∧ t.resp = some (.ok 0) ∧ t.fld c F.SWG_CTRL.EN = fget F.SWG_CTRL.EN v ∧
        t.fld c F.SWG_CTRL.ADMIN_LEN = min set 256)) ∧
    (s.reaches m.toNat c true ∧ s.flag c F.SWG_CTRL.EN = true →
      (1000 ≤ cycle ∧ cycle ≤ 999999999 ∧ set ≠ 0 ∧ fget F.SWG_CTRL.DOMAIN v = s.fld c F.SWG_CTRL.DOMAIN →
        ∃ t, exec (.gateChangeRequest m h p v) s = .next t ∧ t.flag st F.SWG_STATUS.CHG_PEND = true ∧
          (t.gate h p).swapAt = some (cycleStart (s.adminBase h p) cycle (s.gateNs cur + 2000)) ∧
          t.fld c F.SWG_CTRL.ADMIN_LEN = min set 256 ∧ t.mem = s.mem) ∧
      (cycle < 1000 ∨ 999999999 < cycle ∨ set = 0 →
        ∃ t, exec (.gateChangeRequest m h p v) s = .next t ∧ t.flag st F.SWG_STATUS.CFG_ERR = true ∧
          (t.gate h p).swapAt = (s.gate h p).swapAt ∧ t.fld st F.SWG_STATUS.CHG_PEND = s.fld st F.SWG_STATUS.CHG_PEND ∧ t.mem = s.mem)) ∧
    (s.reaches m.toNat c true ∧ s.flag c F.SWG_CTRL.EN = false ∧ fget F.SWG_CTRL.EN v = 1 →
      ∃ t, exec (.swgEnWrite m h p v) s = .next t ∧ t.flag c F.SWG_CTRL.EN = true ∧ (t.gate h p).started = false ∧
        t.fld c F.SWG_CTRL.DOMAIN = fget F.SWG_CTRL.DOMAIN v ∧ (t.gate h p).swapAt = (s.gate h p).swapAt ∧ t.mem = s.mem)

/-- The commands of spec/08 (R404 to R433). -/
def Obligations.GaugeEffects : Prop :=
  ∀ (s : State) (r : Half) (d : Fin 4) (k : Fin 16) (j : Fin 2) (m : Byte) (v : Word) (c : Nat) (dt : DomTime),
    let g := A.GAUGE_REF
    let ok := fun (s : State) (r : Half) => s.flag g (refOk r)
    let st := A.GAUGE_DOM_STATUS d
    let ctrl := A.GAUGE_DOM_CTRL d
    let x := s.dom d
    let now := s.domNow d
    let at_ := s.rd64 (A.GAUGE_DOM_STG_AT_LO d) (A.GAUGE_DOM_STG_AT_HI d)
    let new := s.committedSet d c
    let cc := A.GAUGE_CMP_CTRL k
    let next := s.rd64 (A.GAUGE_CMP_NEXT_LO k) (A.GAUGE_CMP_NEXT_HI k)
    let per := s.rdn (A.GAUGE_CMP_PERIOD k)
    let quiet := ([cc, A.GAUGE_CMP_NEXT_LO k, A.GAUGE_CMP_NEXT_HI k, A.GAUGE_CMP_NEXT_NS k, A.GAUGE_CMP_PERIOD k].all fun a =>
      !s.wroteNow a && s.rdBefore a == s.rdn a) = true
    let hold := s.fld (A.GAUGE_DOM_CFG d) F.GAUGE_DOM_CFG.HOLD_MS
    let own := s.reaches m.toNat ctrl true ∧ (m.toNat = trivet ∨ m.toNat = s.fld st F.GAUGE_DOM_STATUS.OWNER_NOW)
    let pps := fun (g : Gauge) => if j = 0 then g.pps0 else g.pps1
    (ok s r = true ∧ s.commonRef = false →
      (ok s r.other = true ∧ s.fld g F.GAUGE_REF.ACTIVE = r.n ∧ s.flag g F.GAUGE_REF.AUTO = true →
        ∃ t, exec (.refFail r) s = .next t ∧ t.fld g F.GAUGE_REF.ACTIVE = r.other.n ∧ ok t r = false ∧ ok t r.other = true ∧
          t.flag g F.GAUGE_REF.SWITCHED = true ∧ t.rd A.GAUGE_SWITCH_CNT = satSucc (s.rd A.GAUGE_SWITCH_CNT) ∧
          t.rd (A.SYS_FLT_CNT 2) = satSucc (s.rd (A.SYS_FLT_CNT 2)) ∧ t.gauge = s.gauge ∧ t.mem = s.mem) ∧
      (ok s r.other = true ∧ (s.fld g F.GAUGE_REF.ACTIVE ≠ r.n ∨ s.flag g F.GAUGE_REF.AUTO = false) →
        ∃ t, exec (.refFail r) s = .next t ∧ ok t r = false ∧ t.fld g F.GAUGE_REF.ACTIVE = s.fld g F.GAUGE_REF.ACTIVE ∧ s.onlyRegs t [g]) ∧
      (ok s r.other = false →
        ∃ t, exec (.refFail r) s = .next t ∧ ok t r = false ∧ t.flag g F.GAUGE_REF.BOTH_LOST = true ∧
          t.fld g F.GAUGE_REF.ACTIVE = s.fld g F.GAUGE_REF.ACTIVE ∧ t.rd (A.SYS_FLT_CNT 2) = satSucc (s.rd (A.SYS_FLT_CNT 2)) ∧ t.gauge = s.gauge ∧ t.mem = s.mem)) ∧
    (s.commonRef = false →
      ∃ t, exec (.refRecover r v) s = .next t ∧ ok t r = true ∧ ok t r.other = ok s r.other ∧ t.flag g F.GAUGE_REF.BOTH_LOST = false ∧
        t.fld g F.GAUGE_REF.ACTIVE = (if s.flag g F.GAUGE_REF.BOTH_LOST then r.n else s.fld g F.GAUGE_REF.ACTIVE) ∧
        t.rd A.GAUGE_DIFF = (if ok s r.other then v else s.rd A.GAUGE_DIFF) ∧ s.onlyRegs t [g, A.GAUGE_DIFF]) ∧
    (s.commonRef = true →
      (ok s r = true → ∃ t, exec (.refFail r) s = .next t ∧ ok t .k = false ∧ ok t .p = false ∧ t.flag g F.GAUGE_REF.BOTH_LOST = true ∧
        t.gauge = s.gauge ∧ t.mem = s.mem) ∧
      (∃ t, exec (.refRecover .k v) s = .next t ∧ ok t .k = true ∧ ok t .p = true ∧ t.rd A.GAUGE_DIFF = v ∧ s.onlyRegs t [g, A.GAUGE_DIFF]) ∧
      exec (.refRecover .p v) s = .next s) ∧
    (s.reaches m.toNat g true →
      ∃ t, exec (.gaugeRefSelWrite m v) s = .next t ∧ t.fld g F.GAUGE_REF.SEL = fget F.GAUGE_REF.SEL v ∧
        t.fld g F.GAUGE_REF.ACTIVE = (if ok s (halfOf (fget F.GAUGE_REF.SEL v)) then fget F.GAUGE_REF.SEL v else s.fld g F.GAUGE_REF.ACTIVE) ∧
        s.onlyRegs { t with resp := s.resp } [g, A.GAUGE_SWITCH_CNT]) ∧
    (s.rawOn = false ∧ s.rst.stage = .done →
      ∃ t, exec .gaugePllLock s = .next t ∧ t.raw = 0 ∧ t.rawOn = true ∧
        t.fld A.GAUGE_EPOCH F.GAUGE_EPOCH.EPOCH = (s.fld A.GAUGE_EPOCH F.GAUGE_EPOCH.EPOCH + 1) % 65536 ∧
        s.regsBut t [A.GAUGE_EPOCH, A.CLK_STATUS] ∧ t.gauge = s.gauge) ∧
    (s.presented m.toNat A.GAUGE_RAW_LO = true →
      ∃ t, exec (.gaugeRawRead m) s = .next t ∧ t.resp = some (.ok (s.raw % 2 ^ 32)) ∧
        storeGet 0 t.gauge.rawHi m.toNat = s.raw / 2 ^ 32 ∧ { t with resp := s.resp, gauge := s.gauge } = s) ∧
    (s.presented m.toNat (A.GAUGE_DOM_NS d) = true →
      ∃ t, exec (.gaugeDomRead m d) s = .next t ∧ t.resp = some (.ok now.ns) ∧
        storeGet DomLatch.init t.gauge.latches (4 * m.toNat + d) = ⟨now.sec, now.frac, s.raw⟩ ∧ { t with resp := s.resp, gauge := s.gauge } = s) ∧
    (s.reaches m.toNat (A.GAUGE_DOM_CONV_RAW_HI d) true →
      (x.convert ((s.conv m.toNat d).rawLo + 2 ^ 32 * v.toNat) = some dt →
        ∃ t, exec (.gaugeConvert m d v) s = .next t ∧ t.conv m.toNat d = ⟨(s.conv m.toNat d).rawLo, v.toNat, dt.ns, dt.sec, dt.frac, false⟩ ∧
          t.regs = s.regs ∧ t.mem = s.mem) ∧
      (x.convert ((s.conv m.toNat d).rawLo + 2 ^ 32 * v.toNat) = none →
        ∃ t, exec (.gaugeConvert m d v) s = .next t ∧ (t.conv m.toNat d).err = true ∧ t.regs = s.regs ∧ t.mem = s.mem)) ∧
    (own ∧ x.pend = none ∧ fget F.GAUGE_DOM_CTRL.CANCEL v = 0 ∧ fget F.GAUGE_DOM_CTRL.MODE v ≠ 3 →
      ∃ t, exec (.gaugeCommitRequest m d v) s = .next t ∧ t.flag st F.GAUGE_DOM_STATUS.COMMIT_PEND = true ∧
        t.dom d = { x with pend := some (if s.raw + 16 ≤ at_ then at_ else (s.raw + 515) / 500 * 500) } ∧
        t.fld ctrl F.GAUGE_DOM_CTRL.MODE = fget F.GAUGE_DOM_CTRL.MODE v ∧ s.regsBut t [ctrl, st] ∧ s.domsBut t d) ∧
    (own ∧ x.pend = some c ∧ fget F.GAUGE_DOM_CTRL.CANCEL v = 0 →
      ∃ t, exec (.gaugeCommitRequest m d v) s = .next t ∧ t.flag st F.GAUGE_DOM_STATUS.STAGE_REJ = true ∧ t.gauge = s.gauge ∧
        s.regsBut t [st]) ∧
    (s.reaches m.toNat ctrl true ∧ m.toNat ≠ trivet ∧ m.toNat ≠ s.fld st F.GAUGE_DOM_STATUS.OWNER_NOW →
      ∃ t, exec (.gaugeCommitRequest m d v) s = .next t ∧ t.resp = some (.err cPerm) ∧ t.gauge = s.gauge ∧ t.rd ctrl = s.rd ctrl) ∧
    (own ∧ x.pend = some c ∧ s.raw < c →
      ∃ t, exec (.gaugeCommitCancel m d v) s = .next t ∧ t.dom d = { x with pend := none } ∧ s.regsBut t [st] ∧ s.domsBut t d ∧
        t.flag st F.GAUGE_DOM_STATUS.COMMIT_PEND = false) ∧
    (x.pend = some c ∧ c ≤ s.raw →
      ∃ t, exec (.gaugeCommit d) s = .next t ∧ t.dom d = ⟨new, x.cur, none⟩ ∧ new.anchor = c ∧ s.domsBut t d ∧
        t.flag st F.GAUGE_DOM_STATUS.COMMIT_PEND = false ∧ t.rd (A.GAUGE_DOM_COMMITS d) = satSucc (s.rd (A.GAUGE_DOM_COMMITS d)) ∧
        t.fld st F.GAUGE_DOM_STATUS.STATE = (match s.fld ctrl F.GAUGE_DOM_CTRL.STATE_REQ with
          | 1 => 1 | 2 => 2 | 3 => 0 | _ => s.fld st F.GAUGE_DOM_STATUS.STATE) ∧
        t.rdn (A.GAUGE_DOM_LAST_LO d) = c % 2 ^ 32 ∧ t.mem = s.mem) ∧
    (x.pend = none → exec (.gaugeCommit d) s = .next s) ∧
    (s.reaches m.toNat (A.GAUGE_DOM_CFG d) true →
      ∃ t, exec (.domCfgWrite m d v) s = .next t ∧ t.fld (A.GAUGE_DOM_CFG d) F.GAUGE_DOM_CFG.OWNER = fget F.GAUGE_DOM_CFG.OWNER v ∧
        t.fld st F.GAUGE_DOM_STATUS.OWNER_NOW = fget F.GAUGE_DOM_CFG.OWNER v ∧ s.onlyRegs { t with resp := s.resp } [A.GAUGE_DOM_CFG d, st]) ∧
    (s.rawOn = true ∧ hold ≠ 0 ∧ s.fld st F.GAUGE_DOM_STATUS.STATE = 1 ∧ x.cur.anchor + hold * msTicks ≤ s.raw ∧ x.pend = none →
      ∃ t, exec (.holdoverTimeout d) s = .next t ∧ t.fld st F.GAUGE_DOM_STATUS.STATE = 2 ∧ t.gauge = s.gauge ∧
        t.rd (A.SYS_FLT_CNT 0) = satSucc (s.rd (A.SYS_FLT_CNT 0)) ∧ t.mem = s.mem) ∧
    (s.fld st F.GAUGE_DOM_STATUS.STATE ≠ 1 → exec (.holdoverTimeout d) s = .next s) ∧
    (s.rawOn = true ∧ quiet ∧ s.cmpLast k ≠ some s.raw ∧ s.flag cc F.GAUGE_CMP_CTRL.EN = true ∧ s.flag cc F.GAUGE_CMP_CTRL.DOM_EN = false ∧ next ≤ s.raw ∧ s.raw < next + per ∧
        next + per < 2 ^ 64 →
      ∃ t, exec (.gaugeCompareEvent k) s = .next t ∧ t.rd64 (A.GAUGE_CMP_NEXT_LO k) (A.GAUGE_CMP_NEXT_HI k) = next + per ∧
        t.rd (A.GAUGE_CMP_COUNT k) = satSucc (s.rd (A.GAUGE_CMP_COUNT k)) ∧ t.cmpLast k = some s.raw ∧
        t.rd (A.GAUGE_CMP_MISSED k) = s.rd (A.GAUGE_CMP_MISSED k) ∧ t.gauge.doms = s.gauge.doms ∧
        pps t.gauge = (if s.flag (A.GAUGE_PPS_CTRL j) F.GAUGE_PPS_CTRL.EN ∧ s.fld (A.GAUGE_PPS_CTRL j) F.GAUGE_PPS_CTRL.CMP = k then
          some (s.now + s.fld (A.GAUGE_PPS_CTRL j) F.GAUGE_PPS_CTRL.WIDTH_US * usTicks) else pps s.gauge) ∧ t.mem = s.mem) ∧
    (s.cmpDue k = true →
      ∃ t, exec (.gaugeCompareEvent k) s = .next t ∧ t.rd (A.GAUGE_CMP_COUNT k) = satSucc (s.rd (A.GAUGE_CMP_COUNT k)) ∧
        t.cmpLast k = some s.raw ∧ t.gauge.doms = s.gauge.doms ∧ (quiet → t.flag cc F.GAUGE_CMP_CTRL.EN = decide (per ≠ 0)) ∧
        t.fld cc F.GAUGE_CMP_CTRL.DOM_EN = s.fld cc F.GAUGE_CMP_CTRL.DOM_EN ∧ t.mem = s.mem) ∧
    (s.cmpDue k = false → exec (.gaugeCompareEvent k) s = .next s) ∧
    (quiet ∧ (s.flag cc F.GAUGE_CMP_CTRL.EN = false ∨ s.raw < next ∧ s.flag cc F.GAUGE_CMP_CTRL.DOM_EN = false) → exec (.gaugeCompareEvent k) s = .next s) ∧
    (pps s.gauge = some c → ∃ t, exec (.ppsPulseEnd j) s = .next t ∧ pps t.gauge = (if s.now < c then some c else none) ∧ t.regs = s.regs ∧
        { t with gauge := { s.gauge with pps0 := s.gauge.pps0, pps1 := s.gauge.pps1 } } = s) ∧
    (∃ t, exec .gaugeRateFault s = .next t ∧ t.gauge = { s.gauge with fault := true } ∧
      t.rd (A.SYS_FLT_CNT 4) = satSucc (s.rd (A.SYS_FLT_CNT 4)) ∧ t.flag A.SYS_FLT_LATCH F.SYS_FLT_LATCH.F4 = true ∧ t.mem = s.mem)

/-- The CX commands of spec/09 (R447 to R460). -/
def Obligations.CxEffects : Prop :=
  ∀ (s : State) (c : Fin 8) (f : CxFrame) (b : CxBuf) (i : Fin 128) (k : Fin 24) (m delay : Byte) (v : Word) (stamp : Nat),
    let x := s.can c
    let off := s.dtt c = dOff
    let e := A.CX_ERRC c
    let ctl := A.CX_CTRL c
    let st := A.CX_STATUS c
    let tec := s.fld e F.CX_ERRC.TEC
    let rec_ := s.fld e F.CX_ERRC.REC
    let inc := fun (t : State) (a : Nat) => t.rd a = satSucc (s.rd a)
    let once := s.flag ctl F.CX_CTRL.SINGLE_SHOT
    let may := s.dttMay c = true ∧ off ∧ cxFirst (s.cxOffered c) = some b
    let room := s.neState k = neRunning ∧ (s.eng k).cellsUsed + rxCells f.data.length ≤ 192
    let pwm := A.CX_PWM c
    (s.cxOn c = false ∨ s.cxFormat c f.fmt = false → exec (.cxFrameReceive c f stamp true) s = .next s ∧ exec (.cxFrameReceive c f stamp false) s = .next s) ∧
    (s.cxOn c = true ∧ s.cxFormat c f.fmt = true ∧ off →
      (∃ t, exec (.cxFrameReceive c f stamp true) s = .next t ∧ inc t (A.CX_RX_ERR c) ∧ t.fld e F.CX_ERRC.REC = min 255 (rec_ + 1) ∧
        t.fld e F.CX_ERRC.TEC = tec ∧ s.onlyRegs t [A.CX_RX_ERR c, e, st]) ∧
      (f.remote = true →
        ∃ t, exec (.cxFrameReceive c f stamp false) s = .next t ∧ inc t (A.CX_RX_OK c) ∧ inc t (A.CX_RX_REMOTE c) ∧ t.ne = s.ne ∧ t.mem = s.mem) ∧
      (f.remote = false ∧ (List.range 128).find? (fun i => s.cxFilter c i f) = none →
        ∃ t, exec (.cxFrameReceive c f stamp false) s = .next t ∧ inc t (A.CX_RX_OK c) ∧ inc t (A.CX_RX_NOFILT c) ∧ t.ne = s.ne ∧ t.mem = s.mem) ∧
      (f.remote = false ∧ (List.range 128).find? (fun i => s.cxFilter c i f) = some i.val ∧ s.cxEngine c = some k.val →
        ∃ t, exec (.cxFrameReceive c f stamp false) s = .next t ∧ inc t (A.CX_RX_OK c) ∧ s.engsBut t k ∧ t.mem = s.mem ∧
          t.eng k = (if room then { (s.eng k).stageRx with rx := (s.eng k).rx ++ [⟨0x20 + c % 4, 1, i, stamp, f.data, s.raw, false⟩] } else s.eng k) ∧
          t.rd (A.NE_RX_DROP k) = (if room then s.rd (A.NE_RX_DROP k) else satSucc (s.rd (A.NE_RX_DROP k)))) ∧
      (f.remote = false ∧ (List.range 128).find? (fun i => s.cxFilter c i f) = some i.val ∧ s.cxEngine c = none →
        ∃ t, exec (.cxFrameReceive c f stamp false) s = .next t ∧ inc t (A.CX_RX_OK c) ∧ inc t (A.CX_RX_DROP c) ∧ t.ne = s.ne ∧ t.mem = s.mem)) ∧
    (may →
      (∃ t, exec (.cxTxAttempt c .ok delay) s = .next t ∧ t.can c = { x with bufs := x.bufs.erase b } ∧ inc t (A.CX_TX_OK c) ∧
        t.fld e F.CX_ERRC.TEC = tec - 1 ∧ t.out = (if (s.hrst (cxHalf c)).isolated then s.out else .can c b.frame :: s.out) ∧
        s.regsBut t [A.CX_TX_OK c, e, st, A.CX_TDC c] ∧ s.cansBut t c ∧ t.mem = s.mem) ∧
      (∃ t, exec (.cxTxAttempt c .lost delay) s = .next t ∧ t.can c = { x with bufs := if once then x.bufs.erase b else x.bufs } ∧
        inc t (A.CX_ARB_LOST c) ∧ s.regsBut t [A.CX_ARB_LOST c, A.CX_TDC c] ∧ s.cansBut t c ∧ t.out = s.out ∧ t.mem = s.mem) ∧
      (tec + 8 ≤ 255 →
        ∃ t, exec (.cxTxAttempt c .error delay) s = .next t ∧ t.can c = { x with bufs := if once then x.bufs.erase b else x.bufs } ∧
          inc t (A.CX_TX_ERR c) ∧ t.fld e F.CX_ERRC.TEC = tec + 8 ∧ s.regsBut t [A.CX_TX_ERR c, e, st, A.CX_TDC c] ∧ s.cansBut t c ∧
          t.out = s.out ∧ t.mem = s.mem) ∧
      (255 < tec + 8 →
        ∃ t, exec (.cxTxAttempt c .error delay) s = .next t ∧ (t.can c).bufs = [] ∧ (t.can c).busOff = true ∧
          (t.can c).recovering = s.flag ctl F.CX_CTRL.AUTO_RECOV ∧ inc t (A.CX_TX_ERR c) ∧ inc t (A.CX_BUSOFF c) ∧
          inc t (A.SYS_FLT_CNT 2) ∧ t.fld st F.CX_STATUS.BUS = 2 ∧ s.cansBut t c ∧ t.mem = s.mem)) ∧
    (s.dttMay c = false ∨ s.cxOffered c = [] → exec (.cxTxAttempt c .ok delay) s = .next s) ∧
    (x.busOff = true ∧ x.recovering = true ∧ off →
      ∃ t, exec (.cxBusoffRecoveryDone c) s = .next t ∧ (t.can c).busOff = false ∧ (t.can c).recovering = false ∧ t.rd e = 0 ∧
        t.fld st F.CX_STATUS.BUS = (if s.cxEn c then 0 else 3) ∧ s.cansBut t c ∧ t.mem = s.mem) ∧
    (x.busOff = false → exec (.cxBusoffRecoveryDone c) s = .next s) ∧
    (s.cxOn c = true →
      ∃ t, exec (.cxProtocolException c) s = .next t ∧ inc t (A.CX_PXE c) ∧ t.can c = { x with pxe := true } ∧ t.cxOn c = false ∧
        s.regsBut t [A.CX_PXE c] ∧ s.cansBut t c ∧ { t with regs := s.regs, cx := s.cx } = s) ∧
    (∃ t, exec (.cxPxeReintegrate c) s = .next t ∧ t.can c = { x with pxe := false } ∧ s.cansBut t c ∧ { t with cx := s.cx } = s) ∧
    (s.cxEn c = true → ∃ t, exec (.cxBusIntegrated c) s = .next t ∧ t.flag st F.CX_STATUS.SYNCED = true ∧ s.onlyRegs t [st]) ∧
    (s.cxEn c = false → exec (.cxBusIntegrated c) s = .next s) ∧
    (s.reaches m.toNat ctl true →
      (s.flag ctl F.CX_CTRL.EN = true →
        ∃ t, exec (.cxCtrlWrite m c v) s = .next t ∧ t.fld ctl F.CX_CTRL.XL_EN = s.fld ctl F.CX_CTRL.XL_EN ∧
          t.fld ctl F.CX_CTRL.FD_EN = s.fld ctl F.CX_CTRL.FD_EN ∧ t.fld ctl F.CX_CTRL.SINGLE_SHOT = fget F.CX_CTRL.SINGLE_SHOT v ∧ t.mem = s.mem ∧
          (fget F.CX_CTRL.XL_EN v ≠ s.fld ctl F.CX_CTRL.XL_EN → t.flag st F.CX_STATUS.WR_REJ = true)) ∧
      (s.flag ctl F.CX_CTRL.EN = false →
        ∃ t, exec (.cxCtrlWrite m c v) s = .next t ∧ t.fld ctl F.CX_CTRL.XL_EN = fget F.CX_CTRL.XL_EN v ∧ t.mem = s.mem ∧
          (fget F.CX_CTRL.EN v = 1 ∧ fget F.CX_CTRL.SIC_PWM v = 1 ∧ s.fld pwm F.CX_PWM.PWMO = 0 →
            t.flag ctl F.CX_CTRL.EN = false ∧ t.flag st F.CX_STATUS.CFG_ERR = true) ∧
          (fget F.CX_CTRL.EN v = 1 ∧ fget F.CX_CTRL.SIC_PWM v = 0 →
            t.flag ctl F.CX_CTRL.EN = true ∧ t.flag st F.CX_STATUS.CFG_ERR = false)))
/-- The DTT commands of spec/09 (R461 to R492). -/
def Obligations.DttEffects : Prop :=
  ∀ (s : State) (c : Fin 8) (p : Pattern) (m : Byte) (v : Word) (id : Fin 2048) (n : Fin 1023) (k : Fin 1024) (en : Stitch) (b : StitchBuf) (f : CxFrame)
    (data : List Byte) (stamp rank : Nat) (idle used : Bool),
    let x := s.can c
    let ctl := A.DTT_CTRL c
    let st := A.DTT_STATUS c
    let inc := fun (t : State) (a : Nat) => t.rd a = satSucc (s.rd a)
    let node := x.pattern = some p
    let sent := fun (t : State) (id : Nat) (data : List Byte) =>
      t.out = (if (s.hrst (cxHalf c)).isolated then s.out else .can c ⟨.xl, false, id, false, false, data, false, 0, 0, 0⟩ :: s.out)
    let ref := fun (row : Nat) (start : Bool) => [BitVec.ofNat 8 row, BitVec.ofNat 8 (b2n start), BitVec.ofNat 8 p.localNode,
      BitVec.ofNat 8 (s.fld (A.DTT_ROLE c) F.DTT_ROLE.PTAG)]
    let cold := s.dttColdId c p
    let heard := s.cxOn c = true ∧ node
    let valid := (p.rankOf id = some rank ∨ p.rankOf id = none ∧ p.isStart id = true ∧ rank = 0) ∧ data.length = 4 ∧ (data.getD 3 0).toNat = s.fld (A.DTT_ROLE c) F.DTT_ROLE.PTAG ∧
      (data.headD 0).toNat < p.rows
    let at_ := p.actionOfs + 2 * rank * p.precision
    let tracked := s.dtt c = dInteg ∨ s.dtt c = dActive
    let corr : Int := (stamp : Int) - (x.q + rateMul x.rate (2 * rank * p.precision) : Nat)
    let ends := (s.nextRow c p).1 - rateMul (s.nextRow c p).2 p.actionOfs ≤ s.raw
    let miss := if x.gotRef then 0 else x.missRun + 1
    let segment := p.stitches.length * p.stitchLen + k * p.minislotLen
    (s.reaches m.toNat ctl true ∧ s.flag ctl F.DTT_CTRL.EN = false →
      (s.dttRequirements c = true ∧ s.dtt c = dOff ∧ node →
        ∃ t, exec (.dttEnable m c v) s = .next t ∧ t.dtt c = dListen ∧ t.flag ctl F.DTT_CTRL.EN = true ∧ t.flag st F.DTT_STATUS.CFG_ERR = false ∧
          (t.can c).listenEnd = (if x.busOff then 0 else s.raw + p.listenBase + p.localNode * p.listenStep) ∧ (t.can c).rate = 0 ∧ s.cansBut t c ∧ t.mem = s.mem) ∧
      (s.dttRequirements c = false ∧ s.dtt c = dOff →
        ∃ t, exec (.dttEnable m c v) s = .next t ∧ t.flag ctl F.DTT_CTRL.EN = false ∧ t.flag st F.DTT_STATUS.CFG_ERR = true ∧
          t.dtt c = s.dtt c ∧ s.regsBut t [ctl, st] ∧ t.cx = s.cx)) ∧
    (s.reaches m.toNat ctl true ∧ s.flag ctl F.DTT_CTRL.EN = true →
      (x.startSof = none →
        ∃ t, exec (.dttDisable m c v) s = .next t ∧ t.dtt c = dOff ∧ t.flag ctl F.DTT_CTRL.EN = false ∧ (t.can c).stitch = [] ∧
          (t.can c).pattern = x.pattern ∧ s.cansBut t c ∧ t.mem = s.mem) ∧
      (x.startSof ≠ none →
        ∃ t, exec (.dttDisable m c v) s = .next t ∧ t.dtt c = s.dtt c ∧ t.flag ctl F.DTT_CTRL.EN = false ∧ t.cx = s.cx ∧ t.mem = s.mem)) ∧
    (node ∧ s.dtt c = dListen ∧ x.listenEnd ≠ 0 ∧ x.listenEnd < s.raw →
      (cold = none → exec (.dttListenTimeout c) s =
        .next (s.putCan c { x with listenEnd := x.listenEnd + p.listenBase + p.localNode * p.listenStep })) ∧
      (cold ≠ none → ∃ t, exec (.dttListenTimeout c) s = .next t ∧ t.dtt c = dCold ∧ (t.can c).listenEnd = 0 ∧ s.cansBut t c ∧ t.mem = s.mem)) ∧
    (node ∧ s.dtt c = dCold ∧ cold = some id.val →
      (x.startSof = none ∧ s.dttMay c = true ∧ (s.flag ctl F.DTT_CTRL.SYNC_EN = false ∨ s.aligned c p s.raw = true) →
        ∃ t, exec (.dttStartRefSend c true) s = .next t ∧ t.can c = { x with startSof := some s.raw } ∧ sent t id (ref 0 true) ∧ t.regs = s.regs) ∧
      exec (.dttStartRefSend c false) s = .next s ∧
      (x.startSof = some stamp ∧ s.flag ctl F.DTT_CTRL.EN = false →
        ∃ t, exec (.dttStartRefDone c .ok) s = .next t ∧ t.dtt c = dOff ∧ (t.can c).startSof = none ∧ (t.can c).stitch = [] ∧
          inc t (A.DTT_TX_OK c) ∧ t.mem = s.mem) ∧
      (x.startSof = some stamp ∧ s.flag ctl F.DTT_CTRL.EN = true →
        (∃ t, exec (.dttStartRefDone c .ok) s = .next t ∧ t.dtt c = dActive ∧ (t.can c).q = stamp ∧ (t.can c).row = 0 ∧
          (t.can c).gotRef = true ∧ inc t (A.DTT_TX_OK c) ∧ t.mem = s.mem) ∧
        (∃ t, exec (.dttStartRefDone c .lost) s = .next t ∧ t.dtt c = dCold ∧ t.can c = { x with startSof := none } ∧
          inc t (A.DTT_COLD_ARB c) ∧ inc t (A.CX_ARB_LOST c) ∧ s.onlyRegs { t with cx := s.cx } [A.DTT_COLD_ARB c, A.CX_ARB_LOST c]) ∧
        (s.fld (A.CX_ERRC c) F.CX_ERRC.TEC + 8 ≤ 255 ∧ x.busOff = false →
          ∃ t, exec (.dttStartRefDone c .error) s = .next t ∧ t.dtt c = dListen ∧ inc t (A.DTT_COLD_ERR c) ∧ inc t (A.CX_TX_ERR c) ∧
            (t.can c).startSof = none ∧ t.mem = s.mem) ∧
        (255 < s.fld (A.CX_ERRC c) F.CX_ERRC.TEC + 8 →
          ∃ t, exec (.dttStartRefDone c .error) s = .next t ∧ t.dtt c = dListen ∧ inc t (A.DTT_COLD_ERR c) ∧ inc t (A.CX_TX_ERR c) ∧
            (t.can c).busOff = true ∧ (t.can c).listenEnd = 0 ∧ t.mem = s.mem))) ∧
    (heard ∧ (s.dtt c = dListen ∨ s.dtt c = dCold) →
      (valid → ∃ t, exec (.dttReferenceReceive c id stamp data) s = .next t ∧ t.dtt c = dInteg ∧ (t.can c).row = (data.headD 0).toNat ∧
        (t.can c).q = stamp - rateMul x.rate (2 * rank * p.precision) ∧ (t.can c).gotRef = true ∧ t.mem = s.mem) ∧
      (data.length ≠ 4 → ∃ t, exec (.dttReferenceReceive c id stamp data) s = .next t ∧ inc t (A.DTT_REF_REJ c) ∧ t.dtt c = s.dtt c ∧ t.mem = s.mem)) ∧
    (heard ∧ tracked ∧ valid ∧ (data.headD 0).toNat = x.row →
      (x.inWindow p at_ stamp = false → ∃ t, exec (.dttReferenceReceive c id stamp data) s = .next t ∧ inc t (A.DTT_EDGE_VIOL c 0) ∧
        (t.can c).q = x.q ∧ (t.can c).rate = x.rate ∧ t.dtt c = s.dtt c ∧ t.mem = s.mem) ∧
      (x.inWindow p at_ stamp = true ∧ x.gotRef = false ∧ corr.natAbs ≤ p.driftLimit →
        ∃ t, exec (.dttReferenceReceive c id stamp data) s = .next t ∧ t.dtt c = dActive ∧ (t.can c).gotRef = true ∧
          (t.can c).q = ((x.q : Int) + corr).toNat ∧ (t.can c).corrRun = 0 ∧ t.rdn (A.DTT_LAST_CORR c) = intMod 32 corr ∧ t.mem = s.mem)) ∧
    (heard ∧ s.cxFormat c f.fmt = true ∧ tracked ∧ p.rankOf f.ident = none ∧ p.isStart f.ident = false ∧ x.place p stamp = .stitch n ∧ p.stitches[n.val]? = some en ∧ n.val ≠ 0 ∧
        en.usedIn x.row = true ∧ en.rx = true ∧ x.inWindow p (n * p.stitchLen + p.actionOfs) stamp = true ∧ f.ide = false ∧ f.ident = idOf en.ident ∧
        n.val ∉ x.counted →
      ∃ t, exec (.cxFrameReceive c f stamp false) s = .next t ∧ inc t (A.CX_RX_OK c) ∧ inc t (A.DTT_ST_RX c n) ∧ n.val ∈ (t.can c).counted ∧ t.mem = s.mem) ∧
    (s.cxOn c = false → exec (.dttReferenceReceive c id stamp data) s = .next s) ∧
    (node ∧ s.dtt c = dActive ∧ s.dttMay c = true ∧ x.refSeen = false ∧ x.refSent = false ∧ s.dttRank c p = some rank ∧ s.raw = x.instant p at_ →
      (∃ t, exec (.dttRankedRefSend c true .ok) s = .next t ∧ sent t (idOf (p.refIds.getD rank 0)) (ref x.row false) ∧ inc t (A.DTT_TX_OK c) ∧
        (t.can c).refSent = true ∧ (t.can c).gotRef = true ∧ t.mem = s.mem) ∧
      exec (.dttRankedRefSend c false .ok) s = .next s) ∧
    (node ∧ (s.dtt c = dActive ∨ s.dtt c = dPassive ∨ s.dtt c = dInteg ∧ (x.firstRow = true ∨ x.gotRef = true)) ∧ ends →
      ∃ t, exec (.dttRowEnd c) s = .next t ∧ (t.can c).row = (x.row + 1) % p.rows ∧ (t.can c).q = (s.nextRow c p).1 ∧ (t.can c).prevRef = x.gotRef ∧ (t.can c).gotRef = false ∧
        (t.can c).missRun = miss ∧ (t.can c).counted = [] ∧ (t.can c).firstRow = false ∧
        (t.dtt c = dPassive ∨ t.dtt c = s.dtt c) ∧ (s.dtt c = dActive → (t.dtt c = dPassive ↔ s.fld (A.DTT_LIMITS c) F.DTT_LIMITS.REF_LOSS ≤ miss)) ∧
        t.rd (A.DTT_REF_MISS c) = (if x.gotRef then s.rd (A.DTT_REF_MISS c) else satSucc (s.rd (A.DTT_REF_MISS c))) ∧ t.mem = s.mem) ∧
    (node ∧ s.dtt c = dInteg ∧ x.firstRow = false ∧ x.gotRef = false ∧ ends →
      ∃ t, exec (.dttRowEnd c) s = .next t ∧ t.dtt c = dListen ∧ inc t (A.DTT_REF_MISS c) ∧ t.mem = s.mem) ∧
    (node ∧ p.stitches[n.val]? = some en ∧ s.dtt c = dActive ∧ n.val ≠ 0 ∧ en.tx = true ∧ en.usedIn x.row = true ∧ s.dttMay c = true ∧
        s.raw = x.instant p (n * p.stitchLen + p.actionOfs) ∧ storeFind x.stitch n = some b →
      (s.raw < b.ready + 2000 ∨ b.data = [] → exec (.dttActionPoint c n idle .ok) s = .next s) ∧
      (b.ready + 2000 ≤ s.raw ∧ b.data ≠ [] →
        (∃ t, exec (.dttActionPoint c n true .ok) s = .next t ∧ sent t (idOf en.ident) b.data ∧ (t.can c).stitch = storeErase x.stitch n ∧
          inc t (A.DTT_TX_OK c) ∧ n.val ∈ (t.can c).counted ∧ t.mem = s.mem) ∧
        (∃ t, exec (.dttActionPoint c n false .ok) s = .next t ∧ t.can c = { x with stitch := storeErase x.stitch n } ∧ t.out = s.out ∧
          inc t (A.DTT_TX_BLOCKED c) ∧ s.onlyRegs { t with cx := s.cx } [A.DTT_TX_BLOCKED c]))) ∧
    (node ∧ (s.dtt c = dInteg ∨ s.dtt c = dPassive) ∧ 0 < k.val ∧ k.val ≤ p.minislots ∧ s.raw = x.instant p segment →
      exec (.dttMinislotBoundary c k idle used .ok) s = .next (s.inc (if used then A.DTT_MS_USED c else A.DTT_MS_IDLE c))) ∧
    (node ∧ s.dtt c = dActive ∧ s.dttMay c = true ∧ k.val < p.minislots ∧ s.raw = x.instant p segment →
      ∃ t, exec (.dttMinislotBoundary c k idle used .ok) s = .next t ∧
        (∀ b, b ∈ (t.can c).bufs → b.frame.fmt = .xl) ∧ (t.can c).bufs.length ≤ x.bufs.length ∧ (t.out = s.out ∨ idle = true) ∧
        t.rd (A.DTT_MS_USED c) = (if 0 < k.val ∧ used = true then satSucc (s.rd (A.DTT_MS_USED c)) else s.rd (A.DTT_MS_USED c)) ∧
        t.rd (A.DTT_MS_IDLE c) = (if 0 < k.val ∧ used = false then satSucc (s.rd (A.DTT_MS_IDLE c)) else s.rd (A.DTT_MS_IDLE c)) ∧ t.mem = s.mem)

/-- The segment commands of spec/10 (R502 to R526). -/
def Obligations.WakeSegmentEffects : Prop :=
  ∀ (s : State) (n p c : Fin 8) (m : Byte) (v : Word) (at_ : Dword) (bs : List Byte) (w : WakeMsg) (ident : BitVec 29) (ide : Bool) (e : Episode) (k : Nat),
    let ctl := A.WAKE_SEG_CTRL n
    let st := A.WAKE_SEG_STATUS n
    let inc := fun (t : State) (a : Nat) => t.rd a = satSucc (s.rd a)
    let seg := s.segState n
    let bo := fun (t : State) => t.rd64 (A.WAKE_SEG_BO_LO n) (A.WAKE_SEG_BO_HI n)
    let log := fun (q : Nat) => A.WAKE_INS_LOG n (k % 32) q
    let x := s.seg n
    let rej := fun (t : State) => t.flag A.WAKE_AON_STATUS F.WAKE_AON_STATUS.CFG_REJ = true ∧ t.resp = some (.ok 0)
    let can := s.segOf (8 + c) = some n.val ∧ s.running (cxHalf c) = true ∧ s.cxOn c = true ∧
      s.flag (A.WAKE_SEG_CAN_KA_ID n) F.WAKE_SEG_CAN_KA_ID.EN = true ∧ s.flag (A.WAKE_SEG_CAN_KA_ID n) F.WAKE_SEG_CAN_KA_ID.IDE = ide ∧
      ident.toNat = s.fld (A.WAKE_SEG_CAN_KA_ID n) F.WAKE_SEG_CAN_KA_ID.ID
    let early := s.segHold n = false ∧ at_.toNat < s.segB n ∧ seg = sgAwake ∧ at_.toNat + s.sleepT n < 2 ^ 64
    let kept := fun (t : State) (addr : Nat) (can : Bool) (src : Nat) => inc t (A.WAKE_SEG_KA_RX n) ∧ t.segState n = sgAwake ∧ bo t = at_.toNat + s.sleepT n ∧ t.mem = s.mem ∧
      (x.episode = none → (t.seg n).episode = some ⟨addr, can, src, at_.toNat, s.rdn A.GAUGE_EPOCH, 1, none⟩) ∧
      (x.episode = some e ∧ e.addr = addr ∧ e.can = can → (t.seg n).episode = some { e with count := min 0xFFFFFFFF (e.count + 1) })
    (s.segOf p = some n.val ∧ s.wakeMsg bs = some w ∧ w.sub = 1 ∧ s.tlHears p = true ∧ early →
      ∃ t, exec (.keepaliveReceive p bs at_) s = .next t ∧ kept t w.sa false p) ∧
    (s.segOf p = some n.val ∧ s.wakeMsg bs = some w ∧ w.sub = 1 ∧ s.tlHears p = true ∧ s.segHold n = true →
      exec (.keepaliveReceive p bs at_) s = .next (s.inc (A.WAKE_SEG_KA_RX n))) ∧
    (s.wakeMsg bs = none → exec (.keepaliveReceive p bs at_) s = .next s ∧ exec (.wakeFrameReceive p bs at_) s = .next s) ∧
    (can ∧ s.segHold n = true → exec (.canKeepalive c ident ide at_) s = .next (s.inc (A.WAKE_SEG_KA_RX n))) ∧
    (can ∧ early → ∃ t, exec (.canKeepalive c ident ide at_) s = .next t ∧ kept t ident.toNat true (0x20 + c)) ∧
    (s.segOf (8 + c) = none → exec (.canKeepalive c ident ide at_) s = .next s) ∧
    (s.segOn n = true ∧ seg = sgAwake ∧ s.segHold n = false ∧ s.rawOn = true ∧ s.segB n ≤ s.raw →
      ∃ t, exec (.segBindOffStart n) s = .next t ∧ t.segState n = sgBindOff ∧ (t.seg n).episode = none ∧ (t.seg n).want = false ∧ t.mem = s.mem) ∧
    (seg ≠ sgAwake → exec (.segBindOffStart n) s = .next s) ∧
    (seg = sgBindOff ∧ s.segSending n = false →
      ∃ t, exec (.segAsleep n) s = .next t ∧ t.segState n = (if x.want then sgWaking else sgAsleep) ∧ (t.seg n).want = false ∧
        inc t (A.WAKE_SEG_SLEEPS n) ∧ t.mem = s.mem) ∧
    (seg ≠ sgBindOff ∨ s.segSending n = true → exec (.segAsleep n) s = .next s) ∧
    (seg = sgWaking ∧ s.raw + s.sleepT n < 2 ^ 64 →
      ∃ t, exec (.segAwake n) s = .next t ∧ t.segState n = sgAwake ∧ bo t = s.raw + s.sleepT n ∧ t.mem = s.mem) ∧
    (seg ≠ sgWaking → exec (.segAwake n) s = .next s) ∧
    (s.segOf p = some n.val ∧ s.wakeMsg bs = some w ∧ w.sub = 2 ∧ s.decoderArmed p n = true →
      (((List.range 4).any fun e => s.entryHit p e w) = false → exec (.wakeFrameReceive p bs at_) s = .next (s.inc (A.WAKE_TL_NOMATCH p))) ∧
      (((List.range 4).any fun e => s.entryHit p e w) = true ∧ seg = sgAsleep →
        ∃ t, exec (.wakeFrameReceive p bs at_) s = .next t ∧ t.segState n = sgWaking ∧ inc t (A.WAKE_SEG_LATE n) ∧
          (s.entryHit p 0 w = true → inc t (A.WAKE_TLM_CNT p 0)) ∧ t.wake.segs = s.wake.segs ∧ t.mem = s.mem)) ∧
    (s.segOf (8 + c) = some n.val ∧ seg = sgAsleep ∧ s.fld (A.WAKE_CX_CFG c) F.WAKE_CX_CFG.INH = 0 ∧ s.fld (A.WAKE_CX_CFG c) F.WAKE_CX_CFG.INH_POL = 0 →
      ∃ t, exec (.canInhWake c true at_) s = .next t ∧ t.fld (A.WAKE_CX_CFG c) F.WAKE_CX_CFG.INH = 1 ∧ t.segState n = sgWaking ∧ t.mem = s.mem) ∧
    (s.fld (A.WAKE_CX_CFG c) F.WAKE_CX_CFG.INH_POL = 0 →
      ∃ t, exec (.canInhWake c false at_) s = .next t ∧ t.fld (A.WAKE_CX_CFG c) F.WAKE_CX_CFG.INH = 0 ∧ s.onlyRegs t [A.WAKE_CX_CFG c]) ∧
    (storeFind s.wake.pulses c = some k →
      (k + 100 * usTicks ≤ s.now → exec (.cxWakePulseEnd c) s = .next { s with wake := { s.wake with pulses := storeErase s.wake.pulses c } }) ∧
      (s.now < k + 100 * usTicks → exec (.cxWakePulseEnd c) s = .next s)) ∧
    (s.segOn n = true ∧ s.segHold n = true ∧ s.flag ctl F.WAKE_SEG_CTRL.KA_TX = true ∧
        x.lastKa + s.fld A.WAKE_KA F.WAKE_KA.INTERVAL * msTicks ≤ s.now ∧ s.rdn (A.WAKE_SEG_MEMB n) = 2 ^ p.val ∧ s.running (unitHalf p 4) = true ∧
        s.flag (A.MAC_STATUS (tlPort p)) F.MAC_STATUS.LINK = true ∧ (s.hrst (unitHalf p 4)).isolated = false ∧
        ptpAt (padTo (max 60 (s.keepAlive p).length) (s.keepAlive p)) = none →
      ∃ t, exec (.keepaliveSend n) s = .next t ∧ (t.seg n).lastKa = s.now ∧ t.out = .frame (tlPort p) (withFcs (s.keepAlive p)) :: s.out ∧ t.mem = s.mem) ∧
    (s.segOn n = true ∧ s.segHold n = true ∧ s.flag ctl F.WAKE_SEG_CTRL.KA_TX = true ∧
        x.lastKa + s.fld A.WAKE_KA F.WAKE_KA.INTERVAL * msTicks ≤ s.now →
      ∃ t, exec (.keepaliveSend n) s = .next t ∧ (t.seg n).lastKa = s.now ∧ t.segState n = seg ∧ t.ne = s.ne ∧ t.chg = s.chg) ∧
    (s.segHold n = false → exec (.keepaliveSend n) s = .next s) ∧
    (s.reaches m.toNat ctl true ∧ m.toNat = trivet →
      (fget F.WAKE_SEG_CTRL.EN v = 1 ∧ s.membClash n = true →
        ∃ t, exec (.segHoldWrite m n v) s = .next t ∧ rej t ∧ s.onlyRegs { t with resp := s.resp } [A.WAKE_AON_STATUS]) ∧
      (fget F.WAKE_SEG_CTRL.EN v = 0 ∧ s.segOn n = false →
        ∃ t, exec (.segHoldWrite m n v) s = .next t ∧ t.segOn n = false ∧ t.segState n = seg ∧
          t.fld ctl F.WAKE_SEG_CTRL.SLEEP_T = max 100 (fget F.WAKE_SEG_CTRL.SLEEP_T v) ∧ t.fld ctl F.WAKE_SEG_CTRL.HOLD = fget F.WAKE_SEG_CTRL.HOLD v ∧ t.mem = s.mem) ∧
      (fget F.WAKE_SEG_CTRL.EN v = 1 ∧ s.membClash n = false ∧ s.segOn n = false ∧ fget F.WAKE_SEG_CTRL.HOLD v = 0 →
        ∃ t, exec (.segHoldWrite m n v) s = .next t ∧ t.segOn n = true ∧ t.segState n = sgAwake ∧ bo t = rawMod (s.raw + t.sleepT n) ∧ t.mem = s.mem)) ∧
    (s.reaches m.toNat (A.WAKE_SEG_MEMB n) true ∧ m.toNat = trivet →
      (s.segOn n = true → ∃ t, exec (.segMembWrite m n v) s = .next t ∧ rej t ∧ s.onlyRegs { t with resp := s.resp } [A.WAKE_AON_STATUS]) ∧
      (s.segOn n = false → ∃ t, exec (.segMembWrite m n v) s = .next t ∧ t.rdn (A.WAKE_SEG_MEMB n) % 2 ^ 16 = v.toNat % 2 ^ 16 ∧
        s.onlyRegs { t with resp := s.resp } [A.WAKE_SEG_MEMB n])) ∧
    (x.episode = some e ∧ e.entry = none ∧ e.start + s.fld A.WAKE_INSOMNIA_T F.WAKE_INSOMNIA_T.S * secTicks ≤ s.raw ∧ x.entries = k →
      ∃ t, exec (.insomniaEntryWrite n) s = .next t ∧ (t.seg n).episode = some { e with entry := some k } ∧ (t.seg n).entries = k + 1 ∧
        t.rdn (log 0) = e.addr % 2 ^ 32 ∧ t.rdn (log 2) = e.start % 2 ^ 32 ∧ t.rdn (log 6) = e.count % 2 ^ 32 ∧
        t.flag st F.WAKE_SEG_STATUS.INS_OPEN = true ∧ t.segState n = seg ∧ t.mem = s.mem) ∧
    (x.episode = none → exec (.insomniaEntryWrite n) s = .next s ∧ exec (.insomniaUpdate n) s = .next s) ∧
    (x.episode = some e ∧ e.entry = some k ∧ (s.raw - e.start) / secTicks ≤ s.rdn (log 5) → exec (.insomniaUpdate n) s = .next s) ∧
    (x.episode = some e ∧ e.entry = some k ∧ s.rdn (log 5) < (s.raw - e.start) / secTicks →
      ∃ t, exec (.insomniaUpdate n) s = .next t ∧ t.rdn (log 5) = (s.raw - e.start) / secTicks % 2 ^ 32 ∧ t.rdn (log 6) = e.count % 2 ^ 32 ∧
        s.onlyRegs t [log 0, log 1, log 2, log 3, log 4, log 5, log 6, log 7]) ∧
    (s.reaches m.toNat A.WAKE_INS_CLR true ∧ m.toNat = trivet →
      ∃ t, exec (.wakeInsClrWrite m v) s = .next t ∧ t.mem = s.mem ∧ t.resp = some (.ok 0) ∧
        (bitAt v.toNat n = true → (t.seg n).episode = none ∧ (t.seg n).entries = 0 ∧ t.rd (log 0) = 0 ∧ t.flag st F.WAKE_SEG_STATUS.INS_OPEN = false) ∧
        (bitAt v.toNat n = false → t.seg n = x ∧ t.rd (log 0) = s.rd (log 0)))
/-- The device commands of spec/10 (R495 to R523). -/
def Obligations.WakeDeviceEffects : Prop :=
  ∀ (s : State) (n : Fin 8) (h : Half) (i : Fin 13) (c : Fin 64) (m : Byte) (v : Word) (at_ : Dword) (r : WakeReq) (d prev : Nat),
    let ps := s.pstate
    let req := fget F.WAKE_PCTRL.REQ v
    let may := s.reaches m.toNat A.WAKE_PCTRL true ∧ m.toNat = trivet ∧ s.powerBusy = false
    let off := fun (t : State) (h : Half) => t.halfOff h
    let src := A.WAKE_SRC i
    let key := if i.val < 12 then i.val else 12 + 16 * c.val
    let cnt := A.WAKE_FALSE_CNT i
    let count := min 65535 (s.fld cnt F.WAKE_FALSE_CNT.COUNT + 1)
    let thr := s.fld src F.WAKE_SRC.THR
    let dest := s.fld A.WAKE_PCTRL F.WAKE_PCTRL.AUTO_STATE
    let quiet := ∀ q, q < 8 → s.segOn q = false ∨ s.segState q = sgAsleep ∧ s.segHold q = false
    (s.reaches m.toNat A.WAKE_PCTRL true ∧ m.toNat = trivet ∧ s.powerBusy = true →
      ∃ t, exec (.powerRequest m v) s = .next t ∧ t.flag A.WAKE_PSTATE F.WAKE_PSTATE.REQ_REJ = true ∧ t.pstate = ps ∧
        s.onlyRegs { t with resp := s.resp } [A.WAKE_PCTRL, A.WAKE_PSTATE]) ∧
    (may ∧ ps = psRun ∧ req = psSolo ∧ h = halfOf (fget F.WAKE_PCTRL.HALF v) →
      (s.mayPowerOff h = true ∧ off s h.other = false →
        ∃ t, exec (.powerRequest m v) s = .next t ∧ off t h = true ∧ off t h.other = false ∧ t.pstate = psSolo ∧
          t.fld A.WAKE_PSTATE F.WAKE_PSTATE.SOLO_HALF = h.other.n ∧ (t.hrst h).isolated = true) ∧
      (s.mayPowerOff h = false → ∃ t, exec (.powerRequest m v) s = .next t ∧ t.flag A.WAKE_PSTATE F.WAKE_PSTATE.REQ_REJ = true ∧ t.rst = s.rst ∧ t.pstate = ps)) ∧
    (may ∧ ps = psSolo ∧ req = psRun ∧ off s h.other = false ∧ s.soloOffHalf = h →
      ∃ t, exec (.powerRequest m v) s = .next t ∧ off t h = false ∧ off t h.other = false ∧ t.pstate = psRun ∧ t.powerBusy = true ∧ t.mem = s.mem) ∧
    (may ∧ ps ≤ psSolo ∧ req = psDoze →
      ∃ t, exec (.powerRequest m v) s = .next t ∧ t.pstate = psDoze ∧ off t .k = true ∧ off t .p = true ∧ t.rst.stage = s.rst.stage) ∧
    (may ∧ ps ≤ psDoze ∧ req = psSleep →
      ∃ t, exec (.powerRequest m v) s = .next t ∧ t.pstate = psSleep ∧ off t .k = true ∧ off t .p = true ∧ t.rst.stage = .asleep) ∧
    (s.powerBusy = false ∧ (dest = psDoze ∨ dest = psSleep) ∧ ps ≤ psSolo ∧ quiet →
      ∃ t, exec .autoSleepEntry s = .next t ∧ t.pstate = dest ∧ off t .k = true ∧ off t .p = true) ∧
    (s.powerBusy = true ∨ dest < psDoze → exec .autoSleepEntry s = .next s) ∧
    (s.wake.pend = [r] ∧ s.namesOff r.power = true ∧ s.powerBusy = false ∧ ps ≤ psDoze ∧ off s h = true ∧ bitAt r.power h.n = true →
      ∃ t, exec .deviceWake s = .next t ∧ off t h = false ∧ t.powerBusy = true ∧ t.wake.pend = [] ∧ bitAt t.wake.waking h.n = true ∧
        t.fld A.WAKE_PSTATE F.WAKE_PSTATE.CAUSE_TYPE = r.typ % 2 ^ fldWidth F.WAKE_PSTATE.CAUSE_TYPE ∧ t.mem = s.mem) ∧
    (s.wake.pend = [r] ∧ s.namesOff r.power = true ∧ s.powerBusy = false ∧ ps = psSleep ∧ off s h = true ∧ bitAt r.power h.n = true →
      ∃ t, exec .deviceWake s = .next t ∧ off t h = false ∧ t.powerBusy = true ∧ t.wake.pend = [] ∧ t.rst.stage = .held ∧ t.raw = 0) ∧
    (s.wake.pend = [] → exec .deviceWake s = .next s) ∧
    (s.flag src F.WAKE_SRC.EN = true ∧ s.fld src F.WAKE_SRC.SEG = 0 ∧ (i.val < 12 ∨ masterHalf (s.mbxReceiver c) = some h ∧ off s h = true) →
      exec (.userPathWake i c at_) s = .next (s.wakeEvent ⟨3, key, powerField (s.fld src F.WAKE_SRC.POWER)⟩)) ∧
    (s.flag src F.WAKE_SRC.EN = true ∧ bitAt (s.fld src F.WAKE_SRC.SEG) n = true ∧ (i.val < 12 ∨ masterHalf (s.mbxReceiver c) = some h ∧ off s h = true) ∧ s.segOn n = true ∧ s.segState n = sgAsleep →
      ∃ t, exec (.userPathWake i c at_) s = .next t ∧ t.segState n = sgWaking ∧ t.mem = s.mem) ∧
    (s.flag src F.WAKE_SRC.EN = false → exec (.userPathWake i c at_) s = .next s) ∧
    (storeFind s.wake.valid key = some d ∧ d < s.now ∧ s.flag src F.WAKE_SRC.EN = false →
      exec (.wakeValidTimeout i c) s = .next { s with wake := { s.wake with valid := storeErase s.wake.valid key } }) ∧
    (storeFind s.wake.valid key = some d ∧ d < s.now ∧ s.flag src F.WAKE_SRC.EN = true →
      ∃ t, exec (.wakeValidTimeout i c) s = .next t ∧ storeFind t.wake.valid key = none ∧ t.fld cnt F.WAKE_FALSE_CNT.COUNT = count ∧
        t.flag src F.WAKE_SRC.EN = !decide (thr ≠ 0 ∧ thr ≤ count) ∧
        (thr ≠ 0 ∧ thr ≤ count → t.flag src F.WAKE_SRC.MASKED = true ∧ t.rd (A.SYS_FLT_CNT 0) = satSucc (s.rd (A.SYS_FLT_CNT 0))) ∧ t.mem = s.mem) ∧
    (storeFind s.wake.valid key = none → exec (.wakeValidTimeout i c) s = .next s) ∧
    (s.reaches m.toNat A.WAKE_FALSE_CLR true ∧ m.toNat = trivet →
      ∃ t, exec (.wakeFalseClrWrite m v) s = .next t ∧ t.rd cnt = (if bitAt v.toNat i then 0 else s.rd cnt) ∧
        { t with resp := s.resp, regs := s.regs } = s) ∧
    ((s.seg n).check = some (d, prev) ∧ d < s.now →
      ∃ t, exec (.nodataTimeout n) s = .next t ∧ (t.seg n).check = none ∧
        (prev % 4 = psDoze ∧ ps ≤ psSolo ∧ s.powerBusy = false → t.pstate = psDoze ∧ off t .k = true ∧ off t .p = true) ∧
        (s.powerBusy = true → t.rd (A.WAKE_SEG_NODATA n) = satSucc (s.rd (A.WAKE_SEG_NODATA n)) ∧ s.regsBut t [A.WAKE_SEG_NODATA n] ∧ t.rst = s.rst)) ∧
    ((s.seg n).check = none → exec (.nodataTimeout n) s = .next s)

/-- The host port commands of spec/14 (R659 to R675). -/
def Obligations.HostPortEffects : Prop :=
  ∀ (s : State) (m : Byte) (h : Half) (p : Fin 2) (tr : Fin 5) (vec : Fin 32) (v : Word) (half : BitVec 16) (off : BitVec 18) (addr : BitVec 40)
    (addr64 data64 : BitVec 64) (data : List Byte) (b0 b1 b2 b3 : Byte) (env : BusEnv) (n x : Nat) (on write mask : Bool) (w : Fin 4) (be : List Bool),
    let db := A.KCP_DB h.n
    let free := s.rdn (A.KCP_BUSY h.n) = 0 ∧ s.rdn (A.KCP_DONE h.n) = 0
    let slot := 2 ^ vec.val
    let tlp := s.busAccess (0x40 + p) (0x40000 * s.fld (A.PCI_AP_BASE p) F.PCI_AP_BASE.BASE + off.toNat) 4 write
      (if write then [b0, b1, b2, b3] else []) env
    let tlpGo := (s.tport p).up = true ∧ off.toNat % 4 = 0 ∧
      s.runWaits (0x40000 * s.fld (A.PCI_AP_BASE p) F.PCI_AP_BASE.BASE + off.toNat) 4 = false
    let k := 32 * p.val + vec.val
    let e := storeGet MsixEntry.init s.kcp.msix k
    let clr := if tr.val ≤ 1 then A.HI_CLR tr else if tr.val ≤ 3 then A.QH_HI_CLR (tr - 2) else A.LB_HI_CLR 0
    let on_ := s.running h = true ∧ s.flag (A.QH_CFG h.n) F.QH_CFG.EN = true
    let takes := on_ ∧ w ≠ 3
    let q := s.stream (2 + h.n)
    let st := A.QH_TSTAT h.n
    let lanes := fun (t : State) (bs : List Byte) => t.out = .lanes h.n bs :: s.out
    let room := 4096 - q.cmd.length
    let rd := s.busAccess (0x42 + h.n) addr.toNat 4 false [] env
    let wr := s.busAccess (0x42 + h.n) addr.toNat 4 true [b0, b1, b2, b3] env
    let lb := s.stream 4
    let lbSt := A.LB_TSTAT 0
    let lbOn := s.mode6412 = true ∧ s.running .k = true
    let win := 0x10000 * s.kcp.lbWin + n * 4
    let lrd := s.busAccess 0x44 win 4 false [] env
    let lwr := s.busAccess 0x44 win 4 true (leBytes 4 (half.toNat * 65536 + s.kcp.lbWr)) env
    let lbGo := lbOn ∧ n < 0x4000 ∧ s.zeroingAt win = false
    (s.reaches m.toNat db true →
      (s.flag (A.KCP_RING_CTRL h.n) F.KCP_RING_CTRL.EN = true ∧ free →
        ∃ t, exec (.kcpDbWrite m h [] (BitVec.ofNat 32 slot)) s = .next t ∧ t.rdn (A.KCP_BUSY h.n) = slot ∧
          t.slotDesc h.n vec = s.ringDesc h.n vec ∧ s.regsBut t [A.KCP_BUSY h.n] ∧ t.mem = s.mem) ∧
      (s.flag (A.KCP_RING_CTRL h.n) F.KCP_RING_CTRL.EN = false ∨ bitAt (s.rdn (A.KCP_BUSY h.n)) vec = true ∨ bitAt (s.rdn (A.KCP_DONE h.n)) vec = true →
        ∃ t, exec (.kcpDbWrite m h [] (BitVec.ofNat 32 slot)) s = .next t ∧ t.kcp = s.kcp ∧ s.regsBut t [A.KCP_DB_IGNORED h.n] ∧
          t.rd (A.KCP_DB_IGNORED h.n) = satSucc (s.rd (A.KCP_DB_IGNORED h.n)))) ∧
    ((s.tport p).up = true → ∃ t, exec (.pcieBusMasterEnable p on) s = .next t ∧ t.flag (A.PCI_STATUS p) F.PCI_STATUS.BME = on ∧
        s.onlyRegs t [A.PCI_STATUS p]) ∧
    ((s.tport p).up = false → exec (.pcieBusMasterEnable p on) s = .next s ∧ exec (.pcieApertureAccess p off write (List.replicate 4 true) data []) s = .next s ∧
        exec (.msixVectorUnmask p vec addr64 data64 mask) s = .next s) ∧
    (tlpGo →
      (tlp.resp = some (.ok x) →
        exec (.pcieApertureAccess p off write (List.replicate 4 true) [b0, b1, b2, b3] [(0, env)]) s =
          .next { tlp with resp := some (.ok (if write then 0 else x % 2 ^ 32)),
                           out := if write then tlp.out else .completion p (some (leBytes 4 x)) :: tlp.out }) ∧
      (tlp.resp = some (.err x) →
        exec (.pcieApertureAccess p off write (List.replicate 4 true) [b0, b1, b2, b3] [(0, env)]) s =
          .next { tlp with out := if write then tlp.out else .completion p none :: tlp.out })) ∧
    ((s.tport p).up = true ∧ s.runWaits (0x40000 * s.fld (A.PCI_AP_BASE p) F.PCI_AP_BASE.BASE + off.toNat) be.length = false →
      ∃ t, exec (.pcieApertureAccess p off write be data [(0, env)]) s = .next t ∧ t.resp ≠ none) ∧
    (bitAt s.kcp.active k = false ∧ s.vecActive p vec = true ∧ s.pciMay p = true →
      (e.masked = false → exec (.msixVectorActive p vec) s =
        .next { s with kcp := { s.kcp with active := s.kcp.active + 2 ^ k }, out := .msix p e.addr e.data :: s.out }) ∧
      (e.masked = true → ∃ t, exec (.msixVectorActive p vec) s = .next t ∧ bitAt t.kcp.pba k = true ∧ t.kcp.active = s.kcp.active + 2 ^ k ∧
        t.out = s.out ∧ t.regs = s.regs)) ∧
    (s.vecActive p vec = bitAt s.kcp.active k → exec (.msixVectorActive p vec) s = .next s) ∧
    ((s.tport p).up = true ∧ bitAt s.kcp.pba k = true →
      ∃ t, exec (.msixVectorUnmask p vec addr64 data64 mask) s = .next t ∧
        storeGet MsixEntry.init t.kcp.msix k = ⟨addr64.toNat, data64.toNat % 2 ^ 32, mask⟩ ∧ bitAt t.kcp.pba k = mask ∧ t.regs = s.regs ∧
        t.out = (if mask = false ∧ s.vecActive p vec = true then .msix p addr64.toNat (data64.toNat % 2 ^ 32) :: s.out else s.out)) ∧
    (s.reaches m.toNat clr true →
      ∃ t, exec (.hiClrWrite m tr v on) s = .next t ∧ s.onlyRegs { t with resp := s.resp } [hiPendOf tr] ∧
        t.rd (hiPendOf tr) = (if bitAt v.toNat 17 ∧ on = false then 0 else s.rd (hiPendOf tr))) ∧
    (on_ ∧ w = 3 → exec (.rdsr h w 4) s = .next s ∧ exec (.wrcmd h w data) s = .next s ∧ exec (.rdrsp h w n) s = .next s ∧ exec (.clrsr h w) s = .next s ∧
        exec (.rdmem h w addr n none []) s = .next s ∧ exec (.wrmem h w addr data []) s = .next s) ∧
    (takes →
      (∃ t, exec (.rdsr h w 4) s = .next t ∧ lanes t (leBytes 4 (s.rdn st)) ∧ { t with out := s.out } = s) ∧
      (q.cmd.length + data.length ≤ 4096 →
        ∃ t, exec (.wrcmd h w data) s = .next t ∧ t.stream (2 + h.n) = { q with cmd := q.cmd ++ data } ∧
          t.fld st F.QH_TSTAT.CMD_SPACE = 4096 - (q.cmd.length + data.length) ∧ t.fld st F.QH_TSTAT.OVF = s.fld st F.QH_TSTAT.OVF ∧ s.regsBut t [st]) ∧
      (room < data.length →
        ∃ t, exec (.wrcmd h w data) s = .next t ∧ t.stream (2 + h.n) = { q with cmd := q.cmd ++ data.take room } ∧
          t.flag st F.QH_TSTAT.OVF = true ∧ s.regsBut t [st]) ∧
      (s.kcp.ready = [] →
        ∃ t, exec (.rdrsp h w n) s = .next t ∧ lanes t (padTo n q.rsp) ∧ t.stream (2 + h.n) = { q with rsp := q.rsp.drop n } ∧
          (q.rsp.length < n → t.flag st F.QH_TSTAT.RSP_UNDER = true) ∧ s.regsBut t [st]) ∧
      (∃ t, exec (.rdmem h w addr n none [(0, env)]) s = .next t ∧ t.out.head?.any (fun o => match o with
        | .lanes k bs => k == h.n && bs.length == 4 * n
        | _ => false) = true) ∧
      (∃ t, exec (.wrmem h w addr data [(0, env)]) s = .next t ∧ t.now = s.now) ∧
      (rd.resp = some (.ok x) → exec (.rdmem h w addr 1 none [(0, env)]) s = .next (rd.emit (.lanes h.n (leBytes 4 x)))) ∧
      (rd.resp = some (.err x) →
        ∃ t, exec (.rdmem h w addr 1 none [(0, env)]) s = .next t ∧ t.out = .lanes h.n [0, 0, 0, 0] :: rd.out ∧ t.flag st F.QH_TSTAT.BUS_ERR = true ∧ t.mem = rd.mem) ∧
      (addr.toNat % 4 = 0 ∧ wr.resp = some (.ok x) → exec (.wrmem h w addr [b0, b1, b2, b3] [(0, env)]) s = .next wr) ∧
      (addr.toNat % 4 ≠ 0 → ∃ t, exec (.wrmem h w addr data [(0, env)]) s = .next t ∧ t.flag st F.QH_TSTAT.BUS_ERR = true ∧ s.onlyRegs t [st]) ∧
      (∃ t, exec (.clrsr h w) s = .next t ∧ t.fld st F.QH_TSTAT.BUS_ERR = 0 ∧ t.fld st F.QH_TSTAT.OVF = 0 ∧
        t.fld st F.QH_TSTAT.CMD_SPACE = s.fld st F.QH_TSTAT.CMD_SPACE ∧ (t.stream (2 + h.n)).eaddr = false ∧ s.regsBut t [st] ∧ t.mem = s.mem)) ∧
    (lbOn →
      (lb.cmd.length + 2 ≤ 4096 → ∃ t, exec (.lbCmd half) s = .next t ∧ t.stream 4 = { lb with cmd := lb.cmd ++ leBytes 2 half.toNat } ∧ s.regsBut t [lbSt]) ∧
      (s.kcp.ready = [] → ∃ t, exec .lbRsp s = .next t ∧ t.out = .lanes 0 (padTo 2 lb.rsp) :: s.out ∧ t.stream 4 = { lb with rsp := lb.rsp.drop 2 } ∧ s.regsBut t [lbSt]) ∧
      (∃ t, exec .lbClr s = .next t ∧ t.fld lbSt F.QH_TSTAT.BUS_ERR = 0 ∧ (t.stream 4).eaddr = false ∧ s.regsBut t [lbSt])) ∧
    (s.mode6412 = false → exec (.lbCmd half) s = .next s ∧ exec .lbRsp s = .next s ∧ exec .lbClr s = .next s) ∧
    (lbOn ∧ n < 2 ^ 21 ∧ (n < 0x100000 → s.zeroingAt (bankBase + n * 2) = false) ∧
        (0x108000 ≤ n → s.zeroingAt (0x10000 * s.kcp.lbWin + (n * 2 - 0x210000) / 4 * 4) = false) →
      ∃ t, exec (.lbWindowAccess (BitVec.ofNat 21 n) write half env) s = .next t ∧ t.now = s.now ∧
        (write = false → t.out.head?.any (fun o => match o with
          | .lanes k bs => k == 0 && bs.length == 2
          | _ => false) = true)) ∧
    (lbGo →
      exec (.lbWindowAccess (BitVec.ofNat 21 (0x108000 + 2 * n)) true half env) s = .next { s with kcp := { s.kcp with lbWr := half.toNat } } ∧
      (lrd.resp = some (.ok x) → exec (.lbWindowAccess (BitVec.ofNat 21 (0x108000 + 2 * n)) false half env) s =
        .next ({ lrd with kcp := { lrd.kcp with lbRd := x / 65536 } }.emit (.lanes 0 (leBytes 2 x)))) ∧
      (lwr.resp = some (.ok x) → exec (.lbWindowAccess (BitVec.ofNat 21 (0x108001 + 2 * n)) true half env) s = .next lwr) ∧
      exec (.lbWindowAccess (BitVec.ofNat 21 (0x108001 + 2 * n)) false half env) s = .next (s.emit (.lanes 0 (leBytes 2 s.kcp.lbRd))))
/-- The engine commands of spec/14 (R636 to R673). -/
def Obligations.KcpEngineEffects : Prop :=
  ∀ (s : State) (p : Fin 2) (tr : Fin 6) (slot : Fin 32) (n : Fin 9) (tag : BitVec 16) (bs pkt data : List Byte) (c : KCmd) (x : Session)
    (h : Half) (f : PCopy) (status at_ : Nat) (e : SelfEffect) (rest : List (Nat × SelfEffect)),
    let a : Arrived := ⟨p, 0, slot, none, bs⟩
    let may := s.trivetLost = false ∧ s.rst.stage = .done ∧ (s.tport p).up = true ∧ s.flag (A.PCI_STATUS p) F.PCI_STATUS.BME = true ∧
      s.slotWaits p slot = true ∧ bs.length = (s.slotDesc p slot).cmdLen
    let reply := fun (op tag sess st : Nat) (data : List Byte) =>
      let body := [0x4B#8, 0x43#8, 0x01#8, 0x00#8] ++ leBytes 2 op ++ leBytes 2 tag ++ leBytes 4 data.length ++ leBytes 2 sess ++ leBytes 2 st ++ data
      body ++ leBytes 4 (crc32c body)
    let inc := fun (t : State) (a : Nat) => t.rdn a = min 0xFFFFFFFF (s.rdn a + 1)
    let mine := s.kcmd tr tag.toNat = some c
    let done := fun (t : State) => t.kcp.cmds = s.kcp.cmds.filter (fun d => !(d.tr == c.tr && d.tag == c.tag))
    let d := s.slotDesc p slot
    let copy := (s.plane h).handed.find? (fun q => q.outp == 10 && s.takesArp h (s.redLeave h q q.bytes)) = some f
    let gram := (s.plane h).handed.find? (fun q => q.outp == 10 && s.takesUdp h (s.redLeave h q q.bytes)) = some f
    let load := (udpParts h f (s.redLeave h f f.bytes)).2
    (may →
      (s.arriveCheck a = some status →
        ∃ t, exec (.kcpPacketArrival (if p = 0 then 0 else 1) slot bs) s = .next t ∧ inc t (A.KCP_RX_BAD p) ∧ t.kcp.cmds = s.kcp.cmds ∧ t.mem = s.mem ∧
          t.kcp.ready = s.kcp.ready ++ [(p.val, slot.val, reply (u bs 4 2 % 0x8000 + 0x8000) (u bs 6 2) 0 status [])]) ∧
      (s.arriveCheck a = none →
        ∃ t, exec (.kcpPacketArrival (if p = 0 then 0 else 1) slot bs) s = .next t ∧ inc t (A.KCP_RX_OK p) ∧ t.kcp.ready = s.kcp.ready ∧ t.mem = s.mem ∧
          t.kcmd p (u bs 6 2) = some ⟨p, 0, u bs 6 2, u bs 4 2, bitAt (byteAt bs 3) 0, slice bs 16 (u bs 8 4), s.now, s.now + timeoutMs bs * msTicks, slot,
            none, false, false, false⟩)) ∧
    (2 ≤ tr.val ∧ tr.val ≤ 4 ∧ s.trivetLost = false ∧ s.rst.stage = .done ∧ (s.tport tr).up = true →
      (∃ t, exec (.kcpPacketArrival tr slot []) s = .next t ∧ (t.stream tr).cmd = [] ∧ t.mem = s.mem) ∧
      ((s.stream tr).part = [] ∧ (s.stream tr).cmd = bs ∧ bs.take 2 = [0x4B#8, 0x43#8] ∧ bs.length = 20 + u bs 8 4 ∧
          s.arriveCheck ⟨tr, 0, 0, none, bs⟩ = none →
        ∃ t, exec (.kcpPacketArrival tr slot []) s = .next t ∧ t.stream tr = { s.stream tr with cmd := [] } ∧ t.mem = s.mem ∧
          t.kcmd tr (u bs 6 2) = some ⟨tr, 0, u bs 6 2, u bs 4 2, bitAt (byteAt bs 3) 0, slice bs 16 (u bs 8 4), s.now, s.now + timeoutMs bs * msTicks, 0,
            none, false, false, false⟩)) ∧
    ((s.tport tr).up = false ∨ s.trivetLost = true → exec (.kcpPacketArrival tr slot bs) s = .next s) ∧
    (mine ∧ c.started = false ∧ s.trivetLost = false ∧ s.now ≤ c.deadline ∧ c.mayStart s.kcp.cmds = true →
      (((opRow c.op).any fun r => s.cmdCheck c r == none) = true → ∃ t, exec (.kcpCommandStart tr tag) s = .next t ∧ t.kcmd tr tag.toNat = some { c with started := true } ∧
        { t with kcp := { t.kcp with cmds := s.kcp.cmds } } = s) ∧
      (((opRow c.op).any fun r => s.cmdCheck c r == some status) = true → exec (.kcpCommandStart tr tag) s = .next (s.finish c status []))) ∧
    (s.kcmd tr tag.toNat = none → exec (.kcpCommandStart tr tag) s = .next s ∧ exec (.kcpCommandTimeout tr tag) s = .next s) ∧
    (mine ∧ c.committed = false ∧ s.trivetLost = false ∧ c.deadline < s.now ∧ c.mute = false ∧ c.tr = p.val →
      ∃ t, exec (.kcpCommandTimeout tr tag) s = .next t ∧ done t ∧ inc t (A.KCP_TIMEOUT p) ∧ s.regsBut t [A.KCP_TIMEOUT p] ∧ t.mem = s.mem ∧
        t.kcp.ready = s.kcp.ready ++ [(p.val, c.slot, reply (c.op + 0x8000) c.tag c.sess 8 [])]) ∧
    (mine ∧ s.now ≤ c.deadline → exec (.kcpCommandTimeout tr tag) s = .next s) ∧
    (let t := s.finish c status data
     done t ∧ t.mem = s.mem ∧
      (c.mute = true ∨ s.trivetLost = true → t.kcp.ready = s.kcp.ready ∧ t.out = s.out ∧ t.regs = s.regs) ∧
      (c.mute = false ∧ s.trivetLost = false ∧ c.tr ≤ 1 →
        t.kcp.ready = s.kcp.ready ++ [(c.tr, c.slot, reply (c.op + 0x8000) c.tag c.sess status data)] ∧ t.regs = s.regs) ∧
      (c.mute = false ∧ s.trivetLost = false ∧ 2 ≤ c.tr ∧ c.tr ≤ 4 ∧ s.kcp.ready = [] ∧ (s.stream c.tr).rsp = [] →
        (t.stream c.tr).rsp = reply (c.op + 0x8000) c.tag c.sess status data ∧ t.kcp.ready = []) ∧
      (c.mute = false ∧ s.trivetLost = false ∧ c.tr = 5 ∧ c.origin = none → t.out = .reply 5 (reply (c.op + 0x8000) c.tag c.sess status data) :: s.out)) ∧
    (s.session tr n = some x ∧ s.trivetLost = false ∧ x.last + 30000000000 < s.now →
      (tr.val ≤ 4 ∧ x.safety = true → exec (.sessionIdleTimeout tr n) s = .next (s.putSession tr n { x with safety := false, proved := 0 })) ∧
      (tr.val = 5 → ∃ t, exec (.sessionIdleTimeout tr n) s = .next t ∧ t.session 5 n = none ∧ t.regs = s.regs ∧ t.mem = s.mem)) ∧
    (s.session tr n = none → exec (.sessionIdleTimeout tr n) s = .next s) ∧
    ((s.tport tr).lockEnd ≠ 0 ∧ (s.tport tr).lockEnd ≤ s.now →
      exec (.authLockEnd tr) s = .next (s.putTport tr { s.tport tr with fails := 0, lockEnd := 0 })) ∧
    (s.now < (s.tport tr).lockEnd → exec (.authLockEnd tr) s = .next s) ∧
    (s.kcp.ready.find? (fun r => r.1 = p.val ∧ r.2.1 = slot.val) = some (p.val, slot.val, pkt) ∧ s.trivetLost = false ∧ s.pciMay p = true →
      ∃ t, exec (.kcpSlotReply p slot) s = .next t ∧ t.kcp.ready = s.kcp.ready.erase (p.val, slot.val, pkt) ∧
        t.out = (if 20 ≤ d.rspMax ∧ pkt.length ≤ d.rspMax then .hostWrite p d.rspAddr pkt :: s.out else s.out) ∧
        (t.ringDesc p slot).rspLen = (if 20 ≤ d.rspMax ∧ pkt.length ≤ d.rspMax then pkt.length else 0) ∧ bitAt (t.rdn (A.KCP_BUSY p)) slot = false ∧
        bitAt (t.rdn (A.KCP_DONE p)) slot = true ∧ s.regsBut t [A.KCP_BUSY p, A.KCP_DONE p] ∧ t.mem = s.mem) ∧
    (s.pciMay p = false ∨ s.trivetLost = true → exec (.kcpSlotReply p slot) s = .next s) ∧
    (s.kcp.waits = (at_, e) :: rest →
      (s.now < at_ + 50000 → exec .kcpSelfEffectStart s = .next s) ∧
      (at_ + 50000 ≤ s.now → exec .kcpSelfEffectStart s = .next (({ s with kcp := { s.kcp with waits := rest } } : State).selfStart e))) ∧
    (s.trivetLost = false ∧ s.running h = true ∧ gram ∧ ipFragment (s.redLeave h f f.bytes) = false ∧ (load.length < 28 ∨ s.slotRole (byteAt load 2) = false) →
      ∃ t, exec (.kcpDatagramReceive h) s = .next t ∧ inc t (A.KCP_UDP_AUTH_FAIL h.n) ∧ t.kcp = s.kcp ∧
        t.plane h = { s.plane h with handed := (s.plane h).handed.erase f } ∧ t.mem = s.mem) ∧
    (s.trivetLost = false ∧ s.running h = true ∧ gram ∧ ipFragment (s.redLeave h f f.bytes) = false ∧ 28 ≤ load.length ∧ u load 0 2 = 0 ∧
        storeGet 0 s.kcp.seq0 (byteAt load 2) ≤ u load 4 8 →
      ∃ t, exec (.kcpDatagramReceive h) s = .next t ∧
        storeGet 0 t.kcp.seq0 (byteAt load 2) = (if s.slotRole (byteAt load 2) = true ∧
          s.cmac (byteAt load 2) (load.take (load.length - 16)) = load.drop (load.length - 16) then u load 4 8 + 1
          else storeGet 0 s.kcp.seq0 (byteAt load 2)) ∧ t.mem = s.mem) ∧
    (s.running h = true ∧ copy →
      ∃ t, exec (.kcpArpReply h) s = .next t ∧ t.plane h = { s.plane h with handed := (s.plane h).handed.erase f, inq := (s.plane h).inq ++
        [⟨10, s.arpReply h (s.redLeave h f f.bytes), s.raw, 0, 2 ^ f.inp, 0, none, none, 0, 0⟩] } ∧ t.kcp = s.kcp ∧ t.mem = s.mem) ∧
    (s.running h = false → exec (.kcpArpReply h) s = .next s ∧ exec (.kcpDatagramReceive h) s = .next s)

/-- The commands of opcode group 0x00 of spec/14 (R640 to R656, R683, R686), each for a command c that is outstanding, has started and is
within its time. -/
def Obligations.KcpGeneralEffects : Prop :=
  ∀ (s : State) (t : Fin 6) (tag : BitVec 16) (c : KCmd) (x : Session) (env : List (Nat × BusEnv)) (raised : Fin 4) (k v : Nat),
    let act := fun (op : Nat) => s.kcmd t tag.toNat = some c ∧ c.op = op ∧ c.started = true ∧ s.trivetLost = false ∧ c.committed = false ∧
      s.now ≤ c.deadline
    let b := fun (k : Nat) => byteAt c.params k
    let a := u c.params 0 8
    let n := u c.params 8 4
    let cs := chunksOf a n
    let rr := s.runRead trivet env 0 a (List.replicate n 4)
    let rw := s.runWrite trivet env 0 a (List.replicate n 4) (c.params.drop 12)
    let mr := s.runRead trivet env 0 a cs
    let mw := s.runWrite trivet env 0 a cs (c.params.drop 12)
    let busErr := leBytes 4 k ++ [BitVec.ofNat 8 v]
    let r : KReset := ⟨b 0, b 1, b 2⟩
    let unit := (b 0 = 3 ∧ 1 ≤ b 1 ∧ b 1 ≤ 5 ∧ b 2 < 2) ∨ (b 0 = 4 ∧ b 1 = 6 ∧ b 2 < 24) ∨ (b 0 = 4 ∧ b 1 = 7 ∧ b 2 < 16)
    let half := b 0 = 2 ∧ b 1 = 0 ∧ b 2 < 2
    let chip := b 0 = 1 ∧ b 1 = 0xFF ∧ b 2 = 0xFF
    let nonce := Config.nonce s.free % 2 ^ 128
    let proof := s.slotSafety (b 0) = true ∧ s.now ≤ v + 5000000000 ∧
      s.cmac (b 0) (leBytes 16 k ++ leBytes 1 t ++ leBytes 2 c.sess) = c.params.drop 1
    let tp := s.tport t
    let first := u c.params 0 4
    let cnt := u c.params 4 2
    let w := s.rdn A.SYS_FLT_WSEQ
    let lo := max first (w - 256)
    (act 0x0001 → exec (.ping t tag) s =
      .next (s.finish c 0 (leBytes 4 (s.rdn A.SYS_ID) ++ leBytes 2 (s.rdn A.GAUGE_EPOCH) ++ leBytes 8 s.raw))) ∧
    (act 0x0002 → exec (.info t tag) s =
      .next (s.finish c 0 (leBytes 4 (s.rdn A.SYS_STRAP) ++ leBytes 1 s.lc ++ leBytes 1 s.pstate ++ [s.chg.holder] ++ leBytes 1 s.chg.mode.code ++
        leBytes 4 Config.fwVersion ++ leBytes 4 Config.patchLevel))) ∧
    (act 0x0003 ∧ (n = 0 ∨ 256 < n) → exec (.regRead t tag env) s = .next (s.finish c 5 (leBytes 4 8))) ∧
    (act 0x0003 ∧ 1 ≤ n ∧ n ≤ 256 ∧ s.runWaits a (4 * n) = false →
      exec (.regRead t tag env) s = .next (rr.1.runReply c a (List.replicate n 4) rr.2 rr.2.bytes) ∧
      (rr.2.bad = none → exec (.regRead t tag env) s = .next (rr.1.finish c 0 rr.2.bytes)) ∧
      (rr.2.bad = some (k, .err v) → exec (.regRead t tag env) s = .next (rr.1.finish c 0x30 busErr))) ∧
    (act 0x0004 ∧ 1 ≤ n ∧ n ≤ 256 ∧ (s.lc ≠ 3 ∨ setsColEn c.params = false) ∧ s.runWaits a (4 * n) = false →
      exec (.regWrite t tag env) s = .next (rw.1.runReply c a (List.replicate n 4) rw.2 rw.2.bytes) ∧
      (rw.2.bad = none → exec (.regWrite t tag env) s = .next (rw.1.finish c 0 [])) ∧
      (rw.2.bad = some (k, .err v) → exec (.regWrite t tag env) s = .next (rw.1.finish c 0x30 busErr)) ∧
      (rw.2.bad = some (k, .writeLost) → exec (.regWrite t tag env) s = .next (rw.1.finish c 0x31 (leBytes 4 k ++ [0])))) ∧
    (act 0x0005 ∧ 1 ≤ n ∧ n ≤ 65536 ∧ s.runWaits a (cs.foldl Nat.add 0) = false →
      exec (.memRead t tag env) s = .next (mr.1.runReply c a cs mr.2 mr.2.bytes) ∧
      (mr.2.bad = none → exec (.memRead t tag env) s = .next (mr.1.finish c 0 mr.2.bytes)) ∧
      (mr.2.bad = some (k, .err v) → exec (.memRead t tag env) s = .next (mr.1.finish c 0x30 busErr))) ∧
    (act 0x0006 ∧ 1 ≤ n ∧ n ≤ 65536 ∧ s.runWaits a (cs.foldl Nat.add 0) = false →
      exec (.memWrite t tag env) s = .next (mw.1.runReply c a cs mw.2 mw.2.bytes) ∧
      (mw.2.bad = none → exec (.memWrite t tag env) s = .next (mw.1.finish c 0 [])) ∧
      (mw.2.bad = some (k, .err v) → exec (.memWrite t tag env) s = .next (mw.1.finish c 0x30 busErr))) ∧
    (act 0x0006 ∧ (n = 0 ∨ 65536 < n) → exec (.memRead t tag env) s = .next s ∧ exec (.memWrite t tag env) s = .next (s.finish c 5 (leBytes 4 8))) ∧
    (act 0x0007 →
      (unit ∨ (half ∧ c.carrier ≠ some (halfOf (b 2))) → exec (.reset t tag) s = .next ((s.kcpAssert r).finish c 0 [])) ∧
      (chip ∨ (half ∧ c.carrier = some (halfOf (b 2))) → exec (.reset t tag) s =
        .next (let f := s.finish c 0 []; { f with kcp := { f.kcp with waits := f.kcp.waits ++ [(f.now, .reset r)] } })) ∧
      (b 0 = 0 ∨ 4 < b 0 → exec (.reset t tag) s = .next (s.finish c 5 (leBytes 4 0)))) ∧
    (s.kcmd 5 tag.toNat = some c ∧ c.op = 0x0008 ∧ c.started = true ∧ s.trivetLost = false ∧ c.committed = false ∧ s.now ≤ c.deadline →
      (c.sess = 0 ∧ 1 ≤ k ∧ k ≤ 8 ∧ s.session 5 k = none ∧ ((List.range k).all fun j => j == 0 || (s.session 5 j).isSome) = true →
        exec (.sessionOpen tag) s = .next (((s.putSession 5 k (Session.opened c.slot s.now)).putKcmd { c with sess := k }).finish { c with sess := k } 0 (leBytes 2 k))) ∧
      (c.sess ≠ 0 ∨ ((List.range 9).all fun j => j == 0 || (s.session 5 j).isSome) = true → exec (.sessionOpen tag) s = .next (s.finish c 0x10 []))) ∧
    (act 0x0009 →
      (s.now < tp.lockEnd → exec (.sessionAuth t tag) s = .next (s.finish c 0xC [])) ∧
      (tp.lockEnd ≤ s.now ∧ s.session t c.sess = some x → exec (.sessionAuth t tag) s =
        .next ((({ s with free := s.free + 1 } : State).putSession t c.sess { x with nonce := some (nonce, s.now) }).finish c 0 (leBytes 16 nonce)))) ∧
    (act 0x000A ∧ s.session t c.sess = some x →
      (x.nonce = some (k, v) ∧ proof ∧ s.roleHeld t c.sess = false → exec (.sessionProve t tag) s =
        .next (((s.putTport t { tp with fails := 0 }).putSession t c.sess { x with nonce := none, safety := true, proved := b 0 }).finish c 0 [1])) ∧
      (x.nonce = some (k, v) ∧ proof ∧ s.roleHeld t c.sess = true → exec (.sessionProve t tag) s =
        .next (((s.putTport t { tp with fails := 0 }).putSession t c.sess { x with nonce := none }).finish c 0xA [])) ∧
      (x.nonce = none ∨ (x.nonce = some (k, v) ∧ ¬ proof) → exec (.sessionProve t tag) s =
        .next (((s.putSession t c.sess { x with nonce := none }).putTport t
          (if tp.fails < 4 then { tp with fails := tp.fails + 1 } else { tp with fails := 0, lockEnd := s.now + 30000000000 })).finish c
          (if s.roleHeld t c.sess = true then 0xA else 0xB) []))) ∧
    (s.session t c.sess = some x ∧ t.val ≤ 4 →
      (act 0x000B → exec (.sessionClose t tag) s = .next ((s.finish c 0 []).putSession t c.sess { x with safety := false, proved := 0 })) ∧
      (act 0x000C → exec (.sessionDrop t tag) s = .next ((s.putSession t c.sess { x with safety := false, proved := 0 }).finish c 0 []))) ∧
    (act 0x000B ∧ t.val = 5 → exec (.sessionClose t tag) s = .next ((s.finish c 0 []).closeUdp c.sess)) ∧
    (act 0x000D ∧ 1 ≤ cnt ∧ cnt ≤ 256 →
      (w ≤ first → exec (.faultRead t tag) s = .next (s.finish c 0x27 [])) ∧
      (first < w → exec (.faultRead t tag) s =
        .next (s.finish c 0 ((List.range (min (first + cnt) w - lo)).flatMap fun j =>
          (List.range 8).flatMap fun i => leBytes 4 (s.rdn (A.SYS_FLT_SLOT ((lo + j) % 256) i)))))) ∧
    (act 0x000E →
      (s.fltActive = 0 → exec (.faultClear t tag raised) s =
        .next (((s.setf A.SYS_FLT_LATCH F.SYS_FLT_LATCH.F3 (if bitAt raised 0 then s.fld A.SYS_FLT_LATCH F.SYS_FLT_LATCH.F3 else 0)).setf A.SYS_FLT_LATCH
          F.SYS_FLT_LATCH.F4 (if bitAt raised 1 then s.fld A.SYS_FLT_LATCH F.SYS_FLT_LATCH.F4 else 0)).finish c 0 [])) ∧
      (s.fltActive ≠ 0 → exec (.faultClear t tag raised) s = .next (s.finish c 0x10 []))) ∧
    (s.kcmd t tag.toNat = none ∨ s.trivetLost = true → exec (.ping t tag) s = .next s ∧ exec (.regWrite t tag env) s = .next s ∧
      exec (.reset t tag) s = .next s ∧ exec (.sessionProve t tag) s = .next s)

/-- The commands of opcode groups 0x02 to 0x05 of spec/14, each for a command c that is outstanding, has started and is within its time. -/
def Obligations.KcpPortTimeEffects : Prop :=
  ∀ (s : State) (tr : Fin 6) (tag : BitVec 16) (c : KCmd) (h : Half) (i : Nat) (pat : Pattern),
    let act := fun (op : Nat) => s.kcmd tr tag.toNat = some c ∧ c.op = op ∧ c.started = true ∧ s.trivetLost = false ∧ c.committed = false ∧
      s.now ≤ c.deadline
    let b := fun (k : Nat) => byteAt c.params k
    let p := fun (off n : Nat) => u c.params off n
    let im := fun (off : Nat) (as : List Nat) => imageWrites c.params off as
    let W := fun (ws : List (Nat × Nat)) => s.trvWrites 0 ws
    let R := fun (as : List Nat) => s.trvReads 0 as
    let bad := fun (off : Nat) => s.finish c 5 (leBytes 4 off)
    let n := 12 * b 0 + b 1
    let e := slice c.params 1 16
    let e3 := slice c.params 3 16
    let ix := p 1 2
    let ways := bucketWays (entryBucket e)
    let d := b 0
    let ga := A.SWG_CTRL (b 0) (b 1)
    let gv := fput F.SWG_CTRL.DOMAIN (fput F.SWG_CTRL.ADMIN_LEN (fput F.SWG_CTRL.CHANGE (s.rd ga) 1) (p 3 2)) (b 2)
    let gw := W (gateWrites c.params (b 0) (b 1) (1 - s.fld ga F.SWG_CTRL.OPER) (p 3 2) gv)
    let ptp : PtpInst := ⟨b 1, b 2, c.params.drop 3⟩
    (let w := W [(A.MAC_CTRL n, p 2 4), (A.MAC_SA_LO n, p 6 4), (A.MAC_SA_HI n, p 10 2), (A.MAC_PAUSE n, p 12 4)]
     act 0x0201 →
      (b 0 < 2 ∧ b 1 < 9 → exec (.portCfg tr tag) s = .next (w.1.runReply c 0 [] ⟨[], w.2⟩ [])) ∧
      (2 ≤ b 0 → exec (.portCfg tr tag) s = .next (bad 0)) ∧ (b 0 < 2 ∧ 9 ≤ b 1 → exec (.portCfg tr tag) s = .next (bad 1))) ∧
    (let lo := if b 2 = 0 then A.MAC_UC_LO n (b 3) else A.MAC_MC_LO n (b 3)
     let hi := if b 2 = 0 then A.MAC_UC_HI n (b 3) else A.MAC_MC_HI n (b 3)
     let w := W [(hi, p 8 2), (lo, p 4 4), (hi, b 10 * 2 ^ 31 + p 8 2)]
     act 0x0202 ∧ b 0 < 2 ∧ b 1 < 9 ∧ b 2 < 2 ∧ b 3 < 8 ∧ b 10 < 2 → exec (.portFilter tr tag) s = .next (w.1.runReply c 0 [] ⟨[], w.2⟩ [])) ∧
    (let r := R ((List.range 24).map (A.MAC_CNT n) ++ [A.MAC_CNT_WRAP n, A.MAC_PER_STATUS n] ++ (List.range 8).map (A.MAC_PER_SHADOW n))
     act 0x0203 ∧ b 0 < 2 ∧ b 1 < 12 → exec (.portStats tr tag) s = .next (r.1.runReply c 0 [] r.2 r.2.bytes)) ∧
    (let w := W [(A.MAC_PER_CTRL n, b 2 * 2 ^ 31 + b 3 * 2 ^ 16)]
     act 0x0204 ∧ b 0 < 2 ∧ b 1 < 12 ∧ b 2 < 2 ∧ b 3 < 16 → exec (.portPeriod tr tag) s = .next (w.1.runReply c 0 [] ⟨[], w.2⟩ [])) ∧
    (let w := W [(A.TL_CTRL (4 * b 0 + b 1), p 2 4)]
     act 0x0205 ∧ b 0 < 2 ∧ b 1 < 4 → exec (.tlCfg tr tag) s = .next (w.1.runReply c 0 [] ⟨[], w.2⟩ [])) ∧
    (let w := W [(A.SD_CTRL (4 * b 0 + b 1), p 2 4), (A.SD_TXEQ (4 * b 0 + b 1), p 6 4)]
     act 0x0206 ∧ b 0 < 2 ∧ b 1 < 4 → exec (.sdCfg tr tag) s = .next (w.1.runReply c 0 [] ⟨[], w.2⟩ [])) ∧
    (let w := W [(A.RG_CTRL (b 0), p 1 4)]
     act 0x0207 ∧ b 0 < 2 → exec (.rgCfg tr tag) s = .next (w.1.runReply c 0 [] ⟨[], w.2⟩ [])) ∧
    (let w := W (im 5 [A.CX_NBT d, A.CX_DBT d, A.CX_XBT d, A.CX_TDC d, A.CX_PWM d] ++ [(A.CX_CTRL d, p 1 4)])
     act 0x0208 ∧ d < 8 → exec (.cxCfg tr tag) s = .next (w.1.runReply c 0 [] ⟨[], w.2⟩ [])) ∧
    (let w := W (im 3 ((List.range (b 2)).flatMap fun k => [A.CX_FILT_ID d (b 1 + k), A.CX_FILT_MASK d (b 1 + k)]))
     act 0x0209 ∧ d < 8 ∧ b 1 < 128 ∧ b 1 + b 2 ≤ 128 → exec (.cxFilter tr tag) s = .next (w.1.runReply c 0 [] ⟨[], w.2⟩ [])) ∧
    (let w := W (entryWrites h.n i e)
     act 0x0301 ∧ b 0 = h.n ∧ entryVidOk e = true →
      (ways.any (s.fwdClash h e) = true → exec (.fwdInsert tr tag) s = .next (s.finish c 0x21 [])) ∧
      (ways.any (s.fwdClash h e) = false ∧ ways.all (s.fwdValid h) = true → exec (.fwdInsert tr tag) s = .next (s.finish c 0x20 [])) ∧
      (ways.any (s.fwdClash h e) = false ∧ ways.find? (fun k => !s.fwdValid h k) = some i →
        exec (.fwdInsert tr tag) s = .next (w.1.runReply c 0 [] ⟨[], w.2⟩ (leBytes 2 i)))) ∧
    (let w := W (entryWrites h.n ix e3)
     act 0x0302 ∧ b 0 = h.n ∧ ix < 4096 ∧ entryVidOk e3 = true ∧ entryBucket e3 = ix / 4 →
      (s.fwdValid h ix = false → exec (.fwdUpdate tr tag) s = .next (s.finish c 0x27 [])) ∧
      (s.fwdValid h ix = true ∧ ((bucketWays (ix / 4)).any fun j => j != ix && s.fwdClash h e3 j) = false →
        exec (.fwdUpdate tr tag) s = .next (w.1.runReply c 0 [] ⟨[], w.2⟩ []))) ∧
    (let w := W [(A.SW_FWD h.n ix 3, s.fwdWord h ix 3 % 2 ^ 31)]
     act 0x0303 ∧ b 0 = h.n ∧ ix < 4096 →
      (s.fwdValid h ix = false → exec (.fwdDelete tr tag) s = .next (s.finish c 0x27 [])) ∧
      (s.fwdValid h ix = true → exec (.fwdDelete tr tag) s = .next (w.1.runReply c 0 [] ⟨[], w.2⟩ []))) ∧
    (let r := R ((List.range (p 3 2)).flatMap fun k => (List.range 4).map fun j => A.SW_FWD (b 0) (ix + k) j)
     act 0x0304 ∧ b 0 < 2 ∧ ix < 4096 ∧ 1 ≤ p 3 2 ∧ ix + p 3 2 ≤ 4096 → exec (.fwdRead tr tag) s = .next (r.1.runReply c 0 [] r.2 r.2.bytes)) ∧
    (let j := p 2 2
     let lim := W (im 4 [A.SWQ_LIM (b 0) j, A.SWQ_SIEVE (b 0) j])
     let pt := W (im 4 [A.SW_SIEVE_PT (b 0) (j / 16) (j % 16)])
     let mtr := W (im 4 [A.MTR_CIR (b 0) j, A.MTR_PIR (b 0) j, A.MTR_CBS (b 0) j, A.MTR_PBS (b 0) j, A.MTR_CTRL (b 0) j])
     let swp := W (im 4 [A.SWP_CFG (b 0) j, A.SWP_PCP_MAP (b 0) j, A.SWP_MISS_MASK (b 0) j, A.SWP_XOFF (b 0) j])
     act 0x0305 ∧ b 0 < 2 →
      (b 1 = 0 ∧ j < 96 → exec (.qosCfg tr tag) s = .next (lim.1.runReply c 0 [] ⟨[], lim.2⟩ [])) ∧
      (b 1 = 1 ∧ j < 64 → exec (.qosCfg tr tag) s = .next (pt.1.runReply c 0 [] ⟨[], pt.2⟩ [])) ∧
      (b 1 = 2 ∧ j < 64 → exec (.qosCfg tr tag) s = .next (mtr.1.runReply c 0 [] ⟨[], mtr.2⟩ [])) ∧
      (b 1 = 3 ∧ j < 12 → exec (.qosCfg tr tag) s = .next (swp.1.runReply c 0 [] ⟨[], swp.2⟩ [])) ∧
      (4 ≤ b 1 → exec (.qosCfg tr tag) s = .next (bad 1)) ∧ (b 1 = 0 ∧ 96 ≤ j → exec (.qosCfg tr tag) s = .next (bad 2))) ∧
    (act 0x0306 ∧ b 0 < 2 ∧ b 1 < 9 ∧ b 2 < 4 ∧ p 3 2 ≤ 256 →
      (gw.2 = none ∧ (p 3 2 = 0 ∨ p 17 4 < 1000 ∨ 999999999 < p 17 4) → exec (.gateLoad tr tag) s = .next (gw.1.finish c 0x22 [])) ∧
      (1 ≤ p 3 2 ∧ 1000 ≤ p 17 4 ∧ p 17 4 ≤ 999999999 → exec (.gateLoad tr tag) s =
        .next (gw.1.runReply c 0 [] ⟨[], gw.2⟩ (leBytes 8 ((gw.1.dom (b 2)).cur.reaches 0 ((gw.1.gate (halfOf (b 0)) (b 1)).swapAt.getD 0)))))) ∧
    (let red := (List.range 9).map fun k => (A.SWP_CFG (b 0) k, (fput F.SWP_CFG.RED (s.rd (A.SWP_CFG (b 0) k)) (b (1 + k))).toNat)
     let own : Nat → List (Nat × Nat) := fun k => [(A.SW_RED_SA_LO (b 0) k, p (18 + 6 * k) 6 % 2 ^ 32),
       (A.SW_RED_SA_HI (b 0) k, (if p (18 + 6 * k) 6 = 0 then 0 else 2 ^ 31) + p (18 + 6 * k) 6 / 2 ^ 32)]
     let w := W (red ++ im 10 [A.SW_TWIN (b 0), A.SW_DUP_AGE (b 0)] ++ (own 0 ++ own 1))
     act 0x0307 ∧ b 0 < 2 ∧ ((List.range 9).all fun k => decide (b (1 + k) < 4)) = true →
      exec (.redCfg tr tag) s = .next (w.1.runReply c 0 [] ⟨[], w.2⟩ [])) ∧
    (let w := W [(A.GAUGE_REF, b 1 * 2 ^ 4 + b 0)]
     act 0x0401 ∧ b 0 < 2 ∧ b 1 < 2 → exec (.refSel tr tag) s = .next (w.1.runReply c 0 [] ⟨[], w.2⟩ [])) ∧
    (let w := W [(A.GAUGE_DOM_CFG d, p 3 2 * 2 ^ 16 + b 2 * 2 ^ 8 + b 1)]
     act 0x0402 ∧ d < 4 → exec (.domCfg tr tag) s = .next (w.1.runReply c 0 [] ⟨[], w.2⟩ [])) ∧
    (let w := W [(A.GAUGE_DOM_STG_AT_LO d, p 4 4), (A.GAUGE_DOM_STG_AT_HI d, p 8 4), (A.GAUGE_DOM_STG_RATE_LO d, p 12 4),
       (A.GAUGE_DOM_STG_RATE_HI d, p 16 1), (A.GAUGE_DOM_STG_SEC_LO d, p 17 4), (A.GAUGE_DOM_STG_SEC_HI d, p 21 4), (A.GAUGE_DOM_STG_NS d, p 25 4),
       (A.GAUGE_DOM_STG_FRAC d, p 29 2), (A.GAUGE_DOM_CTRL d, 2 ^ 31 + b 2 * 2 ^ 8 + b 3 * 2 ^ 4 + b 1)]
     act 0x0403 ∧ d < 4 ∧ b 1 < 3 ∧ b 2 < 4 ∧ b 3 < 2 →
      ((s.dom d).pend ≠ none → exec (.domCommit tr tag) s = .next (s.finish c 0x10 [])) ∧
      ((s.dom d).pend = none → exec (.domCommit tr tag) s = .next (w.1.runReply c 0 [] ⟨[], w.2⟩ (leBytes 8 ((w.1.dom d).pend.getD 0))))) ∧
    (let w := W ((A.GAUGE_CMP_CTRL d, p 1 4 % 2 ^ 31) :: im 5 [A.GAUGE_CMP_NEXT_LO d, A.GAUGE_CMP_NEXT_HI d, A.GAUGE_CMP_NEXT_NS d, A.GAUGE_CMP_PERIOD d] ++
       [(A.GAUGE_CMP_CTRL d, p 1 4)])
     act 0x0404 ∧ d < 16 → exec (.cmpCfg tr tag) s = .next (w.1.runReply c 0 [] ⟨[], w.2⟩ [])) ∧
    (let w := W [(A.GAUGE_PPS_CTRL d, p 1 4)]
     act 0x0405 ∧ d < 2 → exec (.ppsCfg tr tag) s = .next (w.1.runReply c 0 [] ⟨[], w.2⟩ [])) ∧
    (let other := s.kcp.ptp.any fun x => x.1 != b 0 && x.2.dom == b 2 && s.ptpOwns x.2.ne (b 2)
     act 0x0406 ∧ b 0 < 4 ∧ b 1 < 24 ∧ b 2 < 4 →
      (other = true ∧ s.ptpOwns (b 1) (b 2) = true → exec (.ptpCfg tr tag) s = .next (s.finish c 0x23 [])) ∧
      (other = false ∨ s.ptpOwns (b 1) (b 2) = false → ∃ t, exec (.ptpCfg tr tag) s = .next t ∧ storeFind t.kcp.ptp (b 0) = some ptp ∧ t.mem = s.mem)) ∧
    (act 0x0407 ∧ b 0 < 4 →
      (storeFind s.kcp.ptp (b 0) = none → exec (.ptpStatus tr tag) s = .next (s.finish c 0x27 [])) ∧
      (storeFind s.kcp.ptp (b 0) ≠ none → exec (.ptpStatus tr tag) s =
        .next (({ s with free := s.free + 1 } : State).finish c 0 ((Config.ptpStatus (b 0) s.free).take Config.ptpReplyMax)))) ∧
    (let w := W [(A.GAUGE_TSC_CTRL d, p 1 4), (A.GAUGE_TSC_ADJ d, p 5 4)]
     act 0x0408 ∧ d < 18 → exec (.tscCfg tr tag) s = .next (w.1.runReply c 0 [] ⟨[], w.2⟩ [])) ∧
    (act 0x0501 ∧ d < 8 ∧ b 1 < 24 →
      (s.cxEngine d ≠ some (b 1) ∨ s.dtt d ≠ dOff ∨ s.enginePattern (b 1) = none → exec (.patternLoad tr tag) s = .next (s.finish c 0x121 [])) ∧
      (s.cxEngine d = some (b 1) ∧ s.dtt d = dOff ∧ s.enginePattern (b 1) = some pat →
        (s.patternCheck d pat = some i → exec (.patternLoad tr tag) s = .next (s.finish c (0x100 + i) [])) ∧
        (s.patternCheck d pat = none → ∃ t, exec (.patternLoad tr tag) s = .next t ∧ t.can d = { s.can d with pattern := some pat } ∧
          t.flag (A.DTT_STATUS d) F.DTT_STATUS.PAT_OK = true ∧ t.mem = s.mem))) ∧
    (let w := W (im 1 [A.DTT_ROLE d, A.DTT_LIMITS d, A.DTT_SYNC_OFS d] ++ [(A.DTT_CTRL d, p 13 4 % 2 ^ 31)])
     act 0x0502 ∧ d < 8 →
      (s.dtt d ≠ dOff → exec (.dttCfg tr tag) s = .next (s.finish c 0x10 [])) ∧
      (s.dtt d = dOff → exec (.dttCfg tr tag) s = .next (w.1.runReply c 0 [] ⟨[], w.2⟩ []))) ∧
    (let w := W [(A.DTT_CTRL d, (fput F.DTT_CTRL.EN (s.rd (A.DTT_CTRL d)) (b 1)).toNat)]
     act 0x0503 ∧ d < 8 ∧ b 1 < 2 → exec (.dttRun tr tag) s = .next (w.1.runReply c 0 [] ⟨[], w.2⟩ (leBytes 4 (w.1.regView trivet (A.DTT_STATUS d))))) ∧
    (let r := R ([A.DTT_CTRL d, A.DTT_STATUS d, A.DTT_ROLE d, A.DTT_LIMITS d, A.DTT_SYNC_OFS d, A.DTT_ROW d, A.DTT_QREF_LO d, A.DTT_QREF_HI d,
       A.DTT_LAST_CORR d, A.DTT_RATE d, A.DTT_REF_LAST d] ++
       (List.range (p 3 2)).flatMap fun k => [A.DTT_ST_RX d (ix + k), A.DTT_ST_EMPTY d (ix + k), A.DTT_EDGE_VIOL d (ix + k)])
     act 0x0504 ∧ d < 8 ∧ ix ≤ 1023 ∧ ix + p 3 2 ≤ 1023 → exec (.dttInfo tr tag) s = .next (r.1.runReply c 0 [] r.2 r.2.bytes)) ∧
    (let w := W (im 1 ((List.range 32).map (A.DTT_COL_MAP d)))
     act 0x0505 ∧ d < 8 →
      (s.dtt d ≠ dOff → exec (.dttColMap tr tag) s = .next (s.finish c 0x10 [])) ∧
      (s.dtt d = dOff → exec (.dttColMap tr tag) s = .next (w.1.runReply c 0 [] ⟨[], w.2⟩ []))) ∧
    (s.kcmd tr tag.toNat = none ∨ s.trivetLost = true → exec (.portCfg tr tag) s = .next s ∧ exec (.fwdInsert tr tag) s = .next s ∧
      exec (.domCommit tr tag) s = .next s ∧ exec (.patternLoad tr tag) s = .next s)

/-- The commands of opcode groups 0x06 to 0x0A of spec/14, each for a command c that is outstanding, has started and is within its time. -/
def Obligations.KcpChargeMemoryWakeEffects : Prop :=
  ∀ (s : State) (tr : Fin 6) (tag : BitVec 16) (c : KCmd) (h : Half) (bad : Option (Fin 0x200000)) (lapped : Bool) (i at_ : Nat),
    let act := fun (op : Nat) => s.kcmd tr tag.toNat = some c ∧ c.op = op ∧ c.started = true ∧ s.trivetLost = false ∧ c.committed = false ∧
      s.now ≤ c.deadline
    let b := fun (k : Nat) => byteAt c.params k
    let p := fun (off n : Nat) => u c.params off n
    let im := fun (off : Nat) (as : List Nat) => imageWrites c.params off as
    let W := fun (ws : List (Nat × Nat)) => s.trvWrites 0 ws
    let R := fun (as : List Nat) => s.trvReads 0 as
    let param := fun (off : Nat) => s.finish c 5 (leBytes 4 off)
    let d := b 0
    let wait := fun (e : SelfEffect) => let g := s.finish c 0 []; ({ g with kcp := { g.kcp with waits := g.kcp.waits ++ [(g.now, e)] } } : State)
    let seg := fput F.WAKE_SEG_CTRL.HOLD (BitVec.ofNat 32 (p 1 4)) (b2n (s.segHold d))
    let hook := (List.range (b 1)).map fun k => p (2 + 2 * k) 2
    let hkImg := fun (flags : Nat) (run : Bool) => (fput F.HK_CTRL.RUN (fput ⟨2, 0⟩ (s.rd (A.HK_CTRL d)) flags) (b2n run)).toNat
    let frz := s.freezeTrigger
    let spans := (List.range (p 5 2)).map fun k => (s.partBase d + (p 1 4 + k) * 4096, 4096)
    let dig := s.digests h
    let staged := if b 1 = 0 then none else some (digestsAt c.params 2)
    (act 0x0601 ∧ d < 4 ∧ b 1 = h.n →
      (s.powerRow d h = false → exec (.pstateReq tr tag) s = .next (s.reqRej.finish c 0x15 [])) ∧
      (s.powerRow d h = true ∧ s.powerOwn c d h = true → exec (.pstateReq tr tag) s = .next (wait (.power d (b 1)))) ∧
      (s.powerRow d h = true ∧ s.powerOwn c d h = false → exec (.pstateReq tr tag) s = .next ((s.powerRequest d h).finish c 0 []))) ∧
    (let w := W (im 5 [A.WAKE_SEG_MEMB d, A.WAKE_SEG_CAN_KA_ID d, A.WAKE_SEG_CAN_KA_MASK d] ++ [(A.WAKE_SEG_CTRL d, seg.toNat)])
     act 0x0602 ∧ d < 8 ∧ fget F.WAKE_SEG_CTRL.EN seg = 1 → exec (.segCfg tr tag) s = .next (w.1.runReply c 0 [] ⟨[], w.2⟩ [])) ∧
    (let w := W ([(A.WAKE_SEG_CTRL d, seg.toNat)] ++ im 5 [A.WAKE_SEG_MEMB d, A.WAKE_SEG_CAN_KA_ID d, A.WAKE_SEG_CAN_KA_MASK d])
     act 0x0602 ∧ d < 8 ∧ fget F.WAKE_SEG_CTRL.EN seg = 0 → exec (.segCfg tr tag) s = .next (w.1.runReply c 0 [] ⟨[], w.2⟩ [])) ∧
    (let w := W [(A.WAKE_SEG_CTRL d, (fput F.WAKE_SEG_CTRL.HOLD (s.rd (A.WAKE_SEG_CTRL d)) (b 1)).toNat)]
     act 0x0603 ∧ d < 8 ∧ b 1 < 2 → exec (.segHold tr tag) s = .next (w.1.runReply c 0 [] ⟨[], w.2⟩ [])) ∧
    (let w := W (im 2 [A.WAKE_TLM_ID d (b 1), A.WAKE_TLM_DVAL_LO d (b 1), A.WAKE_TLM_DVAL_HI d (b 1), A.WAKE_TLM_DMASK_LO d (b 1), A.WAKE_TLM_DMASK_HI d (b 1)] ++
       [(A.WAKE_TLM_CTRL d (b 1), (fput F.WAKE_TLM_CTRL.EN 0 (b 22)).toNat)])
     act 0x0604 ∧ d < 8 ∧ b 1 < 4 ∧ b 22 < 2 → exec (.wakeEntry tr tag) s = .next (w.1.runReply c 0 [] ⟨[], w.2⟩ [])) ∧
    (let w := W ((A.WAKE_SRC d, p 1 4) :: (if b 5 = 1 then [(A.WAKE_FALSE_CLR, 2 ^ d)] else []))
     act 0x0605 ∧ d < 13 ∧ b 5 < 2 → exec (.wakeSrc tr tag) s = .next (w.1.runReply c 0 [] ⟨[], w.2⟩ [])) ∧
    (let w := W ((A.WAKE_PCTRL, p 0 4 % 2 ^ 31) :: im 4 [A.WAKE_KA, A.WAKE_NODATA_T, A.WAKE_VALID_T, A.WAKE_INSOMNIA_T, A.WAKE_PIN_CFG, A.WAKE_DA_LO] ++
       [(A.WAKE_DA_HI, p 28 2)])
     act 0x0606 → exec (.wakeGlobal tr tag) s = .next (w.1.runReply c 0 [] ⟨[], w.2⟩ [])) ∧
    (let r := R ((List.range 32).flatMap fun k => (List.range 8).map (A.WAKE_INS_LOG d k))
     act 0x0607 ∧ d < 8 → exec (.insomniaRead tr tag) s = .next (r.1.runReply c 0 [] r.2 r.2.bytes)) ∧
    (let w := W [(A.WAKE_INS_CLR, d)]
     act 0x0608 → exec (.insomniaClr tr tag) s = .next (w.1.runReply c 0 [] ⟨[], w.2⟩ [])) ∧
    (let w := W (hook.zipIdx.map fun (v, k) => (A.HK_PROG d k, v))
     act 0x0701 ∧ d < 16 ∧ 1 ≤ b 1 ∧ b 1 ≤ 64 →
      (s.hkState d ≠ hkStopped → exec (.hkLoad tr tag) s = .next (s.finish c 0x10 [])) ∧
      (s.hkState d = hkStopped ∧ hook.findIdx? hookReserved = some i → exec (.hkLoad tr tag) s = .next (s.finish c 0x25 (leBytes 1 i))) ∧
      (s.hkState d = hkStopped ∧ hook.findIdx? hookReserved = none → exec (.hkLoad tr tag) s = .next (w.1.runReply c 0 [] ⟨[], w.2⟩ []))) ∧
    (let w := W ((A.HK_CTRL d, hkImg (p 1 4 % 8) (s.hkState d != hkStopped)) ::
       im 5 [A.HK_CLKDIV d, A.HK_PINS d, A.HK_WAITTO d, A.HK_FIFO d, A.HK_CMP d, A.HK_CMP_MASK d])
     act 0x0702 ∧ d < 16 → exec (.hkCfg tr tag) s = .next (w.1.runReply c 0 [] ⟨[], w.2⟩ [])) ∧
    (let w := W [(A.HK_PC d, b 2), (A.HK_CTRL d, hkImg (s.rdn (A.HK_CTRL d) % 8) true)]
     act 0x0703 ∧ d < 16 ∧ b 1 = 1 ∧ b 2 < 64 → exec (.hkRun tr tag) s = .next (w.1.runReply c 0 [] ⟨[], w.2⟩ (leBytes 4 (w.1.regView trivet (A.HK_STATUS d))))) ∧
    (let w := W [(A.HK_CTRL d, hkImg (s.rdn (A.HK_CTRL d) % 8) false)]
     act 0x0703 ∧ d < 16 ∧ b 1 = 0 ∧ b 2 < 64 → exec (.hkRun tr tag) s = .next (w.1.runReply c 0 [] ⟨[], w.2⟩ (leBytes 4 (w.1.regView trivet (A.HK_STATUS d))))) ∧
    (let w := W [(A.HOOK_PIN_CFG d (b 1), p 2 4)]
     act 0x0704 ∧ d < 2 ∧ b 1 < 24 → exec (.hkPin tr tag) s = .next (w.1.runReply c 0 [] ⟨[], w.2⟩ [])) ∧
    (let w := W (im 6 [A.SPAD_WIN_SIZE d (b 1), A.SPAD_WIN_GRANT d (b 1), A.SPAD_WIN_NE d (b 1)] ++
       [(A.SPAD_WIN_BASE d (b 1), p 2 4), (A.SPAD_CTRL d, (fput F.SPAD_CTRL.PERM_EN (s.rd (A.SPAD_CTRL d)) (b 18)).toNat)])
     act 0x0801 ∧ d < 2 ∧ b 1 < 64 ∧ b 18 < 2 → exec (.spadWin tr tag) s = .next (w.1.runReply c 0 [] ⟨[], w.2⟩ [])) ∧
    (let same := s.mbxSender d = b 1 ∧ s.mbxReceiver d = b 2
     let lock := s.flag A.MBX_BIND_LOCK F.MBX_BIND_LOCK.LOCK
     let w := W ((A.MBX_BIND d, b 1 * 2 ^ 8 + b 2) :: (if b 3 = 1 then [(A.MBX_BIND_LOCK, 1)] else []))
     act 0x0802 ∧ d < 64 ∧ b 3 < 2 →
      (lock = true ∧ ¬ same → exec (.mbxBind tr tag) s = .next (s.finish c 0x14 [])) ∧
      ((lock = false ∨ same) → exec (.mbxBind tr tag) s = .next (w.1.runReply c 0 [] ⟨[], w.2⟩ []))) ∧
    (act 0x0803 ∧ d = h.n →
      (s.chgOf h ≠ .service → exec (.memTest tr tag bad) s = .next (s.finish c 0x10 [])) ∧
      (s.chgOf h = .service ∧ s.zeroingAt (bankAt h 0) = false → exec (.memTest tr tag bad) s = .next ((s.testBanks h).finish c 0
        (if bad.isSome then Config.testFail :: leBytes 8 (bankAt h (bad.getD 0)) else Config.testPass :: leBytes 8 Config.testNoAddr)))) ∧
    (let w := W [(A.BANK_OWNER 0 d, b 1)]
     act 0x0804 ∧ d < 16 →
      (s.mode6412 = false → exec (.bankOwner tr tag) s = .next (s.finish c 0x10 [])) ∧
      (s.mode6412 = true → exec (.bankOwner tr tag) s = .next (w.1.runReply c 0 [] ⟨[], w.2⟩ []))) ∧
    (let w := W (im 0 (((List.range 3).flatMap fun k => [A.LARDER_PART_BASE k, A.LARDER_PART_SIZE k]) ++
       ((List.range 8).flatMap fun j => [A.LARDER_SRC_BASE j, A.LARDER_SRC_CNT j]) ++ [A.LARDER_TRIG, A.LARDER_FREEZE] ++
       (List.range 2).flatMap fun k => [A.LARDER_PRE_N k, A.LARDER_POST_N k]))
     act 0x0901 → exec (.larderCfg tr tag) s = .next (w.1.runReply c 0 [] ⟨[], w.2⟩ [])) ∧
    (let on := s.flag A.LARDER_FREEZE F.LARDER_FREEZE.EN_KCP = true ∧ s.flag A.LARDER_CTRL F.LARDER_CTRL.EN = true
     act 0x0902 →
      (on → exec (.larderFreeze tr tag) s = .next (frz.finish c 0 (leBytes 8 (frz.rdn A.LARDER_FRZ_AT_LO + 2 ^ 32 * frz.rdn A.LARDER_FRZ_AT_HI)))) ∧
      (¬ on → exec (.larderFreeze tr tag) s = .next (s.finish c 0x10 []))) ∧
    (act 0x0903 → exec (.larderRelease tr tag) s = .next (s.freezeRelease.finish c 0 [])) ∧
    (act 0x0904 ∧ d < 2 ∧ 1 ≤ p 5 2 ∧ p 5 2 ≤ 16 →
      (s.storePages d < p 1 4 + p 5 2 → exec (.larderPages tr tag lapped) s = .next (s.finish c 0x27 [])) ∧
      (p 1 4 + p 5 2 ≤ s.storePages d ∧ lapped = true ∧ (s.larder.store d).job.isSome = true → exec (.larderPages tr tag lapped) s = .next (s.finish c 0x26 [])) ∧
      (p 1 4 + p 5 2 ≤ s.storePages d ∧ (lapped = false ∨ (s.larder.store d).job.isSome = false) →
        exec (.larderPages tr tag lapped) s = .next (s.larderReply c spans))) ∧
    (act 0x0905 ∧ 1 ≤ p 4 2 ∧ p 4 2 ≤ 1024 →
      ((s.larder.held.any fun e => e.seq % 2 ^ 32 == p 0 4) = false → exec (.larderEvents tr tag lapped) s = .next (s.finish c 0x27 [])) ∧
      ((s.larder.held.find? fun e => e.seq % 2 ^ 32 = p 0 4).any (fun e => e.seq == i) = true →
        (lapped = true ∧ s.larder.waiting ≠ [] → exec (.larderEvents tr tag lapped) s = .next (s.finish c 0x26 [])) ∧
        (lapped = false ∨ s.larder.waiting = [] → exec (.larderEvents tr tag lapped) s =
          .next (s.larderReply c ((fitRecords 1024 (s.larder.held.filter fun e => decide (i ≤ e.seq ∧ e.seq < i + p 4 2))).map fun e =>
            (s.partBase 2 + e.slot * 64, e.len * 64)))))) ∧
    (let r := R [A.TRV_CHARGE, A.TRV_STATE, A.TRV_CAUSE 0, A.TRV_CAUSE 1, A.TEN_STATUS]
     act 0x0A01 → exec (.chgStatus tr tag) s = .next (r.1.runReply c 0 [] r.2 r.2.bytes)) ∧
    (act 0x0A02 ∧ d = h.n →
      (s.holder ≠ some h ∧ (s.handoverPending = true ∨ s.chgOf h = .service) → exec (.service tr tag) s = .next (s.finish c 0x10 [])) ∧
      (s.holder ≠ some h ∧ s.handoverPending = false ∧ s.chgOf h ≠ .service → exec (.service tr tag) s = .next ((s.toService h 0x32).finish c 0 (leBytes 8 0))) ∧
      (s.holder = some h ∧ s.handoverRefusal = some i → exec (.service tr tag) s = .next (s.finish c i [])) ∧
      (s.holder = some h ∧ s.handoverRefusal = none → exec (.service tr tag) s = .next ((s.planHandover (some h)).putKcmd { c with committed := true }))) ∧
    (act 0x0A04 →
      (s.handoverRefusal = some i → exec (.handover tr tag) s = .next (s.finish c i [])) ∧
      (s.handoverRefusal = none → exec (.handover tr tag) s = .next ((s.planHandover none).putKcmd { c with committed := true }))) ∧
    (s.kcmd tr tag.toNat = some c ∧ c.op = 0x0A04 ∧ c.started = true ∧ s.trivetLost = false ∧ c.committed = true →
      (s.handoverPending = true → exec (.handover tr tag) s = .next s) ∧
      (s.handoverPending = false ∧ s.chg.performed = some at_ → exec (.handover tr tag) s = .next (s.finish c 0 (leBytes 8 at_))) ∧
      (s.handoverPending = false ∧ s.chg.performed = none → exec (.handover tr tag) s = .next (s.finish c 0x10 []))) ∧
    (act 0x0A03 ∧ d = h.n →
      (s.chgOf h ≠ .service → exec (.recast tr tag) s = .next (s.finish c 0x10 [])) ∧
      (s.chgOf h = .service ∧ c.carrier = some h → exec (.recast tr tag) s = .next (wait (.recast h))) ∧
      (s.chgOf h = .service ∧ c.carrier ≠ some h → exec (.recast tr tag) s = .next ((s.recast h 0x33).finish c 0 []))) ∧
    (act 0x0A03 ∧ 2 ≤ d → exec (.recast tr tag) s = .next (param 0)) ∧
    (let w := W (im 4 [A.TEN_IA_SRC 0, A.TEN_IA_DST 0, A.TEN_IA_SRC 1, A.TEN_IA_DST 1] ++ [(A.TEN_IA_CTRL, p 0 4)])
     act 0x0A05 →
      (p 0 4 < 2 ^ 31 ∨ w.1.flag A.TEN_IA_CTRL F.TEN_IA_CTRL.ENABLE = true → exec (.iaCfg tr tag) s = .next (w.1.runReply c 0 [] ⟨[], w.2⟩ [])) ∧
      (w.2 = none ∧ 2 ^ 31 ≤ p 0 4 ∧ w.1.flag A.TEN_IA_CTRL F.TEN_IA_CTRL.ENABLE = false → exec (.iaCfg tr tag) s = .next (w.1.finish c 5 (leBytes 4 0)))) ∧
    (let w := W (im 0 ((List.range 8).flatMap fun n => [A.TEN_RS_BASE n, A.TEN_RS_SIZE n]))
     act 0x0A06 → exec (.rsCfg tr tag) s = .next (w.1.runReply c 0 [] ⟨[], w.2⟩ [])) ∧
    (let w := W (im 2 ((List.range (b 1)).flatMap fun k => (List.range 8).map (A.COL_STREAM (d + k))))
     act 0x0A07 ∧ d + b 1 ≤ 256 → exec (.colCfg tr tag) s = .next (w.1.runReply c 0 [] ⟨[], w.2⟩ [])) ∧
    (let w := W [(A.TRV_CFG, d * 2 ^ 16 + min 31 (b 1) * 2 ^ 8)]
     act 0x0A08 → exec (.trvCfg tr tag) s = .next (w.1.runReply c 0 [] ⟨[], w.2⟩ [])) ∧
    (let w := W [(A.TRV_TWIN, d)]
     act 0x0A09 ∧ d < 2 → exec (.twinCfg tr tag) s = .next (w.1.runReply c 0 [] ⟨[], w.2⟩ [])) ∧
    (act 0x0A0A ∧ d = h.n → exec (.digests tr tag) s = .next (s.finish c 0 (beBytes 48 dig.image ++ beBytes 48 dig.recipes ++ beBytes 48 dig.streams))) ∧
    (act 0x0A0B ∧ d = h.n ∧ b 1 < 2 →
      (s.chgOf h ≠ .service → exec (.updateAdmit tr tag) s = .next (s.finish c 0x10 [])) ∧
      (s.chgOf h = .service → exec (.updateAdmit tr tag) s =
        .next (({ s with stagedK := if h = .k then staged else s.stagedK, stagedP := if h = .p then staged else s.stagedP } : State).finish c 0 []))) ∧
    (s.kcmd tr tag.toNat = none ∨ s.trivetLost = true → exec (.pstateReq tr tag) s = .next s ∧ exec (.service tr tag) s = .next s ∧
      exec (.hkRun tr tag) s = .next s ∧ exec (.larderFreeze tr tag) s = .next s)

/-- The commands of opcode groups 0x01 and 0x0B of spec/14 (R655, R656; spec/17 R755 to R774), each for a command c that is outstanding,
has started and is within its time. The handle of IMG_BEGIN is an open value. -/
def Obligations.KcpImageSecurityEffects : Prop :=
  ∀ (s : State) (tr : Fin 6) (tag : BitVec 16) (c : KCmd) (img : Image) (code k v : Nat) (data : List Byte) (ws : List (Nat × Nat)),
    let act := fun (op : Nat) => s.kcmd tr tag.toNat = some c ∧ c.op = op ∧ c.started = true ∧ s.trivetLost = false ∧ c.committed = false ∧
      s.now ≤ c.deadline
    let went := fun (op : Nat) => s.kcmd tr tag.toNat = some c ∧ c.op = op ∧ c.started = true ∧ s.trivetLost = false ∧ c.committed = true
    let b := fun (k : Nat) => byteAt c.params k
    let p := fun (off n : Nat) => u c.params off n
    let W := fun (ws : List (Nat × Nat)) => s.trvWrites 0 ws
    let R := fun (as : List Nat) => s.trvReads 0 as
    let d := b 0
    let size := if d = 1 then 98304 else 0x1000000
    let off := p 2 4
    let bytes := c.params.drop 6
    let held := fun (k : Nat) => s.kcp.images.find? (fun i => i.handle = k)
    let without := fun (t : State) (k : Nat) => t.kcp.images = s.kcp.images.filter (fun i => i.handle ≠ k)
    let fails := fun (t : State) => (t.tport tr).fails = (if 4 ≤ (s.tport tr).fails then 0 else (s.tport tr).fails + 1) ∧
      (4 ≤ (s.tport tr).fails → (t.tport tr).lockEnd = s.now + 30000000000)
    let proved := ((s.session tr c.sess).map fun x => x.proved).getD 0
    let lcMac := s.cmac proved (leBytes 1 d ++ s.uid ++ leBytes 2 s.svcUsed)
    let token := s.cmac proved (s.uid ++ leBytes 2 s.svcUsed ++ leBytes 1 d)
    let idle := (d % 2 = 0 ∨ s.chgOf .k = .service) ∧ (d / 2 % 2 = 0 ∨ s.chgOf .p = .service)
    let closed := bitAt ((s.fuse 67).getD 0) 0
    let roll := s.rollback d
    let rollOk := roll < p 1 4 ∧ ((s.runningRolls d).any fun r => decide (r < p 1 4)) = false
    let rollWord := (List.range 8).find? fun i => (s.fuse (100 + 8 * d + i)).isNone
    (act 0x0101 ∧ d ≤ 2 →
      (size < off → exec (.imgBegin tr tag) s = .next (s.finish c 5 (leBytes 4 2))) ∧
      (off ≤ size ∧ 4 ≤ s.kcp.images.length → exec (.imgBegin tr tag) s = .next (s.finish c 0x10 [])) ∧
      (off ≤ size ∧ s.kcp.images.length < 4 → ∃ t, exec (.imgBegin tr tag) s = .next t ∧
        t.kcp.images = s.kcp.images ++ [⟨s.newHandle, d, b 1, off, []⟩] ∧ t.mem = s.mem)) ∧
    (act 0x0102 →
      (held (p 0 2) = none → exec (.imgData tr tag) s = .next (s.finish c 0x27 [])) ∧
      (held (p 0 2) = some img ∧ img.size < off + bytes.length → exec (.imgData tr tag) s = .next (s.finish c 5 (leBytes 4 2))) ∧
      (held (p 0 2) = some img ∧ off + bytes.length ≤ img.size → ∃ t, exec (.imgData tr tag) s = .next t ∧
        t.kcp.images.find? (fun i => i.handle = p 0 2) =
          some { img with data := overlay (padTo (max off img.data.length) img.data) off bytes } ∧ t.mem = s.mem)) ∧
    (act 0x0103 ∧ held (p 0 2) = some img →
      exec (.imgCommit tr tag) s = .next (match s.imageCheck img with
        | some e => (s.inc A.SEC_SIG_FAIL).finish c (0x100 + e) []
        | none => ((s.imageStore img).hostImage tr img).finish c 0 (digestBytes (sha384 img.data)))) ∧
    (act 0x0103 ∧ held (p 0 2) = none → exec (.imgCommit tr tag) s = .next (s.finish c 0x27 [])) ∧
    (act 0x0104 →
      (held (p 0 2) = none → exec (.imgAbort tr tag) s = .next (s.finish c 0x27 [])) ∧
      (held (p 0 2) = some img → ∃ t, exec (.imgAbort tr tag) s = .next t ∧ without t (p 0 2) ∧ t.mem = s.mem)) ∧
    (act 0x0105 ∧ s.loads c = false →
      (held (p 0 2) = none → exec (.neLoad tr tag) s = .next (s.finish c 0x27 [])) ∧
      (held (p 0 2) = some img ∧ b 2 < 24 ∧ (s.neState (b 2) ≠ neStopped ∨ (s.eng (b 2)).load.isSome = true) →
        ∃ t, exec (.neLoad tr tag) s = .next t ∧ without t (p 0 2) ∧ t.ne = s.ne) ∧
      (held (p 0 2) = some img ∧ b 2 < 24 ∧ s.neState (b 2) = neStopped ∧ (s.eng (b 2)).load = none →
        ∃ t, exec (.neLoad tr tag) s = .next t ∧ without t (p 0 2) ∧ t.eng (b 2) = { s.eng (b 2) with load := some ⟨img.data, c.tr, c.tag, false⟩ } ∧
          t.kcp.cmds = s.kcp.cmds ∧ t.regs = s.regs ∧ t.mem = s.mem)) ∧
    (act 0x0105 ∧ s.loads c = true → exec (.neLoad tr tag) s = .next s) ∧
    (let w := W [(A.NE_CTRL d, (fput F.NE_CTRL.RUN (s.rd (A.NE_CTRL d)) (b 1)).toNat)]
     act 0x0106 ∧ d < 24 ∧ b 1 ≤ 1 → exec (.neRun tr tag) s = .next (w.1.runReply c 0 [] ⟨[], w.2⟩ (leBytes 4 (w.1.regView trivet (A.NE_STATUS d))))) ∧
    (act 0x0107 ∧ d < 24 → exec (.neReset tr tag) s = .next ((s.kcpAssert ⟨4, 6, d⟩).finish c 0 [])) ∧
    (let r := R [A.NE_STATUS d, A.NE_RECIPE d, A.NE_FAULT d, A.NE_EVT_DONE d, A.NE_EVT_DROP d, A.NE_EVT_MERGE d, A.NE_RX_DROP d, A.NE_ECC_CORR d,
       A.NE_INL_BADFCS d, A.NE_INL_UNDERRUN d, A.NE_INL_DISC d, A.NE_INL_PASS d]
     act 0x0108 ∧ d < 24 → exec (.neInfo tr tag) s = .next (r.1.runReply c 0 [] r.2 r.2.bytes)) ∧
    (let idleEng := s.neState d = neStopped ∧ s.flag (A.NE_STATUS d) F.NE_STATUS.LOADED = true
     let fits := s.profileOk d (c.params.drop 1)
     act 0x0109 ∧ d < 24 →
      (¬ idleEng → exec (.profileCfg tr tag) s = .next (s.finish c 0x10 [])) ∧
      (idleEng → exec (.profileCfg tr tag) s = .next (if fits then
        ({ s with kcp := { s.kcp with profiles := storeInsert s.kcp.profiles d (c.params.drop 1) } } : State).finish c 0 [] else s.finish c 0x24 []))) ∧
    (act 0x0B01 → exec (.lcGet tr tag) s = .next (s.finish c 0 (leBytes 1 s.lc ++ leBytes 4 s.svcUsed ++ leBytes 4 (32 - s.svcUsed)))) ∧
    (act 0x0B02 →
      (s.lcWord d = none → exec (.lcSet tr tag) s = .next (s.finish c 0x10 [])) ∧
      (s.lcWord d = some (k, v) ∧ lcMac = slice c.params 1 16 → exec (.lcSet tr tag) s =
        .next (let g := s.finish c 0 []; { g with kcp := { g.kcp with waits := g.kcp.waits ++ [(g.now, .lifecycle k v)] } })) ∧
      (s.lcWord d = some (k, v) ∧ lcMac ≠ slice c.params 1 16 → ∃ t, exec (.lcSet tr tag) s = .next t ∧ fails t ∧ t.kcp.waits = s.kcp.waits)) ∧
    (s.lc = 1 ∧ d = 2 → s.lcWord d = some (65, 0x4C430002)) ∧
    (s.lc = 2 ∧ d = 1 → s.lcWord d = none) ∧
    (act 0x0B03 →
      (s.keyLoad c = .error (code, data) ∧ code ≠ 0xB → exec (.keyLoad tr tag) s = .next (s.finish c code data)) ∧
      (∃ t, exec (.keyLoad tr tag) s = .next t ∧ (s.keyLoad c = .error (0xB, data) → fails t ∧ t.sec = s.sec)) ∧
      (s.keyLoad c = .ok ws → ∃ t, exec (.keyLoad tr tag) s = .next t ∧ t.sec.jobs = s.sec.jobs ++ ws.map (fun w => ⟨w.1, w.2, false⟩) ∧
        t.kcmd tr tag.toNat = some { c with committed := true } ∧ t.regs = s.regs ∧ t.mem = s.mem)) ∧
    (went 0x0B03 →
      (s.sec.jobs = [] → exec (.keyLoad tr tag) s = .next (s.finish c 0 [])) ∧ (s.sec.jobs ≠ [] → exec (.keyLoad tr tag) s = .next s)) ∧
    (let w := W [(A.VAULT_DEL_CFG d, p 5 4), (A.VAULT_DEL_BASE d, p 1 4)]
     act 0x0B04 ∧ d < 8 → exec (.vaultDelegate tr tag) s = .next (w.1.runReply c 0 [] ⟨[], w.2⟩ [])) ∧
    (act 0x0B05 → exec (.vaultWipe tr tag) s = .next ((s.vaultWipe 4).finish c 0 [])) ∧
    (act 0x0B06 ∧ d < 3 →
      (p 1 4 = roll → exec (.rollbackSet tr tag) s = .next (s.finish c 0 [])) ∧
      (p 1 4 ≠ roll ∧ ¬ rollOk → exec (.rollbackSet tr tag) s = .next (s.finish c 5 (leBytes 4 1))) ∧
      (rollOk ∧ rollWord = none → exec (.rollbackSet tr tag) s = .next (s.finish c 0x10 [])) ∧
      (rollOk ∧ rollWord = some k ∧ s.fld A.PWR_RAIL F.PWR_RAIL.GOOD = 0xFFF → ∃ t, exec (.rollbackSet tr tag) s = .next t ∧
        t.sec.jobs = s.sec.jobs ++ [⟨100 + 8 * d + k, p 1 4, false⟩] ∧ t.kcmd tr tag.toNat = some { c with committed := true } ∧ t.regs = s.regs) ∧
      (rollOk ∧ rollWord = some k ∧ s.fld A.PWR_RAIL F.PWR_RAIL.GOOD ≠ 0xFFF → exec (.rollbackSet tr tag) s =
        .next ((s.setf A.SEC_LC F.SEC_LC.ABANDONED 1).finish c 0x10 []))) ∧
    (went 0x0B06 ∧ s.sec.jobs = [] → exec (.rollbackSet tr tag) s = .next (s.finish c 0 [])) ∧
    (let w := W [(A.SYS_BOOT, d)]
     act 0x0B07 ∧ d < 2 → exec (.bootSlot tr tag) s = .next (w.1.runReply c 0 [] ⟨[], w.2⟩ [])) ∧
    (act 0x0B08 ∧ d < 4 →
      (s.lc ≠ 3 ∨ closed = true ∨ ¬ idle → exec (.debugUnlock tr tag) s = .next (s.finish c 0x10 [])) ∧
      (s.lc = 3 ∧ closed = false ∧ idle ∧ token ≠ slice c.params 1 16 → ∃ t, exec (.debugUnlock tr tag) s = .next t ∧ fails t ∧ t.rd A.SEC_DEBUG = s.rd A.SEC_DEBUG) ∧
      (s.lc = 3 ∧ closed = false ∧ idle ∧ token = slice c.params 1 16 → ∃ t, exec (.debugUnlock tr tag) s = .next t ∧
        t.fld A.SEC_DEBUG F.SEC_DEBUG.UNLOCK_K = (if d % 2 = 1 then 1 else s.fld A.SEC_DEBUG F.SEC_DEBUG.UNLOCK_K) ∧
        t.fld A.SEC_DEBUG F.SEC_DEBUG.UNLOCK_P = (if 2 ≤ d then 1 else s.fld A.SEC_DEBUG F.SEC_DEBUG.UNLOCK_P) ∧ t.mem = s.mem)) ∧
    (s.kcmd tr tag.toNat = none ∨ s.trivetLost = true → exec (.imgBegin tr tag) s = .next s ∧ exec (.neLoad tr tag) s = .next s ∧
      exec (.lcSet tr tag) s = .next s ∧ exec (.keyLoad tr tag) s = .next s)

/-- The commands of spec/16 (R709 to R733, R742, R754), spec/02 (R95), spec/13 (R607), spec/15 (R682) and spec/17 (R773) that assert and
release reset sources, and the shared effect of both. -/
def Obligations.ResetSourceEffects : Prop :=
  ∀ (s : State) (h : Half) (i : Fin 23) (r : Fin 12) (bank : Fin 10) (mv a k : Nat) (m : Byte) (v : Word) (dk dp tj : BitVec 16) (trip : Bool)
    (cause : Fin 3),
    let t := s.assertSource i
    let o := s.releaseSource i
    let lvl := s.srcLevel i
    let fresh := s.asserted i = false
    let masked := (match railEn r with | some b => !bitAt (s.fld A.PWR_EN F.PWR_EN.PWREN) b | none => false) = true
    let good := fun (t : State) => bitAt (t.fld A.PWR_RAIL F.PWR_RAIL.GOOD) r
    let classOf := storeFind s.pins.classes bank.val
    let kOk := s.flag A.GAUGE_REF F.GAUGE_REF.K_OK
    let pOk := s.flag A.GAUGE_REF F.GAUGE_REF.P_OK
    let far := fun (d : BitVec 16) => 600 < (signedOf 16 d.toNat).natAbs
    let common := 2 ≤ s.fld A.SYS_STRAP F.SYS_STRAP.CLKMODE
    let temp := signedOf 16 tj.toNat
    let halts := fun (t : State) => (t.hart (2 * h.n)).halted = true ∧ (t.hart (2 * h.n + 1)).halted = true
    (s.asserted i = true → t = s) ∧
    (fresh → t.asserted i = true ∧ t.pending = s.pending ∧ t.now = s.now) ∧
    (fresh ∧ lvl ≤ 1 → t.rst.stage = .held ∧ (t.hrst h).phase = .held ∧ t.kcp = Kcp.init ∧ t.ne = [] ∧ t.cx = [] ∧ t.hk = [] ∧ t.harts = [] ∧
      t.chg = Charge.init ∧ t.trivetLost = false) ∧
    (fresh ∧ lvl = 0 ∧ a ≠ A.PWR_RAIL ∧ a ≠ A.PWR_TEMP → t.rd a = regDefault a) ∧
    (fresh ∧ lvl = 1 ∧ k < 3 → t.fld (A.RST_CAUSE k) F.RST_CAUSE.SOURCE = i ∧ t.fld (A.RST_CAUSE k) F.RST_CAUSE.LEVEL = 1) ∧
    (fresh ∧ lvl = 2 ∧ srcReaches i h = true → (t.hrst h).phase = .held ∧ t.fld (A.RST_CAUSE (1 + h.n)) F.RST_CAUSE.SOURCE = i ∧
      t.fld (A.RST_CAUSE (1 + h.n)) F.RST_CAUSE.LEVEL = 2 ∧ t.rst.stage = s.rst.stage ∧ t.gauge = s.gauge ∧ bitAt t.rst.latched i = (s.srcHold i || bitAt s.rst.latched i)) ∧
    (fresh ∧ lvl = 2 ∧ srcReaches i h = false → t.hrst h = s.hrst h ∧ t.rd (A.RST_CAUSE (1 + h.n)) = s.rd (A.RST_CAUSE (1 + h.n))) ∧
    (fresh ∧ lvl = 7 → t.rst.k = s.rst.k ∧ t.rst.p = s.rst.p ∧ t.rst.stage = s.rst.stage ∧ t.mem = s.mem ∧ t.kcp = s.kcp ∧ t.ne = s.ne) ∧
    (s.asserted i = false → o = s) ∧
    (s.asserted i = true → o.asserted i = false ∧ o.mem = s.mem ∧
      (s.rst.stage = .done → (o.hrst h).phase = (if (s.hrst h).phase = .held ∧ o.halfHeld h = false then .releasing else (s.hrst h).phase)) ∧
      (s.rst.stage = .held ∧ o.chipHeld = false → o.rst.stage = (if s.rst.full = true then .fuses else .rom)) ∧
      (s.rst.stage = .held ∧ o.chipHeld = true → o.rst.stage = .held)) ∧
    (i.val ≠ 19 → exec (.resetSourceAssert i) s = .next t ∧ exec (.resetSourceRelease i) s = .next o) ∧
    (i.val = 19 → exec (.resetSourceAssert i) s = .next s ∧ exec (.resetSourceRelease i) s = .next s) ∧
    (exec (.resetPinAssert .por) s = .next (s.assertSource 0) ∧ exec (.resetPinAssert .srst) s = .next (s.assertSource 13)) ∧
    (s.reaches trivet A.RST_RELEASE true →
      ∃ t, exec (.rstReleaseWrite (BitVec.ofNat 8 trivet) v) s = .next t ∧ t.mem = s.mem ∧
        bitAt t.rst.latched i = (bitAt s.rst.latched i && !bitAt (fget F.RST_RELEASE.REL v) i)) ∧
    (masked → exec (.railSupervisorTrip r) s = .next s ∧ exec (.railSupervisorRelease r) s = .next s) ∧
    (¬ masked → ∃ t, exec (.railSupervisorTrip r) s = .next t ∧ good t = false ∧ t.asserted (r.val + 1) = true ∧ t.pending = s.pending) ∧
    (¬ masked ∧ good s = true → exec (.railSupervisorRelease r) s = .next s) ∧
    (¬ masked ∧ good s = false → ∃ t, exec (.railSupervisorRelease r) s = .next t ∧ good t = true ∧ t.asserted (r.val + 1) = false ∧
      (r.val = 1 → t.wipe = some 3) ∧ (r.val ≠ 1 → t.wipe = s.wipe)) ∧
    (mv < 500 → exec (.vddioClassSet bank mv) s = .next { s with pins := { s.pins with classes := storeErase s.pins.classes bank } }) ∧
    (1000 < mv ∧ classOf = none → exec (.vddioClassSet bank mv) s =
      .next { s with pins := { s.pins with classes := storeInsert s.pins.classes bank (if mv < 2500 then 1 else 2) } }) ∧
    (500 ≤ mv ∧ (mv ≤ 1000 ∨ classOf ≠ none) → exec (.vddioClassSet bank mv) s = .next s) ∧
    (s.running h = true →
      (∃ t, exec (.halfPllLockLoss h) s = .next t ∧ t.asserted (15 + h.n) = true ∧ (2 ≤ s.srcLevel (15 + h.n) →
        t.flag A.CLK_EVT (if h = .k then F.CLK_EVT.PLL_K_LOST else F.CLK_EVT.PLL_P_LOST) = true ∧
        t.fld A.CLK_STATUS (if h = .k then F.CLK_STATUS.PLL_K_LOCK else F.CLK_STATUS.PLL_P_LOCK) = 0)) ∧
      (¬ common → exec (.halfRefFail h) s = .next (s.diagF3 h 0x02 0 0 0) ∧ ∃ t, exec (.halfPllHoldEnd h) s = .next t ∧ t.asserted (15 + h.n) = true) ∧
      (∃ t, exec (.halfWatchdogExpiry h) s = .next t ∧ t.asserted (15 + h.n) = true ∧
        (s.asserted (15 + h.n) = true ∨ s.srcLevel (15 + h.n) = 7 → (t.ep h).suppressed = true)) ∧
      (∃ t, exec (.lockstepError h) s = .next t ∧ t.asserted (17 + h.n) = true ∧
        (s.asserted (17 + h.n) = true ∨ s.srcLevel (17 + h.n) = 7 → halts t ∧ (t.ep h).suppressed = true))) ∧
    (s.running h = false → exec (.halfPllLockLoss h) s = .next s ∧ exec (.halfWatchdogExpiry h) s = .next s ∧ exec (.lockstepError h) s = .next s ∧
      (¬ common → exec (.halfRefFail h) s = .next s ∧ exec (.halfPllHoldEnd h) s = .next s)) ∧
    (common → exec (.halfRefFail .k) s = .next (s.exits [⟨.k, .demoted, 0x20, some ⟨0x02, 0, 0, 0, 0⟩⟩, ⟨.p, .demoted, 0x20, some ⟨0x02, 0, 0, 0, 0⟩⟩]) ∧
      exec (.halfRefFail .p) s = .next s ∧ exec (.halfPllHoldEnd .p) s = .next s ∧
      ∃ t, exec (.halfPllHoldEnd .k) s = .next t ∧ (s.running .k = true → t.asserted 15 = true)) ∧
    ((kOk = true ∨ pOk = true) ∧ (kOk = false ∨ far dk) ∧ (pOk = false ∨ far dp) →
      ∃ t, exec (.trvOscCheck dk dp) s = .next t ∧ t.trivetLost = true) ∧
    ((kOk = true ∧ ¬ far dk) ∨ (pOk = true ∧ ¬ far dp) →
      ∃ t, exec (.trvOscCheck dk dp) s = .next t ∧ t.flag A.CLK_STATUS F.CLK_STATUS.TRV_OK = true ∧
        t.fld A.CLK_TRV_DEV F.CLK_TRV_DEV.DEV = (if s.flag A.GAUGE_REF F.GAUGE_REF.ACTIVE = true then dp.toNat else dk.toNat) ∧
        s.onlyRegs t [A.CLK_STATUS, A.CLK_TRV_DEV]) ∧
    (kOk = false ∧ pOk = false → ∃ t, exec (.trvOscCheck dk dp) s = .next t ∧ s.onlyRegs t [A.CLK_TRV_DEV]) ∧
    (∃ t, exec (.overTemperatureTrip tj trip) s = .next t ∧ t.fld A.PWR_TEMP F.PWR_TEMP.TJ = tj.toNat ∧
      (1000 ≤ temp ∨ (920 ≤ temp ∧ trip = true) → t.asserted 21 = true) ∧ (temp < 840 → t.asserted 21 = false) ∧
      (840 ≤ temp ∧ temp < 920 → s.onlyRegs t [A.PWR_TEMP] ∧
        (signedOf 16 (s.fld A.PWR_TEMP F.PWR_TEMP.PEAK) < temp → t.fld A.PWR_TEMP F.PWR_TEMP.PEAK = tj.toNat))) ∧
    (s.reaches m.toNat A.PWR_TEMP true →
      ∃ t, exec (.pwrTempPeakReset m v) s = .next t ∧ s.onlyRegs { t with resp := s.resp } [A.PWR_TEMP] ∧
        t.fld A.PWR_TEMP F.PWR_TEMP.PEAK = (if fget F.PWR_TEMP.PEAK v = 0 then s.fld A.PWR_TEMP F.PWR_TEMP.PEAK else s.fld A.PWR_TEMP F.PWR_TEMP.TJ)) ∧
    (s.flag A.WAKE_AON_STATUS F.WAKE_AON_STATUS.XTAL_ON = true →
      ∃ t, exec .xtalGood s = .next t ∧ t.flag A.WAKE_AON_STATUS F.WAKE_AON_STATUS.XTAL_OK = true ∧ s.onlyRegs t [A.WAKE_AON_STATUS]) ∧
    (s.flag A.WAKE_AON_STATUS F.WAKE_AON_STATUS.XTAL_ON = false → exec .xtalGood s = .next s) ∧
    (∃ t, exec (.tamperEvent cause) s = .next t ∧ (cause.val = 0 → t.asserted 20 = true) ∧ (cause.val ≠ 0 → t.asserted 20 = false) ∧
      (cause.val = 0 ∧ s.asserted 20 = true → t.flag A.SEC_TAMPER ⟨cause, cause⟩ = true ∧ t.rd A.SEC_TAMPER_CNT = satSucc (s.rd A.SEC_TAMPER_CNT) ∧
        (s.sec.jobs = [] → t.wipe = some 0))) ∧
    (s.reaches m.toNat A.SYS_MODE true →
      ∃ t, exec (.mode6412Write m v) s = .next t ∧ t.mode6412 = decide (fget F.SYS_MODE.M6412 v = 1) ∧
        (s.mode6412 = false ∧ t.mode6412 = true → k < 16 → t.fld (A.BANK_OWNER 0 k) F.BANK_OWNER.OWNER = 0x44) ∧
        (s.mode6412 = false ∧ t.mode6412 = true ∧ s.running .k = true → (t.tport 4).up = true) ∧
        (s.mode6412 = true ∧ t.mode6412 = false → (t.tport 4).up = false)) ∧
    (s.reaches m.toNat A.SYS_FLT_RSEQ true →
      ∃ t, exec (.sysFltRseqWrite m v) s = .next t ∧ t.rd A.SYS_FLT_RSEQ = v ∧ s.onlyRegs { t with resp := s.resp } [A.SYS_FLT_RSEQ])

/-- The commands of spec/16 (R725 to R749), spec/17 (R760, R762) and spec/14 (R644, R646) that release, boot, program fuses, and take
transports up and down. -/
def Obligations.ReleaseAndBootEffects : Prop :=
  ∀ (s : State) (h : Half) (patched slotA slotB : Bool) (img : List Byte) (recipes : List (Fin 12 × List Byte)) (i : Fin 12) (j : FuseJob)
    (rest : List FuseJob) (level target index : Byte) (tr : Fin 6) (width : Fin 16) (speed : Fin 4) (how : PciDown) (w off : Nat),
    let l := s.voteAll
    let run := (s.hrst h).phase = .releasing ∧ s.halfHeld h = false
    let src := s.fld A.SYS_BOOT F.SYS_BOOT.SRC
    let may := s.lc ≠ 0 ∧ s.lc ≠ 4
    let one := may ∧ (if src = 0 then slotA else slotB) = true
    let two := may ∧ (if src = 0 then slotB else slotA) = true
    let slotF := if h = .k then F.SEC_BOOT.SLOT_K else F.SEC_BOOT.SLOT_P
    let fallF := if h = .k then F.SEC_BOOT.FALLBACK_K else F.SEC_BOOT.FALLBACK_P
    let failF := if h = .k then F.SEC_BOOT.FAIL_K else F.SEC_BOOT.FAIL_P
    let fell := (((s.setf A.SEC_BOOT fallF 1).inc A.SEC_FALLBACK_CNT).setf A.SEC_BOOT slotF (1 - src))
    let kr : KReset := ⟨level.toNat, target.toNat, index.toNat⟩
    let pci := A.PCI_STATUS h.n
    let mine := trHalf tr = some h
    let holds := s.running h = true ∧ (if tr.val = 4 then s.mode6412 else s.flag (A.QH_CFG h.n) F.QH_CFG.EN) = true
    (s.rst.stage ≠ .fuses → exec .fuseLoadDone s = .next s) ∧
    (s.rst.stage = .fuses →
      (l.failed = none → ∃ t, exec .fuseLoadDone s = .next t ∧ t.sec.voted = l.words ∧ t.flag A.RST_FUSE F.RST_FUSE.LOADED = true ∧
        t.rst.stage = (if s.chipHeld = true ∧ t.chipHeld = true then .held else .rom) ∧ t.mem = s.mem) ∧
      (l.failed = some w ∧ w < 512 → ∃ t, exec .fuseLoadDone s = .next t ∧ t.rst.stage = .hold ∧ t.flag A.RST_FUSE F.RST_FUSE.FUSE_FAULT = true ∧
        t.fld A.RST_FUSE F.RST_FUSE.WORD = w ∧ t.flag A.RST_PADSET F.RST_PADSET.HARDWIRED = true ∧ t.sec = s.sec ∧ t.mem = s.mem)) ∧
    (s.rst.stage = .rom ∧ s.rawOn = true →
      ∃ t, exec (.trivetRomBootDone patched) s = .next t ∧ t.rst.stage = .done ∧ t.rst.powerUp = false ∧ t.flag A.SEC_BOOT F.SEC_BOOT.PATCH_OK = patched ∧
        (s.rst.powerUp = true → t.wipe = some 3) ∧ (s.rst.powerUp = false → t.wipe = s.wipe ∧ t.mem = s.mem) ∧
        (t.hrst h).phase = (if (s.hrst h).phase = .held ∧ s.halfHeld h = false then .releasing else (s.hrst h).phase)) ∧
    (s.rst.stage ≠ .rom ∨ s.rawOn = false → exec (.trivetRomBootDone patched) s = .next s) ∧
    (run → ∃ t, exec (.halfPllLock h) s = .next t ∧ (t.hrst h).phase = .running ∧ t.hrst h.other = s.hrst h.other ∧ t.neState (12 * h.n + i) = (if t.neHeld (12 * h.n + i) then neOff else neStopped) ∧
      t.flag (A.SPAD_STATUS h.n) F.SPAD_STATUS.ZEROING = true ∧ (off < 0x200000 → t.mb (bankAt h off) = 0) ∧
      t.flag A.TEN_STATUS (if h = .k then F.TEN_STATUS.SEG_K_UP else F.TEN_STATUS.SEG_P_UP) = true ∧
      t.flag A.CLK_STATUS (if h = .k then F.CLK_STATUS.PLL_K_LOCK else F.CLK_STATUS.PLL_P_LOCK) = true) ∧
    (¬ run → exec (.halfPllLock h) s = .next s) ∧
    (s.running h = true ∧ src ≤ 1 →
      (one → exec (.imageLoadDone h slotA slotB img recipes) s = .next ((s.setf A.SEC_BOOT slotF src).bootSet h img recipes)) ∧
      (¬ one ∧ two → exec (.imageLoadDone h slotA slotB img recipes) s = .next (fell.bootSet h img recipes)) ∧
      (¬ one ∧ ¬ two → exec (.imageLoadDone h slotA slotB img recipes) s = .next (fell.setf A.SEC_BOOT failF 1))) ∧
    (s.running h = true ∧ 2 ≤ src → exec (.imageLoadDone h slotA slotB img recipes) s =
      .next (if may ∧ slotA = true ∧ (s.chg.half h).cause = 0x37 then s.bootSet h img recipes else s)) ∧
    (s.running h = false → exec (.imageLoadDone h slotA slotB img recipes) s = .next s) ∧
    (s.sec.jobs = [] → exec .fuseProgramDone s = .next s) ∧
    (s.sec.jobs = j :: rest →
      (j.lifecycle = false → ∃ t, exec .fuseProgramDone s = .next t ∧ t.sec.jobs = rest ∧ t.fuse j.word = some (j.value % 2 ^ 32) ∧
        (w ≠ j.word → t.fuse w = s.fuse w) ∧ (w < 3 → storeGet 0 t.sec.array (3 * j.word + w) = fuseCopy j.value) ∧ t.regs = s.regs ∧ t.mem = s.mem ∧ t.kcp = s.kcp) ∧
      (j.lifecycle = true → ∃ t, exec .fuseProgramDone s = .next t ∧ t.fuse j.word = some (j.value % 2 ^ 32) ∧ t.rst.stage = .held ∧ t.kcp.sess = [] ∧
        (t.hrst h).phase = .held ∧ (⟨1, 0xFF, 0xFF⟩ : KReset) ∈ t.rst.kcp)) ∧
    (s.rst.kcp.contains kr = true → ∃ t, exec (.kcpResetRelease level target index) s = .next t ∧ t.rst.kcp = s.rst.kcp.erase kr ∧ t.mem = s.mem ∧
      (kr.level = 4 ∧ kr.target = 6 ∧ s.running (unitHalf kr.index 12) = true → t.neState kr.index = (if t.neHeld kr.index then neOff else neStopped)) ∧
      (kr.level = 2 ∧ s.rst.stage = .done ∧ (s.hrst h).phase = .held ∧ t.halfHeld h = false → (t.hrst h).phase = .releasing)) ∧
    (s.rst.kcp.contains kr = false → exec (.kcpResetRelease level target index) s = .next s) ∧
    (mine ∧ s.running h = true →
      (tr.val ≤ 1 → ∃ t, exec (.transportUp tr width speed) s = .next t ∧ (t.tport tr).up = true ∧ t.fld pci F.PCI_STATUS.PERST = 0 ∧
        t.flag pci F.PCI_STATUS.LINK_UP = true ∧ t.fld pci F.PCI_STATUS.WIDTH = width ∧ t.fld pci F.PCI_STATUS.SPEED = speed ∧ s.regsBut t [pci] ∧
        ((s.tport tr).up = false → t.session tr 0 = some ⟨false, 0, s.now, none, 0, 0, 0⟩) ∧ t.mem = s.mem) ∧
      (2 ≤ tr.val ∧ holds → ∃ t, exec (.transportUp tr width speed) s = .next t ∧ (t.tport tr).up = true ∧ t.regs = s.regs ∧
        ((s.tport tr).up = false → t.session tr 0 = some ⟨false, 0, s.now, none, 0, 0, 0⟩) ∧ t.mem = s.mem) ∧
      (2 ≤ tr.val ∧ ¬ holds → exec (.transportUp tr width speed) s = .next s)) ∧
    (tr.val = 5 ∨ (mine ∧ s.running h = false) → exec (.transportUp tr width speed) s = .next s) ∧
    (mine ∧ (s.tport tr).up = true ∧ (tr.val ≤ 1 ∨ ¬ holds) → ∃ t, exec (.transportDown tr how) s = .next t ∧ (t.tport tr).up = false ∧ t.session tr 0 = none ∧
      t.kcp.cmds = ((s.kcp.cmds.filter fun c => c.tr ≠ tr.val || c.committed).map fun c => if c.tr = tr.val then { c with mute := true } else c) ∧
      t.kcp.ready = s.kcp.ready.filter (fun r => r.1 ≠ tr.val) ∧ t.mem = s.mem ∧
      (tr.val ≤ 1 ∧ how = .link → t.flag pci F.PCI_STATUS.LINK_UP = false ∧ t.flag pci F.PCI_STATUS.BME = false ∧ t.rdn (A.KCP_BUSY h.n) = 0) ∧
      (tr.val ≤ 1 ∧ how ≠ .link → t.rd (A.KCP_RING_CTRL h.n) = regDefault (A.KCP_RING_CTRL h.n) ∧ t.kcp.desc.all (fun d => d.1 / 32 % 2 != h.n) = true) ∧
      (tr.val ≤ 1 ∧ how = .flr → t.fld pci F.PCI_STATUS.BME = 0 ∧ t.fld pci F.PCI_STATUS.LINK_UP = s.fld pci F.PCI_STATUS.LINK_UP) ∧
      (2 ≤ tr.val → (t.stream tr).cmd = [] ∧ (t.stream tr).rsp = [])) ∧
    (tr.val = 5 ∨ (mine ∧ 2 ≤ tr.val ∧ holds) → exec (.transportDown tr how) s = .next s)

/-- What a step does (the queue is the model's; the tick on an empty queue is the DESIGN CHOICE of log entry 1). -/
def Obligations.StepRunsCommand : Prop :=
  ∀ (s : State) (c : Instr) (rest : List Instr),
    (step { s with pending := c :: rest } = exec c { s with pending := rest }) ∧
    (s.pending = [] → step s = .next { s with now := s.now + 1, raw := if s.rawOn then (s.raw + 1) % 2 ^ 64 else s.raw })
/-- The state after reset (the instant is the DESIGN CHOICE of log entry 5, the unlisted bytes that of log entry 4). -/
def Obligations.ResetState : Prop :=
  ∀ (h : Half) (a : Nat),
    (State.reset.sound = true ∧ State.reset.pending = []) ∧
    (State.reset.chgOf h = .init ∧ (State.reset.hrst h).phase = .held ∧ State.reset.rst.stage = .fuses ∧ State.reset.trivetLost = false) ∧
    (a ≠ A.PWR_RAIL → State.reset.rd a = regDefault a) ∧
    (State.reset.mb a = 0)
/-- At most one half is in CHARGE, and memory and registers stay in canonical form: no command breaks it, and none stops the machine. -/
def Obligations.EveryCommandKeepsSoundness : Prop :=
  ∀ (s : State), s.sound = true →
    (∀ c : Instr, ∃ t, exec c s = .next t ∧ t.sound = true ∧ t.pending = s.pending ∧ t.now = s.now) ∧
    (∃ t, step s = .next t ∧ t.sound = true)
end

