-- ==== Sys2Proof/Laws/Bits.lean ====
section
/-! SUPPORT. Laws of bit fields: what a field reads after a field of the same word has been set. -/

namespace Sys2Proof.Machine
open Sys2Proof

/-- A field lies in a word of 32 bits. -/
abbrev Fld.inWord (f : Fld) : Prop := f.lo ≤ f.hi ∧ f.hi < 32

theorem fget_eq (f : Fld) (w : Word) : fget f w = w.toNat / 2 ^ f.lo % 2 ^ fldWidth f := by
  simp [fget, Nat.shiftRight_eq_div_pow]

theorem fput_toNat (f : Fld) (w : Word) (v : Nat) (hf : f.lo ≤ f.hi ∧ f.hi < 32) :
    (fput f w v).toNat =
      w.toNat % 2 ^ f.lo + (v % 2 ^ fldWidth f) * 2 ^ f.lo + w.toNat / 2 ^ (f.hi + 1) * 2 ^ (f.hi + 1) := by
  obtain ⟨h1, h2⟩ := hf
  have hw : w.toNat < 2 ^ 32 := w.isLt
  have e1 : (2 : Nat) ^ (f.hi + 1) = 2 ^ fldWidth f * 2 ^ f.lo := by
    rw [← pow_add]; congr 1; simp only [fldWidth]; omega
  have e2 : (2 : Nat) ^ 32 = 2 ^ (f.hi + 1) * 2 ^ (31 - f.hi) := by
    rw [← pow_add]; congr 1; omega
  have a1 : w.toNat % 2 ^ f.lo < 2 ^ f.lo := Nat.mod_lt _ (by positivity)
  have a2 : v % 2 ^ fldWidth f < 2 ^ fldWidth f := Nat.mod_lt _ (by positivity)
  have a3 : w.toNat / 2 ^ (f.hi + 1) < 2 ^ (31 - f.hi) := by
    rw [Nat.div_lt_iff_lt_mul (by positivity), mul_comm, ← e2]; exact hw
  have a4 : w.toNat % 2 ^ f.lo + (v % 2 ^ fldWidth f) * 2 ^ f.lo < 2 ^ (f.hi + 1) := by
    rw [e1]
    calc _ < 2 ^ f.lo + (v % 2 ^ fldWidth f) * 2 ^ f.lo := Nat.add_lt_add_right a1 _
      _ = (v % 2 ^ fldWidth f + 1) * 2 ^ f.lo := by ring
      _ ≤ _ := Nat.mul_le_mul_right _ a2
  have a5 : w.toNat % 2 ^ f.lo + (v % 2 ^ fldWidth f) * 2 ^ f.lo + w.toNat / 2 ^ (f.hi + 1) * 2 ^ (f.hi + 1) < 2 ^ 32 := by
    rw [e2]
    calc _ < 2 ^ (f.hi + 1) + w.toNat / 2 ^ (f.hi + 1) * 2 ^ (f.hi + 1) := Nat.add_lt_add_right a4 _
      _ = (w.toNat / 2 ^ (f.hi + 1) + 1) * 2 ^ (f.hi + 1) := by ring
      _ ≤ 2 ^ (31 - f.hi) * 2 ^ (f.hi + 1) := Nat.mul_le_mul_right _ a3
      _ = _ := by ring
  rw [fput, BitVec.toNat_ofNat, Nat.mod_eq_of_lt a5]

/-- A field reads what was put into it, modulo its width. -/
theorem fget_fput (f : Fld) (w : Word) (v : Nat) (hf : f.lo ≤ f.hi ∧ f.hi < 32) :
    fget f (fput f w v) = v % 2 ^ fldWidth f := by
  have e1 : (2 : Nat) ^ (f.hi + 1) = 2 ^ fldWidth f * 2 ^ f.lo := by
    rw [← pow_add]; congr 1; simp only [fldWidth]; omega
  have a1 : w.toNat % 2 ^ f.lo < 2 ^ f.lo := Nat.mod_lt _ (by positivity)
  rw [fget_eq, fput_toNat f w v hf, e1]
  have : w.toNat % 2 ^ f.lo + v % 2 ^ fldWidth f * 2 ^ f.lo
      + w.toNat / (2 ^ fldWidth f * 2 ^ f.lo) * (2 ^ fldWidth f * 2 ^ f.lo)
      = w.toNat % 2 ^ f.lo + 2 ^ f.lo * (v % 2 ^ fldWidth f + 2 ^ fldWidth f * (w.toNat / (2 ^ fldWidth f * 2 ^ f.lo))) := by
    ring
  rw [this, Nat.add_mul_div_left _ _ (by positivity), Nat.div_eq_of_lt a1, zero_add, Nat.add_mul_mod_self_left, Nat.mod_mod]

/-- A field that shares no bit with the one set reads as before. -/
theorem fget_fput_other (f g : Fld) (w : Word) (v : Nat) (hf : f.lo ≤ f.hi ∧ f.hi < 32) (hg : g.lo ≤ g.hi)
    (hd : g.hi < f.lo ∨ f.hi < g.lo) : fget g (fput f w v) = fget g w := by
  have e1 : (2 : Nat) ^ (f.hi + 1) = 2 ^ fldWidth f * 2 ^ f.lo := by
    rw [← pow_add]; congr 1; simp only [fldWidth]; omega
  have a1 : w.toNat % 2 ^ f.lo < 2 ^ f.lo := Nat.mod_lt _ (by positivity)
  have a2 : v % 2 ^ fldWidth f < 2 ^ fldWidth f := Nat.mod_lt _ (by positivity)
  have a4 : w.toNat % 2 ^ f.lo + (v % 2 ^ fldWidth f) * 2 ^ f.lo < 2 ^ (f.hi + 1) := by
    rw [e1]
    calc _ < 2 ^ f.lo + (v % 2 ^ fldWidth f) * 2 ^ f.lo := Nat.add_lt_add_right a1 _
      _ = (v % 2 ^ fldWidth f + 1) * 2 ^ f.lo := by ring
      _ ≤ _ := Nat.mul_le_mul_right _ a2
  rw [fget_eq, fget_eq, fput_toNat f w v hf]
  rcases hd with hd | hd
  · -- below
    have e3 : 2 ^ f.lo = 2 ^ (g.hi + 1) * 2 ^ (f.lo - (g.hi + 1)) := by rw [← pow_add]; congr 1; omega
    have e4 : 2 ^ (g.hi + 1) = 2 ^ g.lo * 2 ^ fldWidth g := by
      rw [← pow_add]; congr 1; simp only [fldWidth]; omega
    have key : ∀ x : Nat, x / 2 ^ g.lo % 2 ^ fldWidth g = x % 2 ^ (g.hi + 1) / 2 ^ g.lo := by
      intro x; rw [e4, Nat.mod_mul_right_div_self]
    rw [key, key]
    congr 1
    have : w.toNat % 2 ^ f.lo + v % 2 ^ fldWidth f * 2 ^ f.lo + w.toNat / 2 ^ (f.hi + 1) * 2 ^ (f.hi + 1)
        = w.toNat % 2 ^ f.lo + 2 ^ (g.hi + 1) * (2 ^ (f.lo - (g.hi + 1)) *
          (v % 2 ^ fldWidth f + w.toNat / 2 ^ (f.hi + 1) * 2 ^ fldWidth f)) := by
      rw [e1, e3]; ring
    rw [this, Nat.add_mul_mod_self_left, e3, Nat.mod_mul_right_mod]
  · have e5 : 2 ^ g.lo = 2 ^ (f.hi + 1) * 2 ^ (g.lo - (f.hi + 1)) := by rw [← pow_add]; congr 1; omega
    congr 1
    rw [e5, ← Nat.div_div_eq_div_mul, ← Nat.div_div_eq_div_mul]
    congr 1
    rw [Nat.add_mul_div_right _ _ (by positivity), Nat.div_eq_of_lt a4, zero_add]

end Sys2Proof.Machine
end

