-- ==== Sys2Proof/Laws/Store.lean ====
section
/-! SUPPORT. Laws of sparse stores: what a lookup finds after each operation, and that each operation keeps the canonical
form. -/

namespace Sys2Proof.Machine

variable {α : Type}

/-! ### Lookups -/

theorem storeFind_erase (m : List (Nat × α)) (k j : Nat) :
    storeFind (storeErase m k) j = if j = k then none else storeFind m j := by
  induction m with
  | nil => simp [storeErase, storeFind]
  | cons a m ih =>
    obtain ⟨i, v⟩ := a
    simp only [storeErase] at ih ⊢
    by_cases hik : i = k
    · subst hik
      simp only [bne_self_eq_false, Bool.false_eq_true, not_false_eq_true, List.filter_cons_of_neg, ih, storeFind]
      split <;> simp_all [eq_comm]
    · rw [List.filter_cons_of_pos (by simpa using hik)]
      simp only [storeFind, ih]
      by_cases hij : i = j
      · subst hij; simp [hik]
      · simp [hij]

theorem storeFind_insert (m : List (Nat × α)) (k j : Nat) (v : α) :
    storeFind (storeInsert m k v) j = if j = k then some v else storeFind m j := by
  induction m with
  | nil => simp only [storeInsert, storeFind, eq_comm]
  | cons a m ih =>
    obtain ⟨i, w⟩ := a
    simp only [storeInsert]
    split
    · simp only [storeFind, eq_comm]
    · split
      · next h => subst h; simp only [storeFind]; by_cases hk : k = j <;> simp [hk, eq_comm]
      · next h1 h2 =>
        simp only [storeFind, ih]
        by_cases hij : i = j
        · subst hij; simp [Ne.symm h2]
        · simp [hij]

theorem storeGet_put [DecidableEq α] (d : α) (m : List (Nat × α)) (k j : Nat) (v : α) :
    storeGet d (storePut d m k v) j = if j = k then v else storeGet d m j := by
  unfold storeGet storePut
  split
  · next h => rw [storeFind_erase]; split <;> simp [h]
  · rw [storeFind_insert]; split <;> simp

theorem storeGet_put_self [DecidableEq α] (d : α) (m : List (Nat × α)) (k : Nat) (v : α) :
    storeGet d (storePut d m k v) k = v := by simp [storeGet_put]

theorem storeGet_put_other [DecidableEq α] (d : α) (m : List (Nat × α)) {k j : Nat} (v : α) (h : j ≠ k) :
    storeGet d (storePut d m k v) j = storeGet d m j := by simp [storeGet_put, h]

theorem storeFind_clear (p : Nat → Bool) (m : List (Nat × α)) (j : Nat) :
    storeFind (storeClear p m) j = if p j then none else storeFind m j := by
  induction m with
  | nil => simp [storeClear, storeFind]
  | cons a m ih =>
    obtain ⟨i, v⟩ := a
    simp only [storeClear] at ih ⊢
    by_cases hp : p i
    · simp only [hp, Bool.not_true, Bool.false_eq_true, not_false_eq_true, List.filter_cons_of_neg, ih, storeFind]
      by_cases hij : i = j
      · subst hij; simp [hp]
      · simp [hij]
    · rw [List.filter_cons_of_pos (by simpa using hp)]
      simp only [storeFind, ih]
      by_cases hij : i = j
      · subst hij; simp [hp]
      · simp [hij]

theorem storeGet_clear (d : α) (p : Nat → Bool) (m : List (Nat × α)) (j : Nat) :
    storeGet d (storeClear p m) j = if p j then d else storeGet d m j := by
  unfold storeGet; rw [storeFind_clear]; split <;> simp

/-! ### The canonical form -/

/-- The canonical form as two properties of the list. -/
theorem storeWf_iff [DecidableEq α] (d : Nat → α) (m : List (Nat × α)) :
    storeWf d m = true ↔ (m.map Prod.fst).Pairwise (· < ·) ∧ ∀ e ∈ m, e.2 ≠ d e.1 := by
  induction m with
  | nil => simp [storeWf]
  | cons a m ih =>
    obtain ⟨k, v⟩ := a
    cases m with
    | nil => simp [storeWf]
    | cons b m =>
      obtain ⟨j, w⟩ := b
      simp only [storeWf, Bool.and_eq_true, bne_iff_ne, ne_eq, decide_eq_true_eq, ih]
      constructor
      · rintro ⟨⟨hv, hkj⟩, hp, hall⟩
        refine ⟨?_, ?_⟩
        · rw [List.map_cons, List.pairwise_cons]
          refine ⟨?_, hp⟩
          intro x hx
          rw [List.map_cons] at hx hp
          rcases List.mem_cons.1 hx with rfl | hx
          · exact hkj
          · exact lt_trans hkj ((List.pairwise_cons.1 hp).1 x hx)
        · intro e he
          rcases List.mem_cons.1 he with rfl | he
          · exact hv
          · exact hall e he
      · rintro ⟨hp, hall⟩
        rw [List.map_cons, List.pairwise_cons] at hp
        exact ⟨⟨hall (k, v) (by simp), hp.1 j (by simp)⟩, hp.2, fun e he => hall e (List.mem_cons_of_mem _ he)⟩

theorem storeWf_filter [DecidableEq α] (d : Nat → α) (m : List (Nat × α)) (p : Nat × α → Bool)
    (h : storeWf d m = true) : storeWf d (m.filter p) = true := by
  rw [storeWf_iff] at h ⊢
  refine ⟨?_, fun e he => h.2 e (List.mem_of_mem_filter he)⟩
  exact (h.1.sublist ((List.filter_sublist).map Prod.fst))

theorem storeWf_erase [DecidableEq α] (d : Nat → α) (m : List (Nat × α)) (k : Nat)
    (h : storeWf d m = true) : storeWf d (storeErase m k) = true := storeWf_filter d m _ h

theorem storeWf_clear [DecidableEq α] (d : Nat → α) (m : List (Nat × α)) (p : Nat → Bool)
    (h : storeWf d m = true) : storeWf d (storeClear p m) = true := storeWf_filter d m _ h

theorem mem_storeInsert (m : List (Nat × α)) (k : Nat) (v : α) (e : Nat × α) (h : e ∈ storeInsert m k v) :
    e = (k, v) ∨ e ∈ m := by
  induction m with
  | nil => simpa [storeInsert] using h
  | cons a m ih =>
    obtain ⟨j, w⟩ := a
    simp only [storeInsert] at h
    split at h
    · simpa using h
    · split at h
      · rcases List.mem_cons.1 h with h | h
        · exact .inl h
        · exact .inr (List.mem_cons_of_mem _ h)
      · rcases List.mem_cons.1 h with h | h
        · exact .inr (by rw [h]; exact List.mem_cons_self)
        · rcases ih h with h | h
          · exact .inl h
          · exact .inr (List.mem_cons_of_mem _ h)

theorem storeWf_insert [DecidableEq α] (d : Nat → α) (m : List (Nat × α)) (k : Nat) (v : α) (hv : v ≠ d k)
    (h : storeWf d m = true) : storeWf d (storeInsert m k v) = true := by
  induction m with
  | nil => simpa [storeInsert, storeWf] using hv
  | cons a m ih =>
    obtain ⟨j, w⟩ := a
    have h' := (storeWf_iff d _).1 h
    have ht : storeWf d m = true := by
      rw [storeWf_iff]
      rw [List.map_cons, List.pairwise_cons] at h'
      exact ⟨h'.1.2, fun e he => h'.2 e (List.mem_cons_of_mem _ he)⟩
    rw [storeWf_iff]
    rw [List.map_cons, List.pairwise_cons] at h'
    simp only [storeInsert]
    split
    · next hk =>
      refine ⟨?_, ?_⟩
      · rw [List.map_cons, List.pairwise_cons, List.map_cons, List.pairwise_cons]
        refine ⟨?_, h'.1⟩
        intro x hx
        rcases List.mem_cons.1 hx with rfl | hx
        · exact hk
        · exact lt_trans hk (h'.1.1 x hx)
      · intro e he
        rcases List.mem_cons.1 he with rfl | he
        · exact hv
        · exact h'.2 e he
    · split
      · next hk =>
        subst hk
        refine ⟨?_, ?_⟩
        · rw [List.map_cons, List.pairwise_cons]; exact h'.1
        · intro e he
          rcases List.mem_cons.1 he with rfl | he
          · exact hv
          · exact h'.2 e (List.mem_cons_of_mem _ he)
      · next h1 h2 =>
        have hjk : j < k := by omega
        have ih' := (storeWf_iff d _).1 (ih ht)
        refine ⟨?_, ?_⟩
        · rw [List.map_cons, List.pairwise_cons]
          refine ⟨?_, ih'.1⟩
          intro x hx
          obtain ⟨e, he, rfl⟩ := List.mem_map.1 hx
          rcases mem_storeInsert m k v e he with rfl | he
          · exact hjk
          · exact h'.1.1 _ (List.mem_map_of_mem he)
        · intro e he
          rcases List.mem_cons.1 he with rfl | he
          · exact h'.2 _ List.mem_cons_self
          · exact ih'.2 e he

theorem storeWf_put [DecidableEq α] (d : Nat → α) (m : List (Nat × α)) (k : Nat) (v : α)
    (h : storeWf d m = true) : storeWf d (storePut (d k) m k v) = true := by
  unfold storePut
  split
  · exact storeWf_erase d m k h
  · next hv => exact storeWf_insert d m k v hv h

/-- A store whose values are replaced key by key, the defaults left out. -/
theorem storeWf_remap [DecidableEq α] (d : Nat → α) (m : List (Nat × α)) (f : Nat → α → α) (h : storeWf d m = true) :
    storeWf d (m.filterMap fun e => if f e.1 e.2 = d e.1 then none else some (e.1, f e.1 e.2)) = true := by
  rw [storeWf_iff] at h ⊢
  induction m with
  | nil => simp
  | cons e m ih =>
    obtain ⟨hp, hall⟩ := h
    rw [List.map_cons, List.pairwise_cons] at hp
    have ih' := ih ⟨hp.2, fun e he => hall e (List.mem_cons_of_mem _ he)⟩
    by_cases hf : f e.1 e.2 = d e.1
    · rw [List.filterMap_cons_none (by simp [hf])]
      exact ih'
    · rw [List.filterMap_cons_some (b := (e.1, f e.1 e.2)) (by simp only [hf, if_false])]
      refine ⟨?_, ?_⟩
      · rw [List.map_cons, List.pairwise_cons]
        refine ⟨?_, ih'.1⟩
        intro k hk
        obtain ⟨x, hx, rfl⟩ := List.mem_map.1 hk
        obtain ⟨y, hy, hxy⟩ := List.mem_filterMap.1 hx
        split at hxy
        · cases hxy
        · cases hxy
          exact hp.1 y.1 (List.mem_map.2 ⟨y, hy, rfl⟩)
      · intro x hx
        rcases List.mem_cons.1 hx with rfl | hx
        · exact hf
        · exact ih'.2 x hx

end Sys2Proof.Machine
end

