-- ==== Sys2Proof/Laws/State.lean ====
section
/-! SUPPORT. Laws of State: what each accessor reads of a state written out field by field, and what each named update leaves
as it is. -/

namespace Sys2Proof.Machine
open Sys2Proof

set_option linter.unusedVariables false

variable (s : State)

/-! ### Accessors of a state written out -/

@[simp] theorem State.rd_mk (zpending : List Instr) (znow : Nat) (zraw : Nat) (zrawOn : Bool) (zfree : Nat) (zresp : Option Resp) (zrespA : Option Resp) (zout : List Output) (zregs : List (Nat × Word)) (zmem : List Host.Cell) (zspadWait : List SpadReq) (zsweep : List (Nat × Nat)) (zwipe : Option Nat) (ztrivetLost : Bool) (zalive : Nat) (zchg : Charge) (zepK : Endpoint) (zepP : Endpoint) (zia : Ia) (zresync : Option Resync) (zappK : Option AppImage) (zappP : Option AppImage) (zstagedK : Option Digests) (zstagedP : Option Digests) (ztwin : Twin) (zcol : Colander) (zlarder : Larder) (zharts : List (Nat × Hart)) (zdramK : DramPort) (zdramP : DramPort) (zrst : Rst) (zgauge : Gauge) (zcx : List (Nat × Cx)) (zne : List (Nat × Engine)) (zhk : List (Nat × Hook)) (zports : List (Nat × Port)) (zplaneK : Plane) (zplaneP : Plane) (zwake : Wake) (zkcp : Kcp) (zsec : Sec) (zpins : Pins) (zfabric : Fabric) (a : Nat) :
    (State.mk zpending znow zraw zrawOn zfree zresp zrespA zout zregs zmem zspadWait zsweep zwipe ztrivetLost zalive zchg zepK zepP zia zresync zappK zappP zstagedK zstagedP ztwin zcol zlarder zharts zdramK zdramP zrst zgauge zcx zne zhk zports zplaneK zplaneP zwake zkcp zsec zpins zfabric).rd a = storeGet (regDefault a) zregs a := rfl

@[simp] theorem State.mb_mk (zpending : List Instr) (znow : Nat) (zraw : Nat) (zrawOn : Bool) (zfree : Nat) (zresp : Option Resp) (zrespA : Option Resp) (zout : List Output) (zregs : List (Nat × Word)) (zmem : List Host.Cell) (zspadWait : List SpadReq) (zsweep : List (Nat × Nat)) (zwipe : Option Nat) (ztrivetLost : Bool) (zalive : Nat) (zchg : Charge) (zepK : Endpoint) (zepP : Endpoint) (zia : Ia) (zresync : Option Resync) (zappK : Option AppImage) (zappP : Option AppImage) (zstagedK : Option Digests) (zstagedP : Option Digests) (ztwin : Twin) (zcol : Colander) (zlarder : Larder) (zharts : List (Nat × Hart)) (zdramK : DramPort) (zdramP : DramPort) (zrst : Rst) (zgauge : Gauge) (zcx : List (Nat × Cx)) (zne : List (Nat × Engine)) (zhk : List (Nat × Hook)) (zports : List (Nat × Port)) (zplaneK : Plane) (zplaneP : Plane) (zwake : Wake) (zkcp : Kcp) (zsec : Sec) (zpins : Pins) (zfabric : Fabric) (a : Nat) :
    (State.mk zpending znow zraw zrawOn zfree zresp zrespA zout zregs zmem zspadWait zsweep zwipe ztrivetLost zalive zchg zepK zepP zia zresync zappK zappP zstagedK zstagedP ztwin zcol zlarder zharts zdramK zdramP zrst zgauge zcx zne zhk zports zplaneK zplaneP zwake zkcp zsec zpins zfabric).mb a = storeGet memDefault zmem a := rfl

@[simp] theorem State.eng_mk (zpending : List Instr) (znow : Nat) (zraw : Nat) (zrawOn : Bool) (zfree : Nat) (zresp : Option Resp) (zrespA : Option Resp) (zout : List Output) (zregs : List (Nat × Word)) (zmem : List Host.Cell) (zspadWait : List SpadReq) (zsweep : List (Nat × Nat)) (zwipe : Option Nat) (ztrivetLost : Bool) (zalive : Nat) (zchg : Charge) (zepK : Endpoint) (zepP : Endpoint) (zia : Ia) (zresync : Option Resync) (zappK : Option AppImage) (zappP : Option AppImage) (zstagedK : Option Digests) (zstagedP : Option Digests) (ztwin : Twin) (zcol : Colander) (zlarder : Larder) (zharts : List (Nat × Hart)) (zdramK : DramPort) (zdramP : DramPort) (zrst : Rst) (zgauge : Gauge) (zcx : List (Nat × Cx)) (zne : List (Nat × Engine)) (zhk : List (Nat × Hook)) (zports : List (Nat × Port)) (zplaneK : Plane) (zplaneP : Plane) (zwake : Wake) (zkcp : Kcp) (zsec : Sec) (zpins : Pins) (zfabric : Fabric) (k : Nat) :
    (State.mk zpending znow zraw zrawOn zfree zresp zrespA zout zregs zmem zspadWait zsweep zwipe ztrivetLost zalive zchg zepK zepP zia zresync zappK zappP zstagedK zstagedP ztwin zcol zlarder zharts zdramK zdramP zrst zgauge zcx zne zhk zports zplaneK zplaneP zwake zkcp zsec zpins zfabric).eng k = storeGet Engine.init zne k := rfl

@[simp] theorem State.can_mk (zpending : List Instr) (znow : Nat) (zraw : Nat) (zrawOn : Bool) (zfree : Nat) (zresp : Option Resp) (zrespA : Option Resp) (zout : List Output) (zregs : List (Nat × Word)) (zmem : List Host.Cell) (zspadWait : List SpadReq) (zsweep : List (Nat × Nat)) (zwipe : Option Nat) (ztrivetLost : Bool) (zalive : Nat) (zchg : Charge) (zepK : Endpoint) (zepP : Endpoint) (zia : Ia) (zresync : Option Resync) (zappK : Option AppImage) (zappP : Option AppImage) (zstagedK : Option Digests) (zstagedP : Option Digests) (ztwin : Twin) (zcol : Colander) (zlarder : Larder) (zharts : List (Nat × Hart)) (zdramK : DramPort) (zdramP : DramPort) (zrst : Rst) (zgauge : Gauge) (zcx : List (Nat × Cx)) (zne : List (Nat × Engine)) (zhk : List (Nat × Hook)) (zports : List (Nat × Port)) (zplaneK : Plane) (zplaneP : Plane) (zwake : Wake) (zkcp : Kcp) (zsec : Sec) (zpins : Pins) (zfabric : Fabric) (k : Nat) :
    (State.mk zpending znow zraw zrawOn zfree zresp zrespA zout zregs zmem zspadWait zsweep zwipe ztrivetLost zalive zchg zepK zepP zia zresync zappK zappP zstagedK zstagedP ztwin zcol zlarder zharts zdramK zdramP zrst zgauge zcx zne zhk zports zplaneK zplaneP zwake zkcp zsec zpins zfabric).can k = storeGet Cx.init zcx k := rfl

@[simp] theorem State.hook_mk (zpending : List Instr) (znow : Nat) (zraw : Nat) (zrawOn : Bool) (zfree : Nat) (zresp : Option Resp) (zrespA : Option Resp) (zout : List Output) (zregs : List (Nat × Word)) (zmem : List Host.Cell) (zspadWait : List SpadReq) (zsweep : List (Nat × Nat)) (zwipe : Option Nat) (ztrivetLost : Bool) (zalive : Nat) (zchg : Charge) (zepK : Endpoint) (zepP : Endpoint) (zia : Ia) (zresync : Option Resync) (zappK : Option AppImage) (zappP : Option AppImage) (zstagedK : Option Digests) (zstagedP : Option Digests) (ztwin : Twin) (zcol : Colander) (zlarder : Larder) (zharts : List (Nat × Hart)) (zdramK : DramPort) (zdramP : DramPort) (zrst : Rst) (zgauge : Gauge) (zcx : List (Nat × Cx)) (zne : List (Nat × Engine)) (zhk : List (Nat × Hook)) (zports : List (Nat × Port)) (zplaneK : Plane) (zplaneP : Plane) (zwake : Wake) (zkcp : Kcp) (zsec : Sec) (zpins : Pins) (zfabric : Fabric) (k : Nat) :
    (State.mk zpending znow zraw zrawOn zfree zresp zrespA zout zregs zmem zspadWait zsweep zwipe ztrivetLost zalive zchg zepK zepP zia zresync zappK zappP zstagedK zstagedP ztwin zcol zlarder zharts zdramK zdramP zrst zgauge zcx zne zhk zports zplaneK zplaneP zwake zkcp zsec zpins zfabric).hook k = storeGet Hook.init zhk k := rfl

@[simp] theorem State.port_mk (zpending : List Instr) (znow : Nat) (zraw : Nat) (zrawOn : Bool) (zfree : Nat) (zresp : Option Resp) (zrespA : Option Resp) (zout : List Output) (zregs : List (Nat × Word)) (zmem : List Host.Cell) (zspadWait : List SpadReq) (zsweep : List (Nat × Nat)) (zwipe : Option Nat) (ztrivetLost : Bool) (zalive : Nat) (zchg : Charge) (zepK : Endpoint) (zepP : Endpoint) (zia : Ia) (zresync : Option Resync) (zappK : Option AppImage) (zappP : Option AppImage) (zstagedK : Option Digests) (zstagedP : Option Digests) (ztwin : Twin) (zcol : Colander) (zlarder : Larder) (zharts : List (Nat × Hart)) (zdramK : DramPort) (zdramP : DramPort) (zrst : Rst) (zgauge : Gauge) (zcx : List (Nat × Cx)) (zne : List (Nat × Engine)) (zhk : List (Nat × Hook)) (zports : List (Nat × Port)) (zplaneK : Plane) (zplaneP : Plane) (zwake : Wake) (zkcp : Kcp) (zsec : Sec) (zpins : Pins) (zfabric : Fabric) (k : Nat) :
    (State.mk zpending znow zraw zrawOn zfree zresp zrespA zout zregs zmem zspadWait zsweep zwipe ztrivetLost zalive zchg zepK zepP zia zresync zappK zappP zstagedK zstagedP ztwin zcol zlarder zharts zdramK zdramP zrst zgauge zcx zne zhk zports zplaneK zplaneP zwake zkcp zsec zpins zfabric).port k = storeGet Port.init zports k := rfl

@[simp] theorem State.hart_mk (zpending : List Instr) (znow : Nat) (zraw : Nat) (zrawOn : Bool) (zfree : Nat) (zresp : Option Resp) (zrespA : Option Resp) (zout : List Output) (zregs : List (Nat × Word)) (zmem : List Host.Cell) (zspadWait : List SpadReq) (zsweep : List (Nat × Nat)) (zwipe : Option Nat) (ztrivetLost : Bool) (zalive : Nat) (zchg : Charge) (zepK : Endpoint) (zepP : Endpoint) (zia : Ia) (zresync : Option Resync) (zappK : Option AppImage) (zappP : Option AppImage) (zstagedK : Option Digests) (zstagedP : Option Digests) (ztwin : Twin) (zcol : Colander) (zlarder : Larder) (zharts : List (Nat × Hart)) (zdramK : DramPort) (zdramP : DramPort) (zrst : Rst) (zgauge : Gauge) (zcx : List (Nat × Cx)) (zne : List (Nat × Engine)) (zhk : List (Nat × Hook)) (zports : List (Nat × Port)) (zplaneK : Plane) (zplaneP : Plane) (zwake : Wake) (zkcp : Kcp) (zsec : Sec) (zpins : Pins) (zfabric : Fabric) (k : Nat) :
    (State.mk zpending znow zraw zrawOn zfree zresp zrespA zout zregs zmem zspadWait zsweep zwipe ztrivetLost zalive zchg zepK zepP zia zresync zappK zappP zstagedK zstagedP ztwin zcol zlarder zharts zdramK zdramP zrst zgauge zcx zne zhk zports zplaneK zplaneP zwake zkcp zsec zpins zfabric).hart k = storeGet Hart.init zharts k := rfl

@[simp] theorem State.dom_mk (zpending : List Instr) (znow : Nat) (zraw : Nat) (zrawOn : Bool) (zfree : Nat) (zresp : Option Resp) (zrespA : Option Resp) (zout : List Output) (zregs : List (Nat × Word)) (zmem : List Host.Cell) (zspadWait : List SpadReq) (zsweep : List (Nat × Nat)) (zwipe : Option Nat) (ztrivetLost : Bool) (zalive : Nat) (zchg : Charge) (zepK : Endpoint) (zepP : Endpoint) (zia : Ia) (zresync : Option Resync) (zappK : Option AppImage) (zappP : Option AppImage) (zstagedK : Option Digests) (zstagedP : Option Digests) (ztwin : Twin) (zcol : Colander) (zlarder : Larder) (zharts : List (Nat × Hart)) (zdramK : DramPort) (zdramP : DramPort) (zrst : Rst) (zgauge : Gauge) (zcx : List (Nat × Cx)) (zne : List (Nat × Engine)) (zhk : List (Nat × Hook)) (zports : List (Nat × Port)) (zplaneK : Plane) (zplaneP : Plane) (zwake : Wake) (zkcp : Kcp) (zsec : Sec) (zpins : Pins) (zfabric : Fabric) (k : Nat) :
    (State.mk zpending znow zraw zrawOn zfree zresp zrespA zout zregs zmem zspadWait zsweep zwipe ztrivetLost zalive zchg zepK zepP zia zresync zappK zappP zstagedK zstagedP ztwin zcol zlarder zharts zdramK zdramP zrst zgauge zcx zne zhk zports zplaneK zplaneP zwake zkcp zsec zpins zfabric).dom k = storeGet Dom.init zgauge.doms k := rfl

@[simp] theorem State.plane_mk_k (zpending : List Instr) (znow : Nat) (zraw : Nat) (zrawOn : Bool) (zfree : Nat) (zresp : Option Resp) (zrespA : Option Resp) (zout : List Output) (zregs : List (Nat × Word)) (zmem : List Host.Cell) (zspadWait : List SpadReq) (zsweep : List (Nat × Nat)) (zwipe : Option Nat) (ztrivetLost : Bool) (zalive : Nat) (zchg : Charge) (zepK : Endpoint) (zepP : Endpoint) (zia : Ia) (zresync : Option Resync) (zappK : Option AppImage) (zappP : Option AppImage) (zstagedK : Option Digests) (zstagedP : Option Digests) (ztwin : Twin) (zcol : Colander) (zlarder : Larder) (zharts : List (Nat × Hart)) (zdramK : DramPort) (zdramP : DramPort) (zrst : Rst) (zgauge : Gauge) (zcx : List (Nat × Cx)) (zne : List (Nat × Engine)) (zhk : List (Nat × Hook)) (zports : List (Nat × Port)) (zplaneK : Plane) (zplaneP : Plane) (zwake : Wake) (zkcp : Kcp) (zsec : Sec) (zpins : Pins) (zfabric : Fabric)  :
    (State.mk zpending znow zraw zrawOn zfree zresp zrespA zout zregs zmem zspadWait zsweep zwipe ztrivetLost zalive zchg zepK zepP zia zresync zappK zappP zstagedK zstagedP ztwin zcol zlarder zharts zdramK zdramP zrst zgauge zcx zne zhk zports zplaneK zplaneP zwake zkcp zsec zpins zfabric).plane .k = zplaneK := rfl

@[simp] theorem State.plane_mk_p (zpending : List Instr) (znow : Nat) (zraw : Nat) (zrawOn : Bool) (zfree : Nat) (zresp : Option Resp) (zrespA : Option Resp) (zout : List Output) (zregs : List (Nat × Word)) (zmem : List Host.Cell) (zspadWait : List SpadReq) (zsweep : List (Nat × Nat)) (zwipe : Option Nat) (ztrivetLost : Bool) (zalive : Nat) (zchg : Charge) (zepK : Endpoint) (zepP : Endpoint) (zia : Ia) (zresync : Option Resync) (zappK : Option AppImage) (zappP : Option AppImage) (zstagedK : Option Digests) (zstagedP : Option Digests) (ztwin : Twin) (zcol : Colander) (zlarder : Larder) (zharts : List (Nat × Hart)) (zdramK : DramPort) (zdramP : DramPort) (zrst : Rst) (zgauge : Gauge) (zcx : List (Nat × Cx)) (zne : List (Nat × Engine)) (zhk : List (Nat × Hook)) (zports : List (Nat × Port)) (zplaneK : Plane) (zplaneP : Plane) (zwake : Wake) (zkcp : Kcp) (zsec : Sec) (zpins : Pins) (zfabric : Fabric)  :
    (State.mk zpending znow zraw zrawOn zfree zresp zrespA zout zregs zmem zspadWait zsweep zwipe ztrivetLost zalive zchg zepK zepP zia zresync zappK zappP zstagedK zstagedP ztwin zcol zlarder zharts zdramK zdramP zrst zgauge zcx zne zhk zports zplaneK zplaneP zwake zkcp zsec zpins zfabric).plane .p = zplaneP := rfl

@[simp] theorem State.ep_mk_k (zpending : List Instr) (znow : Nat) (zraw : Nat) (zrawOn : Bool) (zfree : Nat) (zresp : Option Resp) (zrespA : Option Resp) (zout : List Output) (zregs : List (Nat × Word)) (zmem : List Host.Cell) (zspadWait : List SpadReq) (zsweep : List (Nat × Nat)) (zwipe : Option Nat) (ztrivetLost : Bool) (zalive : Nat) (zchg : Charge) (zepK : Endpoint) (zepP : Endpoint) (zia : Ia) (zresync : Option Resync) (zappK : Option AppImage) (zappP : Option AppImage) (zstagedK : Option Digests) (zstagedP : Option Digests) (ztwin : Twin) (zcol : Colander) (zlarder : Larder) (zharts : List (Nat × Hart)) (zdramK : DramPort) (zdramP : DramPort) (zrst : Rst) (zgauge : Gauge) (zcx : List (Nat × Cx)) (zne : List (Nat × Engine)) (zhk : List (Nat × Hook)) (zports : List (Nat × Port)) (zplaneK : Plane) (zplaneP : Plane) (zwake : Wake) (zkcp : Kcp) (zsec : Sec) (zpins : Pins) (zfabric : Fabric)  :
    (State.mk zpending znow zraw zrawOn zfree zresp zrespA zout zregs zmem zspadWait zsweep zwipe ztrivetLost zalive zchg zepK zepP zia zresync zappK zappP zstagedK zstagedP ztwin zcol zlarder zharts zdramK zdramP zrst zgauge zcx zne zhk zports zplaneK zplaneP zwake zkcp zsec zpins zfabric).ep .k = zepK := rfl

@[simp] theorem State.ep_mk_p (zpending : List Instr) (znow : Nat) (zraw : Nat) (zrawOn : Bool) (zfree : Nat) (zresp : Option Resp) (zrespA : Option Resp) (zout : List Output) (zregs : List (Nat × Word)) (zmem : List Host.Cell) (zspadWait : List SpadReq) (zsweep : List (Nat × Nat)) (zwipe : Option Nat) (ztrivetLost : Bool) (zalive : Nat) (zchg : Charge) (zepK : Endpoint) (zepP : Endpoint) (zia : Ia) (zresync : Option Resync) (zappK : Option AppImage) (zappP : Option AppImage) (zstagedK : Option Digests) (zstagedP : Option Digests) (ztwin : Twin) (zcol : Colander) (zlarder : Larder) (zharts : List (Nat × Hart)) (zdramK : DramPort) (zdramP : DramPort) (zrst : Rst) (zgauge : Gauge) (zcx : List (Nat × Cx)) (zne : List (Nat × Engine)) (zhk : List (Nat × Hook)) (zports : List (Nat × Port)) (zplaneK : Plane) (zplaneP : Plane) (zwake : Wake) (zkcp : Kcp) (zsec : Sec) (zpins : Pins) (zfabric : Fabric)  :
    (State.mk zpending znow zraw zrawOn zfree zresp zrespA zout zregs zmem zspadWait zsweep zwipe ztrivetLost zalive zchg zepK zepP zia zresync zappK zappP zstagedK zstagedP ztwin zcol zlarder zharts zdramK zdramP zrst zgauge zcx zne zhk zports zplaneK zplaneP zwake zkcp zsec zpins zfabric).ep .p = zepP := rfl

@[simp] theorem State.dram_mk_k (zpending : List Instr) (znow : Nat) (zraw : Nat) (zrawOn : Bool) (zfree : Nat) (zresp : Option Resp) (zrespA : Option Resp) (zout : List Output) (zregs : List (Nat × Word)) (zmem : List Host.Cell) (zspadWait : List SpadReq) (zsweep : List (Nat × Nat)) (zwipe : Option Nat) (ztrivetLost : Bool) (zalive : Nat) (zchg : Charge) (zepK : Endpoint) (zepP : Endpoint) (zia : Ia) (zresync : Option Resync) (zappK : Option AppImage) (zappP : Option AppImage) (zstagedK : Option Digests) (zstagedP : Option Digests) (ztwin : Twin) (zcol : Colander) (zlarder : Larder) (zharts : List (Nat × Hart)) (zdramK : DramPort) (zdramP : DramPort) (zrst : Rst) (zgauge : Gauge) (zcx : List (Nat × Cx)) (zne : List (Nat × Engine)) (zhk : List (Nat × Hook)) (zports : List (Nat × Port)) (zplaneK : Plane) (zplaneP : Plane) (zwake : Wake) (zkcp : Kcp) (zsec : Sec) (zpins : Pins) (zfabric : Fabric)  :
    (State.mk zpending znow zraw zrawOn zfree zresp zrespA zout zregs zmem zspadWait zsweep zwipe ztrivetLost zalive zchg zepK zepP zia zresync zappK zappP zstagedK zstagedP ztwin zcol zlarder zharts zdramK zdramP zrst zgauge zcx zne zhk zports zplaneK zplaneP zwake zkcp zsec zpins zfabric).dram .k = zdramK := rfl

@[simp] theorem State.dram_mk_p (zpending : List Instr) (znow : Nat) (zraw : Nat) (zrawOn : Bool) (zfree : Nat) (zresp : Option Resp) (zrespA : Option Resp) (zout : List Output) (zregs : List (Nat × Word)) (zmem : List Host.Cell) (zspadWait : List SpadReq) (zsweep : List (Nat × Nat)) (zwipe : Option Nat) (ztrivetLost : Bool) (zalive : Nat) (zchg : Charge) (zepK : Endpoint) (zepP : Endpoint) (zia : Ia) (zresync : Option Resync) (zappK : Option AppImage) (zappP : Option AppImage) (zstagedK : Option Digests) (zstagedP : Option Digests) (ztwin : Twin) (zcol : Colander) (zlarder : Larder) (zharts : List (Nat × Hart)) (zdramK : DramPort) (zdramP : DramPort) (zrst : Rst) (zgauge : Gauge) (zcx : List (Nat × Cx)) (zne : List (Nat × Engine)) (zhk : List (Nat × Hook)) (zports : List (Nat × Port)) (zplaneK : Plane) (zplaneP : Plane) (zwake : Wake) (zkcp : Kcp) (zsec : Sec) (zpins : Pins) (zfabric : Fabric)  :
    (State.mk zpending znow zraw zrawOn zfree zresp zrespA zout zregs zmem zspadWait zsweep zwipe ztrivetLost zalive zchg zepK zepP zia zresync zappK zappP zstagedK zstagedP ztwin zcol zlarder zharts zdramK zdramP zrst zgauge zcx zne zhk zports zplaneK zplaneP zwake zkcp zsec zpins zfabric).dram .p = zdramP := rfl

@[simp] theorem State.hrst_mk (zpending : List Instr) (znow : Nat) (zraw : Nat) (zrawOn : Bool) (zfree : Nat) (zresp : Option Resp) (zrespA : Option Resp) (zout : List Output) (zregs : List (Nat × Word)) (zmem : List Host.Cell) (zspadWait : List SpadReq) (zsweep : List (Nat × Nat)) (zwipe : Option Nat) (ztrivetLost : Bool) (zalive : Nat) (zchg : Charge) (zepK : Endpoint) (zepP : Endpoint) (zia : Ia) (zresync : Option Resync) (zappK : Option AppImage) (zappP : Option AppImage) (zstagedK : Option Digests) (zstagedP : Option Digests) (ztwin : Twin) (zcol : Colander) (zlarder : Larder) (zharts : List (Nat × Hart)) (zdramK : DramPort) (zdramP : DramPort) (zrst : Rst) (zgauge : Gauge) (zcx : List (Nat × Cx)) (zne : List (Nat × Engine)) (zhk : List (Nat × Hook)) (zports : List (Nat × Port)) (zplaneK : Plane) (zplaneP : Plane) (zwake : Wake) (zkcp : Kcp) (zsec : Sec) (zpins : Pins) (zfabric : Fabric) (h : Half) :
    (State.mk zpending znow zraw zrawOn zfree zresp zrespA zout zregs zmem zspadWait zsweep zwipe ztrivetLost zalive zchg zepK zepP zia zresync zappK zappP zstagedK zstagedP ztwin zcol zlarder zharts zdramK zdramP zrst zgauge zcx zne zhk zports zplaneK zplaneP zwake zkcp zsec zpins zfabric).hrst h = (match h with | .k => zrst.k | .p => zrst.p) := rfl

@[simp] theorem State.chgOf_mk (zpending : List Instr) (znow : Nat) (zraw : Nat) (zrawOn : Bool) (zfree : Nat) (zresp : Option Resp) (zrespA : Option Resp) (zout : List Output) (zregs : List (Nat × Word)) (zmem : List Host.Cell) (zspadWait : List SpadReq) (zsweep : List (Nat × Nat)) (zwipe : Option Nat) (ztrivetLost : Bool) (zalive : Nat) (zchg : Charge) (zepK : Endpoint) (zepP : Endpoint) (zia : Ia) (zresync : Option Resync) (zappK : Option AppImage) (zappP : Option AppImage) (zstagedK : Option Digests) (zstagedP : Option Digests) (ztwin : Twin) (zcol : Colander) (zlarder : Larder) (zharts : List (Nat × Hart)) (zdramK : DramPort) (zdramP : DramPort) (zrst : Rst) (zgauge : Gauge) (zcx : List (Nat × Cx)) (zne : List (Nat × Engine)) (zhk : List (Nat × Hook)) (zports : List (Nat × Port)) (zplaneK : Plane) (zplaneP : Plane) (zwake : Wake) (zkcp : Kcp) (zsec : Sec) (zpins : Pins) (zfabric : Fabric) (h : Half) :
    (State.mk zpending znow zraw zrawOn zfree zresp zrespA zout zregs zmem zspadWait zsweep zwipe ztrivetLost zalive zchg zepK zepP zia zresync zappK zappP zstagedK zstagedP ztwin zcol zlarder zharts zdramK zdramP zrst zgauge zcx zne zhk zports zplaneK zplaneP zwake zkcp zsec zpins zfabric).chgOf h = (zchg.half h).st := rfl

/-! ### A store read through its accessor -/

@[simp] theorem get_regs (a : Nat) : storeGet (regDefault a) s.regs a = s.rd a := rfl

@[simp] theorem get_mem (a : Nat) : storeGet memDefault s.mem a = s.mb a := rfl

@[simp] theorem get_ne (k : Nat) : storeGet Engine.init s.ne k = s.eng k := rfl

@[simp] theorem get_cx (k : Nat) : storeGet Cx.init s.cx k = s.can k := rfl

@[simp] theorem get_hk (k : Nat) : storeGet Hook.init s.hk k = s.hook k := rfl

@[simp] theorem get_ports (k : Nat) : storeGet Port.init s.ports k = s.port k := rfl

@[simp] theorem get_harts (k : Nat) : storeGet Hart.init s.harts k = s.hart k := rfl

@[simp] theorem get_doms (k : Nat) : storeGet Dom.init s.gauge.doms k = s.dom k := rfl

/-! ### What a write of a register or of a byte reads and leaves -/

theorem regs_get_put (m : List (Nat × Word)) (a b : Nat) (w : Word) :
    storeGet (regDefault b) (storePut (regDefault a) m a w) b = if b = a then w else storeGet (regDefault b) m b := by
  by_cases h : b = a
  · subst h; rw [storeGet_put]
  · rw [if_neg h]; unfold storeGet storePut; split
    · rw [storeFind_erase, if_neg h]
    · rw [storeFind_insert, if_neg h]

/-- A register reads what was written to it, and every other register as before. -/
theorem State.rd_wr (a b : Nat) (w : Word) : (s.wr a w).rd b = if b = a then w else s.rd b :=
  regs_get_put s.regs a b w

@[simp] theorem State.rd_wr_self (a : Nat) (w : Word) : (s.wr a w).rd a = w := by simp [State.rd_wr]

theorem State.rd_wr_other (a b : Nat) (w : Word) (h : b ≠ a) : (s.wr a w).rd b = s.rd b := by simp [State.rd_wr, h]

/-- A byte reads what was written to it, and every other byte as before. -/
theorem State.mb_putb (a c : Nat) (b : Byte) : (s.putb a b).mb c = if c = a then b else s.mb c := storeGet_put memDefault s.mem a c b

@[simp] theorem State.mb_wr (a c : Nat) (w : Word) : (s.wr a w).mb c = s.mb c := rfl
@[simp] theorem State.rd_putb (a c : Nat) (b : Byte) : (s.putb a b).rd c = s.rd c := rfl

/-- Registers taken back to Reset values read so, and the others as before. -/
theorem State.rd_resetRegs (p : Nat → Bool) (b : Nat) : (s.resetRegs p).rd b = if p b then regDefault b else s.rd b :=
  storeGet_clear _ p s.regs b

/-- A cleared range of memory reads 0, and every other byte as before. -/
theorem State.mb_clearMem (lo hi c : Nat) : (s.clearMem lo hi).mb c = if lo ≤ c ∧ c < hi then 0 else s.mb c := by
  have := storeGet_clear memDefault (fun a => lo ≤ a && a < hi) s.mem c
  simpa [State.mb, State.clearMem, memDefault] using this

@[simp] theorem State.wr_pending (a : Nat) (w : Word) : (s.wr a w).pending = s.pending := rfl
@[simp] theorem State.wr_now (a : Nat) (w : Word) : (s.wr a w).now = s.now := rfl
@[simp] theorem State.wr_raw (a : Nat) (w : Word) : (s.wr a w).raw = s.raw := rfl
@[simp] theorem State.wr_rawOn (a : Nat) (w : Word) : (s.wr a w).rawOn = s.rawOn := rfl
@[simp] theorem State.wr_free (a : Nat) (w : Word) : (s.wr a w).free = s.free := rfl
@[simp] theorem State.wr_resp (a : Nat) (w : Word) : (s.wr a w).resp = s.resp := rfl
@[simp] theorem State.wr_respA (a : Nat) (w : Word) : (s.wr a w).respA = s.respA := rfl
@[simp] theorem State.wr_out (a : Nat) (w : Word) : (s.wr a w).out = s.out := rfl
@[simp] theorem State.wr_mem (a : Nat) (w : Word) : (s.wr a w).mem = s.mem := rfl
@[simp] theorem State.wr_spadWait (a : Nat) (w : Word) : (s.wr a w).spadWait = s.spadWait := rfl
@[simp] theorem State.wr_sweep (a : Nat) (w : Word) : (s.wr a w).sweep = s.sweep := rfl
@[simp] theorem State.wr_wipe (a : Nat) (w : Word) : (s.wr a w).wipe = s.wipe := rfl
@[simp] theorem State.wr_trivetLost (a : Nat) (w : Word) : (s.wr a w).trivetLost = s.trivetLost := rfl
@[simp] theorem State.wr_alive (a : Nat) (w : Word) : (s.wr a w).alive = s.alive := rfl
@[simp] theorem State.wr_chg (a : Nat) (w : Word) : (s.wr a w).chg = s.chg := rfl
@[simp] theorem State.wr_epK (a : Nat) (w : Word) : (s.wr a w).epK = s.epK := rfl
@[simp] theorem State.wr_epP (a : Nat) (w : Word) : (s.wr a w).epP = s.epP := rfl
@[simp] theorem State.wr_ia (a : Nat) (w : Word) : (s.wr a w).ia = s.ia := rfl
@[simp] theorem State.wr_resync (a : Nat) (w : Word) : (s.wr a w).resync = s.resync := rfl
@[simp] theorem State.wr_appK (a : Nat) (w : Word) : (s.wr a w).appK = s.appK := rfl
@[simp] theorem State.wr_appP (a : Nat) (w : Word) : (s.wr a w).appP = s.appP := rfl
@[simp] theorem State.wr_stagedK (a : Nat) (w : Word) : (s.wr a w).stagedK = s.stagedK := rfl
@[simp] theorem State.wr_stagedP (a : Nat) (w : Word) : (s.wr a w).stagedP = s.stagedP := rfl
@[simp] theorem State.wr_twin (a : Nat) (w : Word) : (s.wr a w).twin = s.twin := rfl
@[simp] theorem State.wr_col (a : Nat) (w : Word) : (s.wr a w).col = s.col := rfl
@[simp] theorem State.wr_larder (a : Nat) (w : Word) : (s.wr a w).larder = s.larder := rfl
@[simp] theorem State.wr_harts (a : Nat) (w : Word) : (s.wr a w).harts = s.harts := rfl
@[simp] theorem State.wr_dramK (a : Nat) (w : Word) : (s.wr a w).dramK = s.dramK := rfl
@[simp] theorem State.wr_dramP (a : Nat) (w : Word) : (s.wr a w).dramP = s.dramP := rfl
@[simp] theorem State.wr_rst (a : Nat) (w : Word) : (s.wr a w).rst = s.rst := rfl
@[simp] theorem State.wr_gauge (a : Nat) (w : Word) : (s.wr a w).gauge = s.gauge := rfl
@[simp] theorem State.wr_cx (a : Nat) (w : Word) : (s.wr a w).cx = s.cx := rfl
@[simp] theorem State.wr_ne (a : Nat) (w : Word) : (s.wr a w).ne = s.ne := rfl
@[simp] theorem State.wr_hk (a : Nat) (w : Word) : (s.wr a w).hk = s.hk := rfl
@[simp] theorem State.wr_ports (a : Nat) (w : Word) : (s.wr a w).ports = s.ports := rfl
@[simp] theorem State.wr_planeK (a : Nat) (w : Word) : (s.wr a w).planeK = s.planeK := rfl
@[simp] theorem State.wr_planeP (a : Nat) (w : Word) : (s.wr a w).planeP = s.planeP := rfl
@[simp] theorem State.wr_wake (a : Nat) (w : Word) : (s.wr a w).wake = s.wake := rfl
@[simp] theorem State.wr_kcp (a : Nat) (w : Word) : (s.wr a w).kcp = s.kcp := rfl
@[simp] theorem State.wr_sec (a : Nat) (w : Word) : (s.wr a w).sec = s.sec := rfl
@[simp] theorem State.wr_pins (a : Nat) (w : Word) : (s.wr a w).pins = s.pins := rfl
@[simp] theorem State.wr_fabric (a : Nat) (w : Word) : (s.wr a w).fabric = s.fabric := rfl
@[simp] theorem State.putb_pending (a : Nat) (b : Byte) : (s.putb a b).pending = s.pending := rfl
@[simp] theorem State.putb_now (a : Nat) (b : Byte) : (s.putb a b).now = s.now := rfl
@[simp] theorem State.putb_raw (a : Nat) (b : Byte) : (s.putb a b).raw = s.raw := rfl
@[simp] theorem State.putb_rawOn (a : Nat) (b : Byte) : (s.putb a b).rawOn = s.rawOn := rfl
@[simp] theorem State.putb_free (a : Nat) (b : Byte) : (s.putb a b).free = s.free := rfl
@[simp] theorem State.putb_resp (a : Nat) (b : Byte) : (s.putb a b).resp = s.resp := rfl
@[simp] theorem State.putb_respA (a : Nat) (b : Byte) : (s.putb a b).respA = s.respA := rfl
@[simp] theorem State.putb_out (a : Nat) (b : Byte) : (s.putb a b).out = s.out := rfl
@[simp] theorem State.putb_regs (a : Nat) (b : Byte) : (s.putb a b).regs = s.regs := rfl
@[simp] theorem State.putb_spadWait (a : Nat) (b : Byte) : (s.putb a b).spadWait = s.spadWait := rfl
@[simp] theorem State.putb_sweep (a : Nat) (b : Byte) : (s.putb a b).sweep = s.sweep := rfl
@[simp] theorem State.putb_wipe (a : Nat) (b : Byte) : (s.putb a b).wipe = s.wipe := rfl
@[simp] theorem State.putb_trivetLost (a : Nat) (b : Byte) : (s.putb a b).trivetLost = s.trivetLost := rfl
@[simp] theorem State.putb_alive (a : Nat) (b : Byte) : (s.putb a b).alive = s.alive := rfl
@[simp] theorem State.putb_chg (a : Nat) (b : Byte) : (s.putb a b).chg = s.chg := rfl
@[simp] theorem State.putb_epK (a : Nat) (b : Byte) : (s.putb a b).epK = s.epK := rfl
@[simp] theorem State.putb_epP (a : Nat) (b : Byte) : (s.putb a b).epP = s.epP := rfl
@[simp] theorem State.putb_ia (a : Nat) (b : Byte) : (s.putb a b).ia = s.ia := rfl
@[simp] theorem State.putb_resync (a : Nat) (b : Byte) : (s.putb a b).resync = s.resync := rfl
@[simp] theorem State.putb_appK (a : Nat) (b : Byte) : (s.putb a b).appK = s.appK := rfl
@[simp] theorem State.putb_appP (a : Nat) (b : Byte) : (s.putb a b).appP = s.appP := rfl
@[simp] theorem State.putb_stagedK (a : Nat) (b : Byte) : (s.putb a b).stagedK = s.stagedK := rfl
@[simp] theorem State.putb_stagedP (a : Nat) (b : Byte) : (s.putb a b).stagedP = s.stagedP := rfl
@[simp] theorem State.putb_twin (a : Nat) (b : Byte) : (s.putb a b).twin = s.twin := rfl
@[simp] theorem State.putb_col (a : Nat) (b : Byte) : (s.putb a b).col = s.col := rfl
@[simp] theorem State.putb_larder (a : Nat) (b : Byte) : (s.putb a b).larder = s.larder := rfl
@[simp] theorem State.putb_harts (a : Nat) (b : Byte) : (s.putb a b).harts = s.harts := rfl
@[simp] theorem State.putb_dramK (a : Nat) (b : Byte) : (s.putb a b).dramK = s.dramK := rfl
@[simp] theorem State.putb_dramP (a : Nat) (b : Byte) : (s.putb a b).dramP = s.dramP := rfl
@[simp] theorem State.putb_rst (a : Nat) (b : Byte) : (s.putb a b).rst = s.rst := rfl
@[simp] theorem State.putb_gauge (a : Nat) (b : Byte) : (s.putb a b).gauge = s.gauge := rfl
@[simp] theorem State.putb_cx (a : Nat) (b : Byte) : (s.putb a b).cx = s.cx := rfl
@[simp] theorem State.putb_ne (a : Nat) (b : Byte) : (s.putb a b).ne = s.ne := rfl
@[simp] theorem State.putb_hk (a : Nat) (b : Byte) : (s.putb a b).hk = s.hk := rfl
@[simp] theorem State.putb_ports (a : Nat) (b : Byte) : (s.putb a b).ports = s.ports := rfl
@[simp] theorem State.putb_planeK (a : Nat) (b : Byte) : (s.putb a b).planeK = s.planeK := rfl
@[simp] theorem State.putb_planeP (a : Nat) (b : Byte) : (s.putb a b).planeP = s.planeP := rfl
@[simp] theorem State.putb_wake (a : Nat) (b : Byte) : (s.putb a b).wake = s.wake := rfl
@[simp] theorem State.putb_kcp (a : Nat) (b : Byte) : (s.putb a b).kcp = s.kcp := rfl
@[simp] theorem State.putb_sec (a : Nat) (b : Byte) : (s.putb a b).sec = s.sec := rfl
@[simp] theorem State.putb_pins (a : Nat) (b : Byte) : (s.putb a b).pins = s.pins := rfl
@[simp] theorem State.putb_fabric (a : Nat) (b : Byte) : (s.putb a b).fabric = s.fabric := rfl
@[simp] theorem State.resetRegs_pending (p : Nat → Bool) : (s.resetRegs p).pending = s.pending := rfl
@[simp] theorem State.resetRegs_now (p : Nat → Bool) : (s.resetRegs p).now = s.now := rfl
@[simp] theorem State.resetRegs_raw (p : Nat → Bool) : (s.resetRegs p).raw = s.raw := rfl
@[simp] theorem State.resetRegs_rawOn (p : Nat → Bool) : (s.resetRegs p).rawOn = s.rawOn := rfl
@[simp] theorem State.resetRegs_free (p : Nat → Bool) : (s.resetRegs p).free = s.free := rfl
@[simp] theorem State.resetRegs_resp (p : Nat → Bool) : (s.resetRegs p).resp = s.resp := rfl
@[simp] theorem State.resetRegs_respA (p : Nat → Bool) : (s.resetRegs p).respA = s.respA := rfl
@[simp] theorem State.resetRegs_out (p : Nat → Bool) : (s.resetRegs p).out = s.out := rfl
@[simp] theorem State.resetRegs_mem (p : Nat → Bool) : (s.resetRegs p).mem = s.mem := rfl
@[simp] theorem State.resetRegs_spadWait (p : Nat → Bool) : (s.resetRegs p).spadWait = s.spadWait := rfl
@[simp] theorem State.resetRegs_sweep (p : Nat → Bool) : (s.resetRegs p).sweep = s.sweep := rfl
@[simp] theorem State.resetRegs_wipe (p : Nat → Bool) : (s.resetRegs p).wipe = s.wipe := rfl
@[simp] theorem State.resetRegs_trivetLost (p : Nat → Bool) : (s.resetRegs p).trivetLost = s.trivetLost := rfl
@[simp] theorem State.resetRegs_alive (p : Nat → Bool) : (s.resetRegs p).alive = s.alive := rfl
@[simp] theorem State.resetRegs_chg (p : Nat → Bool) : (s.resetRegs p).chg = s.chg := rfl
@[simp] theorem State.resetRegs_epK (p : Nat → Bool) : (s.resetRegs p).epK = s.epK := rfl
@[simp] theorem State.resetRegs_epP (p : Nat → Bool) : (s.resetRegs p).epP = s.epP := rfl
@[simp] theorem State.resetRegs_ia (p : Nat → Bool) : (s.resetRegs p).ia = s.ia := rfl
@[simp] theorem State.resetRegs_resync (p : Nat → Bool) : (s.resetRegs p).resync = s.resync := rfl
@[simp] theorem State.resetRegs_appK (p : Nat → Bool) : (s.resetRegs p).appK = s.appK := rfl
@[simp] theorem State.resetRegs_appP (p : Nat → Bool) : (s.resetRegs p).appP = s.appP := rfl
@[simp] theorem State.resetRegs_stagedK (p : Nat → Bool) : (s.resetRegs p).stagedK = s.stagedK := rfl
@[simp] theorem State.resetRegs_stagedP (p : Nat → Bool) : (s.resetRegs p).stagedP = s.stagedP := rfl
@[simp] theorem State.resetRegs_twin (p : Nat → Bool) : (s.resetRegs p).twin = s.twin := rfl
@[simp] theorem State.resetRegs_col (p : Nat → Bool) : (s.resetRegs p).col = s.col := rfl
@[simp] theorem State.resetRegs_larder (p : Nat → Bool) : (s.resetRegs p).larder = s.larder := rfl
@[simp] theorem State.resetRegs_harts (p : Nat → Bool) : (s.resetRegs p).harts = s.harts := rfl
@[simp] theorem State.resetRegs_dramK (p : Nat → Bool) : (s.resetRegs p).dramK = s.dramK := rfl
@[simp] theorem State.resetRegs_dramP (p : Nat → Bool) : (s.resetRegs p).dramP = s.dramP := rfl
@[simp] theorem State.resetRegs_rst (p : Nat → Bool) : (s.resetRegs p).rst = s.rst := rfl
@[simp] theorem State.resetRegs_gauge (p : Nat → Bool) : (s.resetRegs p).gauge = s.gauge := rfl
@[simp] theorem State.resetRegs_cx (p : Nat → Bool) : (s.resetRegs p).cx = s.cx := rfl
@[simp] theorem State.resetRegs_ne (p : Nat → Bool) : (s.resetRegs p).ne = s.ne := rfl
@[simp] theorem State.resetRegs_hk (p : Nat → Bool) : (s.resetRegs p).hk = s.hk := rfl
@[simp] theorem State.resetRegs_ports (p : Nat → Bool) : (s.resetRegs p).ports = s.ports := rfl
@[simp] theorem State.resetRegs_planeK (p : Nat → Bool) : (s.resetRegs p).planeK = s.planeK := rfl
@[simp] theorem State.resetRegs_planeP (p : Nat → Bool) : (s.resetRegs p).planeP = s.planeP := rfl
@[simp] theorem State.resetRegs_wake (p : Nat → Bool) : (s.resetRegs p).wake = s.wake := rfl
@[simp] theorem State.resetRegs_kcp (p : Nat → Bool) : (s.resetRegs p).kcp = s.kcp := rfl
@[simp] theorem State.resetRegs_sec (p : Nat → Bool) : (s.resetRegs p).sec = s.sec := rfl
@[simp] theorem State.resetRegs_pins (p : Nat → Bool) : (s.resetRegs p).pins = s.pins := rfl
@[simp] theorem State.resetRegs_fabric (p : Nat → Bool) : (s.resetRegs p).fabric = s.fabric := rfl
@[simp] theorem State.clearMem_pending (lo hi : Nat) : (s.clearMem lo hi).pending = s.pending := rfl
@[simp] theorem State.clearMem_now (lo hi : Nat) : (s.clearMem lo hi).now = s.now := rfl
@[simp] theorem State.clearMem_raw (lo hi : Nat) : (s.clearMem lo hi).raw = s.raw := rfl
@[simp] theorem State.clearMem_rawOn (lo hi : Nat) : (s.clearMem lo hi).rawOn = s.rawOn := rfl
@[simp] theorem State.clearMem_free (lo hi : Nat) : (s.clearMem lo hi).free = s.free := rfl
@[simp] theorem State.clearMem_resp (lo hi : Nat) : (s.clearMem lo hi).resp = s.resp := rfl
@[simp] theorem State.clearMem_respA (lo hi : Nat) : (s.clearMem lo hi).respA = s.respA := rfl
@[simp] theorem State.clearMem_out (lo hi : Nat) : (s.clearMem lo hi).out = s.out := rfl
@[simp] theorem State.clearMem_regs (lo hi : Nat) : (s.clearMem lo hi).regs = s.regs := rfl
@[simp] theorem State.clearMem_spadWait (lo hi : Nat) : (s.clearMem lo hi).spadWait = s.spadWait := rfl
@[simp] theorem State.clearMem_sweep (lo hi : Nat) : (s.clearMem lo hi).sweep = s.sweep := rfl
@[simp] theorem State.clearMem_wipe (lo hi : Nat) : (s.clearMem lo hi).wipe = s.wipe := rfl
@[simp] theorem State.clearMem_trivetLost (lo hi : Nat) : (s.clearMem lo hi).trivetLost = s.trivetLost := rfl
@[simp] theorem State.clearMem_alive (lo hi : Nat) : (s.clearMem lo hi).alive = s.alive := rfl
@[simp] theorem State.clearMem_chg (lo hi : Nat) : (s.clearMem lo hi).chg = s.chg := rfl
@[simp] theorem State.clearMem_epK (lo hi : Nat) : (s.clearMem lo hi).epK = s.epK := rfl
@[simp] theorem State.clearMem_epP (lo hi : Nat) : (s.clearMem lo hi).epP = s.epP := rfl
@[simp] theorem State.clearMem_ia (lo hi : Nat) : (s.clearMem lo hi).ia = s.ia := rfl
@[simp] theorem State.clearMem_resync (lo hi : Nat) : (s.clearMem lo hi).resync = s.resync := rfl
@[simp] theorem State.clearMem_appK (lo hi : Nat) : (s.clearMem lo hi).appK = s.appK := rfl
@[simp] theorem State.clearMem_appP (lo hi : Nat) : (s.clearMem lo hi).appP = s.appP := rfl
@[simp] theorem State.clearMem_stagedK (lo hi : Nat) : (s.clearMem lo hi).stagedK = s.stagedK := rfl
@[simp] theorem State.clearMem_stagedP (lo hi : Nat) : (s.clearMem lo hi).stagedP = s.stagedP := rfl
@[simp] theorem State.clearMem_twin (lo hi : Nat) : (s.clearMem lo hi).twin = s.twin := rfl
@[simp] theorem State.clearMem_col (lo hi : Nat) : (s.clearMem lo hi).col = s.col := rfl
@[simp] theorem State.clearMem_larder (lo hi : Nat) : (s.clearMem lo hi).larder = s.larder := rfl
@[simp] theorem State.clearMem_harts (lo hi : Nat) : (s.clearMem lo hi).harts = s.harts := rfl
@[simp] theorem State.clearMem_dramK (lo hi : Nat) : (s.clearMem lo hi).dramK = s.dramK := rfl
@[simp] theorem State.clearMem_dramP (lo hi : Nat) : (s.clearMem lo hi).dramP = s.dramP := rfl
@[simp] theorem State.clearMem_rst (lo hi : Nat) : (s.clearMem lo hi).rst = s.rst := rfl
@[simp] theorem State.clearMem_gauge (lo hi : Nat) : (s.clearMem lo hi).gauge = s.gauge := rfl
@[simp] theorem State.clearMem_cx (lo hi : Nat) : (s.clearMem lo hi).cx = s.cx := rfl
@[simp] theorem State.clearMem_ne (lo hi : Nat) : (s.clearMem lo hi).ne = s.ne := rfl
@[simp] theorem State.clearMem_hk (lo hi : Nat) : (s.clearMem lo hi).hk = s.hk := rfl
@[simp] theorem State.clearMem_ports (lo hi : Nat) : (s.clearMem lo hi).ports = s.ports := rfl
@[simp] theorem State.clearMem_planeK (lo hi : Nat) : (s.clearMem lo hi).planeK = s.planeK := rfl
@[simp] theorem State.clearMem_planeP (lo hi : Nat) : (s.clearMem lo hi).planeP = s.planeP := rfl
@[simp] theorem State.clearMem_wake (lo hi : Nat) : (s.clearMem lo hi).wake = s.wake := rfl
@[simp] theorem State.clearMem_kcp (lo hi : Nat) : (s.clearMem lo hi).kcp = s.kcp := rfl
@[simp] theorem State.clearMem_sec (lo hi : Nat) : (s.clearMem lo hi).sec = s.sec := rfl
@[simp] theorem State.clearMem_pins (lo hi : Nat) : (s.clearMem lo hi).pins = s.pins := rfl
@[simp] theorem State.clearMem_fabric (lo hi : Nat) : (s.clearMem lo hi).fabric = s.fabric := rfl
@[simp] theorem State.ok_pending (v : Nat) : (s.ok v).pending = s.pending := rfl
@[simp] theorem State.ok_now (v : Nat) : (s.ok v).now = s.now := rfl
@[simp] theorem State.ok_raw (v : Nat) : (s.ok v).raw = s.raw := rfl
@[simp] theorem State.ok_rawOn (v : Nat) : (s.ok v).rawOn = s.rawOn := rfl
@[simp] theorem State.ok_free (v : Nat) : (s.ok v).free = s.free := rfl
@[simp] theorem State.ok_respA (v : Nat) : (s.ok v).respA = s.respA := rfl
@[simp] theorem State.ok_out (v : Nat) : (s.ok v).out = s.out := rfl
@[simp] theorem State.ok_regs (v : Nat) : (s.ok v).regs = s.regs := rfl
@[simp] theorem State.ok_mem (v : Nat) : (s.ok v).mem = s.mem := rfl
@[simp] theorem State.ok_spadWait (v : Nat) : (s.ok v).spadWait = s.spadWait := rfl
@[simp] theorem State.ok_sweep (v : Nat) : (s.ok v).sweep = s.sweep := rfl
@[simp] theorem State.ok_wipe (v : Nat) : (s.ok v).wipe = s.wipe := rfl
@[simp] theorem State.ok_trivetLost (v : Nat) : (s.ok v).trivetLost = s.trivetLost := rfl
@[simp] theorem State.ok_alive (v : Nat) : (s.ok v).alive = s.alive := rfl
@[simp] theorem State.ok_chg (v : Nat) : (s.ok v).chg = s.chg := rfl
@[simp] theorem State.ok_epK (v : Nat) : (s.ok v).epK = s.epK := rfl
@[simp] theorem State.ok_epP (v : Nat) : (s.ok v).epP = s.epP := rfl
@[simp] theorem State.ok_ia (v : Nat) : (s.ok v).ia = s.ia := rfl
@[simp] theorem State.ok_resync (v : Nat) : (s.ok v).resync = s.resync := rfl
@[simp] theorem State.ok_appK (v : Nat) : (s.ok v).appK = s.appK := rfl
@[simp] theorem State.ok_appP (v : Nat) : (s.ok v).appP = s.appP := rfl
@[simp] theorem State.ok_stagedK (v : Nat) : (s.ok v).stagedK = s.stagedK := rfl
@[simp] theorem State.ok_stagedP (v : Nat) : (s.ok v).stagedP = s.stagedP := rfl
@[simp] theorem State.ok_twin (v : Nat) : (s.ok v).twin = s.twin := rfl
@[simp] theorem State.ok_col (v : Nat) : (s.ok v).col = s.col := rfl
@[simp] theorem State.ok_larder (v : Nat) : (s.ok v).larder = s.larder := rfl
@[simp] theorem State.ok_harts (v : Nat) : (s.ok v).harts = s.harts := rfl
@[simp] theorem State.ok_dramK (v : Nat) : (s.ok v).dramK = s.dramK := rfl
@[simp] theorem State.ok_dramP (v : Nat) : (s.ok v).dramP = s.dramP := rfl
@[simp] theorem State.ok_rst (v : Nat) : (s.ok v).rst = s.rst := rfl
@[simp] theorem State.ok_gauge (v : Nat) : (s.ok v).gauge = s.gauge := rfl
@[simp] theorem State.ok_cx (v : Nat) : (s.ok v).cx = s.cx := rfl
@[simp] theorem State.ok_ne (v : Nat) : (s.ok v).ne = s.ne := rfl
@[simp] theorem State.ok_hk (v : Nat) : (s.ok v).hk = s.hk := rfl
@[simp] theorem State.ok_ports (v : Nat) : (s.ok v).ports = s.ports := rfl
@[simp] theorem State.ok_planeK (v : Nat) : (s.ok v).planeK = s.planeK := rfl
@[simp] theorem State.ok_planeP (v : Nat) : (s.ok v).planeP = s.planeP := rfl
@[simp] theorem State.ok_wake (v : Nat) : (s.ok v).wake = s.wake := rfl
@[simp] theorem State.ok_kcp (v : Nat) : (s.ok v).kcp = s.kcp := rfl
@[simp] theorem State.ok_sec (v : Nat) : (s.ok v).sec = s.sec := rfl
@[simp] theorem State.ok_pins (v : Nat) : (s.ok v).pins = s.pins := rfl
@[simp] theorem State.ok_fabric (v : Nat) : (s.ok v).fabric = s.fabric := rfl
@[simp] theorem State.ok_resp (v : Nat) : (s.ok v).resp = some (.ok v) := rfl
@[simp] theorem State.rd_ok (v : Nat) (c : Nat) : (s.ok v).rd c = s.rd c := rfl
@[simp] theorem State.mb_ok (v : Nat) (c : Nat) : (s.ok v).mb c = s.mb c := rfl
@[simp] theorem State.emit_pending (o : Output) : (s.emit o).pending = s.pending := rfl
@[simp] theorem State.emit_now (o : Output) : (s.emit o).now = s.now := rfl
@[simp] theorem State.emit_raw (o : Output) : (s.emit o).raw = s.raw := rfl
@[simp] theorem State.emit_rawOn (o : Output) : (s.emit o).rawOn = s.rawOn := rfl
@[simp] theorem State.emit_free (o : Output) : (s.emit o).free = s.free := rfl
@[simp] theorem State.emit_resp (o : Output) : (s.emit o).resp = s.resp := rfl
@[simp] theorem State.emit_respA (o : Output) : (s.emit o).respA = s.respA := rfl
@[simp] theorem State.emit_regs (o : Output) : (s.emit o).regs = s.regs := rfl
@[simp] theorem State.emit_mem (o : Output) : (s.emit o).mem = s.mem := rfl
@[simp] theorem State.emit_spadWait (o : Output) : (s.emit o).spadWait = s.spadWait := rfl
@[simp] theorem State.emit_sweep (o : Output) : (s.emit o).sweep = s.sweep := rfl
@[simp] theorem State.emit_wipe (o : Output) : (s.emit o).wipe = s.wipe := rfl
@[simp] theorem State.emit_trivetLost (o : Output) : (s.emit o).trivetLost = s.trivetLost := rfl
@[simp] theorem State.emit_alive (o : Output) : (s.emit o).alive = s.alive := rfl
@[simp] theorem State.emit_chg (o : Output) : (s.emit o).chg = s.chg := rfl
@[simp] theorem State.emit_epK (o : Output) : (s.emit o).epK = s.epK := rfl
@[simp] theorem State.emit_epP (o : Output) : (s.emit o).epP = s.epP := rfl
@[simp] theorem State.emit_ia (o : Output) : (s.emit o).ia = s.ia := rfl
@[simp] theorem State.emit_resync (o : Output) : (s.emit o).resync = s.resync := rfl
@[simp] theorem State.emit_appK (o : Output) : (s.emit o).appK = s.appK := rfl
@[simp] theorem State.emit_appP (o : Output) : (s.emit o).appP = s.appP := rfl
@[simp] theorem State.emit_stagedK (o : Output) : (s.emit o).stagedK = s.stagedK := rfl
@[simp] theorem State.emit_stagedP (o : Output) : (s.emit o).stagedP = s.stagedP := rfl
@[simp] theorem State.emit_twin (o : Output) : (s.emit o).twin = s.twin := rfl
@[simp] theorem State.emit_col (o : Output) : (s.emit o).col = s.col := rfl
@[simp] theorem State.emit_larder (o : Output) : (s.emit o).larder = s.larder := rfl
@[simp] theorem State.emit_harts (o : Output) : (s.emit o).harts = s.harts := rfl
@[simp] theorem State.emit_dramK (o : Output) : (s.emit o).dramK = s.dramK := rfl
@[simp] theorem State.emit_dramP (o : Output) : (s.emit o).dramP = s.dramP := rfl
@[simp] theorem State.emit_rst (o : Output) : (s.emit o).rst = s.rst := rfl
@[simp] theorem State.emit_gauge (o : Output) : (s.emit o).gauge = s.gauge := rfl
@[simp] theorem State.emit_cx (o : Output) : (s.emit o).cx = s.cx := rfl
@[simp] theorem State.emit_ne (o : Output) : (s.emit o).ne = s.ne := rfl
@[simp] theorem State.emit_hk (o : Output) : (s.emit o).hk = s.hk := rfl
@[simp] theorem State.emit_ports (o : Output) : (s.emit o).ports = s.ports := rfl
@[simp] theorem State.emit_planeK (o : Output) : (s.emit o).planeK = s.planeK := rfl
@[simp] theorem State.emit_planeP (o : Output) : (s.emit o).planeP = s.planeP := rfl
@[simp] theorem State.emit_wake (o : Output) : (s.emit o).wake = s.wake := rfl
@[simp] theorem State.emit_kcp (o : Output) : (s.emit o).kcp = s.kcp := rfl
@[simp] theorem State.emit_sec (o : Output) : (s.emit o).sec = s.sec := rfl
@[simp] theorem State.emit_pins (o : Output) : (s.emit o).pins = s.pins := rfl
@[simp] theorem State.emit_fabric (o : Output) : (s.emit o).fabric = s.fabric := rfl
@[simp] theorem State.emit_out (o : Output) : (s.emit o).out = o :: s.out := rfl
@[simp] theorem State.rd_emit (o : Output) (c : Nat) : (s.emit o).rd c = s.rd c := rfl
@[simp] theorem State.mb_emit (o : Output) (c : Nat) : (s.emit o).mb c = s.mb c := rfl
@[simp] theorem State.useFree_pending  : (s.useFree).pending = s.pending := rfl
@[simp] theorem State.useFree_now  : (s.useFree).now = s.now := rfl
@[simp] theorem State.useFree_raw  : (s.useFree).raw = s.raw := rfl
@[simp] theorem State.useFree_rawOn  : (s.useFree).rawOn = s.rawOn := rfl
@[simp] theorem State.useFree_resp  : (s.useFree).resp = s.resp := rfl
@[simp] theorem State.useFree_respA  : (s.useFree).respA = s.respA := rfl
@[simp] theorem State.useFree_out  : (s.useFree).out = s.out := rfl
@[simp] theorem State.useFree_regs  : (s.useFree).regs = s.regs := rfl
@[simp] theorem State.useFree_mem  : (s.useFree).mem = s.mem := rfl
@[simp] theorem State.useFree_spadWait  : (s.useFree).spadWait = s.spadWait := rfl
@[simp] theorem State.useFree_sweep  : (s.useFree).sweep = s.sweep := rfl
@[simp] theorem State.useFree_wipe  : (s.useFree).wipe = s.wipe := rfl
@[simp] theorem State.useFree_trivetLost  : (s.useFree).trivetLost = s.trivetLost := rfl
@[simp] theorem State.useFree_alive  : (s.useFree).alive = s.alive := rfl
@[simp] theorem State.useFree_chg  : (s.useFree).chg = s.chg := rfl
@[simp] theorem State.useFree_epK  : (s.useFree).epK = s.epK := rfl
@[simp] theorem State.useFree_epP  : (s.useFree).epP = s.epP := rfl
@[simp] theorem State.useFree_ia  : (s.useFree).ia = s.ia := rfl
@[simp] theorem State.useFree_resync  : (s.useFree).resync = s.resync := rfl
@[simp] theorem State.useFree_appK  : (s.useFree).appK = s.appK := rfl
@[simp] theorem State.useFree_appP  : (s.useFree).appP = s.appP := rfl
@[simp] theorem State.useFree_stagedK  : (s.useFree).stagedK = s.stagedK := rfl
@[simp] theorem State.useFree_stagedP  : (s.useFree).stagedP = s.stagedP := rfl
@[simp] theorem State.useFree_twin  : (s.useFree).twin = s.twin := rfl
@[simp] theorem State.useFree_col  : (s.useFree).col = s.col := rfl
@[simp] theorem State.useFree_larder  : (s.useFree).larder = s.larder := rfl
@[simp] theorem State.useFree_harts  : (s.useFree).harts = s.harts := rfl
@[simp] theorem State.useFree_dramK  : (s.useFree).dramK = s.dramK := rfl
@[simp] theorem State.useFree_dramP  : (s.useFree).dramP = s.dramP := rfl
@[simp] theorem State.useFree_rst  : (s.useFree).rst = s.rst := rfl
@[simp] theorem State.useFree_gauge  : (s.useFree).gauge = s.gauge := rfl
@[simp] theorem State.useFree_cx  : (s.useFree).cx = s.cx := rfl
@[simp] theorem State.useFree_ne  : (s.useFree).ne = s.ne := rfl
@[simp] theorem State.useFree_hk  : (s.useFree).hk = s.hk := rfl
@[simp] theorem State.useFree_ports  : (s.useFree).ports = s.ports := rfl
@[simp] theorem State.useFree_planeK  : (s.useFree).planeK = s.planeK := rfl
@[simp] theorem State.useFree_planeP  : (s.useFree).planeP = s.planeP := rfl
@[simp] theorem State.useFree_wake  : (s.useFree).wake = s.wake := rfl
@[simp] theorem State.useFree_kcp  : (s.useFree).kcp = s.kcp := rfl
@[simp] theorem State.useFree_sec  : (s.useFree).sec = s.sec := rfl
@[simp] theorem State.useFree_pins  : (s.useFree).pins = s.pins := rfl
@[simp] theorem State.useFree_fabric  : (s.useFree).fabric = s.fabric := rfl
@[simp] theorem State.useFree_free  : (s.useFree).free = s.free + 1 := rfl
@[simp] theorem State.rd_useFree  (c : Nat) : (s.useFree).rd c = s.rd c := rfl
@[simp] theorem State.mb_useFree  (c : Nat) : (s.useFree).mb c = s.mb c := rfl
@[simp] theorem State.eng_wr (a : Nat) (w : Word) (c : Nat) : (s.wr a w).eng c = s.eng c := rfl
@[simp] theorem State.can_wr (a : Nat) (w : Word) (c : Nat) : (s.wr a w).can c = s.can c := rfl
@[simp] theorem State.hook_wr (a : Nat) (w : Word) (c : Nat) : (s.wr a w).hook c = s.hook c := rfl
@[simp] theorem State.port_wr (a : Nat) (w : Word) (c : Nat) : (s.wr a w).port c = s.port c := rfl
@[simp] theorem State.hart_wr (a : Nat) (w : Word) (c : Nat) : (s.wr a w).hart c = s.hart c := rfl
@[simp] theorem State.dom_wr (a : Nat) (w : Word) (c : Nat) : (s.wr a w).dom c = s.dom c := rfl
@[simp] theorem State.plane_wr (a : Nat) (w : Word) (c : Half) : (s.wr a w).plane c = s.plane c := by (try cases c) <;> rfl
@[simp] theorem State.ep_wr (a : Nat) (w : Word) (c : Half) : (s.wr a w).ep c = s.ep c := by (try cases c) <;> rfl
@[simp] theorem State.dram_wr (a : Nat) (w : Word) (c : Half) : (s.wr a w).dram c = s.dram c := by (try cases c) <;> rfl
@[simp] theorem State.hrst_wr (a : Nat) (w : Word) (c : Half) : (s.wr a w).hrst c = s.hrst c := by (try cases c) <;> rfl
@[simp] theorem State.chgOf_wr (a : Nat) (w : Word) (c : Half) : (s.wr a w).chgOf c = s.chgOf c := by (try cases c) <;> rfl
@[simp] theorem State.eng_putb (a : Nat) (b : Byte) (c : Nat) : (s.putb a b).eng c = s.eng c := rfl
@[simp] theorem State.can_putb (a : Nat) (b : Byte) (c : Nat) : (s.putb a b).can c = s.can c := rfl
@[simp] theorem State.hook_putb (a : Nat) (b : Byte) (c : Nat) : (s.putb a b).hook c = s.hook c := rfl
@[simp] theorem State.port_putb (a : Nat) (b : Byte) (c : Nat) : (s.putb a b).port c = s.port c := rfl
@[simp] theorem State.hart_putb (a : Nat) (b : Byte) (c : Nat) : (s.putb a b).hart c = s.hart c := rfl
@[simp] theorem State.dom_putb (a : Nat) (b : Byte) (c : Nat) : (s.putb a b).dom c = s.dom c := rfl
@[simp] theorem State.plane_putb (a : Nat) (b : Byte) (c : Half) : (s.putb a b).plane c = s.plane c := by (try cases c) <;> rfl
@[simp] theorem State.ep_putb (a : Nat) (b : Byte) (c : Half) : (s.putb a b).ep c = s.ep c := by (try cases c) <;> rfl
@[simp] theorem State.dram_putb (a : Nat) (b : Byte) (c : Half) : (s.putb a b).dram c = s.dram c := by (try cases c) <;> rfl
@[simp] theorem State.hrst_putb (a : Nat) (b : Byte) (c : Half) : (s.putb a b).hrst c = s.hrst c := by (try cases c) <;> rfl
@[simp] theorem State.chgOf_putb (a : Nat) (b : Byte) (c : Half) : (s.putb a b).chgOf c = s.chgOf c := by (try cases c) <;> rfl
@[simp] theorem State.eng_ok (v : Nat) (c : Nat) : (s.ok v).eng c = s.eng c := rfl
@[simp] theorem State.can_ok (v : Nat) (c : Nat) : (s.ok v).can c = s.can c := rfl
@[simp] theorem State.hook_ok (v : Nat) (c : Nat) : (s.ok v).hook c = s.hook c := rfl
@[simp] theorem State.port_ok (v : Nat) (c : Nat) : (s.ok v).port c = s.port c := rfl
@[simp] theorem State.hart_ok (v : Nat) (c : Nat) : (s.ok v).hart c = s.hart c := rfl
@[simp] theorem State.dom_ok (v : Nat) (c : Nat) : (s.ok v).dom c = s.dom c := rfl
@[simp] theorem State.plane_ok (v : Nat) (c : Half) : (s.ok v).plane c = s.plane c := by (try cases c) <;> rfl
@[simp] theorem State.ep_ok (v : Nat) (c : Half) : (s.ok v).ep c = s.ep c := by (try cases c) <;> rfl
@[simp] theorem State.dram_ok (v : Nat) (c : Half) : (s.ok v).dram c = s.dram c := by (try cases c) <;> rfl
@[simp] theorem State.hrst_ok (v : Nat) (c : Half) : (s.ok v).hrst c = s.hrst c := by (try cases c) <;> rfl
@[simp] theorem State.chgOf_ok (v : Nat) (c : Half) : (s.ok v).chgOf c = s.chgOf c := by (try cases c) <;> rfl
@[simp] theorem State.eng_emit (o : Output) (c : Nat) : (s.emit o).eng c = s.eng c := rfl
@[simp] theorem State.can_emit (o : Output) (c : Nat) : (s.emit o).can c = s.can c := rfl
@[simp] theorem State.hook_emit (o : Output) (c : Nat) : (s.emit o).hook c = s.hook c := rfl
@[simp] theorem State.port_emit (o : Output) (c : Nat) : (s.emit o).port c = s.port c := rfl
@[simp] theorem State.hart_emit (o : Output) (c : Nat) : (s.emit o).hart c = s.hart c := rfl
@[simp] theorem State.dom_emit (o : Output) (c : Nat) : (s.emit o).dom c = s.dom c := rfl
@[simp] theorem State.plane_emit (o : Output) (c : Half) : (s.emit o).plane c = s.plane c := by (try cases c) <;> rfl
@[simp] theorem State.ep_emit (o : Output) (c : Half) : (s.emit o).ep c = s.ep c := by (try cases c) <;> rfl
@[simp] theorem State.dram_emit (o : Output) (c : Half) : (s.emit o).dram c = s.dram c := by (try cases c) <;> rfl
@[simp] theorem State.hrst_emit (o : Output) (c : Half) : (s.emit o).hrst c = s.hrst c := by (try cases c) <;> rfl
@[simp] theorem State.chgOf_emit (o : Output) (c : Half) : (s.emit o).chgOf c = s.chgOf c := by (try cases c) <;> rfl
@[simp] theorem State.eng_useFree  (c : Nat) : (s.useFree).eng c = s.eng c := rfl
@[simp] theorem State.can_useFree  (c : Nat) : (s.useFree).can c = s.can c := rfl
@[simp] theorem State.hook_useFree  (c : Nat) : (s.useFree).hook c = s.hook c := rfl
@[simp] theorem State.port_useFree  (c : Nat) : (s.useFree).port c = s.port c := rfl
@[simp] theorem State.hart_useFree  (c : Nat) : (s.useFree).hart c = s.hart c := rfl
@[simp] theorem State.dom_useFree  (c : Nat) : (s.useFree).dom c = s.dom c := rfl
@[simp] theorem State.plane_useFree  (c : Half) : (s.useFree).plane c = s.plane c := by (try cases c) <;> rfl
@[simp] theorem State.ep_useFree  (c : Half) : (s.useFree).ep c = s.ep c := by (try cases c) <;> rfl
@[simp] theorem State.dram_useFree  (c : Half) : (s.useFree).dram c = s.dram c := by (try cases c) <;> rfl
@[simp] theorem State.hrst_useFree  (c : Half) : (s.useFree).hrst c = s.hrst c := by (try cases c) <;> rfl
@[simp] theorem State.chgOf_useFree  (c : Half) : (s.useFree).chgOf c = s.chgOf c := by (try cases c) <;> rfl

end Sys2Proof.Machine
end

