-- ==== Sys2Proof/Laws/Fields.lean ====
section
/-! SUPPORT. Laws of register fields: what a field reads after a register or a field has been written. -/

namespace Sys2Proof.Machine
open Sys2Proof

variable (s : State)

theorem State.rd_setf (a b : Nat) (f : Fld) (v : Nat) :
    (s.setf a f v).rd b = if b = a then fput f (s.rd a) v else s.rd b := by simp [State.setf, State.rd_wr]

theorem State.rd_wrn (a b v : Nat) : (s.wrn a v).rd b = if b = a then BitVec.ofNat 32 v else s.rd b := by
  simp [State.wrn, State.rd_wr]

/-- A field reads what was put into it, modulo its width. -/
theorem State.fld_setf (a : Nat) (f : Fld) (v : Nat) (hf : f.lo ≤ f.hi ∧ f.hi < 32) :
    (s.setf a f v).fld a f = v % 2 ^ fldWidth f := by simp [State.fld, State.setf, fget_fput f _ v hf]

/-- A field of the same register that shares no bit with the one set reads as before. -/
theorem State.fld_setf_field (a : Nat) (f g : Fld) (v : Nat) (hf : f.lo ≤ f.hi ∧ f.hi < 32) (hg : g.lo ≤ g.hi)
    (hd : g.hi < f.lo ∨ f.hi < g.lo) : (s.setf a f v).fld a g = s.fld a g := by
  simp [State.fld, State.setf, fget_fput_other f g _ v hf hg hd]

/-- A field of another register reads as before. -/
theorem State.fld_setf_other (a b : Nat) (f g : Fld) (v : Nat) (h : b ≠ a) : (s.setf a f v).fld b g = s.fld b g := by
  simp [State.fld, State.setf, State.rd_wr, h]

/-- A one-bit field reads the bit put into it. -/
theorem State.flag_setb (a : Nat) (f : Fld) (b : Bool) (hf : f.lo ≤ f.hi ∧ f.hi < 32) :
    (s.setb a f b).flag a f = b := by
  have hw : 1 < 2 ^ fldWidth f := Nat.one_lt_two_pow (by simp only [fldWidth]; omega)
  cases b <;> simp [State.flag, State.setb, State.fld_setf s a f _ hf, b2n, Nat.mod_eq_of_lt hw]

/-- A count register advances by 1 and stops at 0xFFFF_FFFF. -/
theorem State.rd_inc (a b : Nat) : (s.inc a).rd b = if b = a then satSucc (s.rd a) else s.rd b := by
  simp [State.inc, State.rd_wr]

end Sys2Proof.Machine
end

