-- ==== Sys2Proof/Laws/Kept.lean ====
section
/-! SUPPORT. The basic laws of `State.kept`: a register or a byte written, a fold, an outcome. -/

set_option linter.unreachableTactic false
set_option linter.unusedTactic false
set_option linter.unusedVariables false

namespace Sys2Proof.Machine
open Sys2Proof
variable {q : List Instr} {n : Nat}

/-- A state that differs in neither queue, time, memory, registers nor charge. -/
theorem kept_mk {s : State} (h : s.kept q n)
    {raw1 : Nat} {rawOn1 : Bool} {free1 : Nat} {resp1 : Option Resp} {respA1 : Option Resp} {out1 : List Output}
    {spadWait1 : List SpadReq} {sweep1 : List (Nat × Nat)} {wipe1 : Option Nat} {trivetLost1 : Bool} {alive1 : Nat}
    {epK1 : Endpoint} {epP1 : Endpoint} {ia1 : Ia} {resync1 : Option Resync} {appK1 : Option AppImage} {appP1 :
    Option AppImage} {stagedK1 : Option Digests} {stagedP1 : Option Digests} {twin1 : Twin} {col1 : Colander}
    {larder1 : Larder} {harts1 : List (Nat × Hart)} {dramK1 : DramPort} {dramP1 : DramPort} {rst1 : Rst} {gauge1 :
    Gauge} {cx1 : List (Nat × Cx)} {ne1 : List (Nat × Engine)} {hk1 : List (Nat × Hook)} {ports1 : List (Nat ×
    Port)} {planeK1 : Plane} {planeP1 : Plane} {wake1 : Wake} {kcp1 : Kcp} {sec1 : Sec} {pins1 : Pins} {fabric1 :
    Fabric} :
    State.kept q n
      { pending := s.pending, now := s.now, raw := raw1, rawOn := rawOn1, free := free1, resp := resp1,
        respA := respA1, out := out1, regs := s.regs, mem := s.mem, spadWait := spadWait1, sweep := sweep1,
        wipe := wipe1, trivetLost := trivetLost1, alive := alive1, chg := s.chg, epK := epK1, epP := epP1,
        ia := ia1, resync := resync1, appK := appK1, appP := appP1, stagedK := stagedK1, stagedP :=
        stagedP1, twin := twin1, col := col1, larder := larder1, harts := harts1, dramK := dramK1, dramP :=
        dramP1, rst := rst1, gauge := gauge1, cx := cx1, ne := ne1, hk := hk1, ports := ports1, planeK :=
        planeK1, planeP := planeP1, wake := wake1, kcp := kcp1, sec := sec1, pins := pins1, fabric :=
        fabric1 } := h

/-- A state that differs in charge too, and leaves at most one half in CHARGE. -/
theorem kept_chg {s : State} (h : s.kept q n)
    {raw1 : Nat} {rawOn1 : Bool} {free1 : Nat} {resp1 : Option Resp} {respA1 : Option Resp} {out1 : List Output}
    {spadWait1 : List SpadReq} {sweep1 : List (Nat × Nat)} {wipe1 : Option Nat} {trivetLost1 : Bool} {alive1 : Nat}
    {chg1 : Charge} {epK1 : Endpoint} {epP1 : Endpoint} {ia1 : Ia} {resync1 : Option Resync} {appK1 : Option
    AppImage} {appP1 : Option AppImage} {stagedK1 : Option Digests} {stagedP1 : Option Digests} {twin1 : Twin}
    {col1 : Colander} {larder1 : Larder} {harts1 : List (Nat × Hart)} {dramK1 : DramPort} {dramP1 : DramPort} {rst1
    : Rst} {gauge1 : Gauge} {cx1 : List (Nat × Cx)} {ne1 : List (Nat × Engine)} {hk1 : List (Nat × Hook)} {ports1 :
    List (Nat × Port)} {planeK1 : Plane} {planeP1 : Plane} {wake1 : Wake} {kcp1 : Kcp} {sec1 : Sec} {pins1 : Pins}
    {fabric1 : Fabric}
    (hc : ¬(chg1.k.st = .charge ∧ chg1.p.st = .charge)) :
    State.kept q n
      { pending := s.pending, now := s.now, raw := raw1, rawOn := rawOn1, free := free1, resp := resp1,
        respA := respA1, out := out1, regs := s.regs, mem := s.mem, spadWait := spadWait1, sweep := sweep1,
        wipe := wipe1, trivetLost := trivetLost1, alive := alive1, chg := chg1, epK := epK1, epP := epP1, ia
        := ia1, resync := resync1, appK := appK1, appP := appP1, stagedK := stagedK1, stagedP := stagedP1,
        twin := twin1, col := col1, larder := larder1, harts := harts1, dramK := dramK1, dramP := dramP1,
        rst := rst1, gauge := gauge1, cx := cx1, ne := ne1, hk := hk1, ports := ports1, planeK := planeK1,
        planeP := planeP1, wake := wake1, kcp := kcp1, sec := sec1, pins := pins1, fabric := fabric1 } := by
  obtain ⟨h1, h2, h3⟩ := h
  refine ⟨h1, h2, ?_⟩
  simp only [State.sound, Bool.and_eq_true] at h3 ⊢
  refine ⟨h3.1, ?_⟩
  simp only [State.oneCharge, State.chgOf, Charge.half, Bool.not_eq_true', Bool.and_eq_false_imp, beq_iff_eq, beq_eq_false_iff_ne]
  intro h4 h5
  exact hc ⟨h4, h5⟩

theorem kept_not_both {s : State} (h : s.kept q n) : ¬(s.chg.k.st = .charge ∧ s.chg.p.st = .charge) := by
  obtain ⟨h1, h2, h3⟩ := h
  simp only [State.sound, Bool.and_eq_true, State.oneCharge, State.chgOf, Charge.half, Bool.not_eq_true', Bool.and_eq_false_imp, beq_iff_eq, beq_eq_false_iff_ne] at h3
  rintro ⟨h4, h5⟩
  exact h3.2 h4 h5

theorem State.wr_kept {s : State} (h : s.kept q n) (a : Nat) (w : Word) : (s.wr a w).kept q n := by
  obtain ⟨h1, h2, h3⟩ := h
  refine ⟨h1, h2, ?_⟩
  simp only [State.sound, Bool.and_eq_true] at h3 ⊢
  exact ⟨⟨h3.1.1, storeWf_put _ _ _ _ h3.1.2⟩, h3.2⟩

theorem State.putb_kept {s : State} (h : s.kept q n) (a : Nat) (b : Byte) : (s.putb a b).kept q n := by
  obtain ⟨h1, h2, h3⟩ := h
  refine ⟨h1, h2, ?_⟩
  simp only [State.sound, Bool.and_eq_true] at h3 ⊢
  exact ⟨⟨storeWf_put (fun _ => memDefault) _ _ _ h3.1.1, h3.1.2⟩, h3.2⟩

theorem State.resetRegs_kept {s : State} (h : s.kept q n) (p : Nat → Bool) : (s.resetRegs p).kept q n := by
  obtain ⟨h1, h2, h3⟩ := h
  refine ⟨h1, h2, ?_⟩
  simp only [State.sound, Bool.and_eq_true] at h3 ⊢
  exact ⟨⟨h3.1.1, storeWf_clear _ _ _ h3.1.2⟩, h3.2⟩

theorem State.clearMem_kept {s : State} (h : s.kept q n) (lo hi : Nat) : (s.clearMem lo hi).kept q n := by
  obtain ⟨h1, h2, h3⟩ := h
  refine ⟨h1, h2, ?_⟩
  simp only [State.sound, Bool.and_eq_true] at h3 ⊢
  exact ⟨⟨storeWf_clear (fun _ => memDefault) s.mem (fun a => lo ≤ a && a < hi) h3.1.1, h3.1.2⟩, h3.2⟩

theorem foldl_kept {β : Type} {f : State → β → State} (hf : ∀ s b, s.kept q n → (f s b).kept q n) (bs : List β) {s : State}
    (h : s.kept q n) : (bs.foldl f s).kept q n := by
  induction bs generalizing s with
  | nil => exact h
  | cons b bs ih => exact ih (hf s b h)

theorem kept_bind {x : State} {P : Prop} (h : x.kept q n) (k : x.kept q n → P) : P := k h

/-- An optional state that fits. -/
def optKept (q : List Instr) (n : Nat) (o : Option State) : Prop := ∀ t, o = some t → t.kept q n

/-- An outcome that is a next state which fits. -/
def outKept (q : List Instr) (n : Nat) (o : Host.Outcome State Fault Refusal) : Prop := ∃ t, o = .next t ∧ t.kept q n

theorem out_next {t : State} (h : t.kept q n) : outKept q n (.next t) := ⟨t, rfl, h⟩

theorem opt_none : optKept q n none := by intro t h; cases h

theorem opt_some {t : State} (h : t.kept q n) : optKept q n (some t) := by intro t h'; cases h'; exact h

theorem opt_kept {e : Option State} {t : State} (h : e = some t) (hk : optKept q n e) : t.kept q n := hk t h

theorem fst_kept {β : Type} {e : State × β} {t : State} {b : β} (h : e = (t, b)) (hk : e.1.kept q n) : t.kept q n := by
  rw [h] at hk; exact hk

theorem snd_kept {β : Type} {e : β × State} {t : State} {b : β} (h : e = (b, t)) (hk : e.2.kept q n) : t.kept q n := by
  rw [h] at hk; exact hk

/-- How a word ends, when the state it ends with fits. -/
def resKept (q : List Instr) (n : Nat) : ActRes → Prop
  | .go s _ => s.kept q n
  | .done s _ => s.kept q n
  | .gone s => s.kept q n
  | .fault _ => True
  | .wait => True

theorem res_go {s : State} {c : ActCtx} (h : s.kept q n) : resKept q n (.go s c) := h

theorem res_done {s : State} {c : ActCtx} (h : s.kept q n) : resKept q n (.done s c) := h

theorem res_gone {s : State} (h : s.kept q n) : resKept q n (.gone s) := h

theorem res_fault {k : Nat} : resKept q n (.fault k) := trivial

theorem res_wait : resKept q n .wait := trivial

theorem kept_ite {c : Prop} [Decidable c] {s t : State} (h : s.kept q n) (k : t.kept q n) :
    State.kept q n (if c then s else t) := by split <;> assumption

theorem opt_ite {c : Prop} [Decidable c] {s t : Option State} (h : optKept q n s) (k : optKept q n t) :
    optKept q n (if c then s else t) := by split <;> assumption

theorem out_ite {c : Prop} [Decidable c] {s t : Host.Outcome State Fault Refusal} (h : outKept q n s) (k : outKept q n t) :
    outKept q n (if c then s else t) := by split <;> assumption

theorem res_ite {c : Prop} [Decidable c] {s t : ActRes} (h : resKept q n s) (k : resKept q n t) :
    resKept q n (if c then s else t) := by split <;> assumption

end Sys2Proof.Machine
end

