-- ==== Sys2Proof/Laws/KeptOps.lean ====
section
/-! SUPPORT. What the definitions of Machine/Ops.lean keep: the queue, the time, the canonical form of memory and registers, and that at
most one half is in CHARGE. -/

set_option linter.unreachableTactic false
set_option linter.unusedTactic false
set_option linter.unusedVariables false

namespace Sys2Proof.Machine
open Sys2Proof

variable {q : List Instr} {n : Nat}

theorem State.wrn_kept {s : State} (a : Nat) (v : Nat) (hk : s.kept q n) :
    (State.wrn s a v).kept q n := by
  unfold State.wrn
  with_reducible repeat' first | assumption | apply State.wr_kept | refine kept_mk ?_

theorem State.setf_kept {s : State} (a : Nat) (f : Fld) (v : Nat) (hk : s.kept q n) :
    (State.setf s a f v).kept q n := by
  unfold State.setf
  with_reducible repeat' first | assumption | apply State.wr_kept | refine kept_mk ?_

theorem State.setb_kept {s : State} (a : Nat) (f : Fld) (b : Bool) (hk : s.kept q n) :
    (State.setb s a f b).kept q n := by
  unfold State.setb
  with_reducible repeat' first | assumption | apply State.setf_kept | refine kept_mk ?_

theorem State.inc_kept {s : State} (a : Nat) (hk : s.kept q n) :
    (State.inc s a).kept q n := by
  unfold State.inc
  with_reducible repeat' first | assumption | apply State.wr_kept | refine kept_mk ?_

theorem State.incMod_kept {s : State} (a : Nat) (f : Fld) (hk : s.kept q n) :
    (State.incMod s a f).kept q n := by
  unfold State.incMod
  with_reducible repeat' first | assumption | apply State.setf_kept | refine kept_mk ?_

theorem State.incSat_kept {s : State} (a : Nat) (f : Fld) (hk : s.kept q n) :
    (State.incSat s a f).kept q n := by
  unfold State.incSat
  with_reducible repeat' first | assumption | apply State.setf_kept | refine kept_ite ?_ ?_ | refine kept_mk ?_

theorem State.wr64_kept {s : State} (lo : Nat) (hi : Nat) (v : Nat) (hk : s.kept q n) :
    (State.wr64 s lo hi v).kept q n := by
  unfold State.wr64
  with_reducible repeat' first | assumption | apply State.wrn_kept | refine kept_mk ?_

theorem State.putbs_kept {s : State} (a : Nat) (bs : List Byte) (h : s.kept q n) : (s.putbs a bs).kept q n := by
  induction bs generalizing s a with
  | nil => exact h
  | cons b bs ih => exact ih _ (State.putb_kept h a b)

theorem State.ok_kept {s : State} (v : Nat) (hk : s.kept q n) :
    (State.ok s v).kept q n := by
  unfold State.ok
  with_reducible repeat' first | assumption | refine kept_mk ?_

theorem State.emit_kept {s : State} (o : Output) (hk : s.kept q n) :
    (State.emit s o).kept q n := by
  unfold State.emit
  with_reducible repeat' first | assumption | refine kept_mk ?_

theorem State.emitField_kept {s : State} (x1 : Half) (o : Output) (hk : s.kept q n) :
    (State.emitField s x1 o).kept q n := by
  unfold State.emitField
  with_reducible repeat' first | assumption | apply State.emit_kept | refine kept_ite ?_ ?_ | split | refine fst_kept (by assumption) ?_ | refine snd_kept (by assumption) ?_ | refine opt_kept (by assumption) ?_ | refine kept_mk ?_

theorem State.noteBefore_kept {s : State} (m : Nat) (a : Nat) (hk : s.kept q n) :
    (State.noteBefore s m a).kept q n := by
  unfold State.noteBefore
  with_reducible repeat' first | assumption | intro _ | refine kept_ite ?_ ?_ | split | refine fst_kept (by assumption) ?_ | refine snd_kept (by assumption) ?_ | refine opt_kept (by assumption) ?_ | refine kept_mk ?_

theorem State.wrUnlessWritten_kept {s : State} (a : Nat) (v : Nat) (hk : s.kept q n) :
    (State.wrUnlessWritten s a v).kept q n := by
  unfold State.wrUnlessWritten
  with_reducible repeat' first | assumption | apply State.wrn_kept | refine kept_ite ?_ ?_ | refine kept_mk ?_

theorem State.useFree_kept {s : State} (hk : s.kept q n) :
    (State.useFree s).kept q n := by
  unfold State.useFree
  with_reducible repeat' first | assumption | refine kept_mk ?_

theorem State.putEng_kept {s : State} (i : Nat) (e : Engine) (hk : s.kept q n) :
    (State.putEng s i e).kept q n := by
  unfold State.putEng
  with_reducible repeat' first | assumption | refine kept_mk ?_

theorem State.mapEng_kept {s : State} (i : Nat) (f : Engine → Engine) (hk : s.kept q n) :
    (State.mapEng s i f).kept q n := by
  unfold State.mapEng
  with_reducible repeat' first | assumption | apply State.putEng_kept | refine kept_mk ?_

theorem State.putCan_kept {s : State} (c : Nat) (x : Cx) (hk : s.kept q n) :
    (State.putCan s c x).kept q n := by
  unfold State.putCan
  with_reducible repeat' first | assumption | refine kept_mk ?_

theorem State.mapCan_kept {s : State} (c : Nat) (f : Cx → Cx) (hk : s.kept q n) :
    (State.mapCan s c f).kept q n := by
  unfold State.mapCan
  with_reducible repeat' first | assumption | apply State.putCan_kept | refine kept_mk ?_

theorem State.putHook_kept {s : State} (e : Nat) (x : Hook) (hk : s.kept q n) :
    (State.putHook s e x).kept q n := by
  unfold State.putHook
  with_reducible repeat' first | assumption | refine kept_mk ?_

theorem State.mapHook_kept {s : State} (e : Nat) (f : Hook → Hook) (hk : s.kept q n) :
    (State.mapHook s e f).kept q n := by
  unfold State.mapHook
  with_reducible repeat' first | assumption | apply State.putHook_kept | refine kept_mk ?_

theorem State.putPort_kept {s : State} (p : Nat) (x : Port) (hk : s.kept q n) :
    (State.putPort s p x).kept q n := by
  unfold State.putPort
  with_reducible repeat' first | assumption | refine kept_mk ?_

theorem State.mapPort_kept {s : State} (p : Nat) (f : Port → Port) (hk : s.kept q n) :
    (State.mapPort s p f).kept q n := by
  unfold State.mapPort
  with_reducible repeat' first | assumption | apply State.putPort_kept | refine kept_mk ?_

theorem State.putPlane_kept {s : State} (x1 : Half) (x : Plane) (hk : s.kept q n) :
    (State.putPlane s x1 x).kept q n := by
  unfold State.putPlane
  with_reducible repeat' first | assumption | split | refine fst_kept (by assumption) ?_ | refine snd_kept (by assumption) ?_ | refine opt_kept (by assumption) ?_ | refine kept_mk ?_

theorem State.mapPlane_kept {s : State} (x1 : Half) (f : Plane → Plane) (hk : s.kept q n) :
    (State.mapPlane s x1 f).kept q n := by
  unfold State.mapPlane
  with_reducible repeat' first | assumption | apply State.putPlane_kept | refine kept_mk ?_

theorem State.putEp_kept {s : State} (x1 : Half) (x : Endpoint) (hk : s.kept q n) :
    (State.putEp s x1 x).kept q n := by
  unfold State.putEp
  with_reducible repeat' first | assumption | split | refine fst_kept (by assumption) ?_ | refine snd_kept (by assumption) ?_ | refine opt_kept (by assumption) ?_ | refine kept_mk ?_

theorem State.mapEp_kept {s : State} (x1 : Half) (f : Endpoint → Endpoint) (hk : s.kept q n) :
    (State.mapEp s x1 f).kept q n := by
  unfold State.mapEp
  with_reducible repeat' first | assumption | apply State.putEp_kept | refine kept_mk ?_

theorem State.putDram_kept {s : State} (x1 : Half) (x : DramPort) (hk : s.kept q n) :
    (State.putDram s x1 x).kept q n := by
  unfold State.putDram
  with_reducible repeat' first | assumption | split | refine fst_kept (by assumption) ?_ | refine snd_kept (by assumption) ?_ | refine opt_kept (by assumption) ?_ | refine kept_mk ?_

theorem State.putHrst_kept {s : State} (x1 : Half) (x : HalfRst) (hk : s.kept q n) :
    (State.putHrst s x1 x).kept q n := by
  unfold State.putHrst
  with_reducible repeat' first | assumption | split | refine fst_kept (by assumption) ?_ | refine snd_kept (by assumption) ?_ | refine opt_kept (by assumption) ?_ | refine kept_mk ?_

theorem State.putHart_kept {s : State} (x1 : Nat) (x : Hart) (hk : s.kept q n) :
    (State.putHart s x1 x).kept q n := by
  unfold State.putHart
  with_reducible repeat' first | assumption | refine kept_mk ?_

theorem State.mapHart_kept {s : State} (x1 : Nat) (f : Hart → Hart) (hk : s.kept q n) :
    (State.mapHart s x1 f).kept q n := by
  unfold State.mapHart
  with_reducible repeat' first | assumption | apply State.putHart_kept | refine kept_mk ?_

theorem State.hartLatch_kept {s : State} (f : Nat → Bool) (bit : Nat) (hk : s.kept q n) :
    (State.hartLatch s f bit).kept q n := by
  unfold State.hartLatch
  with_reducible repeat' first | assumption | apply State.mapHart_kept | apply foldl_kept | intro _ | refine kept_ite ?_ ?_ | split | refine fst_kept (by assumption) ?_ | refine snd_kept (by assumption) ?_ | refine opt_kept (by assumption) ?_ | refine kept_mk ?_

theorem State.putDom_kept {s : State} (d : Nat) (x : Dom) (hk : s.kept q n) :
    (State.putDom s d x).kept q n := by
  unfold State.putDom
  with_reducible repeat' first | assumption | refine kept_mk ?_

end Sys2Proof.Machine
end

