-- ==== Sys2Proof/Laws/KeptFlags.lean ====
section
/-! SUPPORT. What the definitions of Machine/Flags.lean keep: the queue, the time, the canonical form of memory and registers, and that at
most one half is in CHARGE. -/

set_option linter.unreachableTactic false
set_option linter.unusedTactic false
set_option linter.unusedVariables false

namespace Sys2Proof.Machine
open Sys2Proof

variable {q : List Instr} {n : Nat}

theorem State.larderEvent_kept {s : State} (typ : Nat) (cls : Nat) (source : Nat) (payload : List Byte) (ext : List Byte) (hk : s.kept q n) :
    (State.larderEvent s typ cls source payload ext).kept q n := by
  unfold State.larderEvent
  with_reducible repeat' first | assumption | refine kept_ite ?_ ?_ | refine kept_mk ?_

theorem State.netEvent_kept {s : State} (source : Nat) (kind : Nat) (hk : s.kept q n) :
    (State.netEvent s source kind).kept q n := by
  unfold State.netEvent
  with_reducible repeat' first | assumption | apply State.larderEvent_kept | refine kept_mk ?_

theorem State.freezeTrigger_kept {s : State} (hk : s.kept q n) :
    (State.freezeTrigger s).kept q n := by
  unfold State.freezeTrigger
  with_reducible repeat' first | assumption | apply State.inc_kept | apply State.larderEvent_kept | apply State.setb_kept | apply State.wr64_kept | refine kept_ite ?_ ?_ | split | refine fst_kept (by assumption) ?_ | refine snd_kept (by assumption) ?_ | refine opt_kept (by assumption) ?_ | refine kept_mk ?_

theorem State.wrWords_kept {s : State} (a : Nat) (ws : List Nat) (h : s.kept q n) : (s.wrWords a ws).kept q n := by
  induction ws generalizing s a with
  | nil => exact h
  | cons w ws ih => exact ih _ (State.wrn_kept a w h)

theorem State.faultD_kept {s : State} (code : Nat) (cls : Nat) (origin : Nat) (source : Nat) (d5 : Nat) (d6 : Nat) (d7 : Nat) (hk : s.kept q n) :
    (State.faultD s code cls origin source d5 d6 d7).kept q n := by
  unfold State.faultD
  with_reducible repeat' first | assumption | apply State.freezeTrigger_kept | apply State.inc_kept | apply State.incMod_kept | apply State.larderEvent_kept | apply State.setb_kept | apply State.wrWords_kept | refine kept_ite ?_ ?_ | refine kept_mk ?_

theorem State.fault_kept {s : State} (code : Nat) (cls : Nat) (origin : Nat) (source : Nat) (hk : s.kept q n) :
    (State.fault s code cls origin source).kept q n := by
  unfold State.fault
  with_reducible repeat' first | assumption | apply State.faultD_kept | refine kept_mk ?_

theorem State.diagF3_kept {s : State} (x1 : Half) (code : Nat) (source : Nat) (d5 : Nat) (d6 : Nat) (hk : s.kept q n) :
    (State.diagF3 s x1 code source d5 d6).kept q n := by
  unfold State.diagF3
  with_reducible repeat' first | assumption | apply State.faultD_kept | apply State.mapEp_kept | intro _ | refine kept_ite ?_ ?_ | refine kept_mk ?_

theorem State.logErr_kept {s : State} (e : ErrRec) (hk : s.kept q n) :
    (State.logErr s e).kept q n := by
  unfold State.logErr
  with_reducible repeat' first | assumption | apply State.wrn_kept | refine kept_mk ?_

theorem State.hartExc_kept {s : State} (k : Nat) (code : Nat) (tval : Nat) (hk : s.kept q n) :
    (State.hartExc s k code tval).kept q n := by
  unfold State.hartExc
  with_reducible repeat' first | assumption | apply State.mapHart_kept | intro _ | refine kept_mk ?_

theorem State.busErr_kept {s : State} (master : Nat) (addr : Nat) (write : Bool) (cause : Nat) (hk : s.kept q n) :
    (State.busErr s master addr write cause).kept q n := by
  unfold State.busErr
  with_reducible repeat' first | assumption | apply State.faultD_kept | apply State.hartExc_kept | apply State.inc_kept | apply State.logErr_kept | refine kept_ite ?_ ?_ | split | refine fst_kept (by assumption) ?_ | refine snd_kept (by assumption) ?_ | refine opt_kept (by assumption) ?_ | refine kept_mk ?_

theorem State.busErrClear_kept {s : State} (hk : s.kept q n) :
    (State.busErrClear s).kept q n := by
  unfold State.busErrClear
  with_reducible repeat' first | assumption | apply State.faultD_kept | apply State.logErr_kept | apply State.setf_kept | refine kept_ite ?_ ?_ | split | refine fst_kept (by assumption) ?_ | refine snd_kept (by assumption) ?_ | refine opt_kept (by assumption) ?_ | refine kept_mk ?_

theorem State.busErrCount_kept {s : State} (v : Nat) (hk : s.kept q n) :
    (State.busErrCount s v).kept q n := by
  unfold State.busErrCount
  with_reducible repeat' first | assumption | apply State.wrn_kept | refine kept_mk ?_

end Sys2Proof.Machine
end

