-- ==== Sys2Proof/Laws/KeptOperands.lean ====
section
/-! SUPPORT. What the definitions of Machine/Operands.lean keep: the queue, the time, the canonical form of memory and registers, and that at
most one half is in CHARGE. -/

set_option linter.unreachableTactic false
set_option linter.unusedTactic false
set_option linter.unusedVariables false

namespace Sys2Proof.Machine
open Sys2Proof

variable {q : List Instr} {n : Nat}

theorem State.guardReg_kept {s : State} (m : Nat) (a : Nat) (f : State → State) (hk : s.kept q n) (hf : ∀ (t : State), t.kept q n → (f t ).kept q n) :
    (State.guardReg s m a f).kept q n := by
  unfold State.guardReg
  with_reducible repeat' first | assumption | apply hf | apply State.busErr_kept | apply State.ok_kept | refine kept_ite ?_ ?_ | split | refine fst_kept (by assumption) ?_ | refine snd_kept (by assumption) ?_ | refine opt_kept (by assumption) ?_ | refine kept_mk ?_

theorem State.plainWrite_kept {s : State} (a : Nat) (v : Word) (hk : s.kept q n) :
    (State.plainWrite s a v).kept q n := by
  unfold State.plainWrite
  with_reducible repeat' first | assumption | apply State.wr_kept | split | refine fst_kept (by assumption) ?_ | refine snd_kept (by assumption) ?_ | refine opt_kept (by assumption) ?_ | refine kept_mk ?_

end Sys2Proof.Machine
end

