-- ==== Sys2Proof/Laws/KeptMemory.lean ====
section
/-! SUPPORT. What the definitions of Machine/Memory.lean keep: the queue, the time, the canonical form of memory and registers, and that at
most one half is in CHARGE. -/

set_option linter.unreachableTactic false
set_option linter.unusedTactic false
set_option linter.unusedVariables false

namespace Sys2Proof.Machine
open Sys2Proof

variable {q : List Instr} {n : Nat}

theorem State.markDirty_kept {s : State} (x1 : Half) (off : Nat) (x3 : Nat) (hk : s.kept q n) :
    (State.markDirty s x1 off x3).kept q n := by
  unfold State.markDirty
  with_reducible repeat' first | assumption | apply foldl_kept | intro _ | refine kept_ite ?_ ?_ | split | refine fst_kept (by assumption) ?_ | refine snd_kept (by assumption) ?_ | refine opt_kept (by assumption) ?_ | refine kept_mk ?_

theorem State.spadPut_kept {s : State} (a : Nat) (bs : List Byte) (hk : s.kept q n) :
    (State.spadPut s a bs).kept q n := by
  unfold State.spadPut
  with_reducible repeat' first | assumption | apply State.markDirty_kept | apply State.putbs_kept | refine kept_mk ?_

theorem State.spadPutWords_kept {s : State} (a : Nat) (ws : List (List Byte)) (h : s.kept q n) :
    (s.spadPutWords a ws).kept q n := by
  induction ws generalizing s a with
  | nil => exact h
  | cons w ws ih => exact ih _ (State.spadPut_kept a w h)

theorem State.spadSingle_kept {s : State} (x1 : Half) (a : Nat) (source : Nat) (hk : s.kept q n) :
    (State.spadSingle s x1 a source).kept q n := by
  unfold State.spadSingle
  with_reducible repeat' first | assumption | apply State.faultD_kept | apply State.inc_kept | refine kept_mk ?_

theorem State.spadDouble_kept {s : State} (x1 : Half) (a : Nat) (source : Nat) (hk : s.kept q n) :
    (State.spadDouble s x1 a source).kept q n := by
  unfold State.spadDouble
  with_reducible repeat' first | assumption | apply State.diagF3_kept | apply State.setf_kept | refine kept_mk ?_

theorem State.spadLost_kept {s : State} (x1 : Half) (a : Nat) (master : Nat) (hk : s.kept q n) :
    (State.spadLost s x1 a master).kept q n := by
  unfold State.spadLost
  with_reducible repeat' first | assumption | apply State.inc_kept | apply State.setf_kept | refine kept_ite ?_ ?_ | refine kept_mk ?_

theorem State.spadPiece_kept {s : State} (x1 : Half) (master : Nat) (a : Nat) (bs : Option (List Byte)) (lost : Bool) (e : Ecc) (hk : s.kept q n) :
    (State.spadPiece s x1 master a bs lost e).1.kept q n := by
  unfold State.spadPiece
  with_reducible repeat' first | assumption | apply State.spadDouble_kept | apply State.spadLost_kept | apply State.spadPut_kept | apply State.spadSingle_kept | refine kept_ite ?_ ?_ | split | refine fst_kept (by assumption) ?_ | refine snd_kept (by assumption) ?_ | refine opt_kept (by assumption) ?_ | refine kept_mk ?_

theorem State.delivered_kept {s : State} (m : Nat) (a : Nat) (r : Resp) (hk : s.kept q n) :
    (State.delivered s m a r).kept q n := by
  unfold State.delivered
  with_reducible repeat' first | assumption | apply State.hartExc_kept | refine kept_ite ?_ ?_ | split | refine fst_kept (by assumption) ?_ | refine snd_kept (by assumption) ?_ | refine opt_kept (by assumption) ?_ | refine kept_mk ?_

theorem State.spadPort_kept {s : State} (o : SpadOp) (lost : Nat → Bool) (hk : s.kept q n) :
    (State.spadPort s o lost).1.kept q n := by
  unfold State.spadPort
  with_reducible repeat' first | assumption | apply State.busErr_kept | apply State.delivered_kept | apply State.inc_kept | apply State.ok_kept | apply State.spadPiece_kept | (fail_if_no_progress (extract_lets +onlyGivenNames x); first | (refine kept_bind (q := q) (n := n) (x := x) ?_ (fun _ => ?_); on_goal 2 => clear_value x; on_goal 1 => unfold x) | skip) | refine kept_ite ?_ ?_ | split | refine fst_kept (by assumption) ?_ | refine snd_kept (by assumption) ?_ | refine opt_kept (by assumption) ?_ | refine kept_mk ?_

theorem State.spadAccess_kept {s : State} (o : SpadOp) (hk : s.kept q n) :
    (State.spadAccess s o).kept q n := by
  unfold State.spadAccess
  with_reducible repeat' first | assumption | apply State.spadPort_kept | intro _ | split | refine fst_kept (by assumption) ?_ | refine snd_kept (by assumption) ?_ | refine opt_kept (by assumption) ?_ | refine kept_mk ?_

theorem State.vaultAccess_kept {s : State} (m : Nat) (a : Nat) (x3 : Nat) (write : Bool) (data : List Byte) (hk : s.kept q n) :
    (State.vaultAccess s m a x3 write data).kept q n := by
  unfold State.vaultAccess
  with_reducible repeat' first | assumption | apply State.busErr_kept | apply State.ok_kept | apply State.putbs_kept | refine kept_ite ?_ ?_ | split | refine fst_kept (by assumption) ?_ | refine snd_kept (by assumption) ?_ | refine opt_kept (by assumption) ?_ | refine kept_mk ?_

theorem State.vaultWipe_kept {s : State} (cause : Nat) (hk : s.kept q n) :
    (State.vaultWipe s cause).kept q n := by
  unfold State.vaultWipe
  with_reducible repeat' first | assumption | apply State.clearMem_kept | apply State.setf_kept | refine kept_mk ?_

theorem State.vaultWiped_kept {s : State} (hk : s.kept q n) :
    (State.vaultWiped s).kept q n := by
  unfold State.vaultWiped
  with_reducible repeat' first | assumption | apply State.clearMem_kept | apply State.inc_kept | apply State.resetRegs_kept | apply State.setf_kept | split | refine fst_kept (by assumption) ?_ | refine snd_kept (by assumption) ?_ | refine opt_kept (by assumption) ?_ | refine kept_mk ?_

theorem State.granule_kept {s : State} (x1 : Half) (a : Nat) (hk : s.kept q n) :
    (State.granule s x1 a).kept q n := by
  unfold State.granule
  with_reducible repeat' first | assumption | apply State.putDram_kept | refine kept_ite ?_ ?_ | refine kept_mk ?_

theorem State.dramCorrected_kept {s : State} (x1 : Half) (a : Nat) (source : Nat) (hk : s.kept q n) :
    (State.dramCorrected s x1 a source).kept q n := by
  unfold State.dramCorrected
  with_reducible repeat' first | assumption | apply State.faultD_kept | apply State.inc_kept | refine kept_mk ?_

theorem State.dramDouble_kept {s : State} (x1 : Half) (a : Nat) (source : Nat) (hk : s.kept q n) :
    (State.dramDouble s x1 a source).kept q n := by
  unfold State.dramDouble
  with_reducible repeat' first | assumption | apply State.diagF3_kept | apply State.inc_kept | apply State.setf_kept | apply State.wr64_kept | refine kept_mk ?_

theorem State.dramPut_kept {s : State} (a : Nat) (bs : List Byte) (hs : List Half) (h : s.kept q n) :
    (s.dramPut a bs hs).kept q n := by
  induction hs generalizing s with
  | nil => exact h
  | cons x hs ih => exact ih (State.putbs_kept _ _ (State.granule_kept x a h))

theorem State.incHartEcc_kept {s : State} (x1 : Half) (hk : s.kept q n) :
    (State.incHartEcc s x1).kept q n := by
  unfold State.incHartEcc
  with_reducible repeat' first | assumption | split | refine fst_kept (by assumption) ?_ | refine snd_kept (by assumption) ?_ | refine opt_kept (by assumption) ?_ | refine kept_mk ?_

theorem State.cacheErr_kept {s : State} (m : Nat) (a : Nat) (x3 : Option CacheErr) (hk : s.kept q n) :
    (State.cacheErr s m a x3).1.kept q n := by
  rcases x3 with _ | _ | _ | _ | _ | v
  · exact hk
  · exact State.faultD_kept _ _ _ _ _ _ _ (State.incHartEcc_kept _ hk)
  · exact State.faultD_kept _ _ _ _ _ _ _ (State.incHartEcc_kept _ hk)
  · exact State.faultD_kept _ _ _ _ _ _ _ (State.incHartEcc_kept _ hk)
  · exact State.diagF3_kept _ _ _ _ _ (State.hartExc_kept _ _ _ hk)
  · exact hk

theorem State.dramAccess_kept {s : State} (m : Nat) (a : Nat) (x3 : Nat) (write : Bool) (data : List Byte) (e : Ecc) (other : Ecc) (hk : s.kept q n) :
    (State.dramAccess s m a x3 write data e other).kept q n := by
  unfold State.dramAccess
  with_reducible repeat' first | assumption | apply State.busErr_kept | apply State.delivered_kept | apply State.dramCorrected_kept | apply State.dramDouble_kept | apply State.dramPut_kept | apply State.granule_kept | apply State.ok_kept | apply State.putbs_kept | refine kept_ite ?_ ?_ | split | refine fst_kept (by assumption) ?_ | refine snd_kept (by assumption) ?_ | refine opt_kept (by assumption) ?_ | refine kept_mk ?_

theorem State.hartLoad_kept {s : State} (m a x : Nat) (e : BusEnv) (hk : s.kept q n) : (s.hartLoad m a x e).kept q n := by
  unfold State.hartLoad
  split
  · exact State.ok_kept _ hk
  · exact State.dramAccess_kept _ _ _ _ _ _ _ hk

theorem State.dramBus_kept {s : State} (m : Nat) (a : Nat) (x3 : Nat) (write : Bool) (data : List Byte) (e : BusEnv) (hk : s.kept q n) :
    (State.dramBus s m a x3 write data e).kept q n := by
  unfold State.dramBus
  with_reducible repeat' first | assumption | apply State.cacheErr_kept | apply State.hartLoad_kept | apply State.dramAccess_kept | apply State.hartExc_kept | refine kept_ite ?_ ?_ | split | refine fst_kept (by assumption) ?_ | refine snd_kept (by assumption) ?_ | refine opt_kept (by assumption) ?_ | refine kept_mk ?_

end Sys2Proof.Machine
end

