-- ==== Sys2Proof/Laws/KeptFuse.lean ====
section
/-! SUPPORT. What the definitions of Machine/Fuse.lean keep: the queue, the time, the canonical form of memory and registers, and that at
most one half is in CHARGE. -/

set_option linter.unreachableTactic false
set_option linter.unusedTactic false
set_option linter.unusedVariables false

namespace Sys2Proof.Machine
open Sys2Proof

variable {q : List Instr} {n : Nat}

theorem State.padLeave_kept {s : State} (x1 : Half) (x2 : Nat) (hk : s.kept q n) :
    (State.padLeave s x1 x2).kept q n := by
  unfold State.padLeave
  with_reducible repeat' first | assumption | refine kept_ite ?_ ?_ | refine kept_mk ?_

theorem State.padLeaveShared_kept {s : State} (x1 : Nat) (hk : s.kept q n) :
    (State.padLeaveShared s x1).kept q n := by
  unfold State.padLeaveShared
  with_reducible repeat' first | assumption | refine kept_mk ?_

theorem State.padReturn_kept {s : State} (x1 : Half) (x2 : Nat) (hk : s.kept q n) :
    (State.padReturn s x1 x2).kept q n := by
  unfold State.padReturn
  with_reducible repeat' first | assumption | intro _ | refine kept_mk ?_

theorem State.padsReset_kept {s : State} (x1 : Half) (hk : s.kept q n) :
    (State.padsReset s x1).kept q n := by
  unfold State.padsReset
  with_reducible repeat' first | assumption | intro _ | refine kept_mk ?_

theorem State.sampleStraps_kept {s : State} (hk : s.kept q n) :
    (State.sampleStraps s).kept q n := by
  unfold State.sampleStraps
  with_reducible repeat' first | assumption | apply State.setf_kept | apply State.wrn_kept | refine kept_mk ?_

theorem State.loadLc_kept {s : State} (hk : s.kept q n) :
    (State.loadLc s).kept q n := by
  unfold State.loadLc
  with_reducible repeat' first | assumption | apply State.setf_kept | refine kept_mk ?_

end Sys2Proof.Machine
end

