-- ==== Sys2Proof/Laws/KeptNeedleCore.lean ====
section
/-! SUPPORT. What the definitions of Machine/NeedleCore.lean keep: the queue, the time, the canonical form of memory and registers, and that at
most one half is in CHARGE. -/

set_option linter.unreachableTactic false
set_option linter.unusedTactic false
set_option linter.unusedVariables false

namespace Sys2Proof.Machine
open Sys2Proof

variable {q : List Instr} {n : Nat}

theorem State.neStage_kept {s : State} (i : Nat) (source : Nat) (status : Nat) (flow : Nat) (stamp : Nat) (data : List Byte) (hk : s.kept q n) :
    (State.neStage s i source status flow stamp data).kept q n := by
  unfold State.neStage
  with_reducible repeat' first | assumption | apply State.inc_kept | apply State.putEng_kept | refine kept_ite ?_ ?_ | refine kept_mk ?_

theorem State.nePend_kept {s : State} (i : Nat) (p : Pend) (hk : s.kept q n) :
    (State.nePend s i p).kept q n := by
  unfold State.nePend
  with_reducible repeat' first | assumption | apply State.inc_kept | apply State.putEng_kept | intro _ | refine kept_ite ?_ ?_ | refine kept_mk ?_

theorem State.neTwin_kept {s : State} (i : Nat) (f0 : Nat) (hk : s.kept q n) :
    (State.neTwin s i f0).kept q n := by
  unfold State.neTwin
  with_reducible repeat' first | assumption | apply State.inc_kept | apply State.putEng_kept | intro _ | refine kept_ite ?_ ?_ | refine kept_mk ?_

theorem State.rings_kept {s : State} (i : Nat) (bits : Nat) (hk : s.kept q n) :
    (State.rings s i bits).kept q n := by
  unfold State.rings
  with_reducible repeat' first | assumption | apply State.mapEng_kept | intro _ | refine kept_ite ?_ ?_ | split | refine fst_kept (by assumption) ?_ | refine snd_kept (by assumption) ?_ | refine opt_kept (by assumption) ?_ | refine kept_mk ?_

theorem State.neBell_kept {s : State} (i : Nat) (bits : Nat) (hk : s.kept q n) :
    (State.neBell s i bits).kept q n := by
  unfold State.neBell
  with_reducible repeat' first | assumption | apply State.inc_kept | apply State.nePend_kept | apply State.rings_kept | apply State.wrn_kept | apply foldl_kept | intro _ | refine kept_ite ?_ ?_ | split | refine fst_kept (by assumption) ?_ | refine snd_kept (by assumption) ?_ | refine opt_kept (by assumption) ?_ | refine kept_mk ?_

theorem State.neStatusPort_kept {s : State} (x1 : Half) (x2 : Nat) (hk : s.kept q n) :
    (State.neStatusPort s x1 x2).kept q n := by
  unfold State.neStatusPort
  with_reducible repeat' first | assumption | apply State.nePend_kept | apply foldl_kept | intro _ | refine kept_ite ?_ ?_ | refine kept_mk ?_

theorem State.neCompare_kept {s : State} (k : Nat) (hk : s.kept q n) :
    (State.neCompare s k).kept q n := by
  unfold State.neCompare
  with_reducible repeat' first | assumption | apply State.nePend_kept | apply foldl_kept | intro _ | refine kept_ite ?_ ?_ | refine kept_mk ?_

theorem State.dropTx_kept {s : State} (i : Nat) (hk : s.kept q n) :
    (State.dropTx s i).kept q n := by
  unfold State.dropTx
  with_reducible repeat' first | assumption | apply State.mapPlane_kept | intro _ | refine kept_mk ?_

theorem State.stopDma_kept {s : State} (i : Nat) (hk : s.kept q n) :
    (State.stopDma s i).kept q n := by
  unfold State.stopDma
  with_reducible repeat' first | assumption | apply State.putEng_kept | intro _ | refine kept_mk ?_

theorem State.neFault_kept {s : State} (i : Nat) (cause : Nat) (st : Nat) (act : Nat) (hk : s.kept q n) :
    (State.neFault s i cause st act).kept q n := by
  unfold State.neFault
  with_reducible repeat' first | assumption | apply State.dropTx_kept | apply State.fault_kept | apply State.mapEng_kept | apply State.setf_kept | apply State.stopDma_kept | apply State.wrn_kept | intro _ | refine kept_mk ?_

end Sys2Proof.Machine
end

