-- ==== Sys2Proof/Laws/KeptGaugeCore.lean ====
section
/-! SUPPORT. What the definitions of Machine/GaugeCore.lean keep: the queue, the time, the canonical form of memory and registers, and that at
most one half is in CHARGE. -/

set_option linter.unreachableTactic false
set_option linter.unusedTactic false
set_option linter.unusedVariables false

namespace Sys2Proof.Machine
open Sys2Proof

variable {q : List Instr} {n : Nat}

theorem State.tscChange_kept {s : State} (p : Nat) (hk : s.kept q n) :
    (State.tscChange s p).kept q n := by
  unfold State.tscChange
  with_reducible repeat' first | assumption | intro _ | refine kept_mk ?_

end Sys2Proof.Machine
end

