-- ==== Sys2Proof/Laws/KeptCxCore.lean ====
section
/-! SUPPORT. What the definitions of Machine/CxCore.lean keep: the queue, the time, the canonical form of memory and registers, and that at
most one half is in CHARGE. -/

set_option linter.unreachableTactic false
set_option linter.unusedTactic false
set_option linter.unusedVariables false

namespace Sys2Proof.Machine
open Sys2Proof

variable {q : List Instr} {n : Nat}

theorem State.cxStatus_kept {s : State} (c : Nat) (hk : s.kept q n) :
    (State.cxStatus s c).kept q n := by
  unfold State.cxStatus
  with_reducible repeat' first | assumption | apply State.mapCan_kept | apply State.nePend_kept | apply State.netEvent_kept | apply State.setf_kept | intro _ | refine kept_ite ?_ ?_ | split | refine fst_kept (by assumption) ?_ | refine snd_kept (by assumption) ?_ | refine opt_kept (by assumption) ?_ | refine kept_mk ?_

theorem State.cxBus_kept {s : State} (c : Nat) (hk : s.kept q n) :
    (State.cxBus s c).kept q n := by
  unfold State.cxBus
  with_reducible repeat' first | assumption | apply State.setf_kept | refine kept_ite ?_ ?_ | refine kept_mk ?_

theorem State.dttForget_kept {s : State} (c : Nat) (timer : Bool) (hk : s.kept q n) :
    (State.dttForget s c timer).kept q n := by
  unfold State.dttForget
  with_reducible repeat' first | assumption | apply State.mapCan_kept | intro _ | refine kept_ite ?_ ?_ | split | refine fst_kept (by assumption) ?_ | refine snd_kept (by assumption) ?_ | refine opt_kept (by assumption) ?_ | refine kept_mk ?_

theorem State.dttEnter_kept {s : State} (c : Nat) (st : Nat) (hk : s.kept q n) :
    (State.dttEnter s c st).kept q n := by
  unfold State.dttEnter
  with_reducible repeat' first | assumption | apply State.cxStatus_kept | apply State.fault_kept | apply State.inc_kept | apply State.setf_kept | refine kept_ite ?_ ?_ | refine kept_mk ?_

theorem State.dttListen_kept {s : State} (c : Nat) (timer : Bool) (hk : s.kept q n) :
    (State.dttListen s c timer).kept q n := by
  unfold State.dttListen
  with_reducible repeat' first | assumption | apply State.dttEnter_kept | apply State.dttForget_kept | refine kept_mk ?_

theorem State.cxBusOff_kept {s : State} (c : Nat) (hk : s.kept q n) :
    (State.cxBusOff s c).kept q n := by
  unfold State.cxBusOff
  with_reducible repeat' first | assumption | apply State.cxBus_kept | apply State.cxStatus_kept | apply State.dttListen_kept | apply State.fault_kept | apply State.inc_kept | apply State.mapCan_kept | apply State.setf_kept | intro _ | refine kept_ite ?_ ?_ | refine kept_mk ?_

theorem State.cxTxErr_kept {s : State} (c : Nat) (hk : s.kept q n) :
    (State.cxTxErr s c).kept q n := by
  unfold State.cxTxErr
  with_reducible repeat' first | assumption | apply State.cxBus_kept | apply State.cxBusOff_kept | apply State.inc_kept | apply State.setf_kept | refine kept_ite ?_ ?_ | refine kept_mk ?_

theorem State.cxTxOk_kept {s : State} (c : Nat) (hk : s.kept q n) :
    (State.cxTxOk s c).kept q n := by
  unfold State.cxTxOk
  with_reducible repeat' first | assumption | apply State.cxBus_kept | apply State.inc_kept | apply State.setf_kept | refine kept_mk ?_

theorem State.cxRxCount_kept {s : State} (c : Nat) (err : Bool) (hk : s.kept q n) :
    (State.cxRxCount s c err).kept q n := by
  unfold State.cxRxCount
  with_reducible repeat' first | assumption | apply State.cxBus_kept | apply State.inc_kept | apply State.setf_kept | refine kept_ite ?_ ?_ | refine kept_mk ?_

theorem State.cxFill_kept {s : State} (c : Nat) (f : CxFrame) (h : s.kept q n) : optKept q n (s.cxFill c f) := by
  unfold State.cxFill
  split
  · exact opt_some (State.mapCan_kept c _ h)
  · exact opt_none

theorem State.cxStage_kept {s : State} (c : Nat) (flow : Nat) (stamp : Nat) (f : CxFrame) (hk : s.kept q n) :
    (State.cxStage s c flow stamp f).kept q n := by
  unfold State.cxStage
  with_reducible repeat' first | assumption | apply State.inc_kept | apply State.neStage_kept | split | refine fst_kept (by assumption) ?_ | refine snd_kept (by assumption) ?_ | refine opt_kept (by assumption) ?_ | refine kept_mk ?_

theorem State.cxAccept_kept {s : State} (c : Nat) (stamp : Nat) (f : CxFrame) (hk : s.kept q n) :
    (State.cxAccept s c stamp f).kept q n := by
  unfold State.cxAccept
  with_reducible repeat' first | assumption | apply State.cxStage_kept | apply State.inc_kept | intro _ | refine kept_ite ?_ ?_ | split | refine fst_kept (by assumption) ?_ | refine snd_kept (by assumption) ?_ | refine opt_kept (by assumption) ?_ | refine kept_mk ?_

theorem State.stitchWrite_kept {s : State} (c : Nat) (st : Nat) (data : List Byte) (ready : Nat) (hk : s.kept q n) :
    (State.stitchWrite s c st data ready).kept q n := by
  unfold State.stitchWrite
  with_reducible repeat' first | assumption | apply State.inc_kept | apply State.mapCan_kept | intro _ | refine kept_ite ?_ ?_ | split | refine fst_kept (by assumption) ?_ | refine snd_kept (by assumption) ?_ | refine opt_kept (by assumption) ?_ | refine kept_mk ?_

end Sys2Proof.Machine
end

