-- ==== Sys2Proof/Laws/KeptColCore.lean ====
section
/-! SUPPORT. What the definitions of Machine/ColCore.lean keep: the queue, the time, the canonical form of memory and registers, and that at
most one half is in CHARGE. -/

set_option linter.unreachableTactic false
set_option linter.unusedTactic false
set_option linter.unusedVariables false

namespace Sys2Proof.Machine
open Sys2Proof

variable {q : List Instr} {n : Nat}

theorem State.putColQueue_kept {s : State} (x1 : Half) (x2 : List Copy) (hk : s.kept q n) :
    (State.putColQueue s x1 x2).kept q n := by
  unfold State.putColQueue
  with_reducible repeat' first | assumption | apply State.setf_kept | split | refine fst_kept (by assumption) ?_ | refine snd_kept (by assumption) ?_ | refine opt_kept (by assumption) ?_ | refine kept_mk ?_

theorem State.incBy_kept {s : State} (a : Nat) (x2 : Nat) (hk : s.kept q n) :
    (State.incBy s a x2).kept q n := by
  unfold State.incBy
  with_reducible repeat' first | assumption | apply State.wrn_kept | refine kept_mk ?_

theorem State.colDiscard_kept {s : State} (x1 : Half) (f : Copy → Bool) (hk : s.kept q n) :
    (State.colDiscard s x1 f).kept q n := by
  unfold State.colDiscard
  with_reducible repeat' first | assumption | apply State.incBy_kept | apply State.putColQueue_kept | intro _ | refine kept_mk ?_

theorem State.egress_kept {s : State} (bytes : List Byte) (v : Nat) (hk : s.kept q n) :
    (State.egress s bytes v).kept q n := by
  unfold State.egress
  with_reducible repeat' first | assumption | apply State.cxFill_kept | apply State.inc_kept | apply State.mapPlane_kept | apply State.stitchWrite_kept | intro _ | refine kept_ite ?_ ?_ | split | refine fst_kept (by assumption) ?_ | refine snd_kept (by assumption) ?_ | refine opt_kept (by assumption) ?_ | refine kept_mk ?_

theorem State.colRelease_kept {s : State} (c : Copy) (hk : s.kept q n) :
    (State.colRelease s c).kept q n := by
  unfold State.colRelease
  with_reducible repeat' first | assumption | apply State.egress_kept | apply State.emit_kept | apply State.inc_kept | apply State.incMod_kept | apply foldl_kept | intro _ | refine kept_mk ?_

theorem State.takePair_kept {s : State} (x1 : Nat) (rp : Nat) (hk : s.kept q n) :
    (State.takePair s x1 rp).kept q n := by
  unfold State.takePair
  with_reducible repeat' first | assumption | apply State.putColQueue_kept | refine kept_mk ?_

theorem State.releaseAlone_kept {s : State} (x1 : Half) (hk : s.kept q n) :
    (State.releaseAlone s x1).kept q n := by
  unfold State.releaseAlone
  with_reducible repeat' first | assumption | apply State.colRelease_kept | apply State.takePair_kept | apply foldl_kept | intro _ | refine kept_ite ?_ ?_ | split | refine fst_kept (by assumption) ?_ | refine snd_kept (by assumption) ?_ | refine opt_kept (by assumption) ?_ | refine kept_mk ?_

end Sys2Proof.Machine
end

