-- ==== Sys2Proof/Laws/KeptChargeCore.lean ====
section
/-! SUPPORT. What the definitions of Machine/ChargeCore.lean keep: the queue, the time, the canonical form of memory and registers, and that at
most one half is in CHARGE. -/

set_option linter.unreachableTactic false
set_option linter.unusedTactic false
set_option linter.unusedVariables false

namespace Sys2Proof.Machine
open Sys2Proof

variable {q : List Instr} {n : Nat}

theorem State.mapStreams_kept {s : State} (f : State → Nat → State) (hf : ∀ s k, s.kept q n → (f s k).kept q n)
    (h : s.kept q n) : (s.mapStreams f).kept q n := foldl_kept hf _ h

theorem State.clearRuns_kept {s : State} (keep : List Nat) (hk : s.kept q n) :
    (State.clearRuns s keep).kept q n := by
  unfold State.clearRuns
  with_reducible repeat' first | assumption | apply State.mapStreams_kept | apply State.setf_kept | intro _ | refine kept_ite ?_ ?_ | refine kept_mk ?_

theorem State.clearBlocked_kept {s : State} (keep : List Nat) (hk : s.kept q n) :
    (State.clearBlocked s keep).kept q n := by
  unfold State.clearBlocked
  with_reducible repeat' first | assumption | apply State.mapStreams_kept | apply State.setf_kept | intro _ | refine kept_ite ?_ ?_ | refine kept_mk ?_

theorem State.abandonTest_kept {s : State} (hk : s.kept q n) :
    (State.abandonTest s).kept q n := by
  unfold State.abandonTest
  with_reducible repeat' first | assumption | apply State.clearBlocked_kept | apply State.clearRuns_kept | apply State.setf_kept | split | refine fst_kept (by assumption) ?_ | refine snd_kept (by assumption) ?_ | refine opt_kept (by assumption) ?_ | refine kept_mk ?_

theorem State.setMode_kept {s : State} (m : ChgMode) (h : s.kept q n) : (s.setMode m).kept q n := by
  have h1 : State.kept q n { s with chg := { s.chg with mode := m } } := kept_chg h (kept_not_both h)
  unfold State.setMode
  dsimp only
  split
  · exact State.clearRuns_kept _ h1
  · exact h1

/-- A half enters a state; CHARGE only while the other half is not in it. -/
theorem State.enter_kept {s : State} (x : Half) (d : ChgState) (cause : Nat) (h : s.kept q n)
    (hd : d = .charge → s.chgOf x.other ≠ .charge) : (s.enter x d cause).kept q n := by
  have hb := kept_not_both h
  have h1 : State.kept q n { s with chg := s.chg.putHalf x { s.chg.half x with
      st := d, cause := cause, fromSt := (s.chg.half x).st.code, toSt := d.code,
      count := min 0xFFFF ((s.chg.half x).count + 1) } } := by
    cases x
    · exact kept_chg h fun hc => hd hc.1 hc.2
    · exact kept_chg h fun hc => hd hc.2 hc.1
  unfold State.enter
  dsimp only
  repeat' first | with_reducible exact h1 | with_reducible assumption | with_reducible apply State.larderEvent_kept | with_reducible apply State.mapEp_kept | with_reducible apply State.hartLatch_kept | with_reducible apply State.wrn_kept | with_reducible apply foldl_kept | intro _

theorem State.isolate_kept {s : State} (x1 : Half) (on : Bool) (hk : s.kept q n) :
    (State.isolate s x1 on).kept q n := by
  unfold State.isolate
  with_reducible repeat' first | assumption | apply State.padsReset_kept | apply State.putHrst_kept | refine kept_ite ?_ ?_ | refine kept_mk ?_

theorem State.ownerHandover_kept {s : State} (x1 : Half) (hk : s.kept q n) :
    (State.ownerHandover s x1).kept q n := by
  unfold State.ownerHandover
  with_reducible repeat' first | assumption | apply State.setf_kept | apply foldl_kept | intro _ | refine kept_ite ?_ ?_ | split | refine fst_kept (by assumption) ?_ | refine snd_kept (by assumption) ?_ | refine opt_kept (by assumption) ?_ | refine kept_mk ?_

theorem State.cancelHandover_kept {s : State} (h : s.kept q n) : s.cancelHandover.kept q n :=
  State.wr64_kept _ _ _ (kept_chg h (kept_not_both h))

theorem State.clearStaged_kept {s : State} (x1 : Half) (hk : s.kept q n) :
    (State.clearStaged s x1).kept q n := by
  unfold State.clearStaged
  with_reducible repeat' first | assumption | split | refine fst_kept (by assumption) ?_ | refine snd_kept (by assumption) ?_ | refine opt_kept (by assumption) ?_ | refine kept_mk ?_

theorem State.setProbation_kept {s : State} (x : Half) (a b : Bool) (h : s.kept q n) :
    (s.setProbation x a b).kept q n := by
  have hb := kept_not_both h
  unfold State.setProbation
  cases x <;> exact kept_chg h hb

theorem State.endResync_kept {s : State} (h : s.kept q n) : s.endResync.kept q n := by
  have hb := kept_not_both h
  unfold State.endResync
  split
  · exact h
  · next r hr =>
    obtain ⟨c, p, d, f, g⟩ := r
    cases c <;> exact kept_chg h hb

theorem State.exitOne_kept {s : State} (x : Exit) (h : s.kept q n) (hd : x.dest ≠ .charge) : (s.exitOne x).kept q n := by
  unfold State.exitOne
  extract_lets was s1 s2 s3 s4 s5 iso s6 ia iak iap s7
  have h1 : s1.kept q n := State.enter_kept _ _ _ h fun hc => absurd hc hd
  have h2 : s2.kept q n := by
    unfold s2
    split
    · exact State.faultD_kept _ _ _ _ _ _ _ h1
    · exact h1
  have h3 : s3.kept q n := State.abandonTest_kept (State.cancelHandover_kept h2)
  have h4 : s4.kept q n := by
    unfold s4
    split
    · exact State.colDiscard_kept _ _ h3
    · exact h3
  have h6 : s6.kept q n := State.isolate_kept _ _ (State.setProbation_kept _ _ _ h4)
  have h7 : s7.kept q n := by
    unfold s7
    split <;> exact kept_mk h6
  split
  · split
    · exact State.endResync_kept h7
    · exact h7
  · exact h7

theorem State.iaHolder_kept {s : State} (hk : s.kept q n) :
    (State.iaHolder s).kept q n := by
  unfold State.iaHolder
  with_reducible repeat' first | assumption | refine kept_ite ?_ ?_ | refine kept_mk ?_

theorem State.openWindow_kept {s : State} (h : s.kept q n) : s.openWindow.kept q n := by
  have h1 := State.endResync_kept h
  unfold State.openWindow
  dsimp only
  split
  · exact h
  · split
    · exact kept_chg h1 (kept_not_both h1)
    · exact h1

theorem State.settle_kept {s : State} (old : Option Half) (h : s.kept q n) : (s.settle old).kept q n := by
  unfold State.settle
  split
  · next x =>
    split
    · split
      · exact h
      · exact State.releaseAlone_kept _ (State.setMode_kept _ h)
    · next hx =>
      dsimp only
      split
      · have hx' : x.other.other = x := by cases x <;> rfl
        have h1 := State.setProbation_kept x.other false false
          (State.enter_kept x.other .charge 0x31 h (fun _ => by rw [hx']; exact hx))
        have h2 := kept_ite (c := (s.chg.half x.other).update = true) (State.clearStaged_kept x.other h1) h1
        exact State.iaHolder_kept (State.setMode_kept _ (kept_chg h2 (kept_not_both h2)))
      · refine State.openWindow_kept (State.iaHolder_kept (State.fault_kept _ _ _ _ (State.setMode_kept _ ?_)))
        exact kept_chg h (kept_not_both h)
  · exact h

theorem exitOnes_kept {s : State} (xs : List Exit) (h : s.kept q n) (hx : ∀ x ∈ xs, x.dest ≠ .charge) :
    (xs.foldl State.exitOne s).kept q n := by
  induction xs generalizing s with
  | nil => exact h
  | cons x xs ih =>
    exact ih (State.exitOne_kept x h (hx x List.mem_cons_self)) fun y hy => hx y (List.mem_cons_of_mem _ hy)

theorem Exit.allowed_dest {x : Exit} {c : ChgState} (h : x.allowed c = true) : x.dest ≠ .charge := by
  intro hd
  simp [Exit.allowed, hd] at h

theorem State.exits_kept {s : State} (xs : List Exit) (h : s.kept q n) : (s.exits xs).kept q n := by
  unfold State.exits
  dsimp only
  split
  · exact h
  · split
    · exact h
    · refine foldl_kept (fun s x h => State.ownerHandover_kept _ h) _ (State.settle_kept _
        (exitOnes_kept _ (kept_chg h (kept_not_both h)) ?_))
      intro x hx
      exact Exit.allowed_dest (List.mem_filter.1 (List.mem_filter.1 hx).1).2

theorem State.toLost_kept {s : State} (x1 : Half) (cause : Nat) (code : Nat) (hk : s.kept q n) :
    (State.toLost s x1 cause code).kept q n := by
  unfold State.toLost
  with_reducible repeat' first | assumption | apply State.exits_kept | refine kept_mk ?_

theorem State.demote_kept {s : State} (x1 : Half) (cause : Nat) (d : Diag) (hk : s.kept q n) :
    (State.demote s x1 cause d).kept q n := by
  unfold State.demote
  with_reducible repeat' first | assumption | apply State.exits_kept | refine kept_mk ?_

theorem State.toService_kept {s : State} (x1 : Half) (cause : Nat) (hk : s.kept q n) :
    (State.toService s x1 cause).kept q n := by
  unfold State.toService
  with_reducible repeat' first | assumption | apply State.exits_kept | refine kept_mk ?_

theorem State.grantAlone_kept {s : State} (x : Half) (h : s.kept q n) (hd : s.chgOf x.other ≠ .charge) :
    (s.grantAlone x).kept q n := by
  have h1 := State.enter_kept x .charge 0x02 h fun _ => hd
  exact State.iaHolder_kept (State.setMode_kept _ (kept_chg h1 (kept_not_both h1)))

theorem State.grantBoth_kept {s : State} (h : s.kept q n) (hd : s.chgOf .p ≠ .charge) : s.grantBoth.kept q n :=
  State.setMode_kept _ (State.enter_kept _ _ _ (State.grantAlone_kept .k h hd) (by intro h; cases h))

theorem inService_charge {s : State} {x : Half} (h : s.chgOf x = .charge) : s.inService x = true := by
  simp [State.inService, h]

theorem State.castOnClose_kept {s : State} (h : s.kept q n) : s.castOnClose.kept q n := by
  unfold State.castOnClose
  split
  · exact h
  · split
    · exact h
    · dsimp only
      split
      · exact kept_chg h (kept_not_both h)
      · next hs =>
        split
        · refine State.grantAlone_kept _ (kept_chg h (kept_not_both h)) ?_
          intro hp
          exact hs (Or.inr (inService_charge hp))
        · split
          · refine State.grantAlone_kept _ (kept_chg h (kept_not_both h)) ?_
            intro hp
            exact hs (Or.inl (inService_charge hp))
          · exact kept_chg h (kept_not_both h)

theorem State.refuseResync_kept {s : State} (x : Half) (cause : Nat) (h : s.kept q n) :
    (s.refuseResync x cause).kept q n := by
  unfold State.refuseResync
  dsimp only
  split
  · exact h
  · exact State.isolate_kept _ _ (State.clearStaged_kept _
      (State.enter_kept _ _ _ (State.endResync_kept h) (by intro h; cases h)))

theorem State.copyWindow_kept {s : State} (from_ : Half) (base : Nat) (size : Nat) (hk : s.kept q n) :
    (State.copyWindow s from_ base size).kept q n := by
  unfold State.copyWindow
  with_reducible repeat' first | assumption | apply State.putbs_kept | refine kept_mk ?_

theorem State.copyWindows_kept {s : State} (from_ : Half) (hk : s.kept q n) :
    (State.copyWindows s from_).kept q n := by
  unfold State.copyWindows
  with_reducible repeat' first | assumption | apply State.copyWindow_kept | apply foldl_kept | intro _ | refine kept_mk ?_

theorem State.copyGranules_kept {s : State} (from_ : Half) (gs : List Nat) (hk : s.kept q n) :
    (State.copyGranules s from_ gs).kept q n := by
  unfold State.copyGranules
  with_reducible repeat' first | assumption | apply State.copyWindow_kept | apply foldl_kept | intro _ | refine kept_mk ?_

theorem State.startResync_kept {s : State} (x : Half) (h : s.kept q n) : (s.startResync x).kept q n := by
  have hb := kept_not_both h
  unfold State.startResync
  dsimp only
  split
  · exact State.refuseResync_kept _ _ h
  · split
    · exact State.refuseResync_kept _ _ h
    · refine State.copyWindows_kept _ ?_
      cases x <;> exact kept_chg h hb

theorem State.t1_kept {s : State} (x : Half) (h : s.kept q n) : (s.t1 x).kept q n := by
  have h1 := State.enter_kept x .candidate 0x01 (State.castOnClose_kept h) (by intro h; cases h)
  unfold State.t1
  dsimp only
  split
  · exact h
  · split
    · split
      · exact State.startResync_kept _ h1
      · exact h1
    · next hs =>
      split
      · exact kept_chg h1 (kept_not_both h1)
      · split
        · refine State.grantBoth_kept h1 ?_
          intro hp
          exact hs (Or.inr (by simp [State.inService, hp]))
        · exact kept_chg h1 (kept_not_both h1)

theorem State.planHandover_kept {s : State} (x : Option Half) (h : s.kept q n) : (s.planHandover x).kept q n :=
  State.wr64_kept _ _ _ (kept_chg h (kept_not_both h))

theorem foldl_chg {β : Type} {f : State → β → State} (hf : ∀ s b, (f s b).chg = s.chg) (bs : List β) (s : State) :
    (bs.foldl f s).chg = s.chg := by
  induction bs generalizing s with
  | nil => rfl
  | cons b bs ih => exact (ih _).trans (hf s b)

theorem State.larderEvent_chg (s : State) (a b c : Nat) (d e : List Byte) : (s.larderEvent a b c d e).chg = s.chg := by
  unfold State.larderEvent
  split <;> rfl

theorem State.mapEp_chg (s : State) (x : Half) (f : Endpoint → Endpoint) : (s.mapEp x f).chg = s.chg := by
  cases x <;> rfl

theorem State.hartLatch_chg (s : State) (f : Nat → Bool) (k : Nat) : (s.hartLatch f k).chg = s.chg := by
  unfold State.hartLatch
  refine foldl_chg (fun s b => ?_) _ _
  split <;> rfl

/-- What entering a state does to charge. -/
theorem State.enter_chg (s : State) (x : Half) (d : ChgState) (cause : Nat) :
    (s.enter x d cause).chg = s.chg.putHalf x { s.chg.half x with
      st := d, cause := cause, fromSt := (s.chg.half x).st.code, toSt := d.code,
      count := min 0xFFFF ((s.chg.half x).count + 1) } := by
  unfold State.enter
  dsimp only
  refine (foldl_chg (f := fun s a => s.wrn a (s.rdn a ||| 2 ^ 17)) (fun s b => rfl) _ _).trans ?_
  rw [State.hartLatch_chg, State.larderEvent_chg, State.mapEp_chg]

theorem State.enter_st (s : State) (x : Half) (d : ChgState) (cause : Nat) : (s.enter x d cause).chgOf x = d := by
  unfold State.chgOf
  rw [State.enter_chg]
  cases x <;> rfl

theorem State.doHandover_kept {s : State} (h : s.kept q n) : s.doHandover.kept q n := by
  unfold State.doHandover
  split
  · exact State.cancelHandover_kept h
  · next x hx =>
    dsimp only
    split
    · exact State.cancelHandover_kept h
    · have h0 : State.kept q n (if (s.chg.half x.other).update then s.clearStaged x.other else s) := by
        split
        · exact State.clearStaged_kept _ h
        · exact h
      have h1 := State.enter_kept x .standby 0x30 h0 (by intro h; cases h)
      have h2 := State.enter_kept x.other .charge 0x30 h1 (by
        intro _
        have hx' : x.other.other = x := by cases x <;> rfl
        rw [hx', State.enter_st]
        intro hc; cases hc)
      have h3 := State.cancelHandover_kept (State.setProbation_kept x.other false false h2)
      have h4 := kept_not_both h3
      split
      · split
        · exact State.toService_kept _ _ (State.iaHolder_kept (kept_chg h3 h4))
        · exact State.iaHolder_kept (kept_chg h3 h4)
      · exact State.iaHolder_kept (kept_chg h3 h4)

end Sys2Proof.Machine
end

