-- ==== Sys2Proof/Laws/KeptGateCore.lean ====
section
/-! SUPPORT. What the definitions of Machine/GateCore.lean keep: the queue, the time, the canonical form of memory and registers, and that at
most one half is in CHARGE. -/

set_option linter.unreachableTactic false
set_option linter.unusedTactic false
set_option linter.unusedVariables false

namespace Sys2Proof.Machine
open Sys2Proof

variable {q : List Instr} {n : Nat}

theorem State.putGate_kept {s : State} (x1 : Half) (p : Nat) (g : GateRun) (hk : s.kept q n) :
    (State.putGate s x1 p g).kept q n := by
  unfold State.putGate
  with_reducible repeat' first | assumption | apply State.mapPlane_kept | intro _ | refine kept_mk ?_

theorem State.gatesHold_kept {s : State} (d : Nat) (old : DomSet) (hk : s.kept q n) :
    (State.gatesHold s d old).kept q n := by
  unfold State.gatesHold
  with_reducible repeat' first | assumption | apply State.putGate_kept | apply foldl_kept | intro _ | refine kept_ite ?_ ?_ | refine kept_mk ?_

end Sys2Proof.Machine
end

