-- ==== Sys2Proof/Laws/KeptMacCore.lean ====
section
/-! SUPPORT. What the definitions of Machine/MacCore.lean keep: the queue, the time, the canonical form of memory and registers, and that at
most one half is in CHARGE. -/

set_option linter.unreachableTactic false
set_option linter.unusedTactic false
set_option linter.unusedVariables false

namespace Sys2Proof.Machine
open Sys2Proof

variable {q : List Instr} {n : Nat}

theorem State.periodClose_kept {s : State} (p : Nat) (x2 : Nat) (hk : s.kept q n) :
    (State.periodClose s p x2).kept q n := by
  unfold State.periodClose
  with_reducible repeat' first | assumption | apply State.incMod_kept | apply State.mapPort_kept | apply State.setf_kept | apply State.wr_kept | apply foldl_kept | intro _ | refine kept_mk ?_

theorem State.perCnt_kept {s : State} (p : Nat) (j : Nat) (x3 : Nat) (at_ : Nat) (hk : s.kept q n) :
    (State.perCnt s p j x3 at_).kept q n := by
  unfold State.perCnt
  with_reducible repeat' first | assumption | apply State.periodClose_kept | apply State.wrn_kept | refine kept_ite ?_ ?_ | split | refine fst_kept (by assumption) ?_ | refine snd_kept (by assumption) ?_ | refine opt_kept (by assumption) ?_ | refine kept_mk ?_

theorem State.macCntAt_kept {s : State} (p : Nat) (k : Nat) (x3 : Nat) (at_ : Nat) (hk : s.kept q n) :
    (State.macCntAt s p k x3 at_).kept q n := by
  unfold State.macCntAt
  with_reducible repeat' first | assumption | apply State.perCnt_kept | apply State.wrn_kept | refine kept_ite ?_ ?_ | split | refine fst_kept (by assumption) ?_ | refine snd_kept (by assumption) ?_ | refine opt_kept (by assumption) ?_ | refine kept_mk ?_

theorem State.macCnt_kept {s : State} (p : Nat) (k : Nat) (x3 : Nat) (hk : s.kept q n) :
    (State.macCnt s p k x3).kept q n := by
  unfold State.macCnt
  with_reducible repeat' first | assumption | apply State.macCntAt_kept | refine kept_mk ?_

theorem State.rxCount_kept {s : State} (p : Nat) (bs : List Byte) (at_ : Nat) (hk : s.kept q n) :
    (State.rxCount s p bs at_).kept q n := by
  unfold State.rxCount
  with_reducible repeat' first | assumption | apply State.macCntAt_kept | refine kept_mk ?_

theorem State.txCount_kept {s : State} (p : Nat) (bs : List Byte) (x3 : Nat) (hk : s.kept q n) :
    (State.txCount s p bs x3).kept q n := by
  unfold State.txCount
  with_reducible repeat' first | assumption | apply State.macCnt_kept | refine kept_mk ?_

end Sys2Proof.Machine
end

