-- ==== Sys2Proof/Laws/KeptPlaneCore.lean ====
section
/-! SUPPORT. What the definitions of Machine/PlaneCore.lean keep: the queue, the time, the canonical form of memory and registers, and that at
most one half is in CHARGE. -/

set_option linter.unreachableTactic false
set_option linter.unusedTactic false
set_option linter.unusedVariables false

namespace Sys2Proof.Machine
open Sys2Proof

variable {q : List Instr} {n : Nat}

theorem State.txMark_kept {s : State} (p : Nat) (hk : s.kept q n) :
    (State.txMark s p).kept q n := by
  unfold State.txMark
  with_reducible repeat' first | assumption | apply State.mapPort_kept | intro _ | refine kept_ite ?_ ?_ | refine kept_mk ?_

theorem State.xoffUpdate_kept {s : State} (x1 : Half) (i : Nat) (hk : s.kept q n) :
    (State.xoffUpdate s x1 i).kept q n := by
  unfold State.xoffUpdate
  with_reducible repeat' first | assumption | apply State.mapPort_kept | apply State.setf_kept | apply State.txMark_kept | intro _ | refine kept_ite ?_ ?_ | split | refine fst_kept (by assumption) ?_ | refine snd_kept (by assumption) ?_ | refine opt_kept (by assumption) ?_ | refine kept_mk ?_

theorem State.planeShow_kept {s : State} (x1 : Half) (i : Nat) (o : Nat) (c : Nat) (hk : s.kept q n) :
    (State.planeShow s x1 i o c).kept q n := by
  unfold State.planeShow
  with_reducible repeat' first | assumption | apply State.setf_kept | apply State.xoffUpdate_kept | refine kept_ite ?_ ?_ | refine kept_mk ?_

theorem State.meterTake_kept {s : State} (x1 : Half) (m : Nat) (x3 : Nat) (colour : Nat) (hk : s.kept q n) :
    (State.meterTake s x1 m x3 colour).kept q n := by
  unfold State.meterTake
  with_reducible repeat' first | assumption | apply State.inc_kept | apply State.putPlane_kept | intro _ | split | refine fst_kept (by assumption) ?_ | refine snd_kept (by assumption) ?_ | refine opt_kept (by assumption) ?_ | refine kept_mk ?_

theorem State.sieve_kept {s : State} (x1 : Half) (x2 : PCopy) (hk : s.kept q n) :
    (State.sieve s x1 x2).2.kept q n := by
  unfold State.sieve
  with_reducible repeat' first | assumption | apply State.inc_kept | apply State.putPlane_kept | (fail_if_no_progress (extract_lets +onlyGivenNames x); first | (refine kept_bind (q := q) (n := n) (x := x) ?_ (fun _ => ?_); on_goal 2 => clear_value x; on_goal 1 => unfold x) | skip) | refine kept_ite ?_ ?_ | split | refine fst_kept (by assumption) ?_ | refine snd_kept (by assumption) ?_ | refine opt_kept (by assumption) ?_ | refine kept_mk ?_

theorem State.offer_kept {s : State} (x1 : Half) (x2 : PCopy) (hk : s.kept q n) :
    (State.offer s x1 x2).1.kept q n := by
  unfold State.offer
  with_reducible repeat' first | assumption | apply State.mapPlane_kept | apply State.planeShow_kept | apply State.sieve_kept | (fail_if_no_progress (extract_lets +onlyGivenNames x); first | (refine kept_bind (q := q) (n := n) (x := x) ?_ (fun _ => ?_); on_goal 2 => clear_value x; on_goal 1 => unfold x) | skip) | intro _ | refine kept_ite ?_ ?_ | split | refine fst_kept (by assumption) ?_ | refine snd_kept (by assumption) ?_ | refine opt_kept (by assumption) ?_ | refine kept_mk ?_

theorem State.offerAll_kept {s : State} (x : Half) (qs : List PCopy) (live : Bool) (no : List Nat) (h : s.kept q n) :
    (s.offerAll x qs live no).1.kept q n := by
  induction qs generalizing s live no with
  | nil => exact h
  | cons c qs ih =>
    have h1 := State.offer_kept x c h
    unfold State.offerAll
    split
    · next t ht => exact ih _ _ (fst_kept ht h1)
    · next t k _ ht => exact ih _ _ (fst_kept ht h1)

theorem State.countRefused_kept {s : State} (x1 : Half) (no : List Nat) (hk : s.kept q n) :
    (State.countRefused s x1 no).kept q n := by
  unfold State.countRefused
  with_reducible repeat' first | assumption | apply State.inc_kept | apply foldl_kept | intro _ | refine kept_mk ?_

theorem State.release_kept {s : State} (x1 : Half) (qs : List PCopy) (bit : Nat) (stamp : Nat) (hk : s.kept q n) :
    (State.release s x1 qs bit stamp).kept q n := by
  unfold State.release
  with_reducible repeat' first | assumption | apply State.mapPlane_kept | intro _ | refine kept_mk ?_

theorem State.twinDiverge_kept {s : State} (x1 : Half) (needle : Nat) (flow : Nat) (hk : s.kept q n) :
    (State.twinDiverge s x1 needle flow).kept q n := by
  unfold State.twinDiverge
  with_reducible repeat' first | assumption | apply State.neTwin_kept | apply State.netEvent_kept | apply foldl_kept | intro _ | refine kept_ite ?_ ?_ | refine kept_mk ?_

theorem State.showAll_kept {s : State} (x1 : Half) (qs : List PCopy) (hk : s.kept q n) :
    (State.showAll s x1 qs).kept q n := by
  unfold State.showAll
  with_reducible repeat' first | assumption | apply State.planeShow_kept | apply foldl_kept | intro _ | refine kept_mk ?_

theorem State.twinSecond_kept {s : State} (x1 : Half) (e : DupEnt) (f : InFrame) (d : Fwd) (lan : Nat) (w : Nat) (hk : s.kept q n) :
    (State.twinSecond s x1 e f d lan w).kept q n := by
  unfold State.twinSecond
  with_reducible repeat' first | assumption | apply State.inc_kept | apply State.mapPlane_kept | apply State.release_kept | apply State.showAll_kept | apply State.twinDiverge_kept | intro _ | refine kept_ite ?_ ?_ | refine kept_mk ?_

theorem State.queueCopies_kept {s : State} (x1 : Half) (f : InFrame) (qs : List PCopy) (hk : s.kept q n) :
    (State.queueCopies s x1 f qs).1.kept q n := by
  unfold State.queueCopies
  with_reducible repeat' first | assumption | apply State.countRefused_kept | apply State.offerAll_kept | refine kept_ite ?_ ?_ | split | refine fst_kept (by assumption) ?_ | refine snd_kept (by assumption) ?_ | refine opt_kept (by assumption) ?_ | refine kept_mk ?_

theorem State.holdCopies_kept {s : State} (x : Half) (qs : List PCopy) (h : s.kept q n) :
    (s.holdCopies x qs).2.1.kept q n := by
  unfold State.holdCopies
  generalize hacc : (([], s, false) : List PCopy × State × Bool) = acc
  have hk : acc.2.1.kept q n := by subst hacc; exact h
  clear hacc h
  induction qs generalizing acc with
  | nil => exact hk
  | cons c qs ih =>
    have h1 := State.sieve_kept x c hk
    refine ih _ ?_
    dsimp only
    split
    · next e => rw [e] at h1; exact h1
    · next e =>
      rw [e] at h1
      split
      · exact h1
      · exact State.inc_kept _ h1

theorem State.dupIngress_kept {s : State} (x : Half) (f : InFrame) (d : Fwd) (seq lan : Nat) (qs : List PCopy)
    (h : s.kept q n) : (s.dupIngress x f d seq lan qs).1.kept q n := by
  unfold State.dupIngress
  generalize qs.filter (fun q => decide (q.outp = 9 ∨ q.outp = 10)) = toOwn
  generalize qs.filter (fun q => decide (q.outp ≠ 9 ∧ q.outp ≠ 10)) = other
  dsimp only
  generalize (if toOwn = [] then none else s.twinWindow x d.cls) = tw
  split
  · split
    · exact State.queueCopies_kept _ _ _ (State.inc_kept _ h)
    · cases tw with
      | none =>
        dsimp only
        split
        · exact State.mapPlane_kept _ _ (State.queueCopies_kept _ _ _ h)
        · exact State.queueCopies_kept _ _ _ h
      | some w =>
        dsimp only
        have h2 := State.holdCopies_kept x toOwn (State.queueCopies_kept x f other h)
        split
        · exact h2
        · exact State.showAll_kept _ _ (State.mapPlane_kept _ _ h2)
  · next old _ =>
    cases tw with
    | none => exact State.inc_kept _ h
    | some w =>
      dsimp only
      have h1 := State.queueCopies_kept x f (other.filter fun q => !bitAt old.mask q.outp) h
      split
      · exact State.twinSecond_kept _ _ _ _ _ _ (State.mapPlane_kept _ _ h1)
      · exact State.inc_kept _ (State.mapPlane_kept _ _ h1)

theorem State.redSequence_kept {s : State} (x : Half) (f : InFrame) (d : Fwd) (h : s.kept q n) :
    (s.redSequence x f d).2.kept q n := by
  unfold State.redSequence
  dsimp only
  split
  · exact State.incMod_kept _ _ h
  · exact h

theorem State.redNumber_kept {s : State} (x : Half) (bs : List Byte) (qs : List PCopy) (h : s.kept q n) :
    (s.redNumber x bs qs).2.kept q n := by
  unfold State.redNumber
  dsimp only
  split
  · exact State.useFree_kept h
  · exact h

theorem State.planeIngress_kept {s : State} (x : Half) (f : InFrame) (h : s.kept q n) :
    (s.planeIngress x f).1.kept q n := by
  unfold State.planeIngress
  split
  · exact State.inc_kept _ h
  · next d _ =>
    extract_lets set noNeedle sa set1 down ports sb dei colour take redDrop
    have ha : sa.kept q n := kept_ite (State.inc_kept _ h) h
    have hb : sb.kept q n := kept_ite (State.macCnt_kept _ _ _ ha) ha
    have ht : ∀ t : State, t.kept q n → (take t).kept q n := by
      intro t hk
      unfold take
      split
      · exact State.meterTake_kept _ _ _ _ hk
      · exact hk
    clear_value sa sb take redDrop colour ports
    split
    · exact State.inc_kept _ ha
    · split
      · exact State.inc_kept _ ha
      · split
        · exact ht _ hb
        · have h1 := State.redNumber_kept x f.bytes (copiesFor f d colour (sb.redSequence x f d).1 ports)
            (State.redSequence_kept x f d hb)
          dsimp only
          split
          · next s2 he =>
            refine ht _ ?_
            split at he
            · exact fst_kept he (State.dupIngress_kept _ _ _ _ _ _ h1)
            · exact fst_kept he (State.queueCopies_kept _ _ _ h1)
          · split
            · exact State.dupIngress_kept _ _ _ _ _ _ h1
            · exact State.queueCopies_kept _ _ _ h1

end Sys2Proof.Machine
end

