-- ==== Sys2Proof/Laws/KeptTension.lean ====
section
/-! SUPPORT. What the definitions of Machine/Tension.lean keep: the queue, the time, the canonical form of memory and registers, and that at
most one half is in CHARGE. -/

set_option linter.unreachableTactic false
set_option linter.unusedTactic false
set_option linter.unusedVariables false

namespace Sys2Proof.Machine
open Sys2Proof

variable {q : List Instr} {n : Nat}

theorem State.sendMsg_kept {s : State} (origin : Nat) (x2 : Half) (cls : Nat) (spec : Nat) (datas : List Nat) (hk : s.kept q n) :
    (State.sendMsg s origin x2 cls spec datas).kept q n := by
  unfold State.sendMsg
  with_reducible repeat' first | assumption | apply State.emit_kept | apply State.mapEp_kept | intro _ | refine kept_mk ?_

theorem State.hbLaunch_kept {s : State} (x1 : Half) (hk : s.kept q n) :
    (State.hbLaunch s x1).kept q n := by
  unfold State.hbLaunch
  with_reducible repeat' first | assumption | apply State.emit_kept | apply State.putEp_kept | refine kept_ite ?_ ?_ | refine kept_mk ?_

theorem execHeartbeatLaunch_kept {s : State} (hk : s.kept q n) :
    outKept q n (execHeartbeatLaunch s) := by
  unfold execHeartbeatLaunch
  with_reducible repeat' first | assumption | refine out_next ?_ | apply State.hbLaunch_kept | refine kept_ite ?_ ?_ | refine out_ite ?_ ?_ | refine kept_mk ?_

theorem execHeartbeatReceive_kept (x0 : Half) (seq : BitVec 16) (st : Fin 16) (ready : Bool) (outValid : Bool) (healthy : Bool) (code : Byte) {s : State} (hk : s.kept q n) :
    outKept q n (execHeartbeatReceive x0 seq st ready outValid healthy code s) := by
  unfold execHeartbeatReceive
  with_reducible repeat' first | assumption | refine out_next ?_ | apply State.demote_kept | apply State.fault_kept | apply State.putEp_kept | apply State.setf_kept | apply State.t1_kept | refine kept_ite ?_ ?_ | refine out_ite ?_ ?_ | split | refine fst_kept (by assumption) ?_ | refine snd_kept (by assumption) ?_ | refine opt_kept (by assumption) ?_ | refine kept_mk ?_

theorem State.hbMiss_kept {s : State} (x1 : Half) (hk : s.kept q n) :
    (State.hbMiss s x1).kept q n := by
  unfold State.hbMiss
  with_reducible repeat' first | assumption | apply State.inc_kept | apply State.mapEp_kept | apply State.setf_kept | intro _ | refine kept_mk ?_

theorem execHeartbeatTimerExpiry_kept (x0 : Half) {s : State} (hk : s.kept q n) :
    outKept q n (execHeartbeatTimerExpiry x0 s) := by
  unfold execHeartbeatTimerExpiry
  with_reducible repeat' first | assumption | refine out_next ?_ | apply State.exits_kept | apply State.fault_kept | apply State.hbMiss_kept | apply foldl_kept | intro _ | refine kept_ite ?_ ?_ | refine out_ite ?_ ?_ | refine kept_mk ?_

theorem execCastOnWindowClose_kept {s : State} (h : s.kept q n) : outKept q n (execCastOnWindowClose s) := by
  unfold execCastOnWindowClose
  exact out_next (kept_ite h (State.castOnClose_kept h))

theorem execGrantReadbackFault_kept {s : State} (r : ReadBack) (h : s.kept q n) :
    outKept q n (execGrantReadbackFault r s) := by
  unfold execGrantReadbackFault
  split
  · next x l =>
    have h1 : State.kept q n { s with chg := s.chg.putLine x l } := by
      cases x <;> exact kept_chg h (kept_not_both h)
    exact out_next (kept_ite (State.fault_kept _ _ _ _ h1) h1)
  · exact out_next (State.fault_kept _ _ _ _ (kept_chg h (kept_not_both h)))
  · split
    · exact out_next (State.demote_kept _ _ _ h)
    · exact out_next h
  · split
    · exact out_next h
    · exact out_next (State.fault_kept _ _ _ _ (kept_chg h (kept_not_both h)))

theorem execHandoverInstant_kept {s : State} (hk : s.kept q n) :
    outKept q n (execHandoverInstant s) := by
  unfold execHandoverInstant
  with_reducible repeat' first | assumption | refine out_next ?_ | apply State.doHandover_kept | refine kept_ite ?_ ?_ | refine out_ite ?_ ?_ | refine kept_mk ?_

theorem State.segmentDown_kept {s : State} (x1 : Half) (hk : s.kept q n) :
    (State.segmentDown s x1).kept q n := by
  unfold State.segmentDown
  with_reducible repeat' first | assumption | apply State.fault_kept | apply State.larderEvent_kept | apply State.macCnt_kept | apply State.putPlane_kept | apply State.setf_kept | apply State.showAll_kept | apply State.toLost_kept | intro _ | refine kept_ite ?_ ?_ | split | refine fst_kept (by assumption) ?_ | refine snd_kept (by assumption) ?_ | refine opt_kept (by assumption) ?_ | refine kept_mk ?_

theorem execFlitReceive_kept (x0 : Half) (cls : Fin 16) (flit : BitVec 144) {s : State} (hk : s.kept q n) :
    outKept q n (execFlitReceive x0 cls flit s) := by
  unfold execFlitReceive
  with_reducible repeat' first | assumption | refine out_next ?_ | apply State.fault_kept | apply State.inc_kept | apply State.mapEp_kept | apply State.segmentDown_kept | intro _ | refine kept_ite ?_ ?_ | refine out_ite ?_ ?_ | refine kept_mk ?_

theorem execHubRelay_kept (x0 : Half) (cls : Fin 16) (f : HubFlit) {s : State} (hk : s.kept q n) :
    outKept q n (execHubRelay x0 cls f s) := by
  unfold execHubRelay
  with_reducible repeat' first | assumption | refine out_next ?_ | apply State.emit_kept | apply State.mapEp_kept | intro _ | refine kept_ite ?_ ?_ | refine out_ite ?_ ?_ | split | refine fst_kept (by assumption) ?_ | refine snd_kept (by assumption) ?_ | refine opt_kept (by assumption) ?_ | refine kept_mk ?_

theorem State.sendSnap_kept {s : State} (x1 : Half) (es : List (Nat × Nat)) (hk : s.kept q n) :
    (State.sendSnap s x1 es).kept q n := by
  unfold State.sendSnap
  with_reducible repeat' first | assumption | apply State.sendMsg_kept | intro _ | refine kept_mk ?_

theorem State.snapErrors_kept {s : State} (bad : List (Half × Fin 4096)) (hk : s.kept q n) :
    (State.snapErrors s bad).kept q n := by
  unfold State.snapErrors
  with_reducible repeat' first | assumption | apply State.fault_kept | apply State.spadDouble_kept | apply foldl_kept | intro _ | refine kept_ite ?_ ?_ | refine kept_mk ?_

theorem State.iaWrite_kept {s : State} (x1 : Half) (es : List (Nat × Nat)) (hk : s.kept q n) :
    (State.iaWrite s x1 es).kept q n := by
  unfold State.iaWrite
  with_reducible repeat' first | assumption | apply State.spadPut_kept | intro _ | refine kept_mk ?_

theorem State.iaDone_kept {s : State} (x1 : Half) (hk : s.kept q n) :
    (State.iaDone s x1).kept q n := by
  unfold State.iaDone
  with_reducible repeat' first | assumption | apply State.hartLatch_kept | intro _ | refine kept_mk ?_

theorem State.iaFailed_kept {s : State} (x1 : Half) (b : Bool) (hk : s.kept q n) :
    (State.iaFailed s x1 b).kept q n := by
  unfold State.iaFailed
  with_reducible repeat' first | assumption | apply State.setb_kept | split | refine fst_kept (by assumption) ?_ | refine snd_kept (by assumption) ?_ | refine opt_kept (by assumption) ?_ | refine kept_mk ?_

theorem State.iaFail_kept {s : State} (x1 : Half) (log : Bool) (hk : s.kept q n) :
    (State.iaFail s x1 log).kept q n := by
  unfold State.iaFail
  with_reducible repeat' first | assumption | apply State.fault_kept | apply State.iaDone_kept | apply State.iaFailed_kept | apply State.inc_kept | refine kept_ite ?_ ?_ | refine kept_mk ?_

theorem State.iaCycle_kept {s : State} (also : Option Half) (bad : List (Half × Fin 4096)) (h : s.kept q n) :
    (s.iaCycle also bad).kept q n := by
  unfold State.iaCycle
  split
  · exact h
  · extract_lets s1 parts two mk ia0 ia s2 s3
    have h1 : s1.kept q n := State.incMod_kept _ _ h
    have h2 : s2.kept q n := State.snapErrors_kept _ h1
    have h3 : s3.kept q n := foldl_kept (fun s b h => State.sendSnap_kept _ _ h) _ (kept_mk h2)
    clear_value s1 parts ia s2 s3
    split
    · exact foldl_kept (fun s b h => State.iaFail_kept _ _ h) _ h1
    · split
      · exact State.iaDone_kept _ (State.iaFailed_kept _ _ (State.iaWrite_kept _ _ h3))
      · exact h3

theorem State.judgeProbation_kept {s : State} (hk : s.kept q n) :
    (State.judgeProbation s).kept q n := by
  unfold State.judgeProbation
  with_reducible repeat' first | assumption | apply State.setMode_kept | apply State.setProbation_kept | refine kept_ite ?_ ?_ | split | refine fst_kept (by assumption) ?_ | refine snd_kept (by assumption) ?_ | refine opt_kept (by assumption) ?_ | refine kept_mk ?_

theorem State.admitHalf_kept {s : State} (r : Resync) (h : s.kept q n) : (s.admitHalf r).kept q n := by
  unfold State.admitHalf
  extract_lets x s1 ia s2
  have h1 : s1.kept q n := State.enter_kept _ _ _ (State.endResync_kept h) (by intro h; cases h)
  have h2 : s2.kept q n := kept_mk h1
  split
  · exact State.setProbation_kept _ _ _ h2
  · split
    · exact State.setMode_kept _ h2
    · exact State.setProbation_kept _ _ _ h2

theorem execIaTrigger_kept (e : IaReads) {s : State} (h : s.kept q n) :
    outKept q n (execIaTrigger e s) := by
  unfold execIaTrigger
  extract_lets f ia0 s1 s2
  have h2 : s2.kept q n := State.judgeProbation_kept (kept_mk h)
  clear_value s2
  split
  · exact out_next h
  · split
    · split
      · split
        · exact out_next (State.refuseResync_kept _ _ (State.fault_kept _ _ _ _ (State.iaCycle_kept _ _ h2)))
        · exact out_next (State.admitHalf_kept _ (State.copyGranules_kept _ _ (State.iaCycle_kept _ _ h2)))
      · exact out_next (State.iaCycle_kept _ _ h2)
    · exact out_next (State.iaCycle_kept _ _ h2)

theorem execIaCommitSend_kept {s : State} (hk : s.kept q n) :
    outKept q n (execIaCommitSend s) := by
  unfold execIaCommitSend
  with_reducible repeat' first | assumption | refine out_next ?_ | apply State.sendMsg_kept | refine kept_ite ?_ ?_ | refine out_ite ?_ ?_ | refine kept_mk ?_

theorem State.countConflicts_kept {s : State} (hk : s.kept q n) :
    (State.countConflicts s).kept q n := by
  unfold State.countConflicts
  with_reducible repeat' first | assumption | apply State.fault_kept | apply State.inc_kept | apply foldl_kept | intro _ | refine kept_ite ?_ ?_ | refine kept_mk ?_

theorem execIaCommitReceive_kept (x0 : Half) {s : State} (hk : s.kept q n) :
    outKept q n (execIaCommitReceive x0 s) := by
  unfold execIaCommitReceive
  with_reducible repeat' first | assumption | refine out_next ?_ | apply State.countConflicts_kept | apply State.iaDone_kept | apply State.iaFailed_kept | apply State.iaWrite_kept | intro _ | refine kept_ite ?_ ?_ | refine out_ite ?_ ?_ | refine kept_mk ?_

theorem execIaCommitTimeout_kept (x0 : Half) {s : State} (hk : s.kept q n) :
    outKept q n (execIaCommitTimeout x0 s) := by
  unfold execIaCommitTimeout
  with_reducible repeat' first | assumption | refine out_next ?_ | apply State.demote_kept | apply State.iaFail_kept | intro _ | refine kept_ite ?_ ?_ | refine out_ite ?_ ?_ | refine kept_mk ?_

theorem execIaRerunStart_kept {s : State} (h : s.kept q n) : outKept q n (execIaRerunStart s) := by
  unfold execIaRerunStart
  split
  · exact out_next h
  · split
    · exact out_next h
    · exact out_next (State.setf_kept _ _ _ (State.iaCycle_kept _ _ (kept_mk h)))

theorem State.iaCtrlWrite_kept {s : State} (m : Nat) (v : Word) (hk : s.kept q n) :
    (State.iaCtrlWrite s m v).kept q n := by
  unfold State.iaCtrlWrite
  with_reducible repeat' first | assumption | apply State.guardReg_kept | apply State.plainWrite_kept | apply State.setf_kept | intro _ | refine kept_ite ?_ ?_ | refine kept_mk ?_

theorem execIaCtrlWrite_kept (m : Byte) (v : Word) {s : State} (hk : s.kept q n) :
    outKept q n (execIaCtrlWrite m v s) := by
  unfold execIaCtrlWrite
  with_reducible repeat' first | assumption | refine out_next ?_ | apply State.iaCtrlWrite_kept | refine kept_mk ?_

theorem State.tenAppWrite_kept {s : State} (m : Nat) (x2 : Half) (v : Word) (hk : s.kept q n) :
    (State.tenAppWrite s m x2 v).kept q n := by
  unfold State.tenAppWrite
  with_reducible repeat' first | assumption | apply State.busErr_kept | apply State.guardReg_kept | apply State.plainWrite_kept | intro _ | refine kept_ite ?_ ?_ | refine kept_mk ?_

theorem execTenAppWrite_kept (m : Byte) (x1 : Half) (v : Word) {s : State} (hk : s.kept q n) :
    outKept q n (execTenAppWrite m x1 v s) := by
  unfold execTenAppWrite
  with_reducible repeat' first | assumption | refine out_next ?_ | apply State.tenAppWrite_kept | refine kept_mk ?_

theorem execResyncPassDone_kept (readError : Bool) {s : State} (hk : s.kept q n) :
    outKept q n (execResyncPassDone readError s) := by
  unfold execResyncPassDone
  with_reducible repeat' first | assumption | refine out_next ?_ | apply State.copyGranules_kept | apply State.fault_kept | apply State.refuseResync_kept | refine kept_ite ?_ ?_ | refine out_ite ?_ ?_ | split | refine fst_kept (by assumption) ?_ | refine snd_kept (by assumption) ?_ | refine opt_kept (by assumption) ?_ | refine kept_mk ?_

theorem State.dropTest_kept {s : State} (hk : s.kept q n) :
    (State.dropTest s).kept q n := by
  unfold State.dropTest
  with_reducible repeat' first | assumption | apply State.setf_kept | split | refine fst_kept (by assumption) ?_ | refine snd_kept (by assumption) ?_ | refine opt_kept (by assumption) ?_ | refine kept_mk ?_

theorem State.loseTrivet_kept {s : State} (hk : s.kept q n) :
    (State.loseTrivet s).kept q n := by
  unfold State.loseTrivet
  with_reducible repeat' first | assumption | apply State.dropTest_kept | apply State.fault_kept | refine kept_ite ?_ ?_ | refine kept_mk ?_

theorem execAliveLineToggle_kept {s : State} (hk : s.kept q n) :
    outKept q n (execAliveLineToggle s) := by
  unfold execAliveLineToggle
  with_reducible repeat' first | assumption | refine out_next ?_ | refine kept_mk ?_

theorem execAliveLineTimeout_kept {s : State} (hk : s.kept q n) :
    outKept q n (execAliveLineTimeout s) := by
  unfold execAliveLineTimeout
  with_reducible repeat' first | assumption | refine out_next ?_ | apply State.loseTrivet_kept | intro _ | refine kept_ite ?_ ?_ | refine out_ite ?_ ?_ | split | refine fst_kept (by assumption) ?_ | refine snd_kept (by assumption) ?_ | refine opt_kept (by assumption) ?_ | refine kept_mk ?_

theorem execTrivetLockstepError_kept {s : State} (hk : s.kept q n) :
    outKept q n (execTrivetLockstepError s) := by
  unfold execTrivetLockstepError
  with_reducible repeat' first | assumption | refine out_next ?_ | apply State.loseTrivet_kept | refine kept_mk ?_

theorem execTrivetWatchdogExpiry_kept {s : State} (hk : s.kept q n) :
    outKept q n (execTrivetWatchdogExpiry s) := by
  unfold execTrivetWatchdogExpiry
  with_reducible repeat' first | assumption | refine out_next ?_ | apply State.loseTrivet_kept | refine kept_mk ?_

theorem execVddTrvFail_kept {s : State} (h : s.kept q n) : outKept q n (execVddTrvFail s) := by
  have h1 := State.loseTrivet_kept h
  exact out_next (kept_chg h1 (kept_not_both h1))

end Sys2Proof.Machine
end

