-- ==== Sys2Proof/Laws/KeptColander.lean ====
section
/-! SUPPORT. What the definitions of Machine/Colander.lean keep: the queue, the time, the canonical form of memory and registers, and that at
most one half is in CHARGE. -/

set_option linter.unreachableTactic false
set_option linter.unusedTactic false
set_option linter.unusedVariables false

namespace Sys2Proof.Machine
open Sys2Proof

variable {q : List Instr} {n : Nat}

theorem State.startTest_kept {s : State} (periodic : Bool) (hk : s.kept q n) :
    (State.startTest s periodic).kept q n := by
  unfold State.startTest
  with_reducible repeat' first | assumption | apply State.inc_kept | apply State.setf_kept | refine kept_ite ?_ ?_ | refine kept_mk ?_

theorem State.lastMm_kept {s : State} (code : Nat) (off : Nat) (x3 : Nat) (rp : Nat) (hk : s.kept q n) :
    (State.lastMm s code off x3 rp).kept q n := by
  unfold State.lastMm
  with_reducible repeat' first | assumption | apply State.wr64_kept | apply State.wrn_kept | refine kept_mk ?_

theorem State.faultMm_kept {s : State} (code : Nat) (rp : Nat) (hk : s.kept q n) :
    (State.faultMm s code rp).kept q n := by
  unfold State.faultMm
  with_reducible repeat' first | assumption | apply State.faultD_kept | refine kept_mk ?_

theorem State.scheduleRound_kept {s : State} (hk : s.kept q n) :
    (State.scheduleRound s).kept q n := by
  unfold State.scheduleRound
  with_reducible repeat' first | assumption | refine kept_ite ?_ ?_ | refine kept_mk ?_

theorem State.colPurge_kept {s : State} (x1 : Nat) (hk : s.kept q n) :
    (State.colPurge s x1).kept q n := by
  unfold State.colPurge
  with_reducible repeat' first | assumption | apply State.colDiscard_kept | intro _ | refine kept_mk ?_

theorem State.block_kept {s : State} (x1 : Nat) (hk : s.kept q n) :
    (State.block s x1).kept q n := by
  unfold State.block
  with_reducible repeat' first | assumption | apply State.colPurge_kept | apply State.setf_kept | apply State.startTest_kept | refine kept_ite ?_ ?_ | split | refine fst_kept (by assumption) ?_ | refine snd_kept (by assumption) ?_ | refine opt_kept (by assumption) ?_ | refine kept_mk ?_

theorem State.countRun_kept {s : State} (x1 : Nat) (hk : s.kept q n) :
    (State.countRun s x1).kept q n := by
  unfold State.countRun
  with_reducible repeat' first | assumption | apply State.incSat_kept | apply State.setf_kept | refine kept_mk ?_

theorem State.mismatch_kept {s : State} (code : Nat) (off : Nat) (x3 : Nat) (rp : Nat) (hk : s.kept q n) :
    (State.mismatch s code off x3 rp).kept q n := by
  unfold State.mismatch
  with_reducible repeat' first | assumption | apply State.block_kept | apply State.countRun_kept | apply State.faultMm_kept | apply State.lastMm_kept | apply State.scheduleRound_kept | refine kept_ite ?_ ?_ | split | refine fst_kept (by assumption) ?_ | refine snd_kept (by assumption) ?_ | refine opt_kept (by assumption) ?_ | refine kept_mk ?_

theorem State.probMismatch_kept {s : State} (sb : Half) (code : Nat) (off : Nat) (x4 : Nat) (rp : Nat) (hk : s.kept q n) :
    (State.probMismatch s sb code off x4 rp).kept q n := by
  unfold State.probMismatch
  with_reducible repeat' first | assumption | apply State.demote_kept | apply State.inc_kept | apply State.lastMm_kept | refine kept_ite ?_ ?_ | refine kept_mk ?_

theorem State.discardPair_kept {s : State} (x1 : Nat) (rp : Nat) (hk : s.kept q n) :
    (State.discardPair s x1 rp).kept q n := by
  unfold State.discardPair
  with_reducible repeat' first | assumption | apply State.incBy_kept | apply State.takePair_kept | intro _ | split | refine fst_kept (by assumption) ?_ | refine snd_kept (by assumption) ?_ | refine opt_kept (by assumption) ?_ | refine kept_mk ?_

theorem State.judgeBoth_kept {s : State} (x1 : Half) (own : Copy) (oth : Copy) (expired : Bool) (hk : s.kept q n) :
    (State.judgeBoth s x1 own oth expired).kept q n := by
  unfold State.judgeBoth
  with_reducible repeat' first | assumption | apply State.colRelease_kept | apply State.discardPair_kept | apply State.inc_kept | apply State.mismatch_kept | apply State.setf_kept | apply State.takePair_kept | refine kept_ite ?_ ?_ | split | refine fst_kept (by assumption) ?_ | refine snd_kept (by assumption) ?_ | refine opt_kept (by assumption) ?_ | refine kept_mk ?_

theorem State.releaseUnsent_kept {s : State} (x1 : Half) (x2 : Nat) (rp : Nat) (hk : s.kept q n) :
    (State.releaseUnsent s x1 x2 rp).kept q n := by
  unfold State.releaseUnsent
  with_reducible repeat' first | assumption | apply State.colRelease_kept | apply State.putColQueue_kept | apply foldl_kept | intro _ | refine kept_ite ?_ ?_ | refine kept_mk ?_

theorem State.judgeProb_kept {s : State} (x1 : Half) (x2 : Nat) (rp : Nat) (expired : Bool) (hk : s.kept q n) :
    (State.judgeProb s x1 x2 rp expired).kept q n := by
  unfold State.judgeProb
  with_reducible repeat' first | assumption | apply State.discardPair_kept | apply State.faultMm_kept | apply State.inc_kept | apply State.probMismatch_kept | apply State.releaseUnsent_kept | apply State.takePair_kept | refine kept_ite ?_ ?_ | split | refine fst_kept (by assumption) ?_ | refine snd_kept (by assumption) ?_ | refine opt_kept (by assumption) ?_ | refine kept_mk ?_

theorem State.judge_kept {s : State} (x1 : Nat) (rp : Nat) (expired : Bool) (hk : s.kept q n) :
    (State.judge s x1 rp expired).kept q n := by
  unfold State.judge
  with_reducible repeat' first | assumption | apply State.colRelease_kept | apply State.discardPair_kept | apply State.inc_kept | apply State.judgeBoth_kept | apply State.judgeProb_kept | apply State.mismatch_kept | apply State.takePair_kept | refine kept_ite ?_ ?_ | split | refine fst_kept (by assumption) ?_ | refine snd_kept (by assumption) ?_ | refine opt_kept (by assumption) ?_ | refine kept_mk ?_

theorem State.releaseDue_kept {s : State} (hk : s.kept q n) :
    (State.releaseDue s).kept q n := by
  unfold State.releaseDue
  with_reducible repeat' first | assumption | apply State.judge_kept | apply foldl_kept | intro _ | refine kept_mk ?_

theorem State.colSubmit_kept {s : State} (x1 : Half) (m : Nat) (c : Copy) (hk : s.kept q n) :
    (State.colSubmit s x1 m c).1.kept q n := by
  unfold State.colSubmit
  with_reducible repeat' first | assumption | apply State.inc_kept | apply State.judge_kept | apply State.putColQueue_kept | refine kept_ite ?_ ?_ | refine kept_mk ?_

theorem State.portSubmit_kept {s : State} (x1 : Nat) (c : Copy) (hk : s.kept q n) :
    (State.portSubmit s x1 c).kept q n := by
  unfold State.portSubmit
  with_reducible repeat' first | assumption | apply State.colSubmit_kept | apply State.ok_kept | apply State.setf_kept | split | refine fst_kept (by assumption) ?_ | refine snd_kept (by assumption) ?_ | refine opt_kept (by assumption) ?_ | refine kept_mk ?_

theorem State.colSubWrite_kept {s : State} (m : Nat) (x2 : Nat) (v : Word) (hk : s.kept q n) :
    (State.colSubWrite s m x2 v).kept q n := by
  unfold State.colSubWrite
  with_reducible repeat' first | assumption | apply State.busErr_kept | apply State.guardReg_kept | apply State.plainWrite_kept | apply State.portSubmit_kept | intro _ | refine kept_ite ?_ ?_ | refine kept_mk ?_

theorem execColSubmit_kept (m : Byte) (x1 : Fin 4) (v : Word) {s : State} (hk : s.kept q n) :
    outKept q n (execColSubmit m x1 v s) := by
  unfold execColSubmit
  with_reducible repeat' first | assumption | refine out_next ?_ | apply State.colSubWrite_kept | refine kept_mk ?_

theorem execColSubmitQueueSpace_kept (x0 : Fin 4) {s : State} (hk : s.kept q n) :
    outKept q n (execColSubmitQueueSpace x0 s) := by
  unfold execColSubmitQueueSpace
  with_reducible repeat' first | assumption | refine out_next ?_ | apply State.portSubmit_kept | intro _ | refine kept_ite ?_ ?_ | refine out_ite ?_ ?_ | split | refine fst_kept (by assumption) ?_ | refine snd_kept (by assumption) ?_ | refine opt_kept (by assumption) ?_ | refine kept_mk ?_

theorem execColReleasePoint_kept (x0 : Fin 256) (rp : Dword) {s : State} (hk : s.kept q n) :
    outKept q n (execColReleasePoint x0 rp s) := by
  unfold execColReleasePoint
  with_reducible repeat' first | assumption | refine out_next ?_ | apply State.judge_kept | refine kept_ite ?_ ?_ | refine out_ite ?_ ?_ | refine kept_mk ?_

theorem execColWaitExpiry_kept (x0 : Fin 256) (rp : Dword) {s : State} (hk : s.kept q n) :
    outKept q n (execColWaitExpiry x0 rp s) := by
  unfold execColWaitExpiry
  with_reducible repeat' first | assumption | refine out_next ?_ | apply State.judge_kept | refine kept_ite ?_ ?_ | refine out_ite ?_ ?_ | split | refine fst_kept (by assumption) ?_ | refine snd_kept (by assumption) ?_ | refine opt_kept (by assumption) ?_ | refine kept_mk ?_

theorem State.driveGrant_kept {s : State} (h : s.kept q n) : s.driveGrant.kept q n := kept_chg h (kept_not_both h)

theorem execColReleasePathOpen_kept {s : State} (h : s.kept q n) : outKept q n (execColReleasePathOpen s) :=
  out_next (kept_ite (State.releaseDue_kept h) (State.releaseDue_kept (State.driveGrant_kept h)))

theorem execColSelftestEnd_kept (colOk : Bool) (kOk : Bool) (pOk : Bool) {s : State} (hk : s.kept q n) :
    outKept q n (execColSelftestEnd colOk kOk pOk s) := by
  unfold execColSelftestEnd
  with_reducible repeat' first | assumption | refine out_next ?_ | apply State.clearBlocked_kept | apply State.clearRuns_kept | apply State.demote_kept | apply State.exits_kept | apply State.fault_kept | apply State.setf_kept | apply State.startTest_kept | apply State.toService_kept | refine kept_ite ?_ ?_ | refine out_ite ?_ ?_ | split | refine fst_kept (by assumption) ?_ | refine snd_kept (by assumption) ?_ | refine opt_kept (by assumption) ?_ | refine kept_mk ?_

theorem execColSelftestPeriodic_kept {s : State} (hk : s.kept q n) :
    outKept q n (execColSelftestPeriodic s) := by
  unfold execColSelftestPeriodic
  with_reducible repeat' first | assumption | refine out_next ?_ | apply State.startTest_kept | refine kept_ite ?_ ?_ | refine out_ite ?_ ?_ | split | refine fst_kept (by assumption) ?_ | refine snd_kept (by assumption) ?_ | refine opt_kept (by assumption) ?_ | refine kept_mk ?_

theorem State.colCtrlWrite_kept {s : State} (m : Nat) (v : Word) (hk : s.kept q n) :
    (State.colCtrlWrite s m v).kept q n := by
  unfold State.colCtrlWrite
  with_reducible repeat' first | assumption | apply State.guardReg_kept | apply State.isolate_kept | apply State.plainWrite_kept | apply foldl_kept | intro _ | refine kept_ite ?_ ?_ | refine kept_mk ?_

theorem execIsoServiceWrite_kept (m : Byte) (v : Word) {s : State} (hk : s.kept q n) :
    outKept q n (execIsoServiceWrite m v s) := by
  unfold execIsoServiceWrite
  with_reducible repeat' first | assumption | refine out_next ?_ | apply State.colCtrlWrite_kept | refine kept_ite ?_ ?_ | refine out_ite ?_ ?_ | refine kept_mk ?_

theorem State.colStreamWrite_kept {s : State} (m : Nat) (x2 : Nat) (w : Nat) (v : Word) (hk : s.kept q n) :
    (State.colStreamWrite s m x2 w v).kept q n := by
  unfold State.colStreamWrite
  with_reducible repeat' first | assumption | apply State.colPurge_kept | apply State.guardReg_kept | apply State.plainWrite_kept | intro _ | refine kept_mk ?_

end Sys2Proof.Machine
end

