-- ==== Sys2Proof/Laws/KeptWakeCore.lean ====
section
/-! SUPPORT. What the definitions of Machine/WakeCore.lean keep: the queue, the time, the canonical form of memory and registers, and that at
most one half is in CHARGE. -/

set_option linter.unreachableTactic false
set_option linter.unusedTactic false
set_option linter.unusedVariables false

namespace Sys2Proof.Machine
open Sys2Proof

variable {q : List Instr} {n : Nat}

theorem State.putSeg_kept {s : State} (x1 : Nat) (x : Seg) (hk : s.kept q n) :
    (State.putSeg s x1 x).kept q n := by
  unfold State.putSeg
  with_reducible repeat' first | assumption | refine kept_mk ?_

theorem State.mapSeg_kept {s : State} (x1 : Nat) (f : Seg → Seg) (hk : s.kept q n) :
    (State.mapSeg s x1 f).kept q n := by
  unfold State.mapSeg
  with_reducible repeat' first | assumption | apply State.putSeg_kept | refine kept_mk ?_

theorem State.setSeg_kept {s : State} (x1 : Nat) (v : Nat) (hk : s.kept q n) :
    (State.setSeg s x1 v).kept q n := by
  unfold State.setSeg
  with_reducible repeat' first | assumption | apply State.setf_kept | refine kept_mk ?_

theorem State.segRestart_kept {s : State} (x1 : Nat) (x2 : Nat) (hk : s.kept q n) :
    (State.segRestart s x1 x2).kept q n := by
  unfold State.segRestart
  with_reducible repeat' first | assumption | apply State.wr64_kept | refine kept_mk ?_

theorem State.wakeEvent_kept {s : State} (r : WakeReq) (hk : s.kept q n) :
    (State.wakeEvent s r).kept q n := by
  unfold State.wakeEvent
  with_reducible repeat' first | assumption | refine kept_ite ?_ ?_ | refine kept_mk ?_

theorem State.validComm_kept {s : State} (f : Nat → Bool) (hk : s.kept q n) :
    (State.validComm s f).kept q n := by
  unfold State.validComm
  with_reducible repeat' first | assumption | intro _ | refine kept_mk ?_

theorem State.validTraffic_kept {s : State} (bit : Nat) (hk : s.kept q n) :
    (State.validTraffic s bit).kept q n := by
  unfold State.validTraffic
  with_reducible repeat' first | assumption | apply State.mapSeg_kept | apply State.validComm_kept | intro _ | split | refine fst_kept (by assumption) ?_ | refine snd_kept (by assumption) ?_ | refine opt_kept (by assumption) ?_ | refine kept_mk ?_

theorem State.validCommand_kept {s : State} (x1 : Nat) (hk : s.kept q n) :
    (State.validCommand s x1).kept q n := by
  unfold State.validCommand
  with_reducible repeat' first | assumption | apply State.validComm_kept | intro _ | split | refine fst_kept (by assumption) ?_ | refine snd_kept (by assumption) ?_ | refine opt_kept (by assumption) ?_ | refine kept_mk ?_

theorem State.validMbx_kept {s : State} (c : Nat) (hk : s.kept q n) :
    (State.validMbx s c).kept q n := by
  unfold State.validMbx
  with_reducible repeat' first | assumption | apply State.validComm_kept | intro _ | refine kept_mk ?_

theorem State.validFrame_kept {s : State} (p : Nat) (bs : List Byte) (hk : s.kept q n) :
    (State.validFrame s p bs).kept q n := by
  unfold State.validFrame
  with_reducible repeat' first | assumption | apply State.validTraffic_kept | intro _ | refine kept_ite ?_ ?_ | refine kept_mk ?_

theorem State.startCheck_kept {s : State} (prev : Nat) (r : WakeReq) (hk : s.kept q n) :
    (State.startCheck s prev r).kept q n := by
  unfold State.startCheck
  with_reducible repeat' first | assumption | apply State.mapSeg_kept | intro _ | refine kept_ite ?_ ?_ | refine kept_mk ?_

theorem State.wakeReleased_kept {s : State} (x1 : Half) (hk : s.kept q n) :
    (State.wakeReleased s x1).kept q n := by
  unfold State.wakeReleased
  with_reducible repeat' first | assumption | apply State.setf_kept | apply State.startCheck_kept | apply foldl_kept | intro _ | refine kept_ite ?_ ?_ | refine kept_mk ?_

end Sys2Proof.Machine
end

