-- ==== Sys2Proof/Laws/KeptCx.lean ====
section
/-! SUPPORT. What the definitions of Machine/Cx.lean keep: the queue, the time, the canonical form of memory and registers, and that at
most one half is in CHARGE. -/

set_option linter.unreachableTactic false
set_option linter.unusedTactic false
set_option linter.unusedVariables false

namespace Sys2Proof.Machine
open Sys2Proof

variable {q : List Instr} {n : Nat}

theorem State.dttShow_kept {s : State} (c : Nat) (hk : s.kept q n) :
    (State.dttShow s c).kept q n := by
  unfold State.dttShow
  with_reducible repeat' first | assumption | apply State.setf_kept | apply State.wr64_kept | apply State.wrn_kept | refine kept_mk ?_

theorem State.dttEmit_kept {s : State} (c : Nat) (f : CxFrame) (hk : s.kept q n) :
    (State.dttEmit s c f).kept q n := by
  unfold State.dttEmit
  with_reducible repeat' first | assumption | apply State.emitField_kept | refine kept_mk ?_

theorem State.dttTxEnd_kept {s : State} (c : Nat) (e : BusEnd) (hk : s.kept q n) :
    (State.dttTxEnd s c e).kept q n := by
  unfold State.dttTxEnd
  with_reducible repeat' first | assumption | apply State.cxTxErr_kept | apply State.cxTxOk_kept | apply State.inc_kept | apply State.ok_kept | split | refine fst_kept (by assumption) ?_ | refine snd_kept (by assumption) ?_ | refine opt_kept (by assumption) ?_ | refine kept_mk ?_

theorem State.refLast_kept {s : State} (c : Nat) (id : Nat) (rank : Option Nat) (data : List Byte) (hk : s.kept q n) :
    (State.refLast s c id rank data).kept q n := by
  unfold State.refLast
  with_reducible repeat' first | assumption | apply State.wrn_kept | split | refine fst_kept (by assumption) ?_ | refine snd_kept (by assumption) ?_ | refine opt_kept (by assumption) ?_ | refine kept_mk ?_

theorem State.dttIntegrate_kept {s : State} (c : Nat) (p : Pattern) (id : Nat) (rank : Option Nat) (stamp : Nat) (data : List Byte) (hk : s.kept q n) :
    (State.dttIntegrate s c p id rank stamp data).kept q n := by
  unfold State.dttIntegrate
  with_reducible repeat' first | assumption | apply State.dttEnter_kept | apply State.dttForget_kept | apply State.dttShow_kept | apply State.inc_kept | apply State.mapCan_kept | apply State.refLast_kept | intro _ | refine kept_mk ?_

theorem State.dttCorrect_kept {s : State} (c : Nat) (p : Pattern) (id : Nat) (rank : Option Nat) (stamp : Nat) (own : Bool) (data : List Byte) (hk : s.kept q n) :
    (State.dttCorrect s c p id rank stamp own data).kept q n := by
  unfold State.dttCorrect
  with_reducible repeat' first | assumption | apply State.dttEnter_kept | apply State.dttShow_kept | apply State.inc_kept | apply State.putCan_kept | apply State.refLast_kept | apply State.wrn_kept | refine kept_ite ?_ ?_ | refine kept_mk ?_

theorem State.dttReference_kept {s : State} (c : Nat) (id : Nat) (stamp : Nat) (data : List Byte) (hk : s.kept q n) :
    (State.dttReference s c id stamp data).kept q n := by
  unfold State.dttReference
  with_reducible repeat' first | assumption | apply State.dttCorrect_kept | apply State.dttIntegrate_kept | apply State.inc_kept | apply State.mapCan_kept | intro _ | refine kept_ite ?_ ?_ | split | refine fst_kept (by assumption) ?_ | refine snd_kept (by assumption) ?_ | refine opt_kept (by assumption) ?_ | refine kept_mk ?_

theorem execDttReferenceReceive_kept (c : Fin 8) (id : Fin 2048) (stamp : Nat) (data : List Byte) {s : State} (hk : s.kept q n) :
    outKept q n (execDttReferenceReceive c id stamp data s) := by
  unfold execDttReferenceReceive
  with_reducible repeat' first | assumption | refine out_next ?_ | apply State.cxRxCount_kept | apply State.dttReference_kept | apply State.validTraffic_kept | refine kept_ite ?_ ?_ | refine out_ite ?_ ?_ | refine kept_mk ?_

theorem State.dttData_kept {s : State} (c : Nat) (p : Pattern) (stamp : Nat) (err : Bool) (f : CxFrame) (hk : s.kept q n) :
    (State.dttData s c p stamp err f).kept q n := by
  unfold State.dttData
  with_reducible repeat' first | assumption | apply State.cxAccept_kept | apply State.cxStage_kept | apply State.inc_kept | apply State.mapCan_kept | intro _ | refine kept_ite ?_ ?_ | split | refine fst_kept (by assumption) ?_ | refine snd_kept (by assumption) ?_ | refine opt_kept (by assumption) ?_ | refine kept_mk ?_

theorem execCxFrameReceive_kept (c : Fin 8) (f : CxFrame) (stamp : Nat) (err : Bool) {s : State} (hk : s.kept q n) :
    outKept q n (execCxFrameReceive c f stamp err s) := by
  unfold execCxFrameReceive
  with_reducible repeat' first | assumption | refine out_next ?_ | apply State.cxAccept_kept | apply State.cxRxCount_kept | apply State.dttData_kept | apply State.dttReference_kept | apply State.mapCan_kept | apply State.validTraffic_kept | intro _ | refine kept_ite ?_ ?_ | refine out_ite ?_ ?_ | split | refine fst_kept (by assumption) ?_ | refine snd_kept (by assumption) ?_ | refine opt_kept (by assumption) ?_ | refine kept_mk ?_

theorem State.cxAttempt_kept {s : State} (c : Nat) (b : CxBuf) (e : BusEnd) (delay : Byte) (once : Bool) (hk : s.kept q n) :
    (State.cxAttempt s c b e delay once).kept q n := by
  unfold State.cxAttempt
  with_reducible repeat' first | assumption | apply State.cxTxErr_kept | apply State.cxTxOk_kept | apply State.emitField_kept | apply State.inc_kept | apply State.mapCan_kept | apply State.ok_kept | apply State.setf_kept | intro _ | refine kept_ite ?_ ?_ | split | refine fst_kept (by assumption) ?_ | refine snd_kept (by assumption) ?_ | refine opt_kept (by assumption) ?_ | refine kept_mk ?_

theorem execCxTxAttempt_kept (c : Fin 8) (e : BusEnd) (delay : Byte) {s : State} (hk : s.kept q n) :
    outKept q n (execCxTxAttempt c e delay s) := by
  unfold execCxTxAttempt
  with_reducible repeat' first | assumption | refine out_next ?_ | apply State.cxAttempt_kept | refine kept_ite ?_ ?_ | refine out_ite ?_ ?_ | split | refine fst_kept (by assumption) ?_ | refine snd_kept (by assumption) ?_ | refine opt_kept (by assumption) ?_ | refine kept_mk ?_

theorem execCxBusoffRecoveryDone_kept (c : Fin 8) {s : State} (hk : s.kept q n) :
    outKept q n (execCxBusoffRecoveryDone c s) := by
  unfold execCxBusoffRecoveryDone
  with_reducible repeat' first | assumption | refine out_next ?_ | apply State.cxBus_kept | apply State.cxStatus_kept | apply State.dttForget_kept | apply State.putCan_kept | apply State.wr_kept | refine kept_ite ?_ ?_ | refine out_ite ?_ ?_ | refine kept_mk ?_

theorem execCxProtocolException_kept (c : Fin 8) {s : State} (hk : s.kept q n) :
    outKept q n (execCxProtocolException c s) := by
  unfold execCxProtocolException
  with_reducible repeat' first | assumption | refine out_next ?_ | apply State.inc_kept | apply State.mapCan_kept | intro _ | refine kept_ite ?_ ?_ | refine out_ite ?_ ?_ | refine kept_mk ?_

theorem execCxPxeReintegrate_kept (c : Fin 8) {s : State} (hk : s.kept q n) :
    outKept q n (execCxPxeReintegrate c s) := by
  unfold execCxPxeReintegrate
  with_reducible repeat' first | assumption | refine out_next ?_ | apply State.mapCan_kept | intro _ | refine kept_mk ?_

theorem execCxBusIntegrated_kept (c : Fin 8) {s : State} (hk : s.kept q n) :
    outKept q n (execCxBusIntegrated c s) := by
  unfold execCxBusIntegrated
  with_reducible repeat' first | assumption | refine out_next ?_ | apply State.setf_kept | refine kept_ite ?_ ?_ | refine out_ite ?_ ?_ | refine kept_mk ?_

theorem State.cxCtrlWrite_kept {s : State} (m : Nat) (c : Nat) (v : Word) (hk : s.kept q n) :
    (State.cxCtrlWrite s m c v).kept q n := by
  unfold State.cxCtrlWrite
  with_reducible repeat' first | assumption | apply State.cxBus_kept | apply State.cxStatus_kept | apply State.guardReg_kept | apply State.mapCan_kept | apply State.padLeave_kept | apply State.plainWrite_kept | apply State.setb_kept | apply State.setf_kept | apply foldl_kept | intro _ | refine kept_ite ?_ ?_ | split | refine fst_kept (by assumption) ?_ | refine snd_kept (by assumption) ?_ | refine opt_kept (by assumption) ?_ | refine kept_mk ?_

theorem execCxCtrlWrite_kept (m : Byte) (c : Fin 8) (v : Word) {s : State} (hk : s.kept q n) :
    outKept q n (execCxCtrlWrite m c v s) := by
  unfold execCxCtrlWrite
  with_reducible repeat' first | assumption | refine out_next ?_ | apply State.cxCtrlWrite_kept | refine kept_mk ?_

theorem State.cxTimingWrite_kept {s : State} (m : Nat) (c : Nat) (a : Nat) (v : Word) (hk : s.kept q n) :
    (State.cxTimingWrite s m c a v).kept q n := by
  unfold State.cxTimingWrite
  with_reducible repeat' first | assumption | apply State.guardReg_kept | apply State.plainWrite_kept | apply State.setf_kept | intro _ | refine kept_ite ?_ ?_ | refine kept_mk ?_

theorem State.dttOff_kept {s : State} (c : Nat) (hk : s.kept q n) :
    (State.dttOff s c).kept q n := by
  unfold State.dttOff
  with_reducible repeat' first | assumption | apply State.dttEnter_kept | apply State.dttForget_kept | apply State.mapCan_kept | apply State.setf_kept | intro _ | refine kept_mk ?_

theorem State.dttCtrlWrite_kept {s : State} (m : Nat) (c : Nat) (v : Word) (hk : s.kept q n) :
    (State.dttCtrlWrite s m c v).kept q n := by
  unfold State.dttCtrlWrite
  with_reducible repeat' first | assumption | apply State.dttListen_kept | apply State.dttOff_kept | apply State.guardReg_kept | apply State.mapCan_kept | apply State.plainWrite_kept | apply State.setf_kept | apply State.wr_kept | intro _ | refine kept_ite ?_ ?_ | refine kept_mk ?_

theorem execDttEnable_kept (m : Byte) (c : Fin 8) (v : Word) {s : State} (hk : s.kept q n) :
    outKept q n (execDttEnable m c v s) := by
  unfold execDttEnable
  with_reducible repeat' first | assumption | refine out_next ?_ | apply State.dttCtrlWrite_kept | refine kept_mk ?_

theorem execDttDisable_kept (m : Byte) (c : Fin 8) (v : Word) {s : State} (hk : s.kept q n) :
    outKept q n (execDttDisable m c v s) := by
  unfold execDttDisable
  with_reducible repeat' first | assumption | refine out_next ?_ | apply State.dttCtrlWrite_kept | refine kept_mk ?_

theorem State.dttOffWrite_kept {s : State} (m : Nat) (c : Nat) (a : Nat) (v : Word) (hk : s.kept q n) :
    (State.dttOffWrite s m c a v).kept q n := by
  unfold State.dttOffWrite
  with_reducible repeat' first | assumption | apply State.guardReg_kept | apply State.plainWrite_kept | apply State.setf_kept | intro _ | refine kept_ite ?_ ?_ | refine kept_mk ?_

theorem execDttListenTimeout_kept (c : Fin 8) {s : State} (hk : s.kept q n) :
    outKept q n (execDttListenTimeout c s) := by
  unfold execDttListenTimeout
  with_reducible repeat' first | assumption | refine out_next ?_ | apply State.dttEnter_kept | apply State.putCan_kept | (fail_if_no_progress (extract_lets +onlyGivenNames x); first | (refine kept_bind (q := q) (n := n) (x := x) ?_ (fun _ => ?_); on_goal 2 => clear_value x; on_goal 1 => unfold x) | skip) | refine kept_ite ?_ ?_ | refine out_ite ?_ ?_ | split | refine fst_kept (by assumption) ?_ | refine snd_kept (by assumption) ?_ | refine opt_kept (by assumption) ?_ | refine kept_mk ?_

theorem execDttStartRefSend_kept (c : Fin 8) (idle : Bool) {s : State} (hk : s.kept q n) :
    outKept q n (execDttStartRefSend c idle s) := by
  unfold execDttStartRefSend
  with_reducible repeat' first | assumption | refine out_next ?_ | apply State.dttEmit_kept | apply State.putCan_kept | (fail_if_no_progress (extract_lets +onlyGivenNames x); first | (refine kept_bind (q := q) (n := n) (x := x) ?_ (fun _ => ?_); on_goal 2 => clear_value x; on_goal 1 => unfold x) | skip) | refine kept_ite ?_ ?_ | refine out_ite ?_ ?_ | split | refine fst_kept (by assumption) ?_ | refine snd_kept (by assumption) ?_ | refine opt_kept (by assumption) ?_ | refine kept_mk ?_

theorem execDttStartRefDone_kept (c : Fin 8) (e : BusEnd) {s : State} (hk : s.kept q n) :
    outKept q n (execDttStartRefDone c e s) := by
  unfold execDttStartRefDone
  with_reducible repeat' first | assumption | refine out_next ?_ | apply State.dttEnter_kept | apply State.dttForget_kept | apply State.dttListen_kept | apply State.dttOff_kept | apply State.dttShow_kept | apply State.dttTxEnd_kept | apply State.inc_kept | apply State.mapCan_kept | apply State.ok_kept | apply State.refLast_kept | (fail_if_no_progress (extract_lets +onlyGivenNames x); first | (refine kept_bind (q := q) (n := n) (x := x) ?_ (fun _ => ?_); on_goal 2 => clear_value x; on_goal 1 => unfold x) | skip) | intro _ | refine kept_ite ?_ ?_ | refine out_ite ?_ ?_ | split | refine fst_kept (by assumption) ?_ | refine snd_kept (by assumption) ?_ | refine opt_kept (by assumption) ?_ | refine kept_mk ?_

theorem execDttRankedRefSend_kept (c : Fin 8) (idle : Bool) (e : BusEnd) {s : State} (hk : s.kept q n) :
    outKept q n (execDttRankedRefSend c idle e s) := by
  unfold execDttRankedRefSend
  with_reducible repeat' first | assumption | refine out_next ?_ | apply State.dttCorrect_kept | apply State.dttEmit_kept | apply State.dttTxEnd_kept | apply State.ok_kept | apply State.putCan_kept | (fail_if_no_progress (extract_lets +onlyGivenNames x); first | (refine kept_bind (q := q) (n := n) (x := x) ?_ (fun _ => ?_); on_goal 2 => clear_value x; on_goal 1 => unfold x) | skip) | intro _ | refine kept_ite ?_ ?_ | refine out_ite ?_ ?_ | split | refine fst_kept (by assumption) ?_ | refine snd_kept (by assumption) ?_ | refine opt_kept (by assumption) ?_ | refine kept_mk ?_

theorem State.dttCountRow_kept {s : State} (c : Nat) (p : Pattern) (hk : s.kept q n) :
    (State.dttCountRow s c p).kept q n := by
  unfold State.dttCountRow
  with_reducible repeat' first | assumption | apply State.inc_kept | apply foldl_kept | intro _ | refine kept_ite ?_ ?_ | split | refine fst_kept (by assumption) ?_ | refine snd_kept (by assumption) ?_ | refine opt_kept (by assumption) ?_ | refine kept_mk ?_

theorem execDttRowEnd_kept (c : Fin 8) {s : State} (hk : s.kept q n) :
    outKept q n (execDttRowEnd c s) := by
  unfold execDttRowEnd
  with_reducible repeat' first | assumption | refine out_next ?_ | apply State.dttCountRow_kept | apply State.dttEnter_kept | apply State.dttListen_kept | apply State.dttShow_kept | apply State.putCan_kept | (fail_if_no_progress (extract_lets +onlyGivenNames x); first | (refine kept_bind (q := q) (n := n) (x := x) ?_ (fun _ => ?_); on_goal 2 => clear_value x; on_goal 1 => unfold x) | skip) | refine kept_ite ?_ ?_ | refine out_ite ?_ ?_ | split | refine fst_kept (by assumption) ?_ | refine snd_kept (by assumption) ?_ | refine opt_kept (by assumption) ?_ | refine kept_mk ?_

theorem execDttActionPoint_kept (c : Fin 8) (x1 : Fin 1023) (idle : Bool) (e : BusEnd) {s : State} (hk : s.kept q n) :
    outKept q n (execDttActionPoint c x1 idle e s) := by
  unfold execDttActionPoint
  with_reducible repeat' first | assumption | refine out_next ?_ | apply State.dttEmit_kept | apply State.dttTxEnd_kept | apply State.inc_kept | apply State.mapCan_kept | apply State.ok_kept | apply State.putCan_kept | (fail_if_no_progress (extract_lets +onlyGivenNames x); first | (refine kept_bind (q := q) (n := n) (x := x) ?_ (fun _ => ?_); on_goal 2 => clear_value x; on_goal 1 => unfold x) | skip) | intro _ | refine kept_ite ?_ ?_ | refine out_ite ?_ ?_ | split | refine fst_kept (by assumption) ?_ | refine snd_kept (by assumption) ?_ | refine opt_kept (by assumption) ?_ | refine kept_mk ?_

theorem State.dttPurge_kept {s : State} (c : Nat) (hk : s.kept q n) :
    (State.dttPurge s c).kept q n := by
  unfold State.dttPurge
  with_reducible repeat' first | assumption | apply State.mapCan_kept | apply State.wrn_kept | intro _ | refine kept_mk ?_

theorem execDttMinislotBoundary_kept (c : Fin 8) (k : Fin 1024) (idle : Bool) (used : Bool) (e : BusEnd) {s : State} (hk : s.kept q n) :
    outKept q n (execDttMinislotBoundary c k idle used e s) := by
  unfold execDttMinislotBoundary
  with_reducible repeat' first | assumption | refine out_next ?_ | apply State.cxAttempt_kept | apply State.dttPurge_kept | apply State.inc_kept | apply State.ok_kept | (fail_if_no_progress (extract_lets +onlyGivenNames x); first | (refine kept_bind (q := q) (n := n) (x := x) ?_ (fun _ => ?_); on_goal 2 => clear_value x; on_goal 1 => unfold x) | skip) | refine kept_ite ?_ ?_ | refine out_ite ?_ ?_ | split | refine fst_kept (by assumption) ?_ | refine snd_kept (by assumption) ?_ | refine opt_kept (by assumption) ?_ | refine kept_mk ?_

end Sys2Proof.Machine
end

