-- ==== Sys2Proof/Laws/KeptGauge.lean ====
section
/-! SUPPORT. What the definitions of Machine/Gauge.lean keep: the queue, the time, the canonical form of memory and registers, and that at
most one half is in CHARGE. -/

set_option linter.unreachableTactic false
set_option linter.unusedTactic false
set_option linter.unusedVariables false

namespace Sys2Proof.Machine
open Sys2Proof

variable {q : List Instr} {n : Nat}

theorem State.refSwitch_kept {s : State} (r : Half) (hk : s.kept q n) :
    (State.refSwitch s r).kept q n := by
  unfold State.refSwitch
  with_reducible repeat' first | assumption | apply State.inc_kept | apply State.setf_kept | refine kept_mk ?_

theorem execRefFail_kept (r : Half) {s : State} (hk : s.kept q n) :
    outKept q n (execRefFail r s) := by
  unfold execRefFail
  with_reducible repeat' first | assumption | refine out_next ?_ | apply State.fault_kept | apply State.refSwitch_kept | apply State.setf_kept | refine kept_ite ?_ ?_ | refine out_ite ?_ ?_ | refine kept_mk ?_

theorem execRefRecover_kept (r : Half) (diff : Word) {s : State} (hk : s.kept q n) :
    outKept q n (execRefRecover r diff s) := by
  unfold execRefRecover
  with_reducible repeat' first | assumption | refine out_next ?_ | apply State.setf_kept | apply State.wr_kept | refine kept_ite ?_ ?_ | refine out_ite ?_ ?_ | refine kept_mk ?_

theorem State.refSelect_kept {s : State} (hk : s.kept q n) :
    (State.refSelect s).kept q n := by
  unfold State.refSelect
  with_reducible repeat' first | assumption | apply State.refSwitch_kept | refine kept_ite ?_ ?_ | refine kept_mk ?_

theorem State.gaugeRefWrite_kept {s : State} (m : Nat) (v : Word) (hk : s.kept q n) :
    (State.gaugeRefWrite s m v).kept q n := by
  unfold State.gaugeRefWrite
  with_reducible repeat' first | assumption | apply State.guardReg_kept | apply State.plainWrite_kept | apply State.refSelect_kept | intro _ | refine kept_mk ?_

theorem execGaugeRefSelWrite_kept (m : Byte) (v : Word) {s : State} (hk : s.kept q n) :
    outKept q n (execGaugeRefSelWrite m v s) := by
  unfold execGaugeRefSelWrite
  with_reducible repeat' first | assumption | refine out_next ?_ | apply State.gaugeRefWrite_kept | refine kept_mk ?_

theorem execGaugePllLock_kept {s : State} (hk : s.kept q n) :
    outKept q n (execGaugePllLock s) := by
  unfold execGaugePllLock
  with_reducible repeat' first | assumption | refine out_next ?_ | apply State.incMod_kept | apply State.padLeaveShared_kept | apply State.setf_kept | refine kept_ite ?_ ?_ | refine out_ite ?_ ?_ | refine kept_mk ?_

theorem State.rawRead_kept {s : State} (m : Nat) (hk : s.kept q n) :
    (State.rawRead s m).kept q n := by
  unfold State.rawRead
  with_reducible repeat' first | assumption | apply State.ok_kept | refine kept_mk ?_

theorem execGaugeRawRead_kept (m : Byte) {s : State} (hk : s.kept q n) :
    outKept q n (execGaugeRawRead m s) := by
  unfold execGaugeRawRead
  with_reducible repeat' first | assumption | refine out_next ?_ | apply State.rawRead_kept | refine kept_ite ?_ ?_ | refine out_ite ?_ ?_ | refine kept_mk ?_

theorem State.domRead_kept {s : State} (m : Nat) (d : Nat) (hk : s.kept q n) :
    (State.domRead s m d).kept q n := by
  unfold State.domRead
  with_reducible repeat' first | assumption | apply State.ok_kept | refine kept_mk ?_

theorem execGaugeDomRead_kept (m : Byte) (d : Fin 4) {s : State} (hk : s.kept q n) :
    outKept q n (execGaugeDomRead m d s) := by
  unfold execGaugeDomRead
  with_reducible repeat' first | assumption | refine out_next ?_ | apply State.domRead_kept | refine kept_ite ?_ ?_ | refine out_ite ?_ ?_ | refine kept_mk ?_

theorem State.putConv_kept {s : State} (m : Nat) (d : Nat) (c : Conv) (hk : s.kept q n) :
    (State.putConv s m d c).kept q n := by
  unfold State.putConv
  with_reducible repeat' first | assumption | refine kept_mk ?_

theorem State.convLo_kept {s : State} (m : Nat) (d : Nat) (v : Word) (hk : s.kept q n) :
    (State.convLo s m d v).kept q n := by
  unfold State.convLo
  with_reducible repeat' first | assumption | apply State.guardReg_kept | apply State.putConv_kept | intro _ | refine kept_mk ?_

theorem State.convHi_kept {s : State} (m : Nat) (d : Nat) (v : Word) (hk : s.kept q n) :
    (State.convHi s m d v).kept q n := by
  unfold State.convHi
  with_reducible repeat' first | assumption | apply State.guardReg_kept | apply State.putConv_kept | intro _ | split | refine fst_kept (by assumption) ?_ | refine snd_kept (by assumption) ?_ | refine opt_kept (by assumption) ?_ | refine kept_mk ?_

theorem execGaugeConvert_kept (m : Byte) (d : Fin 4) (v : Word) {s : State} (hk : s.kept q n) :
    outKept q n (execGaugeConvert m d v s) := by
  unfold execGaugeConvert
  with_reducible repeat' first | assumption | refine out_next ?_ | apply State.convHi_kept | refine kept_mk ?_

theorem State.stageRej_kept {s : State} (d : Nat) (hk : s.kept q n) :
    (State.stageRej s d).kept q n := by
  unfold State.stageRej
  with_reducible repeat' first | assumption | apply State.setf_kept | refine kept_mk ?_

theorem State.stageWrite_kept {s : State} (m : Nat) (d : Nat) (a : Nat) (v : Word) (hk : s.kept q n) :
    (State.stageWrite s m d a v).kept q n := by
  unfold State.stageWrite
  with_reducible repeat' first | assumption | apply State.busErr_kept | apply State.guardReg_kept | apply State.plainWrite_kept | apply State.setf_kept | apply State.stageRej_kept | intro _ | refine kept_ite ?_ ?_ | refine kept_mk ?_

theorem State.commitCancel_kept {s : State} (d : Nat) (hk : s.kept q n) :
    (State.commitCancel s d).kept q n := by
  unfold State.commitCancel
  with_reducible repeat' first | assumption | apply State.putDom_kept | apply State.setf_kept | refine kept_ite ?_ ?_ | split | refine fst_kept (by assumption) ?_ | refine snd_kept (by assumption) ?_ | refine opt_kept (by assumption) ?_ | refine kept_mk ?_

theorem State.commitRequest_kept {s : State} (d : Nat) (hk : s.kept q n) :
    (State.commitRequest s d).kept q n := by
  unfold State.commitRequest
  with_reducible repeat' first | assumption | apply State.putDom_kept | apply State.setf_kept | apply State.stageRej_kept | refine kept_ite ?_ ?_ | refine kept_mk ?_

theorem State.domCtrlWrite_kept {s : State} (m : Nat) (d : Nat) (v : Word) (hk : s.kept q n) :
    (State.domCtrlWrite s m d v).kept q n := by
  unfold State.domCtrlWrite
  with_reducible repeat' first | assumption | apply State.busErr_kept | apply State.commitCancel_kept | apply State.commitRequest_kept | apply State.guardReg_kept | apply State.plainWrite_kept | apply State.stageRej_kept | intro _ | refine kept_ite ?_ ?_ | refine kept_mk ?_

theorem execGaugeCommitRequest_kept (m : Byte) (d : Fin 4) (v : Word) {s : State} (hk : s.kept q n) :
    outKept q n (execGaugeCommitRequest m d v s) := by
  unfold execGaugeCommitRequest
  with_reducible repeat' first | assumption | refine out_next ?_ | apply State.domCtrlWrite_kept | refine kept_mk ?_

theorem execGaugeCommitCancel_kept (m : Byte) (d : Fin 4) (v : Word) {s : State} (hk : s.kept q n) :
    outKept q n (execGaugeCommitCancel m d v s) := by
  unfold execGaugeCommitCancel
  with_reducible repeat' first | assumption | refine out_next ?_ | apply State.domCtrlWrite_kept | refine kept_mk ?_

theorem State.handoverFollow_kept {s : State} (d : Nat) (hk : s.kept q n) :
    (State.handoverFollow s d).kept q n := by
  unfold State.handoverFollow
  with_reducible repeat' first | assumption | apply State.wr64_kept | refine kept_ite ?_ ?_ | refine kept_mk ?_

theorem execGaugeCommit_kept (d : Fin 4) {s : State} (hk : s.kept q n) :
    outKept q n (execGaugeCommit d s) := by
  unfold execGaugeCommit
  with_reducible repeat' first | assumption | refine out_next ?_ | apply State.gatesHold_kept | apply State.handoverFollow_kept | apply State.inc_kept | apply State.putDom_kept | apply State.setf_kept | apply State.wr64_kept | refine kept_ite ?_ ?_ | refine out_ite ?_ ?_ | split | refine fst_kept (by assumption) ?_ | refine snd_kept (by assumption) ?_ | refine opt_kept (by assumption) ?_ | refine kept_mk ?_

theorem State.domCfgWrite_kept {s : State} (m : Nat) (d : Nat) (v : Word) (hk : s.kept q n) :
    (State.domCfgWrite s m d v).kept q n := by
  unfold State.domCfgWrite
  with_reducible repeat' first | assumption | apply State.guardReg_kept | apply State.plainWrite_kept | apply State.setf_kept | intro _ | refine kept_mk ?_

theorem execDomCfgWrite_kept (m : Byte) (d : Fin 4) (v : Word) {s : State} (hk : s.kept q n) :
    outKept q n (execDomCfgWrite m d v s) := by
  unfold execDomCfgWrite
  with_reducible repeat' first | assumption | refine out_next ?_ | apply State.domCfgWrite_kept | refine kept_mk ?_

theorem execHoldoverTimeout_kept (d : Fin 4) {s : State} (hk : s.kept q n) :
    outKept q n (execHoldoverTimeout d s) := by
  unfold execHoldoverTimeout
  with_reducible repeat' first | assumption | refine out_next ?_ | apply State.fault_kept | apply State.netEvent_kept | apply State.setf_kept | refine kept_ite ?_ ?_ | refine out_ite ?_ ?_ | split | refine fst_kept (by assumption) ?_ | refine snd_kept (by assumption) ?_ | refine opt_kept (by assumption) ?_ | refine kept_mk ?_

theorem State.cmpAdvance_kept {s : State} (k : Nat) (hk : s.kept q n) :
    (State.cmpAdvance s k).kept q n := by
  unfold State.cmpAdvance
  with_reducible repeat' first | assumption | apply State.setf_kept | apply State.wrUnlessWritten_kept | apply State.wrn_kept | refine kept_ite ?_ ?_ | refine kept_mk ?_

theorem execGaugeCompareEvent_kept (k : Fin 16) {s : State} (hk : s.kept q n) :
    outKept q n (execGaugeCompareEvent k s) := by
  unfold execGaugeCompareEvent
  with_reducible repeat' first | assumption | refine out_next ?_ | apply State.cmpAdvance_kept | apply State.hartLatch_kept | apply State.inc_kept | apply State.neCompare_kept | intro _ | refine kept_ite ?_ ?_ | refine out_ite ?_ ?_ | refine kept_mk ?_

theorem execPpsPulseEnd_kept (j : Fin 2) {s : State} (hk : s.kept q n) :
    outKept q n (execPpsPulseEnd j s) := by
  unfold execPpsPulseEnd
  with_reducible repeat' first | assumption | refine out_next ?_ | intro _ | refine kept_ite ?_ ?_ | refine out_ite ?_ ?_ | refine kept_mk ?_

theorem execGaugeRateFault_kept {s : State} (hk : s.kept q n) :
    outKept q n (execGaugeRateFault s) := by
  unfold execGaugeRateFault
  with_reducible repeat' first | assumption | refine out_next ?_ | apply State.fault_kept | refine kept_mk ?_

end Sys2Proof.Machine
end

