-- ==== Sys2Proof/Laws/KeptSpad.lean ====
section
/-! SUPPORT. What the definitions of Machine/Spad.lean keep: the queue, the time, the canonical form of memory and registers, and that at
most one half is in CHARGE. -/

set_option linter.unreachableTactic false
set_option linter.unusedTactic false
set_option linter.unusedVariables false

namespace Sys2Proof.Machine
open Sys2Proof

variable {q : List Instr} {n : Nat}

theorem State.spadClock_kept {s : State} (pa : Option SpadOp) (pb : Option SpadOp) (hk : s.kept q n) :
    (State.spadClock s pa pb).kept q n := by
  unfold State.spadClock
  with_reducible repeat' first | assumption | apply State.spadAccess_kept | apply State.spadPort_kept | intro _ | refine kept_ite ?_ ?_ | split | refine fst_kept (by assumption) ?_ | refine snd_kept (by assumption) ?_ | refine opt_kept (by assumption) ?_ | refine kept_mk ?_

theorem State.amoOther_kept {s : State} (a : Nat) (x2 : Option SpadOp) (hk : s.kept q n) :
    (State.amoOther s a x2).kept q n := by
  unfold State.amoOther
  with_reducible repeat' first | assumption | apply State.spadPort_kept | intro _ | split | refine fst_kept (by assumption) ?_ | refine snd_kept (by assumption) ?_ | refine opt_kept (by assumption) ?_ | refine kept_mk ?_

theorem State.dramAmo_kept {s : State} (k : Nat) (op : AmoOp) (x3 : Nat) (a : Nat) (v : Nat) (e : Ecc) (hk : s.kept q n) :
    (State.dramAmo s k op x3 a v e).kept q n := by
  unfold State.dramAmo
  with_reducible repeat' first | assumption | apply State.amoOther_kept | apply State.delivered_kept | apply State.dramAccess_kept | apply State.hartExc_kept | apply State.ok_kept | refine kept_ite ?_ ?_ | split | refine fst_kept (by assumption) ?_ | refine snd_kept (by assumption) ?_ | refine opt_kept (by assumption) ?_ | refine kept_mk ?_

theorem State.spadAmo_kept {s : State} (k : Nat) (op : AmoOp) (wide : Bool) (a : Nat) (v : Nat) (e : Ecc) (b1 : Option SpadOp) (b2 : Option SpadOp) (hk : s.kept q n) :
    (State.spadAmo s k op wide a v e b1 b2).kept q n := by
  unfold State.spadAmo
  with_reducible repeat' first | assumption | apply State.amoOther_kept | apply State.dramAmo_kept | apply State.hartExc_kept | apply State.ok_kept | apply State.spadPort_kept | intro _ | refine kept_ite ?_ ?_ | split | refine fst_kept (by assumption) ?_ | refine snd_kept (by assumption) ?_ | refine opt_kept (by assumption) ?_ | refine kept_mk ?_

theorem execScratchpadAccess_kept (pa : Option SpadOp) (pb : Option SpadOp) {s : State} (hk : s.kept q n) :
    outKept q n (execScratchpadAccess pa pb s) := by
  unfold execScratchpadAccess
  with_reducible repeat' first | assumption | refine out_next ?_ | apply State.spadClock_kept | intro _ | refine kept_ite ?_ ?_ | refine out_ite ?_ ?_ | refine kept_mk ?_

theorem State.spadAll_kept {s : State} (os : List SpadReq) (h : s.kept q n) : (s.spadAll os).kept q n := by
  induction os generalizing s with
  | nil => exact h
  | cons o os ih =>
    cases o with
    | access o => exact ih (State.spadAccess_kept o h)
    | amo k op wide a v => exact ih (State.spadAmo_kept k op wide a v .clean none none h)

theorem execSpadZeroingDone_kept (x0 : Half) {s : State} (hk : s.kept q n) :
    outKept q n (execSpadZeroingDone x0 s) := by
  unfold execSpadZeroingDone
  with_reducible repeat' first | assumption | refine out_next ?_ | apply State.clearMem_kept | apply State.setf_kept | apply State.spadAll_kept | intro _ | refine kept_ite ?_ ?_ | refine out_ite ?_ ?_ | refine kept_mk ?_

theorem State.sweepDone_kept {s : State} (x1 : Half) (bad : Option (Fin 16)) (hk : s.kept q n) :
    (State.sweepDone s x1 bad).kept q n := by
  unfold State.sweepDone
  with_reducible repeat' first | assumption | apply State.diagF3_kept | apply State.inc_kept | apply State.incMod_kept | apply State.setf_kept | refine kept_ite ?_ ?_ | split | refine fst_kept (by assumption) ?_ | refine snd_kept (by assumption) ?_ | refine opt_kept (by assumption) ?_ | refine kept_mk ?_

theorem execSweepBlock_kept (x0 : Half) (finished : Bool) (bad : Option (Fin 16)) {s : State} (hk : s.kept q n) :
    outKept q n (execSweepBlock x0 finished bad s) := by
  unfold execSweepBlock
  with_reducible repeat' first | assumption | refine out_next ?_ | apply State.sweepDone_kept | refine kept_ite ?_ ?_ | refine out_ite ?_ ?_ | refine kept_mk ?_

theorem execSweepForce_kept (x0 : Half) (bad : Option (Fin 16)) {s : State} (hk : s.kept q n) :
    outKept q n (execSweepForce x0 bad s) := by
  unfold execSweepForce
  with_reducible repeat' first | assumption | refine out_next ?_ | apply State.sweepDone_kept | refine kept_ite ?_ ?_ | refine out_ite ?_ ?_ | split | refine fst_kept (by assumption) ?_ | refine snd_kept (by assumption) ?_ | refine opt_kept (by assumption) ?_ | refine kept_mk ?_

theorem State.bankOwnerWrite_kept {s : State} (m : Nat) (x2 : Nat) (v : Nat) (hk : s.kept q n) :
    (State.bankOwnerWrite s m x2 v).kept q n := by
  unfold State.bankOwnerWrite
  with_reducible repeat' first | assumption | apply State.busErr_kept | apply State.guardReg_kept | apply State.noteBefore_kept | apply State.setf_kept | intro _ | refine kept_ite ?_ ?_ | refine kept_mk ?_

theorem execBankOwnerWrite_kept (m : Byte) (x1 : Fin 16) (v : Byte) {s : State} (hk : s.kept q n) :
    outKept q n (execBankOwnerWrite m x1 v s) := by
  unfold execBankOwnerWrite
  with_reducible repeat' first | assumption | refine out_next ?_ | apply State.bankOwnerWrite_kept | refine kept_mk ?_

theorem execVaultAccess_kept (m : Byte) (off : Fin 0x40000) (len : Fin 9) (write : Bool) (data : List Byte) {s : State} (hk : s.kept q n) :
    outKept q n (execVaultAccess m off len write data s) := by
  unfold execVaultAccess
  with_reducible repeat' first | assumption | refine out_next ?_ | apply State.vaultAccess_kept | refine kept_ite ?_ ?_ | refine out_ite ?_ ?_ | refine kept_mk ?_

theorem execVaultWipeDone_kept {s : State} (hk : s.kept q n) :
    outKept q n (execVaultWipeDone s) := by
  unfold execVaultWipeDone
  with_reducible repeat' first | assumption | refine out_next ?_ | apply State.vaultWiped_kept | refine kept_mk ?_

theorem execDramAccess_kept (m : Byte) (off : Fin 0x400000000) (len : Fin 65) (write : Bool) (data : List Byte) (ecc : Ecc) (mirrorEcc : Ecc) {s : State} (hk : s.kept q n) :
    outKept q n (execDramAccess m off len write data ecc mirrorEcc s) := by
  unfold execDramAccess
  with_reducible repeat' first | assumption | refine out_next ?_ | apply State.dramBus_kept | refine kept_ite ?_ ?_ | refine out_ite ?_ ?_ | refine kept_mk ?_

theorem execAccessErrorTimeout_kept (m : Byte) (a : BitVec 40) (write : Bool) {s : State} (hk : s.kept q n) :
    outKept q n (execAccessErrorTimeout m a write s) := by
  unfold execAccessErrorTimeout
  with_reducible repeat' first | assumption | refine out_next ?_ | apply State.block_kept | apply State.busErr_kept | apply State.ok_kept | (fail_if_no_progress (extract_lets +onlyGivenNames x); first | (refine kept_bind (q := q) (n := n) (x := x) ?_ (fun _ => ?_); on_goal 2 => clear_value x; on_goal 1 => unfold x) | skip) | refine kept_ite ?_ ?_ | refine out_ite ?_ ?_ | split | refine fst_kept (by assumption) ?_ | refine snd_kept (by assumption) ?_ | refine opt_kept (by assumption) ?_ | refine kept_mk ?_

end Sys2Proof.Machine
end

