-- ==== Sys2Proof/Laws/KeptHarts.lean ====
section
/-! SUPPORT. What the definitions of Machine/Harts.lean keep: the queue, the time, the canonical form of memory and registers, and that at
most one half is in CHARGE. -/

set_option linter.unreachableTactic false
set_option linter.unusedTactic false
set_option linter.unusedVariables false

namespace Sys2Proof.Machine
open Sys2Proof

variable {q : List Instr} {n : Nat}

theorem State.timerFollow_kept {s : State} (k : Nat) (hk : s.kept q n) :
    (State.timerFollow s k).kept q n := by
  unfold State.timerFollow
  with_reducible repeat' first | assumption | apply State.mapHart_kept | intro _ | refine kept_mk ?_

theorem execMtimecmpWrite_kept (k : Fin 4) (v : Dword) {s : State} (hk : s.kept q n) :
    outKept q n (execMtimecmpWrite k v s) := by
  unfold execMtimecmpWrite
  with_reducible repeat' first | assumption | refine out_next ?_ | apply State.mapHart_kept | apply State.timerFollow_kept | intro _ | refine kept_ite ?_ ?_ | refine out_ite ?_ ?_ | refine kept_mk ?_

theorem execMachineTimerInterrupt_kept (k : Fin 4) {s : State} (hk : s.kept q n) :
    outKept q n (execMachineTimerInterrupt k s) := by
  unfold execMachineTimerInterrupt
  with_reducible repeat' first | assumption | refine out_next ?_ | apply State.timerFollow_kept | refine kept_ite ?_ ?_ | refine out_ite ?_ ?_ | refine kept_mk ?_

theorem State.clr1Write_kept {s : State} (k : Nat) (v : Nat) (raised : Nat) (hk : s.kept q n) :
    (State.clr1Write s k v raised).kept q n := by
  unfold State.clr1Write
  with_reducible repeat' first | assumption | apply State.mapHart_kept | intro _ | split | refine fst_kept (by assumption) ?_ | refine snd_kept (by assumption) ?_ | refine opt_kept (by assumption) ?_ | refine kept_mk ?_

theorem execMirqClr1Write_kept (k : Fin 4) (v : Dword) (raised : Dword) {s : State} (hk : s.kept q n) :
    outKept q n (execMirqClr1Write k v raised s) := by
  unfold execMirqClr1Write
  with_reducible repeat' first | assumption | refine out_next ?_ | apply State.clr1Write_kept | refine kept_ite ?_ ?_ | refine out_ite ?_ ?_ | refine kept_mk ?_

theorem execHartAmoScratchpad_kept (k : Fin 4) (op : AmoOp) (wide : Bool) (a : BitVec 40) (v : Dword) (ecc : Ecc) (b1 : Option SpadOp) (b2 : Option SpadOp) {s : State} (hk : s.kept q n) :
    outKept q n (execHartAmoScratchpad k op wide a v ecc b1 b2 s) := by
  unfold execHartAmoScratchpad
  with_reducible repeat' first | assumption | refine out_next ?_ | apply State.spadAmo_kept | refine kept_ite ?_ ?_ | refine out_ite ?_ ?_ | refine kept_mk ?_

end Sys2Proof.Machine
end

