-- ==== Sys2Proof/Laws/KeptHookCore.lean ====
section
/-! SUPPORT. What the definitions of Machine/HookCore.lean keep: the queue, the time, the canonical form of memory and registers, and that at
most one half is in CHARGE. -/

set_option linter.unreachableTactic false
set_option linter.unusedTactic false
set_option linter.unusedVariables false

namespace Sys2Proof.Machine
open Sys2Proof

variable {q : List Instr} {n : Nat}

theorem State.hkSwitch_kept {s : State} (e : Nat) (hk : s.kept q n) :
    (State.hkSwitch s e).kept q n := by
  unfold State.hkSwitch
  with_reducible repeat' first | assumption | apply State.mapHook_kept | intro _ | refine kept_ite ?_ ?_ | refine kept_mk ?_

theorem State.setHk_kept {s : State} (e : Nat) (st : Nat) (stall : Nat) (hk : s.kept q n) :
    (State.setHk s e st stall).kept q n := by
  unfold State.setHk
  with_reducible repeat' first | assumption | apply State.setf_kept | refine kept_mk ?_

theorem State.hkRaise_kept {s : State} (e : Nat) (i : Nat) (hk : s.kept q n) :
    (State.hkRaise s e i).kept q n := by
  unfold State.hkRaise
  with_reducible repeat' first | assumption | apply State.mapHook_kept | apply State.nePend_kept | intro _ | refine kept_ite ?_ ?_ | refine kept_mk ?_

theorem State.hkWithdraw_kept {s : State} (e : Nat) (i : Nat) (hk : s.kept q n) :
    (State.hkWithdraw s e i).kept q n := by
  unfold State.hkWithdraw
  with_reducible repeat' first | assumption | apply State.mapEng_kept | apply State.mapHook_kept | apply State.wrn_kept | intro _ | refine kept_ite ?_ ?_ | refine kept_mk ?_

theorem State.hkLevels_kept {s : State} (e : Nat) (x : Hook) (hk : s.kept q n) :
    (State.hkLevels s e x).kept q n := by
  unfold State.hkLevels
  with_reducible repeat' first | assumption | apply State.putHook_kept | apply State.setf_kept | refine kept_mk ?_

theorem State.hkEdge_kept {s : State} (e : Nat) (on : Bool) (was : Bool) (hk : s.kept q n) :
    (State.hkEdge s e on was).kept q n := by
  unfold State.hkEdge
  with_reducible repeat' first | assumption | apply State.hkRaise_kept | apply State.hkWithdraw_kept | refine kept_ite ?_ ?_ | split | refine fst_kept (by assumption) ?_ | refine snd_kept (by assumption) ?_ | refine opt_kept (by assumption) ?_ | refine kept_mk ?_

theorem State.putFifos_kept {s : State} (e : Nat) (tx : List Word) (rx : List Word) (hk : s.kept q n) :
    (State.putFifos s e tx rx).kept q n := by
  unfold State.putFifos
  with_reducible repeat' first | assumption | apply State.hkEdge_kept | apply State.hkLevels_kept | refine kept_mk ?_

theorem State.hkPut_kept {s : State} (e : Nat) (w : Word) (h : s.kept q n) : optKept q n (s.hkPut e w) := by
  unfold State.hkPut
  dsimp only
  split
  · exact opt_some (State.putFifos_kept e _ _ h)
  · exact opt_none

theorem State.hkGet_kept {s t : State} (e : Nat) (w : Word) (h : s.kept q n) (ht : s.hkGet e = some (w, t)) :
    t.kept q n := by
  unfold State.hkGet at ht
  split at ht
  · cases ht
  · cases ht
    exact State.putFifos_kept e _ _ h

theorem State.drive_kept {s : State} (e k : Nat) (d : Bool) (bs : List Bool) (h : s.kept q n) :
    (s.drive e k d bs).kept q n := by
  induction bs generalizing s k with
  | nil => exact h
  | cons b bs ih =>
    unfold State.drive
    dsimp only
    refine ih _ ?_
    split
    · exact State.putHook_kept e _ h
    · exact h

theorem State.hkCycles_kept {s : State} (e : Nat) (x2 : Nat) (hk : s.kept q n) :
    (State.hkCycles s e x2).kept q n := by
  unfold State.hkCycles
  with_reducible repeat' first | assumption | apply State.putHook_kept | refine kept_ite ?_ ?_ | refine kept_mk ?_

theorem State.hkBegin_kept {s : State} (e : Nat) (hk : s.kept q n) :
    (State.hkBegin s e).kept q n := by
  unfold State.hkBegin
  with_reducible repeat' first | assumption | apply State.mapHook_kept | apply State.setf_kept | intro _ | refine kept_mk ?_

theorem State.hkDone_kept {s : State} (e : Nat) (pc : Nat) (hk : s.kept q n) :
    (State.hkDone s e pc).kept q n := by
  unfold State.hkDone
  with_reducible repeat' first | assumption | apply State.hkCycles_kept | apply State.mapHook_kept | apply State.setHk_kept | intro _ | refine kept_mk ?_

theorem State.hkNext_kept {s : State} (e : Nat) (hk : s.kept q n) :
    (State.hkNext s e).kept q n := by
  unfold State.hkNext
  with_reducible repeat' first | assumption | apply State.hkDone_kept | refine kept_mk ?_

theorem State.hkStall_kept {s : State} (e : Nat) (why : Nat) (hk : s.kept q n) :
    (State.hkStall s e why).kept q n := by
  unfold State.hkStall
  with_reducible repeat' first | assumption | apply State.hkCycles_kept | apply State.mapHook_kept | apply State.setHk_kept | intro _ | refine kept_mk ?_

end Sys2Proof.Machine
end

