-- ==== Sys2Proof/Laws/KeptHook.lean ====
section
/-! SUPPORT. What the definitions of Machine/Hook.lean keep: the queue, the time, the canonical form of memory and registers, and that at
most one half is in CHARGE. -/

set_option linter.unreachableTactic false
set_option linter.unusedTactic false
set_option linter.unusedVariables false

namespace Sys2Proof.Machine
open Sys2Proof

variable {q : List Instr} {n : Nat}

theorem State.samplePins_kept {s : State} (e : Nat) (pins : BitVec 24) (hk : s.kept q n) :
    (State.samplePins s e pins).kept q n := by
  unfold State.samplePins
  with_reducible repeat' first | assumption | apply State.wrn_kept | refine kept_mk ?_

theorem State.hkSet_kept {s : State} (e : Nat) (hk : s.kept q n) :
    (State.hkSet s e).kept q n := by
  unfold State.hkSet
  with_reducible repeat' first | assumption | apply State.drive_kept | apply State.hkBegin_kept | apply State.hkNext_kept | apply State.wrn_kept | intro _ | refine kept_ite ?_ ?_ | refine kept_mk ?_

theorem execHkSet_kept (e : Fin 16) {s : State} (hk : s.kept q n) :
    outKept q n (execHkSet e s) := by
  unfold execHkSet
  with_reducible repeat' first | assumption | refine out_next ?_ | apply State.hkSet_kept | refine kept_ite ?_ ?_ | refine out_ite ?_ ?_ | refine kept_mk ?_

theorem State.hkLoop_kept {s : State} (e : Nat) (hk : s.kept q n) :
    (State.hkLoop s e).kept q n := by
  unfold State.hkLoop
  with_reducible repeat' first | assumption | apply State.hkBegin_kept | apply State.hkDone_kept | apply State.hkNext_kept | apply State.wrn_kept | refine kept_ite ?_ ?_ | refine kept_mk ?_

theorem execHkLoop_kept (e : Fin 16) {s : State} (hk : s.kept q n) :
    outKept q n (execHkLoop e s) := by
  unfold execHkLoop
  with_reducible repeat' first | assumption | refine out_next ?_ | apply State.hkLoop_kept | refine kept_ite ?_ ?_ | refine out_ite ?_ ?_ | refine kept_mk ?_

theorem State.hkJmp_kept {s : State} (e : Nat) (hk : s.kept q n) :
    (State.hkJmp s e).kept q n := by
  unfold State.hkJmp
  with_reducible repeat' first | assumption | apply State.hkBegin_kept | apply State.hkDone_kept | apply State.hkNext_kept | refine kept_ite ?_ ?_ | refine kept_mk ?_

theorem execHkJmp_kept (e : Fin 16) (pins : BitVec 24) {s : State} (hk : s.kept q n) :
    outKept q n (execHkJmp e pins s) := by
  unfold execHkJmp
  with_reducible repeat' first | assumption | refine out_next ?_ | apply State.hkJmp_kept | apply State.samplePins_kept | refine kept_ite ?_ ?_ | refine out_ite ?_ ?_ | refine kept_mk ?_

theorem State.hkWait_kept {s : State} (e : Nat) (hk : s.kept q n) :
    (State.hkWait s e).kept q n := by
  unfold State.hkWait
  with_reducible repeat' first | assumption | apply State.hkBegin_kept | apply State.hkDone_kept | apply State.hkNext_kept | apply State.hkStall_kept | apply State.inc_kept | apply State.setf_kept | refine kept_ite ?_ ?_ | split | refine fst_kept (by assumption) ?_ | refine snd_kept (by assumption) ?_ | refine opt_kept (by assumption) ?_ | refine kept_mk ?_

theorem execHkWait_kept (e : Fin 16) (pins : BitVec 24) {s : State} (hk : s.kept q n) :
    outKept q n (execHkWait e pins s) := by
  unfold execHkWait
  with_reducible repeat' first | assumption | refine out_next ?_ | apply State.hkWait_kept | apply State.samplePins_kept | refine kept_ite ?_ ?_ | refine out_ite ?_ ?_ | refine kept_mk ?_

theorem execHkWaitTimeout_kept (e : Fin 16) (pins : BitVec 24) {s : State} (hk : s.kept q n) :
    outKept q n (execHkWaitTimeout e pins s) := by
  unfold execHkWaitTimeout
  with_reducible repeat' first | assumption | refine out_next ?_ | apply State.hkWait_kept | apply State.samplePins_kept | refine kept_ite ?_ ?_ | refine out_ite ?_ ?_ | refine kept_mk ?_

theorem State.hkOut_kept {s : State} (e : Nat) (hk : s.kept q n) :
    (State.hkOut s e).kept q n := by
  unfold State.hkOut
  with_reducible repeat' first | assumption | apply State.drive_kept | apply State.hkBegin_kept | apply State.hkNext_kept | apply State.setf_kept | apply State.wrn_kept | refine kept_ite ?_ ?_ | refine kept_mk ?_

theorem execHkOut_kept (e : Fin 16) {s : State} (hk : s.kept q n) :
    outKept q n (execHkOut e s) := by
  unfold execHkOut
  with_reducible repeat' first | assumption | refine out_next ?_ | apply State.hkOut_kept | refine kept_ite ?_ ?_ | refine out_ite ?_ ?_ | refine kept_mk ?_

theorem State.hkIn_kept {s : State} (e : Nat) (hk : s.kept q n) :
    (State.hkIn s e).kept q n := by
  unfold State.hkIn
  with_reducible repeat' first | assumption | apply State.hkBegin_kept | apply State.hkNext_kept | apply State.setf_kept | apply State.wrn_kept | refine kept_ite ?_ ?_ | refine kept_mk ?_

theorem execHkIn_kept (e : Fin 16) (pins : BitVec 24) {s : State} (hk : s.kept q n) :
    outKept q n (execHkIn e pins s) := by
  unfold execHkIn
  with_reducible repeat' first | assumption | refine out_next ?_ | apply State.hkIn_kept | apply State.samplePins_kept | refine kept_ite ?_ ?_ | refine out_ite ?_ ?_ | refine kept_mk ?_

theorem State.osrLoad_kept {s : State} (e : Nat) (w : Word) (hk : s.kept q n) :
    (State.osrLoad s e w).kept q n := by
  unfold State.osrLoad
  with_reducible repeat' first | assumption | apply State.setf_kept | apply State.wr_kept | refine kept_mk ?_

theorem State.hkPull_kept {s : State} (e : Nat) (hk : s.kept q n) :
    (State.hkPull s e).kept q n := by
  unfold State.hkPull
  with_reducible repeat' first | assumption | apply State.hkBegin_kept | apply State.hkNext_kept | apply State.hkStall_kept | apply State.inc_kept | apply State.mapHook_kept | apply State.osrLoad_kept | apply State.putFifos_kept | apply State.setf_kept | intro _ | refine kept_ite ?_ ?_ | split | refine fst_kept (by assumption) ?_ | refine snd_kept (by assumption) ?_ | refine opt_kept (by assumption) ?_ | refine kept_mk ?_

theorem execHkPull_kept (e : Fin 16) {s : State} (hk : s.kept q n) :
    outKept q n (execHkPull e s) := by
  unfold execHkPull
  with_reducible repeat' first | assumption | refine out_next ?_ | apply State.hkPull_kept | refine kept_ite ?_ ?_ | refine out_ite ?_ ?_ | refine kept_mk ?_

theorem State.isrClear_kept {s : State} (e : Nat) (hk : s.kept q n) :
    (State.isrClear s e).kept q n := by
  unfold State.isrClear
  with_reducible repeat' first | assumption | apply State.setf_kept | apply State.wr_kept | refine kept_mk ?_

theorem State.hkPush_kept {s : State} (e : Nat) (hk : s.kept q n) :
    (State.hkPush s e).kept q n := by
  unfold State.hkPush
  with_reducible repeat' first | assumption | apply State.hkBegin_kept | apply State.hkNext_kept | apply State.hkStall_kept | apply State.inc_kept | apply State.isrClear_kept | apply State.putFifos_kept | apply State.setf_kept | refine kept_ite ?_ ?_ | refine kept_mk ?_

theorem execHkPush_kept (e : Fin 16) {s : State} (hk : s.kept q n) :
    outKept q n (execHkPush e s) := by
  unfold execHkPush
  with_reducible repeat' first | assumption | refine out_next ?_ | apply State.hkPush_kept | refine kept_ite ?_ ?_ | refine out_ite ?_ ?_ | refine kept_mk ?_

theorem execHkStallEnd_kept (e : Fin 16) (pins : BitVec 24) {s : State} (hk : s.kept q n) :
    outKept q n (execHkStallEnd e pins s) := by
  unfold execHkStallEnd
  with_reducible repeat' first | assumption | refine out_next ?_ | apply State.hkPull_kept | apply State.hkPush_kept | apply State.hkWait_kept | apply State.samplePins_kept | refine kept_ite ?_ ?_ | refine out_ite ?_ ?_ | refine kept_mk ?_

theorem State.hkStop_kept {s : State} (e : Nat) (hk : s.kept q n) :
    (State.hkStop s e).kept q n := by
  unfold State.hkStop
  with_reducible repeat' first | assumption | apply State.hkSwitch_kept | apply State.mapHook_kept | apply State.setHk_kept | apply State.setf_kept | apply State.wr_kept | intro _ | refine kept_ite ?_ ?_ | refine kept_mk ?_

theorem State.hkStart_kept {s : State} (e : Nat) (hk : s.kept q n) :
    (State.hkStart s e).kept q n := by
  unfold State.hkStart
  with_reducible repeat' first | assumption | apply State.hkSwitch_kept | apply State.mapHook_kept | apply State.setHk_kept | intro _ | refine kept_mk ?_

theorem State.cfgRej_kept {s : State} (e : Nat) (hk : s.kept q n) :
    (State.cfgRej s e).kept q n := by
  unfold State.cfgRej
  with_reducible repeat' first | assumption | apply State.setf_kept | refine kept_mk ?_

theorem State.hkCtrlWrite_kept {s : State} (m : Nat) (e : Nat) (v : Word) (hk : s.kept q n) :
    (State.hkCtrlWrite s m e v).kept q n := by
  unfold State.hkCtrlWrite
  with_reducible repeat' first | assumption | apply State.cfgRej_kept | apply State.guardReg_kept | apply State.hkStart_kept | apply State.hkStop_kept | apply State.putFifos_kept | apply State.setf_kept | apply foldl_kept | intro _ | refine kept_ite ?_ ?_ | split | refine fst_kept (by assumption) ?_ | refine snd_kept (by assumption) ?_ | refine opt_kept (by assumption) ?_ | refine kept_mk ?_

theorem execHkRunStart_kept (m : Byte) (e : Fin 16) (v : Word) {s : State} (hk : s.kept q n) :
    outKept q n (execHkRunStart m e v s) := by
  unfold execHkRunStart
  with_reducible repeat' first | assumption | refine out_next ?_ | apply State.hkCtrlWrite_kept | refine kept_mk ?_

theorem execHkRunStop_kept (m : Byte) (e : Fin 16) (v : Word) {s : State} (hk : s.kept q n) :
    outKept q n (execHkRunStop m e v s) := by
  unfold execHkRunStop
  with_reducible repeat' first | assumption | refine out_next ?_ | apply State.hkCtrlWrite_kept | refine kept_mk ?_

theorem execHkFlush_kept (m : Byte) (e : Fin 16) (v : Word) {s : State} (hk : s.kept q n) :
    outKept q n (execHkFlush m e v s) := by
  unfold execHkFlush
  with_reducible repeat' first | assumption | refine out_next ?_ | apply State.hkCtrlWrite_kept | refine kept_mk ?_

theorem State.hkStoppedWrite_kept {s : State} (m : Nat) (e : Nat) (a : Nat) (v : Word) (hk : s.kept q n) :
    (State.hkStoppedWrite s m e a v).kept q n := by
  unfold State.hkStoppedWrite
  with_reducible repeat' first | assumption | apply State.cfgRej_kept | apply State.guardReg_kept | apply State.plainWrite_kept | apply State.setf_kept | intro _ | refine kept_ite ?_ ?_ | refine kept_mk ?_

theorem State.hkPinsWrite_kept {s : State} (m : Nat) (e : Nat) (v : Word) (hk : s.kept q n) :
    (State.hkPinsWrite s m e v).kept q n := by
  unfold State.hkPinsWrite
  with_reducible repeat' first | assumption | apply State.cfgRej_kept | apply State.guardReg_kept | apply State.hkStoppedWrite_kept | intro _ | refine kept_ite ?_ ?_ | split | refine fst_kept (by assumption) ?_ | refine snd_kept (by assumption) ?_ | refine opt_kept (by assumption) ?_ | refine kept_mk ?_

theorem State.hkProgWrite_kept {s : State} (m : Nat) (e : Nat) (w : Nat) (v : Word) (hk : s.kept q n) :
    (State.hkProgWrite s m e w v).kept q n := by
  unfold State.hkProgWrite
  with_reducible repeat' first | assumption | apply State.busErr_kept | apply State.guardReg_kept | apply State.plainWrite_kept | apply State.setf_kept | intro _ | refine kept_ite ?_ ?_ | refine kept_mk ?_

theorem execHkProgWrite_kept (m : Byte) (e : Fin 16) (w : Fin 64) (v : Word) {s : State} (hk : s.kept q n) :
    outKept q n (execHkProgWrite m e w v s) := by
  unfold execHkProgWrite
  with_reducible repeat' first | assumption | refine out_next ?_ | apply State.hkProgWrite_kept | refine kept_mk ?_

theorem State.hkTxfWrite_kept {s : State} (m : Nat) (e : Nat) (v : Word) (hk : s.kept q n) :
    (State.hkTxfWrite s m e v).kept q n := by
  unfold State.hkTxfWrite
  with_reducible repeat' first | assumption | apply State.busErr_kept | apply State.guardReg_kept | apply State.hkPut_kept | intro _ | refine kept_ite ?_ ?_ | split | refine fst_kept (by assumption) ?_ | refine snd_kept (by assumption) ?_ | refine opt_kept (by assumption) ?_ | refine kept_mk ?_

theorem execHkTxfWrite_kept (m : Byte) (e : Fin 16) (v : Word) {s : State} (hk : s.kept q n) :
    outKept q n (execHkTxfWrite m e v s) := by
  unfold execHkTxfWrite
  with_reducible repeat' first | assumption | refine out_next ?_ | apply State.hkTxfWrite_kept | refine kept_mk ?_

theorem State.hkRxfRead_kept {s : State} (m e : Nat) (h : s.kept q n) : (s.hkRxfRead m e).kept q n := by
  unfold State.hkRxfRead
  dsimp only
  split
  · exact h
  · split
    · exact State.busErr_kept _ _ _ _ h
    · split
      · split
        · next w t ht => exact State.ok_kept _ (State.hkGet_kept _ _ h ht)
        · exact State.busErr_kept _ _ _ _ h
      · exact State.busErr_kept _ _ _ _ h

theorem execHkRxfRead_kept (m : Byte) (e : Fin 16) {s : State} (hk : s.kept q n) :
    outKept q n (execHkRxfRead m e s) := by
  unfold execHkRxfRead
  with_reducible repeat' first | assumption | refine out_next ?_ | apply State.hkRxfRead_kept | refine kept_mk ?_

theorem State.hookPinWrite_kept {s : State} (m : Nat) (x2 : Half) (x3 : Nat) (v : Word) (hk : s.kept q n) :
    (State.hookPinWrite s m x2 x3 v).kept q n := by
  unfold State.hookPinWrite
  with_reducible repeat' first | assumption | apply State.guardReg_kept | apply State.padLeave_kept | apply State.plainWrite_kept | apply State.setf_kept | intro _ | refine kept_ite ?_ ?_ | refine kept_mk ?_

theorem execHookPinCfgWrite_kept (m : Byte) (x1 : Half) (x2 : Fin 24) (v : Word) {s : State} (hk : s.kept q n) :
    outKept q n (execHookPinCfgWrite m x1 x2 v s) := by
  unfold execHookPinCfgWrite
  with_reducible repeat' first | assumption | refine out_next ?_ | apply State.hookPinWrite_kept | refine kept_mk ?_

end Sys2Proof.Machine
end

