-- ==== Sys2Proof/Laws/KeptMailbox.lean ====
section
/-! SUPPORT. What the definitions of Machine/Mailbox.lean keep: the queue, the time, the canonical form of memory and registers, and that at
most one half is in CHARGE. -/

set_option linter.unreachableTactic false
set_option linter.unusedTactic false
set_option linter.unusedVariables false

namespace Sys2Proof.Machine
open Sys2Proof

variable {q : List Instr} {n : Nat}

theorem State.mbxMsgWrite_kept {s : State} (m : Nat) (c : Nat) (w : Nat) (v : Word) (hk : s.kept q n) :
    (State.mbxMsgWrite s m c w v).kept q n := by
  unfold State.mbxMsgWrite
  with_reducible repeat' first | assumption | apply State.busErr_kept | apply State.guardReg_kept | apply State.inc_kept | apply State.wr_kept | intro _ | refine kept_ite ?_ ?_ | refine kept_mk ?_

theorem State.mbxRing_kept {s : State} (c : Nat) (hk : s.kept q n) :
    (State.mbxRing s c).kept q n := by
  unfold State.mbxRing
  with_reducible repeat' first | assumption | apply State.inc_kept | apply State.neBell_kept | apply State.noteBefore_kept | apply State.setf_kept | refine kept_ite ?_ ?_ | refine kept_mk ?_

theorem State.mbxAck_kept {s : State} (c : Nat) (hk : s.kept q n) :
    (State.mbxAck s c).kept q n := by
  unfold State.mbxAck
  with_reducible repeat' first | assumption | apply State.noteBefore_kept | apply State.validMbx_kept | apply State.wr_kept | refine kept_ite ?_ ?_ | refine kept_mk ?_

theorem State.mbxDbWrite_kept {s : State} (m : Nat) (c : Nat) (v : Word) (hk : s.kept q n) :
    (State.mbxDbWrite s m c v).kept q n := by
  unfold State.mbxDbWrite
  with_reducible repeat' first | assumption | apply State.busErr_kept | apply State.guardReg_kept | apply State.mbxAck_kept | apply State.mbxRing_kept | intro _ | refine kept_ite ?_ ?_ | refine kept_mk ?_

theorem execMbxMsgWrite_kept (m : Byte) (c : Fin 64) (w : Fin 8) (v : Word) {s : State} (hk : s.kept q n) :
    outKept q n (execMbxMsgWrite m c w v s) := by
  unfold execMbxMsgWrite
  with_reducible repeat' first | assumption | refine out_next ?_ | apply State.mbxMsgWrite_kept | refine kept_mk ?_

theorem execMbxRing_kept (m : Byte) (c : Fin 64) (ack : Option Byte) {s : State} (hk : s.kept q n) :
    outKept q n (execMbxRing m c ack s) := by
  unfold execMbxRing
  with_reducible repeat' first | assumption | refine out_next ?_ | apply State.mbxDbWrite_kept | split | refine fst_kept (by assumption) ?_ | refine snd_kept (by assumption) ?_ | refine opt_kept (by assumption) ?_ | refine kept_mk ?_

theorem execMbxAck_kept (m : Byte) (c : Fin 64) {s : State} (hk : s.kept q n) :
    outKept q n (execMbxAck m c s) := by
  unfold execMbxAck
  with_reducible repeat' first | assumption | refine out_next ?_ | apply State.mbxDbWrite_kept | refine kept_mk ?_

theorem State.mbxStatusWrite_kept {s : State} (m : Nat) (c : Nat) (v : Word) (hk : s.kept q n) :
    (State.mbxStatusWrite s m c v).kept q n := by
  unfold State.mbxStatusWrite
  with_reducible repeat' first | assumption | apply State.busErr_kept | apply State.guardReg_kept | apply State.plainWrite_kept | intro _ | refine kept_ite ?_ ?_ | refine kept_mk ?_

theorem State.mbxBindWrite_kept {s : State} (m : Nat) (c : Nat) (v : Word) (hk : s.kept q n) :
    (State.mbxBindWrite s m c v).kept q n := by
  unfold State.mbxBindWrite
  with_reducible repeat' first | assumption | apply State.busErr_kept | apply State.guardReg_kept | apply State.plainWrite_kept | intro _ | refine kept_ite ?_ ?_ | refine kept_mk ?_

theorem execMbxBindWrite_kept (m : Byte) (c : Fin 64) (v : Word) {s : State} (hk : s.kept q n) :
    outKept q n (execMbxBindWrite m c v s) := by
  unfold execMbxBindWrite
  with_reducible repeat' first | assumption | refine out_next ?_ | apply State.mbxBindWrite_kept | refine kept_mk ?_

theorem State.mbxBindLockWrite_kept {s : State} (m : Nat) (v : Word) (hk : s.kept q n) :
    (State.mbxBindLockWrite s m v).kept q n := by
  unfold State.mbxBindLockWrite
  with_reducible repeat' first | assumption | apply State.busErr_kept | apply State.guardReg_kept | apply State.plainWrite_kept | intro _ | refine kept_ite ?_ ?_ | refine kept_mk ?_

theorem execMbxBindLockSet_kept (m : Byte) {s : State} (hk : s.kept q n) :
    outKept q n (execMbxBindLockSet m s) := by
  unfold execMbxBindLockSet
  with_reducible repeat' first | assumption | refine out_next ?_ | apply State.mbxBindLockWrite_kept | refine kept_mk ?_

theorem State.lockReads_kept {s : State} (k : Nat) (readers : List Nat) (hk : s.kept q n) :
    (State.lockReads s k readers).kept q n := by
  unfold State.lockReads
  with_reducible repeat' first | assumption | apply State.emit_kept | apply State.ok_kept | apply State.wrn_kept | apply foldl_kept | intro _ | refine kept_ite ?_ ?_ | refine kept_mk ?_

theorem execMbxLockRead_kept (k : Fin 32) (readers : List Byte) {s : State} (hk : s.kept q n) :
    outKept q n (execMbxLockRead k readers s) := by
  unfold execMbxLockRead
  with_reducible repeat' first | assumption | refine out_next ?_ | apply State.lockReads_kept | intro _ | refine kept_mk ?_

theorem State.lockWrite_kept {s : State} (m : Nat) (k : Nat) (hk : s.kept q n) :
    (State.lockWrite s m k).kept q n := by
  unfold State.lockWrite
  with_reducible repeat' first | assumption | apply State.busErr_kept | apply State.guardReg_kept | apply State.wr_kept | intro _ | refine kept_ite ?_ ?_ | refine kept_mk ?_

theorem execMbxLockWrite_kept (m : Byte) (k : Fin 32) {s : State} (hk : s.kept q n) :
    outKept q n (execMbxLockWrite m k s) := by
  unfold execMbxLockWrite
  with_reducible repeat' first | assumption | refine out_next ?_ | apply State.lockWrite_kept | refine kept_mk ?_

theorem State.mbxPost_kept {s : State} (c : Nat) (words : List Nat) (hk : s.kept q n) :
    (State.mbxPost s c words).kept q n := by
  unfold State.mbxPost
  with_reducible repeat' first | assumption | apply State.inc_kept | apply State.mbxRing_kept | apply State.wrWords_kept | refine kept_ite ?_ ?_ | refine kept_mk ?_

theorem State.mastersReset_kept {s : State} (f : Nat → Bool) (hk : s.kept q n) :
    (State.mastersReset s f).kept q n := by
  unfold State.mastersReset
  with_reducible repeat' first | assumption | apply State.setf_kept | apply State.wr_kept | apply State.wrn_kept | apply foldl_kept | intro _ | refine kept_ite ?_ ?_ | split | refine fst_kept (by assumption) ?_ | refine snd_kept (by assumption) ?_ | refine opt_kept (by assumption) ?_ | refine kept_mk ?_

end Sys2Proof.Machine
end

