-- ==== Sys2Proof/Laws/KeptKcpCore.lean ====
section
/-! SUPPORT. What the definitions of Machine/KcpCore.lean keep: the queue, the time, the canonical form of memory and registers, and that at
most one half is in CHARGE. -/

set_option linter.unreachableTactic false
set_option linter.unusedTactic false
set_option linter.unusedVariables false

namespace Sys2Proof.Machine
open Sys2Proof

variable {q : List Instr} {n : Nat}

theorem State.putTport_kept {s : State} (x1 : Nat) (x : Transport) (hk : s.kept q n) :
    (State.putTport s x1 x).kept q n := by
  unfold State.putTport
  with_reducible repeat' first | assumption | refine kept_mk ?_

theorem State.putSession_kept {s : State} (x1 : Nat) (x2 : Nat) (x : Session) (hk : s.kept q n) :
    (State.putSession s x1 x2 x).kept q n := by
  unfold State.putSession
  with_reducible repeat' first | assumption | refine kept_mk ?_

theorem State.closeSession_kept {s : State} (x1 : Nat) (x2 : Nat) (hk : s.kept q n) :
    (State.closeSession s x1 x2).kept q n := by
  unfold State.closeSession
  with_reducible repeat' first | assumption | refine kept_mk ?_

theorem State.putStream_kept {s : State} (x1 : Nat) (x : ByteStream) (hk : s.kept q n) :
    (State.putStream s x1 x).kept q n := by
  unfold State.putStream
  with_reducible repeat' first | assumption | apply State.setf_kept | refine kept_mk ?_

theorem State.fillStream_kept {s : State} (t : Nat) (xs : List (Nat × Nat × List Byte)) (h : s.kept q n) :
    (s.fillStream t xs).kept q n := by
  induction xs generalizing s with
  | nil => exact h
  | cons x xs ih =>
    obtain ⟨u, k, bs⟩ := x
    unfold State.fillStream
    dsimp only
    split
    · split
      · exact ih (State.putStream_kept t _ (kept_mk h))
      · exact h
    · exact ih h

theorem State.kcpFrame_kept {s : State} (x1 : Half) (port : Nat) (bs : List Byte) (hk : s.kept q n) :
    (State.kcpFrame s x1 port bs).kept q n := by
  unfold State.kcpFrame
  with_reducible repeat' first | assumption | apply State.mapPlane_kept | intro _ | refine kept_ite ?_ ?_ | refine kept_mk ?_

theorem State.handReply_kept {s : State} (r : ReplyTo) (pkt : List Byte) (h : s.kept q n) : (s.handReply r pkt).kept q n := by
  unfold State.handReply
  extract_lets k s1 s2
  have h1 : s1.kept q n := kept_mk h
  have h2 : s2.kept q n := State.emit_kept _ h1
  split
  · exact h1
  · split
    · exact State.fillStream_kept _ _ (State.emit_kept _ h1)
    · split
      · exact h2
      · split
        · exact h2
        · exact State.kcpFrame_kept _ _ _ (State.putSession_kept _ _ _ h2)

theorem State.putKcmd_kept {s : State} (c : KCmd) (hk : s.kept q n) :
    (State.putKcmd s c).kept q n := by
  unfold State.putKcmd
  with_reducible repeat' first | assumption | intro _ | refine kept_ite ?_ ?_ | refine kept_mk ?_

theorem State.finish_kept {s : State} (c : KCmd) (status : Nat) (data : List Byte) (hk : s.kept q n) :
    (State.finish s c status data).kept q n := by
  unfold State.finish
  with_reducible repeat' first | assumption | apply State.handReply_kept | apply State.validCommand_kept | intro _ | refine kept_ite ?_ ?_ | refine kept_mk ?_

theorem State.transportUp_kept {s : State} (x1 : Nat) (hk : s.kept q n) :
    (State.transportUp s x1).kept q n := by
  unfold State.transportUp
  with_reducible repeat' first | assumption | apply State.putSession_kept | apply State.putTport_kept | refine kept_ite ?_ ?_ | refine kept_mk ?_

theorem State.transportDown_kept {s : State} (x1 : Nat) (hk : s.kept q n) :
    (State.transportDown s x1).kept q n := by
  unfold State.transportDown
  with_reducible repeat' first | assumption | apply State.closeSession_kept | apply State.putStream_kept | apply State.putTport_kept | apply State.wr_kept | intro _ | refine kept_ite ?_ ?_ | split | refine fst_kept (by assumption) ?_ | refine snd_kept (by assumption) ?_ | refine opt_kept (by assumption) ?_ | refine kept_mk ?_

theorem State.closeUdp_kept {s : State} (x1 : Nat) (hk : s.kept q n) :
    (State.closeUdp s x1).kept q n := by
  unfold State.closeUdp
  with_reducible repeat' first | assumption | apply State.closeSession_kept | intro _ | refine kept_ite ?_ ?_ | split | refine fst_kept (by assumption) ?_ | refine snd_kept (by assumption) ?_ | refine opt_kept (by assumption) ?_ | refine kept_mk ?_

theorem State.dropSafety_kept {s : State} (hk : s.kept q n) :
    (State.dropSafety s).kept q n := by
  unfold State.dropSafety
  with_reducible repeat' first | assumption | apply State.closeUdp_kept | apply State.putSession_kept | apply foldl_kept | intro _ | refine kept_ite ?_ ?_ | refine kept_mk ?_

end Sys2Proof.Machine
end

