-- ==== Sys2Proof/Laws/KeptKcpTable.lean ====
section
/-! SUPPORT. What the definitions of Machine/KcpTable.lean keep: the queue, the time, the canonical form of memory and registers, and that at
most one half is in CHARGE. -/

set_option linter.unreachableTactic false
set_option linter.unusedTactic false
set_option linter.unusedVariables false

namespace Sys2Proof.Machine
open Sys2Proof

variable {q : List Instr} {n : Nat}

theorem State.onCmd_kept {s : State} (x1 : Nat) (tag : Nat) (op : Nat) (f : State → KCmd → State) (hk : s.kept q n) (hf : ∀ (t : State) (b0 : KCmd), t.kept q n → (f t b0).kept q n) :
    (State.onCmd s x1 tag op f).kept q n := by
  unfold State.onCmd
  with_reducible repeat' first | assumption | apply hf | refine kept_ite ?_ ?_ | split | refine fst_kept (by assumption) ?_ | refine snd_kept (by assumption) ?_ | refine opt_kept (by assumption) ?_ | refine kept_mk ?_

theorem State.say_kept {s : State} (c : KCmd) (status : Nat) (hk : s.kept q n) :
    (State.say s c status).kept q n := by
  unfold State.say
  with_reducible repeat' first | assumption | apply State.finish_kept | refine kept_mk ?_

theorem State.okData_kept {s : State} (c : KCmd) (data : List Byte) (hk : s.kept q n) :
    (State.okData s c data).kept q n := by
  unfold State.okData
  with_reducible repeat' first | assumption | apply State.finish_kept | refine kept_mk ?_

theorem State.badParam_kept {s : State} (c : KCmd) (off : Nat) (hk : s.kept q n) :
    (State.badParam s c off).kept q n := by
  unfold State.badParam
  with_reducible repeat' first | assumption | apply State.finish_kept | refine kept_mk ?_

theorem State.checked_kept {s : State} (c : KCmd) (cs : List (Bool × Nat)) (f : State → State) (hk : s.kept q n) (hf : ∀ (t : State), t.kept q n → (f t ).kept q n) :
    (State.checked s c cs f).kept q n := by
  unfold State.checked
  with_reducible repeat' first | assumption | apply hf | apply State.badParam_kept | intro _ | split | refine fst_kept (by assumption) ?_ | refine snd_kept (by assumption) ?_ | refine opt_kept (by assumption) ?_ | refine kept_mk ?_

end Sys2Proof.Machine
end

