-- ==== Sys2Proof/Laws/KeptPlane.lean ====
section
/-! SUPPORT. What the definitions of Machine/Plane.lean keep: the queue, the time, the canonical form of memory and registers, and that at
most one half is in CHARGE. -/

set_option linter.unreachableTactic false
set_option linter.unusedTactic false
set_option linter.unusedVariables false

namespace Sys2Proof.Machine
open Sys2Proof

variable {q : List Instr} {n : Nat}

theorem State.ptpRing_kept {s : State} (p : Nat) (rx : Bool) (x3 : Nat) (bs : List Byte) (hk : s.kept q n) :
    (State.ptpRing s p rx x3 bs).kept q n := by
  unfold State.ptpRing
  with_reducible repeat' first | assumption | apply State.inc_kept | apply State.wrWords_kept | refine kept_ite ?_ ?_ | split | refine fst_kept (by assumption) ?_ | refine snd_kept (by assumption) ?_ | refine opt_kept (by assumption) ?_ | refine kept_mk ?_

theorem State.rxTaken_kept {s : State} (p : Nat) (f : InFrame) (hk : s.kept q n) :
    (State.rxTaken s p f).kept q n := by
  unfold State.rxTaken
  with_reducible repeat' first | assumption | apply State.ptpRing_kept | apply State.rxCount_kept | apply State.validFrame_kept | refine kept_mk ?_

theorem execPlaneFrameIngress_kept (x0 : Half) (p : Fin 12) {s : State} (hk : s.kept q n) :
    outKept q n (execPlaneFrameIngress x0 p s) := by
  unfold execPlaneFrameIngress
  with_reducible repeat' first | assumption | refine out_next ?_ | apply State.macCntAt_kept | apply State.planeIngress_kept | apply State.putPlane_kept | apply State.rxCount_kept | apply State.rxTaken_kept | (fail_if_no_progress (extract_lets +onlyGivenNames x); first | (refine kept_bind (q := q) (n := n) (x := x) ?_ (fun _ => ?_); on_goal 2 => clear_value x; on_goal 1 => unfold x) | skip) | intro _ | refine kept_ite ?_ ?_ | refine out_ite ?_ ?_ | split | refine fst_kept (by assumption) ?_ | refine snd_kept (by assumption) ?_ | refine opt_kept (by assumption) ?_ | refine kept_mk ?_

theorem execTwinWindowClose_kept (x0 : Half) {s : State} (hk : s.kept q n) :
    outKept q n (execTwinWindowClose x0 s) := by
  unfold execTwinWindowClose
  with_reducible repeat' first | assumption | refine out_next ?_ | apply State.inc_kept | apply State.putPlane_kept | apply State.release_kept | (fail_if_no_progress (extract_lets +onlyGivenNames x); first | (refine kept_bind (q := q) (n := n) (x := x) ?_ (fun _ => ?_); on_goal 2 => clear_value x; on_goal 1 => unfold x) | skip) | intro _ | split | refine fst_kept (by assumption) ?_ | refine snd_kept (by assumption) ?_ | refine opt_kept (by assumption) ?_ | refine kept_mk ?_

theorem execDupEntryAge_kept (x0 : Half) {s : State} (hk : s.kept q n) :
    outKept q n (execDupEntryAge x0 s) := by
  unfold execDupEntryAge
  with_reducible repeat' first | assumption | refine out_next ?_ | apply State.mapPlane_kept | intro _ | refine kept_mk ?_

theorem State.gateDiscard_kept {s : State} (x1 : Half) (hk : s.kept q n) :
    (State.gateDiscard s x1).kept q n := by
  unfold State.gateDiscard
  with_reducible repeat' first | assumption | apply State.inc_kept | apply State.putPlane_kept | apply State.showAll_kept | apply foldl_kept | intro _ | refine kept_mk ?_

theorem State.moveCell_kept {s : State} (x1 : Half) (m : Nat × Nat × Nat) (hk : s.kept q n) :
    (State.moveCell s x1 m).kept q n := by
  unfold State.moveCell
  with_reducible repeat' first | assumption | apply State.planeShow_kept | apply State.putPlane_kept | intro _ | refine kept_ite ?_ ?_ | split | refine fst_kept (by assumption) ?_ | refine snd_kept (by assumption) ?_ | refine opt_kept (by assumption) ?_ | refine kept_mk ?_

theorem State.serveCells_kept {s : State} (x : Half) (ms : List (Nat × Nat × Nat)) (k : Nat) (h : s.kept q n) :
    (s.serveCells x ms k).kept q n := by
  induction ms generalizing s k with
  | nil => exact h
  | cons m ms ih =>
    unfold State.serveCells
    split
    · exact ih _ h
    · dsimp only
      split
      · exact ih _ (State.moveCell_kept _ _ h)
      · exact State.mapPlane_kept _ _ h

theorem execSchedulingRound_kept (x0 : Half) {s : State} (hk : s.kept q n) :
    outKept q n (execSchedulingRound x0 s) := by
  unfold execSchedulingRound
  with_reducible repeat' first | assumption | refine out_next ?_ | apply State.gateDiscard_kept | apply State.putPlane_kept | apply State.serveCells_kept | intro _ | refine kept_mk ?_

theorem execMeterRefill_kept (x0 : Half) {s : State} (hk : s.kept q n) :
    outKept q n (execMeterRefill x0 s) := by
  unfold execMeterRefill
  with_reducible repeat' first | assumption | refine out_next ?_ | apply State.putPlane_kept | intro _ | refine kept_mk ?_

theorem execSieveAvgUpdate_kept (x0 : Half) {s : State} (hk : s.kept q n) :
    outKept q n (execSieveAvgUpdate x0 s) := by
  unfold execSieveAvgUpdate
  with_reducible repeat' first | assumption | refine out_next ?_ | apply State.putPlane_kept | apply State.setf_kept | apply foldl_kept | intro _ | refine kept_mk ?_

theorem execGateEntryChange_kept (x0 : Half) (p : Fin 9) {s : State} (hk : s.kept q n) :
    outKept q n (execGateEntryChange x0 p s) := by
  unfold execGateEntryChange
  with_reducible repeat' first | assumption | refine out_next ?_ | apply State.putGate_kept | apply State.setf_kept | intro _ | refine kept_ite ?_ ?_ | refine out_ite ?_ ?_ | split | refine fst_kept (by assumption) ?_ | refine snd_kept (by assumption) ?_ | refine opt_kept (by assumption) ?_ | refine kept_mk ?_

theorem State.gateEn_kept {s : State} (x1 : Half) (p : Nat) (was : Bool) (hk : s.kept q n) :
    (State.gateEn s x1 p was).kept q n := by
  unfold State.gateEn
  with_reducible repeat' first | assumption | apply State.putGate_kept | refine kept_ite ?_ ?_ | refine kept_mk ?_

theorem State.gateChange_kept {s : State} (x1 : Half) (p : Nat) (hk : s.kept q n) :
    (State.gateChange s x1 p).kept q n := by
  unfold State.gateChange
  with_reducible repeat' first | assumption | apply State.putGate_kept | apply State.setf_kept | refine kept_ite ?_ ?_ | refine kept_mk ?_

theorem State.gateCtrlWrite_kept {s : State} (m : Nat) (x2 : Half) (p : Nat) (v : Word) (hk : s.kept q n) :
    (State.gateCtrlWrite s m x2 p v).kept q n := by
  unfold State.gateCtrlWrite
  with_reducible repeat' first | assumption | apply State.gateChange_kept | apply State.gateEn_kept | apply State.guardReg_kept | apply State.plainWrite_kept | apply State.setf_kept | intro _ | refine kept_ite ?_ ?_ | refine kept_mk ?_

theorem execGateChangeRequest_kept (m : Byte) (x1 : Half) (p : Fin 9) (v : Word) {s : State} (hk : s.kept q n) :
    outKept q n (execGateChangeRequest m x1 p v s) := by
  unfold execGateChangeRequest
  with_reducible repeat' first | assumption | refine out_next ?_ | apply State.gateCtrlWrite_kept | refine kept_mk ?_

theorem execSwgEnWrite_kept (m : Byte) (x1 : Half) (p : Fin 9) (v : Word) {s : State} (hk : s.kept q n) :
    outKept q n (execSwgEnWrite m x1 p v s) := by
  unfold execSwgEnWrite
  with_reducible repeat' first | assumption | refine out_next ?_ | apply State.gateCtrlWrite_kept | refine kept_mk ?_

theorem execGateBankSwap_kept (x0 : Half) (p : Fin 9) {s : State} (hk : s.kept q n) :
    outKept q n (execGateBankSwap x0 p s) := by
  unfold execGateBankSwap
  with_reducible repeat' first | assumption | refine out_next ?_ | apply State.putGate_kept | apply State.setf_kept | apply State.wr_kept | (fail_if_no_progress (extract_lets +onlyGivenNames x); first | (refine kept_bind (q := q) (n := n) (x := x) ?_ (fun _ => ?_); on_goal 2 => clear_value x; on_goal 1 => unfold x) | skip) | refine kept_ite ?_ ?_ | refine out_ite ?_ ?_ | split | refine fst_kept (by assumption) ?_ | refine snd_kept (by assumption) ?_ | refine opt_kept (by assumption) ?_ | refine kept_mk ?_

theorem State.bufLowWrite_kept {s : State} (m : Nat) (x2 : Half) (v : Word) (hk : s.kept q n) :
    (State.bufLowWrite s m x2 v).kept q n := by
  unfold State.bufLowWrite
  with_reducible repeat' first | assumption | apply State.guardReg_kept | apply State.setf_kept | intro _ | refine kept_ite ?_ ?_ | refine kept_mk ?_

theorem execSwBufLowReset_kept (m : Byte) (x1 : Half) (v : Word) {s : State} (hk : s.kept q n) :
    outKept q n (execSwBufLowReset m x1 v s) := by
  unfold execSwBufLowReset
  with_reducible repeat' first | assumption | refine out_next ?_ | apply State.bufLowWrite_kept | refine kept_mk ?_

theorem execSp9Dispatch_kept (x0 : Half) {s : State} (hk : s.kept q n) :
    outKept q n (execSp9Dispatch x0 s) := by
  unfold execSp9Dispatch
  with_reducible repeat' first | assumption | refine out_next ?_ | apply State.neStage_kept | apply State.putPlane_kept | apply State.txCount_kept | (fail_if_no_progress (extract_lets +onlyGivenNames x); first | (refine kept_bind (q := q) (n := n) (x := x) ?_ (fun _ => ?_); on_goal 2 => clear_value x; on_goal 1 => unfold x) | skip) | apply foldl_kept | intro _ | refine kept_ite ?_ ?_ | refine out_ite ?_ ?_ | split | refine fst_kept (by assumption) ?_ | refine snd_kept (by assumption) ?_ | refine opt_kept (by assumption) ?_ | refine kept_mk ?_

end Sys2Proof.Machine
end

