-- ==== Sys2Proof/Laws/KeptMac.lean ====
section
/-! SUPPORT. What the definitions of Machine/Mac.lean keep: the queue, the time, the canonical form of memory and registers, and that at
most one half is in CHARGE. -/

set_option linter.unreachableTactic false
set_option linter.unusedTactic false
set_option linter.unusedVariables false

namespace Sys2Proof.Machine
open Sys2Proof

variable {q : List Instr} {n : Nat}

theorem State.txAbort_kept {s : State} (p : Nat) (hk : s.kept q n) :
    (State.txAbort s p).kept q n := by
  unfold State.txAbort
  with_reducible repeat' first | assumption | apply State.macCnt_kept | apply State.mapPort_kept | apply State.planeShow_kept | apply State.putPlane_kept | intro _ | refine kept_ite ?_ ?_ | split | refine fst_kept (by assumption) ?_ | refine snd_kept (by assumption) ?_ | refine opt_kept (by assumption) ?_ | refine kept_mk ?_

theorem State.phyLink_kept {s : State} (p : Nat) (up : Bool) (hk : s.kept q n) :
    (State.phyLink s p up).kept q n := by
  unfold State.phyLink
  with_reducible repeat' first | assumption | apply State.setb_kept | apply State.setf_kept | refine kept_ite ?_ ?_ | refine kept_mk ?_

theorem State.macLink_kept {s : State} (p : Nat) (up : Bool) (hk : s.kept q n) :
    (State.macLink s p up).kept q n := by
  unfold State.macLink
  with_reducible repeat' first | assumption | apply State.macCnt_kept | apply State.neStatusPort_kept | apply State.netEvent_kept | apply State.phyLink_kept | apply State.setb_kept | apply State.setf_kept | apply State.txAbort_kept | refine kept_ite ?_ ?_ | refine kept_mk ?_

theorem State.oneStep_kept {s : State} (p : Nat) (x2 : Nat) (bs : List Byte) (hk : s.kept q n) :
    (State.oneStep s p x2 bs).2.kept q n := by
  unfold State.oneStep
  with_reducible repeat' first | assumption | apply State.inc_kept | (fail_if_no_progress (extract_lets +onlyGivenNames x); first | (refine kept_bind (q := q) (n := n) (x := x) ?_ (fun _ => ?_); on_goal 2 => clear_value x; on_goal 1 => unfold x) | skip) | refine kept_ite ?_ ?_ | split | refine fst_kept (by assumption) ?_ | refine snd_kept (by assumption) ?_ | refine opt_kept (by assumption) ?_ | refine kept_mk ?_

theorem State.pauseRx_kept {s : State} (p : Nat) (x2 : Nat) (hk : s.kept q n) :
    (State.pauseRx s p x2).kept q n := by
  unfold State.pauseRx
  with_reducible repeat' first | assumption | apply State.mapPort_kept | apply State.setb_kept | apply State.txMark_kept | intro _ | refine kept_ite ?_ ?_ | refine kept_mk ?_

theorem execPauseExpiry_kept (p : Fin 24) {s : State} (hk : s.kept q n) :
    outKept q n (execPauseExpiry p s) := by
  unfold execPauseExpiry
  with_reducible repeat' first | assumption | refine out_next ?_ | apply State.setf_kept | refine kept_ite ?_ ?_ | refine out_ite ?_ ?_ | refine kept_mk ?_

theorem State.cutEnd_kept {s : State} (p : Nat) (bs : List Byte) (hk : s.kept q n) :
    (State.cutEnd s p bs).kept q n := by
  unfold State.cutEnd
  with_reducible repeat' first | assumption | apply State.emitField_kept | apply State.inc_kept | apply State.macCnt_kept | refine kept_ite ?_ ?_ | refine kept_mk ?_

theorem State.cutCopy_kept {s : State} (x1 : Half) (f : InFrame) (d : Fwd) (maxLen : Nat) (o : Nat) (hk : s.kept q n) :
    (State.cutCopy s x1 f d maxLen o).kept q n := by
  unfold State.cutCopy
  with_reducible repeat' first | assumption | apply State.cutEnd_kept | apply State.egress_kept | apply State.inc_kept | apply State.sieve_kept | apply foldl_kept | intro _ | refine kept_ite ?_ ?_ | split | refine fst_kept (by assumption) ?_ | refine snd_kept (by assumption) ?_ | refine opt_kept (by assumption) ?_ | refine kept_mk ?_

theorem State.cutBad_kept {s : State} (p : Nat) (bs : List Byte) (stamp : Nat) (hk : s.kept q n) :
    (State.cutBad s p bs stamp).kept q n := by
  unfold State.cutBad
  with_reducible repeat' first | assumption | apply State.cutCopy_kept | apply foldl_kept | intro _ | refine kept_ite ?_ ?_ | split | refine fst_kept (by assumption) ?_ | refine snd_kept (by assumption) ?_ | refine opt_kept (by assumption) ?_ | refine kept_mk ?_

theorem State.macDeliver_kept {s : State} (p : Nat) (bs : List Byte) (x3 : Nat) (hk : s.kept q n) :
    (State.macDeliver s p bs x3).kept q n := by
  unfold State.macDeliver
  with_reducible repeat' first | assumption | apply State.mapPlane_kept | apply State.ptpRing_kept | apply State.rxCount_kept | intro _ | refine kept_ite ?_ ?_ | refine kept_mk ?_

theorem State.macRx_kept {s : State} (p : Nat) (bs : List Byte) (codeErr : Bool) (linkLost : Bool) (fcsOk : Bool) (capture : Nat) (hk : s.kept q n) :
    (State.macRx s p bs codeErr linkLost fcsOk capture).kept q n := by
  unfold State.macRx
  with_reducible repeat' first | assumption | apply State.cutBad_kept | apply State.macCnt_kept | apply State.macDeliver_kept | apply State.pauseRx_kept | refine kept_ite ?_ ?_ | refine kept_mk ?_

theorem execMacFrameReceive_kept (p : Fin 24) (bytes : List Byte) (codeErr : Bool) (linkLost : Bool) (fcsOk : Bool) (capture : Nat) {s : State} (hk : s.kept q n) :
    outKept q n (execMacFrameReceive p bytes codeErr linkLost fcsOk capture s) := by
  unfold execMacFrameReceive
  with_reducible repeat' first | assumption | refine out_next ?_ | apply State.emitField_kept | apply State.macRx_kept | refine kept_ite ?_ ?_ | refine out_ite ?_ ?_ | refine kept_mk ?_

theorem State.lineOut_kept {s : State} (p : Nat) (bs : List Byte) (capture : Nat) (hk : s.kept q n) :
    (State.lineOut s p bs capture).kept q n := by
  unfold State.lineOut
  with_reducible repeat' first | assumption | apply State.emitField_kept | apply State.macRx_kept | refine kept_ite ?_ ?_ | refine kept_mk ?_

theorem State.pauseSend_kept {s : State} (p : Nat) (x2 : Nat) (hk : s.kept q n) :
    (State.pauseSend s p x2).kept q n := by
  unfold State.pauseSend
  with_reducible repeat' first | assumption | apply State.lineOut_kept | apply State.macCnt_kept | refine kept_mk ?_

theorem execPauseFrameSend_kept (p : Fin 24) {s : State} (hk : s.kept q n) :
    outKept q n (execPauseFrameSend p s) := by
  unfold execPauseFrameSend
  with_reducible repeat' first | assumption | refine out_next ?_ | apply State.pauseSend_kept | apply State.putPort_kept | refine kept_ite ?_ ?_ | refine out_ite ?_ ?_ | refine kept_mk ?_

theorem execPauseRefresh_kept (p : Fin 24) {s : State} (hk : s.kept q n) :
    outKept q n (execPauseRefresh p s) := by
  unfold execPauseRefresh
  with_reducible repeat' first | assumption | refine out_next ?_ | apply State.pauseSend_kept | apply State.putPort_kept | refine kept_ite ?_ ?_ | refine out_ite ?_ ?_ | refine kept_mk ?_

theorem State.txEnded_kept {s : State} (p : Nat) (hk : s.kept q n) :
    (State.txEnded s p).kept q n := by
  unfold State.txEnded
  with_reducible repeat' first | assumption | apply State.mapPort_kept | intro _ | refine kept_ite ?_ ?_ | refine kept_mk ?_

theorem State.macSend_kept {s : State} (p : Nat) (bs : List Byte) (capture : Nat) (hk : s.kept q n) :
    (State.macSend s p bs capture).kept q n := by
  unfold State.macSend
  with_reducible repeat' first | assumption | apply State.lineOut_kept | apply State.oneStep_kept | apply State.ptpRing_kept | apply State.txCount_kept | apply State.txEnded_kept | split | refine fst_kept (by assumption) ?_ | refine snd_kept (by assumption) ?_ | refine opt_kept (by assumption) ?_ | refine kept_mk ?_

theorem State.sp11Send_kept {s : State} (x1 : Half) (x2 : PCopy) (hk : s.kept q n) :
    (State.sp11Send s x1 x2).kept q n := by
  unfold State.sp11Send
  with_reducible repeat' first | assumption | apply State.macCnt_kept | apply State.mapPlane_kept | apply State.txCount_kept | intro _ | refine kept_ite ?_ ?_ | refine kept_mk ?_

theorem execMacFrameTransmit_kept (p : Fin 24) (capture : Nat) {s : State} (hk : s.kept q n) :
    outKept q n (execMacFrameTransmit p capture s) := by
  unfold execMacFrameTransmit
  with_reducible repeat' first | assumption | refine out_next ?_ | apply State.emit_kept | apply State.macCnt_kept | apply State.macSend_kept | apply State.putPlane_kept | apply State.sp11Send_kept | apply State.txCount_kept | (fail_if_no_progress (extract_lets +onlyGivenNames x); first | (refine kept_bind (q := q) (n := n) (x := x) ?_ (fun _ => ?_); on_goal 2 => clear_value x; on_goal 1 => unfold x) | skip) | intro _ | refine kept_ite ?_ ?_ | refine out_ite ?_ ?_ | split | refine fst_kept (by assumption) ?_ | refine snd_kept (by assumption) ?_ | refine opt_kept (by assumption) ?_ | refine kept_mk ?_

theorem execPeriodBoundary_kept (p : Fin 24) {s : State} (hk : s.kept q n) :
    outKept q n (execPeriodBoundary p s) := by
  unfold execPeriodBoundary
  with_reducible repeat' first | assumption | refine out_next ?_ | apply State.periodClose_kept | (fail_if_no_progress (extract_lets +onlyGivenNames x); first | (refine kept_bind (q := q) (n := n) (x := x) ?_ (fun _ => ?_); on_goal 2 => clear_value x; on_goal 1 => unfold x) | skip) | split | refine fst_kept (by assumption) ?_ | refine snd_kept (by assumption) ?_ | refine opt_kept (by assumption) ?_ | refine kept_mk ?_

theorem State.perCtrlWrite_kept {s : State} (m : Nat) (p : Nat) (v : Word) (hk : s.kept q n) :
    (State.perCtrlWrite s m p v).kept q n := by
  unfold State.perCtrlWrite
  with_reducible repeat' first | assumption | apply State.guardReg_kept | apply State.mapPort_kept | apply State.plainWrite_kept | apply State.setf_kept | apply State.wr_kept | apply foldl_kept | intro _ | refine kept_ite ?_ ?_ | refine kept_mk ?_

theorem execMacPerCtrlWrite_kept (m : Byte) (p : Fin 24) (v : Word) {s : State} (hk : s.kept q n) :
    outKept q n (execMacPerCtrlWrite m p v s) := by
  unfold execMacPerCtrlWrite
  with_reducible repeat' first | assumption | refine out_next ?_ | apply State.perCtrlWrite_kept | refine kept_mk ?_

theorem State.macCtrlWrite_kept {s : State} (m : Nat) (p : Nat) (v : Word) (hk : s.kept q n) :
    (State.macCtrlWrite s m p v).kept q n := by
  unfold State.macCtrlWrite
  with_reducible repeat' first | assumption | apply State.guardReg_kept | apply State.plainWrite_kept | apply State.setf_kept | intro _ | refine kept_mk ?_

end Sys2Proof.Machine
end

