-- ==== Sys2Proof/Laws/KeptPhy.lean ====
section
/-! SUPPORT. What the definitions of Machine/Phy.lean keep: the queue, the time, the canonical form of memory and registers, and that at
most one half is in CHARGE. -/

set_option linter.unreachableTactic false
set_option linter.unusedTactic false
set_option linter.unusedVariables false

namespace Sys2Proof.Machine
open Sys2Proof

variable {q : List Instr} {n : Nat}

theorem State.macSpeed_kept {s : State} (p : Nat) (v : Nat) (hk : s.kept q n) :
    (State.macSpeed s p v).kept q n := by
  unfold State.macSpeed
  with_reducible repeat' first | assumption | apply State.setf_kept | refine kept_mk ?_

theorem State.tlStart_kept {s : State} (p : Nat) (hk : s.kept q n) :
    (State.tlStart s p).kept q n := by
  unfold State.tlStart
  with_reducible repeat' first | assumption | apply State.emitField_kept | apply State.mapPort_kept | apply State.setb_kept | apply State.setf_kept | intro _ | refine kept_ite ?_ ?_ | refine kept_mk ?_

theorem State.tlStop_kept {s : State} (p : Nat) (hk : s.kept q n) :
    (State.tlStop s p).kept q n := by
  unfold State.tlStop
  with_reducible repeat' first | assumption | apply State.macLink_kept | apply State.mapPort_kept | apply State.setf_kept | intro _ | refine kept_mk ?_

theorem State.tlCtrlApply_kept {s : State} (p : Nat) (v : Word) (hk : s.kept q n) :
    (State.tlCtrlApply s p v).kept q n := by
  unfold State.tlCtrlApply
  with_reducible repeat' first | assumption | apply State.macLink_kept | apply State.padLeave_kept | apply State.padReturn_kept | apply State.plainWrite_kept | apply State.setb_kept | apply State.setf_kept | apply State.tlStart_kept | apply State.tlStop_kept | intro _ | refine kept_ite ?_ ?_ | split | refine fst_kept (by assumption) ?_ | refine snd_kept (by assumption) ?_ | refine opt_kept (by assumption) ?_ | refine kept_mk ?_

theorem State.tlCtrlWrite_kept {s : State} (m : Nat) (p : Nat) (v : Word) (hk : s.kept q n) :
    (State.tlCtrlWrite s m p v).kept q n := by
  unfold State.tlCtrlWrite
  with_reducible repeat' first | assumption | apply State.guardReg_kept | apply State.tlCtrlApply_kept | intro _ | refine kept_mk ?_

theorem execTlCtrlWrite_kept (m : Byte) (p : Fin 8) (v : Word) {s : State} (hk : s.kept q n) :
    outKept q n (execTlCtrlWrite m p v s) := by
  unfold execTlCtrlWrite
  with_reducible repeat' first | assumption | refine out_next ?_ | apply State.tlCtrlWrite_kept | refine kept_mk ?_

theorem execTlRestartAn_kept (m : Byte) (p : Fin 8) (v : Word) {s : State} (hk : s.kept q n) :
    outKept q n (execTlRestartAn m p v s) := by
  unfold execTlRestartAn
  with_reducible repeat' first | assumption | refine out_next ?_ | apply State.tlCtrlWrite_kept | refine kept_mk ?_

theorem execTlAnComplete_kept (p : Fin 8) (page : BitVec 16) (lp24 : Bool) (lp10 : Bool) (lpRole : Fin 3) (res24 : Bool) (lead : Bool) {s : State} (hk : s.kept q n) :
    outKept q n (execTlAnComplete p page lp24 lp10 lpRole res24 lead s) := by
  unfold execTlAnComplete
  with_reducible repeat' first | assumption | refine out_next ?_ | apply State.mapPort_kept | apply State.setb_kept | apply State.setf_kept | apply State.wrn_kept | intro _ | refine kept_ite ?_ ?_ | refine out_ite ?_ ?_ | refine kept_mk ?_

theorem execTlTrainingComplete_kept (p : Fin 8) {s : State} (hk : s.kept q n) :
    outKept q n (execTlTrainingComplete p s) := by
  unfold execTlTrainingComplete
  with_reducible repeat' first | assumption | refine out_next ?_ | apply State.macLink_kept | apply State.macSpeed_kept | apply State.setf_kept | refine kept_ite ?_ ?_ | refine out_ite ?_ ?_ | refine kept_mk ?_

theorem execTlAnRetry_kept (p : Fin 8) {s : State} (hk : s.kept q n) :
    outKept q n (execTlAnRetry p s) := by
  unfold execTlAnRetry
  with_reducible repeat' first | assumption | refine out_next ?_ | apply State.tlStart_kept | refine kept_ite ?_ ?_ | refine out_ite ?_ ?_ | refine kept_mk ?_

theorem State.tlFail_kept {s : State} (p : Nat) (hk : s.kept q n) :
    (State.tlFail s p).kept q n := by
  unfold State.tlFail
  with_reducible repeat' first | assumption | apply State.macLink_kept | apply State.mapPort_kept | apply State.setf_kept | intro _ | refine kept_ite ?_ ?_ | refine kept_mk ?_

theorem execTlLossOfLock_kept (p : Fin 8) {s : State} (hk : s.kept q n) :
    outKept q n (execTlLossOfLock p s) := by
  unfold execTlLossOfLock
  with_reducible repeat' first | assumption | refine out_next ?_ | apply State.tlFail_kept | refine kept_mk ?_

theorem execTlSqiZeroTimeout_kept (p : Fin 8) {s : State} (hk : s.kept q n) :
    outKept q n (execTlSqiZeroTimeout p s) := by
  unfold execTlSqiZeroTimeout
  with_reducible repeat' first | assumption | refine out_next ?_ | apply State.setf_kept | apply State.tlFail_kept | refine kept_mk ?_

theorem execTlLinkFailWaitEnd_kept (p : Fin 8) {s : State} (hk : s.kept q n) :
    outKept q n (execTlLinkFailWaitEnd p s) := by
  unfold execTlLinkFailWaitEnd
  with_reducible repeat' first | assumption | refine out_next ?_ | apply State.tlStart_kept | refine kept_ite ?_ ?_ | refine out_ite ?_ ?_ | refine kept_mk ?_

theorem execTlShortDetect_kept (p : Fin 8) {s : State} (hk : s.kept q n) :
    outKept q n (execTlShortDetect p s) := by
  unfold execTlShortDetect
  with_reducible repeat' first | assumption | refine out_next ?_ | apply State.inc_kept | apply State.setf_kept | refine kept_ite ?_ ?_ | refine out_ite ?_ ?_ | refine kept_mk ?_

theorem State.sdRestart_kept {s : State} (l : Nat) (x2 : Nat) (hk : s.kept q n) :
    (State.sdRestart s l x2).kept q n := by
  unfold State.sdRestart
  with_reducible repeat' first | assumption | apply State.macLink_kept | apply State.mapPort_kept | apply State.setf_kept | intro _ | refine kept_ite ?_ ?_ | refine kept_mk ?_

theorem State.sdForced_kept {s : State} (l : Nat) (hk : s.kept q n) :
    (State.sdForced s l).kept q n := by
  unfold State.sdForced
  with_reducible repeat' first | assumption | apply State.macSpeed_kept | apply State.setf_kept | refine kept_ite ?_ ?_ | refine kept_mk ?_

theorem State.sdCtrlApply_kept {s : State} (l : Nat) (v : Word) (hk : s.kept q n) :
    (State.sdCtrlApply s l v).kept q n := by
  unfold State.sdCtrlApply
  with_reducible repeat' first | assumption | apply State.padLeave_kept | apply State.padReturn_kept | apply State.plainWrite_kept | apply State.sdForced_kept | apply State.sdRestart_kept | apply State.setb_kept | intro _ | refine kept_ite ?_ ?_ | refine kept_mk ?_

theorem State.sdCtrlWrite_kept {s : State} (m : Nat) (l : Nat) (v : Word) (hk : s.kept q n) :
    (State.sdCtrlWrite s m l v).kept q n := by
  unfold State.sdCtrlWrite
  with_reducible repeat' first | assumption | apply State.guardReg_kept | apply State.sdCtrlApply_kept | intro _ | refine kept_mk ?_

theorem execSdCtrlWrite_kept (m : Byte) (l : Fin 8) (v : Word) {s : State} (hk : s.kept q n) :
    outKept q n (execSdCtrlWrite m l v s) := by
  unfold execSdCtrlWrite
  with_reducible repeat' first | assumption | refine out_next ?_ | apply State.sdCtrlWrite_kept | refine kept_mk ?_

theorem execSdPllLock_kept (l : Fin 8) {s : State} (hk : s.kept q n) :
    outKept q n (execSdPllLock l s) := by
  unfold execSdPllLock
  with_reducible repeat' first | assumption | refine out_next ?_ | apply State.setf_kept | refine kept_ite ?_ ?_ | refine out_ite ?_ ?_ | refine kept_mk ?_

theorem execSdCdrLock_kept (l : Fin 8) {s : State} (hk : s.kept q n) :
    outKept q n (execSdCdrLock l s) := by
  unfold execSdCdrLock
  with_reducible repeat' first | assumption | refine out_next ?_ | apply State.setf_kept | refine kept_ite ?_ ?_ | refine out_ite ?_ ?_ | refine kept_mk ?_

theorem execSdSyncAcquired_kept (l : Fin 8) {s : State} (hk : s.kept q n) :
    outKept q n (execSdSyncAcquired l s) := by
  unfold execSdSyncAcquired
  with_reducible repeat' first | assumption | refine out_next ?_ | apply State.setf_kept | refine kept_ite ?_ ?_ | refine out_ite ?_ ?_ | refine kept_mk ?_

theorem State.halfDuplex_kept {s : State} (p : Nat) (hk : s.kept q n) :
    (State.halfDuplex s p).kept q n := by
  unfold State.halfDuplex
  with_reducible repeat' first | assumption | apply State.macLink_kept | apply State.mapPort_kept | apply State.setf_kept | intro _ | refine kept_mk ?_

theorem execSdAnComplete_kept (l : Fin 8) (page : BitVec 16) (speed : Fin 4) (half : Bool) {s : State} (hk : s.kept q n) :
    outKept q n (execSdAnComplete l page speed half s) := by
  unfold execSdAnComplete
  with_reducible repeat' first | assumption | refine out_next ?_ | apply State.halfDuplex_kept | apply State.mapPort_kept | apply State.setf_kept | apply State.wrn_kept | intro _ | refine kept_ite ?_ ?_ | refine out_ite ?_ ?_ | refine kept_mk ?_

theorem execSdSyncLoss_kept (l : Fin 8) {s : State} (hk : s.kept q n) :
    outKept q n (execSdSyncLoss l s) := by
  unfold execSdSyncLoss
  with_reducible repeat' first | assumption | refine out_next ?_ | apply State.sdRestart_kept | refine kept_ite ?_ ?_ | refine out_ite ?_ ?_ | refine kept_mk ?_

theorem execSgmiiSpeedChange_kept (l : Fin 8) (speed : Fin 4) {s : State} (hk : s.kept q n) :
    outKept q n (execSgmiiSpeedChange l speed s) := by
  unfold execSgmiiSpeedChange
  with_reducible repeat' first | assumption | refine out_next ?_ | apply State.macLink_kept | apply State.mapPort_kept | apply State.setf_kept | intro _ | refine kept_ite ?_ ?_ | refine out_ite ?_ ?_ | refine kept_mk ?_

theorem execSdPrbsLock_kept (l : Fin 8) (errors : Nat) {s : State} (hk : s.kept q n) :
    outKept q n (execSdPrbsLock l errors s) := by
  unfold execSdPrbsLock
  with_reducible repeat' first | assumption | refine out_next ?_ | apply State.setf_kept | apply State.wrn_kept | refine kept_ite ?_ ?_ | refine out_ite ?_ ?_ | refine kept_mk ?_

theorem State.rgFollow_kept {s : State} (x1 : Half) (was : Bool) (hk : s.kept q n) :
    (State.rgFollow s x1 was).kept q n := by
  unfold State.rgFollow
  with_reducible repeat' first | assumption | apply State.halfDuplex_kept | apply State.macLink_kept | apply State.macSpeed_kept | apply State.mapPort_kept | apply State.padReturn_kept | apply State.setf_kept | apply State.txMark_kept | intro _ | refine kept_ite ?_ ?_ | refine kept_mk ?_

theorem State.rgCtrlWrite_kept {s : State} (m : Nat) (x2 : Half) (v : Word) (hk : s.kept q n) :
    (State.rgCtrlWrite s m x2 v).kept q n := by
  unfold State.rgCtrlWrite
  with_reducible repeat' first | assumption | apply State.guardReg_kept | apply State.padLeave_kept | apply State.plainWrite_kept | apply State.rgFollow_kept | intro _ | refine kept_ite ?_ ?_ | refine kept_mk ?_

theorem execRgCtrlWrite_kept (m : Byte) (x1 : Half) (v : Word) {s : State} (hk : s.kept q n) :
    outKept q n (execRgCtrlWrite m x1 v s) := by
  unfold execRgCtrlWrite
  with_reducible repeat' first | assumption | refine out_next ?_ | apply State.rgCtrlWrite_kept | refine kept_mk ?_

theorem execRgInbandStatus_kept (x0 : Half) (link : Bool) (fd : Bool) (speed : Fin 4) {s : State} (hk : s.kept q n) :
    outKept q n (execRgInbandStatus x0 link fd speed s) := by
  unfold execRgInbandStatus
  with_reducible repeat' first | assumption | refine out_next ?_ | apply State.rgFollow_kept | apply State.setb_kept | apply State.setf_kept | refine kept_ite ?_ ?_ | refine out_ite ?_ ?_ | refine kept_mk ?_

theorem execRgSpeedChangeRestart_kept (x0 : Half) {s : State} (hk : s.kept q n) :
    outKept q n (execRgSpeedChangeRestart x0 s) := by
  unfold execRgSpeedChangeRestart
  with_reducible repeat' first | assumption | refine out_next ?_ | apply State.macSpeed_kept | apply State.putPort_kept | refine kept_ite ?_ ?_ | refine out_ite ?_ ?_ | refine kept_mk ?_

theorem execLinkChange_kept (p : Fin 24) (up : Bool) {s : State} (hk : s.kept q n) :
    outKept q n (execLinkChange p up s) := by
  unfold execLinkChange
  with_reducible repeat' first | assumption | refine out_next ?_ | apply State.macLink_kept | apply State.macSpeed_kept | apply State.mapPort_kept | intro _ | refine kept_ite ?_ ?_ | refine out_ite ?_ ?_ | refine kept_mk ?_

end Sys2Proof.Machine
end

