-- ==== Sys2Proof/Laws/KeptLarderCore.lean ====
section
/-! SUPPORT. What the definitions of Machine/LarderCore.lean keep: the queue, the time, the canonical form of memory and registers, and that at
most one half is in CHARGE. -/

set_option linter.unreachableTactic false
set_option linter.unusedTactic false
set_option linter.unusedVariables false

namespace Sys2Proof.Machine
open Sys2Proof

variable {q : List Instr} {n : Nat}

theorem State.storeStop_kept {s : State} (k : Nat) (hk : s.kept q n) :
    (State.storeStop s k).kept q n := by
  unfold State.storeStop
  with_reducible repeat' first | assumption | apply State.fault_kept | apply State.setf_kept | refine kept_ite ?_ ?_ | refine kept_mk ?_

theorem State.storesStop_kept {s : State} (x1 : Half) (hk : s.kept q n) :
    (State.storesStop s x1).kept q n := by
  unfold State.storesStop
  with_reducible repeat' first | assumption | apply State.storeStop_kept | apply foldl_kept | intro _ | refine kept_ite ?_ ?_ | refine kept_mk ?_

theorem State.setMirror_kept {s : State} (v : Nat) (hk : s.kept q n) :
    (State.setMirror s v).kept q n := by
  unfold State.setMirror
  with_reducible repeat' first | assumption | apply State.setf_kept | refine kept_mk ?_

theorem State.portLeaves_kept {s : State} (x1 : Half) (hk : s.kept q n) :
    (State.portLeaves s x1).kept q n := by
  unfold State.portLeaves
  with_reducible repeat' first | assumption | apply State.putDram_kept | apply State.setMirror_kept | apply State.storesStop_kept | refine kept_ite ?_ ?_ | refine kept_mk ?_

theorem State.portLost_kept {s : State} (x1 : Half) (hk : s.kept q n) :
    (State.portLost s x1).kept q n := by
  unfold State.portLost
  with_reducible repeat' first | assumption | apply State.clearMem_kept | apply State.putDram_kept | refine kept_mk ?_

theorem State.portEnters_kept {s : State} (x1 : Half) (hk : s.kept q n) :
    (State.portEnters s x1).kept q n := by
  unfold State.portEnters
  with_reducible repeat' first | assumption | apply State.putDram_kept | apply State.setMirror_kept | refine kept_ite ?_ ?_ | refine kept_mk ?_

theorem State.copyRange_kept {s : State} (src : Nat) (dst : Nat) (x3 : Nat) (hk : s.kept q n) :
    (State.copyRange s src dst x3).kept q n := by
  unfold State.copyRange
  with_reducible repeat' first | assumption | apply State.clearMem_kept | apply State.putb_kept | apply foldl_kept | intro _ | refine kept_mk ?_

theorem State.larderPut_kept {s : State} (a : Nat) (bs : List Byte) (hk : s.kept q n) :
    (State.larderPut s a bs).kept q n := by
  unfold State.larderPut
  with_reducible repeat' first | assumption | apply State.dramPut_kept | apply State.ok_kept | split | refine fst_kept (by assumption) ?_ | refine snd_kept (by assumption) ?_ | refine opt_kept (by assumption) ?_ | refine kept_mk ?_

end Sys2Proof.Machine
end

