-- ==== Sys2Proof/Laws/KeptResetCore.lean ====
section
/-! SUPPORT. What the definitions of Machine/ResetCore.lean keep: the queue, the time, the canonical form of memory and registers, and that at
most one half is in CHARGE. -/

set_option linter.unreachableTactic false
set_option linter.unusedTactic false
set_option linter.unusedVariables false

namespace Sys2Proof.Machine
open Sys2Proof

variable {q : List Instr} {n : Nat}

theorem State.recordCause_kept {s : State} (d : Nat) (src : Nat) (level : Nat) (hk : s.kept q n) :
    (State.recordCause s d src level).kept q n := by
  unfold State.recordCause
  with_reducible repeat' first | assumption | apply State.incSat_kept | apply State.setf_kept | refine kept_mk ?_

theorem State.resetPages_kept {s : State} (x1 : Half) (lo : Nat) (hi : Nat) (hk : s.kept q n) :
    (State.resetPages s x1 lo hi).kept q n := by
  unfold State.resetPages
  with_reducible repeat' first | assumption | apply State.resetRegs_kept | intro _ | refine kept_mk ?_

theorem State.abandonLoad_kept {s : State} (i : Nat) (hk : s.kept q n) :
    (State.abandonLoad s i).kept q n := by
  unfold State.abandonLoad
  with_reducible repeat' first | assumption | apply State.finish_kept | apply State.useFree_kept | refine kept_ite ?_ ?_ | split | refine fst_kept (by assumption) ?_ | refine snd_kept (by assumption) ?_ | refine opt_kept (by assumption) ?_ | refine kept_mk ?_

theorem State.resetNeedle_kept {s : State} (i : Nat) (hk : s.kept q n) :
    (State.resetNeedle s i).kept q n := by
  unfold State.resetNeedle
  with_reducible repeat' first | assumption | apply State.abandonLoad_kept | apply State.clearMem_kept | apply State.mastersReset_kept | apply State.putEng_kept | apply State.resetRegs_kept | intro _ | refine kept_mk ?_

theorem State.startNeedle_kept {s : State} (i : Nat) (hk : s.kept q n) :
    (State.startNeedle s i).kept q n := by
  unfold State.startNeedle
  with_reducible repeat' first | assumption | apply State.setf_kept | refine kept_mk ?_

theorem State.resetHook_kept {s : State} (e : Nat) (hk : s.kept q n) :
    (State.resetHook s e).kept q n := by
  unfold State.resetHook
  with_reducible repeat' first | assumption | apply State.mastersReset_kept | apply State.putHook_kept | apply State.resetRegs_kept | intro _ | refine kept_mk ?_

theorem State.resetPlane_kept {s : State} (x1 : Half) (hk : s.kept q n) :
    (State.resetPlane s x1).kept q n := by
  unfold State.resetPlane
  with_reducible repeat' first | assumption | apply State.putPlane_kept | apply State.resetPages_kept | intro _ | split | refine fst_kept (by assumption) ?_ | refine snd_kept (by assumption) ?_ | refine opt_kept (by assumption) ?_ | refine kept_mk ?_

theorem State.resetCan_kept {s : State} (x1 : Half) (hk : s.kept q n) :
    (State.resetCan s x1).kept q n := by
  unfold State.resetCan
  with_reducible repeat' first | assumption | apply State.resetPages_kept | intro _ | refine kept_mk ?_

theorem State.resetDram_kept {s : State} (x1 : Half) (keep : Bool) (hk : s.kept q n) :
    (State.resetDram s x1 keep).kept q n := by
  unfold State.resetDram
  with_reducible repeat' first | assumption | apply State.portLeaves_kept | apply State.portLost_kept | apply State.putDram_kept | apply State.resetPages_kept | apply State.setf_kept | apply State.wr_kept | intro _ | refine kept_ite ?_ ?_ | split | refine fst_kept (by assumption) ?_ | refine snd_kept (by assumption) ?_ | refine opt_kept (by assumption) ?_ | refine kept_mk ?_

theorem State.resetHarts_kept {s : State} (x1 : Half) (hk : s.kept q n) :
    (State.resetHarts s x1).kept q n := by
  unfold State.resetHarts
  with_reducible repeat' first | assumption | apply State.resetRegs_kept | apply State.wr_kept | intro _ | refine kept_mk ?_

theorem State.resetHalf_kept {s : State} (x : Half) (keep : Bool) (h : s.kept q n) : (s.resetHalf x keep).kept q n := by
  unfold State.resetHalf
  extract_lets s1 s2 s3 s4 s5 s6 s7 s8 s9 s10 s11 s12 k s13 s14
  have h1 : s1.kept q n := by
    refine foldl_kept (fun s t h => ?_) _ h
    split
    · exact State.transportDown_kept _ h
    · exact h
  have h2 : s2.kept q n := State.resetDram_kept _ _ h1
  have h3 : s3.kept q n := State.resetCan_kept _ (State.resetPlane_kept _ h2)
  have h4 : s4.kept q n := foldl_kept (fun s e h => State.resetNeedle_kept _ h) _ h3
  have h5 : s5.kept q n := foldl_kept (fun s e h => State.resetHook_kept _ h) _ h4
  have h6 : s6.kept q n := State.resetPages_kept _ _ _ (State.resetPages_kept _ _ _ (State.resetPages_kept _ _ _ h5))
  have h7 : s7.kept q n := State.setf_kept _ _ _ h6
  have h8 : s8.kept q n := State.resetHarts_kept _ h7
  have h9 : s9.kept q n := State.mastersReset_kept _ h8
  have h10 : s10.kept q n := kept_mk h9
  have h11 : s11.kept q n := State.setf_kept _ _ _ h10
  have h12 : s12.kept q n := State.setf_kept _ _ _ h11
  have h13 : s13.kept q n := kept_mk h12
  have h14 : s14.kept q n := by
    unfold s14
    split <;> exact kept_mk h13
  exact State.padsReset_kept _ h14

theorem State.holdHalf_kept {s : State} (x1 : Half) (keep : Bool) (hk : s.kept q n) :
    (State.holdHalf s x1 keep).kept q n := by
  unfold State.holdHalf
  with_reducible repeat' first | assumption | apply State.putHrst_kept | apply State.resetHalf_kept | refine kept_mk ?_

theorem liveRegs_wf (m : List (Nat × Word)) (h : storeWf regDefault m = true) : storeWf regDefault (liveRegs m) = true :=
  storeWf_remap regDefault m
    (fun a w => if a = A.PWR_RAIL then w else if a = A.PWR_TEMP then fput F.PWR_TEMP.PEAK w 0 else regDefault a) h

theorem keepRegs_wf (m : List (Nat × Word)) (h : storeWf regDefault m = true) : storeWf regDefault (keepRegs m) = true :=
  storeWf_remap regDefault m keptWord h

theorem State.resetChip_kept {s : State} (full keepK keepP : Bool) (h : s.kept q n) :
    (s.resetChip full keepK keepP).kept q n := by
  unfold State.resetChip
  extract_lets s1 s2 s3 port r
  have h1 : s1.kept q n := State.clearMem_kept (State.clearMem_kept h _ _) _ _
  have h2 : s2.kept q n := by
    unfold s2
    split
    · exact h1
    · exact State.portLost_kept _ h1
  have h3 : s3.kept q n := by
    unfold s3
    split
    · exact h2
    · exact State.portLost_kept _ h2
  obtain ⟨a, b, c⟩ := h3
  simp only [State.sound, Bool.and_eq_true] at c
  refine ⟨a, b, ?_⟩
  simp only [State.sound, Bool.and_eq_true]
  refine ⟨⟨c.1.1, ?_⟩, rfl⟩
  unfold State.regsOk
  dsimp only
  split
  · exact liveRegs_wf _ c.1.2
  · exact keepRegs_wf _ c.1.2

theorem State.resetExits_kept {s : State} (hs : List Half) (cause : Nat) (code : Option (Nat × Nat)) (hk : s.kept q n) :
    (State.resetExits s hs cause code).kept q n := by
  unfold State.resetExits
  with_reducible repeat' first | assumption | apply State.exits_kept | intro _ | refine kept_ite ?_ ?_ | refine kept_mk ?_

theorem State.assertChip_kept {s : State} (src : Nat) (level : Nat) (cause : Nat) (code : Option (Nat × Nat)) (hk : s.kept q n) :
    (State.assertChip s src level cause code).kept q n := by
  unfold State.assertChip
  with_reducible repeat' first | assumption | apply State.fault_kept | apply State.recordCause_kept | apply State.resetChip_kept | apply State.resetExits_kept | refine kept_ite ?_ ?_ | split | refine fst_kept (by assumption) ?_ | refine snd_kept (by assumption) ?_ | refine opt_kept (by assumption) ?_ | refine kept_mk ?_

theorem State.assertHalves_kept {s : State} (src : Nat) (cause : Nat) (code : Option (Nat × Nat)) (hs : List Half) (hk : s.kept q n) :
    (State.assertHalves s src cause code hs).kept q n := by
  unfold State.assertHalves
  with_reducible repeat' first | assumption | apply State.fault_kept | apply State.holdHalf_kept | apply State.recordCause_kept | apply State.resetExits_kept | apply foldl_kept | intro _ | refine kept_ite ?_ ?_ | split | refine fst_kept (by assumption) ?_ | refine snd_kept (by assumption) ?_ | refine opt_kept (by assumption) ?_ | refine kept_mk ?_

theorem State.srcFault_kept {s : State} (src : Nat) (hk : s.kept q n) :
    (State.srcFault s src).kept q n := by
  unfold State.srcFault
  with_reducible repeat' first | assumption | apply State.diagF3_kept | apply State.fault_kept | split | refine fst_kept (by assumption) ?_ | refine snd_kept (by assumption) ?_ | refine opt_kept (by assumption) ?_ | refine kept_mk ?_

theorem State.assertSource_kept {s : State} (i : Nat) (hk : s.kept q n) :
    (State.assertSource s i).kept q n := by
  unfold State.assertSource
  with_reducible repeat' first | assumption | apply State.assertChip_kept | apply State.assertHalves_kept | apply State.srcFault_kept | intro _ | refine kept_ite ?_ ?_ | split | refine fst_kept (by assumption) ?_ | refine snd_kept (by assumption) ?_ | refine opt_kept (by assumption) ?_ | refine kept_mk ?_

theorem State.tryHalf_kept {s : State} (x1 : Half) (hk : s.kept q n) :
    (State.tryHalf s x1).kept q n := by
  unfold State.tryHalf
  with_reducible repeat' first | assumption | apply State.putHrst_kept | refine kept_ite ?_ ?_ | refine kept_mk ?_

theorem State.enter6412_kept {s : State} (hk : s.kept q n) :
    (State.enter6412 s).kept q n := by
  unfold State.enter6412
  with_reducible repeat' first | assumption | apply State.setf_kept | apply State.transportUp_kept | apply foldl_kept | intro _ | refine kept_ite ?_ ?_ | refine kept_mk ?_

theorem State.startUp_kept {s : State} (hk : s.kept q n) :
    (State.startUp s).kept q n := by
  unfold State.startUp
  with_reducible repeat' first | assumption | apply State.enter6412_kept | apply State.loadLc_kept | apply State.sampleStraps_kept | refine kept_ite ?_ ?_ | refine kept_mk ?_

theorem State.tryChip_kept {s : State} (hk : s.kept q n) :
    (State.tryChip s).kept q n := by
  unfold State.tryChip
  with_reducible repeat' first | assumption | apply State.startUp_kept | refine kept_ite ?_ ?_ | refine kept_mk ?_

theorem State.tryRelease_kept {s : State} (hk : s.kept q n) :
    (State.tryRelease s).kept q n := by
  unfold State.tryRelease
  with_reducible repeat' first | assumption | apply State.tryChip_kept | apply State.tryHalf_kept | refine kept_mk ?_

theorem State.releaseSource_kept {s : State} (i : Nat) (hk : s.kept q n) :
    (State.releaseSource s i).kept q n := by
  unfold State.releaseSource
  with_reducible repeat' first | assumption | apply State.tryRelease_kept | refine kept_ite ?_ ?_ | refine kept_mk ?_

theorem State.releaseLatches_kept {s : State} (mask : Nat) (hk : s.kept q n) :
    (State.releaseLatches s mask).kept q n := by
  unfold State.releaseLatches
  with_reducible repeat' first | assumption | apply State.tryRelease_kept | apply foldl_kept | intro _ | refine kept_ite ?_ ?_ | refine kept_mk ?_

theorem State.releaseHalf_kept {s : State} (x : Half) (h : s.kept q n) : (s.releaseHalf x).kept q n := by
  unfold State.releaseHalf
  extract_lets r cause s1 s2 s3 sm code e0 s4 s5 s6 s7 s8 s9 s10 s11
  have h1 : s1.kept q n := State.putHrst_kept _ _ h
  have h2 : s2.kept q n := State.setf_kept _ _ _ h1
  have h3 : s3.kept q n := State.setf_kept _ _ _ h2
  have hm : sm.kept q n := State.setf_kept _ _ _ h3
  have h4 : s4.kept q n := State.putEp_kept _ _ hm
  have h5 : s5.kept q n := State.clearMem_kept h4 _ _
  have h6 : s6.kept q n := State.setf_kept _ _ _ h5
  have h7 : s7.kept q n := foldl_kept (fun s e h => State.startNeedle_kept _ h) _ h6
  have h8 : s8.kept q n := by
    unfold s8
    split
    · exact State.isolate_kept _ _ (State.enter_kept _ _ _ h7 (by intro h; cases h))
    · exact h7
  have h9 : s9.kept q n := by
    unfold s9
    split
    · exact State.padLeave_kept _ _ h8
    · exact h8
  have h10 : s10.kept q n := by
    unfold s10
    split
    · exact State.transportUp_kept _ h9
    · exact h9
  have h11 : s11.kept q n := by
    unfold s11
    split
    · exact State.transportUp_kept _ h10
    · exact h10
  exact State.wakeReleased_kept _ h11

theorem State.resetHookGroup_kept {s : State} (x : Half) (h : s.kept q n) : (s.resetHookGroup x).kept q n := by
  unfold State.resetHookGroup
  extract_lets s1 s2
  have h1 : s1.kept q n := foldl_kept (fun s e h => State.resetHook_kept _ h) _ h
  have h2 : s2.kept q n := State.resetPages_kept _ _ _ h1
  exact kept_mk h2

theorem State.kcpAssert_kept {s : State} (r : KReset) (hk : s.kept q n) :
    (State.kcpAssert s r).kept q n := by
  unfold State.kcpAssert
  with_reducible repeat' first | assumption | apply State.assertChip_kept | apply State.assertHalves_kept | apply State.resetCan_kept | apply State.resetDram_kept | apply State.resetHook_kept | apply State.resetHookGroup_kept | apply State.resetNeedle_kept | apply State.resetPlane_kept | apply foldl_kept | intro _ | split | refine fst_kept (by assumption) ?_ | refine snd_kept (by assumption) ?_ | refine opt_kept (by assumption) ?_ | refine kept_mk ?_

theorem State.kcpRelease_kept {s : State} (r : KReset) (hk : s.kept q n) :
    (State.kcpRelease s r).kept q n := by
  unfold State.kcpRelease
  with_reducible repeat' first | assumption | apply State.startNeedle_kept | apply State.tryRelease_kept | apply foldl_kept | intro _ | refine kept_ite ?_ ?_ | split | refine fst_kept (by assumption) ?_ | refine snd_kept (by assumption) ?_ | refine opt_kept (by assumption) ?_ | refine kept_mk ?_

theorem State.armRecast_kept {s : State} (x1 : Half) (cause : Nat) (hk : s.kept q n) :
    (State.armRecast s x1 cause).kept q n := by
  unfold State.armRecast
  with_reducible repeat' first | assumption | apply State.putHrst_kept | apply State.releaseLatches_kept | apply State.setf_kept | apply foldl_kept | intro _ | refine kept_ite ?_ ?_ | split | refine fst_kept (by assumption) ?_ | refine snd_kept (by assumption) ?_ | refine opt_kept (by assumption) ?_ | refine kept_mk ?_

theorem State.recast_kept {s : State} (x1 : Half) (cause : Nat) (hk : s.kept q n) :
    (State.recast s x1 cause).kept q n := by
  unfold State.recast
  with_reducible repeat' first | assumption | apply State.armRecast_kept | apply State.kcpAssert_kept | refine kept_mk ?_

end Sys2Proof.Machine
end

