-- ==== Sys2Proof/Laws/KeptReset.lean ====
section
/-! SUPPORT. What the definitions of Machine/Reset.lean keep: the queue, the time, the canonical form of memory and registers, and that at
most one half is in CHARGE. -/

set_option linter.unreachableTactic false
set_option linter.unusedTactic false
set_option linter.unusedVariables false

namespace Sys2Proof.Machine
open Sys2Proof

variable {q : List Instr} {n : Nat}

theorem State.setRail_kept {s : State} (i : Nat) (on : Bool) (hk : s.kept q n) :
    (State.setRail s i on).kept q n := by
  unfold State.setRail
  with_reducible repeat' first | assumption | apply State.setf_kept | refine kept_ite ?_ ?_ | refine kept_mk ?_

theorem State.railLoss_kept {s : State} (i : Nat) (hk : s.kept q n) :
    (State.railLoss s i).kept q n := by
  unfold State.railLoss
  with_reducible repeat' first | assumption | apply State.portLost_kept | apply State.putDram_kept | apply State.sdRestart_kept | apply State.tlStop_kept | apply foldl_kept | intro _ | refine kept_ite ?_ ?_ | refine kept_mk ?_

theorem State.railBack_kept {s : State} (i : Nat) (hk : s.kept q n) :
    (State.railBack s i).kept q n := by
  unfold State.railBack
  with_reducible repeat' first | assumption | apply State.tlStart_kept | apply foldl_kept | intro _ | refine kept_ite ?_ ?_ | refine kept_mk ?_

theorem execRailSupervisorTrip_kept (i : Fin 12) {s : State} (hk : s.kept q n) :
    outKept q n (execRailSupervisorTrip i s) := by
  unfold execRailSupervisorTrip
  with_reducible repeat' first | assumption | refine out_next ?_ | apply State.assertSource_kept | apply State.railLoss_kept | apply State.setRail_kept | apply State.wrn_kept | refine kept_ite ?_ ?_ | refine out_ite ?_ ?_ | split | refine fst_kept (by assumption) ?_ | refine snd_kept (by assumption) ?_ | refine opt_kept (by assumption) ?_ | refine kept_mk ?_

theorem execRailSupervisorRelease_kept (i : Fin 12) {s : State} (hk : s.kept q n) :
    outKept q n (execRailSupervisorRelease i s) := by
  unfold execRailSupervisorRelease
  with_reducible repeat' first | assumption | refine out_next ?_ | apply State.putHrst_kept | apply State.railBack_kept | apply State.releaseSource_kept | apply State.setRail_kept | apply State.tryRelease_kept | apply State.vaultWipe_kept | refine kept_ite ?_ ?_ | refine out_ite ?_ ?_ | split | refine fst_kept (by assumption) ?_ | refine snd_kept (by assumption) ?_ | refine opt_kept (by assumption) ?_ | refine kept_mk ?_

theorem execVddioClassSet_kept (bank : Fin 10) (mv : Nat) {s : State} (hk : s.kept q n) :
    outKept q n (execVddioClassSet bank mv s) := by
  unfold execVddioClassSet
  with_reducible repeat' first | assumption | refine out_next ?_ | refine kept_ite ?_ ?_ | refine out_ite ?_ ?_ | refine kept_mk ?_

theorem execResetPinAssert_kept (p : RstPin) {s : State} (hk : s.kept q n) :
    outKept q n (execResetPinAssert p s) := by
  unfold execResetPinAssert
  with_reducible repeat' first | assumption | refine out_next ?_ | apply State.assertSource_kept | split | refine fst_kept (by assumption) ?_ | refine snd_kept (by assumption) ?_ | refine opt_kept (by assumption) ?_ | refine kept_mk ?_

theorem execResetSourceAssert_kept (i : Fin 23) {s : State} (hk : s.kept q n) :
    outKept q n (execResetSourceAssert i s) := by
  unfold execResetSourceAssert
  with_reducible repeat' first | assumption | refine out_next ?_ | apply State.assertSource_kept | refine kept_ite ?_ ?_ | refine out_ite ?_ ?_ | refine kept_mk ?_

theorem execResetSourceRelease_kept (i : Fin 23) {s : State} (hk : s.kept q n) :
    outKept q n (execResetSourceRelease i s) := by
  unfold execResetSourceRelease
  with_reducible repeat' first | assumption | refine out_next ?_ | apply State.releaseSource_kept | refine kept_ite ?_ ?_ | refine out_ite ?_ ?_ | refine kept_mk ?_

theorem State.rstReleaseWrite_kept {s : State} (m : Nat) (v : Word) (hk : s.kept q n) :
    (State.rstReleaseWrite s m v).kept q n := by
  unfold State.rstReleaseWrite
  with_reducible repeat' first | assumption | apply State.busErr_kept | apply State.guardReg_kept | apply State.releaseLatches_kept | intro _ | refine kept_ite ?_ ?_ | refine kept_mk ?_

theorem execRstReleaseWrite_kept (m : Byte) (v : Word) {s : State} (hk : s.kept q n) :
    outKept q n (execRstReleaseWrite m v s) := by
  unfold execRstReleaseWrite
  with_reducible repeat' first | assumption | refine out_next ?_ | apply State.rstReleaseWrite_kept | refine kept_mk ?_

theorem execFuseLoadDone_kept {s : State} (hk : s.kept q n) :
    outKept q n (execFuseLoadDone s) := by
  unfold execFuseLoadDone
  with_reducible repeat' first | assumption | refine out_next ?_ | apply State.fault_kept | apply State.incBy_kept | apply State.setf_kept | apply State.startUp_kept | (fail_if_no_progress (extract_lets +onlyGivenNames x); first | (refine kept_bind (q := q) (n := n) (x := x) ?_ (fun _ => ?_); on_goal 2 => clear_value x; on_goal 1 => unfold x) | skip) | refine kept_ite ?_ ?_ | refine out_ite ?_ ?_ | split | refine fst_kept (by assumption) ?_ | refine snd_kept (by assumption) ?_ | refine opt_kept (by assumption) ?_ | refine kept_mk ?_

theorem execTrivetRomBootDone_kept (patched : Bool) {s : State} (hk : s.kept q n) :
    outKept q n (execTrivetRomBootDone patched s) := by
  unfold execTrivetRomBootDone
  with_reducible repeat' first | assumption | refine out_next ?_ | apply State.setb_kept | apply State.tryRelease_kept | apply State.vaultWipe_kept | refine kept_ite ?_ ?_ | refine out_ite ?_ ?_ | refine kept_mk ?_

theorem execHalfPllLock_kept (x0 : Half) {s : State} (hk : s.kept q n) :
    outKept q n (execHalfPllLock x0 s) := by
  unfold execHalfPllLock
  with_reducible repeat' first | assumption | refine out_next ?_ | apply State.releaseHalf_kept | refine kept_ite ?_ ?_ | refine out_ite ?_ ?_ | refine kept_mk ?_

theorem State.halfError_kept {s : State} (x1 : Half) (src : Nat) (hk : s.kept q n) :
    (State.halfError s x1 src).kept q n := by
  unfold State.halfError
  with_reducible repeat' first | assumption | apply State.assertSource_kept | apply State.mapEp_kept | intro _ | refine kept_mk ?_

theorem State.pllLoss_kept {s : State} (x1 : Half) (hk : s.kept q n) :
    (State.pllLoss s x1).kept q n := by
  unfold State.pllLoss
  with_reducible repeat' first | assumption | apply State.halfError_kept | apply State.setf_kept | split | refine fst_kept (by assumption) ?_ | refine snd_kept (by assumption) ?_ | refine opt_kept (by assumption) ?_ | refine kept_mk ?_

theorem execHalfPllLockLoss_kept (x0 : Half) {s : State} (hk : s.kept q n) :
    outKept q n (execHalfPllLockLoss x0 s) := by
  unfold execHalfPllLockLoss
  with_reducible repeat' first | assumption | refine out_next ?_ | apply State.pllLoss_kept | refine kept_ite ?_ ?_ | refine out_ite ?_ ?_ | refine kept_mk ?_

theorem execHalfRefFail_kept (x0 : Half) {s : State} (hk : s.kept q n) :
    outKept q n (execHalfRefFail x0 s) := by
  unfold execHalfRefFail
  with_reducible repeat' first | assumption | refine out_next ?_ | apply State.diagF3_kept | apply State.exits_kept | apply State.fault_kept | apply foldl_kept | intro _ | refine kept_ite ?_ ?_ | refine out_ite ?_ ?_ | refine kept_mk ?_

theorem execHalfPllHoldEnd_kept (x0 : Half) {s : State} (hk : s.kept q n) :
    outKept q n (execHalfPllHoldEnd x0 s) := by
  unfold execHalfPllHoldEnd
  with_reducible repeat' first | assumption | refine out_next ?_ | apply State.pllLoss_kept | intro _ | refine kept_ite ?_ ?_ | refine out_ite ?_ ?_ | refine kept_mk ?_

theorem execTrvOscCheck_kept (dk : BitVec 16) (dp : BitVec 16) {s : State} (hk : s.kept q n) :
    outKept q n (execTrvOscCheck dk dp s) := by
  unfold execTrvOscCheck
  with_reducible repeat' first | assumption | refine out_next ?_ | apply State.loseTrivet_kept | apply State.setf_kept | refine kept_ite ?_ ?_ | refine out_ite ?_ ?_ | split | refine fst_kept (by assumption) ?_ | refine snd_kept (by assumption) ?_ | refine opt_kept (by assumption) ?_ | refine kept_mk ?_

theorem State.readTemp_kept {s : State} (tj : Nat) (hk : s.kept q n) :
    (State.readTemp s tj).kept q n := by
  unfold State.readTemp
  with_reducible repeat' first | assumption | apply State.setf_kept | refine kept_ite ?_ ?_ | refine kept_mk ?_

theorem execOverTemperatureTrip_kept (tj : BitVec 16) (trip : Bool) {s : State} (hk : s.kept q n) :
    outKept q n (execOverTemperatureTrip tj trip s) := by
  unfold execOverTemperatureTrip
  with_reducible repeat' first | assumption | refine out_next ?_ | apply State.assertSource_kept | apply State.readTemp_kept | apply State.releaseSource_kept | refine kept_ite ?_ ?_ | refine out_ite ?_ ?_ | refine kept_mk ?_

theorem State.pwrTempWrite_kept {s : State} (m : Nat) (v : Word) (hk : s.kept q n) :
    (State.pwrTempWrite s m v).kept q n := by
  unfold State.pwrTempWrite
  with_reducible repeat' first | assumption | apply State.guardReg_kept | apply State.setf_kept | intro _ | refine kept_ite ?_ ?_ | refine kept_mk ?_

theorem execPwrTempPeakReset_kept (m : Byte) (v : Word) {s : State} (hk : s.kept q n) :
    outKept q n (execPwrTempPeakReset m v s) := by
  unfold execPwrTempPeakReset
  with_reducible repeat' first | assumption | refine out_next ?_ | apply State.pwrTempWrite_kept | refine kept_mk ?_

theorem execXtalGood_kept {s : State} (hk : s.kept q n) :
    outKept q n (execXtalGood s) := by
  unfold execXtalGood
  with_reducible repeat' first | assumption | refine out_next ?_ | apply State.setf_kept | refine kept_ite ?_ ?_ | refine out_ite ?_ ?_ | refine kept_mk ?_

theorem execLockstepError_kept (x0 : Half) {s : State} (hk : s.kept q n) :
    outKept q n (execLockstepError x0 s) := by
  unfold execLockstepError
  with_reducible repeat' first | assumption | refine out_next ?_ | apply State.halfError_kept | apply State.mapHart_kept | intro _ | refine kept_ite ?_ ?_ | refine out_ite ?_ ?_ | refine kept_mk ?_

theorem execHalfWatchdogExpiry_kept (x0 : Half) {s : State} (hk : s.kept q n) :
    outKept q n (execHalfWatchdogExpiry x0 s) := by
  unfold execHalfWatchdogExpiry
  with_reducible repeat' first | assumption | refine out_next ?_ | apply State.halfError_kept | refine kept_ite ?_ ?_ | refine out_ite ?_ ?_ | refine kept_mk ?_

theorem State.loadImage_kept {s : State} (x1 : Half) (img : List Byte) (hk : s.kept q n) :
    (State.loadImage s x1 img).kept q n := by
  unfold State.loadImage
  with_reducible repeat' first | assumption | apply State.dramPut_kept | apply State.ok_kept | split | refine fst_kept (by assumption) ?_ | refine snd_kept (by assumption) ?_ | refine opt_kept (by assumption) ?_ | refine kept_mk ?_

theorem State.bootRecipe_kept {s : State} (i : Nat) (img : List Byte) (hk : s.kept q n) :
    (State.bootRecipe s i img).kept q n := by
  unfold State.bootRecipe
  with_reducible repeat' first | assumption | apply State.clearMem_kept | apply State.mapEng_kept | apply State.setf_kept | intro _ | refine kept_ite ?_ ?_ | refine kept_mk ?_

theorem State.bootPmp_kept {s : State} (k : Nat) (hk : s.kept q n) :
    (State.bootPmp s k).kept q n := by
  unfold State.bootPmp
  with_reducible repeat' first | assumption | apply State.mapHart_kept | intro _ | refine kept_mk ?_

theorem State.bootSet_kept {s : State} (x1 : Half) (img : List Byte) (recipes : List (Fin 12 × List Byte)) (hk : s.kept q n) :
    (State.bootSet s x1 img recipes).kept q n := by
  unfold State.bootSet
  with_reducible repeat' first | assumption | apply State.bootPmp_kept | apply State.bootRecipe_kept | apply State.loadImage_kept | apply foldl_kept | intro _ | refine kept_ite ?_ ?_ | refine kept_mk ?_

theorem execImageLoadDone_kept (x0 : Half) (a : Bool) (b : Bool) (image : List Byte) (recipes : List (Fin 12 × List Byte)) {s : State} (hk : s.kept q n) :
    outKept q n (execImageLoadDone x0 a b image recipes s) := by
  unfold execImageLoadDone
  with_reducible repeat' first | assumption | refine out_next ?_ | apply State.bootSet_kept | apply State.inc_kept | apply State.setf_kept | refine kept_ite ?_ ?_ | refine out_ite ?_ ?_ | split | refine fst_kept (by assumption) ?_ | refine snd_kept (by assumption) ?_ | refine opt_kept (by assumption) ?_ | refine kept_mk ?_

theorem State.mode6412Write_kept {s : State} (m : Nat) (v : Word) (hk : s.kept q n) :
    (State.mode6412Write s m v).kept q n := by
  unfold State.mode6412Write
  with_reducible repeat' first | assumption | apply State.enter6412_kept | apply State.guardReg_kept | apply State.plainWrite_kept | apply State.transportDown_kept | intro _ | refine kept_ite ?_ ?_ | refine kept_mk ?_

theorem execMode6412Write_kept (m : Byte) (v : Word) {s : State} (hk : s.kept q n) :
    outKept q n (execMode6412Write m v s) := by
  unfold execMode6412Write
  with_reducible repeat' first | assumption | refine out_next ?_ | apply State.mode6412Write_kept | refine kept_mk ?_

theorem execTamperEvent_kept (cause : Fin 3) {s : State} (hk : s.kept q n) :
    outKept q n (execTamperEvent cause s) := by
  unfold execTamperEvent
  with_reducible repeat' first | assumption | refine out_next ?_ | apply State.assertSource_kept | apply State.fault_kept | apply State.inc_kept | apply State.releaseSource_kept | apply State.setf_kept | apply State.vaultWipe_kept | intro _ | refine kept_ite ?_ ?_ | refine out_ite ?_ ?_ | refine kept_mk ?_

theorem execFuseProgramDone_kept {s : State} (hk : s.kept q n) :
    outKept q n (execFuseProgramDone s) := by
  unfold execFuseProgramDone
  with_reducible repeat' first | assumption | refine out_next ?_ | apply State.dropSafety_kept | apply State.kcpAssert_kept | apply State.vaultWipe_kept | apply foldl_kept | intro _ | refine kept_ite ?_ ?_ | refine out_ite ?_ ?_ | split | refine fst_kept (by assumption) ?_ | refine snd_kept (by assumption) ?_ | refine opt_kept (by assumption) ?_ | refine kept_mk ?_

theorem execKcpResetRelease_kept (level : Byte) (target : Byte) (index : Byte) {s : State} (hk : s.kept q n) :
    outKept q n (execKcpResetRelease level target index s) := by
  unfold execKcpResetRelease
  with_reducible repeat' first | assumption | refine out_next ?_ | apply State.kcpRelease_kept | refine kept_mk ?_

theorem execSysFltRseqWrite_kept (m : Byte) (v : Word) {s : State} (hk : s.kept q n) :
    outKept q n (execSysFltRseqWrite m v s) := by
  unfold execSysFltRseqWrite
  with_reducible repeat' first | assumption | refine out_next ?_ | apply State.guardReg_kept | apply State.plainWrite_kept | intro _ | refine kept_mk ?_

theorem execTransportUp_kept (x0 : Fin 6) (width : Fin 16) (speed : Fin 4) {s : State} (hk : s.kept q n) :
    outKept q n (execTransportUp x0 width speed s) := by
  unfold execTransportUp
  with_reducible repeat' first | assumption | refine out_next ?_ | apply State.padLeave_kept | apply State.setf_kept | apply State.transportUp_kept | refine kept_ite ?_ ?_ | refine out_ite ?_ ?_ | split | refine fst_kept (by assumption) ?_ | refine snd_kept (by assumption) ?_ | refine opt_kept (by assumption) ?_ | refine kept_mk ?_

theorem State.resetPcie_kept {s : State} (x1 : Half) (hk : s.kept q n) :
    (State.resetPcie s x1).kept q n := by
  unfold State.resetPcie
  with_reducible repeat' first | assumption | apply State.resetRegs_kept | intro _ | refine kept_ite ?_ ?_ | refine kept_mk ?_

theorem execTransportDown_kept (x0 : Fin 6) (how : PciDown) {s : State} (hk : s.kept q n) :
    outKept q n (execTransportDown x0 how s) := by
  unfold execTransportDown
  with_reducible repeat' first | assumption | refine out_next ?_ | apply State.resetPcie_kept | apply State.setf_kept | apply State.transportDown_kept | apply State.wr_kept | refine kept_ite ?_ ?_ | refine out_ite ?_ ?_ | split | refine fst_kept (by assumption) ?_ | refine snd_kept (by assumption) ?_ | refine opt_kept (by assumption) ?_ | refine kept_mk ?_

end Sys2Proof.Machine
end

