-- ==== Sys2Proof/Laws/KeptWake.lean ====
section
/-! SUPPORT. What the definitions of Machine/Wake.lean keep: the queue, the time, the canonical form of memory and registers, and that at
most one half is in CHARGE. -/

set_option linter.unreachableTactic false
set_option linter.unusedTactic false
set_option linter.unusedVariables false

namespace Sys2Proof.Machine
open Sys2Proof

variable {q : List Instr} {n : Nat}

theorem State.insPut_kept {s : State} (x1 : Nat) (e : Episode) (k : Nat) (isOpen : Bool) (hk : s.kept q n) :
    (State.insPut s x1 e k isOpen).kept q n := by
  unfold State.insPut
  with_reducible repeat' first | assumption | apply State.wrWords_kept | refine kept_mk ?_

theorem State.insCopy_kept {s : State} (x1 : Nat) (e : Episode) (k : Nat) (isOpen : Bool) (hk : s.kept q n) :
    (State.insCopy s x1 e k isOpen).kept q n := by
  unfold State.insCopy
  with_reducible repeat' first | assumption | apply State.larderEvent_kept | refine kept_mk ?_

theorem State.endEpisode_kept {s : State} (x1 : Nat) (hk : s.kept q n) :
    (State.endEpisode s x1).kept q n := by
  unfold State.endEpisode
  with_reducible repeat' first | assumption | apply State.insCopy_kept | apply State.insPut_kept | apply State.putSeg_kept | apply State.setf_kept | split | refine fst_kept (by assumption) ?_ | refine snd_kept (by assumption) ?_ | refine opt_kept (by assumption) ?_ | refine kept_mk ?_

theorem execInsomniaEntryWrite_kept (x0 : Fin 8) {s : State} (hk : s.kept q n) :
    outKept q n (execInsomniaEntryWrite x0 s) := by
  unfold execInsomniaEntryWrite
  with_reducible repeat' first | assumption | refine out_next ?_ | apply State.insCopy_kept | apply State.insPut_kept | apply State.putSeg_kept | apply State.setf_kept | (fail_if_no_progress (extract_lets +onlyGivenNames x); first | (refine kept_bind (q := q) (n := n) (x := x) ?_ (fun _ => ?_); on_goal 2 => clear_value x; on_goal 1 => unfold x) | skip) | refine kept_ite ?_ ?_ | refine out_ite ?_ ?_ | split | refine fst_kept (by assumption) ?_ | refine snd_kept (by assumption) ?_ | refine opt_kept (by assumption) ?_ | refine kept_mk ?_

theorem execInsomniaUpdate_kept (x0 : Fin 8) {s : State} (hk : s.kept q n) :
    outKept q n (execInsomniaUpdate x0 s) := by
  unfold execInsomniaUpdate
  with_reducible repeat' first | assumption | refine out_next ?_ | apply State.insPut_kept | refine kept_ite ?_ ?_ | refine out_ite ?_ ?_ | split | refine fst_kept (by assumption) ?_ | refine snd_kept (by assumption) ?_ | refine opt_kept (by assumption) ?_ | refine kept_mk ?_

theorem State.insClear_kept {s : State} (x1 : Nat) (hk : s.kept q n) :
    (State.insClear s x1).kept q n := by
  unfold State.insClear
  with_reducible repeat' first | assumption | apply State.mapSeg_kept | apply State.resetRegs_kept | apply State.setf_kept | intro _ | refine kept_mk ?_

theorem State.insClrWrite_kept {s : State} (m : Nat) (v : Word) (hk : s.kept q n) :
    (State.insClrWrite s m v).kept q n := by
  unfold State.insClrWrite
  with_reducible repeat' first | assumption | apply State.guardReg_kept | apply State.insClear_kept | apply foldl_kept | intro _ | refine kept_ite ?_ ?_ | refine kept_mk ?_

theorem execWakeInsClrWrite_kept (m : Byte) (v : Word) {s : State} (hk : s.kept q n) :
    outKept q n (execWakeInsClrWrite m v s) := by
  unfold execWakeInsClrWrite
  with_reducible repeat' first | assumption | refine out_next ?_ | apply State.insClrWrite_kept | refine kept_mk ?_

theorem State.segFresh_kept {s : State} (x1 : Nat) (x2 : Nat) (hk : s.kept q n) :
    (State.segFresh s x1 x2).kept q n := by
  unfold State.segFresh
  with_reducible repeat' first | assumption | apply State.endEpisode_kept | apply State.segRestart_kept | refine kept_mk ?_

theorem State.eachMember_kept {s : State} (x1 : Nat) (f : State → Nat → State) (hk : s.kept q n) (hf : ∀ (t : State) (b0 : Nat), t.kept q n → (f t b0).kept q n) :
    (State.eachMember s x1 f).kept q n := by
  unfold State.eachMember
  with_reducible repeat' first | assumption | apply hf | apply foldl_kept | intro _ | refine kept_ite ?_ ?_ | refine kept_mk ?_

theorem State.segBindOff_kept {s : State} (x1 : Nat) (hk : s.kept q n) :
    (State.segBindOff s x1).kept q n := by
  unfold State.segBindOff
  with_reducible repeat' first | assumption | apply State.eachMember_kept | apply State.endEpisode_kept | apply State.mapSeg_kept | apply State.setSeg_kept | apply State.txMark_kept | intro _ | refine kept_ite ?_ ?_ | refine kept_mk ?_

theorem State.segLatch_kept {s : State} (x1 : Nat) (hk : s.kept q n) :
    (State.segLatch s x1).kept q n := by
  unfold State.segLatch
  with_reducible repeat' first | assumption | apply State.mapSeg_kept | apply State.setf_kept | intro _ | refine kept_mk ?_

theorem State.segRequest_kept {s : State} (x1 : Nat) (x2 : Nat) (r : WakeReq) (hk : s.kept q n) :
    (State.segRequest s x1 x2 r).kept q n := by
  unfold State.segRequest
  with_reducible repeat' first | assumption | apply State.inc_kept | apply State.segBindOff_kept | apply State.segFresh_kept | apply State.segLatch_kept | apply State.setSeg_kept | apply State.wakeEvent_kept | refine kept_ite ?_ ?_ | refine kept_mk ?_

theorem State.segKeepAlive_kept {s : State} (x1 : Nat) (x2 : Nat) (addr : Nat) (src : Nat) (can : Bool) (hk : s.kept q n) :
    (State.segKeepAlive s x1 x2 addr src can).kept q n := by
  unfold State.segKeepAlive
  with_reducible repeat' first | assumption | apply State.endEpisode_kept | apply State.inc_kept | apply State.mapSeg_kept | apply State.putSeg_kept | apply State.segRequest_kept | apply State.segRestart_kept | apply State.setSeg_kept | intro _ | refine kept_ite ?_ ?_ | split | refine fst_kept (by assumption) ?_ | refine snd_kept (by assumption) ?_ | refine opt_kept (by assumption) ?_ | refine kept_mk ?_

theorem execSegBindOffStart_kept (x0 : Fin 8) {s : State} (hk : s.kept q n) :
    outKept q n (execSegBindOffStart x0 s) := by
  unfold execSegBindOffStart
  with_reducible repeat' first | assumption | refine out_next ?_ | apply State.segBindOff_kept | refine kept_ite ?_ ?_ | refine out_ite ?_ ?_ | refine kept_mk ?_

theorem State.memberDown_kept {s : State} (bit : Nat) (hk : s.kept q n) :
    (State.memberDown s bit).kept q n := by
  unfold State.memberDown
  with_reducible repeat' first | assumption | apply State.cxBus_kept | apply State.cxStatus_kept | apply State.dttOff_kept | apply State.mapCan_kept | apply State.setf_kept | apply State.tlStop_kept | intro _ | refine kept_ite ?_ ?_ | refine kept_mk ?_

theorem State.memberUp_kept {s : State} (bit : Nat) (hk : s.kept q n) :
    (State.memberUp s bit).kept q n := by
  unfold State.memberUp
  with_reducible repeat' first | assumption | apply State.cxBus_kept | apply State.cxStatus_kept | apply State.dttListen_kept | apply State.mapCan_kept | apply State.tlStart_kept | intro _ | refine kept_ite ?_ ?_ | refine kept_mk ?_

theorem execSegAsleep_kept (x0 : Fin 8) {s : State} (hk : s.kept q n) :
    outKept q n (execSegAsleep x0 s) := by
  unfold execSegAsleep
  with_reducible repeat' first | assumption | refine out_next ?_ | apply State.eachMember_kept | apply State.inc_kept | apply State.mapSeg_kept | apply State.memberDown_kept | apply State.netEvent_kept | apply State.setSeg_kept | intro _ | refine kept_ite ?_ ?_ | refine out_ite ?_ ?_ | refine kept_mk ?_

theorem State.cxPulse_kept {s : State} (bit : Nat) (hk : s.kept q n) :
    (State.cxPulse s bit).kept q n := by
  unfold State.cxPulse
  with_reducible repeat' first | assumption | refine kept_ite ?_ ?_ | refine kept_mk ?_

theorem execSegAwake_kept (x0 : Fin 8) {s : State} (hk : s.kept q n) :
    outKept q n (execSegAwake x0 s) := by
  unfold execSegAwake
  with_reducible repeat' first | assumption | refine out_next ?_ | apply State.cxPulse_kept | apply State.eachMember_kept | apply State.memberUp_kept | apply State.segRestart_kept | apply State.setSeg_kept | refine kept_ite ?_ ?_ | refine out_ite ?_ ?_ | refine kept_mk ?_

theorem execCxWakePulseEnd_kept (c : Fin 8) {s : State} (hk : s.kept q n) :
    outKept q n (execCxWakePulseEnd c s) := by
  unfold execCxWakePulseEnd
  with_reducible repeat' first | assumption | refine out_next ?_ | refine kept_ite ?_ ?_ | refine out_ite ?_ ?_ | split | refine fst_kept (by assumption) ?_ | refine snd_kept (by assumption) ?_ | refine opt_kept (by assumption) ?_ | refine kept_mk ?_

theorem execKeepaliveReceive_kept (p : Fin 8) (bytes : List Byte) (x2 : Dword) {s : State} (hk : s.kept q n) :
    outKept q n (execKeepaliveReceive p bytes x2 s) := by
  unfold execKeepaliveReceive
  with_reducible repeat' first | assumption | refine out_next ?_ | apply State.segKeepAlive_kept | refine kept_ite ?_ ?_ | refine out_ite ?_ ?_ | split | refine fst_kept (by assumption) ?_ | refine snd_kept (by assumption) ?_ | refine opt_kept (by assumption) ?_ | refine kept_mk ?_

theorem execCanKeepalive_kept (c : Fin 8) (ident : BitVec 29) (ide : Bool) (x3 : Dword) {s : State} (hk : s.kept q n) :
    outKept q n (execCanKeepalive c ident ide x3 s) := by
  unfold execCanKeepalive
  with_reducible repeat' first | assumption | refine out_next ?_ | apply State.segKeepAlive_kept | refine kept_ite ?_ ?_ | refine out_ite ?_ ?_ | split | refine fst_kept (by assumption) ?_ | refine snd_kept (by assumption) ?_ | refine opt_kept (by assumption) ?_ | refine kept_mk ?_

theorem execWakeFrameReceive_kept (p : Fin 8) (bytes : List Byte) (x2 : Dword) {s : State} (hk : s.kept q n) :
    outKept q n (execWakeFrameReceive p bytes x2 s) := by
  unfold execWakeFrameReceive
  with_reducible repeat' first | assumption | refine out_next ?_ | apply State.inc_kept | apply State.segRequest_kept | apply foldl_kept | intro _ | refine kept_ite ?_ ?_ | refine out_ite ?_ ?_ | split | refine fst_kept (by assumption) ?_ | refine snd_kept (by assumption) ?_ | refine opt_kept (by assumption) ?_ | refine kept_mk ?_

theorem execKeepaliveSend_kept (x0 : Fin 8) {s : State} (hk : s.kept q n) :
    outKept q n (execKeepaliveSend x0 s) := by
  unfold execKeepaliveSend
  with_reducible repeat' first | assumption | refine out_next ?_ | apply State.eachMember_kept | apply State.macSend_kept | apply State.mapSeg_kept | intro _ | refine kept_ite ?_ ?_ | refine out_ite ?_ ?_ | refine kept_mk ?_

theorem State.segFollow_kept {s : State} (x1 : Nat) (t0 : Nat) (hold : Bool) (on : Bool) (hk : s.kept q n) :
    (State.segFollow s x1 t0 hold on).kept q n := by
  unfold State.segFollow
  with_reducible repeat' first | assumption | apply State.eachMember_kept | apply State.endEpisode_kept | apply State.mapSeg_kept | apply State.memberUp_kept | apply State.segFresh_kept | apply State.segRequest_kept | apply State.segRestart_kept | apply State.setSeg_kept | apply State.wr64_kept | intro _ | refine kept_ite ?_ ?_ | refine kept_mk ?_

theorem State.segCtrlWrite_kept {s : State} (m : Nat) (x2 : Nat) (v : Word) (hk : s.kept q n) :
    (State.segCtrlWrite s m x2 v).kept q n := by
  unfold State.segCtrlWrite
  with_reducible repeat' first | assumption | apply State.guardReg_kept | apply State.plainWrite_kept | apply State.segFollow_kept | apply State.setf_kept | intro _ | refine kept_ite ?_ ?_ | refine kept_mk ?_

theorem execSegHoldWrite_kept (m : Byte) (x1 : Fin 8) (v : Word) {s : State} (hk : s.kept q n) :
    outKept q n (execSegHoldWrite m x1 v s) := by
  unfold execSegHoldWrite
  with_reducible repeat' first | assumption | refine out_next ?_ | apply State.segCtrlWrite_kept | refine kept_mk ?_

theorem State.segMembWrite_kept {s : State} (m : Nat) (x2 : Nat) (v : Word) (hk : s.kept q n) :
    (State.segMembWrite s m x2 v).kept q n := by
  unfold State.segMembWrite
  with_reducible repeat' first | assumption | apply State.guardReg_kept | apply State.plainWrite_kept | apply State.setf_kept | intro _ | refine kept_ite ?_ ?_ | refine kept_mk ?_

theorem execSegMembWrite_kept (m : Byte) (x1 : Fin 8) (v : Word) {s : State} (hk : s.kept q n) :
    outKept q n (execSegMembWrite m x1 v s) := by
  unfold execSegMembWrite
  with_reducible repeat' first | assumption | refine out_next ?_ | apply State.segMembWrite_kept | refine kept_mk ?_

theorem execCanInhWake_kept (c : Fin 8) (level : Bool) (x2 : Dword) {s : State} (hk : s.kept q n) :
    outKept q n (execCanInhWake c level x2 s) := by
  unfold execCanInhWake
  with_reducible repeat' first | assumption | refine out_next ?_ | apply State.segRequest_kept | apply State.setb_kept | refine kept_ite ?_ ?_ | refine out_ite ?_ ?_ | split | refine fst_kept (by assumption) ?_ | refine snd_kept (by assumption) ?_ | refine opt_kept (by assumption) ?_ | refine kept_mk ?_

theorem execUserPathWake_kept (i : Fin 13) (c : Fin 64) (x2 : Dword) {s : State} (hk : s.kept q n) :
    outKept q n (execUserPathWake i c x2 s) := by
  unfold execUserPathWake
  with_reducible repeat' first | assumption | refine out_next ?_ | apply State.segRequest_kept | apply State.wakeEvent_kept | apply foldl_kept | intro _ | refine kept_ite ?_ ?_ | refine out_ite ?_ ?_ | split | refine fst_kept (by assumption) ?_ | refine snd_kept (by assumption) ?_ | refine opt_kept (by assumption) ?_ | refine kept_mk ?_

theorem execWakeValidTimeout_kept (i : Fin 13) (c : Fin 64) {s : State} (hk : s.kept q n) :
    outKept q n (execWakeValidTimeout i c s) := by
  unfold execWakeValidTimeout
  with_reducible repeat' first | assumption | refine out_next ?_ | apply State.fault_kept | apply State.incSat_kept | apply State.netEvent_kept | apply State.setf_kept | (fail_if_no_progress (extract_lets +onlyGivenNames x); first | (refine kept_bind (q := q) (n := n) (x := x) ?_ (fun _ => ?_); on_goal 2 => clear_value x; on_goal 1 => unfold x) | skip) | refine kept_ite ?_ ?_ | refine out_ite ?_ ?_ | split | refine fst_kept (by assumption) ?_ | refine snd_kept (by assumption) ?_ | refine opt_kept (by assumption) ?_ | refine kept_mk ?_

theorem State.falseClrWrite_kept {s : State} (m : Nat) (v : Word) (hk : s.kept q n) :
    (State.falseClrWrite s m v).kept q n := by
  unfold State.falseClrWrite
  with_reducible repeat' first | assumption | apply State.guardReg_kept | apply State.wr_kept | apply foldl_kept | intro _ | refine kept_ite ?_ ?_ | refine kept_mk ?_

theorem execWakeFalseClrWrite_kept (m : Byte) (v : Word) {s : State} (hk : s.kept q n) :
    outKept q n (execWakeFalseClrWrite m v s) := by
  unfold execWakeFalseClrWrite
  with_reducible repeat' first | assumption | refine out_next ?_ | apply State.falseClrWrite_kept | refine kept_mk ?_

theorem State.pwren_kept {s : State} (b : Nat) (on : Bool) (hk : s.kept q n) :
    (State.pwren s b on).kept q n := by
  unfold State.pwren
  with_reducible repeat' first | assumption | apply State.setf_kept | refine kept_ite ?_ ?_ | refine kept_mk ?_

theorem State.railsDown_kept {s : State} (x1 : Half) (keep : Bool) (hk : s.kept q n) :
    (State.railsDown s x1 keep).kept q n := by
  unfold State.railsDown
  with_reducible repeat' first | assumption | apply State.setRail_kept | refine kept_ite ?_ ?_ | refine kept_mk ?_

theorem State.powerOff_kept {s : State} (x1 : Half) (keep : Bool) (hk : s.kept q n) :
    (State.powerOff s x1 keep).kept q n := by
  unfold State.powerOff
  with_reducible repeat' first | assumption | apply State.holdHalf_kept | apply State.isolate_kept | apply State.putHrst_kept | apply State.pwren_kept | apply State.railsDown_kept | refine kept_mk ?_

theorem State.powerOn_kept {s : State} (x1 : Half) (hk : s.kept q n) :
    (State.powerOn s x1).kept q n := by
  unfold State.powerOn
  with_reducible repeat' first | assumption | apply State.putHrst_kept | apply State.pwren_kept | refine kept_mk ?_

theorem State.setPstate_kept {s : State} (v : Nat) (hk : s.kept q n) :
    (State.setPstate s v).kept q n := by
  unfold State.setPstate
  with_reducible repeat' first | assumption | apply State.setf_kept | refine kept_mk ?_

theorem State.reqRej_kept {s : State} (hk : s.kept q n) :
    (State.reqRej s).kept q n := by
  unfold State.reqRej
  with_reducible repeat' first | assumption | apply State.setf_kept | refine kept_mk ?_

theorem State.poweredState_kept {s : State} (hk : s.kept q n) :
    (State.poweredState s).kept q n := by
  unfold State.poweredState
  with_reducible repeat' first | assumption | apply State.setPstate_kept | apply State.setf_kept | split | refine fst_kept (by assumption) ?_ | refine snd_kept (by assumption) ?_ | refine opt_kept (by assumption) ?_ | refine kept_mk ?_

theorem State.sleepDown_kept {s : State} (h : s.kept q n) : s.sleepDown.kept q n := by
  unfold State.sleepDown
  extract_lets s1 retain keepK keepP s2 off r s3 s4 s5 s6
  have h1 : s1.kept q n := foldl_kept (fun s e h => State.endEpisode_kept _ h) _ h
  have h2 : s2.kept q n := State.resetChip_kept _ _ _ h1
  have h3 : s3.kept q n := kept_mk h2
  have h4 : s4.kept q n := State.setRail_kept _ _ (State.railsDown_kept _ _ (State.railsDown_kept _ _ h3))
  have h5 : s5.kept q n := State.setf_kept _ _ _ h4
  have h6 : s6.kept q n := by
    unfold s6
    split
    · exact h5
    · exact State.setf_kept _ _ _ (State.setf_kept _ _ _ h5)
  exact State.setPstate_kept _ h6

theorem State.enterPower_kept {s : State} (dest : Nat) (hk : s.kept q n) :
    (State.enterPower s dest).kept q n := by
  unfold State.enterPower
  with_reducible repeat' first | assumption | apply State.exits_kept | apply State.powerOff_kept | apply State.setPstate_kept | apply State.setf_kept | apply State.sleepDown_kept | apply foldl_kept | intro _ | refine kept_ite ?_ ?_ | split | refine fst_kept (by assumption) ?_ | refine snd_kept (by assumption) ?_ | refine opt_kept (by assumption) ?_ | refine kept_mk ?_

theorem State.soloOff_kept {s : State} (x1 : Half) (hk : s.kept q n) :
    (State.soloOff s x1).kept q n := by
  unfold State.soloOff
  with_reducible repeat' first | assumption | apply State.powerOff_kept | apply State.poweredState_kept | refine kept_mk ?_

theorem State.beginWake_kept {s : State} (hs : List Half) (evs : List WakeReq) (hk : s.kept q n) :
    (State.beginWake s hs evs).kept q n := by
  unfold State.beginWake
  with_reducible repeat' first | assumption | apply State.powerOn_kept | apply State.poweredState_kept | apply State.setf_kept | apply foldl_kept | intro _ | refine kept_mk ?_

theorem State.powerRequest_kept {s : State} (req : Nat) (x2 : Half) (hk : s.kept q n) :
    (State.powerRequest s req x2).kept q n := by
  unfold State.powerRequest
  with_reducible repeat' first | assumption | apply State.beginWake_kept | apply State.enterPower_kept | apply State.reqRej_kept | apply State.sleepDown_kept | apply State.soloOff_kept | refine kept_ite ?_ ?_ | refine kept_mk ?_

theorem State.pctrlWrite_kept {s : State} (m : Nat) (v : Word) (hk : s.kept q n) :
    (State.pctrlWrite s m v).kept q n := by
  unfold State.pctrlWrite
  with_reducible repeat' first | assumption | apply State.guardReg_kept | apply State.plainWrite_kept | apply State.powerRequest_kept | intro _ | refine kept_ite ?_ ?_ | refine kept_mk ?_

theorem execPowerRequest_kept (m : Byte) (v : Word) {s : State} (hk : s.kept q n) :
    outKept q n (execPowerRequest m v s) := by
  unfold execPowerRequest
  with_reducible repeat' first | assumption | refine out_next ?_ | apply State.pctrlWrite_kept | refine kept_mk ?_

theorem execAutoSleepEntry_kept {s : State} (hk : s.kept q n) :
    outKept q n (execAutoSleepEntry s) := by
  unfold execAutoSleepEntry
  with_reducible repeat' first | assumption | refine out_next ?_ | apply State.enterPower_kept | apply State.sleepDown_kept | intro _ | refine kept_ite ?_ ?_ | refine out_ite ?_ ?_ | split | refine fst_kept (by assumption) ?_ | refine snd_kept (by assumption) ?_ | refine opt_kept (by assumption) ?_ | refine kept_mk ?_

theorem State.wakeRecast_kept {s : State} (x1 : Half) (hk : s.kept q n) :
    (State.wakeRecast s x1).kept q n := by
  unfold State.wakeRecast
  with_reducible repeat' first | assumption | apply State.armRecast_kept | apply State.toService_kept | refine kept_ite ?_ ?_ | refine kept_mk ?_

theorem State.wakeChip_kept {s : State} (hk : s.kept q n) :
    (State.wakeChip s).kept q n := by
  unfold State.wakeChip
  with_reducible repeat' first | assumption | apply State.pwren_kept | apply State.segRestart_kept | apply State.setf_kept | apply foldl_kept | intro _ | refine kept_ite ?_ ?_ | refine kept_mk ?_

theorem execDeviceWake_kept {s : State} (hk : s.kept q n) :
    outKept q n (execDeviceWake s) := by
  unfold execDeviceWake
  dsimp only
  with_reducible repeat' first | assumption | refine out_next ?_ | apply State.beginWake_kept | apply State.setf_kept | apply State.wakeChip_kept | apply State.wakeRecast_kept | apply foldl_kept | intro _ | refine kept_ite ?_ ?_ | refine out_ite ?_ ?_ | split | refine fst_kept (by assumption) ?_ | refine snd_kept (by assumption) ?_ | refine opt_kept (by assumption) ?_ | refine kept_mk ?_

theorem execNodataTimeout_kept (x0 : Fin 8) {s : State} (hk : s.kept q n) :
    outKept q n (execNodataTimeout x0 s) := by
  unfold execNodataTimeout
  with_reducible repeat' first | assumption | refine out_next ?_ | apply State.enterPower_kept | apply State.inc_kept | apply State.mapSeg_kept | apply State.soloOff_kept | intro _ | refine kept_ite ?_ ?_ | refine out_ite ?_ ?_ | split | refine fst_kept (by assumption) ?_ | refine snd_kept (by assumption) ?_ | refine opt_kept (by assumption) ?_ | refine kept_mk ?_

end Sys2Proof.Machine
end

