-- ==== Sys2Proof/Laws/KeptKcpEngine.lean ====
section
/-! SUPPORT. What the definitions of Machine/KcpEngine.lean keep: the queue, the time, the canonical form of memory and registers, and that at
most one half is in CHARGE. -/

set_option linter.unreachableTactic false
set_option linter.unusedTactic false
set_option linter.unusedVariables false

namespace Sys2Proof.Machine
open Sys2Proof

variable {q : List Instr} {n : Nat}

theorem State.kcpCount_kept {s : State} (x1 : Nat) (x2 : Nat) (reg : Nat → Nat) (hk : s.kept q n) :
    (State.kcpCount s x1 x2 reg).kept q n := by
  unfold State.kcpCount
  with_reducible repeat' first | assumption | apply State.incBy_kept | refine kept_mk ?_

theorem State.receive_kept {s : State} (a : Arrived) (hk : s.kept q n) :
    (State.receive s a).kept q n := by
  unfold State.receive
  with_reducible repeat' first | assumption | apply State.handReply_kept | apply State.kcpCount_kept | apply State.putSession_kept | split | refine fst_kept (by assumption) ?_ | refine snd_kept (by assumption) ?_ | refine opt_kept (by assumption) ?_ | refine kept_mk ?_

theorem State.streamArrive_kept {s : State} (x1 : Nat) (hk : s.kept q n) :
    (State.streamArrive s x1).kept q n := by
  unfold State.streamArrive
  with_reducible repeat' first | assumption | apply State.kcpCount_kept | apply State.putStream_kept | apply State.receive_kept | intro _ | refine kept_ite ?_ ?_ | refine kept_mk ?_

theorem execKcpPacketArrival_kept (x0 : Fin 6) (slot : Fin 32) (bytes : List Byte) {s : State} (hk : s.kept q n) :
    outKept q n (execKcpPacketArrival x0 slot bytes s) := by
  unfold execKcpPacketArrival
  with_reducible repeat' first | assumption | refine out_next ?_ | apply State.receive_kept | apply State.streamArrive_kept | refine kept_ite ?_ ?_ | refine out_ite ?_ ?_ | refine kept_mk ?_

theorem State.datagram_kept {s : State} (o : UdpFrom) (p : List Byte) (hk : s.kept q n) :
    (State.datagram s o p).kept q n := by
  unfold State.datagram
  with_reducible repeat' first | assumption | apply State.kcpCount_kept | apply State.putSession_kept | apply State.receive_kept | refine kept_ite ?_ ?_ | split | refine fst_kept (by assumption) ?_ | refine snd_kept (by assumption) ?_ | refine opt_kept (by assumption) ?_ | refine kept_mk ?_

theorem State.takeSp10_kept {s t : State} (x : Half) (f : List Byte → Bool) (p : PCopy) (bs : List Byte) (h : s.kept q n)
    (ht : s.takeSp10 x f = some (p, bs, t)) : t.kept q n := by
  unfold State.takeSp10 at ht
  dsimp only at ht
  split at ht
  · cases ht
  · cases ht
    exact State.txCount_kept _ _ _ (State.putPlane_kept _ _ h)

theorem execKcpDatagramReceive_kept {s : State} (x : Half) (h : s.kept q n) :
    outKept q n (execKcpDatagramReceive x s) := by
  unfold execKcpDatagramReceive
  split
  · exact out_next h
  · split
    · exact out_next h
    · next p bs t ht =>
      have h1 := State.takeSp10_kept _ _ _ _ h ht
      split
      · exact out_next h1
      · exact out_next (State.datagram_kept _ _ h1)

theorem execKcpArpReply_kept {s : State} (x : Half) (h : s.kept q n) : outKept q n (execKcpArpReply x s) := by
  unfold execKcpArpReply
  split
  · exact out_next h
  · split
    · exact out_next h
    · next p bs t ht => exact out_next (State.kcpFrame_kept _ _ _ (State.takeSp10_kept _ _ _ _ h ht))

theorem execKcpCommandStart_kept (x0 : Fin 6) (tag : BitVec 16) {s : State} (hk : s.kept q n) :
    outKept q n (execKcpCommandStart x0 tag s) := by
  unfold execKcpCommandStart
  with_reducible repeat' first | assumption | refine out_next ?_ | apply State.putKcmd_kept | apply State.say_kept | refine kept_ite ?_ ?_ | refine out_ite ?_ ?_ | split | refine fst_kept (by assumption) ?_ | refine snd_kept (by assumption) ?_ | refine opt_kept (by assumption) ?_ | refine kept_mk ?_

theorem State.dropLoads_kept {s : State} (c : KCmd) (hk : s.kept q n) :
    (State.dropLoads s c).kept q n := by
  unfold State.dropLoads
  with_reducible repeat' first | assumption | apply State.mapEng_kept | apply foldl_kept | intro _ | refine kept_ite ?_ ?_ | refine kept_mk ?_

theorem execKcpCommandTimeout_kept (x0 : Fin 6) (tag : BitVec 16) {s : State} (hk : s.kept q n) :
    outKept q n (execKcpCommandTimeout x0 tag s) := by
  unfold execKcpCommandTimeout
  with_reducible repeat' first | assumption | refine out_next ?_ | apply State.dropLoads_kept | apply State.kcpCount_kept | apply State.say_kept | refine kept_ite ?_ ?_ | refine out_ite ?_ ?_ | split | refine fst_kept (by assumption) ?_ | refine snd_kept (by assumption) ?_ | refine opt_kept (by assumption) ?_ | refine kept_mk ?_

theorem execSessionIdleTimeout_kept (x0 : Fin 6) (x1 : Fin 9) {s : State} (hk : s.kept q n) :
    outKept q n (execSessionIdleTimeout x0 x1 s) := by
  unfold execSessionIdleTimeout
  with_reducible repeat' first | assumption | refine out_next ?_ | apply State.closeUdp_kept | apply State.putSession_kept | refine kept_ite ?_ ?_ | refine out_ite ?_ ?_ | split | refine fst_kept (by assumption) ?_ | refine snd_kept (by assumption) ?_ | refine opt_kept (by assumption) ?_ | refine kept_mk ?_

theorem execAuthLockEnd_kept (x0 : Fin 6) {s : State} (hk : s.kept q n) :
    outKept q n (execAuthLockEnd x0 s) := by
  unfold execAuthLockEnd
  with_reducible repeat' first | assumption | refine out_next ?_ | apply State.putTport_kept | refine kept_ite ?_ ?_ | refine out_ite ?_ ?_ | refine kept_mk ?_

theorem execKcpSlotReply_kept (x0 : Fin 2) (slot : Fin 32) {s : State} (hk : s.kept q n) :
    outKept q n (execKcpSlotReply x0 slot s) := by
  unfold execKcpSlotReply
  with_reducible repeat' first | assumption | refine out_next ?_ | apply State.emit_kept | apply State.setf_kept | intro _ | refine kept_ite ?_ ?_ | refine out_ite ?_ ?_ | split | refine fst_kept (by assumption) ?_ | refine snd_kept (by assumption) ?_ | refine opt_kept (by assumption) ?_ | refine kept_mk ?_

theorem State.later_kept {s : State} (e : SelfEffect) (hk : s.kept q n) :
    (State.later s e).kept q n := by
  unfold State.later
  with_reducible repeat' first | assumption | refine kept_mk ?_

theorem State.program_kept {s : State} (word : Nat) (value : Nat) (lifecycle : Bool) (hk : s.kept q n) :
    (State.program s word value lifecycle).kept q n := by
  unfold State.program
  with_reducible repeat' first | assumption | apply State.setf_kept | refine kept_ite ?_ ?_ | refine kept_mk ?_

theorem State.selfStart_kept {s : State} (x1 : SelfEffect) (hk : s.kept q n) :
    (State.selfStart s x1).kept q n := by
  unfold State.selfStart
  with_reducible repeat' first | assumption | apply State.kcpAssert_kept | apply State.powerRequest_kept | apply State.program_kept | apply State.recast_kept | refine kept_ite ?_ ?_ | split | refine fst_kept (by assumption) ?_ | refine snd_kept (by assumption) ?_ | refine opt_kept (by assumption) ?_ | refine kept_mk ?_

theorem execKcpSelfEffectStart_kept {s : State} (hk : s.kept q n) :
    outKept q n (execKcpSelfEffectStart s) := by
  unfold execKcpSelfEffectStart
  with_reducible repeat' first | assumption | refine out_next ?_ | apply State.selfStart_kept | refine kept_ite ?_ ?_ | refine out_ite ?_ ?_ | split | refine fst_kept (by assumption) ?_ | refine snd_kept (by assumption) ?_ | refine opt_kept (by assumption) ?_ | refine kept_mk ?_

end Sys2Proof.Machine
end

