-- ==== Sys2Proof/Laws/KeptNeedleDec.lean ====
section
/-! SUPPORT. What the definitions of Machine/NeedleDec.lean keep: the queue, the time, the canonical form of memory and registers, and that at
most one half is in CHARGE. -/

set_option linter.unreachableTactic false
set_option linter.unusedTactic false
set_option linter.unusedVariables false

namespace Sys2Proof.Machine
open Sys2Proof

variable {q : List Instr} {n : Nat}

theorem State.putN_kept {s : State} (i : Nat) (off : Nat) (bs : List Byte) (hk : s.kept q n) :
    (State.putN s i off bs).kept q n := by
  unfold State.putN
  with_reducible repeat' first | assumption | apply State.putbs_kept | refine kept_mk ?_

end Sys2Proof.Machine
end

