-- ==== Sys2Proof/Laws/KeptNeedleCtl.lean ====
section
/-! SUPPORT. What the definitions of Machine/NeedleCtl.lean keep: the queue, the time, the canonical form of memory and registers, and that at
most one half is in CHARGE. -/

set_option linter.unreachableTactic false
set_option linter.unusedTactic false
set_option linter.unusedVariables false

namespace Sys2Proof.Machine
open Sys2Proof

variable {q : List Instr} {n : Nat}

theorem State.inlEmit_kept {s : State} (i : Nat) (x2 : Nat) (bs : List Byte) (fcs : List Byte) (hk : s.kept q n) :
    (State.inlEmit s i x2 bs fcs).kept q n := by
  unfold State.inlEmit
  with_reducible repeat' first | assumption | apply State.emitField_kept | apply State.txCount_kept | refine kept_mk ?_

theorem State.inlLat_kept {s : State} (i : Nat) (lat : Nat) (hk : s.kept q n) :
    (State.inlLat s i lat).kept q n := by
  unfold State.inlLat
  with_reducible repeat' first | assumption | apply State.setf_kept | refine kept_mk ?_

theorem State.inlLeave_kept {s : State} (i : Nat) (fr : InlFrame) (hk : s.kept q n) :
    (State.inlLeave s i fr).kept q n := by
  unfold State.inlLeave
  with_reducible repeat' first | assumption | apply State.inc_kept | apply State.inlEmit_kept | apply State.inlLat_kept | refine kept_ite ?_ ?_ | split | refine fst_kept (by assumption) ?_ | refine snd_kept (by assumption) ?_ | refine opt_kept (by assumption) ?_ | refine kept_mk ?_

theorem State.inlNext_kept {s : State} (i : Nat) (hk : s.kept q n) :
    (State.inlNext s i).kept q n := by
  unfold State.inlNext
  with_reducible repeat' first | assumption | apply State.inlLeave_kept | apply State.putEng_kept | apply foldl_kept | intro _ | refine kept_ite ?_ ?_ | split | refine fst_kept (by assumption) ?_ | refine snd_kept (by assumption) ?_ | refine opt_kept (by assumption) ?_ | refine kept_mk ?_

theorem State.inlFinish_kept {s : State} (i : Nat) (hk : s.kept q n) :
    (State.inlFinish s i).kept q n := by
  unfold State.inlFinish
  with_reducible repeat' first | assumption | apply State.inlLeave_kept | apply State.inlNext_kept | apply State.mapEng_kept | intro _ | split | refine fst_kept (by assumption) ?_ | refine snd_kept (by assumption) ?_ | refine opt_kept (by assumption) ?_ | refine kept_mk ?_

theorem State.inlDrop_kept {s : State} (i : Nat) (hk : s.kept q n) :
    (State.inlDrop s i).kept q n := by
  unfold State.inlDrop
  with_reducible repeat' first | assumption | apply State.inc_kept | apply State.inlEmit_kept | apply State.inlNext_kept | apply State.mapEng_kept | intro _ | refine kept_ite ?_ ?_ | split | refine fst_kept (by assumption) ?_ | refine snd_kept (by assumption) ?_ | refine opt_kept (by assumption) ?_ | refine kept_mk ?_

theorem State.neHalt_kept {s : State} (i : Nat) (inl : Bool) (cause : Nat) (st : Nat) (act : Nat) (hk : s.kept q n) :
    (State.neHalt s i inl cause st act).kept q n := by
  unfold State.neHalt
  with_reducible repeat' first | assumption | apply State.inlFinish_kept | apply State.neFault_kept | refine kept_ite ?_ ?_ | refine kept_mk ?_

theorem State.neSingle_kept {s : State} (i : Nat) (hk : s.kept q n) :
    (State.neSingle s i).kept q n := by
  unfold State.neSingle
  with_reducible repeat' first | assumption | apply State.fault_kept | apply State.inc_kept | refine kept_mk ?_

theorem State.neDouble_kept {s : State} (i : Nat) (hk : s.kept q n) :
    (State.neDouble s i).kept q n := by
  unfold State.neDouble
  with_reducible repeat' first | assumption | apply State.neHalt_kept | refine kept_ite ?_ ?_ | split | refine fst_kept (by assumption) ?_ | refine snd_kept (by assumption) ?_ | refine opt_kept (by assumption) ?_ | refine kept_mk ?_

theorem State.windowRead_kept {s : State} (i : Nat) (off : Nat) (x3 : Nat) (hk : s.kept q n) :
    (State.windowRead s i off x3).kept q n := by
  unfold State.windowRead
  with_reducible repeat' first | assumption | apply State.ok_kept | intro _ | refine kept_ite ?_ ?_ | refine kept_mk ?_

theorem State.windowWrite_kept {s : State} (i : Nat) (off : Nat) (data : List Byte) (hk : s.kept q n) :
    (State.windowWrite s i off data).kept q n := by
  unfold State.windowWrite
  with_reducible repeat' first | assumption | apply State.mapEng_kept | apply State.putN_kept | intro _ | refine kept_ite ?_ ?_ | refine kept_mk ?_

theorem State.needleAccess_kept {s : State} (m : Nat) (a : Nat) (x3 : Nat) (write : Bool) (data : List Byte) (env : BusEnv) (hk : s.kept q n) :
    (State.needleAccess s m a x3 write data env).kept q n := by
  unfold State.needleAccess
  with_reducible repeat' first | assumption | apply State.busErr_kept | apply State.neDouble_kept | apply State.neSingle_kept | apply State.ok_kept | apply State.windowRead_kept | apply State.windowWrite_kept | refine kept_ite ?_ ?_ | split | refine fst_kept (by assumption) ?_ | refine snd_kept (by assumption) ?_ | refine opt_kept (by assumption) ?_ | refine kept_mk ?_

theorem execInlineStoppedFrame_kept (i : Fin 24) (side : Fin 2) (bytes : List Byte) (held : InlHeld) {s : State} (hk : s.kept q n) :
    outKept q n (execInlineStoppedFrame i side bytes held s) := by
  unfold execInlineStoppedFrame
  with_reducible repeat' first | assumption | refine out_next ?_ | apply State.inc_kept | apply State.inlEmit_kept | apply State.inlLat_kept | refine kept_ite ?_ ?_ | refine out_ite ?_ ?_ | split | refine fst_kept (by assumption) ?_ | refine snd_kept (by assumption) ?_ | refine opt_kept (by assumption) ?_ | refine kept_mk ?_

theorem execInlineInsertSend_kept (i : Fin 24) (side : Fin 2) {s : State} (hk : s.kept q n) :
    outKept q n (execInlineInsertSend i side s) := by
  unfold execInlineInsertSend
  with_reducible repeat' first | assumption | refine out_next ?_ | apply State.inc_kept | apply State.inlEmit_kept | apply State.putEng_kept | (fail_if_no_progress (extract_lets +onlyGivenNames x); first | (refine kept_bind (q := q) (n := n) (x := x) ?_ (fun _ => ?_); on_goal 2 => clear_value x; on_goal 1 => unfold x) | skip) | intro _ | refine kept_ite ?_ ?_ | refine out_ite ?_ ?_ | split | refine fst_kept (by assumption) ?_ | refine snd_kept (by assumption) ?_ | refine opt_kept (by assumption) ?_ | refine kept_mk ?_

theorem State.neStart_kept {s : State} (i : Nat) (hk : s.kept q n) :
    (State.neStart s i).kept q n := by
  unfold State.neStart
  with_reducible repeat' first | assumption | apply State.mapEng_kept | apply State.nePend_kept | apply State.setf_kept | apply foldl_kept | intro _ | refine kept_ite ?_ ?_ | refine kept_mk ?_

theorem State.neStop_kept {s : State} (i : Nat) (hk : s.kept q n) :
    (State.neStop s i).kept q n := by
  unfold State.neStop
  with_reducible repeat' first | assumption | apply State.incBy_kept | apply State.putEng_kept | apply State.setf_kept | apply State.wr_kept | refine kept_mk ?_

theorem State.neCtrlWrite_kept {s : State} (m : Nat) (i : Nat) (v : Word) (hk : s.kept q n) :
    (State.neCtrlWrite s m i v).kept q n := by
  unfold State.neCtrlWrite
  with_reducible repeat' first | assumption | apply State.guardReg_kept | apply State.neStart_kept | apply State.neStop_kept | apply State.setf_kept | intro _ | refine kept_ite ?_ ?_ | refine kept_mk ?_

theorem execNeRunStart_kept (m : Byte) (i : Fin 24) (hard : Byte) {s : State} (hk : s.kept q n) :
    outKept q n (execNeRunStart m i hard s) := by
  unfold execNeRunStart
  with_reducible repeat' first | assumption | refine out_next ?_ | apply State.neCtrlWrite_kept | refine kept_mk ?_

theorem execNeRunStop_kept (m : Byte) (i : Fin 24) (hard : Byte) {s : State} (hk : s.kept q n) :
    outKept q n (execNeRunStop m i hard s) := by
  unfold execNeRunStop
  with_reducible repeat' first | assumption | refine out_next ?_ | apply State.neCtrlWrite_kept | refine kept_mk ?_

theorem execNeStopComplete_kept (i : Fin 24) {s : State} (hk : s.kept q n) :
    outKept q n (execNeStopComplete i s) := by
  unfold execNeStopComplete
  with_reducible repeat' first | assumption | refine out_next ?_ | apply State.setf_kept | refine kept_ite ?_ ?_ | refine out_ite ?_ ?_ | refine kept_mk ?_

theorem State.neBellWrite_kept {s : State} (m : Nat) (i : Nat) (v : Word) (hk : s.kept q n) :
    (State.neBellWrite s m i v).kept q n := by
  unfold State.neBellWrite
  with_reducible repeat' first | assumption | apply State.busErr_kept | apply State.guardReg_kept | apply State.neBell_kept | intro _ | refine kept_ite ?_ ?_ | refine kept_mk ?_

theorem execNeDoorbellWrite_kept (m : Byte) (i : Fin 24) (v : Word) {s : State} (hk : s.kept q n) :
    outKept q n (execNeDoorbellWrite m i v s) := by
  unfold execNeDoorbellWrite
  with_reducible repeat' first | assumption | refine out_next ?_ | apply State.neBellWrite_kept | refine kept_mk ?_

theorem State.bindRej_kept {s : State} (i : Nat) (hk : s.kept q n) :
    (State.bindRej s i).kept q n := by
  unfold State.bindRej
  with_reducible repeat' first | assumption | apply State.setf_kept | refine kept_mk ?_

theorem State.neBindWrite_kept {s : State} (m : Nat) (i : Nat) (v : Word) (hk : s.kept q n) :
    (State.neBindWrite s m i v).kept q n := by
  unfold State.neBindWrite
  with_reducible repeat' first | assumption | apply State.bindRej_kept | apply State.guardReg_kept | apply State.wrn_kept | intro _ | refine kept_ite ?_ ?_ | refine kept_mk ?_

theorem execNeBindWrite_kept (m : Byte) (i : Fin 24) (v : Word) {s : State} (hk : s.kept q n) :
    outKept q n (execNeBindWrite m i v s) := by
  unfold execNeBindWrite
  with_reducible repeat' first | assumption | refine out_next ?_ | apply State.neBindWrite_kept | refine kept_mk ?_

theorem State.neInlWrite_kept {s : State} (m : Nat) (i : Nat) (v : Word) (hk : s.kept q n) :
    (State.neInlWrite s m i v).kept q n := by
  unfold State.neInlWrite
  with_reducible repeat' first | assumption | apply State.bindRej_kept | apply State.guardReg_kept | apply State.plainWrite_kept | apply State.setf_kept | intro _ | refine kept_ite ?_ ?_ | refine kept_mk ?_

theorem execNeInlCtrlWrite_kept (m : Byte) (i : Fin 24) (v : Word) {s : State} (hk : s.kept q n) :
    outKept q n (execNeInlCtrlWrite m i v s) := by
  unfold execNeInlCtrlWrite
  with_reducible repeat' first | assumption | refine out_next ?_ | apply State.neInlWrite_kept | refine kept_mk ?_

theorem State.neLatWrite_kept {s : State} (m : Nat) (i : Nat) (v : Word) (hk : s.kept q n) :
    (State.neLatWrite s m i v).kept q n := by
  unfold State.neLatWrite
  with_reducible repeat' first | assumption | apply State.guardReg_kept | apply State.setf_kept | intro _ | refine kept_ite ?_ ?_ | refine kept_mk ?_

theorem execNeInlLatClear_kept (m : Byte) (i : Fin 24) (v : Word) {s : State} (hk : s.kept q n) :
    outKept q n (execNeInlLatClear m i v s) := by
  unfold execNeInlLatClear
  with_reducible repeat' first | assumption | refine out_next ?_ | apply State.neLatWrite_kept | refine kept_mk ?_

theorem State.neLimitsWrite_kept {s : State} (m : Nat) (i : Nat) (v : Word) (hk : s.kept q n) :
    (State.neLimitsWrite s m i v).kept q n := by
  unfold State.neLimitsWrite
  with_reducible repeat' first | assumption | apply State.guardReg_kept | apply State.plainWrite_kept | apply State.setf_kept | intro _ | refine kept_mk ?_

theorem State.neMaskWrite_kept {s : State} (m : Nat) (i : Nat) (v : Word) (hk : s.kept q n) :
    (State.neMaskWrite s m i v).kept q n := by
  unfold State.neMaskWrite
  with_reducible repeat' first | assumption | apply State.guardReg_kept | apply State.setf_kept | intro _ | refine kept_mk ?_

theorem execNeTimerExpiry_kept (i : Fin 24) (x : Fin 16) {s : State} (hk : s.kept q n) :
    outKept q n (execNeTimerExpiry i x s) := by
  unfold execNeTimerExpiry
  with_reducible repeat' first | assumption | refine out_next ?_ | apply State.mapEng_kept | apply State.nePend_kept | intro _ | refine kept_ite ?_ ?_ | refine out_ite ?_ ?_ | refine kept_mk ?_

end Sys2Proof.Machine
end

