-- ==== Sys2Proof/Laws/KeptNeedleEvt.lean ====
section
/-! SUPPORT. What the definitions of Machine/NeedleEvt.lean keep: the queue, the time, the canonical form of memory and registers, and that at
most one half is in CHARGE. -/

set_option linter.unreachableTactic false
set_option linter.unusedTactic false
set_option linter.unusedVariables false

namespace Sys2Proof.Machine
open Sys2Proof

variable {q : List Instr} {n : Nat}

theorem State.neAge_kept {s : State} (i : Nat) (hk : s.kept q n) :
    (State.neAge s i).kept q n := by
  unfold State.neAge
  with_reducible repeat' first | assumption | apply State.mapEng_kept | intro _ | split | refine fst_kept (by assumption) ?_ | refine snd_kept (by assumption) ?_ | refine opt_kept (by assumption) ?_ | refine kept_mk ?_

theorem execEventAged_kept (i : Fin 24) {s : State} (hk : s.kept q n) :
    outKept q n (execEventAged i s) := by
  unfold execEventAged
  with_reducible repeat' first | assumption | refine out_next ?_ | apply State.neAge_kept | refine kept_mk ?_

theorem State.dropTimeouts_kept {s : State} (i : Nat) (r : Recipe) (hk : s.kept q n) :
    (State.dropTimeouts s i r).kept q n := by
  unfold State.dropTimeouts
  with_reducible repeat' first | assumption | apply State.mapEng_kept | intro _ | refine kept_mk ?_

theorem State.takeCand_kept {s : State} (i : Nat) (x2 : Cand) (hk : s.kept q n) :
    (State.takeCand s i x2).kept q n := by
  unfold State.takeCand
  with_reducible repeat' first | assumption | apply State.mapEng_kept | apply State.putEng_kept | apply State.wrn_kept | intro _ | refine kept_ite ?_ ?_ | split | refine fst_kept (by assumption) ?_ | refine snd_kept (by assumption) ?_ | refine opt_kept (by assumption) ?_ | refine kept_mk ?_

theorem State.evtEnd_kept {s : State} (i : Nat) (ctx : Nat) (dest : Option Nat) (hk : s.kept q n) :
    (State.evtEnd s i ctx dest).kept q n := by
  unfold State.evtEnd
  with_reducible repeat' first | assumption | apply State.inc_kept | apply State.mapEng_kept | apply State.putN_kept | intro _ | split | refine fst_kept (by assumption) ?_ | refine snd_kept (by assumption) ?_ | refine opt_kept (by assumption) ?_ | refine kept_mk ?_

theorem State.evtStart_kept {s : State} (i : Nat) (r : Recipe) (ev : Evt) (hk : s.kept q n) :
    (State.evtStart s i r ev).kept q n := by
  unfold State.evtStart
  with_reducible repeat' first | assumption | apply State.evtEnd_kept | apply State.mapEng_kept | apply State.neHalt_kept | intro _ | refine kept_ite ?_ ?_ | split | refine fst_kept (by assumption) ?_ | refine snd_kept (by assumption) ?_ | refine opt_kept (by assumption) ?_ | refine kept_mk ?_

theorem State.dispatch_kept {s : State} (i : Nat) (hk : s.kept q n) :
    (State.dispatch s i).kept q n := by
  unfold State.dispatch
  with_reducible repeat' first | assumption | apply State.dropTimeouts_kept | apply State.evtStart_kept | apply State.neAge_kept | apply State.takeCand_kept | apply State.useFree_kept | refine kept_ite ?_ ?_ | split | refine fst_kept (by assumption) ?_ | refine snd_kept (by assumption) ?_ | refine opt_kept (by assumption) ?_ | refine kept_mk ?_

theorem execEventDispatch_kept (i : Fin 24) (ecc : Ecc) {s : State} (hk : s.kept q n) :
    outKept q n (execEventDispatch i ecc s) := by
  unfold execEventDispatch
  with_reducible repeat' first | assumption | refine out_next ?_ | apply State.dispatch_kept | apply State.neDouble_kept | apply State.neSingle_kept | refine kept_ite ?_ ?_ | refine out_ite ?_ ?_ | split | refine fst_kept (by assumption) ?_ | refine snd_kept (by assumption) ?_ | refine opt_kept (by assumption) ?_ | refine kept_mk ?_

theorem execInlineFrameStart_kept (i : Fin 24) (side : Fin 2) (bytes : List Byte) (good : Bool) (stamp : Nat) (lat : Nat) (late : Bool) (room : InlRoom) {s : State} (hk : s.kept q n) :
    outKept q n (execInlineFrameStart i side bytes good stamp lat late room s) := by
  unfold execInlineFrameStart
  with_reducible repeat' first | assumption | refine out_next ?_ | apply State.inc_kept | apply State.inlNext_kept | apply State.mapEng_kept | apply State.neHalt_kept | apply State.neSingle_kept | intro _ | refine kept_ite ?_ ?_ | refine out_ite ?_ ?_ | split | refine fst_kept (by assumption) ?_ | refine snd_kept (by assumption) ?_ | refine opt_kept (by assumption) ?_ | refine kept_mk ?_

end Sys2Proof.Machine
end

