-- ==== Sys2Proof/Laws/KeptNeedleAct.lean ====
section
/-! SUPPORT. What the definitions of Machine/NeedleAct.lean keep: the queue, the time, the canonical form of memory and registers, and that at
most one half is in CHARGE. -/

set_option linter.unreachableTactic false
set_option linter.unusedTactic false
set_option linter.unusedVariables false

namespace Sys2Proof.Machine
open Sys2Proof

variable {q : List Instr} {n : Nat}

theorem State.areaWrite_kept {s : State} (i : Nat) (inl : Bool) (c : ActCtx) (k off : Nat) (bs : List Byte)
    (h : s.kept q n) : optKept q n (s.areaWrite i inl c k off bs) := by
  unfold State.areaWrite
  dsimp only
  split
  · split
    · exact opt_some (State.putN_kept _ _ _ h)
    · exact opt_none
  · split
    · exact opt_some (State.mapEng_kept _ _ h)
    · exact opt_none
  · split
    · exact opt_some (State.putN_kept _ _ _ h)
    · exact opt_none
  · split
    · exact opt_some (State.mapEng_kept _ _ h)
    · exact opt_none
  · exact opt_none

theorem State.eccWord_kept {s : State} (i : Nat) (w : ActWord) (hk : s.kept q n) :
    (State.eccWord s i w).kept q n := by
  unfold State.eccWord
  with_reducible repeat' first | assumption | apply State.neSingle_kept | refine kept_ite ?_ ?_ | refine kept_mk ?_

theorem State.actRes_kept {s : State} (i : Nat) (inl : Bool) (op : Nat) (w : ActWord) (body : WordBody) (c : ActCtx)
    (r : ActRes) (h : s.kept q n)
    (hb : ∀ i inl w s r c, State.kept q n s → resKept q n (body i inl w s r c))
    (hr : s.actRes i inl op w body = some (c, r)) : resKept q n r := by
  unfold State.actRes at hr
  split at hr
  · cases hr
  · repeat' split at hr
    all_goals first | (cases hr; exact trivial) | (cases hr; exact hb _ _ _ _ _ _ (State.eccWord_kept _ _ h)) | cases hr

theorem State.putCtx_kept {s : State} (i : Nat) (inl : Bool) (c : ActCtx) (hk : s.kept q n) :
    (State.putCtx s i inl c).kept q n := by
  unfold State.putCtx
  with_reducible repeat' first | assumption | apply State.mapEng_kept | intro _ | refine kept_ite ?_ ?_ | refine kept_mk ?_

theorem State.actEnd_kept {s : State} (i : Nat) (inl : Bool) (op : Nat) (w : ActWord) (c : ActCtx) (r : ActRes)
    (h : s.kept q n) (hr : resKept q n r) : (s.actEnd i inl op w c r).kept q n := by
  cases r with
  | go t c => exact State.putCtx_kept _ _ _ hr
  | done t c =>
    unfold State.actEnd
    dsimp only
    split
    · exact State.inlFinish_kept _ hr
    · exact State.evtEnd_kept _ _ _ hr
  | fault k => exact State.neHalt_kept _ _ _ _ _ (State.eccWord_kept _ _ h)
  | wait => exact State.putCtx_kept _ _ _ (State.eccWord_kept _ _ h)
  | gone t => exact hr

theorem State.act_kept {s : State} (i : Nat) (inl : Bool) (op : Nat) (w : ActWord) (body : WordBody) (h : s.kept q n)
    (hb : ∀ i inl w s r c, State.kept q n s → resKept q n (body i inl w s r c)) :
    (s.act i inl op w body).kept q n := by
  unfold State.act
  split
  · exact h
  · next c r hr => exact State.actEnd_kept _ _ _ _ _ _ h (State.actRes_kept _ _ _ _ _ _ _ h hb hr)

theorem State.rival_kept {s : State} (i : Nat) (lo : Nat) (x3 : Nat) (x4 : Option SpadOp) (hk : s.kept q n) :
    (State.rival s i lo x3 x4).kept q n := by
  unfold State.rival
  with_reducible repeat' first | assumption | apply State.needleAccess_kept | refine kept_ite ?_ ?_ | split | refine fst_kept (by assumption) ?_ | refine snd_kept (by assumption) ?_ | refine opt_kept (by assumption) ?_ | refine kept_mk ?_

theorem State.actBeside_kept {s : State} (i : Nat) (inl : Bool) (op : Nat) (w : ActWord) (body : WordBody)
    (o : Option SpadOp) (h : s.kept q n)
    (hb : ∀ i inl w s r c, State.kept q n s → resKept q n (body i inl w s r c)) :
    (s.actBeside i inl op w body o).kept q n := by
  unfold State.actBeside
  split
  · exact State.rival_kept _ _ _ _ h
  · next c r hr =>
    exact State.rival_kept _ _ _ _ (State.actEnd_kept _ _ _ _ _ _ h (State.actRes_kept _ _ _ _ _ _ _ h hb hr))

theorem wEnd_kept (x0 : Nat) (x1 : Bool) (x2 : ActWord) {x3 : State} (x4 : Recipe) (x5 : ActCtx) (hk : x3.kept q n) :
    resKept q n (wEnd x0 x1 x2 x3 x4 x5) := by
  unfold wEnd
  with_reducible repeat' first | assumption | refine res_go ?_ | refine res_done ?_ | refine res_gone ?_ | exact res_fault | exact res_wait | intro _ | refine kept_mk ?_

theorem execRecEnd_kept (i : Fin 24) (inl : Bool) (w : ActWord) (rival : Option SpadOp) {s : State} (hk : s.kept q n) :
    outKept q n (execRecEnd i inl w rival s) := by
  unfold execRecEnd
  with_reducible repeat' first | assumption | refine out_next ?_ | refine res_go ?_ | refine res_done ?_ | refine res_gone ?_ | exact res_fault | exact res_wait | apply State.actBeside_kept | apply wEnd_kept | intro _ | refine kept_mk ?_

theorem execRecNop_kept (i : Fin 24) (inl : Bool) (w : ActWord) {s : State} (hk : s.kept q n) :
    outKept q n (execRecNop i inl w s) := by
  unfold execRecNop
  with_reducible repeat' first | assumption | refine out_next ?_ | refine res_go ?_ | refine res_done ?_ | refine res_gone ?_ | exact res_fault | exact res_wait | apply State.act_kept | intro _ | refine kept_mk ?_

theorem execRecJmp_kept (i : Fin 24) (inl : Bool) (w : ActWord) {s : State} (hk : s.kept q n) :
    outKept q n (execRecJmp i inl w s) := by
  unfold execRecJmp
  with_reducible repeat' first | assumption | refine out_next ?_ | refine res_go ?_ | refine res_done ?_ | refine res_gone ?_ | exact res_fault | exact res_wait | apply State.act_kept | intro _ | refine kept_mk ?_

theorem execRecBr_kept (i : Fin 24) (inl : Bool) (w : ActWord) {s : State} (hk : s.kept q n) :
    outKept q n (execRecBr i inl w s) := by
  unfold execRecBr
  with_reducible repeat' first | assumption | refine out_next ?_ | refine res_go ?_ | refine res_done ?_ | refine res_gone ?_ | exact res_fault | exact res_wait | apply State.act_kept | intro _ | refine kept_ite ?_ ?_ | refine out_ite ?_ ?_ | refine res_ite ?_ ?_ | refine kept_mk ?_

theorem execRecCall_kept (i : Fin 24) (inl : Bool) (w : ActWord) {s : State} (hk : s.kept q n) :
    outKept q n (execRecCall i inl w s) := by
  unfold execRecCall
  with_reducible repeat' first | assumption | refine out_next ?_ | refine res_go ?_ | refine res_done ?_ | refine res_gone ?_ | exact res_fault | exact res_wait | apply State.act_kept | apply State.fault_kept | intro _ | refine kept_ite ?_ ?_ | refine out_ite ?_ ?_ | refine res_ite ?_ ?_ | refine kept_mk ?_

theorem execRecRet_kept (i : Fin 24) (inl : Bool) (w : ActWord) {s : State} (hk : s.kept q n) :
    outKept q n (execRecRet i inl w s) := by
  unfold execRecRet
  with_reducible repeat' first | assumption | refine out_next ?_ | refine res_go ?_ | refine res_done ?_ | refine res_gone ?_ | exact res_fault | exact res_wait | apply State.act_kept | apply State.fault_kept | intro _ | split | refine fst_kept (by assumption) ?_ | refine snd_kept (by assumption) ?_ | refine opt_kept (by assumption) ?_ | refine kept_mk ?_

theorem execRecSetst_kept (i : Fin 24) (inl : Bool) (w : ActWord) {s : State} (hk : s.kept q n) :
    outKept q n (execRecSetst i inl w s) := by
  unfold execRecSetst
  with_reducible repeat' first | assumption | refine out_next ?_ | refine res_go ?_ | refine res_done ?_ | refine res_gone ?_ | exact res_fault | exact res_wait | apply State.act_kept | intro _ | refine kept_mk ?_

theorem execRecDiscard_kept (i : Fin 24) (inl : Bool) (w : ActWord) {s : State} (hk : s.kept q n) :
    outKept q n (execRecDiscard i inl w s) := by
  unfold execRecDiscard
  with_reducible repeat' first | assumption | refine out_next ?_ | refine res_go ?_ | refine res_done ?_ | refine res_gone ?_ | exact res_fault | exact res_wait | apply State.act_kept | intro _ | refine kept_mk ?_

theorem execRecLdi_kept (i : Fin 24) (inl : Bool) (w : ActWord) {s : State} (hk : s.kept q n) :
    outKept q n (execRecLdi i inl w s) := by
  unfold execRecLdi
  with_reducible repeat' first | assumption | refine out_next ?_ | refine res_go ?_ | refine res_done ?_ | refine res_gone ?_ | exact res_fault | exact res_wait | apply State.act_kept | intro _ | refine kept_ite ?_ ?_ | refine out_ite ?_ ?_ | refine res_ite ?_ ?_ | refine kept_mk ?_

theorem execRecMov_kept (i : Fin 24) (inl : Bool) (w : ActWord) {s : State} (hk : s.kept q n) :
    outKept q n (execRecMov i inl w s) := by
  unfold execRecMov
  with_reducible repeat' first | assumption | refine out_next ?_ | refine res_go ?_ | refine res_done ?_ | refine res_gone ?_ | exact res_fault | exact res_wait | apply State.act_kept | intro _ | refine kept_mk ?_

theorem execRecLd_kept (i : Fin 24) (inl : Bool) (w : ActWord) {s : State} (hk : s.kept q n) :
    outKept q n (execRecLd i inl w s) := by
  unfold execRecLd
  with_reducible repeat' first | assumption | refine out_next ?_ | refine res_go ?_ | refine res_done ?_ | refine res_gone ?_ | exact res_fault | exact res_wait | apply State.act_kept | apply State.fault_kept | intro _ | refine kept_ite ?_ ?_ | refine out_ite ?_ ?_ | refine res_ite ?_ ?_ | split | refine fst_kept (by assumption) ?_ | refine snd_kept (by assumption) ?_ | refine opt_kept (by assumption) ?_ | refine kept_mk ?_

theorem wSt_kept (x0 : Nat) (x1 : Bool) (x2 : ActWord) {x3 : State} (x4 : Recipe) (x5 : ActCtx) (hk : x3.kept q n) :
    resKept q n (wSt x0 x1 x2 x3 x4 x5) := by
  unfold wSt
  with_reducible repeat' first | assumption | refine res_go ?_ | refine res_done ?_ | refine res_gone ?_ | exact res_fault | exact res_wait | apply State.areaWrite_kept | apply State.fault_kept | (fail_if_no_progress (extract_lets +onlyGivenNames x); first | (refine kept_bind (q := q) (n := n) (x := x) ?_ (fun _ => ?_); on_goal 2 => clear_value x; on_goal 1 => unfold x) | skip) | intro _ | refine kept_ite ?_ ?_ | refine res_ite ?_ ?_ | split | refine fst_kept (by assumption) ?_ | refine snd_kept (by assumption) ?_ | refine opt_kept (by assumption) ?_ | refine kept_mk ?_

theorem execRecSt_kept (i : Fin 24) (inl : Bool) (w : ActWord) (rival : Option SpadOp) {s : State} (hk : s.kept q n) :
    outKept q n (execRecSt i inl w rival s) := by
  unfold execRecSt
  with_reducible repeat' first | assumption | refine out_next ?_ | refine res_go ?_ | refine res_done ?_ | refine res_gone ?_ | exact res_fault | exact res_wait | apply State.actBeside_kept | apply wSt_kept | intro _ | refine kept_mk ?_

theorem execRecExt_kept (i : Fin 24) (inl : Bool) (w : ActWord) {s : State} (hk : s.kept q n) :
    outKept q n (execRecExt i inl w s) := by
  unfold execRecExt
  with_reducible repeat' first | assumption | refine out_next ?_ | refine res_go ?_ | refine res_done ?_ | refine res_gone ?_ | exact res_fault | exact res_wait | apply State.act_kept | apply State.fault_kept | intro _ | refine kept_ite ?_ ?_ | refine out_ite ?_ ?_ | refine res_ite ?_ ?_ | refine kept_mk ?_

theorem execRecIns_kept (i : Fin 24) (inl : Bool) (w : ActWord) {s : State} (hk : s.kept q n) :
    outKept q n (execRecIns i inl w s) := by
  unfold execRecIns
  with_reducible repeat' first | assumption | refine out_next ?_ | refine res_go ?_ | refine res_done ?_ | refine res_gone ?_ | exact res_fault | exact res_wait | apply State.act_kept | apply State.fault_kept | intro _ | refine kept_ite ?_ ?_ | refine out_ite ?_ ?_ | refine res_ite ?_ ?_ | refine kept_mk ?_

theorem wAlu_kept (sext : Bool) (f : Nat → Nat → Nat) (x2 : Nat) (x3 : Bool) (x4 : ActWord) {x5 : State} (x6 : Recipe) (x7 : ActCtx) (hk : x5.kept q n) :
    resKept q n (wAlu sext f x2 x3 x4 x5 x6 x7) := by
  unfold wAlu
  with_reducible repeat' first | assumption | refine res_go ?_ | refine res_done ?_ | refine res_gone ?_ | exact res_fault | exact res_wait | intro _ | refine kept_mk ?_

theorem execRecAdd_kept (i : Fin 24) (inl : Bool) (w : ActWord) {s : State} (hk : s.kept q n) :
    outKept q n (execRecAdd i inl w s) := by
  unfold execRecAdd
  with_reducible repeat' first | assumption | refine out_next ?_ | refine res_go ?_ | refine res_done ?_ | refine res_gone ?_ | exact res_fault | exact res_wait | apply State.act_kept | apply wAlu_kept | intro _ | refine kept_mk ?_

theorem execRecSub_kept (i : Fin 24) (inl : Bool) (w : ActWord) {s : State} (hk : s.kept q n) :
    outKept q n (execRecSub i inl w s) := by
  unfold execRecSub
  with_reducible repeat' first | assumption | refine out_next ?_ | refine res_go ?_ | refine res_done ?_ | refine res_gone ?_ | exact res_fault | exact res_wait | apply State.act_kept | apply wAlu_kept | intro _ | refine kept_mk ?_

theorem execRecAnd_kept (i : Fin 24) (inl : Bool) (w : ActWord) {s : State} (hk : s.kept q n) :
    outKept q n (execRecAnd i inl w s) := by
  unfold execRecAnd
  with_reducible repeat' first | assumption | refine out_next ?_ | refine res_go ?_ | refine res_done ?_ | refine res_gone ?_ | exact res_fault | exact res_wait | apply State.act_kept | apply wAlu_kept | intro _ | refine kept_mk ?_

theorem execRecOr_kept (i : Fin 24) (inl : Bool) (w : ActWord) {s : State} (hk : s.kept q n) :
    outKept q n (execRecOr i inl w s) := by
  unfold execRecOr
  with_reducible repeat' first | assumption | refine out_next ?_ | refine res_go ?_ | refine res_done ?_ | refine res_gone ?_ | exact res_fault | exact res_wait | apply State.act_kept | apply wAlu_kept | intro _ | split | refine fst_kept (by assumption) ?_ | refine snd_kept (by assumption) ?_ | refine opt_kept (by assumption) ?_ | refine kept_mk ?_

theorem execRecXor_kept (i : Fin 24) (inl : Bool) (w : ActWord) {s : State} (hk : s.kept q n) :
    outKept q n (execRecXor i inl w s) := by
  unfold execRecXor
  with_reducible repeat' first | assumption | refine out_next ?_ | refine res_go ?_ | refine res_done ?_ | refine res_gone ?_ | exact res_fault | exact res_wait | apply State.act_kept | apply wAlu_kept | intro _ | refine kept_mk ?_

theorem execRecShl_kept (i : Fin 24) (inl : Bool) (w : ActWord) {s : State} (hk : s.kept q n) :
    outKept q n (execRecShl i inl w s) := by
  unfold execRecShl
  with_reducible repeat' first | assumption | refine out_next ?_ | refine res_go ?_ | refine res_done ?_ | refine res_gone ?_ | exact res_fault | exact res_wait | apply State.act_kept | apply wAlu_kept | intro _ | refine kept_mk ?_

theorem execRecShr_kept (i : Fin 24) (inl : Bool) (w : ActWord) {s : State} (hk : s.kept q n) :
    outKept q n (execRecShr i inl w s) := by
  unfold execRecShr
  with_reducible repeat' first | assumption | refine out_next ?_ | refine res_go ?_ | refine res_done ?_ | refine res_gone ?_ | exact res_fault | exact res_wait | apply State.act_kept | apply wAlu_kept | intro _ | refine kept_mk ?_

theorem execRecSar_kept (i : Fin 24) (inl : Bool) (w : ActWord) {s : State} (hk : s.kept q n) :
    outKept q n (execRecSar i inl w s) := by
  unfold execRecSar
  with_reducible repeat' first | assumption | refine out_next ?_ | refine res_go ?_ | refine res_done ?_ | refine res_gone ?_ | exact res_fault | exact res_wait | apply State.act_kept | apply wAlu_kept | intro _ | refine kept_mk ?_

theorem wFlags_kept (f : Nat → Nat → Nat) (x1 : Nat) (x2 : Bool) (x3 : ActWord) {x4 : State} (x5 : Recipe) (x6 : ActCtx) (hk : x4.kept q n) :
    resKept q n (wFlags f x1 x2 x3 x4 x5 x6) := by
  unfold wFlags
  with_reducible repeat' first | assumption | refine res_go ?_ | refine res_done ?_ | refine res_gone ?_ | exact res_fault | exact res_wait | apply State.putN_kept | intro _ | refine kept_mk ?_

theorem execRecFset_kept (i : Fin 24) (inl : Bool) (w : ActWord) (rival : Option SpadOp) {s : State} (hk : s.kept q n) :
    outKept q n (execRecFset i inl w rival s) := by
  unfold execRecFset
  with_reducible repeat' first | assumption | refine out_next ?_ | refine res_go ?_ | refine res_done ?_ | refine res_gone ?_ | exact res_fault | exact res_wait | apply State.actBeside_kept | apply wFlags_kept | intro _ | split | refine fst_kept (by assumption) ?_ | refine snd_kept (by assumption) ?_ | refine opt_kept (by assumption) ?_ | refine kept_mk ?_

theorem execRecFclr_kept (i : Fin 24) (inl : Bool) (w : ActWord) (rival : Option SpadOp) {s : State} (hk : s.kept q n) :
    outKept q n (execRecFclr i inl w rival s) := by
  unfold execRecFclr
  with_reducible repeat' first | assumption | refine out_next ?_ | refine res_go ?_ | refine res_done ?_ | refine res_gone ?_ | exact res_fault | exact res_wait | apply State.actBeside_kept | apply wFlags_kept | intro _ | refine kept_mk ?_

theorem execRecFld_kept (i : Fin 24) (inl : Bool) (w : ActWord) {s : State} (hk : s.kept q n) :
    outKept q n (execRecFld i inl w s) := by
  unfold execRecFld
  with_reducible repeat' first | assumption | refine out_next ?_ | refine res_go ?_ | refine res_done ?_ | refine res_gone ?_ | exact res_fault | exact res_wait | apply State.act_kept | intro _ | refine kept_mk ?_

theorem execRecLookup_kept (i : Fin 24) (inl : Bool) (w : ActWord) {s : State} (hk : s.kept q n) :
    outKept q n (execRecLookup i inl w s) := by
  unfold execRecLookup
  with_reducible repeat' first | assumption | refine out_next ?_ | refine res_go ?_ | refine res_done ?_ | refine res_gone ?_ | exact res_fault | exact res_wait | apply State.act_kept | apply State.fault_kept | apply State.useFree_kept | intro _ | refine kept_ite ?_ ?_ | refine out_ite ?_ ?_ | refine res_ite ?_ ?_ | split | refine fst_kept (by assumption) ?_ | refine snd_kept (by assumption) ?_ | refine opt_kept (by assumption) ?_ | refine kept_mk ?_

theorem execRecDecode_kept (i : Fin 24) (inl : Bool) (w : ActWord) {s : State} (hk : s.kept q n) :
    outKept q n (execRecDecode i inl w s) := by
  unfold execRecDecode
  with_reducible repeat' first | assumption | refine out_next ?_ | refine res_go ?_ | refine res_done ?_ | refine res_gone ?_ | exact res_fault | exact res_wait | apply State.act_kept | apply State.fault_kept | intro _ | refine kept_ite ?_ ?_ | refine out_ite ?_ ?_ | refine res_ite ?_ ?_ | split | refine fst_kept (by assumption) ?_ | refine snd_kept (by assumption) ?_ | refine opt_kept (by assumption) ?_ | refine kept_mk ?_

theorem execRecInlskip_kept (i : Fin 24) (inl : Bool) (w : ActWord) {s : State} (hk : s.kept q n) :
    outKept q n (execRecInlskip i inl w s) := by
  unfold execRecInlskip
  with_reducible repeat' first | assumption | refine out_next ?_ | refine res_go ?_ | refine res_done ?_ | refine res_gone ?_ | exact res_fault | exact res_wait | apply State.act_kept | apply State.fault_kept | apply State.mapEng_kept | intro _ | refine kept_ite ?_ ?_ | refine out_ite ?_ ?_ | refine res_ite ?_ ?_ | split | refine fst_kept (by assumption) ?_ | refine snd_kept (by assumption) ?_ | refine opt_kept (by assumption) ?_ | refine kept_mk ?_

theorem execRecInldrop_kept (i : Fin 24) (inl : Bool) (w : ActWord) {s : State} (hk : s.kept q n) :
    outKept q n (execRecInldrop i inl w s) := by
  unfold execRecInldrop
  with_reducible repeat' first | assumption | refine out_next ?_ | refine res_go ?_ | refine res_done ?_ | refine res_gone ?_ | exact res_fault | exact res_wait | apply State.act_kept | apply State.inlDrop_kept | intro _ | refine kept_mk ?_

end Sys2Proof.Machine
end

