-- ==== Sys2Proof/Laws/KeptNeedleIo.lean ====
section
/-! SUPPORT. What the definitions of Machine/NeedleIo.lean keep: the queue, the time, the canonical form of memory and registers, and that at
most one half is in CHARGE. -/

set_option linter.unreachableTactic false
set_option linter.unusedTactic false
set_option linter.unusedVariables false

namespace Sys2Proof.Machine
open Sys2Proof

variable {q : List Instr} {n : Nat}

theorem State.buildCopy_kept {s : State} (i : Nat) (off : Nat) (bs : List Byte) (c : ActCtx) (hk : s.kept q n) :
    resKept q n (State.buildCopy s i off bs c) := by
  unfold State.buildCopy
  with_reducible repeat' first | assumption | refine res_go ?_ | refine res_done ?_ | refine res_gone ?_ | exact res_fault | exact res_wait | apply State.fault_kept | apply State.mapEng_kept | intro _ | refine kept_ite ?_ ?_ | refine res_ite ?_ ?_ | refine kept_mk ?_

theorem execRecTplcpy_kept (i : Fin 24) (inl : Bool) (w : ActWord) {s : State} (hk : s.kept q n) :
    outKept q n (execRecTplcpy i inl w s) := by
  unfold execRecTplcpy
  with_reducible repeat' first | assumption | refine out_next ?_ | refine res_go ?_ | refine res_done ?_ | refine res_gone ?_ | exact res_fault | exact res_wait | apply State.act_kept | apply State.buildCopy_kept | apply State.fault_kept | intro _ | refine kept_ite ?_ ?_ | refine out_ite ?_ ?_ | refine res_ite ?_ ?_ | split | refine fst_kept (by assumption) ?_ | refine snd_kept (by assumption) ?_ | refine opt_kept (by assumption) ?_ | refine kept_mk ?_

theorem execRecBlen_kept (i : Fin 24) (inl : Bool) (w : ActWord) {s : State} (hk : s.kept q n) :
    outKept q n (execRecBlen i inl w s) := by
  unfold execRecBlen
  with_reducible repeat' first | assumption | refine out_next ?_ | refine res_go ?_ | refine res_done ?_ | refine res_gone ?_ | exact res_fault | exact res_wait | apply State.act_kept | apply State.fault_kept | apply State.mapEng_kept | intro _ | refine kept_ite ?_ ?_ | refine out_ite ?_ ?_ | refine res_ite ?_ ?_ | refine kept_mk ?_

theorem execRecCpyin_kept (i : Fin 24) (inl : Bool) (w : ActWord) {s : State} (hk : s.kept q n) :
    outKept q n (execRecCpyin i inl w s) := by
  unfold execRecCpyin
  with_reducible repeat' first | assumption | refine out_next ?_ | refine res_go ?_ | refine res_done ?_ | refine res_gone ?_ | exact res_fault | exact res_wait | apply State.act_kept | apply State.buildCopy_kept | apply State.fault_kept | intro _ | split | refine fst_kept (by assumption) ?_ | refine snd_kept (by assumption) ?_ | refine opt_kept (by assumption) ?_ | refine kept_mk ?_

theorem execRecCrc_kept (i : Fin 24) (inl : Bool) (w : ActWord) {s : State} (hk : s.kept q n) :
    outKept q n (execRecCrc i inl w s) := by
  unfold execRecCrc
  with_reducible repeat' first | assumption | refine out_next ?_ | refine res_go ?_ | refine res_done ?_ | refine res_gone ?_ | exact res_fault | exact res_wait | apply State.act_kept | apply State.fault_kept | intro _ | split | refine fst_kept (by assumption) ?_ | refine snd_kept (by assumption) ?_ | refine opt_kept (by assumption) ?_ | refine kept_mk ?_

theorem State.sendBuild_kept {s : State} (i least : Nat) (c : ActCtx) (f : State → List Byte → Option State)
    (h : s.kept q n) (hf : ∀ t bs, State.kept q n t → optKept q n (f t bs)) : resKept q n (s.sendBuild i least c f) := by
  unfold State.sendBuild
  dsimp only
  split
  · exact trivial
  · split
    · exact trivial
    · split
      · next t ht => exact hf _ _ (State.putEng_kept _ _ h) t ht
      · exact trivial

theorem wTxeth_kept {s : State} (i : Nat) (inl : Bool) (w : ActWord) (r : Recipe) (c : ActCtx) (h : s.kept q n) :
    resKept q n (wTxeth i inl w s r c) := by
  unfold wTxeth
  split
  · exact trivial
  · exact State.sendBuild_kept _ _ _ _ h fun t bs ht => opt_some (State.mapPlane_kept _ _ ht)

theorem wTxcan_kept {s : State} (i : Nat) (inl : Bool) (w : ActWord) (r : Recipe) (c : ActCtx) (h : s.kept q n) :
    resKept q n (wTxcan i inl w s r c) := by
  unfold wTxcan
  split
  · exact trivial
  · exact State.sendBuild_kept _ _ _ _ h fun t bs ht => State.cxFill_kept _ _ ht

theorem wTxstitch_kept {s : State} (i : Nat) (inl : Bool) (w : ActWord) (r : Recipe) (c : ActCtx) (h : s.kept q n) :
    resKept q n (wTxstitch i inl w s r c) := by
  unfold wTxstitch
  dsimp only
  split
  · exact trivial
  · refine State.sendBuild_kept _ _ _ _ h fun t bs ht => opt_some ?_
    split
    · exact State.inc_kept _ ht
    · exact State.stitchWrite_kept _ _ _ _ ht

theorem wTxcol_kept {s : State} (i : Nat) (inl : Bool) (w : ActWord) (r : Recipe) (c : ActCtx) (h : s.kept q n) :
    resKept q n (wTxcol i inl w s r c) := by
  unfold wTxcol
  refine State.sendBuild_kept _ _ _ _ h fun t bs ht => ?_
  dsimp only
  split
  · exact opt_some (State.inc_kept _ ht)
  · split
    · exact opt_some (State.colSubmit_kept _ _ _ ht)
    · exact opt_none

theorem wTxinl_kept {s : State} (i : Nat) (inl : Bool) (w : ActWord) (r : Recipe) (c : ActCtx) (h : s.kept q n) :
    resKept q n (wTxinl i inl w s r c) :=
  State.sendBuild_kept _ _ _ _ h fun t bs ht => opt_some (State.mapEng_kept _ _ ht)

theorem execRecTxeth_kept (i : Fin 24) (inl : Bool) (w : ActWord) {s : State} (hk : s.kept q n) :
    outKept q n (execRecTxeth i inl w s) := by
  unfold execRecTxeth
  with_reducible repeat' first | assumption | refine out_next ?_ | refine res_go ?_ | refine res_done ?_ | refine res_gone ?_ | exact res_fault | exact res_wait | apply State.act_kept | apply wTxeth_kept | intro _ | refine kept_mk ?_

theorem execRecTxcan_kept (i : Fin 24) (inl : Bool) (w : ActWord) {s : State} (hk : s.kept q n) :
    outKept q n (execRecTxcan i inl w s) := by
  unfold execRecTxcan
  with_reducible repeat' first | assumption | refine out_next ?_ | refine res_go ?_ | refine res_done ?_ | refine res_gone ?_ | exact res_fault | exact res_wait | apply State.act_kept | apply wTxcan_kept | intro _ | refine kept_mk ?_

theorem execRecTxstitch_kept (i : Fin 24) (inl : Bool) (w : ActWord) {s : State} (hk : s.kept q n) :
    outKept q n (execRecTxstitch i inl w s) := by
  unfold execRecTxstitch
  with_reducible repeat' first | assumption | refine out_next ?_ | refine res_go ?_ | refine res_done ?_ | refine res_gone ?_ | exact res_fault | exact res_wait | apply State.act_kept | apply wTxstitch_kept | intro _ | refine kept_mk ?_

theorem execRecTxcol_kept (i : Fin 24) (inl : Bool) (w : ActWord) {s : State} (hk : s.kept q n) :
    outKept q n (execRecTxcol i inl w s) := by
  unfold execRecTxcol
  with_reducible repeat' first | assumption | refine out_next ?_ | refine res_go ?_ | refine res_done ?_ | refine res_gone ?_ | exact res_fault | exact res_wait | apply State.act_kept | apply wTxcol_kept | intro _ | refine kept_mk ?_

theorem execRecTxinl_kept (i : Fin 24) (inl : Bool) (w : ActWord) {s : State} (hk : s.kept q n) :
    outKept q n (execRecTxinl i inl w s) := by
  unfold execRecTxinl
  with_reducible repeat' first | assumption | refine out_next ?_ | refine res_go ?_ | refine res_done ?_ | refine res_gone ?_ | exact res_fault | exact res_wait | apply State.act_kept | apply wTxinl_kept | intro _ | refine kept_mk ?_

theorem State.dmaIssue_kept {s : State} (i : Nat) (d : Dma) (c : ActCtx) (hk : s.kept q n) :
    resKept q n (State.dmaIssue s i d c) := by
  unfold State.dmaIssue
  with_reducible repeat' first | assumption | refine res_go ?_ | refine res_done ?_ | refine res_gone ?_ | exact res_fault | exact res_wait | apply State.mapEng_kept | intro _ | refine kept_ite ?_ ?_ | refine res_ite ?_ ?_ | refine kept_mk ?_

theorem wDmawr_kept (x0 : Nat) (x1 : Bool) (x2 : ActWord) {x3 : State} (x4 : Recipe) (x5 : ActCtx) (hk : x3.kept q n) :
    resKept q n (wDmawr x0 x1 x2 x3 x4 x5) := by
  unfold wDmawr
  with_reducible repeat' first | assumption | refine res_go ?_ | refine res_done ?_ | refine res_gone ?_ | exact res_fault | exact res_wait | apply State.dmaIssue_kept | apply State.fault_kept | intro _ | refine kept_ite ?_ ?_ | refine res_ite ?_ ?_ | split | refine fst_kept (by assumption) ?_ | refine snd_kept (by assumption) ?_ | refine opt_kept (by assumption) ?_ | refine kept_mk ?_

theorem wDmard_kept (x0 : Nat) (x1 : Bool) (x2 : ActWord) {x3 : State} (x4 : Recipe) (x5 : ActCtx) (hk : x3.kept q n) :
    resKept q n (wDmard x0 x1 x2 x3 x4 x5) := by
  unfold wDmard
  with_reducible repeat' first | assumption | refine res_go ?_ | refine res_done ?_ | refine res_gone ?_ | exact res_fault | exact res_wait | apply State.dmaIssue_kept | apply State.fault_kept | intro _ | refine kept_ite ?_ ?_ | refine res_ite ?_ ?_ | split | refine fst_kept (by assumption) ?_ | refine snd_kept (by assumption) ?_ | refine opt_kept (by assumption) ?_ | refine kept_mk ?_

theorem wDmaent_kept (x0 : Nat) (x1 : Bool) (x2 : ActWord) {x3 : State} (x4 : Recipe) (x5 : ActCtx) (hk : x3.kept q n) :
    resKept q n (wDmaent x0 x1 x2 x3 x4 x5) := by
  unfold wDmaent
  with_reducible repeat' first | assumption | refine res_go ?_ | refine res_done ?_ | refine res_gone ?_ | exact res_fault | exact res_wait | apply State.dmaIssue_kept | apply State.fault_kept | intro _ | refine kept_ite ?_ ?_ | refine res_ite ?_ ?_ | split | refine fst_kept (by assumption) ?_ | refine snd_kept (by assumption) ?_ | refine opt_kept (by assumption) ?_ | refine kept_mk ?_

theorem execRecDmawr_kept (i : Fin 24) (inl : Bool) (w : ActWord) {s : State} (hk : s.kept q n) :
    outKept q n (execRecDmawr i inl w s) := by
  unfold execRecDmawr
  with_reducible repeat' first | assumption | refine out_next ?_ | refine res_go ?_ | refine res_done ?_ | refine res_gone ?_ | exact res_fault | exact res_wait | apply State.act_kept | apply wDmawr_kept | intro _ | refine kept_mk ?_

theorem execRecDmard_kept (i : Fin 24) (inl : Bool) (w : ActWord) {s : State} (hk : s.kept q n) :
    outKept q n (execRecDmard i inl w s) := by
  unfold execRecDmard
  with_reducible repeat' first | assumption | refine out_next ?_ | refine res_go ?_ | refine res_done ?_ | refine res_gone ?_ | exact res_fault | exact res_wait | apply State.act_kept | apply wDmard_kept | intro _ | refine kept_mk ?_

theorem execRecDmaent_kept (i : Fin 24) (inl : Bool) (w : ActWord) {s : State} (hk : s.kept q n) :
    outKept q n (execRecDmaent i inl w s) := by
  unfold execRecDmaent
  with_reducible repeat' first | assumption | refine out_next ?_ | refine res_go ?_ | refine res_done ?_ | refine res_gone ?_ | exact res_fault | exact res_wait | apply State.act_kept | apply wDmaent_kept | intro _ | refine kept_mk ?_

theorem execRecTstart_kept (i : Fin 24) (inl : Bool) (w : ActWord) {s : State} (hk : s.kept q n) :
    outKept q n (execRecTstart i inl w s) := by
  unfold execRecTstart
  with_reducible repeat' first | assumption | refine out_next ?_ | refine res_go ?_ | refine res_done ?_ | refine res_gone ?_ | exact res_fault | exact res_wait | apply State.act_kept | apply State.fault_kept | apply State.mapEng_kept | intro _ | refine kept_ite ?_ ?_ | refine out_ite ?_ ?_ | refine res_ite ?_ ?_ | refine kept_mk ?_

theorem execRecTstop_kept (i : Fin 24) (inl : Bool) (w : ActWord) {s : State} (hk : s.kept q n) :
    outKept q n (execRecTstop i inl w s) := by
  unfold execRecTstop
  with_reducible repeat' first | assumption | refine out_next ?_ | refine res_go ?_ | refine res_done ?_ | refine res_gone ?_ | exact res_fault | exact res_wait | apply State.act_kept | apply State.mapEng_kept | intro _ | refine kept_mk ?_

theorem execRecGtime_kept (i : Fin 24) (inl : Bool) (w : ActWord) (lag : Fin 5) {s : State} (hk : s.kept q n) :
    outKept q n (execRecGtime i inl w lag s) := by
  unfold execRecGtime
  with_reducible repeat' first | assumption | refine out_next ?_ | refine res_go ?_ | refine res_done ?_ | refine res_gone ?_ | exact res_fault | exact res_wait | apply State.act_kept | apply State.fault_kept | intro _ | refine kept_ite ?_ ?_ | refine out_ite ?_ ?_ | refine res_ite ?_ ?_ | split | refine fst_kept (by assumption) ?_ | refine snd_kept (by assumption) ?_ | refine opt_kept (by assumption) ?_ | refine kept_mk ?_

theorem wHkput_kept (x0 : Nat) (x1 : Bool) (x2 : ActWord) {x3 : State} (x4 : Recipe) (x5 : ActCtx) (hk : x3.kept q n) :
    resKept q n (wHkput x0 x1 x2 x3 x4 x5) := by
  unfold wHkput
  with_reducible repeat' first | assumption | refine res_go ?_ | refine res_done ?_ | refine res_gone ?_ | exact res_fault | exact res_wait | apply State.fault_kept | apply State.hkPut_kept | intro _ | refine kept_ite ?_ ?_ | refine res_ite ?_ ?_ | split | refine fst_kept (by assumption) ?_ | refine snd_kept (by assumption) ?_ | refine opt_kept (by assumption) ?_ | refine kept_mk ?_

theorem wHkget_kept {s : State} (i : Nat) (inl : Bool) (w : ActWord) (r : Recipe) (c : ActCtx) (h : s.kept q n) :
    resKept q n (wHkget i inl w s r c) := by
  unfold wHkget
  split
  · exact trivial
  · split
    · next v t ht => exact res_go (State.hkGet_kept _ _ h ht)
    · exact trivial

theorem execRecHkput_kept (i : Fin 24) (inl : Bool) (w : ActWord) {s : State} (hk : s.kept q n) :
    outKept q n (execRecHkput i inl w s) := by
  unfold execRecHkput
  with_reducible repeat' first | assumption | refine out_next ?_ | refine res_go ?_ | refine res_done ?_ | refine res_gone ?_ | exact res_fault | exact res_wait | apply State.act_kept | apply wHkput_kept | intro _ | refine kept_mk ?_

theorem execRecHkget_kept (i : Fin 24) (inl : Bool) (w : ActWord) {s : State} (hk : s.kept q n) :
    outKept q n (execRecHkget i inl w s) := by
  unfold execRecHkget
  with_reducible repeat' first | assumption | refine out_next ?_ | refine res_go ?_ | refine res_done ?_ | refine res_gone ?_ | exact res_fault | exact res_wait | apply State.act_kept | apply wHkget_kept | intro _ | refine kept_mk ?_

theorem execRecMbpost_kept (i : Fin 24) (inl : Bool) (w : ActWord) {s : State} (hk : s.kept q n) :
    outKept q n (execRecMbpost i inl w s) := by
  unfold execRecMbpost
  with_reducible repeat' first | assumption | refine out_next ?_ | refine res_go ?_ | refine res_done ?_ | refine res_gone ?_ | exact res_fault | exact res_wait | apply State.act_kept | apply State.fault_kept | apply State.mbxPost_kept | intro _ | refine kept_ite ?_ ?_ | refine out_ite ?_ ?_ | refine res_ite ?_ ?_ | refine kept_mk ?_

theorem execRecBell_kept (i : Fin 24) (inl : Bool) (w : ActWord) {s : State} (hk : s.kept q n) :
    outKept q n (execRecBell i inl w s) := by
  unfold execRecBell
  with_reducible repeat' first | assumption | refine out_next ?_ | refine res_go ?_ | refine res_done ?_ | refine res_gone ?_ | exact res_fault | exact res_wait | apply State.act_kept | apply State.fault_kept | apply State.mbxRing_kept | intro _ | refine kept_ite ?_ ?_ | refine out_ite ?_ ?_ | refine res_ite ?_ ?_ | refine kept_mk ?_

theorem waitBody_kept {s : State} (op i : Nat) (inl : Bool) (w : ActWord) (r : Recipe) (c : ActCtx) (h : s.kept q n) :
    resKept q n (waitBody op i inl w s r c) := by
  unfold waitBody
  split
  · exact wTxeth_kept _ _ _ _ _ h
  · exact wTxcan_kept _ _ _ _ _ h
  · exact wTxstitch_kept _ _ _ _ _ h
  · exact wTxcol_kept _ _ _ _ _ h
  · exact wTxinl_kept _ _ _ _ _ h
  · exact wDmawr_kept _ _ _ _ _ h
  · exact wDmard_kept _ _ _ _ _ h
  · exact wDmaent_kept _ _ _ _ _ h
  · exact wHkput_kept _ _ _ _ _ h
  · exact wHkget_kept _ _ _ _ _ h
  · exact trivial

theorem execActWaitEnd_kept (i : Fin 24) (inl : Bool) {s : State} (hk : s.kept q n) :
    outKept q n (execActWaitEnd i inl s) := by
  unfold execActWaitEnd
  with_reducible repeat' first | assumption | refine out_next ?_ | apply State.actEnd_kept | apply waitBody_kept | (fail_if_no_progress (extract_lets +onlyGivenNames x); first | (refine kept_bind (q := q) (n := n) (x := x) ?_ (fun _ => ?_); on_goal 2 => clear_value x; on_goal 1 => unfold x) | skip) | split | refine fst_kept (by assumption) ?_ | refine snd_kept (by assumption) ?_ | refine opt_kept (by assumption) ?_ | refine kept_mk ?_

end Sys2Proof.Machine
end

