-- ==== Sys2Proof/Laws/KeptLarder.lean ====
section
/-! SUPPORT. What the definitions of Machine/Larder.lean keep: the queue, the time, the canonical form of memory and registers, and that at
most one half is in CHARGE. -/

set_option linter.unreachableTactic false
set_option linter.unusedTactic false
set_option linter.unusedVariables false

namespace Sys2Proof.Machine
open Sys2Proof

variable {q : List Instr} {n : Nat}

theorem State.trainOk_kept {s : State} (x1 : Half) (hk : s.kept q n) :
    (State.trainOk s x1).kept q n := by
  unfold State.trainOk
  with_reducible repeat' first | assumption | apply State.portEnters_kept | apply State.portLost_kept | apply State.putDram_kept | apply State.setf_kept | refine kept_ite ?_ ?_ | refine kept_mk ?_

theorem execDramTrainingDone_kept (x0 : Half) (ok : Bool) {s : State} (hk : s.kept q n) :
    outKept q n (execDramTrainingDone x0 ok s) := by
  unfold execDramTrainingDone
  with_reducible repeat' first | assumption | refine out_next ?_ | apply State.fault_kept | apply State.padLeave_kept | apply State.portLeaves_kept | apply State.setf_kept | apply State.trainOk_kept | refine kept_ite ?_ ?_ | refine out_ite ?_ ?_ | refine kept_mk ?_

theorem execDramClearDone_kept (x0 : Half) {s : State} (hk : s.kept q n) :
    outKept q n (execDramClearDone x0 s) := by
  unfold execDramClearDone
  with_reducible repeat' first | assumption | refine out_next ?_ | apply State.putDram_kept | refine kept_ite ?_ ?_ | refine out_ite ?_ ?_ | refine kept_mk ?_

theorem State.divergence_kept {s : State} (a : Nat) (auth : List Byte) (other : List Byte) (hk : s.kept q n) :
    (State.divergence s a auth other).kept q n := by
  unfold State.divergence
  with_reducible repeat' first | assumption | apply State.larderEvent_kept | apply foldl_kept | intro _ | refine kept_ite ?_ ?_ | refine kept_mk ?_

theorem State.audit_kept {s : State} (off : Nat) (hk : s.kept q n) :
    (State.audit s off).kept q n := by
  unfold State.audit
  with_reducible repeat' first | assumption | apply State.divergence_kept | apply State.faultD_kept | apply State.inc_kept | apply State.putbs_kept | apply State.setf_kept | refine kept_ite ?_ ?_ | split | refine fst_kept (by assumption) ?_ | refine snd_kept (by assumption) ?_ | refine opt_kept (by assumption) ?_ | refine kept_mk ?_

theorem State.patrolBlock_kept {s : State} (x1 : Half) (e : Ecc) (other : Ecc) (hk : s.kept q n) :
    (State.patrolBlock s x1 e other).kept q n := by
  unfold State.patrolBlock
  with_reducible repeat' first | assumption | apply State.audit_kept | apply State.dramCorrected_kept | apply State.dramDouble_kept | apply State.incMod_kept | apply State.putDram_kept | apply State.putbs_kept | refine kept_ite ?_ ?_ | split | refine fst_kept (by assumption) ?_ | refine snd_kept (by assumption) ?_ | refine opt_kept (by assumption) ?_ | refine kept_mk ?_

theorem execPatrolBlock_kept (x0 : Half) (ecc : Ecc) (mirrorEcc : Ecc) {s : State} (hk : s.kept q n) :
    outKept q n (execPatrolBlock x0 ecc mirrorEcc s) := by
  unfold execPatrolBlock
  with_reducible repeat' first | assumption | refine out_next ?_ | apply State.patrolBlock_kept | refine kept_ite ?_ ?_ | refine out_ite ?_ ?_ | refine kept_mk ?_

theorem execResilverDone_kept {s : State} (hk : s.kept q n) :
    outKept q n (execResilverDone s) := by
  unfold execResilverDone
  with_reducible repeat' first | assumption | refine out_next ?_ | apply State.copyRange_kept | apply State.putDram_kept | apply State.setMirror_kept | refine kept_ite ?_ ?_ | refine out_ite ?_ ?_ | refine kept_mk ?_

theorem State.dramCtrlWrite_kept {s : State} (m : Nat) (x2 : Half) (v : Word) (hk : s.kept q n) :
    (State.dramCtrlWrite s m x2 v).kept q n := by
  unfold State.dramCtrlWrite
  with_reducible repeat' first | assumption | apply State.guardReg_kept | apply State.plainWrite_kept | apply State.portEnters_kept | apply State.portLeaves_kept | intro _ | refine kept_ite ?_ ?_ | refine kept_mk ?_

theorem State.dramCfgWrite_kept {s : State} (m : Nat) (x2 : Half) (v : Word) (hk : s.kept q n) :
    (State.dramCfgWrite s m x2 v).kept q n := by
  unfold State.dramCfgWrite
  with_reducible repeat' first | assumption | apply State.busErr_kept | apply State.guardReg_kept | apply State.plainWrite_kept | apply State.setf_kept | intro _ | refine kept_ite ?_ ?_ | split | refine fst_kept (by assumption) ?_ | refine snd_kept (by assumption) ?_ | refine opt_kept (by assumption) ?_ | refine kept_mk ?_

theorem State.dramMirrorWrite_kept {s : State} (m : Nat) (x2 : Half) (v : Word) (hk : s.kept q n) :
    (State.dramMirrorWrite s m x2 v).kept q n := by
  unfold State.dramMirrorWrite
  with_reducible repeat' first | assumption | apply State.busErr_kept | apply State.guardReg_kept | apply State.putDram_kept | apply State.setMirror_kept | apply State.setf_kept | intro _ | refine kept_ite ?_ ?_ | refine kept_mk ?_

theorem State.larderCtrlWrite_kept {s : State} (m : Nat) (v : Word) (hk : s.kept q n) :
    (State.larderCtrlWrite s m v).kept q n := by
  unfold State.larderCtrlWrite
  with_reducible repeat' first | assumption | apply State.guardReg_kept | apply State.setf_kept | intro _ | refine kept_ite ?_ ?_ | refine kept_mk ?_

theorem execLarderEnable_kept (m : Byte) (v : Word) {s : State} (hk : s.kept q n) :
    outKept q n (execLarderEnable m v s) := by
  unfold execLarderEnable
  with_reducible repeat' first | assumption | refine out_next ?_ | apply State.larderCtrlWrite_kept | refine kept_mk ?_

theorem State.readTag_kept {s : State} (x1 : Half) (off : Nat) (hk : s.kept q n) :
    (State.readTag s x1 off).1.kept q n := by
  unfold State.readTag
  with_reducible repeat' first | assumption | apply State.larderEvent_kept | apply State.ok_kept | apply State.spadPort_kept | (fail_if_no_progress (extract_lets +onlyGivenNames x); first | (refine kept_bind (q := q) (n := n) (x := x) ?_ (fun _ => ?_); on_goal 2 => clear_value x; on_goal 1 => unfold x) | skip) | intro _ | refine kept_ite ?_ ?_ | split | refine fst_kept (by assumption) ?_ | refine snd_kept (by assumption) ?_ | refine opt_kept (by assumption) ?_ | refine kept_mk ?_

theorem State.readTags_kept {s : State} (x : Half) (offs : List Nat) (h : s.kept q n) :
    (s.readTags x offs).1.kept q n := by
  induction offs generalizing s with
  | nil => exact h
  | cons o os ih =>
    unfold State.readTags
    dsimp only
    exact ih (State.readTag_kept x o h)

theorem State.snapEcc_kept {s : State} (eccs : List (BitVec 40 × Ecc)) (ws : List (Option Nat)) (bs : List Byte) (h : s.kept q n) :
    (s.snapEcc eccs ws bs).1.kept q n := by
  induction ws generalizing s bs with
  | nil => exact h
  | cons w ws ih =>
    unfold State.snapEcc
    dsimp only
    refine ih _ ?_
    split
    · exact State.spadSingle_kept _ _ _ h
    · exact State.larderEvent_kept _ _ _ _ _ (State.spadDouble_kept _ _ _ h)
    · exact h

theorem State.snapTrigger_kept {s : State} (k : Nat) (j : SnapJob) (hk : s.kept q n) :
    (State.snapTrigger s k j).kept q n := by
  unfold State.snapTrigger
  with_reducible repeat' first | assumption | apply State.inc_kept | refine kept_ite ?_ ?_ | split | refine fst_kept (by assumption) ?_ | refine snd_kept (by assumption) ?_ | refine opt_kept (by assumption) ?_ | refine kept_mk ?_

theorem execLarderSnapshotTrigger_kept {s : State} (hk : s.kept q n) :
    outKept q n (execLarderSnapshotTrigger s) := by
  unfold execLarderSnapshotTrigger
  with_reducible repeat' first | assumption | refine out_next ?_ | apply State.readTags_kept | apply State.snapTrigger_kept | intro _ | refine kept_ite ?_ ?_ | refine out_ite ?_ ?_ | split | refine fst_kept (by assumption) ?_ | refine snd_kept (by assumption) ?_ | refine opt_kept (by assumption) ?_ | refine kept_mk ?_

theorem State.putPages_kept {s : State} (k : Nat) (st : Nat) (j : SnapJob) (seq : Nat) (frozen : Bool) (hk : s.kept q n) :
    (State.putPages s k st j seq frozen).kept q n := by
  unfold State.putPages
  with_reducible repeat' first | assumption | apply State.larderPut_kept | apply foldl_kept | intro _ | refine kept_ite ?_ ?_ | refine kept_mk ?_

theorem State.snapWrite_kept {s : State} (k : Nat) (hk : s.kept q n) :
    (State.snapWrite s k).kept q n := by
  unfold State.snapWrite
  with_reducible repeat' first | assumption | apply State.inc_kept | apply State.putPages_kept | intro _ | refine kept_ite ?_ ?_ | split | refine fst_kept (by assumption) ?_ | refine snd_kept (by assumption) ?_ | refine opt_kept (by assumption) ?_ | refine kept_mk ?_

theorem State.tagErrors_kept {s : State} (k : Nat) (eccs : List (BitVec 40 × Ecc)) (h : s.kept q n) :
    (s.tagErrors k eccs).kept q n := by
  unfold State.tagErrors
  split
  · exact h
  · exact kept_mk (State.snapEcc_kept eccs _ _ h)

theorem execLarderSnapshotDone_kept (d : SnapDone) {s : State} (hk : s.kept q n) :
    outKept q n (execLarderSnapshotDone d s) := by
  unfold execLarderSnapshotDone
  refine out_next (State.snapWrite_kept _ (kept_ite ?_ ?_))
  · exact hk
  · exact State.tagErrors_kept _ _ hk

theorem State.evtWrite_kept {s : State} (hk : s.kept q n) :
    (State.evtWrite s).kept q n := by
  unfold State.evtWrite
  with_reducible repeat' first | assumption | apply State.inc_kept | apply State.larderPut_kept | apply State.setf_kept | intro _ | refine kept_ite ?_ ?_ | split | refine fst_kept (by assumption) ?_ | refine snd_kept (by assumption) ?_ | refine opt_kept (by assumption) ?_ | refine kept_mk ?_

theorem execLarderEventWrite_kept (drop : Bool) {s : State} (hk : s.kept q n) :
    outKept q n (execLarderEventWrite drop s) := by
  unfold execLarderEventWrite
  with_reducible repeat' first | assumption | refine out_next ?_ | apply State.evtWrite_kept | apply State.inc_kept | refine kept_ite ?_ ?_ | refine out_ite ?_ ?_ | refine kept_mk ?_

theorem execFreezePin_kept {s : State} (hk : s.kept q n) :
    outKept q n (execFreezePin s) := by
  unfold execFreezePin
  with_reducible repeat' first | assumption | refine out_next ?_ | apply State.freezeTrigger_kept | refine kept_ite ?_ ?_ | refine out_ite ?_ ?_ | refine kept_mk ?_

theorem State.freezeRelease_kept {s : State} (hk : s.kept q n) :
    (State.freezeRelease s).kept q n := by
  unfold State.freezeRelease
  with_reducible repeat' first | assumption | apply State.setf_kept | refine kept_mk ?_

end Sys2Proof.Machine
end

