-- ==== Sys2Proof/Laws/KeptRecipe.lean ====
section
/-! SUPPORT. What the definitions of Machine/Recipe.lean keep: the queue, the time, the canonical form of memory and registers, and that at
most one half is in CHARGE. -/

set_option linter.unreachableTactic false
set_option linter.unusedTactic false
set_option linter.unusedVariables false

namespace Sys2Proof.Machine
open Sys2Proof

variable {q : List Instr} {n : Nat}

theorem State.neClear_kept {s : State} (i : Nat) (hk : s.kept q n) :
    (State.neClear s i).kept q n := by
  unfold State.neClear
  with_reducible repeat' first | assumption | apply State.clearMem_kept | apply State.mapEng_kept | intro _ | refine kept_mk ?_

theorem State.neClearRecipe_kept {s : State} (i : Nat) (hk : s.kept q n) :
    (State.neClearRecipe s i).kept q n := by
  unfold State.neClearRecipe
  with_reducible repeat' first | assumption | apply State.clearMem_kept | refine kept_mk ?_

theorem State.neInstall_kept {s : State} (i : Nat) (img : List Byte) (hk : s.kept q n) :
    (State.neInstall s i img).kept q n := by
  unfold State.neInstall
  with_reducible repeat' first | assumption | apply State.neClear_kept | apply State.neClearRecipe_kept | apply State.putN_kept | apply foldl_kept | intro _ | refine kept_mk ?_

theorem State.loadReply_kept {s : State} (l : Load) (status : Nat) (hk : s.kept q n) :
    (State.loadReply s l status).kept q n := by
  unfold State.loadReply
  with_reducible repeat' first | assumption | apply State.finish_kept | split | refine fst_kept (by assumption) ?_ | refine snd_kept (by assumption) ?_ | refine opt_kept (by assumption) ?_ | refine kept_mk ?_

theorem execRecipeVerifyDone_kept (i : Fin 24) {s : State} (hk : s.kept q n) :
    outKept q n (execRecipeVerifyDone i s) := by
  unfold execRecipeVerifyDone
  with_reducible repeat' first | assumption | refine out_next ?_ | refine res_go ?_ | refine res_done ?_ | refine res_gone ?_ | exact res_fault | exact res_wait | apply State.finish_kept | apply State.mapEng_kept | apply State.neClear_kept | apply State.putKcmd_kept | apply State.setf_kept | (fail_if_no_progress (extract_lets +onlyGivenNames x); first | (refine kept_bind (q := q) (n := n) (x := x) ?_ (fun _ => ?_); on_goal 2 => clear_value x; on_goal 1 => unfold x) | skip) | intro _ | refine kept_ite ?_ ?_ | refine out_ite ?_ ?_ | refine res_ite ?_ ?_ | split | refine fst_kept (by assumption) ?_ | refine snd_kept (by assumption) ?_ | refine opt_kept (by assumption) ?_ | refine kept_mk ?_

theorem execRecipeValidated_kept (i : Fin 24) {s : State} (hk : s.kept q n) :
    outKept q n (execRecipeValidated i s) := by
  unfold execRecipeValidated
  with_reducible repeat' first | assumption | refine out_next ?_ | refine res_go ?_ | refine res_done ?_ | refine res_gone ?_ | exact res_fault | exact res_wait | apply State.loadReply_kept | apply State.mapEng_kept | apply State.neClear_kept | apply State.neClearRecipe_kept | apply State.neInstall_kept | apply State.setf_kept | apply State.wr_kept | apply State.wrn_kept | (fail_if_no_progress (extract_lets +onlyGivenNames x); first | (refine kept_bind (q := q) (n := n) (x := x) ?_ (fun _ => ?_); on_goal 2 => clear_value x; on_goal 1 => unfold x) | skip) | intro _ | refine kept_ite ?_ ?_ | refine out_ite ?_ ?_ | refine res_ite ?_ ?_ | split | refine fst_kept (by assumption) ?_ | refine snd_kept (by assumption) ?_ | refine opt_kept (by assumption) ?_ | refine kept_mk ?_

end Sys2Proof.Machine
end

