-- ==== Sys2Proof/Laws/KeptTwin.lean ====
section
/-! SUPPORT. What the definitions of Machine/Twin.lean keep: the queue, the time, the canonical form of memory and registers, and that at
most one half is in CHARGE. -/

set_option linter.unreachableTactic false
set_option linter.unusedTactic false
set_option linter.unusedVariables false

namespace Sys2Proof.Machine
open Sys2Proof

variable {q : List Instr} {n : Nat}

theorem State.twinTake_kept {s : State} (hk : s.kept q n) :
    (State.twinTake s).kept q n := by
  unfold State.twinTake
  with_reducible repeat' first | assumption | apply State.releaseDue_kept | apply State.setf_kept | refine kept_ite ?_ ?_ | refine kept_mk ?_

theorem State.twinStandby_kept {s : State} (hk : s.kept q n) :
    (State.twinStandby s).kept q n := by
  unfold State.twinStandby
  with_reducible repeat' first | assumption | apply State.setf_kept | refine kept_mk ?_

theorem State.peerLevel_kept {s : State} (high : Bool) (hk : s.kept q n) :
    (State.peerLevel s high).kept q n := by
  unfold State.peerLevel
  with_reducible repeat' first | assumption | apply State.setb_kept | refine kept_ite ?_ ?_ | refine kept_mk ?_

theorem State.twinCastOn_kept {s : State} (hk : s.kept q n) :
    (State.twinCastOn s).kept q n := by
  unfold State.twinCastOn
  with_reducible repeat' first | assumption | apply State.twinTake_kept | refine kept_ite ?_ ?_ | split | refine fst_kept (by assumption) ?_ | refine snd_kept (by assumption) ?_ | refine opt_kept (by assumption) ?_ | refine kept_mk ?_

theorem execTwinHeartbeatSend_kept {s : State} (hk : s.kept q n) :
    outKept q n (execTwinHeartbeatSend s) := by
  unfold execTwinHeartbeatSend
  with_reducible repeat' first | assumption | refine out_next ?_ | apply State.emit_kept | apply State.twinCastOn_kept | refine kept_ite ?_ ?_ | refine out_ite ?_ ?_ | refine kept_mk ?_

theorem execTwinHeartbeatReceive_kept (idx : Fin 2) (cand : Bool) (holds : Bool) (peer : Bool) {s : State} (hk : s.kept q n) :
    outKept q n (execTwinHeartbeatReceive idx cand holds peer s) := by
  unfold execTwinHeartbeatReceive
  with_reducible repeat' first | assumption | refine out_next ?_ | apply State.fault_kept | apply State.peerLevel_kept | apply State.setf_kept | apply State.twinStandby_kept | apply State.twinTake_kept | refine kept_ite ?_ ?_ | refine out_ite ?_ ?_ | refine kept_mk ?_

theorem execTwinHeartbeatTimeout_kept (peer : Bool) {s : State} (hk : s.kept q n) :
    outKept q n (execTwinHeartbeatTimeout peer s) := by
  unfold execTwinHeartbeatTimeout
  with_reducible repeat' first | assumption | refine out_next ?_ | apply State.fault_kept | apply State.peerLevel_kept | apply State.setf_kept | apply State.twinTake_kept | refine kept_ite ?_ ?_ | refine out_ite ?_ ?_ | refine kept_mk ?_

theorem execTwinPeerLow_kept {s : State} (hk : s.kept q n) :
    outKept q n (execTwinPeerLow s) := by
  unfold execTwinPeerLow
  with_reducible repeat' first | assumption | refine out_next ?_ | apply State.peerLevel_kept | apply State.twinTake_kept | refine kept_ite ?_ ?_ | refine out_ite ?_ ?_ | refine kept_mk ?_

end Sys2Proof.Machine
end

