-- ==== Sys2Proof/Laws/KeptView.lean ====
section
/-! SUPPORT. What the definitions of Machine/View.lean keep: the queue, the time, the canonical form of memory and registers, and that at
most one half is in CHARGE. -/

set_option linter.unreachableTactic false
set_option linter.unusedTactic false
set_option linter.unusedVariables false

namespace Sys2Proof.Machine
open Sys2Proof

variable {q : List Instr} {n : Nat}

theorem State.regRead_kept {s : State} (m : Nat) (a : Nat) (hk : s.kept q n) :
    (State.regRead s m a).kept q n := by
  unfold State.regRead
  with_reducible repeat' first | assumption | apply State.busErr_kept | apply State.domRead_kept | apply State.hkRxfRead_kept | apply State.lockReads_kept | apply State.ok_kept | apply State.rawRead_kept | refine kept_ite ?_ ?_ | split | refine fst_kept (by assumption) ?_ | refine snd_kept (by assumption) ?_ | refine opt_kept (by assumption) ?_ | refine kept_mk ?_

end Sys2Proof.Machine
end

