-- ==== Sys2Proof/Laws/KeptRegAccess.lean ====
section
/-! SUPPORT. What the definitions of Machine/RegAccess.lean keep: the queue, the time, the canonical form of memory and registers, and that at
most one half is in CHARGE. -/

set_option linter.unreachableTactic false
set_option linter.unusedTactic false
set_option linter.unusedVariables false

namespace Sys2Proof.Machine
open Sys2Proof

variable {q : List Instr} {n : Nat}

theorem State.fieldsWrite_kept {s : State} (m : Nat) (a : Nat) (v : Word) (hk : s.kept q n) :
    (State.fieldsWrite s m a v).kept q n := by
  unfold State.fieldsWrite
  with_reducible repeat' first | assumption | apply State.guardReg_kept | apply State.plainWrite_kept | intro _ | refine kept_mk ?_

theorem State.clampWrite_kept {s : State} (m : Nat) (a : Nat) (v : Word) (f : Fld) (lo : Nat) (hi : Nat) (hk : s.kept q n) :
    (State.clampWrite s m a v f lo hi).kept q n := by
  unfold State.clampWrite
  with_reducible repeat' first | assumption | apply State.guardReg_kept | apply State.plainWrite_kept | apply State.setf_kept | intro _ | refine kept_mk ?_

theorem State.trivetWrite_kept {s : State} (m : Nat) (a : Nat) (v : Word) (hk : s.kept q n) :
    (State.trivetWrite s m a v).kept q n := by
  unfold State.trivetWrite
  with_reducible repeat' first | assumption | apply State.busErr_kept | apply State.guardReg_kept | apply State.plainWrite_kept | intro _ | refine kept_ite ?_ ?_ | refine kept_mk ?_

theorem State.colCtrlGuard_kept {s : State} (m : Nat) (v : Word) (hk : s.kept q n) :
    (State.colCtrlGuard s m v).kept q n := by
  unfold State.colCtrlGuard
  with_reducible repeat' first | assumption | apply State.colCtrlWrite_kept | refine kept_ite ?_ ?_ | refine kept_mk ?_

theorem State.colPortWrite_kept {s : State} (m : Nat) (x2 : Nat) (a : Nat) (v : Word) (hk : s.kept q n) :
    (State.colPortWrite s m x2 a v).kept q n := by
  unfold State.colPortWrite
  with_reducible repeat' first | assumption | apply State.busErr_kept | apply State.guardReg_kept | apply State.plainWrite_kept | intro _ | refine kept_ite ?_ ?_ | refine kept_mk ?_

theorem State.swpCfgWrite_kept {s : State} (m : Nat) (a : Nat) (v : Word) (hk : s.kept q n) :
    (State.swpCfgWrite s m a v).kept q n := by
  unfold State.swpCfgWrite
  with_reducible repeat' first | assumption | apply State.guardReg_kept | apply State.plainWrite_kept | apply State.setf_kept | intro _ | refine kept_ite ?_ ?_ | refine kept_mk ?_

theorem State.tableWrite_kept {s : State} (m : Nat) (a : Nat) (v : Word) (hk : s.kept q n) :
    (State.tableWrite s m a v).kept q n := by
  unfold State.tableWrite
  with_reducible repeat' first | assumption | apply State.guardReg_kept | apply State.noteBefore_kept | apply State.plainWrite_kept | intro _ | refine kept_mk ?_

theorem State.gateEntryWrite_kept {s : State} (m : Nat) (a : Nat) (i : List Nat) (v : Word) (hk : s.kept q n) :
    (State.gateEntryWrite s m a i v).kept q n := by
  unfold State.gateEntryWrite
  with_reducible repeat' first | assumption | apply State.busErr_kept | apply State.guardReg_kept | apply State.plainWrite_kept | intro _ | refine kept_ite ?_ ?_ | refine kept_mk ?_

theorem State.cmpCtrlWrite_kept {s : State} (m : Nat) (k : Nat) (v : Word) (hk : s.kept q n) :
    (State.cmpCtrlWrite s m k v).kept q n := by
  unfold State.cmpCtrlWrite
  with_reducible repeat' first | assumption | apply State.cancelHandover_kept | apply State.guardReg_kept | apply State.noteBefore_kept | apply State.plainWrite_kept | intro _ | refine kept_ite ?_ ?_ | refine kept_mk ?_

theorem State.ppsCtrlWrite_kept {s : State} (m : Nat) (j : Nat) (v : Word) (hk : s.kept q n) :
    (State.ppsCtrlWrite s m j v).kept q n := by
  unfold State.ppsCtrlWrite
  with_reducible repeat' first | assumption | apply State.guardReg_kept | apply State.plainWrite_kept | apply State.setf_kept | intro _ | refine kept_ite ?_ ?_ | refine kept_mk ?_

theorem State.tscCtrlWrite_kept {s : State} (m : Nat) (x2 : Nat) (v : Word) (hk : s.kept q n) :
    (State.tscCtrlWrite s m x2 v).kept q n := by
  unfold State.tscCtrlWrite
  with_reducible repeat' first | assumption | apply State.guardReg_kept | apply State.plainWrite_kept | apply State.tscChange_kept | intro _ | refine kept_ite ?_ ?_ | refine kept_mk ?_

theorem State.tscAdjWrite_kept {s : State} (m : Nat) (x2 : Nat) (v : Word) (hk : s.kept q n) :
    (State.tscAdjWrite s m x2 v).kept q n := by
  unfold State.tscAdjWrite
  with_reducible repeat' first | assumption | apply State.guardReg_kept | apply State.plainWrite_kept | apply State.tscChange_kept | intro _ | refine kept_mk ?_

theorem State.hiClrWrite_kept {s : State} (m : Nat) (x2 : Nat) (v : Word) (raised : Bool) (hk : s.kept q n) :
    (State.hiClrWrite s m x2 v raised).kept q n := by
  unfold State.hiClrWrite
  with_reducible repeat' first | assumption | apply State.guardReg_kept | apply State.wr_kept | intro _ | refine kept_ite ?_ ?_ | refine kept_mk ?_

theorem State.qhCfgWrite_kept {s : State} (m : Nat) (x2 : Half) (v : Word) (hk : s.kept q n) :
    (State.qhCfgWrite s m x2 v).kept q n := by
  unfold State.qhCfgWrite
  with_reducible repeat' first | assumption | apply State.busErr_kept | apply State.ok_kept | apply State.setb_kept | apply State.setf_kept | apply State.transportDown_kept | apply State.transportUp_kept | refine kept_ite ?_ ?_ | split | refine fst_kept (by assumption) ?_ | refine snd_kept (by assumption) ?_ | refine opt_kept (by assumption) ?_ | refine kept_mk ?_

theorem State.kcpDbWrite_kept {s : State} (m : Nat) (x2 : Nat) (v : Word) (hk : s.kept q n) :
    (State.kcpDbWrite s m x2 v).kept q n := by
  unfold State.kcpDbWrite
  with_reducible repeat' first | assumption | apply State.guardReg_kept | apply State.inc_kept | apply State.wrn_kept | apply foldl_kept | intro _ | refine kept_ite ?_ ?_ | split | refine fst_kept (by assumption) ?_ | refine snd_kept (by assumption) ?_ | refine opt_kept (by assumption) ?_ | refine kept_mk ?_

theorem State.writeSys_kept {s : State} (m : Nat) (a : Nat) (b : Nat) (i : List Nat) (v : Word) (hk : s.kept q n) :
    (State.writeSys s m a b i v).kept q n := by
  unfold State.writeSys
  with_reducible repeat' first | assumption | apply State.busErrClear_kept | apply State.busErrCount_kept | apply State.clampWrite_kept | apply State.colCtrlGuard_kept | apply State.colPortWrite_kept | apply State.colStreamWrite_kept | apply State.colSubWrite_kept | apply State.fieldsWrite_kept | apply State.guardReg_kept | apply State.iaCtrlWrite_kept | apply State.mode6412Write_kept | apply State.pwrTempWrite_kept | apply State.rstReleaseWrite_kept | apply State.tenAppWrite_kept | intro _ | refine kept_ite ?_ ?_ | refine kept_mk ?_

theorem State.writePort_kept {s : State} (m : Nat) (a : Nat) (b : Nat) (i : List Nat) (v : Word) (hk : s.kept q n) :
    (State.writePort s m a b i v).kept q n := by
  unfold State.writePort
  with_reducible repeat' first | assumption | apply State.bufLowWrite_kept | apply State.clampWrite_kept | apply State.fieldsWrite_kept | apply State.gateCtrlWrite_kept | apply State.gateEntryWrite_kept | apply State.macCtrlWrite_kept | apply State.perCtrlWrite_kept | apply State.rgCtrlWrite_kept | apply State.sdCtrlWrite_kept | apply State.swpCfgWrite_kept | apply State.tableWrite_kept | apply State.tlCtrlWrite_kept | refine kept_ite ?_ ?_ | refine kept_mk ?_

theorem State.writeCxHk_kept {s : State} (m : Nat) (a : Nat) (b : Nat) (i : List Nat) (v : Word) (hk : s.kept q n) :
    (State.writeCxHk s m a b i v).kept q n := by
  unfold State.writeCxHk
  with_reducible repeat' first | assumption | apply State.cxCtrlWrite_kept | apply State.cxTimingWrite_kept | apply State.dttCtrlWrite_kept | apply State.dttOffWrite_kept | apply State.fieldsWrite_kept | apply State.hkCtrlWrite_kept | apply State.hkPinsWrite_kept | apply State.hkProgWrite_kept | apply State.hkStoppedWrite_kept | apply State.hkTxfWrite_kept | apply State.hookPinWrite_kept | apply State.tableWrite_kept | refine kept_ite ?_ ?_ | refine kept_mk ?_

theorem State.writeUnit_kept {s : State} (m : Nat) (a : Nat) (b : Nat) (i : List Nat) (v : Word) (hk : s.kept q n) :
    (State.writeUnit s m a b i v).kept q n := by
  unfold State.writeUnit
  with_reducible repeat' first | assumption | apply State.bankOwnerWrite_kept | apply State.clampWrite_kept | apply State.dramCfgWrite_kept | apply State.dramCtrlWrite_kept | apply State.dramMirrorWrite_kept | apply State.fieldsWrite_kept | apply State.hiClrWrite_kept | apply State.kcpDbWrite_kept | apply State.neBellWrite_kept | apply State.neBindWrite_kept | apply State.neCtrlWrite_kept | apply State.neInlWrite_kept | apply State.neLatWrite_kept | apply State.neLimitsWrite_kept | apply State.neMaskWrite_kept | apply State.qhCfgWrite_kept | apply State.tableWrite_kept | refine kept_ite ?_ ?_ | refine kept_mk ?_

theorem State.writeGauge_kept {s : State} (m : Nat) (a : Nat) (b : Nat) (i : List Nat) (v : Word) (hk : s.kept q n) :
    (State.writeGauge s m a b i v).kept q n := by
  unfold State.writeGauge
  with_reducible repeat' first | assumption | apply State.cmpCtrlWrite_kept | apply State.convHi_kept | apply State.convLo_kept | apply State.domCfgWrite_kept | apply State.domCtrlWrite_kept | apply State.fieldsWrite_kept | apply State.gaugeRefWrite_kept | apply State.lockWrite_kept | apply State.mbxBindLockWrite_kept | apply State.mbxBindWrite_kept | apply State.mbxDbWrite_kept | apply State.mbxMsgWrite_kept | apply State.mbxStatusWrite_kept | apply State.ppsCtrlWrite_kept | apply State.stageWrite_kept | apply State.tableWrite_kept | apply State.tscAdjWrite_kept | apply State.tscCtrlWrite_kept | refine kept_ite ?_ ?_ | refine kept_mk ?_

theorem State.writeAon_kept {s : State} (m : Nat) (a : Nat) (b : Nat) (i : List Nat) (v : Word) (hk : s.kept q n) :
    (State.writeAon s m a b i v).kept q n := by
  unfold State.writeAon
  with_reducible repeat' first | assumption | apply State.clampWrite_kept | apply State.falseClrWrite_kept | apply State.fieldsWrite_kept | apply State.insClrWrite_kept | apply State.larderCtrlWrite_kept | apply State.pctrlWrite_kept | apply State.segCtrlWrite_kept | apply State.segMembWrite_kept | apply State.trivetWrite_kept | refine kept_ite ?_ ?_ | refine kept_mk ?_

theorem State.regWrite_kept {s : State} (m : Nat) (a : Nat) (v : Word) (hk : s.kept q n) :
    (State.regWrite s m a v).kept q n := by
  unfold State.regWrite
  with_reducible repeat' first | assumption | apply State.block_kept | apply State.fieldsWrite_kept | apply State.writeAon_kept | apply State.writeCxHk_kept | apply State.writeGauge_kept | apply State.writePort_kept | apply State.writeSys_kept | apply State.writeUnit_kept | refine kept_ite ?_ ?_ | split | refine fst_kept (by assumption) ?_ | refine snd_kept (by assumption) ?_ | refine opt_kept (by assumption) ?_ | refine kept_mk ?_

theorem State.sameClock_kept {s : State} (a : Nat) (hw : Nat) (hk : s.kept q n) :
    (State.sameClock s a hw).kept q n := by
  unfold State.sameClock
  with_reducible repeat' first | assumption | apply State.wr_kept | apply foldl_kept | intro _ | refine kept_ite ?_ ?_ | split | refine fst_kept (by assumption) ?_ | refine snd_kept (by assumption) ?_ | refine opt_kept (by assumption) ?_ | refine kept_mk ?_

theorem State.readBefore_kept {s : State} (m : Nat) (a : Nat) (hw : Nat) (hk : s.kept q n) :
    (State.readBefore s m a hw).kept q n := by
  unfold State.readBefore
  with_reducible repeat' first | assumption | apply State.ok_kept | apply State.regRead_kept | refine kept_ite ?_ ?_ | split | refine fst_kept (by assumption) ?_ | refine snd_kept (by assumption) ?_ | refine opt_kept (by assumption) ?_ | refine kept_mk ?_

theorem State.romRead_kept {s : State} (m : Nat) (a : Nat) (x3 : Nat) (e : BusEnv) (hk : s.kept q n) :
    (State.romRead s m a x3 e).kept q n := by
  unfold State.romRead
  with_reducible repeat' first | assumption | apply State.cacheErr_kept | apply State.ok_kept | intro _ | refine kept_ite ?_ ?_ | split | refine fst_kept (by assumption) ?_ | refine snd_kept (by assumption) ?_ | refine opt_kept (by assumption) ?_ | refine kept_mk ?_

theorem State.regBus_kept {s : State} (m : Nat) (a : Nat) (write : Bool) (data : List Byte) (e : BusEnv) (hk : s.kept q n) :
    (State.regBus s m a write data e).kept q n := by
  unfold State.regBus
  with_reducible repeat' first | assumption | apply State.readBefore_kept | apply State.regWrite_kept | apply State.sameClock_kept | refine kept_ite ?_ ?_ | refine kept_mk ?_

theorem State.hartReceive_kept {s : State} (m : Nat) (a : Nat) (hk : s.kept q n) :
    (State.hartReceive s m a).kept q n := by
  unfold State.hartReceive
  with_reducible repeat' first | assumption | apply State.delivered_kept | split | refine fst_kept (by assumption) ?_ | refine snd_kept (by assumption) ?_ | refine opt_kept (by assumption) ?_ | refine kept_mk ?_

theorem State.busAccess_kept {s : State} (m : Nat) (a : Nat) (x3 : Nat) (write : Bool) (data : List Byte) (e : BusEnv) (hk : s.kept q n) :
    (State.busAccess s m a x3 write data e).kept q n := by
  unfold State.busAccess
  with_reducible repeat' first | assumption | apply State.busErr_kept | apply State.dramBus_kept | apply State.hartReceive_kept | apply State.needleAccess_kept | apply State.regBus_kept | apply State.romRead_kept | apply State.spadPort_kept | apply State.vaultAccess_kept | intro _ | refine kept_ite ?_ ?_ | split | refine fst_kept (by assumption) ?_ | refine snd_kept (by assumption) ?_ | refine opt_kept (by assumption) ?_ | refine kept_mk ?_

theorem State.csrStdRead_kept {s : State} (k : Nat) (num : Nat) (hk : s.kept q n) :
    (State.csrStdRead s k num).kept q n := by
  unfold State.csrStdRead
  with_reducible repeat' first | assumption | apply State.hartExc_kept | apply State.ok_kept | apply State.useFree_kept | refine kept_ite ?_ ?_ | refine kept_mk ?_

theorem State.csrStdWrite_kept {s : State} (k : Nat) (num : Nat) (v : Nat) (hk : s.kept q n) :
    (State.csrStdWrite s k num v).kept q n := by
  unfold State.csrStdWrite
  with_reducible repeat' first | assumption | apply State.hartExc_kept | apply State.mapHart_kept | intro _ | refine kept_ite ?_ ?_ | refine kept_mk ?_

theorem State.trvRamAccess_kept {s : State} (off : Nat) (x2 : Nat) (data : List Byte) (hk : s.kept q n) :
    (State.trvRamAccess s off x2 data).kept q n := by
  unfold State.trvRamAccess
  with_reducible repeat' first | assumption | apply State.ok_kept | apply State.putbs_kept | refine kept_ite ?_ ?_ | refine kept_mk ?_

theorem State.csrRead_kept {s : State} (k : Nat) (num : Nat) (hk : s.kept q n) :
    (State.csrRead s k num).kept q n := by
  unfold State.csrRead
  with_reducible repeat' first | assumption | apply State.csrStdRead_kept | apply State.ok_kept | refine kept_ite ?_ ?_ | refine kept_mk ?_

theorem State.csrWrite_kept {s : State} (k : Nat) (num : Nat) (v : Nat) (hk : s.kept q n) :
    (State.csrWrite s k num v).kept q n := by
  unfold State.csrWrite
  with_reducible repeat' first | assumption | apply State.clr1Write_kept | apply State.csrStdWrite_kept | apply State.mapHart_kept | apply State.timerFollow_kept | intro _ | refine kept_ite ?_ ?_ | refine kept_mk ?_

theorem execRegisterWrite_kept (o : RegOp) {s : State} (hk : s.kept q n) :
    outKept q n (execRegisterWrite o s) := by
  unfold execRegisterWrite
  with_reducible repeat' first | assumption | refine out_next ?_ | apply State.busAccess_kept | apply State.csrRead_kept | apply State.csrWrite_kept | apply State.trvRamAccess_kept | refine kept_ite ?_ ?_ | refine out_ite ?_ ?_ | split | refine fst_kept (by assumption) ?_ | refine snd_kept (by assumption) ?_ | refine opt_kept (by assumption) ?_ | refine kept_mk ?_

end Sys2Proof.Machine
end

