-- ==== Sys2Proof/Laws/KeptNeedleDma.lean ====
section
/-! SUPPORT. What the definitions of Machine/NeedleDma.lean keep: the queue, the time, the canonical form of memory and registers, and that at
most one half is in CHARGE. -/

set_option linter.unreachableTactic false
set_option linter.unusedTactic false
set_option linter.unusedVariables false

namespace Sys2Proof.Machine
open Sys2Proof

variable {q : List Instr} {n : Nat}

theorem State.runRead_kept {s : State} (m : Nat) (env : List (Nat × BusEnv)) (k a : Nat) (ns : List Nat)
    (h : s.kept q n) : (s.runRead m env k a ns).1.kept q n := by
  induction ns generalizing s k a with
  | nil => exact h
  | cons x ns ih =>
    have h1 := State.busAccess_kept m a x false [] (envAt env k) h
    unfold State.runRead
    dsimp only
    split
    · exact ih _ _ h1
    · exact h1
    · exact h1

theorem State.runWrite_kept {s : State} (m : Nat) (env : List (Nat × BusEnv)) (k a : Nat) (ns : List Nat)
    (bs : List Byte) (h : s.kept q n) : (s.runWrite m env k a ns bs).1.kept q n := by
  induction ns generalizing s k a bs with
  | nil => exact h
  | cons x ns ih =>
    have h1 := State.busAccess_kept m a x true (bs.take x) (envAt env k) h
    unfold State.runWrite
    dsimp only
    split
    · exact ih _ _ _ h1
    · exact h1
    · exact h1

theorem State.dmaLand_kept {s : State} (i : Nat) (d : Dma) (bs : List Byte) (hk : s.kept q n) :
    (State.dmaLand s i d bs).kept q n := by
  unfold State.dmaLand
  with_reducible repeat' first | assumption | apply State.mapEng_kept | apply State.putN_kept | intro _ | refine kept_ite ?_ ?_ | refine kept_mk ?_

/-- A state with the memory of another. -/
theorem kept_mem {s t : State} (h : s.kept q n) (k : t.kept q n) : State.kept q n { t with mem := s.mem } := by
  obtain ⟨h1, h2, h3⟩ := h
  obtain ⟨k1, k2, k3⟩ := k
  refine ⟨k1, k2, ?_⟩
  simp only [State.sound, Bool.and_eq_true] at h3 k3 ⊢
  exact ⟨⟨h3.1.1, k3.1.2⟩, k3.2⟩

theorem State.dmaRun_kept {s : State} (i : Nat) (d : Dma) (env : List (Nat × BusEnv)) (h : s.kept q n) :
    (s.dmaRun i d env).1.kept q n := by
  unfold State.dmaRun
  dsimp only
  split
  · exact State.busErr_kept _ _ _ _ h
  · split
    · have h1 := State.runWrite_kept (0x10 + i) env 0 d.addr (chunksOf d.addr d.len) d.bytes h
      split
      · exact kept_mem h h1
      · exact h1
    · exact State.runRead_kept _ _ _ _ _ h

theorem execDmaTransferDone_kept (i : Fin 24) (chan : Fin 4) (env : List (Nat × BusEnv)) {s : State} (hk : s.kept q n) :
    outKept q n (execDmaTransferDone i chan env s) := by
  unfold execDmaTransferDone
  with_reducible repeat' first | assumption | refine out_next ?_ | apply State.dmaLand_kept | apply State.dmaRun_kept | apply State.nePend_kept | apply State.putEng_kept | (fail_if_no_progress (extract_lets +onlyGivenNames x); first | (refine kept_bind (q := q) (n := n) (x := x) ?_ (fun _ => ?_); on_goal 2 => clear_value x; on_goal 1 => unfold x) | skip) | intro _ | refine kept_ite ?_ ?_ | refine out_ite ?_ ?_ | split | refine fst_kept (by assumption) ?_ | refine snd_kept (by assumption) ?_ | refine opt_kept (by assumption) ?_ | refine kept_mk ?_

theorem State.flushDma_kept {s : State} (i : Nat) (hk : s.kept q n) :
    (State.flushDma s i).kept q n := by
  unfold State.flushDma
  with_reducible repeat' first | assumption | apply State.dmaLand_kept | apply State.dmaRun_kept | apply State.mapEng_kept | apply foldl_kept | intro _ | refine kept_ite ?_ ?_ | split | refine fst_kept (by assumption) ?_ | refine snd_kept (by assumption) ?_ | refine opt_kept (by assumption) ?_ | refine kept_mk ?_

theorem execNeHardStop_kept (i : Fin 24) {s : State} (hk : s.kept q n) :
    outKept q n (execNeHardStop i s) := by
  unfold execNeHardStop
  with_reducible repeat' first | assumption | refine out_next ?_ | apply State.flushDma_kept | apply State.mapEng_kept | apply State.setf_kept | apply State.stopDma_kept | apply State.wrn_kept | intro _ | refine kept_ite ?_ ?_ | refine out_ite ?_ ?_ | split | refine fst_kept (by assumption) ?_ | refine snd_kept (by assumption) ?_ | refine opt_kept (by assumption) ?_ | refine kept_mk ?_

end Sys2Proof.Machine
end

