-- ==== Sys2Proof/Laws/KeptHostPort.lean ====
section
/-! SUPPORT. What the definitions of Machine/HostPort.lean keep: the queue, the time, the canonical form of memory and registers, and that at
most one half is in CHARGE. -/

set_option linter.unreachableTactic false
set_option linter.unusedTactic false
set_option linter.unusedVariables false

namespace Sys2Proof.Machine
open Sys2Proof

variable {q : List Instr} {n : Nat}

theorem execKcpDbWrite_kept (m : Byte) (x1 : Half) (descs : List (Fin 32 × RingDesc)) (v : Word) {s : State} (hk : s.kept q n) :
    outKept q n (execKcpDbWrite m x1 descs v s) := by
  unfold execKcpDbWrite
  with_reducible repeat' first | assumption | refine out_next ?_ | apply State.kcpDbWrite_kept | apply foldl_kept | intro _ | refine kept_mk ?_

theorem execPcieBusMasterEnable_kept (x0 : Fin 2) (on : Bool) {s : State} (hk : s.kept q n) :
    outKept q n (execPcieBusMasterEnable x0 on s) := by
  unfold execPcieBusMasterEnable
  with_reducible repeat' first | assumption | refine out_next ?_ | apply State.setb_kept | refine kept_ite ?_ ?_ | refine out_ite ?_ ?_ | refine kept_mk ?_

theorem State.tlpRun_kept {s : State} (m a : Nat) (write : Bool) (data : List Byte) (env : List (Nat × BusEnv)) (k : Nat)
    (ps : List (Nat × Nat)) (h : s.kept q n) : (s.tlpRun m a write data env k ps).1.kept q n := by
  induction ps generalizing s k with
  | nil => exact h
  | cons p ps ih =>
    obtain ⟨o, x⟩ := p
    have h1 := State.busAccess_kept m (a + o) x write (if write then padTo x (slice data o x) else []) (envAt env k) h
    unfold State.tlpRun
    dsimp only
    split
    · exact ih _ h1
    · exact ih _ h1
    · exact ih _ h1

theorem execPcieApertureAccess_kept {s : State} (t : Fin 2) (off : BitVec 18) (write : Bool) (be : List Bool) (data : List Byte)
    (env : List (Nat × BusEnv)) (h : s.kept q n) : outKept q n (execPcieApertureAccess t off write be data env s) := by
  unfold execPcieApertureAccess
  dsimp only
  split
  · exact out_next h
  · have h1 := State.tlpRun_kept (0x40 + t) (0x40000 * s.fld (A.PCI_AP_BASE t) F.PCI_AP_BASE.BASE + off.toNat) write data env 0
      (tlpPieces (0x40000 * s.fld (A.PCI_AP_BASE t) F.PCI_AP_BASE.BASE + off.toNat) be) h
    exact out_next (kept_mk (kept_ite h1 (State.emit_kept _ h1)))

theorem State.msixSend_kept {s : State} (x1 : Nat) (v : Nat) (hk : s.kept q n) :
    (State.msixSend s x1 v).kept q n := by
  unfold State.msixSend
  with_reducible repeat' first | assumption | apply State.emit_kept | refine kept_mk ?_

theorem execMsixVectorActive_kept (x0 : Fin 2) (v : Fin 32) {s : State} (hk : s.kept q n) :
    outKept q n (execMsixVectorActive x0 v s) := by
  unfold execMsixVectorActive
  with_reducible repeat' first | assumption | refine out_next ?_ | apply State.msixSend_kept | refine kept_ite ?_ ?_ | refine out_ite ?_ ?_ | refine kept_mk ?_

theorem execMsixVectorUnmask_kept (x0 : Fin 2) (v : Fin 32) (addr : BitVec 64) (data : BitVec 64) (mask : Bool) {s : State} (hk : s.kept q n) :
    outKept q n (execMsixVectorUnmask x0 v addr data mask s) := by
  unfold execMsixVectorUnmask
  with_reducible repeat' first | assumption | refine out_next ?_ | apply State.msixSend_kept | refine kept_ite ?_ ?_ | refine out_ite ?_ ?_ | refine kept_mk ?_

theorem execHiClrWrite_kept (m : Byte) (x1 : Fin 5) (v : Word) (raised : Bool) {s : State} (hk : s.kept q n) :
    outKept q n (execHiClrWrite m x1 v raised s) := by
  unfold execHiClrWrite
  with_reducible repeat' first | assumption | refine out_next ?_ | apply State.hiClrWrite_kept | refine kept_mk ?_

theorem State.sticky_kept {s : State} (x1 : Nat) (f : Fld) (hk : s.kept q n) :
    (State.sticky s x1 f).kept q n := by
  unfold State.sticky
  with_reducible repeat' first | assumption | apply State.setf_kept | refine kept_mk ?_

theorem State.cmdPush_kept {s : State} (x1 : Nat) (bs : List Byte) (hk : s.kept q n) :
    (State.cmdPush s x1 bs).kept q n := by
  unfold State.cmdPush
  with_reducible repeat' first | assumption | apply State.putStream_kept | apply State.sticky_kept | refine kept_ite ?_ ?_ | refine kept_mk ?_

theorem State.rspPop_kept {s : State} (x1 : Nat) (x2 : Nat) (hk : s.kept q n) :
    (State.rspPop s x1 x2).2.kept q n := by
  unfold State.rspPop
  with_reducible repeat' first | assumption | apply State.fillStream_kept | apply State.putStream_kept | apply State.sticky_kept | refine kept_ite ?_ ?_ | refine kept_mk ?_

theorem State.portStatus_kept {s : State} (x1 : Nat) (a : Nat) (hk : s.kept q n) :
    (State.portStatus s x1 a).kept q n := by
  unfold State.portStatus
  with_reducible repeat' first | assumption | apply State.sticky_kept | apply State.wrn_kept | refine kept_ite ?_ ?_ | split | refine fst_kept (by assumption) ?_ | refine snd_kept (by assumption) ?_ | refine opt_kept (by assumption) ?_ | refine kept_mk ?_

theorem State.clearSticky_kept {s : State} (x1 : Nat) (hk : s.kept q n) :
    (State.clearSticky s x1).kept q n := by
  unfold State.clearSticky
  with_reducible repeat' first | assumption | apply State.setf_kept | refine kept_mk ?_

theorem execRdsr_kept (x0 : Half) (width : Fin 4) (x2 : Nat) {s : State} (hk : s.kept q n) :
    outKept q n (execRdsr x0 width x2 s) := by
  unfold execRdsr
  with_reducible repeat' first | assumption | refine out_next ?_ | apply State.emit_kept | intro _ | refine kept_ite ?_ ?_ | refine out_ite ?_ ?_ | refine kept_mk ?_

theorem execWrcmd_kept (x0 : Half) (width : Fin 4) (bytes : List Byte) {s : State} (hk : s.kept q n) :
    outKept q n (execWrcmd x0 width bytes s) := by
  unfold execWrcmd
  with_reducible repeat' first | assumption | refine out_next ?_ | apply State.cmdPush_kept | refine kept_ite ?_ ?_ | refine out_ite ?_ ?_ | refine kept_mk ?_

theorem execRdrsp_kept (x0 : Half) (width : Fin 4) (x2 : Nat) {s : State} (hk : s.kept q n) :
    outKept q n (execRdrsp x0 width x2 s) := by
  unfold execRdrsp
  with_reducible repeat' first | assumption | refine out_next ?_ | apply State.emit_kept | apply State.rspPop_kept | refine kept_ite ?_ ?_ | refine out_ite ?_ ?_ | split | refine fst_kept (by assumption) ?_ | refine snd_kept (by assumption) ?_ | refine opt_kept (by assumption) ?_ | refine kept_mk ?_

theorem State.rdmem_kept {s : State} (x : Half) (a : Nat) (late : Option Nat) (env : List (Nat × BusEnv)) (k j : Nat)
    (h : s.kept q n) : (s.rdmem x a late env k j).2.kept q n := by
  induction k generalizing s j with
  | zero => exact h
  | succ k ih =>
    have h1 := State.portStatus_kept (2 + x.n) ((a + 4 * j) % 2 ^ 40)
      (State.busAccess_kept (0x42 + x.n) ((a + 4 * j) % 2 ^ 40) 4 false [] (envAt env j) h)
    unfold State.rdmem
    dsimp only
    split
    · exact State.sticky_kept _ _ h1
    · exact ih _ h1

theorem execRdmem_kept {s : State} (x : Half) (width : Fin 4) (addr : BitVec 40) (k : Nat) (late : Option Nat)
    (env : List (Nat × BusEnv)) (h : s.kept q n) : outKept q n (execRdmem x width addr k late env s) := by
  unfold execRdmem
  split
  · exact out_next (State.emit_kept _ (State.rdmem_kept _ _ _ _ _ _ h))
  · exact out_next h

theorem State.wrmem_kept {s : State} (x : Half) (a : Nat) (env : List (Nat × BusEnv)) (k : Nat) (bs : List Byte)
    (h : s.kept q n) : (s.wrmem x a env k bs).kept q n := by
  induction s, k, bs using State.wrmem.induct x a env with
  | case1 s k b0 b1 b2 b3 bs _ _ ih =>
    unfold State.wrmem
    exact ih (State.portStatus_kept _ _ (State.busAccess_kept _ _ _ _ _ _ h))
  | case2 s k =>
    unfold State.wrmem
    exact h
  | case3 s k bs h1 h2 =>
    unfold State.wrmem
    split
    · exact absurd rfl (h1 _ _ _ _ _)
    · exact h
    · exact State.sticky_kept _ _ h

theorem execWrmem_kept (x0 : Half) (width : Fin 4) (addr : BitVec 40) (bytes : List Byte) (env : List (Nat × BusEnv)) {s : State} (hk : s.kept q n) :
    outKept q n (execWrmem x0 width addr bytes env s) := by
  unfold execWrmem
  with_reducible repeat' first | assumption | refine out_next ?_ | apply State.sticky_kept | apply State.wrmem_kept | refine kept_ite ?_ ?_ | refine out_ite ?_ ?_ | refine kept_mk ?_

theorem execClrsr_kept (x0 : Half) (width : Fin 4) {s : State} (hk : s.kept q n) :
    outKept q n (execClrsr x0 width s) := by
  unfold execClrsr
  with_reducible repeat' first | assumption | refine out_next ?_ | apply State.clearSticky_kept | refine kept_ite ?_ ?_ | refine out_ite ?_ ?_ | refine kept_mk ?_

theorem State.lbData_kept {s : State} (v : Nat) (hk : s.kept q n) :
    (State.lbData s v).kept q n := by
  unfold State.lbData
  with_reducible repeat' first | assumption | apply State.emit_kept | refine kept_mk ?_

theorem execLbCmd_kept (v : BitVec 16) {s : State} (hk : s.kept q n) :
    outKept q n (execLbCmd v s) := by
  unfold execLbCmd
  with_reducible repeat' first | assumption | refine out_next ?_ | apply State.cmdPush_kept | refine kept_ite ?_ ?_ | refine out_ite ?_ ?_ | refine kept_mk ?_

theorem State.lbRsp_kept {s : State} (hk : s.kept q n) :
    (State.lbRsp s).kept q n := by
  unfold State.lbRsp
  with_reducible repeat' first | assumption | apply State.emit_kept | apply State.rspPop_kept | split | refine fst_kept (by assumption) ?_ | refine snd_kept (by assumption) ?_ | refine opt_kept (by assumption) ?_ | refine kept_mk ?_

theorem execLbRsp_kept {s : State} (hk : s.kept q n) :
    outKept q n (execLbRsp s) := by
  unfold execLbRsp
  with_reducible repeat' first | assumption | refine out_next ?_ | apply State.lbRsp_kept | refine kept_ite ?_ ?_ | refine out_ite ?_ ?_ | refine kept_mk ?_

theorem execLbClr_kept {s : State} (hk : s.kept q n) :
    outKept q n (execLbClr s) := by
  unfold execLbClr
  with_reducible repeat' first | assumption | refine out_next ?_ | apply State.clearSticky_kept | refine kept_ite ?_ ?_ | refine out_ite ?_ ?_ | refine kept_mk ?_

theorem State.lbAccess_kept {s : State} (a : Nat) (x2 : Nat) (write : Bool) (v : Nat) (e : BusEnv) (hk : s.kept q n) :
    (State.lbAccess s a x2 write v e).2.kept q n := by
  unfold State.lbAccess
  with_reducible repeat' first | assumption | apply State.busAccess_kept | apply State.portStatus_kept | refine kept_ite ?_ ?_ | refine kept_mk ?_

theorem State.lbWindow_kept {s : State} (o : Nat) (write : Bool) (v : Nat) (e : BusEnv) (hk : s.kept q n) :
    (State.lbWindow s o write v e).kept q n := by
  unfold State.lbWindow
  with_reducible repeat' first | assumption | apply State.lbAccess_kept | apply State.lbData_kept | refine kept_ite ?_ ?_ | split | refine fst_kept (by assumption) ?_ | refine snd_kept (by assumption) ?_ | refine opt_kept (by assumption) ?_ | refine kept_mk ?_

theorem State.lbRegRead_kept {s : State} (a : Nat) (h : s.kept q n) : optKept q n (s.lbRegRead a) := by
  unfold State.lbRegRead
  dsimp only
  repeat' split
  · exact opt_some (State.lbData_kept _ h)
  · exact opt_some (State.lbRsp_kept h)
  · exact opt_some (State.lbData_kept _ h)
  · exact opt_some (State.lbData_kept _ h)
  · exact opt_some (State.lbData_kept _ h)
  · exact opt_some (State.lbData_kept _ h)
  · exact opt_some (State.lbData_kept _ h)
  · exact opt_none

theorem State.lbRegWrite_kept {s : State} (a v : Nat) (h : s.kept q n) : optKept q n (s.lbRegWrite a v) := by
  unfold State.lbRegWrite
  dsimp only
  repeat' split
  · exact opt_some (State.cmdPush_kept _ _ h)
  · exact opt_some h
  · exact opt_some (State.clearSticky_kept _ h)
  · exact opt_some (State.portStatus_kept _ _ (State.bankOwnerWrite_kept _ _ _ h))
  · exact opt_some (kept_mk h)
  · exact opt_some (kept_mk h)
  · exact opt_none

theorem opt_getD {o : Option State} {t : State} (ho : optKept q n o) (ht : t.kept q n) : (o.getD t).kept q n := by
  cases o with
  | none => exact ht
  | some x => exact ho x rfl

theorem State.lbCycle_kept {s : State} (a : Nat) (write : Bool) (v : Nat) (e : BusEnv) (h : s.kept q n) :
    (s.lbCycle a write v e).kept q n := by
  unfold State.lbCycle
  split
  · have h1 := State.lbAccess_kept (bankBase + a) 2 write v e h
    dsimp only
    split
    · exact h1
    · exact State.lbData_kept _ h1
  · split
    · exact State.lbWindow_kept _ _ _ _ h
    · dsimp only
      refine opt_getD ?_ (State.sticky_kept _ _ ?_)
      · split
        · exact State.lbRegWrite_kept _ _ h
        · exact State.lbRegRead_kept _ h
      · split
        · exact h
        · exact State.lbData_kept _ h

theorem execLbWindowAccess_kept {s : State} (a : BitVec 21) (write : Bool) (v : BitVec 16) (e : BusEnv)
    (h : s.kept q n) : outKept q n (execLbWindowAccess a write v e s) := by
  exact out_ite (out_next h) (out_next (State.lbCycle_kept _ _ _ _ h))

end Sys2Proof.Machine
end

