-- ==== Sys2Proof/Laws/KeptKcpGeneral.lean ====
section
/-! SUPPORT. What the definitions of Machine/KcpGeneral.lean keep: the queue, the time, the canonical form of memory and registers, and that at
most one half is in CHARGE. -/

set_option linter.unreachableTactic false
set_option linter.unusedTactic false
set_option linter.unusedVariables false

namespace Sys2Proof.Machine
open Sys2Proof

variable {q : List Instr} {n : Nat}

theorem State.trivetDataErr_kept {s : State} (a : Nat) (hk : s.kept q n) :
    (State.trivetDataErr s a).kept q n := by
  unfold State.trivetDataErr
  with_reducible repeat' first | assumption | apply State.faultD_kept | intro _ | refine kept_ite ?_ ?_ | split | refine fst_kept (by assumption) ?_ | refine snd_kept (by assumption) ?_ | refine opt_kept (by assumption) ?_ | refine kept_mk ?_

theorem State.runReply_kept {s : State} (c : KCmd) (a : Nat) (cs : List Nat) (r : Run) (data : List Byte) (hk : s.kept q n) :
    (State.runReply s c a cs r data).kept q n := by
  unfold State.runReply
  with_reducible repeat' first | assumption | apply State.finish_kept | apply State.okData_kept | apply State.trivetDataErr_kept | apply foldl_kept | split | refine fst_kept (by assumption) ?_ | refine snd_kept (by assumption) ?_ | refine opt_kept (by assumption) ?_ | refine kept_mk ?_

theorem State.trvWrites_kept {s : State} (k : Nat) (as : List (Nat × Nat)) (h : s.kept q n) :
    (s.trvWrites k as).1.kept q n := by
  induction as generalizing s k with
  | nil => exact h
  | cons x as ih =>
    obtain ⟨a, v⟩ := x
    have h1 := State.busAccess_kept trivet a 4 true (leBytes 4 v) BusEnv.clean h
    unfold State.trvWrites
    dsimp only
    split
    · exact ih _ h1
    · exact h1
    · exact ih _ h1

theorem State.writesThen_kept {s : State} (c : KCmd) (ws : List (Nat × Nat)) (f : State → List Byte) (hk : s.kept q n) :
    (State.writesThen s c ws f).kept q n := by
  unfold State.writesThen
  with_reducible repeat' first | assumption | apply State.runReply_kept | apply State.trvWrites_kept | split | refine fst_kept (by assumption) ?_ | refine snd_kept (by assumption) ?_ | refine opt_kept (by assumption) ?_ | refine kept_mk ?_

theorem State.writes_kept {s : State} (c : KCmd) (ws : List (Nat × Nat)) (hk : s.kept q n) :
    (State.writes s c ws).kept q n := by
  unfold State.writes
  with_reducible repeat' first | assumption | apply State.writesThen_kept | intro _ | refine kept_mk ?_

theorem State.trvReads_kept {s : State} (k : Nat) (as : List Nat) (h : s.kept q n) : (s.trvReads k as).1.kept q n := by
  induction as generalizing s k with
  | nil => exact h
  | cons a as ih =>
    have h1 := State.busAccess_kept trivet a 4 false [] BusEnv.clean h
    unfold State.trvReads
    dsimp only
    split
    · exact ih _ h1
    · exact h1
    · exact ih _ h1

theorem State.reads_kept {s : State} (c : KCmd) (as : List Nat) (hk : s.kept q n) :
    (State.reads s c as).kept q n := by
  unfold State.reads
  with_reducible repeat' first | assumption | apply State.runReply_kept | apply State.trvReads_kept | split | refine fst_kept (by assumption) ?_ | refine snd_kept (by assumption) ?_ | refine opt_kept (by assumption) ?_ | refine kept_mk ?_

theorem execPing_kept (x0 : Fin 6) (tag : BitVec 16) {s : State} (hk : s.kept q n) :
    outKept q n (execPing x0 tag s) := by
  unfold execPing
  with_reducible repeat' first | assumption | refine out_next ?_ | apply State.okData_kept | apply State.onCmd_kept | intro _ | refine kept_mk ?_

theorem execInfo_kept (x0 : Fin 6) (tag : BitVec 16) {s : State} (hk : s.kept q n) :
    outKept q n (execInfo x0 tag s) := by
  unfold execInfo
  with_reducible repeat' first | assumption | refine out_next ?_ | apply State.okData_kept | apply State.onCmd_kept | intro _ | refine kept_mk ?_

theorem State.cmdRun_kept {s : State} (c : KCmd) (cs : List Nat) (write : Bool) (data : List Byte) (env : List (Nat × BusEnv)) (hk : s.kept q n) :
    (State.cmdRun s c cs write data env).kept q n := by
  unfold State.cmdRun
  with_reducible repeat' first | assumption | apply State.runRead_kept | apply State.runReply_kept | apply State.runWrite_kept | apply foldl_kept | refine kept_ite ?_ ?_ | split | refine fst_kept (by assumption) ?_ | refine snd_kept (by assumption) ?_ | refine opt_kept (by assumption) ?_ | refine kept_mk ?_

theorem execRegRead_kept (x0 : Fin 6) (tag : BitVec 16) (env : List (Nat × BusEnv)) {s : State} (hk : s.kept q n) :
    outKept q n (execRegRead x0 tag env s) := by
  unfold execRegRead
  with_reducible repeat' first | assumption | refine out_next ?_ | apply State.checked_kept | apply State.cmdRun_kept | apply State.onCmd_kept | intro _ | refine kept_mk ?_

theorem execRegWrite_kept (x0 : Fin 6) (tag : BitVec 16) (env : List (Nat × BusEnv)) {s : State} (hk : s.kept q n) :
    outKept q n (execRegWrite x0 tag env s) := by
  unfold execRegWrite
  with_reducible repeat' first | assumption | refine out_next ?_ | apply State.checked_kept | apply State.cmdRun_kept | apply State.onCmd_kept | apply State.say_kept | intro _ | refine kept_ite ?_ ?_ | refine out_ite ?_ ?_ | refine kept_mk ?_

theorem execMemRead_kept (x0 : Fin 6) (tag : BitVec 16) (env : List (Nat × BusEnv)) {s : State} (hk : s.kept q n) :
    outKept q n (execMemRead x0 tag env s) := by
  unfold execMemRead
  with_reducible repeat' first | assumption | refine out_next ?_ | apply State.checked_kept | apply State.cmdRun_kept | apply State.onCmd_kept | intro _ | refine kept_mk ?_

theorem execMemWrite_kept (x0 : Fin 6) (tag : BitVec 16) (env : List (Nat × BusEnv)) {s : State} (hk : s.kept q n) :
    outKept q n (execMemWrite x0 tag env s) := by
  unfold execMemWrite
  with_reducible repeat' first | assumption | refine out_next ?_ | apply State.checked_kept | apply State.cmdRun_kept | apply State.onCmd_kept | intro _ | refine kept_mk ?_

theorem execReset_kept (x0 : Fin 6) (tag : BitVec 16) {s : State} (hk : s.kept q n) :
    outKept q n (execReset x0 tag s) := by
  unfold execReset
  with_reducible repeat' first | assumption | refine out_next ?_ | apply State.checked_kept | apply State.kcpAssert_kept | apply State.later_kept | apply State.onCmd_kept | apply State.say_kept | intro _ | refine kept_ite ?_ ?_ | refine out_ite ?_ ?_ | refine kept_mk ?_

theorem execSessionOpen_kept (tag : BitVec 16) {s : State} (hk : s.kept q n) :
    outKept q n (execSessionOpen tag s) := by
  unfold execSessionOpen
  with_reducible repeat' first | assumption | refine out_next ?_ | apply State.okData_kept | apply State.onCmd_kept | apply State.putKcmd_kept | apply State.putSession_kept | apply State.say_kept | intro _ | refine kept_ite ?_ ?_ | refine out_ite ?_ ?_ | split | refine fst_kept (by assumption) ?_ | refine snd_kept (by assumption) ?_ | refine opt_kept (by assumption) ?_ | refine kept_mk ?_

theorem State.authFail_kept {s : State} (x1 : Nat) (hk : s.kept q n) :
    (State.authFail s x1).kept q n := by
  unfold State.authFail
  with_reducible repeat' first | assumption | apply State.putTport_kept | refine kept_ite ?_ ?_ | refine kept_mk ?_

theorem execSessionAuth_kept (x0 : Fin 6) (tag : BitVec 16) {s : State} (hk : s.kept q n) :
    outKept q n (execSessionAuth x0 tag s) := by
  unfold execSessionAuth
  with_reducible repeat' first | assumption | refine out_next ?_ | apply State.okData_kept | apply State.onCmd_kept | apply State.putSession_kept | apply State.say_kept | apply State.useFree_kept | intro _ | refine kept_ite ?_ ?_ | refine out_ite ?_ ?_ | split | refine fst_kept (by assumption) ?_ | refine snd_kept (by assumption) ?_ | refine opt_kept (by assumption) ?_ | refine kept_mk ?_

theorem execSessionProve_kept (x0 : Fin 6) (tag : BitVec 16) {s : State} (hk : s.kept q n) :
    outKept q n (execSessionProve x0 tag s) := by
  unfold execSessionProve
  with_reducible repeat' first | assumption | refine out_next ?_ | apply State.authFail_kept | apply State.okData_kept | apply State.onCmd_kept | apply State.putSession_kept | apply State.putTport_kept | apply State.say_kept | intro _ | refine kept_ite ?_ ?_ | refine out_ite ?_ ?_ | split | refine fst_kept (by assumption) ?_ | refine snd_kept (by assumption) ?_ | refine opt_kept (by assumption) ?_ | refine kept_mk ?_

theorem execSessionClose_kept (x0 : Fin 6) (tag : BitVec 16) {s : State} (hk : s.kept q n) :
    outKept q n (execSessionClose x0 tag s) := by
  unfold execSessionClose
  with_reducible repeat' first | assumption | refine out_next ?_ | apply State.closeUdp_kept | apply State.onCmd_kept | apply State.putSession_kept | apply State.say_kept | intro _ | refine kept_ite ?_ ?_ | refine out_ite ?_ ?_ | split | refine fst_kept (by assumption) ?_ | refine snd_kept (by assumption) ?_ | refine opt_kept (by assumption) ?_ | refine kept_mk ?_

theorem execSessionDrop_kept (x0 : Fin 6) (tag : BitVec 16) {s : State} (hk : s.kept q n) :
    outKept q n (execSessionDrop x0 tag s) := by
  unfold execSessionDrop
  with_reducible repeat' first | assumption | refine out_next ?_ | apply State.onCmd_kept | apply State.putSession_kept | apply State.say_kept | intro _ | split | refine fst_kept (by assumption) ?_ | refine snd_kept (by assumption) ?_ | refine opt_kept (by assumption) ?_ | refine kept_mk ?_

theorem execFaultRead_kept (x0 : Fin 6) (tag : BitVec 16) {s : State} (hk : s.kept q n) :
    outKept q n (execFaultRead x0 tag s) := by
  unfold execFaultRead
  with_reducible repeat' first | assumption | refine out_next ?_ | apply State.checked_kept | apply State.okData_kept | apply State.onCmd_kept | apply State.say_kept | intro _ | refine kept_ite ?_ ?_ | refine out_ite ?_ ?_ | refine kept_mk ?_

theorem execFaultClear_kept (x0 : Fin 6) (tag : BitVec 16) (raised : Fin 4) {s : State} (hk : s.kept q n) :
    outKept q n (execFaultClear x0 tag raised s) := by
  unfold execFaultClear
  with_reducible repeat' first | assumption | refine out_next ?_ | apply State.onCmd_kept | apply State.say_kept | apply State.setf_kept | intro _ | refine kept_ite ?_ ?_ | refine out_ite ?_ ?_ | refine kept_mk ?_

end Sys2Proof.Machine
end

