-- ==== Sys2Proof/Laws/KeptKcpPort.lean ====
section
/-! SUPPORT. What the definitions of Machine/KcpPort.lean keep: the queue, the time, the canonical form of memory and registers, and that at
most one half is in CHARGE. -/

set_option linter.unreachableTactic false
set_option linter.unusedTactic false
set_option linter.unusedVariables false

namespace Sys2Proof.Machine
open Sys2Proof

variable {q : List Instr} {n : Nat}

theorem State.images_kept {s : State} (c : KCmd) (off : Nat) (as : List Nat) (hk : s.kept q n) :
    (State.images s c off as).kept q n := by
  unfold State.images
  with_reducible repeat' first | assumption | apply State.writes_kept | refine kept_mk ?_

theorem State.bytesBelow_kept {s : State} (c : KCmd) (lims : List Nat) (f : State → State) (hk : s.kept q n) (hf : ∀ (t : State), t.kept q n → (f t ).kept q n) :
    (State.bytesBelow s c lims f).kept q n := by
  unfold State.bytesBelow
  with_reducible repeat' first | assumption | apply hf | apply State.checked_kept | intro _ | refine kept_mk ?_

theorem execPortCfg_kept (x0 : Fin 6) (tag : BitVec 16) {s : State} (hk : s.kept q n) :
    outKept q n (execPortCfg x0 tag s) := by
  unfold execPortCfg
  with_reducible repeat' first | assumption | refine out_next ?_ | apply State.bytesBelow_kept | apply State.onCmd_kept | apply State.writes_kept | intro _ | refine kept_mk ?_

theorem execPortFilter_kept (x0 : Fin 6) (tag : BitVec 16) {s : State} (hk : s.kept q n) :
    outKept q n (execPortFilter x0 tag s) := by
  unfold execPortFilter
  with_reducible repeat' first | assumption | refine out_next ?_ | apply State.checked_kept | apply State.onCmd_kept | apply State.writes_kept | intro _ | refine kept_ite ?_ ?_ | refine out_ite ?_ ?_ | refine kept_mk ?_

theorem execPortStats_kept (x0 : Fin 6) (tag : BitVec 16) {s : State} (hk : s.kept q n) :
    outKept q n (execPortStats x0 tag s) := by
  unfold execPortStats
  with_reducible repeat' first | assumption | refine out_next ?_ | apply State.bytesBelow_kept | apply State.onCmd_kept | apply State.reads_kept | intro _ | refine kept_mk ?_

theorem execPortPeriod_kept (x0 : Fin 6) (tag : BitVec 16) {s : State} (hk : s.kept q n) :
    outKept q n (execPortPeriod x0 tag s) := by
  unfold execPortPeriod
  with_reducible repeat' first | assumption | refine out_next ?_ | apply State.bytesBelow_kept | apply State.onCmd_kept | apply State.writes_kept | intro _ | refine kept_mk ?_

theorem execTlCfg_kept (x0 : Fin 6) (tag : BitVec 16) {s : State} (hk : s.kept q n) :
    outKept q n (execTlCfg x0 tag s) := by
  unfold execTlCfg
  with_reducible repeat' first | assumption | refine out_next ?_ | apply State.bytesBelow_kept | apply State.images_kept | apply State.onCmd_kept | intro _ | refine kept_mk ?_

theorem execSdCfg_kept (x0 : Fin 6) (tag : BitVec 16) {s : State} (hk : s.kept q n) :
    outKept q n (execSdCfg x0 tag s) := by
  unfold execSdCfg
  with_reducible repeat' first | assumption | refine out_next ?_ | apply State.bytesBelow_kept | apply State.images_kept | apply State.onCmd_kept | intro _ | refine kept_mk ?_

theorem execRgCfg_kept (x0 : Fin 6) (tag : BitVec 16) {s : State} (hk : s.kept q n) :
    outKept q n (execRgCfg x0 tag s) := by
  unfold execRgCfg
  with_reducible repeat' first | assumption | refine out_next ?_ | apply State.bytesBelow_kept | apply State.images_kept | apply State.onCmd_kept | intro _ | refine kept_mk ?_

theorem execCxCfg_kept (x0 : Fin 6) (tag : BitVec 16) {s : State} (hk : s.kept q n) :
    outKept q n (execCxCfg x0 tag s) := by
  unfold execCxCfg
  with_reducible repeat' first | assumption | refine out_next ?_ | apply State.bytesBelow_kept | apply State.onCmd_kept | apply State.writes_kept | intro _ | refine kept_mk ?_

theorem execCxFilter_kept (x0 : Fin 6) (tag : BitVec 16) {s : State} (hk : s.kept q n) :
    outKept q n (execCxFilter x0 tag s) := by
  unfold execCxFilter
  with_reducible repeat' first | assumption | refine out_next ?_ | apply State.checked_kept | apply State.images_kept | apply State.onCmd_kept | intro _ | refine kept_mk ?_

theorem execFwdInsert_kept (x0 : Fin 6) (tag : BitVec 16) {s : State} (hk : s.kept q n) :
    outKept q n (execFwdInsert x0 tag s) := by
  unfold execFwdInsert
  with_reducible repeat' first | assumption | refine out_next ?_ | apply State.checked_kept | apply State.onCmd_kept | apply State.say_kept | apply State.writesThen_kept | intro _ | refine kept_ite ?_ ?_ | refine out_ite ?_ ?_ | split | refine fst_kept (by assumption) ?_ | refine snd_kept (by assumption) ?_ | refine opt_kept (by assumption) ?_ | refine kept_mk ?_

theorem execFwdUpdate_kept (x0 : Fin 6) (tag : BitVec 16) {s : State} (hk : s.kept q n) :
    outKept q n (execFwdUpdate x0 tag s) := by
  unfold execFwdUpdate
  with_reducible repeat' first | assumption | refine out_next ?_ | apply State.checked_kept | apply State.onCmd_kept | apply State.say_kept | apply State.writes_kept | intro _ | refine kept_ite ?_ ?_ | refine out_ite ?_ ?_ | refine kept_mk ?_

theorem execFwdDelete_kept (x0 : Fin 6) (tag : BitVec 16) {s : State} (hk : s.kept q n) :
    outKept q n (execFwdDelete x0 tag s) := by
  unfold execFwdDelete
  with_reducible repeat' first | assumption | refine out_next ?_ | apply State.checked_kept | apply State.onCmd_kept | apply State.say_kept | apply State.writes_kept | intro _ | refine kept_ite ?_ ?_ | refine out_ite ?_ ?_ | refine kept_mk ?_

theorem execFwdRead_kept (x0 : Fin 6) (tag : BitVec 16) {s : State} (hk : s.kept q n) :
    outKept q n (execFwdRead x0 tag s) := by
  unfold execFwdRead
  with_reducible repeat' first | assumption | refine out_next ?_ | apply State.checked_kept | apply State.onCmd_kept | apply State.reads_kept | intro _ | refine kept_mk ?_

theorem execQosCfg_kept (x0 : Fin 6) (tag : BitVec 16) {s : State} (hk : s.kept q n) :
    outKept q n (execQosCfg x0 tag s) := by
  unfold execQosCfg
  with_reducible repeat' first | assumption | refine out_next ?_ | apply State.checked_kept | apply State.images_kept | apply State.onCmd_kept | intro _ | refine kept_mk ?_

theorem execGateLoad_kept (x0 : Fin 6) (tag : BitVec 16) {s : State} (hk : s.kept q n) :
    outKept q n (execGateLoad x0 tag s) := by
  unfold execGateLoad
  with_reducible repeat' first | assumption | refine out_next ?_ | apply State.checked_kept | apply State.onCmd_kept | apply State.runReply_kept | apply State.say_kept | apply State.trvWrites_kept | intro _ | refine kept_ite ?_ ?_ | refine out_ite ?_ ?_ | split | refine fst_kept (by assumption) ?_ | refine snd_kept (by assumption) ?_ | refine opt_kept (by assumption) ?_ | refine kept_mk ?_

theorem execRedCfg_kept (x0 : Fin 6) (tag : BitVec 16) {s : State} (hk : s.kept q n) :
    outKept q n (execRedCfg x0 tag s) := by
  unfold execRedCfg
  with_reducible repeat' first | assumption | refine out_next ?_ | apply State.checked_kept | apply State.onCmd_kept | apply State.writes_kept | intro _ | refine kept_mk ?_

end Sys2Proof.Machine
end

