-- ==== Sys2Proof/Laws/KeptKcpCharge.lean ====
section
/-! SUPPORT. What the definitions of Machine/KcpCharge.lean keep: the queue, the time, the canonical form of memory and registers, and that at
most one half is in CHARGE. -/

set_option linter.unreachableTactic false
set_option linter.unusedTactic false
set_option linter.unusedVariables false

namespace Sys2Proof.Machine
open Sys2Proof

variable {q : List Instr} {n : Nat}

theorem execChgStatus_kept (x0 : Fin 6) (tag : BitVec 16) {s : State} (hk : s.kept q n) :
    outKept q n (execChgStatus x0 tag s) := by
  unfold execChgStatus
  with_reducible repeat' first | assumption | refine out_next ?_ | apply State.onCmd_kept | apply State.reads_kept | intro _ | refine kept_mk ?_

theorem State.handoverCmd_kept {s : State} (c : KCmd) (service : Option Half) (hk : s.kept q n) :
    (State.handoverCmd s c service).kept q n := by
  unfold State.handoverCmd
  with_reducible repeat' first | assumption | apply State.okData_kept | apply State.planHandover_kept | apply State.putKcmd_kept | apply State.say_kept | refine kept_ite ?_ ?_ | split | refine fst_kept (by assumption) ?_ | refine snd_kept (by assumption) ?_ | refine opt_kept (by assumption) ?_ | refine kept_mk ?_

theorem execService_kept (x0 : Fin 6) (tag : BitVec 16) {s : State} (hk : s.kept q n) :
    outKept q n (execService x0 tag s) := by
  unfold execService
  with_reducible repeat' first | assumption | refine out_next ?_ | apply State.bytesBelow_kept | apply State.handoverCmd_kept | apply State.okData_kept | apply State.onCmd_kept | apply State.say_kept | apply State.toService_kept | intro _ | refine kept_ite ?_ ?_ | refine out_ite ?_ ?_ | refine kept_mk ?_

theorem execHandover_kept (x0 : Fin 6) (tag : BitVec 16) {s : State} (hk : s.kept q n) :
    outKept q n (execHandover x0 tag s) := by
  unfold execHandover
  with_reducible repeat' first | assumption | refine out_next ?_ | apply State.handoverCmd_kept | apply State.onCmd_kept | intro _ | refine kept_mk ?_

theorem execRecast_kept (x0 : Fin 6) (tag : BitVec 16) {s : State} (hk : s.kept q n) :
    outKept q n (execRecast x0 tag s) := by
  unfold execRecast
  with_reducible repeat' first | assumption | refine out_next ?_ | refine res_go ?_ | refine res_done ?_ | refine res_gone ?_ | exact res_fault | exact res_wait | apply State.bytesBelow_kept | apply State.later_kept | apply State.onCmd_kept | apply State.recast_kept | apply State.say_kept | intro _ | refine kept_ite ?_ ?_ | refine out_ite ?_ ?_ | refine res_ite ?_ ?_ | refine kept_mk ?_

theorem execIaCfg_kept {s : State} (t : Fin 6) (tag : BitVec 16) (h : s.kept q n) : outKept q n (execIaCfg t tag s) := by
  unfold execIaCfg
  refine out_next (State.onCmd_kept _ _ _ _ h fun s c h => ?_)
  extract_lets v
  split
  next s1 bad hs =>
    have h1 : s1.kept q n := fst_kept hs (State.trvWrites_kept _ _ h)
    exact kept_ite (State.badParam_kept _ _ h1) (State.runReply_kept _ _ _ _ _ h1)

theorem execRsCfg_kept (x0 : Fin 6) (tag : BitVec 16) {s : State} (hk : s.kept q n) :
    outKept q n (execRsCfg x0 tag s) := by
  unfold execRsCfg
  with_reducible repeat' first | assumption | refine out_next ?_ | apply State.images_kept | apply State.onCmd_kept | intro _ | refine kept_mk ?_

theorem execColCfg_kept (x0 : Fin 6) (tag : BitVec 16) {s : State} (hk : s.kept q n) :
    outKept q n (execColCfg x0 tag s) := by
  unfold execColCfg
  with_reducible repeat' first | assumption | refine out_next ?_ | apply State.checked_kept | apply State.images_kept | apply State.onCmd_kept | intro _ | refine kept_mk ?_

theorem execTrvCfg_kept (x0 : Fin 6) (tag : BitVec 16) {s : State} (hk : s.kept q n) :
    outKept q n (execTrvCfg x0 tag s) := by
  unfold execTrvCfg
  with_reducible repeat' first | assumption | refine out_next ?_ | apply State.onCmd_kept | apply State.writes_kept | intro _ | refine kept_mk ?_

theorem execTwinCfg_kept (x0 : Fin 6) (tag : BitVec 16) {s : State} (hk : s.kept q n) :
    outKept q n (execTwinCfg x0 tag s) := by
  unfold execTwinCfg
  with_reducible repeat' first | assumption | refine out_next ?_ | apply State.bytesBelow_kept | apply State.onCmd_kept | apply State.writes_kept | intro _ | refine kept_mk ?_

theorem execDigests_kept (x0 : Fin 6) (tag : BitVec 16) {s : State} (hk : s.kept q n) :
    outKept q n (execDigests x0 tag s) := by
  unfold execDigests
  with_reducible repeat' first | assumption | refine out_next ?_ | apply State.bytesBelow_kept | apply State.okData_kept | apply State.onCmd_kept | intro _ | refine kept_mk ?_

theorem execUpdateAdmit_kept (x0 : Fin 6) (tag : BitVec 16) {s : State} (hk : s.kept q n) :
    outKept q n (execUpdateAdmit x0 tag s) := by
  unfold execUpdateAdmit
  with_reducible repeat' first | assumption | refine out_next ?_ | apply State.bytesBelow_kept | apply State.onCmd_kept | apply State.say_kept | intro _ | refine kept_ite ?_ ?_ | refine out_ite ?_ ?_ | split | refine fst_kept (by assumption) ?_ | refine snd_kept (by assumption) ?_ | refine opt_kept (by assumption) ?_ | refine kept_mk ?_

end Sys2Proof.Machine
end

