-- ==== Sys2Proof/Laws/KeptKcpImage.lean ====
section
/-! SUPPORT. What the definitions of Machine/KcpImage.lean keep: the queue, the time, the canonical form of memory and registers, and that at
most one half is in CHARGE. -/

set_option linter.unreachableTactic false
set_option linter.unusedTactic false
set_option linter.unusedVariables false

namespace Sys2Proof.Machine
open Sys2Proof

variable {q : List Instr} {n : Nat}

theorem State.dropImage_kept {s : State} (k : Nat) (hk : s.kept q n) :
    (State.dropImage s k).kept q n := by
  unfold State.dropImage
  with_reducible repeat' first | assumption | apply State.images_kept | intro _ | refine kept_mk ?_

theorem State.putImage_kept {s : State} (i : Image) (hk : s.kept q n) :
    (State.putImage s i).kept q n := by
  unfold State.putImage
  with_reducible repeat' first | assumption | apply State.images_kept | intro _ | refine kept_ite ?_ ?_ | refine kept_mk ?_

theorem execImgBegin_kept (x0 : Fin 6) (tag : BitVec 16) {s : State} (hk : s.kept q n) :
    outKept q n (execImgBegin x0 tag s) := by
  unfold execImgBegin
  with_reducible repeat' first | assumption | refine out_next ?_ | apply State.checked_kept | apply State.images_kept | apply State.okData_kept | apply State.onCmd_kept | apply State.say_kept | apply State.useFree_kept | intro _ | refine kept_ite ?_ ?_ | refine out_ite ?_ ?_ | refine kept_mk ?_

theorem execImgData_kept (x0 : Fin 6) (tag : BitVec 16) {s : State} (hk : s.kept q n) :
    outKept q n (execImgData x0 tag s) := by
  unfold execImgData
  with_reducible repeat' first | assumption | refine out_next ?_ | apply State.checked_kept | apply State.onCmd_kept | apply State.putImage_kept | apply State.say_kept | intro _ | split | refine fst_kept (by assumption) ?_ | refine snd_kept (by assumption) ?_ | refine opt_kept (by assumption) ?_ | refine kept_mk ?_

theorem State.flashPut_kept {s : State} (x1 : Nat) (off : Nat) (bs : List Byte) (hk : s.kept q n) :
    (State.flashPut s x1 off bs).kept q n := by
  unfold State.flashPut
  with_reducible repeat' first | assumption | apply foldl_kept | intro _ | refine kept_mk ?_

theorem State.hostImage_kept {s : State} (x1 : Nat) (i : Image) (hk : s.kept q n) :
    (State.hostImage s x1 i).kept q n := by
  unfold State.hostImage
  with_reducible repeat' first | assumption | apply State.loadImage_kept | refine kept_ite ?_ ?_ | split | refine fst_kept (by assumption) ?_ | refine snd_kept (by assumption) ?_ | refine opt_kept (by assumption) ?_ | refine kept_mk ?_

theorem State.imageStore_kept {s : State} (i : Image) (hk : s.kept q n) :
    (State.imageStore s i).kept q n := by
  unfold State.imageStore
  with_reducible repeat' first | assumption | apply State.flashPut_kept | refine kept_ite ?_ ?_ | split | refine fst_kept (by assumption) ?_ | refine snd_kept (by assumption) ?_ | refine opt_kept (by assumption) ?_ | refine kept_mk ?_

theorem execImgCommit_kept (x0 : Fin 6) (tag : BitVec 16) {s : State} (hk : s.kept q n) :
    outKept q n (execImgCommit x0 tag s) := by
  unfold execImgCommit
  with_reducible repeat' first | assumption | refine out_next ?_ | apply State.hostImage_kept | apply State.imageStore_kept | apply State.inc_kept | apply State.okData_kept | apply State.onCmd_kept | apply State.say_kept | intro _ | split | refine fst_kept (by assumption) ?_ | refine snd_kept (by assumption) ?_ | refine opt_kept (by assumption) ?_ | refine kept_mk ?_

theorem execImgAbort_kept (x0 : Fin 6) (tag : BitVec 16) {s : State} (hk : s.kept q n) :
    outKept q n (execImgAbort x0 tag s) := by
  unfold execImgAbort
  with_reducible repeat' first | assumption | refine out_next ?_ | apply State.dropImage_kept | apply State.onCmd_kept | apply State.say_kept | intro _ | split | refine fst_kept (by assumption) ?_ | refine snd_kept (by assumption) ?_ | refine opt_kept (by assumption) ?_ | refine kept_mk ?_

theorem execNeLoad_kept (x0 : Fin 6) (tag : BitVec 16) {s : State} (hk : s.kept q n) :
    outKept q n (execNeLoad x0 tag s) := by
  unfold execNeLoad
  with_reducible repeat' first | assumption | refine out_next ?_ | apply State.checked_kept | apply State.dropImage_kept | apply State.mapEng_kept | apply State.onCmd_kept | apply State.say_kept | intro _ | refine kept_ite ?_ ?_ | refine out_ite ?_ ?_ | split | refine fst_kept (by assumption) ?_ | refine snd_kept (by assumption) ?_ | refine opt_kept (by assumption) ?_ | refine kept_mk ?_

theorem execNeRun_kept (x0 : Fin 6) (tag : BitVec 16) {s : State} (hk : s.kept q n) :
    outKept q n (execNeRun x0 tag s) := by
  unfold execNeRun
  with_reducible repeat' first | assumption | refine out_next ?_ | apply State.checked_kept | apply State.onCmd_kept | apply State.writesThen_kept | intro _ | refine kept_mk ?_

theorem execNeReset_kept (x0 : Fin 6) (tag : BitVec 16) {s : State} (hk : s.kept q n) :
    outKept q n (execNeReset x0 tag s) := by
  unfold execNeReset
  with_reducible repeat' first | assumption | refine out_next ?_ | apply State.checked_kept | apply State.kcpAssert_kept | apply State.onCmd_kept | apply State.say_kept | intro _ | refine kept_mk ?_

theorem execNeInfo_kept (x0 : Fin 6) (tag : BitVec 16) {s : State} (hk : s.kept q n) :
    outKept q n (execNeInfo x0 tag s) := by
  unfold execNeInfo
  with_reducible repeat' first | assumption | refine out_next ?_ | apply State.checked_kept | apply State.onCmd_kept | apply State.reads_kept | intro _ | refine kept_mk ?_

theorem execProfileCfg_kept (x0 : Fin 6) (tag : BitVec 16) {s : State} (hk : s.kept q n) :
    outKept q n (execProfileCfg x0 tag s) := by
  unfold execProfileCfg
  with_reducible repeat' first | assumption | refine out_next ?_ | apply State.checked_kept | apply State.onCmd_kept | apply State.say_kept | intro _ | refine kept_ite ?_ ?_ | refine out_ite ?_ ?_ | refine kept_mk ?_

end Sys2Proof.Machine
end

