-- ==== Sys2Proof/Laws/KeptKcpMem.lean ====
section
/-! SUPPORT. What the definitions of Machine/KcpMem.lean keep: the queue, the time, the canonical form of memory and registers, and that at
most one half is in CHARGE. -/

set_option linter.unreachableTactic false
set_option linter.unusedTactic false
set_option linter.unusedVariables false

namespace Sys2Proof.Machine
open Sys2Proof

variable {q : List Instr} {n : Nat}

theorem execSpadWin_kept (x0 : Fin 6) (tag : BitVec 16) {s : State} (hk : s.kept q n) :
    outKept q n (execSpadWin x0 tag s) := by
  unfold execSpadWin
  with_reducible repeat' first | assumption | refine out_next ?_ | apply State.checked_kept | apply State.onCmd_kept | apply State.writes_kept | intro _ | refine kept_mk ?_

theorem execMbxBind_kept (x0 : Fin 6) (tag : BitVec 16) {s : State} (hk : s.kept q n) :
    outKept q n (execMbxBind x0 tag s) := by
  unfold execMbxBind
  with_reducible repeat' first | assumption | refine out_next ?_ | apply State.checked_kept | apply State.onCmd_kept | apply State.say_kept | apply State.writes_kept | intro _ | refine kept_ite ?_ ?_ | refine out_ite ?_ ?_ | refine kept_mk ?_

theorem State.testBanks_kept {s : State} (x1 : Half) (hk : s.kept q n) :
    (State.testBanks s x1).kept q n := by
  unfold State.testBanks
  with_reducible repeat' first | assumption | apply State.putbs_kept | apply State.useFree_kept | refine kept_mk ?_

theorem execMemTest_kept (x0 : Fin 6) (tag : BitVec 16) (bad : Option (Fin 0x200000)) {s : State} (hk : s.kept q n) :
    outKept q n (execMemTest x0 tag bad s) := by
  unfold execMemTest
  with_reducible repeat' first | assumption | refine out_next ?_ | apply State.bytesBelow_kept | apply State.okData_kept | apply State.onCmd_kept | apply State.say_kept | apply State.testBanks_kept | intro _ | refine kept_ite ?_ ?_ | refine out_ite ?_ ?_ | split | refine fst_kept (by assumption) ?_ | refine snd_kept (by assumption) ?_ | refine opt_kept (by assumption) ?_ | refine kept_mk ?_

theorem execBankOwner_kept (x0 : Fin 6) (tag : BitVec 16) {s : State} (hk : s.kept q n) :
    outKept q n (execBankOwner x0 tag s) := by
  unfold execBankOwner
  with_reducible repeat' first | assumption | refine out_next ?_ | apply State.bytesBelow_kept | apply State.onCmd_kept | apply State.say_kept | apply State.writes_kept | intro _ | refine kept_ite ?_ ?_ | refine out_ite ?_ ?_ | refine kept_mk ?_

theorem execLarderCfg_kept (x0 : Fin 6) (tag : BitVec 16) {s : State} (hk : s.kept q n) :
    outKept q n (execLarderCfg x0 tag s) := by
  unfold execLarderCfg
  with_reducible repeat' first | assumption | refine out_next ?_ | apply State.images_kept | apply State.onCmd_kept | intro _ | refine kept_mk ?_

theorem execLarderFreeze_kept (x0 : Fin 6) (tag : BitVec 16) {s : State} (hk : s.kept q n) :
    outKept q n (execLarderFreeze x0 tag s) := by
  unfold execLarderFreeze
  with_reducible repeat' first | assumption | refine out_next ?_ | apply State.freezeTrigger_kept | apply State.okData_kept | apply State.onCmd_kept | apply State.say_kept | intro _ | refine kept_ite ?_ ?_ | refine out_ite ?_ ?_ | refine kept_mk ?_

theorem execLarderRelease_kept (x0 : Fin 6) (tag : BitVec 16) {s : State} (hk : s.kept q n) :
    outKept q n (execLarderRelease x0 tag s) := by
  unfold execLarderRelease
  with_reducible repeat' first | assumption | refine out_next ?_ | apply State.freezeRelease_kept | apply State.onCmd_kept | apply State.say_kept | intro _ | refine kept_mk ?_

theorem State.larderRead_kept {s : State} (k : Nat) (as : List (Nat × Nat)) (h : s.kept q n) :
    (s.larderRead k as).1.kept q n := by
  induction as generalizing s k with
  | nil => exact h
  | cons x as ih =>
    obtain ⟨a, m⟩ := x
    unfold State.larderRead
    split
    · exact h
    · exact h
    · next x _ _ =>
      have h1 := ih (k + 1) (State.granule_kept x a h)
      dsimp only
      split
      · next t r ht => exact fst_kept ht h1
      · next t r ht => exact fst_kept ht h1

theorem State.larderReply_kept {s : State} (c : KCmd) (spans : List (Nat × Nat)) (hk : s.kept q n) :
    (State.larderReply s c spans).kept q n := by
  unfold State.larderReply
  with_reducible repeat' first | assumption | apply State.finish_kept | apply State.larderRead_kept | apply State.ok_kept | apply State.okData_kept | split | refine fst_kept (by assumption) ?_ | refine snd_kept (by assumption) ?_ | refine opt_kept (by assumption) ?_ | refine kept_mk ?_

theorem execLarderPages_kept (x0 : Fin 6) (tag : BitVec 16) (lapped : Bool) {s : State} (hk : s.kept q n) :
    outKept q n (execLarderPages x0 tag lapped s) := by
  unfold execLarderPages
  with_reducible repeat' first | assumption | refine out_next ?_ | apply State.checked_kept | apply State.larderReply_kept | apply State.onCmd_kept | apply State.say_kept | intro _ | refine kept_ite ?_ ?_ | refine out_ite ?_ ?_ | refine kept_mk ?_

theorem execLarderEvents_kept (x0 : Fin 6) (tag : BitVec 16) (lapped : Bool) {s : State} (hk : s.kept q n) :
    outKept q n (execLarderEvents x0 tag lapped s) := by
  unfold execLarderEvents
  with_reducible repeat' first | assumption | refine out_next ?_ | apply State.checked_kept | apply State.larderReply_kept | apply State.onCmd_kept | apply State.say_kept | intro _ | refine kept_ite ?_ ?_ | refine out_ite ?_ ?_ | split | refine fst_kept (by assumption) ?_ | refine snd_kept (by assumption) ?_ | refine opt_kept (by assumption) ?_ | refine kept_mk ?_

end Sys2Proof.Machine
end

