-- ==== Sys2Proof/Laws/KeptKcpSecure.lean ====
section
/-! SUPPORT. What the definitions of Machine/KcpSecure.lean keep: the queue, the time, the canonical form of memory and registers, and that at
most one half is in CHARGE. -/

set_option linter.unreachableTactic false
set_option linter.unusedTactic false
set_option linter.unusedVariables false

namespace Sys2Proof.Machine
open Sys2Proof

variable {q : List Instr} {n : Nat}

theorem execLcGet_kept (x0 : Fin 6) (tag : BitVec 16) {s : State} (hk : s.kept q n) :
    outKept q n (execLcGet x0 tag s) := by
  unfold execLcGet
  with_reducible repeat' first | assumption | refine out_next ?_ | apply State.okData_kept | apply State.onCmd_kept | intro _ | refine kept_mk ?_

theorem execLcSet_kept (x0 : Fin 6) (tag : BitVec 16) {s : State} (hk : s.kept q n) :
    outKept q n (execLcSet x0 tag s) := by
  unfold execLcSet
  with_reducible repeat' first | assumption | refine out_next ?_ | apply State.authFail_kept | apply State.later_kept | apply State.onCmd_kept | apply State.say_kept | intro _ | refine kept_ite ?_ ?_ | refine out_ite ?_ ?_ | split | refine fst_kept (by assumption) ?_ | refine snd_kept (by assumption) ?_ | refine opt_kept (by assumption) ?_ | refine kept_mk ?_

theorem State.fuseJobs_kept {s : State} (ws : List (Nat × Nat)) (hk : s.kept q n) :
    (State.fuseJobs s ws).kept q n := by
  unfold State.fuseJobs
  with_reducible repeat' first | assumption | intro _ | refine kept_mk ?_

theorem State.fusesDone_kept {s : State} (c : KCmd) (hk : s.kept q n) :
    (State.fusesDone s c).kept q n := by
  unfold State.fusesDone
  with_reducible repeat' first | assumption | apply State.say_kept | refine kept_ite ?_ ?_ | refine kept_mk ?_

theorem execKeyLoad_kept (x0 : Fin 6) (tag : BitVec 16) {s : State} (hk : s.kept q n) :
    outKept q n (execKeyLoad x0 tag s) := by
  unfold execKeyLoad
  with_reducible repeat' first | assumption | refine out_next ?_ | apply State.authFail_kept | apply State.finish_kept | apply State.fuseJobs_kept | apply State.fusesDone_kept | apply State.ok_kept | apply State.onCmd_kept | apply State.putKcmd_kept | intro _ | refine kept_ite ?_ ?_ | refine out_ite ?_ ?_ | split | refine fst_kept (by assumption) ?_ | refine snd_kept (by assumption) ?_ | refine opt_kept (by assumption) ?_ | refine kept_mk ?_

theorem execVaultDelegate_kept (x0 : Fin 6) (tag : BitVec 16) {s : State} (hk : s.kept q n) :
    outKept q n (execVaultDelegate x0 tag s) := by
  unfold execVaultDelegate
  with_reducible repeat' first | assumption | refine out_next ?_ | apply State.bytesBelow_kept | apply State.onCmd_kept | apply State.writes_kept | intro _ | refine kept_mk ?_

theorem execVaultWipe_kept (x0 : Fin 6) (tag : BitVec 16) {s : State} (hk : s.kept q n) :
    outKept q n (execVaultWipe x0 tag s) := by
  unfold execVaultWipe
  with_reducible repeat' first | assumption | refine out_next ?_ | apply State.onCmd_kept | apply State.say_kept | apply State.vaultWipe_kept | intro _ | refine kept_mk ?_

theorem execRollbackSet_kept (x0 : Fin 6) (tag : BitVec 16) {s : State} (hk : s.kept q n) :
    outKept q n (execRollbackSet x0 tag s) := by
  unfold execRollbackSet
  with_reducible repeat' first | assumption | refine out_next ?_ | apply State.badParam_kept | apply State.bytesBelow_kept | apply State.fusesDone_kept | apply State.onCmd_kept | apply State.program_kept | apply State.putKcmd_kept | apply State.say_kept | intro _ | refine kept_ite ?_ ?_ | refine out_ite ?_ ?_ | split | refine fst_kept (by assumption) ?_ | refine snd_kept (by assumption) ?_ | refine opt_kept (by assumption) ?_ | refine kept_mk ?_

theorem execBootSlot_kept (x0 : Fin 6) (tag : BitVec 16) {s : State} (hk : s.kept q n) :
    outKept q n (execBootSlot x0 tag s) := by
  unfold execBootSlot
  with_reducible repeat' first | assumption | refine out_next ?_ | apply State.bytesBelow_kept | apply State.onCmd_kept | apply State.writes_kept | intro _ | refine kept_mk ?_

theorem execDebugUnlock_kept (x0 : Fin 6) (tag : BitVec 16) {s : State} (hk : s.kept q n) :
    outKept q n (execDebugUnlock x0 tag s) := by
  unfold execDebugUnlock
  with_reducible repeat' first | assumption | refine out_next ?_ | apply State.authFail_kept | apply State.bytesBelow_kept | apply State.onCmd_kept | apply State.say_kept | apply State.setf_kept | intro _ | refine kept_ite ?_ ?_ | refine out_ite ?_ ?_ | split | refine fst_kept (by assumption) ?_ | refine snd_kept (by assumption) ?_ | refine opt_kept (by assumption) ?_ | refine kept_mk ?_

end Sys2Proof.Machine
end

