-- ==== Sys2Proof/Laws/KeptKcpTime.lean ====
section
/-! SUPPORT. What the definitions of Machine/KcpTime.lean keep: the queue, the time, the canonical form of memory and registers, and that at
most one half is in CHARGE. -/

set_option linter.unreachableTactic false
set_option linter.unusedTactic false
set_option linter.unusedVariables false

namespace Sys2Proof.Machine
open Sys2Proof

variable {q : List Instr} {n : Nat}

theorem execRefSel_kept (x0 : Fin 6) (tag : BitVec 16) {s : State} (hk : s.kept q n) :
    outKept q n (execRefSel x0 tag s) := by
  unfold execRefSel
  with_reducible repeat' first | assumption | refine out_next ?_ | apply State.bytesBelow_kept | apply State.onCmd_kept | apply State.writes_kept | intro _ | refine kept_mk ?_

theorem execDomCfg_kept (x0 : Fin 6) (tag : BitVec 16) {s : State} (hk : s.kept q n) :
    outKept q n (execDomCfg x0 tag s) := by
  unfold execDomCfg
  with_reducible repeat' first | assumption | refine out_next ?_ | apply State.bytesBelow_kept | apply State.onCmd_kept | apply State.writes_kept | intro _ | refine kept_mk ?_

theorem execDomCommit_kept (x0 : Fin 6) (tag : BitVec 16) {s : State} (hk : s.kept q n) :
    outKept q n (execDomCommit x0 tag s) := by
  unfold execDomCommit
  with_reducible repeat' first | assumption | refine out_next ?_ | apply State.bytesBelow_kept | apply State.onCmd_kept | apply State.say_kept | apply State.writesThen_kept | intro _ | refine kept_ite ?_ ?_ | refine out_ite ?_ ?_ | refine kept_mk ?_

theorem execCmpCfg_kept (x0 : Fin 6) (tag : BitVec 16) {s : State} (hk : s.kept q n) :
    outKept q n (execCmpCfg x0 tag s) := by
  unfold execCmpCfg
  with_reducible repeat' first | assumption | refine out_next ?_ | apply State.bytesBelow_kept | apply State.onCmd_kept | apply State.writes_kept | intro _ | refine kept_mk ?_

theorem execPpsCfg_kept (x0 : Fin 6) (tag : BitVec 16) {s : State} (hk : s.kept q n) :
    outKept q n (execPpsCfg x0 tag s) := by
  unfold execPpsCfg
  with_reducible repeat' first | assumption | refine out_next ?_ | apply State.bytesBelow_kept | apply State.images_kept | apply State.onCmd_kept | intro _ | refine kept_mk ?_

theorem execPtpCfg_kept (x0 : Fin 6) (tag : BitVec 16) {s : State} (hk : s.kept q n) :
    outKept q n (execPtpCfg x0 tag s) := by
  unfold execPtpCfg
  with_reducible repeat' first | assumption | refine out_next ?_ | apply State.bytesBelow_kept | apply State.onCmd_kept | apply State.say_kept | intro _ | refine kept_ite ?_ ?_ | refine out_ite ?_ ?_ | refine kept_mk ?_

theorem execPtpStatus_kept (x0 : Fin 6) (tag : BitVec 16) {s : State} (hk : s.kept q n) :
    outKept q n (execPtpStatus x0 tag s) := by
  unfold execPtpStatus
  with_reducible repeat' first | assumption | refine out_next ?_ | apply State.bytesBelow_kept | apply State.okData_kept | apply State.onCmd_kept | apply State.say_kept | apply State.useFree_kept | intro _ | split | refine fst_kept (by assumption) ?_ | refine snd_kept (by assumption) ?_ | refine opt_kept (by assumption) ?_ | refine kept_mk ?_

theorem execTscCfg_kept (x0 : Fin 6) (tag : BitVec 16) {s : State} (hk : s.kept q n) :
    outKept q n (execTscCfg x0 tag s) := by
  unfold execTscCfg
  with_reducible repeat' first | assumption | refine out_next ?_ | apply State.bytesBelow_kept | apply State.images_kept | apply State.onCmd_kept | intro _ | refine kept_mk ?_

theorem execPatternLoad_kept (x0 : Fin 6) (tag : BitVec 16) {s : State} (hk : s.kept q n) :
    outKept q n (execPatternLoad x0 tag s) := by
  unfold execPatternLoad
  with_reducible repeat' first | assumption | refine out_next ?_ | apply State.bytesBelow_kept | apply State.mapCan_kept | apply State.onCmd_kept | apply State.say_kept | apply State.setf_kept | intro _ | refine kept_ite ?_ ?_ | refine out_ite ?_ ?_ | split | refine fst_kept (by assumption) ?_ | refine snd_kept (by assumption) ?_ | refine opt_kept (by assumption) ?_ | refine kept_mk ?_

theorem execDttCfg_kept (x0 : Fin 6) (tag : BitVec 16) {s : State} (hk : s.kept q n) :
    outKept q n (execDttCfg x0 tag s) := by
  unfold execDttCfg
  with_reducible repeat' first | assumption | refine out_next ?_ | apply State.bytesBelow_kept | apply State.onCmd_kept | apply State.say_kept | apply State.writes_kept | intro _ | refine kept_ite ?_ ?_ | refine out_ite ?_ ?_ | refine kept_mk ?_

theorem execDttRun_kept (x0 : Fin 6) (tag : BitVec 16) {s : State} (hk : s.kept q n) :
    outKept q n (execDttRun x0 tag s) := by
  unfold execDttRun
  with_reducible repeat' first | assumption | refine out_next ?_ | apply State.bytesBelow_kept | apply State.onCmd_kept | apply State.writesThen_kept | intro _ | refine kept_mk ?_

theorem execDttInfo_kept (x0 : Fin 6) (tag : BitVec 16) {s : State} (hk : s.kept q n) :
    outKept q n (execDttInfo x0 tag s) := by
  unfold execDttInfo
  with_reducible repeat' first | assumption | refine out_next ?_ | apply State.checked_kept | apply State.onCmd_kept | apply State.reads_kept | intro _ | refine kept_mk ?_

theorem execDttColMap_kept (x0 : Fin 6) (tag : BitVec 16) {s : State} (hk : s.kept q n) :
    outKept q n (execDttColMap x0 tag s) := by
  unfold execDttColMap
  with_reducible repeat' first | assumption | refine out_next ?_ | apply State.bytesBelow_kept | apply State.images_kept | apply State.onCmd_kept | apply State.say_kept | intro _ | refine kept_ite ?_ ?_ | refine out_ite ?_ ?_ | refine kept_mk ?_

end Sys2Proof.Machine
end

