-- ==== Sys2Proof/Laws/KeptKcpWake.lean ====
section
/-! SUPPORT. What the definitions of Machine/KcpWake.lean keep: the queue, the time, the canonical form of memory and registers, and that at
most one half is in CHARGE. -/

set_option linter.unreachableTactic false
set_option linter.unusedTactic false
set_option linter.unusedVariables false

namespace Sys2Proof.Machine
open Sys2Proof

variable {q : List Instr} {n : Nat}

theorem execPstateReq_kept (x0 : Fin 6) (tag : BitVec 16) {s : State} (hk : s.kept q n) :
    outKept q n (execPstateReq x0 tag s) := by
  unfold execPstateReq
  with_reducible repeat' first | assumption | refine out_next ?_ | apply State.bytesBelow_kept | apply State.later_kept | apply State.onCmd_kept | apply State.powerRequest_kept | apply State.reqRej_kept | apply State.say_kept | intro _ | refine kept_ite ?_ ?_ | refine out_ite ?_ ?_ | refine kept_mk ?_

theorem execSegCfg_kept (x0 : Fin 6) (tag : BitVec 16) {s : State} (hk : s.kept q n) :
    outKept q n (execSegCfg x0 tag s) := by
  unfold execSegCfg
  with_reducible repeat' first | assumption | refine out_next ?_ | apply State.bytesBelow_kept | apply State.onCmd_kept | apply State.writes_kept | intro _ | refine kept_ite ?_ ?_ | refine out_ite ?_ ?_ | refine kept_mk ?_

theorem execSegHold_kept (x0 : Fin 6) (tag : BitVec 16) {s : State} (hk : s.kept q n) :
    outKept q n (execSegHold x0 tag s) := by
  unfold execSegHold
  with_reducible repeat' first | assumption | refine out_next ?_ | apply State.bytesBelow_kept | apply State.onCmd_kept | apply State.writes_kept | intro _ | refine kept_mk ?_

theorem execWakeEntry_kept (x0 : Fin 6) (tag : BitVec 16) {s : State} (hk : s.kept q n) :
    outKept q n (execWakeEntry x0 tag s) := by
  unfold execWakeEntry
  with_reducible repeat' first | assumption | refine out_next ?_ | apply State.checked_kept | apply State.onCmd_kept | apply State.writes_kept | intro _ | refine kept_mk ?_

theorem execWakeSrc_kept (x0 : Fin 6) (tag : BitVec 16) {s : State} (hk : s.kept q n) :
    outKept q n (execWakeSrc x0 tag s) := by
  unfold execWakeSrc
  with_reducible repeat' first | assumption | refine out_next ?_ | apply State.checked_kept | apply State.onCmd_kept | apply State.writes_kept | intro _ | refine kept_ite ?_ ?_ | refine out_ite ?_ ?_ | refine kept_mk ?_

theorem execWakeGlobal_kept (x0 : Fin 6) (tag : BitVec 16) {s : State} (hk : s.kept q n) :
    outKept q n (execWakeGlobal x0 tag s) := by
  unfold execWakeGlobal
  with_reducible repeat' first | assumption | refine out_next ?_ | apply State.onCmd_kept | apply State.writes_kept | intro _ | refine kept_mk ?_

theorem execInsomniaRead_kept (x0 : Fin 6) (tag : BitVec 16) {s : State} (hk : s.kept q n) :
    outKept q n (execInsomniaRead x0 tag s) := by
  unfold execInsomniaRead
  with_reducible repeat' first | assumption | refine out_next ?_ | apply State.bytesBelow_kept | apply State.onCmd_kept | apply State.reads_kept | intro _ | refine kept_mk ?_

theorem execInsomniaClr_kept (x0 : Fin 6) (tag : BitVec 16) {s : State} (hk : s.kept q n) :
    outKept q n (execInsomniaClr x0 tag s) := by
  unfold execInsomniaClr
  with_reducible repeat' first | assumption | refine out_next ?_ | apply State.onCmd_kept | apply State.writes_kept | intro _ | refine kept_mk ?_

theorem execHkLoad_kept (x0 : Fin 6) (tag : BitVec 16) {s : State} (hk : s.kept q n) :
    outKept q n (execHkLoad x0 tag s) := by
  unfold execHkLoad
  with_reducible repeat' first | assumption | refine out_next ?_ | apply State.checked_kept | apply State.finish_kept | apply State.onCmd_kept | apply State.say_kept | apply State.writes_kept | intro _ | refine kept_ite ?_ ?_ | refine out_ite ?_ ?_ | split | refine fst_kept (by assumption) ?_ | refine snd_kept (by assumption) ?_ | refine opt_kept (by assumption) ?_ | refine kept_mk ?_

theorem execHkCfg_kept (x0 : Fin 6) (tag : BitVec 16) {s : State} (hk : s.kept q n) :
    outKept q n (execHkCfg x0 tag s) := by
  unfold execHkCfg
  with_reducible repeat' first | assumption | refine out_next ?_ | apply State.bytesBelow_kept | apply State.onCmd_kept | apply State.writes_kept | intro _ | refine kept_mk ?_

theorem execHkRun_kept (x0 : Fin 6) (tag : BitVec 16) {s : State} (hk : s.kept q n) :
    outKept q n (execHkRun x0 tag s) := by
  unfold execHkRun
  with_reducible repeat' first | assumption | refine out_next ?_ | apply State.bytesBelow_kept | apply State.onCmd_kept | apply State.writesThen_kept | intro _ | refine kept_ite ?_ ?_ | refine out_ite ?_ ?_ | refine kept_mk ?_

theorem execHkPin_kept (x0 : Fin 6) (tag : BitVec 16) {s : State} (hk : s.kept q n) :
    outKept q n (execHkPin x0 tag s) := by
  unfold execHkPin
  with_reducible repeat' first | assumption | refine out_next ?_ | apply State.bytesBelow_kept | apply State.images_kept | apply State.onCmd_kept | intro _ | refine kept_mk ?_

end Sys2Proof.Machine
end

