-- ==== Sys2Proof/Tests/Slice0.lean ====
section
/-! SUPPORT. Tests: the checks of well-formed commands, and for each statement concrete states and operands that meet its
hypotheses. -/

set_option maxRecDepth 100000

namespace Sys2Proof.Tests
open Sys2Proof Sys2Proof.Machine

/-- A state with both halves running and a value put into some registers. -/
def tRun (ws : List (Nat × Nat)) : State :=
  let s := State.reset
  let s : State := { s with rst := { s.rst with stage := .done, k := { s.rst.k with phase := .running }, p := { s.rst.p with phase := .running } } }
  ((A.SPAD_STATUS 0, 0) :: (A.SPAD_STATUS 1, 0) :: ws).foldl (fun s e => s.wrn e.1 e.2) s

/-! ### Well-formedness: for each check a command that it refuses -/

def tSpad (m a n : Nat) (write : Bool) (data : List Byte) : SpadOp := ⟨m, a, n, write, data, .clean, .clean⟩
def tCx (fmt : CanFmt) (ide : Bool) (ident len sdt vcid af : Nat) : CxFrame := ⟨fmt, ide, ident, false, false, List.replicate len 0, false, sdt, vcid, af⟩
def tWord : ActWord := ⟨0, 0, 0, 0, 0, 0, .clean⟩
theorem test_wf_register_access_length : (Instr.registerWrite (.read 0 0 0 BusEnv.clean)).wf = false ∧ (Instr.registerWrite (.read 0 0 65 BusEnv.clean)).wf = false ∧
    (Instr.registerWrite (.write 0 0 [] BusEnv.clean)).wf = false := by decide
theorem test_wf_dram_access : (Instr.dramAccess 0 0 0 false [] .clean .clean).wf = false ∧ (Instr.dramAccess 0 0 0 true [] .clean .clean).wf = false ∧
    (Instr.dramAccess 0 0 1 true (List.replicate 65 0) .clean .clean).wf = false := by decide
theorem test_wf_vault_access : (Instr.vaultAccess 0 0 0 false []).wf = false ∧ (Instr.vaultAccess 0 0 1 true (List.replicate 9 0)).wf = false := by decide
theorem test_wf_scratchpad_access : (Instr.scratchpadAccess (some (tSpad 256 0 1 false [])) none).wf = false ∧
    (Instr.scratchpadAccess none (some (tSpad 0 (2 ^ 40) 1 false []))).wf = false ∧ (Instr.scratchpadAccess (some (tSpad 0 0 9 false [])) none).wf = false ∧
    (Instr.scratchpadAccess (some (tSpad 0 0 2 true [1])) none).wf = false := by decide
theorem test_wf_amo_rivals : (Instr.hartAmoScratchpad 0 .add true 0 0 .clean (some (tSpad 0 0 0 false [])) none).wf = false ∧
    (Instr.hartAmoScratchpad 0 .add true 0 0 .clean none (some (tSpad 0 0 0 false []))).wf = false := by decide
theorem test_wf_recipe_rivals : (Instr.recEnd 0 false tWord (some (tSpad 0 0 0 false []))).wf = false ∧ (Instr.recSt 0 false tWord (some (tSpad 0 0 0 false []))).wf = false ∧
    (Instr.recFset 0 false tWord (some (tSpad 0 0 0 false []))).wf = false ∧ (Instr.recFclr 0 false tWord (some (tSpad 0 0 0 false []))).wf = false := by decide
theorem test_wf_can_identifier : (Instr.cxFrameReceive 0 (tCx .cc false 2048 0 0 0 0) 0 false).wf = false ∧
    (Instr.cxFrameReceive 0 (tCx .fd true (2 ^ 29) 0 0 0 0) 0 false).wf = false := by decide
theorem test_wf_can_data : (Instr.cxFrameReceive 0 (tCx .cc false 0 9 0 0 0) 0 false).wf = false ∧ (Instr.cxFrameReceive 0 (tCx .fd false 0 65 0 0 0) 0 false).wf = false := by decide
theorem test_wf_can_xl_fields : (Instr.cxFrameReceive 0 (tCx .xl false 0 1 256 0 0) 0 false).wf = false ∧ (Instr.cxFrameReceive 0 (tCx .xl false 0 1 0 256 0) 0 false).wf = false ∧
    (Instr.cxFrameReceive 0 (tCx .xl false 0 1 0 0 (2 ^ 32)) 0 false).wf = false := by decide
theorem test_wf_stamps : (Instr.cxFrameReceive 0 (tCx .xl false 0 1 0 0 0) (2 ^ 64) false).wf = false ∧ (Instr.dttReferenceReceive 0 0 (2 ^ 64) []).wf = false ∧
    (Instr.macFrameTransmit 0 (2 ^ 67)).wf = false ∧ (Instr.macFrameReceive 0 (List.replicate 14 0) false false true (2 ^ 67)).wf = false ∧
    (Instr.inlineFrameStart 0 0 (List.replicate 14 0) true (2 ^ 64) 0 false ⟨false, .clean⟩).wf = false := by decide
theorem test_wf_frame_headers : (Instr.macFrameReceive 0 (List.replicate 13 0) false false true 0).wf = false ∧ (Instr.inlineFrameStart 0 0 [] true 0 0 false ⟨false, .clean⟩).wf = false ∧
    (Instr.inlineStoppedFrame 0 0 [] ⟨0, false⟩).wf = false ∧ (Instr.keepaliveReceive 0 [] 0).wf = false ∧ (Instr.wakeFrameReceive 0 [] 0).wf = false := by decide
theorem test_wf_lock_readers : (Instr.mbxLockRead 0 [3, 3]).wf = false := by decide
theorem test_wf_ring_descriptor : (Instr.kcpDbWrite 0 .k [(0, ⟨2 ^ 64, 0, 0, 0, 0⟩)] 0).wf = false ∧ (Instr.kcpDbWrite 0 .k [(0, ⟨0, 2 ^ 32, 0, 0, 0⟩)] 0).wf = false := by decide
theorem test_wf_aperture_access : (Instr.pcieApertureAccess 0 0 true [] [] []).wf = false ∧ (Instr.pcieApertureAccess 0 0 true [true] [] []).wf = false := by decide
theorem test_wf_rdmem_late : (Instr.rdmem .k 0 0 1 (some 65536) []).wf = false := by decide
theorem test_wf_rail_voltage : (Instr.vddioClassSet 0 4001).wf = false := by decide
theorem test_wf_accepts : (Instr.vddioClassSet 0 4000).wf = true ∧ (Instr.scratchpadAccess (some (tSpad 255 (2 ^ 40 - 1) 8 true (List.replicate 8 0))) none).wf = true ∧
    (Instr.macFrameReceive 0 (List.replicate 14 0) false false true (2 ^ 67 - 1)).wf = true := by decide

/-- Engine 0 of half K at an instruction word, STOPPED (0), RUNNING (1) or STALLED (2), with FIFOs. -/
def tHook (w st : Nat) (ws : List (Nat × Nat)) (tx rx : List Word) : State :=
  (tRun ([(A.HK_STATUS 0, st), (A.HK_PROG 0 0, w)] ++ ws)).mapHook 0 fun x => { x with tx := tx, rx := rx, waited := 1 }

theorem wit_HookSetLoopJmpEffects :
    (tHook 0x0080 1 [] [] []).hookActs 0 0 ∧ (tHook 0x0205 1 [] [] []).hookActs 0 1 ∧ (tHook 0x0405 1 [] [] []).hookActs 0 2 := by
  decide
theorem wit_HookShiftEffects :
    (tHook 0x0780 1 [] [] []).hookActs 0 3 ∧ (tHook 0x0804 1 [] [] []).hookActs 0 4 ∧ (tHook 0x0A04 1 [] [] []).hookActs 0 5 := by
  decide
theorem wit_HookFifoInstructionEffects :
    (let s := tHook 0x0C00 1 [] [5] []; s.hookActs 0 6 ∧ s.hkEngine 0 = none ∧ hkArg (s.hkWord 0) = 0 ∧ (s.hook 0).tx = 5 :: []) ∧
    (let s := tHook 0x0C00 1 [] [] []; s.hookActs 0 6 ∧ hkArg (s.hkWord 0) = 0 ∧ (s.hook 0).tx = []) ∧
    (let s := tHook 0x0E01 1 [] [] [1, 2, 3, 4, 5, 6, 7]
     s.hookActs 0 7 ∧ s.hkEngine 0 = none ∧ hkArg (s.hkWord 0) < 2 ∧ (s.hook 0).rx.length < 8) ∧
    (let s := tHook 0x0E01 1 [] [] [1, 2, 3, 4, 5, 6, 7, 8]; s.hookActs 0 7 ∧ hkArg (s.hkWord 0) < 2 ∧ 8 ≤ (s.hook 0).rx.length) ∧
    (let s := tHook 0x0C00 2 [] [5] []
     s.hookActs 0 6 ∧ s.hkState 0 = hkStalled ∧ s.hkEngine 0 = none ∧ hkArg (s.hkWord 0) = 0 ∧ (s.hook 0).tx = 5 :: []) ∧
    (let s := tHook 0x0E01 2 [] [] []
     s.hookActs 0 7 ∧ s.hkState 0 = hkStalled ∧ s.hkEngine 0 = none ∧ hkArg (s.hkWord 0) < 2 ∧ (s.hook 0).rx.length < 8) ∧
    (let s := tHook 0x0620 2 [] [] []
     s.hookActs 0 3 ∧ s.hkState 0 = hkStalled ∧ (s.samplePins 0 0).waitTrue 0 (hkArg (s.hkWord 0)) = true) ∧
    (let s := tHook 0x07A0 2 [] [] []
     s.hookActs 0 3 ∧ s.hkState 0 = hkStalled ∧ waitReserved (hkArg (s.hkWord 0)) = false ∧ bitAt (hkArg (s.hkWord 0)) 8 = true ∧
      (s.samplePins 0 0).waitTrue 0 (hkArg (s.hkWord 0)) = false ∧
      max 1 (s.fld (A.HK_WAITTO 0) F.HK_WAITTO.COUNT) ≤ (s.hook 0).waited) := by decide

/-- A Hook engine bound to Needle engine 0, which runs, with both thresholds in reach. -/
def tHookBound (w : Nat) (tx rx : List Word) : State :=
  (((((tHook w 1 [] tx rx).setf (A.NE_BIND 0) F.NE_BIND.HK 1).setf (A.NE_STATUS 0) F.NE_STATUS.STATE neRunning).setf (A.HK_FIFO 0)
    F.HK_FIFO.TX_THR 1).setf (A.HK_FIFO 0) F.HK_FIFO.RX_THR 2)
theorem wit_HookFifoInstructionEffects_event :
    (let s := tHookBound 0x0C00 [5, 6] []
     s.hookActs 0 6 ∧ hkArg (s.hkWord 0) = 0 ∧ (s.hook 0).tx = [5, 6] ∧ s.hkEngine 0 = some 0 ∧ s.neState 0 = neRunning ∧
     (s.hook 0).clk ≠ s.hkClock ∧ ((s.eng 0).pend.all fun p => p.prio != prHook) = true ∧ s.txThr 0 = some 1) ∧
    (let s := tHookBound 0x0E01 [] [7]; s.hookActs 0 7 ∧ (s.hook 0).rx.length < 8 ∧ s.rxThr 0 = some 2) := by decide
theorem wit_HookControlWrites :
    (let s := tHook 0 0 [] [5] [7]
     s.reaches 1 (A.HK_CTRL 0) true ∧ s.hkIdle 0 = true ∧ s.hkState 0 = hkStopped ∧ s.hkEngine 0 = none ∧ s.reaches 1 (A.HK_PROG 0 63) true ∧
     s.reaches 2 (A.HK_TXF 0) true ∧ s.fifoMaster 2 0 = true ∧ (s.hook 0).tx.length < 8 ∧ s.reaches 2 (A.HK_RXF 0) false ∧
     (s.hook 0).rx = 7 :: [] ∧ s.fifoMaster 4 0 = false) := by decide
theorem wit_HookControlWrites_running :
    (let s := tHook 0 1 [(A.HOOK_PIN_CFG 0 0, 0)] [] []
     s.reaches 1 (A.HK_CTRL 0) true ∧ s.hkIdle 0 = false ∧ s.hkState 0 ≠ hkStopped ∧ s.reaches 1 (A.HK_PROG 0 63) true ∧
     s.reaches 1 (A.HOOK_PIN_CFG 0 0) true ∧ s.ownerIdle .k (s.fld (A.HOOK_PIN_CFG 0 0) F.HOOK_PIN_CFG.OWNER) = false ∧
     s.reaches 1 (A.HOOK_PIN_CFG 0 23) true ∧ s.ownerIdle .k (s.fld (A.HOOK_PIN_CFG 0 23) F.HOOK_PIN_CFG.OWNER) = true ∧
     s.running .k = true ∧ (s.hrst .k).isolated = false) := by decide

def tOp (m a : Nat) (w : Bool) (d : List Byte) (n : Nat) (e : Ecc) : SpadOp := ⟨m, a, n, w, d, e, .clean⟩

theorem wit_ScratchpadPortEffects :
    let s := tRun []
    let r := tOp 2 0x101FFFF8 false [] 8 .clean
    let w := tOp 4 0x103FFFFC true [1, 2, 3, 4] 4 .clean
    let p := tOp 1 0x103FFFF8 true [1, 2, 3, 4] 4 .clean
    let z := tRun [(A.SPAD_STATUS 0, 8), (A.SPAD_STATUS 1, 8), (A.TEN_STATUS, 3)]
    s.presented 4 w.addr = true ∧ s.zeroingAt w.addr = false ∧ s.spadErr 4 w.addr 4 true = none ∧
    s.presented 2 r.addr = true ∧ s.zeroingAt r.addr = false ∧ s.spadErr 2 r.addr 8 false = none ∧ r.addr % 8 + r.len ≤ 8 ∧
    s.spadErr 1 p.addr 4 true = none ∧ p.addr / 8 = w.addr / 8 ∧ p.addr % 8 + p.data.length ≤ 8 ∧
    w.addr % 8 + w.data.length ≤ 8 ∧ z.presented 2 r.addr = true ∧ z.zeroingAt r.addr = true := by decide
theorem wit_SweepAndZeroingEffects :
    (let s := tRun [(A.SPAD_CTRL 0, 2)]; s.sweeping .k = true ∧ s.sweepDue .k = true ∧ storeFind s.sweep Half.k.n = none ∧ s.reaches 1 (A.BANK_OWNER 0 15) true ∧ s.mode6412 = false) ∧
    (let s : State := { tRun [(A.SPAD_CTRL 1, 2), (A.SYS_MODE, 1)] with sweep := [(1, 0)], now := 50 * usTicks }
     s.sweeping .p = true ∧ storeFind s.sweep Half.p.n = some 0 ∧ 0 + 50 * usTicks ≤ s.now ∧ s.sweepDue .p = true ∧
     (s.reaches 1 (A.BANK_OWNER 0 0) true ∧ s.mode6412 = true ∧ s.trivetWrote (A.BANK_OWNER 0 0) = false ∧ s.fldBefore (A.BANK_OWNER 0 0) F.BANK_OWNER.OWNER = 0)) ∧
    (let s := tRun [(A.SPAD_STATUS 1, 8)]
     s.running .p = true ∧ s.flag (A.SPAD_STATUS Half.p.n) F.SPAD_STATUS.ZEROING = true ∧ s.spadWait = []) := by decide
theorem wit_VaultAccessAndWipe :
    let s := tRun []
    s.presented 1 (vaultBase + 0x3FFF8) = true ∧ s.vaultErr 1 (vaultBase + 0x3FFF8) 8 true = none ∧
    s.vaultErr 1 (vaultBase + 0x3FFFF) 1 false = none ∧ s.presented 2 (vaultBase + 1) = true ∧
    s.vaultErr 2 (vaultBase + 1) 4 true = some cMisaligned ∧ s.vaultErr 2 vaultBase 4 true = some cPerm ∧
    ({ s with wipe := some 4 } : State).wipe = some 4 := by decide

theorem wit_MailboxEffects :
    (let s := tRun [(A.MBX_BIND 63, 0x203)]
     s.reaches 2 (A.MBX_MSG 63 7) true ∧ s.mbxBound 63 = true ∧ 2 = s.mbxSender 63 ∧ s.mbxWasFull 63 = false ∧
    ¬ (0x10 ≤ s.mbxReceiver 63 ∧ s.mbxReceiver 63 < 0x28) ∧ s.reaches 2 (A.MBX_DB 63) true ∧ 3 ≠ s.mbxSender 63 ∧
    s.reaches 3 (A.MBX_DB 63) true ∧ s.reaches 1 (A.MBX_BIND 63) true ∧ s.flag A.MBX_BIND_LOCK F.MBX_BIND_LOCK.LOCK = false ∧
    s.reaches 1 A.MBX_BIND_LOCK true) ∧
    (let f := tRun [(A.MBX_BIND 63, 0x203), (A.MBX_STATUS 63, 0x80000000), (A.MBX_BIND_LOCK, 1)]
    f.reaches 2 (A.MBX_MSG 63 7) true ∧ f.mbxBound 63 = true ∧ 2 = f.mbxSender 63 ∧
    f.mbxWasFull 63 = true ∧ f.mbxFull 63 = true ∧ f.reaches 2 (A.MBX_DB 63) true ∧ f.reaches 3 (A.MBX_DB 63) true ∧ 3 = f.mbxReceiver 63 ∧
    f.reaches 1 (A.MBX_BIND 63) true ∧ f.flag A.MBX_BIND_LOCK F.MBX_BIND_LOCK.LOCK = true ∧ fget F.MBX_BIND.SENDER 0 ≠ f.mbxSender 63) := by
  refine ⟨?_, ?_⟩ <;> decide
theorem wit_HardwareLockEffects :
    let s := tRun []
    let f := tRun [(A.MBX_LOCK 31, 3)]
    s.presented 2 (A.MBX_LOCK 31) = true ∧ s.presented 3 (A.MBX_LOCK 31) = true ∧ s.lockOwner 31 = 0 ∧
    f.presented 2 (A.MBX_LOCK 31) = true ∧ f.lockOwner 31 ≠ 0 ∧ f.reaches 3 (A.MBX_LOCK 31) true ∧ 3 = f.lockOwner 31 ∧
    f.reaches 2 (A.MBX_LOCK 31) true ∧ 2 ≠ trivet ∧ 2 ≠ f.lockOwner 31 := by decide
theorem wit_HartRegisterEffects :
    let s := tRun []
    s.hartRuns 3 = true ∧ s.running (halfOf (3 / 2)) = true ∧ amoReaches 3 4 0x103FFFFC = true ∧ s.zeroingAt 0x103FFFFC = false ∧
    s.spadErr 5 0x103FFFFC 4 false = none ∧ s.spadErr 5 0x103FFFFC 4 true = none ∧ amoReaches 3 8 0x10200000 = true ∧
    s.zeroingAt 0x10200000 = false ∧ s.spadErr 5 0x10200000 8 false = none ∧ s.spadErr 5 0x10200000 8 true = none ∧
    amoReaches 3 4 0x10200002 = false ∧ isDram 0x10200002 = false := by decide
theorem wit_HartRegisterEffects_dram :
    let s := { tRun [] with dramP := { State.reset.dramP with service := true } }
    s.hartRuns 3 = true ∧ isDram 0x1200000004 = true ∧ s.dramPorts 5 0x1200000004 4 false = .ok [Half.p] ∧
    s.dramPorts 5 0x1200000004 4 true = .ok [Half.p] := by decide
theorem wit_MailboxEffects_bell :
    let s := tRun [(A.MBX_BIND 63, 0x214), (A.NE_STATUS 4, 3)]
    s.mbxSender 63 = 2 ∧ s.mbxReceiver 63 = 0x10 + 4 ∧ s.neState 4 = neRunning ∧ (s.eng 4).pend = [] ∧
    s.reaches 2 (A.MBX_DB 63) true := by decide

def larderRun (ws : List (Nat × Nat)) : State :=
  { tRun ([(A.LARDER_PART_BASE 0, 0), (A.LARDER_PART_SIZE 0, 2), (A.LARDER_PART_BASE 1, 2), (A.LARDER_PART_SIZE 1, 1),
      (A.LARDER_PART_BASE 2, 3), (A.LARDER_PART_SIZE 2, 1), (A.LARDER_PRE_N 0, 1), (A.LARDER_PRE_N 1, 1),
      (A.LARDER_POST_N 0, 1), (A.LARDER_POST_N 1, 1), (A.LARDER_TRIG, 0x10)] ++ ws) with
    dramK := { State.reset.dramK with service := true } }
def tEvt : EvtRec := ⟨1, 3, 0, 0, 5, List.replicate 40 7, []⟩
/-- Both DRAM ports in service, with the mirror's registers and the link as given. -/
def tDram (ws : List (Nat × Nat)) : State :=
  { larderRun ws with dramP := { State.reset.dramP with service := true } }
theorem wit_DramAccessEffects :
    let s := tDram []
    s.presented 1 (dkBase + 0x100) = true ∧ s.dramPorts 1 (dkBase + 0x100) 8 true = .ok [Half.k] ∧
    s.dramPorts 1 (dkBase + 0x100) 8 false = .ok [Half.k] ∧ s.mirrorState ≠ mirSync ∧
    s.dramPorts 4 (dkBase + 0x100) 8 false = .error cPerm ∧ s.dramPorts 4 (dkBase + 0x100) 8 true = .error cPerm ∧
    isHart 4 = true ∧ crossesPage (dkBase + 0x100) 8 = false ∧ crossesPage (dkBase + 0xFFF) 8 = true ∧
    s.presented 4 (dkBase + 0xFFF) = true := by decide
theorem wit_DramAccessEffects_mirror :
    let s := (tDram [(A.DRAM_MIRROR 0, 0x80000000), (A.TEN_STATUS, 0xFFFFFFFF)]).setMirror mirSync
    s.dramPorts 1 (dkBase + 0x100) 8 true = .ok [Half.k, .p] ∧ s.dramPorts 4 (dkBase + 0x100) 8 false = .ok [Half.p] ∧
    s.mirrorState = mirSync ∧ s.linkUp = true := by decide
theorem wit_DramAccessEffects_dead :
    let s := State.reset
    s.presented 1 0x32000000 = true ∧ regionOf 0x32000000 = .block .p ∧ s.halfErr 1 .p = some cOff ∧
    regionOf 0x10200000 = .bank .p ∧ regionOf 0x20000000 = .needle 0 ∧ s.halfErr 1 (unitHalf 0 12) = some cOff ∧
    regionOf dkBase = .dk ∧ regionOf dpBase = .dp ∧ s.presented 1 dkBase = true ∧ s.dramPorts 1 dkBase 1 true = .error cOff ∧
    s.halfErr 2 .k = none := by decide
theorem wit_DramPortEffects :
    (let s := tRun [(A.DRAM_CTRL 0, 0x80000000), (A.PWR_RAIL, 0xFFFFFFFF)]
     s.mayTrain .k = true ∧ s.mirrorOn = false ∧ (s.dram .k).retained = false) ∧
    (let s := { tRun [(A.DRAM_CTRL 0, 0xFFFFFFFF)] with dramK := ⟨true, true, false, [], 0⟩ }
     s.dramK.clearing = false ∧ s.running .k = true ∧ s.flag (A.DRAM_CTRL 0) F.DRAM_CTRL.PATROL_EN = true ∧ s.dramK.service = true ∧
     s.mirrorOn = false ∧ s.mirrorState = 0) ∧
    (let s := { tRun [(A.DRAM_STATUS 1, 0xFFFFFFFF)] with dramK := ⟨true, true, true, [], 0⟩ }.setMirror mirResilver
     s.dramK.clearing = true ∧ s.mirrorState = mirResilver ∧ s.dramK.service = true ∧ s.trained .p = true) := by
  refine ⟨?_, ?_, ?_⟩ <;> decide
theorem wit_LarderRecordingEffects :
    (let s := larderRun []
     s.reaches 1 A.LARDER_CTRL true ∧ s.flag A.LARDER_CTRL F.LARDER_CTRL.EN = false ∧ s.larderOk = true) ∧
    (let s := larderRun [(A.LARDER_PRE_N 0, 600)]
     s.larderOk = false) ∧
    (let s := larderRun [(A.LARDER_CTRL, 1)]
     let s : State := { s with larder := { s.larder with waiting := [tEvt] }, gauge := { s.gauge with fired := [(0, s.raw + 1)] } }
     s.flag A.LARDER_CTRL F.LARDER_CTRL.EN = true ∧ s.flag A.LARDER_FREEZE F.LARDER_FREEZE.EN_PIN = true ∧
     s.cmpLast (s.fld A.LARDER_TRIG F.LARDER_TRIG.CYC_CMP) = some s.raw ∧
     s.cmpLast (s.fld A.LARDER_TRIG F.LARDER_TRIG.FAST_CMP) ≠ some s.raw ∧ s.partSize 0 ≠ 0 ∧ s.larder.cyc.stopped = false ∧
     s.partSize 2 ≠ 0 ∧ s.larder.evtStopped = false ∧ ringPlace s.larder.evtNext (s.partSize 2 / 64) 1 [] = some 0 ∧
     s.mirrorOn = false ∧ tEvt.payload.length = 40 ∧
     (match s.dramPorts 0x48 (s.partBase 2) 64 true with | .ok ps => ps == [Half.k] | .error _ => false) = true) ∧
    ringPlace 0 (State.storePages (larderRun []) 0) 1 [] = some 0 := by
  refine ⟨?_, ?_, ?_, ?_⟩ <;> decide
theorem wit_FieldAccessTypes :
    (regDesc? A.SYS_BUSERR_INFO).any (fun d => d.fields.any fun f => f.acc == .w1c) = true ∧
    (regDesc? (A.DRAM_CFG 1)).any (fun d => d.fields.any fun f => f.acc == .rwl) = true ∧
    (regDesc? (A.KCP_DB 1)).any (fun d => d.fields.any fun f => f.acc == .w1s || f.acc == .wo) = true ∧
    (regDesc? (A.DRAM_MIRROR 1)).any (fun d => d.fields.any fun f => f.acc == .trv) = true ∧
    (regDesc? (A.DRAM_MIRROR 1)).any (fun d => (d.fields.any fun f => decide (f.lo ≤ 31) && decide (31 ≤ f.hi)) &&
      !(d.fields.any fun f => decide (f.lo ≤ 30) && decide (30 ≤ f.hi))) = true := by decide
theorem wit_RegisterAccessEffects :
    (let s := tRun []
     regRegion (A.SYS_BUSERR_CNT) ∧ s.reaches 2 A.SYS_BUSERR_CNT true ∧
     (regDesc? A.SYS_BUSERR_CNT).any (fun d => !ownEffect.contains d.base) = true ∧ s.reaches 2 (A.DRAM_STATUS 0) false ∧
     s.regErr 2 (A.DRAM_STATUS 1) 4 true = some cLink ∧ s.regErr 2 (A.DRAM_STATUS 0 + 1) 4 false = some cMisaligned) ∧
    (let s := tRun []
     regionOf A.SYS_BUSERR_CNT = .shared ∧ assigned (A.SYS_BUSERR_CNT / 4 * 4) = true ∧ regionOf 0x7700000000 = .unmapped ∧
     (regDesc? (A.LARDER_PRE_N 1)).any hasTrv = true ∧ s.regErr 2 (A.LARDER_PRE_N 1) 4 true = none ∧ s.hartRuns 3 = true) := by
  refine ⟨?_, ?_⟩ <;> decide
theorem wit_RegisterAccessEffects_more :
    let s := tRun []
    s.lc = 0 ∧ s.errsNow = [] ∧ regRegion (A.MAC_CNT 0 0) ∧ s.reaches 2 (A.MAC_CNT 0 0) false ∧
    1 ≤ (s.wrn (A.MAC_CNT 0 0) 5).regView 2 (A.MAC_CNT 0 0) ∧ (A.MAC_CNT 0 0) ∉ readEffect := by decide
theorem wit_LarderRecordingEffects_tags :
    let s := larderRun [(A.LARDER_SRC_CNT 0, 3)]
    s.tagOffsets ≠ [] ∧ ∀ o ∈ s.tagOffsets, o < 0x200000 ∧ s.spadErr 0x48 (bankAt s.snapHalf o) 8 false = none := by decide
theorem wit_BusErrorWhileHeld :
    let s := tRun [(A.SYS_BUSERR_INFO, 0x80000000)]
    s.flag A.SYS_BUSERR_INFO F.SYS_BUSERR_INFO.VALID = true ∧ s.errHeldNow = false := by decide
theorem wit_BusErrorRecorded :
    let s := tRun []
    s.flag A.SYS_BUSERR_INFO F.SYS_BUSERR_INFO.VALID = false ∧ s.reaches 1 A.SYS_BUSERR_INFO true ∧
    fget F.SYS_BUSERR_INFO.VALID 0x80000000 = 1 ∧ s.reaches 1 A.SYS_BUSERR_CNT true ∧ (2 : Byte).toNat = 2 + (0 : Fin 4).val := by decide
theorem wit_LarderRecordingEffects_errors :
    let j : SnapJob := ⟨5, false, [], [some 0x10000010], List.replicate 8 1⟩
    let s := { tRun [] with larder := { (tRun []).larder with cyc := ⟨0, 0, [], some j, false⟩ } }
    (s.larder.store (b2n false)).job = some j ∧ j.words = [some (0x10000010 : BitVec 40).toNat] ∧ j.tags.length = 8 ∧
    s.flag A.LARDER_CTRL F.LARDER_CTRL.EN = false ∧ [((0x10000010 : BitVec 40), Ecc.single)] ≠ [] := by decide
theorem wit_DramAccessEffects_stale :
    let s := tDram []
    s.presented 2 (dkBase + 0x100) = true ∧ isHart 2 = true ∧ crossesPage (dkBase + 0x100) 8 = false ∧
    (0x1000000100 : BitVec 40).toNat = dkBase + 0x100 ∧ isDram (dkBase + 0x100) = true ∧ s.dramPorts 2 (dkBase + 0x100) 8 false = .ok [Half.k] := by decide

/-- A running state with charge states of the halves, HOLDER and the grant that follow from them. -/
def tChg (a b : ChgState) (ws : List (Nat × Nat)) : State :=
  let s := tRun ws
  let hd : Byte := if a = .charge then holderCode .k else if b = .charge then holderCode .p else 0
  { s with chg := { s.chg with k := { s.chg.k with st := a }, p := { s.chg.p with st := b }, holder := hd, grant := hd } }
theorem wit_HeartbeatEffects :
    (let s : State := { tChg .init .service [] with rawOn := true, raw := 1000, now := 600 }
     s.rawOn = true ∧ s.raw % 500 = 0 ∧ s.running .k = true ∧ s.running .p = true ∧ s.epK.suppressed = false ∧
     s.epP.suppressed = false ∧ s.trivetLost = false ∧ hbValid s.epK.lastSeq 5 = true ∧ 0 = (s.chgOf .k).code ∧
     s.chgOf .k = .init ∧ s.inService .p = false ∧ s.chg.window = none ∧ s.hbExpired .k = true ∧
     (s.soon fun c => decide (c = .heartbeatTimerExpiry .p)) = false ∧
     s.fld A.TEN_STATUS (missFld .k) < 2) ∧
    (let s : State := { tChg .charge .standby [(A.TEN_STATUS, 0xFFFFFFFE)] with now := 600 }
     hbValid (some 5) 10 = false ∧ s.inService .k = true ∧ (s.setf A.TEN_STATUS (missFld .k) 2).fld A.TEN_STATUS (missFld .k) = 2 ∧
     s.chgOf .k ≠ .service ∧ s.chgOf .k ≠ .lost) := by
  refine ⟨?_, ?_⟩ <;> decide
theorem wit_HeartbeatEffects_both :
    let s : State := { (tChg .charge .standby []).setf A.TEN_STATUS F.TEN_STATUS.MISS_K 2 with now := 600, pending := [.heartbeatTimerExpiry .p] }
    let s := s.setf A.TEN_STATUS F.TEN_STATUS.MISS_P 2
    s.trivetLost = false ∧ s.hbExpired .k = true ∧ s.hbExpired .p = true ∧
    (s.soon fun c => decide (c = .heartbeatTimerExpiry .p)) = true ∧ s.fld A.TEN_STATUS (missFld .k) = 2 ∧
    s.fld A.TEN_STATUS (missFld .p) = 2 ∧ s.chgOf .k = .charge ∧ s.chgOf .p = .standby ∧
    ({ s with pending := [.heartbeatReceive .k 5 0 true true true 0] }).hbSoon .k = true := by decide
theorem wit_StandbyHalfTakenOut :
    let s := tChg .charge .standby []
    s.trivetLost = false ∧ s.chgOf .k = .charge ∧ s.chgOf .p = .standby := by decide
theorem wit_HolderTakenOut :
    let s := tChg .charge .lost []
    s.trivetLost = false ∧ s.chgOf .k = .charge ∧ s.chgOf .p ≠ .standby ∧ s.chgOf .p ≠ .charge := by decide
theorem wit_CastOnAndHandoverEffects :
    (let s : State := tChg .candidate .init []
     let s := { s with raw := 50001, chg := { s.chg with window := some 1 } }
     s.trivetLost = false ∧ s.chg.window = some 1 ∧ 1 + 100 * usTicks ≤ s.raw ∧ s.chgOf .k = .candidate ∧
     s.chgOf .p ≠ .candidate ∧ s.inService .p = false ∧ (0x33 : Byte) ≠ holderCode .k ∧ (0x33 : Byte) ≠ holderCode .p) ∧
    (let s : State := { tChg .charge .standby [(A.TRV_HANDOVER_LO, 5)] with raw := 5 }
     s.handoverPending = true ∧ s.trivetLost = false ∧ s.rd64 A.TRV_HANDOVER_LO A.TRV_HANDOVER_HI ≤ s.raw ∧
     s.holder = some .k ∧ s.chg.service = none ∧ s.chg.window = none) := by
  refine ⟨?_, ?_⟩ <;> decide
theorem wit_LinkFlitEffects :
    (let s := tChg .charge .standby [(A.TEN_STATUS, 0xFFFFFFFF)]
     s.segUp .k = true ∧ s.epK.seg.replaying 4 = none ∧ s.trivetLost = false ∧ s.chgOf .k ≠ .service ∧
     s.chgOf .k ≠ .lost ∧ s.linkUp = true ∧ s.epK.seg.may s.now 4 = true ∧ s.epK.seg.busy = [] ∧ flitGood 77 = false) ∧
    (let s := tRun [(A.TEN_STATUS, 0)]
     s.segUp .k = false ∧ s.linkUp = false) ∧
    (let g : Segment := { State.reset.epK.seg with again := [⟨4, 77, 3⟩], busy := [3] }
     g.replaying 4 = some ⟨4, 77, 3⟩ ∧ g.busy = 3 :: [] ∧ g.may 0 4 = false) := by
  refine ⟨?_, ?_, ?_⟩ <;> decide
theorem wit_LinkFlitEffects_good : flitGood (flitOf 77) = true ∧ flitOf 77 < 2 ^ 144 := by decide
def tIa (a b : ChgState) : State :=
  let s := tChg a b [(A.TEN_IA_CTRL, 0x80000003), (A.TEN_IA_SRC 0, 0), (A.TEN_IA_DST 0, 0x1000), (A.TEN_IA_SRC 1, 0x200000),
    (A.TEN_IA_DST 1, 0x201000), (A.TEN_APP 0, 0)]
  { s with raw := 20000, gauge := { s.gauge with fired := [(0, 5)] } }
theorem wit_InputAgreementEffects :
    (let s := tIa .charge .standby
     s.ia.trig < storeGet 0 s.gauge.fired s.trigUnit ∧ s.resync = none ∧
     s.flag A.TEN_IA_CTRL F.TEN_IA_CTRL.ENABLE = true ∧ s.iaValid = true ∧ s.inService .k = true ∧ s.inService .p = true) ∧
    (let s := tIa .charge .service
     s.inService .k = true ∧ s.inService .p = false ∧ s.reaches 1 A.TEN_IA_CTRL true ∧ s.reaches 2 (A.TEN_APP 0) true ∧
     (2 = 2 + 2 * Half.n .k) ∧ s.reaches 4 (A.TEN_APP 0) true) ∧
    (let s := tIa .charge .standby
     let x : IaHalf := ⟨true, true, s.iaSnap .k [], true⟩
     let s : State := { s with ia := { s.ia with k := x, p := x, commitSent := true, rerun := some 7 } }
     s.ia.k.part = true ∧ s.ia.p.part = true ∧ s.ia.k.relayed = true ∧ s.ia.p.relayed = true ∧ s.ia.commitSent = true ∧
     s.ia.c0 + 12 * usTicks < s.raw ∧
     (s.ia.half .p).await = true ∧ s.ia.k.snap.length = s.iaEntries ∧ s.ia.p.snap.length = s.iaEntries ∧
     s.ia.c0 + 12 * usTicks ≤ s.raw ∧ s.trivetLost = false ∧ 7 ≤ s.raw) := by
  refine ⟨?_, ?_, ?_⟩ <;> decide
theorem wit_InputAgreementEffects_final :
    let r : Resync := ⟨.p, 3, [], true, false, 0, 0⟩
    let s : State := { tIa .charge .candidate with resync := some r }
    s.ia.trig < storeGet 0 s.gauge.fired s.trigUnit ∧ s.resync = some r ∧ r.final = true ∧ s.trivetLost = false ∧
    s.chgOf r.cand = .candidate ∧ s.chgOf r.cand.other = .charge ∧ s.ia.commitSent = false := by decide
theorem wit_ResyncPassEffects :
    let r : Resync := ⟨.p, 16, List.range 65, false, false, 0, 0⟩
    let s : State := { tChg .charge .candidate [] with resync := some r }
    s.resync = some r ∧ s.trivetLost = false ∧ r.final = false ∧ r.start + r.load / 4 ≤ s.now ∧ 64 < r.dirty.length ∧ 16 ≤ r.pass := by decide
theorem wit_TrivetLossEffects :
    let s : State := { tRun [] with now := 1001 }
    (s.running .k = true ∨ s.running .p = true) ∧ s.alive + 2 * usTicks < s.now ∧ s.trivetLost = false := by decide
theorem wit_TwinEffects :
    (let s : State := tChg .charge .standby []
     let s := (s.setf A.TRV_TWIN F.TRV_TWIN.TWIN_EN 1).setf A.TRV_TWIN F.TRV_TWIN.ROLE 2
     let s : State := { s with rawOn := true, raw := 500, now := 600, twin := { s.twin with misses := 2, peerLow := true } }
     s.twinOn = true ∧ s.rawOn = true ∧ s.raw % 500 = 0 ∧ s.role ≠ 0 ∧ s.fld A.TRV_TWIN F.TRV_TWIN.INDEX ≠ 1 ∧
     s.fld A.TRV_TWIN F.TRV_TWIN.INDEX = 0 ∧ s.clash = false) ∧
    (let s : State := tChg .charge .standby []
     let s := (s.setf A.TRV_TWIN F.TRV_TWIN.TWIN_EN 1).setf A.TRV_TWIN F.TRV_TWIN.ROLE 2
     let s : State := { s with now := 600, twin := { s.twin with misses := 2, peerLow := true } }
     s.twin.at_ + 534 ≤ s.now ∧ s.twin.misses = 2 ∧ s.role = 2 ∧ s.twinSoon = false ∧ s.twin.peerLow = true ∧ s.clash = false ∧ s.col.qk = [] ∧
     s.col.qp = [] ∧ s.holder.isSome = true ∧ (tRun []).twinOn = false) := by
  refine ⟨?_, ?_⟩ <;> decide
def tCol (a b : ChgState) (md : ChgMode) (k p : List Copy) : State :=
  let s := tChg a b [(A.COL_STREAM 5 0, 0x80100502), (A.COL_CTRL, 0x8000003C), (A.COL_SUB_CTRL 0, 0), (A.COL_SUB_RP_LO 0, 0x5000)]
  { s with raw := 150 * 60000 * msTicks, epK := { s.epK with outValid := true }, epP := { s.epP with outValid := true }
           chg := { s.chg with mode := md }, col := { s.col with qk := k, qp := p } }
def tCopy (bs : List Byte) : Copy := ⟨5, 900, bs, 7, false⟩
theorem wit_ColanderSubmission :
    (let s : State := { tCol .charge .standby .two [] [] with raw := 0 }
     let v : Word := 0x80040005
     let c := ((s.ok 0).plainWrite (A.COL_SUB_CTRL 0) v).portCopy 0
     s.reaches 2 (A.COL_SUB_CTRL 0) true ∧ fget F.COL_SUB_CTRL.GO v = 1 ∧ s.colSpace .k c = true ∧
     s.submitCheck .k 2 c = 0 ∧ s.raw < c.rp ∧ s.reaches 3 (A.COL_SUB_CTRL 0) true) ∧
    (let s : State := tCol .service .charge .one [] []
     s.submitCheck .k 2 { tCopy [1] with stream := 7 } = 3 ∧ s.submitCheck .k 2 (tCopy [1]) = 4) ∧
    (let x : Copy := ⟨5, 900000000, [1, 2], 0, false⟩
     let s : State := tCol .charge .standby .two [] []
     let s : State := { s with raw := 0, col := { s.col with waiting := [(0, x)] } }
     s.col.waiting.find? (fun w => w.1 == 0) = some (0, x) ∧ s.colSpace .k x = true ∧ s.submitCheck .k 2 x = 0 ∧ s.raw < x.rp ∧
     s.col.waiting.find? (fun w => w.1 == 1) = none) ∧
    State.colSpace (tCol .charge .standby .two (List.replicate 512 (tCopy (List.replicate 100 0))) []) .k (tCopy [1]) = false := by
  refine ⟨?_, ?_, ?_, ?_⟩ <;> decide
theorem wit_ColanderRelease :
    (let s := tCol .charge .standby .two [tCopy [1, 2]] [tCopy [1, 3]]
     s.holder = some .k ∧ 900 ≤ s.raw ∧ s.chg.mode = .two ∧ s.chg.p.probation = false ∧ s.outValid .k = true ∧
     s.mayRelease .k = true ∧ s.copyOf .k 5 900 = some (tCopy [1, 2]) ∧ s.copyOf .p 5 900 = some (tCopy [1, 3]) ∧ s.chg.last = none) ∧
    (let s := tCol .charge .standby .one [tCopy [1, 2]] []
     s.holder = some .k ∧ s.chg.mode = .one ∧ s.mayRelease .k = true ∧ s.waitEnd 5 900 ≤ s.raw ∧ s.pathOpen .k = true ∧
     s.copyOf .p 5 900 = none ∧ s.copyOf .k 6 900 = none) ∧
    (let s := tCol .charge .standby .one [] []
     s.dueKeys = [] ∧ s.trivetLost = false) := by
  refine ⟨?_, ?_, ?_⟩ <;> decide
theorem wit_ColanderRelease_path :
    let s := tCol .charge .standby .two [tCopy [1, 2]] [tCopy [1, 2]]
    let s : State := { s with chg := { s.chg with grant := 0, bothPairs := true } }
    s.trivetLost = false ∧ s.dueKeys = [(900, 5)] ∧ s.holder = some .k ∧ s.chg.mode = .two ∧ s.chg.last = none ∧
    (s.chg.half .p).probation = false ∧ s.outValid .k = true ∧ s.driveGrant.mayRelease .k = true ∧
    s.copyOf .k 5 900 = some (tCopy [1, 2]) ∧ s.copyOf .p 5 900 = some (tCopy [1, 2]) ∧ s.copySoon 5 900 = false := by decide
theorem wit_ColanderRelease_handover :
    let s := tCol .charge .standby .one [tCopy [1, 2]] [tCopy [1, 3]]
    let s : State := { s with chg := { s.chg with last := some (950, .p) } }
    s.bytesFrom .k 900 = .p ∧ ((s.copyOf .k 5 900).any fun x => x.sent) = false ∧
    s.copyOf (s.bytesFrom .k 900) 5 900 = some (tCopy [1, 3]) := by decide
theorem wit_ColanderSelftest :
    (let s := tCol .charge .standby .two [] []
     let s : State := { s with col := { s.col with test := some ⟨5, false⟩ } }
     5 + 150 * usTicks ≤ s.raw ∧ s.trivetLost = false ∧ s.col.again = [] ∧ s.col.due = false ∧ testResult true true true = 1 ∧
     testResult true false true = 2 ∧ testResult true true false = 3 ∧ testResult false true true = 5 ∧ s.charged = some .k ∧
     s.chgOf .p = .standby ∧ s.reaches 1 A.COL_CTRL true ∧ s.lc ≠ 3 ∧ s.testMay = true) ∧
    (let s := tCol .charge .service .two [] []
     s.testMay = true ∧ s.col.lastPer + s.fld A.COL_CTRL F.COL_CTRL.ST_PERIOD * 60000 * msTicks ≤ s.raw ∧ s.chgOf .p = .service ∧
     s.chgOf .k ≠ .service) ∧
    (tRun []).testMay = false := by
  refine ⟨?_, ?_, ?_⟩ <;> decide

def tRcp : Recipe := ⟨true, 0, 0, 2, 0, 0, 0, 0x7000, 2, 0x8000, 3, 2, 0x7800, 4, 0x7900, 64, 0x7A00, 64, 0, 0, 7, 0⟩
def tAct (st : List Nat) (setst : Option Nat) : ActCtx :=
  ⟨3, 1, 1, st, (List.range 16).map (fun k => BitVec.ofNat 64 (16 * k)), setst, some 2, 0, none, some ⟨5, 0, 0, 77, List.replicate 40 9, 3, false⟩⟩
/-- Engine 2 runs and stands at the word `op`, `w`; 20 bytes are built. -/
def tNe (op : Nat) (w : ActWord) (c : ActCtx) (inl : Bool) (ws : List (Nat × Nat)) : State :=
  let s := tRun ([(A.NE_STATUS 2, (fput F.NE_STATUS.STATE 0 neRunning).toNat), (A.NE_BIND 2, 0xFFF), (A.MBX_BIND 5, 0x1202)] ++ ws)
  let fr : InlFrame := ⟨0, List.replicate 200 1, 99, 0, true, false, 5, false, none⟩
  let s := s.putEng 2 { s.eng 2 with recipe := some tRcp, evt := if inl then none else some c, inl := if inl then some c else none
                                     frame := if inl then some fr else none, build := List.replicate 30 5, blen := 20 }
  s.putN 2 (0x7800 + 8 * c.pc) (leBytes 8 (actBits op w))
def tW (x : Fin 64) (y : Fin 256) (imm : Word) : ActWord := ⟨3, 1, 2, x, y, imm, .clean⟩
theorem wit_ActionWordRegisters :
    ([1, 2, 4, 6, 7, 8, 9, 0x0C, 0x0D, 0x0E, 0x0F, 0x10].all fun op =>
      decide ((tNe op (tW 0 1 5) (tAct [] none) false []).actsWord 2 false op (tW 0 1 5) tRcp (tAct [] none))) = true ∧
    ([0x11, 0x12, 0x13, 0x14, 0x15, 0x18].all fun op =>
      decide ((tNe op (tW 0 1 5) (tAct [] none) true []).actsWord 2 true op (tW 0 1 5) tRcp (tAct [] none))) = true ∧
    (let c := tAct [9] none
     (tNe 5 (tW 0 0 0) c false []).actsWord 2 false 5 (tW 0 0 0) tRcp c ∧ c.stack ≠ [] ∧
     brHolds 0 5 5 = true ∧ brHolds 0 5 6 = false ∧ (tNe 3 (tW 4 16 7) c false []).actsWord 2 false 3 (tW 4 16 7) tRcp c ∧
     brHolds ((4 : Fin 64) / 8) (c.get 1) (16 : Fin 256) = true) ∧
    ([0, 1, 2].all fun x =>
      decide ((tNe 8 (tW x 1 5) (tAct [] none) false []).actsWord 2 false 8 (tW x 1 5) tRcp (tAct [] none))) = true := by
  refine ⟨?_, ?_, ?_, ?_⟩ <;> decide
theorem wit_ActionWordMemory :
    (let c := tAct [] (some 9)
     let w := tW 1 8 4
     (tNe 0x0A w c true []).actsWord 2 true 0x0A w tRcp c ∧ ((tNe 0x0A w c true []).areaRead 2 true tRcp c 1 4 8).isSome = true ∧
     (tNe 0x0B w c true []).actsWord 2 true 0x0B w tRcp c ∧ (tNe 0x0B (tW 6 8 4088) c true []).actsWord 2 true 0x0B (tW 6 8 4088) tRcp c) ∧
    (let c := tAct [] (some 9)
     let w := tW 4 8 9208
     (tNe 0x0B w c false []).actsWord 2 false 0x0B w tRcp c ∧ (tNe 0x16 w c false []).actsWord 2 false 0x16 w tRcp c ∧
     (tNe 0x17 w c false []).actsWord 2 false 0x17 w tRcp c ∧ (tNe 0 w c false []).actsWord 2 false 0 w tRcp c) ∧
    (let c := tAct [] none
     (tNe 0x0B (tW 7 8 56) c true []).actsWord 2 true 0x0B (tW 7 8 56) tRcp c) ∧
    (let c : ActCtx := { tAct [] none with nextSt := none }
     (tNe 0 (tW 0 0 0) c false []).actsWord 2 false 0 (tW 0 0 0) tRcp c ∧ c.setst = none ∧ c.nextSt = none) := by
  refine ⟨?_, ?_, ?_, ?_⟩ <;> decide
theorem wit_ActionUnitFaults :
    (let c := tAct [1, 2, 3, 4] none
     let s := tNe 1 (tW 0 0 0) c false [(A.NE_LIMITS 2, 0)]
     s.actCtx 2 false = some (tRcp, c) ∧ c.wait = none ∧ c.pc < tRcp.nact ∧ s.wordAt 2 tRcp c.pc = actBits 1 (tW 0 0 0) ∧
     s.fld (A.NE_LIMITS 2) F.NE_LIMITS.ACT_LIMIT ≤ c.words ∧ s.actCtx 2 true = none) ∧
    (let c := tAct [1, 2, 3, 4] none
     (tNe 4 (tW 0 0 0) c false []).actsWord 2 false 4 (tW 0 0 0) tRcp c ∧ 4 ≤ c.stack.length ∧
     (tNe 0x0C (tW 60 5 0) c false []).actsWord 2 false 0x0C (tW 60 5 0) tRcp c) ∧
    (let c := tAct [] none
     let s := tNe 0x0A (tW 7 8 0) c false []
     (tNe 5 (tW 0 0 0) c false []).actsWord 2 false 5 (tW 0 0 0) tRcp c ∧ c.stack = [] ∧
     s.actsWord 2 false 0x0A (tW 7 8 0) tRcp c ∧ s.areaRead 2 false tRcp c 7 0 8 = none) ∧
    (let c : ActCtx := { tAct [] none with pc := 4 }
     let s := tNe 0x2E (tW 0 0 0) { c with pc := 1 } false []
     (s.putCtx 2 false c).actCtx 2 false = some (tRcp, c) ∧ tRcp.nact ≤ c.pc ∧ s.wordAt 2 tRcp 1 = actBits 0x2E (tW 0 0 0)) := by
  refine ⟨?_, ?_, ?_, ?_⟩ <;> decide
theorem wit_ActionUnitFaults_ecc :
    (let c := tAct [] none
     let w : ActWord := { tW 0 0 0 with ecc := .double }
     let s := tNe 1 w c false []
     s.actCtx 2 false = some (tRcp, c) ∧ c.pc < tRcp.nact ∧ s.wordAt 2 tRcp c.pc = actBits 1 w) ∧
    (let c := tAct [] none
     let w : ActWord := { tW 0 0 0 with ecc := .single }
     let s := tNe 1 w c false []
     s.actCtx 2 false = some (tRcp, c) ∧ s.wordAt 2 tRcp c.pc = actBits 1 w ∧ c.words < s.fld (A.NE_LIMITS 2) F.NE_LIMITS.ACT_LIMIT) ∧
    (let s := tNe 0x2E (tW 0 0 0) (tAct [] none) true []
     s.actsWord 2 true 0x2E (tW 0 0 0) tRcp (tAct [] none) ∧ s.neHeld 2 = false) ∧
    (let c : ActCtx := { tAct [] none with wait := some (0x1D, tW 0 0 0) }
     (tNe 1 (tW 0 0 0) c false []).actCtx 2 false = some (tRcp, c)) := by
  refine ⟨?_, ?_, ?_, ?_⟩ <;> decide
theorem wit_ActionWordBuildAndLook :
    (let c := tAct [] none
     let w := tW 0 0 0x00080004
     (tNe 0x19 w c false []).actsWord 2 false 0x19 w tRcp c ∧
     ((tNe 0x19 w c false []).areaRead 2 false tRcp c 3 4 8).isSome = true ∧ (tNe 0x1A w c false []).actsWord 2 false 0x1A w tRcp c ∧
     ((tNe 0x1B w c false []).areaRead 2 false tRcp c 0 4 32).isSome = true ∧ (tNe 0x1B w c false []).actsWord 2 false 0x1B w tRcp c) ∧
    (let c := tAct [] none
     let w := tW 24 0 0
     ((tNe 0x1C w c false []).areaRead 2 false tRcp c 3 16 32).isSome = true ∧ (tNe 0x1C w c false []).actsWord 2 false 0x1C w tRcp c ∧
     (crcKind 0 0 [1]).isSome = true ∧ (tNe 0x2D (tW 56 0 1) c true []).actsWord 2 true 0x2D (tW 56 0 1) tRcp c ∧
     ((tNe 0x2D (tW 56 0 1) c true []).areaRead 2 true tRcp c 7 16 0).isSome = true ∧
     ((tNe 0x2D (tW 0 0 1) c false []).areaRead 2 false tRcp c 0 16 0).isSome = true) ∧
    (let c := tAct [] none
     (tNe 0x2E (tW 0 0 2) c true []).actsWord 2 true 0x2E (tW 0 0 2) tRcp c ∧ ((tNe 0x2E (tW 0 0 2) c true []).eng 2).frame.isSome = true ∧
     (tNe 0x2F (tW 0 0 2) c true []).actsWord 2 true 0x2F (tW 0 0 2) tRcp c ∧ (tNe 0x2C (tW 0 0 2) c true []).actsWord 2 true 0x2C (tW 0 0 2) tRcp c) ∧
    (let c := tAct [] none
     let s := tNe 0x2E (tW 0 0 3) c true []
     (s.eng 2).passing = [] ∧ s.inlOut 2 0 = none ∧ ((s.eng 2).frame.map fun x => decide (x.bytes.length < x.window + 64 * 3 + 64)) = some true ∧
     ((s.setf (A.NE_INL_CTRL 2) F.NE_INL_CTRL.LOOP_ON_DOWN 1).inlOut 2 0).isSome = true ∧
     s.tcamLookup 2 (List.replicate 16 0) 0 = (none, 0xFF, 0)) ∧
    State.tcamLookup ((tNe 0x2C (tW 0 0 2) (tAct [] none) true []).putN 2 0x20020 [1, 4, 0, 9]) 2 (List.replicate 16 0) 0 = (some 0, 4, 9) := by
  refine ⟨?_, ?_, ?_, ?_, ?_⟩ <;> decide
theorem wit_ActionWordSend :
    (let c := tAct [] none
     let w := tW 0 0 5
     let s := tNe 0x1D w c false []
     s.actsWord 2 false 0x1D w tRcp c ∧ 14 ≤ (s.eng 2).blen ∧ s.txUsed 2 + txCells (s.eng 2).blen ≤ 160 ∧ s.boundCx 2 0 = true ∧
     (s.can 0).bufs.length < 8) ∧
    (let c := tAct [] none
     let w := tW 0 0 5
     (tNe 0x1E w c false []).actsWord 2 false 0x1E w tRcp c ∧ (tNe 0x1F w c false []).actsWord 2 false 0x1F w tRcp c ∧
     (tNe 0x20 w c false []).actsWord 2 false 0x20 w tRcp c ∧ (tNe 0x21 w c false []).actsWord 2 false 0x21 w tRcp c ∧
     (tNe 0x22 w c false []).actsWord 2 false 0x22 w tRcp c) ∧
    (let c := tAct [] none
     (tNe 0x23 (tW 32 0 5) c false []).actsWord 2 false 0x23 (tW 32 0 5) tRcp c ∧ (tNe 0x24 (tW 4 0 5) c false []).actsWord 2 false 0x24 (tW 4 0 5) tRcp c ∧
     c.get 1 % 16 = 0 ∧ 1 ≤ c.get 2 ∧ c.get 2 ≤ 4096 ∧ ((tNe 0x22 (tW 0 0 5) c false []).areaRead 2 false tRcp c 0 5 32).isSome = true) ∧
    (let c := tAct [] none
     let s := tChg .charge .standby [(A.COL_STREAM 5 0, 0x80FF1F12)]
     let cp : Copy := ⟨5, 16, List.replicate 20 5, 0, false⟩
     s.colSpace .k cp = true ∧ s.submitCheck .k 0x12 cp = 0 ∧ c.get 1 = 16 ∧
     (tNe 0x1F (tW 0 0 5) c false [(A.DTT_COL_MAP 0 0, 32)]).colMap 0 5 = true ∧
     (tNe 0x1F (tW 0 0 5) c false []).colMap 0 5 = false) ∧
    ([0x1D, 0x1E, 0x1F, 0x20, 0x21, 0x22, 0x23, 0x24, 0x28, 0x29].all fun op =>
      let c : ActCtx := { tAct [] none with wait := some (op, tW 0 0 5) }
      decide ((tNe op (tW 0 0 5) c false []).actCtx 2 false = some (tRcp, c))) = true := by
  refine ⟨?_, ?_, ?_, ?_, ?_⟩ <;> decide
theorem wit_ActionWordSend_full :
    let c := tAct [] none
    let d : Dma := ⟨0, 0, true, 0, 0, 0, [], 0, true, none, false⟩
    let s := (tNe 0x23 (tW 32 0 5) c false []).mapEng 2 fun e => { e with dma := [d, d, d, d], inserts := List.replicate 3 (0, List.replicate 9000 0) }
    ((s.eng 2).dma.filter fun x => x.chan = 0).length = 4 ∧ 160 < s.txUsed 2 + txCells (s.eng 2).blen ∧
    s.inputStamp 2 false c = some 77 ∧ (if bitAt 4 2 then some (c.get 2) else none) = some 32 ∧
    s.boundHk 2 0 = true ∧ (s.hook 0).tx.length < 8 ∧ ((s.putFifos 0 [] [7]).hook 0).rx.head? = some 7 ∧
    (let u := s.mapCan 0 fun x => { x with bufs := List.replicate 8 ⟨eventFrame 0 false false 0 []⟩ }
     8 ≤ (u.can 0).bufs.length) := by decide
theorem wit_ActionWordUnits :
    (let c := tAct [] none
     let w := tW 0 0 5
     (tNe 0x25 w c false []).actsWord 2 false 0x25 w tRcp c ∧
     (tNe 0x26 w c false []).actsWord 2 false 0x26 w tRcp c ∧ (tNe 0x27 w c true []).actsWord 2 true 0x27 w tRcp c ∧
     (tNe 0x27 (tW 0 1 0) c true []).inputStamp 2 true c = some 99) ∧
    (let c := tAct [] none
     let w := tW 0 1 5
     let s := tNe 0x28 w c false []
     s.actsWord 2 false 0x28 w tRcp c ∧ s.boundHk 2 0 = true ∧ (s.hook 0).tx.length < 8 ∧ (s.hook 0).rx = [] ∧
     (tNe 0x29 w c false []).actsWord 2 false 0x29 w tRcp c ∧ s.mbxBound 5 = true ∧ s.mbxSender 5 = 0x12 ∧ s.mbxReceiver 5 = 2 ∧
     s.mbxWasFull 5 = false) ∧
    (let c := tAct [] none
     let w := tW 0 1 5
     (tNe 0x2A w c false []).actsWord 2 false 0x2A w tRcp c ∧ (tNe 0x2B w c true []).actsWord 2 true 0x2B w tRcp c ∧
     (tNe 0x2A w c false [(A.MBX_STATUS 5, 0x80000000)]).mbxFull 5 = true ∧
     (tNe 0x2B w c true [(A.MBX_STATUS 5, 0x80000000)]).mbxWasFull 5 = true) := by
  refine ⟨?_, ?_, ?_⟩ <;> decide
/-- The smallest image: one state, one transition without an action list, one END. -/
def tImg : List Byte :=
  let st : List Byte := leBytes 2 1 ++ leBytes 2 1 ++ leBytes 2 0xFFFF ++ List.replicate 122 0 ++ leBytes 2 0 ++ leBytes 2 1 ++
    List.replicate 4 0 ++ ([15, 0xFD, 0, 0] ++ leBytes 2 0xFFFF ++ leBytes 2 0 ++ leBytes 2 0xFFFF ++ List.replicate 6 0)
  let ac : List Byte := List.replicate 8 0
  let tab := fun (ty cnt off : Nat) (d : List Byte) =>
    leBytes 1 ty ++ leBytes 1 0 ++ leBytes 2 cnt ++ leBytes 4 off ++ leBytes 4 d.length ++ leBytes 4 (crc32c d)
  let h := [0x4E#8, 0x44#8, 0x4C#8, 0x45#8] ++ leBytes 2 1 ++ leBytes 2 0x40 ++ leBytes 2 5 ++ leBytes 2 6 ++ leBytes 4 368 ++
    leBytes 4 0 ++ [2, 0] ++ leBytes 2 0 ++ leBytes 2 0xFFFF ++ [0, 0xFF, 0xFF, 0xFF] ++ leBytes 2 0 ++ List.replicate 28 0
  h ++ leBytes 4 (crc32c h) ++ tab 3 1 96 st ++ tab 4 1 248 ac ++ st ++ ac ++ List.replicate 112 1
def tCmd : KCmd := ⟨2, 0, 7, 0x120, false, [], 0, 100000, 0, none, true, false, false⟩
theorem wit_RecipeLoadEffects :
    validate tImg = none ∧ validate [1, 2, 3] ≠ none ∧
    (let s := tRun [(A.NE_STATUS 2, (fput F.NE_STATUS.STATE 0 neLoading).toNat)]
     let l : Load := ⟨tImg, 2, 7, true⟩
     let s := s.putEng 2 { s.eng 2 with load := some l }
     s.neState 2 = neLoading ∧ (s.eng 2).load = some l ∧ s.kcmd 2 7 = none ∧ (s.eng 3).load = none ∧
     ({ s with kcp := { s.kcp with cmds := [tCmd] } } : State).kcmd 2 7 = some tCmd) ∧
    (let s := tRun [(A.NE_STATUS 2, (fput F.NE_STATUS.STATE 0 neStopped).toNat)]
     let l : Load := ⟨tImg, 2, 7, false⟩
     let s := s.putEng 2 { s.eng 2 with load := some l }
     let s : State := { s with kcp := { s.kcp with cmds := [tCmd] } }
     s.neState 2 = neStopped ∧ (s.eng 2).load = some l ∧ s.kcmd 2 7 = some tCmd) := by
  refine ⟨?_, ?_, ?_, ?_⟩ <;> decide
theorem wit_NeedleRunEffects :
    (let s := tRun [(A.NE_STATUS 2, (fput F.NE_STATUS.LOADED (fput F.NE_STATUS.STATE 0 neStopped) 1).toNat), (A.NE_BIND 3, 2)]
     s.reaches 1 (A.NE_CTRL 2) true ∧ s.neState 2 = neStopped ∧ s.flag (A.NE_STATUS 2) F.NE_STATUS.LOADED = true ∧
     s.rd (A.NE_DOORBELL 2) = 0 ∧ s.reaches 1 (A.NE_BIND 2) true ∧ (1 &&& s.boundElsewhere 2) = 0 ∧ (2 &&& s.boundElsewhere 2) ≠ 0) ∧
    (let s := tRun [(A.NE_STATUS 2, (fput F.NE_STATUS.STATE 0 neStopped).toNat)]
     s.flag (A.NE_STATUS 2) F.NE_STATUS.LOADED = false ∧ s.reaches 1 (A.NE_INL_CTRL 2) true ∧ s.inlMay 2 4 5 = true ∧
     s.inlMay 2 4 4 = false ∧ s.reaches 1 (A.NE_INL_LAT 2) true ∧ fget F.NE_INL_LAT.MAX_NS 1 ≠ 0) ∧
    (let s := tRun [(A.NE_STATUS 2, (fput F.NE_STATUS.STATE 0 neRunning).toNat)]
     let s := s.putEng 2 { s.eng 2 with timers := [(5, ⟨true, 3, 7, true, 2, 1, 9, 2⟩)] }
     let s : State := { s with raw := 3 }
     s.neState 2 = neRunning ∧ s.reaches 1 (A.NE_DOORBELL 2) true ∧ ((s.eng 2).timer 5).armed = true ∧
     ((s.eng 2).timer 5).expiry ≤ s.raw ∧ (s.eng 2).pend = [] ∧ ((s.eng 2).timer 6).armed = false) ∧
    (let s := tRun [(A.NE_STATUS 2, (fput F.NE_STATUS.STATE 0 neStopping).toNat)]
     let s := s.putEng 2 { s.eng 2 with dma := [⟨1, 0, true, 0, 0, 0, [], 0, true, none, false⟩] }
     let s : State := { s with now := 1000000 }
     s.neState 2 = neStopping ∧ (s.eng 2).stopAt + s.fld (A.NE_CTRL 2) F.NE_CTRL.HARD_US * usTicks ≤ s.now ∧ (s.eng 2).dma ≠ [] ∧
     (s.eng 3).evt = none ∧ (s.eng 3).dma = [] ∧ masterHalf 2 = some (unitHalf 2 12) ∧ s.reaches 2 (A.NE_DOORBELL 2) true) := by
  refine ⟨?_, ?_, ?_, ?_⟩ <;> decide
/-- Engine 2 with its event context idle, a doorbell event waiting, and a state table whose state 0 has one transition. -/
def tEvtS : State :=
  let s := tNe 1 (tW 0 0 0) (tAct [] none) false [(A.NE_EVT_MASK 2, 0x3FF), (A.NE_INL_CTRL 2, (fput F.NE_INL_CTRL.EN (fput F.NE_INL_CTRL.PORT_B 0 1) 1).toNat)]
  let s := (s.putN 2 (0x8000 + 128) [0, 0, 1, 0]).putN 2 (transAt 2 tRcp 0 - neWin 2) [15, 0xFD, 0, 0, 1, 0, 3, 0, 0xFF, 0xFF]
  s.putEng 2 { s.eng 2 with evt := none, pend := [pendBit s prBell 3 0], inserts := [(0, [1, 2])]
                            dma := [⟨1, 3, true, 0, 0, 0x10000040, List.replicate 8 5, 8, false, none, false⟩] }
theorem wit_NeedleEventEffects :
    (let s := tEvtS
     let s1 := (s.neAge 2).dropTimeouts 2 tRcp
     let k := Cand.pend (pendBit s prBell 3 0)
     s.neState 2 = neRunning ∧ (s.eng 2).evt = none ∧ (s.eng 2).recipe = some tRcp ∧ firstCand (s1.cands 2) = some k ∧
     (s1.evtOf 2 tRcp k).ctx ≤ 255 ∧ s.ctxState 2 (s1.evtOf 2 tRcp k).ctx < tRcp.nstate ∧
     s.findTrans 2 tRcp (s1.evtOf 2 tRcp k) 0 0 = some 0 ∧ s.mrd (transAt 2 tRcp 0 + 6) 2 ≠ 0xFFFF) ∧
    (let s := tEvtS
     s.flag (A.NE_INL_CTRL 2) F.NE_INL_CTRL.EN = true ∧ (s.eng 2).frame = none ∧ tRcp.inline = true ∧ (s.eng 2).passing = [] ∧
     ((s.eng 2).inserts.find? fun y => y.1 = 0) = some (0, [1, 2]) ∧ s.inlBusy 2 0 = false ∧
     s.inlInput 2 0 [1, 2, 3] true 5 ≠ none ∧ (s.inlInput 2 0 (List.replicate 64 0) true 5).isSome = true ∧ s.inlLink 2 (s.inlPort 2 0) = false ∧ s.rst.k.isolated = false) ∧
    (let s := (tEvtS.wrn (A.MAC_STATUS 1) 0xFFFFFFFF).wrn (A.MAC_STATUS 0) 0xFFFFFFFF
     let s := (s.setf (A.NE_STATUS 2) F.NE_STATUS.STATE neStopped).setf (A.NE_INL_CTRL 2) F.NE_INL_CTRL.STOP_POLICY 1
     s.neState 2 = neStopped ∧ s.inlOut 2 0 = some 1 ∧ s.inlLink 2 (s.inlPort 2 0) = true) ∧
    (let s := tEvtS
     s.zeroingAt 0x10000040 = false ∧ s.zeroingAt 0x10000047 = false ∧ s.spadErr 0x12 0x10000040 8 true = none ∧ s.resync = none ∧
     regionOf 0x7700000000 = .unmapped ∧ s.zeroingAt 0x7700000000 = false ∧ (s.eng 3).dma = []) := by
  refine ⟨?_, ?_, ?_, ?_⟩ <;> decide

def tBytes (n typ op : Nat) : List Byte := padTo n ([0x01, 0x80, 0xC2, 0x00, 0x00, 0x01, 2, 3, 4, 5, 6, 7] ++ beBytes 2 typ ++ beBytes 2 op ++ [0, 7])
def tMac (ws : List (Nat × Nat)) : State :=
  tRun ([(A.RG_CTRL 1, 1), (A.MAC_CTRL 23, 0x2400007B), (A.MAC_STATUS 20, 1), (A.MAC_CTRL 20, 0x2400007F), (A.MAC_PAUSE 20, 0x00400080)] ++ ws)
theorem wit_MacReceiveEffects :
    (let s := tMac []
     let f := tMac [(A.MAC_CTRL 20, 0x00640013)]
     s.farLoop 20 = false ∧ s.rxLine 20 = true ∧ s.flag (A.MAC_STATUS 20) F.MAC_STATUS.LINK = true ∧ s.perPending 20 s.raw = none ∧
     s.flag (A.MAC_CTRL 20) F.MAC_CTRL.RX_EN = true ∧ 60 ≤ s.fld (A.MAC_CTRL 20) F.MAC_CTRL.MAX_LEN ∧ (tBytes 60 0x8808 2).length = 60 ∧
     f.fld (A.MAC_CTRL 20) F.MAC_CTRL.MAX_LEN = 100 ∧ f.flag (A.MAC_CTRL 20) F.MAC_CTRL.RX_EN = true ∧ (tBytes 101 0x0800 2).length = 101) ∧
    (let s := tMac []
     be16At (tBytes 60 0x8808 2) 12 = 0x8808 ∧ be16At (tBytes 60 0x8808 2) 14 ≠ 1 ∧ be16At (tBytes 60 0x8808 1) 14 = 1 ∧
     s.flag (A.MAC_CTRL 20) F.MAC_CTRL.PAUSE_RX_EN = true ∧ (tMac [(A.MAC_CTRL 20, 0x2400000F)]).flag (A.MAC_CTRL 20) F.MAC_CTRL.PAUSE_RX_EN = false ∧
     be16At (tBytes 60 0x0800 2) 12 ≠ 0x8808 ∧ s.macFilter 20 (tBytes 60 0x0800 2) = false ∧
     (tMac [(A.MAC_STATUS 20, 0)]).flag (A.MAC_STATUS 20) F.MAC_STATUS.LINK = false ∧ (tMac [(A.RG_CTRL 1, 0)]).rxLine 20 = false) ∧
    (let s := tMac [(A.MAC_CTRL 20, 0x24000003)]
     let i := s.wrn (A.NE_INL_CTRL 12) (fput F.NE_INL_CTRL.EN (fput F.NE_INL_CTRL.PORT_A 0 8) 1).toNat
     s.macFilter 20 (tBytes 60 0x0800 2) = true ∧ s.inlinePort .p 8 = false ∧ i.inlinePort .p 8 = true ∧
     i.macFilter 20 (tBytes 60 0x0800 2) = true ∧ (tMac [(A.SD_CTRL 4, (fput F.SD_CTRL.LOOP 1 2).toNat)]).farLoop 12 = true) := by
  refine ⟨?_, ?_, ?_⟩ <;> decide
def tHanded (s : State) (outp : Nat) : State := { s with planeP := { s.planeP with handed := [⟨0, outp, 0, tBytes 64 0x0800 0, 1, 77, 0, 0, 0, 0, 0, none, 0⟩] } }
theorem wit_MacSendEffects :
    (let s := tHanded (tMac []) 8
     let f := tHanded (tMac [(A.MAC_CTRL 20, 0x003F007F)]) 8
     let q : PCopy := ⟨0, 8, 0, tBytes 64 0x0800 0, 1, 77, 0, 0, 0, 0, 0, none, 0⟩
     (s.plane .p).handed.find? (fun q => q.outp = 8 ∧ !s.kcpTakes .p q) = some q ∧
     (f.plane .p).handed.find? (fun q => q.outp = 8 ∧ !f.kcpTakes .p q) = some q ∧
     f.fld (A.MAC_CTRL 20) F.MAC_CTRL.MAX_LEN < (s.redLeave .p q q.bytes).length ∧
     (s.redLeave .p q q.bytes).length ≤ s.fld (A.MAC_CTRL 20) F.MAC_CTRL.MAX_LEN ∧
     s.txWaits 20 = false ∧ s.nearLoop 20 = false ∧ f.txWaits 20 = false ∧
     s.flag (A.MAC_STATUS 20) F.MAC_STATUS.LINK = true ∧ s.flag (A.MAC_CTRL 20) F.MAC_CTRL.TX_EN = true ∧
     ptpAt (tBytes 64 0x0800 0) = none ∧ (tHanded (tMac [(A.MAC_STATUS 20, 0)]) 8).flag (A.MAC_STATUS 20) F.MAC_STATUS.LINK = false) ∧
    (let s := tHanded (tMac []) 10
     let u := (tMac [(A.TEN_STATUS, 0xFFFFFFFF)])
     let l := tHanded u 11
     (s.plane .p).handed.find? (fun q => q.outp = 10 ∧ !s.kcpTakes .p q) ≠ none ∧
     (l.plane .p).handed.find? (fun q => q.outp = 11 ∧ !l.kcpTakes .p q) ≠ none ∧ l.segUp .p = true ∧ l.segUp .k = true ∧
     (tHanded (tMac [(A.TEN_STATUS, 0)]) 11).segUp .p = false ∧
     (tHanded (tMac [(A.MAC_STATUS 20, (fput F.MAC_STATUS.PAUSED 1 1).toNat)]) 8).txWaits 20 = true) ∧
    (let s := (tMac [(A.MAC_STATUS 20, (fput F.MAC_STATUS.PAUSED (fput F.MAC_STATUS.XOFF 1 1) 1).toNat)])
     let a : State := { s with now := 99999999 }.putPort 20 { Port.init with announced := true }
     let x := (tMac []).putPort 20 { Port.init with xonDue := true }
     s.flag (A.MAC_STATUS 20) F.MAC_STATUS.PAUSED = true ∧ (s.port 20).pauseEnd ≤ s.now ∧
     s.flag (A.MAC_CTRL 20) F.MAC_CTRL.PAUSE_TX_EN = true ∧ s.flag (A.MAC_CTRL 20) F.MAC_CTRL.TX_EN = true ∧
     s.fld (A.MAC_PAUSE 20) F.MAC_PAUSE.QUANTA = 0x80 ∧ s.fld (A.MAC_PAUSE 20) F.MAC_PAUSE.REFRESH = 0x40 ∧
     s.flag (A.MAC_STATUS 20) F.MAC_STATUS.LINK = true ∧ s.flag (A.MAC_STATUS 20) F.MAC_STATUS.XOFF = true ∧ (s.port 20).announced = false ∧
     s.txcHeld 20 = false ∧ (s.port 20).begun = false ∧ (s.port 20).xonDue = false ∧ (a.port 20).announced = true ∧ (a.port 20).lastPause + quantaTicks (a.portMbps .p 8) 0x40 ≤ a.now ∧
     x.flag (A.MAC_STATUS 20) F.MAC_STATUS.XOFF = false ∧ (x.port 20).xonDue = true) ∧
    (let s := tMac [(A.MAC_PER_CTRL 20, 0x80000000)]
     let f : State := { s with gauge := { s.gauge with fired := [(s.fld (A.MAC_PER_CTRL 20) F.MAC_PER_CTRL.CMP, 6)] } }
     f.flag (A.MAC_PER_CTRL 20) F.MAC_PER_CTRL.EN = true ∧ f.perEvent 20 = some 5 ∧ (f.port 20).bound ≤ 5 ∧ 5 ≤ ({ f with raw := 5 } : State).raw ∧
     (tMac []).flag (A.MAC_PER_CTRL 20) F.MAC_PER_CTRL.EN = false ∧ (tMac []).reaches 1 (A.MAC_PER_CTRL 20) true) := by
  refine ⟨?_, ?_, ?_, ?_⟩ <;> decide
def tTl (ws : List (Nat × Nat)) : State := { tRun ([(A.TL_CTRL 7, 3), (A.PWR_RAIL, 0xFFF)] ++ ws) with now := 9000000 }
theorem wit_T1lEffects :
    (let s := tTl []
     let f := tTl [(A.TL_CTRL 7, 0)]
     s.reaches 1 (A.TL_CTRL 7) true ∧ s.flag (A.TL_CTRL 7) F.TL_CTRL.EN = true ∧ s.rail 8 = true ∧ s.bound 7 = false ∧
     f.reaches 1 (A.TL_CTRL 7) true ∧ f.flag (A.TL_CTRL 7) F.TL_CTRL.EN = false ∧ f.flag (A.MAC_STATUS (tlPort 7)) F.MAC_STATUS.LINK = false) ∧
    (let s := tTl [(A.TL_STATUS 7, 0x1000)]
     let w := s.putPort (tlPort 7) { Port.init with waitEnd := 5 }
     let d := tTl [(A.TL_STATUS 7, 0x4000)]
     s.tlEn 7 = true ∧ s.flag (A.TL_CTRL 7) F.TL_CTRL.AN_EN = true ∧ s.fld (A.TL_STATUS 7) F.TL_STATUS.TRAIN = 1 ∧ (s.port (tlPort 7)).waitEnd = 0 ∧
     s.fld (A.TL_CTRL 7) F.TL_CTRL.ROLE = 0 ∧ w.tlEn 7 = true ∧ (w.port (tlPort 7)).waitEnd = 5 ∧
     (tTl [(A.TL_STATUS 7, 0x2000)]).fld (A.TL_STATUS 7) F.TL_STATUS.TRAIN = 2 ∧ (tTl [(A.TL_STATUS 7, 0x2000)]).tlEn 7 = true ∧
     (tTl [(A.TL_STATUS 7, 0x3000)]).fld (A.TL_STATUS 7) F.TL_STATUS.TRAIN = 3 ∧ d.fld (A.TL_STATUS 7) F.TL_STATUS.TRAIN = 4 ∧
     (d.port (tlPort 7)).waitEnd ≤ d.now ∧ d.flag (A.MAC_STATUS (tlPort 7)) F.MAC_STATUS.LINK = false) := by
  refine ⟨?_, ?_⟩ <;> decide
theorem wit_SerdesRgmiiEffects :
    (let s := tTl [(A.SD_CTRL 7, 0x1011), (A.SD_STATUS 7, 0xF), (A.RG_CTRL 1, 0x41)]
     s.reaches 1 (A.SD_CTRL 7) true ∧ s.sdOn 7 = true ∧ s.flag (A.SD_STATUS 7) F.SD_STATUS.PLL_LOCK = true ∧
     s.flag (A.SD_STATUS 7) F.SD_STATUS.CDR_LOCK = true ∧ s.flag (A.SD_STATUS 7) F.SD_STATUS.SYNC = true ∧
     s.flag (A.SD_CTRL 7) F.SD_CTRL.PRBS_EN = true ∧ s.sdAn 7 = true ∧ s.fld (A.SD_CTRL 7) F.SD_CTRL.MODE = 0 ∧
     s.flag (A.SD_STATUS 7) F.SD_STATUS.AN_DONE = true ∧ s.fld (A.SD_STATUS 7) F.SD_STATUS.SPEED_RES ≠ 2 ∧
     s.flag (A.RG_CTRL 1) F.RG_CTRL.EN = true ∧ s.flag (A.RG_CTRL 1) F.RG_CTRL.INBAND = true ∧ s.reaches 1 (A.RG_CTRL 1) true) ∧
    (let s := (tTl [(A.MAC_STATUS 20, 1)]).putPort 20 { Port.init with waitEnd := 5 }
     s.sdOn 7 = false ∧ s.flag (A.RG_CTRL 1) F.RG_CTRL.EN = false ∧ s.reaches 1 (A.RG_CTRL 1) true ∧ (s.port 20).waitEnd = 5 ∧
     s.lineBusy 20 = false ∧ s.flag (A.MAC_STATUS 20) F.MAC_STATUS.LINK = true ∧ s.linkReady 20 = false) ∧
    (let s := tTl [(A.RG_CTRL 1, 1)]
     s.flag (A.MAC_STATUS 20) F.MAC_STATUS.LINK = false ∧ s.linkReady 20 = true) := by
  refine ⟨?_, ?_, ?_⟩ <;> decide

def tCopy9 : PCopy := ⟨0, 9, 2, tBytes 64 0x0800 0, 1, 77, 0, 5, 0x801, 0, 0, none, 0⟩
def tPlane (ws : List (Nat × Nat)) : State :=
  let s := tRun ([(A.SWP_CFG 0 0, 0xFFFFFFFF), (A.SWP_MISS_MASK 0 0, 0x100), (A.SWP_CFG 0 9, 0xFFFFFFFF), (A.SWP_MISS_MASK 0 9, 0x100)] ++ ws)
  let q : List InFrame := [⟨0, tBytes 64 0x0800 0, 77, 0, 0, 0, none, none, 0, 5000⟩, ⟨9, tBytes 64 0x0800 0, 77, 0, 0, 0, none, none, 0, 5000⟩]
  { s with raw := 5000, planeK := { s.planeK with inq := q, handed := [tCopy9], dup := [⟨5, 6, 100, 0, true, 0, 5, [tCopy9]⟩] } }
def tFwd (s : State) (f : InFrame) : Bool :=
  s.fwdDecide .k f == some ⟨(s.classify .k f).2, 0x100, 0, 0xFFFFFFFF, 0, none⟩
theorem wit_PlaneFrameEffects :
    (let s := tPlane []
     let f : InFrame := ⟨0, tBytes 64 0x0800 0, 77, 0, 0, 0, none, none, 0, 5000⟩
     let c := (s.classify .k f).2
     s.planeK.inq.find? (fun f => f.ingress = 0) = some f ∧ tFwd s f = true ∧ c ≤ 7 ∧ s.inlinePort .k 8 = false ∧ s.redRole .k 8 = 0 ∧
     s.fld (A.SWQ_SIEVE 0 (64 + c)) F.SWQ_SIEVE.MODE = 0) ∧
    (let s := tPlane []
     let f : InFrame := ⟨0, tBytes 64 0x0800 0, 77, 0, 0, 0, none, none, 0, 5000⟩
     s.fits .k ⟨0, 8, (s.classify .k f).2, f.bytes, frameCells f.bytes.length, 77, 0, 0xFFFFFFFF, 0, 0, 0, none, 0⟩ = true) ∧
    (let s := tPlane [(A.SWQ_LIM 0 71, 0)]
     let f : InFrame := ⟨0, tBytes 64 0x0800 0, 77, 0, 0, 0, none, none, 0, 5000⟩
     let g : InFrame := { f with ingress := 9 }
     tFwd s f = true ∧ tFwd s g = true ∧ (s.classify .k f).2 = 7 ∧ (s.classify .k g).2 = 0) ∧
    (let s := tPlane [(A.SWQ_LIM 0 71, 0), (A.SWQ_LIM 0 64, 0)]
     let b := tBytes 64 0x0800 0
     s.fits .k ⟨0, 8, 7, b, frameCells b.length, 77, 0, 0xFFFFFFFF, 0, 0, 0, none, 0⟩ = false ∧
     s.fits .k ⟨9, 8, 0, b, frameCells b.length, 77, 0, 0xFFFFFFFF, 0, 0, 0, none, 0⟩ = false) ∧
    (let s := tPlane [(A.SWP_CFG 0 0, 0), (A.SW_TWIN 0, 1)]
     s.planeK.inq.find? (fun f => f.ingress = 0) = some ⟨0, tBytes 64 0x0800 0, 77, 0, 0, 0, none, none, 0, 5000⟩ ∧
     s.fwdDecide .k ⟨0, tBytes 64 0x0800 0, 77, 0, 0, 0, none, none, 0, 5000⟩ = none ∧ s.planeK.inq.find? (fun f => f.ingress = 3) = none ∧
     s.planeK.handed.find? (fun q => q.outp = 9) = some tCopy9 ∧ s.planeP.handed.find? (fun q => q.outp = 9) = none ∧
     s.planeK.dup.find? (fun d => d.held ≠ [] ∧ d.s1 + s.fld (A.SW_TWIN 0) F.SW_TWIN.WIN_US * usTicks + 4 * usTicks ≤ s.raw) ≠ none ∧
     s.reaches 2 (A.SW_BUF_FREE 0) true) := by
  refine ⟨?_, ?_, ?_, ?_, ?_⟩ <;> decide
theorem wit_PlaneScheduleEffects :
    (let s := tRun [(A.SWG_CTRL 0 8, 0x80000002), (A.SWG_A_CYCLE 0 8, 1000)]
     let g := s.putGate .k 8 ⟨some 9, 7, true, none⟩
     s.planeK.voq = [] ∧ s.planeK.unread = [] ∧ g.gated .k 8 = true ∧ (g.gate .k 8).started = true ∧ (g.gate .k 8).swapAt = some 9 ∧
     ({ g with raw := 5000 } : State).gateNs (g.dom (g.fld (A.SWG_CTRL 0 8) F.SWG_CTRL.DOMAIN)).cur = 10000 ∧
     s.gated .k 0 = false ∧ (s.gate .k 8).swapAt = none ∧ s.reaches 1 (A.SWG_CTRL 0 8) true ∧ s.flag (A.SWG_CTRL 0 8) F.SWG_CTRL.EN = true ∧
     s.adminCycle .k 8 = 1000 ∧ fget F.SWG_CTRL.ADMIN_LEN 0x80000002 ≠ 0 ∧ fget F.SWG_CTRL.DOMAIN 0x80000002 = s.fld (A.SWG_CTRL 0 8) F.SWG_CTRL.DOMAIN ∧
     s.reaches 1 (A.SWG_CTRL 0 0) true ∧ s.flag (A.SWG_CTRL 0 0) F.SWG_CTRL.EN = false ∧
     (tRun [(A.SWG_CTRL 0 0, 0x80000000), (A.SWG_A_CYCLE 0 0, 999)]).adminCycle .k 0 < 1000 ∧ (tRun [(A.SWG_CTRL 0 0, 0x80000000), (A.SWG_A_CYCLE 0 0, 999)]).flag (A.SWG_CTRL 0 0) F.SWG_CTRL.EN = true ∧
     (tRun [(A.SWG_CTRL 0 0, 0x80000000), (A.SWG_A_CYCLE 0 0, 999)]).reaches 1 (A.SWG_CTRL 0 0) true) ∧
    (let s := tRun []
     let q : PCopy := ⟨11, 8, 3, tBytes 64 0x0800 0, 1, 77, 0, 5, 0, 0, 0, none, 0⟩
     let t : State := { s with planeK := { s.planeK with voq := [q] } }
     t.planeK.voq = [q] ∧ t.planeK.unread = [] ∧ t.planeK.fifo = [] ∧ q.bytes.length ≤ 240 ∧ t.gated .k 8 = false ∧
     t.inlinePort .k 8 = false ∧ t.flag (A.MAC_STATUS (portNo .k 8)) F.MAC_STATUS.PAUSED = false) := by
  refine ⟨?_, ?_⟩ <;> decide

def tGauge (ws : List (Nat × Nat)) (pend : Option Nat) : State :=
  let s := tRun ([(A.GAUGE_REF, 0x13), (A.GAUGE_DOM_CFG 3, 0x00010002)] ++ ws)
  let d : Dom := ⟨⟨100, 5, 77, 3, -1000⟩, ⟨50, 4, 8, 3, 12⟩, pend⟩
  { s with rawOn := true, raw := 7000000, now := 9000000, gauge := { s.gauge with doms := [(3, d)], pps1 := some 9000001 } }
theorem wit_GaugeEffects :
    (let s := tGauge [(A.GAUGE_REF, fput F.GAUGE_REF.K_OK (fput F.GAUGE_REF.P_OK (fput F.GAUGE_REF.AUTO 0 1) 1) 1 |>.toNat)] none
     let f := tGauge [(A.GAUGE_REF, (fput F.GAUGE_REF.K_OK 0 1).toNat)] none
     let c := tGauge [(A.GAUGE_REF, (fput F.GAUGE_REF.K_OK 0 1).toNat), (A.SYS_STRAP, (fput F.SYS_STRAP.CLKMODE 0 2).toNat)] none
     s.flag A.GAUGE_REF (refOk .k) = true ∧ s.flag A.GAUGE_REF (refOk .p) = true ∧ s.commonRef = false ∧ s.fld A.GAUGE_REF F.GAUGE_REF.ACTIVE = 0 ∧
     s.flag A.GAUGE_REF F.GAUGE_REF.AUTO = true ∧ f.flag A.GAUGE_REF (refOk .k) = true ∧ f.flag A.GAUGE_REF (refOk .p) = false ∧
     f.commonRef = false ∧ c.commonRef = true ∧ c.flag A.GAUGE_REF (refOk .k) = true ∧ s.reaches 1 A.GAUGE_REF true ∧
     ({ s with rawOn := false } : State).rst.stage = .done ∧ s.presented 2 A.GAUGE_RAW_LO = true ∧ s.presented 2 (A.GAUGE_DOM_NS 3) = true ∧
     s.reaches 2 (A.GAUGE_DOM_CONV_RAW_HI 3) true ∧ (s.dom 3).convert (100 + 2 ^ 32 * (0#32).toNat) ≠ none ∧
     (s.dom 3).convert ((s.conv 2 3).rawLo + 2 ^ 32 * (0#32).toNat) = none ∧ (s.conv 2 3).rawLo = 0) ∧
    (let s := tGauge [] none
     let f := tGauge [] (some 8000000)
     let c := tGauge [] (some 7000000)
     s.reaches 1 (A.GAUGE_DOM_CTRL 3) true ∧ (s.dom 3).pend = none ∧ fget F.GAUGE_DOM_CTRL.CANCEL 0 = 0 ∧ fget F.GAUGE_DOM_CTRL.MODE 0 ≠ 3 ∧
     f.reaches 1 (A.GAUGE_DOM_CTRL 3) true ∧ (f.dom 3).pend = some 8000000 ∧ f.raw < 8000000 ∧ (c.dom 3).pend = some 7000000 ∧ 7000000 ≤ c.raw ∧
     s.reaches 3 (A.GAUGE_DOM_CTRL 3) true ∧ 3 ≠ s.fld (A.GAUGE_DOM_STATUS 3) F.GAUGE_DOM_STATUS.OWNER_NOW ∧ s.reaches 1 (A.GAUGE_DOM_CFG 3) true) ∧
    (let s := tGauge [(A.GAUGE_DOM_CFG 3, (fput F.GAUGE_DOM_CFG.HOLD_MS 0 1).toNat), (A.GAUGE_DOM_STATUS 3, (fput F.GAUGE_DOM_STATUS.STATE 0 1).toNat),
       (A.GAUGE_CMP_CTRL 15, (fput F.GAUGE_CMP_CTRL.EN 0 1).toNat), (A.GAUGE_CMP_NEXT_LO 15, 7000000), (A.GAUGE_CMP_PERIOD 15, 1)] none
     s.fld (A.GAUGE_DOM_CFG 3) F.GAUGE_DOM_CFG.HOLD_MS = 1 ∧ s.fld (A.GAUGE_DOM_STATUS 3) F.GAUGE_DOM_STATUS.STATE = 1 ∧
     (s.dom 3).cur.anchor + 1 * msTicks ≤ s.raw ∧ (tGauge [] none).fld (A.GAUGE_DOM_STATUS 3) F.GAUGE_DOM_STATUS.STATE ≠ 1 ∧
     s.flag (A.GAUGE_CMP_CTRL 15) F.GAUGE_CMP_CTRL.EN = true ∧ s.flag (A.GAUGE_CMP_CTRL 15) F.GAUGE_CMP_CTRL.DOM_EN = false ∧
     s.rd64 (A.GAUGE_CMP_NEXT_LO 15) (A.GAUGE_CMP_NEXT_HI 15) = 7000000 ∧ s.rdn (A.GAUGE_CMP_PERIOD 15) = 1 ∧ s.cmpLast 15 = none ∧
     ([A.GAUGE_CMP_CTRL 15, A.GAUGE_CMP_NEXT_LO 15, A.GAUGE_CMP_NEXT_HI 15, A.GAUGE_CMP_NEXT_NS 15, A.GAUGE_CMP_PERIOD 15].all fun a =>
       !s.wroteNow a && s.rdBefore a == s.rdn a) = true ∧ s.cmpDue 15 = true ∧
     (tGauge [] none).flag (A.GAUGE_CMP_CTRL 15) F.GAUGE_CMP_CTRL.EN = false ∧ s.gauge.pps1 = some 9000001) := by
  refine ⟨?_, ?_, ?_⟩ <;> decide

def tXl (id : Nat) (remote : Bool) : CxFrame := ⟨.xl, false, id, false, remote, [1, 2, 3], false, 0, 0, 0⟩
def tPat : Pattern :=
  { rows := 4, localNode := 3, rowLen := 5000000, stitchLen := 100000, actionOfs := 1000, precision := 100, driftLimit := 50, minislots := 5,
    minislotLen := 700000, nit := 0, listenBase := 77, listenStep := 5, refIds := [5, 6, 0x80000000, 0x80000000],
    startIds := [9, 10, 0x80000000, 0x80000000], stitches := [⟨5, 0, 0, 0, 1⟩, ⟨33, 0, 1, 0, 1⟩, ⟨34, 0, 2, 1, 2⟩] }
/-- Controller 7 on the bus, in a DTT state, with a Pattern. -/
def tCan (ws : List (Nat × Nat)) (st raw : Nat) (f : Cx → Cx) : State :=
  let s := tRun ([(A.CX_CTRL 7, (fput F.CX_CTRL.EN (fput F.CX_CTRL.XL_EN 0 1) 1).toNat), (A.CX_STATUS 7, (fput F.CX_STATUS.SYNCED 0 1).toNat),
    (A.DTT_STATUS 7, (fput F.DTT_STATUS.STATE 0 st).toNat), (A.DTT_ROLE 7, 0), (A.CX_FILT_ID 7 127, 0x80000022), (A.CX_FILT_MASK 7 127, 0xE00007FF),
    (A.DTT_CTRL 7, if st = dOff then 0 else (fput F.DTT_CTRL.EN 0 1).toNat)] ++ ws)
  let x : Cx := { Cx.init with bufs := [⟨tXl 7 false⟩], pattern := some tPat, q := 50000000, stitch := [(1, ⟨[1, 2], 5⟩)] }
  { s with raw := raw, cx := [(7, f x)] }
def tBound : List (Nat × Nat) := [(A.NE_BIND 13, (fput F.NE_BIND.CX 0 8).toNat), (A.NE_STATUS 13, (fput F.NE_STATUS.STATE 0 neRunning).toNat)]
theorem wit_CxEffects :
    (let s := tCan tBound 0 5000 id
     let f := tCan [] 0 5000 id
     s.cxOn 7 = true ∧ s.cxFormat 7 .xl = true ∧ s.dtt 7 = dOff ∧ s.cxEngine 7 = some 13 ∧ s.neState 13 = neRunning ∧
     (List.range 128).find? (fun i => s.cxFilter 7 i (tXl 0x22 false)) = some 127 ∧ f.cxEngine 7 = none ∧
     (List.range 128).find? (fun i => f.cxFilter 7 i (tXl 0x22 false)) = some 127) ∧
    (let s := tCan [] 0 5000 id
     let h := tCan [(A.CX_ERRC 7, (fput F.CX_ERRC.TEC 0 248).toNat)] 0 5000 id
     let o := tCan [] 0 5000 (fun x => { x with busOff := true, recovering := true })
     let z := tCan [(A.CX_CTRL 7, 0), (A.CX_PWM 7, 0)] 0 5000 id
     (List.range 128).find? (fun i => s.cxFilter 7 i (tXl 0x21 false)) = none ∧ (tXl 0x22 true).remote = true ∧
     s.dttMay 7 = true ∧ s.cxFormat 7 .fd = false ∧ cxFirst (s.cxOffered 7) = some ⟨tXl 7 false⟩ ∧ s.fld (A.CX_ERRC 7) F.CX_ERRC.TEC = 0 ∧ h.fld (A.CX_ERRC 7) F.CX_ERRC.TEC = 248 ∧
     h.dttMay 7 = true ∧ cxFirst (h.cxOffered 7) = some ⟨tXl 7 false⟩ ∧ (o.can 7).busOff = true ∧ (o.can 7).recovering = true ∧ o.dtt 7 = dOff ∧
     o.dttMay 7 = false ∧ s.cxEn 7 = true ∧ s.reaches 1 (A.CX_CTRL 7) true ∧ s.flag (A.CX_CTRL 7) F.CX_CTRL.EN = true ∧
     fget F.CX_CTRL.XL_EN 0 ≠ s.fld (A.CX_CTRL 7) F.CX_CTRL.XL_EN ∧ z.cxEn 7 = false ∧ z.cxOn 7 = false ∧
     z.reaches 1 (A.CX_CTRL 7) true ∧ z.flag (A.CX_CTRL 7) F.CX_CTRL.EN = false ∧ z.fld (A.CX_PWM 7) F.CX_PWM.PWMO = 0) := by
  refine ⟨?_, ?_⟩ <;> decide
def tReq : List (Nat × Nat) :=
  [(A.CX_XBT 7, (fput F.CX_XBT.BRP_M1 (fput F.CX_XBT.TSEG1_M1 (fput F.CX_XBT.TSEG2_M1 0 49) 48) 0).toNat)]
theorem wit_DttEffects :
    (let x := { Cx.init with q := 50000000 }
     let s := tCan [] 1 5000 (fun x => { x with listenEnd := 5 })
     let n := tCan [(A.DTT_ROLE 7, (fput F.DTT_ROLE.COLD_IDX 0 3).toNat)] 1 5000 (fun x => { x with listenEnd := 5 })
     let c := tCan [] 2 5000 id
     let d := tCan [] 2 5000 (fun x => { x with startSof := some 40 })
     s.dtt 7 = dListen ∧ (s.can 7).listenEnd = 5 ∧ s.dttColdId 7 tPat ≠ none ∧ n.dttColdId 7 tPat = none ∧ n.dtt 7 = dListen ∧
     c.dtt 7 = dCold ∧ c.dttColdId 7 tPat = some 9 ∧ (c.can 7).startSof = none ∧ c.dttMay 7 = true ∧ c.flag (A.DTT_CTRL 7) F.DTT_CTRL.SYNC_EN = false ∧
     d.flag (A.DTT_CTRL 7) F.DTT_CTRL.EN = true ∧ (d.can 7).startSof = some 40 ∧ d.dtt 7 = dCold ∧ d.dttColdId 7 tPat = some 9 ∧ d.fld (A.CX_ERRC 7) F.CX_ERRC.TEC + 8 ≤ 255 ∧ (d.can 7).busOff = false ∧
     s.cxOn 7 = true ∧ tPat.rankOf 6 = some 1 ∧ (0 = s.fld (A.DTT_ROLE 7) F.DTT_ROLE.PTAG) ∧ s.reaches 1 (A.DTT_CTRL 7) true ∧
     s.flag (A.DTT_CTRL 7) F.DTT_CTRL.EN = true ∧ x.instant tPat 1000 = 50000000) ∧
    (let raw := 50000000
     let s := tCan [] 4 raw id
     let i := tCan [] 3 60000000 id
     let a := tCan [] 4 50100000 id
     let g := tCan [] 4 50299000 id
     let z := tCan [(A.DTT_CTRL 7, 0)] 0 raw id
     s.dtt 7 = dActive ∧ s.cxOn 7 = true ∧ s.dttMay 7 = true ∧ (s.can 7).refSeen = false ∧ s.dttRank 7 tPat = some 0 ∧
     s.raw = (s.can 7).instant tPat (tPat.actionOfs + 2 * 0 * tPat.precision) ∧ (s.can 7).row = 0 ∧
     (s.can 7).inWindow tPat (tPat.actionOfs + 2 * 1 * tPat.precision) 50000230 = true ∧
     (s.can 7).inWindow tPat (tPat.actionOfs + 2 * 1 * tPat.precision) 50000300 = false ∧
     ((50000230 : Int) - ((s.can 7).q + rateMul (s.can 7).rate (2 * 1 * tPat.precision) : Nat)).natAbs ≤ tPat.driftLimit ∧
     i.dtt 7 = dInteg ∧ (i.nextRow 7 tPat).1 - rateMul (i.nextRow 7 tPat).2 tPat.actionOfs ≤ i.raw ∧ (i.can 7).firstRow = false ∧ (i.can 7).gotRef = false ∧
     ({ i with raw := 50299000 } : State).raw = (i.can 7).instant tPat (tPat.stitches.length * tPat.stitchLen + 0 * tPat.minislotLen) ∧
     50999000 = (i.can 7).instant tPat (tPat.stitches.length * tPat.stitchLen + 1 * tPat.minislotLen) ∧
     tPat.stitches[1]? = some ⟨33, 0, 1, 0, 1⟩ ∧ (⟨33, 0, 1, 0, 1⟩ : Stitch).tx = true ∧ (⟨33, 0, 1, 0, 1⟩ : Stitch).usedIn 0 = true ∧
     tPat.stitches[2]? = some ⟨34, 0, 2, 1, 2⟩ ∧ (⟨34, 0, 2, 1, 2⟩ : Stitch).rx = true ∧ (⟨34, 0, 2, 1, 2⟩ : Stitch).usedIn 1 = true ∧
     tPat.rankOf 34 = none ∧ tPat.isStart 34 = false ∧ (a.can 7).place tPat 50200000 = .stitch 2 ∧
     (a.can 7).inWindow tPat (2 * tPat.stitchLen + tPat.actionOfs) 50200000 = true ∧
     a.raw = (a.can 7).instant tPat (1 * tPat.stitchLen + tPat.actionOfs) ∧ storeFind (a.can 7).stitch 1 = some ⟨[1, 2], 5⟩ ∧
     g.raw = (g.can 7).instant tPat (tPat.stitches.length * tPat.stitchLen + 0 * tPat.minislotLen) ∧
     z.reaches 1 (A.DTT_CTRL 7) true ∧ z.flag (A.DTT_CTRL 7) F.DTT_CTRL.EN = false ∧ z.dttRequirements 7 = false) ∧
    (let s := tCan (tReq ++ [(A.DTT_CTRL 7, 0), (A.DTT_STATUS 7, (fput F.DTT_STATUS.PAT_OK 0 1).toNat)]) 0 5000 id
     s.reaches 1 (A.DTT_CTRL 7) true ∧ s.flag (A.DTT_CTRL 7) F.DTT_CTRL.EN = false ∧ s.dtt 7 = dOff ∧ (s.can 7).busOff = false) := by
  refine ⟨?_, ?_, ?_⟩ <;> decide
theorem wit_dtt_requirements :
    (tCan (tReq ++ [(A.DTT_CTRL 7, 0), (A.DTT_STATUS 7, (fput F.DTT_STATUS.PAT_OK 0 1).toNat)]) 0 5000 id).dttRequirements 7 = true := by decide
theorem wit_dtt_start_references :
    (let f := tCan [(A.DTT_CTRL 7, 0)] 2 5000 (fun x => { x with startSof := some 40 })
     let h := tCan [(A.CX_ERRC 7, (fput F.CX_ERRC.TEC 0 248).toNat)] 2 5000 (fun x => { x with startSof := some 40 })
     f.flag (A.DTT_CTRL 7) F.DTT_CTRL.EN = false ∧ f.dtt 7 = dCold ∧ (f.can 7).startSof = some 40 ∧
     255 < h.fld (A.CX_ERRC 7) F.CX_ERRC.TEC + 8 ∧ (h.can 7).startSof = some 40 ∧ tPat.rankOf 9 = none ∧ tPat.isStart 9 = true) := by decide

def tKa (sub : Nat) : List Byte := List.replicate 6 0xFF ++ [2, 3, 4, 5, 6, 7] ++ [0x88, 0xB5] ++ [BitVec.ofNat 8 sub, 1] ++ beBytes 2 0x33 ++ List.replicate 42 0
/-- Segment 7 with TL port 7 and channel 7 as members, in a state, with or without HOLD. -/
def tSeg (ws : List (Nat × Nat)) (st hold : Nat) (f : Seg → Seg) : State :=
  let ctl := fput F.WAKE_SEG_CTRL.EN (fput F.WAKE_SEG_CTRL.HOLD (fput F.WAKE_SEG_CTRL.KA_TX (fput F.WAKE_SEG_CTRL.SLEEP_T 0 200) 1) hold) 1
  let s := tRun ([(A.WAKE_SEG_CTRL 7, ctl.toNat), (A.WAKE_SEG_MEMB 7, 0x8080), (A.TL_CTRL 7, 1), (A.MAC_CTRL 19, 0x24000003), (A.MAC_STATUS 19, 1),
    (A.WAKE_SEG_BO_LO 7, 8000000), (A.WAKE_SEG_STATUS 7, (fput F.WAKE_SEG_STATUS.STATE 0 st).toNat),
    (A.WAKE_AON_STATUS, (fput F.WAKE_AON_STATUS.XTAL_ON 0 1).toNat), (A.CX_CTRL 7, (fput F.CX_CTRL.EN 0 1).toNat),
    (A.CX_STATUS 7, (fput F.CX_STATUS.SYNCED 0 1).toNat)] ++ ws)
  { s with raw := 9000000000, now := 5000000000, rawOn := true,
           wake := { s.wake with segs := [(7, f Seg.init)], pulses := [(7, 4999950000), (6, 4999950001)] } }
def tEpi : Episode := ⟨5, false, 3, 5, 9, 3, none⟩
theorem wit_WakeSegmentEffects :
    (let s := tSeg [] 0 0 id
     s.segOf 7 = some 7 ∧ (s.wakeMsg (tKa 1)).map (·.sub) = some 1 ∧ s.tlHears 7 = true ∧ s.segHold 7 = false ∧ 7000000 < s.segB 7 ∧ s.segState 7 = sgAwake ∧
     7000000 + s.sleepT 7 < 2 ^ 64 ∧ s.wakeMsg (tKa 3) = none ∧ s.segOn 7 = true ∧ s.rawOn = true ∧ s.segB 7 ≤ s.raw ∧ s.segOf (8 + 6) = none) ∧
    (let s := tSeg [(A.WAKE_SEG_CAN_KA_ID 7, (fput F.WAKE_SEG_CAN_KA_ID.EN (fput F.WAKE_SEG_CAN_KA_ID.ID 0 5) 1).toNat)] 0 0 id
     s.segOf (8 + 7) = some 7 ∧ s.running (cxHalf 7) = true ∧ s.cxOn 7 = true ∧ s.flag (A.WAKE_SEG_CAN_KA_ID 7) F.WAKE_SEG_CAN_KA_ID.EN = true ∧
     s.flag (A.WAKE_SEG_CAN_KA_ID 7) F.WAKE_SEG_CAN_KA_ID.IDE = false ∧ s.fld (A.WAKE_SEG_CAN_KA_ID 7) F.WAKE_SEG_CAN_KA_ID.ID = 5 ∧ s.segState 7 = sgAwake) ∧
    (let b := tSeg [] 1 0 id
     let a := tSeg [(A.WAKE_TLM_CTRL 7 0, (fput F.WAKE_TLM_CTRL.EN 0 1).toNat)] 2 0 id
     let w := tSeg [] 3 0 id
     b.segState 7 = sgBindOff ∧ b.segSending 7 = false ∧ a.segState 7 = sgAsleep ∧ w.segState 7 = sgWaking ∧ w.raw + w.sleepT 7 < 2 ^ 64 ∧
     a.segOf 7 = some 7 ∧ a.decoderArmed 7 7 = true ∧ a.wakeMsg (tKa 2) ≠ none ∧ (a.wakeMsg (tKa 2)).all (fun m => m.sub == 2 && a.entryHit 7 0 m) = true ∧
     (tSeg [] 2 0 id).decoderArmed 7 7 = true ∧
     ((tSeg [] 2 0 id).wakeMsg (tKa 2)).all (fun m => !((List.range 4).any fun e => (tSeg [] 2 0 id).entryHit 7 e m)) = true ∧
     a.segOf (8 + 7) = some 7 ∧ a.fld (A.WAKE_CX_CFG 7) F.WAKE_CX_CFG.INH = 0 ∧ a.fld (A.WAKE_CX_CFG 7) F.WAKE_CX_CFG.INH_POL = 0 ∧
     storeFind a.wake.pulses 7 = some 4999950000 ∧ 4999950000 + 100 * usTicks ≤ a.now ∧ storeFind a.wake.pulses 6 = some 4999950001 ∧
     a.now < 4999950001 + 100 * usTicks) ∧
    (let h := tSeg [(A.WAKE_SEG_MEMB 7, 0x80)] 0 1 id
     let c := tSeg [(A.WAKE_SEG_CTRL 0, (fput F.WAKE_SEG_CTRL.EN 0 1).toNat), (A.WAKE_SEG_MEMB 0, 0x80)] 0 0 id
     let o := tSeg [(A.WAKE_SEG_CTRL 7, 0)] 0 0 id
     h.segHold 7 = true ∧ h.segOf 7 = some 7 ∧ h.tlHears 7 = true ∧ h.flag (A.WAKE_SEG_CTRL 7) F.WAKE_SEG_CTRL.KA_TX = true ∧ h.segOn 7 = true ∧
     (h.seg 7).lastKa + h.fld A.WAKE_KA F.WAKE_KA.INTERVAL * msTicks ≤ h.now ∧ h.rdn (A.WAKE_SEG_MEMB 7) = 2 ^ 7 ∧ h.running (unitHalf 7 4) = true ∧
     h.flag (A.MAC_STATUS (tlPort 7)) F.MAC_STATUS.LINK = true ∧ (h.hrst (unitHalf 7 4)).isolated = false ∧
     ptpAt (padTo (max 60 (h.keepAlive 7).length) (h.keepAlive 7)) = none ∧ c.reaches 1 (A.WAKE_SEG_CTRL 7) true ∧ c.membClash 7 = true ∧
     o.reaches 1 (A.WAKE_SEG_CTRL 7) true ∧ o.segOn 7 = false ∧ o.membClash 7 = false ∧ o.reaches 1 (A.WAKE_SEG_MEMB 7) true ∧
     h.reaches 1 (A.WAKE_SEG_MEMB 7) true) ∧
    (let e := tSeg [(A.WAKE_INSOMNIA_T, 1)] 0 0 fun x => { x with episode := some tEpi, entries := 33 }
     let f := tSeg [] 0 0 fun x => { x with episode := some { tEpi with entry := some 33 } }
     (e.seg 7).episode = some tEpi ∧ tEpi.entry = none ∧ tEpi.start + e.fld A.WAKE_INSOMNIA_T F.WAKE_INSOMNIA_T.S * secTicks ≤ e.raw ∧
     (e.seg 7).entries = 33 ∧ (f.seg 7).episode = some { tEpi with entry := some 33 } ∧ f.rdn (A.WAKE_INS_LOG 7 (33 % 32) 5) < (f.raw - tEpi.start) / secTicks ∧ f.reaches 1 A.WAKE_INS_CLR true ∧ bitAt (128#32).toNat 7 = true ∧
     (tSeg [] 0 0 id |>.seg 7).episode = none) := by
  refine ⟨?_, ?_, ?_, ?_, ?_⟩ <;> decide
/-- A power state with the rails of the halves on or off, in charge states, and a wake event. -/
def tPow (ws : List (Nat × Nat)) (ps : Nat) (k p : Bool) (ck cp : ChgState) : State :=
  let s := tSeg ([(A.WAKE_PSTATE, (fput F.WAKE_PSTATE.STATE (fput F.WAKE_PSTATE.SOLO_HALF 0 (b2n (!k))) ps).toNat)] ++ ws) 2 0
    fun x => { x with check := some (4999999999, 2) }
  let h := fun (on : Bool) (r : HalfRst) => { r with powered := on, phase := if on then .running else .held }
  { s with rst := { s.rst with k := h k s.rst.k, p := h p s.rst.p }, chg := { s.chg with k := { s.chg.k with st := ck }, p := { s.chg.p with st := cp } },
           wake := { s.wake with pend := [⟨3, 5, 1⟩], valid := [(5, 4999999999)] } }
theorem wit_WakeDeviceEffects :
    (let r := tPow [] 0 true true .init .service
     let s := tPow [] 1 true false .init .lost
     r.reaches 1 A.WAKE_PCTRL true ∧ r.powerBusy = false ∧ r.pstate = psRun ∧ r.mayPowerOff .p = true ∧ r.mayPowerOff .k = false ∧ r.halfOff .k = false ∧
     fget F.WAKE_PCTRL.REQ (fput F.WAKE_PCTRL.REQ 0 psSolo) = psSolo ∧ s.reaches 1 A.WAKE_PCTRL true ∧ s.powerBusy = false ∧ s.pstate = psSolo ∧
     s.soloOffHalf = .p ∧ s.halfOff .k = false ∧ (tPow [(A.WAKE_PSTATE, (fput F.WAKE_PSTATE.BUSY 0 1).toNat)] 0 true true .init .init).powerBusy = true) ∧
    (let a := tPow [(A.WAKE_PCTRL, (fput F.WAKE_PCTRL.AUTO_STATE 0 psDoze).toNat)] 0 true true .init .service
     let d := tPow [(A.WAKE_SRC 5, (fput F.WAKE_SRC.EN (fput F.WAKE_SRC.THR 0 1) 1).toNat)] 2 false false .lost .lost
     let g := tPow [(A.WAKE_SRC 5, (fput F.WAKE_SRC.EN (fput F.WAKE_SRC.SEG 0 128) 1).toNat)] 2 false false .lost .lost
     let n := tPow [(A.WAKE_SRC 5, 0)] 0 true true .init .init
     (∀ q, q < 8 → a.segOn q = false ∨ a.segState q = sgAsleep ∧ a.segHold q = false) ∧ a.fld A.WAKE_PCTRL F.WAKE_PCTRL.AUTO_STATE = psDoze ∧
     a.pstate ≤ psSolo ∧ a.powerBusy = false ∧ n.fld A.WAKE_PCTRL F.WAKE_PCTRL.AUTO_STATE < psDoze ∧
     d.wake.pend = [⟨3, 5, 1⟩] ∧ d.namesOff 1 = true ∧ d.powerBusy = false ∧ d.pstate ≤ psDoze ∧ d.halfOff .k = true ∧ bitAt 1 Half.k.n = true ∧
     d.flag (A.WAKE_SRC 5) F.WAKE_SRC.EN = true ∧ d.fld (A.WAKE_SRC 5) F.WAKE_SRC.SEG = 0 ∧ g.flag (A.WAKE_SRC 5) F.WAKE_SRC.EN = true ∧
     bitAt (g.fld (A.WAKE_SRC 5) F.WAKE_SRC.SEG) 7 = true ∧ g.segOn 7 = true ∧ g.segState 7 = sgAsleep ∧ n.flag (A.WAKE_SRC 5) F.WAKE_SRC.EN = false ∧
     storeFind d.wake.valid 5 = some 4999999999 ∧ d.now = 5000000000 ∧ storeFind d.wake.valid 4 = none ∧ d.fld (A.WAKE_SRC 5) F.WAKE_SRC.THR = 1 ∧
     n.reaches 1 A.WAKE_FALSE_CLR true ∧ (a.seg 7).check = some (4999999999, 2) ∧ (a.seg 6).check = none) := by
  refine ⟨?_, ?_⟩ <;> decide
theorem wit_wake_members_and_sources :
    (let s := tSeg [(A.WAKE_INS_LOG 7 1 5, 17)] 1 0 fun x => { x with episode := some { tEpi with entry := some 33 } }
     let b : State := { s with cx := [(7, { Cx.init with startSof := some 5 })] }
     let d := tPow [(A.WAKE_SRC 12, (fput F.WAKE_SRC.EN 0 1).toNat), (A.MBX_BIND 63, (fput F.MBX_BIND.RECEIVER 0 16).toNat)] 3 false false .lost .lost
     (s.raw - tEpi.start) / secTicks ≤ s.rdn (A.WAKE_INS_LOG 7 (33 % 32) 5) ∧ b.segState 7 = sgBindOff ∧ b.segSending 7 = true ∧
     d.pstate = psSleep ∧ d.wake.pend = [⟨3, 5, 1⟩] ∧ d.namesOff 1 = true ∧ d.halfOff .k = true ∧ bitAt 1 Half.k.n = true ∧ d.powerBusy = false ∧
     d.flag (A.WAKE_SRC 12) F.WAKE_SRC.EN = true ∧ masterHalf (d.mbxReceiver 63) = some .k) := by decide

/-- A host side with its rings, ports and streams up. -/
def tHost (ws : List (Nat × Nat)) (active pba : Nat) (masked : Bool) : State :=
  let s := tRun ([(A.KCP_RING_CTRL 1, 1), (A.PCI_STATUS 1, (fput F.PCI_STATUS.BME 0 1).toNat), (A.QH_CFG 1, (fput F.QH_CFG.EN 0 1).toNat),
    (A.SYS_MODE, (fput F.SYS_MODE.M6412 0 1).toNat), (A.PCI_AP_BASE 1, 0x408)] ++ ws)
  { s with kcp := { s.kcp with
      tports := [(1, ⟨true, 0, 0⟩)], active := active, pba := pba, msix := [(32, ⟨77, 88, masked⟩)], lbWin := 0x1000
      streams := [(3, ⟨[], [1, 2, 3], [], true⟩), (4, ⟨[], [1], [], true⟩)] } }
theorem wit_HostPortEffects :
    (let s := tHost [] 0 0 false
     s.reaches 1 (A.KCP_DB 1) true ∧ s.flag (A.KCP_RING_CTRL 1) F.KCP_RING_CTRL.EN = true ∧ s.rdn (A.KCP_BUSY 1) = 0 ∧ s.rdn (A.KCP_DONE 1) = 0 ∧
     (tHost [(A.KCP_RING_CTRL 1, 0)] 0 0 false).flag (A.KCP_RING_CTRL 1) F.KCP_RING_CTRL.EN = false ∧
     (tHost [(A.KCP_RING_CTRL 1, 0)] 0 0 false).reaches 1 (A.KCP_DB 1) true ∧ (s.tport 1).up = true ∧ (s.tport 0).up = false ∧
     s.runWaits (0x40000 * s.fld (A.PCI_AP_BASE 1) F.PCI_AP_BASE.BASE + 4) 4 = false ∧
     (s.busAccess 0x41 (0x40000 * s.fld (A.PCI_AP_BASE 1) F.PCI_AP_BASE.BASE + 4) 4 false [] BusEnv.clean).resp = some (.ok 0) ∧
     ((tHost [(A.PCI_AP_BASE 1, 0)] 0 0 false).busAccess 0x41 4 4 true [1, 2, 3, 4] BusEnv.clean).resp = some (.err cPerm) ∧
     (tHost [(A.PCI_AP_BASE 1, 0)] 0 0 false).fld (A.PCI_AP_BASE 1) F.PCI_AP_BASE.BASE = 0 ∧
     (tHost [(A.PCI_AP_BASE 1, 0)] 0 0 false).runWaits 4 4 = false ∧
     s.vecActive 1 0 = false ∧ s.reaches 1 (A.HI_CLR 1) true ∧ s.running .p = true ∧ s.flag (A.QH_CFG 1) F.QH_CFG.EN = true ∧ s.kcp.ready = [] ∧
     (s.busAccess 0x43 0x10200004 4 false [] BusEnv.clean).resp = some (.ok 0) ∧ (s.busAccess 0x43 0x10200004 4 true [1, 2, 3, 4] BusEnv.clean).resp = some (.ok 0) ∧
     (s.busAccess 0x43 0xFF00000000 4 false [] BusEnv.clean).resp = some (.err cUnmapped) ∧ s.mode6412 = true ∧ s.running .k = true ∧
     (tRun []).mode6412 = false ∧ s.zeroingAt (0x10000 * s.kcp.lbWin + 1 * 4) = false ∧
     (s.busAccess 0x44 (0x10000 * s.kcp.lbWin + 1 * 4) 4 false [] BusEnv.clean).resp = some (.ok 0)) ∧
    (let s := tHost [(A.HI_EN 1, 0x20000), (A.HI_PEND 1, 0x20000), (A.HI_VEC 1 17, 0), (A.BANK_OWNER 0 0, 0x44)] 0 0 false
     let m := tHost [(A.HI_EN 1, 0x20000), (A.HI_PEND 1, 0x20000), (A.HI_VEC 1 17, 0)] 0 (2 ^ 32) true
     s.vecActive 1 0 = true ∧ bitAt s.kcp.active 32 = false ∧ s.pciMay 1 = true ∧ (storeGet MsixEntry.init s.kcp.msix 32).masked = false ∧
     m.vecActive 1 0 = true ∧ (storeGet MsixEntry.init m.kcp.msix 32).masked = true ∧ bitAt m.kcp.pba 32 = true ∧ m.pciMay 1 = true ∧
     (s.busAccess 0x44 0x10000004 4 true (leBytes 4 0x56780000) BusEnv.clean).resp = some (.ok 0)) := by
  refine ⟨?_, ?_⟩ <;> decide
def tPkt (op tag : Nat) (data : List Byte) : List Byte :=
  let b := [0x4B#8, 0x43#8, 0x01#8, 0x00#8] ++ leBytes 2 op ++ leBytes 2 tag ++ leBytes 4 data.length ++ leBytes 2 0 ++ leBytes 2 0 ++ data
  b ++ leBytes 4 (crc32c b)
/-- Ring slot 31 of Purl posted with a packet, and commands outstanding. -/
def tPost (bs : List Byte) (cs : List KCmd) (ready : List (Nat × Nat × List Byte)) : State :=
  let s := tRun [(A.KCP_BUSY 1, 0x80000000), (A.PCI_STATUS 1, (fput F.PCI_STATUS.BME 0 1).toNat), (A.KCP_UDP_CTRL 1, (fput F.KCP_UDP_CTRL.EN 0 1).toNat), (A.KCP_IP 1, 0x0A000001)]
  { s with now := 50000000000, kcp := { s.kcp with
      cmds := cs, ready := ready, streams := [(3, ⟨bs, [], [], false⟩)], tports := [(1, ⟨true, 0, 7⟩), (0, ⟨true, 0, 60000000000⟩), (3, ⟨true, 0, 0⟩)], desc := [(127, ⟨0x1000, bs.length, 64, 0x2000, 0⟩)]
      sess := [(sessKey 3 0, Session.opened 0 5), (sessKey 1 0, { Session.opened 0 5 with safety := true }), (sessKey 5 3, Session.opened 5 5)], waits := [(49999950000, .recast .k)] } }
def tCmdK (op deadline : Nat) (params : List Byte) (started : Bool) : KCmd := ⟨1, 0, 9, op, false, params, 5, deadline, 30, none, started, false, false⟩
def tArp : List Byte := List.replicate 12 1 ++ [8, 6, 0, 1, 8, 0, 6, 4, 0, 1] ++ List.replicate 16 9 ++ beBytes 4 0x0A000001
def tUdp (n : Nat) : List Byte :=
  List.replicate 12 1 ++ [8, 0, 0x45, 0, 0, 60, 0, 0, 0, 0, 64, 17, 0, 0] ++ beBytes 4 0x0A000002 ++ beBytes 4 0x0A000001 ++ beBytes 2 99 ++ beBytes 2 51724 ++
    beBytes 2 (8 + n) ++ List.replicate 80 0
def tSp10 (bs : List Byte) : PCopy := ⟨3, 10, 0, bs, 1, 77, 0, 0, 0, 0, 0, none, 0⟩
def tSp10s (bs : List Byte) : State := let s := tPost [] [] []; { s with planeP := { s.planeP with handed := [tSp10 bs] } }
theorem wit_KcpEngineEffects :
    (let good := tPkt 1 9 []
     let bad := tPkt 0x1111 9 []
     let s := tPost good [] []
     let f := tPost bad [] []
     s.trivetLost = false ∧ s.rst.stage = .done ∧ (s.tport 1).up = true ∧ s.flag (A.PCI_STATUS 1) F.PCI_STATUS.BME = true ∧ s.slotWaits 1 31 = true ∧
     good.length = (s.slotDesc 1 31).cmdLen ∧ s.arriveCheck ⟨1, 0, 31, none, good⟩ = none ∧ f.slotWaits 1 31 = true ∧
     bad.length = (f.slotDesc 1 31).cmdLen ∧ (s.tport 3).up = true ∧ (s.stream 3).part = [] ∧ (s.stream 3).cmd = good ∧
     good.take 2 = [0x4B#8, 0x43#8] ∧ good.length = 20 + u good 8 4 ∧ s.arriveCheck ⟨3, 0, 0, none, good⟩ = none ∧ f.arriveCheck ⟨1, 0, 31, none, bad⟩ = some stUnknown ∧ (s.tport 2).up = false) ∧
    (let c := tCmdK 1 50000000000 [] false
     let l := tCmdK 1 50000000001 [0] false
     let s := tPost [] [c, { tCmdK 1 49999999999 [] true with tag := 8 }] []
     let f := tPost [] [l] []
     s.kcmd 1 9 = some c ∧ c.mayStart s.kcp.cmds = true ∧ ((opRow c.op).any fun r => s.cmdCheck c r == none) = true ∧ s.now ≤ c.deadline ∧ (s.kcmd 1 8).any (fun d => decide (d.deadline < s.now) && !d.committed && !d.mute && d.tr == 1) = true ∧
     f.kcmd 1 9 = some l ∧ l.mayStart f.kcp.cmds = true ∧ ((opRow l.op).any fun r => f.cmdCheck l r == some stBadLength) = true ∧ f.now < l.deadline ∧
     s.kcmd 0 9 = none ∧ (s.session 1 0).any (fun x => x.safety && decide (x.last + 30000000000 < s.now)) = true ∧ (s.session 5 3).any (fun x => decide (x.last + 30000000000 < s.now)) = true ∧
     s.session 5 4 = none ∧ (s.tport 1).lockEnd ≠ 0 ∧ (s.tport 1).lockEnd ≤ s.now ∧ s.now < (s.tport 0).lockEnd) ∧
    (let s := tPost [] [] [(1, 31, [1, 2])]
     s.kcp.ready.find? (fun r => r.1 = 1 ∧ r.2.1 = 31) = some (1, 31, [1, 2]) ∧ s.trivetLost = false ∧ s.pciMay 1 = true ∧ 20 ≤ (s.slotDesc 1 31).rspMax ∧ s.pciMay 0 = false ∧
     s.kcp.waits = [(49999950000, .recast .k)] ∧ 49999950000 + 50000 ≤ s.now ∧ ({ s with now := 5 } : State).now < 49999950000 + 50000) ∧
    (let a := tSp10s tArp
     let g := tSp10s (tUdp 60)
     let h := tSp10s (tUdp 20)
     a.running .p = true ∧ a.planeP.handed.find? (fun q => q.outp == 10 && a.takesArp .p (a.redLeave .p q q.bytes)) = some (tSp10 tArp) ∧
     g.planeP.handed.find? (fun q => q.outp == 10 && g.takesUdp .p (g.redLeave .p q q.bytes)) = some (tSp10 (tUdp 60)) ∧
     ipFragment (g.redLeave .p (tSp10 (tUdp 60)) (tUdp 60)) = false ∧ (udpParts .p (tSp10 (tUdp 60)) (g.redLeave .p (tSp10 (tUdp 60)) (tUdp 60))).2.length = 60 ∧
     u (udpParts .p (tSp10 (tUdp 60)) (g.redLeave .p (tSp10 (tUdp 60)) (tUdp 60))).2 0 2 = 0 ∧
     h.planeP.handed.find? (fun q => q.outp == 10 && h.takesUdp .p (h.redLeave .p q q.bytes)) = some (tSp10 (tUdp 20)) ∧
     (udpParts .p (tSp10 (tUdp 20)) (h.redLeave .p (tSp10 (tUdp 20)) (tUdp 20))).2.length = 20) := by
  refine ⟨?_, ?_, ?_, ?_⟩ <;> decide

/-- A KCP command of Purl's PCIe endpoint, started, and a state in which it alone is outstanding. -/
def tKc (op : Nat) (ps : List Byte) : KCmd := ⟨1, 0, 9, op, false, ps, 5, 60000000000, 30, none, true, false, false⟩
def tKs (c : KCmd) (ws : List (Nat × Nat)) : State :=
  let s := tRun ws
  { s with now := 50000000000, kcp := { s.kcp with
      cmds := [c], tports := [(1, ⟨true, 0, 7⟩)], sess := [(sessKey 1 0, { Session.opened 0 49999999999 with proved := 4 })] } }
/-- The bytes of a Pattern of one Row and one Stitch that passes every check. -/
def tPatB : List Byte :=
  leBytes 2 1 ++ leBytes 2 1 ++ leBytes 4 0 ++ leBytes 4 3000000 ++ leBytes 4 1000000 ++ leBytes 4 0 ++ leBytes 4 500 ++ leBytes 2 250 ++ leBytes 2 250 ++
    leBytes 2 1 ++ leBytes 2 0 ++ leBytes 4 6000000 ++ leBytes 4 1000000 ++ leBytes 4 5 ++ [0, 0, 0, 128, 0, 0, 0, 128, 0, 0, 0, 128] ++ leBytes 4 9 ++
    [0, 0, 0, 128, 0, 0, 0, 128, 0, 0, 0, 128] ++ List.replicate 8 0 ++ [0, 0, 0, 128, 255, 0, 0, 1]
/-- Engine 13 bound to controller 7, with a Recipe whose Pattern section is the bytes given. -/
def tPatS (b : List Byte) (s : State) : State :=
  (s.putbs (neWin 13 + 0x100) b).mapEng 13 fun e => { e with recipe := some { tRcp with pat := 0x100, patLen := b.length } }
def tPatW : List (Nat × Nat) :=
  tBound ++ tReq ++ [(A.CX_NBT 7, (fput F.CX_NBT.BRP_M1 (fput F.CX_NBT.TSEG1_M1 (fput F.CX_NBT.TSEG2_M1 0 49) 48) 9).toNat),
    (A.DTT_ROLE 7, (fput F.DTT_ROLE.REF_RANK (fput F.DTT_ROLE.COLD_IDX 0 7) 7).toNat)]
/-- The command acts on its opcode. -/
abbrev tGo (s : State) (c : KCmd) (t op : Nat) : Prop :=
  s.kcmd t 9 = some c ∧ c.op = op ∧ c.started = true ∧ s.trivetLost = false ∧ c.committed = false ∧ s.now ≤ c.deadline
theorem wit_KcpGeneralEffects :
    (let c := tKc 0x0001 (List.replicate 140 1)
     let s := tKs c []
     let act := tGo s c 1
     act 0x0001) ∧
    (let c := tKc 0x0002 (List.replicate 140 1)
     let s := tKs c []
     let act := tGo s c 1
     act 0x0002) ∧
    (let c := tKc 0x0003 (leBytes 8 0 ++ leBytes 4 257)
     let s := tKs c []
     let act := tGo s c 1
     let n := u c.params 8 4
     act 0x0003 ∧ (n = 0 ∨ 256 < n)) ∧
    (let c := tKc 0x0003 (leBytes 8 0x10200000 ++ leBytes 4 2)
     let s := tKs c []
     let env : List (Nat × BusEnv) := []
     let act := tGo s c 1
     let a := u c.params 0 8
     let n := u c.params 8 4
     let rr := s.runRead trivet env 0 a (List.replicate n 4)
     act 0x0003 ∧ 1 ≤ n ∧ n ≤ 256 ∧ s.runWaits a (4 * n) = false ∧ rr.2.bad = none) ∧
    (let c := tKc 0x0003 (leBytes 8 0xFF00000000 ++ leBytes 4 1)
     let s := tKs c []
     let env : List (Nat × BusEnv) := []
     let k : Nat := 0
     let v : Nat := 0
     let act := tGo s c 1
     let a := u c.params 0 8
     let n := u c.params 8 4
     let rr := s.runRead trivet env 0 a (List.replicate n 4)
     act 0x0003 ∧ 1 ≤ n ∧ n ≤ 256 ∧ s.runWaits a (4 * n) = false ∧ rr.2.bad = some (k, .err v)) ∧
    (let c := tKc 0x0004 (leBytes 8 0x10200000 ++ leBytes 4 2 ++ List.replicate 8 1)
     let s := tKs c []
     let env : List (Nat × BusEnv) := []
     let act := tGo s c 1
     let a := u c.params 0 8
     let n := u c.params 8 4
     let rw := s.runWrite trivet env 0 a (List.replicate n 4) (c.params.drop 12)
     act 0x0004 ∧ 1 ≤ n ∧ n ≤ 256 ∧ s.lc ≠ 3 ∧ s.runWaits a (4 * n) = false ∧ rw.2.bad = none) ∧
    (let c := tKc 0x0004 (leBytes 8 0xFF00000000 ++ leBytes 4 1 ++ List.replicate 4 1)
     let s := tKs c []
     let env : List (Nat × BusEnv) := []
     let k : Nat := 0
     let v : Nat := 0
     let act := tGo s c 1
     let a := u c.params 0 8
     let n := u c.params 8 4
     let rw := s.runWrite trivet env 0 a (List.replicate n 4) (c.params.drop 12)
     act 0x0004 ∧ 1 ≤ n ∧ n ≤ 256 ∧ s.lc ≠ 3 ∧ s.runWaits a (4 * n) = false ∧ rw.2.bad = some (k, .err v)) ∧
    (let c := tKc 0x0004 (leBytes 8 0x10200000 ++ leBytes 4 1 ++ List.replicate 4 1)
     let s := tKs c []
     let env : List (Nat × BusEnv) := [(0, { BusEnv.clean with lost := true })]
     let k : Nat := 0
     let act := tGo s c 1
     let a := u c.params 0 8
     let n := u c.params 8 4
     let rw := s.runWrite trivet env 0 a (List.replicate n 4) (c.params.drop 12)
     act 0x0004 ∧ 1 ≤ n ∧ n ≤ 256 ∧ s.lc ≠ 3 ∧ s.runWaits a (4 * n) = false ∧ rw.2.bad = some (k, .writeLost)) ∧
    (let c := tKc 0x0005 (leBytes 8 0x10200001 ++ leBytes 4 9)
     let s := tKs c []
     let env : List (Nat × BusEnv) := []
     let act := tGo s c 1
     let a := u c.params 0 8
     let n := u c.params 8 4
     let cs := chunksOf a n
     let mr := s.runRead trivet env 0 a cs
     act 0x0005 ∧ 1 ≤ n ∧ n ≤ 65536 ∧ s.runWaits a (cs.foldl Nat.add 0) = false ∧ mr.2.bad = none) ∧
    (let c := tKc 0x0005 (leBytes 8 0xFF00000000 ++ leBytes 4 1)
     let s := tKs c []
     let env : List (Nat × BusEnv) := []
     let k : Nat := 0
     let v : Nat := 0
     let act := tGo s c 1
     let a := u c.params 0 8
     let n := u c.params 8 4
     let cs := chunksOf a n
     let mr := s.runRead trivet env 0 a cs
     act 0x0005 ∧ 1 ≤ n ∧ n ≤ 65536 ∧ s.runWaits a (cs.foldl Nat.add 0) = false ∧ mr.2.bad = some (k, .err v)) ∧
    (let c := tKc 0x0006 (leBytes 8 0x10200001 ++ leBytes 4 9 ++ List.replicate 9 1)
     let s := tKs c []
     let env : List (Nat × BusEnv) := []
     let act := tGo s c 1
     let a := u c.params 0 8
     let n := u c.params 8 4
     let cs := chunksOf a n
     let mw := s.runWrite trivet env 0 a cs (c.params.drop 12)
     act 0x0006 ∧ 1 ≤ n ∧ n ≤ 65536 ∧ s.runWaits a (cs.foldl Nat.add 0) = false ∧ mw.2.bad = none) ∧
    (let c := tKc 0x0006 (leBytes 8 0xFF00000000 ++ leBytes 4 1 ++ [1])
     let s := tKs c []
     let env : List (Nat × BusEnv) := []
     let k : Nat := 0
     let v : Nat := 0
     let act := tGo s c 1
     let a := u c.params 0 8
     let n := u c.params 8 4
     let cs := chunksOf a n
     let mw := s.runWrite trivet env 0 a cs (c.params.drop 12)
     act 0x0006 ∧ 1 ≤ n ∧ n ≤ 65536 ∧ s.runWaits a (cs.foldl Nat.add 0) = false ∧ mw.2.bad = some (k, .err v)) ∧
    (let c := tKc 0x0006 (leBytes 8 0 ++ leBytes 4 65537)
     let s := tKs c []
     let act := tGo s c 1
     let n := u c.params 8 4
     act 0x0006 ∧ (n = 0 ∨ 65536 < n)) ∧
    (let c := tKc 0x0007 ([4, 7, 15])
     let s := tKs c []
     let act := tGo s c 1
     let b := fun (k : Nat) => byteAt c.params k
     let unit := (b 0 = 3 ∧ 1 ≤ b 1 ∧ b 1 ≤ 5 ∧ b 2 < 2) ∨ (b 0 = 4 ∧ b 1 = 6 ∧ b 2 < 24) ∨ (b 0 = 4 ∧ b 1 = 7 ∧ b 2 < 16)
     let half := b 0 = 2 ∧ b 1 = 0 ∧ b 2 < 2
     act 0x0007 ∧ (unit ∨ (half ∧ c.carrier ≠ some (halfOf (b 2))))) ∧
    (let c := tKc 0x0007 ([2, 0, 1])
     let s := tKs c []
     let act := tGo s c 1
     let b := fun (k : Nat) => byteAt c.params k
     let half := b 0 = 2 ∧ b 1 = 0 ∧ b 2 < 2
     let chip := b 0 = 1 ∧ b 1 = 0xFF ∧ b 2 = 0xFF
     act 0x0007 ∧ (chip ∨ (half ∧ c.carrier = some (halfOf (b 2))))) ∧
    (let c := tKc 0x0007 ([5, 0, 0])
     let s := tKs c []
     let act := tGo s c 1
     let b := fun (k : Nat) => byteAt c.params k
     act 0x0007 ∧ (b 0 = 0 ∨ 4 < b 0)) ∧
    (let c := { tKc 8 [] with tr := 5 }
     let s := (fun s => { s with kcp := { s.kcp with sess := [(sessKey 5 1, Session.opened 5 5)] } }) (tKs c [])
     let k : Nat := 2
     let tag : BitVec 16 := 9
     s.kcmd 5 tag.toNat = some c ∧ c.op = 0x0008 ∧ c.started = true ∧ s.trivetLost = false ∧ c.committed = false ∧ s.now ≤ c.deadline ∧ c.sess = 0 ∧ 1
       ≤ k ∧ k ≤ 8 ∧ s.session 5 k = none ∧ ((List.range k).all fun j => j == 0 || (s.session 5 j).isSome) = true) ∧
    (let c := { tKc 8 [] with tr := 5 }
     let s := (fun s => { s with kcp := { s.kcp with sess := (List.range 8).map fun k => (sessKey 5 (k + 1), Session.opened 5 5) } }) (tKs c [])
     let tag : BitVec 16 := 9
     s.kcmd 5 tag.toNat = some c ∧ c.op = 0x0008 ∧ c.started = true ∧ s.trivetLost = false ∧ c.committed = false ∧ s.now ≤ c.deadline ∧ (c.sess ≠ 0 ∨
       ((List.range 9).all fun j => j == 0 || (s.session 5 j).isSome) = true)) ∧
    (let c := tKc 0x0009 ([])
     let s := (fun s => s.putTport 1 ⟨true, 0, 50000000001⟩) (tKs c [])
     let t : Fin 6 := 1
     let act := tGo s c 1
     let tp := s.tport t
     act 0x0009 ∧ s.now < tp.lockEnd) ∧
    (let c := tKc 0x0009 ([])
     let s := tKs c []
     let x : Session := { Session.opened 0 49999999999 with proved := 4 }
     let t : Fin 6 := 1
     let act := tGo s c 1
     let tp := s.tport t
     act 0x0009 ∧ tp.lockEnd ≤ s.now ∧ s.session t c.sess = some x) ∧
    (let c := tKc 0x000A ([4])
     let s := tKs c []
     let x : Session := { Session.opened 0 49999999999 with proved := 4 }
     let k : Nat := 0
     let v : Nat := 0
     let t : Fin 6 := 1
     let act := tGo s c 1
     let b := fun (k : Nat) => byteAt c.params k
     let proof := s.slotSafety (b 0) = true ∧ s.now ≤ v + 5000000000 ∧ s.cmac (b 0) (leBytes 16 k ++ leBytes 1 t ++ leBytes 2 c.sess) = c.params.drop
       1
     act 0x000A ∧ s.session t c.sess = some x ∧ (x.nonce = none ∨ (x.nonce = some (k, v) ∧ ¬ proof))) ∧
    (let c := tKc 11 []
     let s := tKs c []
     let x : Session := { Session.opened 0 49999999999 with proved := 4 }
     let t : Fin 6 := 1
     let act := tGo s c 1
     s.session t c.sess = some x ∧ t.val ≤ 4 ∧ act 0x000B) ∧
    (let c := tKc 12 []
     let s := tKs c []
     let x : Session := { Session.opened 0 49999999999 with proved := 4 }
     let t : Fin 6 := 1
     let act := tGo s c 1
     s.session t c.sess = some x ∧ t.val ≤ 4 ∧ act 0x000C) ∧
    (let c := { tKc 11 [] with tr := 5 }
     let s := tKs c []
     let t : Fin 6 := 5
     let act := tGo s c 5
     act 0x000B ∧ t.val = 5) ∧
    (let c := tKc 0x000D (leBytes 4 300 ++ leBytes 2 256)
     let s := tKs c ([(A.SYS_FLT_WSEQ, 300)])
     let act := tGo s c 1
     let first := u c.params 0 4
     let cnt := u c.params 4 2
     let w := s.rdn A.SYS_FLT_WSEQ
     act 0x000D ∧ 1 ≤ cnt ∧ cnt ≤ 256 ∧ w ≤ first) ∧
    (let c := tKc 0x000D (leBytes 4 299 ++ leBytes 2 1)
     let s := tKs c ([(A.SYS_FLT_WSEQ, 300)])
     let act := tGo s c 1
     let first := u c.params 0 4
     let cnt := u c.params 4 2
     let w := s.rdn A.SYS_FLT_WSEQ
     act 0x000D ∧ 1 ≤ cnt ∧ cnt ≤ 256 ∧ first < w) ∧
    (let c := tKc 0x000E ([])
     let s := tKs c []
     let act := tGo s c 1
     act 0x000E ∧ s.fltActive = 0) ∧
    (let c := tKc 0x000E ([])
     let s := (fun s => { s with chg := { s.chg with k := { s.chg.k with st := .lost } } }) (tKs c [])
     let act := tGo s c 1
     act 0x000E ∧ s.fltActive ≠ 0) ∧
    (let c := tKc 1 ([])
     let s := tKs c []
     let tag : BitVec 16 := 8
     let t : Fin 6 := 1
     (s.kcmd t tag.toNat = none ∨ s.trivetLost = true)) := by
  and_intros <;> decide
theorem wit_KcpPortTimeEffects :
    (let c := tKc 0x0201 (1 :: 8 :: List.replicate 14 1)
     let s := tKs c []
     let act := tGo s c 1
     let b := fun (k : Nat) => byteAt c.params k
     let p := fun (off n : Nat) => u c.params off n
     let W := fun (ws : List (Nat × Nat)) => s.trvWrites 0 ws
     let n := 12 * b 0 + b 1
     let w := W [(A.MAC_CTRL n, p 2 4), (A.MAC_SA_LO n, p 6 4), (A.MAC_SA_HI n, p 10 2), (A.MAC_PAUSE n, p 12 4)]
     act 0x0201 ∧ b 0 < 2 ∧ b 1 < 9 ∧ w.2 = none) ∧
    (let c := tKc 0x0201 ([2])
     let s := tKs c []
     let act := tGo s c 1
     let b := fun (k : Nat) => byteAt c.params k
     act 0x0201 ∧ 2 ≤ b 0) ∧
    (let c := tKc 0x0201 ([1, 9])
     let s := tKs c []
     let act := tGo s c 1
     let b := fun (k : Nat) => byteAt c.params k
     act 0x0201 ∧ b 0 < 2 ∧ 9 ≤ b 1) ∧
    (let c := tKc 0x0202 (List.replicate 140 1)
     let s := tKs c []
     let act := tGo s c 1
     let b := fun (k : Nat) => byteAt c.params k
     let p := fun (off n : Nat) => u c.params off n
     let W := fun (ws : List (Nat × Nat)) => s.trvWrites 0 ws
     let n := 12 * b 0 + b 1
     let lo := if b 2 = 0 then A.MAC_UC_LO n (b 3) else A.MAC_MC_LO n (b 3)
     let hi := if b 2 = 0 then A.MAC_UC_HI n (b 3) else A.MAC_MC_HI n (b 3)
     let w := W [(hi, p 8 2), (lo, p 4 4), (hi, b 10 * 2 ^ 31 + p 8 2)]
     act 0x0202 ∧ b 0 < 2 ∧ b 1 < 9 ∧ b 2 < 2 ∧ b 3 < 8 ∧ b 10 < 2 ∧ w.2 = none) ∧
    (let c := tKc 0x0203 ([1, 11])
     let s := tKs c []
     let act := tGo s c 1
     let b := fun (k : Nat) => byteAt c.params k
     let R := fun (as : List Nat) => s.trvReads 0 as
     let n := 12 * b 0 + b 1
     let r := R ((List.range 24).map (A.MAC_CNT n) ++ [A.MAC_CNT_WRAP n, A.MAC_PER_STATUS n] ++ (List.range 8).map (A.MAC_PER_SHADOW n))
     act 0x0203 ∧ b 0 < 2 ∧ b 1 < 12 ∧ r.2.bad = none) ∧
    (let c := tKc 0x0204 ([1, 11, 1, 15])
     let s := tKs c []
     let act := tGo s c 1
     let b := fun (k : Nat) => byteAt c.params k
     let W := fun (ws : List (Nat × Nat)) => s.trvWrites 0 ws
     let n := 12 * b 0 + b 1
     let w := W [(A.MAC_PER_CTRL n, b 2 * 2 ^ 31 + b 3 * 2 ^ 16)]
     act 0x0204 ∧ b 0 < 2 ∧ b 1 < 12 ∧ b 2 < 2 ∧ b 3 < 16 ∧ w.2 = none) ∧
    (let c := tKc 0x0205 (List.replicate 140 1)
     let s := tKs c []
     let act := tGo s c 1
     let b := fun (k : Nat) => byteAt c.params k
     let p := fun (off n : Nat) => u c.params off n
     let W := fun (ws : List (Nat × Nat)) => s.trvWrites 0 ws
     let w := W [(A.TL_CTRL (4 * b 0 + b 1), p 2 4)]
     act 0x0205 ∧ b 0 < 2 ∧ b 1 < 4 ∧ w.2 = none) ∧
    (let c := tKc 0x0206 (List.replicate 140 1)
     let s := tKs c []
     let act := tGo s c 1
     let b := fun (k : Nat) => byteAt c.params k
     let p := fun (off n : Nat) => u c.params off n
     let W := fun (ws : List (Nat × Nat)) => s.trvWrites 0 ws
     let w := W [(A.SD_CTRL (4 * b 0 + b 1), p 2 4), (A.SD_TXEQ (4 * b 0 + b 1), p 6 4)]
     act 0x0206 ∧ b 0 < 2 ∧ b 1 < 4 ∧ w.2 = none) ∧
    (let c := tKc 0x0207 (List.replicate 140 1)
     let s := tKs c []
     let act := tGo s c 1
     let b := fun (k : Nat) => byteAt c.params k
     let p := fun (off n : Nat) => u c.params off n
     let W := fun (ws : List (Nat × Nat)) => s.trvWrites 0 ws
     let w := W [(A.RG_CTRL (b 0), p 1 4)]
     act 0x0207 ∧ b 0 < 2 ∧ w.2 = none) ∧
    (let c := tKc 0x0208 (List.replicate 140 1)
     let s := tKs c []
     let act := tGo s c 1
     let b := fun (k : Nat) => byteAt c.params k
     let p := fun (off n : Nat) => u c.params off n
     let im := fun (off : Nat) (as : List Nat) => imageWrites c.params off as
     let W := fun (ws : List (Nat × Nat)) => s.trvWrites 0 ws
     let d := b 0
     let w := W (im 5 [A.CX_NBT d, A.CX_DBT d, A.CX_XBT d, A.CX_TDC d, A.CX_PWM d] ++ [(A.CX_CTRL d, p 1 4)])
     act 0x0208 ∧ d < 8 ∧ w.2 = none) ∧
    (let c := tKc 0x0209 ([7, 127, 1] ++ List.replicate 8 1)
     let s := tKs c []
     let act := tGo s c 1
     let b := fun (k : Nat) => byteAt c.params k
     let im := fun (off : Nat) (as : List Nat) => imageWrites c.params off as
     let W := fun (ws : List (Nat × Nat)) => s.trvWrites 0 ws
     let d := b 0
     let w := W (im 3 ((List.range (b 2)).flatMap fun k => [A.CX_FILT_ID d (b 1 + k), A.CX_FILT_MASK d (b 1 + k)]))
     act 0x0209 ∧ d < 8 ∧ b 1 < 128 ∧ b 1 + b 2 ≤ 128 ∧ w.2 = none) ∧
    (let c := tKc 0x0301 (1 :: [1, 2, 3, 4, 5, 6, 5, 0, 7, 8, 9, 10, 255, 15, 0, 0])
     let s := tKs c ([(A.SW_FWD 1 (4 * (entryBucket [1, 2, 3, 4, 5, 6, 5, 0, 7, 8, 9, 10, 255, 15, 0, 0]) + 3) 0, 0x04030201), (A.SW_FWD 1 (4 * (entryBucket [1, 2, 3, 4, 5, 6, 5, 0, 7, 8, 9, 10, 255, 15, 0, 0]) + 3) 1, 0x00050605), (A.SW_FWD 1 (4 * (entryBucket [1, 2, 3, 4, 5, 6, 5, 0, 7, 8, 9, 10, 255, 15, 0, 0]) + 3) 3, 0x80000001)])
     let h : Half := .p
     let act := tGo s c 1
     let b := fun (k : Nat) => byteAt c.params k
     let e := slice c.params 1 16
     let ways := bucketWays (entryBucket e)
     act 0x0301 ∧ b 0 = h.n ∧ entryVidOk e = true ∧ ways.any (s.fwdClash h e) = true) ∧
    (let c := tKc 0x0301 (1 :: [1, 2, 3, 4, 5, 6, 5, 0, 7, 8, 9, 10, 255, 15, 0, 0])
     let s := tKs c ((List.range 4).map fun w => (A.SW_FWD 1 (4 * (entryBucket [1, 2, 3, 4, 5, 6, 5, 0, 7, 8, 9, 10, 255, 15, 0, 0]) + w) 3, 0x80000001))
     let h : Half := .p
     let act := tGo s c 1
     let b := fun (k : Nat) => byteAt c.params k
     let e := slice c.params 1 16
     let ways := bucketWays (entryBucket e)
     act 0x0301 ∧ b 0 = h.n ∧ entryVidOk e = true ∧ ways.any (s.fwdClash h e) = false ∧ ways.all (s.fwdValid h) = true) ∧
    (let c := tKc 0x0301 (1 :: [1, 2, 3, 4, 5, 6, 5, 0, 7, 8, 9, 10, 255, 15, 0, 0])
     let s := tKs c ([(A.SW_FWD 1 (4 * (entryBucket [1, 2, 3, 4, 5, 6, 5, 0, 7, 8, 9, 10, 255, 15, 0, 0])) 3, 0x80000001)])
     let h : Half := .p
     let i : Nat := 4 * (entryBucket [1, 2, 3, 4, 5, 6, 5, 0, 7, 8, 9, 10, 255, 15, 0, 0]) + 1
     let act := tGo s c 1
     let b := fun (k : Nat) => byteAt c.params k
     let W := fun (ws : List (Nat × Nat)) => s.trvWrites 0 ws
     let e := slice c.params 1 16
     let ways := bucketWays (entryBucket e)
     let w := W (entryWrites h.n i e)
     act 0x0301 ∧ b 0 = h.n ∧ entryVidOk e = true ∧ ways.any (s.fwdClash h e) = false ∧ ways.find? (fun k => !s.fwdValid h k) = some i ∧ w.2 = none) ∧
    (let c := tKc 0x0302 (1 :: (leBytes 2 (4 * (entryBucket [1, 2, 3, 4, 5, 6, 5, 0, 7, 8, 9, 10, 255, 15, 0, 0])) ++ [1, 2, 3, 4, 5, 6, 5, 0, 7, 8,
       9, 10, 255, 15, 0, 0]))
     let s := tKs c []
     let h : Half := .p
     let act := tGo s c 1
     let b := fun (k : Nat) => byteAt c.params k
     let p := fun (off n : Nat) => u c.params off n
     let e3 := slice c.params 3 16
     let ix := p 1 2
     act 0x0302 ∧ b 0 = h.n ∧ ix < 4096 ∧ entryVidOk e3 = true ∧ entryBucket e3 = ix / 4 ∧ s.fwdValid h ix = false) ∧
    (let c := tKc 0x0302 (1 :: (leBytes 2 (4 * (entryBucket [1, 2, 3, 4, 5, 6, 5, 0, 7, 8, 9, 10, 255, 15, 0, 0])) ++ [1, 2, 3, 4, 5, 6, 5, 0, 7, 8,
       9, 10, 255, 15, 0, 0]))
     let s := tKs c ([(A.SW_FWD 1 (4 * (entryBucket [1, 2, 3, 4, 5, 6, 5, 0, 7, 8, 9, 10, 255, 15, 0, 0])) 3, 0x80000001)])
     let h : Half := .p
     let act := tGo s c 1
     let b := fun (k : Nat) => byteAt c.params k
     let p := fun (off n : Nat) => u c.params off n
     let W := fun (ws : List (Nat × Nat)) => s.trvWrites 0 ws
     let e3 := slice c.params 3 16
     let ix := p 1 2
     let w := W (entryWrites h.n ix e3)
     act 0x0302 ∧ b 0 = h.n ∧ ix < 4096 ∧ entryVidOk e3 = true ∧ entryBucket e3 = ix / 4 ∧ s.fwdValid h ix = true ∧ ((bucketWays (ix / 4)).any fun j
       => j != ix && s.fwdClash h e3 j) = false ∧ w.2 = none) ∧
    (let c := tKc 0x0303 ([1, 255, 15])
     let s := tKs c []
     let h : Half := .p
     let act := tGo s c 1
     let b := fun (k : Nat) => byteAt c.params k
     let p := fun (off n : Nat) => u c.params off n
     let ix := p 1 2
     act 0x0303 ∧ b 0 = h.n ∧ ix < 4096 ∧ s.fwdValid h ix = false) ∧
    (let c := tKc 0x0303 ([1, 255, 15])
     let s := tKs c ([(A.SW_FWD 1 4095 3, 0x80000001)])
     let h : Half := .p
     let act := tGo s c 1
     let b := fun (k : Nat) => byteAt c.params k
     let p := fun (off n : Nat) => u c.params off n
     let W := fun (ws : List (Nat × Nat)) => s.trvWrites 0 ws
     let ix := p 1 2
     let w := W [(A.SW_FWD h.n ix 3, s.fwdWord h ix 3 % 2 ^ 31)]
     act 0x0303 ∧ b 0 = h.n ∧ ix < 4096 ∧ s.fwdValid h ix = true ∧ w.2 = none) ∧
    (let c := tKc 0x0304 ([1, 255, 15, 1, 0])
     let s := tKs c []
     let act := tGo s c 1
     let b := fun (k : Nat) => byteAt c.params k
     let p := fun (off n : Nat) => u c.params off n
     let R := fun (as : List Nat) => s.trvReads 0 as
     let ix := p 1 2
     let r := R ((List.range (p 3 2)).flatMap fun k => (List.range 4).map fun j => A.SW_FWD (b 0) (ix + k) j)
     act 0x0304 ∧ b 0 < 2 ∧ ix < 4096 ∧ 1 ≤ p 3 2 ∧ ix + p 3 2 ≤ 4096 ∧ r.2.bad = none) ∧
    (let c := tKc 0x0305 ([1, 0, 95, 0] ++ List.replicate 20 1)
     let s := tKs c []
     let act := tGo s c 1
     let b := fun (k : Nat) => byteAt c.params k
     let p := fun (off n : Nat) => u c.params off n
     let im := fun (off : Nat) (as : List Nat) => imageWrites c.params off as
     let W := fun (ws : List (Nat × Nat)) => s.trvWrites 0 ws
     let j := p 2 2
     let lim := W (im 4 [A.SWQ_LIM (b 0) j, A.SWQ_SIEVE (b 0) j])
     act 0x0305 ∧ b 0 < 2 ∧ b 1 = 0 ∧ j < 96 ∧ lim.2 = none) ∧
    (let c := tKc 0x0305 ([1, 1, 63, 0] ++ List.replicate 20 1)
     let s := tKs c []
     let act := tGo s c 1
     let b := fun (k : Nat) => byteAt c.params k
     let p := fun (off n : Nat) => u c.params off n
     let im := fun (off : Nat) (as : List Nat) => imageWrites c.params off as
     let W := fun (ws : List (Nat × Nat)) => s.trvWrites 0 ws
     let j := p 2 2
     let pt := W (im 4 [A.SW_SIEVE_PT (b 0) (j / 16) (j % 16)])
     act 0x0305 ∧ b 0 < 2 ∧ b 1 = 1 ∧ j < 64 ∧ pt.2 = none) ∧
    (let c := tKc 0x0305 ([1, 2, 63, 0] ++ List.replicate 20 1)
     let s := tKs c []
     let act := tGo s c 1
     let b := fun (k : Nat) => byteAt c.params k
     let p := fun (off n : Nat) => u c.params off n
     let im := fun (off : Nat) (as : List Nat) => imageWrites c.params off as
     let W := fun (ws : List (Nat × Nat)) => s.trvWrites 0 ws
     let j := p 2 2
     let mtr := W (im 4 [A.MTR_CIR (b 0) j, A.MTR_PIR (b 0) j, A.MTR_CBS (b 0) j, A.MTR_PBS (b 0) j, A.MTR_CTRL (b 0) j])
     act 0x0305 ∧ b 0 < 2 ∧ b 1 = 2 ∧ j < 64 ∧ mtr.2 = none) ∧
    (let c := tKc 0x0305 ([1, 3, 11, 0] ++ List.replicate 20 1)
     let s := tKs c []
     let act := tGo s c 1
     let b := fun (k : Nat) => byteAt c.params k
     let p := fun (off n : Nat) => u c.params off n
     let im := fun (off : Nat) (as : List Nat) => imageWrites c.params off as
     let W := fun (ws : List (Nat × Nat)) => s.trvWrites 0 ws
     let j := p 2 2
     let swp := W (im 4 [A.SWP_CFG (b 0) j, A.SWP_PCP_MAP (b 0) j, A.SWP_MISS_MASK (b 0) j, A.SWP_XOFF (b 0) j])
     act 0x0305 ∧ b 0 < 2 ∧ b 1 = 3 ∧ j < 12 ∧ swp.2 = none) ∧
    (let c := tKc 0x0305 ([1, 4, 0, 0] ++ List.replicate 20 1)
     let s := tKs c []
     let act := tGo s c 1
     let b := fun (k : Nat) => byteAt c.params k
     act 0x0305 ∧ b 0 < 2 ∧ 4 ≤ b 1) ∧
    (let c := tKc 0x0305 ([1, 0, 96, 0] ++ List.replicate 20 1)
     let s := tKs c []
     let act := tGo s c 1
     let b := fun (k : Nat) => byteAt c.params k
     let p := fun (off n : Nat) => u c.params off n
     let j := p 2 2
     act 0x0305 ∧ b 0 < 2 ∧ b 1 = 0 ∧ 96 ≤ j) ∧
    (let c := tKc 0x0306 ([1, 8, 3, 1, 0] ++ List.replicate 12 0 ++ leBytes 4 999 ++ List.replicate 8 1)
     let s := tKs c []
     let act := tGo s c 1
     let b := fun (k : Nat) => byteAt c.params k
     let p := fun (off n : Nat) => u c.params off n
     let W := fun (ws : List (Nat × Nat)) => s.trvWrites 0 ws
     let ga := A.SWG_CTRL (b 0) (b 1)
     let gv := fput F.SWG_CTRL.DOMAIN (fput F.SWG_CTRL.ADMIN_LEN (fput F.SWG_CTRL.CHANGE (s.rd ga) 1) (p 3 2)) (b 2)
     let gw := W (gateWrites c.params (b 0) (b 1) (1 - s.fld ga F.SWG_CTRL.OPER) (p 3 2) gv)
     act 0x0306 ∧ b 0 < 2 ∧ b 1 < 9 ∧ b 2 < 4 ∧ p 3 2 ≤ 256 ∧ gw.2 = none ∧ (p 3 2 = 0 ∨ p 17 4 < 1000 ∨ 999999999 < p 17 4)) ∧
    (let c := tKc 0x0306 ([1, 8, 3, 1, 0] ++ List.replicate 12 0 ++ leBytes 4 999999999 ++ List.replicate 8 1)
     let s := tKs c []
     let act := tGo s c 1
     let b := fun (k : Nat) => byteAt c.params k
     let p := fun (off n : Nat) => u c.params off n
     let W := fun (ws : List (Nat × Nat)) => s.trvWrites 0 ws
     let ga := A.SWG_CTRL (b 0) (b 1)
     let gv := fput F.SWG_CTRL.DOMAIN (fput F.SWG_CTRL.ADMIN_LEN (fput F.SWG_CTRL.CHANGE (s.rd ga) 1) (p 3 2)) (b 2)
     let gw := W (gateWrites c.params (b 0) (b 1) (1 - s.fld ga F.SWG_CTRL.OPER) (p 3 2) gv)
     act 0x0306 ∧ b 0 < 2 ∧ b 1 < 9 ∧ b 2 < 4 ∧ p 3 2 ≤ 256 ∧ gw.2 = none ∧ 1 ≤ p 3 2 ∧ 1000 ≤ p 17 4 ∧ p 17 4 ≤ 999999999) ∧
    (let c := tKc 0x0307 (1 :: List.replicate 29 3)
     let s := tKs c []
     let act := tGo s c 1
     let b := fun (k : Nat) => byteAt c.params k
     let p := fun (off n : Nat) => u c.params off n
     let im := fun (off : Nat) (as : List Nat) => imageWrites c.params off as
     let W := fun (ws : List (Nat × Nat)) => s.trvWrites 0 ws
     let red := (List.range 9).map fun k => (A.SWP_CFG (b 0) k, (fput F.SWP_CFG.RED (s.rd (A.SWP_CFG (b 0) k)) (b (1 + k))).toNat)
     let own : Nat → List (Nat × Nat) := fun k => [(A.SW_RED_SA_LO (b 0) k, p (18 + 6 * k) 6 % 2 ^ 32), (A.SW_RED_SA_HI (b 0) k, (if p (18 + 6 * k) 6
       = 0 then 0 else 2 ^ 31) + p (18 + 6 * k) 6 / 2 ^ 32)]
     let w := W (red ++ im 10 [A.SW_TWIN (b 0), A.SW_DUP_AGE (b 0)] ++ (own 0 ++ own 1))
     act 0x0307 ∧ b 0 < 2 ∧ ((List.range 9).all fun k => decide (b (1 + k) < 4)) = true ∧ w.2 = none) ∧
    (let c := tKc 0x0401 ([1, 1])
     let s := tKs c []
     let act := tGo s c 1
     let b := fun (k : Nat) => byteAt c.params k
     let W := fun (ws : List (Nat × Nat)) => s.trvWrites 0 ws
     let w := W [(A.GAUGE_REF, b 1 * 2 ^ 4 + b 0)]
     act 0x0401 ∧ b 0 < 2 ∧ b 1 < 2 ∧ w.2 = none) ∧
    (let c := tKc 0x0402 ([3, 1, 2, 3, 0])
     let s := tKs c []
     let act := tGo s c 1
     let b := fun (k : Nat) => byteAt c.params k
     let p := fun (off n : Nat) => u c.params off n
     let W := fun (ws : List (Nat × Nat)) => s.trvWrites 0 ws
     let d := b 0
     let w := W [(A.GAUGE_DOM_CFG d, p 3 2 * 2 ^ 16 + b 2 * 2 ^ 8 + b 1)]
     act 0x0402 ∧ d < 4 ∧ w.2 = none) ∧
    (let c := tKc 0x0403 (3 :: 2 :: 3 :: 1 :: List.replicate 27 1)
     let s := (fun s => { s with gauge := { s.gauge with doms := [(3, { s.dom 3 with pend := some 5 })] } }) (tKs c [])
     let act := tGo s c 1
     let b := fun (k : Nat) => byteAt c.params k
     let d := b 0
     act 0x0403 ∧ d < 4 ∧ b 1 < 3 ∧ b 2 < 4 ∧ b 3 < 2 ∧ (s.dom d).pend ≠ none) ∧
    (let c := tKc 0x0403 (3 :: 2 :: 3 :: 1 :: List.replicate 27 1)
     let s := tKs c []
     let act := tGo s c 1
     let b := fun (k : Nat) => byteAt c.params k
     let p := fun (off n : Nat) => u c.params off n
     let W := fun (ws : List (Nat × Nat)) => s.trvWrites 0 ws
     let d := b 0
     let w := W [(A.GAUGE_DOM_STG_AT_LO d, p 4 4), (A.GAUGE_DOM_STG_AT_HI d, p 8 4), (A.GAUGE_DOM_STG_RATE_LO d, p 12 4), (A.GAUGE_DOM_STG_RATE_HI d,
       p 16 1), (A.GAUGE_DOM_STG_SEC_LO d, p 17 4), (A.GAUGE_DOM_STG_SEC_HI d, p 21 4), (A.GAUGE_DOM_STG_NS d, p 25 4), (A.GAUGE_DOM_STG_FRAC d, p 29
       2), (A.GAUGE_DOM_CTRL d, 2 ^ 31 + b 2 * 2 ^ 8 + b 3 * 2 ^ 4 + b 1)]
     act 0x0403 ∧ d < 4 ∧ b 1 < 3 ∧ b 2 < 4 ∧ b 3 < 2 ∧ (s.dom d).pend = none ∧ w.2 = none) ∧
    (let c := tKc 0x0404 (List.replicate 140 1)
     let s := tKs c []
     let act := tGo s c 1
     let b := fun (k : Nat) => byteAt c.params k
     let p := fun (off n : Nat) => u c.params off n
     let im := fun (off : Nat) (as : List Nat) => imageWrites c.params off as
     let W := fun (ws : List (Nat × Nat)) => s.trvWrites 0 ws
     let d := b 0
     let w := W ((A.GAUGE_CMP_CTRL d, p 1 4 % 2 ^ 31) :: im 5 [A.GAUGE_CMP_NEXT_LO d, A.GAUGE_CMP_NEXT_HI d, A.GAUGE_CMP_NEXT_NS d, A.GAUGE_CMP_PERIOD
       d] ++ [(A.GAUGE_CMP_CTRL d, p 1 4)])
     act 0x0404 ∧ d < 16 ∧ w.2 = none) ∧
    (let c := tKc 0x0405 (List.replicate 140 1)
     let s := tKs c []
     let act := tGo s c 1
     let b := fun (k : Nat) => byteAt c.params k
     let p := fun (off n : Nat) => u c.params off n
     let W := fun (ws : List (Nat × Nat)) => s.trvWrites 0 ws
     let d := b 0
     let w := W [(A.GAUGE_PPS_CTRL d, p 1 4)]
     act 0x0405 ∧ d < 2 ∧ w.2 = none) ∧
    (let c := tKc 0x0406 ([3, 23, 2])
     let s := (fun s => { s with kcp := { s.kcp with ptp := [(1, ⟨3, 2, []⟩)] } }) (tKs c [])
     let act := tGo s c 1
     let b := fun (k : Nat) => byteAt c.params k
     let other := s.kcp.ptp.any fun x => x.1 != b 0 && x.2.dom == b 2 && s.ptpOwns x.2.ne (b 2)
     act 0x0406 ∧ b 0 < 4 ∧ b 1 < 24 ∧ b 2 < 4 ∧ other = true ∧ s.ptpOwns (b 1) (b 2) = true) ∧
    (let c := tKc 0x0406 ([3, 23, 3])
     let s := tKs c []
     let act := tGo s c 1
     let b := fun (k : Nat) => byteAt c.params k
     let other := s.kcp.ptp.any fun x => x.1 != b 0 && x.2.dom == b 2 && s.ptpOwns x.2.ne (b 2)
     act 0x0406 ∧ b 0 < 4 ∧ b 1 < 24 ∧ b 2 < 4 ∧ (other = false ∨ s.ptpOwns (b 1) (b 2) = false)) ∧
    (let c := tKc 0x0407 ([3])
     let s := tKs c []
     let act := tGo s c 1
     let b := fun (k : Nat) => byteAt c.params k
     act 0x0407 ∧ b 0 < 4 ∧ storeFind s.kcp.ptp (b 0) = none) ∧
    (let c := tKc 0x0407 ([3])
     let s := (fun s => { s with kcp := { s.kcp with ptp := [(3, ⟨3, 2, []⟩)] } }) (tKs c [])
     let act := tGo s c 1
     let b := fun (k : Nat) => byteAt c.params k
     act 0x0407 ∧ b 0 < 4 ∧ storeFind s.kcp.ptp (b 0) ≠ none) ∧
    (let c := tKc 0x0408 (17 :: List.replicate 8 1)
     let s := tKs c []
     let act := tGo s c 1
     let b := fun (k : Nat) => byteAt c.params k
     let p := fun (off n : Nat) => u c.params off n
     let W := fun (ws : List (Nat × Nat)) => s.trvWrites 0 ws
     let d := b 0
     let w := W [(A.GAUGE_TSC_CTRL d, p 1 4), (A.GAUGE_TSC_ADJ d, p 5 4)]
     act 0x0408 ∧ d < 18 ∧ w.2 = none) ∧
    (let c := tKc 0x0501 ([7, 23])
     let s := tKs c []
     let act := tGo s c 1
     let b := fun (k : Nat) => byteAt c.params k
     let d := b 0
     act 0x0501 ∧ d < 8 ∧ b 1 < 24 ∧ (s.cxEngine d ≠ some (b 1) ∨ s.dtt d ≠ dOff ∨ s.enginePattern (b 1) = none)) ∧
    (let c := tKc 0x0501 ([7, 13])
     let s := (tPatS (List.replicate 88 0)) (tKs c (tPatW))
     let i : Nat := 0x22
     let pat : Pattern := patternOf (List.replicate 88 0)
     let act := tGo s c 1
     let b := fun (k : Nat) => byteAt c.params k
     let d := b 0
     act 0x0501 ∧ d < 8 ∧ b 1 < 24 ∧ s.cxEngine d = some (b 1) ∧ s.dtt d = dOff ∧ s.enginePattern (b 1) = some pat ∧ s.patternCheck d pat = some i) ∧
    (let c := tKc 0x0501 ([7, 13])
     let s := (tPatS tPatB) (tKs c (tPatW))
     let pat : Pattern := patternOf tPatB
     let act := tGo s c 1
     let b := fun (k : Nat) => byteAt c.params k
     let d := b 0
     act 0x0501 ∧ d < 8 ∧ b 1 < 24 ∧ s.cxEngine d = some (b 1) ∧ s.dtt d = dOff ∧ s.enginePattern (b 1) = some pat ∧ s.patternCheck d pat = none) ∧
    (let c := tKc 0x0502 (7 :: List.replicate 16 1)
     let s := tKs c ([(A.DTT_STATUS 7, (fput F.DTT_STATUS.STATE 0 4).toNat)])
     let act := tGo s c 1
     let b := fun (k : Nat) => byteAt c.params k
     let d := b 0
     act 0x0502 ∧ d < 8 ∧ s.dtt d ≠ dOff) ∧
    (let c := tKc 0x0502 (7 :: List.replicate 16 1)
     let s := tKs c []
     let act := tGo s c 1
     let b := fun (k : Nat) => byteAt c.params k
     let p := fun (off n : Nat) => u c.params off n
     let im := fun (off : Nat) (as : List Nat) => imageWrites c.params off as
     let W := fun (ws : List (Nat × Nat)) => s.trvWrites 0 ws
     let d := b 0
     let w := W (im 1 [A.DTT_ROLE d, A.DTT_LIMITS d, A.DTT_SYNC_OFS d] ++ [(A.DTT_CTRL d, p 13 4 % 2 ^ 31)])
     act 0x0502 ∧ d < 8 ∧ s.dtt d = dOff ∧ w.2 = none) ∧
    (let c := tKc 0x0503 ([7, 1])
     let s := tKs c []
     let act := tGo s c 1
     let b := fun (k : Nat) => byteAt c.params k
     let W := fun (ws : List (Nat × Nat)) => s.trvWrites 0 ws
     let d := b 0
     let w := W [(A.DTT_CTRL d, (fput F.DTT_CTRL.EN (s.rd (A.DTT_CTRL d)) (b 1)).toNat)]
     act 0x0503 ∧ d < 8 ∧ b 1 < 2 ∧ w.2 = none) ∧
    (let c := tKc 0x0504 ([7, 254, 3, 1, 0])
     let s := tKs c []
     let act := tGo s c 1
     let b := fun (k : Nat) => byteAt c.params k
     let p := fun (off n : Nat) => u c.params off n
     let R := fun (as : List Nat) => s.trvReads 0 as
     let ix := p 1 2
     let d := b 0
     let r := R ([A.DTT_CTRL d, A.DTT_STATUS d, A.DTT_ROLE d, A.DTT_LIMITS d, A.DTT_SYNC_OFS d, A.DTT_ROW d, A.DTT_QREF_LO d, A.DTT_QREF_HI d,
       A.DTT_LAST_CORR d, A.DTT_RATE d, A.DTT_REF_LAST d] ++ (List.range (p 3 2)).flatMap fun k => [A.DTT_ST_RX d (ix + k), A.DTT_ST_EMPTY d (ix + k),
       A.DTT_EDGE_VIOL d (ix + k)])
     act 0x0504 ∧ d < 8 ∧ ix ≤ 1023 ∧ ix + p 3 2 ≤ 1023 ∧ r.2.bad = none) ∧
    (let c := tKc 0x0505 (7 :: List.replicate 128 1)
     let s := tKs c ([(A.DTT_STATUS 7, (fput F.DTT_STATUS.STATE 0 4).toNat)])
     let act := tGo s c 1
     let b := fun (k : Nat) => byteAt c.params k
     let d := b 0
     act 0x0505 ∧ d < 8 ∧ s.dtt d ≠ dOff) ∧
    (let c := tKc 0x0505 (7 :: List.replicate 128 1)
     let s := tKs c []
     let act := tGo s c 1
     let b := fun (k : Nat) => byteAt c.params k
     let im := fun (off : Nat) (as : List Nat) => imageWrites c.params off as
     let W := fun (ws : List (Nat × Nat)) => s.trvWrites 0 ws
     let d := b 0
     let w := W (im 1 ((List.range 32).map (A.DTT_COL_MAP d)))
     act 0x0505 ∧ d < 8 ∧ s.dtt d = dOff ∧ w.2 = none) ∧
    (let c := tKc 1 ([])
     let s := tKs c []
     let tag : BitVec 16 := 8
     let tr : Fin 6 := 1
     (s.kcmd tr tag.toNat = none ∨ s.trivetLost = true)) := by
  and_intros <;> decide
theorem wit_KcpChargeMemoryWakeEffects :
    (let c := tKc 0x0601 ([0, 1])
     let s := tKs c ([(A.WAKE_PSTATE, (fput F.WAKE_PSTATE.BUSY 0 1).toNat)])
     let h : Half := .p
     let act := tGo s c 1
     let b := fun (k : Nat) => byteAt c.params k
     let d := b 0
     act 0x0601 ∧ d < 4 ∧ b 1 = h.n ∧ s.powerRow d h = false) ∧
    (let c := tKc 0x0601 ([2, 1])
     let s := tKs c []
     let h : Half := .p
     let act := tGo s c 1
     let b := fun (k : Nat) => byteAt c.params k
     let d := b 0
     act 0x0601 ∧ d < 4 ∧ b 1 = h.n ∧ s.powerRow d h = true ∧ s.powerOwn c d h = true) ∧
    (let c := tKc 0x0601 ([1, 0])
     let s := (fun s => { s with chg := { s.chg with k := { s.chg.k with st := .service } } }) (tKs c [])
     let h : Half := .k
     let act := tGo s c 1
     let b := fun (k : Nat) => byteAt c.params k
     let d := b 0
     act 0x0601 ∧ d < 4 ∧ b 1 = h.n ∧ s.powerRow d h = true ∧ s.powerOwn c d h = false) ∧
    (let c := tKc 0x0602 (7 :: (leBytes 4 (fput F.WAKE_SEG_CTRL.EN 0 1).toNat ++ List.replicate 12 1))
     let s := tKs c []
     let act := tGo s c 1
     let b := fun (k : Nat) => byteAt c.params k
     let p := fun (off n : Nat) => u c.params off n
     let im := fun (off : Nat) (as : List Nat) => imageWrites c.params off as
     let W := fun (ws : List (Nat × Nat)) => s.trvWrites 0 ws
     let d := b 0
     let seg := fput F.WAKE_SEG_CTRL.HOLD (BitVec.ofNat 32 (p 1 4)) (b2n (s.segHold d))
     let w := W (im 5 [A.WAKE_SEG_MEMB d, A.WAKE_SEG_CAN_KA_ID d, A.WAKE_SEG_CAN_KA_MASK d] ++ [(A.WAKE_SEG_CTRL d, seg.toNat)])
     act 0x0602 ∧ d < 8 ∧ fget F.WAKE_SEG_CTRL.EN seg = 1 ∧ w.2 = none) ∧
    (let c := tKc 0x0602 (7 :: (leBytes 4 0 ++ List.replicate 12 1))
     let s := tKs c []
     let act := tGo s c 1
     let b := fun (k : Nat) => byteAt c.params k
     let p := fun (off n : Nat) => u c.params off n
     let im := fun (off : Nat) (as : List Nat) => imageWrites c.params off as
     let W := fun (ws : List (Nat × Nat)) => s.trvWrites 0 ws
     let d := b 0
     let seg := fput F.WAKE_SEG_CTRL.HOLD (BitVec.ofNat 32 (p 1 4)) (b2n (s.segHold d))
     let w := W ([(A.WAKE_SEG_CTRL d, seg.toNat)] ++ im 5 [A.WAKE_SEG_MEMB d, A.WAKE_SEG_CAN_KA_ID d, A.WAKE_SEG_CAN_KA_MASK d])
     act 0x0602 ∧ d < 8 ∧ fget F.WAKE_SEG_CTRL.EN seg = 0 ∧ w.2 = none) ∧
    (let c := tKc 0x0603 ([7, 1])
     let s := tKs c []
     let act := tGo s c 1
     let b := fun (k : Nat) => byteAt c.params k
     let W := fun (ws : List (Nat × Nat)) => s.trvWrites 0 ws
     let d := b 0
     let w := W [(A.WAKE_SEG_CTRL d, (fput F.WAKE_SEG_CTRL.HOLD (s.rd (A.WAKE_SEG_CTRL d)) (b 1)).toNat)]
     act 0x0603 ∧ d < 8 ∧ b 1 < 2 ∧ w.2 = none) ∧
    (let c := tKc 0x0604 ([7, 3] ++ List.replicate 21 1)
     let s := tKs c []
     let act := tGo s c 1
     let b := fun (k : Nat) => byteAt c.params k
     let im := fun (off : Nat) (as : List Nat) => imageWrites c.params off as
     let W := fun (ws : List (Nat × Nat)) => s.trvWrites 0 ws
     let d := b 0
     let w := W (im 2 [A.WAKE_TLM_ID d (b 1), A.WAKE_TLM_DVAL_LO d (b 1), A.WAKE_TLM_DVAL_HI d (b 1), A.WAKE_TLM_DMASK_LO d (b 1), A.WAKE_TLM_DMASK_HI
       d (b 1)] ++ [(A.WAKE_TLM_CTRL d (b 1), (fput F.WAKE_TLM_CTRL.EN 0 (b 22)).toNat)])
     act 0x0604 ∧ d < 8 ∧ b 1 < 4 ∧ b 22 < 2 ∧ w.2 = none) ∧
    (let c := tKc 0x0605 (12 :: List.replicate 5 1)
     let s := tKs c []
     let act := tGo s c 1
     let b := fun (k : Nat) => byteAt c.params k
     let p := fun (off n : Nat) => u c.params off n
     let W := fun (ws : List (Nat × Nat)) => s.trvWrites 0 ws
     let d := b 0
     let w := W ((A.WAKE_SRC d, p 1 4) :: (if b 5 = 1 then [(A.WAKE_FALSE_CLR, 2 ^ d)] else []))
     act 0x0605 ∧ d < 13 ∧ b 5 < 2 ∧ w.2 = none) ∧
    (let c := tKc 0x0606 (List.replicate 140 1)
     let s := tKs c []
     let act := tGo s c 1
     let p := fun (off n : Nat) => u c.params off n
     let im := fun (off : Nat) (as : List Nat) => imageWrites c.params off as
     let W := fun (ws : List (Nat × Nat)) => s.trvWrites 0 ws
     let w := W ((A.WAKE_PCTRL, p 0 4 % 2 ^ 31) :: im 4 [A.WAKE_KA, A.WAKE_NODATA_T, A.WAKE_VALID_T, A.WAKE_INSOMNIA_T, A.WAKE_PIN_CFG, A.WAKE_DA_LO]
       ++ [(A.WAKE_DA_HI, p 28 2)])
     act 0x0606 ∧ w.2 = none) ∧
    (let c := tKc 0x0607 ([7])
     let s := tKs c []
     let act := tGo s c 1
     let b := fun (k : Nat) => byteAt c.params k
     let R := fun (as : List Nat) => s.trvReads 0 as
     let d := b 0
     let r := R ((List.range 32).flatMap fun k => (List.range 8).map (A.WAKE_INS_LOG d k))
     act 0x0607 ∧ d < 8 ∧ r.2.bad = none) ∧
    (let c := tKc 0x0608 ([255])
     let s := tKs c []
     let act := tGo s c 1
     let b := fun (k : Nat) => byteAt c.params k
     let W := fun (ws : List (Nat × Nat)) => s.trvWrites 0 ws
     let d := b 0
     let w := W [(A.WAKE_INS_CLR, d)]
     act 0x0608 ∧ w.2 = none) ∧
    (let c := tKc 0x0701 ([15, 1, 0, 0])
     let s := tKs c ([(A.HK_STATUS 15, (fput F.HK_STATUS.STATE 0 hkRunning).toNat)])
     let act := tGo s c 1
     let b := fun (k : Nat) => byteAt c.params k
     let d := b 0
     act 0x0701 ∧ d < 16 ∧ 1 ≤ b 1 ∧ b 1 ≤ 64 ∧ s.hkState d ≠ hkStopped) ∧
    (let c := tKc 0x0701 ([15, 2, 1, 0, 255, 255])
     let s := tKs c []
     let i : Nat := 1
     let act := tGo s c 1
     let b := fun (k : Nat) => byteAt c.params k
     let p := fun (off n : Nat) => u c.params off n
     let d := b 0
     let hook := (List.range (b 1)).map fun k => p (2 + 2 * k) 2
     act 0x0701 ∧ d < 16 ∧ 1 ≤ b 1 ∧ b 1 ≤ 64 ∧ s.hkState d = hkStopped ∧ hook.findIdx? hookReserved = some i) ∧
    (let c := tKc 0x0701 ([15, 1, 1, 0])
     let s := tKs c []
     let act := tGo s c 1
     let b := fun (k : Nat) => byteAt c.params k
     let p := fun (off n : Nat) => u c.params off n
     let W := fun (ws : List (Nat × Nat)) => s.trvWrites 0 ws
     let d := b 0
     let hook := (List.range (b 1)).map fun k => p (2 + 2 * k) 2
     let w := W (hook.zipIdx.map fun (v, k) => (A.HK_PROG d k, v))
     act 0x0701 ∧ d < 16 ∧ 1 ≤ b 1 ∧ b 1 ≤ 64 ∧ s.hkState d = hkStopped ∧ hook.findIdx? hookReserved = none ∧ w.2 = none) ∧
    (let c := tKc 0x0702 (15 :: List.replicate 28 1)
     let s := tKs c []
     let act := tGo s c 1
     let b := fun (k : Nat) => byteAt c.params k
     let p := fun (off n : Nat) => u c.params off n
     let im := fun (off : Nat) (as : List Nat) => imageWrites c.params off as
     let W := fun (ws : List (Nat × Nat)) => s.trvWrites 0 ws
     let d := b 0
     let hkImg := fun (flags : Nat) (run : Bool) => (fput F.HK_CTRL.RUN (fput ⟨2, 0⟩ (s.rd (A.HK_CTRL d)) flags) (b2n run)).toNat
     let w := W ((A.HK_CTRL d, hkImg (p 1 4 % 8) (s.hkState d != hkStopped)) :: im 5 [A.HK_CLKDIV d, A.HK_PINS d, A.HK_WAITTO d, A.HK_FIFO d, A.HK_CMP
       d, A.HK_CMP_MASK d])
     act 0x0702 ∧ d < 16 ∧ w.2 = none) ∧
    (let c := tKc 0x0703 ([15, 1, 63])
     let s := tKs c []
     let act := tGo s c 1
     let b := fun (k : Nat) => byteAt c.params k
     let W := fun (ws : List (Nat × Nat)) => s.trvWrites 0 ws
     let d := b 0
     let hkImg := fun (flags : Nat) (run : Bool) => (fput F.HK_CTRL.RUN (fput ⟨2, 0⟩ (s.rd (A.HK_CTRL d)) flags) (b2n run)).toNat
     let w := W [(A.HK_PC d, b 2), (A.HK_CTRL d, hkImg (s.rdn (A.HK_CTRL d) % 8) true)]
     act 0x0703 ∧ d < 16 ∧ b 1 = 1 ∧ b 2 < 64 ∧ w.2 = none) ∧
    (let c := tKc 0x0703 ([15, 0, 63])
     let s := tKs c []
     let act := tGo s c 1
     let b := fun (k : Nat) => byteAt c.params k
     let W := fun (ws : List (Nat × Nat)) => s.trvWrites 0 ws
     let d := b 0
     let hkImg := fun (flags : Nat) (run : Bool) => (fput F.HK_CTRL.RUN (fput ⟨2, 0⟩ (s.rd (A.HK_CTRL d)) flags) (b2n run)).toNat
     let w := W [(A.HK_CTRL d, hkImg (s.rdn (A.HK_CTRL d) % 8) false)]
     act 0x0703 ∧ d < 16 ∧ b 1 = 0 ∧ b 2 < 64 ∧ w.2 = none) ∧
    (let c := tKc 0x0704 (1 :: 23 :: List.replicate 4 1)
     let s := tKs c []
     let act := tGo s c 1
     let b := fun (k : Nat) => byteAt c.params k
     let p := fun (off n : Nat) => u c.params off n
     let W := fun (ws : List (Nat × Nat)) => s.trvWrites 0 ws
     let d := b 0
     let w := W [(A.HOOK_PIN_CFG d (b 1), p 2 4)]
     act 0x0704 ∧ d < 2 ∧ b 1 < 24 ∧ w.2 = none) ∧
    (let c := tKc 0x0801 (1 :: 63 :: List.replicate 17 1)
     let s := tKs c []
     let act := tGo s c 1
     let b := fun (k : Nat) => byteAt c.params k
     let p := fun (off n : Nat) => u c.params off n
     let im := fun (off : Nat) (as : List Nat) => imageWrites c.params off as
     let W := fun (ws : List (Nat × Nat)) => s.trvWrites 0 ws
     let d := b 0
     let w := W (im 6 [A.SPAD_WIN_SIZE d (b 1), A.SPAD_WIN_GRANT d (b 1), A.SPAD_WIN_NE d (b 1)] ++ [(A.SPAD_WIN_BASE d (b 1), p 2 4), (A.SPAD_CTRL d,
       (fput F.SPAD_CTRL.PERM_EN (s.rd (A.SPAD_CTRL d)) (b 18)).toNat)])
     act 0x0801 ∧ d < 2 ∧ b 1 < 64 ∧ b 18 < 2 ∧ w.2 = none) ∧
    (let c := tKc 0x0802 ([63, 1, 1, 0])
     let s := tKs c ([(A.MBX_BIND_LOCK, 1)])
     let act := tGo s c 1
     let b := fun (k : Nat) => byteAt c.params k
     let d := b 0
     let same := s.mbxSender d = b 1 ∧ s.mbxReceiver d = b 2
     let lock := s.flag A.MBX_BIND_LOCK F.MBX_BIND_LOCK.LOCK
     act 0x0802 ∧ d < 64 ∧ b 3 < 2 ∧ lock = true ∧ ¬ same) ∧
    (let c := tKc 0x0802 ([63, 1, 1, 1])
     let s := tKs c []
     let act := tGo s c 1
     let b := fun (k : Nat) => byteAt c.params k
     let W := fun (ws : List (Nat × Nat)) => s.trvWrites 0 ws
     let d := b 0
     let same := s.mbxSender d = b 1 ∧ s.mbxReceiver d = b 2
     let lock := s.flag A.MBX_BIND_LOCK F.MBX_BIND_LOCK.LOCK
     let w := W ((A.MBX_BIND d, b 1 * 2 ^ 8 + b 2) :: (if b 3 = 1 then [(A.MBX_BIND_LOCK, 1)] else []))
     act 0x0802 ∧ d < 64 ∧ b 3 < 2 ∧ (lock = false ∨ same) ∧ w.2 = none) ∧
    (let c := tKc 0x0803 ([1])
     let s := tKs c []
     let h : Half := .p
     let act := tGo s c 1
     let b := fun (k : Nat) => byteAt c.params k
     let d := b 0
     act 0x0803 ∧ d = h.n ∧ s.chgOf h ≠ .service) ∧
    (let c := tKc 0x0803 ([1])
     let s := (fun s => { s with chg := { s.chg with p := { s.chg.p with st := .service } } }) (tKs c [])
     let h : Half := .p
     let act := tGo s c 1
     let b := fun (k : Nat) => byteAt c.params k
     let d := b 0
     act 0x0803 ∧ d = h.n ∧ s.chgOf h = .service ∧ s.zeroingAt (bankAt h 0) = false) ∧
    (let c := tKc 0x0804 ([15, 1])
     let s := tKs c []
     let act := tGo s c 1
     let b := fun (k : Nat) => byteAt c.params k
     let d := b 0
     act 0x0804 ∧ d < 16 ∧ s.mode6412 = false) ∧
    (let c := tKc 0x0804 ([15, 1])
     let s := tKs c ([(A.SYS_MODE, (fput F.SYS_MODE.M6412 0 1).toNat)])
     let act := tGo s c 1
     let b := fun (k : Nat) => byteAt c.params k
     let W := fun (ws : List (Nat × Nat)) => s.trvWrites 0 ws
     let d := b 0
     let w := W [(A.BANK_OWNER 0 d, b 1)]
     act 0x0804 ∧ d < 16 ∧ s.mode6412 = true ∧ w.2 = none) ∧
    (let c := tKc 0x0901 (List.replicate 140 1)
     let s := tKs c []
     let act := tGo s c 1
     let im := fun (off : Nat) (as : List Nat) => imageWrites c.params off as
     let W := fun (ws : List (Nat × Nat)) => s.trvWrites 0 ws
     let w := W (im 0 (((List.range 3).flatMap fun k => [A.LARDER_PART_BASE k, A.LARDER_PART_SIZE k]) ++ ((List.range 8).flatMap fun j =>
       [A.LARDER_SRC_BASE j, A.LARDER_SRC_CNT j]) ++ [A.LARDER_TRIG, A.LARDER_FREEZE] ++ (List.range 2).flatMap fun k => [A.LARDER_PRE_N k,
       A.LARDER_POST_N k]))
     act 0x0901 ∧ w.2 = none) ∧
    (let c := tKc 0x0902 ([])
     let s := tKs c ([(A.LARDER_FREEZE, (fput F.LARDER_FREEZE.EN_KCP 0 1).toNat), (A.LARDER_CTRL, (fput F.LARDER_CTRL.EN 0 1).toNat)])
     let act := tGo s c 1
     let on := s.flag A.LARDER_FREEZE F.LARDER_FREEZE.EN_KCP = true ∧ s.flag A.LARDER_CTRL F.LARDER_CTRL.EN = true
     act 0x0902 ∧ on) ∧
    (let c := tKc 0x0902 ([])
     let s := tKs c []
     let act := tGo s c 1
     let on := s.flag A.LARDER_FREEZE F.LARDER_FREEZE.EN_KCP = true ∧ s.flag A.LARDER_CTRL F.LARDER_CTRL.EN = true
     act 0x0902 ∧ ¬ on) ∧
    (let c := tKc 0x0903 ([])
     let s := tKs c []
     let act := tGo s c 1
     act 0x0903) ∧
    (let c := tKc 0x0904 ([1, 0, 0, 0, 0, 1, 0])
     let s := tKs c []
     let act := tGo s c 1
     let b := fun (k : Nat) => byteAt c.params k
     let p := fun (off n : Nat) => u c.params off n
     let d := b 0
     act 0x0904 ∧ d < 2 ∧ 1 ≤ p 5 2 ∧ p 5 2 ≤ 16 ∧ s.storePages d < p 1 4 + p 5 2) ∧
    (let c := tKc 0x0904 ([1, 0, 0, 0, 0, 1, 0])
     let s := (fun s => { s with larder := { s.larder with fast := { s.larder.fast with job := some ⟨0, false, [], [], []⟩ } } }) (tKs c ([(A.LARDER_PART_SIZE 1, 0x10000)]))
     let lapped : Bool := true
     let act := tGo s c 1
     let b := fun (k : Nat) => byteAt c.params k
     let p := fun (off n : Nat) => u c.params off n
     let d := b 0
     act 0x0904 ∧ d < 2 ∧ 1 ≤ p 5 2 ∧ p 5 2 ≤ 16 ∧ p 1 4 + p 5 2 ≤ s.storePages d ∧ lapped = true ∧ (s.larder.store d).job.isSome = true) ∧
    (let c := tKc 0x0904 ([1, 0, 0, 0, 0, 1, 0])
     let s := tKs c ([(A.LARDER_PART_SIZE 1, 0x10000)])
     let lapped : Bool := false
     let act := tGo s c 1
     let b := fun (k : Nat) => byteAt c.params k
     let p := fun (off n : Nat) => u c.params off n
     let d := b 0
     act 0x0904 ∧ d < 2 ∧ 1 ≤ p 5 2 ∧ p 5 2 ≤ 16 ∧ p 1 4 + p 5 2 ≤ s.storePages d ∧ (lapped = false ∨ (s.larder.store d).job.isSome = false)) ∧
    (let c := tKc 0x0905 (leBytes 4 9 ++ leBytes 2 1024)
     let s := tKs c []
     let act := tGo s c 1
     let p := fun (off n : Nat) => u c.params off n
     act 0x0905 ∧ 1 ≤ p 4 2 ∧ p 4 2 ≤ 1024 ∧ (s.larder.held.any fun e => e.seq % 2 ^ 32 == p 0 4) = false) ∧
    (let c := tKc 0x0905 (leBytes 4 5 ++ leBytes 2 1024)
     let s := (fun s => let s : State := { s with larder := { s.larder with held := [⟨5, 1, 1, 5⟩] } }; { s with larder := { s.larder with waiting := s.larder.waiting ++ [tEvt] } }) (tKs c ([(A.LARDER_FREEZE, (fput F.LARDER_FREEZE.EN_KCP 0 1).toNat), (A.LARDER_CTRL, (fput F.LARDER_CTRL.EN 0 1).toNat)]))
     let lapped : Bool := true
     let i : Nat := 5
     let act := tGo s c 1
     let p := fun (off n : Nat) => u c.params off n
     act 0x0905 ∧ 1 ≤ p 4 2 ∧ p 4 2 ≤ 1024 ∧ (s.larder.held.find? fun e => e.seq % 2 ^ 32 = p 0 4).any (fun e => e.seq == i) = true ∧ lapped = true ∧
       s.larder.waiting ≠ []) ∧
    (let c := tKc 0x0905 (leBytes 4 5 ++ leBytes 2 1)
     let s := (fun s => { s with larder := { s.larder with held := [⟨5, 1, 1, 5⟩] } }) (tKs c [])
     let lapped : Bool := false
     let i : Nat := 5
     let act := tGo s c 1
     let p := fun (off n : Nat) => u c.params off n
     act 0x0905 ∧ 1 ≤ p 4 2 ∧ p 4 2 ≤ 1024 ∧ (s.larder.held.find? fun e => e.seq % 2 ^ 32 = p 0 4).any (fun e => e.seq == i) = true ∧ (lapped = false
       ∨ s.larder.waiting = [])) ∧
    (let c := tKc 0x0A01 (List.replicate 140 1)
     let s := tKs c []
     let act := tGo s c 1
     let R := fun (as : List Nat) => s.trvReads 0 as
     let r := R [A.TRV_CHARGE, A.TRV_STATE, A.TRV_CAUSE 0, A.TRV_CAUSE 1, A.TEN_STATUS]
     act 0x0A01 ∧ r.2.bad = none) ∧
    (let c := tKc 0x0A02 ([1])
     let s := (fun s => { s with chg := { s.chg with p := { s.chg.p with st := .service } } }) (tKs c [])
     let h : Half := .p
     let act := tGo s c 1
     let b := fun (k : Nat) => byteAt c.params k
     let d := b 0
     act 0x0A02 ∧ d = h.n ∧ s.holder ≠ some h ∧ (s.handoverPending = true ∨ s.chgOf h = .service)) ∧
    (let c := tKc 0x0A02 ([1])
     let s := tKs c []
     let h : Half := .p
     let act := tGo s c 1
     let b := fun (k : Nat) => byteAt c.params k
     let d := b 0
     act 0x0A02 ∧ d = h.n ∧ s.holder ≠ some h ∧ s.handoverPending = false ∧ s.chgOf h ≠ .service) ∧
    (let c := tKc 0x0A02 ([1])
     let s := (fun s => { s with chg := { s.chg with k := { s.chg.k with st := .init }, p := { s.chg.p with st := .charge }, holder := holderCode .p, granted := true } }) (tKs c [])
     let h : Half := .p
     let i : Nat := 0x12
     let act := tGo s c 1
     let b := fun (k : Nat) => byteAt c.params k
     let d := b 0
     act 0x0A02 ∧ d = h.n ∧ s.holder = some h ∧ s.handoverRefusal = some i) ∧
    (let c := tKc 0x0A02 ([1])
     let s := (fun s => { s with chg := { s.chg with k := { s.chg.k with st := .standby }, p := { s.chg.p with st := .charge }, holder := holderCode .p, granted := true } }) (tKs c (((List.range 16).map fun k => (A.GAUGE_CMP_CTRL k, 0x80000000))))
     let h : Half := .p
     let act := tGo s c 1
     let b := fun (k : Nat) => byteAt c.params k
     let d := b 0
     act 0x0A02 ∧ d = h.n ∧ s.holder = some h ∧ s.handoverRefusal = none) ∧
    (let c := tKc 0x0A04 ([])
     let s := tKs c []
     let i : Nat := 0x10
     let act := tGo s c 1
     act 0x0A04 ∧ s.handoverRefusal = some i) ∧
    (let c := tKc 0x0A04 ([])
     let s := (fun s => { s with chg := { s.chg with k := { s.chg.k with st := .standby }, p := { s.chg.p with st := .charge }, holder := holderCode .p, granted := true } }) (tKs c (((List.range 16).map fun k => (A.GAUGE_CMP_CTRL k, 0x80000000))))
     let act := tGo s c 1
     act 0x0A04 ∧ s.handoverRefusal = none) ∧
    (let c := { tKc 0x0A04 [] with committed := true }
     let s := tKs c ([(A.TRV_HANDOVER_LO, 5)])
     let tag : BitVec 16 := 9
     let tr : Fin 6 := 1
     s.kcmd tr tag.toNat = some c ∧ c.op = 0x0A04 ∧ c.started = true ∧ s.trivetLost = false ∧ c.committed = true ∧ s.handoverPending = true) ∧
    (let c := { tKc 0x0A04 [] with committed := true }
     let s := (fun s => { s with chg := { s.chg with performed := some 77 } }) (tKs c [])
     let at_ : Nat := 77
     let tag : BitVec 16 := 9
     let tr : Fin 6 := 1
     s.kcmd tr tag.toNat = some c ∧ c.op = 0x0A04 ∧ c.started = true ∧ s.trivetLost = false ∧ c.committed = true ∧ s.handoverPending = false ∧
       s.chg.performed = some at_) ∧
    (let c := { tKc 0x0A04 [] with committed := true }
     let s := tKs c []
     let tag : BitVec 16 := 9
     let tr : Fin 6 := 1
     s.kcmd tr tag.toNat = some c ∧ c.op = 0x0A04 ∧ c.started = true ∧ s.trivetLost = false ∧ c.committed = true ∧ s.handoverPending = false ∧
       s.chg.performed = none) ∧
    (let c := tKc 0x0A03 ([1])
     let s := tKs c []
     let h : Half := .p
     let act := tGo s c 1
     let b := fun (k : Nat) => byteAt c.params k
     let d := b 0
     act 0x0A03 ∧ d = h.n ∧ s.chgOf h ≠ .service) ∧
    (let c := tKc 0x0A03 ([1])
     let s := (fun s => { s with chg := { s.chg with p := { s.chg.p with st := .service } } }) (tKs c [])
     let h : Half := .p
     let act := tGo s c 1
     let b := fun (k : Nat) => byteAt c.params k
     let d := b 0
     act 0x0A03 ∧ d = h.n ∧ s.chgOf h = .service ∧ c.carrier = some h) ∧
    (let c := tKc 0x0A03 ([0])
     let s := (fun s => { s with chg := { s.chg with k := { s.chg.k with st := .service } } }) (tKs c [])
     let h : Half := .k
     let act := tGo s c 1
     let b := fun (k : Nat) => byteAt c.params k
     let d := b 0
     act 0x0A03 ∧ d = h.n ∧ s.chgOf h = .service ∧ c.carrier ≠ some h) ∧
    (let c := tKc 0x0A03 ([2])
     let s := tKs c []
     let act := tGo s c 1
     let b := fun (k : Nat) => byteAt c.params k
     let d := b 0
     act 0x0A03 ∧ 2 ≤ d) ∧
    (let c := tKc 0x0A05 (List.replicate 20 0)
     let s := tKs c []
     let act := tGo s c 1
     let p := fun (off n : Nat) => u c.params off n
     let im := fun (off : Nat) (as : List Nat) => imageWrites c.params off as
     let W := fun (ws : List (Nat × Nat)) => s.trvWrites 0 ws
     let w := W (im 4 [A.TEN_IA_SRC 0, A.TEN_IA_DST 0, A.TEN_IA_SRC 1, A.TEN_IA_DST 1] ++ [(A.TEN_IA_CTRL, p 0 4)])
     act 0x0A05 ∧ w.2 = none ∧ (p 0 4 < 2 ^ 31 ∨ w.1.flag A.TEN_IA_CTRL F.TEN_IA_CTRL.ENABLE = true)) ∧
    (let c := tKc 0x0A05 (leBytes 4 0x80000000 ++ List.replicate 16 255)
     let s := tKs c []
     let act := tGo s c 1
     let p := fun (off n : Nat) => u c.params off n
     let im := fun (off : Nat) (as : List Nat) => imageWrites c.params off as
     let W := fun (ws : List (Nat × Nat)) => s.trvWrites 0 ws
     let w := W (im 4 [A.TEN_IA_SRC 0, A.TEN_IA_DST 0, A.TEN_IA_SRC 1, A.TEN_IA_DST 1] ++ [(A.TEN_IA_CTRL, p 0 4)])
     act 0x0A05 ∧ w.2 = none ∧ 2 ^ 31 ≤ p 0 4 ∧ w.1.flag A.TEN_IA_CTRL F.TEN_IA_CTRL.ENABLE = false) ∧
    (let c := tKc 0x0A06 (List.replicate 64 1)
     let s := tKs c []
     let act := tGo s c 1
     let im := fun (off : Nat) (as : List Nat) => imageWrites c.params off as
     let W := fun (ws : List (Nat × Nat)) => s.trvWrites 0 ws
     let w := W (im 0 ((List.range 8).flatMap fun n => [A.TEN_RS_BASE n, A.TEN_RS_SIZE n]))
     act 0x0A06 ∧ w.2 = none) ∧
    (let c := tKc 0x0A07 ([255, 1] ++ List.replicate 32 1)
     let s := tKs c []
     let act := tGo s c 1
     let b := fun (k : Nat) => byteAt c.params k
     let im := fun (off : Nat) (as : List Nat) => imageWrites c.params off as
     let W := fun (ws : List (Nat × Nat)) => s.trvWrites 0 ws
     let d := b 0
     let w := W (im 2 ((List.range (b 1)).flatMap fun k => (List.range 8).map (A.COL_STREAM (d + k))))
     act 0x0A07 ∧ d + b 1 ≤ 256 ∧ w.2 = none) ∧
    (let c := tKc 0x0A08 ([255, 255])
     let s := tKs c []
     let act := tGo s c 1
     let b := fun (k : Nat) => byteAt c.params k
     let W := fun (ws : List (Nat × Nat)) => s.trvWrites 0 ws
     let d := b 0
     let w := W [(A.TRV_CFG, d * 2 ^ 16 + min 31 (b 1) * 2 ^ 8)]
     act 0x0A08 ∧ w.2 = none) ∧
    (let c := tKc 0x0A09 ([1])
     let s := tKs c []
     let act := tGo s c 1
     let b := fun (k : Nat) => byteAt c.params k
     let W := fun (ws : List (Nat × Nat)) => s.trvWrites 0 ws
     let d := b 0
     let w := W [(A.TRV_TWIN, d)]
     act 0x0A09 ∧ d < 2 ∧ w.2 = none) ∧
    (let c := tKc 0x0A0A ([1])
     let s := tKs c []
     let h : Half := .p
     let act := tGo s c 1
     let b := fun (k : Nat) => byteAt c.params k
     let d := b 0
     act 0x0A0A ∧ d = h.n) ∧
    (let c := tKc 0x0A0B ([1, 1])
     let s := tKs c []
     let h : Half := .p
     let act := tGo s c 1
     let b := fun (k : Nat) => byteAt c.params k
     let d := b 0
     act 0x0A0B ∧ d = h.n ∧ b 1 < 2 ∧ s.chgOf h ≠ .service) ∧
    (let c := tKc 0x0A0B ([1, 1])
     let s := (fun s => { s with chg := { s.chg with p := { s.chg.p with st := .service } } }) (tKs c [])
     let h : Half := .p
     let act := tGo s c 1
     let b := fun (k : Nat) => byteAt c.params k
     let d := b 0
     act 0x0A0B ∧ d = h.n ∧ b 1 < 2 ∧ s.chgOf h = .service) ∧
    (let c := tKc 1 ([])
     let s := tKs c []
     let tag : BitVec 16 := 8
     let tr : Fin 6 := 1
     (s.kcmd tr tag.toNat = none ∨ s.trivetLost = true)) := by
  and_intros <;> decide
theorem wit_KcpImageSecurityEffects :
    (let c := tKc 0x0101 ([1, 0] ++ leBytes 4 98305)
     let s := tKs c []
     let act := tGo s c 1
     let b := fun (k : Nat) => byteAt c.params k
     let p := fun (off n : Nat) => u c.params off n
     let d := b 0
     let size := if d = 1 then 98304 else 0x1000000
     let off := p 2 4
     act 0x0101 ∧ d ≤ 2 ∧ size < off) ∧
    (let c := tKc 0x0101 ([2, 0] ++ leBytes 4 0x1000000)
     let s := (fun s => { s with kcp := { s.kcp with images := (List.range 4).map fun k => ⟨k, 0, 1, 100, []⟩ } }) (tKs c [])
     let act := tGo s c 1
     let b := fun (k : Nat) => byteAt c.params k
     let p := fun (off n : Nat) => u c.params off n
     let d := b 0
     let size := if d = 1 then 98304 else 0x1000000
     let off := p 2 4
     act 0x0101 ∧ d ≤ 2 ∧ off ≤ size ∧ 4 ≤ s.kcp.images.length) ∧
    (let c := tKc 0x0101 ([1, 0] ++ leBytes 4 98304)
     let s := tKs c []
     let act := tGo s c 1
     let b := fun (k : Nat) => byteAt c.params k
     let p := fun (off n : Nat) => u c.params off n
     let d := b 0
     let size := if d = 1 then 98304 else 0x1000000
     let off := p 2 4
     act 0x0101 ∧ d ≤ 2 ∧ off ≤ size ∧ s.kcp.images.length < 4) ∧
    (let c := tKc 0x0102 ([3, 0])
     let s := tKs c []
     let act := tGo s c 1
     let p := fun (off n : Nat) => u c.params off n
     let held := fun (k : Nat) => s.kcp.images.find? (fun i => i.handle = k)
     act 0x0102 ∧ held (p 0 2) = none) ∧
    (let c := tKc 0x0102 ([3, 0] ++ leBytes 4 100 ++ [1])
     let s := (fun s => { s with kcp := { s.kcp with images := [⟨3, 0, 1, 100, [1, 2, 3]⟩] } }) (tKs c [])
     let img : Image := ⟨3, 0, 1, 100, [1, 2, 3]⟩
     let act := tGo s c 1
     let p := fun (off n : Nat) => u c.params off n
     let off := p 2 4
     let bytes := c.params.drop 6
     let held := fun (k : Nat) => s.kcp.images.find? (fun i => i.handle = k)
     act 0x0102 ∧ held (p 0 2) = some img ∧ img.size < off + bytes.length) ∧
    (let c := tKc 0x0102 ([3, 0] ++ leBytes 4 99 ++ [1])
     let s := (fun s => { s with kcp := { s.kcp with images := [⟨3, 0, 1, 100, [1, 2, 3]⟩] } }) (tKs c [])
     let img : Image := ⟨3, 0, 1, 100, [1, 2, 3]⟩
     let act := tGo s c 1
     let p := fun (off n : Nat) => u c.params off n
     let off := p 2 4
     let bytes := c.params.drop 6
     let held := fun (k : Nat) => s.kcp.images.find? (fun i => i.handle = k)
     act 0x0102 ∧ held (p 0 2) = some img ∧ off + bytes.length ≤ img.size) ∧
    (let c := tKc 0x0103 ([3, 0])
     let s := (fun s => { s with kcp := { s.kcp with images := [⟨3, 0, 1, 100, [1, 2, 3]⟩] } }) (tKs c [])
     let img : Image := ⟨3, 0, 1, 100, [1, 2, 3]⟩
     let code : Nat := 1
     let act := tGo s c 1
     let p := fun (off n : Nat) => u c.params off n
     let held := fun (k : Nat) => s.kcp.images.find? (fun i => i.handle = k)
     act 0x0103 ∧ held (p 0 2) = some img ∧ s.imageCheck img = some code) ∧
    (let c := tKc 0x0103 ([3, 0])
     let s := tKs c []
     let act := tGo s c 1
     let p := fun (off n : Nat) => u c.params off n
     let held := fun (k : Nat) => s.kcp.images.find? (fun i => i.handle = k)
     act 0x0103 ∧ held (p 0 2) = none) ∧
    (let c := tKc 0x0104 ([3, 0])
     let s := tKs c []
     let act := tGo s c 1
     let p := fun (off n : Nat) => u c.params off n
     let held := fun (k : Nat) => s.kcp.images.find? (fun i => i.handle = k)
     act 0x0104 ∧ held (p 0 2) = none) ∧
    (let c := tKc 0x0104 ([3, 0])
     let s := (fun s => { s with kcp := { s.kcp with images := [⟨3, 0, 1, 100, [1, 2, 3]⟩] } }) (tKs c [])
     let img : Image := ⟨3, 0, 1, 100, [1, 2, 3]⟩
     let act := tGo s c 1
     let p := fun (off n : Nat) => u c.params off n
     let held := fun (k : Nat) => s.kcp.images.find? (fun i => i.handle = k)
     act 0x0104 ∧ held (p 0 2) = some img) ∧
    (let c := tKc 0x0105 ([3, 0, 23])
     let s := tKs c []
     let act := tGo s c 1
     let p := fun (off n : Nat) => u c.params off n
     let held := fun (k : Nat) => s.kcp.images.find? (fun i => i.handle = k)
     act 0x0105 ∧ s.loads c = false ∧ held (p 0 2) = none) ∧
    (let c := tKc 0x0105 ([3, 0, 23])
     let s := (fun s => { s with kcp := { s.kcp with images := [⟨3, 0, 1, 100, [1, 2, 3]⟩] } }) (tKs c ([(A.NE_STATUS 23, (fput F.NE_STATUS.STATE 0 neRunning).toNat)]))
     let img : Image := ⟨3, 0, 1, 100, [1, 2, 3]⟩
     let act := tGo s c 1
     let b := fun (k : Nat) => byteAt c.params k
     let p := fun (off n : Nat) => u c.params off n
     let held := fun (k : Nat) => s.kcp.images.find? (fun i => i.handle = k)
     act 0x0105 ∧ s.loads c = false ∧ held (p 0 2) = some img ∧ b 2 < 24 ∧ (s.neState (b 2) ≠ neStopped ∨ (s.eng (b 2)).load.isSome = true)) ∧
    (let c := tKc 0x0105 ([3, 0, 23])
     let s := (fun s => { s with kcp := { s.kcp with images := [⟨3, 0, 1, 100, [1, 2, 3]⟩] } }) (tKs c ([(A.NE_STATUS 23, (fput F.NE_STATUS.LOADED (fput F.NE_STATUS.STATE 0 neStopped) 1).toNat)]))
     let img : Image := ⟨3, 0, 1, 100, [1, 2, 3]⟩
     let act := tGo s c 1
     let b := fun (k : Nat) => byteAt c.params k
     let p := fun (off n : Nat) => u c.params off n
     let held := fun (k : Nat) => s.kcp.images.find? (fun i => i.handle = k)
     act 0x0105 ∧ s.loads c = false ∧ held (p 0 2) = some img ∧ b 2 < 24 ∧ s.neState (b 2) = neStopped ∧ (s.eng (b 2)).load = none) ∧
    (let c := tKc 0x0105 ([3, 0, 23])
     let s := (fun s => s.mapEng 23 fun e => { e with load := some ⟨[], 1, 9, false⟩ }) (tKs c [])
     let act := tGo s c 1
     act 0x0105 ∧ s.loads c = true) ∧
    (let c := tKc 0x0106 ([23, 1])
     let s := tKs c ([(A.NE_STATUS 23, (fput F.NE_STATUS.LOADED (fput F.NE_STATUS.STATE 0 neStopped) 1).toNat)])
     let act := tGo s c 1
     let b := fun (k : Nat) => byteAt c.params k
     let W := fun (ws : List (Nat × Nat)) => s.trvWrites 0 ws
     let d := b 0
     let w := W [(A.NE_CTRL d, (fput F.NE_CTRL.RUN (s.rd (A.NE_CTRL d)) (b 1)).toNat)]
     act 0x0106 ∧ d < 24 ∧ b 1 ≤ 1 ∧ w.2 = none) ∧
    (let c := tKc 0x0107 ([23])
     let s := tKs c []
     let act := tGo s c 1
     let b := fun (k : Nat) => byteAt c.params k
     let d := b 0
     act 0x0107 ∧ d < 24) ∧
    (let c := tKc 0x0108 ([23])
     let s := tKs c []
     let act := tGo s c 1
     let b := fun (k : Nat) => byteAt c.params k
     let R := fun (as : List Nat) => s.trvReads 0 as
     let d := b 0
     let r := R [A.NE_STATUS d, A.NE_RECIPE d, A.NE_FAULT d, A.NE_EVT_DONE d, A.NE_EVT_DROP d, A.NE_EVT_MERGE d, A.NE_RX_DROP d, A.NE_ECC_CORR d,
       A.NE_INL_BADFCS d, A.NE_INL_UNDERRUN d, A.NE_INL_DISC d, A.NE_INL_PASS d]
     act 0x0108 ∧ d < 24 ∧ r.2.bad = none) ∧
    (let c := tKc 0x0109 ([23])
     let s := tKs c ([(A.NE_STATUS 23, (fput F.NE_STATUS.STATE 0 neRunning).toNat)])
     let act := tGo s c 1
     let b := fun (k : Nat) => byteAt c.params k
     let d := b 0
     let idleEng := s.neState d = neStopped ∧ s.flag (A.NE_STATUS d) F.NE_STATUS.LOADED = true
     act 0x0109 ∧ d < 24 ∧ ¬ idleEng) ∧
    (let c := tKc 0x0B01 (List.replicate 140 1)
     let s := tKs c []
     let act := tGo s c 1
     act 0x0B01) ∧
    (let c := tKc 0x0B02 ([4])
     let s := tKs c ([(A.SEC_LC, (fput F.SEC_LC.STATE 0 4).toNat)])
     let act := tGo s c 1
     let b := fun (k : Nat) => byteAt c.params k
     let d := b 0
     act 0x0B02 ∧ s.lcWord d = none) ∧
    (let c := tKc 1 ([2])
     let s := tKs c ([(A.SEC_LC, (fput F.SEC_LC.STATE 0 1).toNat)])
     let b := fun (k : Nat) => byteAt c.params k
     let d := b 0
     s.lc = 1 ∧ d = 2) ∧
    (let c := tKc 1 ([1])
     let s := tKs c ([(A.SEC_LC, (fput F.SEC_LC.STATE 0 2).toNat)])
     let b := fun (k : Nat) => byteAt c.params k
     let d := b 0
     s.lc = 2 ∧ d = 1) ∧
    (let c := tKc 0x0B03 ([10, 0xFF])
     let s := tKs c []
     let code : Nat := 5
     let data : List Byte := leBytes 4 0
     let act := tGo s c 1
     act 0x0B03 ∧ s.keyLoad c = .error (code, data) ∧ code ≠ 0xB) ∧
    (let c := tKc 0x0B03 ([0xFE, 1])
     let s := tKs c []
     let ws : List (Nat × Nat) := [(67, 1)]
     let act := tGo s c 1
     act 0x0B03 ∧ s.keyLoad c = .ok ws) ∧
    (let c := { tKc 0x0B03 [] with committed := true }
     let s := tKs c []
     let tag : BitVec 16 := 9
     let tr : Fin 6 := 1
     let went := fun (op : Nat) => s.kcmd tr tag.toNat = some c ∧ c.op = op ∧ c.started = true ∧ s.trivetLost = false ∧ c.committed = true
     went 0x0B03 ∧ s.sec.jobs = []) ∧
    (let c := { tKc 0x0B03 [] with committed := true }
     let s := (fun s => { s with sec := { s.sec with jobs := [⟨1, 2, false⟩] } }) (tKs c [])
     let tag : BitVec 16 := 9
     let tr : Fin 6 := 1
     let went := fun (op : Nat) => s.kcmd tr tag.toNat = some c ∧ c.op = op ∧ c.started = true ∧ s.trivetLost = false ∧ c.committed = true
     went 0x0B03 ∧ s.sec.jobs ≠ []) ∧
    (let c := tKc 0x0B04 (7 :: List.replicate 8 1)
     let s := tKs c []
     let act := tGo s c 1
     let b := fun (k : Nat) => byteAt c.params k
     let p := fun (off n : Nat) => u c.params off n
     let W := fun (ws : List (Nat × Nat)) => s.trvWrites 0 ws
     let d := b 0
     let w := W [(A.VAULT_DEL_CFG d, p 5 4), (A.VAULT_DEL_BASE d, p 1 4)]
     act 0x0B04 ∧ d < 8 ∧ w.2 = none) ∧
    (let c := tKc 0x0B05 (List.replicate 140 1)
     let s := tKs c []
     let act := tGo s c 1
     act 0x0B05) ∧
    (let c := tKc 0x0B06 ([2] ++ leBytes 4 5)
     let s := (fun s => { s with sec := { s.sec with voted := [(116, 5)] } }) (tKs c [])
     let act := tGo s c 1
     let b := fun (k : Nat) => byteAt c.params k
     let p := fun (off n : Nat) => u c.params off n
     let d := b 0
     let roll := s.rollback d
     act 0x0B06 ∧ d < 3 ∧ p 1 4 = roll) ∧
    (let c := tKc 0x0B06 ([2] ++ leBytes 4 4)
     let s := (fun s => { s with sec := { s.sec with voted := [(116, 5)] } }) (tKs c [])
     let act := tGo s c 1
     let b := fun (k : Nat) => byteAt c.params k
     let p := fun (off n : Nat) => u c.params off n
     let d := b 0
     let roll := s.rollback d
     let rollOk := roll < p 1 4 ∧ ((s.runningRolls d).any fun r => decide (r < p 1 4)) = false
     act 0x0B06 ∧ d < 3 ∧ p 1 4 ≠ roll ∧ ¬ rollOk) ∧
    (let c := tKc 0x0B06 ([2] ++ leBytes 4 6)
     let s := (fun s => { s with sec := { s.sec with voted := (List.range 8).map fun k => (116 + k, 5) } }) (tKs c [])
     let act := tGo s c 1
     let b := fun (k : Nat) => byteAt c.params k
     let p := fun (off n : Nat) => u c.params off n
     let d := b 0
     let roll := s.rollback d
     let rollOk := roll < p 1 4 ∧ ((s.runningRolls d).any fun r => decide (r < p 1 4)) = false
     let rollWord := (List.range 8).find? fun i => (s.fuse (100 + 8 * d + i)).isNone
     act 0x0B06 ∧ d < 3 ∧ rollOk ∧ rollWord = none) ∧
    (let c := tKc 0x0B06 ([2] ++ leBytes 4 6)
     let s := (fun s => { s with sec := { s.sec with voted := [(116, 5)] } }) (tKs c [])
     let k : Nat := 1
     let act := tGo s c 1
     let b := fun (k : Nat) => byteAt c.params k
     let p := fun (off n : Nat) => u c.params off n
     let d := b 0
     let roll := s.rollback d
     let rollOk := roll < p 1 4 ∧ ((s.runningRolls d).any fun r => decide (r < p 1 4)) = false
     let rollWord := (List.range 8).find? fun i => (s.fuse (100 + 8 * d + i)).isNone
     act 0x0B06 ∧ d < 3 ∧ rollOk ∧ rollWord = some k ∧ s.fld A.PWR_RAIL F.PWR_RAIL.GOOD = 0xFFF) ∧
    (let c := tKc 0x0B06 ([2] ++ leBytes 4 6)
     let s := (fun s => { s with sec := { s.sec with voted := [(116, 5)] } }) (tKs c ([(A.PWR_RAIL, 0xFFE)]))
     let k : Nat := 1
     let act := tGo s c 1
     let b := fun (k : Nat) => byteAt c.params k
     let p := fun (off n : Nat) => u c.params off n
     let d := b 0
     let roll := s.rollback d
     let rollOk := roll < p 1 4 ∧ ((s.runningRolls d).any fun r => decide (r < p 1 4)) = false
     let rollWord := (List.range 8).find? fun i => (s.fuse (100 + 8 * d + i)).isNone
     act 0x0B06 ∧ d < 3 ∧ rollOk ∧ rollWord = some k ∧ s.fld A.PWR_RAIL F.PWR_RAIL.GOOD ≠ 0xFFF) ∧
    (let c := { tKc 0x0B06 [] with committed := true }
     let s := tKs c []
     let tag : BitVec 16 := 9
     let tr : Fin 6 := 1
     let went := fun (op : Nat) => s.kcmd tr tag.toNat = some c ∧ c.op = op ∧ c.started = true ∧ s.trivetLost = false ∧ c.committed = true
     went 0x0B06 ∧ s.sec.jobs = []) ∧
    (let c := tKc 0x0B07 ([1])
     let s := tKs c []
     let act := tGo s c 1
     let b := fun (k : Nat) => byteAt c.params k
     let W := fun (ws : List (Nat × Nat)) => s.trvWrites 0 ws
     let d := b 0
     let w := W [(A.SYS_BOOT, d)]
     act 0x0B07 ∧ d < 2 ∧ w.2 = none) ∧
    (let c := tKc 0x0B08 ([3])
     let s := tKs c []
     let act := tGo s c 1
     let b := fun (k : Nat) => byteAt c.params k
     let d := b 0
     let idle := (d % 2 = 0 ∨ s.chgOf .k = .service) ∧ (d / 2 % 2 = 0 ∨ s.chgOf .p = .service)
     let closed := bitAt ((s.fuse 67).getD 0) 0
     act 0x0B08 ∧ d < 4 ∧ (s.lc ≠ 3 ∨ closed = true ∨ ¬ idle)) ∧
    (let c := tKc 1 ([])
     let s := tKs c []
     let tag : BitVec 16 := 8
     let tr : Fin 6 := 1
     (s.kcmd tr tag.toNat = none ∨ s.trivetLost = true)) := by
  and_intros <;> decide

/-- A fuse word that makes slot 4 a SAFETY slot of a part that is PROVISIONED, and a session that SAFETY came to by slot 4. -/
def tLc (lc : Nat) (c : KCmd) : State :=
  let s := tKs c [(A.SEC_LC, (fput F.SEC_LC.STATE 0 lc).toNat)]
  { s with sec := { s.sec with voted := [(128, 0x4B530002)] }, chg := { s.chg with k := { s.chg.k with st := .service }, p := { s.chg.p with st := .service } } }
def tNonce (held : Bool) (c : KCmd) : State :=
  let s := tLc 1 c
  { s with kcp := { s.kcp with sess := [(sessKey 1 0, { Session.opened 0 5 with nonce := some (5, 45000000000) }), (sessKey 5 1, { Session.opened 0 5 with safety := held })] } }
def tProof : List Byte := 4 :: (tNonce false (tKc 0 [])).cmac 4 (leBytes 16 5 ++ leBytes 1 1 ++ leBytes 2 0)
theorem tMac_length (s : State) (k : Nat) (bs : List Byte) : (s.cmac k bs).length = 16 := by simp [State.cmac, beBytes, leBytes]
theorem tMac_eq {s t : State} {j k : Nat} {as bs : List Byte} (h : s.keyWords j = t.keyWords k) (e : as = bs) : s.cmac j as = t.cmac k bs :=
  congrArg (beBytes 16) (congrArg₂ cmac256 h e)
theorem tMac_slice (s : State) (k : Nat) (x : Byte) (bs : List Byte) : slice (x :: s.cmac k bs) 1 16 = s.cmac k bs := by
  simp [slice, ← tMac_length s k bs]
theorem tMac_drop (s : State) (k : Nat) (x : Byte) (bs : List Byte) : s.cmac k bs = (x :: s.cmac k bs).drop 1 := rfl
theorem tMac_ne (s : State) (k : Nat) (x : Byte) (bs : List Byte) : s.cmac k bs ≠ slice [x] 1 16 := fun h => by
  have := congrArg List.length h
  rw [tMac_length] at this
  exact absurd this (by simp [slice])
theorem wit_KcpGeneralEffects_proof :
    (let c := tKc 0x000A tProof
     let s := tNonce false c
     s.session 1 c.sess = some { Session.opened 0 5 with nonce := some (5, 45000000000) } ∧ s.slotSafety (byteAt c.params 0) = true ∧
       s.now ≤ 45000000000 + 5000000000 ∧ s.roleHeld 1 c.sess = false) ∧
    (let c := tKc 0x000A tProof
     let s := tNonce false c
     tGo s c 1 0x000A ∧ s.cmac (byteAt c.params 0) (leBytes 16 5 ++ leBytes 1 1 ++ leBytes 2 c.sess) = c.params.drop 1) ∧
    (let s := tNonce true (tKc 0x000A tProof)
     s.slotSafety 4 = true ∧ s.roleHeld 1 0 = true) := by
  exact ⟨by decide, ⟨⟨rfl, rfl, rfl, rfl, rfl, by decide⟩, (tMac_eq (by decide) (by decide)).trans (tMac_drop _ _ 4 _)⟩, by decide⟩
def tAuth : List Byte := 2 :: (tLc 1 (tKc 0 [])).cmac 4 (leBytes 1 2 ++ (tLc 1 (tKc 0 [])).uid ++ leBytes 2 0)
def tToken : List Byte := 3 :: (tLc 3 (tKc 0 [])).cmac 4 ((tLc 3 (tKc 0 [])).uid ++ leBytes 2 0 ++ leBytes 1 3)
theorem wit_KcpImageSecurityEffects_macs :
    (let c := tKc 0x0B02 tAuth
     let s := tLc 1 c
     tGo s c 1 0x0B02 ∧ s.lcWord (byteAt c.params 0) = some (65, 0x4C430002) ∧
       s.cmac (((s.session 1 c.sess).map fun x => x.proved).getD 0) (leBytes 1 (byteAt c.params 0) ++ s.uid ++ leBytes 2 s.svcUsed) = slice c.params 1 16) ∧
    (let c := tKc 0x0B02 [2]
     let s := tLc 1 c
     tGo s c 1 0x0B02 ∧ s.lcWord (byteAt c.params 0) = some (65, 0x4C430002) ∧
       s.cmac (((s.session 1 c.sess).map fun x => x.proved).getD 0) (leBytes 1 (byteAt c.params 0) ++ s.uid ++ leBytes 2 s.svcUsed) ≠ slice c.params 1 16) ∧
    (let c := tKc 0x0B08 tToken
     let s := tLc 3 c
     tGo s c 1 0x0B08 ∧ s.lc = 3 ∧ bitAt ((s.fuse 67).getD 0) 0 = false ∧ s.chgOf .k = .service ∧ s.chgOf .p = .service ∧
       s.cmac (((s.session 1 c.sess).map fun x => x.proved).getD 0) (s.uid ++ leBytes 2 s.svcUsed ++ leBytes 1 (byteAt c.params 0)) = slice c.params 1 16) ∧
    (let c := tKc 0x0B08 [3]
     let s := tLc 3 c
     tGo s c 1 0x0B08 ∧ s.lc = 3 ∧ bitAt ((s.fuse 67).getD 0) 0 = false ∧ s.chgOf .k = .service ∧ s.chgOf .p = .service ∧
       s.cmac (((s.session 1 c.sess).map fun x => x.proved).getD 0) (s.uid ++ leBytes 2 s.svcUsed ++ leBytes 1 (byteAt c.params 0)) ≠ slice c.params 1 16) := by
  refine ⟨⟨⟨rfl, rfl, rfl, rfl, rfl, by decide⟩, by decide, ?_⟩, ⟨by decide, by decide, tMac_ne _ _ 2 _⟩, ⟨⟨rfl, rfl, rfl, rfl, rfl, by decide⟩, ?_⟩, ?_⟩
  · exact (tMac_eq (by decide) (by decide)).trans (tMac_slice _ _ 2 _).symm
  · exact ⟨by decide, by decide, by decide, by decide, (tMac_eq (by decide) (by decide)).trans (tMac_slice _ _ 3 _).symm⟩
  · exact ⟨by decide, by decide, by decide, by decide, by decide, tMac_ne _ _ 3 _⟩
theorem wit_kcp_profile_and_register_write :
    (let s := tKs (tKc 0x0109 [23]) [(A.NE_STATUS 23, (fput F.NE_STATUS.LOADED (fput F.NE_STATUS.STATE 0 neStopped) 1).toNat)]
     tGo s (tKc 0x0109 [23]) 1 0x0109 ∧ s.neState 23 = neStopped ∧ s.flag (A.NE_STATUS 23) F.NE_STATUS.LOADED = true) ∧
    (let c := tKc 0x0004 (leBytes 8 0x10200000 ++ leBytes 4 2 ++ List.replicate 8 1)
     let s := tKs c [(A.SEC_LC, (fput F.SEC_LC.STATE 0 3).toNat)]
     tGo s c 1 0x0004 ∧ s.lc = 3 ∧ setsColEn c.params = false ∧ s.runWaits (u c.params 0 8) (4 * u c.params 8 4) = false) := by
  refine ⟨?_, ?_⟩ <;> decide

/-- A state with reset sources asserted and a stage of the release sequence. -/
def tSrc (asserted : Nat) (st : Stage) (ws : List (Nat × Nat)) : State :=
  let s := tRun ws
  { s with rst := { s.rst with asserted := asserted, stage := st } }
def tHeld (s : State) : State := { s with rst := { s.rst with p := { s.rst.p with phase := .held } } }
theorem wit_ResetSourceEffects :
    (let s : State := tSrc 8 .done []
     let i : Fin 23 := 3
     s.asserted i = true) ∧
    (let s : State := tSrc 0 .done []
     let i : Fin 23 := 22
     let fresh := s.asserted i = false
     fresh) ∧
    (let s : State := tSrc 0 .done []
     let i : Fin 23 := 0
     let lvl := s.srcLevel i
     let fresh := s.asserted i = false
     fresh ∧ lvl ≤ 1) ∧
    (let s : State := tSrc 0 .done []
     let i : Fin 23 := 0
     let a : Nat := A.CLK_STATUS
     let lvl := s.srcLevel i
     let fresh := s.asserted i = false
     fresh ∧ lvl = 0 ∧ a ≠ A.PWR_RAIL ∧ a ≠ A.PWR_TEMP) ∧
    (let s : State := tSrc 0 .done []
     let i : Fin 23 := 13
     let k : Nat := 2
     let lvl := s.srcLevel i
     let fresh := s.asserted i = false
     fresh ∧ lvl = 1 ∧ k < 3) ∧
    (let s : State := tSrc 0 .done []
     let h : Half := .p
     let i : Fin 23 := 4
     let lvl := s.srcLevel i
     let fresh := s.asserted i = false
     fresh ∧ lvl = 2 ∧ srcReaches i h = true) ∧
    (let s : State := tSrc 0 .done []
     let h : Half := .p
     let i : Fin 23 := 3
     let lvl := s.srcLevel i
     let fresh := s.asserted i = false
     fresh ∧ lvl = 2 ∧ srcReaches i h = false) ∧
    (let s : State := tSrc 0 .done []
     let i : Fin 23 := 22
     let lvl := s.srcLevel i
     let fresh := s.asserted i = false
     fresh ∧ lvl = 7) ∧
    (let s : State := tSrc 0 .done []
     let i : Fin 23 := 3
     s.asserted i = false) ∧
    (let s : State := tSrc 8 .done []
     let i : Fin 23 := 3
     s.asserted i = true) ∧
    (let s : State := tSrc 8 .done []
     let i : Fin 23 := 3
     s.asserted i = true ∧ s.rst.stage = .done) ∧
    (let s : State := tSrc 0x2000 .held []
     let i : Fin 23 := 13
     let o := s.releaseSource i
     s.asserted i = true ∧ s.rst.stage = .held ∧ o.chipHeld = false) ∧
    (let s : State := tSrc 0x2001 .held []
     let i : Fin 23 := 13
     let o := s.releaseSource i
     s.asserted i = true ∧ s.rst.stage = .held ∧ o.chipHeld = true) ∧
    (let s : State := tSrc 0 .done []
     let i : Fin 23 := 22
     i.val ≠ 19) ∧
    (let s : State := tSrc 0 .done []
     let i : Fin 23 := 19
     i.val = 19) ∧
    (let s : State := tSrc 0 .done []
     s.reaches trivet A.RST_RELEASE true) ∧
    (let s : State := tSrc 0 .done [(A.PWR_EN, 0)]
     let r : Fin 12 := 11
     let masked := (match railEn r with | some b => !bitAt (s.fld A.PWR_EN F.PWR_EN.PWREN) b | none => false) = true
     masked) ∧
    (let s : State := tSrc 0 .done []
     let r : Fin 12 := 11
     let masked := (match railEn r with | some b => !bitAt (s.fld A.PWR_EN F.PWR_EN.PWREN) b | none => false) = true
     ¬ masked) ∧
    (let s : State := tSrc 0 .done [(A.PWR_RAIL, 0xFFF)]
     let i : Fin 23 := 0
     let r : Fin 12 := 11
     let t := s.assertSource i
     let masked := (match railEn r with | some b => !bitAt (s.fld A.PWR_EN F.PWR_EN.PWREN) b | none => false) = true
     let good := fun (t : State) => bitAt (t.fld A.PWR_RAIL F.PWR_RAIL.GOOD) r
     ¬ masked ∧ good s = true) ∧
    (let s : State := tSrc 0 .done [(A.PWR_RAIL, 0x7FF)]
     let i : Fin 23 := 0
     let r : Fin 12 := 11
     let t := s.assertSource i
     let masked := (match railEn r with | some b => !bitAt (s.fld A.PWR_EN F.PWR_EN.PWREN) b | none => false) = true
     let good := fun (t : State) => bitAt (t.fld A.PWR_RAIL F.PWR_RAIL.GOOD) r
     ¬ masked ∧ good s = false) ∧
    (let s : State := tSrc 0 .done []
     let mv : Nat := 499
     mv < 500) ∧
    (let s : State := tSrc 0 .done []
     let bank : Fin 10 := 9
     let mv : Nat := 1001
     let classOf := storeFind s.pins.classes bank.val
     1000 < mv ∧ classOf = none) ∧
    (let s : State := tSrc 0 .done []
     let bank : Fin 10 := 9
     let mv : Nat := 1000
     let classOf := storeFind s.pins.classes bank.val
     500 ≤ mv ∧ (mv ≤ 1000 ∨ classOf ≠ none)) ∧
    (let s : State := tSrc 0 .done []
     let h : Half := .p
     s.running h = true) ∧
    (let s : State := tSrc 0 .done []
     let h : Half := .p
     let common := 2 ≤ s.fld A.SYS_STRAP F.SYS_STRAP.CLKMODE
     s.running h = true ∧ ¬ common) ∧
    (let s : State := tHeld (tSrc 0 .done [])
     let h : Half := .p
     s.running h = false) ∧
    (let s : State := tHeld (tSrc 0 .done [])
     let h : Half := .p
     let common := 2 ≤ s.fld A.SYS_STRAP F.SYS_STRAP.CLKMODE
     s.running h = false ∧ ¬ common) ∧
    (let s : State := tSrc 0 .done [(A.SYS_STRAP, (fput F.SYS_STRAP.CLKMODE 0 2).toNat)]
     let common := 2 ≤ s.fld A.SYS_STRAP F.SYS_STRAP.CLKMODE
     common) ∧
    (let s : State := tSrc 0 .done [(A.SYS_STRAP, (fput F.SYS_STRAP.CLKMODE 0 2).toNat)]
     let common := 2 ≤ s.fld A.SYS_STRAP F.SYS_STRAP.CLKMODE
     common ∧ s.running .k = true) ∧
    (let s : State := tSrc 0 .done [(A.GAUGE_REF, (fput F.GAUGE_REF.K_OK (fput F.GAUGE_REF.P_OK 0 1) 1).toNat)]
     let dk : BitVec 16 := 601
     let dp : BitVec 16 := 64935
     let kOk := s.flag A.GAUGE_REF F.GAUGE_REF.K_OK
     let pOk := s.flag A.GAUGE_REF F.GAUGE_REF.P_OK
     let far := fun (d : BitVec 16) => 600 < (signedOf 16 d.toNat).natAbs
     (kOk = true ∨ pOk = true) ∧ (kOk = false ∨ far dk) ∧ (pOk = false ∨ far dp)) ∧
    (let s : State := tSrc 0 .done [(A.GAUGE_REF, (fput F.GAUGE_REF.K_OK (fput F.GAUGE_REF.P_OK 0 1) 1).toNat)]
     let dk : BitVec 16 := 600
     let dp : BitVec 16 := 601
     let kOk := s.flag A.GAUGE_REF F.GAUGE_REF.K_OK
     let pOk := s.flag A.GAUGE_REF F.GAUGE_REF.P_OK
     let far := fun (d : BitVec 16) => 600 < (signedOf 16 d.toNat).natAbs
     ((kOk = true ∧ ¬ far dk) ∨ (pOk = true ∧ ¬ far dp))) ∧
    (let s : State := tSrc 0 .done []
     let kOk := s.flag A.GAUGE_REF F.GAUGE_REF.K_OK
     let pOk := s.flag A.GAUGE_REF F.GAUGE_REF.P_OK
     kOk = false ∧ pOk = false) ∧
    (let s : State := tSrc 0 .done []
     let m : Byte := 1
     s.reaches m.toNat A.PWR_TEMP true) ∧
    (let s : State := tSrc 0 .done [(A.WAKE_AON_STATUS, (fput F.WAKE_AON_STATUS.XTAL_ON 0 1).toNat)]
     s.flag A.WAKE_AON_STATUS F.WAKE_AON_STATUS.XTAL_ON = true) ∧
    (let s : State := tSrc 0 .done [(A.WAKE_AON_STATUS, 0)]
     s.flag A.WAKE_AON_STATUS F.WAKE_AON_STATUS.XTAL_ON = false) ∧
    (let s : State := tSrc 0 .done []
     let m : Byte := 1
     s.reaches m.toNat A.SYS_MODE true) ∧
    (let s : State := tSrc 0 .done []
     let m : Byte := 2
     s.reaches m.toNat A.SYS_FLT_RSEQ true) := by
  and_intros <;> decide
theorem wit_ReleaseAndBootEffects :
    (let s : State := tSrc 0 .done []
     s.rst.stage ≠ .fuses) ∧
    (let s : State := tSrc 0 .fuses []
     let l := s.voteAll
     s.rst.stage = .fuses ∧ l.failed = none) ∧
    (let s : State := { tSrc 0 .fuses [] with sec := { (tSrc 0 .fuses []).sec with array := [] } }
     let w : Nat := 0
     let l := s.voteAll
     s.rst.stage = .fuses ∧ l.failed = some w ∧ w < 512) ∧
    (let s : State := { tSrc 0 .rom [] with rawOn := true }
     s.rst.stage = .rom ∧ s.rawOn = true) ∧
    (let s : State := tSrc 0 .done []
     (s.rst.stage ≠ .rom ∨ s.rawOn = false)) ∧
    (let s : State := { tSrc 0 .done [] with rst := { (tSrc 0 .done []).rst with p := { (tSrc 0 .done []).rst.p with phase := .releasing } } }
     let h : Half := .p
     let run := (s.hrst h).phase = .releasing ∧ s.halfHeld h = false
     run) ∧
    (let s : State := tSrc 0 .done []
     let h : Half := .p
     let run := (s.hrst h).phase = .releasing ∧ s.halfHeld h = false
     ¬ run) ∧
    (let s : State := tSrc 0 .done [(A.SEC_LC, (fput F.SEC_LC.STATE 0 1).toNat), (A.SYS_BOOT, 1)]
     let h : Half := .p
     let slotA : Bool := false
     let slotB : Bool := true
     let src := s.fld A.SYS_BOOT F.SYS_BOOT.SRC
     let may := s.lc ≠ 0 ∧ s.lc ≠ 4
     let one := may ∧ (if src = 0 then slotA else slotB) = true
     s.running h = true ∧ src ≤ 1 ∧ one) ∧
    (let s : State := tSrc 0 .done [(A.SEC_LC, (fput F.SEC_LC.STATE 0 3).toNat), (A.SYS_BOOT, 0)]
     let h : Half := .p
     let slotA : Bool := false
     let slotB : Bool := true
     let src := s.fld A.SYS_BOOT F.SYS_BOOT.SRC
     let may := s.lc ≠ 0 ∧ s.lc ≠ 4
     let one := may ∧ (if src = 0 then slotA else slotB) = true
     let two := may ∧ (if src = 0 then slotB else slotA) = true
     s.running h = true ∧ src ≤ 1 ∧ ¬ one ∧ two) ∧
    (let s : State := tSrc 0 .done [(A.SEC_LC, (fput F.SEC_LC.STATE 0 4).toNat), (A.SYS_BOOT, 0)]
     let h : Half := .p
     let slotA : Bool := true
     let slotB : Bool := true
     let src := s.fld A.SYS_BOOT F.SYS_BOOT.SRC
     let may := s.lc ≠ 0 ∧ s.lc ≠ 4
     let one := may ∧ (if src = 0 then slotA else slotB) = true
     let two := may ∧ (if src = 0 then slotB else slotA) = true
     s.running h = true ∧ src ≤ 1 ∧ ¬ one ∧ ¬ two) ∧
    (let s : State := tSrc 0 .done [(A.SEC_LC, (fput F.SEC_LC.STATE 0 1).toNat), (A.SYS_BOOT, 2)]
     let h : Half := .p
     let src := s.fld A.SYS_BOOT F.SYS_BOOT.SRC
     s.running h = true ∧ 2 ≤ src) ∧
    (let s : State := tHeld (tSrc 0 .done [])
     let h : Half := .p
     s.running h = false) ∧
    (let s : State := tSrc 0 .done []
     s.sec.jobs = []) ∧
    (let s : State := { tSrc 0 .done [] with sec := { (tSrc 0 .done []).sec with jobs := [⟨70, 99, false⟩] } }
     let j : FuseJob := ⟨70, 99, false⟩
     let rest : List FuseJob := []
     s.sec.jobs = j :: rest ∧ j.lifecycle = false) ∧
    (let s : State := { tSrc 0 .done [] with sec := { (tSrc 0 .done []).sec with jobs := [⟨65, 0x4C430002, true⟩] } }
     let j : FuseJob := ⟨65, 0x4C430002, true⟩
     let rest : List FuseJob := []
     s.sec.jobs = j :: rest ∧ j.lifecycle = true) ∧
    (let s : State := { tSrc 0 .done [] with rst := { (tSrc 0 .done []).rst with kcp := [⟨4, 6, 23⟩] } }
     let level : Byte := 4
     let target : Byte := 6
     let index : Byte := 23
     let kr : KReset := ⟨level.toNat, target.toNat, index.toNat⟩
     s.rst.kcp.contains kr = true) ∧
    (let s : State := tSrc 0 .done []
     let level : Byte := 4
     let target : Byte := 6
     let index : Byte := 23
     let kr : KReset := ⟨level.toNat, target.toNat, index.toNat⟩
     s.rst.kcp.contains kr = false) ∧
    (let s : State := tSrc 0 .done []
     let h : Half := .p
     let tr : Fin 6 := 1
     let mine := trHalf tr = some h
     mine ∧ s.running h = true ∧ tr.val ≤ 1) ∧
    (let s : State := tSrc 0 .done [(A.QH_CFG 1, (fput F.QH_CFG.EN 0 1).toNat)]
     let h : Half := .p
     let tr : Fin 6 := 3
     let mine := trHalf tr = some h
     let holds := s.running h = true ∧ (if tr.val = 4 then s.mode6412 else s.flag (A.QH_CFG h.n) F.QH_CFG.EN) = true
     mine ∧ s.running h = true ∧ 2 ≤ tr.val ∧ holds) ∧
    (let s : State := tSrc 0 .done [(A.QH_CFG 1, 0)]
     let h : Half := .p
     let tr : Fin 6 := 3
     let mine := trHalf tr = some h
     let holds := s.running h = true ∧ (if tr.val = 4 then s.mode6412 else s.flag (A.QH_CFG h.n) F.QH_CFG.EN) = true
     mine ∧ s.running h = true ∧ 2 ≤ tr.val ∧ ¬ holds) ∧
    (let s : State := tSrc 0 .done []
     let h : Half := .p
     let tr : Fin 6 := 5
     let mine := trHalf tr = some h
     (tr.val = 5 ∨ (mine ∧ s.running h = false))) ∧
    (let s : State := (tSrc 0 .done []).putTport 1 ⟨true, 0, 0⟩
     let h : Half := .p
     let tr : Fin 6 := 1
     let mine := trHalf tr = some h
     let holds := s.running h = true ∧ (if tr.val = 4 then s.mode6412 else s.flag (A.QH_CFG h.n) F.QH_CFG.EN) = true
     mine ∧ (s.tport tr).up = true ∧ (tr.val ≤ 1 ∨ ¬ holds)) ∧
    (let s : State := tSrc 0 .done [(A.QH_CFG 1, (fput F.QH_CFG.EN 0 1).toNat)]
     let h : Half := .p
     let tr : Fin 6 := 3
     let mine := trHalf tr = some h
     let holds := s.running h = true ∧ (if tr.val = 4 then s.mode6412 else s.flag (A.QH_CFG h.n) F.QH_CFG.EN) = true
     (tr.val = 5 ∨ (mine ∧ 2 ≤ tr.val ∧ holds))) := by
  and_intros <;> decide +kernel

theorem wit_StepRunsCommand : State.reset.pending = [] := rfl
theorem wit_ResetState : 0 ≠ A.PWR_RAIL := by decide
theorem wit_EveryCommandKeepsSoundness : State.reset.sound = true ∧ (tRun []).sound = true := by decide

/-! ### Small tests of one step -/

/-- On an empty queue a tick passes; at reset the raw counter does not run (R403). -/
theorem test_step_idle : (match step State.reset with | .next t => t.now == 1 && t.raw == 0 | _ => false) = true := by decide
/-- The command at the front runs, and the rest waits. -/
theorem test_step_runs_front : (match step ((tRun []).front (.vddioClassSet 3 1800)) with | .next t => t.pins.classes == [(3, 1)] && t.pending == [] | _ => false) = true := by decide
/-- No row of the table gives bits. -/
theorem test_no_word_spells_a_command : decodeTableWord 8 0 = none ∧ (State.reset.withFetchWord 8 0).pending = [] := by decide
/-- CRC-32C of the digits 1 to 9, the check value that its definition gives (R636). -/
theorem test_crc32c : crc32c [0x31, 0x32, 0x33, 0x34, 0x35, 0x36, 0x37, 0x38, 0x39] = 0xE3069283 := by decide

end Sys2Proof.Tests
end

section
/-! What a write leaves in a register, bit by bit (Table 0.2, R10 to R16, R810, R811), and what the clock of a refused write
leaves there. -/

namespace Sys2Proof.Machine
open Sys2Proof

/-! ### Bits of a field -/

/-- The bits of a word after a field has been put into it. -/
theorem getLsbD_fput (f : Fld) (w : Word) (v q : Nat) (hf : f.lo ≤ f.hi ∧ f.hi < 32) :
    (fput f w v).getLsbD q = if f.lo ≤ q ∧ q ≤ f.hi then v.testBit (q - f.lo) else w.getLsbD q := by
  have hlow : w.toNat % 2 ^ f.lo < 2 ^ f.lo := Nat.mod_lt _ (by positivity)
  have hpow : (2 : Nat) ^ (f.hi + 1) = 2 ^ f.lo * 2 ^ fldWidth f := by
    rw [← pow_add]; congr 1; simp only [fldWidth]; omega
  have hmid : 2 ^ f.lo * (v % 2 ^ fldWidth f) + w.toNat % 2 ^ f.lo < 2 ^ (f.hi + 1) := by
    have := Nat.mod_lt v (show 0 < 2 ^ fldWidth f by positivity)
    calc _ < 2 ^ f.lo * (v % 2 ^ fldWidth f + 1) := by rw [Nat.mul_succ]; omega
      _ ≤ _ := by rw [hpow]; exact Nat.mul_le_mul_left _ this
  have hsum : (fput f w v).toNat =
      2 ^ (f.hi + 1) * (w.toNat / 2 ^ (f.hi + 1)) + (2 ^ f.lo * (v % 2 ^ fldWidth f) + w.toNat % 2 ^ f.lo) := by
    rw [fput_toNat f w v hf]; ring
  have hwid : fldWidth f = f.hi + 1 - f.lo := rfl
  rw [← BitVec.testBit_toNat, ← BitVec.testBit_toNat, hsum, Nat.testBit_two_pow_mul_add _ hmid,
    Nat.testBit_two_pow_mul_add _ hlow]
  simp only [Nat.testBit_mod_two_pow, Nat.testBit_div_two_pow]
  by_cases hlo : q < f.lo
  · simp [hlo, show q < f.hi + 1 by omega, show ¬ f.lo ≤ q by omega]
  · by_cases hhi : q ≤ f.hi
    · simp [hlo, hhi, show q < f.hi + 1 by omega, show f.lo ≤ q by omega, show q - f.lo < fldWidth f by omega]
    · simp [hhi, show ¬ q < f.hi + 1 by omega, show q - (f.hi + 1) + (f.hi + 1) = q by omega]

/-- The bits of a field's value are the word's bits from `lo` on. -/
theorem testBit_fget (f : Fld) (w : Word) (i : Nat) :
    (fget f w).testBit i = (decide (i < fldWidth f) && w.getLsbD (f.lo + i)) := by
  rw [fget_eq, Nat.testBit_mod_two_pow, Nat.testBit_div_two_pow, BitVec.testBit_toNat, Nat.add_comm]

/-- A field of two words that agree on its bits has one value. -/
theorem fget_congr (f : Fld) (x y : Word) (h : ∀ q, f.lo ≤ q → q ≤ f.hi → x.getLsbD q = y.getLsbD q) :
    fget f x = fget f y := by
  refine Nat.eq_of_testBit_eq fun i => ?_
  rw [testBit_fget, testBit_fget]
  by_cases hi : i < fldWidth f
  · rw [h (f.lo + i) (by omega) (by simp only [fldWidth] at hi; omega)]
  · simp [hi]

/-! ### Bits of a written register (Table 0.2) -/

/-- What a bit of a field becomes when `new` is written over `old` (Table 0.2, R811). -/
def writtenBit (locked : Bool) (acc : Acc) (old new : Bool) : Bool :=
  match acc with
  | .rw | .trv => new
  | .rwl => if locked then old else new
  | .w1c => old && !new
  | .w1s => old || new
  | .ro | .wo => old

/-- One field's write changes the field's own bits, each by the field's access type, and no other bit. -/
theorem getLsbD_fieldWrite (locked : Bool) (new old : Word) (f : FieldDesc) (q : Nat) (hf : f.lo ≤ f.hi ∧ f.hi < 32) :
    (fieldWrite locked new old f).getLsbD q =
      if f.lo ≤ q ∧ q ≤ f.hi then writtenBit locked f.acc (old.getLsbD q) (new.getLsbD q) else old.getLsbD q := by
  have hput := fun v => getLsbD_fput ⟨f.hi, f.lo⟩ old v q hf
  by_cases hq : f.lo ≤ q ∧ q ≤ f.hi
  · have hwid : q - f.lo < fldWidth ⟨f.hi, f.lo⟩ := by simp only [fldWidth]; omega
    have hget := fun w : Word => testBit_fget ⟨f.hi, f.lo⟩ w (q - f.lo)
    simp only [hwid, decide_true, Bool.true_and, show f.lo + (q - f.lo) = q by omega] at hget
    simp only [hq, and_self, if_true] at hput ⊢
    cases hacc : f.acc with
    | rw | trv => simp [fieldWrite, writtenBit, hacc, hput, hget]
    | ro | wo => simp [fieldWrite, writtenBit, hacc]
    | rwl => cases locked <;> simp [fieldWrite, writtenBit, hacc, hput, hget]
    | w1s => simp [fieldWrite, writtenBit, hacc, hput, hget]
    | w1c =>
      have hlt : fget ⟨f.hi, f.lo⟩ new < 2 ^ fldWidth ⟨f.hi, f.lo⟩ := Nat.mod_lt _ (by positivity)
      simp [fieldWrite, writtenBit, hacc, hput, hget, Nat.sub_sub, Nat.add_comm 1,
        Nat.testBit_two_pow_sub_succ hlt, hwid]
  · simp only [hq, if_false] at hput ⊢
    unfold fieldWrite
    cases f.acc with
    | rwl => cases locked <;> simp [hput]
    | rw | trv | ro | wo | w1c | w1s => simp [hput]

/-- The fields of a list lie in a word, and no two of them share a bit. -/
abbrev fieldsApart (fs : List FieldDesc) : Prop :=
  (∀ f ∈ fs, f.lo ≤ f.hi ∧ f.hi < 32) ∧ fs.Pairwise fun f g => f.hi < g.lo ∨ g.hi < f.lo

/-- A bit that no field holds stays as it was. -/
theorem getLsbD_foldl_fieldWrite_outside (locked : Bool) (new : Word) (q : Nat) (fs : List FieldDesc) (old : Word)
    (hin : ∀ f ∈ fs, f.lo ≤ f.hi ∧ f.hi < 32) (hq : ∀ f ∈ fs, ¬ (f.lo ≤ q ∧ q ≤ f.hi)) :
    (fs.foldl (fieldWrite locked new) old).getLsbD q = old.getLsbD q := by
  induction fs generalizing old with
  | nil => rfl
  | cons g gs ih =>
    rw [List.forall_mem_cons] at hin hq
    rw [List.foldl_cons, ih _ hin.2 hq.2, getLsbD_fieldWrite locked new old g q hin.1, if_neg hq.1]

/-- A bit of a field takes what the field's access type says. -/
theorem getLsbD_foldl_fieldWrite_of_mem (locked : Bool) (new : Word) (q : Nat) (f : FieldDesc) (fs : List FieldDesc)
    (old : Word) (hfs : fieldsApart fs) (hf : f ∈ fs) (hq : f.lo ≤ q ∧ q ≤ f.hi) :
    (fs.foldl (fieldWrite locked new) old).getLsbD q = writtenBit locked f.acc (old.getLsbD q) (new.getLsbD q) := by
  induction fs generalizing old with
  | nil => cases hf
  | cons g gs ih =>
    obtain ⟨hin, hpw⟩ := hfs
    rw [List.forall_mem_cons] at hin
    rw [List.pairwise_cons] at hpw
    rw [List.foldl_cons]
    rcases List.mem_cons.1 hf with rfl | hf
    · rw [getLsbD_foldl_fieldWrite_outside locked new q gs _ hin.2 fun g hg hqg => ?_,
        getLsbD_fieldWrite locked new old f q hin.1, if_pos hq]
      have := hpw.1 g hg
      omega
    · rw [ih _ ⟨hin.2, hpw.2⟩ hf, getLsbD_fieldWrite locked new old g q hin.1, if_neg]
      have := hpw.1 f hf
      omega

/-! ### The register map -/

/-- In every register of a table the fields lie in the word and apart from each other. -/
def tabApart (tab : List RegDesc) : Bool := tab.all fun d => decide (fieldsApart d.fields)

/-- The tables of all blocks are of that kind. -/
theorem tabApart_regTabOf (a : Nat) : tabApart (regTabOf a) = true := by
  unfold regTabOf
  iterate 11 refine iteInduction (motive := fun tab => tabApart tab = true) (fun _ => by decide +kernel) fun _ => ?_
  refine iteInduction (motive := fun tab => tabApart tab = true) (fun _ => ?_) fun _ => rfl
  split <;> decide +kernel

/-- In every register of the map the fields lie in the word and apart from each other. -/
theorem fieldsApart_of_regDesc? {a : Nat} {d : RegDesc} (h : regDesc? a = some d) : fieldsApart d.fields :=
  of_decide_eq_true (List.all_eq_true.1 (tabApart_regTabOf a) d (List.mem_of_find?_eq_some h))

/-! ### What a written word leaves in a register of the map -/

section
variable {a : Nat} {d : RegDesc} (locked : Bool) (old new : Word) (hd : regDesc? a = some d)
include hd

/-- A bit of a field of a register takes what the field's access type says. -/
theorem getLsbD_descWrite_of_mem {f : FieldDesc} (hf : f ∈ d.fields) {q : Nat} (hq : f.lo ≤ q ∧ q ≤ f.hi) :
    (descWrite locked d old new).getLsbD q = writtenBit locked f.acc (old.getLsbD q) (new.getLsbD q) :=
  getLsbD_foldl_fieldWrite_of_mem locked new q f d.fields old (fieldsApart_of_regDesc? hd) hf hq

/-- A bit of no field of a register stays as it was (R12). -/
theorem getLsbD_descWrite_outside {q : Nat} (hq : ∀ f ∈ d.fields, ¬ (f.lo ≤ q ∧ q ≤ f.hi)) :
    (descWrite locked d old new).getLsbD q = old.getLsbD q :=
  getLsbD_foldl_fieldWrite_outside locked new q d.fields old (fieldsApart_of_regDesc? hd).1 hq

/-- A field whose access type takes the bits of `x` becomes the field of `x`. -/
theorem fget_descWrite_of_mem {f : FieldDesc} (hf : f ∈ d.fields) (x : Word)
    (hx : ∀ q, writtenBit locked f.acc (old.getLsbD q) (new.getLsbD q) = x.getLsbD q) :
    fget ⟨f.hi, f.lo⟩ (descWrite locked d old new) = fget ⟨f.hi, f.lo⟩ x :=
  fget_congr _ _ _ fun q hlo hhi => by rw [getLsbD_descWrite_of_mem locked old new hd hf ⟨hlo, hhi⟩, hx]

end

/-- Settles O14: each bit of a register belongs to one field at most, and that field's access type decides it. -/
theorem fieldAccessTypes : Obligations.FieldAccessTypes := by
  intro a d f locked old new
  refine ⟨fun ⟨hd, hf⟩ => ⟨fun hacc => ?_, fun hacc => ?_, fun hacc => ?_, fun hacc q _ hlo hhi => ?_, fun hacc q _ hlo hhi => ?_⟩,
    fun hd q _ hq => ?_⟩
  · refine fget_descWrite_of_mem locked old new hd hf new fun q => ?_
    rcases hacc with hacc | hacc <;> rw [hacc, writtenBit]
  · cases locked
    · exact fget_descWrite_of_mem false old new hd hf new fun q => by rw [hacc]; rfl
    · exact fget_descWrite_of_mem true old new hd hf old fun q => by rw [hacc]; rfl
  · refine fget_descWrite_of_mem locked old new hd hf old fun q => ?_
    rcases hacc with hacc | hacc <;> rw [hacc, writtenBit]
  · rw [getLsbD_descWrite_of_mem locked old new hd hf ⟨hlo, hhi⟩, hacc, writtenBit]
  · rw [getLsbD_descWrite_of_mem locked old new hd hf ⟨hlo, hhi⟩, hacc, writtenBit]
  · refine getLsbD_descWrite_outside locked old new hd fun f hf hin => ?_
    rw [List.any_eq_false] at hq
    exact hq f hf (by simpa using hin)

/-! ### A refused write in the clock in which hardware sets a bit (R15, R810)

WAKE_SRC holds TRV fields and the W1C bit MASKED. A hart's write of it is refused, and MASKED, which hardware sets in the same
clock, is set all the same: the state is that of the error response with one bit more. -/

/-- Both halves run; every register stands at its Reset value. -/
def halvesRun : State :=
  { State.reset with rst := { State.reset.rst with
      stage := .done
      k := { State.reset.rst.k with phase := .running }
      p := { State.reset.rst.p with phase := .running } } }

/-- The descriptor of WAKE_SRC. -/
def wakeSrcDesc : RegDesc :=
  ⟨"WAKE_SRC", A.WAKE_SRC 0, [(13, 0x4)],
    [⟨31, 31, .trv, 0x0, true⟩, ⟨30, 30, .w1c, 0x0, true⟩, ⟨25, 24, .trv, 0x3, true⟩, ⟨23, 16, .trv, 0x0, true⟩,
     ⟨15, 0, .trv, 0x0, true⟩]⟩

/-- Hardware sets MASKED in the clock of the access, which meets no error. -/
def setsMasked : BusEnv := { BusEnv.clean with hw := 2 ^ F.WAKE_SRC.MASKED.lo }

/-- Hart K0 writes WAKE_SRC 0 in that clock. -/
def afterRefusedWrite : State := halvesRun.busAccess 2 (A.WAKE_SRC 0) 4 true (leBytes 4 0) setsMasked

/-- The write is refused, and MASKED is set. -/
theorem masked_afterRefusedWrite : afterRefusedWrite.resp = some (.err cTrv) ∧
    afterRefusedWrite.flag (A.WAKE_SRC 0) F.WAKE_SRC.MASKED = true := by decide +kernel

/-- The error response alone leaves MASKED 0. -/
theorem not_masked_busErr : (halvesRun.busErr 2 (A.WAKE_SRC 0) true cTrv).flag (A.WAKE_SRC 0) F.WAKE_SRC.MASKED = false := by
  decide +kernel

/-- Refutes O15: a write that is refused for its TRV fields does more than its error response when hardware sets a W1C bit of the
register in the same clock (`e.hw`), which that clause leaves free. -/
theorem not_registerAccessEffects : ¬ Obligations.RegisterAccessEffects := by
  intro h
  obtain ⟨-, -, -, -, -, -, htrv, -⟩ :=
    h halvesRun 2 (BitVec.ofNat 40 (A.WAKE_SRC 0)) 0 0 [] setsMasked wakeSrcDesc 0 0 0 0
  obtain ⟨t, hexec, hrefused⟩ := htrv (by decide +kernel)
  have hafter : afterRefusedWrite = t := Host.Outcome.next.inj hexec
  have hsame : afterRefusedWrite = halvesRun.busErr 2 (A.WAKE_SRC 0) true cTrv := hafter.trans hrefused
  have hset := masked_afterRefusedWrite.2
  rw [hsame, not_masked_busErr] at hset
  exact Bool.false_ne_true hset

end Sys2Proof.Machine
end

section
/-! What a fault and an error response do to the registers, the log and the rest of the state (R36, R50 to R53, R678 to R681). -/

namespace Sys2Proof.Machine
open Sys2Proof

variable (s : State)

/-! ### Faults: the registers of the fault log (R678 to R681) -/

/-- Words put into registers change registers alone. -/
theorem wrWords_frame (a : Nat) (ws : List Nat) : { s.wrWords a ws with regs := s.regs } = s := by
  induction ws generalizing s a with
  | nil => rfl
  | cons w ws ih => exact congrArg (fun t : State => { t with regs := s.regs }) (ih (s.wrn a w) (a + 4))

/-- A register outside the words put reads as before. -/
theorem rd_wrWords_outside (a b : Nat) (ws : List Nat) (h : b < a ∨ a + 4 * ws.length ≤ b) :
    (s.wrWords a ws).rd b = s.rd b := by
  induction ws generalizing s a with
  | nil => rfl
  | cons w ws ih =>
    rw [List.length_cons] at h
    rw [State.wrWords, ih _ _ (by omega), State.rd_wrn, if_neg (by omega)]

/-- An event record changes the Larder alone. -/
theorem larderEvent_frame (typ cls source : Nat) (payload ext : List Byte) :
    { s.larderEvent typ cls source payload ext with larder := s.larder } = s := by
  unfold State.larderEvent
  split <;> rfl

@[simp] theorem rd_larderEvent (typ cls source : Nat) (payload ext : List Byte) (b : Nat) :
    (s.larderEvent typ cls source payload ext).rd b = s.rd b := by
  unfold State.larderEvent
  split <;> rfl

/-- A fault below class F3 sets no latch and triggers no freeze: it is counted, entered in the log unless TRIVET_LOST is
asserted, and offered to the Larder. -/
theorem faultD_below_f3 (code cls origin source d5 d6 d7 : Nat) (hcls : cls < 3) :
    s.faultD code cls origin source d5 d6 d7 =
      let ws := faultWords (s.rdn A.SYS_FLT_WSEQ) code cls origin source s.raw (s.rdn A.GAUGE_EPOCH) d5 d6 d7
      let u := s.inc (A.SYS_FLT_CNT cls)
      let v := if u.trivetLost then u else
        (u.wrWords (A.SYS_FLT_SLOT (u.rdn A.SYS_FLT_WSEQ % 256) 0) ws).incMod A.SYS_FLT_WSEQ F.SYS_FLT_WSEQ.SEQ
      v.larderEvent 1 cls source (ws.flatMap (leBytes 4)) [] := by
  simp only [State.faultD, show ¬ cls = 3 by omega, show ¬ cls = 4 by omega, show ¬ 3 ≤ cls by omega, if_false, false_and]

/-- A fault below class F3 changes registers and the Larder alone. -/
theorem faultD_frame (code cls origin source d5 d6 d7 : Nat) (hcls : cls < 3) :
    { s.faultD code cls origin source d5 d6 d7 with regs := s.regs, larder := s.larder } = s := by
  rw [faultD_below_f3 s _ _ _ _ _ _ _ hcls]
  refine (congrArg (fun t : State => { t with regs := s.regs, larder := s.larder }) (larderEvent_frame ..)).trans ?_
  split
  · rfl
  · exact congrArg (fun t : State => { t with regs := s.regs, larder := s.larder }) (wrWords_frame (s.inc _) _ _)

theorem resp_faultD (code cls origin source d5 d6 d7 : Nat) (hcls : cls < 3) :
    (s.faultD code cls origin source d5 d6 d7).resp = s.resp :=
  (congrArg State.resp (faultD_frame s code cls origin source d5 d6 d7 hcls) :)

theorem mem_faultD (code cls origin source d5 d6 d7 : Nat) (hcls : cls < 3) :
    (s.faultD code cls origin source d5 d6 d7).mem = s.mem :=
  (congrArg State.mem (faultD_frame s code cls origin source d5 d6 d7 hcls) :)

/-- What a register reads after a fault below class F3 has been counted and its entry written. -/
theorem rd_faultD_of_not_slot (code cls origin source d5 d6 d7 b : Nat) (hcls : cls < 3) (hseq : b ≠ A.SYS_FLT_WSEQ)
    (hslot : b < A.SYS_FLT_SLOT 0 0 ∨ A.SYS_FLT_SLOT 256 0 ≤ b) :
    (s.faultD code cls origin source d5 d6 d7).rd b = (s.inc (A.SYS_FLT_CNT cls)).rd b := by
  rw [faultD_below_f3 s _ _ _ _ _ _ _ hcls]
  simp only [rd_larderEvent]
  split
  · rfl
  · rw [State.incMod, State.rd_setf, if_neg hseq, rd_wrWords_outside]
    simp only [A.SYS_FLT_SLOT, faultWords, List.length_cons, List.length_nil] at hslot ⊢
    omega

/-- A register outside those of the fault log, which lie from SYS_FLT_WSEQ to the last slot, reads as before a fault. -/
theorem rd_faultD_outside (code cls origin source d5 d6 d7 b : Nat) (hcls : cls < 3)
    (hb : b < A.SYS_FLT_WSEQ ∨ A.SYS_FLT_SLOT 256 0 ≤ b) :
    (s.faultD code cls origin source d5 d6 d7).rd b = s.rd b := by
  simp only [A.SYS_FLT_WSEQ, A.SYS_FLT_SLOT] at hb
  rw [rd_faultD_of_not_slot s _ _ _ _ _ _ _ _ hcls (by rw [A.SYS_FLT_WSEQ]; omega) (by simp only [A.SYS_FLT_SLOT]; omega),
    State.rd_inc, if_neg (by rw [A.SYS_FLT_CNT]; omega)]

/-- A fault is counted in its class. -/
theorem rd_faultD_cnt (code cls origin source d5 d6 d7 : Nat) (hcls : cls < 3) :
    (s.faultD code cls origin source d5 d6 d7).rd (A.SYS_FLT_CNT cls) = satSucc (s.rd (A.SYS_FLT_CNT cls)) := by
  rw [rd_faultD_of_not_slot s _ _ _ _ _ _ _ _ hcls (by simp only [A.SYS_FLT_CNT, A.SYS_FLT_WSEQ]; omega)
    (by simp only [A.SYS_FLT_CNT, A.SYS_FLT_SLOT]; omega), State.rd_inc, if_pos rfl]

/-! ### Error responses (R50 to R52, R36) -/

/-- An exception of a hart changes that hart alone. -/
theorem hartsBut_hartExc (k code tval : Nat) : s.hartsBut (s.hartExc k code tval) k :=
  fun _ hj => storeGet_put_other _ _ _ hj

/-- What every error response does before it comes to the log: it is answered, a hart takes it as an access fault, it is
counted, and it joins those of this cycle. -/
def State.errCounted (s : State) (e : ErrRec) : State :=
  let t := { s with resp := some (.err e.cause) }
  let t := if 2 ≤ e.master ∧ e.master ≤ 5 then t.hartExc (e.master - 2) (if e.write then 7 else 5) e.addr else t
  let t := t.inc A.SYS_BUSERR_CNT
  { t with fabric := { t.fabric with
      errAt := t.now
      errs := e :: s.errsNow
      errHeld := s.errHeldNow || !s.flag A.SYS_BUSERR_INFO F.SYS_BUSERR_INFO.VALID } }

/-- After that, VALID and the error that the log holds decide whether it is recorded. -/
theorem busErr_eq (m a : Nat) (w : Bool) (c : Nat) :
    s.busErr m a w c =
      let e : ErrRec := ⟨m, a, w, c⟩
      let t := s.errCounted e
      if !s.flag A.SYS_BUSERR_INFO F.SYS_BUSERR_INFO.VALID then
        (t.logErr e).faultD 0x90 0 originShared m (a % 2 ^ 32) (a / 2 ^ 32) 0
      else if s.errHeldNow ∧ m < t.fld A.SYS_BUSERR_INFO F.SYS_BUSERR_INFO.MASTER then t.logErr e
      else t := rfl

section
variable (e : ErrRec)

theorem errCounted_frame :
    { s.errCounted e with regs := s.regs, harts := s.harts, fabric := s.fabric, resp := s.resp } = s := by
  unfold State.errCounted
  split <;> rfl

@[simp] theorem resp_errCounted : (s.errCounted e).resp = some (.err e.cause) := by
  unfold State.errCounted
  split <;> rfl

/-- It writes no register but the count. -/
theorem regs_errCounted : (s.errCounted e).regs = (s.inc A.SYS_BUSERR_CNT).regs := by
  unfold State.errCounted
  split <;> rfl

theorem rd_errCounted (b : Nat) : (s.errCounted e).rd b = (s.inc A.SYS_BUSERR_CNT).rd b :=
  congrArg (fun r => storeGet (regDefault b) r b) (regs_errCounted s e)

theorem hartsBut_errCounted : s.hartsBut (s.errCounted e) (e.master - 2) := by
  unfold State.errCounted
  split
  · exact hartsBut_hartExc { s with resp := some (.err e.cause) } _ _ _
  · exact fun _ _ => rfl

theorem harts_errCounted (h : isHart e.master = false) : (s.errCounted e).harts = s.harts := by
  have hm : ¬ (2 ≤ e.master ∧ e.master ≤ 5) := by simpa [isHart] using h
  simp only [State.errCounted, hm, if_false]
  rfl

theorem mem_errCounted : (s.errCounted e).mem = s.mem := (congrArg State.mem (errCounted_frame s e) :)

theorem rd_logErr_cnt : (s.logErr e).rd A.SYS_BUSERR_CNT = s.rd A.SYS_BUSERR_CNT := by
  simp [State.logErr, State.rd_wrn, A.SYS_BUSERR_INFO, A.SYS_BUSERR_ADDR_LO, A.SYS_BUSERR_ADDR_HI, A.SYS_BUSERR_CNT]

end

section
variable (m a : Nat) (w : Bool) (c : Nat)

/-- What holds once the response is counted, and is kept by the log's record and its F0 event, holds of an error response. -/
theorem busErr_induct {P : State → Prop} (hcounted : P (s.errCounted ⟨m, a, w, c⟩))
    (hlog : ∀ t, P t → P (t.logErr ⟨m, a, w, c⟩))
    (hfault : ∀ t, P t → P (t.faultD 0x90 0 originShared m (a % 2 ^ 32) (a / 2 ^ 32) 0)) : P (s.busErr m a w c) := by
  rw [busErr_eq]
  dsimp only
  split_ifs
  · exact hfault _ (hlog _ hcounted)
  · exact hlog _ hcounted
  · exact hcounted

theorem resp_busErr : (s.busErr m a w c).resp = some (.err c) :=
  busErr_induct s m a w c (P := fun t => t.resp = some (.err c)) (resp_errCounted s _) (fun _ h => h)
    fun t h => (resp_faultD t _ _ _ _ _ _ _ (by decide)).trans h

/-- Every error response is counted. -/
theorem rd_busErr_cnt : (s.busErr m a w c).rd A.SYS_BUSERR_CNT = satSucc (s.rd A.SYS_BUSERR_CNT) := by
  refine busErr_induct s m a w c (P := fun t => t.rd A.SYS_BUSERR_CNT = satSucc (s.rd A.SYS_BUSERR_CNT)) ?_ (fun t h => ?_)
    fun t h => ?_
  · rw [rd_errCounted, State.rd_inc, if_pos rfl]
  · rw [rd_logErr_cnt, h]
  · rw [rd_faultD_outside t _ _ _ _ _ _ _ _ (by decide) (.inl (by decide)), h]

theorem mem_busErr : (s.busErr m a w c).mem = s.mem :=
  busErr_induct s m a w c (P := fun t => t.mem = s.mem) (mem_errCounted s _) (fun _ h => h)
    fun t h => (mem_faultD t _ _ _ _ _ _ _ (by decide)).trans h

/-- While the log holds an error, and none of this cycle, an error response does not come to the log. -/
theorem busErr_of_held (hvalid : s.flag A.SYS_BUSERR_INFO F.SYS_BUSERR_INFO.VALID = true) (hheld : s.errHeldNow = false) :
    s.busErr m a w c = s.errCounted ⟨m, a, w, c⟩ := by
  simp [busErr_eq, hvalid, hheld]

end

/-- Settles O16: the response does what every error response does, and no more. -/
theorem busErrorWhileHeld : Obligations.BusErrorWhileHeld := by
  rintro s m a c write ⟨hvalid, hheld⟩
  rw [busErr_of_held s m a write c hvalid hheld]
  refine ⟨resp_errCounted s _, ?_, fun b hb => ?_, fun _ => hartsBut_errCounted s _,
    harts_errCounted s ⟨m, a, write, c⟩, errCounted_frame s _⟩
  · rw [rd_errCounted, State.rd_inc, if_pos rfl]
  · rw [rd_errCounted, State.rd_inc, if_neg (by simpa using hb)]

/-! ### A clear of the log beside a record of more than three bits of CAUSE (R53)

`State.logErr` adds the record's CAUSE, shifted to bit 9, to the bit that is VALID. Every error response has a CAUSE of three
bits (Table 1.10), but the statement ranges over all states, and a CAUSE of 2^22 carries into VALID and clears it. -/

/-- The state after reset, with an error response of this cycle whose CAUSE is 2^22 and which the log does not hold. -/
def wideCause : State :=
  { State.reset with fabric := { State.reset.fabric with errAt := State.reset.now, errs := [⟨1, 0, false, 2 ^ 22⟩], errHeld := false } }

/-- SYS_BUSERR_INFO with 1 in VALID. -/
def validWord : Word := BitVec.ofNat 32 (2 ^ F.SYS_BUSERR_INFO.VALID.lo)

/-- The Trivet writes 1 to VALID in that cycle. -/
def afterClear : State := wideCause.busAccess trivet A.SYS_BUSERR_INFO 4 true (leBytes 4 validWord.toNat) BusEnv.clean

/-- The log then holds the response, as R53 says, and VALID reads 0. -/
theorem valid_afterClear : wideCause.errsNow.isEmpty = false ∧ wideCause.errHeldNow = false ∧
    afterClear.errHeldNow = true ∧ afterClear.flag A.SYS_BUSERR_INFO F.SYS_BUSERR_INFO.VALID = false := by
  decide +kernel

/-- Refutes O17: a clear of VALID in the cycle of an error response leaves VALID 0 where the response's record, which the statement
leaves free, has a CAUSE that does not fit its field. -/
theorem not_busErrorRecorded : ¬ Obligations.BusErrorRecorded := by
  intro h
  obtain ⟨-, -, hclear, -⟩ := h wideCause 1 0 0 0 0 0 false false 0 validWord BusEnv.clean
  obtain ⟨t, hexec, -, hvalid⟩ := hclear (by decide +kernel)
  have hafter : afterClear = t := Host.Outcome.next.inj hexec
  obtain ⟨hsome, hheld, -, hflag⟩ := valid_afterClear
  rw [← hafter, hflag, hsome, hheld] at hvalid
  exact Bool.false_ne_true hvalid

end Sys2Proof.Machine
end

section
/-! What an access to DRAM does (R42, R47, R605, R615 to R617). -/

namespace Sys2Proof.Machine
open Sys2Proof

variable (s : State)

/-! ### Runs of bytes in memory -/

theorem mbs_succ (a n : Nat) : s.mbs a (n + 1) = s.mb a :: s.mbs (a + 1) n := by
  simp [State.mbs, List.range_succ_eq_map, Function.comp_def, Nat.add_assoc, Nat.add_comm 1]

@[simp] theorem length_mbs (a n : Nat) : (s.mbs a n).length = n := by simp [State.mbs]

theorem mbs_congr {s t : State} {a n : Nat} (h : ∀ k, a ≤ k → k < a + n → t.mb k = s.mb k) : t.mbs a n = s.mbs a n :=
  List.map_congr_left fun i hi => h _ (Nat.le_add_right a i) (Nat.add_lt_add_left (List.mem_range.1 hi) a)

theorem mb_of_mem {s t : State} (h : t.mem = s.mem) (k : Nat) : t.mb k = s.mb k :=
  congrArg (fun m => storeGet memDefault m k) h

theorem mbs_of_mem {s t : State} (h : t.mem = s.mem) (a n : Nat) : t.mbs a n = s.mbs a n :=
  mbs_congr fun k _ _ => mb_of_mem h k

/-- Bytes written change memory alone. -/
theorem putbs_eq (a : Nat) (bs : List Byte) : ∃ mem, s.putbs a bs = { s with mem := mem } := by
  induction bs generalizing s a with
  | nil => exact ⟨s.mem, rfl⟩
  | cons b bs ih =>
    obtain ⟨mem, h⟩ := ih (s.putb a b) (a + 1)
    exact ⟨mem, h⟩

theorem rd_putbs (a : Nat) (bs : List Byte) (b : Nat) : (s.putbs a bs).rd b = s.rd b := by
  obtain ⟨mem, h⟩ := putbs_eq s a bs
  rw [h]
  rfl

/-- A byte outside those written reads as before. -/
theorem bytesBut_putbs (a : Nat) (bs : List Byte) : s.bytesBut (s.putbs a bs) a bs.length := by
  intro k hk
  induction bs generalizing s a with
  | nil => rfl
  | cons b bs ih =>
    rw [List.length_cons] at hk
    rw [State.putbs, ih _ _ (by omega), State.mb_putb, if_neg (by omega)]

/-- Bytes read where they were written. -/
theorem mbs_putbs (a : Nat) (bs : List Byte) : (s.putbs a bs).mbs a bs.length = bs := by
  induction bs generalizing s a with
  | nil => rfl
  | cons b bs ih =>
    rw [List.length_cons, mbs_succ, State.putbs, ih, bytesBut_putbs _ _ _ _ (.inl (Nat.lt_succ_self a)), State.mb_putb,
      if_pos rfl]

/-! ### The ports (R42, R615 to R617, R816) -/

/-- Clearing a granule ahead of the order changes the record of its port alone. -/
theorem granule_eq (h : Half) (a : Nat) : ∃ k p, s.granule h a = { s with dramK := k, dramP := p } := by
  unfold State.granule State.putDram
  dsimp only
  split
  · cases h
    · exact ⟨_, s.dramP, rfl⟩
    · exact ⟨s.dramK, _, rfl⟩
  · exact ⟨s.dramK, s.dramP, rfl⟩

theorem mem_granule (h : Half) (a : Nat) : (s.granule h a).mem = s.mem := by
  obtain ⟨k, p, hg⟩ := granule_eq s h a
  rw [hg]

theorem rd_granule (h : Half) (a b : Nat) : (s.granule h a).rd b = s.rd b := by
  obtain ⟨k, p, hg⟩ := granule_eq s h a
  rw [hg]
  rfl

theorem mirrorState_granule (h : Half) (a : Nat) : (s.granule h a).mirrorState = s.mirrorState :=
  congrArg (fget _) (rd_granule s h a _)

theorem linkUp_granule (h : Half) (a : Nat) : (s.granule h a).linkUp = s.linkUp := by
  simp only [State.linkUp, State.segUp, State.flag, State.fld, rd_granule]

/-- Bytes written to ports change memory and the ports' records alone. -/
theorem dramPut_frame (a : Nat) (bs : List Byte) (hs : List Half) :
    { s.dramPut a bs hs with mem := s.mem, dramK := s.dramK, dramP := s.dramP } = s := by
  induction hs generalizing s with
  | nil => rfl
  | cons h hs ih =>
    obtain ⟨k, p, hg⟩ := granule_eq s h a
    obtain ⟨mem, hm⟩ := putbs_eq { s with dramK := k, dramP := p } (dramKey h a) bs
    rw [State.dramPut, hg, hm]
    exact (congrArg (fun t : State => { t with mem := s.mem, dramK := s.dramK, dramP := s.dramP })
      (ih { s with dramK := k, dramP := p, mem := mem }) :)

theorem dramPut_ok_frame (a : Nat) (bs : List Byte) (hs : List Half) :
    { (s.dramPut a bs hs).ok 0 with mem := s.mem, dramK := s.dramK, dramP := s.dramP, resp := s.resp } = s :=
  (congrArg (fun t : State => { t with resp := s.resp }) (dramPut_frame s a bs hs) :)

section
variable (h : Half) (a source : Nat)

/-- The registers of the blocks of the halves lie beyond the fault log. -/
theorem beyond_faultLog {b : Nat} (hb : 0x31000000 ≤ b) : b < A.SYS_FLT_WSEQ ∨ A.SYS_FLT_SLOT 256 0 ≤ b :=
  .inr (le_trans (by decide) hb)

theorem mem_dramCorrected : (s.dramCorrected h a source).mem = s.mem :=
  mem_faultD _ _ _ _ _ _ _ _ (by decide)

theorem rd_dramCorrected_corr :
    (s.dramCorrected h a source).rd (A.DRAM_ECC_CORR h.n) = satSucc (s.rd (A.DRAM_ECC_CORR h.n)) := by
  rw [State.dramCorrected, rd_faultD_outside _ _ _ _ _ _ _ _ _ (by decide)
    (beyond_faultLog (by simp only [A.DRAM_ECC_CORR]; omega)), State.rd_inc, if_pos rfl]

theorem rd_dramCorrected_flt :
    (s.dramCorrected h a source).rd (A.SYS_FLT_CNT 1) = satSucc (s.rd (A.SYS_FLT_CNT 1)) := by
  rw [State.dramCorrected, rd_faultD_cnt _ _ _ _ _ _ _ _ (by decide), State.rd_inc,
    if_neg (by simp only [A.SYS_FLT_CNT, A.DRAM_ECC_CORR]; omega)]

/-- A diagnostic changes no memory, whether it is reported or logged (R78). -/
theorem mem_diagF3 (code d5 d6 : Nat) : (s.diagF3 h code source d5 d6).mem = s.mem := by
  unfold State.diagF3
  split
  · cases h <;> rfl
  · exact mem_faultD _ _ _ _ _ _ _ _ (by decide)

/-- A register outside the fault log reads as before a diagnostic. -/
theorem rd_diagF3_outside (code d5 d6 b : Nat) (hb : b < A.SYS_FLT_WSEQ ∨ A.SYS_FLT_SLOT 256 0 ≤ b) :
    (s.diagF3 h code source d5 d6).rd b = s.rd b := by
  unfold State.diagF3
  split
  · cases h <;> rfl
  · exact rd_faultD_outside _ _ _ _ _ _ _ _ _ (by decide) hb

theorem mem_dramDouble : (s.dramDouble h a source).mem = s.mem := by
  rw [State.dramDouble, mem_diagF3]
  simp only [State.wr64, State.wrn, State.inc, State.setf, State.wr_mem]

theorem rd_dramDouble_cnt :
    (s.dramDouble h a source).rd (A.DRAM_ECC_DED_CNT h.n) = satSucc (s.rd (A.DRAM_ECC_DED_CNT h.n)) := by
  rw [State.dramDouble, rd_diagF3_outside _ _ _ _ _ _ _ (beyond_faultLog (by simp only [A.DRAM_ECC_DED_CNT]; omega))]
  simp [State.wr64, State.rd_wrn, State.rd_inc, State.rd_setf, A.DRAM_ECC_DED_CNT, A.DRAM_ECC_ADDR_LO, A.DRAM_ECC_ADDR_HI,
    A.DRAM_STATUS]

theorem fld_dramDouble_ecc_ded : (s.dramDouble h a source).fld (A.DRAM_STATUS h.n) F.DRAM_STATUS.ECC_DED = 1 := by
  rw [State.fld, State.dramDouble, rd_diagF3_outside _ _ _ _ _ _ _ (beyond_faultLog (by simp only [A.DRAM_STATUS]; omega))]
  have hset : (s.setf (A.DRAM_STATUS h.n) F.DRAM_STATUS.ECC_DED 1).fld (A.DRAM_STATUS h.n) F.DRAM_STATUS.ECC_DED = 1 :=
    State.fld_setf _ _ _ _ (by decide)
  simpa [State.fld, State.wr64, State.rd_wrn, State.rd_inc, A.DRAM_ECC_DED_CNT, A.DRAM_ECC_ADDR_LO, A.DRAM_ECC_ADDR_HI,
    A.DRAM_STATUS] using hset

end

/-- How a hart receives an answer changes its CSRs alone. -/
theorem delivered_eq (m a : Nat) (r : Resp) : ∃ harts, s.delivered m a r = { s with harts := harts } := by
  unfold State.delivered
  split
  · exact ⟨s.harts, rfl⟩
  · cases r <;> exact ⟨_, rfl⟩

/-! ### The access -/

section
variable (m a n : Nat) (data : List Byte) (e x : Ecc)

/-- A read takes no data. -/
theorem dramAccess_read_data : s.dramAccess m a n false [] e x = s.dramAccess m a n false data e x := by
  simp only [State.dramAccess, Bool.false_eq_true, if_false]

theorem hartLoad_of_no_cache (env : BusEnv) (hc : env.cache = none) :
    s.hartLoad m a n env = s.dramAccess m a n false [] env.eccLo env.mirror := by
  unfold State.hartLoad
  rw [hc]

/-- A hart's access within a page whose caches meet no error. -/
theorem dramBus_of_hart (write : Bool) (env : BusEnv) (hm : isHart m = true) (hpage : crossesPage a n = false)
    (hcache : s.cacheErr m a env.cache = (s, false)) :
    s.dramBus m a n write data env =
      if write then s.dramAccess m a n write data env.eccLo env.mirror else s.hartLoad m a n env := by
  unfold State.dramBus
  rw [hm, hpage, hcache]
  rfl

/-- A hart's access across a page raises an address-misaligned exception and does no more (Table 13.1). -/
theorem dramBus_of_crossing (write : Bool) (env : BusEnv) (hm : isHart m = true) (hpage : crossesPage a n = true) :
    s.dramBus m a n write data env =
      { s.hartExc (m - 2) (if write then 6 else 4) a with resp := some .accessFault } := by
  unfold State.dramBus
  rw [hm, hpage]
  rfl

/-- Where caches show nothing and no page is crossed, a hart's access is any master's. -/
theorem dramBus_of_no_cache (write : Bool) (env : BusEnv) (hc : env.cache = none)
    (hpage : isHart m = true → crossesPage a n = false) :
    s.dramBus m a n write data env = s.dramAccess m a n write data env.eccLo env.mirror := by
  cases hm : isHart m with
  | false =>
    unfold State.dramBus
    rw [hm]
    rfl
  | true =>
    rw [dramBus_of_hart s m a n data write env hm (hpage hm) (by rw [hc]; rfl)]
    cases write with
    | true => rfl
    | false => exact (hartLoad_of_no_cache s m a n env hc).trans (dramAccess_read_data s m a n data _ _)

variable {m a n} {c : Nat}

/-- An access that no port takes is an error response. -/
theorem dramAccess_of_error (write : Bool) (hp : s.dramPorts m a (if write then data.length else n) write = .error c) :
    s.dramAccess m a n write data e x = s.busErr m a write c := by
  simp only [State.dramAccess, hp]

/-- A write goes to every port that takes it. -/
theorem dramAccess_write {ps : List Half} (hp : s.dramPorts m a data.length true = .ok ps) :
    s.dramAccess m a n true data e x = (s.dramPut a data ps).ok 0 := by
  simp only [State.dramAccess, if_true, hp]

variable {h : Half} {hs : List Half} (hp : s.dramPorts m a n false = .ok (h :: hs))
include hp

/-- A clean read answers the bytes of the port that serves it and changes nothing but its record. -/
theorem dramAccess_clean :
    (s.dramAccess m a n false data .clean x).resp = some (.ok (s.mrd (dramKey h a) n)) ∧
    { s.dramAccess m a n false data .clean x with dramK := s.dramK, dramP := s.dramP, resp := s.resp } = s := by
  have hread : s.dramAccess m a n false data .clean x = (s.granule h a).ok (s.mrd (dramKey h a) n) := by
    simp only [State.dramAccess, Bool.false_eq_true, if_false, hp, State.mrd, mbs_of_mem (mem_granule s h a)]
  obtain ⟨k, p, hg⟩ := granule_eq s h a
  rw [hread, hg]
  exact ⟨rfl, rfl⟩

/-- A single-bit error is corrected: the read answers as a clean one, and it is counted (R616). -/
theorem dramAccess_single :
    let t := s.dramAccess m a n false data .single x
    t.resp = some (.ok (s.mrd (dramKey h a) n)) ∧
    t.rd (A.DRAM_ECC_CORR h.n) = satSucc (s.rd (A.DRAM_ECC_CORR h.n)) ∧
    t.rd (A.SYS_FLT_CNT 1) = satSucc (s.rd (A.SYS_FLT_CNT 1)) ∧ t.mem = s.mem := by
  have hread : s.dramAccess m a n false data .single x =
      ((s.granule h a).dramCorrected h a m).ok (s.mrd (dramKey h a) n) := by
    simp only [State.dramAccess, Bool.false_eq_true, if_false, hp, State.mrd, mbs_of_mem (mem_granule s h a)]
  rw [hread]
  refine ⟨rfl, (rd_dramCorrected_corr ..).trans ?_, (rd_dramCorrected_flt ..).trans ?_, (mem_dramCorrected ..).trans ?_⟩
  · rw [rd_granule]
  · rw [rd_granule]
  · rw [mem_granule]

/-- A double-bit error of a mirror in SYNC, whose other port is clean, is repaired from there (R617, case 1). -/
theorem dramAccess_repaired (hsync : s.mirrorState = mirSync) (hlink : s.linkUp = true) :
    let t := s.dramAccess m a n false data .double .clean
    t.resp = some (.ok (s.mrd (dramKey h.other a) n)) ∧ t.mbs (dramKey h a) n = s.mbs (dramKey h.other a) n ∧
    s.bytesBut t (dramKey h a) n ∧ t.rd (A.DRAM_ECC_CORR h.n) = satSucc (s.rd (A.DRAM_ECC_CORR h.n)) ∧
    t.rd (A.SYS_FLT_CNT 1) = satSucc (s.rd (A.SYS_FLT_CNT 1)) := by
  have hread : s.dramAccess m a n false data .double .clean =
      (((s.granule h a).putbs (dramKey h a) (s.mbs (dramKey h.other a) n)).dramCorrected h a m).ok
        (s.mrd (dramKey h.other a) n) := by
    simp only [State.dramAccess, Bool.false_eq_true, if_false, hp, mirrorState_granule, linkUp_granule, hsync, hlink,
      and_self, if_true, State.mrd, mbs_of_mem (mem_granule s h a)]
  have hput := mbs_putbs (s.granule h a) (dramKey h a) (s.mbs (dramKey h.other a) n)
  have hbut := bytesBut_putbs (s.granule h a) (dramKey h a) (s.mbs (dramKey h.other a) n)
  rw [length_mbs] at hput hbut
  rw [hread]
  refine ⟨rfl, (mbs_of_mem (mem_dramCorrected ..) _ _).trans hput, fun b hb => ?_, (rd_dramCorrected_corr ..).trans ?_,
    (rd_dramCorrected_flt ..).trans ?_⟩
  · exact (mb_of_mem (mem_dramCorrected ..) b).trans ((hbut b hb).trans (mb_of_mem (mem_granule s h a) b))
  · rw [rd_putbs, rd_granule]
  · rw [rd_putbs, rd_granule]

/-- Any other double-bit error is answered DATA_ERR and counted (R617, case 2). -/
theorem dramAccess_double (hrep : s.mirrorState ≠ mirSync ∨ x ≠ .clean) :
    let t := s.dramAccess m a n false data .double x
    t.resp = some .dataErr ∧ t.fld (A.DRAM_STATUS h.n) F.DRAM_STATUS.ECC_DED = 1 ∧
    t.rd (A.DRAM_ECC_DED_CNT h.n) = satSucc (s.rd (A.DRAM_ECC_DED_CNT h.n)) ∧ t.mem = s.mem := by
  have hcond : ¬ (s.mirrorState = mirSync ∧ s.linkUp = true ∧ x = .clean) :=
    fun ⟨hsync, _, hclean⟩ => hrep.elim (· hsync) (· hclean)
  have hread : s.dramAccess m a n false data .double x =
      { ((s.granule h a).dramDouble h a m).delivered m a .dataErr with resp := some .dataErr } := by
    simp only [State.dramAccess, Bool.false_eq_true, if_false, hp, mirrorState_granule, linkUp_granule, hcond]
  obtain ⟨harts, hd⟩ := delivered_eq ((s.granule h a).dramDouble h a m) m a .dataErr
  rw [hread, hd]
  refine ⟨rfl, fld_dramDouble_ecc_ded (s.granule h a) h a m, (rd_dramDouble_cnt (s.granule h a) ..).trans ?_,
    (mem_dramDouble (s.granule h a) ..).trans (mem_granule s h a)⟩
  rw [rd_granule]

end

/-! ### What a write leaves in memory -/

/-- The two ports hold the bytes of an address at keys that lie 8 GiB apart. -/
theorem dramKey_p (a : Nat) : dramKey .p a = dramKey .k a + 0x200000000 := by
  simp only [dramKey, dkBase, dpBase, reduceCtorEq, if_true, if_false]
  omega

section
variable (a : Nat) (bs : List Byte)

/-- A write to one port. -/
theorem dramPut_one (h : Half) : (s.dramPut a bs [h]).mbs (dramKey h a) bs.length = bs ∧
    s.bytesBut (s.dramPut a bs [h]) (dramKey h a) bs.length :=
  ⟨mbs_putbs _ _ _, fun k hk => (bytesBut_putbs _ _ _ k hk).trans (mb_of_mem (mem_granule s h a) k)⟩

/-- A write to one port and then to the other. -/
theorem dramPut_both (hlen : bs.length ≤ 64) : (s.dramPut a bs [.k, .p]).mbs (dramKey .k a) bs.length = bs ∧
    (s.dramPut a bs [.k, .p]).mbs (dramKey .p a) bs.length = bs ∧
    s.bytesBut2 (s.dramPut a bs [.k, .p]) (dramKey .k a) (dramKey .p a) bs.length := by
  obtain ⟨hreadK, hbutK⟩ := dramPut_one s a bs .k
  obtain ⟨hreadP, hbutP⟩ := dramPut_one (s.dramPut a bs [.k]) a bs .p
  refine ⟨Eq.trans (mbs_congr fun k _ hk => hbutP k ?_) hreadK, hreadP, fun k hk => (hbutP k hk.2).trans (hbutK k hk.1)⟩
  rw [dramKey_p]
  omega

end

/-! ### The commands -/

theorem exec_dramAccess (m : Byte) (off : Fin 0x400000000) (len : Fin 65) (write : Bool) (data : List Byte) (e x : Ecc)
    (hpres : s.presented m.toNat (dkBase + off) = true) :
    exec (.dramAccess m off len write data e x) s =
      .next (s.dramBus m.toNat (dkBase + off) (if write then (data.take 64).length else len) write (data.take 64)
        { BusEnv.clean with eccLo := e, mirror := x }) :=
  congrArg Host.Outcome.next (if_pos hpres)

section
variable (m : Byte) (off : Fin 0x400000000) (len : Fin 65) (data : List Byte) (e x : Ecc)
  (hpres : s.presented m.toNat (dkBase + off) = true)
include hpres

theorem exec_dramAccess_read (hpage : isHart m.toNat = true → crossesPage (dkBase + off) len = false) :
    exec (.dramAccess m off len false data e x) s =
      .next (s.dramAccess m.toNat (dkBase + off) len false (data.take 64) e x) := by
  rw [exec_dramAccess s m off len false data e x hpres, if_neg Bool.false_ne_true,
    dramBus_of_no_cache _ _ _ _ _ _ _ rfl hpage]

theorem exec_dramAccess_write (hpage : isHart m.toNat = true → crossesPage (dkBase + off) data.length = false)
    (hlen : data.length ≤ 64) :
    exec (.dramAccess m off len true data e x) s =
      .next (s.dramAccess m.toNat (dkBase + off) data.length true data e x) := by
  rw [exec_dramAccess s m off len true data e x hpres, if_pos rfl, List.take_of_length_le hlen,
    dramBus_of_no_cache _ _ _ _ _ _ _ rfl hpage]

theorem exec_dramAccess_crossing (hm : isHart m.toNat = true) (hpage : crossesPage (dkBase + off) len = true) :
    exec (.dramAccess m off len false data e x) s =
      .next { s.hartExc (m.toNat - 2) 4 (dkBase + off) with resp := some .accessFault } := by
  rw [exec_dramAccess s m off len false data e x hpres, if_neg Bool.false_ne_true,
    dramBus_of_crossing _ _ _ _ _ _ _ hm hpage]
  rfl

end

/-- A hart's read of a line that its caches have not seen written answers what they hold (R605). -/
theorem exec_read_stale (m : Byte) (a : BitVec 40) (e x : Ecc) (v : Dword) (hs : List Half)
    (hpres : s.presented m.toNat a.toNat = true) (hm : isHart m.toNat = true) (hpage : crossesPage a.toNat 8 = false)
    (hdram : isDram a.toNat = true) (hports : s.dramPorts m.toNat a.toNat 8 false = .ok hs) :
    exec (.registerWrite (.read m a 8 ⟨e, e, x, false, some (.stale v), 0⟩)) s =
      .next { s with resp := some (.ok v.toNat) } := by
  have hbus : s.dramBus m.toNat a.toNat 8 false [] ⟨e, e, x, false, some (.stale v), 0⟩ = s.ok v.toNat := by
    rw [dramBus_of_hart _ _ _ _ _ _ _ hm hpage rfl]
    simp only [Bool.false_eq_true, if_false, State.hartLoad, hports]
    rw [Nat.mod_eq_of_lt v.isLt]
  have hreceive : (s.ok v.toNat).hartReceive m.toNat a.toNat = s.ok v.toNat := by
    simp only [State.hartReceive, State.ok_resp, State.delivered, ite_self]
  show Host.Outcome.next (s.busAccess m.toNat a.toNat 8 false [] _) = _
  unfold isDram at hdram
  unfold State.busAccess
  rw [hpres]
  dsimp only
  cases hregion : regionOf a.toNat with
  | dk | dp =>
    simp only [Bool.not_true, Bool.false_eq_true, if_false, hbus, hreceive]
    rfl
  | _ => simp [hregion] at hdram

section
variable (m : Byte) (a : BitVec 40) (write : Bool) (h : Half)
  (hregion : regionOf a.toNat = .bank h ∨ regionOf a.toNat = .block h ∨
    ∃ i, regionOf a.toNat = .needle i ∧ h = unitHalf i 12)

include hregion in
/-- An access to a half that is off, in reset or unreachable is an error response (R47). -/
theorem exec_accessErrorTimeout_dead {c : Nat} (hpres : s.presented m.toNat a.toNat = true)
    (herr : s.halfErr m.toNat h = some c) :
    exec (.accessErrorTimeout m a write) s = .next (s.busErr m.toNat a.toNat write c) := by
  show execAccessErrorTimeout m a write s = _
  rcases hregion with hr | hr | ⟨i, hr, rfl⟩ <;> simp only [execAccessErrorTimeout, hr, hpres, herr, if_true]

include hregion in
/-- An access that the half can answer is not timed out. -/
theorem exec_accessErrorTimeout_live (herr : s.halfErr m.toNat h = none) :
    exec (.accessErrorTimeout m a write) s = .next s := by
  show execAccessErrorTimeout m a write s = _
  rcases hregion with hr | hr | ⟨i, hr, rfl⟩ <;> simp only [execAccessErrorTimeout, hr, herr, ite_self]

/-- An access to DRAM whose ports are off is an error response (R47). -/
theorem exec_accessErrorTimeout_dram (hpres : s.presented m.toNat a.toNat = true)
    (hdram : regionOf a.toNat = .dk ∨ regionOf a.toNat = .dp) (hports : s.dramPorts m.toNat a.toNat 1 write = .error cOff) :
    exec (.accessErrorTimeout m a write) s = .next (s.busErr m.toNat a.toNat write cOff) := by
  show execAccessErrorTimeout m a write s = _
  rcases hdram with hr | hr <;> simp only [execAccessErrorTimeout, hr, hpres, hports, if_true]

end

/-- What the statement asks of an access that is refused: it is answered with the error, counted, and changes no byte. -/
theorem busErr_dead (i : Instr) (m a : Nat) (write : Bool) (c : Nat) (hexec : exec i s = .next (s.busErr m a write c)) :
    ∃ t, exec i s = .next t ∧ t.resp = some (.err c) ∧ t.rd A.SYS_BUSERR_CNT = satSucc (s.rd A.SYS_BUSERR_CNT) ∧
      t.mem = s.mem :=
  ⟨_, hexec, resp_busErr .., rd_busErr_cnt .., mem_busErr ..⟩

/-- Settles O11: the clauses are those of a write by the ports that take it, of a read by what its ECC shows, of the caches, and
of an error response. -/
theorem dramAccessEffects : Obligations.DramAccessEffects := by
  intro s m off len data e x h hs c i a write v at_ fits dead
  refine ⟨?_, ?_, ?_, ?_, ?_, ?_, ?_, ?_, ?_, ?_, ?_, ?_⟩
  · rintro ⟨⟨hpres, hpage⟩, hlen, hports⟩
    obtain ⟨hread, hbut⟩ := dramPut_one s at_ data h
    refine ⟨_, exec_dramAccess_write s m off len data e x hpres hpage hlen, ?_⟩
    rw [dramAccess_write s data e x hports]
    exact ⟨rfl, hread, hbut, dramPut_ok_frame s at_ data [h]⟩
  · rintro ⟨⟨hpres, hpage⟩, hlen, hports⟩
    obtain ⟨hreadK, hreadP, hbut⟩ := dramPut_both s at_ data hlen
    refine ⟨_, exec_dramAccess_write s m off len data e x hpres hpage hlen, ?_⟩
    rw [dramAccess_write s data e x hports]
    exact ⟨rfl, hreadK, hreadP, hbut, dramPut_ok_frame s at_ data [.k, .p]⟩
  · rintro ⟨⟨hpres, hpage⟩, hports⟩
    exact ⟨⟨_, exec_dramAccess_read s m off len data .clean x hpres hpage, dramAccess_clean s _ x hports⟩,
      ⟨_, exec_dramAccess_read s m off len data .single x hpres hpage, dramAccess_single s _ x hports⟩⟩
  · rintro ⟨⟨hpres, hpage⟩, hports, hsync, hlink⟩
    exact ⟨_, exec_dramAccess_read s m off len data .double .clean hpres hpage,
      dramAccess_repaired s _ hports hsync hlink⟩
  · rintro ⟨⟨hpres, hpage⟩, hports, hrep⟩
    exact ⟨_, exec_dramAccess_read s m off len data .double x hpres hpage, dramAccess_double s _ x hports hrep⟩
  · rintro ⟨⟨hpres, hpage⟩, hm, ha, hdram, hports⟩
    rw [← ha] at hpres hpage hports
    exact exec_read_stale s m a e x v hs hpres hm (hpage hm) hdram hports
  · rintro ⟨hpres, hm, hpage⟩
    exact ⟨_, exec_dramAccess_crossing s m off len data e x hpres hm hpage, rfl, rfl⟩
  · rintro ⟨⟨hpres, hpage⟩, hports⟩
    refine busErr_dead s _ m.toNat at_ false c ?_
    rw [exec_dramAccess_read s m off len data e x hpres hpage, dramAccess_of_error s _ e x false hports]
  · rintro ⟨⟨hpres, hpage⟩, hlen, hports⟩
    refine busErr_dead s _ m.toNat at_ true c ?_
    rw [exec_dramAccess_write s m off len data e x hpres hpage hlen, dramAccess_of_error s _ e x true hports]
  · rintro ⟨hpres, hregion, herr⟩
    refine busErr_dead s _ _ _ _ _ (exec_accessErrorTimeout_dead s m a write h ?_ hpres herr)
    exact hregion.imp_right (.imp_right fun hi => ⟨i, hi⟩)
  · rintro ⟨hpres, hdram, rfl, hports⟩
    exact busErr_dead s _ _ _ _ _ (exec_accessErrorTimeout_dram s m a write hpres hdram hports)
  · rintro ⟨hregion, herr⟩
    exact exec_accessErrorTimeout_live s m a write h (hregion.imp_right .inl) herr

end Sys2Proof.Machine
end

section
/-! What every command keeps: memory and registers in canonical form, at most one half in CHARGE, the queue and the time (R73, R74). -/

namespace Sys2Proof.Machine
open Sys2Proof

-- Parallel elaboration holds many stacks at once, and they count towards the memory a check may take.
set_option Elab.async false

/-- Every command of a state that fits answers a next state that fits: each by the law of its own meaning. -/
theorem exec_kept {q : List Instr} {n : Nat} (c : Instr) {s : State} (hk : s.kept q n) : outKept q n (exec c s) := by
  cases c with
  | registerWrite o => exact execRegisterWrite_kept o hk
  | accessErrorTimeout m a write => exact execAccessErrorTimeout_kept m a write hk
  | dramAccess m off len write data ecc mirrorEcc => exact execDramAccess_kept m off len write data ecc mirrorEcc hk
  | heartbeatLaunch => exact execHeartbeatLaunch_kept hk
  | heartbeatReceive h seq st ready outValid healthy code => exact execHeartbeatReceive_kept h seq st ready outValid healthy code hk
  | heartbeatTimerExpiry h => exact execHeartbeatTimerExpiry_kept h hk
  | castOnWindowClose => exact execCastOnWindowClose_kept hk
  | grantReadbackFault r => exact execGrantReadbackFault_kept r hk
  | handoverInstant => exact execHandoverInstant_kept hk
  | flitReceive h cls flit => exact execFlitReceive_kept h cls flit hk
  | hubRelay h cls f => exact execHubRelay_kept h cls f hk
  | iaTrigger r => exact execIaTrigger_kept r hk
  | iaCommitSend => exact execIaCommitSend_kept hk
  | iaCommitReceive h => exact execIaCommitReceive_kept h hk
  | iaCommitTimeout h => exact execIaCommitTimeout_kept h hk
  | iaRerunStart => exact execIaRerunStart_kept hk
  | colSubmit m h v => exact execColSubmit_kept m h v hk
  | colSubmitQueueSpace h => exact execColSubmitQueueSpace_kept h hk
  | colReleasePoint n rp => exact execColReleasePoint_kept n rp hk
  | colWaitExpiry n rp => exact execColWaitExpiry_kept n rp hk
  | colReleasePathOpen => exact execColReleasePathOpen_kept hk
  | colSelftestEnd colOk kOk pOk => exact execColSelftestEnd_kept colOk kOk pOk hk
  | colSelftestPeriodic => exact execColSelftestPeriodic_kept hk
  | isoServiceWrite m v => exact execIsoServiceWrite_kept m v hk
  | aliveLineTimeout => exact execAliveLineTimeout_kept hk
  | trivetLockstepError => exact execTrivetLockstepError_kept hk
  | trivetWatchdogExpiry => exact execTrivetWatchdogExpiry_kept hk
  | vddTrvFail => exact execVddTrvFail_kept hk
  | resyncPassDone readError => exact execResyncPassDone_kept readError hk
  | twinHeartbeatSend => exact execTwinHeartbeatSend_kept hk
  | twinHeartbeatReceive idx cand holds peer => exact execTwinHeartbeatReceive_kept idx cand holds peer hk
  | twinHeartbeatTimeout peer => exact execTwinHeartbeatTimeout_kept peer hk
  | twinPeerLow => exact execTwinPeerLow_kept hk
  | tenAppWrite m h v => exact execTenAppWrite_kept m h v hk
  | iaCtrlWrite m v => exact execIaCtrlWrite_kept m v hk
  | neRunStart m ix hard => exact execNeRunStart_kept m ix hard hk
  | neRunStop m ix hard => exact execNeRunStop_kept m ix hard hk
  | neStopComplete ix => exact execNeStopComplete_kept ix hk
  | neHardStop ix => exact execNeHardStop_kept ix hk
  | recipeValidated ix => exact execRecipeValidated_kept ix hk
  | sp9Dispatch h => exact execSp9Dispatch_kept h hk
  | eventDispatch ix ecc => exact execEventDispatch_kept ix ecc hk
  | eventAged ix => exact execEventAged_kept ix hk
  | actWaitEnd ix inl => exact execActWaitEnd_kept ix inl hk
  | neTimerExpiry ix x => exact execNeTimerExpiry_kept ix x hk
  | dmaTransferDone ix chan env => exact execDmaTransferDone_kept ix chan env hk
  | neDoorbellWrite m ix v => exact execNeDoorbellWrite_kept m ix v hk
  | neBindWrite m ix v => exact execNeBindWrite_kept m ix v hk
  | neInlCtrlWrite m ix v => exact execNeInlCtrlWrite_kept m ix v hk
  | inlineFrameStart ix side bytes good stamp lat late room => exact execInlineFrameStart_kept ix side bytes good stamp lat late room hk
  | inlineStoppedFrame ix side bytes held => exact execInlineStoppedFrame_kept ix side bytes held hk
  | inlineInsertSend ix side => exact execInlineInsertSend_kept ix side hk
  | recEnd ix inl w rival => exact execRecEnd_kept ix inl w rival hk
  | recNop ix inl w => exact execRecNop_kept ix inl w hk
  | recJmp ix inl w => exact execRecJmp_kept ix inl w hk
  | recBr ix inl w => exact execRecBr_kept ix inl w hk
  | recCall ix inl w => exact execRecCall_kept ix inl w hk
  | recRet ix inl w => exact execRecRet_kept ix inl w hk
  | recSetst ix inl w => exact execRecSetst_kept ix inl w hk
  | recDiscard ix inl w => exact execRecDiscard_kept ix inl w hk
  | recLdi ix inl w => exact execRecLdi_kept ix inl w hk
  | recMov ix inl w => exact execRecMov_kept ix inl w hk
  | recLd ix inl w => exact execRecLd_kept ix inl w hk
  | recSt ix inl w rival => exact execRecSt_kept ix inl w rival hk
  | recExt ix inl w => exact execRecExt_kept ix inl w hk
  | recIns ix inl w => exact execRecIns_kept ix inl w hk
  | recAdd ix inl w => exact execRecAdd_kept ix inl w hk
  | recSub ix inl w => exact execRecSub_kept ix inl w hk
  | recAnd ix inl w => exact execRecAnd_kept ix inl w hk
  | recOr ix inl w => exact execRecOr_kept ix inl w hk
  | recXor ix inl w => exact execRecXor_kept ix inl w hk
  | recShl ix inl w => exact execRecShl_kept ix inl w hk
  | recShr ix inl w => exact execRecShr_kept ix inl w hk
  | recSar ix inl w => exact execRecSar_kept ix inl w hk
  | recFset ix inl w rival => exact execRecFset_kept ix inl w rival hk
  | recFclr ix inl w rival => exact execRecFclr_kept ix inl w rival hk
  | recFld ix inl w => exact execRecFld_kept ix inl w hk
  | recTplcpy ix inl w => exact execRecTplcpy_kept ix inl w hk
  | recBlen ix inl w => exact execRecBlen_kept ix inl w hk
  | recCpyin ix inl w => exact execRecCpyin_kept ix inl w hk
  | recCrc ix inl w => exact execRecCrc_kept ix inl w hk
  | recTxeth ix inl w => exact execRecTxeth_kept ix inl w hk
  | recTxcan ix inl w => exact execRecTxcan_kept ix inl w hk
  | recTxstitch ix inl w => exact execRecTxstitch_kept ix inl w hk
  | recTxcol ix inl w => exact execRecTxcol_kept ix inl w hk
  | recTxinl ix inl w => exact execRecTxinl_kept ix inl w hk
  | recDmawr ix inl w => exact execRecDmawr_kept ix inl w hk
  | recDmard ix inl w => exact execRecDmard_kept ix inl w hk
  | recDmaent ix inl w => exact execRecDmaent_kept ix inl w hk
  | recTstart ix inl w => exact execRecTstart_kept ix inl w hk
  | recTstop ix inl w => exact execRecTstop_kept ix inl w hk
  | recGtime ix inl w lag => exact execRecGtime_kept ix inl w lag hk
  | recHkput ix inl w => exact execRecHkput_kept ix inl w hk
  | recHkget ix inl w => exact execRecHkget_kept ix inl w hk
  | recMbpost ix inl w => exact execRecMbpost_kept ix inl w hk
  | recBell ix inl w => exact execRecBell_kept ix inl w hk
  | recLookup ix inl w => exact execRecLookup_kept ix inl w hk
  | recDecode ix inl w => exact execRecDecode_kept ix inl w hk
  | recInlskip ix inl w => exact execRecInlskip_kept ix inl w hk
  | recInldrop ix inl w => exact execRecInldrop_kept ix inl w hk
  | macFrameReceive p bytes codeErr linkLost fcsOk capture => exact execMacFrameReceive_kept p bytes codeErr linkLost fcsOk capture hk
  | pauseExpiry p => exact execPauseExpiry_kept p hk
  | macFrameTransmit p capture => exact execMacFrameTransmit_kept p capture hk
  | pauseFrameSend p => exact execPauseFrameSend_kept p hk
  | pauseRefresh p => exact execPauseRefresh_kept p hk
  | linkChange p up => exact execLinkChange_kept p up hk
  | periodBoundary p => exact execPeriodBoundary_kept p hk
  | macPerCtrlWrite m p v => exact execMacPerCtrlWrite_kept m p v hk
  | tlCtrlWrite m p v => exact execTlCtrlWrite_kept m p v hk
  | tlRestartAn m p v => exact execTlRestartAn_kept m p v hk
  | tlAnComplete p page lp24 lp10 lpRole res24 lead => exact execTlAnComplete_kept p page lp24 lp10 lpRole res24 lead hk
  | tlTrainingComplete p => exact execTlTrainingComplete_kept p hk
  | tlAnRetry p => exact execTlAnRetry_kept p hk
  | tlLossOfLock p => exact execTlLossOfLock_kept p hk
  | tlSqiZeroTimeout p => exact execTlSqiZeroTimeout_kept p hk
  | tlLinkFailWaitEnd p => exact execTlLinkFailWaitEnd_kept p hk
  | tlShortDetect p => exact execTlShortDetect_kept p hk
  | sdCtrlWrite m l v => exact execSdCtrlWrite_kept m l v hk
  | sdPllLock l => exact execSdPllLock_kept l hk
  | sdCdrLock l => exact execSdCdrLock_kept l hk
  | sdSyncAcquired l => exact execSdSyncAcquired_kept l hk
  | sdAnComplete l page speed half => exact execSdAnComplete_kept l page speed half hk
  | sdSyncLoss l => exact execSdSyncLoss_kept l hk
  | sgmiiSpeedChange l speed => exact execSgmiiSpeedChange_kept l speed hk
  | rgCtrlWrite m h v => exact execRgCtrlWrite_kept m h v hk
  | rgInbandStatus h link fd speed => exact execRgInbandStatus_kept h link fd speed hk
  | rgSpeedChangeRestart h => exact execRgSpeedChangeRestart_kept h hk
  | planeFrameIngress h p => exact execPlaneFrameIngress_kept h p hk
  | twinWindowClose h => exact execTwinWindowClose_kept h hk
  | dupEntryAge h => exact execDupEntryAge_kept h hk
  | schedulingRound h => exact execSchedulingRound_kept h hk
  | meterRefill h => exact execMeterRefill_kept h hk
  | sieveAvgUpdate h => exact execSieveAvgUpdate_kept h hk
  | gateEntryChange h p => exact execGateEntryChange_kept h p hk
  | gateChangeRequest m h p v => exact execGateChangeRequest_kept m h p v hk
  | gateBankSwap h p => exact execGateBankSwap_kept h p hk
  | swgEnWrite m h p v => exact execSwgEnWrite_kept m h p v hk
  | swBufLowReset m h v => exact execSwBufLowReset_kept m h v hk
  | refFail r => exact execRefFail_kept r hk
  | refRecover r diff => exact execRefRecover_kept r diff hk
  | gaugeRefSelWrite m v => exact execGaugeRefSelWrite_kept m v hk
  | gaugePllLock => exact execGaugePllLock_kept hk
  | gaugeRawRead m => exact execGaugeRawRead_kept m hk
  | gaugeDomRead m d => exact execGaugeDomRead_kept m d hk
  | gaugeConvert m d v => exact execGaugeConvert_kept m d v hk
  | gaugeCommitRequest m d v => exact execGaugeCommitRequest_kept m d v hk
  | gaugeCommitCancel m d v => exact execGaugeCommitCancel_kept m d v hk
  | gaugeCommit d => exact execGaugeCommit_kept d hk
  | domCfgWrite m d v => exact execDomCfgWrite_kept m d v hk
  | holdoverTimeout d => exact execHoldoverTimeout_kept d hk
  | gaugeCompareEvent k => exact execGaugeCompareEvent_kept k hk
  | ppsPulseEnd j => exact execPpsPulseEnd_kept j hk
  | gaugeRateFault => exact execGaugeRateFault_kept hk
  | cxFrameReceive c f stamp err => exact execCxFrameReceive_kept c f stamp err hk
  | cxTxAttempt c e delay => exact execCxTxAttempt_kept c e delay hk
  | cxBusoffRecoveryDone c => exact execCxBusoffRecoveryDone_kept c hk
  | cxProtocolException c => exact execCxProtocolException_kept c hk
  | cxPxeReintegrate c => exact execCxPxeReintegrate_kept c hk
  | cxCtrlWrite m c v => exact execCxCtrlWrite_kept m c v hk
  | dttEnable m c v => exact execDttEnable_kept m c v hk
  | dttDisable m c v => exact execDttDisable_kept m c v hk
  | dttListenTimeout c => exact execDttListenTimeout_kept c hk
  | dttStartRefSend c idle => exact execDttStartRefSend_kept c idle hk
  | dttStartRefDone c e => exact execDttStartRefDone_kept c e hk
  | dttReferenceReceive c id stamp data => exact execDttReferenceReceive_kept c id stamp data hk
  | dttRankedRefSend c idle e => exact execDttRankedRefSend_kept c idle e hk
  | dttRowEnd c => exact execDttRowEnd_kept c hk
  | dttActionPoint c n idle e => exact execDttActionPoint_kept c n idle e hk
  | dttMinislotBoundary c k idle used e => exact execDttMinislotBoundary_kept c k idle used e hk
  | powerRequest m v => exact execPowerRequest_kept m v hk
  | autoSleepEntry => exact execAutoSleepEntry_kept hk
  | deviceWake => exact execDeviceWake_kept hk
  | segBindOffStart n => exact execSegBindOffStart_kept n hk
  | segAsleep n => exact execSegAsleep_kept n hk
  | segAwake n => exact execSegAwake_kept n hk
  | keepaliveReceive p bytes t => exact execKeepaliveReceive_kept p bytes t hk
  | canKeepalive c ident ide t => exact execCanKeepalive_kept c ident ide t hk
  | wakeFrameReceive p bytes t => exact execWakeFrameReceive_kept p bytes t hk
  | keepaliveSend n => exact execKeepaliveSend_kept n hk
  | segHoldWrite m n v => exact execSegHoldWrite_kept m n v hk
  | segMembWrite m n v => exact execSegMembWrite_kept m n v hk
  | canInhWake c level t => exact execCanInhWake_kept c level t hk
  | cxWakePulseEnd c => exact execCxWakePulseEnd_kept c hk
  | userPathWake ix c t => exact execUserPathWake_kept ix c t hk
  | nodataTimeout n => exact execNodataTimeout_kept n hk
  | wakeValidTimeout ix c => exact execWakeValidTimeout_kept ix c hk
  | insomniaEntryWrite n => exact execInsomniaEntryWrite_kept n hk
  | insomniaUpdate n => exact execInsomniaUpdate_kept n hk
  | wakeFalseClrWrite m v => exact execWakeFalseClrWrite_kept m v hk
  | wakeInsClrWrite m v => exact execWakeInsClrWrite_kept m v hk
  | hkSet e => exact execHkSet_kept e hk
  | hkLoop e => exact execHkLoop_kept e hk
  | hkJmp e pins => exact execHkJmp_kept e pins hk
  | hkWait e pins => exact execHkWait_kept e pins hk
  | hkOut e => exact execHkOut_kept e hk
  | hkIn e pins => exact execHkIn_kept e pins hk
  | hkPull e => exact execHkPull_kept e hk
  | hkPush e => exact execHkPush_kept e hk
  | hkStallEnd e pins => exact execHkStallEnd_kept e pins hk
  | hkWaitTimeout e pins => exact execHkWaitTimeout_kept e pins hk
  | hkRunStart m e v => exact execHkRunStart_kept m e v hk
  | hkRunStop m e v => exact execHkRunStop_kept m e v hk
  | hkFlush m e v => exact execHkFlush_kept m e v hk
  | hkProgWrite m e w v => exact execHkProgWrite_kept m e w v hk
  | hkTxfWrite m e v => exact execHkTxfWrite_kept m e v hk
  | hkRxfRead m e => exact execHkRxfRead_kept m e hk
  | hookPinCfgWrite m h q v => exact execHookPinCfgWrite_kept m h q v hk
  | scratchpadAccess pa pb => exact execScratchpadAccess_kept pa pb hk
  | sweepBlock h finished bad => exact execSweepBlock_kept h finished bad hk
  | sweepForce h bad => exact execSweepForce_kept h bad hk
  | spadZeroingDone h => exact execSpadZeroingDone_kept h hk
  | bankOwnerWrite m n v => exact execBankOwnerWrite_kept m n v hk
  | vaultAccess m off len write data => exact execVaultAccess_kept m off len write data hk
  | vaultWipeDone => exact execVaultWipeDone_kept hk
  | mbxMsgWrite m c w v => exact execMbxMsgWrite_kept m c w v hk
  | mbxRing m c ack => exact execMbxRing_kept m c ack hk
  | mbxAck m c => exact execMbxAck_kept m c hk
  | mbxBindWrite m c v => exact execMbxBindWrite_kept m c v hk
  | mbxBindLockSet m => exact execMbxBindLockSet_kept m hk
  | mbxLockRead k readers => exact execMbxLockRead_kept k readers hk
  | mbxLockWrite m k => exact execMbxLockWrite_kept m k hk
  | mtimecmpWrite k v => exact execMtimecmpWrite_kept k v hk
  | machineTimerInterrupt k => exact execMachineTimerInterrupt_kept k hk
  | mirqClr1Write k v raised => exact execMirqClr1Write_kept k v raised hk
  | hartAmoScratchpad k op wide a v ecc b1 b2 => exact execHartAmoScratchpad_kept k op wide a v ecc b1 b2 hk
  | lockstepError h => exact execLockstepError_kept h hk
  | dramTrainingDone h ok => exact execDramTrainingDone_kept h ok hk
  | dramClearDone h => exact execDramClearDone_kept h hk
  | patrolBlock h ecc mirrorEcc => exact execPatrolBlock_kept h ecc mirrorEcc hk
  | resilverDone => exact execResilverDone_kept hk
  | larderSnapshotTrigger => exact execLarderSnapshotTrigger_kept hk
  | larderSnapshotDone d => exact execLarderSnapshotDone_kept d hk
  | larderEventWrite drop => exact execLarderEventWrite_kept drop hk
  | freezePin => exact execFreezePin_kept hk
  | larderEnable m v => exact execLarderEnable_kept m v hk
  | kcpPacketArrival t slot bytes => exact execKcpPacketArrival_kept t slot bytes hk
  | kcpCommandStart t tag => exact execKcpCommandStart_kept t tag hk
  | kcpCommandTimeout t tag => exact execKcpCommandTimeout_kept t tag hk
  | kcpSelfEffectStart => exact execKcpSelfEffectStart_kept hk
  | transportDown t how => exact execTransportDown_kept t how hk
  | sessionIdleTimeout t n => exact execSessionIdleTimeout_kept t n hk
  | authLockEnd t => exact execAuthLockEnd_kept t hk
  | kcpDbWrite m h descs v => exact execKcpDbWrite_kept m h descs v hk
  | kcpSlotReply t slot => exact execKcpSlotReply_kept t slot hk
  | pcieApertureAccess t off write be data env => exact execPcieApertureAccess_kept t off write be data env hk
  | msixVectorActive t v => exact execMsixVectorActive_kept t v hk
  | hiClrWrite m t v raised => exact execHiClrWrite_kept m t v raised hk
  | rdsr h width n => exact execRdsr_kept h width n hk
  | wrcmd h width bytes => exact execWrcmd_kept h width bytes hk
  | rdrsp h width n => exact execRdrsp_kept h width n hk
  | rdmem h width addr n late env => exact execRdmem_kept h width addr n late env hk
  | wrmem h width addr bytes env => exact execWrmem_kept h width addr bytes env hk
  | clrsr h width => exact execClrsr_kept h width hk
  | lbCmd v => exact execLbCmd_kept v hk
  | lbRsp => exact execLbRsp_kept hk
  | lbClr => exact execLbClr_kept hk
  | lbWindowAccess a write v e => exact execLbWindowAccess_kept a write v e hk
  | kcpDatagramReceive h => exact execKcpDatagramReceive_kept h hk
  | kcpArpReply h => exact execKcpArpReply_kept h hk
  | ping t tag => exact execPing_kept t tag hk
  | info t tag => exact execInfo_kept t tag hk
  | regRead t tag env => exact execRegRead_kept t tag env hk
  | regWrite t tag env => exact execRegWrite_kept t tag env hk
  | memRead t tag env => exact execMemRead_kept t tag env hk
  | memWrite t tag env => exact execMemWrite_kept t tag env hk
  | reset t tag => exact execReset_kept t tag hk
  | kcpResetRelease level target index => exact execKcpResetRelease_kept level target index hk
  | sessionOpen tag => exact execSessionOpen_kept tag hk
  | sessionAuth t tag => exact execSessionAuth_kept t tag hk
  | sessionProve t tag => exact execSessionProve_kept t tag hk
  | sessionClose t tag => exact execSessionClose_kept t tag hk
  | sessionDrop t tag => exact execSessionDrop_kept t tag hk
  | faultRead t tag => exact execFaultRead_kept t tag hk
  | faultClear t tag raised => exact execFaultClear_kept t tag raised hk
  | imgBegin t tag => exact execImgBegin_kept t tag hk
  | imgData t tag => exact execImgData_kept t tag hk
  | imgCommit t tag => exact execImgCommit_kept t tag hk
  | imgAbort t tag => exact execImgAbort_kept t tag hk
  | neLoad t tag => exact execNeLoad_kept t tag hk
  | neRun t tag => exact execNeRun_kept t tag hk
  | neReset t tag => exact execNeReset_kept t tag hk
  | neInfo t tag => exact execNeInfo_kept t tag hk
  | profileCfg t tag => exact execProfileCfg_kept t tag hk
  | portCfg t tag => exact execPortCfg_kept t tag hk
  | portFilter t tag => exact execPortFilter_kept t tag hk
  | portStats t tag => exact execPortStats_kept t tag hk
  | portPeriod t tag => exact execPortPeriod_kept t tag hk
  | tlCfg t tag => exact execTlCfg_kept t tag hk
  | sdCfg t tag => exact execSdCfg_kept t tag hk
  | rgCfg t tag => exact execRgCfg_kept t tag hk
  | cxCfg t tag => exact execCxCfg_kept t tag hk
  | cxFilter t tag => exact execCxFilter_kept t tag hk
  | fwdInsert t tag => exact execFwdInsert_kept t tag hk
  | fwdUpdate t tag => exact execFwdUpdate_kept t tag hk
  | fwdDelete t tag => exact execFwdDelete_kept t tag hk
  | fwdRead t tag => exact execFwdRead_kept t tag hk
  | qosCfg t tag => exact execQosCfg_kept t tag hk
  | gateLoad t tag => exact execGateLoad_kept t tag hk
  | redCfg t tag => exact execRedCfg_kept t tag hk
  | refSel t tag => exact execRefSel_kept t tag hk
  | domCfg t tag => exact execDomCfg_kept t tag hk
  | domCommit t tag => exact execDomCommit_kept t tag hk
  | cmpCfg t tag => exact execCmpCfg_kept t tag hk
  | ppsCfg t tag => exact execPpsCfg_kept t tag hk
  | ptpCfg t tag => exact execPtpCfg_kept t tag hk
  | ptpStatus t tag => exact execPtpStatus_kept t tag hk
  | tscCfg t tag => exact execTscCfg_kept t tag hk
  | patternLoad t tag => exact execPatternLoad_kept t tag hk
  | dttCfg t tag => exact execDttCfg_kept t tag hk
  | dttRun t tag => exact execDttRun_kept t tag hk
  | dttInfo t tag => exact execDttInfo_kept t tag hk
  | dttColMap t tag => exact execDttColMap_kept t tag hk
  | pstateReq t tag => exact execPstateReq_kept t tag hk
  | segCfg t tag => exact execSegCfg_kept t tag hk
  | segHold t tag => exact execSegHold_kept t tag hk
  | wakeEntry t tag => exact execWakeEntry_kept t tag hk
  | wakeSrc t tag => exact execWakeSrc_kept t tag hk
  | wakeGlobal t tag => exact execWakeGlobal_kept t tag hk
  | insomniaRead t tag => exact execInsomniaRead_kept t tag hk
  | insomniaClr t tag => exact execInsomniaClr_kept t tag hk
  | hkLoad t tag => exact execHkLoad_kept t tag hk
  | hkCfg t tag => exact execHkCfg_kept t tag hk
  | hkRun t tag => exact execHkRun_kept t tag hk
  | hkPin t tag => exact execHkPin_kept t tag hk
  | spadWin t tag => exact execSpadWin_kept t tag hk
  | mbxBind t tag => exact execMbxBind_kept t tag hk
  | memTest t tag bad => exact execMemTest_kept t tag bad hk
  | bankOwner t tag => exact execBankOwner_kept t tag hk
  | larderCfg t tag => exact execLarderCfg_kept t tag hk
  | larderFreeze t tag => exact execLarderFreeze_kept t tag hk
  | larderRelease t tag => exact execLarderRelease_kept t tag hk
  | larderPages t tag lapped => exact execLarderPages_kept t tag lapped hk
  | larderEvents t tag lapped => exact execLarderEvents_kept t tag lapped hk
  | chgStatus t tag => exact execChgStatus_kept t tag hk
  | service t tag => exact execService_kept t tag hk
  | recast t tag => exact execRecast_kept t tag hk
  | handover t tag => exact execHandover_kept t tag hk
  | iaCfg t tag => exact execIaCfg_kept t tag hk
  | rsCfg t tag => exact execRsCfg_kept t tag hk
  | colCfg t tag => exact execColCfg_kept t tag hk
  | trvCfg t tag => exact execTrvCfg_kept t tag hk
  | twinCfg t tag => exact execTwinCfg_kept t tag hk
  | digests t tag => exact execDigests_kept t tag hk
  | updateAdmit t tag => exact execUpdateAdmit_kept t tag hk
  | lcGet t tag => exact execLcGet_kept t tag hk
  | lcSet t tag => exact execLcSet_kept t tag hk
  | keyLoad t tag => exact execKeyLoad_kept t tag hk
  | vaultDelegate t tag => exact execVaultDelegate_kept t tag hk
  | vaultWipe t tag => exact execVaultWipe_kept t tag hk
  | rollbackSet t tag => exact execRollbackSet_kept t tag hk
  | bootSlot t tag => exact execBootSlot_kept t tag hk
  | debugUnlock t tag => exact execDebugUnlock_kept t tag hk
  | fuseProgramDone => exact execFuseProgramDone_kept hk
  | sysFltRseqWrite m v => exact execSysFltRseqWrite_kept m v hk
  | railSupervisorTrip ix => exact execRailSupervisorTrip_kept ix hk
  | railSupervisorRelease ix => exact execRailSupervisorRelease_kept ix hk
  | resetPinAssert p => exact execResetPinAssert_kept p hk
  | resetSourceAssert ix => exact execResetSourceAssert_kept ix hk
  | resetSourceRelease ix => exact execResetSourceRelease_kept ix hk
  | rstReleaseWrite m v => exact execRstReleaseWrite_kept m v hk
  | fuseLoadDone =>
    unfold exec
    exact execFuseLoadDone_kept hk
  | trivetRomBootDone patched => exact execTrivetRomBootDone_kept patched hk
  | halfPllLock h => exact execHalfPllLock_kept h hk
  | halfPllLockLoss h => exact execHalfPllLockLoss_kept h hk
  | halfRefFail h => exact execHalfRefFail_kept h hk
  | halfPllHoldEnd h => exact execHalfPllHoldEnd_kept h hk
  | trvOscCheck dk dp => exact execTrvOscCheck_kept dk dp hk
  | overTemperatureTrip tj trip => exact execOverTemperatureTrip_kept tj trip hk
  | xtalGood => exact execXtalGood_kept hk
  | imageLoadDone h a b image recipes => exact execImageLoadDone_kept h a b image recipes hk
  | mode6412Write m v => exact execMode6412Write_kept m v hk
  | tamperEvent cause => exact execTamperEvent_kept cause hk
  | halfWatchdogExpiry h => exact execHalfWatchdogExpiry_kept h hk
  | aliveLineToggle => exact execAliveLineToggle_kept hk
  | transportUp t width speed => exact execTransportUp_kept t width speed hk
  | cxBusIntegrated c => exact execCxBusIntegrated_kept c hk
  | sdPrbsLock l errors => exact execSdPrbsLock_kept l errors hk
  | pwrTempPeakReset m v => exact execPwrTempPeakReset_kept m v hk
  | neInlLatClear m ix v => exact execNeInlLatClear_kept m ix v hk
  | vddioClassSet bank mv => exact execVddioClassSet_kept bank mv hk
  | pcieBusMasterEnable t on => exact execPcieBusMasterEnable_kept t on hk
  | msixVectorUnmask t v addr data mask => exact execMsixVectorUnmask_kept t v addr data mask hk
  | recipeVerifyDone ix => exact execRecipeVerifyDone_kept ix hk


/-- Settles O60: a step runs one command, whose law says what it keeps, or lets a tick pass. -/
theorem everyCommandKeepsSoundness : Obligations.EveryCommandKeepsSoundness := by
  intro s hs
  refine ⟨fun c => ?_, ?_⟩
  · obtain ⟨t, ht, hq, hn, hsound⟩ := exec_kept c (s := s) ⟨rfl, rfl, hs⟩
    exact ⟨t, ht, hsound, hq, hn⟩
  · unfold step
    cases s.pending with
    | nil => exact ⟨s.tick, rfl, hs⟩
    | cons c cs =>
      obtain ⟨t, ht, -, -, hsound⟩ := exec_kept c (s := { s with pending := cs }) ⟨rfl, rfl, hs⟩
      exact ⟨t, ht, hsound⟩

/-- Settles O59: of the registers only PWR_RAIL is listed after reset, and nothing of memory. -/
theorem resetState : Obligations.ResetState := by
  intro h a
  refine ⟨⟨by decide +kernel, rfl⟩, ⟨?_, ?_, rfl, rfl⟩, fun ha => ?_, rfl⟩
  · cases h <;> rfl
  · cases h <;> rfl
  · show storeGet (regDefault a) [(A.PWR_RAIL, 0xFFF)] a = regDefault a
    rw [storeGet, storeFind, if_neg (Ne.symm ha), storeFind, Option.getD_none]

end Sys2Proof.Machine
end

section
/-! What the decisions of the charge arbiter and the releases of the Colander leave as it is: memory, time, the Trivet's presence,
the TWIN link, and the registers of the Tension link (R73 to R81, R115 to R121, R678 to R681). -/

namespace Sys2Proof.Machine
open Sys2Proof

-- Parallel elaboration holds many stacks at once, and they count towards the memory a check may take.
set_option Elab.async false

/-- The registers of block TEN, and TRV_TWIN. -/
abbrev linkReg (a : Nat) : Prop := a = A.TRV_TWIN ∨ 0x30040000 ≤ a ∧ a < 0x30050000

/-- Memory, time, the Trivet's presence, the TWIN link and the link registers are as they were. -/
structure State.Beside (s t : State) : Prop where
  mem : t.mem = s.mem
  raw : t.raw = s.raw
  now : t.now = s.now
  trivetLost : t.trivetLost = s.trivetLost
  twin : t.twin = s.twin
  link : ∀ a, linkReg a → t.rd a = s.rd a

/-- So are the charge of the halves and the resynchronisation. -/
structure State.Quiet (s t : State) : Prop extends State.Beside s t where
  chg : t.chg = s.chg
  resync : t.resync = s.resync

variable {s t u : State}

theorem State.Beside.refl (s : State) : s.Beside s := ⟨rfl, rfl, rfl, rfl, rfl, fun _ _ => rfl⟩

theorem State.Beside.trans (h : s.Beside t) (k : t.Beside u) : s.Beside u :=
  ⟨k.mem.trans h.mem, k.raw.trans h.raw, k.now.trans h.now, k.trivetLost.trans h.trivetLost, k.twin.trans h.twin,
    fun a ha => (k.link a ha).trans (h.link a ha)⟩

theorem State.Quiet.refl (s : State) : s.Quiet s := ⟨.refl s, rfl, rfl⟩

theorem State.Quiet.trans (h : s.Quiet t) (k : t.Quiet u) : s.Quiet u :=
  ⟨h.toBeside.trans k.toBeside, k.chg.trans h.chg, k.resync.trans h.resync⟩

theorem State.Beside.ite {c : Prop} [Decidable c] (h : s.Beside t) (k : s.Beside u) : s.Beside (if c then t else u) := by
  split <;> assumption

theorem State.Quiet.ite {c : Prop} [Decidable c] (h : s.Quiet t) (k : s.Quiet u) : s.Quiet (if c then t else u) := by
  split <;> assumption

theorem beside_foldl {β : Type} {f : State → β → State} (hf : ∀ (s : State) b, s.Beside (f s b)) (bs : List β) (s : State) :
    s.Beside (bs.foldl f s) := by
  induction bs generalizing s with
  | nil => exact .refl s
  | cons b bs ih => exact (hf s b).trans (ih _)

theorem quiet_foldl_of_mem {β : Type} {f : State → β → State} (bs : List β) (hf : ∀ b ∈ bs, ∀ s : State, s.Quiet (f s b)) (s : State) :
    s.Quiet (bs.foldl f s) := by
  induction bs generalizing s with
  | nil => exact .refl s
  | cons b bs ih =>
    rw [List.forall_mem_cons] at hf
    exact (hf.1 s).trans (ih hf.2 _)

theorem quiet_foldl {β : Type} {f : State → β → State} (hf : ∀ (s : State) b, s.Quiet (f s b)) (bs : List β) (s : State) :
    s.Quiet (bs.foldl f s) := quiet_foldl_of_mem bs (fun b _ s => hf s b) s

/-- A state that differs in none of these. -/
theorem State.Quiet.rest (hmem : t.mem = s.mem := by rfl) (hraw : t.raw = s.raw := by rfl) (hnow : t.now = s.now := by rfl)
    (hlost : t.trivetLost = s.trivetLost := by rfl) (htwin : t.twin = s.twin := by rfl)
    (hregs : t.regs = s.regs := by rfl) (hchg : t.chg = s.chg := by rfl) (hresync : t.resync = s.resync := by rfl) : s.Quiet t :=
  ⟨⟨hmem, hraw, hnow, hlost, htwin, fun a _ => congrArg (fun r => storeGet (regDefault a) r a) hregs⟩, hchg, hresync⟩

variable (s)

/-! ### Registers -/

/-- The link registers lie between TRV_TWIN and block COL. -/
theorem not_linkReg {a : Nat} (ha : a < A.TRV_TWIN ∨ 0x30050000 ≤ a) : ¬ linkReg a := by
  rw [linkReg]
  rw [A.TRV_TWIN] at ha ⊢
  omega

theorem quiet_wr (a : Nat) (w : Word) (ha : ¬ linkReg a) : s.Quiet (s.wr a w) :=
  ⟨⟨rfl, rfl, rfl, rfl, rfl, fun b hb => State.rd_wr_other s a b w fun hba => ha (hba ▸ hb)⟩, rfl, rfl⟩

theorem quiet_setf (a : Nat) (f : Fld) (v : Nat) (ha : ¬ linkReg a) : s.Quiet (s.setf a f v) := quiet_wr s a _ ha

theorem quiet_inc (a : Nat) (ha : ¬ linkReg a) : s.Quiet (s.inc a) := quiet_wr s a _ ha

theorem quiet_wrn (a v : Nat) (ha : ¬ linkReg a) : s.Quiet (s.wrn a v) := quiet_wr s a _ ha

theorem quiet_wr64 (lo hi v : Nat) (hlo : ¬ linkReg lo) (hhi : ¬ linkReg hi) : s.Quiet (s.wr64 lo hi v) :=
  (quiet_wrn s lo _ hlo).trans (quiet_wrn _ hi _ hhi)

theorem quiet_wrWords (a : Nat) (ws : List Nat) (ha : a + 4 * ws.length ≤ A.TRV_TWIN) : s.Quiet (s.wrWords a ws) := by
  induction ws generalizing s a with
  | nil => exact .refl s
  | cons w ws ih =>
    rw [List.length_cons] at ha
    exact (quiet_wrn s a w (not_linkReg (.inl (by omega)))).trans (ih _ _ (by omega))

/-! ### Faults (R678 to R681) -/

theorem quiet_larderEvent (typ cls source : Nat) (payload ext : List Byte) :
    s.Quiet (s.larderEvent typ cls source payload ext) := by
  unfold State.larderEvent
  split
  · exact .rest
  · exact .refl s

theorem quiet_freezeTrigger : s.Quiet s.freezeTrigger := by
  unfold State.freezeTrigger
  split
  · split
    · exact (quiet_inc s _ (by decide)).trans (quiet_larderEvent ..)
    · extract_lets frz l s1
      have h1 : s.Quiet s1 := .rest
      exact (h1.trans (quiet_setf _ A.LARDER_STATUS _ _ (by decide))).trans
        (quiet_wr64 _ A.LARDER_FRZ_AT_LO A.LARDER_FRZ_AT_HI _ (by decide) (by decide))
  · exact .refl s

theorem quiet_faultD (code cls origin source d5 d6 d7 : Nat) (hcls : cls ≤ 4) :
    s.Quiet (s.faultD code cls origin source d5 d6 d7) := by
  have hcnt : ¬ linkReg (A.SYS_FLT_CNT cls) := not_linkReg (.inl (by simp only [A.SYS_FLT_CNT, A.TRV_TWIN]; omega))
  have hlog : ∀ u : State, ∀ ws : List Nat, ws.length = 8 →
      u.Quiet ((u.wrWords (A.SYS_FLT_SLOT (u.rdn A.SYS_FLT_WSEQ % 256) 0) ws).incMod A.SYS_FLT_WSEQ F.SYS_FLT_WSEQ.SEQ) :=
    fun u ws hws => (quiet_wrWords u _ ws (by simp only [A.SYS_FLT_SLOT, A.TRV_TWIN]; omega)).trans
      (quiet_setf _ _ _ _ (by decide))
  unfold State.faultD
  extract_lets ws s1 s2 s3 s4
  have h1 : s.Quiet s1 := quiet_inc s _ hcnt
  have h2 : s.Quiet s2 := .ite h1 (h1.trans (hlog s1 ws rfl))
  have h3 : s.Quiet s3 := h2.trans (quiet_larderEvent ..)
  have h4 : s.Quiet s4 := .ite (h3.trans (quiet_setf _ _ _ _ (by decide)))
    (.ite (h3.trans (quiet_setf _ _ _ _ (by decide))) h3)
  exact .ite (h4.trans (quiet_freezeTrigger s4)) h4

theorem quiet_fault (code cls origin source : Nat) (hcls : cls ≤ 4) : s.Quiet (s.fault code cls origin source) :=
  quiet_faultD s code cls origin source 0 0 0 hcls

/-- Words put into registers change registers alone. -/
theorem wrWords_eq (a : Nat) (ws : List Nat) : ∃ regs, s.wrWords a ws = { s with regs := regs } := by
  induction ws generalizing s a with
  | nil => exact ⟨s.regs, rfl⟩
  | cons w ws ih =>
    obtain ⟨regs, h⟩ := ih (s.wrn a w) (a + 4)
    exact ⟨regs, h⟩

theorem larderEvent_eq (typ cls source : Nat) (payload ext : List Byte) :
    ∃ larder, s.larderEvent typ cls source payload ext = { s with larder := larder } := by
  unfold State.larderEvent
  split
  · exact ⟨_, rfl⟩
  · exact ⟨s.larder, rfl⟩

theorem freezeTrigger_eq : ∃ regs larder, s.freezeTrigger = { s with regs := regs, larder := larder } := by
  unfold State.freezeTrigger
  split
  · split
    · obtain ⟨larder, h⟩ := larderEvent_eq (s.inc A.LARDER_FRZ_IGNORED) 5 0xFF 0 (Config.evtPayload 5 0 0) []
      exact ⟨_, larder, h⟩
    · exact ⟨_, _, rfl⟩
  · exact ⟨s.regs, s.larder, rfl⟩

/-- A fault of any class changes registers and the Larder alone. -/
theorem faultD_eq (code cls origin source d5 d6 d7 : Nat) :
    ∃ regs larder, s.faultD code cls origin source d5 d6 d7 = { s with regs := regs, larder := larder } := by
  unfold State.faultD
  extract_lets ws s1 s2 s3 s4
  have h2 : ∃ regs, s2 = { s with regs := regs } := by
    unfold s2
    split
    · exact ⟨_, rfl⟩
    · obtain ⟨regs, h⟩ := wrWords_eq s1 (A.SYS_FLT_SLOT (s1.rdn A.SYS_FLT_WSEQ % 256) 0) ws
      rw [h]
      exact ⟨_, rfl⟩
  have h3 : ∃ regs larder, s3 = { s with regs := regs, larder := larder } := by
    obtain ⟨regs, h⟩ := h2
    obtain ⟨larder, h'⟩ := larderEvent_eq s2 1 cls source (ws.flatMap (leBytes 4)) []
    exact ⟨regs, larder, h'.trans (by rw [h])⟩
  have h4 : ∃ regs larder, s4 = { s with regs := regs, larder := larder } := by
    obtain ⟨regs, larder, h⟩ := h3
    unfold s4
    rw [h]
    split
    · exact ⟨_, larder, rfl⟩
    · split
      · exact ⟨_, larder, rfl⟩
      · exact ⟨regs, larder, rfl⟩
  obtain ⟨regs, larder, h⟩ := h4
  split
  · obtain ⟨regs', larder', h'⟩ := freezeTrigger_eq s4
    exact ⟨regs', larder', h'.trans (by rw [h])⟩
  · exact ⟨regs, larder, h⟩

theorem fault_eq (code cls origin source : Nat) :
    ∃ regs larder, s.fault code cls origin source = { s with regs := regs, larder := larder } :=
  faultD_eq s code cls origin source 0 0 0

/-! ### The Colander's queues and releases (R115 to R121, R687 to R691) -/

theorem quiet_putColQueue (h : Half) (q : List Copy) : s.Quiet (s.putColQueue h q) :=
  .trans .rest (quiet_setf _ A.COL_QUEUE _ _ (by decide))

theorem quiet_colDiscard (h : Half) (f : Copy → Bool) : s.Quiet (s.colDiscard h f) :=
  (quiet_wrn s A.COL_DISCARD _ (by decide)).trans (quiet_putColQueue _ h _)

theorem quiet_takePair (n rp : Nat) : s.Quiet (s.takePair n rp) :=
  (quiet_putColQueue s .k _).trans (quiet_putColQueue _ .p _)

theorem quiet_stitchWrite (c st : Nat) (data : List Byte) (ready : Nat) : s.Quiet (s.stitchWrite c st data ready) := by
  have hrej : ¬ linkReg (A.DTT_TX_REJ c) := not_linkReg (.inr (by simp only [A.DTT_TX_REJ]; omega))
  exact .ite (quiet_inc s _ hrej) .rest

theorem quiet_cxFill {c : Nat} {f : CxFrame} (hf : s.cxFill c f = some t) : s.Quiet t := by
  unfold State.cxFill at hf
  split at hf
  · cases hf
    exact .rest
  · cases hf

theorem quiet_mapPlane (h : Half) (f : Plane → Plane) : s.Quiet (s.mapPlane h f) := by
  cases h <;> exact .rest

theorem quiet_egress (bytes : List Byte) (v : Nat) : s.Quiet (s.egress bytes v) := by
  unfold State.egress
  extract_lets h c t
  refine .ite (.refl s) ?_
  split
  · exact .ite (quiet_stitchWrite ..) (quiet_inc s _ (by decide))
  · split
    · exact quiet_cxFill s ‹_›
    · exact quiet_inc s _ (by decide)
  · exact quiet_mapPlane s h _
  · exact .refl s

theorem quiet_emit (o : Output) : s.Quiet (s.emit o) := .rest

theorem quiet_colRelease (c : Copy) : s.Quiet (s.colRelease c) := by
  have hstat : ¬ linkReg (A.COL_STREAM_STAT c.stream) := not_linkReg (.inr (by simp only [A.COL_STREAM_STAT]; omega))
  have h1 := quiet_inc s A.COL_RELEASED (by decide)
  have h2 := quiet_setf (s.inc A.COL_RELEASED) (A.COL_STREAM_STAT c.stream) F.COL_STREAM_STAT.RELEASED
    ((s.inc A.COL_RELEASED).fld (A.COL_STREAM_STAT c.stream) F.COL_STREAM_STAT.RELEASED + 1) hstat
  unfold State.colRelease
  dsimp only
  refine .trans ?_ (quiet_foldl (fun s w => quiet_egress s c.bytes (s.streamWord c.stream w)) [1, 2, 3, 4] _)
  exact (h1.trans h2).trans (quiet_emit ..)

theorem quiet_releaseAlone (h : Half) : s.Quiet (s.releaseAlone h) := by
  refine .ite (.refl s) (quiet_foldl (fun s k => ?_) _ _)
  split
  · exact .ite (quiet_takePair ..) ((quiet_takePair ..).trans (quiet_colRelease ..))
  · exact .refl s

/-! ### The self-test and the streams (R695 to R699) -/

theorem quiet_mapStreams_setf (keep : List Nat) (f : Fld) (v : Nat) :
    s.Quiet (s.mapStreams fun s n => if keep.contains n then s else s.setf (A.COL_STREAM_STAT n) f v) :=
  quiet_foldl (fun s n => .ite (.refl s) (quiet_setf s _ _ _ (not_linkReg (.inr (by simp only [A.COL_STREAM_STAT]; omega))))) _ _

theorem quiet_clearRuns (keep : List Nat) : s.Quiet (s.clearRuns keep) := quiet_mapStreams_setf s keep _ 0

theorem quiet_clearBlocked (keep : List Nat) : s.Quiet (s.clearBlocked keep) := quiet_mapStreams_setf s keep _ 0

theorem quiet_abandonTest : s.Quiet s.abandonTest := by
  unfold State.abandonTest
  split
  · exact .refl s
  · extract_lets c s1 s2
    have h1 : s.Quiet s1 := .rest
    have h2 : s.Quiet s2 := (h1.trans (quiet_setf _ A.COL_STATUS _ _ (by decide))).trans
      (quiet_setf _ A.COL_STATUS _ _ (by decide))
    exact (h2.trans (quiet_clearBlocked ..)).trans (quiet_clearRuns ..)

/-! ### The parts of a decision of the arbiter (R73 to R85, R428, R701) -/

theorem quiet_isolate (h : Half) (on : Bool) : s.Quiet (s.isolate h on) := by
  cases h <;> exact .ite .rest .rest

theorem quiet_clearStaged (h : Half) : s.Quiet (s.clearStaged h) := by
  cases h <;> exact .rest

theorem quiet_iaHolder : s.Quiet s.iaHolder :=
  .ite .rest (.refl s)

theorem quiet_ownerHandover (h : Half) : s.Quiet (s.ownerHandover h) := by
  refine quiet_foldl (fun s d => ?_) _ _
  have hstat : ¬ linkReg (A.GAUGE_DOM_STATUS d) := not_linkReg (.inr (by simp only [A.GAUGE_DOM_STATUS]; omega))
  extract_lets cfg alt st
  split
  · refine .ite ?_ (.refl s)
    have h1 : s.Quiet (s.setf st F.GAUGE_DOM_STATUS.OWNER_NOW alt) := quiet_setf s _ _ _ hstat
    exact .ite (h1.trans (quiet_setf _ _ _ _ hstat)) h1
  · exact .refl s

theorem quiet_ownerHandovers (xs : List Exit) : s.Quiet (xs.foldl (fun s x => s.ownerHandover x.half) s) := by
  induction xs generalizing s with
  | nil => exact .refl s
  | cons x xs ih => exact (quiet_ownerHandover s x.half).trans (ih (s.ownerHandover x.half))

/-- What a state that differs in charge alone leaves as it is. -/
theorem beside_chg (c : Charge) : s.Beside { s with chg := c } := ⟨rfl, rfl, rfl, rfl, rfl, fun _ _ => rfl⟩

theorem beside_setProbation (h : Half) (a b : Bool) : s.Beside (s.setProbation h a b) := beside_chg s _

theorem beside_cancelHandover : s.Beside s.cancelHandover :=
  (beside_chg s _).trans (quiet_wr64 _ _ _ _ (by decide) (by decide)).toBeside

theorem beside_setMode (m : ChgMode) : s.Beside (s.setMode m) :=
  .ite ((beside_chg s _).trans (quiet_clearRuns _ _).toBeside) (beside_chg s _)

theorem beside_endResync : s.Beside s.endResync := by
  unfold State.endResync
  split
  · exact .refl s
  · exact ⟨rfl, rfl, rfl, rfl, rfl, fun _ _ => rfl⟩

theorem beside_openWindow : s.Beside s.openWindow :=
  .ite (.refl s) (.ite ((beside_endResync s).trans (beside_chg _ _)) (beside_endResync s))

theorem quiet_mapEp (h : Half) (f : Endpoint → Endpoint) : s.Quiet (s.mapEp h f) := by
  cases h <;> exact .rest

/-! ### A decision (R76 to R81) -/

/-- The registers of the interrupt sources of a changed charge state are no link registers. -/
theorem pend_not_linkReg : ∀ a ∈ [A.HI_PEND 0, A.HI_PEND 1, A.QH_HI_PEND 0, A.QH_HI_PEND 1, A.LB_HI_PEND 0], ¬ linkReg a := by
  decide

/-- What happens beside a half's entry of a state changes neither memory nor charge. -/
theorem enter_quiet (h : Half) (dest : ChgState) (cause : Nat) :
    let c := s.chg.half h
    let c' : HalfChg :=
      { c with st := dest, cause := cause, fromSt := c.st.code, toSt := dest.code, count := min 0xFFFF (c.count + 1) }
    State.Quiet { s with chg := s.chg.putHalf h c' } (s.enter h dest cause) := by
  unfold State.enter
  extract_lets c c' s1 s2 s3 s4
  have h2 : s1.Quiet s2 := quiet_mapEp s1 h _
  have h3 : s1.Quiet s3 := h2.trans (quiet_larderEvent ..)
  have h4 : s1.Quiet s4 := h3.trans (quiet_foldl (fun s k => .ite .rest (.refl s)) _ _)
  exact h4.trans (quiet_foldl_of_mem _ (fun a ha u => quiet_wrn u a _ (pend_not_linkReg a ha)) _)

theorem beside_enter (h : Half) (dest : ChgState) (cause : Nat) : s.Beside (s.enter h dest cause) :=
  (beside_chg s _).trans (enter_quiet s h dest cause).toBeside

theorem beside_exitOne (x : Exit) : s.Beside (s.exitOne x) := by
  unfold State.exitOne
  extract_lets was s1 s2 s3 s4 s5 iso s6 ia iak iap s7
  have h1 : s.Beside s1 := beside_enter ..
  have h2 : s.Beside s2 := by
    unfold s2
    split
    · exact h1.trans (quiet_faultD _ _ _ _ _ _ _ _ (by decide)).toBeside
    · exact h1
  have h3 : s.Beside s3 := (h2.trans (beside_cancelHandover _)).trans (quiet_abandonTest _).toBeside
  have h4 : s.Beside s4 := .ite (h3.trans (quiet_colDiscard ..).toBeside) h3
  have h6 : s.Beside s6 := (h4.trans (beside_setProbation ..)).trans (quiet_isolate ..).toBeside
  have h7 : s.Beside s7 := by
    unfold s7
    split <;> exact h6.trans (State.Quiet.rest).toBeside
  split
  · exact .ite (h7.trans (beside_endResync _)) h7
  · exact h7

theorem beside_settle (old : Option Half) : s.Beside (s.settle old) := by
  unfold State.settle
  split
  · next h =>
    split
    · exact .ite (.refl s) ((beside_setMode ..).trans (quiet_releaseAlone ..).toBeside)
    · split
      · extract_lets upd s1 s2 s3 s4
        have h2 : s.Beside s2 := (beside_enter ..).trans (beside_setProbation ..)
        have h3 : s.Beside s3 := .ite (h2.trans (quiet_clearStaged ..).toBeside) h2
        exact ((h3.trans (beside_chg ..)).trans (beside_setMode ..)).trans (quiet_iaHolder _).toBeside
      · extract_lets c s1 s2
        have h2 : s.Beside s2 := ((beside_chg s _).trans (beside_setMode ..)).trans (quiet_fault _ 0x48 4 _ _ (by decide)).toBeside
        exact (h2.trans (quiet_iaHolder _).toBeside).trans (beside_openWindow _)
  · exact .refl s

/-- A decision of the arbiter changes no memory, no time, no link register (R76 to R81). -/
theorem beside_exits (xs : List Exit) : s.Beside (s.exits xs) := by
  unfold State.exits
  refine .ite (.refl s) ?_
  extract_lets xs1 xs2 old gone c s1 s2 s3
  refine .ite (.refl s) ?_
  have h1 : s.Beside s1 := beside_chg s _
  have h2 : s.Beside s2 := h1.trans (beside_foldl beside_exitOne _ _)
  have h3 : s.Beside s3 := h2.trans (beside_settle ..)
  exact h3.trans (quiet_ownerHandovers ..).toBeside

end Sys2Proof.Machine
end

section
/-! What a decision of the arbiter does to the charge of the halves (Table 2.2, R73 to R81). -/

namespace Sys2Proof.Machine
open Sys2Proof

-- Parallel elaboration holds many stacks at once, and they count towards the memory a check may take.
set_option Elab.async false

@[simp] theorem other_other (h : Half) : h.other.other = h := by cases h <;> rfl

theorem other_ne (h : Half) : h.other ≠ h := by cases h <;> decide

section
variable (c : Charge) (h : Half) (x : HalfChg)

@[simp] theorem half_putHalf : (c.putHalf h x).half h = x := by cases h <;> rfl

@[simp] theorem half_putHalf_other : (c.putHalf h x).half h.other = c.half h.other := by cases h <;> rfl

@[simp] theorem half_putHalf_of_other : (c.putHalf h.other x).half h = c.half h := by cases h <;> rfl

@[simp] theorem holder_putHalf : (c.putHalf h x).holder = c.holder := by cases h <;> rfl

@[simp] theorem mode_putHalf : (c.putHalf h x).mode = c.mode := by cases h <;> rfl

end

variable (s : State)

/-- The record of a half shows a state and the cause it was entered for (Tables 2.1, 2.13). -/
def State.isIn (s : State) (h : Half) (d : ChgState) (cause : Nat) : Prop :=
  s.chgOf h = d ∧ (s.chg.half h).cause = cause

theorem isIn_enter (h : Half) (d : ChgState) (cause : Nat) : (s.enter h d cause).isIn h d cause := by
  rw [State.isIn, State.chgOf, State.enter_chg, half_putHalf]
  exact ⟨rfl, rfl⟩

/-! ### The parts of a decision -/

/-- The end of a resynchronisation changes RESYNC alone. -/
theorem endResync_half (g : Half) : ∃ b, s.endResync.chg.half g = { s.chg.half g with resync := b } := by
  unfold State.endResync
  split
  · exact ⟨(s.chg.half g).resync, rfl⟩
  · next r _ =>
    by_cases hg : g = r.cand
    · subst hg
      exact ⟨false, half_putHalf ..⟩
    · have hother : g = r.cand.other := by revert hg; cases g <;> cases r.cand <;> simp [Half.other]
      subst hother
      exact ⟨_, half_putHalf_other ..⟩

theorem endResync_holder : s.endResync.chg.holder = s.chg.holder := by
  unfold State.endResync
  split
  · rfl
  · exact holder_putHalf ..

theorem endResync_mode : s.endResync.chg.mode = s.chg.mode := by
  unfold State.endResync
  split
  · rfl
  · exact mode_putHalf ..

theorem setMode_chg (m : ChgMode) : (s.setMode m).chg = { s.chg with mode := m } := by
  unfold State.setMode
  dsimp only
  split
  · exact (quiet_clearRuns _ _).chg
  · rfl

/-- The cast-on window opens, or nothing does; the halves' states, HOLDER and MODE stay. -/
theorem openWindow_half (g : Half) : s.openWindow.chgOf g = s.chgOf g ∧ (s.openWindow.chg.half g).cause = (s.chg.half g).cause := by
  obtain ⟨b, hb⟩ := endResync_half s g
  have hend : s.endResync.chgOf g = s.chgOf g ∧ (s.endResync.chg.half g).cause = (s.chg.half g).cause := by
    rw [State.chgOf, hb]
    exact ⟨rfl, rfl⟩
  unfold State.openWindow
  dsimp only
  split
  · exact ⟨rfl, rfl⟩
  · split
    · cases g <;> exact hend
    · exact hend

theorem openWindow_holder : s.openWindow.chg.holder = s.chg.holder ∧ s.openWindow.chg.mode = s.chg.mode := by
  have hend := And.intro (endResync_holder s) (endResync_mode s)
  unfold State.openWindow
  dsimp only
  split
  · exact ⟨rfl, rfl⟩
  · split <;> exact hend

/-- A half that leaves enters the target state for the cause; the other half, HOLDER and MODE are as they were. -/
theorem exitOne_chg (x : Exit) : ∃ y : HalfChg, y.st = x.dest ∧ y.cause = x.cause ∧
    (s.exitOne x).chg = ({ s.chg with service := none } : Charge).putHalf x.half y := by
  unfold State.exitOne
  extract_lets was s1 s2 s3 s4 s5 iso s6 ia iak iap s7
  have h2 : s2.chg = s1.chg := by
    unfold s2
    split
    · exact (quiet_faultD _ _ _ _ _ _ _ _ (by decide)).chg
    · rfl
  have h3 : s3.chg = { s1.chg with service := none } := by
    rw [← h2]
    exact (quiet_abandonTest _).chg
  have h4 : s4.chg = s3.chg := (State.Quiet.ite (quiet_colDiscard ..) (.refl s3)).chg
  have h5 : ∃ y : HalfChg, y.st = x.dest ∧ y.cause = x.cause ∧
      s5.chg = ({ s.chg with service := none } : Charge).putHalf x.half y := by
    refine ⟨{ s4.chg.half x.half with probation := false, update := false }, ?_⟩
    have hs5 : s5.chg = s4.chg.putHalf x.half { s4.chg.half x.half with probation := false, update := false } := rfl
    rw [hs5, h4, h3, State.enter_chg]
    cases x.half <;> exact ⟨rfl, rfl, rfl⟩
  have h7 : s7.chg = s5.chg := by
    have h6 : s6.chg = s5.chg := (quiet_isolate ..).chg
    unfold s7
    split <;> exact h6
  rw [← h7] at h5
  obtain ⟨y, hst, hcause, hy⟩ := h5
  split
  · next r hr =>
    split
    · next hcand =>
      refine ⟨{ y with resync := false }, hst, hcause, ?_⟩
      have hend : s7.endResync.chg = s7.chg.putHalf r.cand { s7.chg.half r.cand with resync := false } := by
        unfold State.endResync
        rw [hr]
      rw [hend, hy, hcand]
      cases x.half <;> rfl
    · exact ⟨y, hst, hcause, hy⟩
  · exact ⟨y, hst, hcause, hy⟩

/-! ### What the exits leave to settle (R75 to R77, R85) -/

/-- The holder stays without a standby half: 1oo1D (R77). -/
theorem settle_of_holder_alone {h : Half} (hh : s.chgOf h = .charge) (ho : s.chgOf h.other ≠ .standby) :
    (s.settle (some h)).chg = { s.chg with mode := .one } := by
  unfold State.settle
  dsimp only
  rw [if_pos hh, if_neg ho]
  exact (quiet_releaseAlone _ h).chg.trans (setMode_chg s .one)

/-- Neither the holder nor a standby half is left: no HOLDER, no MODE (R75). -/
theorem settle_of_nobody {h : Half} (hh : s.chgOf h ≠ .charge) (ho : s.chgOf h.other ≠ .standby) :
    (s.settle (some h)).chg.holder = 0 ∧ (s.settle (some h)).chg.mode = .none := by
  unfold State.settle
  dsimp only
  rw [if_neg hh, if_neg ho]
  obtain ⟨hholder, hmode⟩ := openWindow_holder
    ((({ s with chg := { s.chg with holder := 0, grant := 0, last := none } } : State).setMode .none).fault 0x48 4 originShared 0).iaHolder
  rw [hholder, hmode, (quiet_iaHolder _).chg, (quiet_fault _ 0x48 4 _ _ (by decide)).chg, setMode_chg]
  exact ⟨rfl, rfl⟩

/-- A half that is not in STANDBY keeps its state and cause. -/
theorem settle_isIn {g : Half} {d : ChgState} {cause : Nat} (old : Option Half) (hg : s.isIn g d cause) (hd : d ≠ .standby) :
    (s.settle old).isIn g d cause := by
  obtain ⟨hst, hcause⟩ := hg
  have hne : ∀ h : Half, s.chgOf h = .standby → g = h.other := by
    intro h hh
    have : g ≠ h := by rintro rfl; exact hd (hst.symm.trans hh)
    revert this
    cases g <;> cases h <;> simp [Half.other]
  unfold State.settle
  split
  · next h =>
    split
    · split
      · exact ⟨hst, hcause⟩
      · rw [State.isIn, State.chgOf, (quiet_releaseAlone _ h).chg, setMode_chg]
        exact ⟨hst, hcause⟩
    · split
      · next ho =>
        have hgh : g = h := by rw [hne _ ho, other_other]
        subst hgh
        extract_lets upd s1 s2 s3 c s4
        have h3 : s3.chg = s2.chg := (State.Quiet.ite (quiet_clearStaged ..) (.refl s2)).chg
        have h4 : (s4.setMode .one).iaHolder.chg.half g = s.chg.half g := by
          rw [(quiet_iaHolder _).chg, setMode_chg]
          show s3.chg.half g = _
          rw [h3]
          show (s1.chg.putHalf g.other _).half g = _
          rw [half_putHalf_of_other, State.enter_chg, half_putHalf_of_other]
        rw [State.isIn, State.chgOf, h4]
        exact ⟨hst, hcause⟩
      · extract_lets c s1 s2
        have h2 : s2.iaHolder.chg.half g = s.chg.half g := by
          rw [(quiet_iaHolder _).chg, (quiet_fault _ 0x48 4 _ _ (by decide)).chg, setMode_chg]
          rfl
        obtain ⟨hwst, hwcause⟩ := openWindow_half s2.iaHolder g
        rw [State.isIn, hwst, hwcause, State.chgOf, h2]
        exact ⟨hst, hcause⟩
  · exact ⟨hst, hcause⟩

/-! ### A decision -/

/-- T4, T5 and T8 lead to none of the states that settle the charge. -/
theorem dest_of_allowed {x : Exit} {c : ChgState} (hx : x.allowed c = true) : x.dest ≠ .standby ∧ x.dest ≠ .charge := by
  unfold Exit.allowed at hx
  constructor <;> intro hd <;> simp [hd] at hx

/-- The state in which the arbiter takes the exits of a decision: its instant is recorded. -/
def State.deciding (s : State) : State := { s with chg := { s.chg with decided := some s.raw } }

/-- Where every exit is allowed and none comes before another of its half, all are taken, and what they leave is settled. -/
theorem exits_chg {xs : List Exit} (hlost : s.trivetLost = false) (hsome : xs ≠ [])
    (hallowed : ∀ x ∈ xs, x.allowed (s.chgOf x.half) = true) (hfirst : ∀ x ∈ xs, Exit.first xs x = true) :
    (s.exits xs).chg = ((xs.foldl State.exitOne s.deciding).settle s.charged).chg := by
  unfold State.exits
  simp only [hlost, List.filter_eq_self.2 hallowed, List.filter_eq_self.2 hfirst, hsome, Bool.false_eq_true, if_false]
  rw [(quiet_ownerHandovers _ _).chg, State.deciding, hlost]

section
variable {s} {x : Exit} (hlost : s.trivetLost = false) (hallowed : x.allowed (s.chgOf x.half) = true)
include hlost hallowed

theorem exits_singleton_chg : (s.exits [x]).chg = ((s.deciding.exitOne x).settle s.charged).chg :=
  exits_chg s hlost (List.cons_ne_nil x []) (by simpa using hallowed) (by simp [Exit.first])

/-- The half of an allowed exit is then in the target state, for the cause of the exit. -/
theorem exits_singleton_isIn : (s.exits [x]).isIn x.half x.dest x.cause := by
  obtain ⟨y, hst, hcause, hy⟩ := exitOne_chg s.deciding x
  have hexit : (s.deciding.exitOne x).isIn x.half x.dest x.cause := by
    rw [State.isIn, State.chgOf, hy, half_putHalf]
    exact ⟨hst, hcause⟩
  have hsettle := settle_isIn _ s.charged hexit (dest_of_allowed hallowed).1
  rw [State.isIn, State.chgOf, exits_singleton_chg hlost hallowed]
  exact hsettle

end

/-! ### T4, T5 and T8 of one half -/

section
variable {s} {h : Half} (cause code : Nat) (d : Diag) (hlost : s.trivetLost = false)
include hlost

theorem toLost_isIn (hs : s.chgOf h ≠ .service) (hl : s.chgOf h ≠ .lost) : (s.toLost h cause code).isIn h .lost cause := by
  refine exits_singleton_isIn (x := ⟨h, .lost, cause, some ⟨code, 0, 0, 0, 0⟩⟩) hlost ?_
  revert hs hl
  cases hc : s.chgOf h <;> simp [Exit.allowed]

theorem demote_isIn (hs : s.inService h = true) : (s.demote h cause d).isIn h .demoted cause :=
  exits_singleton_isIn (x := ⟨h, .demoted, cause, some d⟩) hlost hs

end

/-- Beside a half in STANDBY the half in CHARGE is the one that the arbiter sees. -/
theorem charged_of_standby {h : Half} (hh : s.chgOf h = .charge) (ho : s.chgOf h.other = .standby) : s.charged = some h := by
  cases h
  · simp [State.charged, hh]
  · have hk : s.chgOf .k = .standby := ho
    simp [State.charged, hh, hk]

/-- The exit of a standby half to a state leaves the holder in charge, alone (R77). -/
theorem exits_of_standby {h : Half} {x : Exit} (hx : x.half = h.other) (hlost : s.trivetLost = false)
    (hh : s.chgOf h = .charge) (ho : s.chgOf h.other = .standby) (hallowed : x.allowed (s.chgOf x.half) = true) :
    (s.exits [x]).chgOf h = .charge ∧ (s.exits [x]).chgOf h.other = x.dest ∧ (s.exits [x]).chg.holder = s.chg.holder ∧
      (s.exits [x]).chg.mode = .one := by
  obtain ⟨y, hst, -, hy⟩ := exitOne_chg s.deciding x
  rw [hx] at hy
  have hholder : (s.deciding.exitOne x).chgOf h = .charge := by
    rw [State.chgOf, hy, half_putHalf_of_other]
    exact hh
  have hother : (s.deciding.exitOne x).chgOf h.other ≠ .standby := by
    rw [State.chgOf, hy, half_putHalf, hst]
    exact (dest_of_allowed hallowed).1
  have hchg := exits_singleton_chg hlost hallowed
  rw [charged_of_standby s hh ho, settle_of_holder_alone _ hholder hother, hy] at hchg
  rw [State.chgOf, State.chgOf, hchg]
  exact ⟨(congrArg HalfChg.st (half_putHalf_of_other ..)).trans hh, (congrArg HalfChg.st (half_putHalf ..)).trans hst,
    holder_putHalf .., rfl⟩

/-- Settles O19: the holder is the half in CHARGE before the exit and after it, and what is left to settle is MODE. -/
theorem standbyHalfTakenOut : Obligations.StandbyHalfTakenOut := by
  rintro s h cause code d ⟨hlost, hh, ho⟩
  exact ⟨exits_of_standby s (x := ⟨h.other, .lost, cause, some ⟨code, 0, 0, 0, 0⟩⟩) rfl hlost hh ho (by rw [ho]; rfl),
    exits_of_standby s (x := ⟨h.other, .demoted, cause, some d⟩) rfl hlost hh ho (by rw [ho]; rfl)⟩

end Sys2Proof.Machine
end

section
/-! Heartbeats of the halves (R94 to R100). -/

namespace Sys2Proof.Machine
open Sys2Proof

-- Parallel elaboration holds many stacks at once, and they count towards the memory a check may take.
set_option Elab.async false

variable (s : State) {t u : State} (h : Half)

/-- An endpoint and a field of a register changed, and nothing else. -/
theorem putEp_setf (e : Endpoint) (a : Nat) (f : Fld) (v : Nat) :
    let t := (s.putEp h e).setf a f v
    t.ep h = e ∧ t.ep h.other = s.ep h.other ∧ s.regsBut t [a] ∧ { t with regs := s.regs, epK := s.epK, epP := s.epP } = s := by
  refine ⟨?_, ?_, fun b hb => ?_, ?_⟩
  · cases h <;> rfl
  · cases h <;> rfl
  · rw [State.rd_setf, if_neg (by simpa using hb)]
    cases h <;> rfl
  · cases h <;> rfl

/-! ### Launch (R94, R95) -/

/-- A running half that is not suppressed sends a heartbeat and advances its sequences. -/
theorem hbLaunch_of_running (hrun : s.running h = true) (hsup : (s.ep h).suppressed = false) :
    s.hbLaunch h = (s.emit (.heartbeat h.n [s.heartbeatBody h, crc16 (beBytes 16 (s.heartbeatBody h))])).putEp h
      { s.ep h with hbSeq := ((s.ep h).hbSeq + 1) % 65536, msgSeq := ((s.ep h).msgSeq + 1) % 16 } := by
  unfold State.hbLaunch
  simp only [hrun, hsup, Bool.not_true, Bool.false_eq_true, or_self, if_false]

theorem hbLaunch_of_suppressed (hsup : (s.ep h).suppressed = true) : s.hbLaunch h = s := by
  unfold State.hbLaunch
  simp only [hsup, true_or, if_true]

/-- The launch of one half leaves the other's heartbeat as it is. -/
theorem hbLaunch_both (hk : s.running .k = true) (hp : s.running .p = true) (hsk : s.epK.suppressed = false)
    (hsp : s.epP.suppressed = false) : (s.hbLaunch .k).hbLaunch .p =
      { s with
        epK := { s.epK with hbSeq := (s.epK.hbSeq + 1) % 65536, msgSeq := (s.epK.msgSeq + 1) % 16 }
        epP := { s.epP with hbSeq := (s.epP.hbSeq + 1) % 65536, msgSeq := (s.epP.msgSeq + 1) % 16 }
        out := .heartbeat 1 [s.heartbeatBody .p, crc16 (beBytes 16 (s.heartbeatBody .p))] ::
          .heartbeat 0 [s.heartbeatBody .k, crc16 (beBytes 16 (s.heartbeatBody .k))] :: s.out } := by
  rw [hbLaunch_of_running s .k hk hsk]
  exact hbLaunch_of_running _ .p hp hsp

/-! ### Reception (R96, R97) -/

/-- What every valid heartbeat does: it is recorded, the misses end, the timer restarts; the third STATE in a row that differs
raises an F2 fault. -/
def State.hbTaken (s : State) (h : Half) (seq st : Nat) (outValid : Bool) : State :=
  let e := s.ep h
  let run := if st ≠ (s.chgOf h).code then min 4 (e.diffRun + 1) else 0
  let t := (s.putEp h { e with lastSeq := some seq, outValid := outValid, hbAt := s.now, diffRun := run }).setf A.TEN_STATUS (missFld h) 0
  if run = 3 then t.fault 0x35 2 (originHalf h) 0 else t

section
variable (seq : BitVec 16) (st : Fin 16) (ready outValid healthy : Bool) (code : Byte)

/-- The heartbeat of a healthy half is taken, and may take the half to CANDIDATE. -/
theorem exec_heartbeatReceive_healthy (hlost : s.trivetLost = false) (hvalid : hbValid (s.ep h).lastSeq seq.toNat = true) :
    exec (.heartbeatReceive h seq st ready outValid true code) s =
      .next (if ready = true then (s.hbTaken h seq.toNat st outValid).t1 h else s.hbTaken h seq.toNat st outValid) := by
  show execHeartbeatReceive h seq st ready outValid true code s = _
  unfold execHeartbeatReceive State.hbTaken
  cases ready <;> simp [hlost, hvalid]

/-- A heartbeat with HEALTHY = 0 is taken, and demotes the half. -/
theorem exec_heartbeatReceive_unhealthy (hlost : s.trivetLost = false) (hvalid : hbValid (s.ep h).lastSeq seq.toNat = true) : ∃ d,
    exec (.heartbeatReceive h seq st ready outValid false code) s =
      .next ((s.hbTaken h seq.toNat st outValid).demote h 0x20 d) := by
  refine ⟨match (s.ep h).unhealthy with
    | some d => if d.code = code.toNat then d else ⟨code.toNat, 0, 0, 0, 0⟩
    | none => ⟨code.toNat, 0, 0, 0, 0⟩, ?_⟩
  show execHeartbeatReceive h seq st ready outValid false code s = _
  unfold execHeartbeatReceive State.hbTaken
  simp only [hlost, hvalid, Bool.not_true, Bool.false_eq_true, or_self, if_false, decide_eq_true_eq]
  rfl

theorem exec_heartbeatReceive_of_invalid (hlost : s.trivetLost = true ∨ hbValid (s.ep h).lastSeq seq.toNat = false) :
    exec (.heartbeatReceive h seq st ready outValid healthy code) s = .next s := by
  show execHeartbeatReceive h seq st ready outValid healthy code s = _
  refine if_pos (hlost.imp_right fun hv => ?_)
  rw [hv]
  rfl

end

section
variable (seq st : Nat) (outValid : Bool)

/-- A heartbeat that is taken changes registers, the Larder and the half's endpoint alone. -/
theorem hbTaken_eq : ∃ e regs larder, s.hbTaken h seq st outValid = { s.putEp h e with regs := regs, larder := larder } := by
  unfold State.hbTaken
  extract_lets e run t
  split
  · obtain ⟨regs, larder, hf⟩ := fault_eq t 0x35 2 (originHalf h) 0
    exact ⟨_, regs, larder, hf⟩
  · exact ⟨_, t.regs, (s.putEp h _).larder, rfl⟩

/-- Such a state has the charge, memory, time and Trivet of the one before. -/
theorem hbTaken_keeps : (s.hbTaken h seq st outValid).chg = s.chg ∧ (s.hbTaken h seq st outValid).mem = s.mem ∧
    (s.hbTaken h seq st outValid).trivetLost = s.trivetLost ∧ (s.hbTaken h seq st outValid).raw = s.raw := by
  obtain ⟨e, regs, larder, ht⟩ := hbTaken_eq s h seq st outValid
  rw [ht]
  cases h <;> exact ⟨rfl, rfl, rfl, rfl⟩

theorem chg_hbTaken : (s.hbTaken h seq st outValid).chg = s.chg := (hbTaken_keeps ..).1

theorem mem_hbTaken : (s.hbTaken h seq st outValid).mem = s.mem := (hbTaken_keeps ..).2.1

theorem trivetLost_hbTaken : (s.hbTaken h seq st outValid).trivetLost = s.trivetLost := (hbTaken_keeps ..).2.2.1

theorem raw_hbTaken : (s.hbTaken h seq st outValid).raw = s.raw := (hbTaken_keeps ..).2.2.2

/-- Where STATE agrees, no fault is raised. -/
theorem hbTaken_of_agreeing : s.hbTaken h seq (s.chgOf h).code outValid =
    (s.putEp h { s.ep h with lastSeq := some seq, outValid := outValid, hbAt := s.now, diffRun := 0 }).setf A.TEN_STATUS (missFld h) 0 := by
  simp [State.hbTaken]

end

/-! ### T1 (R74, R85) -/

theorem castOnClose_of_no_window (hw : s.chg.window = none) : s.castOnClose = s := by
  unfold State.castOnClose
  rw [hw]

theorem t1_of_not_init (hinit : s.chgOf h ≠ .init) : s.t1 h = s := by
  unfold State.t1
  rw [if_pos (.inr hinit)]

/-- The first candidate opens the cast-on window. -/
theorem t1_of_first (hlost : s.trivetLost = false) (hinit : s.chgOf h = .init) (ho : s.inService h.other = false)
    (hw : s.chg.window = none) :
    let t := s.enter h .candidate 0x01
    s.t1 h = { t with chg := { t.chg with window := some t.raw } } := by
  have hst := State.enter_st s h .candidate 0x01
  have hother : (s.enter h .candidate 0x01).inService h.other = false := by
    rw [State.inService, State.chgOf, State.enter_chg, half_putHalf_other]
    exact ho
  have hnobody : ¬ ((s.enter h .candidate 0x01).inService .k = true ∨ (s.enter h .candidate 0x01).inService .p = true) := by
    have hself : (s.enter h .candidate 0x01).inService h = false := by rw [State.inService, hst]; rfl
    cases h
    · rw [hself, show (s.enter .k .candidate 0x01).inService .p = false from hother]; decide
    · rw [hself, show (s.enter .p .candidate 0x01).inService .k = false from hother]; decide
  have hwindow : (s.enter h .candidate 0x01).chg.window = none := by
    rw [State.enter_chg]
    cases h <;> exact hw
  unfold State.t1
  simp only [hlost, hinit, castOnClose_of_no_window s hw, hnobody, hwindow, Bool.false_eq_true, ne_eq, not_true, or_self, if_false]

/-- What an entry of CANDIDATE that opens the window leaves as it is. -/
theorem isIn_of_window (hu : u = { t with chg := { t.chg with window := some t.raw } }) (hin : t.isIn h .candidate 0x01)
    (hbeside : s.Beside t) (hother : t.chgOf h.other = s.chgOf h.other) :
    u.isIn h .candidate 0x01 ∧ u.chg.window = some s.raw ∧ u.chgOf h.other = s.chgOf h.other ∧ u.mem = s.mem := by
  rw [hu]
  refine ⟨?_, congrArg some hbeside.raw, ?_, hbeside.mem⟩
  · cases h <;> exact hin
  · cases h <;> exact hother

theorem t1_of_first_charge (hlost : s.trivetLost = false) (hinit : s.chgOf h = .init) (ho : s.inService h.other = false)
    (hw : s.chg.window = none) :
    (s.t1 h).isIn h .candidate 0x01 ∧ (s.t1 h).chg.window = some s.raw ∧ (s.t1 h).chgOf h.other = s.chgOf h.other ∧
      (s.t1 h).mem = s.mem := by
  refine isIn_of_window s h (t1_of_first s h hlost hinit ho hw) (isIn_enter s h .candidate 0x01)
    (beside_enter s h .candidate 0x01) ?_
  rw [State.chgOf, State.enter_chg, half_putHalf_other]
  rfl

/-! ### Expiry of the timer (R98 to R100) -/

/-- A miss changes registers and the half's timer alone. -/
theorem hbMiss_eq : ∃ regs, s.hbMiss h = { s.putEp h { s.ep h with hbAt := s.now } with regs := regs } := ⟨_, rfl⟩

theorem chg_hbMiss : (s.hbMiss h).chg = s.chg := by
  obtain ⟨regs, hm⟩ := hbMiss_eq s h
  rw [hm]
  cases h <;> rfl

theorem mem_hbMiss : (s.hbMiss h).mem = s.mem := by
  obtain ⟨regs, hm⟩ := hbMiss_eq s h
  rw [hm]
  cases h <;> rfl

theorem trivetLost_hbMiss : (s.hbMiss h).trivetLost = s.trivetLost := by
  obtain ⟨regs, hm⟩ := hbMiss_eq s h
  rw [hm]
  cases h <;> rfl

theorem frame_hbMiss : { s.hbMiss h with regs := s.regs, epK := s.epK, epP := s.epP } = s := by
  obtain ⟨regs, hm⟩ := hbMiss_eq s h
  rw [hm]
  cases h <;> rfl

theorem hbAt_hbMiss : ((s.hbMiss h).ep h).hbAt = s.now := by
  obtain ⟨regs, hm⟩ := hbMiss_eq s h
  rw [hm]
  cases h <;> rfl

theorem missFld_inWord : (missFld h).lo ≤ (missFld h).hi ∧ (missFld h).hi < 32 := by cases h <;> decide

theorem width_missFld : fldWidth (missFld h) = 2 := by cases h <;> rfl

theorem rd_mapEp (f : Endpoint → Endpoint) (a : Nat) : (s.mapEp h f).rd a = s.rd a := by cases h <;> rfl

theorem ne_hbMiss_status : A.TEN_STATUS ≠ A.TEN_HB_MISS h.n := by cases h <;> decide

theorem fld_hbMiss : (s.hbMiss h).fld A.TEN_STATUS (missFld h) = min 3 (s.fld A.TEN_STATUS (missFld h) + 1) := by
  have hkept : State.fld ((s.mapEp h fun e => { e with hbAt := s.now }).inc (A.TEN_HB_MISS h.n)) A.TEN_STATUS (missFld h) =
      s.fld A.TEN_STATUS (missFld h) := by
    rw [State.fld, State.rd_inc, if_neg (ne_hbMiss_status h), rd_mapEp]
    rfl
  unfold State.hbMiss
  dsimp only
  rw [State.fld_setf _ _ _ _ (missFld_inWord h), hkept, width_missFld, Nat.mod_eq_of_lt (by omega)]

theorem rd_hbMiss (a : Nat) : (s.hbMiss h).rd a =
    if a = A.TEN_STATUS then (s.hbMiss h).rd A.TEN_STATUS
    else if a = A.TEN_HB_MISS h.n then satSucc (s.rd (A.TEN_HB_MISS h.n)) else s.rd a := by
  split
  · next ha => rw [ha]
  · next ha =>
    unfold State.hbMiss
    dsimp only
    rw [State.rd_setf, if_neg ha, State.rd_inc, rd_mapEp, rd_mapEp]

/-- T4 for a third miss. -/
def missExit (h : Half) : Exit := ⟨h, .lost, 0x10, some ⟨0x32, 0, 0, 0, 0⟩⟩

theorem exits_nil : s.exits [] = s := by
  unfold State.exits
  simp

theorem exec_timerExpiry_of_running_timer (hexp : s.hbExpired h = false) : exec (.heartbeatTimerExpiry h) s = .next s :=
  if_pos (.inr (by rw [hexp]; rfl))

/-- An expiry alone in its TRV cycle, before the third miss. -/
theorem exec_timerExpiry_early (hlost : s.trivetLost = false) (hexp : s.hbExpired h = true)
    (halone : (s.soon fun c => decide (c = .heartbeatTimerExpiry h.other)) = false) (hmiss : s.fld A.TEN_STATUS (missFld h) ≠ 2) :
    exec (.heartbeatTimerExpiry h) s = .next (s.hbMiss h) := by
  show execHeartbeatTimerExpiry h s = _
  unfold execHeartbeatTimerExpiry
  simp [hlost, hexp, halone, hmiss, exits_nil]

/-- T4 leaves every state but SERVICE and LOST. -/
theorem lost_allowed (cause : Nat) (d : Option Diag) (hs : s.chgOf h ≠ .service) (hl : s.chgOf h ≠ .lost) :
    (⟨h, .lost, cause, d⟩ : Exit).allowed (s.chgOf h) = true := by
  revert hs hl
  cases s.chgOf h <;> simp [Exit.allowed]

/-- The third miss of one half alone. -/
theorem exec_timerExpiry_third (hlost : s.trivetLost = false) (hexp : s.hbExpired h = true)
    (halone : (s.soon fun c => decide (c = .heartbeatTimerExpiry h.other)) = false) (hmiss : s.fld A.TEN_STATUS (missFld h) = 2)
    (hs : s.chgOf h ≠ .service) (hl : s.chgOf h ≠ .lost) :
    exec (.heartbeatTimerExpiry h) s = .next ((s.hbMiss h).toLost h 0x10 0x32) := by
  have hstay : (⟨h, .lost, 0, none⟩ : Exit).allowed ((s.hbMiss h).chgOf h) = true := by
    rw [State.chgOf, chg_hbMiss]
    exact lost_allowed s h 0 none hs hl
  show execHeartbeatTimerExpiry h s = _
  unfold execHeartbeatTimerExpiry
  simp [hlost, hexp, halone, hmiss, hstay, State.toLost]

/-- The third misses of both halves on one tick. -/
theorem exec_timerExpiry_both (hlost : s.trivetLost = false) (hexp : s.hbExpired h = true) (hexpo : s.hbExpired h.other = true)
    (halso : (s.soon fun c => decide (c = .heartbeatTimerExpiry h.other)) = true) (hmiss : s.fld A.TEN_STATUS (missFld h) = 2)
    (hmisso : s.fld A.TEN_STATUS (missFld h.other) = 2) (hh : s.chgOf h = .charge) (ho : s.chgOf h.other = .standby) :
    exec (.heartbeatTimerExpiry h) s = .next (((s.hbMiss h).hbMiss h.other).exits [missExit h, missExit h.other]) := by
  have hchg : ∀ g, ((s.hbMiss h).hbMiss h.other).chgOf g = s.chgOf g := fun g => by
    rw [State.chgOf, chg_hbMiss, chg_hbMiss]
    rfl
  show execHeartbeatTimerExpiry h s = _
  unfold execHeartbeatTimerExpiry
  simp [hlost, hexp, hexpo, halso, hmiss, hmisso, hchg, hh, ho, Exit.allowed, missExit]

/-- Both halves are lost in one decision: nobody holds charge (R75, R81). -/
theorem exits_lost_both (hlost : s.trivetLost = false) (hh : s.chgOf h = .charge) (ho : s.chgOf h.other = .standby) :
    let t := s.exits [missExit h, missExit h.other]
    t.chgOf h = .lost ∧ t.chgOf h.other = .lost ∧ t.chg.holder = 0 ∧ t.chg.mode = .none := by
  have hchg := exits_chg s (xs := [missExit h, missExit h.other]) hlost (by simp)
    (by simp [missExit, Exit.allowed, hh, ho]) (by simp [missExit, Exit.first, Exit.rank])
  obtain ⟨y, hst, hcause, hy⟩ := exitOne_chg s.deciding (missExit h)
  obtain ⟨z, hzst, hzcause, hz⟩ := exitOne_chg (s.deciding.exitOne (missExit h)) (missExit h.other)
  have hgone : ((s.deciding.exitOne (missExit h)).exitOne (missExit h.other)).isIn h .lost 0x10 := by
    rw [State.isIn, State.chgOf, hz, hy]
    exact ⟨(congrArg HalfChg.st (half_putHalf_of_other ..)).trans
      ((congrArg HalfChg.st (half_putHalf _ h y)).trans hst), (congrArg HalfChg.cause (half_putHalf_of_other ..)).trans
      ((congrArg HalfChg.cause (half_putHalf _ h y)).trans hcause)⟩
  have hgoneo : ((s.deciding.exitOne (missExit h)).exitOne (missExit h.other)).isIn h.other .lost 0x10 := by
    rw [State.isIn, State.chgOf, hz]
    exact ⟨(congrArg HalfChg.st (half_putHalf ..)).trans hzst, (congrArg HalfChg.cause (half_putHalf ..)).trans hzcause⟩
  rw [charged_of_standby s hh ho] at hchg
  obtain ⟨hholder, hmode⟩ := settle_of_nobody _ (h := h) (by rw [hgone.1]; decide) (by rw [hgoneo.1]; decide)
  simp only [State.chgOf, hchg, List.foldl_cons, List.foldl_nil]
  exact ⟨(settle_isIn _ _ hgone (by decide)).1, (settle_isIn _ _ hgoneo (by decide)).1, hholder, hmode⟩

/-- Settles O18: launches and receptions are equations; what T1, T4 and T5 do to charge is a matter of the arbiter alone. -/
theorem heartbeatEffects : Obligations.HeartbeatEffects := by
  intro s h seq st ready outValid healthy code e miss
  refine ⟨?_, ?_, ?_, ?_, ?_, ?_, ?_, ?_⟩
  · rintro ⟨hon, hraw⟩
    have hlaunch : exec .heartbeatLaunch s = .next ((s.hbLaunch .k).hbLaunch .p) := if_pos ⟨hon, hraw⟩
    refine ⟨?_, ?_⟩
    · rintro ⟨hk, hp, hsk, hsp⟩
      exact ⟨_, hlaunch.trans (congrArg _ (hbLaunch_both s hk hp hsk hsp)), rfl, rfl, rfl, rfl⟩
    · rintro ⟨hsk, hsp⟩
      rw [hlaunch, hbLaunch_of_suppressed s .k hsk, hbLaunch_of_suppressed s .p hsp]
  · rintro ⟨hlost, hvalid, hst, hready⟩
    have hexec := exec_heartbeatReceive_healthy s h seq st ready outValid code hlost hvalid
    have htaken := hbTaken_of_agreeing s h seq.toNat outValid
    rw [← hst] at htaken
    have ht1 : (if ready = true then (s.hbTaken h seq.toNat st outValid).t1 h else s.hbTaken h seq.toNat st outValid) =
        s.hbTaken h seq.toNat st outValid := by
      rcases hready with hready | hinit
      · rw [hready]
        rfl
      · rw [t1_of_not_init _ _ (by rw [State.chgOf, chg_hbTaken]; exact hinit), ite_self]
    obtain ⟨hep, hother, hrd, hframe⟩ := putEp_setf s h
      { s.ep h with lastSeq := some seq.toNat, outValid := outValid, hbAt := s.now, diffRun := 0 } A.TEN_STATUS (missFld h) 0
    rw [ht1, htaken] at hexec
    exact ⟨_, hexec, hep, (State.fld_setf _ _ _ _ (missFld_inWord h)).trans (Nat.zero_mod _),
      hrd, hframe, hother⟩
  · rintro ⟨hlost, hvalid, hinit, ho, hw⟩
    have hexec := exec_heartbeatReceive_healthy s h seq st true outValid code hlost hvalid
    rw [if_pos rfl] at hexec
    have hchg := chg_hbTaken s h seq.toNat st outValid
    obtain ⟨⟨hst, hcause⟩, hwindow, hother, hmem⟩ := t1_of_first_charge (s.hbTaken h seq.toNat st outValid) h
      ((trivetLost_hbTaken ..).trans hlost) (by rw [State.chgOf, hchg]; exact hinit)
      (by rw [State.inService, State.chgOf, hchg]; exact ho) (by rw [hchg]; exact hw)
    refine ⟨_, hexec, hst, hcause, hwindow.trans (congrArg some (raw_hbTaken ..)), hother.trans ?_, hmem.trans (mem_hbTaken ..)⟩
    rw [State.chgOf, hchg]
    rfl
  · rintro ⟨hlost, hvalid, hserv⟩
    obtain ⟨d, hexec⟩ := exec_heartbeatReceive_unhealthy s h seq st ready outValid code hlost hvalid
    obtain ⟨hst, hcause⟩ := demote_isIn (s := s.hbTaken h seq.toNat st outValid) (h := h) 0x20 d
      ((trivetLost_hbTaken ..).trans hlost) (by rw [State.inService, State.chgOf, chg_hbTaken]; exact hserv)
    exact ⟨_, hexec, hst, hcause, (beside_exits _ _).mem.trans (mem_hbTaken ..)⟩
  · exact exec_heartbeatReceive_of_invalid s h seq st ready outValid healthy code
  · intro hearly
    refine exec_timerExpiry_of_running_timer s h ?_
    rcases hearly with hsoon | hnow
    · simp [State.hbExpired, hsoon]
    · have hrunning : decide ((s.ep h).hbAt + 534 ≤ s.now) = false := decide_eq_false (Nat.not_le.2 hnow)
      simp [State.hbExpired, hrunning]
  · rintro ⟨hlost, hexp, halone⟩
    refine ⟨fun hmiss => ?_, ?_⟩
    · refine ⟨_, exec_timerExpiry_early s h hlost hexp halone (Nat.ne_of_lt hmiss), ?_, ?_, hbAt_hbMiss s h, chg_hbMiss s h, ?_,
        frame_hbMiss s h⟩
      · rw [fld_hbMiss]
        show min 3 (miss + 1) = miss + 1
        omega
      · rw [rd_hbMiss, if_neg (ne_hbMiss_status h).symm, if_pos rfl]
      · intro a ha
        rw [List.mem_cons, List.mem_singleton, not_or] at ha
        rw [rd_hbMiss, if_neg ha.1, if_neg ha.2]
    · rintro ⟨hmiss, hs, hl⟩
      obtain ⟨hst, hcause⟩ := toLost_isIn (s := s.hbMiss h) (h := h) 0x10 0x32 ((trivetLost_hbMiss ..).trans hlost)
        (by rw [State.chgOf, chg_hbMiss]; exact hs) (by rw [State.chgOf, chg_hbMiss]; exact hl)
      exact ⟨_, exec_timerExpiry_third s h hlost hexp halone hmiss hs hl, hst, hcause,
        (beside_exits _ _).mem.trans (mem_hbMiss ..)⟩
  · rintro ⟨hlost, hexp, hexpo, halso, hmiss, hmisso, hh, ho⟩
    have hchg : ((s.hbMiss h).hbMiss h.other).chg = s.chg := (chg_hbMiss ..).trans (chg_hbMiss ..)
    obtain ⟨hst, hsto, hholder, hmode⟩ := exits_lost_both ((s.hbMiss h).hbMiss h.other) h
      ((trivetLost_hbMiss ..).trans ((trivetLost_hbMiss ..).trans hlost))
      (by rw [State.chgOf, hchg]; exact hh) (by rw [State.chgOf, hchg]; exact ho)
    exact ⟨_, exec_timerExpiry_both s h hlost hexp hexpo halso hmiss hmisso hh ho, hst, hsto, hholder, hmode,
      (beside_exits _ _).mem.trans ((mem_hbMiss ..).trans (mem_hbMiss ..))⟩

end Sys2Proof.Machine
end

section
/-! The instant of a planned handover that no half in CHARGE waits for (R74, R83). -/

namespace Sys2Proof.Machine
open Sys2Proof

-- Parallel elaboration holds many stacks at once, and they count towards the memory a check may take.
set_option Elab.async false

theorem exec_handoverInstant {s : State} (hpending : s.handoverPending = true) (hlost : s.trivetLost = false)
    (hdue : s.rd64 A.TRV_HANDOVER_LO A.TRV_HANDOVER_HI ≤ s.raw) : exec .handoverInstant s = .next s.doHandover := by
  show execHandoverInstant s = _
  exact if_pos ⟨hpending, by rw [hlost]; rfl, hdue⟩

/-- A handover whose instant has come is pending, and HOLDER names Knit, which has not left INIT. -/
def handoverOfInit : State :=
  { State.reset.wrn A.TRV_HANDOVER_LO 1 with raw := 1, chg := { Charge.init with holder := holderCode .k } }

theorem handoverOfInit_due : handoverOfInit.handoverPending = true ∧ handoverOfInit.trivetLost = false ∧
    handoverOfInit.rd64 A.TRV_HANDOVER_LO A.TRV_HANDOVER_HI ≤ handoverOfInit.raw ∧ handoverOfInit.holder = some .k ∧
    handoverOfInit.chg.service = none := by
  decide +kernel

/-- The arbiter cancels the handover, and no state changes. -/
theorem chgOf_doHandover_handoverOfInit : handoverOfInit.doHandover.chgOf .k = .init := by decide +kernel

/-- Refutes O21: its clause of the instant of a handover asks HOLDER for a half, but not that this half is in CHARGE and the other
in STANDBY. A pending instant without them, which a register write can make, changes no state (R74). -/
theorem not_castOnAndHandoverEffects : ¬ Obligations.CastOnAndHandoverEffects := by
  intro h
  obtain ⟨-, -, -, -, -, -, -, -, hinstant, -⟩ := h handoverOfInit .k 0 0 (false, false)
  obtain ⟨t, hexec, hstandby, -⟩ := hinstant handoverOfInit_due
  obtain ⟨hpending, hlost, hdue, -, -⟩ := handoverOfInit_due
  have hdone := exec_handoverInstant hpending hlost hdue
  have hsame : handoverOfInit.doHandover = t := Host.Outcome.next.inj (hdone.symm.trans hexec)
  rw [← hsame, chgOf_doHandover_handoverOfInit] at hstandby
  exact ChgState.noConfusion hstandby

end Sys2Proof.Machine
end

section
/-! Flits of the Tension link (R88 to R93, R101 to R103, R109). -/

namespace Sys2Proof.Machine
open Sys2Proof

-- Parallel elaboration holds many stacks at once, and they count towards the memory a check may take.
set_option Elab.async false

variable (s : State) {t u : State} (h : Half)

/-! ### What a segment that goes down leaves to the arbiter (R103, R400) -/

theorem quiet_mapPort (p : Nat) (f : Port → Port) : s.Quiet (s.mapPort p f) := .rest

/-- The port counters lie above the link registers. -/
theorem quiet_periodClose (p t : Nat) : s.Quiet (s.periodClose p t) := by
  have hlive : ∀ j, ¬ linkReg (A.MAC_PER_LIVE p j) := fun j => not_linkReg (.inr (by simp only [A.MAC_PER_LIVE]; omega))
  have hshadow : ∀ j, ¬ linkReg (A.MAC_PER_SHADOW p j) := fun j => not_linkReg (.inr (by simp only [A.MAC_PER_SHADOW]; omega))
  have hstatus : ¬ linkReg (A.MAC_PER_STATUS p) := not_linkReg (.inr (by simp only [A.MAC_PER_STATUS]; omega))
  have hlatch : ∀ (s : State) j, s.Quiet ((s.wr (A.MAC_PER_SHADOW p j) (s.rd (A.MAC_PER_LIVE p j))).wr (A.MAC_PER_LIVE p j) 0) :=
    fun s j => (quiet_wr s _ _ (hshadow j)).trans (quiet_wr _ _ _ (hlive j))
  unfold State.periodClose
  extract_lets s1 s2
  have h1 : s.Quiet s1 := quiet_foldl hlatch (List.range 8) s
  have h2 : s.Quiet s2 := h1.trans ((quiet_setf _ _ _ _ hstatus).trans (quiet_setf _ _ _ _ hstatus))
  exact h2.trans (quiet_mapPort ..)

theorem quiet_perCnt (p j n at_ : Nat) : s.Quiet (s.perCnt p j n at_) := by
  have hclose : s.Quiet (match s.perPending p at_ with | some t => s.periodClose p t | none => s) := by
    split
    · exact quiet_periodClose ..
    · exact .refl s
  have hlive : ¬ linkReg (A.MAC_PER_LIVE p j) := not_linkReg (.inr (by simp only [A.MAC_PER_LIVE]; omega))
  have hshadow : ¬ linkReg (A.MAC_PER_SHADOW p j) := not_linkReg (.inr (by simp only [A.MAC_PER_SHADOW]; omega))
  have hreg : ∀ (c : Prop) [Decidable c], ¬ linkReg (if c then A.MAC_PER_SHADOW p j else A.MAC_PER_LIVE p j) :=
    fun c _ => by split <;> assumption
  exact .ite (hclose.trans (quiet_wrn _ _ _ (hreg _))) (.refl s)

theorem quiet_macCnt (p k n : Nat) : s.Quiet (s.macCnt p k n) := by
  have hcnt : ¬ linkReg (A.MAC_CNT p k) := not_linkReg (.inr (by simp only [A.MAC_CNT]; omega))
  have hwrap : ¬ linkReg (A.MAC_CNT_WRAP p) := not_linkReg (.inr (by simp only [A.MAC_CNT_WRAP]; omega))
  unfold State.macCnt State.macCntAt
  extract_lets old new s1 s2
  have h1 : s.Quiet s1 := quiet_wrn s _ _ hcnt
  have h2 : s.Quiet s2 := .ite (h1.trans (quiet_wrn _ _ _ hwrap)) h1
  split
  · exact h2.trans (quiet_perCnt ..)
  · exact h2

theorem quiet_txMark (p : Nat) : s.Quiet (s.txMark p) := .ite (.refl s) (quiet_mapPort ..)

theorem quiet_xoffUpdate (i : Nat) : s.Quiet (s.xoffUpdate h i) := by
  have hcells : ¬ linkReg (A.SWP_IN_CELLS h.n i) := not_linkReg (.inr (by simp only [A.SWP_IN_CELLS]; omega))
  have hstatus : ∀ p, ¬ linkReg (A.MAC_STATUS p) := fun p => not_linkReg (.inr (by simp only [A.MAC_STATUS]; omega))
  unfold State.xoffUpdate
  extract_lets n xoff xon0 xon p was s1 s2
  have h1 : s.Quiet s1 := quiet_setf s _ _ _ hcells
  have hmark : ∀ v, s.Quiet ((s1.txMark p).setf (A.MAC_STATUS p) F.MAC_STATUS.XOFF v) :=
    fun v => (h1.trans (quiet_txMark s1 p)).trans (quiet_setf _ _ _ _ (hstatus p))
  exact .ite h1 (.ite (hmark 1) (.ite ((hmark 0).trans (quiet_mapPort ..)) h1))

theorem quiet_planeShow (i o c : Nat) : s.Quiet (s.planeShow h i o c) := by
  have hdepth : ¬ linkReg (A.SWQ_DEPTH h.n (8 * o + c)) := not_linkReg (.inr (by simp only [A.SWQ_DEPTH]; omega))
  have hfree : ¬ linkReg (A.SW_BUF_FREE h.n) := not_linkReg (.inr (by simp only [A.SW_BUF_FREE]; omega))
  unfold State.planeShow
  extract_lets x s1 free s2 s3
  have h2 : s.Quiet s2 := (quiet_setf s _ _ _ hdepth).trans (quiet_setf _ _ _ _ hfree)
  have h3 : s.Quiet s3 := .ite (h2.trans (quiet_setf _ _ _ _ hfree)) h2
  exact h3.trans (quiet_xoffUpdate ..)

theorem quiet_showAll (qs : List PCopy) : s.Quiet (s.showAll h qs) := quiet_foldl (fun s _ => quiet_planeShow s h _ _ _) qs s

theorem quiet_putPlane (x : Plane) : s.Quiet (s.putPlane h x) := by cases h <;> exact .rest

/-- The bit of TEN_STATUS that shows a half's segment up. -/
def segFld : Half → Fld
  | .k => F.TEN_STATUS.SEG_K_UP
  | .p => F.TEN_STATUS.SEG_P_UP

theorem segUp_eq : s.segUp h = s.flag A.TEN_STATUS (segFld h) := by cases h <;> rfl

theorem segFld_inWord : (segFld h).lo ≤ (segFld h).hi ∧ (segFld h).hi < 32 := by cases h <;> decide

theorem flag_setf_zero (a : Nat) (f : Fld) (hf : f.lo ≤ f.hi ∧ f.hi < 32) : (s.setf a f 0).flag a f = false := by
  rw [State.flag, State.fld_setf s a f 0 hf, Nat.zero_mod]
  rfl

/-- A segment goes down: its bit is 0, its plane's copies go, and the arbiter loses the half, if it may. -/
theorem segmentDown_eq : ∃ t, (s.setf A.TEN_STATUS (segFld h) 0).Quiet t ∧ s.segmentDown h =
    if (⟨h, .lost, 0x13, none⟩ : Exit).allowed (t.chgOf h) ∧ !t.trivetLost then t.toLost h 0x13 0x31
    else t.fault 0x31 2 (originHalf h) 0 := by
  unfold State.segmentDown
  extract_lets s1 x n s2 s3 s4 may
  have h1 : (s.setf A.TEN_STATUS (segFld h) 0).Quiet s1 := by cases h <;> exact .refl _
  have h2 : s1.Quiet s2 := quiet_putPlane ..
  have h3 : s2.Quiet s3 := (quiet_macCnt ..).trans (quiet_showAll ..)
  exact ⟨s4, ((h1.trans h2).trans h3).trans (quiet_larderEvent ..), rfl⟩

/-- A half that T4 may take is lost; memory and the counters of the link stay. -/
theorem segmentDown_lost (hlost : s.trivetLost = false) (hserv : s.chgOf h ≠ .service) (hl : s.chgOf h ≠ .lost) :
    (s.segmentDown h).isIn h .lost 0x13 ∧ (s.setf A.TEN_STATUS (segFld h) 0).Beside (s.segmentDown h) := by
  obtain ⟨t, hquiet, heq⟩ := segmentDown_eq s h
  have hchg : t.chgOf h = s.chgOf h := congrArg (fun c : Charge => (c.half h).st) hquiet.chg
  have hpresent : t.trivetLost = false := hquiet.trivetLost.trans hlost
  rw [heq, if_pos ⟨by rw [hchg]; exact lost_allowed s h 0x13 none hserv hl, by rw [hpresent]; rfl⟩]
  exact ⟨toLost_isIn 0x13 0x31 hpresent (by rwa [hchg]) (by rwa [hchg]), hquiet.toBeside.trans (beside_exits _ _)⟩

/-! ### Replays (R101, R102) -/

theorem replaying_dropReplay (g : Segment) (cls : Nat) : (g.dropReplay cls).replaying cls = none := by
  simp [Segment.replaying, Segment.dropReplay]

/-- A failed flit is the one that its class replays. -/
theorem replaying_failed (g : Segment) (cls flit : Nat) : (g.failed cls flit).replaying cls =
    some ⟨cls, flit, (match g.replaying cls with | some r => r.fails | none => 0) + 1⟩ := by
  unfold Segment.failed
  cases g.replaying cls <;> exact List.find?_cons_of_pos (by simp)

theorem ep_mapEp (f : Endpoint → Endpoint) : (s.mapEp h f).ep h = f (s.ep h) := by cases h <;> rfl

theorem ep_mapEp_other (f : Endpoint → Endpoint) : (s.mapEp h f).ep h.other = s.ep h.other := by cases h <;> rfl

theorem ep_inc_mapEp (f : Endpoint → Endpoint) (a : Nat) : ((s.mapEp h f).inc a).ep h = f (s.ep h) := by cases h <;> rfl

/-- A flit with a bad CRC is counted, with an F1 fault. -/
def State.flitBad (s : State) (h : Half) : State := (s.inc (A.TEN_CRC_ERR h.n)).fault 0x30 1 (originHalf h) 0

theorem rd_flitBad_link (a : Nat) (ha : linkReg a) : (s.flitBad h).rd a = (s.inc (A.TEN_CRC_ERR h.n)).rd a :=
  (quiet_fault _ _ _ _ _ (by decide)).link a ha

theorem flitBad_eq : ∃ regs larder, s.flitBad h = { s with regs := regs, larder := larder } := by
  obtain ⟨regs, larder, hf⟩ := fault_eq (s.inc (A.TEN_CRC_ERR h.n)) 0x30 1 (originHalf h) 0
  exact ⟨regs, larder, hf⟩

theorem crcErr_linkReg : linkReg (A.TEN_CRC_ERR h.n) := by cases h <;> decide

theorem crcErr_ne_status : A.TEN_CRC_ERR h.n ≠ A.TEN_STATUS := by cases h <;> decide

theorem replay_linkReg : linkReg (A.TEN_REPLAY h.n) := by cases h <;> decide

theorem replay_ne_crcErr : A.TEN_REPLAY h.n ≠ A.TEN_CRC_ERR h.n := by cases h <;> decide

theorem rd_flitBad_crcErr : (s.flitBad h).rd (A.TEN_CRC_ERR h.n) = satSucc (s.rd (A.TEN_CRC_ERR h.n)) := by
  rw [rd_flitBad_link s h _ (crcErr_linkReg h), State.rd_inc, if_pos rfl]

theorem rd_flitBad_replay : (s.flitBad h).rd (A.TEN_REPLAY h.n) = s.rd (A.TEN_REPLAY h.n) := by
  rw [rd_flitBad_link s h _ (replay_linkReg h), State.rd_inc, if_neg (replay_ne_crcErr h)]

theorem rd_flitBad_cnt : (s.flitBad h).rd (A.SYS_FLT_CNT 1) = satSucc (s.rd (A.SYS_FLT_CNT 1)) := by
  have hne : A.SYS_FLT_CNT 1 ≠ A.TEN_CRC_ERR h.n := by cases h <;> decide
  refine (rd_faultD_cnt _ _ _ _ _ _ _ _ (by decide)).trans ?_
  rw [State.rd_inc, if_neg hne]

/-! ### The relay through the hub (R88, R92, R93) -/

/-- A class without a cap may begin where no message is in progress. -/
theorem may_of_idle (g : Segment) (now : Nat) (cls : Fin 16) (hidle : g.busy = []) (hlo : 1 ≤ cls.val) (hhi : cls.val ≤ 8)
    (h5 : cls ≠ 5) (h8 : cls ≠ 8) : g.may now cls = true := by
  have hprio : (classPrio cls).isSome = true ∧ classCap cls = none := by
    clear hidle
    revert cls
    decide
  obtain ⟨p, hp⟩ := Option.isSome_iff_exists.1 hprio.1
  simp only [Segment.may, hidle, hp, hprio.2, Bool.and_self]

/-- The priority of a class that has one. -/
def prioOf (c : Nat) : Nat := (classPrio c).getD 0

/-- Classes are numbered by falling priority. -/
theorem classPrio_of_le : ∀ c d : Fin 9, 1 ≤ c.val ∧ c.val ≤ d.val →
    classPrio c = some (prioOf c) ∧ classPrio d = some (prioOf d) ∧ ¬ prioOf d < prioOf c := by
  decide

/-- A class does not interrupt a message of a lower number. -/
theorem may_of_busy (g : Segment) (now c d : Nat) (cs : List Nat) (hbusy : g.busy = c :: cs) (hne : c ≠ d) (hlo : 1 ≤ c)
    (hle : c ≤ d) (hhi : d ≤ 8) : g.may now d = false := by
  obtain ⟨hc, hd, hlt⟩ := classPrio_of_le ⟨c, by omega⟩ ⟨d, by omega⟩ ⟨hlo, hle⟩
  simp [Segment.may, hbusy, hc, hd, hne, hlt]

theorem exec_hubRelay_of_not (cls : Fin 16) (f : HubFlit) (hno : s.linkUp = false ∨ (s.ep h).seg.may s.now cls = false) :
    exec (.hubRelay h cls f) s = .next s := by
  show execHubRelay h cls f s = _
  refine if_neg fun hyes => ?_
  rcases hno with hdown | hmay
  · rw [hdown] at hyes
    exact Bool.false_ne_true hyes.1
  · rw [hmay] at hyes
    exact Bool.false_ne_true hyes.2

section
variable (cls : Fin 16) (flit : BitVec 144)

/-! ### What a flit does to its segment (R101 to R103) -/

theorem exec_flitReceive_good (hup : s.segUp h = true) (hgood : flitGood flit.toNat = true) :
    exec (.flitReceive h cls flit) s =
      .next (s.mapEp h fun e => { e with seg := ((s.ep h).seg.dropReplay cls).keep cls flit.toNat }) := by
  show execFlitReceive h cls flit s = _
  simp [execFlitReceive, hup, hgood]

theorem exec_flitReceive_heartbeat (hup : s.segUp h = true) (hbad : flitGood flit.toNat = false) (hcls : cls = 1) :
    exec (.flitReceive h cls flit) s = .next (s.flitBad h) := by
  show execFlitReceive h cls flit s = _
  simp [execFlitReceive, hup, hbad, hcls, State.flitBad]

theorem exec_flitReceive_replay (hup : s.segUp h = true) (hbad : flitGood flit.toNat = false) (hcls : cls ≠ 1)
    (hfails : (match (s.ep h).seg.replaying cls with | some r => r.fails | none => 0) ≠ 3) :
    exec (.flitReceive h cls flit) s =
      .next (((s.flitBad h).mapEp h fun e => { e with seg := (s.ep h).seg.failed cls flit.toNat }).inc (A.TEN_REPLAY h.n)) := by
  have hcls' : cls.val ≠ 1 := fun h1 => hcls (Fin.ext h1)
  have hany : ((s.ep h).seg.replaying cls).any (fun r => r.fails == 3) = false := by
    cases hr : (s.ep h).seg.replaying cls with
    | none => rfl
    | some r => simpa [hr] using hfails
  show execFlitReceive h cls flit s = _
  simp [execFlitReceive, hup, hbad, hcls', hany, State.flitBad]

theorem exec_flitReceive_fourth (hup : s.segUp h = true) (hbad : flitGood flit.toNat = false) (hcls : cls ≠ 1)
    (hfails : (match (s.ep h).seg.replaying cls with | some r => r.fails | none => 0) = 3) :
    exec (.flitReceive h cls flit) s =
      .next (((s.flitBad h).mapEp h fun e => { e with seg := (s.ep h).seg.dropReplay cls }).segmentDown h) := by
  have hcls' : cls.val ≠ 1 := fun h1 => hcls (Fin.ext h1)
  have hany : ((s.ep h).seg.replaying cls).any (fun r => r.fails == 3) = true := by
    cases hr : (s.ep h).seg.replaying cls with
    | none => simp [hr] at hfails
    | some r => simpa [hr] using hfails
  show execFlitReceive h cls flit s = _
  simp [execFlitReceive, hup, hbad, hcls', hany, State.flitBad]

/-- A flit is relayed: its message is in progress, and the last flit of a snapshot marks a half that takes part. -/
def State.relayed (s : State) (h : Half) (cls : Fin 16) (flit : BitVec 144) (last : Bool) : State :=
  let u := (s.mapEp h fun e => { e with seg := (s.ep h).seg.sent s.now cls last }).emit
    (.relayed h.other.n flit.toNat (toTrivet cls last))
  if cls.val = 4 ∧ last = true then { u with ia := u.ia.putHalf h { u.ia.half h with relayed := (u.ia.half h).part } } else u

theorem toTrivet_eq (last : Bool) : toTrivet cls last = decide (cls = 1 ∨ cls = 3 ∨ cls = 4 ∧ last = true) := by
  revert cls last
  decide

theorem exec_hubRelay (last : Bool) (hup : s.linkUp = true) (hmay : (s.ep h).seg.may s.now cls = true) :
    exec (.hubRelay h cls ⟨last, flit⟩) s = .next (s.relayed h cls flit last) := by
  show execHubRelay h cls ⟨last, flit⟩ s = _
  unfold execHubRelay State.relayed
  rw [if_pos ⟨hup, hmay⟩]
  extract_lets u ia
  split
  · cases h <;> rfl
  · rfl

theorem relayed_eq (last : Bool) : ∃ ia, s.relayed h cls flit last =
    { (s.mapEp h fun e => { e with seg := (s.ep h).seg.sent s.now cls last }).emit
        (.relayed h.other.n flit.toNat (toTrivet cls last)) with ia := ia } := by
  unfold State.relayed
  extract_lets u
  split
  · exact ⟨_, rfl⟩
  · exact ⟨u.ia, rfl⟩

theorem ia_other_relayed (last : Bool) : (s.relayed h cls flit last).ia.half h.other = s.ia.half h.other := by
  unfold State.relayed
  split <;> cases h <;> rfl

theorem ia_half_relayed (last : Bool) : ((s.relayed h cls flit last).ia.half h).relayed =
    if cls.val = 4 ∧ last = true then (s.ia.half h).part else (s.ia.half h).relayed := by
  unfold State.relayed
  split <;> cases h <;> rfl

end

/-- Settles O22: the flit's four cases are equations; the segment that goes down leaves the link's registers to the arbiter. -/
theorem linkFlitEffects : Obligations.LinkFlitEffects := by
  intro s h cls flit last c cs e fails upFld counted
  have hup : upFld = segFld h := by cases h <;> rfl
  refine ⟨?_, ?_, ?_, ?_, ?_, ?_, ?_, ?_, ?_⟩
  · rintro ⟨hseg, hgood⟩
    refine ⟨_, exec_flitReceive_good s h cls flit hseg hgood, ?_, ?_, ep_mapEp_other .., ?_, ?_⟩
    · rw [ep_mapEp]
      exact replaying_dropReplay _ _
    · rw [ep_mapEp]
      rfl
    · rw [ep_mapEp]
    · cases h <;> rfl
  · rintro ⟨hseg, hbad, hcls⟩
    obtain ⟨regs, larder, hf⟩ := flitBad_eq s h
    refine ⟨_, exec_flitReceive_heartbeat s h cls flit hseg hbad hcls, ⟨rd_flitBad_crcErr s h, ?_⟩, ?_, rd_flitBad_cnt s h,
      rd_flitBad_replay s h, ?_⟩
    · rw [hf]
    · rw [hf]
      cases h <;> rfl
    · rw [hf]
  · rintro ⟨hseg, hbad, hcls, hfails⟩
    obtain ⟨regs, larder, hf⟩ := flitBad_eq s h
    refine ⟨_, exec_flitReceive_replay s h cls flit hseg hbad hcls hfails, ⟨?_, ?_⟩, ?_, ?_, ?_, ?_⟩
    · rw [State.rd_inc, if_neg (replay_ne_crcErr h).symm, rd_mapEp]
      exact rd_flitBad_crcErr s h
    · rw [hf]
      cases h <;> rfl
    · refine (congrArg (fun e : Endpoint => e.seg.replaying cls) (ep_inc_mapEp ..)).trans ?_
      exact replaying_failed _ _ _
    · refine (congrArg (fun e : Endpoint => e.seg.buffer) (ep_inc_mapEp ..)).trans ?_
      rfl
    · rw [State.rd_inc, if_pos rfl, rd_mapEp]
      exact congrArg satSucc (rd_flitBad_replay s h)
    · rw [hf]
      cases h <;> rfl
  · rintro ⟨hseg, hbad, hcls, hfails, hlost, hserv, hl⟩
    have hexec := exec_flitReceive_fourth s h cls flit hseg hbad hcls hfails
    have hquiet := quiet_mapEp (s.flitBad h) h fun e => { e with seg := (s.ep h).seg.dropReplay cls }
    generalize ((s.flitBad h).mapEp h fun e => { e with seg := (s.ep h).seg.dropReplay cls }) = u at hexec hquiet
    obtain ⟨regs, larder, hf⟩ := flitBad_eq s h
    have hpresent : u.trivetLost = false := hquiet.trivetLost.trans (by rw [hf]; exact hlost)
    have hchg : u.chgOf h = s.chgOf h := congrArg (fun c : Charge => (c.half h).st) (hquiet.chg.trans (by rw [hf]))
    obtain ⟨⟨hst, hcause⟩, hbeside⟩ := segmentDown_lost u h hpresent (by rwa [hchg]) (by rwa [hchg])
    refine ⟨_, hexec, ⟨?_, ?_⟩, hst, hcause, ?_⟩
    · rw [hbeside.link _ (crcErr_linkReg h), State.rd_setf, if_neg (crcErr_ne_status h), hquiet.link _ (crcErr_linkReg h)]
      exact rd_flitBad_crcErr s h
    · exact hbeside.mem.trans (hquiet.mem.trans (by rw [hf]))
    · rw [hup, State.flag, State.fld, hbeside.link _ (.inr (by decide))]
      exact flag_setf_zero _ _ _ (segFld_inWord h)
  · intro hdown
    show execFlitReceive h cls flit s = _
    exact if_pos (by rw [hdown]; rfl)
  · rintro ⟨hlink, hmay⟩
    obtain ⟨ia, hr⟩ := relayed_eq s h cls flit last
    refine ⟨_, exec_hubRelay s h cls flit last hlink hmay, ?_, ?_, ?_, ia_other_relayed .., ?_, ?_⟩
    · rw [← toTrivet_eq, hr]
      cases h <;> rfl
    · intro hlast
      rw [hr, hlast]
      cases h <;> rfl
    · rw [hr]
      cases h <;> rfl
    · rw [ia_half_relayed]
      simp only [Fin.ext_iff]
      rfl
    · rw [hr]
      cases h <;> rfl
  · rintro ⟨hidle, hlo, hhi, h5, h8⟩
    exact may_of_idle _ _ _ hidle hlo hhi h5 h8
  · rintro ⟨hbusy, hne, hlo, hle, -, hhi⟩
    exact may_of_busy _ _ _ _ _ hbusy hne hlo hle hhi
  · exact exec_hubRelay_of_not s h cls ⟨last, flit⟩

end Sys2Proof.Machine
end

section
/-! Passes of a resynchronisation (R130, R132; Table 2.9). -/

namespace Sys2Proof.Machine
open Sys2Proof

-- Parallel elaboration holds many stacks at once, and they count towards the memory a check may take.
set_option Elab.async false

variable (s : State) (h : Half)

/-- Granules copied change memory alone. -/
theorem copyGranules_eq (gs : List Nat) : ∃ mem, s.copyGranules h gs = { s with mem := mem } := by
  unfold State.copyGranules
  induction gs generalizing s with
  | nil => exact ⟨s.mem, rfl⟩
  | cons g gs ih =>
    obtain ⟨mem, hmem⟩ := putbs_eq s (bankAt h.other (g * 64)) (s.mbs (bankAt h (g * 64)) 64)
    obtain ⟨mem', hmem'⟩ := ih { s with mem := mem }
    refine ⟨mem', ?_⟩
    rw [List.foldl_cons, State.copyWindow, hmem, hmem']

theorem resync_endResync : s.endResync.resync = none := by
  unfold State.endResync
  split
  · assumption
  · rfl

theorem resync_enter (d : ChgState) (cause : Nat) : (s.enter h d cause).resync = s.resync :=
  (enter_quiet s h d cause).resync

theorem chgOf_enter_other (d : ChgState) (cause : Nat) : (s.enter h d cause).chgOf h.other = s.chgOf h.other := by
  rw [State.chgOf, State.enter_chg, half_putHalf_other]
  rfl

theorem chgOf_endResync (g : Half) : s.endResync.chgOf g = s.chgOf g := by
  obtain ⟨b, hb⟩ := endResync_half s g
  rw [State.chgOf, hb]
  rfl

/-- T10: the candidate goes to SERVICE, the resynchronisation ends, and the other half and memory stay. -/
theorem refuseResync_isIn (cause : Nat) (hlost : s.trivetLost = false) :
    (s.refuseResync h cause).isIn h .service cause ∧ (s.refuseResync h cause).chgOf h.other = s.chgOf h.other ∧
      (s.refuseResync h cause).resync = none ∧ s.Beside (s.refuseResync h cause) := by
  have hquiet : (s.endResync.enter h .service cause).Quiet (s.refuseResync h cause) := by
    unfold State.refuseResync
    rw [if_neg (by rw [hlost]; decide)]
    exact (quiet_clearStaged _ h).trans (quiet_isolate _ h _)
  refine ⟨?_, ?_, ?_, (beside_endResync s).trans ((beside_enter ..).trans hquiet.toBeside)⟩
  · rw [State.isIn, State.chgOf, hquiet.chg]
    exact isIn_enter s.endResync h .service cause
  · rw [State.chgOf, hquiet.chg]
    exact (chgOf_enter_other ..).trans (chgOf_endResync ..)
  · exact hquiet.resync.trans ((resync_enter ..).trans (resync_endResync s))

section
variable {s} {r : Resync} (hr : s.resync = some r) (hlost : s.trivetLost = false) (hfinal : r.final = false)
  (hdone : r.start + r.load / 4 ≤ s.now)
include hr hlost hfinal hdone

/-- A pass whose bytes have crossed the segment. -/
theorem exec_resyncPassDone (readError : Bool) : exec (.resyncPassDone readError) s =
    if readError = true then .next ((s.fault 0x11 2 (originHalf r.cand.other) 0).refuseResync r.cand 0x39)
    else if r.dirty.length ≤ 64 then .next { s with resync := some { r with final := true } }
    else if 16 ≤ r.pass then .next (s.refuseResync r.cand 0x35)
    else .next { s.copyGranules r.cand.other r.dirty with
      resync := some { r with pass := r.pass + 1, dirty := [], start := s.now, load := 64 * r.dirty.length } } := by
  have hgo : ¬ (s.trivetLost = true ∨ r.final = true ∨ s.now < r.start + r.load / 4) := by
    rw [hlost, hfinal]
    simpa using hdone
  show execResyncPassDone readError s = _
  unfold execResyncPassDone
  rw [hr]
  dsimp only
  rw [if_neg hgo]
  obtain ⟨mem, hmem⟩ := copyGranules_eq s r.cand.other r.dirty
  rw [hmem]

end

/-- Without a resynchronisation, while TRIVET_LOST is asserted or before the bytes have crossed, nothing happens. -/
theorem exec_resyncPassDone_of_not (e : Bool)
    (hno : s.resync = none ∨ s.trivetLost = true ∨ ∃ r, s.resync = some r ∧ s.now < r.start + r.load / 4) :
    exec (.resyncPassDone e) s = .next s := by
  show execResyncPassDone e s = _
  unfold execResyncPassDone
  split
  · rfl
  · next r hr =>
    refine if_pos ?_
    rcases hno with hnone | hlost | ⟨r', hr', hnow⟩
    · rw [hnone] at hr
      contradiction
    · exact .inl hlost
    · rw [hr] at hr'
      cases hr'
      exact .inr (.inr hnow)

/-- Settles O24: the cases of a pass are an equation, and T10 ends the resynchronisation. -/
theorem resyncPassEffects : Obligations.ResyncPassEffects := by
  intro s r e
  refine ⟨?_, ?_⟩
  · rintro ⟨hr, hlost, hfinal, hdone⟩
    have hexec := exec_resyncPassDone hr hlost hfinal hdone
    refine ⟨fun hfew => ?_, ?_, ?_, ?_⟩
    · exact ⟨_, (hexec false).trans (if_pos hfew), rfl, rfl⟩
    · rintro ⟨hmany, hpass⟩
      exact ⟨_, (hexec false).trans ((if_neg (Nat.not_le.2 hmany)).trans (if_neg (Nat.not_le.2 hpass))), rfl, rfl⟩
    · rintro ⟨hmany, hpass⟩
      obtain ⟨⟨hst, hcause⟩, hother, hnone, hbeside⟩ := refuseResync_isIn s r.cand 0x35 hlost
      exact ⟨_, (hexec false).trans ((if_neg (Nat.not_le.2 hmany)).trans (if_pos hpass)), hnone, hst, hcause, hother, hbeside.mem⟩
    · have hfault := quiet_fault s 0x11 2 (originHalf r.cand.other) 0 (by decide)
      obtain ⟨⟨hst, hcause⟩, hother, hnone, hbeside⟩ :=
        refuseResync_isIn (s.fault 0x11 2 (originHalf r.cand.other) 0) r.cand 0x39 (hfault.trivetLost.trans hlost)
      refine ⟨_, (hexec true).trans (if_pos rfl), hnone, hst, hcause, hother.trans ?_, hbeside.mem.trans hfault.mem⟩
      rw [State.chgOf, hfault.chg]
      rfl
  · rintro (hnone | hlost | hlate)
    · exact exec_resyncPassDone_of_not s e (.inl hnone)
    · exact exec_resyncPassDone_of_not s e (.inr (.inl hlost))
    · exact exec_resyncPassDone_of_not s e (.inr (.inr ⟨r, hlate⟩))

end Sys2Proof.Machine
end

section
/-! Loss of the Trivet (R124 to R128). -/

namespace Sys2Proof.Machine
open Sys2Proof

-- Parallel elaboration holds many stacks at once, and they count towards the memory a check may take.
set_option Elab.async false

variable (s : State)

/-! ### The count of a fault of any class (R678 to R681) -/

/-- The freeze of the Larder writes registers of its own block. -/
theorem rd_freezeTrigger_below (b : Nat) (hb : b < A.LARDER_CTRL) : s.freezeTrigger.rd b = s.rd b := by
  have hstatus : b ≠ A.LARDER_STATUS := Nat.ne_of_lt (Nat.lt_trans hb (by decide))
  have hlo : b ≠ A.LARDER_FRZ_AT_LO := Nat.ne_of_lt (Nat.lt_trans hb (by decide))
  have hhi : b ≠ A.LARDER_FRZ_AT_HI := Nat.ne_of_lt (Nat.lt_trans hb (by decide))
  have hignored : b ≠ A.LARDER_FRZ_IGNORED := Nat.ne_of_lt (Nat.lt_trans hb (by decide))
  unfold State.freezeTrigger
  split
  · split
    · rw [rd_larderEvent, State.rd_inc, if_neg hignored]
    · extract_lets frz l s1
      rw [State.wr64, State.rd_wrn, if_neg hhi, State.rd_wrn, if_neg hlo, State.setb, State.rd_setf, if_neg hstatus]
      rfl
  · rfl

/-- The registers that a fault of class `cls` reaches at most by its count. -/
abbrev faultFree (cls b : Nat) : Prop := b = A.SYS_FLT_CNT cls ∨ A.SYS_FLT_SLOT 256 0 ≤ b ∧ b < A.LARDER_CTRL

theorem rd_faultD_of_free (code cls origin source d5 d6 d7 b : Nat) (hcls : cls ≤ 4) (hb : faultFree cls b) :
    (s.faultD code cls origin source d5 d6 d7).rd b = (s.inc (A.SYS_FLT_CNT cls)).rd b := by
  have hbound : A.SYS_FLT_LATCH < b ∧ b < A.LARDER_CTRL ∧ (b < A.SYS_FLT_SLOT 0 0 ∨ A.SYS_FLT_SLOT 256 0 ≤ b) := by
    simp only [faultFree, A.SYS_FLT_CNT, A.SYS_FLT_SLOT, A.LARDER_CTRL, A.SYS_FLT_LATCH] at hb ⊢
    omega
  obtain ⟨hlatch, hlarder, hslot⟩ := hbound
  have hseq : b ≠ A.SYS_FLT_WSEQ := Nat.ne_of_gt (Nat.lt_trans (by decide) hlatch)
  unfold State.faultD
  extract_lets ws s1 s2 s3 s4
  have h2 : s2.rd b = s1.rd b := by
    unfold s2
    split
    · rfl
    · rw [State.incMod, State.rd_setf, if_neg hseq, rd_wrWords_outside]
      simp only [A.SYS_FLT_SLOT, show ws.length = 8 from rfl] at hslot ⊢
      omega
  have h3 : s3.rd b = s1.rd b := (rd_larderEvent ..).trans h2
  have h4 : s4.rd b = s1.rd b := by
    unfold s4
    split
    · rw [State.setb, State.rd_setf, if_neg (Nat.ne_of_gt hlatch), h3]
    · split
      · rw [State.setb, State.rd_setf, if_neg (Nat.ne_of_gt hlatch), h3]
      · exact h3
  split
  · exact (rd_freezeTrigger_below s4 b hlarder).trans h4
  · exact h4

/-- A fault of any class is counted. -/
theorem rd_fault_cnt (code cls origin source : Nat) (hcls : cls ≤ 4) :
    (s.fault code cls origin source).rd (A.SYS_FLT_CNT cls) = satSucc (s.rd (A.SYS_FLT_CNT cls)) :=
  (rd_faultD_of_free s _ _ _ _ _ _ _ _ hcls (.inl rfl)).trans ((State.rd_inc ..).trans (if_pos rfl))

/-! ### TRIVET_LOST (R125, R126) -/

theorem setf_eq (a : Nat) (f : Fld) (v : Nat) : ∃ regs, s.setf a f v = { s with regs := regs } := ⟨_, rfl⟩

theorem dropTest_eq : ∃ regs col, s.dropTest = { s with regs := regs, col := col } := by
  unfold State.dropTest
  split
  · exact ⟨s.regs, s.col, rfl⟩
  · extract_lets l u
    obtain ⟨regs, h⟩ := setf_eq u A.COL_STATUS F.COL_STATUS.ST_RUN 0
    obtain ⟨regs', h'⟩ := setf_eq { u with regs := regs } A.COL_STATUS F.COL_STATUS.ST_RESULT 6
    refine ⟨regs', u.col, ?_⟩
    rw [h, h']

theorem rd_dropTest (b : Nat) (hb : b ≠ A.COL_STATUS) : s.dropTest.rd b = s.rd b := by
  unfold State.dropTest
  split
  · rfl
  · rw [State.rd_setf, if_neg hb, State.rd_setf, if_neg hb]
    rfl

/-- Without the Trivet the loss is asserted and counted once, and charge and memory stay. -/
theorem loseTrivet_of_present (hlost : s.trivetLost = false) :
    s.loseTrivet.trivetLost = true ∧ s.loseTrivet.rd (A.SYS_FLT_CNT 4) = satSucc (s.rd (A.SYS_FLT_CNT 4)) ∧
      s.loseTrivet.chg = s.chg ∧ s.loseTrivet.mem = s.mem := by
  have hlose : s.loseTrivet = State.fault { s with trivetLost := true }.dropTest 0x70 4 originShared 0 := by
    unfold State.loseTrivet
    rw [if_neg (by rw [hlost]; decide)]
  obtain ⟨regs, col, hdrop⟩ := dropTest_eq { s with trivetLost := true }
  obtain ⟨regs', larder, hfault⟩ := fault_eq ({ s with trivetLost := true } : State).dropTest 0x70 4 originShared 0
  have heq : s.loseTrivet = { s with trivetLost := true, regs := regs', col := col, larder := larder } := by
    rw [hlose, hfault, hdrop]
  refine ⟨by rw [heq], ?_, by rw [heq], by rw [heq]⟩
  rw [hlose, rd_fault_cnt _ _ _ _ _ (by decide), rd_dropTest _ _ (by decide)]
  rfl

theorem loseTrivet_of_lost (hlost : s.trivetLost = true) : s.loseTrivet = s := if_pos hlost

theorem loseTrivet_keeps : s.loseTrivet.trivetLost = true ∧ s.loseTrivet.chg = s.chg ∧ s.loseTrivet.mem = s.mem := by
  cases hlost : s.trivetLost with
  | false =>
    obtain ⟨h1, -, h3, h4⟩ := loseTrivet_of_present s hlost
    exact ⟨h1, h3, h4⟩
  | true =>
    rw [loseTrivet_of_lost s hlost]
    exact ⟨hlost, rfl, rfl⟩

/-- Pairs that are driven by nobody and that no line error moves read de-asserted. -/
theorem chargePin_of_no_grant (h : Half) (hgrant : s.chg.grant = 0) (hline : s.chg.line h = none) : s.chargePin h = false := by
  have hpair : s.pairOn h = false := by
    rw [State.pairOn, State.pairLines, hline, hgrant]
    cases h <;> rfl
  rw [State.chargePin, State.pathOpen, hpair]
  rfl

/-! ### Alive lines (R124, R125) -/

theorem exec_aliveLineTimeout (hrun : s.running .k = true ∨ s.running .p = true) (hdue : s.alive + 2 * usTicks ≤ s.now)
    (hlate : s.alive + 2 * usTicks < s.now ∨ (s.soon fun c => decide (c = .aliveLineToggle)) = false) :
    exec .aliveLineTimeout s = .next s.loseTrivet := by
  have hrun' : (s.running .k || s.running .p) = true := by simpa using hrun
  have harrives : (s.alive + 2 * usTicks == s.now && s.soon fun c => decide (c = .aliveLineToggle)) = false := by
    rcases hlate with hlt | hsoon
    · simp [Nat.ne_of_lt hlt]
    · simp [hsoon]
  show execAliveLineTimeout s = _
  exact if_pos (by rw [hrun', harrives, decide_eq_true hdue]; rfl)

theorem exec_aliveLineTimeout_early (hnow : s.now < s.alive + 2 * usTicks) : exec .aliveLineTimeout s = .next s := by
  show execAliveLineTimeout s = _
  refine if_neg ?_
  rw [decide_eq_false (Nat.not_le.2 hnow), Bool.and_false, Bool.false_and]
  exact Bool.false_ne_true

/-- Settles O25: every cause of the loss comes to `loseTrivet`, which keeps charge. -/
theorem trivetLossEffects : Obligations.TrivetLossEffects := by
  intro s xs f4
  refine ⟨⟨_, rfl, rfl⟩, ?_, exec_aliveLineTimeout_early s, fun hlost => ?_, ?_, fun hlost => ?_⟩
  · rintro ⟨hrun, hdue, hlost, hlate⟩
    exact ⟨_, exec_aliveLineTimeout s hrun hdue hlate, loseTrivet_of_present s hlost⟩
  · exact ⟨⟨_, rfl, loseTrivet_of_present s hlost⟩, ⟨_, rfl, loseTrivet_of_present s hlost⟩⟩
  · obtain ⟨hlost, hchg, hmem⟩ := loseTrivet_keeps s
    refine ⟨_, rfl, hlost, ?_, chargePin_of_no_grant _ .k rfl rfl, chargePin_of_no_grant _ .p rfl rfl, hmem⟩
    rw [hchg]
  · have hkeep := loseTrivet_of_lost s hlost
    refine ⟨congrArg _ hkeep, congrArg _ hkeep, ?_, if_pos hlost⟩
    show execAliveLineTimeout s = _
    unfold execAliveLineTimeout
    rw [hkeep, ite_self]

end Sys2Proof.Machine
end

section
/-! What the judgement of due copies leaves as it is (R115 to R122, R693 to R698). -/

namespace Sys2Proof.Machine
open Sys2Proof

-- Parallel elaboration holds many stacks at once, and they count towards the memory a check may take.
set_option Elab.async false

variable (s : State) (h : Half)

theorem streamStat_not_linkReg (n : Nat) : ¬ linkReg (A.COL_STREAM_STAT n) :=
  not_linkReg (.inr (by simp only [A.COL_STREAM_STAT]; omega))

/-! ### Mismatches (R693 to R696) -/

theorem quiet_lastMm (code off n rp : Nat) : s.Quiet (s.lastMm code off n rp) :=
  (quiet_wrn s _ _ (by decide)).trans (quiet_wr64 _ _ _ _ (by decide) (by decide))

theorem quiet_faultMm (code rp : Nat) : s.Quiet (s.faultMm code rp) := quiet_faultD _ _ _ _ _ _ _ _ (by decide)

theorem quiet_countRun (n : Nat) : s.Quiet (s.countRun n) :=
  .trans (.ite (quiet_setf _ _ _ _ (streamStat_not_linkReg n)) (.refl s)) (quiet_setf _ _ _ _ (streamStat_not_linkReg n))

theorem quiet_scheduleRound : s.Quiet s.scheduleRound := .ite (.refl s) .rest

theorem quiet_colPurge (n : Nat) : s.Quiet (s.colPurge n) := (quiet_colDiscard ..).trans (quiet_colDiscard ..)

theorem quiet_startTest (periodic : Bool) : s.Quiet (s.startTest periodic) :=
  .trans .rest ((quiet_setf _ A.COL_STATUS _ _ (by decide)).trans (quiet_inc _ A.COL_SELFTEST (by decide)))

theorem quiet_block (n : Nat) : s.Quiet (s.block n) := by
  unfold State.block
  extract_lets s1 c
  have h1 : s.Quiet s1 := (quiet_setf _ _ _ _ (streamStat_not_linkReg n)).trans (quiet_colPurge ..)
  refine .ite h1 ?_
  split
  · exact h1.trans (quiet_startTest ..)
  · exact h1.trans .rest

theorem quiet_mismatch (code off n rp : Nat) : s.Quiet (s.mismatch code off n rp) := by
  unfold State.mismatch
  extract_lets s1 s2 s3 ia s4
  have h3 : s.Quiet s3 := ((quiet_lastMm ..).trans (quiet_faultMm ..)).trans (quiet_countRun ..)
  have h4 : s.Quiet s4 := h3.trans (.trans .rest (quiet_scheduleRound _))
  exact .ite (h4.trans (quiet_block ..)) h4

theorem beside_probMismatch (code off n rp : Nat) : s.Beside (s.probMismatch h code off n rp) := by
  unfold State.probMismatch
  extract_lets s1 ia s2 c
  have h1 : s.Quiet s1 := (quiet_inc s A.COL_MISMATCH (by decide)).trans (quiet_lastMm ..)
  have h2 : s.Quiet s2 := h1.trans .rest
  exact .ite (h2.toBeside.trans (beside_exits _ _)) h2.toBeside

/-! ### Due copies (R117, R119, R122, R815) -/

theorem quiet_discardPair (n rp : Nat) : s.Quiet (s.discardPair n rp) :=
  (quiet_wrn s A.COL_DISCARD _ (by decide)).trans (quiet_takePair ..)

theorem quiet_judgeBoth (own oth : Copy) (expired : Bool) : s.Quiet (s.judgeBoth h own oth expired) := by
  unfold State.judgeBoth
  extract_lets n rp s1 s2
  have hlate : s.Quiet (if expired = true then s.discardPair n rp else s) := .ite (quiet_discardPair ..) (.refl s)
  have h1 : s.Quiet s1 := (quiet_takePair ..).trans (quiet_inc _ A.COL_MATCH (by decide))
  have h2 : s.Quiet s2 := h1.trans (quiet_setf _ _ _ _ (streamStat_not_linkReg n))
  exact .ite hlate (.ite (((quiet_takePair ..).trans (quiet_inc _ A.COL_MISMATCH (by decide))).trans (quiet_mismatch ..))
    (.ite (h2.trans (quiet_colRelease ..)) hlate))

theorem quiet_releaseUnsent (n rp : Nat) : s.Quiet (s.releaseUnsent h n rp) :=
  (quiet_putColQueue ..).trans (quiet_foldl quiet_colRelease _ _)

theorem beside_judgeProb (n rp : Nat) (expired : Bool) : s.Beside (s.judgeProb h n rp expired) := by
  have hlate : s.Quiet (if expired = true then s.discardPair n rp else s) := .ite (quiet_discardPair ..) (.refl s)
  unfold State.judgeProb
  split
  · refine .ite hlate.toBeside ?_
    extract_lets s1
    have h1 : s.Quiet s1 := .ite (quiet_releaseUnsent ..) (.refl s)
    split
    · have h2 : s.Quiet (s1.takePair n rp) := h1.trans (quiet_takePair ..)
      exact .ite (h2.trans (quiet_inc _ A.COL_MATCH (by decide))).toBeside (h2.toBeside.trans (beside_probMismatch ..))
    · exact .ite ((h1.trans (quiet_takePair ..)).toBeside.trans (beside_probMismatch ..)) h1.toBeside
  · exact (State.Quiet.ite (((quiet_discardPair ..).trans (quiet_inc _ A.COL_WAIT_EXP (by decide))).trans
      (quiet_faultMm ..)) (.refl s)).toBeside
  · exact .refl s

theorem beside_judge (n rp : Nat) (expired : Bool) : s.Beside (s.judge n rp expired) := by
  have hlate : s.Quiet (if expired = true then s.discardPair n rp else s) := .ite (quiet_discardPair ..) (.refl s)
  unfold State.judge
  split
  · exact hlate.toBeside
  · dsimp only
    refine .ite (quiet_discardPair ..).toBeside (.ite (beside_judgeProb ..) (.ite ?_ ?_))
    · split
      · exact (quiet_judgeBoth ..).toBeside
      · exact .refl s
      · exact (State.Quiet.ite (.refl s) (.ite (quiet_discardPair ..)
          (((quiet_takePair ..).trans (quiet_inc _ A.COL_WAIT_EXP (by decide))).trans (quiet_mismatch ..)))).toBeside
    · split
      · exact (State.Quiet.ite ((quiet_takePair ..).trans (quiet_colRelease ..)) hlate).toBeside
      · exact hlate.toBeside

theorem beside_releaseDue : s.Beside s.releaseDue := beside_foldl (fun s _ => beside_judge s _ _ _) _ _

/-- Without queued copies nothing is due. -/
theorem dueKeys_of_empty (hk : s.col.qk = []) (hp : s.col.qp = []) : s.dueKeys = [] := by
  simp [State.dueKeys, State.queueKeys, Colander.queue, hk, hp]

theorem releaseDue_of_none (hdue : s.dueKeys = []) : s.releaseDue = s := by rw [State.releaseDue, hdue]; rfl

end Sys2Proof.Machine
end

section
/-! Twin mode (R134 to R140). -/

namespace Sys2Proof.Machine
open Sys2Proof

-- Parallel elaboration holds many stacks at once, and they count towards the memory a check may take.
set_option Elab.async false

variable (s : State) {t u : State}

/-! ### Fields of TRV_TWIN -/

/-- Two fields of a word that share no bit. -/
abbrev fldsApart (f g : Fld) : Prop := f.lo ≤ f.hi ∧ f.hi < 32 ∧ g.lo ≤ g.hi ∧ (g.hi < f.lo ∨ f.hi < g.lo)

theorem fld_setf_apart (a : Nat) (f g : Fld) (v : Nat) (h : fldsApart f g) : (s.setf a f v).fld a g = s.fld a g :=
  State.fld_setf_field s a f g v ⟨h.1, h.2.1⟩ h.2.2.1 h.2.2.2

theorem role_setf_role (v : Nat) : (s.setf A.TRV_TWIN F.TRV_TWIN.ROLE v).role = v % 4 := State.fld_setf _ _ _ _ (by decide)

/-! ### Charge of the chip (R85, R135, R138) -/

/-- What a change of the chip's charge leaves: the misses, memory, and the fields of TRV_TWIN but ROLE. -/
structure State.RoleOnly (s t : State) : Prop where
  misses : t.twin.misses = s.twin.misses
  at_ : t.twin.at_ = s.twin.at_
  mem : t.mem = s.mem
  fld : ∀ f, fldsApart F.TRV_TWIN.ROLE f → t.fld A.TRV_TWIN f = s.fld A.TRV_TWIN f

theorem State.RoleOnly.refl : s.RoleOnly s := ⟨rfl, rfl, rfl, fun _ _ => rfl⟩

/-- ROLE set, the window closed. -/
theorem roleOnly_setRole (v : Nat) :
    s.RoleOnly (State.setf { s with twin := { s.twin with window := none } } A.TRV_TWIN F.TRV_TWIN.ROLE v) :=
  ⟨rfl, rfl, rfl, fun f hf => fld_setf_apart _ _ _ f v hf⟩

theorem roleOnly_of_beside (h : s.RoleOnly t) (k : t.Beside u) : s.RoleOnly u :=
  ⟨(congrArg Twin.misses k.twin).trans h.misses, (congrArg Twin.at_ k.twin).trans h.at_, k.mem.trans h.mem,
    fun f hf => (congrArg (fget f) (k.link _ (.inl rfl))).trans (h.fld f hf)⟩

theorem roleOnly_twinStandby : s.RoleOnly s.twinStandby := roleOnly_setRole s 2

theorem roleOnly_twinTake : s.RoleOnly s.twinTake := by
  unfold State.twinTake
  split
  · exact .refl s
  · exact roleOnly_of_beside s (roleOnly_setRole s 1) (beside_releaseDue _)

theorem roleOnly_twinCastOn : s.RoleOnly s.twinCastOn := by
  unfold State.twinCastOn
  split
  · exact .refl s
  · split
    · exact ⟨rfl, rfl, rfl, fun _ _ => rfl⟩
    · split
      · exact roleOnly_twinTake s
      · exact .refl s

theorem twinCastOn_of_role (hrole : s.role ≠ 0) : s.twinCastOn = s := if_pos (.inl hrole)

theorem role_twinStandby : s.twinStandby.role = 2 := role_setf_role _ 2

/-- Where the indices do not clash the chip takes twin charge. -/
theorem role_twinTake (hclash : s.clash = false) : s.twinTake.role = 1 := by
  unfold State.twinTake
  rw [if_neg (by rw [hclash]; decide)]
  dsimp only
  rw [State.role, State.fld, (beside_releaseDue _).link _ (.inl rfl)]
  exact role_setf_role _ 1

/-- Without queued copies nothing is released by it. -/
theorem twinTake_of_empty (hclash : s.clash = false) (hk : s.col.qk = []) (hp : s.col.qp = []) :
    s.twinTake = State.setf { s with twin := { s.twin with window := none } } A.TRV_TWIN F.TRV_TWIN.ROLE 1 := by
  unfold State.twinTake
  rw [if_neg (by rw [hclash]; decide)]
  exact releaseDue_of_none _ (dueKeys_of_empty _ hk hp)

/-! ### TWIN_PEER (R138 to R140) -/

theorem setf_frame (a : Nat) (f : Fld) (v : Nat) : s.setf a f v = { s with regs := (s.setf a f v).regs } := rfl

theorem setb_eq (a : Nat) (f : Fld) (b : Bool) : ∃ regs, s.setb a f b = { s with regs := regs } := ⟨_, rfl⟩

theorem twin_setb (a : Nat) (f : Fld) (b : Bool) : (s.setb a f b).twin = s.twin := rfl

theorem rd_twin (w : Twin) (a : Nat) : State.rd { s with twin := w } a = s.rd a := rfl

theorem rd_peerLevel (high : Bool) (a : Nat) : (s.peerLevel high).rd a = (s.setb A.TRV_TWIN F.TRV_TWIN.PEER_HOLD high).rd a := by
  unfold State.peerLevel
  extract_lets u w
  split
  · exact rd_twin u _ a
  · rfl

theorem peerLevel_eq (high : Bool) :
    ∃ regs low, s.peerLevel high = { s with regs := regs, twin := { s.twin with peerLow := low } } := by
  obtain ⟨regs, h⟩ := setb_eq s A.TRV_TWIN F.TRV_TWIN.PEER_HOLD high
  unfold State.peerLevel
  rw [h]
  cases high
  · exact ⟨regs, s.twin.peerLow, rfl⟩
  · exact ⟨regs, false, rfl⟩

theorem fld_peerLevel (high : Bool) (f : Fld) (hf : fldsApart F.TRV_TWIN.PEER_HOLD f) :
    (s.peerLevel high).fld A.TRV_TWIN f = s.fld A.TRV_TWIN f :=
  (congrArg (fget f) (rd_peerLevel s high _)).trans (fld_setf_apart _ _ _ f _ hf)

theorem flag_peerLevel (high : Bool) : (s.peerLevel high).flag A.TRV_TWIN F.TRV_TWIN.PEER_HOLD = high :=
  (congrArg (fun w => fget F.TRV_TWIN.PEER_HOLD w != 0) (rd_peerLevel s high _)).trans (State.flag_setb _ _ _ _ (by decide))

/-! ### Reception (R135, R140) -/

/-- What every twin heartbeat does: TWIN_PEER is sampled, the misses end, the timer restarts, LINK_UP is set. -/
def State.twinHeard (s : State) (peer : Bool) : State :=
  let u := s.peerLevel peer
  State.setf { u with twin := { u.twin with misses := 0, at_ := u.now } } A.TRV_TWIN F.TRV_TWIN.LINK_UP 1

theorem fld_twinHeard (peer : Bool) (f : Fld) (hf : fldsApart F.TRV_TWIN.PEER_HOLD f) (hf' : fldsApart F.TRV_TWIN.LINK_UP f) :
    (s.twinHeard peer).fld A.TRV_TWIN f = s.fld A.TRV_TWIN f :=
  (fld_setf_apart _ _ _ f 1 hf').trans (fld_peerLevel s peer f hf)

theorem twinHeard_eq (peer : Bool) : ∃ regs low, s.twinHeard peer =
    { s with regs := regs, twin := { s.twin with misses := 0, at_ := s.now, peerLow := low } } := by
  obtain ⟨regs, low, h⟩ := peerLevel_eq s peer
  unfold State.twinHeard
  rw [h]
  exact ⟨_, low, setf_frame _ _ _ _⟩

/-- A heartbeat of the other chip is heard, and the clash bit falls. -/
def State.twinPeerHeard (s : State) (peer : Bool) : State := (s.twinHeard peer).setf A.TRV_TWIN F.TRV_TWIN.INDEX_CLASH 0

theorem twinPeerHeard_eq (peer : Bool) : ∃ regs low, s.twinPeerHeard peer =
    { s with regs := regs, twin := { s.twin with misses := 0, at_ := s.now, peerLow := low } } := by
  obtain ⟨regs, low, h⟩ := twinHeard_eq s peer
  unfold State.twinPeerHeard
  rw [h]
  exact ⟨_, low, setf_frame _ _ _ _⟩

/-- TRV_TWIN after a heartbeat of the other chip. -/
theorem fields_twinPeerHeard (peer : Bool) :
    (s.twinPeerHeard peer).flag A.TRV_TWIN F.TRV_TWIN.LINK_UP = true ∧ (s.twinPeerHeard peer).clash = false ∧
      (s.twinPeerHeard peer).flag A.TRV_TWIN F.TRV_TWIN.PEER_HOLD = peer ∧ (s.twinPeerHeard peer).role = s.role := by
  have hbit : ∀ f, fldsApart F.TRV_TWIN.INDEX_CLASH f →
      (s.twinPeerHeard peer).fld A.TRV_TWIN f = (s.twinHeard peer).fld A.TRV_TWIN f := fun f => fld_setf_apart _ _ _ f 0
  refine ⟨?_, ?_, ?_, ?_⟩
  · exact congrArg (· != 0) ((hbit _ (by decide)).trans (State.fld_setf _ _ _ 1 (by decide)))
  · exact congrArg (· != 0) (State.fld_setf _ _ _ 0 (by decide))
  · refine (congrArg (· != 0) ((hbit _ (by decide)).trans (fld_setf_apart _ _ _ _ 1 (by decide)))).trans ?_
    exact (congrArg (fun w => fget F.TRV_TWIN.PEER_HOLD w != 0) (rd_twin (s.peerLevel peer) _ _)).trans (flag_peerLevel s peer)
  · exact (hbit _ (by decide)).trans (fld_twinHeard s peer _ (by decide) (by decide))

theorem exec_twinHeartbeatReceive_other (idx : Fin 2) (cand holds peer : Bool) (hon : s.twinOn = true)
    (hown : s.fld A.TRV_TWIN F.TRV_TWIN.INDEX ≠ idx.val) :
    let u := s.twinPeerHeard peer
    exec (.twinHeartbeatReceive idx cand holds peer) s =
      if u.role ≠ 0 ∨ u.holder.isNone then .next u
      else if holds then .next u.twinStandby
      else if cand then if s.fld A.TRV_TWIN F.TRV_TWIN.INDEX = 0 then .next u.twinTake else .next u.twinStandby
      else .next u := by
  have hindex := fld_twinHeard s peer F.TRV_TWIN.INDEX (by decide) (by decide)
  show execTwinHeartbeatReceive idx cand holds peer s = _
  unfold execTwinHeartbeatReceive
  rw [if_neg (by rw [hon]; decide)]
  dsimp only
  rw [if_neg (by rw [← hindex] at hown; exact hown)]
  rw [← hindex]
  rfl

theorem exec_twinHeartbeatReceive_own (idx : Fin 2) (cand holds peer : Bool) (hon : s.twinOn = true)
    (hown : s.fld A.TRV_TWIN F.TRV_TWIN.INDEX = idx.val) (hclash : s.clash = false) :
    exec (.twinHeartbeatReceive idx cand holds peer) s =
      .next ((((s.twinHeard peer).setf A.TRV_TWIN F.TRV_TWIN.INDEX_CLASH 1).setf A.TRV_TWIN F.TRV_TWIN.ROLE 0).fault 0x72 4
        originTwin 0) := by
  have hindex := fld_twinHeard s peer F.TRV_TWIN.INDEX (by decide) (by decide)
  have hbit : (s.twinHeard peer).clash = s.clash :=
    congrArg (· != 0) (fld_twinHeard s peer F.TRV_TWIN.INDEX_CLASH (by decide) (by decide))
  show execTwinHeartbeatReceive idx cand holds peer s = _
  unfold execTwinHeartbeatReceive
  rw [if_neg (by rw [hon]; decide)]
  dsimp only
  rw [if_pos (by rw [← hindex] at hown; exact hown)]
  exact if_neg (by rw [← hbit] at hclash; exact fun h => Bool.false_ne_true (hclash.symm.trans h))

/-! ### Timeout and TWIN_PEER low (R98 to R100, R138, R139) -/

/-- A miss of the other chip's heartbeats. -/
def State.twinMissed (s : State) (peer : Bool) : State :=
  let u := s.peerLevel peer
  { u with twin := { u.twin with misses := min 3 (u.twin.misses + 1), at_ := u.now } }

theorem twinMissed_eq (peer : Bool) : ∃ regs low, s.twinMissed peer =
    { s with regs := regs, twin := { s.twin with misses := min 3 (s.twin.misses + 1), at_ := s.now, peerLow := low } } := by
  obtain ⟨regs, low, h⟩ := peerLevel_eq s peer
  unfold State.twinMissed
  rw [h]
  exact ⟨regs, low, rfl⟩

theorem fld_twinMissed (peer : Bool) (f : Fld) (hf : fldsApart F.TRV_TWIN.PEER_HOLD f) :
    (s.twinMissed peer).fld A.TRV_TWIN f = s.fld A.TRV_TWIN f :=
  (congrArg (fget f) (rd_twin (s.peerLevel peer) _ _)).trans (fld_peerLevel s peer f hf)

/-- A low level keeps the record of a low time. -/
theorem twin_peerLevel_low : (s.peerLevel false).twin = s.twin := by
  unfold State.peerLevel
  rw [if_neg Bool.false_ne_true]
  exact twin_setb s _ _ _

theorem misses_peerLevel (peer : Bool) : (s.peerLevel peer).twin.misses = s.twin.misses := by
  obtain ⟨regs, low, h⟩ := peerLevel_eq s peer
  rw [h]

/-- At the third miss LINK_UP falls. -/
def State.twinThird (s : State) (peer : Bool) : State := (s.twinMissed peer).setf A.TRV_TWIN F.TRV_TWIN.LINK_UP 0

theorem twinThird_eq (peer : Bool) : ∃ regs low, s.twinThird peer =
    { s with regs := regs, twin := { s.twin with misses := min 3 (s.twin.misses + 1), at_ := s.now, peerLow := low } } := by
  obtain ⟨regs, low, h⟩ := twinMissed_eq s peer
  unfold State.twinThird
  rw [h]
  exact ⟨_, low, setf_frame _ _ _ _⟩

theorem fld_twinThird (peer : Bool) (f : Fld) (hf : fldsApart F.TRV_TWIN.PEER_HOLD f) (hf' : fldsApart F.TRV_TWIN.LINK_UP f) :
    (s.twinThird peer).fld A.TRV_TWIN f = s.fld A.TRV_TWIN f :=
  (fld_setf_apart _ _ _ f 0 hf').trans (fld_twinMissed s peer f hf)

theorem role_twinThird (peer : Bool) : (s.twinThird peer).role = s.role := fld_twinThird s peer _ (by decide) (by decide)

theorem linkUp_twinThird (peer : Bool) : (s.twinThird peer).flag A.TRV_TWIN F.TRV_TWIN.LINK_UP = false :=
  congrArg (· != 0) (State.fld_setf _ _ _ 0 (by decide))

theorem twin_setf (a : Nat) (f : Fld) (v : Nat) : (s.setf a f v).twin = s.twin := rfl

theorem peerLow_twinMissed (peer : Bool) : (s.twinMissed peer).twin.peerLow = (s.peerLevel peer).twin.peerLow := rfl

theorem peerLow_twinThird_low : (s.twinThird false).twin.peerLow = s.twin.peerLow :=
  (congrArg Twin.peerLow (twin_setf (s.twinMissed false) _ _ _)).trans
    ((peerLow_twinMissed s false).trans (congrArg Twin.peerLow (twin_peerLevel_low s)))

theorem rd_twinThird_other (peer : Bool) (a : Nat) (ha : a ≠ A.TRV_TWIN) : (s.twinThird peer).rd a = s.rd a := by
  refine (State.rd_setf ..).trans ((if_neg ha).trans ((rd_twin (s.peerLevel peer) _ _).trans ((rd_peerLevel s peer a).trans ?_)))
  exact (State.rd_setf ..).trans (if_neg ha)

section
variable {s} (hon : s.twinOn = true) (hdue : s.twin.at_ + 534 ≤ s.now) (hsoon : s.twinSoon = false)
include hon hdue hsoon

theorem exec_twinHeartbeatTimeout (peer : Bool) : exec (.twinHeartbeatTimeout peer) s =
    let u := s.twinMissed peer
    if (s.peerLevel peer).twin.misses = 2 then
      let v := u.setf A.TRV_TWIN F.TRV_TWIN.LINK_UP 0
      if v.role ≠ 2 then .next v
      else if peer then .next (v.fault 0x73 2 originTwin 0)
      else if v.twin.peerLow then .next v.twinTake else .next v
    else .next u := by
  show execTwinHeartbeatTimeout peer s = _
  exact if_neg (by rw [hon, hsoon]; simpa using hdue)

end

section
variable {s} (hon : s.twinOn = true) (hdue : s.twin.at_ + 534 ≤ s.now) (hsoon : s.twinSoon = false)
include hon hdue hsoon

/-- Before the third miss. -/
theorem exec_twinHeartbeatTimeout_early (peer : Bool) (hearly : s.twin.misses ≠ 2) :
    exec (.twinHeartbeatTimeout peer) s = .next (s.twinMissed peer) :=
  (exec_twinHeartbeatTimeout hon hdue hsoon peer).trans (if_neg (by rwa [misses_peerLevel]))

/-- The third miss in standby, TWIN_PEER high. -/
theorem exec_twinHeartbeatTimeout_high (hmisses : s.twin.misses = 2) (hrole : (s.twinThird true).role = 2) :
    exec (.twinHeartbeatTimeout true) s = .next ((s.twinThird true).fault 0x73 2 originTwin 0) := by
  refine (exec_twinHeartbeatTimeout hon hdue hsoon true).trans ((if_pos (by rwa [misses_peerLevel])).trans ?_)
  exact (if_neg fun h => h hrole).trans (if_pos rfl)

/-- The third miss in standby, TWIN_PEER low and low before. -/
theorem exec_twinHeartbeatTimeout_low (hmisses : s.twin.misses = 2) (hrole : (s.twinThird false).role = 2)
    (hlow : (s.twinThird false).twin.peerLow = true) :
    exec (.twinHeartbeatTimeout false) s = .next (s.twinThird false).twinTake := by
  refine (exec_twinHeartbeatTimeout hon hdue hsoon false).trans ((if_pos (by rwa [misses_peerLevel])).trans ?_)
  exact (if_neg fun h => h hrole).trans ((if_neg Bool.false_ne_true).trans (if_pos hlow))

end

/-- TWIN_PEER has been low. -/
def State.twinLow (s : State) : State := { s.peerLevel false with twin := { (s.peerLevel false).twin with peerLow := true } }

theorem twinLow_eq : ∃ regs, s.twinLow = { s with regs := regs, twin := { s.twin with peerLow := true } } := by
  obtain ⟨regs, low, h⟩ := peerLevel_eq s false
  unfold State.twinLow
  rw [h]
  exact ⟨regs, rfl⟩

theorem rd_twinLow (a : Nat) : s.twinLow.rd a = (s.setb A.TRV_TWIN F.TRV_TWIN.PEER_HOLD false).rd a :=
  (rd_twin (s.peerLevel false) _ a).trans (rd_peerLevel s false a)

theorem fld_twinLow (f : Fld) (hf : fldsApart F.TRV_TWIN.PEER_HOLD f) : s.twinLow.fld A.TRV_TWIN f = s.fld A.TRV_TWIN f :=
  (congrArg (fget f) (rd_twinLow s _)).trans (fld_setf_apart _ _ _ f _ hf)

theorem misses_twinLow : s.twinLow.twin.misses = s.twin.misses := by
  obtain ⟨regs, h⟩ := twinLow_eq s
  rw [h]

theorem exec_twinPeerLow (hon : s.twinOn = true) : exec .twinPeerLow s =
    if s.twinLow.twin.misses = 3 ∧ s.twinLow.role = 2 then .next s.twinLow.twinTake else .next s.twinLow := by
  show execTwinPeerLow s = _
  exact if_neg (by rw [hon]; decide)

/-- A heartbeat of the other chip: what it does beside ROLE, and the four cases of ROLE. -/
theorem twinHeartbeatReceive_other (idx : Fin 2) (cand holds peer : Bool) (hon : s.twinOn = true)
    (hown : s.fld A.TRV_TWIN F.TRV_TWIN.INDEX ≠ idx.val) :
    ∃ t, exec (.twinHeartbeatReceive idx cand holds peer) s = .next t ∧ (s.twinPeerHeard peer).RoleOnly t ∧
      (s.role ≠ 0 → t.role = s.role) ∧ (s.role = 0 ∧ s.holder.isSome = true ∧ holds = true → t.role = 2) ∧
      (s.role = 0 ∧ s.holder.isSome = true ∧ holds = false ∧ cand = true →
        t.role = if s.fld A.TRV_TWIN F.TRV_TWIN.INDEX = 0 then 1 else 2) := by
  have hexec := exec_twinHeartbeatReceive_other s idx cand holds peer hon hown
  obtain ⟨-, hclash, -, hrole⟩ := fields_twinPeerHeard s peer
  have hholder : (s.twinPeerHeard peer).holder = s.holder := by
    obtain ⟨regs, low, h⟩ := twinPeerHeard_eq s peer
    rw [h]
    rfl
  rw [← hrole, ← hholder]
  dsimp only at hexec
  generalize s.twinPeerHeard peer = u at hexec hclash
  by_cases hno : u.role ≠ 0 ∨ u.holder.isNone
  · rw [if_pos hno] at hexec
    have hnobody : ¬ (u.role = 0 ∧ u.holder.isSome = true) := by
      rintro ⟨hr, hh⟩
      rcases hno with hno | hno
      · exact hno hr
      · rw [Option.isNone_iff_eq_none.1 hno] at hh
        exact Bool.false_ne_true hh
    exact ⟨u, hexec, .refl u, fun _ => rfl, fun hc => absurd ⟨hc.1, hc.2.1⟩ hnobody, fun hc => absurd ⟨hc.1, hc.2.1⟩ hnobody⟩
  · rw [if_neg hno] at hexec
    have hr : u.role = 0 := by simpa using fun h => hno (.inl h)
    cases holds with
    | true =>
      exact ⟨_, hexec, roleOnly_twinStandby u, fun h => absurd hr h, fun _ => role_twinStandby u, by simp⟩
    | false =>
      cases cand with
      | false => exact ⟨_, hexec, .refl u, fun _ => rfl, by simp, by simp⟩
      | true =>
        by_cases h0 : s.fld A.TRV_TWIN F.TRV_TWIN.INDEX = 0
        · rw [if_pos h0] at hexec ⊢
          exact ⟨_, hexec, roleOnly_twinTake u, fun h => absurd hr h, by simp, fun _ => role_twinTake u hclash⟩
        · rw [if_neg h0] at hexec ⊢
          exact ⟨_, hexec, roleOnly_twinStandby u, fun h => absurd hr h, by simp, fun _ => role_twinStandby u⟩

/-- A heartbeat with the chip's own INDEX. -/
def State.twinClash (s : State) (peer : Bool) : State :=
  ((s.twinHeard peer).setf A.TRV_TWIN F.TRV_TWIN.INDEX_CLASH 1).setf A.TRV_TWIN F.TRV_TWIN.ROLE 0

theorem twinClash_eq (peer : Bool) : ∃ regs twin, s.twinClash peer = { s with regs := regs, twin := twin } := by
  obtain ⟨regs, low, h⟩ := twinHeard_eq s peer
  unfold State.twinClash
  rw [h]
  obtain ⟨regs', h'⟩ := setf_eq { s with
    regs := regs, twin := { s.twin with misses := 0, at_ := s.now, peerLow := low } } A.TRV_TWIN F.TRV_TWIN.INDEX_CLASH 1
  rw [h']
  exact ⟨_, _, setf_frame _ _ _ _⟩

theorem rd_twinHeard_other (peer : Bool) (a : Nat) (ha : a ≠ A.TRV_TWIN) : (s.twinHeard peer).rd a = s.rd a := by
  refine (State.rd_setf ..).trans ((if_neg ha).trans ((rd_twin (s.peerLevel peer) _ _).trans ((rd_peerLevel s peer a).trans ?_)))
  exact (State.rd_setf ..).trans (if_neg ha)

theorem rd_twinClash_other (peer : Bool) (a : Nat) (ha : a ≠ A.TRV_TWIN) : (s.twinClash peer).rd a = s.rd a :=
  (State.rd_setf ..).trans ((if_neg ha).trans ((State.rd_setf ..).trans ((if_neg ha).trans (rd_twinHeard_other s peer a ha))))

theorem fields_twinClash (peer : Bool) : (s.twinClash peer).clash = true ∧ (s.twinClash peer).role = 0 :=
  ⟨congrArg (· != 0) ((fld_setf_apart _ _ _ _ 0 (by decide)).trans (State.fld_setf _ _ _ 1 (by decide))), role_setf_role _ 0⟩

/-- Settles O26: charge of the chip changes ROLE and the window alone, whatever copies it releases. -/
theorem twinEffects : Obligations.TwinEffects := by
  intro s idx cand holds peer own
  refine ⟨?_, ?_, ?_, ?_, ?_, ?_⟩
  · rintro ⟨hon, hraw, hmul⟩
    have hexec : exec .twinHeartbeatSend s = .next (s.twinCastOn.emit
        (.twin (s.twinCastOn.fld A.TRV_TWIN F.TRV_TWIN.INDEX) s.twinCastOn.holder.isSome (s.twinCastOn.role = 1))) :=
      if_pos ⟨hon, hraw, hmul⟩
    have hkeep := roleOnly_twinCastOn s
    rw [hkeep.fld _ (by decide)] at hexec
    refine ⟨_, hexec, rfl, hkeep.mem, fun hrole => ?_⟩
    rw [twinCastOn_of_role s hrole]
    exact ⟨rfl, rfl⟩
  · rintro ⟨hon, hown⟩
    obtain ⟨t, hexec, hkeep, hrole⟩ := twinHeartbeatReceive_other s idx cand holds peer hon hown
    obtain ⟨regs, low, heard⟩ := twinPeerHeard_eq s peer
    obtain ⟨hup, hclash, hpeer, -⟩ := fields_twinPeerHeard s peer
    refine ⟨t, hexec, hkeep.misses.trans ?_, hkeep.at_.trans ?_, (congrArg (· != 0) (hkeep.fld _ (by decide))).trans hup,
      (congrArg (· != 0) (hkeep.fld _ (by decide))).trans hclash,
      (congrArg (· != 0) (hkeep.fld _ (by decide))).trans hpeer, hrole⟩
    · rw [heard]
    · rw [heard]
  · rintro ⟨hon, hown, hclash⟩
    have hfault := quiet_fault (s.twinClash peer) 0x72 4 originTwin 0 (by decide)
    obtain ⟨regs, twin, h⟩ := twinClash_eq s peer
    obtain ⟨hbit, hrole⟩ := fields_twinClash s peer
    refine ⟨_, exec_twinHeartbeatReceive_own s idx cand holds peer hon hown hclash,
      (congrArg (fun w => fget F.TRV_TWIN.INDEX_CLASH w != 0) (hfault.link _ (.inl rfl))).trans hbit,
      (congrArg (fget F.TRV_TWIN.ROLE) (hfault.link _ (.inl rfl))).trans hrole,
      (rd_fault_cnt _ _ _ _ _ (by decide)).trans (congrArg satSucc (rd_twinClash_other s peer _ (by decide))),
      hfault.chg.trans (by rw [h]), hfault.mem.trans (by rw [h])⟩
  · rintro ⟨hon, hdue, hsoon⟩
    refine ⟨fun hearly => ?_, ?_, ?_⟩
    · obtain ⟨regs, low, h⟩ := twinMissed_eq s peer
      refine ⟨_, exec_twinHeartbeatTimeout_early hon hdue hsoon peer (Nat.ne_of_lt hearly), ?_, ?_,
        fld_twinMissed s peer _ (by decide), ?_, ?_⟩
      · rw [h]
        exact Nat.min_eq_right (by omega)
      · rw [h]
      · rw [h]
      · rw [h]
    · rintro ⟨hmisses, hrole⟩
      have hfault := quiet_fault (s.twinThird true) 0x73 2 originTwin 0 (by decide)
      obtain ⟨regs, low, h⟩ := twinThird_eq s true
      have hrole' := (role_twinThird s true).trans hrole
      refine ⟨_, exec_twinHeartbeatTimeout_high hon hdue hsoon hmisses hrole', ?_,
        (congrArg (fget F.TRV_TWIN.ROLE) (hfault.link _ (.inl rfl))).trans hrole',
        (congrArg (fun w => fget F.TRV_TWIN.LINK_UP w != 0) (hfault.link _ (.inl rfl))).trans (linkUp_twinThird s true),
        (rd_fault_cnt _ _ _ _ _ (by decide)).trans (congrArg satSucc (rd_twinThird_other s true _ (by decide))),
        hfault.mem.trans (by rw [h])⟩
      rw [hfault.twin, h]
      exact Nat.min_eq_left (by omega)
    · rintro ⟨hmisses, hrole, hlow, hclash, -, -⟩
      obtain ⟨regs, low, h⟩ := twinThird_eq s false
      have hclash' : (s.twinThird false).clash = false :=
        (congrArg (· != 0) (fld_twinThird s false _ (by decide) (by decide))).trans hclash
      have hkeep := roleOnly_twinTake (s.twinThird false)
      refine ⟨_, exec_twinHeartbeatTimeout_low hon hdue hsoon hmisses ((role_twinThird s false).trans hrole)
        ((peerLow_twinThird_low s).trans hlow), hkeep.misses.trans ?_, role_twinTake _ hclash', hkeep.mem.trans (by rw [h])⟩
      rw [h]
      exact Nat.min_eq_left (by omega)
  · intro hon
    have hrole : s.twinLow.role = s.role := fld_twinLow s _ (by decide)
    obtain ⟨regs, h⟩ := twinLow_eq s
    refine ⟨fun hstay => ?_, ?_⟩
    · have hno : ¬ (s.twinLow.twin.misses = 3 ∧ s.twinLow.role = 2) := by
        rw [misses_twinLow, hrole]
        exact fun hboth => hstay.elim (absurd hboth.1) (absurd hboth.2)
      refine ⟨_, (exec_twinPeerLow s hon).trans (if_neg hno), ?_, hrole, ?_, fun a ha => ?_, ?_⟩
      · rw [h]
      · exact (congrArg (fun w => fget F.TRV_TWIN.PEER_HOLD w != 0) (rd_twinLow s _)).trans (State.flag_setb _ _ _ _ (by decide))
      · exact (rd_twinLow s a).trans ((State.rd_setf ..).trans (if_neg (by simpa using ha)))
      · rw [h]
    · rintro ⟨hmisses, hr, hclash, hk, hp⟩
      have hclash' : s.twinLow.clash = false := (congrArg (· != 0) (fld_twinLow s _ (by decide))).trans hclash
      have htake := twinTake_of_empty s.twinLow hclash' (by rw [h]; exact hk) (by rw [h]; exact hp)
      refine ⟨_, (exec_twinPeerLow s hon).trans (if_pos ⟨(misses_twinLow s).trans hmisses, hrole.trans hr⟩),
        role_twinTake _ hclash', ?_, (roleOnly_twinTake _).mem.trans (by rw [h])⟩
      rw [htake, setf_frame, h]
  · intro hoff
    have hoff' : (!s.twinOn) = true := by rw [hoff]; rfl
    exact ⟨if_neg fun h => Bool.false_ne_true (hoff.symm.trans h.1), if_pos hoff', if_pos (.inl hoff'), if_pos hoff'⟩

end Sys2Proof.Machine
end

section
/-! Release of copies (R117, R119, R688, R693 to R696, R815). -/

namespace Sys2Proof.Machine
open Sys2Proof

-- Parallel elaboration holds many stacks at once, and they count towards the memory a check may take.
set_option Elab.async false

variable (s : State) {t u : State} (h : Half)

@[simp] theorem out_setf (a : Nat) (f : Fld) (v : Nat) : (s.setf a f v).out = s.out := rfl
@[simp] theorem col_setf (a : Nat) (f : Fld) (v : Nat) : (s.setf a f v).col = s.col := rfl
@[simp] theorem out_inc (a : Nat) : (s.inc a).out = s.out := rfl
@[simp] theorem col_inc (a : Nat) : (s.inc a).col = s.col := rfl

/-! ### Queues -/

theorem dropFirst_length_lt {f : Copy → Bool} {q : List Copy} {a : Copy} (hfind : q.find? f = some a) :
    (dropFirst f q).length < q.length := by
  induction q with
  | nil => cases hfind
  | cons c q ih =>
    rw [dropFirst]
    by_cases hc : f c = true
    · rw [if_pos hc]
      exact Nat.lt_succ_self _
    · rw [if_neg hc]
      rw [List.find?_cons_of_neg hc] at hfind
      exact Nat.succ_lt_succ (ih hfind)

theorem queue_putQueue (c : Colander) (q : List Copy) : (c.putQueue h q).queue h = q := by cases h <;> rfl

theorem queue_putQueue_other (c : Colander) (q : List Copy) : (c.putQueue h q).queue h.other = c.queue h.other := by cases h <;> rfl

theorem col_putColQueue (q : List Copy) : (s.putColQueue h q).col = s.col.putQueue h q := col_setf ..

theorem out_putColQueue (q : List Copy) : (s.putColQueue h q).out = s.out := out_setf ..

theorem queue_takePair (n rp : Nat) : (s.takePair n rp).col.queue h = dropFirst (Copy.is n rp) (s.col.queue h) := by
  rw [State.takePair, col_putColQueue, col_putColQueue]
  cases h <;> rfl

theorem rd_putColQueue (q : List Copy) (a : Nat) (ha : a ≠ A.COL_QUEUE) : (s.putColQueue h q).rd a = s.rd a :=
  (State.rd_setf ..).trans (if_neg ha)

theorem rd_takePair (n rp a : Nat) (ha : a ≠ A.COL_QUEUE) : (s.takePair n rp).rd a = s.rd a :=
  (rd_putColQueue _ .p _ a ha).trans (rd_putColQueue s .k _ a ha)

theorem out_takePair (n rp : Nat) : (s.takePair n rp).out = s.out :=
  (out_putColQueue ..).trans (out_putColQueue ..)

/-- The copy found for a stream and release point is of that stream and release point. -/
theorem copyOf_is {n rp : Nat} {a : Copy} (ha : s.copyOf h n rp = some a) : a.stream = n ∧ a.rp = rp := by
  have his := List.find?_some ha
  simpa [Copy.is] using his

/-! ### A release (R688) -/

/-- The registers of the Colander that egress leaves as they are. -/
abbrev colReg (a : Nat) : Prop := 0x30050000 ≤ a ∧ a < 0x30060000 ∧ a ≠ A.COL_CHAN_REJ

/-- Egress leaves the outputs, the queues and the Colander's registers but one. -/
structure State.Sends (s t : State) : Prop where
  out : t.out = s.out
  col : t.col = s.col
  rd : ∀ a, colReg a → t.rd a = s.rd a

theorem State.Sends.refl : s.Sends s := ⟨rfl, rfl, fun _ _ => rfl⟩

variable {s} in
theorem State.Sends.trans (h : s.Sends t) (k : t.Sends u) : s.Sends u :=
  ⟨k.out.trans h.out, k.col.trans h.col, fun a ha => (k.rd a ha).trans (h.rd a ha)⟩

theorem sends_inc (a : Nat) (ha : ¬ colReg a) : s.Sends (s.inc a) := by
  refine ⟨rfl, rfl, fun b hb => ?_⟩
  have hba : b ≠ a := fun hba => ha (hba ▸ hb)
  rw [State.rd_inc, if_neg hba]

theorem sends_stitchWrite (c st : Nat) (data : List Byte) (ready : Nat) : s.Sends (s.stitchWrite c st data ready) := by
  have hrej : ¬ colReg (A.DTT_TX_REJ c) := by simp only [colReg, A.DTT_TX_REJ]; omega
  unfold State.stitchWrite
  extract_lets known
  split
  · exact sends_inc s _ hrej
  · exact ⟨rfl, rfl, fun _ _ => rfl⟩

theorem sends_cxFill {c : Nat} {f : CxFrame} (hf : s.cxFill c f = some t) : s.Sends t := by
  unfold State.cxFill at hf
  split at hf
  · cases hf
    exact ⟨rfl, rfl, fun _ _ => rfl⟩
  · cases hf

theorem sends_mapPlane (f : Plane → Plane) : s.Sends (s.mapPlane h f) := by
  cases h <;> exact ⟨rfl, rfl, fun _ _ => rfl⟩

theorem sends_egress (bytes : List Byte) (v : Nat) : s.Sends (s.egress bytes v) := by
  unfold State.egress
  extract_lets h c t
  split
  · exact .refl s
  · split
    · split
      · exact sends_stitchWrite ..
      · exact sends_inc s _ (by decide)
    · split
      · exact sends_cxFill s ‹_›
      · exact sends_inc s _ (by decide)
    · exact sends_mapPlane s h _
    · exact .refl s

/-- The bytes of a copy go to its four channels. -/
theorem sends_channels (bytes : List Byte) (n : Nat) (ws : List Nat) :
    s.Sends (ws.foldl (fun s w => s.egress bytes (s.streamWord n w)) s) := by
  induction ws generalizing s with
  | nil => exact .refl s
  | cons w ws ih => exact (sends_egress s bytes _).trans (ih _)

/-- A copy is counted and leaves as an output. -/
def State.released (s : State) (c : Copy) : State :=
  ((s.inc A.COL_RELEASED).incMod (A.COL_STREAM_STAT c.stream) F.COL_STREAM_STAT.RELEASED).emit (.released c.stream c.rp c.bytes)

theorem sends_colRelease (c : Copy) : (s.released c).Sends (s.colRelease c) := sends_channels _ _ _ _

theorem out_colRelease (c : Copy) : (s.colRelease c).out = .released c.stream c.rp c.bytes :: s.out := by
  rw [(sends_colRelease s c).out, State.released, State.emit_out, State.incMod, out_setf, out_inc]

theorem col_colRelease (c : Copy) : (s.colRelease c).col = s.col := by
  rw [(sends_colRelease s c).col, State.released, State.emit_col, State.incMod, col_setf, col_inc]

theorem streamStat_ne (n a : Nat) (ha : a < 0x30053000) : A.COL_STREAM_STAT n ≠ a := by
  rw [A.COL_STREAM_STAT]
  omega

/-- A release writes COL_RELEASED and its stream's status. -/
theorem rd_colRelease (c : Copy) (a : Nat) (ha : colReg a) (hstat : a < 0x30053000) :
    (s.colRelease c).rd a = (s.inc A.COL_RELEASED).rd a := by
  rw [(sends_colRelease s c).rd a ha, State.released, State.rd_emit, State.incMod, State.rd_setf,
    if_neg (streamStat_ne c.stream a hstat).symm]

theorem mmRun_colRelease (c : Copy) (hc : c.stream < 256) :
    (s.colRelease c).fld (A.COL_STREAM_STAT c.stream) F.COL_STREAM_STAT.MM_RUN =
      s.fld (A.COL_STREAM_STAT c.stream) F.COL_STREAM_STAT.MM_RUN := by
  have hreg : colReg (A.COL_STREAM_STAT c.stream) := by
    simp only [colReg, A.COL_STREAM_STAT, A.COL_CHAN_REJ]
    omega
  rw [State.fld, (sends_colRelease s c).rd _ hreg, State.released, State.rd_emit, State.incMod]
  refine (fld_setf_apart _ _ F.COL_STREAM_STAT.RELEASED _ _ (by decide)).trans ?_
  rw [State.fld, State.rd_inc, if_neg (streamStat_ne c.stream _ (by decide))]
  rfl

/-! ### A mismatch (R693 to R696) -/

/-- What the mismatch procedure leaves beside what it records: the outputs and the counts; the queues do not grow. -/
structure State.Unreleased (s t : State) : Prop where
  out : t.out = s.out
  rd : ∀ a ∈ [A.COL_MISMATCH, A.COL_WAIT_EXP, A.COL_RELEASED, A.COL_LAST_MM], t.rd a = s.rd a
  queue : ∀ h, (t.col.queue h).length ≤ (s.col.queue h).length

theorem State.Unreleased.refl : s.Unreleased s := ⟨rfl, fun _ _ => rfl, fun _ => Nat.le_refl _⟩

variable {s} in
theorem State.Unreleased.trans (h : s.Unreleased t) (k : t.Unreleased u) : s.Unreleased u :=
  ⟨k.out.trans h.out, fun a ha => (k.rd a ha).trans (h.rd a ha), fun g => (k.queue g).trans (h.queue g)⟩

theorem unreleased_wr (a : Nat) (w : Word) (ha : a ∉ [A.COL_MISMATCH, A.COL_WAIT_EXP, A.COL_RELEASED, A.COL_LAST_MM]) :
    s.Unreleased (s.wr a w) :=
  ⟨rfl, fun b hb => State.rd_wr_other s a b w fun hba => ha (hba ▸ hb), fun _ => Nat.le_refl _⟩

theorem unreleased_setf (a : Nat) (f : Fld) (v : Nat) (ha : a ∉ [A.COL_MISMATCH, A.COL_WAIT_EXP, A.COL_RELEASED, A.COL_LAST_MM]) :
    s.Unreleased (s.setf a f v) := unreleased_wr s a _ ha

/-- A state that differs in none of these. -/
theorem State.Unreleased.rest {s t : State} (hout : t.out = s.out := by rfl) (hregs : t.regs = s.regs := by rfl)
    (hk : t.col.qk = s.col.qk := by rfl) (hp : t.col.qp = s.col.qp := by rfl) : s.Unreleased t :=
  ⟨hout, fun a _ => congrArg (fun r => storeGet (regDefault a) r a) hregs, fun g => by
    cases g
    · exact Nat.le_of_eq (congrArg List.length hk)
    · exact Nat.le_of_eq (congrArg List.length hp)⟩

theorem unreleased_col (c : Colander) (hk : c.qk = s.col.qk) (hp : c.qp = s.col.qp) : s.Unreleased { s with col := c } :=
  .rest rfl rfl hk hp

theorem streamStat_unlisted (n : Nat) : A.COL_STREAM_STAT n ∉ [A.COL_MISMATCH, A.COL_WAIT_EXP, A.COL_RELEASED, A.COL_LAST_MM] := by
  simp only [List.mem_cons, List.not_mem_nil, or_false, A.COL_STREAM_STAT, A.COL_MISMATCH, A.COL_WAIT_EXP, A.COL_RELEASED,
    A.COL_LAST_MM]
  omega

theorem unreleased_faultMm (code rp : Nat) : s.Unreleased (s.faultMm code rp) := by
  obtain ⟨regs, larder, hf⟩ := faultD_eq s code 2 originShared 0 (s.rdn A.COL_LAST_MM) (rp % 2 ^ 32) (rp / 2 ^ 32)
  have hlisted : ∀ a ∈ [A.COL_MISMATCH, A.COL_WAIT_EXP, A.COL_RELEASED, A.COL_LAST_MM], A.SYS_FLT_SLOT 256 0 ≤ a := by decide
  refine ⟨?_, fun a ha => rd_faultD_outside _ _ _ _ _ _ _ _ _ (by decide) (.inr (hlisted a ha)), fun g => ?_⟩
  · rw [State.faultMm, hf]
  · rw [State.faultMm, hf]

theorem unreleased_countRun (n : Nat) : s.Unreleased (s.countRun n) := by
  unfold State.countRun State.incSat
  refine .trans ?_ (unreleased_setf _ _ _ _ (streamStat_unlisted n))
  split
  · exact unreleased_setf _ _ _ _ (streamStat_unlisted n)
  · exact .refl s

theorem unreleased_scheduleRound : s.Unreleased s.scheduleRound := by
  unfold State.scheduleRound
  extract_lets soon
  split
  · exact .refl s
  · exact .rest

theorem unreleased_colDiscard (f : Copy → Bool) : s.Unreleased (s.colDiscard h f) := by
  unfold State.colDiscard
  extract_lets q u
  have hcount : s.Unreleased u := unreleased_wr s A.COL_DISCARD _ (by decide)
  refine hcount.trans ⟨out_putColQueue .., fun a ha => rd_putColQueue u h _ a ?_, fun g => ?_⟩
  · revert a
    decide
  · rw [col_putColQueue]
    by_cases hg : g = h
    · subst hg
      rw [queue_putQueue]
      exact List.length_filter_le ..
    · have hother : g = h.other := by revert hg; cases g <;> cases h <;> simp [Half.other]
      subst hother
      rw [queue_putQueue_other]

theorem unreleased_startTest (periodic : Bool) : s.Unreleased (s.startTest periodic) := by
  unfold State.startTest
  extract_lets l u
  have hu : s.Unreleased u := .rest
  exact hu.trans ((unreleased_setf u A.COL_STATUS _ _ (by decide)).trans (unreleased_wr _ A.COL_SELFTEST _ (by decide)))

theorem unreleased_block (n : Nat) : s.Unreleased (s.block n) := by
  unfold State.block
  extract_lets u l
  have hu : s.Unreleased u := ((unreleased_setf s _ _ _ (streamStat_unlisted n)).trans (unreleased_colDiscard _ .k _)).trans
    (unreleased_colDiscard _ .p _)
  clear_value u
  split
  · exact hu
  · split
    · exact hu.trans (unreleased_startTest ..)
    · exact hu.trans (unreleased_col u _ rfl rfl)

/-- The mismatch procedure shows the mismatch in COL_LAST_MM and releases nothing. -/
theorem unreleased_mismatch (code off n rp : Nat) : (s.lastMm code off n rp).Unreleased (s.mismatch code off n rp) := by
  unfold State.mismatch
  extract_lets s1 s2 s3 ia s4
  have h3 : s1.Unreleased s3 := (unreleased_faultMm ..).trans (unreleased_countRun ..)
  have h4 : s1.Unreleased s4 := h3.trans (.trans .rest (unreleased_scheduleRound _))
  split
  · exact h4.trans (unreleased_block ..)
  · exact h4

theorem out_wr64 (lo hi v : Nat) : (s.wr64 lo hi v).out = s.out := rfl

theorem col_wr64 (lo hi v : Nat) : (s.wr64 lo hi v).col = s.col := rfl

theorem out_lastMm (code off n rp : Nat) : (s.lastMm code off n rp).out = s.out := (out_wr64 ..).trans (State.wr_out ..)

theorem col_lastMm (code off n rp : Nat) : (s.lastMm code off n rp).col = s.col := (col_wr64 ..).trans (State.wr_col ..)

theorem rd_lastMm (code off n rp a : Nat) (ha : a ∉ [A.COL_LAST_MM, A.COL_LAST_MM_RP_LO, A.COL_LAST_MM_RP_HI]) :
    (s.lastMm code off n rp).rd a = s.rd a := by
  simp only [List.mem_cons, List.not_mem_nil, or_false, not_or] at ha
  obtain ⟨hmm, hlo, hhi⟩ := ha
  exact (State.rd_wrn ..).trans ((if_neg hhi).trans ((State.rd_wrn ..).trans ((if_neg hlo).trans
    ((State.rd_wrn ..).trans (if_neg hmm)))))

theorem rdn_lastMm (code off n rp : Nat) (hcode : code < 128) (hn : n < 256) :
    (s.lastMm code off n rp).rdn A.COL_LAST_MM = code * 2 ^ 24 + min off 0xFFF * 2 ^ 12 + n := by
  have hrd : (s.lastMm code off n rp).rd A.COL_LAST_MM = BitVec.ofNat 32 (code * 2 ^ 24 + min off 0xFFF * 2 ^ 12 + n) :=
    (State.rd_wrn ..).trans ((if_neg (by decide)).trans ((State.rd_wrn ..).trans ((if_neg (by decide)).trans
      ((State.rd_wrn ..).trans (if_pos rfl)))))
  rw [State.rdn, hrd, BitVec.toNat_ofNat, Nat.mod_eq_of_lt]
  omega

/-- A mismatch, counted in `x`. -/
def State.mismatched (s : State) (x code off n rp : Nat) : State := ((s.takePair n rp).inc x).mismatch code off n rp

/-! ### The judgement of due copies (R117, R119, R815) -/

section
variable {s h} {n rp : Nat} {a b : Copy} (hholder : s.holder = some h) (hprob : (s.chg.half h.other).probation = false)
  (hvalid : s.outValid h = true)
include hholder hprob hvalid

/-- In 1oo2D, outside probation, both copies are present. -/
theorem judge_of_pair (hmode : s.chg.mode = .two) (ha : s.copyOf h n rp = some a) (hb : s.copyOf h.other n rp = some b)
    (hsent : a.sent = false) (expired : Bool) : s.judge n rp expired = s.judgeBoth h a b expired := by
  simp [State.judge, hholder, hprob, hvalid, hmode, ha, hb, hsent]

/-- In 1oo2D, outside probation, the partner is missing at the end of COL_WAIT. -/
theorem judge_of_missing (hmode : s.chg.mode = .two) (hpath : s.pathOpen h = true) (ha : s.copyOf h n rp = some a)
    (hb : s.copyOf h.other n rp = none) (hsent : a.sent = false) :
    s.judge n rp true = s.mismatched A.COL_WAIT_EXP 0x41 0xFFF n rp := by
  simp [State.judge, State.mismatched, hholder, hprob, hvalid, hmode, hpath, ha, hb, hsent]

/-- In 1oo1D the copy is released alone. -/
theorem judge_of_alone (hmode : s.chg.mode = .one) (hmay : s.mayRelease h = true)
    (hsent : ((s.copyOf h n rp).any fun x => x.sent) = false) (ha : s.copyOf (s.bytesFrom h rp) n rp = some a)
    (expired : Bool) : s.judge n rp expired = (s.takePair n rp).colRelease a := by
  cases hown : s.copyOf h n rp with
  | none => simp [State.judge, hholder, hprob, hvalid, hmode, hmay, ha, hown]
  | some c =>
    rw [hown] at hsent
    simp [State.judge, hholder, hprob, hvalid, hmode, hmay, ha, hown, show c.sent = false from hsent]

end

theorem pathOpen_of_mayRelease (hmay : s.mayRelease h = true) : s.pathOpen h = true := by
  rw [State.mayRelease, Bool.and_eq_true, Bool.and_eq_true] at hmay
  exact hmay.1.1

variable {s} in
theorem bytesFrom_of_quiet (hq : s.Quiet t) (hlast : s.chg.last = none) (rp : Nat) : t.bytesFrom h rp = h := by
  rw [State.bytesFrom, hq.chg, hlast]

/-- A pair of equal copies leaves the queues and is counted; the mismatches of its stream end. -/
def State.matched (s : State) (a : Copy) : State :=
  ((s.takePair a.stream a.rp).inc A.COL_MATCH).setf (A.COL_STREAM_STAT a.stream) F.COL_STREAM_STAT.MM_RUN 0

theorem quiet_matched (a : Copy) : s.Quiet (s.matched a) :=
  (quiet_takePair s a.stream a.rp).trans ((quiet_inc _ A.COL_MATCH (by decide)).trans
    (quiet_setf _ (A.COL_STREAM_STAT a.stream) F.COL_STREAM_STAT.MM_RUN 0 (streamStat_not_linkReg _)))

theorem rd_matched (a : Copy) (c : Nat) (hstat : c < 0x30053000) (hq : c ≠ A.COL_QUEUE) :
    (s.matched a).rd c = if c = A.COL_MATCH then satSucc (s.rd A.COL_MATCH) else s.rd c := by
  rw [State.matched, State.rd_setf, if_neg (streamStat_ne _ c hstat).symm, State.rd_inc, rd_takePair _ _ _ _ (by decide),
    rd_takePair _ _ _ _ hq]

theorem queue_matched (a : Copy) (g : Half) :
    (s.matched a).col.queue g = dropFirst (Copy.is a.stream a.rp) (s.col.queue g) := by
  rw [State.matched, col_setf, col_inc, queue_takePair]

/-- It is released with the holder's bytes. -/
theorem judgeBoth_of_equal {a b : Copy} (hmay : s.mayRelease h = true) (hbytes : a.bytes = b.bytes) (hlast : s.chg.last = none)
    (expired : Bool) : s.judgeBoth h a b expired = (s.matched a).colRelease a := by
  have hfrom := bytesFrom_of_quiet h (quiet_matched s a) hlast a.rp
  refine (if_neg ?_).trans ((if_neg fun hne => hne hbytes).trans ((if_pos hmay).trans ?_))
  · rw [pathOpen_of_mayRelease s h hmay]
    decide
  · exact congrArg (State.colRelease _) (if_pos hfrom)

theorem judgeBoth_of_differing {a b : Copy} (hpath : s.pathOpen h = true) (hbytes : a.bytes ≠ b.bytes) (expired : Bool) :
    s.judgeBoth h a b expired = s.mismatched A.COL_MISMATCH 0x40 (firstDiff a.bytes b.bytes) a.stream a.rp := by
  exact (if_neg (by rw [hpath]; decide)).trans (if_pos hbytes)

/-! ### What the judgement does -/

/-- A match: the copy is an output, counted twice, and both queues lose theirs. -/
theorem matched_effects (a : Copy) (hn : a.stream < 256) :
    .released a.stream a.rp a.bytes ∈ ((s.matched a).colRelease a).out ∧
      ((s.matched a).colRelease a).rd A.COL_MATCH = satSucc (s.rd A.COL_MATCH) ∧
      ((s.matched a).colRelease a).rd A.COL_RELEASED = satSucc (s.rd A.COL_RELEASED) ∧
      ((s.matched a).colRelease a).fld (A.COL_STREAM_STAT a.stream) F.COL_STREAM_STAT.MM_RUN = 0 ∧
      (∀ g, ((s.matched a).colRelease a).col.queue g = dropFirst (Copy.is a.stream a.rp) (s.col.queue g)) ∧
      s.Quiet ((s.matched a).colRelease a) := by
  refine ⟨?_, ?_, ?_, ?_, fun g => ?_, (quiet_matched s a).trans (quiet_colRelease ..)⟩
  · rw [out_colRelease]
    exact List.mem_cons_self
  · rw [rd_colRelease _ a _ (by decide) (by decide), State.rd_inc, if_neg (by decide), rd_matched _ _ _ (by decide) (by decide),
      if_pos rfl]
  · rw [rd_colRelease _ a _ (by decide) (by decide), State.rd_inc, if_pos rfl, rd_matched _ _ _ (by decide) (by decide),
      if_neg (by decide)]
  · rw [mmRun_colRelease _ a hn]
    exact State.fld_setf _ _ _ 0 (by decide)
  · rw [col_colRelease, queue_matched]

/-- A release alone: the copy is an output, counted once. -/
theorem alone_effects (a : Copy) (n rp : Nat) :
    let t := (s.takePair n rp).colRelease a
    .released a.stream a.rp a.bytes ∈ t.out ∧ t.rd A.COL_RELEASED = satSucc (s.rd A.COL_RELEASED) ∧
      t.rd A.COL_MATCH = s.rd A.COL_MATCH ∧ (∀ g, t.col.queue g = dropFirst (Copy.is n rp) (s.col.queue g)) ∧ s.Quiet t := by
  refine ⟨?_, ?_, ?_, fun g => ?_, (quiet_takePair ..).trans (quiet_colRelease ..)⟩
  · rw [out_colRelease]
    exact List.mem_cons_self
  · rw [rd_colRelease _ a _ (by decide) (by decide), State.rd_inc, if_pos rfl, rd_takePair _ _ _ _ (by decide)]
  · rw [rd_colRelease _ a _ (by decide) (by decide), State.rd_inc, if_neg (by decide), rd_takePair _ _ _ _ (by decide)]
  · rw [col_colRelease, queue_takePair]

/-- It is shown in COL_LAST_MM and released by nobody; the queue of a half that had a copy gets shorter. -/
theorem mismatched_effects (x code off n rp : Nat) (a : Copy) (hx : x = A.COL_MISMATCH ∨ x = A.COL_WAIT_EXP) (hcode : code < 128)
    (hn : n < 256) (ha : s.copyOf h n rp = some a) :
    (s.mismatched x code off n rp).out = s.out ∧ (s.mismatched x code off n rp).rd x = satSucc (s.rd x) ∧
      (s.mismatched x code off n rp).rd A.COL_RELEASED = s.rd A.COL_RELEASED ∧
      (s.mismatched x code off n rp).rdn A.COL_LAST_MM = code * 2 ^ 24 + min off 0xFFF * 2 ^ 12 + n ∧
      ((s.mismatched x code off n rp).col.queue h).length < (s.col.queue h).length ∧ s.Quiet (s.mismatched x code off n rp) := by
  have hkeep : State.Unreleased (((s.takePair n rp).inc x).lastMm code off n rp) (s.mismatched x code off n rp) :=
    unreleased_mismatch ((s.takePair n rp).inc x) code off n rp
  have hxne : x ≠ A.COL_QUEUE ∧ x ∉ [A.COL_LAST_MM, A.COL_LAST_MM_RP_LO, A.COL_LAST_MM_RP_HI] ∧ A.COL_RELEASED ≠ x ∧
      ¬ linkReg x ∧ x ∈ [A.COL_MISMATCH, A.COL_WAIT_EXP, A.COL_RELEASED, A.COL_LAST_MM] := by
    rcases hx with rfl | rfl <;> decide
  obtain ⟨hq, hmm, hrel, hlink, hlisted⟩ := hxne
  refine ⟨?_, ?_, ?_, ?_, ?_, ?_⟩
  · rw [hkeep.out, out_lastMm, out_inc, out_takePair]
  · rw [hkeep.rd x hlisted, rd_lastMm _ _ _ _ _ _ hmm, State.rd_inc, if_pos rfl, rd_takePair _ _ _ _ hq]
  · rw [hkeep.rd _ (by decide), rd_lastMm _ _ _ _ _ _ (by decide), State.rd_inc, if_neg hrel, rd_takePair _ _ _ _ (by decide)]
  · rw [State.rdn, hkeep.rd _ (by decide)]
    exact rdn_lastMm _ _ _ _ _ hcode hn
  · refine Nat.lt_of_le_of_lt (hkeep.queue h) ?_
    rw [col_lastMm, col_inc, queue_takePair]
    exact dropFirst_length_lt ha
  · exact ((quiet_takePair ..).trans (quiet_inc _ _ hlink)).trans (quiet_mismatch ..)

/-! ### The commands -/

theorem exec_colReleasePoint_due (n : Fin 256) (rp : Dword) (hdue : rp.toNat ≤ s.raw) :
    exec (.colReleasePoint n rp) s = .next (s.judge n rp.toNat false) := by
  show execColReleasePoint n rp s = _
  exact if_pos (decide_eq_true hdue)

theorem exec_colReleasePoint_early (n : Fin 256) (rp : Dword) (hearly : s.raw < rp.toNat) :
    exec (.colReleasePoint n rp) s = .next s := by
  show execColReleasePoint n rp s = _
  refine if_neg ?_
  rw [State.dueNow, decide_eq_false (Nat.not_le.2 hearly)]
  exact Bool.false_ne_true

/-- A copy is held and its wait has ended in 1oo2D. -/
theorem exec_colWaitExpiry (n : Fin 256) (rp : Dword) {a : Copy} (hmode : s.chg.mode = .two) (hend : s.waitEnd n rp.toNat ≤ s.raw)
    (ha : s.copyOf h n rp.toNat = some a) (hsoon : s.copySoon n rp.toNat = false) :
    exec (.colWaitExpiry n rp) s = .next (s.judge n rp.toNat true) := by
  have hheld : ((s.copyOf .k n rp.toNat).isSome || (s.copyOf .p n rp.toNat).isSome) = true := by
    cases h <;> simp [ha]
  have hkept : s.keptAtExpiry n rp.toNat = false := by simp [State.keptAtExpiry, hmode]
  show execColWaitExpiry n rp s = _
  exact if_pos ⟨hheld, hend, by rw [hkept]; rfl, by rw [hsoon]; rfl⟩

theorem exec_colWaitExpiry_of_none (n : Fin 256) (rp : Dword) (hk : s.copyOf .k n rp.toNat = none)
    (hp : s.copyOf .p n rp.toNat = none) : exec (.colWaitExpiry n rp) s = .next s := by
  show execColWaitExpiry n rp s = _
  refine if_neg fun hgo => ?_
  have hheld := hgo.1
  rw [hk, hp] at hheld
  exact Bool.false_ne_true hheld

theorem exec_colReleasePathOpen (hlost : s.trivetLost = false) : exec .colReleasePathOpen s = .next s.driveGrant.releaseDue :=
  congrArg _ (if_neg (by rw [hlost]; decide))

/-- The oldest due pair alone is judged. -/
theorem releaseDue_of_one {n rp : Nat} (hdue : s.dueKeys = [(rp, n)]) : s.releaseDue = s.judge n rp false := by
  rw [State.releaseDue, hdue]
  rfl

/-- Settles O28: under each clause's premises the judgement is one release, one match or one mismatch. -/
theorem colanderRelease : Obligations.ColanderRelease := by
  intro s h n rp a b st
  refine ⟨fun hearly => exec_colReleasePoint_early s n rp hearly.2, ?_, ?_, ?_, ?_, ?_, ?_, ?_, ?_⟩
  · rintro ⟨hholder, hdue, hmode, hprob, hvalid, hmay, ha, hb, hsent, hlast⟩
    obtain ⟨hn, hrp⟩ := copyOf_is s h ha
    have hexec := exec_colReleasePoint_due s n rp hdue
    rw [judge_of_pair hholder hprob hvalid hmode ha hb hsent] at hexec
    refine ⟨fun hbytes => ?_, fun hbytes => ?_⟩
    · obtain ⟨hout, hmatch, hrel, hrun, hqueue, hquiet⟩ := matched_effects s a (hn ▸ n.isLt)
      rw [hn, hrp] at hout hqueue
      rw [hn] at hrun
      exact ⟨_, hexec.trans (congrArg _ (judgeBoth_of_equal s h hmay hbytes hlast false)), hout, hmatch, hrel, hrun, hqueue h,
        hqueue h.other, hquiet.chg, hquiet.mem⟩
    · rw [judgeBoth_of_differing s h (pathOpen_of_mayRelease s h hmay) hbytes, hn, hrp] at hexec
      obtain ⟨hout, hcnt, hrel, hshow, hqueue, hquiet⟩ := mismatched_effects s h A.COL_MISMATCH 0x40
        (firstDiff a.bytes b.bytes) n rp.toNat a (.inl rfl) (by decide) n.isLt ha
      exact ⟨_, hexec, hout, hcnt, hrel, hshow, hqueue, hquiet.chg, hquiet.mem⟩
  · rintro ⟨hholder, hdue, hmode, hprob, hvalid, hmay, hsent, ha⟩
    obtain ⟨hn, hrp⟩ := copyOf_is s _ ha
    have hexec := exec_colReleasePoint_due s n rp hdue
    rw [judge_of_alone hholder hprob hvalid hmode hmay hsent ha] at hexec
    obtain ⟨hout, hrel, hmatch, hqueue, hquiet⟩ := alone_effects s a n rp.toNat
    rw [hn, hrp] at hout
    exact ⟨_, hexec, hout, hrel, hmatch, hqueue h, hquiet.chg, hquiet.mem⟩
  · unfold State.bytesFrom
    rfl
  · rintro ⟨hholder, hend, hmode, hprob, hvalid, hpath, ha, hb, hsent, hsoon⟩
    have hexec := exec_colWaitExpiry s h n rp hmode hend ha hsoon
    rw [judge_of_missing hholder hprob hvalid hmode hpath ha hb hsent] at hexec
    obtain ⟨hout, hcnt, -, hshow, hqueue, hquiet⟩ := mismatched_effects s h A.COL_WAIT_EXP 0x41 0xFFF n rp.toNat a (.inr rfl)
      (by decide) n.isLt ha
    exact ⟨_, hexec, hout, hcnt, hshow, hqueue, hquiet.chg, hquiet.mem⟩
  · rintro ⟨hk, hp⟩
    exact exec_colWaitExpiry_of_none s n rp hk hp
  · rintro ⟨hlost, hdue, hholder, hmode, hlast, hprob, hvalid, hmay, ha, hb, hsent, hbytes⟩
    obtain ⟨hn, hrp⟩ := copyOf_is s h ha
    have hexec := exec_colReleasePathOpen s hlost
    rw [releaseDue_of_one s.driveGrant hdue, judge_of_pair (s := s.driveGrant) hholder hprob hvalid hmode ha hb hsent,
      judgeBoth_of_equal s.driveGrant h hmay hbytes hlast] at hexec
    obtain ⟨hout, hmatch, hrel, -, hqueue, hquiet⟩ := matched_effects s.driveGrant a (hn ▸ n.isLt)
    rw [hn, hrp] at hout hqueue
    refine ⟨_, hexec, hout, ?_, ?_, hmatch, hrel, hqueue h, hquiet.mem⟩
    · rw [hquiet.chg, State.driveGrant, hholder]
    · rw [hquiet.chg]
      rfl
  · rintro ⟨hlost, hdue⟩
    exact congrArg _ ((if_pos hlost).trans (releaseDue_of_none s hdue))
  · rintro ⟨hdue, hlost⟩
    have hexec := exec_colReleasePathOpen s hlost
    rw [releaseDue_of_none s.driveGrant hdue] at hexec
    exact ⟨_, hexec, rfl, rfl, rfl, rfl, rfl⟩

end Sys2Proof.Machine
end

section
/-! PROOFS. The commands of KCP groups 0x06 to 0x0A: a command that acts performs its body, and a body whose parameters are in
range performs its effect; each command of the groups as one equation. -/

namespace Sys2Proof.Machine
open Sys2Proof

-- Parallel elaboration holds many stacks at once, and they count towards the memory a check may take.
set_option Elab.async false

/-! ### A command that acts -/

/-- An outstanding command with this opcode has started and is within its time, before its commit point. -/
structure CmdActs (s : State) (tr : Fin 6) (tag : BitVec 16) (c : KCmd) (op : Nat) : Prop where
  found : s.kcmd tr tag.toNat = some c
  isOp : c.op = op
  started : c.started = true
  present : s.trivetLost = false
  uncommitted : c.committed = false
  inTime : s.now ≤ c.deadline

theorem onCmd_of_found {s : State} {t tag op : Nat} {c : KCmd} (hc : s.kcmd t tag = some c)
    (hgo : c.op = op ∧ c.started ∧ !s.trivetLost ∧ (c.committed ∨ s.now ≤ c.deadline)) (f : State → KCmd → State) :
    s.onCmd t tag op f = f s c := by
  simp only [State.onCmd, hc, if_pos hgo]

theorem CmdActs.onCmd {s : State} {tr : Fin 6} {tag : BitVec 16} {c : KCmd} {op : Nat} (h : CmdActs s tr tag c op)
    (f : State → KCmd → State) : s.onCmd tr tag.toNat op f = f s c :=
  onCmd_of_found h.found ⟨h.isOp, h.started, by simp [h.present], .inr h.inTime⟩ f

/-- A command that is committed acts whatever its timer says. -/
theorem onCmd_of_committed {s : State} {t tag op : Nat} {c : KCmd} (hc : s.kcmd t tag = some c) (hop : c.op = op)
    (hst : c.started = true) (hl : s.trivetLost = false) (hcom : c.committed = true) (f : State → KCmd → State) :
    s.onCmd t tag op f = f s c :=
  onCmd_of_found hc ⟨hop, hst, by simp [hl], .inl hcom⟩ f

theorem onCmd_of_none_or_lost {s : State} {t tag : Nat} (h : s.kcmd t tag = none ∨ s.trivetLost = true) (op : Nat)
    (f : State → KCmd → State) : s.onCmd t tag op f = s := by
  unfold State.onCmd
  cases hc : s.kcmd t tag with
  | none => rfl
  | some c =>
    obtain h | h := h
    · simp [hc] at h
    · simp [h]

/-! ### Checks of parameters -/

theorem checked_of_all {c : KCmd} {cs : List (Bool × Nat)} (h : ∀ x ∈ cs, x.1 = true) (s : State) (f : State → State) :
    s.checked c cs f = f s := by
  have hn : cs.find? (fun x => !x.1) = none := List.find?_eq_none.2 fun x hx => by simp [h x hx]
  simp only [State.checked, hn]

theorem bytesBelow_one {c : KCmd} {n : Nat} (h : c.b 0 < n) (s : State) (f : State → State) : s.bytesBelow c [n] f = f s :=
  checked_of_all (by simpa using h) s f

theorem bytesBelow_two {c : KCmd} {n m : Nat} (h0 : c.b 0 < n) (h1 : c.b 1 < m) (s : State) (f : State → State) :
    s.bytesBelow c [n, m] f = f s :=
  checked_of_all (by simp [h0, h1]) s f

theorem bytesBelow_three {c : KCmd} {n m k : Nat} (h0 : c.b 0 < n) (h1 : c.b 1 < m) (h2 : c.b 2 < k) (s : State)
    (f : State → State) : s.bytesBelow c [n, m, k] f = f s :=
  checked_of_all (by simp [h0, h1, h2]) s f

theorem halfOf_of_eq_n {n : Nat} {h : Half} (hn : n = h.n) : halfOf n = h := by
  subst hn; cases h <;> rfl

theorem lt_two_of_eq_n {n : Nat} {h : Half} (hn : n = h.n) : n < 2 := by
  subst hn; cases h <;> decide

section
variable {s : State} {tr : Fin 6} {tag : BitVec 16} {c : KCmd} {h : Half}

theorem cmdActs_iff {op : Nat} : CmdActs s tr tag c op ↔ s.kcmd tr tag.toNat = some c ∧ c.op = op ∧ c.started = true ∧
    s.trivetLost = false ∧ c.committed = false ∧ s.now ≤ c.deadline :=
  ⟨fun ⟨h1, h2, h3, h4, h5, h6⟩ => ⟨h1, h2, h3, h4, h5, h6⟩, fun ⟨h1, h2, h3, h4, h5, h6⟩ => ⟨h1, h2, h3, h4, h5, h6⟩⟩

/-! ### Group 0x06 -/

theorem exec_pstateReq (ha : CmdActs s tr tag c 0x0601) (h0 : c.b 0 < 4) (h1 : c.b 1 = h.n) :
    exec (.pstateReq tr tag) s = .next (
      if !s.powerRow (c.b 0) h then s.reqRej.say c stPstateRefused
      else if s.powerOwn c (c.b 0) h then (s.say c stOk).later (.power (c.b 0) (c.b 1))
      else (s.powerRequest (c.b 0) h).say c stOk) := by
  show execPstateReq tr tag s = _
  rw [execPstateReq, ha.onCmd, bytesBelow_two h0 (lt_two_of_eq_n h1)]
  simp only [halfOf_of_eq_n h1]

theorem exec_segCfg (ha : CmdActs s tr tag c 0x0602) (h0 : c.b 0 < 8) :
    let v := fput F.WAKE_SEG_CTRL.HOLD (BitVec.ofNat 32 (u c.params 1 4)) (b2n (s.segHold (c.b 0)))
    let ws := imageWrites c.params 5 [A.WAKE_SEG_MEMB (c.b 0), A.WAKE_SEG_CAN_KA_ID (c.b 0), A.WAKE_SEG_CAN_KA_MASK (c.b 0)]
    exec (.segCfg tr tag) s = .next (s.writes c (if fget F.WAKE_SEG_CTRL.EN v = 1 then ws ++ [(A.WAKE_SEG_CTRL (c.b 0), v.toNat)]
      else [(A.WAKE_SEG_CTRL (c.b 0), v.toNat)] ++ ws)) := by
  show execSegCfg tr tag s = _
  rw [execSegCfg, ha.onCmd, bytesBelow_one h0]

theorem exec_segHold (ha : CmdActs s tr tag c 0x0603) (h0 : c.b 0 < 8) (h1 : c.b 1 < 2) :
    exec (.segHold tr tag) s = .next (s.writes c [(A.WAKE_SEG_CTRL (c.b 0),
      (fput F.WAKE_SEG_CTRL.HOLD (s.rd (A.WAKE_SEG_CTRL (c.b 0))) (c.b 1)).toNat)]) := by
  show execSegHold tr tag s = _
  rw [execSegHold, ha.onCmd, bytesBelow_two h0 h1]

theorem exec_wakeEntry (ha : CmdActs s tr tag c 0x0604) (h0 : c.b 0 < 8) (h1 : c.b 1 < 4) (h22 : c.b 22 < 2) :
    exec (.wakeEntry tr tag) s = .next (s.writes c (imageWrites c.params 2 [A.WAKE_TLM_ID (c.b 0) (c.b 1),
        A.WAKE_TLM_DVAL_LO (c.b 0) (c.b 1), A.WAKE_TLM_DVAL_HI (c.b 0) (c.b 1), A.WAKE_TLM_DMASK_LO (c.b 0) (c.b 1),
        A.WAKE_TLM_DMASK_HI (c.b 0) (c.b 1)] ++
      [(A.WAKE_TLM_CTRL (c.b 0) (c.b 1), (fput F.WAKE_TLM_CTRL.EN 0 (c.b 22)).toNat)])) := by
  show execWakeEntry tr tag s = _
  rw [execWakeEntry, ha.onCmd, checked_of_all (by simp [h0, h1, h22])]

theorem exec_wakeSrc (ha : CmdActs s tr tag c 0x0605) (h0 : c.b 0 < 13) (h5 : c.b 5 < 2) :
    exec (.wakeSrc tr tag) s = .next (s.writes c ((A.WAKE_SRC (c.b 0), u c.params 1 4) ::
      (if c.b 5 = 1 then [(A.WAKE_FALSE_CLR, 2 ^ c.b 0)] else []))) := by
  show execWakeSrc tr tag s = _
  rw [execWakeSrc, ha.onCmd, checked_of_all (by simp [h0, h5])]

theorem exec_wakeGlobal (ha : CmdActs s tr tag c 0x0606) :
    exec (.wakeGlobal tr tag) s = .next (s.writes c ((A.WAKE_PCTRL, u c.params 0 4 % 2 ^ 31) ::
      imageWrites c.params 4 [A.WAKE_KA, A.WAKE_NODATA_T, A.WAKE_VALID_T, A.WAKE_INSOMNIA_T, A.WAKE_PIN_CFG, A.WAKE_DA_LO] ++
      [(A.WAKE_DA_HI, u c.params 28 2)])) := by
  show execWakeGlobal tr tag s = _
  rw [execWakeGlobal, ha.onCmd]

theorem exec_insomniaRead (ha : CmdActs s tr tag c 0x0607) (h0 : c.b 0 < 8) :
    exec (.insomniaRead tr tag) s =
      .next (s.reads c ((List.range 32).flatMap fun k => (List.range 8).map (A.WAKE_INS_LOG (c.b 0) k))) := by
  show execInsomniaRead tr tag s = _
  rw [execInsomniaRead, ha.onCmd, bytesBelow_one h0]

theorem exec_insomniaClr (ha : CmdActs s tr tag c 0x0608) :
    exec (.insomniaClr tr tag) s = .next (s.writes c [(A.WAKE_INS_CLR, c.b 0)]) := by
  show execInsomniaClr tr tag s = _
  rw [execInsomniaClr, ha.onCmd]

/-! ### Group 0x07 -/

/-- The Hook words that an HK_LOAD carries. -/
def KCmd.hookWords (c : KCmd) : List Nat := (List.range (c.b 1)).map fun k => u c.params (2 + 2 * k) 2

theorem exec_hkLoad (ha : CmdActs s tr tag c 0x0701) (h0 : c.b 0 < 16) (h1 : 1 ≤ c.b 1 ∧ c.b 1 ≤ 64) :
    exec (.hkLoad tr tag) s = .next (
      if s.hkState (c.b 0) ≠ hkStopped then s.say c stBadState
      else match c.hookWords.findIdx? hookReserved with
        | some k => s.finish c stHookWord (leBytes 1 k)
        | none => s.writes c (c.hookWords.zipIdx.map fun (w, k) => (A.HK_PROG (c.b 0) k, w))) := by
  show execHkLoad tr tag s = _
  rw [execHkLoad, ha.onCmd]
  simp only []
  rw [checked_of_all (by simp [h0, h1])]
  rfl

theorem exec_hkCfg (ha : CmdActs s tr tag c 0x0702) (h0 : c.b 0 < 16) :
    exec (.hkCfg tr tag) s = .next (s.writes c ((A.HK_CTRL (c.b 0), s.hkCtrlImage (c.b 0) (u c.params 1 4 % 8)
        (s.hkState (c.b 0) != hkStopped)) :: imageWrites c.params 5 [A.HK_CLKDIV (c.b 0), A.HK_PINS (c.b 0),
          A.HK_WAITTO (c.b 0), A.HK_FIFO (c.b 0), A.HK_CMP (c.b 0), A.HK_CMP_MASK (c.b 0)])) := by
  show execHkCfg tr tag s = _
  rw [execHkCfg, ha.onCmd, bytesBelow_one h0]

theorem exec_hkRun (ha : CmdActs s tr tag c 0x0703) (h0 : c.b 0 < 16) (h1 : c.b 1 < 2) (h2 : c.b 2 < 64) :
    exec (.hkRun tr tag) s = .next (
      let ctrl := (A.HK_CTRL (c.b 0), s.hkCtrlImage (c.b 0) (s.rdn (A.HK_CTRL (c.b 0)) % 8) (c.b 1 == 1))
      s.writesThen c (if c.b 1 = 1 then [(A.HK_PC (c.b 0), c.b 2), ctrl] else [ctrl]) fun s =>
        leBytes 4 (s.regView trivet (A.HK_STATUS (c.b 0)))) := by
  show execHkRun tr tag s = _
  rw [execHkRun, ha.onCmd, bytesBelow_three h0 h1 h2]

theorem exec_hkPin (ha : CmdActs s tr tag c 0x0704) (h0 : c.b 0 < 2) (h1 : c.b 1 < 24) :
    exec (.hkPin tr tag) s = .next (s.images c 2 [A.HOOK_PIN_CFG (c.b 0) (c.b 1)]) := by
  show execHkPin tr tag s = _
  rw [execHkPin, ha.onCmd, bytesBelow_two h0 h1]

/-! ### Groups 0x08 and 0x09 -/

theorem exec_spadWin (ha : CmdActs s tr tag c 0x0801) (h0 : c.b 0 < 2) (h1 : c.b 1 < 64) (h18 : c.b 18 < 2) :
    exec (.spadWin tr tag) s = .next (s.writes c (imageWrites c.params 6 [A.SPAD_WIN_SIZE (c.b 0) (c.b 1),
        A.SPAD_WIN_GRANT (c.b 0) (c.b 1), A.SPAD_WIN_NE (c.b 0) (c.b 1)] ++
      [(A.SPAD_WIN_BASE (c.b 0) (c.b 1), u c.params 2 4),
       (A.SPAD_CTRL (c.b 0), (fput F.SPAD_CTRL.PERM_EN (s.rd (A.SPAD_CTRL (c.b 0))) (c.b 18)).toNat)])) := by
  show execSpadWin tr tag s = _
  rw [execSpadWin, ha.onCmd, checked_of_all (by simp [h0, h1, h18])]

theorem exec_mbxBind (ha : CmdActs s tr tag c 0x0802) (h0 : c.b 0 < 64) (h3 : c.b 3 < 2) :
    exec (.mbxBind tr tag) s = .next (
      if s.flag A.MBX_BIND_LOCK F.MBX_BIND_LOCK.LOCK = true ∧ ¬ (s.mbxSender (c.b 0) = c.b 1 ∧ s.mbxReceiver (c.b 0) = c.b 2) then
        s.say c stLocked
      else s.writes c ((A.MBX_BIND (c.b 0), c.b 1 * 2 ^ 8 + c.b 2) :: (if c.b 3 = 1 then [(A.MBX_BIND_LOCK, 1)] else []))) := by
  show execMbxBind tr tag s = _
  rw [execMbxBind, ha.onCmd, checked_of_all (by simp [h0, h3])]
  simp only [Bool.not_eq_true', Bool.and_eq_false_imp, beq_iff_eq, not_and, beq_eq_false_iff_ne, ne_eq]

theorem exec_memTest {bad : Option (Fin 0x200000)} (ha : CmdActs s tr tag c 0x0803) (h0 : c.b 0 = h.n) :
    exec (.memTest tr tag bad) s = .next (
      if s.chgOf h ≠ .service then s.say c stBadState
      else if s.zeroingAt (bankAt h 0) then s
      else (s.testBanks h).okData c (if bad.isSome then Config.testFail :: leBytes 8 (bankAt h (bad.getD 0))
        else Config.testPass :: leBytes 8 Config.testNoAddr)) := by
  show execMemTest tr tag bad s = _
  rw [execMemTest, ha.onCmd, bytesBelow_one (lt_two_of_eq_n h0)]
  cases bad <;> simp only [halfOf_of_eq_n h0] <;> rfl

theorem exec_bankOwner (ha : CmdActs s tr tag c 0x0804) (h0 : c.b 0 < 16) :
    exec (.bankOwner tr tag) s =
      .next (if s.mode6412 then s.writes c [(A.BANK_OWNER 0 (c.b 0), c.b 1)] else s.say c stBadState) := by
  show execBankOwner tr tag s = _
  rw [execBankOwner, ha.onCmd, bytesBelow_one h0]

theorem exec_larderCfg (ha : CmdActs s tr tag c 0x0901) :
    exec (.larderCfg tr tag) s = .next (s.images c 0
      (((List.range 3).flatMap fun k => [A.LARDER_PART_BASE k, A.LARDER_PART_SIZE k]) ++
      ((List.range 8).flatMap fun j => [A.LARDER_SRC_BASE j, A.LARDER_SRC_CNT j]) ++ [A.LARDER_TRIG, A.LARDER_FREEZE] ++
      (List.range 2).flatMap fun k => [A.LARDER_PRE_N k, A.LARDER_POST_N k])) := by
  show execLarderCfg tr tag s = _
  rw [execLarderCfg, ha.onCmd]

theorem exec_larderFreeze (ha : CmdActs s tr tag c 0x0902) :
    exec (.larderFreeze tr tag) s = .next (
      if s.flag A.LARDER_FREEZE F.LARDER_FREEZE.EN_KCP = true ∧ s.flag A.LARDER_CTRL F.LARDER_CTRL.EN = true then
        s.freezeTrigger.okData c (leBytes 8 (s.freezeTrigger.rd64 A.LARDER_FRZ_AT_LO A.LARDER_FRZ_AT_HI))
      else s.say c stBadState) := by
  show execLarderFreeze tr tag s = _
  rw [execLarderFreeze, ha.onCmd]

theorem exec_larderRelease (ha : CmdActs s tr tag c 0x0903) :
    exec (.larderRelease tr tag) s = .next (s.freezeRelease.say c stOk) := by
  show execLarderRelease tr tag s = _
  rw [execLarderRelease, ha.onCmd]

theorem exec_larderPages {lapped : Bool} (ha : CmdActs s tr tag c 0x0904) (h0 : c.b 0 < 2)
    (h5 : 1 ≤ u c.params 5 2 ∧ u c.params 5 2 ≤ 16) :
    exec (.larderPages tr tag lapped) s = .next (
      if s.storePages (c.b 0) < u c.params 1 4 + u c.params 5 2 then s.say c stNotFound
      else if lapped = true ∧ (s.larder.store (c.b 0)).job.isSome = true then s.say c stOverwritten
      else s.larderReply c ((List.range (u c.params 5 2)).map fun i =>
        (s.partBase (c.b 0) + (u c.params 1 4 + i) * 4096, 4096))) := by
  show execLarderPages tr tag lapped s = _
  rw [execLarderPages, ha.onCmd]
  simp only []
  rw [checked_of_all (by simp [h0, h5])]

/-- The spans of the records from number `i` on, `n` at the most. -/
def State.recordSpans (s : State) (i n : Nat) : List (Nat × Nat) :=
  (fitRecords 1024 (s.larder.held.filter fun e => decide (i ≤ e.seq) && decide (e.seq < i + n))).map fun e =>
    (s.partBase 2 + e.slot * 64, e.len * 64)

theorem exec_larderEvents {lapped : Bool} (ha : CmdActs s tr tag c 0x0905)
    (h4 : 1 ≤ u c.params 4 2 ∧ u c.params 4 2 ≤ 1024) :
    exec (.larderEvents tr tag lapped) s = .next (
      match s.larder.held.find? fun e => e.seq % 2 ^ 32 = u c.params 0 4 with
      | none => s.say c stNotFound
      | some e0 =>
        if lapped = true ∧ s.larder.waiting ≠ [] then s.say c stOverwritten
        else s.larderReply c (s.recordSpans e0.seq (u c.params 4 2))) := by
  show execLarderEvents tr tag lapped s = _
  rw [execLarderEvents, ha.onCmd]
  simp only []
  rw [checked_of_all (by simp [h4])]
  rfl

/-! ### Group 0x0A -/

theorem exec_chgStatus (ha : CmdActs s tr tag c 0x0A01) :
    exec (.chgStatus tr tag) s = .next (s.reads c [A.TRV_CHARGE, A.TRV_STATE, A.TRV_CAUSE 0, A.TRV_CAUSE 1, A.TEN_STATUS]) := by
  show execChgStatus tr tag s = _
  rw [execChgStatus, ha.onCmd]

/-- A command that asks for a planned handover, before its commit point. -/
theorem handoverCmd_of_uncommitted (hc : c.committed = false) (service : Option Half) :
    s.handoverCmd c service = match s.handoverRefusal with
      | some st => s.say c st
      | none => (s.planHandover service).putKcmd { c with committed := true } := by
  rw [State.handoverCmd, if_neg (by simp [hc])] <;> rfl

theorem exec_service (ha : CmdActs s tr tag c 0x0A02) (h0 : c.b 0 = h.n) :
    exec (.service tr tag) s = .next (
      if s.holder = some h then
        match s.handoverRefusal with
        | some st => s.say c st
        | none => (s.planHandover (some h)).putKcmd { c with committed := true }
      else if s.handoverPending = true ∨ s.chgOf h = .service then s.say c stBadState
      else (s.toService h 0x32).okData c (leBytes 8 0)) := by
  show execService tr tag s = _
  rw [execService, ha.onCmd, bytesBelow_one (lt_two_of_eq_n h0)]
  simp only [halfOf_of_eq_n h0, ha.uncommitted, Bool.false_eq_true, false_or, handoverCmd_of_uncommitted ha.uncommitted]

theorem exec_handover (ha : CmdActs s tr tag c 0x0A04) :
    exec (.handover tr tag) s = .next (
      match s.handoverRefusal with
      | some st => s.say c st
      | none => (s.planHandover none).putKcmd { c with committed := true }) := by
  show execHandover tr tag s = _
  rw [execHandover, ha.onCmd, handoverCmd_of_uncommitted ha.uncommitted]

theorem exec_handover_committed (hc : s.kcmd tr tag.toNat = some c) (hop : c.op = 0x0A04) (hst : c.started = true)
    (hl : s.trivetLost = false) (hcom : c.committed = true) :
    exec (.handover tr tag) s = .next (
      if s.handoverPending then s
      else match s.chg.performed with
        | some at_ => s.okData c (leBytes 8 at_)
        | none => s.say c stBadState) := by
  show execHandover tr tag s = _
  rw [execHandover, onCmd_of_committed hc hop hst hl hcom]
  simp only [State.handoverCmd, if_pos hcom] <;> rfl

theorem exec_recast (ha : CmdActs s tr tag c 0x0A03) (h0 : c.b 0 = h.n) :
    exec (.recast tr tag) s = .next (
      if s.chgOf h ≠ .service then s.say c stBadState
      else if c.carrier = some h then (s.say c stOk).later (.recast h)
      else (s.recast h 0x33).say c stOk) := by
  show execRecast tr tag s = _
  rw [execRecast, ha.onCmd, bytesBelow_one (lt_two_of_eq_n h0)]
  simp only [halfOf_of_eq_n h0]

theorem exec_recast_badParam (ha : CmdActs s tr tag c 0x0A03) (h0 : 2 ≤ c.b 0) :
    exec (.recast tr tag) s = .next (s.badParam c 0) := by
  show execRecast tr tag s = _
  rw [execRecast, ha.onCmd]
  simp [State.bytesBelow, State.checked, Nat.not_lt.2 h0]

/-- What an IA_CFG writes: the regions, then TEN_IA_CTRL. -/
def KCmd.iaWrites (c : KCmd) : List (Nat × Nat) :=
  imageWrites c.params 4 [A.TEN_IA_SRC 0, A.TEN_IA_DST 0, A.TEN_IA_SRC 1, A.TEN_IA_DST 1] ++ [(A.TEN_IA_CTRL, u c.params 0 4)]

theorem exec_iaCfg (ha : CmdActs s tr tag c 0x0A05) :
    exec (.iaCfg tr tag) s = .next (
      if (s.trvWrites 0 c.iaWrites).2.isNone && bitAt (u c.params 0 4) 31 &&
          !(s.trvWrites 0 c.iaWrites).1.flag A.TEN_IA_CTRL F.TEN_IA_CTRL.ENABLE then
        (s.trvWrites 0 c.iaWrites).1.badParam c 0
      else (s.trvWrites 0 c.iaWrites).1.runReply c 0 [] ⟨[], (s.trvWrites 0 c.iaWrites).2⟩ []) := by
  show execIaCfg tr tag s = _
  refine (congrArg Host.Outcome.next (ha.onCmd _)).trans ?_
  unfold KCmd.iaWrites
  extract_lets v
  generalize s.trvWrites 0 _ = w
  obtain ⟨t, bad⟩ := w
  rfl

theorem exec_rsCfg (ha : CmdActs s tr tag c 0x0A06) :
    exec (.rsCfg tr tag) s =
      .next (s.images c 0 ((List.range 8).flatMap fun n => [A.TEN_RS_BASE n, A.TEN_RS_SIZE n])) := by
  show execRsCfg tr tag s = _
  rw [execRsCfg, ha.onCmd]

theorem exec_colCfg (ha : CmdActs s tr tag c 0x0A07) (h0 : c.b 0 + c.b 1 ≤ 256) :
    exec (.colCfg tr tag) s =
      .next (s.images c 2 ((List.range (c.b 1)).flatMap fun k => (List.range 8).map (A.COL_STREAM (c.b 0 + k)))) := by
  show execColCfg tr tag s = _
  rw [execColCfg, ha.onCmd, checked_of_all (by simp [h0])]

theorem exec_trvCfg (ha : CmdActs s tr tag c 0x0A08) :
    exec (.trvCfg tr tag) s = .next (s.writes c [(A.TRV_CFG, c.b 0 * 2 ^ 16 + min 31 (c.b 1) * 2 ^ 8)]) := by
  show execTrvCfg tr tag s = _
  rw [execTrvCfg, ha.onCmd]

theorem exec_twinCfg (ha : CmdActs s tr tag c 0x0A09) (h0 : c.b 0 < 2) :
    exec (.twinCfg tr tag) s = .next (s.writes c [(A.TRV_TWIN, c.b 0)]) := by
  show execTwinCfg tr tag s = _
  rw [execTwinCfg, ha.onCmd, bytesBelow_one h0]

theorem exec_digests (ha : CmdActs s tr tag c 0x0A0A) (h0 : c.b 0 = h.n) :
    exec (.digests tr tag) s = .next (s.okData c
      (beBytes 48 (s.digests h).image ++ beBytes 48 (s.digests h).recipes ++ beBytes 48 (s.digests h).streams)) := by
  show execDigests tr tag s = _
  rw [execDigests, ha.onCmd, bytesBelow_one (lt_two_of_eq_n h0)]
  simp only [halfOf_of_eq_n h0]

/-- What an UPDATE_ADMIT stages: the digests it carries, or none. -/
def KCmd.stages (c : KCmd) : Option Digests := if c.b 1 = 0 then none else some (digestsAt c.params 2)

theorem exec_updateAdmit (ha : CmdActs s tr tag c 0x0A0B) (h0 : c.b 0 = h.n) (h1 : c.b 1 < 2) :
    exec (.updateAdmit tr tag) s = .next (
      if s.chgOf h ≠ .service then s.say c stBadState
      else ({ s with stagedK := if h = .k then c.stages else s.stagedK
                     stagedP := if h = .p then c.stages else s.stagedP } : State).say c stOk) := by
  show execUpdateAdmit tr tag s = _
  rw [execUpdateAdmit, ha.onCmd, bytesBelow_two (lt_two_of_eq_n h0) h1]
  simp only [halfOf_of_eq_n h0]
  cases h <;> rfl

end

end Sys2Proof.Machine
end

section
/-! PROOFS. O54: the commands of KCP groups 0x06 to 0x0A, clause by clause. -/

namespace Sys2Proof.Machine
open Sys2Proof

-- Parallel elaboration holds many stacks at once, and they count towards the memory a check may take.
set_option Elab.async false

section
variable {s : State} {tr : Fin 6} {tag : BitVec 16} {c : KCmd} {h : Half} {x : Host.Outcome State Fault Refusal}

/-! ### Replies in the form of the statement -/

theorem reply_of_writes {ws : List (Nat × Nat)} (hx : x = .next (s.writes c ws)) :
    x = .next ((s.trvWrites 0 ws).1.runReply c 0 [] ⟨[], (s.trvWrites 0 ws).2⟩ []) := by
  rw [hx, State.writes, State.writesThen]

theorem reply_of_writesThen {ws : List (Nat × Nat)} {f : State → List Byte} (hx : x = .next (s.writesThen c ws f)) :
    x = .next ((s.trvWrites 0 ws).1.runReply c 0 [] ⟨[], (s.trvWrites 0 ws).2⟩ (f (s.trvWrites 0 ws).1)) := by
  rw [hx, State.writesThen]

theorem reply_of_reads {as : List Nat} (hx : x = .next (s.reads c as)) :
    x = .next ((s.trvReads 0 as).1.runReply c 0 [] (s.trvReads 0 as).2 (s.trvReads 0 as).2.bytes) := by
  rw [hx, State.reads]

/-! ### The cases of the commands that have more than one reply -/

theorem pstateReq_cases (ha : CmdActs s tr tag c 0x0601) (h0 : c.b 0 < 4) (h1 : c.b 1 = h.n) :
    (s.powerRow (c.b 0) h = false → exec (.pstateReq tr tag) s = .next (s.reqRej.finish c 0x15 [])) ∧
    (s.powerRow (c.b 0) h = true ∧ s.powerOwn c (c.b 0) h = true →
      exec (.pstateReq tr tag) s = .next ((s.finish c 0 []).later (.power (c.b 0) (c.b 1)))) ∧
    (s.powerRow (c.b 0) h = true ∧ s.powerOwn c (c.b 0) h = false →
      exec (.pstateReq tr tag) s = .next ((s.powerRequest (c.b 0) h).finish c 0 [])) := by
  rw [exec_pstateReq ha h0 h1]
  refine ⟨fun hr => ?_, fun ⟨hr, ho⟩ => ?_, fun ⟨hr, ho⟩ => ?_⟩
  · simp only [hr, Bool.not_false, if_true]; rfl
  · simp only [hr, ho, Bool.not_true, Bool.false_eq_true, if_false, if_true]; rfl
  · simp only [hr, ho, Bool.not_true, Bool.false_eq_true, if_false]; rfl

theorem hkLoad_cases {i : Nat} (ha : CmdActs s tr tag c 0x0701) (h0 : c.b 0 < 16) (h1 : 1 ≤ c.b 1 ∧ c.b 1 ≤ 64) :
    (s.hkState (c.b 0) ≠ hkStopped → exec (.hkLoad tr tag) s = .next (s.finish c 0x10 [])) ∧
    (s.hkState (c.b 0) = hkStopped ∧ c.hookWords.findIdx? hookReserved = some i →
      exec (.hkLoad tr tag) s = .next (s.finish c 0x25 (leBytes 1 i))) ∧
    (s.hkState (c.b 0) = hkStopped ∧ c.hookWords.findIdx? hookReserved = none →
      exec (.hkLoad tr tag) s = .next (s.writes c (c.hookWords.zipIdx.map fun (w, k) => (A.HK_PROG (c.b 0) k, w)))) := by
  rw [exec_hkLoad ha h0 h1]
  refine ⟨fun hs => ?_, fun ⟨hs, hi⟩ => ?_, fun ⟨hs, hi⟩ => ?_⟩
  · rw [if_pos hs]; rfl
  · rw [if_neg (not_not.2 hs), hi]; rfl
  · rw [if_neg (not_not.2 hs), hi]

/-- The reply data of an HK_RUN: the status of its engine as the Trivet reads it. -/
def KCmd.hookStatus (c : KCmd) (s : State) : List Byte := leBytes 4 (s.regView trivet (A.HK_STATUS (c.b 0)))

theorem hkRun_start (ha : CmdActs s tr tag c 0x0703) (h0 : c.b 0 < 16) (h1 : c.b 1 = 1) (h2 : c.b 2 < 64) :
    exec (.hkRun tr tag) s = .next (s.writesThen c [(A.HK_PC (c.b 0), c.b 2),
      (A.HK_CTRL (c.b 0), s.hkCtrlImage (c.b 0) (s.rdn (A.HK_CTRL (c.b 0)) % 8) true)] c.hookStatus) := by
  refine (exec_hkRun ha h0 (by omega) h2).trans ?_
  simp only [h1, if_true]
  rfl

theorem hkRun_stop (ha : CmdActs s tr tag c 0x0703) (h0 : c.b 0 < 16) (h1 : c.b 1 = 0) (h2 : c.b 2 < 64) :
    exec (.hkRun tr tag) s = .next (s.writesThen c
      [(A.HK_CTRL (c.b 0), s.hkCtrlImage (c.b 0) (s.rdn (A.HK_CTRL (c.b 0)) % 8) false)] c.hookStatus) := by
  refine (exec_hkRun ha h0 (by omega) h2).trans ?_
  simp only [h1, zero_ne_one, if_false]
  rfl

theorem mbxBind_cases (ha : CmdActs s tr tag c 0x0802) (h0 : c.b 0 < 64) (h3 : c.b 3 < 2) :
    let same := s.mbxSender (c.b 0) = c.b 1 ∧ s.mbxReceiver (c.b 0) = c.b 2
    let lock := s.flag A.MBX_BIND_LOCK F.MBX_BIND_LOCK.LOCK
    (lock = true ∧ ¬ same → exec (.mbxBind tr tag) s = .next (s.finish c 0x14 [])) ∧
    ((lock = false ∨ same) → exec (.mbxBind tr tag) s = .next (s.writes c
      ((A.MBX_BIND (c.b 0), c.b 1 * 2 ^ 8 + c.b 2) :: (if c.b 3 = 1 then [(A.MBX_BIND_LOCK, 1)] else [])))) := by
  intro same lock
  rw [exec_mbxBind ha h0 h3]
  refine ⟨fun hl => ?_, fun hl => ?_⟩
  · rw [if_pos hl]; rfl
  · rw [if_neg]
    rintro ⟨hlock, hs⟩
    exact hl.elim (fun hf => Bool.false_ne_true (hf.symm.trans hlock)) hs

theorem memTest_cases {bad : Option (Fin 0x200000)} (ha : CmdActs s tr tag c 0x0803) (h0 : c.b 0 = h.n) :
    (s.chgOf h ≠ .service → exec (.memTest tr tag bad) s = .next (s.finish c 0x10 [])) ∧
    (s.chgOf h = .service ∧ s.zeroingAt (bankAt h 0) = false → exec (.memTest tr tag bad) s = .next ((s.testBanks h).finish c 0
      (if bad.isSome then Config.testFail :: leBytes 8 (bankAt h (bad.getD 0)) else Config.testPass :: leBytes 8 Config.testNoAddr))) := by
  rw [exec_memTest ha h0]
  refine ⟨fun hs => ?_, fun ⟨hs, hz⟩ => ?_⟩
  · rw [if_pos hs]; rfl
  · rw [if_neg (not_not.2 hs), if_neg (by simp [hz])]; rfl

theorem larderPages_cases {lapped : Bool} (ha : CmdActs s tr tag c 0x0904) (h0 : c.b 0 < 2)
    (h5 : 1 ≤ u c.params 5 2 ∧ u c.params 5 2 ≤ 16) :
    let first := u c.params 1 4
    let n := u c.params 5 2
    (s.storePages (c.b 0) < first + n → exec (.larderPages tr tag lapped) s = .next (s.finish c 0x27 [])) ∧
    (first + n ≤ s.storePages (c.b 0) ∧ lapped = true ∧ (s.larder.store (c.b 0)).job.isSome = true →
      exec (.larderPages tr tag lapped) s = .next (s.finish c 0x26 [])) ∧
    (first + n ≤ s.storePages (c.b 0) ∧ (lapped = false ∨ (s.larder.store (c.b 0)).job.isSome = false) →
      exec (.larderPages tr tag lapped) s = .next (s.larderReply c ((List.range n).map fun k =>
        (s.partBase (c.b 0) + (first + k) * 4096, 4096)))) := by
  intro first n
  rw [exec_larderPages ha h0 h5]
  refine ⟨fun hn => ?_, fun ⟨hn, hl⟩ => ?_, fun ⟨hn, hl⟩ => ?_⟩
  · rw [if_pos hn]; rfl
  · rw [if_neg (Nat.not_lt.2 hn), if_pos hl]; rfl
  · rw [if_neg (Nat.not_lt.2 hn), if_neg]
    rintro ⟨h1, h2⟩
    simp [h1, h2] at hl

theorem larderEvents_cases {lapped : Bool} {i : Nat} (ha : CmdActs s tr tag c 0x0905)
    (h4 : 1 ≤ u c.params 4 2 ∧ u c.params 4 2 ≤ 1024) :
    ((s.larder.held.any fun e => e.seq % 2 ^ 32 == u c.params 0 4) = false →
      exec (.larderEvents tr tag lapped) s = .next (s.finish c 0x27 [])) ∧
    ((s.larder.held.find? fun e => e.seq % 2 ^ 32 = u c.params 0 4).any (fun e => e.seq == i) = true →
      (lapped = true ∧ s.larder.waiting ≠ [] → exec (.larderEvents tr tag lapped) s = .next (s.finish c 0x26 [])) ∧
      (lapped = false ∨ s.larder.waiting = [] →
        exec (.larderEvents tr tag lapped) s = .next (s.larderReply c (s.recordSpans i (u c.params 4 2))))) := by
  rw [exec_larderEvents ha h4]
  constructor
  · intro hany
    have hnone : (s.larder.held.find? fun e => decide (e.seq % 2 ^ 32 = u c.params 0 4)) = none := by
      simpa [List.find?_eq_none] using hany
    rw [hnone]; rfl
  · intro hfirst
    revert hfirst
    cases hfind : s.larder.held.find? fun e => decide (e.seq % 2 ^ 32 = u c.params 0 4) with
    | none => exact fun hfirst => absurd hfirst Bool.false_ne_true
    | some e0 =>
      intro hseq
      rw [← beq_iff_eq.1 (show (e0.seq == i) = true from hseq)]
      refine ⟨fun hl => congrArg _ (if_pos hl), fun hl => congrArg _ (if_neg ?_)⟩
      rintro ⟨h1, h2⟩
      exact hl.elim (fun hf => Bool.false_ne_true (hf.symm.trans h1)) h2

theorem service_cases {i : Nat} (ha : CmdActs s tr tag c 0x0A02) (h0 : c.b 0 = h.n) :
    (s.holder ≠ some h ∧ (s.handoverPending = true ∨ s.chgOf h = .service) →
      exec (.service tr tag) s = .next (s.finish c 0x10 [])) ∧
    (s.holder ≠ some h ∧ s.handoverPending = false ∧ s.chgOf h ≠ .service →
      exec (.service tr tag) s = .next ((s.toService h 0x32).finish c 0 (leBytes 8 0))) ∧
    (s.holder = some h ∧ s.handoverRefusal = some i → exec (.service tr tag) s = .next (s.finish c i [])) ∧
    (s.holder = some h ∧ s.handoverRefusal = none →
      exec (.service tr tag) s = .next ((s.planHandover (some h)).putKcmd { c with committed := true })) := by
  rw [exec_service ha h0]
  refine ⟨fun ⟨hh, hs⟩ => ?_, fun ⟨hh, hp, hs⟩ => ?_, fun ⟨hh, hr⟩ => ?_, fun ⟨hh, hr⟩ => ?_⟩
  · rw [if_neg hh, if_pos hs]; rfl
  · rw [if_neg hh, if_neg (by simp [hp, hs])]; rfl
  · rw [if_pos hh, hr]; rfl
  · rw [if_pos hh, hr]

theorem handover_cases {i : Nat} (ha : CmdActs s tr tag c 0x0A04) :
    (s.handoverRefusal = some i → exec (.handover tr tag) s = .next (s.finish c i [])) ∧
    (s.handoverRefusal = none →
      exec (.handover tr tag) s = .next ((s.planHandover none).putKcmd { c with committed := true })) := by
  rw [exec_handover ha]
  refine ⟨fun hr => ?_, fun hr => ?_⟩
  · rw [hr]; rfl
  · rw [hr]

theorem handover_committed_cases {at_ : Nat} (hc : s.kcmd tr tag.toNat = some c) (hop : c.op = 0x0A04) (hst : c.started = true)
    (hl : s.trivetLost = false) (hcom : c.committed = true) :
    (s.handoverPending = true → exec (.handover tr tag) s = .next s) ∧
    (s.handoverPending = false ∧ s.chg.performed = some at_ →
      exec (.handover tr tag) s = .next (s.finish c 0 (leBytes 8 at_))) ∧
    (s.handoverPending = false ∧ s.chg.performed = none → exec (.handover tr tag) s = .next (s.finish c 0x10 [])) := by
  rw [exec_handover_committed hc hop hst hl hcom]
  refine ⟨fun hp => ?_, fun ⟨hp, ht⟩ => ?_, fun ⟨hp, ht⟩ => ?_⟩
  · rw [if_pos hp]
  · rw [if_neg (by simp [hp]), ht]; rfl
  · rw [if_neg (by simp [hp]), ht]; rfl

theorem recast_cases (ha : CmdActs s tr tag c 0x0A03) (h0 : c.b 0 = h.n) :
    (s.chgOf h ≠ .service → exec (.recast tr tag) s = .next (s.finish c 0x10 [])) ∧
    (s.chgOf h = .service ∧ c.carrier = some h → exec (.recast tr tag) s = .next ((s.finish c 0 []).later (.recast h))) ∧
    (s.chgOf h = .service ∧ c.carrier ≠ some h → exec (.recast tr tag) s = .next ((s.recast h 0x33).finish c 0 [])) := by
  rw [exec_recast ha h0]
  refine ⟨fun hs => ?_, fun ⟨hs, hc⟩ => ?_, fun ⟨hs, hc⟩ => ?_⟩
  · rw [if_pos hs]; rfl
  · rw [if_neg (not_not.2 hs), if_pos hc]; rfl
  · rw [if_neg (not_not.2 hs), if_neg hc]; rfl

theorem leNat_lt (bs : List Byte) : leNat bs < 256 ^ bs.length := by
  induction bs with
  | nil => simp [leNat]
  | cons b bs ih =>
    have hb : b.toNat < 256 := b.isLt
    rw [leNat, List.length_cons, Nat.pow_succ]
    omega

theorem u_lt (bs : List Byte) (off n : Nat) : u bs off n < 256 ^ n :=
  (leNat_lt _).trans_le (Nat.pow_le_pow_right (by decide) (by simp [slice]))

/-- Bit 31 of a word is set from 2^31 on. -/
theorem bitAt_31_of_lt {v : Nat} (hv : v < 2 ^ 32) : bitAt v 31 = decide (2 ^ 31 ≤ v) := by
  rw [bitAt, Bool.eq_iff_iff, beq_iff_eq, decide_eq_true_eq]
  omega

theorem iaCfg_cases (ha : CmdActs s tr tag c 0x0A05) :
    (u c.params 0 4 < 2 ^ 31 ∨ (s.trvWrites 0 c.iaWrites).1.flag A.TEN_IA_CTRL F.TEN_IA_CTRL.ENABLE = true →
      exec (.iaCfg tr tag) s =
        .next ((s.trvWrites 0 c.iaWrites).1.runReply c 0 [] ⟨[], (s.trvWrites 0 c.iaWrites).2⟩ [])) ∧
    ((s.trvWrites 0 c.iaWrites).2 = none ∧ 2 ^ 31 ≤ u c.params 0 4 ∧
        (s.trvWrites 0 c.iaWrites).1.flag A.TEN_IA_CTRL F.TEN_IA_CTRL.ENABLE = false →
      exec (.iaCfg tr tag) s = .next ((s.trvWrites 0 c.iaWrites).1.finish c 5 (leBytes 4 0))) := by
  have hx := exec_iaCfg ha
  generalize s.trvWrites 0 c.iaWrites = w at hx ⊢
  rw [hx, bitAt_31_of_lt (u_lt c.params 0 4)]
  refine ⟨fun he => congrArg _ (if_neg ?_), fun ⟨hw, hv, he⟩ => congrArg _ (if_pos ?_)⟩
  · rw [Bool.and_eq_true, Bool.and_eq_true, decide_eq_true_eq, Bool.not_eq_true']
    rintro ⟨⟨-, hv⟩, hf⟩
    exact he.elim (fun hlt => absurd hv (Nat.not_le.2 hlt)) fun ht => Bool.false_ne_true (hf.symm.trans ht)
  · rw [Bool.and_eq_true, Bool.and_eq_true, decide_eq_true_eq, Bool.not_eq_true']
    exact ⟨⟨Option.isNone_iff_eq_none.2 hw, hv⟩, he⟩

theorem updateAdmit_cases (ha : CmdActs s tr tag c 0x0A0B) (h0 : c.b 0 = h.n) (h1 : c.b 1 < 2) :
    (s.chgOf h ≠ .service → exec (.updateAdmit tr tag) s = .next (s.finish c 0x10 [])) ∧
    (s.chgOf h = .service → exec (.updateAdmit tr tag) s =
      .next (({ s with stagedK := if h = .k then c.stages else s.stagedK
                       stagedP := if h = .p then c.stages else s.stagedP } : State).finish c 0 [])) := by
  rw [exec_updateAdmit ha h0 h1]
  refine ⟨fun hs => ?_, fun hs => ?_⟩
  · rw [if_pos hs]; rfl
  · rw [if_neg (not_not.2 hs)]; rfl

end

/-- Settles O54: each command of the groups performs the body of its equation. -/
theorem kcpChargeMemoryWakeEffects : Obligations.KcpChargeMemoryWakeEffects := by
  intro s tr tag c h bad lapped i at_ act b p im W R param d wait seg hook hkImg frz spans dig staged
  have acts : ∀ {op : Nat}, act op → CmdActs s tr tag c op := cmdActs_iff.2
  refine ⟨?_, ?_, ?_, ?_, ?_, ?_, ?_, ?_, ?_, ?_, ?_, ?_, ?_, ?_, ?_, ?_, ?_, ?_, ?_, ?_, ?_, ?_, ?_, ?_, ?_, ?_, ?_, ?_, ?_,
    ?_, ?_, ?_, ?_, ?_, ?_, ?_, ?_⟩
  · exact fun ⟨ha, h0, h1⟩ => pstateReq_cases (acts ha) h0 h1
  · exact fun ⟨ha, h0, hen⟩ => reply_of_writes ((exec_segCfg (acts ha) h0).trans (congrArg (fun ws => Host.Outcome.next (s.writes c ws)) (if_pos hen)))
  · exact fun ⟨ha, h0, hen⟩ => reply_of_writes ((exec_segCfg (acts ha) h0).trans 
      (congrArg (fun ws => Host.Outcome.next (s.writes c ws)) (if_neg fun h1 => absurd (hen.symm.trans h1) (by decide))))
  · exact fun ⟨ha, h0, h1⟩ => reply_of_writes (exec_segHold (acts ha) h0 h1)
  · exact fun ⟨ha, h0, h1, h22⟩ => reply_of_writes (exec_wakeEntry (acts ha) h0 h1 h22)
  · exact fun ⟨ha, h0, h5⟩ => reply_of_writes (exec_wakeSrc (acts ha) h0 h5)
  · exact fun ha => reply_of_writes (exec_wakeGlobal (acts ha))
  · exact fun ⟨ha, h0⟩ => reply_of_reads (exec_insomniaRead (acts ha) h0)
  · exact fun ha => reply_of_writes (exec_insomniaClr (acts ha))
  · intro w ⟨ha, h0, h1, h64⟩
    obtain ⟨hrun, hword, hload⟩ := hkLoad_cases (i := i) (acts ha) h0 ⟨h1, h64⟩
    exact ⟨hrun, hword, fun hs => reply_of_writes (hload hs)⟩
  · exact fun ⟨ha, h0⟩ => reply_of_writes (exec_hkCfg (acts ha) h0)
  · intro w ⟨ha, h0, h1, h2⟩
    exact reply_of_writesThen (f := c.hookStatus) (hkRun_start (acts ha) h0 h1 h2)
  · intro w ⟨ha, h0, h1, h2⟩
    exact reply_of_writesThen (f := c.hookStatus) (hkRun_stop (acts ha) h0 h1 h2)
  · exact fun ⟨ha, h0, h1⟩ => reply_of_writes (exec_hkPin (acts ha) h0 h1)
  · exact fun ⟨ha, h0, h1, h18⟩ => reply_of_writes (exec_spadWin (acts ha) h0 h1 h18)
  · intro same lock w ⟨ha, h0, h3⟩
    obtain ⟨hlocked, hfree⟩ := mbxBind_cases (acts ha) h0 h3
    exact ⟨hlocked, fun hl => reply_of_writes (hfree hl)⟩
  · exact fun ⟨ha, h0⟩ => memTest_cases (acts ha) h0
  · intro w ⟨ha, h0⟩
    have hx := exec_bankOwner (acts ha) h0
    exact ⟨fun hm => hx.trans (congrArg _ (if_neg (by simp [hm]))), fun hm => reply_of_writes (hx.trans (congrArg _ (if_pos hm)))⟩
  · exact fun ha => reply_of_writes (exec_larderCfg (acts ha))
  · intro on ha
    exact ⟨fun hon => (exec_larderFreeze (acts ha)).trans (congrArg _ (if_pos hon)),
      fun hoff => (exec_larderFreeze (acts ha)).trans (congrArg _ (if_neg hoff))⟩
  · exact fun ha => exec_larderRelease (acts ha)
  · exact fun ⟨ha, h0, h5⟩ => larderPages_cases (acts ha) h0 h5
  · intro ⟨ha, h4⟩
    obtain ⟨hnone, hsome⟩ := larderEvents_cases (lapped := lapped) (i := i) (acts ha) h4
    refine ⟨hnone, fun hfirst => ⟨(hsome hfirst).1, fun hl => ((hsome hfirst).2 hl).trans ?_⟩⟩
    simp only [State.recordSpans, Bool.decide_and]; rfl
  · exact fun ha => reply_of_reads (exec_chgStatus (acts ha))
  · exact fun ⟨ha, h0⟩ => service_cases (acts ha) h0
  · exact fun ha => handover_cases (acts ha)
  · exact fun ⟨hc, hop, hst, hl, hcom⟩ => handover_committed_cases hc hop hst hl hcom
  · exact fun ⟨ha, h0⟩ => recast_cases (acts ha) h0
  · exact fun ⟨ha, h0⟩ => exec_recast_badParam (acts ha) h0
  · intro w ha
    have hw : s.trvWrites 0 c.iaWrites = w := rfl
    have hx := iaCfg_cases (acts ha)
    clear_value w
    rw [hw] at hx
    exact hx
  · exact fun ha => reply_of_writes (exec_rsCfg (acts ha))
  · exact fun ⟨ha, h0⟩ => reply_of_writes (exec_colCfg (acts ha) h0)
  · exact fun ha => reply_of_writes (exec_trvCfg (acts ha))
  · exact fun ⟨ha, h0⟩ => reply_of_writes (exec_twinCfg (acts ha) h0)
  · exact fun ⟨ha, h0⟩ => exec_digests (acts ha) h0
  · exact fun ⟨ha, h0, h1⟩ => updateAdmit_cases (acts ha) h0 h1
  · intro hn
    exact ⟨congrArg _ (onCmd_of_none_or_lost hn _ _), congrArg _ (onCmd_of_none_or_lost hn _ _),
      congrArg _ (onCmd_of_none_or_lost hn _ _), congrArg _ (onCmd_of_none_or_lost hn _ _)⟩

end Sys2Proof.Machine
end

section
/-! PROOFS. Needle engines: what an update of one engine, CX controller or Hook engine leaves, and how a word that executes, or
that ends its wait, comes to its body. -/

namespace Sys2Proof.Machine
open Sys2Proof

-- Parallel elaboration holds many stacks at once, and they count towards the memory a check may take.
set_option Elab.async false

section
variable {s t u : State}

/-! ### Units -/

theorem eng_putEng (s : State) (i : Nat) (e : Engine) (k : Nat) : (s.putEng i e).eng k = if k = i then e else s.eng k :=
  storeGet_put _ _ _ _ _

@[simp] theorem eng_putEng_self (s : State) (i : Nat) (e : Engine) : (s.putEng i e).eng i = e := by simp [eng_putEng]

theorem eng_putEng_other (s : State) {i k : Nat} (e : Engine) (h : k ≠ i) : (s.putEng i e).eng k = s.eng k := by
  simp [eng_putEng, h]

@[simp] theorem eng_mapEng_self (s : State) (i : Nat) (f : Engine → Engine) : (s.mapEng i f).eng i = f (s.eng i) :=
  eng_putEng_self _ _ _

theorem eng_mapEng_other (s : State) {i k : Nat} (f : Engine → Engine) (h : k ≠ i) : (s.mapEng i f).eng k = s.eng k :=
  eng_putEng_other _ _ h

theorem can_mapCan (s : State) (c : Nat) (f : Cx → Cx) (k : Nat) : (s.mapCan c f).can k = if k = c then f (s.can c) else s.can k :=
  storeGet_put _ _ _ _ _

theorem hook_mapHook (s : State) (e : Nat) (f : Hook → Hook) (k : Nat) :
    (s.mapHook e f).hook k = if k = e then f (s.hook e) else s.hook k := storeGet_put _ _ _ _ _

theorem hook_putHook_self (s : State) (e : Nat) (x : Hook) : (s.putHook e x).hook e = x := storeGet_put_self _ _ _ _

@[simp] theorem plane_mapPlane_self (s : State) (h : Half) (f : Plane → Plane) : (s.mapPlane h f).plane h = f (s.plane h) := by
  cases h <;> rfl

/-! An update of one unit leaves the other parts of the state. Each is stated for a state that is a variable: on nested updates
`rfl` compares every field of every layer. -/

section
variable (s : State) (i : Nat) (e : Engine) (f : Cx → Cx) (g : Plane → Plane) (h : Half) (q : List Copy)

theorem putEng_mem : (s.putEng i e).mem = s.mem := rfl
theorem putEng_regs : (s.putEng i e).regs = s.regs := rfl
theorem putEng_cx : (s.putEng i e).cx = s.cx := rfl
theorem putEng_hk : (s.putEng i e).hk = s.hk := rfl
theorem putEng_col : (s.putEng i e).col = s.col := rfl
theorem putEng_plane : (s.putEng i e).plane h = s.plane h := by cases h <;> rfl
theorem putEng_rd (a : Nat) : (s.putEng i e).rd a = s.rd a := rfl
theorem putEng_can (c : Nat) : (s.putEng i e).can c = s.can c := rfl
theorem setNe_putEng (n : List (Nat × Engine)) : ({ s.putEng i e with ne := n } : State) = { s with ne := n } := rfl
theorem mapCan_ne : (s.mapCan i f).ne = s.ne := rfl
theorem mapCan_mem : (s.mapCan i f).mem = s.mem := rfl
theorem mapCan_regs : (s.mapCan i f).regs = s.regs := rfl
theorem mapPlane_ne : (s.mapPlane h g).ne = s.ne := by cases h <;> rfl
theorem mapPlane_mem : (s.mapPlane h g).mem = s.mem := by cases h <;> rfl
theorem mapPlane_regs : (s.mapPlane h g).regs = s.regs := by cases h <;> rfl
theorem raw_putColQueue : (s.putColQueue h q).raw = s.raw := rfl
theorem putColQueue_ne : (s.putColQueue h q).ne = s.ne := rfl
theorem putColQueue_mem : (s.putColQueue h q).mem = s.mem := rfl
theorem putColQueue_queue : (s.putColQueue h q).col.queue h = q := by cases h <;> rfl

end

theorem regsBut_of_regs_eq (h : t.regs = s.regs) : s.regsBut t [] := fun a _ => by
  rw [State.rd, h, State.rd]

theorem storeGet_insert {α : Type} (d : α) (m : List (Nat × α)) (k : Nat) (v : α) : storeGet d (storeInsert m k v) k = v := by
  simp [storeGet, storeFind_insert]

theorem padTo_length (n : Nat) (bs : List Byte) : (padTo n bs).length = n := by
  simp [padTo]; omega

/-! ### A word that executes -/

theorem actBits_div (op : Nat) (w : ActWord) : actBits op w / 2 ^ 58 = op := by
  have hd := w.d.isLt; have ha := w.a.isLt; have hb := w.b.isLt; have hx := w.x.isLt; have hy := w.y.isLt
  have him := w.imm.isLt
  unfold actBits
  omega

theorem eccWord_of_clean {i : Nat} {w : ActWord} (h : w.ecc = .clean) : s.eccWord i w = s := by simp [State.eccWord, h]

/-- A word that stands at the action index of a context and may execute comes to its body. -/
theorem act_of_actsWord {i : Nat} {inl : Bool} {op : Nat} {w : ActWord} {r : Recipe} {c : ActCtx} (hop : op < 0x30)
    (h : s.actsWord i inl op w r c) (body : WordBody) :
    s.act i inl op w body = s.actEnd i inl op w c (body i inl w s r c.next) := by
  obtain ⟨hctx, hwait, hpc, hword, hecc, hlim, hallow⟩ := h
  have hres : s.actRes i inl op w body = some (c, body i inl w s r c.next) := by
    have hin : ¬ (r.nact ≤ c.pc ∨ 0x30 ≤ op) := by omega
    have hunder : inl = false → ¬ s.fld (A.NE_LIMITS i) F.NE_LIMITS.ACT_LIMIT ≤ c.words := by
      intro hi
      have := hlim.resolve_left (by simp [hi])
      omega
    simp only [State.actRes, hctx, hwait, hword, actBits_div, hecc, hallow, eccWord_of_clean hecc]
    cases inl <;> simp [hin, hunder]
  simp only [State.act, hres]

/-- A context that waits on a word ends its wait as the word's body says. -/
theorem exec_actWaitEnd {i : Fin 24} {inl : Bool} {op : Nat} {w : ActWord} {r : Recipe} {c : ActCtx}
    (hctx : s.actCtx i inl = some (r, c)) (hwait : c.wait = some (op, w)) :
    exec (.actWaitEnd i inl) s = .next (s.actEnd i inl op w c (waitBody op i inl w s r c.next)) := by
  show execActWaitEnd i inl s = _
  simp only [execActWaitEnd, hctx, hwait]

theorem exec_actWaitEnd_of_not_waiting {i : Fin 24} {inl : Bool} {r : Recipe} {c : ActCtx}
    (hctx : s.actCtx i inl = some (r, c)) (hwait : c.wait = none) : exec (.actWaitEnd i inl) s = .next s := by
  show execActWaitEnd i inl s = _
  simp only [execActWaitEnd, hctx, hwait]

/-- A clean word that cannot go on waits. -/
theorem actEnd_wait {i : Nat} {inl : Bool} {op : Nat} {w : ActWord} {c : ActCtx} (h : w.ecc = .clean) :
    s.actEnd i inl op w c .wait = s.putCtx i inl { c with wait := some (op, w) } := by
  simp only [State.actEnd, eccWord_of_clean h]

/-! ### The event context put back -/

section
variable (s : State) (i : Nat) (c : ActCtx)

@[simp] theorem eng_putCtx_self : (s.putCtx i false c).eng i = { s.eng i with evt := some c } := by
  simp [State.putCtx]

theorem eng_putCtx_other {k : Nat} (h : k ≠ i) : (s.putCtx i false c).eng k = s.eng k := eng_mapEng_other _ _ h


end

end

end Sys2Proof.Machine
end

section
/-! PROOFS. O34: what each word that sends or starts DMA comes to, and its effect both when it executes and when it ends its
wait. -/

namespace Sys2Proof.Machine
open Sys2Proof

-- Parallel elaboration holds many stacks at once, and they count towards the memory a check may take.
set_option Elab.async false

section
variable {s u : State} {i : Fin 24} {op : Nat} {w : ActWord} {r : Recipe} {c c' : ActCtx}

/-! ### The two ways a word comes to its body -/

theorem exec_go_of_act {ins : Instr} {body : WordBody} (hx : exec ins s = .next (s.act i false op w body)) (hop : op < 0x30)
    (h : s.actsWord i false op w r c) (hb : body i false w s r c.next = .go u c') :
    exec ins s = .next (u.putCtx i false c') := by
  rw [hx, act_of_actsWord hop h, hb]
  rfl

theorem exec_wait_of_act {ins : Instr} {body : WordBody} (hx : exec ins s = .next (s.act i false op w body)) (hop : op < 0x30)
    (h : s.actsWord i false op w r c) (hb : body i false w s r c.next = .wait) :
    exec ins s = .next (s.putCtx i false { c with wait := some (op, w) }) := by
  have hecc : w.ecc = .clean := h.2.2.2.2.1
  rw [hx, act_of_actsWord hop h, hb, actEnd_wait hecc]

theorem exec_go_of_wait (hctx : s.actCtx i false = some (r, c)) (hwait : c.wait = some (op, w))
    (hb : waitBody op i false w s r c.next = .go u c') :
    exec (.actWaitEnd i false) s = .next (u.putCtx i false c') := by
  rw [exec_actWaitEnd hctx hwait, hb]
  rfl

/-- A context whose word cannot yet go on waits on as it is. -/
theorem exec_wait_of_wait (hctx : s.actCtx i false = some (r, c)) (hwait : c.wait = some (op, w)) (hecc : w.ecc = .clean)
    (hb : waitBody op i false w s r c.next = .wait) : exec (.actWaitEnd i false) s = .next (s.putCtx i false c) := by
  have hc : { c with wait := some (op, w) } = c := by rw [← hwait]
  rw [exec_actWaitEnd hctx hwait, hb, actEnd_wait hecc, hc]

theorem evt_putCtx (s : State) (i : Nat) (c : ActCtx) : ((s.putCtx i false c).eng i).evt = some c := by rw [eng_putCtx_self]

/-! ### Words that send the build buffer -/

/-- The state in which the build buffer of engine i has been taken. -/
def State.emptied (s : State) (i : Nat) : State := s.putEng i { (s.eng i).stageTx with build := [], blen := 0 }

/-- The build buffer of engine i has bytes and finds transmit cells. -/
abbrev State.canSend (s : State) (i : Nat) : Prop :=
  0 < (s.eng i).blen ∧ s.txUsed i + txCells (s.eng i).blen ≤ 160

/-- A word of engine i has sent the build buffer, and its context has gone on as `c'`: memory and the other engines are as they
were. -/
def State.SentTo (s t : State) (i : Nat) (c' : ActCtx) : Prop :=
  (t.eng i).evt = some c' ∧ (t.eng i).blen = 0 ∧ (t.eng i).build = [] ∧ t.mem = s.mem ∧ s.engsBut t i

theorem eng_of_ne_eq {s t : State} (h : t.ne = s.ne) (k : Nat) : t.eng k = s.eng k := by
  rw [State.eng, h, State.eng]

/-- What a word does beside taking the build buffer, where it changes no engine and no memory. -/
theorem sentTo_of_ne_eq (hne : u.ne = (s.emptied i).ne) (hmem : u.mem = s.mem) : s.SentTo (u.putCtx i false c') i c' := by
  have heng : ∀ k, u.eng k = (s.emptied i).eng k := eng_of_ne_eq hne
  have hself : u.eng i = { (s.eng i).stageTx with build := [], blen := 0 } := (heng i).trans (eng_putEng_self _ _ _)
  refine ⟨?_, ?_, ?_, hmem, fun k hk => ?_⟩
  · rw [eng_putCtx_self]
  · rw [eng_putCtx_self, hself]
  · rw [eng_putCtx_self, hself]
  · rw [eng_putCtx_other _ _ _ hk, heng k]
    exact eng_putEng_other _ _ hk

theorem sendBuild_of_canSend {least : Nat} {f : State → List Byte → Option State} (hcan : s.canSend i)
    (hleast : least ≤ (s.eng i).blen) :
    s.sendBuild i least c f = match f (s.emptied i) (s.eng i).built with
      | some t => .go t c
      | none => .wait := by
  obtain ⟨hpos, hroom⟩ := hcan
  rw [State.sendBuild, if_neg (by omega), if_neg (by omega)]
  rfl

theorem sendBuild_of_full {least : Nat} {f : State → List Byte → Option State} (hfull : 160 < s.txUsed i + txCells (s.eng i).blen)
    (hpos : 0 < (s.eng i).blen) (hleast : least ≤ (s.eng i).blen) : s.sendBuild i least c f = .wait := by
  rw [State.sendBuild, if_neg (by omega), if_pos hfull]

/-- The frame that TXETH hands to the plane. -/
def State.txFrame (s : State) (i : Nat) (w : ActWord) : InFrame :=
  ⟨9, (s.eng i).built, s.raw, w.y % 8, w.imm.toNat % 4096, 0, none, some i, 0, 0⟩

theorem wTxeth_go (hbit : bitAt w.imm.toNat 9 = false) (hlen : 14 ≤ (s.eng i).blen) (hcan : s.canSend i) :
    wTxeth i false w s r c = .go ((s.emptied i).mapPlane (unitHalf i 12) fun x => { x with inq := x.inq ++ [s.txFrame i w] }) c := by
  rw [wTxeth, if_neg (by simp [hbit]), sendBuild_of_canSend hcan hlen]
  rfl

theorem wTxeth_wait (hbit : bitAt w.imm.toNat 9 = false) (hlen : 14 ≤ (s.eng i).blen)
    (hfull : 160 < s.txUsed i + txCells (s.eng i).blen) : wTxeth i false w s r c = .wait := by
  rw [wTxeth, if_neg (by simp [hbit]), sendBuild_of_full hfull (by omega) hlen]

theorem txeth_effect {h : Half} {f : InFrame} :
    let t := ((s.emptied i).mapPlane h fun x => { x with inq := x.inq ++ [f] }).putCtx i false c'
    s.SentTo t i c' ∧ s.regsBut t [] ∧ (t.plane h).inq = (s.plane h).inq ++ [f] := by
  refine ⟨sentTo_of_ne_eq (mapPlane_ne _ _ _) ((mapPlane_mem _ _ _).trans (putEng_mem _ _ _)),
    regsBut_of_regs_eq ((putEng_regs _ _ _).trans ((mapPlane_regs _ _ _).trans (putEng_regs _ _ _))), ?_⟩
  rw [State.putCtx, State.mapEng, putEng_plane, plane_mapPlane_self, State.emptied, putEng_plane]

/-- The frame that TXCAN puts into an event buffer. -/
def State.canFrame (s : State) (i : Nat) (w : ActWord) (c : ActCtx) : CxFrame :=
  eventFrame (w.y % 4) (bitAt w.y 2) (bitAt w.y 3) (c.get w.a % 2 ^ 29) (s.eng i).built

/-- The CX channel that a word of engine i names. -/
def wordChan (i : Nat) (w : ActWord) : Nat := i / 12 * 4 + w.x % 4

theorem wTxcan_of_canSend (hbound : s.boundCx i (w.x % 4) = true) (hfmt : w.y.val % 4 ≠ 3) (hcan : s.canSend i) :
    wTxcan i false w s r c = match (s.emptied i).cxFill (wordChan i w) (s.canFrame i w c) with
      | some t => .go t c
      | none => .wait := by
  rw [wTxcan, if_neg (by simp [hbound, hfmt]), sendBuild_of_canSend hcan hcan.1]
  rfl

theorem wTxcan_go (hbound : s.boundCx i (w.x % 4) = true) (hfmt : w.y.val % 4 ≠ 3) (hcan : s.canSend i)
    (hbuf : (s.can (wordChan i w)).bufs.length < 8) :
    wTxcan i false w s r c =
      .go ((s.emptied i).mapCan (wordChan i w) fun x => { x with bufs := x.bufs ++ [⟨s.canFrame i w c⟩] }) c := by
  have hfill : (s.emptied i).cxFill (wordChan i w) (s.canFrame i w c) =
      some ((s.emptied i).mapCan (wordChan i w) fun x => { x with bufs := x.bufs ++ [⟨s.canFrame i w c⟩] }) := if_pos hbuf
  rw [wTxcan_of_canSend hbound hfmt hcan, hfill]

theorem wTxcan_wait (hbound : s.boundCx i (w.x % 4) = true) (hfmt : w.y.val % 4 ≠ 3) (hcan : s.canSend i)
    (hbuf : 8 ≤ (s.can (wordChan i w)).bufs.length) : wTxcan i false w s r c = .wait := by
  have hfill : (s.emptied i).cxFill (wordChan i w) (s.canFrame i w c) = none := if_neg (Nat.not_lt.2 hbuf)
  rw [wTxcan_of_canSend hbound hfmt hcan, hfill]

theorem txcan_effect {ch : Nat} {b : CxBuf} :
    let t := ((s.emptied i).mapCan ch fun x => { x with bufs := x.bufs ++ [b] }).putCtx i false c'
    s.SentTo t i c' ∧ s.regsBut t [] ∧ (t.can ch).bufs = (s.can ch).bufs ++ [b] := by
  refine ⟨sentTo_of_ne_eq (mapCan_ne _ _ _) ((mapCan_mem _ _ _).trans (putEng_mem _ _ _)),
    regsBut_of_regs_eq ((putEng_regs _ _ _).trans ((mapCan_regs _ _ _).trans (putEng_regs _ _ _))), ?_⟩
  rw [State.putCtx, State.mapEng, putEng_can, can_mapCan, if_pos rfl, State.emptied, putEng_can]

theorem wTxstitch_go (hbound : s.boundCx i (w.x % 4) = true) (hcan : s.canSend i) :
    wTxstitch i false w s r c = .go (if s.colMap (wordChan i w) (w.imm.toNat % 1024) then
        (s.emptied i).inc (A.DTT_TX_REJ (wordChan i w))
      else (s.emptied i).stitchWrite (wordChan i w) (w.imm.toNat % 1024) (s.eng i).built s.raw) c := by
  rw [wTxstitch, if_neg (by simp [hbound]), sendBuild_of_canSend hcan hcan.1]
  rfl

theorem wTxstitch_mapped (hbound : s.boundCx i (w.x % 4) = true) (hcan : s.canSend i)
    (hmap : s.colMap (wordChan i w) (w.imm.toNat % 1024) = true) :
    wTxstitch i false w s r c = .go ((s.emptied i).inc (A.DTT_TX_REJ (wordChan i w))) c := by
  rw [wTxstitch_go hbound hcan, if_pos hmap]

theorem count_effect (a : Nat) :
    let t := ((s.emptied i).inc a).putCtx i false c'
    s.SentTo t i c' ∧ t.rd a = satSucc (s.rd a) ∧ s.regsBut t [a] ∧ t.cx = s.cx ∧ t.col = s.col := by
  refine ⟨sentTo_of_ne_eq (State.wr_ne _ _ _) ((State.wr_mem _ _ _).trans (putEng_mem _ _ _)), ?_, fun b hb => ?_, ?_, ?_⟩
  · rw [State.putCtx, State.mapEng, putEng_rd, State.inc, State.rd_wr, if_pos rfl, State.emptied, putEng_rd]
  · rw [State.putCtx, State.mapEng, putEng_rd, State.inc, State.rd_wr, if_neg (by simpa using hb), State.emptied, putEng_rd]
  · rw [State.putCtx, State.mapEng, putEng_cx, State.inc, State.wr_cx, State.emptied, putEng_cx]
  · rw [State.putCtx, State.mapEng, putEng_col, State.inc, State.wr_col, State.emptied, putEng_col]

theorem stitchWrite_of_known {ch st n : Nat} {bs : List Byte}
    (hknown : ((s.can ch).pattern.any fun p => decide (st < p.stitches.length)) = true)
    (hlen : bs.length ≤ s.fld (A.DTT_LIMITS ch) F.DTT_LIMITS.STITCH_DLEN) :
    s.stitchWrite ch st bs n = s.mapCan ch fun x => { x with stitch := storeInsert x.stitch st ⟨bs, n⟩ } := by
  cases hp : (s.can ch).pattern with
  | none => simp [hp] at hknown
  | some p =>
    have hst : st < p.stitches.length := by simpa [hp] using hknown
    simp [State.stitchWrite, hp, hst, Nat.not_lt.2 hlen]

theorem built_length (e : Engine) : e.built.length = e.blen := padTo_length _ _

theorem wTxstitch_written (hbound : s.boundCx i (w.x % 4) = true) (hcan : s.canSend i)
    (hmap : s.colMap (wordChan i w) (w.imm.toNat % 1024) = false)
    (hknown : ((s.can (wordChan i w)).pattern.any fun p => decide (w.imm.toNat % 1024 < p.stitches.length)) = true)
    (hlen : (s.eng i).blen ≤ s.fld (A.DTT_LIMITS (wordChan i w)) F.DTT_LIMITS.STITCH_DLEN) :
    wTxstitch i false w s r c = .go ((s.emptied i).mapCan (wordChan i w) fun x =>
      { x with stitch := storeInsert x.stitch (w.imm.toNat % 1024) ⟨(s.eng i).built, s.raw⟩ }) c := by
  have hwrite : (s.emptied i).stitchWrite (wordChan i w) (w.imm.toNat % 1024) (s.eng i).built s.raw = _ :=
    stitchWrite_of_known (s := s.emptied i) (by rw [State.emptied, putEng_can]; exact hknown)
      (by rw [built_length, State.fld, State.emptied, putEng_rd]; exact hlen)
  rw [wTxstitch_go hbound hcan, if_neg (by rw [hmap]; decide), hwrite]

theorem stitch_effect {ch st n : Nat} {bs : List Byte} :
    let t := ((s.emptied i).mapCan ch fun x => { x with stitch := storeInsert x.stitch st ⟨bs, n⟩ }).putCtx i false c'
    s.SentTo t i c' ∧ s.regsBut t [] ∧ storeGet ⟨[], 0⟩ (t.can ch).stitch st = ⟨bs, n⟩ ∧ s.cansBut t ch := by
  refine ⟨sentTo_of_ne_eq (mapCan_ne _ _ _) ((mapCan_mem _ _ _).trans (putEng_mem _ _ _)),
    regsBut_of_regs_eq ((putEng_regs _ _ _).trans ((mapCan_regs _ _ _).trans (putEng_regs _ _ _))), ?_, fun k hk => ?_⟩
  · rw [State.putCtx, State.mapEng, putEng_can, can_mapCan, if_pos rfl]
    exact storeGet_insert _ _ _ _
  · rw [State.putCtx, State.mapEng, putEng_can, can_mapCan, if_neg hk, State.emptied, putEng_can]

/-- The copy that TXCOL submits. -/
def State.txCopy (s : State) (i : Nat) (w : ActWord) (c : ActCtx) : Copy :=
  ⟨w.imm.toNat % 65536, c.get w.a, (s.eng i).built, 0, false⟩

theorem wTxcol_of_canSend (hcan : s.canSend i) :
    wTxcol i false w s r c = match (if 255 < w.imm.toNat % 65536 then some ((s.emptied i).inc A.COL_SUB_REJ)
        else if (s.emptied i).colSpace (unitHalf i 12) (s.txCopy i w c) then
          some ((s.emptied i).colSubmit (unitHalf i 12) (0x10 + i) (s.txCopy i w c)).1
        else none) with
      | some t => .go t c
      | none => .wait := by
  rw [wTxcol, sendBuild_of_canSend hcan hcan.1]
  rfl

theorem wTxcol_beyond (hcan : s.canSend i) (hn : 255 < w.imm.toNat % 65536) :
    wTxcol i false w s r c = .go ((s.emptied i).inc A.COL_SUB_REJ) c := by
  rw [wTxcol_of_canSend hcan, if_pos hn]

/-- A copy that is accepted, and whose release point lies ahead, is queued. -/
theorem colSubmit_of_accepted {h : Half} {m : Nat} {cp : Copy} (hok : s.submitCheck h m cp = 0) (hrp : s.raw < cp.rp) :
    (s.colSubmit h m cp).1 = s.putColQueue h (s.col.queue h ++ [{ cp with arrived := s.raw }]) := by
  have hdue : (s.putColQueue h (s.col.queue h ++ [{ cp with arrived := s.raw }])).dueNow cp.rp = false := by
    rw [State.dueNow, raw_putColQueue, decide_eq_false_iff_not]
    exact Nat.not_le.2 hrp
  simp only [State.colSubmit, hok, if_true, hdue, Bool.false_eq_true, if_false]

theorem wTxcol_go (hcan : s.canSend i) (hn : w.imm.toNat % 65536 ≤ 255) (hrp : s.raw < c.get w.a)
    (hspace : s.colSpace (unitHalf i 12) (s.txCopy i w c) = true)
    (hok : s.submitCheck (unitHalf i 12) (0x10 + i) (s.txCopy i w c) = 0) :
    wTxcol i false w s r c = .go ((s.emptied i).putColQueue (unitHalf i 12)
      (s.col.queue (unitHalf i 12) ++ [{ s.txCopy i w c with arrived := s.raw }])) c := by
  have hsub : ((s.emptied i).colSubmit (unitHalf i 12) (0x10 + i) (s.txCopy i w c)).1 = (s.emptied i).putColQueue (unitHalf i 12)
      (s.col.queue (unitHalf i 12) ++ [{ s.txCopy i w c with arrived := s.raw }]) := colSubmit_of_accepted hok hrp
  have hsp : (s.emptied i).colSpace (unitHalf i 12) (s.txCopy i w c) = true := hspace
  rw [wTxcol_of_canSend hcan, if_neg (Nat.not_lt.2 hn), if_pos hsp, hsub]

theorem txcol_effect {h : Half} {q : List Copy} :
    let t := ((s.emptied i).putColQueue h q).putCtx i false c'
    s.SentTo t i c' ∧ t.col.queue h = q := by
  refine ⟨sentTo_of_ne_eq (putColQueue_ne _ _ _) ((putColQueue_mem _ _ _).trans (putEng_mem _ _ _)), ?_⟩
  rw [State.putCtx, State.mapEng, putEng_col, putColQueue_queue]

theorem wTxinl_go (hcan : s.canSend i) :
    wTxinl i false w s r c =
      .go ((s.emptied i).mapEng i fun e => { e with inserts := e.inserts ++ [(w.x.val % 2, (s.eng i).built)] }) c := by
  rw [wTxinl, sendBuild_of_canSend hcan hcan.1]

theorem txinl_effect {x : Nat × List Byte} :
    let t := ((s.emptied i).mapEng i fun e => { e with inserts := e.inserts ++ [x] }).putCtx i false c'
    s.SentTo t i c' ∧ (t.eng i).inserts = (s.eng i).inserts ++ [x] ∧ { t with ne := s.ne } = s := by
  have hself : (s.emptied i).eng i = { (s.eng i).stageTx with build := [], blen := 0 } := eng_putEng_self _ _ _
  refine ⟨⟨?_, ?_, ?_, (putEng_mem _ _ _).trans ((putEng_mem _ _ _).trans (putEng_mem _ _ _)), fun k hk => ?_⟩, ?_,
    (setNe_putEng _ _ _ _).trans ((setNe_putEng _ _ _ _).trans (setNe_putEng _ _ _ _))⟩
  · rw [eng_putCtx_self]
  · rw [eng_putCtx_self, eng_mapEng_self, hself]
  · rw [eng_putCtx_self, eng_mapEng_self, hself]
  · rw [eng_putCtx_other _ _ _ hk, eng_mapEng_other _ _ hk]
    exact eng_putEng_other _ _ hk
  · rw [eng_putCtx_self, eng_mapEng_self, hself]
    rfl

/-! ### DMA -/

/-- The channel of engine i that a word names has room for one more transfer. -/
abbrev State.chanRoom (s : State) (i : Nat) (w : ActWord) : Prop :=
  ((s.eng i).dma.filter fun x => x.chan = w.x.val % 4).length < 4

theorem dmaIssue_go {d : Dma} (hroom : s.chanRoom i w) (hchan : d.chan = w.x.val % 4) :
    s.dmaIssue i d c = .go (s.mapEng i fun e => { e with dma := e.dma ++ [d] }) c := by
  rw [State.dmaIssue, hchan, if_neg (Nat.not_le.2 hroom)]

theorem dmaIssue_wait {d : Dma} (hroom : ¬ s.chanRoom i w) (hchan : d.chan = w.x.val % 4) : s.dmaIssue i d c = .wait := by
  rw [State.dmaIssue, hchan, if_pos (Nat.not_lt.1 hroom)]

theorem dma_effect {d : Dma} :
    let t := (s.mapEng i fun e => { e with dma := e.dma ++ [d] }).putCtx i false c'
    (t.eng i).evt = some c' ∧ s.engsBut t i ∧ { t with ne := s.ne } = s ∧ (t.eng i).dma = (s.eng i).dma ++ [d] := by
  refine ⟨?_, fun k hk => ?_, (setNe_putEng _ _ _ _).trans (setNe_putEng _ _ _ _), ?_⟩
  · rw [eng_putCtx_self]
  · rw [eng_putCtx_other _ _ _ hk, eng_mapEng_other _ _ hk]
  · rw [eng_putCtx_self, eng_mapEng_self]

/-- The transfers that DMAWR, DMARD and DMAENT start. -/
def dmawrOf (w : ActWord) (c : ActCtx) (bs : List Byte) : Dma :=
  ⟨w.x % 4, c.ctx, true, 0, 0, c.get w.a % 2 ^ 40, bs, c.get w.b, bitAt w.y 0,
    if w.x.val / 8 = 0 ∨ w.x.val / 8 = 5 then c.input else none, false⟩
def dmardOf (w : ActWord) (c : ActCtx) : Dma :=
  ⟨w.x % 4, c.ctx, false, w.x / 8, w.imm.toNat % 65536, c.get w.a % 2 ^ 40, [], c.get w.b, true, none, false⟩
def dmaentOf (w : ActWord) (c : ActCtx) (st : Nat) : Dma :=
  ⟨w.x % 4, c.ctx, true, 0, 0, c.get w.a % 2 ^ 40, leBytes 8 (c.get w.d) ++ leBytes 8 st, 16, bitAt w.y 0, none, true⟩

theorem wDmawr_go {bs : List Byte} (h1 : 1 ≤ c.get w.b) (h2 : c.get w.b ≤ 4096)
    (hread : s.areaRead i false r c (w.x / 8) (w.imm.toNat % 65536) (c.get w.b) = some bs) (hroom : s.chanRoom i w) :
    wDmawr i false w s r c = .go (s.mapEng i fun e => { e with dma := e.dma ++ [dmawrOf w c bs] }) c := by
  rw [wDmawr, if_neg (by omega), hread]
  exact dmaIssue_go hroom rfl

/-- The area that a DMARD names may be filled, and the bytes lie within it. -/
abbrev DmardFits (w : ActWord) (c : ActCtx) : Prop :=
  (w.x.val / 8 = 1 ∨ w.x.val / 8 = 4 ∨ w.x.val / 8 = 6) ∧
  w.imm.toNat % 65536 + c.get w.b ≤ if w.x.val / 8 = 1 then 12 else if w.x.val / 8 = 4 then 9216 else 4096

theorem wDmard_of_fits (h1 : 1 ≤ c.get w.b) (h2 : c.get w.b ≤ 4096) (hfits : DmardFits w c) :
    wDmard i false w s r c = s.dmaIssue i (dmardOf w c) c := by
  obtain ⟨harea, hsize⟩ := hfits
  have hdm : dmardSize (w.x.val / 8) = some (if w.x.val / 8 = 1 then 12 else if w.x.val / 8 = 4 then 9216 else 4096) := by
    obtain h | h | h := harea <;> rw [h] <;> rfl
  rw [wDmard, hdm]
  exact if_neg (by omega)

theorem wDmaent_go {st : Nat} (hst : (if bitAt w.x 2 then some (c.get w.b) else s.inputStamp i false c) = some st)
    (halign : c.get w.a % 16 = 0) (hroom : s.chanRoom i w) :
    wDmaent i false w s r c = .go (s.mapEng i fun e => { e with dma := e.dma ++ [dmaentOf w c st] }) c := by
  rw [wDmaent, hst]
  exact (if_neg (by omega)).trans (dmaIssue_go hroom rfl)

/-! ### Hook FIFOs -/

theorem putEng_hook (s : State) (i : Nat) (e : Engine) (k : Nat) : (s.putEng i e).hook k = s.hook k := rfl

theorem hook_nePend (s : State) (i : Nat) (p : Pend) (k : Nat) : (s.nePend i p).hook k = s.hook k := by
  unfold State.nePend State.inc
  split
  · dsimp only
    split
    · exact State.hook_wr _ _ _ _
    · exact putEng_hook _ _ _ _
  · rfl

/-- Two states hold the same words in every Hook FIFO. -/
def State.SameFifos (s t : State) : Prop := ∀ k, (t.hook k).tx = (s.hook k).tx ∧ (t.hook k).rx = (s.hook k).rx

theorem sameFifos_of_hook_eq {s t : State} (h : ∀ k, t.hook k = s.hook k) : s.SameFifos t := fun k => by rw [h]; exact ⟨rfl, rfl⟩

theorem State.SameFifos.trans {s t v : State} (h1 : s.SameFifos t) (h2 : t.SameFifos v) : s.SameFifos v := fun k =>
  ⟨(h2 k).1.trans (h1 k).1, (h2 k).2.trans (h1 k).2⟩

theorem sameFifos_setThr (s : State) (e n : Nat) : s.SameFifos (s.mapHook e fun x => { x with thr := n }) := fun k => by
  rw [hook_mapHook]
  split
  · next h => rw [h]; exact ⟨rfl, rfl⟩
  · exact ⟨rfl, rfl⟩

theorem sameFifos_hkEdge (s : State) (e : Nat) (on was : Bool) : s.SameFifos (s.hkEdge e on was) := by
  have hrefl : s.SameFifos s := fun _ => ⟨rfl, rfl⟩
  unfold State.hkEdge
  split
  · next i _ =>
    split
    · exact (sameFifos_of_hook_eq (hook_nePend s i _)).trans (sameFifos_setThr _ _ _)
    · split
      · refine State.SameFifos.trans (sameFifos_of_hook_eq fun k => ?_) (sameFifos_setThr _ _ _)
        split
        · exact putEng_hook _ _ _ _
        · exact State.hook_wr _ _ _ _
      · exact hrefl
  · exact hrefl

theorem hook_hkLevels (s : State) (e : Nat) (x : Hook) : (s.hkLevels e x).hook e = x := by
  rw [State.hkLevels, State.setf, State.hook_wr, State.setf, State.hook_wr, hook_putHook_self]

/-- The FIFOs of an engine are those put. -/
theorem fifos_putFifos (s : State) (e : Nat) (tx rx : List Word) :
    ((s.putFifos e tx rx).hook e).tx = tx ∧ ((s.putFifos e tx rx).hook e).rx = rx := by
  obtain ⟨htx, hrx⟩ := sameFifos_hkEdge (s.hkLevels e { (s.hook e).opened s.hkClock with tx := tx, rx := rx }) e
    (s.hkCrossed e ((s.hook e).opened s.hkClock) tx.length rx.length) (((s.hook e).opened s.hkClock).thr != 0) e
  rw [hook_hkLevels] at htx hrx
  exact ⟨htx, hrx⟩

/-- The Hook engine that a word of engine i names. -/
def wordHook (i : Nat) (w : ActWord) : Nat := i / 12 * 8 + w.x % 8

theorem wHkput_go (hbound : s.boundHk i (w.x % 8) = true) (hroom : (s.hook (wordHook i w)).tx.length < 8) :
    wHkput i false w s r c = .go (s.putFifos (wordHook i w)
      ((s.hook (wordHook i w)).tx ++ [BitVec.ofNat 32 (c.get w.a)]) (s.hook (wordHook i w)).rx) c := by
  have hput : s.hkPut (i / 12 * 8 + w.x % 8) (BitVec.ofNat 32 (c.get w.a)) = some _ := if_pos hroom
  rw [wHkput, if_neg (by simp [hbound]), hput]
  rfl

theorem wHkget_go {v : Word} (hbound : s.boundHk i (w.x % 8) = true)
    (hhead : (s.hook (wordHook i w)).rx.head? = some v) :
    wHkget i false w s r c = .go (s.putFifos (wordHook i w) (s.hook (wordHook i w)).tx (s.hook (wordHook i w)).rx.tail)
      (c.put w.d v.toNat) := by
  obtain ⟨rx, hrx⟩ := List.head?_eq_some_iff.1 hhead
  have hget : s.hkGet (wordHook i w) = some (v, s.putFifos (wordHook i w) (s.hook (wordHook i w)).tx rx) := by
    rw [State.hkGet, hrx]
  rw [wHkget, if_neg (by simp [hbound]), show i.val / 12 * 8 + w.x.val % 8 = wordHook i w from rfl, hget, hrx]
  rfl

theorem hook_putCtx (s : State) (i : Nat) (c : ActCtx) (k : Nat) : (s.putCtx i false c).hook k = s.hook k := putEng_hook _ _ _ _

end

/-- Settles O34: a word comes to the same body when it executes and when it ends its wait, and each body is one state. -/
theorem actionWordSend : Obligations.ActionWordSend := by
  intro s i w r c bs inl v st e imm hk hf ch canSend sent room area size
  refine ⟨?_, ?_, ?_, ?_, ?_, ?_, ?_, ?_, ?_, ?_, ?_, ?_, ?_, ?_, ?_, ?_, ?_, ?_, ?_, ?_, ?_, ?_, ?_, ?_⟩
  case refine_1 =>
    intro ⟨h, hbit, hlen, hcan⟩
    exact ⟨_, exec_go_of_act rfl (by decide) h (wTxeth_go hbit hlen hcan), txeth_effect⟩
  case refine_2 =>
    intro ⟨h, hbit, hlen, hfull⟩
    exact exec_wait_of_act rfl (by decide) h (wTxeth_wait hbit hlen hfull)
  case refine_3 =>
    intro ⟨h, hbound, hfmt, hcan, hbuf⟩
    exact ⟨_, exec_go_of_act rfl (by decide) h (wTxcan_go hbound hfmt hcan hbuf), txcan_effect⟩
  case refine_4 =>
    intro ⟨h, hbound, hfmt, hcan, hbuf⟩
    exact exec_wait_of_act rfl (by decide) h (wTxcan_wait hbound hfmt hcan hbuf)
  case refine_5 =>
    intro ⟨h, hbound, hcan, hmap⟩
    obtain ⟨hsent, hcnt, hregs, hcx, -⟩ := count_effect (s := s) (i := i) (c' := c.next) (A.DTT_TX_REJ ch)
    exact ⟨_, exec_go_of_act rfl (by decide) h (wTxstitch_mapped hbound hcan hmap), hsent, hcnt, hregs, hcx⟩
  case refine_6 =>
    intro ⟨h, hbound, hcan, hmap, hknown, hlen⟩
    exact ⟨_, exec_go_of_act rfl (by decide) h (wTxstitch_written hbound hcan hmap hknown hlen), stitch_effect⟩
  case refine_7 =>
    intro ⟨h, hcan, hn⟩
    obtain ⟨hsent, hcnt, -, -, hcol⟩ := count_effect (s := s) (i := i) (c' := c.next) A.COL_SUB_REJ
    exact ⟨_, exec_go_of_act rfl (by decide) h (wTxcol_beyond hcan hn), hsent, hcnt, hcol⟩
  case refine_8 =>
    intro ⟨h, hcan, hn, hrp, hspace, hok⟩
    exact ⟨_, exec_go_of_act rfl (by decide) h (wTxcol_go hcan hn hrp hspace hok), txcol_effect⟩
  case refine_9 =>
    intro ⟨h, hcan⟩
    exact ⟨_, exec_go_of_act rfl (by decide) h (wTxinl_go hcan), txinl_effect⟩
  case refine_10 =>
    intro ⟨h, h1, h2, hread, hroom⟩
    exact ⟨_, exec_go_of_act rfl (by decide) h (wDmawr_go h1 h2 hread hroom), dma_effect⟩
  case refine_11 =>
    intro ⟨h, h1, h2, harea, hsize⟩
    have hd := wDmard_of_fits (s := s) (i := i) (r := r) (c := c.next) h1 h2 ⟨harea, hsize⟩
    exact ⟨fun hroom => ⟨_, exec_go_of_act rfl (by decide) h (hd.trans (dmaIssue_go hroom rfl)), dma_effect⟩,
      fun hroom => exec_wait_of_act rfl (by decide) h (hd.trans (dmaIssue_wait hroom rfl))⟩
  case refine_12 =>
    intro ⟨h, hst, halign, hroom⟩
    exact ⟨_, exec_go_of_act rfl (by decide) h (wDmaent_go hst halign hroom), dma_effect⟩
  case refine_13 =>
    intro ⟨hctx, hwait, hbit, hlen, hcan⟩
    exact ⟨_, exec_go_of_wait hctx hwait (wTxeth_go (r := r) hbit hlen hcan), txeth_effect⟩
  case refine_14 =>
    intro ⟨hctx, hwait, hbound, hfmt, hcan, hbuf⟩
    exact ⟨_, exec_go_of_wait hctx hwait (wTxcan_go (r := r) hbound hfmt hcan hbuf), txcan_effect⟩
  case refine_15 =>
    intro ⟨hctx, hwait, hbound, hcan, hmap⟩
    obtain ⟨hsent, hcnt, -⟩ := count_effect (s := s) (i := i) (c' := c.next) (A.DTT_TX_REJ ch)
    exact ⟨_, exec_go_of_wait hctx hwait (wTxstitch_mapped (r := r) hbound hcan hmap), hsent, hcnt⟩
  case refine_16 =>
    intro ⟨hctx, hwait, hcan, hn, hrp, hspace, hok⟩
    exact ⟨_, exec_go_of_wait hctx hwait (wTxcol_go (r := r) hcan hn hrp hspace hok), txcol_effect⟩
  case refine_17 =>
    intro ⟨hctx, hwait, hcan⟩
    obtain ⟨hsent, hins, -⟩ := txinl_effect (s := s) (i := i) (c' := c.next) (x := (w.x.val % 2, e.built))
    exact ⟨_, exec_go_of_wait hctx hwait (wTxinl_go (r := r) hcan), hsent, hins⟩
  case refine_18 =>
    intro ⟨hctx, hwait, h1, h2, hread, hroom⟩
    obtain ⟨hevt, -, -, hdma⟩ := dma_effect (s := s) (i := i) (c' := c.next) (d := dmawrOf w c bs)
    exact ⟨_, exec_go_of_wait hctx hwait (wDmawr_go (r := r) h1 h2 hread hroom), hevt, hdma⟩
  case refine_19 =>
    intro ⟨hctx, hwait, h1, h2, harea, hsize, hroom⟩
    have hd := wDmard_of_fits (s := s) (i := i) (r := r) (c := c.next) h1 h2 ⟨harea, hsize⟩
    obtain ⟨hevt, -, -, hdma⟩ := dma_effect (s := s) (i := i) (c' := c.next) (d := dmardOf w c)
    exact ⟨_, exec_go_of_wait hctx hwait (hd.trans (dmaIssue_go hroom rfl)), hevt, hdma⟩
  case refine_20 =>
    intro ⟨hctx, hwait, hst, halign, hroom⟩
    obtain ⟨hevt, -, -, hdma⟩ := dma_effect (s := s) (i := i) (c' := c.next) (d := dmaentOf w c st)
    exact ⟨_, exec_go_of_wait hctx hwait (wDmaent_go (r := r) hst halign hroom), hevt, hdma⟩
  case refine_21 =>
    intro ⟨hctx, hwait, hbound, hroom⟩
    refine ⟨_, exec_go_of_wait hctx hwait (wHkput_go (r := r) hbound hroom), evt_putCtx _ _ _, ?_⟩
    rw [hook_putCtx]
    exact (fifos_putFifos _ _ _ _).1
  case refine_22 =>
    intro ⟨hctx, hwait, hbound, hhead⟩
    refine ⟨_, exec_go_of_wait hctx hwait (wHkget_go (r := r) hbound hhead), evt_putCtx _ _ _, ?_⟩
    rw [hook_putCtx]
    exact (fifos_putFifos _ _ _ _).2
  case refine_23 =>
    intro ⟨hctx, hwait, hecc, h1, h2, harea, hsize, hroom⟩
    have hd := wDmard_of_fits (s := s) (i := i) (r := r) (c := c.next) h1 h2 ⟨harea, hsize⟩
    exact exec_wait_of_wait hctx hwait hecc (hd.trans (dmaIssue_wait hroom rfl))
  case refine_24 => exact fun ⟨hctx, hwait⟩ => exec_actWaitEnd_of_not_waiting hctx hwait

end Sys2Proof.Machine
end

section
/-! PROOFS. Input agreement: what its parts change, and what they leave as it is (R105 to R112). -/

namespace Sys2Proof.Machine
open Sys2Proof

-- Parallel elaboration holds many stacks at once, and they count towards the memory a check may take.
set_option Elab.async false

section
variable (s : State) (h : Half)

/-! ### Bytes of a 64-bit entry -/

theorem leBytes_leNat (bs : List Byte) : leBytes bs.length (leNat bs) = bs := by
  induction bs with
  | nil => rfl
  | cons b bs ih =>
    have hb : b.toNat < 256 := b.isLt
    have hdiv : (b.toNat + 256 * leNat bs) / 256 = leNat bs := by omega
    have hlow : BitVec.ofNat 8 (b.toNat + 256 * leNat bs) = b := by
      apply BitVec.eq_of_toNat_eq
      rw [BitVec.toNat_ofNat]
      omega
    rw [List.length_cons, leNat, leBytes, hdiv, hlow, ih]

/-- A number read from memory spells the bytes that were read. -/
theorem leBytes_mrd (a n : Nat) : leBytes n (s.mrd a n) = s.mbs a n := by
  have hb := leBytes_leNat (s.mbs a n)
  rwa [length_mbs] at hb

theorem mbs_add (a m n : Nat) : s.mbs a (m + n) = s.mbs a m ++ s.mbs (a + m) n := by
  simp [State.mbs, List.range_add, Function.comp_def, Nat.add_assoc]

theorem leBytes_length (n v : Nat) : (leBytes n v).length = n := by
  induction n generalizing v with
  | zero => rfl
  | succ n ih => rw [leBytes, List.length_cons, ih]

/-- The bytes of entries, VALUE and STAMP of each (Table 2.6). -/
def entryBytes (es : List (Nat × Nat)) : List Byte := es.flatMap fun e => leBytes 8 e.1 ++ leBytes 8 e.2

theorem entryBytes_length (es : List (Nat × Nat)) : (entryBytes es).length = 16 * es.length := by
  induction es with
  | nil => rfl
  | cons e es ih =>
    rw [entryBytes, List.flatMap_cons, List.length_append, List.length_append, leBytes_length, leBytes_length, List.length_cons,
      show (es.flatMap fun e => leBytes 8 e.1 ++ leBytes 8 e.2).length = _ from ih]
    omega

/-- Entries read one after another from an address spell the bytes from there. -/
theorem entryBytes_of_reads (a n : Nat) :
    entryBytes ((List.range n).map fun i => (s.mrd (a + 16 * i) 8, s.mrd (a + 16 * i + 8) 8)) = s.mbs a (16 * n) := by
  induction n with
  | zero => rfl
  | succ n ih =>
    have hlast : entryBytes [(s.mrd (a + 16 * n) 8, s.mrd (a + 16 * n + 8) 8)] = s.mbs (a + 16 * n) 16 := by
      simp only [entryBytes, List.flatMap_cons, List.flatMap_nil, List.append_nil, leBytes_mrd]
      exact (mbs_add s _ 8 8).symm
    rw [List.range_succ, List.map_append, List.map_singleton, Nat.mul_succ, mbs_add, ← ih, ← hlast]
    exact List.flatMap_append

/-- The snapshot of a half's source region without errors spells the region. -/
theorem entryBytes_iaSnap : entryBytes (s.iaSnap h []) = s.mbs (bankBase + s.iaSrc h) (16 * s.iaEntries) :=
  entryBytes_of_reads s _ _

theorem iaSnap_length (bad : List (Half × Fin 4096)) : (s.iaSnap h bad).length = s.iaEntries := by simp [State.iaSnap]

/-! ### IA_DONE -/

theorem bitAt_eq_testBit (v i : Nat) : bitAt v i = v.testBit i := by
  rw [bitAt, Nat.testBit_eq_decide_div_mod_eq]
  rfl

theorem hart_mapHart (k j : Nat) (f : Hart → Hart) : (s.mapHart k f).hart j = if j = k then f (s.hart k) else s.hart j :=
  storeGet_put _ _ _ _ _

/-- One hart's part of a latched source. -/
def State.latch (bit : Nat) (s : State) (k : Nat) : State := s.mapHart k fun x => { x with latched := x.latched ||| 2 ^ bit }

/-- A source that is latched stays latched while others are. -/
theorem latched_latch (bit k j : Nat) (hj : j = k ∨ bitAt (s.hart j).latched bit = true) :
    bitAt ((s.latch bit k).hart j).latched bit = true := by
  rw [State.latch, hart_mapHart]
  split
  · simp [bitAt_eq_testBit]
  · next hne => exact hj.resolve_left hne

theorem latched_foldl (f : Nat → Bool) (bit j : Nat) (ks : List Nat)
    (hj : (j ∈ ks ∧ f j = true) ∨ bitAt (s.hart j).latched bit = true) :
    bitAt ((ks.foldl (fun s k => if f k then s.latch bit k else s) s).hart j).latched bit = true := by
  induction ks generalizing s with
  | nil => simpa using hj
  | cons k ks ih =>
    refine ih _ ?_
    by_cases hmem : j ∈ ks ∧ f j = true
    · exact .inl hmem
    · refine .inr ?_
      dsimp only
      rw [List.mem_cons] at hj
      by_cases hk : j = k
      · subst hk
        by_cases hf : f j = true
        · rw [if_pos hf]
          exact latched_latch s bit j j (.inl rfl)
        · rw [if_neg hf]
          exact hj.resolve_left fun hx => hf hx.2
      · have hold : bitAt (s.hart j).latched bit = true := hj.resolve_left fun hx => hmem ⟨hx.1.resolve_left hk, hx.2⟩
        split
        · exact latched_latch s bit k j (.inr hold)
        · exact hold

/-- IA_DONE is latched in both harts of the half. -/
theorem latched_iaDone : bitAt ((s.iaDone h).hart (2 * h.n)).latched 0 = true ∧
    bitAt ((s.iaDone h).hart (2 * h.n + 1)).latched 0 = true := by
  have hk : ∀ k < 2, 2 * h.n + k ∈ List.range 4 ∧ (halfOf ((2 * h.n + k) / 2) == h) = true := by
    cases h <;> decide
  exact ⟨latched_foldl s _ 0 _ _ (.inl (hk 0 (by decide))), latched_foldl s _ 0 _ _ (.inl (hk 1 (by decide)))⟩

theorem latch_foldl_eq (f : Nat → Bool) (bit : Nat) (ks : List Nat) :
    ∃ harts, ks.foldl (fun s k => if f k then s.latch bit k else s) s = { s with harts := harts } := by
  induction ks generalizing s with
  | nil => exact ⟨s.harts, rfl⟩
  | cons k ks ih =>
    rw [List.foldl_cons]
    split
    · obtain ⟨harts, ht⟩ := ih (s.latch bit k)
      exact ⟨harts, ht⟩
    · exact ih s

theorem iaDone_eq : ∃ harts, s.iaDone h = { s with harts := harts } := latch_foldl_eq s _ _ _

/-! ### The outcome of an agreement for a half -/

/-- LAST_FAILED of a half. -/
def lastFailedFld (h : Half) : Fld :=
  match h with
  | .k => F.TEN_IA_STATUS.LAST_FAILED_K
  | .p => F.TEN_IA_STATUS.LAST_FAILED_P

theorem iaFailed_eq (b : Bool) : s.iaFailed h b = s.setb A.TEN_IA_STATUS (lastFailedFld h) b := by cases h <;> rfl

theorem lastFailedFld_inWord : (lastFailedFld h).lo ≤ (lastFailedFld h).hi ∧ (lastFailedFld h).hi < 32 := by cases h <;> decide

theorem flag_iaFailed (b : Bool) : (s.iaFailed h b).flag A.TEN_IA_STATUS (lastFailedFld h) = b := by
  rw [iaFailed_eq]
  exact State.flag_setb _ _ _ _ (lastFailedFld_inWord h)

theorem iaFailed_frame (b : Bool) : ∃ regs, s.iaFailed h b = { s with regs := regs } := by
  rw [iaFailed_eq]
  exact setb_eq s _ _ _

theorem flag_iaDone (a : Nat) (f : Fld) : (s.iaDone h).flag a f = s.flag a f := by
  obtain ⟨harts, ht⟩ := iaDone_eq s h
  rw [ht]
  rfl

/-- Marking granules dirty changes the resynchronisation alone. -/
theorem markDirty_eq (g : Half) (off n : Nat) : ∃ r, s.markDirty g off n = { s with resync := r } := by
  unfold State.markDirty
  split
  · split
    · exact ⟨_, rfl⟩
    · exact ⟨s.resync, rfl⟩
  · exact ⟨s.resync, rfl⟩

/-- Bytes put into a bank change memory and the resynchronisation alone. -/
theorem spadPut_eq (a : Nat) (bs : List Byte) : ∃ r, s.spadPut a bs = { s.putbs a bs with resync := r } :=
  markDirty_eq _ _ _ _

/-- A half takes entries into its destination region, and its agreement is done without a failure. -/
def State.iaTake (s : State) (h : Half) (es : List (Nat × Nat)) : State := ((s.iaWrite h es).iaFailed h false).iaDone h

theorem iaTake_eq (es : List (Nat × Nat)) : ∃ r regs harts,
    s.iaTake h es = { s.putbs (bankBase + s.iaDst h) (entryBytes es) with resync := r, regs := regs, harts := harts } := by
  obtain ⟨r, hr⟩ := spadPut_eq s (bankBase + s.iaDst h) (entryBytes es)
  obtain ⟨regs, hregs⟩ := iaFailed_frame (s.iaWrite h es) h false
  obtain ⟨harts, hh⟩ := iaDone_eq ((s.iaWrite h es).iaFailed h false) h
  have hw : s.iaWrite h es = { s.putbs (bankBase + s.iaDst h) (entryBytes es) with resync := r } := hr
  refine ⟨r, regs, harts, ?_⟩
  rw [State.iaTake, hh, hregs, hw]

theorem iaTake_effects (es : List (Nat × Nat)) (hlen : es.length = s.iaEntries) :
    (s.iaTake h es).mbs (bankBase + s.iaDst h) (16 * s.iaEntries) = entryBytes es ∧
    s.bytesBut (s.iaTake h es) (bankBase + s.iaDst h) (16 * s.iaEntries) ∧
    (s.iaTake h es).flag A.TEN_IA_STATUS (lastFailedFld h) = false ∧ (s.iaTake h es).ia = s.ia ∧
    bitAt ((s.iaTake h es).hart (2 * h.n)).latched 0 = true ∧ bitAt ((s.iaTake h es).hart (2 * h.n + 1)).latched 0 = true := by
  obtain ⟨r, regs, harts, ht⟩ := iaTake_eq s h es
  obtain ⟨mem, hput⟩ := putbs_eq s (bankBase + s.iaDst h) (entryBytes es)
  have hmem : (s.iaTake h es).mem = (s.putbs (bankBase + s.iaDst h) (entryBytes es)).mem := by rw [ht]
  have hbytes : 16 * s.iaEntries = (entryBytes es).length := by rw [entryBytes_length, hlen]
  refine ⟨?_, fun k hk => ?_, ?_, ?_, latched_iaDone _ h⟩
  · rw [mbs_of_mem hmem, hbytes]
    exact mbs_putbs _ _ _
  · rw [mb_of_mem hmem]
    rw [hbytes] at hk
    exact bytesBut_putbs s _ _ k hk
  · rw [State.iaTake, flag_iaDone, flag_iaFailed]
  · rw [ht, hput]

end

end Sys2Proof.Machine
end

section
/-! PROOFS. Input agreement: the cycle that begins at c0, and the trigger that begins it (R105, R106, R112, R132). -/

namespace Sys2Proof.Machine
open Sys2Proof

-- Parallel elaboration holds many stacks at once, and they count towards the memory a check may take.
set_option Elab.async false

/-! ### What a cycle leaves of the charge -/

/-- Charge, the Trivet's presence and the raw count are as they were. -/
structure State.SameCharge (s t : State) : Prop where
  chg : t.chg = s.chg
  trivetLost : t.trivetLost = s.trivetLost
  raw : t.raw = s.raw

section
variable {s t u : State}

theorem State.SameCharge.refl (s : State) : s.SameCharge s := ⟨rfl, rfl, rfl⟩

theorem State.SameCharge.trans (h : s.SameCharge t) (k : t.SameCharge u) : s.SameCharge u :=
  ⟨k.chg.trans h.chg, k.trivetLost.trans h.trivetLost, k.raw.trans h.raw⟩

theorem State.Quiet.sameCharge (h : s.Quiet t) : s.SameCharge t := ⟨h.chg, h.trivetLost, h.raw⟩

theorem sameCharge_foldl {β : Type} {f : State → β → State} (hf : ∀ (s : State) b, s.SameCharge (f s b)) (bs : List β) (s : State) :
    s.SameCharge (bs.foldl f s) := by
  induction bs generalizing s with
  | nil => exact .refl s
  | cons b bs ih => exact (hf s b).trans (ih _)

variable (s) (h : Half)

theorem sameCharge_setf (a : Nat) (f : Fld) (v : Nat) : s.SameCharge (s.setf a f v) := ⟨rfl, rfl, rfl⟩

theorem sameCharge_inc (a : Nat) : s.SameCharge (s.inc a) := ⟨rfl, rfl, rfl⟩

theorem sameCharge_ia (i : Ia) : s.SameCharge { s with ia := i } := ⟨rfl, rfl, rfl⟩

theorem sameCharge_iaFailed (b : Bool) : s.SameCharge (s.iaFailed h b) := by
  rw [iaFailed_eq]
  exact sameCharge_setf s _ _ _

theorem sameCharge_iaDone : s.SameCharge (s.iaDone h) := by
  obtain ⟨harts, ht⟩ := iaDone_eq s h
  rw [ht]
  exact ⟨rfl, rfl, rfl⟩

theorem quiet_sendMsg (origin : Nat) (cls spec : Nat) (datas : List Nat) : s.Quiet (s.sendMsg origin h cls spec datas) :=
  (quiet_mapEp s h _).trans (quiet_emit _ _)

theorem quiet_diagF3 (code source d5 d6 : Nat) : s.Quiet (s.diagF3 h code source d5 d6) :=
  .ite (quiet_mapEp s h _) (quiet_faultD s _ _ _ _ _ _ _ (by decide))

theorem spad_not_linkReg : ¬ linkReg (A.SPAD_STATUS h.n) ∧ ¬ linkReg (A.SPAD_ECC_INFO h.n) := by cases h <;> decide

theorem quiet_spadDouble (a source : Nat) : s.Quiet (s.spadDouble h a source) := by
  obtain ⟨hstat, hinfo⟩ := spad_not_linkReg h
  exact (((quiet_setf s _ _ _ hstat).trans (quiet_setf _ _ _ _ hinfo)).trans (quiet_setf _ _ _ _ hinfo)).trans
    (quiet_diagF3 _ _ _ _ _ _)

/-- Errors of snapshot reads change nothing of memory, charge or the Tension link's registers. -/
theorem quiet_snapErrors (bad : List (Half × Fin 4096)) : s.Quiet (s.snapErrors bad) :=
  quiet_foldl (fun s _ => .trans (.ite (quiet_fault s _ _ _ _ (by decide)) (.refl s)) (quiet_spadDouble _ _ _ _)) bad s

theorem sameCharge_iaFail (log : Bool) : s.SameCharge (s.iaFail h log) := by
  unfold State.iaFail
  extract_lets s1 s2 i2 s3
  have h1 : s.SameCharge s1 := (sameCharge_iaFailed s h true).trans (sameCharge_inc _ _)
  have h2 : s1.SameCharge s2 := by
    unfold s2
    split
    · exact (quiet_fault s1 _ _ _ _ (by decide)).sameCharge
    · exact .refl s1
  exact ((h1.trans h2).trans (sameCharge_ia s2 _)).trans (sameCharge_iaDone s3 h)

theorem sameCharge_iaTake (es : List (Nat × Nat)) : s.SameCharge (s.iaTake h es) := by
  obtain ⟨r, regs, harts, ht⟩ := iaTake_eq s h es
  obtain ⟨mem, hput⟩ := putbs_eq s (bankBase + s.iaDst h) (entryBytes es)
  rw [ht, hput]
  exact ⟨rfl, rfl, rfl⟩

/-- An agreement cycle changes nothing of charge. -/
theorem sameCharge_iaCycle (also : Option Half) (bad : List (Half × Fin 4096)) : s.SameCharge (s.iaCycle also bad) := by
  unfold State.iaCycle
  split
  · exact .refl s
  · extract_lets s1 parts two mk i0 ia s2 s3
    have h1 : s.SameCharge s1 := sameCharge_setf s _ _ _
    split
    · exact h1.trans (sameCharge_foldl (fun s h => sameCharge_iaFail s h true) _ _)
    · have h2 : s.SameCharge s2 := h1.trans (quiet_snapErrors s1 _).sameCharge
      have h3 : s.SameCharge s3 := (h2.trans (sameCharge_ia s2 ia)).trans
        (sameCharge_foldl (fun s h => (quiet_sendMsg s h _ _ _ _).sameCharge) _ _)
      clear_value s3 ia parts
      split
      · exact h3.trans (sameCharge_iaTake s3 _ _)
      · exact h3

/-! ### A cycle that takes place -/

/-- CYCLE has counted the c0. -/
def State.iaCounted (s : State) : State := s.incMod A.TEN_IA_STATUS F.TEN_IA_STATUS.CYCLE

/-- The registers that configure input agreement. -/
abbrev iaCfgReg (a : Nat) : Prop := a = A.TEN_IA_CTRL ∨ ∃ h : Half, a = A.TEN_IA_SRC h.n ∨ a = A.TEN_IA_DST h.n

/-- The configuration of input agreement and memory are as they were. -/
structure State.SameIa (s t : State) : Prop where
  cfg : ∀ a, iaCfgReg a → t.rd a = s.rd a
  mem : t.mem = s.mem

theorem iaEntries_of_same (k : s.SameIa t) : t.iaEntries = s.iaEntries := by
  rw [State.iaEntries, State.fld, k.cfg _ (.inl rfl)]
  rfl

theorem iaSrc_of_same (k : s.SameIa t) : t.iaSrc h = s.iaSrc h := by
  rw [State.iaSrc, State.fld, k.cfg _ (.inr ⟨h, .inl rfl⟩)]
  rfl

theorem iaDst_of_same (k : s.SameIa t) : t.iaDst h = s.iaDst h := by
  rw [State.iaDst, State.fld, k.cfg _ (.inr ⟨h, .inr rfl⟩)]
  rfl

theorem iaValid_of_same (k : s.SameIa t) : t.iaValid = s.iaValid := by
  simp only [State.iaValid, iaEntries_of_same s k, iaSrc_of_same s _ k, iaDst_of_same s _ k]

theorem iaSnap_of_same (k : s.SameIa t) (bad : List (Half × Fin 4096)) : t.iaSnap h bad = s.iaSnap h bad := by
  simp only [State.iaSnap, iaEntries_of_same s k, iaSrc_of_same s _ k, State.mrd, mbs_of_mem k.mem]

theorem sameIa_of_quiet (k : s.Quiet t) : s.SameIa t := by
  refine ⟨fun a ha => k.link a ?_, k.mem⟩
  obtain rfl | ⟨g, rfl | rfl⟩ := ha
  · decide
  · cases g <;> decide
  · cases g <;> decide

theorem ne_status_of_iaCfgReg {a : Nat} (ha : iaCfgReg a) : a ≠ A.TEN_IA_STATUS := by
  obtain rfl | ⟨g, rfl | rfl⟩ := ha
  · decide
  · cases g <;> decide
  · cases g <;> decide

theorem sameIa_iaCounted : s.SameIa s.iaCounted :=
  ⟨fun _ ha => State.rd_wr_other s _ _ _ (ne_status_of_iaCfgReg ha), rfl⟩

theorem State.SameIa.trans {s t u : State} (k : s.SameIa t) (l : t.SameIa u) : s.SameIa u :=
  ⟨fun a ha => (l.cfg a ha).trans (k.cfg a ha), l.mem.trans k.mem⟩

theorem inService_of_sameCharge (k : s.SameCharge t) : t.inService h = s.inService h := by
  rw [State.inService, State.chgOf, k.chg]
  rfl

theorem inService_iaCounted : s.iaCounted.inService h = s.inService h := inService_of_sameCharge s h (sameCharge_setf s _ _ _)

/-- The records of a cycle in which both halves take part. -/
def State.iaOfBoth (s : State) (bad : List (Half × Fin 4096)) : Ia :=
  { s.ia with c0 := s.raw, holder := s.chg.holder, commitSent := false, counted := false,
              k := ⟨true, true, s.iaSnap .k bad, false⟩, p := ⟨true, true, s.iaSnap .p bad, false⟩ }

/-- Both halves read their source regions, send their snapshots and await the commit. -/
theorem iaCycle_of_both {bad : List (Half × Fin 4096)} (hon : s.flag A.TEN_IA_CTRL F.TEN_IA_CTRL.ENABLE = true)
    (hvalid : s.iaValid = true) (hk : s.inService .k = true) (hp : s.inService .p = true) :
    s.iaCycle none bad = (({ s.iaCounted.snapErrors (bad.filter fun b => [Half.k, .p].contains b.1 && decide (b.2.val < s.iaEntries)) with
      ia := s.iaOfBoth bad }).sendSnap .k (s.iaSnap .k bad)).sendSnap .p (s.iaSnap .p bad) := by
  have hsame := sameIa_iaCounted s
  have hparts : ([Half.k, .p].filter fun h => s.iaCounted.inService h || none == some h) = [.k, .p] := by
    simp [inService_iaCounted, hk, hp]
  have hvalid' : s.iaCounted.iaValid = true := (iaValid_of_same s hsame).trans hvalid
  rw [State.iaCycle, if_neg (by rw [hon]; decide)]
  simp only [← State.iaCounted.eq_1, hparts, hvalid', Bool.not_true, Bool.false_eq_true, if_false, iaSnap_of_same s _ hsame,
    iaEntries_of_same s hsame, List.foldl_cons, List.foldl_nil]
  rfl

/-- The records of a cycle in which one half takes part. -/
def State.iaOfOne (s : State) (h : Half) : Ia :=
  let none_ : IaHalf := ⟨false, false, [], false⟩
  ({ s.ia with c0 := s.raw, holder := s.chg.holder, commitSent := false, counted := false, k := none_, p := none_ } : Ia).putHalf h
    ⟨true, false, s.iaSnap h [], false⟩

/-- One half alone takes its own entries at once. -/
theorem iaCycle_of_one (hon : s.flag A.TEN_IA_CTRL F.TEN_IA_CTRL.ENABLE = true) (hvalid : s.iaValid = true)
    (hin : s.inService h = true) (hout : s.inService h.other = false) :
    s.iaCycle none [] = (({ s.iaCounted with ia := s.iaOfOne h } : State).sendSnap h (s.iaSnap h [])).iaTake h (s.iaSnap h []) := by
  have hsame := sameIa_iaCounted s
  have hparts : ([Half.k, .p].filter fun h => s.iaCounted.inService h || none == some h) = [h] := by
    cases h
    · have hp : s.inService .p = false := hout
      simp [inService_iaCounted, hin, hp]
    · have hk : s.inService .k = false := hout
      simp [inService_iaCounted, hin, hk]
  have hvalid' : s.iaCounted.iaValid = true := (iaValid_of_same s hsame).trans hvalid
  rw [State.iaCycle, if_neg (by rw [hon]; decide)]
  simp only [← State.iaCounted.eq_1, hparts, hvalid', Bool.not_true, Bool.false_eq_true, if_false, iaSnap_of_same s _ hsame,
    List.filter_nil, List.foldl_cons, List.foldl_nil]
  cases h <;> rfl

/-! ### The trigger -/

/-- The count of the trigger event that compare event TRIG has reached. -/
abbrev State.trigFired (s : State) : Nat := storeGet 0 s.gauge.fired s.trigUnit

/-- The trigger has been taken, and probation judged. -/
def State.triggered (s : State) : State := ({ s with ia := { s.ia with trig := s.trigFired } } : State).judgeProbation

/-- Judging probation changes input agreement's own records and the flags of charge, not the states of the halves. -/
theorem judgeProbation_eq : ∃ ia chg, s.judgeProbation = { s with ia := ia, chg := chg } ∧ ia.trig = s.ia.trig ∧
    chg.holder = s.chg.holder ∧ ∀ g, (chg.half g).st = (s.chg.half g).st := by
  unfold State.judgeProbation
  split
  · exact ⟨_, s.chg, rfl, rfl, rfl, fun _ => rfl⟩
  · next h _ =>
    extract_lets c clean i s1
    split
    · split
      · have hmode : (s1.setProbation h.other false false).setMode .two =
            { s1 with chg := { (s1.setProbation h.other false false).chg with mode := .two } } := if_neg fun hx => hx.2 rfl
        refine ⟨_, _, hmode, rfl, ?_, fun g => ?_⟩
        · cases h <;> rfl
        · cases h <;> cases g <;> rfl
      · exact ⟨_, s.chg, rfl, rfl, rfl, fun _ => rfl⟩
    · exact ⟨_, s.chg, rfl, rfl, rfl, fun _ => rfl⟩

theorem triggered_eq : ∃ ia chg, s.triggered = { s with ia := ia, chg := chg } ∧ ia.trig = s.trigFired ∧
    chg.holder = s.chg.holder ∧ ∀ g, (chg.half g).st = (s.chg.half g).st :=
  judgeProbation_eq { s with ia := { s.ia with trig := s.trigFired } }

section
variable (e : IaReads)

theorem exec_iaTrigger_of_not (hnew : s.trigFired = 0 ∨ s.trigFired ≤ s.ia.trig) : exec (.iaTrigger e) s = .next s := if_pos hnew

theorem resync_triggered : s.triggered.resync = s.resync := by
  obtain ⟨ia, chg, ht, -⟩ := triggered_eq s
  rw [ht]

theorem trivetLost_triggered : s.triggered.trivetLost = s.trivetLost := by
  obtain ⟨ia, chg, ht, -⟩ := triggered_eq s
  rw [ht]

/-- A new trigger, by the resynchronisation that it meets. -/
theorem exec_iaTrigger_new (hnew : s.ia.trig < s.trigFired) : exec (.iaTrigger e) s =
    match s.triggered.resync with
    | some r =>
      if r.final ∧ !s.triggered.trivetLost then
        if e.passError then
          .next (((s.triggered.iaCycle none e.bad).fault 0x11 2 (originHalf r.cand.other) 0).refuseResync r.cand 0x39)
        else .next (((s.triggered.iaCycle (some r.cand) e.bad).copyGranules r.cand.other r.dirty).admitHalf r)
      else .next (s.triggered.iaCycle none e.bad)
    | none => .next (s.triggered.iaCycle none e.bad) := by
  have hn : ¬ (s.trigFired = 0 ∨ s.trigFired ≤ s.ia.trig) := by omega
  exact if_neg hn

/-- Without a resynchronisation it begins a cycle. -/
theorem exec_iaTrigger (hnew : s.ia.trig < s.trigFired) (hresync : s.resync = none) :
    exec (.iaTrigger e) s = .next (s.triggered.iaCycle none e.bad) := by
  rw [exec_iaTrigger_new s e hnew, resync_triggered, hresync]

/-- The final pass of a resynchronisation copies the last dirty granules, and the candidate is admitted. -/
theorem exec_iaTrigger_final {r : Resync} (hnew : s.ia.trig < s.trigFired) (hresync : s.resync = some r) (hfinal : r.final = true)
    (hlost : s.trivetLost = false) (hread : e.passError = false) : exec (.iaTrigger e) s =
      .next (((s.triggered.iaCycle (some r.cand) e.bad).copyGranules r.cand.other r.dirty).admitHalf r) := by
  rw [exec_iaTrigger_new s e hnew, resync_triggered, hresync, trivetLost_triggered]
  simp only [hfinal, hlost, hread, Bool.not_false, and_self, if_true, Bool.false_eq_true, if_false]

/-- A read error of the final pass refuses the candidate. -/
theorem exec_iaTrigger_error {r : Resync} (hnew : s.ia.trig < s.trigFired) (hresync : s.resync = some r) (hfinal : r.final = true)
    (hlost : s.trivetLost = false) (hread : e.passError = true) : exec (.iaTrigger e) s =
      .next (((s.triggered.iaCycle none e.bad).fault 0x11 2 (originHalf r.cand.other) 0).refuseResync r.cand 0x39) := by
  rw [exec_iaTrigger_new s e hnew, resync_triggered, hresync, trivetLost_triggered]
  simp only [hfinal, hlost, hread, Bool.not_false, and_self, if_true]

end

end

end Sys2Proof.Machine
end

section
/-! PROOFS. Input agreement: the effects of a cycle, of the commit and of its timeout (R105 to
R112). -/

namespace Sys2Proof.Machine
open Sys2Proof

-- Parallel elaboration holds many stacks at once, and they count towards the memory a check may take.
set_option Elab.async false

section
variable (s : State) (h : Half)

/-! ### Messages -/

theorem sameIa_ia (i : Ia) : s.SameIa { s with ia := i } := ⟨fun _ _ => rfl, rfl⟩

theorem ia_inc (a : Nat) : (s.inc a).ia = s.ia := rfl

theorem sendMsg_eq (origin cls spec : Nat) (datas : List Nat) : ∃ epK epP o,
    s.sendMsg origin h cls spec datas = { s with epK := epK, epP := epP, out := o :: s.out } := by
  cases h
  · exact ⟨_, s.epP, _, rfl⟩
  · exact ⟨s.epK, _, _, rfl⟩

theorem ia_sendMsg (origin cls spec : Nat) (datas : List Nat) : (s.sendMsg origin h cls spec datas).ia = s.ia := by
  obtain ⟨epK, epP, o, ht⟩ := sendMsg_eq s h origin cls spec datas
  rw [ht]

theorem regs_sendMsg (origin cls spec : Nat) (datas : List Nat) : (s.sendMsg origin h cls spec datas).regs = s.regs := by
  obtain ⟨epK, epP, o, ht⟩ := sendMsg_eq s h origin cls spec datas
  rw [ht]

theorem rd_sendMsg (origin cls spec : Nat) (datas : List Nat) (a : Nat) : (s.sendMsg origin h cls spec datas).rd a = s.rd a :=
  congrArg (fun r => storeGet (regDefault a) r a) (regs_sendMsg s h origin cls spec datas)

theorem out_length_sendMsg (origin cls spec : Nat) (datas : List Nat) :
    (s.sendMsg origin h cls spec datas).out.length = s.out.length + 1 := by
  obtain ⟨epK, epP, o, ht⟩ := sendMsg_eq s h origin cls spec datas
  rw [ht]
  rfl

/-! ### A cycle of both halves -/

section
variable {bad : List (Half × Fin 4096)} (hon : s.flag A.TEN_IA_CTRL F.TEN_IA_CTRL.ENABLE = true) (hvalid : s.iaValid = true)
  (hk : s.inService .k = true) (hp : s.inService .p = true)
include hon hvalid hk hp

theorem ia_iaCycle_of_both : (s.iaCycle none bad).ia = s.iaOfBoth bad := by
  rw [iaCycle_of_both s hon hvalid hk hp, State.sendSnap, ia_sendMsg, State.sendSnap, ia_sendMsg]

theorem mem_iaCycle_of_both : (s.iaCycle none bad).mem = s.mem := by
  rw [iaCycle_of_both s hon hvalid hk hp, State.sendSnap, (quiet_sendMsg ..).mem, State.sendSnap, (quiet_sendMsg ..).mem]
  exact (quiet_snapErrors s.iaCounted _).mem

theorem clean_iaCycle_of_both : s.regsBut (s.iaCycle none []) [A.TEN_IA_STATUS] ∧
    (s.iaCycle none []).out.length = s.out.length + 2 := by
  rw [iaCycle_of_both s hon hvalid hk hp]
  refine ⟨fun a ha => ?_, ?_⟩
  · exact (rd_sendMsg ..).trans ((rd_sendMsg ..).trans (State.rd_wr_other s _ _ _ (List.ne_of_not_mem_cons ha)))
  · exact (out_length_sendMsg ..).trans (congrArg (· + 1) (out_length_sendMsg ..))

end

/-! ### A cycle of one half -/

/-- The half has begun the cycle and sent its snapshot. -/
def State.iaAlone (s : State) (h : Half) : State := ({ s.iaCounted with ia := s.iaOfOne h } : State).sendSnap h (s.iaSnap h [])

theorem sameIa_iaAlone : s.SameIa (s.iaAlone h) :=
  ((sameIa_iaCounted s).trans (sameIa_ia _ (s.iaOfOne h))).trans (sameIa_of_quiet _ (quiet_sendMsg _ h _ _ _ _))

/-- What a half takes into its destination region, where nothing before it has changed the configuration or memory. -/
theorem iaTake_effects_of_same {t : State} (k : s.SameIa t) (es : List (Nat × Nat)) (hlen : es.length = s.iaEntries) :
    (t.iaTake h es).mbs (bankBase + s.iaDst h) (16 * s.iaEntries) = entryBytes es ∧
    s.bytesBut (t.iaTake h es) (bankBase + s.iaDst h) (16 * s.iaEntries) ∧
    (t.iaTake h es).flag A.TEN_IA_STATUS (lastFailedFld h) = false ∧ (t.iaTake h es).ia = t.ia ∧
    bitAt ((t.iaTake h es).hart (2 * h.n)).latched 0 = true ∧ bitAt ((t.iaTake h es).hart (2 * h.n + 1)).latched 0 = true := by
  have heff := iaTake_effects t h es (hlen.trans (iaEntries_of_same s k).symm)
  rw [iaEntries_of_same s k, iaDst_of_same s h k] at heff
  obtain ⟨hbytes, hbut, hrest⟩ := heff
  exact ⟨hbytes, fun b hb => (hbut b hb).trans (mb_of_mem k.mem b), hrest⟩

theorem one_effects (hon : s.flag A.TEN_IA_CTRL F.TEN_IA_CTRL.ENABLE = true) (hvalid : s.iaValid = true)
    (hin : s.inService h = true) (hout : s.inService h.other = false) :
    let t := s.iaCycle none []
    t.mbs (bankBase + s.iaDst h) (16 * s.iaEntries) = s.mbs (bankBase + s.iaSrc h) (16 * s.iaEntries) ∧
    s.bytesBut t (bankBase + s.iaDst h) (16 * s.iaEntries) ∧ t.flag A.TEN_IA_STATUS (lastFailedFld h) = false ∧
    (t.ia.half h).await = false ∧
    bitAt (t.hart (2 * h.n)).latched 0 = true ∧ bitAt (t.hart (2 * h.n + 1)).latched 0 = true := by
  have hcycle : s.iaCycle none [] = (s.iaAlone h).iaTake h (s.iaSnap h []) := iaCycle_of_one s h hon hvalid hin hout
  obtain ⟨hbytes, hbut, hflag, hia, hk, hp⟩ := iaTake_effects_of_same s h (sameIa_iaAlone s h) (s.iaSnap h []) (iaSnap_length s h [])
  rw [hcycle]
  refine ⟨hbytes.trans (entryBytes_iaSnap s h), hbut, hflag, ?_, hk, hp⟩
  rw [hia, State.iaAlone, State.sendSnap, ia_sendMsg]
  cases h <;> rfl

/-! ### The commit -/

theorem exec_iaCommitSend (hk : s.ia.k.part = true) (hp : s.ia.p.part = true) (hrk : s.ia.k.relayed = true)
    (hrp : s.ia.p.relayed = true) (hsent : s.ia.commitSent = false) :
    exec .iaCommitSend s = .next ((({ s with ia := { s.ia with commitSent := true } } : State).sendMsg 2 .k 2 s.ia.holder.toNat []).sendMsg
      2 .p 2 s.ia.holder.toNat []) :=
  if_pos ⟨hk, hp, hrk, hrp, by rw [hsent]; rfl⟩

theorem exec_iaCommitSend_of_not (hno : s.ia.k.relayed = false ∨ s.ia.p.relayed = false ∨ s.ia.commitSent = true) :
    exec .iaCommitSend s = .next s := by
  refine if_neg ?_
  rintro ⟨-, -, hrk, hrp, hsent⟩
  simp [hrk, hrp] at hno
  simp [hno] at hsent

theorem commitSend_effects (i : Ia) (v : Nat) :
    let t := (({ s with ia := i } : State).sendMsg 2 .k 2 v []).sendMsg 2 .p 2 v []
    t.ia = i ∧ t.out.length = s.out.length + 2 ∧ { t with ia := s.ia, epK := s.epK, epP := s.epP, out := s.out } = s := by
  obtain ⟨epK, epP, o, ht⟩ := sendMsg_eq { s with ia := i } .k 2 2 v []
  rw [ht]
  obtain ⟨epK', epP', o', ht'⟩ := sendMsg_eq { s with ia := i, epK := epK, epP := epP, out := o :: s.out } .p 2 2 v []
  rw [ht']
  exact ⟨rfl, rfl, rfl⟩

/-- Counting conflicts is noted in input agreement's own records, and in registers beside its configuration. -/
theorem countConflicts_keeps : s.SameIa s.countConflicts ∧ ∃ b, s.countConflicts.ia = { s.ia with counted := b } := by
  have hstep : ∀ t : State, t.SameIa ((t.inc A.TEN_IA_CONFLICT).fault 0x33 1 originShared 0) ∧
      ((t.inc A.TEN_IA_CONFLICT).fault 0x33 1 originShared 0).ia = t.ia := by
    intro t
    refine ⟨State.SameIa.trans ⟨fun a ha => State.rd_wr_other t _ _ _ ?_, rfl⟩ (sameIa_of_quiet _ (quiet_fault _ _ 1 _ _ (by decide))), ?_⟩
    · obtain rfl | ⟨g, rfl | rfl⟩ := ha
      · decide
      · cases g <;> decide
      · cases g <;> decide
    · obtain ⟨regs, larder, hf⟩ := fault_eq (t.inc A.TEN_IA_CONFLICT) 0x33 1 originShared 0
      exact (congrArg State.ia hf).trans (ia_inc t A.TEN_IA_CONFLICT)
  have hfold : ∀ (ks : List Nat) (t : State),
      t.SameIa (ks.foldl (fun s _ => (s.inc A.TEN_IA_CONFLICT).fault 0x33 1 originShared 0) t) ∧
      (ks.foldl (fun s _ => (s.inc A.TEN_IA_CONFLICT).fault 0x33 1 originShared 0) t).ia = t.ia := by
    intro ks
    induction ks with
    | nil => exact fun t => ⟨⟨fun _ _ => rfl, rfl⟩, rfl⟩
    | cons k ks ih =>
      intro t
      obtain ⟨hsame, hia⟩ := hstep t
      obtain ⟨hsame', hia'⟩ := ih ((t.inc A.TEN_IA_CONFLICT).fault 0x33 1 originShared 0)
      exact ⟨hsame.trans hsame', hia'.trans hia⟩
  unfold State.countConflicts
  split
  · exact ⟨⟨fun _ _ => rfl, rfl⟩, _, rfl⟩
  · obtain ⟨hsame, hia⟩ := hfold (List.range (conflicts s.ia.k.snap s.ia.p.snap)) { s with ia := { s.ia with counted := true } }
    exact ⟨(sameIa_ia s _).trans hsame, true, hia⟩

/-- The half no longer awaits the commit. -/
def State.iaArrived (s : State) (h : Half) : State :=
  { s with ia := s.ia.putHalf h { s.ia.half h with await := false } }

theorem half_iaArrived : ((s.iaArrived h).ia.half h).await = false := by cases h <;> rfl

theorem other_iaArrived : (s.iaArrived h).ia.half h.other = s.ia.half h.other := by cases h <;> rfl

/-- The agreed entries of the running cycle. -/
def State.agreed (s : State) : List (Nat × Nat) := (s.ia.k.snap.zip s.ia.p.snap).map fun e => agree s.ia.holder e.1 e.2

theorem exec_iaCommitReceive (hsent : s.ia.commitSent = true) (hawait : (s.ia.half h).await = true) :
    exec (.iaCommitReceive h) s = .next ((s.countConflicts.iaArrived h).iaTake h s.agreed) :=
  if_pos ⟨hsent, hawait⟩

theorem exec_iaCommitReceive_of_not (hno : s.ia.commitSent = false ∨ (s.ia.half h).await = false) :
    exec (.iaCommitReceive h) s = .next s := by
  refine if_neg ?_
  rintro ⟨hsent, hawait⟩
  simp [hsent, hawait] at hno

theorem commitReceive_effects (hk : s.ia.k.snap.length = s.iaEntries) (hp : s.ia.p.snap.length = s.iaEntries) :
    let t := (s.countConflicts.iaArrived h).iaTake h s.agreed
    (t.ia.half h).await = false ∧ t.ia.half h.other = s.ia.half h.other ∧
      t.mbs (bankBase + s.iaDst h) (16 * s.iaEntries) = entryBytes s.agreed ∧
      s.bytesBut t (bankBase + s.iaDst h) (16 * s.iaEntries) ∧
      t.flag A.TEN_IA_STATUS (lastFailedFld h) = false ∧ bitAt (t.hart (2 * h.n)).latched 0 = true := by
  obtain ⟨hsame, b, hia⟩ := countConflicts_keeps s
  have hsame' : s.SameIa (s.countConflicts.iaArrived h) := hsame.trans (sameIa_ia _ _)
  have hlen : s.agreed.length = s.iaEntries := by rw [State.agreed, List.length_map, List.length_zip, hk, hp, Nat.min_self]
  obtain ⟨hbytes, hbut, hflag, hias, hlatch, -⟩ := iaTake_effects_of_same s h hsame' s.agreed hlen
  refine ⟨?_, ?_, hbytes, hbut, hflag, hlatch⟩
  · rw [hias]
    exact half_iaArrived _ h
  · rw [hias, other_iaArrived, hia]
    cases h <;> rfl

/-! ### The timeout -/

theorem ia_iaDone : (s.iaDone h).ia = s.ia := by
  obtain ⟨harts, ht⟩ := iaDone_eq s h
  rw [ht]

theorem rd_iaDone (a : Nat) : (s.iaDone h).rd a = s.rd a := by
  obtain ⟨harts, ht⟩ := iaDone_eq s h
  rw [ht]
  rfl

theorem mem_iaDone : (s.iaDone h).mem = s.mem := by
  obtain ⟨harts, ht⟩ := iaDone_eq s h
  rw [ht]

/-- The registers of a failed agreement: LAST_FAILED and the count. -/
def State.iaMarked (s : State) (h : Half) : State := (s.iaFailed h true).inc A.TEN_IA_FAIL

theorem flag_iaMarked : (s.iaMarked h).flag A.TEN_IA_STATUS (lastFailedFld h) = true := by
  have hrd : (s.iaMarked h).rd A.TEN_IA_STATUS = (s.iaFailed h true).rd A.TEN_IA_STATUS := State.rd_wr_other _ _ _ _ (by decide)
  exact (congrArg (fun w => fget (lastFailedFld h) w != 0) hrd).trans (flag_iaFailed s h true)

theorem rd_iaMarked : (s.iaMarked h).rd A.TEN_IA_FAIL = satSucc (s.rd A.TEN_IA_FAIL) := by
  rw [State.iaMarked, State.rd_inc, if_pos rfl, iaFailed_eq]
  exact congrArg satSucc (State.rd_wr_other s _ _ _ (by decide))

theorem iaMarked_eq : ∃ regs, s.iaMarked h = { s with regs := regs } := by
  obtain ⟨regs, ht⟩ := iaFailed_frame s h true
  rw [State.iaMarked, ht]
  exact ⟨_, rfl⟩

/-- The failure's F2 event, if it is this half's to log. -/
def State.iaLogged (s : State) (h : Half) (log : Bool) : State :=
  if log then (s.iaMarked h).fault 0x34 2 (originHalf h) 0 else s.iaMarked h

theorem quiet_iaLogged (log : Bool) : (s.iaMarked h).Quiet (s.iaLogged h log) := .ite (quiet_fault _ _ 2 _ _ (by decide)) (.refl _)

theorem ia_iaLogged (log : Bool) : (s.iaLogged h log).ia = s.ia := by
  have hm : (s.iaMarked h).ia = s.ia := by
    obtain ⟨regs, ht⟩ := iaMarked_eq s h
    rw [ht]
  unfold State.iaLogged
  split
  · obtain ⟨regs, larder, hf⟩ := fault_eq (s.iaMarked h) 0x34 2 (originHalf h) 0
    rw [hf]
    exact hm
  · exact hm

theorem iaFail_eq (log : Bool) : s.iaFail h log =
    ({ s.iaLogged h log with ia := { (s.iaLogged h log).ia with bad := true } } : State).iaDone h := rfl

theorem half_iaFail (log : Bool) (g : Half) : (s.iaFail h log).ia.half g = s.ia.half g := by
  rw [iaFail_eq, ia_iaDone, ia_iaLogged]
  cases g <;> rfl

theorem mem_iaFail (log : Bool) : (s.iaFail h log).mem = s.mem := by
  obtain ⟨regs, ht⟩ := iaMarked_eq s h
  rw [iaFail_eq, mem_iaDone]
  refine (quiet_iaLogged s h log).mem.trans ?_
  rw [ht]

theorem rd_iaFail (log : Bool) (a : Nat) (ha : linkReg a) : (s.iaFail h log).rd a = (s.iaMarked h).rd a := by
  rw [iaFail_eq, rd_iaDone]
  exact (quiet_iaLogged s h log).link a ha

theorem iaFail_effects (log : Bool) : (s.iaFail h log).flag A.TEN_IA_STATUS (lastFailedFld h) = true ∧
    (s.iaFail h log).rd A.TEN_IA_FAIL = satSucc (s.rd A.TEN_IA_FAIL) ∧ bitAt ((s.iaFail h log).hart (2 * h.n)).latched 0 = true :=
  ⟨(congrArg (fun w => fget (lastFailedFld h) w != 0) (rd_iaFail s h log _ (by decide))).trans (flag_iaMarked s h),
    (rd_iaFail s h log _ (by decide)).trans (rd_iaMarked s h), (latched_iaDone _ h).1⟩

end

end Sys2Proof.Machine
end

section
/-! PROOFS. Input agreement: writes of TEN_IA_CTRL and of TEN_APP (R143, R144). -/

namespace Sys2Proof.Machine
open Sys2Proof

-- Parallel elaboration holds many stacks at once, and they count towards the memory a check may take.
set_option Elab.async false

section
variable (s : State) (h : Half)

/-! ### Register writes that reach their register -/

theorem guardReg_of_reaches {m a : Nat} {d : RegDesc} (hr : s.reaches m a true) (hd : regDesc? a = some d) (f : State → State) :
    s.guardReg m a f = f (s.ok 0) := by
  obtain ⟨hpres, herr, htrv⟩ := hr
  have hmay : (hasTrv d && m != trivet) = false := by
    obtain hm | hm := htrv rfl
    · simp [hm]
    · rw [hd] at hm
      rw [show hasTrv d = false from hm, Bool.false_and]
  simp only [State.guardReg, hpres, herr, hd, hmay, Bool.not_true, Bool.false_eq_true, if_false]

theorem plainWrite_of_desc {a : Nat} {d : RegDesc} (hd : regDesc? a = some d) (v : Word) :
    s.plainWrite a v = s.wr a (descWrite (s.locked a) d (s.rd a) v) := by
  simp only [State.plainWrite, hd]

/-- The state after a write that the register takes: the answer is OK. -/
def State.taken (s : State) (a : Nat) (w : Word) : State := (s.ok 0).wr a w

theorem rd_taken (a : Nat) (w : Word) : (s.taken a w).rd a = w := State.rd_wr_self _ _ _

theorem regsBut_taken (a : Nat) (w : Word) : s.regsBut (s.taken a w) [a] := fun _ hb =>
  State.rd_wr_other (s.ok 0) _ _ _ (List.ne_of_not_mem_cons hb)

theorem frame_taken (a : Nat) (w : Word) : { s.taken a w with regs := s.regs, resp := s.resp } = s := rfl

theorem taken_eq (a : Nat) (w : Word) (regs : List (Nat × Word)) :
    { s.taken a w with regs := regs } = { s with regs := regs, resp := some (.ok 0) } := rfl

/-- TEN_IA_CTRL and TEN_APP in the map. -/
def iaCtrlDesc : RegDesc :=
  ⟨"TEN_IA_CTRL", 0x30040030, [], [⟨31, 31, .trv, 0x0, false⟩, ⟨27, 24, .trv, 0x0, false⟩, ⟨12, 0, .trv, 0x0, false⟩]⟩
def tenAppDesc : RegDesc := ⟨"TEN_APP", 0x30040004, [(2, 0x4)], [⟨1, 1, .rw, 0x0, false⟩, ⟨0, 0, .rw, 0x0, false⟩]⟩

theorem regDesc_iaCtrl : regDesc? A.TEN_IA_CTRL = some iaCtrlDesc := by decide
theorem regDesc_tenApp : regDesc? (A.TEN_APP h.n) = some tenAppDesc := by cases h <;> decide

/-- ENABLE of TEN_IA_CTRL is taken back where it has just been set and the configuration is invalid. -/
def State.iaRefused (t : State) (was : Bool) : State :=
  if !was ∧ t.flag A.TEN_IA_CTRL F.TEN_IA_CTRL.ENABLE ∧ !t.iaValid then t.setf A.TEN_IA_CTRL F.TEN_IA_CTRL.ENABLE 0 else t

theorem fld_iaRefused (was : Bool) (f : Fld) (hf : fldsApart F.TEN_IA_CTRL.ENABLE f) :
    (s.iaRefused was).fld A.TEN_IA_CTRL f = s.fld A.TEN_IA_CTRL f := by
  unfold State.iaRefused
  split
  · exact fld_setf_apart s _ _ _ _ hf
  · rfl

theorem iaValid_of_enabled (hon : (s.iaRefused false).flag A.TEN_IA_CTRL F.TEN_IA_CTRL.ENABLE = true) :
    (s.iaRefused false).iaValid = true := by
  unfold State.iaRefused at hon ⊢
  split at hon
  · exact absurd ((flag_setf_zero s A.TEN_IA_CTRL F.TEN_IA_CTRL.ENABLE (by decide)).symm.trans hon) (by decide)
  · next hno =>
    rw [if_neg hno]
    cases hvalid : s.iaValid
    · exact absurd ⟨rfl, hon, by rw [hvalid]; rfl⟩ hno
    · rfl

theorem rd_iaRefused (was : Bool) (a : Nat) (ha : a ≠ A.TEN_IA_CTRL) : (s.iaRefused was).rd a = s.rd a := by
  unfold State.iaRefused
  split
  · exact State.rd_wr_other s _ _ _ ha
  · rfl

theorem iaRefused_eq (was : Bool) : ∃ regs, s.iaRefused was = { s with regs := regs } := by
  unfold State.iaRefused
  split
  · exact setf_eq s _ _ _
  · exact ⟨s.regs, rfl⟩

section
variable {m : Nat} (v : Word)

/-- The word that TEN_IA_CTRL takes. -/
def State.iaCtrlWord (s : State) (v : Word) : Word :=
  descWrite ((s.ok 0).locked A.TEN_IA_CTRL) iaCtrlDesc ((s.ok 0).rd A.TEN_IA_CTRL) v

theorem iaCtrlWrite_eq (hr : s.reaches m A.TEN_IA_CTRL true) : s.iaCtrlWrite m v =
    (s.taken A.TEN_IA_CTRL (s.iaCtrlWord v)).iaRefused (s.flag A.TEN_IA_CTRL F.TEN_IA_CTRL.ENABLE) := by
  rw [State.iaCtrlWrite]
  refine (guardReg_of_reaches s hr regDesc_iaCtrl _).trans ?_
  simp only [plainWrite_of_desc _ regDesc_iaCtrl]
  rfl

/-- A field that the Trivet or anyone may write takes the bits written. -/
theorem fget_descWrite_of_written {a : Nat} {d : RegDesc} (hd : regDesc? a = some d) {f : FieldDesc} (hf : f ∈ d.fields)
    (hacc : f.acc = .rw ∨ f.acc = .trv) (locked : Bool) (old : Word) :
    fget ⟨f.hi, f.lo⟩ (descWrite locked d old v) = fget ⟨f.hi, f.lo⟩ v :=
  fget_descWrite_of_mem locked old v hd hf v fun _ => by obtain hacc | hacc := hacc <;> rw [hacc] <;> rfl

theorem iaCtrlWrite_effects (hr : s.reaches m A.TEN_IA_CTRL true) :
    let t := s.iaCtrlWrite m v
    t.resp = some (.ok 0) ∧ t.fld A.TEN_IA_CTRL F.TEN_IA_CTRL.ENTRIES = fget F.TEN_IA_CTRL.ENTRIES v ∧
      t.fld A.TEN_IA_CTRL F.TEN_IA_CTRL.TRIG = fget F.TEN_IA_CTRL.TRIG v ∧
      (s.flag A.TEN_IA_CTRL F.TEN_IA_CTRL.ENABLE = false → t.flag A.TEN_IA_CTRL F.TEN_IA_CTRL.ENABLE = true → t.iaValid = true) ∧
      s.regsBut t [A.TEN_IA_CTRL] ∧ { t with regs := s.regs, resp := s.resp } = s := by
  intro t
  have ht : t = _ := iaCtrlWrite_eq s v hr
  clear_value t
  subst ht
  have hfld : ∀ f, (s.taken A.TEN_IA_CTRL (s.iaCtrlWord v)).fld A.TEN_IA_CTRL f = fget f (s.iaCtrlWord v) := fun f =>
    congrArg (fget f) (rd_taken s _ _)
  have hframe : ∀ (was : Bool), { (s.taken A.TEN_IA_CTRL (s.iaCtrlWord v)).iaRefused was with regs := s.regs, resp := s.resp } = s ∧
      ((s.taken A.TEN_IA_CTRL (s.iaCtrlWord v)).iaRefused was).resp = some (.ok 0) := by
    intro was
    obtain ⟨regs, hx⟩ := iaRefused_eq (s.taken A.TEN_IA_CTRL (s.iaCtrlWord v)) was
    rw [hx, taken_eq]
    exact ⟨rfl, rfl⟩
  refine ⟨(hframe _).2, ?_, ?_, fun hoff => ?_, fun a ha => ?_, (hframe _).1⟩
  · rw [fld_iaRefused _ _ _ (by decide), hfld]
    exact fget_descWrite_of_written v regDesc_iaCtrl (f := ⟨12, 0, .trv, 0x0, false⟩) (by decide) (.inr rfl) _ _
  · rw [fld_iaRefused _ _ _ (by decide), hfld]
    exact fget_descWrite_of_written v regDesc_iaCtrl (f := ⟨27, 24, .trv, 0x0, false⟩) (by decide) (.inr rfl) _ _
  · rw [hoff]
    exact iaValid_of_enabled _
  · rw [rd_iaRefused _ _ _ (List.ne_of_not_mem_cons ha)]
    exact regsBut_taken s _ _ a ha

/-- The word that TEN_APP of a half takes. -/
def State.tenAppWord (s : State) (h : Half) (v : Word) : Word :=
  descWrite ((s.ok 0).locked (A.TEN_APP h.n)) tenAppDesc ((s.ok 0).rd (A.TEN_APP h.n)) v

theorem tenAppWrite_own (hr : s.reaches m (A.TEN_APP h.n) true) (hown : m = 2 + 2 * h.n ∨ m = 3 + 2 * h.n) :
    s.tenAppWrite m h v = s.taken (A.TEN_APP h.n) (s.tenAppWord h v) := by
  rw [State.tenAppWrite]
  refine (guardReg_of_reaches s hr (regDesc_tenApp h) _).trans ?_
  rw [if_pos hown, plainWrite_of_desc _ (regDesc_tenApp h)]
  rfl

theorem tenAppWrite_other (hr : s.reaches m (A.TEN_APP h.n) true) (hown : ¬ (m = 2 + 2 * h.n ∨ m = 3 + 2 * h.n)) :
    s.tenAppWrite m h v = (s.ok 0).busErr m (A.TEN_APP h.n) true cPerm := by
  rw [State.tenAppWrite]
  exact (guardReg_of_reaches s hr (regDesc_tenApp h) _).trans (if_neg hown)

theorem tenAppWord_fields : fget F.TEN_APP.APP_READY (s.tenAppWord h v) = fget F.TEN_APP.APP_READY v ∧
    fget F.TEN_APP.OUT_VALID (s.tenAppWord h v) = fget F.TEN_APP.OUT_VALID v :=
  ⟨fget_descWrite_of_written v (regDesc_tenApp h) (f := ⟨0, 0, .rw, 0x0, false⟩) (by decide) (.inl rfl) _ _,
    fget_descWrite_of_written v (regDesc_tenApp h) (f := ⟨1, 1, .rw, 0x0, false⟩) (by decide) (.inl rfl) _ _⟩

end

/-- An error response leaves the registers of the Tension link as they are. -/
theorem rd_busErr_link {m a : Nat} {w : Bool} {c b : Nat} (hb : linkReg b) : (s.busErr m a w c).rd b = s.rd b := by
  have hlog : ∀ t : State, ∀ e : ErrRec, (t.logErr e).rd b = t.rd b := fun t e =>
    ((quiet_wrn t _ _ (by decide)).trans ((quiet_wrn _ _ _ (by decide)).trans (quiet_wrn _ _ _ (by decide)))).link b hb
  refine busErr_induct s m a w c (P := fun t => t.rd b = s.rd b) ?_ (fun t ht => (hlog t _).trans ht)
    fun t ht => ((quiet_faultD t _ 0 _ _ _ _ _ (by decide)).link b hb).trans ht
  exact (rd_errCounted s _ b).trans ((quiet_inc s _ (by decide)).link b hb)

theorem tenApp_linkReg : linkReg (A.TEN_APP h.n) := by cases h <;> decide

end

end Sys2Proof.Machine
end

section
/-! PROOFS. O23: an agreement cycle, clause by clause. -/

namespace Sys2Proof.Machine
open Sys2Proof

-- Parallel elaboration holds many stacks at once, and they count towards the memory a check may take.
set_option Elab.async false

section
variable (s : State) (h : Half)

/-! ### The final pass -/

theorem setProbation_isIn {g : Half} {d : ChgState} {cause : Nat} (a b : Bool) (hin : s.isIn g d cause) :
    (s.setProbation h a b).isIn g d cause := by
  cases h <;> cases g <;> exact hin

theorem resync_setProbation (a b : Bool) : (s.setProbation h a b).resync = s.resync := rfl

theorem setMode_two_eq : s.setMode .two = { s with chg := { s.chg with mode := .two } } := if_neg fun hx => hx.2 rfl

/-- The half that has entered STANDBY is put in probation, or 1oo2D begins at once. -/
def State.afterAdmission (s : State) (r : Resync) : State :=
  if r.staged then s.setProbation r.cand true true
  else if s.fld A.TRV_CFG F.TRV_CFG.PROBATION_N = 0 then s.setMode .two
  else s.setProbation r.cand true false

theorem admitHalf_eq (r : Resync) : s.admitHalf r =
    ({ s.endResync.enter r.cand .standby 0x03 with ia := { (s.endResync.enter r.cand .standby 0x03).ia with clean := 0 } } :
      State).afterAdmission r := rfl

theorem afterAdmission_keeps {g : Half} {d : ChgState} {cause : Nat} (r : Resync) (hin : s.isIn g d cause) :
    (s.afterAdmission r).isIn g d cause ∧ (s.afterAdmission r).resync = s.resync := by
  unfold State.afterAdmission
  split
  · exact ⟨setProbation_isIn s _ _ _ hin, resync_setProbation s _ _ _⟩
  · split
    · rw [setMode_two_eq]
      exact ⟨hin, rfl⟩
    · exact ⟨setProbation_isIn s _ _ _ hin, resync_setProbation s _ _ _⟩

theorem isIn_of_ia {g : Half} {d : ChgState} {cause : Nat} (i : Ia) (hin : s.isIn g d cause) :
    ({ s with ia := i } : State).isIn g d cause := hin

/-- T3 at the final pass: the candidate goes to STANDBY and the resynchronisation has ended. -/
theorem admitHalf_effects (r : Resync) : (s.admitHalf r).isIn r.cand .standby 0x03 ∧ (s.admitHalf r).resync = none := by
  have hin : (s.endResync.enter r.cand .standby 0x03).isIn r.cand .standby 0x03 := isIn_enter _ _ _ _
  have hres : (s.endResync.enter r.cand .standby 0x03).resync = none := (resync_enter ..).trans (resync_endResync s)
  obtain ⟨hin', hres'⟩ := afterAdmission_keeps _ r (isIn_of_ia _ _ hin)
  rw [admitHalf_eq]
  exact ⟨hin', hres'.trans hres⟩

/-! ### A trigger -/

/-- The trigger changes nothing that the cycle reads. -/
theorem sameIa_triggered : s.SameIa s.triggered := by
  obtain ⟨ia, chg, ht, -⟩ := triggered_eq s
  rw [ht]
  exact ⟨fun _ _ => rfl, rfl⟩

theorem rd_triggered (a : Nat) : s.triggered.rd a = s.rd a := by
  obtain ⟨ia, chg, ht, -⟩ := triggered_eq s
  rw [ht]
  rfl

theorem flag_triggered (a : Nat) (f : Fld) : s.triggered.flag a f = s.flag a f :=
  congrArg (fun w => fget f w != 0) (rd_triggered s a)

theorem out_triggered : s.triggered.out = s.out := by
  obtain ⟨ia, chg, ht, -⟩ := triggered_eq s
  rw [ht]

theorem raw_triggered : s.triggered.raw = s.raw := by
  obtain ⟨ia, chg, ht, -⟩ := triggered_eq s
  rw [ht]

theorem holder_triggered : s.triggered.chg.holder = s.chg.holder := by
  obtain ⟨ia, chg, ht, -, hhold, -⟩ := triggered_eq s
  rw [ht]
  exact hhold

theorem trig_triggered : s.triggered.ia.trig = s.trigFired := by
  obtain ⟨ia, chg, ht, htrig, -⟩ := triggered_eq s
  rw [ht]
  exact htrig

theorem inService_triggered : s.triggered.inService h = s.inService h := by
  obtain ⟨ia, chg, ht, -, -, hst⟩ := triggered_eq s
  have hchg : s.triggered.chgOf h = s.chgOf h := by
    rw [ht]
    exact hst h
  rw [State.inService, hchg]
  rfl

/-- A trigger with both halves in service. -/
theorem trigger_of_both {bad : List (Half × Fin 4096)} (hon : s.flag A.TEN_IA_CTRL F.TEN_IA_CTRL.ENABLE = true)
    (hvalid : s.iaValid = true) (hk : s.inService .k = true) (hp : s.inService .p = true) :
    let t := s.triggered.iaCycle none bad
    t.ia.trig = s.trigFired ∧ t.ia.c0 = s.raw ∧ t.ia.holder = s.chg.holder ∧ t.ia.k = ⟨true, true, s.iaSnap .k bad, false⟩ ∧
      t.ia.p = ⟨true, true, s.iaSnap .p bad, false⟩ ∧ t.ia.commitSent = false ∧ t.mem = s.mem ∧
      (bad = [] → s.regsBut t [A.TEN_IA_STATUS] ∧ t.out.length = s.out.length + 2) := by
  have hsame := sameIa_triggered s
  have hon' := (flag_triggered s _ _).trans hon
  have hvalid' := (iaValid_of_same s hsame).trans hvalid
  have hk' := (inService_triggered s _).trans hk
  have hp' := (inService_triggered s _).trans hp
  have hia := ia_iaCycle_of_both s.triggered (bad := bad) hon' hvalid' hk' hp'
  have hmem := mem_iaCycle_of_both s.triggered (bad := bad) hon' hvalid' hk' hp'
  dsimp only
  rw [hia]
  refine ⟨trig_triggered s, raw_triggered s, holder_triggered s, ?_, ?_, rfl, hmem.trans hsame.mem, fun hb => ?_⟩
  · rw [← iaSnap_of_same s .k hsame]
    rfl
  · rw [← iaSnap_of_same s .p hsame]
    rfl
  · obtain ⟨hregs, hout⟩ := clean_iaCycle_of_both s.triggered hon' hvalid' hk' hp'
    rw [hb]
    exact ⟨fun a ha => (hregs a ha).trans (rd_triggered s a), hout.trans (by rw [out_triggered])⟩

/-- A trigger with one half in service. -/
theorem trigger_of_one (hon : s.flag A.TEN_IA_CTRL F.TEN_IA_CTRL.ENABLE = true) (hvalid : s.iaValid = true)
    (hin : s.inService h = true) (hout : s.inService h.other = false) :
    let t := s.triggered.iaCycle none []
    t.mbs (bankBase + s.iaDst h) (16 * s.iaEntries) = s.mbs (bankBase + s.iaSrc h) (16 * s.iaEntries) ∧
      s.bytesBut t (bankBase + s.iaDst h) (16 * s.iaEntries) ∧ t.flag A.TEN_IA_STATUS (lastFailedFld h) = false ∧
      (t.ia.half h).await = false ∧
      bitAt (t.hart (2 * h.n)).latched 0 = true ∧ bitAt (t.hart (2 * h.n + 1)).latched 0 = true := by
  have hsame := sameIa_triggered s
  have heff := one_effects s.triggered h ((flag_triggered s _ _).trans hon) ((iaValid_of_same s hsame).trans hvalid)
    ((inService_triggered s _).trans hin) ((inService_triggered s _).trans hout)
  rw [iaEntries_of_same s hsame, iaDst_of_same s h hsame, iaSrc_of_same s h hsame, mbs_of_mem hsame.mem] at heff
  obtain ⟨hbytes, hbut, hrest⟩ := heff
  exact ⟨hbytes, fun b hb => (hbut b hb).trans (mb_of_mem hsame.mem b), hrest⟩

/-- A read error of the final pass: the candidate goes to SERVICE and the resynchronisation ends. -/
theorem trigger_error (r : Resync) (bad : List (Half × Fin 4096)) (hlost : s.trivetLost = false) :
    let t := ((s.triggered.iaCycle none bad).fault 0x11 2 (originHalf r.cand.other) 0).refuseResync r.cand 0x39
    t.isIn r.cand .service 0x39 ∧ t.resync = none := by
  have hcycle : (s.triggered.iaCycle none bad).trivetLost = false :=
    (sameCharge_iaCycle _ _ _).trivetLost.trans ((trivetLost_triggered s).trans hlost)
  have hfault : ((s.triggered.iaCycle none bad).fault 0x11 2 (originHalf r.cand.other) 0).trivetLost = false :=
    (quiet_fault _ _ 2 _ _ (by decide)).trivetLost.trans hcycle
  obtain ⟨hin, -, hres, -⟩ := refuseResync_isIn _ (h := r.cand) 0x39 hfault
  exact ⟨hin, hres⟩

/-! ### The timeout, and an additional round -/

/-- The hub had sent the commit, so the half that has not received it is demoted. -/
def State.iaDemotes (s : State) (h : Half) : Bool := s.ia.commitSent && s.inService h && !s.trivetLost

/-- The end of an agreement that has failed for a half, with or without its demotion. -/
def State.iaTimedOut (s : State) (h : Half) (demotes : Bool) : State :=
  if demotes then ((s.iaArrived h).iaFail h false).demote h 0x23 ⟨0x34, 0, 0, 0, 0⟩ else (s.iaArrived h).iaFail h true

theorem exec_iaCommitTimeout (hawait : (s.ia.half h).await = true) (hdue : s.ia.c0 + 12 * usTicks ≤ s.raw)
    (harrives : s.ia.commitSent = false ∨ s.ia.c0 + 12 * usTicks < s.raw ∨ (s.soon fun x => decide (x = .iaCommitReceive h)) = false) :
    exec (.iaCommitTimeout h) s = .next (s.iaTimedOut h (s.iaDemotes h)) := by
  have hnot : (s.ia.commitSent && s.ia.c0 + 12 * usTicks == s.raw && s.soon fun x => decide (x = .iaCommitReceive h)) = false := by
    obtain hs | hlt | hsoon := harrives
    · rw [hs, Bool.false_and, Bool.false_and]
    · rw [beq_eq_false_iff_ne.2 (Nat.ne_of_lt hlt), Bool.and_false, Bool.false_and]
    · rw [hsoon, Bool.and_false]
  have hgo : exec (.iaCommitTimeout h) s =
      if s.iaDemotes h then .next (((s.iaArrived h).iaFail h (!s.iaDemotes h)).demote h 0x23 ⟨0x34, 0, 0, 0, 0⟩)
      else .next ((s.iaArrived h).iaFail h (!s.iaDemotes h)) :=
    if_pos ⟨hawait, hdue, by rw [hnot]; rfl⟩
  rw [hgo]
  cases s.iaDemotes h <;> rfl

theorem exec_iaCommitTimeout_of_not (hno : (s.ia.half h).await = false ∨ s.raw < s.ia.c0 + 12 * usTicks) :
    exec (.iaCommitTimeout h) s = .next s := by
  refine if_neg ?_
  rintro ⟨hawait, hdue, -⟩
  obtain hno | hno := hno
  · simp [hno] at hawait
  · omega

theorem timeout_unsent : ((s.iaTimedOut h false).ia.half h).await = false ∧
    (s.iaTimedOut h false).flag A.TEN_IA_STATUS (lastFailedFld h) = true ∧
    (s.iaTimedOut h false).rd A.TEN_IA_FAIL = satSucc (s.rd A.TEN_IA_FAIL) ∧
    bitAt ((s.iaTimedOut h false).hart (2 * h.n)).latched 0 = true ∧ (s.iaTimedOut h false).chg = s.chg ∧
    (s.iaTimedOut h false).mem = s.mem := by
  obtain ⟨hflag, hcount, hlatch⟩ := iaFail_effects (s.iaArrived h) h true
  have htimed : s.iaTimedOut h false = (s.iaArrived h).iaFail h true := rfl
  rw [htimed]
  refine ⟨?_, hflag, hcount, hlatch, (sameCharge_iaFail _ h true).chg, mem_iaFail _ h true⟩
  rw [half_iaFail]
  exact half_iaArrived s h

theorem timeout_sent (hin : s.inService h = true) (hlost : s.trivetLost = false) :
    (s.iaTimedOut h true).isIn h .demoted 0x23 ∧ (s.iaTimedOut h true).mem = s.mem := by
  have hsame := sameCharge_iaFail (s.iaArrived h) h false
  have hin' : ((s.iaArrived h).iaFail h false).inService h = true := (inService_of_sameCharge _ h hsame).trans hin
  have hlost' : ((s.iaArrived h).iaFail h false).trivetLost = false := hsame.trivetLost.trans hlost
  exact ⟨demote_isIn 0x23 ⟨0x34, 0, 0, 0, 0⟩ hlost' hin', (beside_exits _ _).mem.trans (mem_iaFail _ h false)⟩

theorem keep_foldl {α β : Type} (g : State → α) {f : State → β → State} (hf : ∀ t b, g (f t b) = g t) (bs : List β) (t : State) :
    g (bs.foldl f t) = g t := by
  induction bs generalizing t with
  | nil => rfl
  | cons b bs ih => exact (ih _).trans (hf t b)

theorem rerun_iaFail (log : Bool) : (s.iaFail h log).ia.rerun = s.ia.rerun := by rw [iaFail_eq, ia_iaDone, ia_iaLogged]

theorem ia_iaTake (es : List (Nat × Nat)) : (s.iaTake h es).ia = s.ia := by
  obtain ⟨r, regs, harts, ht⟩ := iaTake_eq s h es
  obtain ⟨mem, hput⟩ := putbs_eq s (bankBase + s.iaDst h) (entryBytes es)
  rw [ht, hput]

/-- An agreement cycle does not end the wait for an additional round. -/
theorem rerun_iaCycle (also : Option Half) (bad : List (Half × Fin 4096)) : (s.iaCycle also bad).ia.rerun = s.ia.rerun := by
  unfold State.iaCycle
  split
  · rfl
  · extract_lets s1 parts two mk i0 ia s2 s3
    split
    · exact keep_foldl (fun t => t.ia.rerun) (fun t g => rerun_iaFail t g true) _ _
    · have h3 : s3.ia = ia := keep_foldl State.ia (fun t g => ia_sendMsg t g _ _ _ _) _ _
      have hia : ia.rerun = s.ia.rerun := rfl
      clear_value s3 ia parts
      split
      · exact (congrArg Ia.rerun ((ia_iaTake s3 _ _).trans h3)).trans hia
      · exact (congrArg Ia.rerun h3).trans hia

/-- The state in which an additional round has begun. -/
def State.iaRerun (s : State) : State :=
  (({ s with ia := { s.ia with rerun := none } } : State).iaCycle none []).setf A.COL_STATUS F.COL_STATUS.IA_RERUN 1

theorem exec_iaRerunStart {c : Nat} (hrerun : s.ia.rerun = some c) (hdue : c ≤ s.raw) : exec .iaRerunStart s = .next s.iaRerun := by
  show execIaRerunStart s = _
  rw [execIaRerunStart, hrerun]
  exact if_neg (Nat.not_lt.2 hdue)

theorem flag_setf_one (a : Nat) (f : Fld) (hf : f.lo ≤ f.hi ∧ f.hi < 32) : (s.setf a f 1).flag a f = true := by
  rw [← State.flag_setb s a f true hf]
  rfl

theorem setf_keeps (a : Nat) (f : Fld) (v : Nat) : (s.setf a f v).ia = s.ia ∧ (s.setf a f v).chg = s.chg := ⟨rfl, rfl⟩

theorem iaRerun_effects : s.iaRerun.ia.rerun = none ∧ s.iaRerun.flag A.COL_STATUS F.COL_STATUS.IA_RERUN = true ∧
    s.iaRerun.chg = s.chg := by
  have hsame := (sameCharge_ia s { s.ia with rerun := none }).trans (sameCharge_iaCycle _ none [])
  have hrerun := rerun_iaCycle { s with ia := { s.ia with rerun := none } } none []
  unfold State.iaRerun
  obtain ⟨hia, hchg⟩ := setf_keeps (({ s with ia := { s.ia with rerun := none } } : State).iaCycle none []) A.COL_STATUS
    F.COL_STATUS.IA_RERUN 1
  rw [hia, hchg]
  exact ⟨hrerun, flag_setf_one _ _ _ (by decide), hsame.chg⟩

/-! ### The configuration's and the halves' own registers -/

theorem exec_iaCtrlWrite (m : Byte) (v : Word) : exec (.iaCtrlWrite m v) s = .next (s.iaCtrlWrite m.toNat v) := rfl

theorem exec_tenAppWrite (m : Byte) (v : Word) : exec (.tenAppWrite m h v) s = .next (s.tenAppWrite m.toNat h v) := rfl

theorem tenAppWrite_own_effects {m : Nat} (v : Word) (hr : s.reaches m (A.TEN_APP h.n) true) (hown : m = 2 + 2 * h.n ∨ m = 3 + 2 * h.n) :
    let t := s.tenAppWrite m h v
    t.resp = some (.ok 0) ∧ t.fld (A.TEN_APP h.n) F.TEN_APP.APP_READY = fget F.TEN_APP.APP_READY v ∧
      t.fld (A.TEN_APP h.n) F.TEN_APP.OUT_VALID = fget F.TEN_APP.OUT_VALID v ∧
      s.regsBut t [A.TEN_APP h.n] ∧ { t with regs := s.regs, resp := s.resp } = s := by
  obtain ⟨hready, hvalid⟩ := tenAppWord_fields s h v
  have hfld : ∀ f, (s.taken (A.TEN_APP h.n) (s.tenAppWord h v)).fld (A.TEN_APP h.n) f = fget f (s.tenAppWord h v) := fun f =>
    congrArg (fget f) (rd_taken s _ _)
  rw [tenAppWrite_own s h v hr hown]
  exact ⟨rfl, (hfld _).trans hready, (hfld _).trans hvalid, regsBut_taken s _ _, frame_taken s _ _⟩

theorem tenAppWrite_other_effects {m : Nat} (v : Word) (hr : s.reaches m (A.TEN_APP h.n) true)
    (hother : m ≠ 2 + 2 * h.n ∧ m ≠ 3 + 2 * h.n) :
    (s.tenAppWrite m h v).resp = some (.err cPerm) ∧ (s.tenAppWrite m h v).rd (A.TEN_APP h.n) = s.rd (A.TEN_APP h.n) := by
  rw [tenAppWrite_other s h v hr (not_or.2 hother)]
  exact ⟨resp_busErr .., rd_busErr_link _ (tenApp_linkReg h)⟩

/-- LAST_FAILED of a half, as the obligation names it. -/
theorem lastFailedFld_eq : lastFailedFld h =
    if h = .k then F.TEN_IA_STATUS.LAST_FAILED_K else F.TEN_IA_STATUS.LAST_FAILED_P := by cases h <;> rfl

end

/-- Settles O23: what an agreement cycle changes is one lemma per part of it (its records, the entries a half takes, its outcome),
and each instruction is the composition of those parts. -/
theorem inputAgreementEffects : Obligations.InputAgreementEffects := by
  intro s h m v e b c r f on dst n failed
  have hfailed : failed = lastFailedFld h := (lastFailedFld_eq h).symm
  refine ⟨exec_iaTrigger_of_not s _, ?_, ?_, ?_, ?_, exec_iaCommitSend_of_not s, ?_, exec_iaCommitReceive_of_not s h, ?_,
    exec_iaCommitTimeout_of_not s h, ?_, fun hr => ⟨_, exec_iaCtrlWrite s m v, iaCtrlWrite_effects s v hr⟩, fun hr => ⟨fun hown => ?_,
    fun hother => ?_⟩⟩
  · rintro ⟨hnew, hresync, hon, hvalid, hk, hp⟩
    exact ⟨_, exec_iaTrigger s ⟨e, b⟩ hnew hresync, trigger_of_both s hon hvalid hk hp⟩
  · rintro ⟨hnew, hresync, hon, hvalid, hin, hout⟩
    rw [hfailed]
    exact ⟨_, exec_iaTrigger s ⟨e, []⟩ hnew hresync, trigger_of_one s h hon hvalid hin hout⟩
  · rintro ⟨hnew, hresync, hfinal, hlost, -, -⟩
    constructor
    · obtain ⟨⟨hst, hcause⟩, hend⟩ :=
        admitHalf_effects ((s.triggered.iaCycle (some r.cand) b).copyGranules r.cand.other r.dirty) r
      exact ⟨_, exec_iaTrigger_final s ⟨false, b⟩ hnew hresync hfinal hlost rfl, hend, hst, hcause⟩
    · obtain ⟨⟨hst, hcause⟩, hend⟩ := trigger_error s r b hlost
      exact ⟨_, exec_iaTrigger_error s ⟨true, b⟩ hnew hresync hfinal hlost rfl, hend, hst, hcause⟩
  · rintro ⟨hk, hp, hrk, hrp, hsent⟩
    exact ⟨_, exec_iaCommitSend s hk hp hrk hrp hsent, commitSend_effects s _ _⟩
  · rintro ⟨hsent, hawait, hk, hp⟩ es
    rw [hfailed]
    exact ⟨_, exec_iaCommitReceive s h hsent hawait, commitReceive_effects s h hk hp⟩
  · rintro ⟨hawait, hdue, harrives⟩
    constructor
    · intro hunsent
      have hstays : s.iaDemotes h = false := by rw [State.iaDemotes, hunsent, Bool.false_and, Bool.false_and]
      have hexec := exec_iaCommitTimeout s h hawait hdue (.inl hunsent)
      rw [hstays] at hexec
      rw [hfailed]
      exact ⟨_, hexec, timeout_unsent s h⟩
    · rintro ⟨hsent, hin, hlost⟩
      have hleaves : s.iaDemotes h = true := by rw [State.iaDemotes, hsent, hin, hlost]; rfl
      have hexec := exec_iaCommitTimeout s h hawait hdue (.inr harrives)
      rw [hleaves] at hexec
      obtain ⟨⟨hst, hcause⟩, hmem⟩ := timeout_sent s h hin hlost
      exact ⟨_, hexec, hst, hcause, hmem⟩
  · rintro ⟨hrerun, hdue⟩
    exact ⟨_, exec_iaRerunStart s hrerun hdue, iaRerun_effects s⟩
  · exact ⟨_, exec_tenAppWrite s h m v, tenAppWrite_own_effects s h v hr hown⟩
  · exact ⟨_, exec_tenAppWrite s h m v, tenAppWrite_other_effects s h v hr hother⟩

end Sys2Proof.Machine
end

section
/-! PROOFS. O31: loads, stores, context flags and END. -/

namespace Sys2Proof.Machine
open Sys2Proof

-- Parallel elaboration holds many stacks at once, and they count towards the memory a check may take.
set_option Elab.async false

/-! ### Bytes and numbers -/

theorem leNat_leBytes (n v : Nat) : leNat (leBytes n v) = v % 256 ^ n := by
  induction n generalizing v with
  | zero => rw [pow_zero, Nat.mod_one]; rfl
  | succ n ih =>
    rw [leBytes, leNat, ih, BitVec.toNat_ofNat, show 256 ^ (n + 1) = 2 ^ 8 * 256 ^ n by ring, Nat.mod_mul]
    rfl

theorem beBytes_length (n v : Nat) : (beBytes n v).length = n := by
  rw [beBytes, List.length_reverse, leBytes_length]

/-- What has been laid over bytes reads there. -/
theorem slice_overlay {bs v : List Byte} {off : Nat} (h : off ≤ bs.length) : slice (overlay bs off v) off v.length = v := by
  have htake : (bs.take off).length = off := by rw [List.length_take, Nat.min_eq_left h]
  rw [slice, overlay, List.append_assoc, List.drop_append_of_le_length (by omega), List.drop_of_length_le (by omega),
    List.nil_append, List.take_append_of_le_length (Nat.le_refl _), List.take_length]

section
variable {s u : State} {i : Nat} {inl : Bool} {op : Nat} {w : ActWord} {r : Recipe} {c c' : ActCtx} {body : WordBody}

/-! ### The word at the action index, without a rival access -/

/-- With no access of another master in the clock, a word that writes the context area executes as any other. -/
theorem actBeside_none : s.actBeside i inl op w body none = s.act i inl op w body := by
  rw [State.actBeside, State.act]
  cases s.actRes i inl op w body <;> rfl

/-- A word that goes on leaves its state with the context put back. -/
theorem act_go (hop : op < 0x30) (h : s.actsWord i inl op w r c) (hb : body i inl w s r c.next = .go u c') :
    s.act i inl op w body = u.putCtx i inl c' := by
  rw [act_of_actsWord hop h, hb]
  rfl

/-- A context put back stands in its engine, and changes no other engine. -/
theorem ctx_putCtx (s : State) (i : Nat) (inl : Bool) (c : ActCtx) :
    (if inl then ((s.putCtx i inl c).eng i).inl else ((s.putCtx i inl c).eng i).evt) = some c := by
  cases inl <;> simp [State.putCtx]

theorem engsBut_putCtx (s : State) (i : Nat) (inl : Bool) (c : ActCtx) : s.engsBut (s.putCtx i inl c) i :=
  fun _ hk => eng_mapEng_other _ _ hk

theorem mem_putCtx (s : State) (i : Nat) (inl : Bool) (c : ActCtx) : (s.putCtx i inl c).mem = s.mem := rfl

/-! ### Bytes written to the local memory -/

/-- A word has written the bytes `bs` at offset `off` of the window of engine i, and its context has gone on as `c'`. -/
def State.StoredN (s t : State) (i : Nat) (inl : Bool) (c' : ActCtx) (off : Nat) (bs : List Byte) : Prop :=
  t.mbs (neWin i + off) bs.length = bs ∧ s.bytesBut t (neWin i + off) bs.length ∧ { t with mem := s.mem } = s.putCtx i inl c'

theorem storedN_putN (off : Nat) (bs : List Byte) : s.StoredN ((s.putN i off bs).putCtx i inl c') i inl c' off bs := by
  refine ⟨(mbs_of_mem (mem_putCtx _ _ _ _) _ _).trans (mbs_putbs s _ bs), fun k hk =>
    (mb_of_mem (mem_putCtx _ _ _ _) _).trans (bytesBut_putbs s _ bs k hk), ?_⟩
  obtain ⟨mem, hput⟩ := putbs_eq s (neWin i + off) bs
  rw [State.putN, hput]
  rfl

/-! ### LD and ST (R223) -/

/-- The bytes that ST writes, in the order that Y[6] gives. -/
def storeBytes (w : ActWord) (c : ActCtx) : List Byte :=
  if bitAt w.y 6 then beBytes (w.y.val % 16) (c.get w.d) else leBytes (w.y.val % 16) (c.get w.d)

theorem storeBytes_length : (storeBytes w c).length = w.y.val % 16 := by
  rw [storeBytes]
  split
  · exact beBytes_length _ _
  · exact leBytes_length _ _

theorem ldstWidth_of (h : w.y.val % 16 = 1 ∨ w.y.val % 16 = 2 ∨ w.y.val % 16 = 4 ∨ w.y.val % 16 = 8) : ldstWidth w = true := by
  have hmem : [1, 2, 4, 8].contains (w.y.val % 16) = true := by
    obtain h | h | h | h := h <;> rw [h] <;> rfl
  have hcast : [1, 2, 4, 8].contains (w.y % 16) = [1, 2, 4, 8].contains (w.y.val % 16) := by
    simp only [List.contains_eq_mem, List.mem_cons, List.not_mem_nil, or_false, Fin.ext_iff]
    rfl
  rw [ldstWidth, hcast, hmem]

/-- A store of a legal width that its area takes. -/
theorem wSt_go (hn : ldstWidth w = true) (hw : s.areaWrite i inl c w.x (ldstOff w c) (storeBytes w c) = some u) :
    wSt i inl w s r c = .go u c := by
  have hw' : s.areaWrite i inl c w.x (ldstOff w c)
      (if bitAt w.y 6 then beBytes (w.y % 16 : Fin 256) (c.get w.d) else leBytes (w.y % 16 : Fin 256) (c.get w.d)) = some u := hw
  simp only [wSt, hn, hw']
  rfl

theorem exec_recSt {i : Fin 24} (h : s.actsWord i inl 0x0B w r c) (hn : ldstWidth w = true)
    (hw : s.areaWrite i inl c.next w.x (ldstOff w c) (storeBytes w c) = some u) :
    exec (.recSt i inl w none) s = .next (u.putCtx i inl c.next) := by
  show Host.Outcome.next (s.actBeside i inl 0x0B w wSt none) = _
  rw [actBeside_none, act_go (by decide) h (wSt_go hn hw)]

theorem areaWrite_vars {off : Nat} {bs : List Byte} (h : off + bs.length ≤ 12) :
    s.areaWrite i inl c 1 off bs = some (s.putN i (16 * c.ctx + 4 + off) bs) := if_pos h

theorem areaWrite_ctxtab {off : Nat} {bs : List Byte} (h : off + bs.length ≤ 4096) :
    s.areaWrite i inl c 6 off bs = some (s.putN i off bs) := if_pos h

theorem areaWrite_build {off : Nat} {bs : List Byte} (h : off + bs.length ≤ 9216) :
    s.areaWrite i inl c 4 off bs = some (s.mapEng i fun e => e.putBuild off bs) := if_pos h

theorem areaWrite_window {off : Nat} {bs : List Byte} (h : off + bs.length ≤ 64) :
    s.areaWrite i true c 7 off bs =
      some (s.mapEng i fun e => { e with frame := e.frame.map fun x => x.write off bs }) := if_pos ⟨rfl, h⟩

/-- Bytes stored to the build buffer read there, and nothing but the engine changes. -/
theorem build_effect (off : Nat) (bs : List Byte) :
    let t := (s.mapEng i fun e => e.putBuild off bs).putCtx i inl c'
    slice (t.eng i).build off bs.length = bs ∧ t.mem = s.mem ∧ s.engsBut t i ∧ { t with ne := s.ne } = s := by
  refine ⟨?_, (putEng_mem ..).trans (putEng_mem ..), fun k hk => ?_, (setNe_putEng ..).trans (setNe_putEng ..)⟩
  · have hbuild : (((s.mapEng i fun e => e.putBuild off bs).putCtx i inl c').eng i).build = ((s.eng i).putBuild off bs).build := by
      cases inl <;> simp [State.putCtx]
    rw [hbuild]
    exact slice_overlay (by rw [padTo_length]; omega)
  · rw [engsBut_putCtx _ _ _ _ k hk, eng_mapEng_other _ _ hk]

/-- Bytes stored to the window of the passing frame are written there. -/
theorem window_effect (off : Nat) (bs : List Byte) :
    let t := (s.mapEng i fun e => { e with frame := e.frame.map fun x => x.write off bs }).putCtx i true c'
    (t.eng i).frame = (s.eng i).frame.map (fun x => x.write off bs) ∧ (t.eng i).inl = some c' ∧ s.engsBut t i ∧
      { t with ne := s.ne } = s := by
  refine ⟨?_, ctx_putCtx _ _ true _, fun k hk => ?_, (setNe_putEng ..).trans (setNe_putEng ..)⟩
  · simp [State.putCtx]
  · rw [engsBut_putCtx _ _ _ _ k hk, eng_mapEng_other _ _ hk]

/-! ### FSET and FCLR -/

theorem ctxFlags_lt (s : State) (i k : Nat) : s.ctxFlags i k < 65536 := by
  have := leNat_lt (s.mbs (neWin i + (16 * k + 2)) 2)
  rwa [length_mbs] at this

/-- The flags of the context after a word that replaces them. -/
theorem flags_effect {v : Nat} (hv : v < 65536) :
    let t := (s.putN i (16 * c.ctx + 2) (leBytes 2 v)).putCtx i inl c'
    t.ctxFlags i c.ctx = v ∧ s.bytesBut t (neWin i + (16 * c.ctx + 2)) 2 ∧ { t with mem := s.mem } = s.putCtx i inl c' := by
  obtain ⟨hread, hbut, hframe⟩ := storedN_putN (s := s) (i := i) (inl := inl) (c' := c') (16 * c.ctx + 2) (leBytes 2 v)
  rw [leBytes_length] at hread hbut
  refine ⟨?_, hbut, hframe⟩
  rw [State.ctxFlags, State.nrd, State.mrd, hread, leNat_leBytes]
  exact Nat.mod_eq_of_lt hv

/-- A word that replaces the flags of the context by a function of them. -/
theorem actBeside_flags {f : Nat → Nat → Nat} (hop : op < 0x30) (h : s.actsWord i inl op w r c) :
    s.actBeside i inl op w (wFlags f) none =
      (s.putN i (16 * c.ctx + 2) (leBytes 2 (f (s.ctxFlags i c.ctx) (w.imm.toNat % 65536)))).putCtx i inl c.next := by
  rw [actBeside_none, act_go hop h]
  rfl

/-! ### END of the event context (R218) -/

theorem exec_recEnd {i : Fin 24} (h : s.actsWord i false 0x00 w r c) :
    exec (.recEnd i false w none) s = .next (s.evtEnd i c.ctx (c.setst <|> c.nextSt)) := by
  show Host.Outcome.next (s.actBeside i false 0x00 w wEnd none) = _
  rw [actBeside_none, act_of_actsWord (by decide) h]
  rfl

/-- The end of an event, whatever state it leaves: it is counted, and the event context is idle. -/
theorem evtEnd_effects (ctx : Nat) (dest : Option Nat) :
    let t := s.evtEnd i ctx dest
    (t.eng i).evt = none ∧ t.rd (A.NE_EVT_DONE i) = satSucc (s.rd (A.NE_EVT_DONE i)) ∧ s.regsBut t [A.NE_EVT_DONE i] ∧
      s.engsBut t i := by
  obtain ⟨mem, hmem⟩ : ∃ mem, s.evtEnd i ctx dest =
      (({ s with mem := mem } : State).mapEng i fun e => { e with evt := none }).inc (A.NE_EVT_DONE i) := by
    cases dest with
    | none => exact ⟨s.mem, rfl⟩
    | some st =>
      obtain ⟨mem, hput⟩ := putbs_eq s (neWin i + 16 * ctx) (leBytes 2 st)
      exact ⟨mem, by simp only [State.evtEnd, State.putN, hput]⟩
  rw [hmem]
  refine ⟨?_, ?_, fun a ha => ?_, fun k hk => ?_⟩
  · rw [State.inc, State.eng_wr, eng_mapEng_self]
  · rw [State.rd_inc, if_pos rfl]
    rfl
  · rw [State.rd_inc, if_neg (List.ne_of_not_mem_cons ha)]
    rfl
  · rw [State.inc, State.eng_wr, eng_mapEng_other _ _ hk]
    rfl

/-- An event that ends in a state writes it to its context. -/
theorem evtEnd_some_state (ctx st : Nat) :
    let t := s.evtEnd i ctx (some st)
    t.ctxState i ctx = st % 65536 ∧ s.bytesBut t (neWin i + 16 * ctx) 2 := by
  have hmem : (s.evtEnd i ctx (some st)).mem = (s.putN i (16 * ctx) (leBytes 2 st)).mem := rfl
  have hread := mbs_putbs s (neWin i + 16 * ctx) (leBytes 2 st)
  have hbut := bytesBut_putbs s (neWin i + 16 * ctx) (leBytes 2 st)
  rw [leBytes_length] at hread hbut
  refine ⟨?_, fun k hk => (mb_of_mem hmem k).trans (hbut k hk)⟩
  rw [State.ctxState, State.nrd, State.mrd, mbs_of_mem hmem, State.putN, hread, leNat_leBytes]
  rfl

end

/-- Settles O31: each word is one state, and each area that a store writes has its rule. -/
theorem actionWordMemory : Obligations.ActionWordMemory := by
  intro s i inl w r c bs st n off v vars fl
  refine ⟨?ld, ?vars, ?ctxtab, ?build, ?window, ?fset, ?fclr, ?endTo, ?endStay⟩
  case ld =>
    rintro ⟨h, hn, hread⟩
    have hb : (if !ldstWidth w then ActRes.fault 2
        else match s.areaRead i inl r c.next w.x (ldstOff w c.next) (w.y % 16) with
          | some bs => .go s (c.next.put w.d (if bitAt w.y 6 then beNat bs else leNat bs))
          | none => .fault 2) = .go s (c.next.put w.d (if bitAt w.y 6 then beNat bs else leNat bs)) := by
      have hread' : s.areaRead i inl r c.next w.x (ldstOff w c.next) (w.y % 16) = some bs := hread
      rw [ldstWidth_of hn, hread']
      rfl
    exact congrArg Host.Outcome.next (act_go (by decide) h hb)
  case vars =>
    rintro ⟨h, hn, hx, hoff⟩
    have hlen : (storeBytes w c).length = n := storeBytes_length
    obtain ⟨hread, hbut, hframe⟩ := storedN_putN (s := s) (i := i) (inl := inl) (c' := c.next) (16 * c.ctx + 4 + off) (storeBytes w c)
    have haddr : neWin i + (16 * c.ctx + 4 + off) = vars + off := (Nat.add_assoc _ _ _).symm
    rw [hlen, haddr] at hread hbut
    refine ⟨_, exec_recSt h (ldstWidth_of hn) ?_, hread, hbut, hframe⟩
    rw [hx]
    exact areaWrite_vars (by rw [hlen]; exact hoff)
  case ctxtab =>
    rintro ⟨h, hn, hx, hoff⟩
    have hlen : (storeBytes w c).length = n := storeBytes_length
    obtain ⟨hread, hbut, hframe⟩ := storedN_putN (s := s) (i := i) (inl := inl) (c' := c.next) off (storeBytes w c)
    rw [hlen] at hread hbut
    refine ⟨_, exec_recSt h (ldstWidth_of hn) ?_, hread, hbut, hframe⟩
    rw [hx]
    exact areaWrite_ctxtab (by rw [hlen]; exact hoff)
  case build =>
    rintro ⟨h, hn, hx, hoff⟩
    have hlen : (storeBytes w c).length = n := storeBytes_length
    obtain ⟨hread, heffect⟩ := build_effect (s := s) (i := i) (inl := inl) (c' := c.next) off (storeBytes w c)
    rw [hlen] at hread
    refine ⟨_, exec_recSt h (ldstWidth_of hn) ?_, hread, heffect⟩
    rw [hx]
    exact areaWrite_build (by rw [hlen]; exact hoff)
  case window =>
    rintro ⟨h, hn, hx, rfl, hoff⟩
    refine ⟨_, exec_recSt h (ldstWidth_of hn) ?_, window_effect off (storeBytes w c)⟩
    rw [hx]
    exact areaWrite_window (by rw [storeBytes_length]; exact hoff)
  case fset =>
    intro h
    refine ⟨_, congrArg Host.Outcome.next (actBeside_flags (by decide) h), flags_effect ?_⟩
    exact Nat.or_lt_two_pow (n := 16) (ctxFlags_lt s i c.ctx) (Nat.mod_lt _ (by decide))
  case fclr =>
    intro h
    refine ⟨_, congrArg Host.Outcome.next (actBeside_flags (by decide) h), flags_effect ?_⟩
    exact Nat.and_lt_two_pow (n := 16) _ (by omega)
  case endTo =>
    rintro ⟨h, hdest⟩
    have hd : (c.setst <|> c.nextSt) = some st := by
      obtain hd | ⟨hd, hn⟩ := hdest
      · rw [hd]; rfl
      · rw [hd, hn]; rfl
    obtain ⟨hevt, hdone, hregs, hengs⟩ := evtEnd_effects (s := s) (i := i) c.ctx (some st)
    obtain ⟨hstate, hbytes⟩ := evtEnd_some_state (s := s) (i := i) c.ctx st
    refine ⟨_, exec_recEnd h, ?_⟩
    rw [hd]
    exact ⟨hevt, hstate, hdone, hbytes, hregs, hengs⟩
  case endStay =>
    rintro ⟨h, hset, hnext⟩
    obtain ⟨hevt, hdone, hregs, hengs⟩ := evtEnd_effects (s := s) (i := i) c.ctx none
    refine ⟨_, exec_recEnd h, ?_⟩
    rw [hset, hnext]
    exact ⟨hevt, rfl, hdone, hregs, hengs⟩

end Sys2Proof.Machine
end

section
/-! PROOFS. What changes one Needle engine and some of its registers, and nothing else: pending events and doorbells. -/

namespace Sys2Proof.Machine
open Sys2Proof

-- Parallel elaboration holds many stacks at once, and they count towards the memory a check may take.
set_option Elab.async false

/-- Of the Needle engines only engine i has changed, of the registers only those listed, and nothing else. -/
structure State.EngOnly (s t : State) (i : Nat) (as : List Nat) : Prop where
  regs : s.regsBut t as
  engs : s.engsBut t i
  rest : { t with regs := s.regs, ne := s.ne } = s

section
variable {s t u : State} {i : Nat} {as bs : List Nat}

theorem State.EngOnly.refl : s.EngOnly s i as := ⟨fun _ _ => rfl, fun _ _ => rfl, rfl⟩

theorem State.EngOnly.trans (h : s.EngOnly t i as) (k : t.EngOnly u i as) : s.EngOnly u i as where
  regs a ha := (k.regs a ha).trans (h.regs a ha)
  engs j hj := (k.engs j hj).trans (h.engs j hj)
  rest := (congrArg (fun x : State => { x with regs := s.regs, ne := s.ne }) k.rest).trans h.rest

theorem State.EngOnly.mono (h : s.EngOnly t i as) (hsub : as ⊆ bs) : s.EngOnly t i bs :=
  ⟨fun a ha => h.regs a fun hmem => ha (hsub hmem), h.engs, h.rest⟩

theorem State.EngOnly.ite {c : Prop} [Decidable c] (h : s.EngOnly t i as) (k : s.EngOnly u i as) :
    s.EngOnly (if c then t else u) i as := by
  split <;> assumption

theorem engOnly_foldl {β : Type} {f : State → β → State} (hf : ∀ (s : State) b, s.EngOnly (f s b) i as) (xs : List β) (s : State) :
    s.EngOnly (xs.foldl f s) i as := by
  induction xs generalizing s with
  | nil => exact .refl
  | cons x xs ih => exact (hf s x).trans (ih _)

theorem engOnly_wr (s : State) (i : Nat) {a : Nat} (w : Word) (ha : a ∈ as) : s.EngOnly (s.wr a w) i as :=
  ⟨fun b hb => State.rd_wr_other s a b w fun h => hb (h ▸ ha), fun _ _ => rfl, rfl⟩

theorem engOnly_putEng (s : State) (i : Nat) (e : Engine) : s.EngOnly (s.putEng i e) i as :=
  ⟨fun _ _ => rfl, fun _ hk => eng_putEng_other s e hk, rfl⟩

/-- What is none of the registers and none of the engines is as it was. -/
theorem State.EngOnly.part {α : Type} (h : s.EngOnly t i as) (g : State → α)
    (hg : ∀ (x : State) regs ne, g { x with regs := regs, ne := ne } = g x := by intros; rfl) : g t = g s :=
  (hg t s.regs s.ne).symm.trans (congrArg g h.rest)

theorem State.EngOnly.mem (h : s.EngOnly t i as) : t.mem = s.mem := h.part State.mem
theorem State.EngOnly.raw (h : s.EngOnly t i as) : t.raw = s.raw := h.part State.raw
theorem State.EngOnly.now (h : s.EngOnly t i as) : t.now = s.now := h.part State.now
theorem State.EngOnly.resp (h : s.EngOnly t i as) : t.resp = s.resp := h.part State.resp

/-! ### Pending events and doorbells (R172) -/

theorem engOnly_nePend (s : State) (i : Nat) (p : Pend) : s.EngOnly (s.nePend i p) i [A.NE_EVT_MERGE i] :=
  .ite (.ite (engOnly_wr s i _ (List.mem_singleton_self _)) (engOnly_putEng s i _)) .refl

/-- The registers that a doorbell write of engine i may change. -/
abbrev bellRegs (i : Nat) : List Nat := [A.NE_DOORBELL i, A.NE_EVT_MERGE i]

theorem engOnly_rings (s : State) (i bits : Nat) : s.EngOnly (s.rings i bits) i as := engOnly_putEng s i _

theorem engOnly_neBell (s : State) (i bits : Nat) : s.EngOnly (s.neBell i bits) i (bellRegs i) := by
  refine (engOnly_rings s i bits).trans (.trans (engOnly_foldl (fun s b => ?_) _ _) (engOnly_wr _ i _ (by simp)))
  exact .ite (.ite ((engOnly_nePend s i _).mono (by simp)) (.ite (engOnly_wr s i _ (by simp)) .refl)) .refl

end

end Sys2Proof.Machine
end

section
/-! PROOFS. O35: the action words of timers, the Gauge, Hook FIFOs and mailboxes. -/

namespace Sys2Proof.Machine
open Sys2Proof

-- Parallel elaboration holds many stacks at once, and they count towards the memory a check may take.
set_option Elab.async false

section
variable {s u : State} {i : Nat} {inl : Bool} {op : Nat} {w : ActWord} {r : Recipe} {c c' : ActCtx} {body : WordBody}

theorem rd_putCtx (s : State) (i : Nat) (inl : Bool) (c : ActCtx) (a : Nat) : (s.putCtx i inl c).rd a = s.rd a := rfl

theorem flag_putCtx (s : State) (i : Nat) (inl : Bool) (c : ActCtx) (a : Nat) (f : Fld) : (s.putCtx i inl c).flag a f = s.flag a f := rfl

theorem rdn_putCtx (s : State) (i : Nat) (inl : Bool) (c : ActCtx) (a : Nat) : (s.putCtx i inl c).rdn a = s.rdn a := rfl

theorem full_putCtx (s : State) (i : Nat) (inl : Bool) (c : ActCtx) (ch : Nat) : (s.putCtx i inl c).mbxFull ch = s.mbxFull ch := rfl

theorem regsBut_putCtx {as : List Nat} (h : s.regsBut u as) : s.regsBut (u.putCtx i inl c) as := fun a ha =>
  (rd_putCtx u i inl c a).trans (h a ha)

/-! ### Timers (R233) -/

theorem eng_putCtx_of {P : Engine → Prop} (hP : ∀ e x y, P e → P { e with evt := x, inl := y }) (h : P (s.eng i)) :
    P ((s.putCtx i inl c').eng i) := by
  rw [State.putCtx, eng_mapEng_self]
  cases inl
  · exact hP _ _ (s.eng i).inl h
  · exact hP _ (s.eng i).evt _ h

theorem timer_putTimer (e : Engine) (x : Nat) (t : Timer) : (e.putTimer x t).timer x = t := storeGet_put_self _ _ _ _

/-- The engine after a word that puts timer x and clears its pending expiry. -/
def Engine.retimed (e : Engine) (x : Nat) (t : Timer) : Engine := (e.clearExpiry x).putTimer x t

theorem retimed_effect (x : Nat) (t : Timer) :
    let u := (s.mapEng i fun e => e.retimed x t).putCtx i inl c'
    ((if inl then (u.eng i).inl else (u.eng i).evt) = some c' ∧ s.engsBut u i) ∧ { u with ne := s.ne } = s ∧
      (u.eng i).timer x = t ∧ ((u.eng i).pend.all fun p => !(p.prio == prTimer && p.idx == x)) = true := by
  have heng : ((s.mapEng i fun e => e.retimed x t).eng i) = (s.eng i).retimed x t := eng_mapEng_self _ _ _
  refine ⟨⟨ctx_putCtx _ _ _ _, fun k hk => ?_⟩, (setNe_putEng ..).trans (setNe_putEng ..), ?_, ?_⟩
  · rw [engsBut_putCtx _ _ _ _ k hk, eng_mapEng_other _ _ hk]
  · refine eng_putCtx_of (P := fun e => e.timer x = t) (fun _ _ _ h => h) ?_
    rw [heng]
    exact timer_putTimer _ _ _
  · refine eng_putCtx_of (P := fun e => (e.pend.all fun p => !(p.prio == prTimer && p.idx == x)) = true) (fun _ _ _ h => h) ?_
    rw [heng]
    exact List.all_eq_true.2 fun p hp => (List.mem_filter.1 hp).2

/-- The timer that TSTART arms. -/
def startedTimer (raw : Nat) (w : ActWord) (c : ActCtx) (t : Timer) : Timer :=
  { t with armed := true, expiry := rawMod (raw + w.imm.toNat), interval := w.imm.toNat, periodic := bitAt w.y 0,
           ctx := if bitAt w.y 1 then c.ctx else t.ctx }

theorem exec_recTstart {i : Fin 24} (h : s.actsWord i inl 0x25 w r c) (himm : 0 < w.imm.toNat) :
    exec (.recTstart i inl w) s = .next ((s.mapEng i fun e =>
      e.retimed (w.x.val % 16) (startedTimer s.raw w c.next (e.timer (w.x.val % 16)))).putCtx i inl c.next) := by
  refine congrArg Host.Outcome.next (act_go (by decide) h ?_)
  exact if_neg (Nat.pos_iff_ne_zero.1 himm)

theorem exec_recTstop {i : Fin 24} (h : s.actsWord i inl 0x26 w r c) :
    exec (.recTstop i inl w) s = .next ((s.mapEng i fun e =>
      e.retimed (w.x.val % 16) { e.timer (w.x.val % 16) with armed := false }).putCtx i inl c.next) :=
  congrArg Host.Outcome.next (act_go (by decide) h rfl)

/-! ### The Gauge (R236) -/

/-- A field register holds 64 bits. -/
theorem put_congr {d a b : Nat} (h : a % 2 ^ 64 = b % 2 ^ 64) : c.put d a = c.put d b := by
  rw [ActCtx.put, ActCtx.put, show BitVec.ofNat 64 a = BitVec.ofNat 64 b from BitVec.eq_of_toNat_eq (by simpa using h)]

theorem exec_recGtime_raw {i : Fin 24} {lag : Fin 5} (h : s.actsWord i inl 0x27 w r c) (hy : w.y = 0) (hlag : lag.val ≤ s.raw) :
    exec (.recGtime i inl w lag) s = .next (s.putCtx i inl (c.next.put w.d (s.raw - lag))) := by
  have hraw : rawMod (s.raw + (2 ^ 64 - lag.val)) % 2 ^ 64 = (s.raw - lag.val) % 2 ^ 64 := by
    rw [rawMod, Nat.mod_mod, show s.raw + (2 ^ 64 - lag.val) = s.raw - lag.val + 2 ^ 64 by omega, Nat.add_mod_right]
  rw [← put_congr hraw]
  refine congrArg Host.Outcome.next (act_go (by decide) h ?_)
  exact if_pos (by rw [hy]; rfl)

theorem exec_recGtime_stamp {i : Fin 24} {lag : Fin 5} {st : Nat} (h : s.actsWord i inl 0x27 w r c) (hy : w.y ≠ 0)
    (hst : s.inputStamp i inl c = some st) :
    exec (.recGtime i inl w lag) s = .next (s.putCtx i inl (c.next.put w.d st)) := by
  have hst' : s.inputStamp i inl c.next = some st := hst
  refine congrArg Host.Outcome.next (act_go (by decide) h ?_)
  refine (if_neg fun h0 => hy (Fin.ext h0)).trans ?_
  rw [hst']

/-! ### Hook FIFOs -/

/-- The threshold event of a Hook engine changes no other Hook engine, and no memory. -/
theorem hkEdge_frame (s : State) (e : Nat) (on was : Bool) : s.hooksBut (s.hkEdge e on was) e ∧ (s.hkEdge e on was).mem = s.mem := by
  unfold State.hkEdge
  split
  · next i _ =>
    split
    · refine ⟨fun k hk => ?_, (engOnly_nePend s i _).mem⟩
      rw [State.hkRaise, hook_mapHook, if_neg hk, hook_nePend]
    · split
      · unfold State.hkWithdraw
        refine ⟨fun k hk => ?_, ?_⟩
        · rw [hook_mapHook, if_neg hk]
          split
          · exact putEng_hook _ _ _ _
          · exact State.hook_wr _ _ _ _
        · show State.mem (if _ then _ else _) = _
          split
          · exact putEng_mem _ _ _
          · exact State.wr_mem _ _ _
      · exact ⟨fun _ _ => rfl, rfl⟩
  · exact ⟨fun _ _ => rfl, rfl⟩

theorem putFifos_frame (s : State) (e : Nat) (tx rx : List Word) :
    s.hooksBut (s.putFifos e tx rx) e ∧ (s.putFifos e tx rx).mem = s.mem := by
  obtain ⟨hhooks, hmem⟩ := hkEdge_frame (s.hkLevels e { (s.hook e).opened s.hkClock with tx := tx, rx := rx }) e
    (s.hkCrossed e ((s.hook e).opened s.hkClock) tx.length rx.length) (((s.hook e).opened s.hkClock).thr != 0)
  refine ⟨fun k hk => (hhooks k hk).trans ?_, hmem.trans ?_⟩
  · rw [State.hkLevels, State.setf, State.hook_wr, State.setf, State.hook_wr]
    exact storeGet_put_other _ _ _ hk
  · rw [State.hkLevels, State.setf, State.wr_mem, State.setf, State.wr_mem]
    rfl

/-- The FIFOs of a Hook engine as a word puts them, and what it leaves. -/
theorem fifo_effect (e : Nat) (tx rx : List Word) :
    let t := (s.putFifos e tx rx).putCtx i false c'
    (t.eng i).evt = some c' ∧ (t.hook e).tx = tx ∧ (t.hook e).rx = rx ∧ s.hooksBut t e ∧ t.mem = s.mem := by
  obtain ⟨htx, hrx⟩ := fifos_putFifos s e tx rx
  obtain ⟨hhooks, hmem⟩ := putFifos_frame s e tx rx
  refine ⟨evt_putCtx _ _ _, ?_, ?_, fun k hk => (hook_putCtx _ _ _ k).trans (hhooks k hk), (mem_putCtx ..).trans hmem⟩
  · rw [hook_putCtx, htx]
  · rw [hook_putCtx, hrx]

theorem wHkput_wait (hbound : s.boundHk i (w.x % 8) = true) (hfull : 8 ≤ (s.hook (wordHook i w)).tx.length) :
    wHkput i false w s r c = .wait := by
  have hput : s.hkPut (i / 12 * 8 + w.x % 8) (BitVec.ofNat 32 (c.get w.a)) = none := if_neg (Nat.not_lt.2 hfull)
  rw [wHkput, if_neg (by simp [hbound]), hput]

theorem wHkget_wait (hbound : s.boundHk i (w.x % 8) = true) (hempty : (s.hook (wordHook i w)).rx = []) :
    wHkget i false w s r c = .wait := by
  have hget : s.hkGet (i / 12 * 8 + w.x % 8) = none := by
    rw [State.hkGet, show (s.hook (i / 12 * 8 + w.x % 8)).rx = [] from hempty]
  rw [wHkget, if_neg (by simp [hbound]), hget]

/-! ### Mailboxes (R235, R589) -/

theorem boundMbx_of {ch : Nat} (hbound : s.mbxBound ch = true) (hsend : s.mbxSender ch = 0x10 + i) : s.boundMbx i ch = true := by
  simp [State.boundMbx, hbound, hsend]

/-- The words that MBPOST posts. -/
def postWords (w : ActWord) (c : ActCtx) : List Nat :=
  (List.range w.y.val).map fun k => c.get (w.a + k / 2) / 2 ^ (32 * (k % 2)) % 2 ^ 32

theorem exec_recMbpost {i : Fin 24} (h : s.actsWord i false 0x2A w r c) (hbound : s.mbxBound (w.imm.toNat % 64) = true)
    (hsend : s.mbxSender (w.imm.toNat % 64) = 0x10 + i) (hpos : 1 ≤ w.y.val) (hlen : w.y.val ≤ 8)
    (hregs : w.a.val + (w.y.val - 1) / 2 ≤ 15) :
    exec (.recMbpost i false w) s = .next ((s.mbxPost (w.imm.toNat % 64) (postWords w c.next)).putCtx i false c.next) := by
  refine congrArg Host.Outcome.next (act_go (by decide) h ?_)
  refine if_neg ?_
  rw [boundMbx_of hbound hsend]
  simp only [Bool.not_true, Bool.false_eq_true, false_or]
  omega

theorem exec_recBell {i : Fin 24} (h : s.actsWord i inl 0x2B w r c) (hbound : s.mbxBound (w.imm.toNat % 64) = true)
    (hsend : s.mbxSender (w.imm.toNat % 64) = 0x10 + i) :
    exec (.recBell i inl w) s = .next ((s.mbxRing (w.imm.toNat % 64)).putCtx i inl c.next) := by
  refine congrArg Host.Outcome.next (act_go (by decide) h ?_)
  refine if_neg ?_
  rw [boundMbx_of hbound hsend]
  decide

/-- The state in which channel ch has been rung while it was empty: it is FULL and the ring is counted. -/
def State.rung (s : State) (ch : Nat) : State :=
  ((s.inc (A.MBX_RING_CNT ch)).noteBefore ((s.inc (A.MBX_RING_CNT ch)).mbxSender ch) (A.MBX_STATUS ch)).setf
    (A.MBX_STATUS ch) F.MBX_STATUS.FULL 1

theorem rd_noteBefore (s : State) (m a b : Nat) : (s.noteBefore m a).rd b = s.rd b := rfl

theorem rd_rung (s : State) (ch b : Nat) (hb : b ≠ A.MBX_STATUS ch) : (s.rung ch).rd b = (s.inc (A.MBX_RING_CNT ch)).rd b := by
  rw [State.rung, State.rd_setf, if_neg hb, rd_noteBefore]

theorem mem_rung (s : State) (ch : Nat) : (s.rung ch).mem = s.mem := by
  rw [State.rung, State.setf, State.wr_mem, State.noteBefore, State.inc, State.wr_mem]

theorem receiver_rung (s : State) {ch : Nat} (hch : ch < 64) : (s.rung ch).mbxReceiver ch = s.mbxReceiver ch := by
  have hne : A.MBX_BIND ch ≠ A.MBX_STATUS ch ∧ A.MBX_BIND ch ≠ A.MBX_RING_CNT ch := by
    simp only [A.MBX_BIND, A.MBX_STATUS, A.MBX_RING_CNT]; omega
  simp only [State.mbxReceiver, State.fld, rd_rung _ _ _ hne.1, State.rd_inc, if_neg hne.2]

theorem mbxRing_of_empty {ch : Nat} (hch : ch < 64) (hwas : s.mbxWasFull ch = false) :
    s.mbxRing ch = if 0x10 ≤ s.mbxReceiver ch ∧ s.mbxReceiver ch < 0x28 then
      (s.rung ch).neBell (s.mbxReceiver ch - 0x10) (2 ^ (ch % 32)) else s.rung ch := by
  rw [← receiver_rung s hch]
  simp only [State.mbxRing, hwas, Bool.false_eq_true, if_false]
  rfl

/-- Ringing an empty channel changes nothing but its STATUS and RING_CNT, and, where a Needle receives it, that engine's doorbell. -/
theorem mbxRing_effect {ch : Nat} (hch : ch < 64) (hwas : s.mbxWasFull ch = false) :
    (s.mbxRing ch).mem = s.mem ∧ (∀ b, 0x33000000 ≤ b → (s.mbxRing ch).rd b = (s.rung ch).rd b) ∧
      (¬ (0x10 ≤ s.mbxReceiver ch ∧ s.mbxReceiver ch < 0x28) → s.mbxRing ch = s.rung ch) := by
  rw [mbxRing_of_empty hch hwas]
  have hbell := engOnly_neBell (s.rung ch) (s.mbxReceiver ch - 0x10) (2 ^ (ch % 32))
  refine ⟨?_, fun b hb => ?_, fun hfar => if_neg hfar⟩
  · split
    · exact hbell.mem.trans (mem_rung s ch)
    · exact mem_rung s ch
  · split
    · next hnear =>
      refine hbell.regs b ?_
      simp only [bellRegs, List.mem_cons, List.not_mem_nil, or_false, A.NE_DOORBELL, A.NE_EVT_MERGE]
      omega
    · rfl

theorem full_rung (s : State) (ch : Nat) : (s.rung ch).mbxFull ch = true := flag_setf_one _ _ _ (by decide)

/-- FULL is set, and the ring counted. -/
theorem mbxRing_full {ch : Nat} (hch : ch < 64) (hwas : s.mbxWasFull ch = false) :
    (s.mbxRing ch).mbxFull ch = true ∧ (s.mbxRing ch).rd (A.MBX_RING_CNT ch) = satSucc (s.rd (A.MBX_RING_CNT ch)) := by
  obtain ⟨-, hrd, -⟩ := mbxRing_effect hch hwas
  constructor
  · have hfull := full_rung s ch
    rw [State.mbxFull, State.flag, State.fld] at hfull ⊢
    rwa [hrd _ (by rw [A.MBX_STATUS]; omega)]
  · rw [hrd _ (by rw [A.MBX_RING_CNT]; omega), rd_rung _ _ _ (by simp only [A.MBX_STATUS, A.MBX_RING_CNT]; omega), State.rd_inc,
      if_pos rfl]

theorem regsBut_rung (s : State) (ch : Nat) : s.regsBut (s.rung ch) [A.MBX_STATUS ch, A.MBX_RING_CNT ch] := fun b hb => by
  simp only [List.mem_cons, List.not_mem_nil, or_false, not_or] at hb
  rw [rd_rung _ _ _ hb.1, State.rd_inc, if_neg hb.2]

/-- A ring of a full channel merges. -/
theorem mbxRing_merged {ch : Nat} (hwas : s.mbxWasFull ch = true) (hfull : s.mbxFull ch = true) :
    s.mbxRing ch = (s.inc (A.MBX_RING_CNT ch)).setf (A.MBX_STATUS ch) F.MBX_STATUS.MERGED 1 := by
  have hne : A.MBX_STATUS ch ≠ A.MBX_RING_CNT ch := by simp only [A.MBX_STATUS, A.MBX_RING_CNT]; omega
  have hf : (s.inc (A.MBX_RING_CNT ch)).mbxFull ch = true := by
    rw [State.mbxFull, State.flag, State.fld, State.rd_inc, if_neg hne]
    exact hfull
  simp only [State.mbxRing, hwas, hf, if_true]

theorem merged_effect {ch : Nat} (hfull : s.mbxFull ch = true) :
    let t := (s.inc (A.MBX_RING_CNT ch)).setf (A.MBX_STATUS ch) F.MBX_STATUS.MERGED 1
    t.mbxFull ch = true ∧ t.flag (A.MBX_STATUS ch) F.MBX_STATUS.MERGED = true ∧
      t.rd (A.MBX_RING_CNT ch) = satSucc (s.rd (A.MBX_RING_CNT ch)) ∧ s.regsBut t [A.MBX_STATUS ch, A.MBX_RING_CNT ch] ∧
      t.mem = s.mem := by
  have hne : A.MBX_STATUS ch ≠ A.MBX_RING_CNT ch := by simp only [A.MBX_STATUS, A.MBX_RING_CNT]; omega
  refine ⟨?_, flag_setf_one _ _ _ (by decide), ?_, fun b hb => ?_, ?_⟩
  · rw [State.mbxFull, State.flag, fld_setf_apart _ _ _ _ _ (by decide), State.fld, State.rd_inc, if_neg hne]
    exact hfull
  · rw [State.rd_setf, if_neg hne.symm, State.rd_inc, if_pos rfl]
  · simp only [List.mem_cons, List.not_mem_nil, or_false, not_or] at hb
    rw [State.rd_setf, if_neg hb.1, State.rd_inc, if_neg hb.2]
  · rw [State.setf, State.wr_mem, State.inc, State.wr_mem]

/-! The words of a post. -/

theorem rd_wrWords_getElem (s : State) (a : Nat) (ws : List Nat) (k : Nat) (hk : k < ws.length) :
    (s.wrWords a ws).rd (a + 4 * k) = BitVec.ofNat 32 ws[k] := by
  induction ws generalizing s a k with
  | nil => cases hk
  | cons x xs ih =>
    cases k with
    | zero => rw [State.wrWords, rd_wrWords_outside _ _ _ _ (.inl (by omega)), Nat.mul_zero, Nat.add_zero, State.rd_wrn, if_pos rfl]; rfl
    | succ k =>
      rw [State.wrWords, show a + 4 * (k + 1) = a + 4 + 4 * k by ring, ih _ _ _ (Nat.lt_of_succ_lt_succ hk)]
      rfl

theorem rd_wrWords_other (s : State) (a : Nat) (ws : List Nat) (b : Nat) (hb : b ∉ (List.range ws.length).map fun k => a + 4 * k) :
    (s.wrWords a ws).rd b = s.rd b := by
  induction ws generalizing s a with
  | nil => rfl
  | cons x xs ih =>
    simp only [List.mem_map, List.mem_range, List.length_cons, not_exists, not_and] at hb
    have h0 := hb 0 (Nat.succ_pos _)
    rw [State.wrWords, ih, State.rd_wrn, if_neg (by omega)]
    simp only [List.mem_map, List.mem_range, not_exists, not_and]
    intro k hk
    have := hb (k + 1) (Nat.succ_lt_succ hk)
    omega

/-- What a post to an empty channel rings: the channel with its words put. -/
def State.posted (s : State) (ch : Nat) (ws : List Nat) : State := s.wrWords (A.MBX_MSG ch 0) ws

theorem rd_posted_above (s : State) (ch : Nat) {ws : List Nat} (hlen : ws.length ≤ 8) {b : Nat} (hb : A.MBX_MSG ch 0 + 0x20 ≤ b) :
    (s.posted ch ws).rd b = s.rd b := rd_wrWords_outside s _ _ _ (.inr (by omega))

theorem mem_posted (s : State) (ch : Nat) (ws : List Nat) : (s.posted ch ws).mem = s.mem :=
  (congrArg State.mem (wrWords_frame s (A.MBX_MSG ch 0) ws) :)

theorem wasFull_posted {ch : Nat} {ws : List Nat} (hlen : ws.length ≤ 8) : (s.posted ch ws).mbxWasFull ch = s.mbxWasFull ch := by
  have hrd : (s.posted ch ws).rd (A.MBX_STATUS ch) = s.rd (A.MBX_STATUS ch) :=
    rd_posted_above s ch hlen (by simp only [A.MBX_MSG, A.MBX_STATUS]; omega)
  have hfab : (s.posted ch ws).fabric = s.fabric := (congrArg State.fabric (wrWords_frame s (A.MBX_MSG ch 0) ws) :)
  have hnow : (s.posted ch ws).now = s.now := (congrArg State.now (wrWords_frame s (A.MBX_MSG ch 0) ws) :)
  simp only [State.mbxWasFull, State.fldBefore, State.rdBefore, State.rdWithin, State.rdn, hrd, hfab, hnow]

theorem receiver_posted {ch : Nat} {ws : List Nat} (hch : ch < 64) (hlen : ws.length ≤ 8) :
    (s.posted ch ws).mbxReceiver ch = s.mbxReceiver ch := by
  rw [State.mbxReceiver, State.fld, rd_posted_above s ch hlen (by simp only [A.MBX_MSG, A.MBX_BIND]; omega)]
  rfl

section
variable {ch : Nat} {ws : List Nat} (hch : ch < 64) (hlen : ws.length ≤ 8) (hwas : s.mbxWasFull ch = false)
include hwas

theorem mbxPost_of_empty : s.mbxPost ch ws = (s.posted ch ws).mbxRing ch :=
  if_neg (by rw [hwas]; exact Bool.false_ne_true)

include hch hlen

/-- Of a post to an empty channel the words stand in the message. -/
theorem rd_mbxPost_msg (k : Nat) (hk : k < ws.length) : (s.mbxPost ch ws).rd (A.MBX_MSG ch k) = BitVec.ofNat 32 ws[k] := by
  obtain ⟨-, hrd, -⟩ := mbxRing_effect hch ((wasFull_posted hlen).trans hwas)
  have hne : A.MBX_MSG ch k ≠ A.MBX_STATUS ch ∧ A.MBX_MSG ch k ≠ A.MBX_RING_CNT ch := by
    simp only [A.MBX_MSG, A.MBX_STATUS, A.MBX_RING_CNT]; omega
  have haddr : A.MBX_MSG ch k = A.MBX_MSG ch 0 + 4 * k := by simp only [A.MBX_MSG]; omega
  rw [mbxPost_of_empty hwas, hrd _ (by rw [A.MBX_MSG]; omega), rd_rung _ _ _ hne.1, State.rd_inc, if_neg hne.2, haddr]
  exact rd_wrWords_getElem s _ ws k hk

/-- It is rung: FULL is set and the ring counted. -/
theorem mbxPost_full : (s.mbxPost ch ws).mbxFull ch = true ∧
    (s.mbxPost ch ws).rd (A.MBX_RING_CNT ch) = satSucc (s.rd (A.MBX_RING_CNT ch)) ∧ (s.mbxPost ch ws).mem = s.mem := by
  have hwas' := (wasFull_posted hlen).trans hwas
  obtain ⟨hfull, hcnt⟩ := mbxRing_full hch hwas'
  rw [rd_posted_above s ch hlen (by simp only [A.MBX_MSG, A.MBX_RING_CNT]; omega)] at hcnt
  rw [mbxPost_of_empty hwas]
  exact ⟨hfull, hcnt, (mbxRing_effect hch hwas').1.trans (mem_posted s ch ws)⟩

/-- Where no Needle receives it, its message, STATUS and RING_CNT alone change. -/
theorem regsBut_mbxPost (hfar : ¬ (0x10 ≤ s.mbxReceiver ch ∧ s.mbxReceiver ch < 0x28)) :
    s.regsBut (s.mbxPost ch ws) (A.MBX_STATUS ch :: A.MBX_RING_CNT ch :: (List.range ws.length).map (A.MBX_MSG ch)) := by
  intro b hb
  obtain ⟨-, -, hring⟩ := mbxRing_effect hch ((wasFull_posted hlen).trans hwas)
  have haddr : (List.range ws.length).map (A.MBX_MSG ch) = (List.range ws.length).map fun k => A.MBX_MSG ch 0 + 4 * k :=
    List.map_congr_left fun k _ => by simp only [A.MBX_MSG]; omega
  rw [haddr, List.mem_cons, List.mem_cons, not_or, not_or] at hb
  obtain ⟨hst, hcnt, hmsg⟩ := hb
  rw [mbxPost_of_empty hwas, hring (by rw [receiver_posted hch hlen]; exact hfar), rd_rung _ _ _ hst, State.rd_inc, if_neg hcnt]
  exact rd_wrWords_other s _ ws b hmsg

end

theorem postWords_length : (postWords w c).length = w.y.val := by rw [postWords, List.length_map, List.length_range]

end

/-- Settles O35: timers by the engine they put, Hook FIFOs and mailboxes by what their own operations leave. -/
theorem actionWordUnits : Obligations.ActionWordUnits := by
  intro s i inl w r c lag v st e imm tm hk ch far adv posts mine
  have hch : ch < 64 := Nat.mod_lt _ (by decide)
  refine ⟨?tstart, ?tstop, ?gtime, ?stamp, ?hkput, ?hkget, ?post, ?postFull, ?bell, ?merged⟩
  case tstart =>
    rintro ⟨h, himm⟩
    obtain ⟨hadv, hrest, htimer, hpend⟩ := retimed_effect (s := s) (i := i) (inl := inl) (c' := c.next) tm
      (startedTimer s.raw w c.next (e.timer tm))
    exact ⟨_, exec_recTstart h himm, hadv, hrest, congrArg Timer.armed htimer, congrArg Timer.expiry htimer,
      congrArg Timer.interval htimer, congrArg Timer.periodic htimer, congrArg Timer.ctx htimer, hpend⟩
  case tstop =>
    intro h
    obtain ⟨hadv, hrest, htimer, hpend⟩ := retimed_effect (s := s) (i := i) (inl := inl) (c' := c.next) tm
      { e.timer tm with armed := false }
    exact ⟨_, exec_recTstop h, hadv, hrest, htimer, hpend⟩
  case gtime =>
    rintro ⟨h, hy, hlag⟩
    exact exec_recGtime_raw h hy hlag
  case stamp =>
    rintro ⟨h, hy, hst⟩
    exact exec_recGtime_stamp h hy hst
  case hkput =>
    rintro ⟨h, hbound⟩
    exact ⟨fun hroom => ⟨_, exec_go_of_act rfl (by decide) h (wHkput_go hbound hroom), fifo_effect hk _ _⟩,
      fun hfull => exec_wait_of_act rfl (by decide) h (wHkput_wait hbound hfull)⟩
  case hkget =>
    rintro ⟨h, hbound⟩
    refine ⟨fun hhead => ?_, fun hempty => exec_wait_of_act rfl (by decide) h (wHkget_wait hbound hempty)⟩
    obtain ⟨hevt, htx, hrx, hrest⟩ := fifo_effect (s := s) (i := i) (c' := c.next.put w.d v.toNat) hk (s.hook hk).tx (s.hook hk).rx.tail
    exact ⟨_, exec_go_of_act rfl (by decide) h (wHkget_go hbound hhead), hevt, hrx, htx, hrest⟩
  case post =>
    rintro ⟨h, ⟨hbound, hsend⟩, ⟨hpos, hlen, hregs⟩, hwas⟩
    have hlen' : (postWords w c.next).length ≤ 8 := by rw [postWords_length]; exact hlen
    obtain ⟨hfull, hcnt, hmem⟩ := mbxPost_full hch hlen' hwas
    have hbut := regsBut_mbxPost hch hlen' hwas
    rw [postWords_length] at hbut
    refine ⟨_, exec_recMbpost h hbound hsend hpos hlen hregs, evt_putCtx _ _ _, fun k hk => ?_, (full_putCtx ..).trans hfull,
      (rd_putCtx ..).trans hcnt, (mem_putCtx ..).trans hmem, fun hr => regsBut_putCtx (hbut hr)⟩
    have hword : (s.mbxPost ch (postWords w c.next)).rdn (A.MBX_MSG ch k) = (postWords w c.next)[k]'(by rw [postWords_length]; exact hk) % 2 ^ 32 := by
      rw [State.rdn, rd_mbxPost_msg hch hlen' hwas k (by rw [postWords_length]; exact hk), BitVec.toNat_ofNat]
    refine (rdn_putCtx ..).trans (hword.trans ?_)
    simp only [postWords, List.getElem_map, List.getElem_range, Nat.mod_mod]
    rfl
  case postFull =>
    rintro ⟨h, ⟨hbound, hsend⟩, ⟨hpos, hlen, hregs⟩, hwas⟩
    have hpost : s.mbxPost ch (postWords w c.next) = s.inc (A.MBX_REJ_CNT ch) := if_pos hwas
    have hexec := exec_recMbpost h hbound hsend hpos hlen hregs
    rw [show w.imm.toNat % 64 = ch from rfl, hpost] at hexec
    refine ⟨_, hexec, evt_putCtx _ _ _, (rd_putCtx ..).trans ?_, regsBut_putCtx fun b hb => ?_, (mem_putCtx ..).trans (State.wr_mem ..)⟩
    · rw [State.rd_inc, if_pos rfl]
    · rw [State.rd_inc, if_neg (List.ne_of_not_mem_cons hb)]
  case bell =>
    rintro ⟨h, ⟨hbound, hsend⟩, hwas⟩
    obtain ⟨hmem, -, hfar⟩ := mbxRing_effect hch hwas
    obtain ⟨hfull, hcnt⟩ := mbxRing_full hch hwas
    refine ⟨_, exec_recBell h hbound hsend, ctx_putCtx _ _ _ _, (full_putCtx ..).trans hfull, (rd_putCtx ..).trans hcnt,
      (mem_putCtx ..).trans hmem, fun hr => regsBut_putCtx ?_⟩
    rw [hfar hr]
    exact regsBut_rung s ch
  case merged =>
    rintro ⟨h, ⟨hbound, hsend⟩, hwas, hfull⟩
    have hexec := exec_recBell h hbound hsend
    rw [show w.imm.toNat % 64 = ch from rfl, mbxRing_merged hwas hfull] at hexec
    obtain ⟨hfull', hmerged, hcnt, hregs, hmem⟩ := merged_effect hfull
    exact ⟨_, hexec, ctx_putCtx _ _ _ _, (full_putCtx ..).trans hfull', (flag_putCtx ..).trans hmerged, (rd_putCtx ..).trans hcnt,
      regsBut_putCtx hregs, (mem_putCtx ..).trans hmem⟩

end Sys2Proof.Machine
end

section
/-! PROOFS. The port counters: what a counted event advances, and what it leaves (R293 to R303). -/

namespace Sys2Proof.Machine
open Sys2Proof

-- Parallel elaboration holds many stacks at once, and they count towards the memory a check may take.
set_option Elab.async false

/-- Of the ports only port p has changed, of the registers only those listed, and nothing else. -/
structure State.PortOnly (s t : State) (p : Nat) (as : List Nat) : Prop where
  regs : s.regsBut t as
  ports : s.portsBut t p
  rest : { t with regs := s.regs, ports := s.ports } = s

section
variable {s t u : State} {p : Nat} {as bs : List Nat}

theorem State.PortOnly.refl : s.PortOnly s p as := ⟨fun _ _ => rfl, fun _ _ => rfl, rfl⟩

theorem State.PortOnly.trans (h : s.PortOnly t p as) (k : t.PortOnly u p as) : s.PortOnly u p as where
  regs a ha := (k.regs a ha).trans (h.regs a ha)
  ports j hj := (k.ports j hj).trans (h.ports j hj)
  rest := (congrArg (fun x : State => { x with regs := s.regs, ports := s.ports }) k.rest).trans h.rest

theorem State.PortOnly.mono (h : s.PortOnly t p as) (hsub : as ⊆ bs) : s.PortOnly t p bs :=
  ⟨fun a ha => h.regs a fun hmem => ha (hsub hmem), h.ports, h.rest⟩

theorem State.PortOnly.ite {c : Prop} [Decidable c] (h : s.PortOnly t p as) (k : s.PortOnly u p as) :
    s.PortOnly (if c then t else u) p as := by
  split <;> assumption

theorem portOnly_foldl {β : Type} {f : State → β → State} (xs : List β) (hf : ∀ b ∈ xs, ∀ s : State, s.PortOnly (f s b) p as)
    (s : State) : s.PortOnly (xs.foldl f s) p as := by
  induction xs generalizing s with
  | nil => exact .refl
  | cons x xs ih => exact (hf x List.mem_cons_self s).trans (ih (fun b hb => hf b (List.mem_cons_of_mem x hb)) _)

theorem portOnly_wr (s : State) (p : Nat) {a : Nat} (w : Word) (ha : a ∈ as) : s.PortOnly (s.wr a w) p as :=
  ⟨fun b hb => State.rd_wr_other s a b w fun h => hb (h ▸ ha), fun _ _ => rfl, rfl⟩

theorem portOnly_putPort (s : State) (p : Nat) (x : Port) : s.PortOnly (s.putPort p x) p as :=
  ⟨fun _ _ => rfl, fun _ hk => storeGet_put_other _ _ _ hk, rfl⟩

/-- What is none of the registers and none of the ports is as it was. -/
theorem State.PortOnly.part {α : Type} (h : s.PortOnly t p as) (g : State → α)
    (hg : ∀ (x : State) regs ports, g { x with regs := regs, ports := ports } = g x := by intros; rfl) : g t = g s :=
  (hg t s.regs s.ports).symm.trans (congrArg g h.rest)

/-! ### The period counters -/

/-- The registers of the statistics periods of a port. -/
def perRegs (p : Nat) : List Nat :=
  A.MAC_PER_STATUS p :: (List.range 8).map (A.MAC_PER_LIVE p) ++ (List.range 8).map (A.MAC_PER_SHADOW p)

theorem live_mem_perRegs {j : Nat} (hj : j < 8) : A.MAC_PER_LIVE p j ∈ perRegs p :=
  List.mem_append_left _ (List.mem_cons_of_mem _ (List.mem_map_of_mem (List.mem_range.2 hj)))

theorem shadow_mem_perRegs {j : Nat} (hj : j < 8) : A.MAC_PER_SHADOW p j ∈ perRegs p :=
  List.mem_append_right _ (List.mem_map_of_mem (List.mem_range.2 hj))

theorem status_mem_perRegs : A.MAC_PER_STATUS p ∈ perRegs p := List.mem_append_left _ List.mem_cons_self

theorem portOnly_periodClose (s : State) (p t : Nat) : s.PortOnly (s.periodClose p t) p (perRegs p) := by
  unfold State.periodClose
  extract_lets s1 s2
  have h1 : s.PortOnly s1 p (perRegs p) := portOnly_foldl (List.range 8) (fun j hj u =>
    (portOnly_wr u p _ (shadow_mem_perRegs (List.mem_range.1 hj))).trans
      (portOnly_wr _ p _ (live_mem_perRegs (List.mem_range.1 hj)))) s
  exact (h1.trans ((portOnly_wr _ p _ status_mem_perRegs).trans (portOnly_wr _ p _ status_mem_perRegs))).trans
    (portOnly_putPort _ _ _)

theorem portOnly_perCnt (s : State) (p n at_ : Nat) {j : Nat} (hj : j < 8) : s.PortOnly (s.perCnt p j n at_) p (perRegs p) := by
  have hclose : s.PortOnly (match s.perPending p at_ with | some t => s.periodClose p t | none => s) p (perRegs p) := by
    split
    · exact portOnly_periodClose ..
    · exact .refl
  have hreg : ∀ (c : Prop) [Decidable c], (if c then A.MAC_PER_SHADOW p j else A.MAC_PER_LIVE p j) ∈ perRegs p := fun c _ => by
    split
    · exact shadow_mem_perRegs hj
    · exact live_mem_perRegs hj
  exact .ite (hclose.trans (portOnly_wr _ p _ (hreg _))) .refl

/-- While no boundary is due, only the live or the shadow counter that sums the event may change. -/
theorem portOnly_perCnt_still (s : State) (p j n at_ : Nat) (hstill : s.perPending p at_ = none) :
    s.onlyRegs (s.perCnt p j n at_) [A.MAC_PER_LIVE p j, A.MAC_PER_SHADOW p j] := by
  unfold State.perCnt
  rw [hstill]
  split
  · refine ⟨fun b hb => State.rd_wr_other s _ _ _ fun h => hb (h ▸ ?_), rfl⟩
    rcases ite_eq_or_eq (at_ + 1 < (s.port p).bound) (A.MAC_PER_SHADOW p j) (A.MAC_PER_LIVE p j) with h | h <;> simp [h]
  · exact ⟨fun _ _ => rfl, rfl⟩

theorem periodOf_lt {k j : Nat} (h : periodOf k = some j) : j < 8 := by
  unfold periodOf at h
  split_ifs at h <;> cases h <;> decide

/-! ### A counter -/

/-- The state in which counter k has advanced by n, and its WRAP bit follows bit 31. -/
def State.counted (s : State) (p k n : Nat) : State :=
  let new := (s.rdn (A.MAC_CNT p k) + n) % 2 ^ 32
  let t := s.wrn (A.MAC_CNT p k) new
  if bitAt (s.rdn (A.MAC_CNT p k)) 31 ≠ bitAt new 31 then
    t.wrn (A.MAC_CNT_WRAP p) (t.rdn (A.MAC_CNT_WRAP p) ||| 2 ^ k) else t

theorem macCntAt_eq (s : State) (p k n at_ : Nat) : s.macCntAt p k n at_ =
    match periodOf k with
    | some j => (s.counted p k n).perCnt p j n at_
    | none => s.counted p k n := rfl

theorem cnt_ne_wrap (p k : Nat) : A.MAC_CNT p k ≠ A.MAC_CNT_WRAP p := by simp only [A.MAC_CNT, A.MAC_CNT_WRAP]; omega

theorem onlyRegs_counted (s : State) (p k n : Nat) : s.onlyRegs (s.counted p k n) [A.MAC_CNT p k, A.MAC_CNT_WRAP p] := by
  unfold State.counted
  extract_lets new t
  have ht : s.onlyRegs t [A.MAC_CNT p k, A.MAC_CNT_WRAP p] :=
    ⟨fun b hb => State.rd_wr_other s _ b _ fun h => hb (by simp [h]), rfl⟩
  split
  · refine ⟨fun b hb => (State.rd_wr_other t _ b _ fun h => hb (by simp [h])).trans (ht.1 b hb), rfl⟩
  · exact ht

theorem portOnly_counted (s : State) (p k n : Nat) : s.PortOnly (s.counted p k n) p [A.MAC_CNT p k, A.MAC_CNT_WRAP p] := by
  obtain ⟨hregs, hrest⟩ := onlyRegs_counted s p k n
  have hports : (s.counted p k n).ports = s.ports := (congrArg State.ports hrest :)
  refine ⟨hregs, fun j _ => ?_, ?_⟩
  · rw [State.port, hports, State.port]
  · exact (congrArg (fun x : State => { x with ports := s.ports }) hrest :)

theorem rdn_counted (s : State) (p k n : Nat) :
    (s.counted p k n).rdn (A.MAC_CNT p k) = (s.rdn (A.MAC_CNT p k) + n) % 2 ^ 32 := by
  unfold State.counted
  extract_lets new t
  have ht : t.rdn (A.MAC_CNT p k) = new := by
    rw [State.rdn, State.rd_wrn, if_pos rfl, BitVec.toNat_ofNat, Nat.mod_mod]
  split
  · rw [State.rdn, State.rd_wrn, if_neg (cnt_ne_wrap p k)]
    exact ht
  · exact ht

theorem wrap_counted {s : State} {p k n : Nat} (hk : k < 24)
    (hwrap : bitAt ((s.rdn (A.MAC_CNT p k) + n) % 2 ^ 32) 31 ≠ bitAt (s.rdn (A.MAC_CNT p k)) 31) :
    bitAt ((s.counted p k n).rdn (A.MAC_CNT_WRAP p)) k = true := by
  unfold State.counted
  extract_lets new t
  rw [if_pos hwrap.symm, State.rdn, State.rd_wrn, if_pos rfl, BitVec.toNat_ofNat, bitAt_eq_testBit, Nat.testBit_mod_two_pow,
    Nat.testBit_or, Nat.testBit_two_pow_self]
  simp
  omega

/-- The counters and the WRAP register are none of the period registers. -/
theorem cnt_notMem_perRegs {k : Nat} (hk : k < 32) : A.MAC_CNT p k ∉ perRegs p := by
  simp only [perRegs, List.mem_append, List.mem_cons, List.mem_map, List.mem_range, not_or, not_exists, not_and,
    A.MAC_CNT, A.MAC_PER_STATUS, A.MAC_PER_LIVE, A.MAC_PER_SHADOW]
  exact ⟨⟨by omega, fun _ _ => by omega⟩, fun _ _ => by omega⟩

theorem wrap_notMem_perRegs : A.MAC_CNT_WRAP p ∉ perRegs p := by
  simp only [perRegs, List.mem_append, List.mem_cons, List.mem_map, List.mem_range, not_or, not_exists, not_and,
    A.MAC_CNT_WRAP, A.MAC_PER_STATUS, A.MAC_PER_LIVE, A.MAC_PER_SHADOW]
  exact ⟨⟨by omega, fun _ _ => by omega⟩, fun _ _ => by omega⟩

/-- After the count, an event changes period registers alone. -/
theorem portOnly_macCntAt_counted (s : State) (p k n at_ : Nat) :
    (s.counted p k n).PortOnly (s.macCntAt p k n at_) p (perRegs p) := by
  rw [macCntAt_eq]
  split
  · next j hj => exact portOnly_perCnt _ _ _ _ (periodOf_lt hj)
  · exact .refl

/-- The registers that an event counted in counter k of a port may change. -/
def cntRegs (p k : Nat) : List Nat := [A.MAC_CNT p k, A.MAC_CNT_WRAP p] ++ perRegs p

theorem portOnly_macCntAt (s : State) (p k n at_ : Nat) : s.PortOnly (s.macCntAt p k n at_) p (cntRegs p k) :=
  ((portOnly_counted s p k n).mono (List.subset_append_left _ _)).trans
    ((portOnly_macCntAt_counted s p k n at_).mono (List.subset_append_right _ _))

/-- The counter registers of a port. -/
def countRegs (p : Nat) : List Nat := (List.range 32).map (A.MAC_CNT p) ++ A.MAC_CNT_WRAP p :: perRegs p

theorem cntRegs_subset {p k : Nat} (hk : k < 32) : cntRegs p k ⊆ countRegs p := by
  have hcnt : A.MAC_CNT p k ∈ countRegs p := List.mem_append_left _ (List.mem_map_of_mem (List.mem_range.2 hk))
  have hrest : A.MAC_CNT_WRAP p :: perRegs p ⊆ countRegs p := List.subset_append_right _ _
  exact List.cons_subset.2 ⟨hcnt, hrest⟩

theorem castOf_le (bs : List Byte) : castOf bs ≤ 2 := by
  unfold castOf
  split_ifs <;> decide

theorem portOnly_count {k : Nat} (hk : k < 32) (s : State) (p n at_ : Nat) : s.PortOnly (s.macCntAt p k n at_) p (countRegs p) :=
  (portOnly_macCntAt s p k n at_).mono (cntRegs_subset hk)

theorem portOnly_rxCount (s : State) (p : Nat) (bs : List Byte) (at_ : Nat) : s.PortOnly (s.rxCount p bs at_) p (countRegs p) := by
  have hcast := castOf_le bs
  exact ((portOnly_count (by decide) s p _ _).trans (portOnly_count (by decide) _ p _ _)).trans (portOnly_count (by omega) _ p _ _)

theorem portOnly_txCount (s : State) (p : Nat) (bs : List Byte) (n : Nat) : s.PortOnly (s.txCount p bs n) p (countRegs p) := by
  have hcast := castOf_le bs
  exact ((portOnly_count (by decide) s p _ _).trans (portOnly_count (by decide) _ p _ _)).trans (portOnly_count (by omega) _ p _ _)

theorem rdn_macCntAt {s : State} {p k n at_ : Nat} (hk : k < 32) :
    (s.macCntAt p k n at_).rdn (A.MAC_CNT p k) = (s.rdn (A.MAC_CNT p k) + n) % 2 ^ 32 := by
  rw [State.rdn, (portOnly_macCntAt_counted s p k n at_).regs _ (cnt_notMem_perRegs hk)]
  exact rdn_counted s p k n

theorem cnt_inj {k j : Nat} (h : A.MAC_CNT p k = A.MAC_CNT p j) : k = j := by simp only [A.MAC_CNT] at h; omega

theorem rdn_macCntAt_other {s : State} {p k j n at_ : Nat} (hj : j < 32) (hne : j ≠ k) :
    (s.macCntAt p k n at_).rdn (A.MAC_CNT p j) = s.rdn (A.MAC_CNT p j) := by
  have hnot : A.MAC_CNT p j ∉ cntRegs p k := by
    simp only [cntRegs, List.mem_append, List.mem_cons, List.not_mem_nil, or_false, not_or]
    exact ⟨⟨fun h => hne (cnt_inj h), cnt_ne_wrap p j⟩, cnt_notMem_perRegs hj⟩
  rw [State.rdn, (portOnly_macCntAt s p k n at_).regs _ hnot, State.rdn]

theorem wrap_macCntAt {s : State} {p k n at_ : Nat} (hk : k < 24)
    (hwrap : bitAt ((s.rdn (A.MAC_CNT p k) + n) % 2 ^ 32) 31 ≠ bitAt (s.rdn (A.MAC_CNT p k)) 31) :
    bitAt ((s.macCntAt p k n at_).rdn (A.MAC_CNT_WRAP p)) k = true := by
  rw [State.rdn, (portOnly_macCntAt_counted s p k n at_).regs _ wrap_notMem_perRegs]
  exact wrap_counted hk hwrap

/-! ### Boundaries that are not due -/

/-- Whether a boundary is due hangs on the Gauge and on MAC_PER_CTRL of the port. -/
theorem perPending_of_onlyRegs {at_ : Nat} (h : s.onlyRegs t as) (hp : A.MAC_PER_CTRL p ∉ as) (hg : ∀ a ∈ as, a < 0x33000000) :
    t.perPending p at_ = s.perPending p at_ := by
  obtain ⟨hregs, hrest⟩ := h
  have hctrl : t.rd (A.MAC_PER_CTRL p) = s.rd (A.MAC_PER_CTRL p) := hregs _ hp
  have hfab : t.fabric = s.fabric := (congrArg State.fabric hrest :)
  have hnow : t.now = s.now := (congrArg State.now hrest :)
  have hraw : t.raw = s.raw := (congrArg State.raw hrest :)
  have hon : t.rawOn = s.rawOn := (congrArg State.rawOn hrest :)
  have hgauge : t.gauge = s.gauge := (congrArg State.gauge hrest :)
  have hports : t.ports = s.ports := (congrArg State.ports hrest :)
  have hbefore : ∀ a, 0x33000000 ≤ a → t.rdBefore a = s.rdBefore a := fun a ha => by
    simp only [State.rdBefore, State.rdWithin, State.rdn, hfab, hnow, hregs a fun hm => absurd (hg a hm) (Nat.not_lt.2 ha)]
  have hfield : ∀ a f, 0x33000000 ≤ a → t.fldBefore a f = s.fldBefore a f := fun a f ha => by
    rw [State.fldBefore, hbefore a ha, State.fldBefore]
  have hcmp : ∀ k, 0x33000000 ≤ A.GAUGE_CMP_CTRL k ∧ 0x33000000 ≤ A.GAUGE_CMP_NEXT_LO k ∧ 0x33000000 ≤ A.GAUGE_CMP_NEXT_HI k ∧
      0x33000000 ≤ A.GAUGE_CMP_NEXT_NS k := fun k => by
    simp only [A.GAUGE_CMP_CTRL, A.GAUGE_CMP_NEXT_LO, A.GAUGE_CMP_NEXT_HI, A.GAUGE_CMP_NEXT_NS]; omega
  have hcmpLast : ∀ k, t.cmpLast k = s.cmpLast k := fun k => by rw [State.cmpLast, State.cmpLast, hgauge]
  have hdue : ∀ k, t.cmpDue k = s.cmpDue k := fun k => by
    obtain ⟨h1, h2, h3, h4⟩ := hcmp k
    have hdom : t.cmpDom k = s.cmpDom k := by unfold State.cmpDom; dsimp only; rw [hfield _ _ h1, hfield _ _ h1]
    have hnext : t.cmpNext k = s.cmpNext k := by unfold State.cmpNext; dsimp only; rw [hdom, hfield _ _ h4, hbefore _ h2, hbefore _ h3]
    have hsource : t.cmpSource k = s.cmpSource k := by
      unfold State.cmpSource
      rw [hdom]
      split
      · simp only [State.domNow, State.dom, hgauge, hraw]
      · exact hraw
    rw [State.cmpDue, State.cmpDue, hfield _ _ h1, hnext, hsource, hcmpLast, hon, hraw]
  have hev : t.perEvent p = s.perEvent p := by
    unfold State.perEvent
    dsimp only
    rw [State.fld, hctrl, ← State.fld, hdue, hcmpLast, hraw]
  have hport : t.port p = s.port p := by rw [State.port, hports, State.port]
  unfold State.perPending
  rw [State.flag, State.fld, hctrl, ← State.fld, ← State.flag, hev, hport]

end

end Sys2Proof.Machine
end

section
/-! PROOFS. Frames received by a MAC (Table 6.2, R268 to R288). -/

namespace Sys2Proof.Machine
open Sys2Proof

-- Parallel elaboration holds many stacks at once, and they count towards the memory a check may take.
set_option Elab.async false

variable {s t u : State} {p : Fin 24} {bs : List Byte} {code lost fcs : Bool} {capture k : Nat}

/-! ### One counted event -/

/-- Counter k has advanced by 1 modulo 2^32, and a change of its bit 31 shows in its WRAP bit. -/
def State.countsOnce (s t : State) (p k : Nat) : Prop :=
  t.rdn (A.MAC_CNT p k) = (s.rdn (A.MAC_CNT p k) + 1) % 2 ^ 32 ∧
  (bitAt (t.rdn (A.MAC_CNT p k)) 31 ≠ bitAt (s.rdn (A.MAC_CNT p k)) 31 → k < 24 → bitAt (t.rdn (A.MAC_CNT_WRAP p)) k = true)

/-- The registers of an event counted in counter k while no boundary is due. -/
def eventRegs (p k : Nat) : List Nat :=
  [A.MAC_CNT p k, A.MAC_CNT_WRAP p, A.MAC_PER_LIVE p ((periodOf k).getD 0), A.MAC_PER_SHADOW p ((periodOf k).getD 0)]

theorem countsOnce_macCntAt (s : State) (p at_ : Nat) (hk : k < 32) : s.countsOnce (s.macCntAt p k 1 at_) p k :=
  ⟨rdn_macCntAt hk, fun hwrap hk24 => wrap_macCntAt hk24 (by rwa [rdn_macCntAt hk] at hwrap)⟩

theorem countsOnce_of_rd (h : s.countsOnce t p k) (hcnt : u.rd (A.MAC_CNT p k) = t.rd (A.MAC_CNT p k))
    (hwrap : u.rd (A.MAC_CNT_WRAP p) = t.rd (A.MAC_CNT_WRAP p)) : s.countsOnce u p k := by
  unfold State.countsOnce State.rdn at h ⊢
  rwa [hcnt, hwrap]

theorem eventRegs_below (hk : k < 32) : ∀ a ∈ eventRegs p k, a < 0x33000000 := by
  have hj : (periodOf k).getD 0 < 8 := by
    cases h : periodOf k with
    | none => decide
    | some j => exact periodOf_lt h
  have hp : p.val / 12 ≤ 1 := by omega
  simp only [eventRegs, List.forall_mem_cons, A.MAC_CNT, A.MAC_CNT_WRAP, A.MAC_PER_LIVE, A.MAC_PER_SHADOW]
  exact ⟨by omega, by omega, by omega, by omega, by simp⟩

theorem perCtrl_notMem_eventRegs {p : Nat} (hk : k < 32) : A.MAC_PER_CTRL p ∉ eventRegs p k := by
  simp only [eventRegs, List.mem_cons, List.not_mem_nil, or_false, not_or,
    A.MAC_CNT, A.MAC_CNT_WRAP, A.MAC_PER_LIVE, A.MAC_PER_SHADOW, A.MAC_PER_CTRL]
  omega

/-- An event counted while no boundary is due changes the registers of its counter alone. -/
theorem onlyRegs_macCntAt_still (s : State) (p : Fin 24) (n : Nat) {at_ : Nat} (hk : k < 32) (hstill : s.perPending p at_ = none) :
    s.onlyRegs (s.macCntAt p k n at_) (eventRegs p k) := by
  obtain ⟨hregs, hrest⟩ := onlyRegs_counted s p k n
  have hcounted : s.onlyRegs (s.counted p k n) (eventRegs p k) :=
    ⟨fun a ha => hregs a fun hm => ha (List.mem_append_left [A.MAC_PER_LIVE p _, A.MAC_PER_SHADOW p _] hm), hrest⟩
  rw [macCntAt_eq]
  split
  · next j hj =>
    have hstill' : (s.counted p k n).perPending p at_ = none :=
      (perPending_of_onlyRegs hcounted (perCtrl_notMem_eventRegs hk) (eventRegs_below hk)).trans hstill
    obtain ⟨hregs', hrest'⟩ := portOnly_perCnt_still _ p j n at_ hstill'
    refine ⟨fun a ha => (hregs' a fun hm => ha ?_).trans (hcounted.1 a ha), ?_⟩
    · rw [eventRegs, hj]
      exact List.mem_append_right [A.MAC_CNT p k, A.MAC_CNT_WRAP p] hm
    · exact (congrArg (fun x : State => { x with regs := s.regs }) hrest').trans hrest
  · exact hcounted

/-- What the outcome of one check of Table 6.2 is: its counter advances, and while no boundary is due nothing else changes. -/
theorem ends_macCnt (s : State) (p : Fin 24) (hk : k < 32) :
    s.countsOnce (s.macCnt p k 1) p k ∧ (s.perPending p s.raw = none → s.onlyRegs (s.macCnt p k 1) (eventRegs p k)) :=
  ⟨countsOnce_macCntAt s p s.raw hk, onlyRegs_macCntAt_still s p 1 hk⟩

/-! ### The checks, one equation each -/

/-- A frame on the line of an external port that its receiver takes to the MAC. -/
theorem exec_receive (hfar : s.farLoop p = false) (hport : p.val % 12 < 9) (hline : lost = true ∨ s.rxLine p = true) :
    exec (.macFrameReceive p bs code lost fcs capture) s = .next (s.macRx p bs code lost fcs capture) := by
  show execMacFrameReceive p bs code lost fcs capture s = _
  rw [execMacFrameReceive, if_neg (by simp [hfar]), if_pos ⟨hport, hline⟩]

theorem cutBad_of_short (stamp : Nat) (h : bs.length ≤ 240) : s.cutBad p bs stamp = s := if_pos (.inl h)

section
variable (hen : s.flag (A.MAC_CTRL p) F.MAC_CTRL.RX_EN = true) (hbs : bs ≠ [])
include hen hbs

theorem macRx_of_lost (h : lost = true ∨ s.flag (A.MAC_STATUS p) F.MAC_STATUS.LINK = false) (hn : bs.length ≤ 240) :
    s.macRx p bs code lost fcs capture = s.macCnt p 11 1 := by
  rw [State.macRx, if_neg (by simp [hen, hbs]), if_pos (by simpa using h), cutBad_of_short _ hn]

variable (hup : s.flag (A.MAC_STATUS p) F.MAC_STATUS.LINK = true)
include hup

theorem macRx_of_codeErr (hn : bs.length ≤ 240) : s.macRx p bs true false fcs capture = s.macCnt p 8 1 := by
  rw [State.macRx, if_neg (by simp [hen, hbs]), if_neg (by simp [hup]), if_pos rfl, cutBad_of_short _ hn]

theorem macRx_of_short (hn : bs.length < 60) : s.macRx p bs false false fcs capture = s.macCnt p 9 1 := by
  rw [State.macRx, if_neg (by simp [hen, hbs]), if_neg (by simp [hup]), if_neg (by simp), if_pos hn]

variable (hmin : 60 ≤ bs.length)
include hmin

theorem macRx_of_long (hn : s.fld (A.MAC_CTRL p) F.MAC_CTRL.MAX_LEN < bs.length)
    (hmax : s.fld (A.MAC_CTRL p) F.MAC_CTRL.MAX_LEN ≤ 240) : s.macRx p bs false false fcs capture = s.macCnt p 10 1 := by
  rw [State.macRx, if_neg (by simp [hen, hbs]), if_neg (by simp [hup]), if_neg (by simp), if_neg (by omega), if_pos hn,
    cutBad_of_short _ (by simp [hmax])]

variable (hmax : bs.length ≤ s.fld (A.MAC_CTRL p) F.MAC_CTRL.MAX_LEN)
include hmax

theorem macRx_of_badFcs (hn : bs.length ≤ 240) : s.macRx p bs false false false capture = s.macCnt p 7 1 := by
  rw [State.macRx, if_neg (by simp [hen, hbs]), if_neg (by simp [hup]), if_neg (by simp), if_neg (by omega), if_neg (by omega),
    if_pos (by simp), cutBad_of_short _ hn]

/-- A frame with a right FCS: MAC control, the address filter, or delivery. -/
theorem macRx_of_good : s.macRx p bs false false true capture =
    if be16At bs 12 = 0x8808 then
      if be16At bs 14 = 1 then (s.macCnt p 5 1).pauseRx p (be16At bs 16) else s.macCnt p 6 1
    else if !s.macFilter p bs then s.macCnt p 12 1 else s.macDeliver p bs (s.stamp (unitHalf p 12) (p % 12) true capture) := by
  rw [State.macRx, if_neg (by simp [hen, hbs]), if_neg (by simp [hup]), if_neg (by simp), if_neg (by omega), if_neg (by omega),
    if_neg (by simp)]

end

/-! ### PAUSE frames -/

theorem port_putPort_self (s : State) (p : Nat) (x : Port) : (s.putPort p x).port p = x := storeGet_put_self _ _ _ _

theorem portMbps_of_rd (h : Half) (n : Nat) (hst : t.rd (A.MAC_STATUS (12 * h.n + n)) = s.rd (A.MAC_STATUS (12 * h.n + n))) :
    t.portMbps h n = s.portMbps h n := by
  unfold State.portMbps
  rw [State.fld, hst, ← State.fld]

theorem portOnly_txMark (s : State) (p : Nat) (as : List Nat) : s.PortOnly (s.txMark p) p as :=
  .ite .refl (portOnly_putPort ..)

/-- A PAUSE frame: the pause time from the port's speed, and PAUSED by its quanta (R285). -/
theorem pauseRx_effect (s : State) (p q : Nat) (hen : s.flag (A.MAC_CTRL p) F.MAC_CTRL.PAUSE_RX_EN = true) :
    (s.pauseRx p q).flag (A.MAC_STATUS p) F.MAC_STATUS.PAUSED = decide (q ≠ 0) ∧
    ((s.pauseRx p q).port p).pauseEnd = s.now + quantaTicks (s.portMbps (unitHalf p 12) (p % 12)) q ∧
    s.PortOnly (s.pauseRx p q) p [A.MAC_STATUS p] := by
  rw [State.pauseRx, if_pos hen]
  extract_lets mbps s1 s2
  have h1 : s.PortOnly s1 p [A.MAC_STATUS p] := .ite .refl (portOnly_txMark s p _)
  refine ⟨State.flag_setb _ _ _ _ (by decide), ?_, h1.trans ((portOnly_putPort ..).trans (portOnly_wr _ p _ List.mem_cons_self))⟩
  have hnow : s1.now = s.now := h1.part State.now
  have hport : s2.port p = { s1.port p with pauseEnd := s1.now + quantaTicks mbps q } := port_putPort_self ..
  rw [show (s2.setb (A.MAC_STATUS p) F.MAC_STATUS.PAUSED (decide (q ≠ 0))).port p = s2.port p from rfl, hport, hnow]

theorem flag_macCtrl_macCnt (s : State) (p n : Nat) (f : Fld) : (s.macCnt p 5 n).flag (A.MAC_CTRL p) f = s.flag (A.MAC_CTRL p) f := by
  have hctrl : A.MAC_CTRL p ∉ cntRegs p 5 := by
    simp only [cntRegs, perRegs, List.mem_append, List.mem_cons, List.mem_map, List.mem_range, not_or, not_exists, not_and,
      List.not_mem_nil, A.MAC_CNT, A.MAC_CNT_WRAP, A.MAC_PER_STATUS, A.MAC_PER_LIVE, A.MAC_PER_SHADOW, A.MAC_CTRL]
    exact ⟨⟨by omega, by omega, not_false⟩, ⟨by omega, fun _ _ => by omega⟩, fun _ _ => by omega⟩
  rw [State.flag, State.fld, State.macCnt, (portOnly_macCntAt s p 5 n s.raw).regs _ hctrl, ← State.fld, ← State.flag]

theorem pauseRx_of_off (s : State) (p q : Nat) (hoff : s.flag (A.MAC_CTRL p) F.MAC_CTRL.PAUSE_RX_EN = false) : s.pauseRx p q = s :=
  if_neg (by simp [hoff])

/-- A received PAUSE frame, counted and taken (R285, R293). -/
theorem pauseRx_counted (s : State) (p : Fin 24) (q : Nat) (hen : s.flag (A.MAC_CTRL p) F.MAC_CTRL.PAUSE_RX_EN = true) :
    s.countsOnce ((s.macCnt p 5 1).pauseRx p q) p 5 ∧
    ((s.macCnt p 5 1).pauseRx p q).flag (A.MAC_STATUS p) F.MAC_STATUS.PAUSED = decide (q ≠ 0) ∧
    (((s.macCnt p 5 1).pauseRx p q).port p).pauseEnd = s.now + quantaTicks (s.portMbps (unitHalf p 12) (p.val % 12)) q ∧
    s.PortOnly ((s.macCnt p 5 1).pauseRx p q) p (A.MAC_STATUS p :: eventRegs p 5) := by
  have heq : s.macCnt p 5 1 = s.counted p 5 1 := macCntAt_eq ..
  have hcnt : s.PortOnly (s.macCnt p 5 1) p (eventRegs p 5) := by
    rw [heq]
    exact (portOnly_counted s p 5 1).mono (List.subset_append_left _ [A.MAC_PER_LIVE p 0, A.MAC_PER_SHADOW p 0])
  have hstat : A.MAC_STATUS p ∉ eventRegs p 5 := by
    simp only [eventRegs, List.mem_cons, List.not_mem_nil, or_false, not_or,
      A.MAC_CNT, A.MAC_CNT_WRAP, A.MAC_PER_LIVE, A.MAC_PER_SHADOW, A.MAC_STATUS]
    omega
  have hno : 12 * (unitHalf p 12).n + p.val % 12 = p.val := by
    have : (unitHalf p 12).n = p.val / 12 := by
      have hp : p.val / 12 = 0 ∨ p.val / 12 = 1 := by omega
      rcases hp with hp | hp <;> rw [unitHalf, hp] <;> rfl
    omega
  obtain ⟨hflag, hend, hpause⟩ := pauseRx_effect (s.macCnt p 5 1) p q (by rwa [flag_macCtrl_macCnt])
  refine ⟨countsOnce_of_rd (countsOnce_macCntAt s p s.raw (by decide)) (hpause.regs _ ?_) (hpause.regs _ ?_), hflag, ?_,
    (hcnt.mono (List.subset_cons_self _ _)).trans (hpause.mono (by simp))⟩
  · simp [A.MAC_CNT, A.MAC_STATUS]; omega
  · simp [A.MAC_CNT_WRAP, A.MAC_STATUS]
  · rw [hend, hcnt.part State.now, portMbps_of_rd _ _ (hcnt.regs _ (by rw [hno]; exact hstat))]

/-! ### Delivery -/

/-- A WRAP bit that is set stays set. -/
theorem wrap_macCntAt_keeps {s : State} {p k n at_ j : Nat} (hj : j < 24) (h : bitAt (s.rdn (A.MAC_CNT_WRAP p)) j = true) :
    bitAt ((s.macCntAt p k n at_).rdn (A.MAC_CNT_WRAP p)) j = true := by
  rw [State.rdn, (portOnly_macCntAt_counted s p k n at_).regs _ wrap_notMem_perRegs]
  unfold State.counted
  extract_lets new t
  have ht : t.rdn (A.MAC_CNT_WRAP p) = s.rdn (A.MAC_CNT_WRAP p) := by
    rw [State.rdn, State.rd_wrn, if_neg (cnt_ne_wrap p k).symm, State.rdn]
  split
  · rw [← State.rdn, State.rdn, State.rd_wrn, if_pos rfl, BitVec.toNat_ofNat, bitAt_eq_testBit, Nat.testBit_mod_two_pow,
      Nat.testBit_or, ht, ← bitAt_eq_testBit, h]
    simp
    omega
  · exact (congrArg (bitAt · j) ht).trans h

/-- A count of another counter leaves a count as it was. -/
theorem countsOnce_after {p j n at_ : Nat} (h : s.countsOnce t p k) (hk : k < 32) (hne : k ≠ j) :
    s.countsOnce (t.macCntAt p j n at_) p k := by
  obtain ⟨hcnt, hwrap⟩ := h
  refine ⟨(rdn_macCntAt_other hk hne).trans hcnt, fun hbit hk24 => ?_⟩
  rw [rdn_macCntAt_other hk hne] at hbit
  exact wrap_macCntAt_keeps hk24 (hwrap hbit hk24)

/-- A count of an event in a state where the counter has not advanced yet. -/
theorem countsOnce_of_rdn {p at_ : Nat} (hk : k < 32) (hold : t.rdn (A.MAC_CNT p k) = s.rdn (A.MAC_CNT p k)) :
    s.countsOnce (t.macCntAt p k 1 at_) p k := by
  have h := countsOnce_macCntAt t p at_ hk
  unfold State.countsOnce at h ⊢
  rwa [hold] at h

/-- A frame received, counted (Table 6.3, R299): itself, its octets with the FCS, its kind of destination. -/
theorem rxCount_counts (s : State) (p : Nat) (bs : List Byte) (at_ : Nat) :
    s.countsOnce (s.rxCount p bs at_) p 0 ∧ (s.rxCount p bs at_).rdn (A.MAC_CNT p 1) = (s.rdn (A.MAC_CNT p 1) + bs.length + 4) % 2 ^ 32 ∧
    s.countsOnce (s.rxCount p bs at_) p (2 + castOf bs) := by
  have hcast := castOf_le bs
  have hother : ∀ j, j ≠ 0 → j ≠ 1 → j < 32 → ((s.macCntAt p 0 1 at_).macCntAt p 1 (bs.length + 4) at_).rdn (A.MAC_CNT p j) =
      s.rdn (A.MAC_CNT p j) := fun j h0 h1 hj => (rdn_macCntAt_other hj h1).trans (rdn_macCntAt_other hj h0)
  refine ⟨?_, ?_, countsOnce_of_rdn (by omega) (hother _ (by omega) (by omega) (by omega))⟩
  · have h0 : s.countsOnce (s.macCntAt p 0 1 at_) p 0 := countsOnce_macCntAt s p at_ (by decide)
    exact countsOnce_after (countsOnce_after h0 (by decide) (by decide)) (by decide) (by omega)
  · rw [State.rxCount, rdn_macCntAt_other (by decide) (by omega), rdn_macCntAt (by decide), rdn_macCntAt_other (by decide) (by decide),
      Nat.add_assoc]

/-- A PTP event frame is written to the timestamp rings, above the registers of the ports. -/
theorem rd_ptpRing_below (s : State) (p : Nat) (rx : Bool) (at_ : Nat) (bs : List Byte) {a : Nat} (ha : a < 0x33000000) :
    (s.ptpRing p rx at_ bs).rd a = s.rd a := by
  unfold State.ptpRing
  split
  · rfl
  · extract_lets g cnt n slot w2
    have hcnt : 0x33000000 ≤ cnt := by
      cases rx <;> simp only [cnt, A.GAUGE_TS_RX_CNT, A.GAUGE_TS_TX_CNT, if_true, Bool.false_eq_true, if_false] <;> omega
    have hslot : 0x33000000 ≤ slot := by
      cases rx <;> simp only [slot, A.GAUGE_TS_RX_RING, A.GAUGE_TS_TX_RING, if_true, Bool.false_eq_true, if_false] <;> omega
    rw [State.inc, State.rd_wr_other _ _ _ _ (by omega), rd_wrWords_outside _ _ _ _ (by omega)]

theorem ptpRing_frame (s : State) (p : Nat) (rx : Bool) (at_ : Nat) (bs : List Byte) :
    { s.ptpRing p rx at_ bs with regs := s.regs } = s := by
  unfold State.ptpRing
  split
  · rfl
  · exact wrWords_frame s _ _

/-- The counters of an external port lie below the Gauge. -/
theorem cnt_below (p : Fin 24) (hk : k < 32) : A.MAC_CNT p k < 0x33000000 ∧ A.MAC_CNT_WRAP p < 0x33000000 := by
  simp only [A.MAC_CNT, A.MAC_CNT_WRAP]
  omega

/-- A frame of an inline port that passed the checks is counted, and enters no plane (R184). -/
theorem macDeliver_inline (s : State) (p : Fin 24) (bs : List Byte) (at_ : Nat) (hinl : s.inlinePort (unitHalf p 12) (p.val % 12) = true) :
    s.countsOnce (s.macDeliver p bs at_) p 0 ∧ (s.macDeliver p bs at_).rdn (A.MAC_CNT p 1) = (s.rdn (A.MAC_CNT p 1) + bs.length + 4) % 2 ^ 32 ∧
    s.countsOnce (s.macDeliver p bs at_) p (2 + castOf bs) ∧
    { s.macDeliver p bs at_ with regs := s.regs, ports := s.ports } = s := by
  have heq : s.macDeliver p bs at_ = (s.rxCount p bs s.raw).ptpRing p true at_ bs := if_pos hinl
  have hrd : ∀ a < 0x33000000, (s.macDeliver p bs at_).rd a = (s.rxCount p bs s.raw).rd a := fun a ha => by
    rw [heq, rd_ptpRing_below _ _ _ _ _ ha]
  have hcast := castOf_le bs
  obtain ⟨h0, h1, h2⟩ := rxCount_counts s p bs s.raw
  refine ⟨countsOnce_of_rd h0 (hrd _ (cnt_below p (by decide)).1) (hrd _ (cnt_below p (k := 0) (by decide)).2), ?_,
    countsOnce_of_rd h2 (hrd _ (cnt_below p (by omega)).1) (hrd _ (cnt_below p (k := 0) (by decide)).2), ?_⟩
  · rw [State.rdn, hrd _ (cnt_below p (by decide)).1, ← State.rdn, h1]
  · rw [heq]
    exact (congrArg (fun x : State => { x with regs := s.regs, ports := s.ports }) (ptpRing_frame _ p true at_ bs)).trans
      (portOnly_rxCount s p bs s.raw).rest

/-- Any other frame that passed waits at its port to enter the plane. -/
theorem macDeliver_plane (s : State) (p : Nat) (bs : List Byte) (at_ : Nat) (hinl : s.inlinePort (unitHalf p 12) (p % 12) = false) :
    s.macDeliver p bs at_ = s.mapPlane (unitHalf p 12) fun x =>
      { x with inq := x.inq ++ [⟨p % 12, bs, at_ / 8, 0, 0, 0, none, none, at_ % 8, s.raw⟩] } := if_neg (by simp [hinl])

theorem emitField_eq (s : State) (h : Half) (o : Output) :
    s.emitField h o = { s with out := if (s.hrst h).isolated then s.out else o :: s.out } := by
  have key : ∀ b : Bool, (if b then s else s.emit o) = { s with out := if b then s.out else o :: s.out } := fun b => by
    cases b <;> rfl
  cases h <;> exact key _

theorem mapPlane_frame (s : State) (h : Half) (g : Plane → Plane) : { s.mapPlane h g with planeK := s.planeK, planeP := s.planeP } = s := by
  cases h <;> rfl

theorem plane_mapPlane_other (s : State) (h : Half) (g : Plane → Plane) : (s.mapPlane h g).plane h.other = s.plane h.other := by
  cases h <;> rfl

/-- Settles O39: the outcome of each check of Table 6.2 in turn, PAUSE frames, and delivery. -/
theorem macReceiveEffects : Obligations.MacReceiveEffects := by
  intro s p bs code lost fcs capture c h n at_ f still up line on ok counts mine ends
  refine ⟨?_, ?_, ?_, ?_, ?_, ?_, ?_, ?_, ?_, ?_, ?_, ?_, ?_, ?_, ?_⟩
  · rintro ⟨hfar, hoff⟩
    show execMacFrameReceive p bs code lost fcs capture s = _
    rw [execMacFrameReceive, if_neg (by simp [hfar])]
    split
    · next hin =>
      rw [State.macRx, if_pos]
      rcases hoff with hoff | hoff | hoff
      · exact .inr (by simpa using hoff)
      · exact absurd hin.1 (by omega)
      · exact .inl hoff
    · rfl
  · rintro ⟨hfar, hline⟩
    show execMacFrameReceive p bs code false fcs capture s = _
    rw [execMacFrameReceive, if_neg (by simp [hfar]), if_neg (by simp [hline])]
  · intro hfar
    have hback : exec (.macFrameReceive p bs code lost true capture) s = .next (s.emitField h (.frame p (withFcs bs))) := if_pos hfar
    exact ⟨_, hback.trans (congrArg _ (emitField_eq ..)), rfl, rfl⟩
  · rintro ⟨⟨hfar, hen, hport, hbs⟩, hn⟩
    refine ⟨_, exec_receive hfar hport (.inl rfl), ?_⟩
    rw [macRx_of_lost hen hbs (.inl rfl) hn]
    exact ends_macCnt s p (by decide)
  · rintro ⟨⟨hfar, hen, hport, hbs⟩, hline, hdown, hn⟩
    refine ⟨_, exec_receive hfar hport (.inr hline), ?_⟩
    rw [macRx_of_lost hen hbs (.inr (by simpa [up] using hdown)) hn]
    exact ends_macCnt s p (by decide)
  · rintro ⟨⟨⟨hfar, hen, hport, hbs⟩, hline, hup⟩, hn⟩
    refine ⟨_, exec_receive hfar hport (.inr hline), ?_⟩
    rw [macRx_of_codeErr hen hbs hup hn]
    exact ends_macCnt s p (by decide)
  · rintro ⟨⟨⟨hfar, hen, hport, hbs⟩, hline, hup⟩, hn⟩
    refine ⟨_, exec_receive hfar hport (.inr hline), ?_⟩
    rw [macRx_of_short hen hbs hup hn]
    exact ends_macCnt s p (by decide)
  · rintro ⟨⟨⟨hfar, hen, hport, hbs⟩, hline, hup⟩, hmin, hlong, hmax⟩
    refine ⟨_, exec_receive hfar hport (.inr hline), ?_⟩
    rw [macRx_of_long hen hbs hup hmin hlong hmax]
    exact ends_macCnt s p (by decide)
  · rintro ⟨⟨⟨⟨hfar, hen, hport, hbs⟩, hline, hup⟩, hmin, hmax⟩, hn⟩
    refine ⟨_, exec_receive hfar hport (.inr hline), ?_⟩
    rw [macRx_of_badFcs hen hbs hup hmin hmax hn]
    exact ends_macCnt s p (by decide)
  · rintro ⟨⟨⟨⟨hfar, hen, hport, hbs⟩, hline, hup⟩, hmin, hmax⟩, hctl, hop⟩
    refine ⟨_, exec_receive hfar hport (.inr hline), ?_⟩
    rw [macRx_of_good hen hbs hup hmin hmax, if_pos hctl, if_neg hop]
    exact ends_macCnt s p (by decide)
  · rintro ⟨⟨⟨⟨hfar, hen, hport, hbs⟩, hline, hup⟩, hmin, hmax⟩, hctl, hop, hoff⟩
    refine ⟨_, exec_receive hfar hport (.inr hline), ?_⟩
    rw [macRx_of_good hen hbs hup hmin hmax, if_pos hctl, if_pos hop, pauseRx_of_off _ _ _ (by rwa [flag_macCtrl_macCnt])]
    exact ends_macCnt s p (by decide)
  · rintro ⟨⟨⟨⟨hfar, hen, hport, hbs⟩, hline, hup⟩, hmin, hmax⟩, hctl, hop, hon⟩
    refine ⟨_, exec_receive hfar hport (.inr hline), ?_⟩
    rw [macRx_of_good hen hbs hup hmin hmax, if_pos hctl, if_pos hop]
    obtain ⟨hcnt, hpaused, hend, hregs, hports, hrest⟩ := pauseRx_counted s p (be16At bs 16) hon
    exact ⟨hcnt, hpaused, hend, hregs, hports, hrest⟩
  · rintro ⟨⟨⟨⟨hfar, hen, hport, hbs⟩, hline, hup⟩, hmin, hmax⟩, hdata, hfilter⟩
    refine ⟨_, exec_receive hfar hport (.inr hline), ?_⟩
    rw [macRx_of_good hen hbs hup hmin hmax, if_neg hdata, if_pos (by simp [hfilter])]
    exact ends_macCnt s p (by decide)
  · rintro ⟨⟨⟨⟨hfar, hen, hport, hbs⟩, hline, hup⟩, hmin, hmax⟩, hdata, hfilter, hinl⟩
    refine ⟨_, exec_receive hfar hport (.inr hline), ?_⟩
    rw [macRx_of_good hen hbs hup hmin hmax, if_neg hdata, if_neg (by simp [hfilter]), macDeliver_plane _ _ _ _ hinl]
    exact ⟨by rw [plane_mapPlane_self], mapPlane_frame .., by rw [plane_mapPlane_self], plane_mapPlane_other ..⟩
  · rintro ⟨⟨⟨⟨hfar, hen, hport, hbs⟩, hline, hup⟩, hmin, hmax⟩, hdata, hfilter, hinl⟩
    refine ⟨_, exec_receive hfar hport (.inr hline), ?_⟩
    rw [macRx_of_good hen hbs hup hmin hmax, if_neg hdata, if_neg (by simp [hfilter])]
    obtain ⟨h0, h1, h2, hrest⟩ := macDeliver_inline s p bs at_ hinl
    exact ⟨h0, h1, h2, (congrArg State.planeK hrest :), (congrArg State.planeP hrest :), (congrArg State.mem hrest :),
      (congrArg State.ne hrest :)⟩

end Sys2Proof.Machine
end

section
/-! PROOFS. Frames into a plane and out of it: copies for one port, SP9, the twin check's window (R344 to R396). -/

namespace Sys2Proof.Machine
open Sys2Proof

-- Parallel elaboration holds many stacks at once, and they count towards the memory a check may take.
set_option Elab.async false

variable {s t : State} {h : Half} {f : InFrame} {d : Fwd} {q : PCopy}

/-! ### One copy of a frame -/

/-- The copy of a frame for one port, unmetered, without a sequence number of its own. -/
def copyTo (f : InFrame) (d : Fwd) (o : Nat) : PCopy :=
  ⟨f.ingress, o, d.cls, f.bytes, frameCells f.bytes.length, f.stamp, if f.ingress = 11 then f.colour else 0, d.flow, d.needle, 0, 0,
    f.seq, 0⟩

theorem bitAt_two_pow (o k : Nat) : bitAt (2 ^ o) k = decide (o = k) := by rw [bitAt_eq_testBit, Nat.testBit_two_pow]

/-- The mask of the ports that meet a condition which one port alone meets. -/
theorem foldl_portMask (o : Fin 9) {g : Nat → Prop} [DecidablePred g] (hg : ∀ k, g k ↔ k = o.val) :
    (List.range 12).foldl (fun m k => if g k then m + 2 ^ k else m) 0 = 2 ^ o.val := by
  have hone : ∀ o : Fin 9, (List.range 12).foldl (fun m k => if k = o.val then m + 2 ^ k else m) 0 = 2 ^ o.val := by decide
  simp only [hg]
  exact hone o

theorem copiesFor_one (f : InFrame) (d : Fwd) (o : Fin 9) (hred : d.red = 0) :
    copiesFor f d (if f.ingress = 11 then f.colour else 0) f.seq (2 ^ o.val) = [copyTo f d o] := by
  have hport : ((List.range 12).filter fun k => bitAt (2 ^ o.val) k) = [o.val] := by decide +revert
  rw [copiesFor, hport, copyTo, hred]
  rfl

theorem redSequence_plain (s : State) (o : Fin 9) (hegress : d.egress = 2 ^ o.val) (hred : d.red = 0) (hrole : s.redRole h o = 0) :
    s.redSequence h f d = (f.seq, s) := by
  have hnamed : ((List.range 9).any fun n => bitAt (2 ^ o.val) n && s.redRole h n != 0) = false := by
    rw [List.any_eq_false]
    intro k _
    rw [bitAt_two_pow]
    by_cases hko : o.val = k
    · subst hko; simp [hrole]
    · simp [hko]
  rw [State.redSequence, hegress, hnamed, hred]
  simp

theorem redNumber_plain (s : State) (hrole : s.redRole h q.outp = 0) (bs : List Byte) : s.redNumber h bs [q] = ([q], s) := by
  simp [State.redNumber, hrole]

theorem planeIngress_one (s : State) (o : Fin 9) (hd : s.fwdDecide h f = some d) (hegress : d.egress = 2 ^ o.val)
    (hmeter : d.meter = none) (hred : d.red = 0) (hne : o.val ≠ f.ingress) (hinl : s.inlinePort h o = false)
    (hrole : s.redRole h o = 0) : s.planeIngress h f = s.queueCopies h f [copyTo f d o] := by
  have ho := o.isLt
  have hset : (List.range 12).foldl (fun m k => if bitAt (2 ^ o.val) k = true ∧ k ≠ f.ingress then m + 2 ^ k else m) 0 = 2 ^ o.val :=
    foldl_portMask o fun k => by
      rw [bitAt_two_pow, decide_eq_true_iff]
      exact ⟨fun h => h.1.symm, fun h => ⟨h.symm, h ▸ hne⟩⟩
  have h9 : bitAt (2 ^ o.val) 9 = false := by rw [bitAt_two_pow, decide_eq_false_iff_not]; omega
  have h11 : bitAt (2 ^ o.val) 11 = false := by rw [bitAt_two_pow, decide_eq_false_iff_not]; omega
  have hpos : 2 ^ o.val ≠ 0 := (Nat.two_pow_pos _).ne'
  rw [State.planeIngress, hd]
  dsimp only
  rw [hegress, hset]
  simp only [h9, h11, Bool.false_eq_true, false_and, decide_false, if_false, if_neg hpos]
  rw [foldl_portMask o fun k => ?ports, hmeter, redSequence_plain s o hegress hred hrole]
  case ports =>
    rw [bitAt_two_pow]
    simp only [decide_eq_true_eq, and_false, decide_false, Bool.not_false, and_true]
    exact ⟨fun h => h.1.symm, fun h => ⟨h.symm, by simp [h, hinl]⟩⟩
  have hkey : (if f.ingress = 9 ∨ f.ingress = 10 then none else redKey d.red f.bytes) = none := by
    rw [hred]
    exact ite_self _
  dsimp only
  rw [copiesFor_one f d o hred, redNumber_plain s hrole, hkey]
  rw [if_neg (fun h => absurd (hred ▸ h.1) (by decide)), if_neg (by decide)]
  dsimp only
  split
  · next s2 hs2 => rw [hs2]
  · next => rfl


/-! ### The account of one copy -/

theorem sieve_off (hmode : s.fld (A.SWQ_SIEVE h.n (8 * q.outp + q.cls)) F.SWQ_SIEVE.MODE = 0) : s.sieve h q = (some q, s) := by
  rw [State.sieve]
  dsimp only
  rw [hmode]
  rfl

/-- One copy with room in its account is queued. -/
theorem queueCopies_fits (hsieve : s.sieve h q = (some q, s)) (hfits : s.fits h q = true) : s.queueCopies h f [q] =
    ((s.mapPlane h fun x => { x with voq := x.voq ++ [q] }).planeShow h q.inp q.outp q.cls, .taken) := by
  have hoffer : s.offer h q = ((s.mapPlane h fun x => { x with voq := x.voq ++ [q] }).planeShow h q.inp q.outp q.cls, 0) := by
    rw [State.offer, hsieve]
    exact if_pos hfits
  rw [State.queueCopies, if_neg (List.cons_ne_nil _ _), State.offerAll, hoffer]
  rfl

/-- One copy without room is refused, and counted for a frame of an external port. -/
theorem queueCopies_refused (hsieve : s.sieve h q = (some q, s)) (hfits : s.fits h q = false) : s.queueCopies h f [q] =
    (if 9 ≤ f.ingress then s else s.inc (A.SWQ_DROP_LIMIT h.n (8 * q.outp + q.cls)), .refused) := by
  have hoffer : s.offer h q = (s, 2) := by
    rw [State.offer, hsieve]
    exact if_neg (by simp [hfits])
  rw [State.queueCopies, if_neg (List.cons_ne_nil _ _), State.offerAll, hoffer]
  rfl

/-! ### What a change of the planes' records leaves -/

section
variable (s h) (h' : Half) (x : Plane) (rest : List InFrame) (f)

theorem fwdDecide_putPlane : (s.putPlane h x).fwdDecide h' f = s.fwdDecide h' f := by cases h <;> rfl
theorem inlinePort_putPlane (n : Nat) : (s.putPlane h x).inlinePort h' n = s.inlinePort h' n := by cases h <;> rfl
theorem redRole_putPlane (n : Nat) : (s.putPlane h x).redRole h' n = s.redRole h' n := by cases h <;> rfl
theorem perPending_putPlane (p at_ : Nat) : (s.putPlane h x).perPending p at_ = s.perPending p at_ := by cases h <;> rfl
theorem rd_putPlane (a : Nat) : (s.putPlane h x).rd a = s.rd a := by cases h <;> rfl
theorem fits_putPlane_inq (q : PCopy) : (s.putPlane h { s.plane h with inq := rest }).fits h q = s.fits h q := by cases h <;> rfl
theorem putPlane_frame : { s.putPlane h x with planeK := s.planeK, planeP := s.planeP } = s := by cases h <;> rfl
theorem plane_putPlane_self : (s.putPlane h x).plane h = x := by cases h <;> rfl

end

/-! ### The registers that show the buffer -/

/-- The registers of an ingress port and of the buffer that follow a change of an account. -/
def showRegs (h : Half) (i : Nat) : List Nat := [A.SW_BUF_FREE h.n, A.SWP_IN_CELLS h.n i, A.MAC_STATUS (portNo h i)]

theorem portOnly_xoffUpdate (s : State) (h : Half) (i : Nat) : s.PortOnly (s.xoffUpdate h i) (portNo h i) (showRegs h i) := by
  have hcells : A.SWP_IN_CELLS h.n i ∈ showRegs h i := List.mem_cons_of_mem _ List.mem_cons_self
  have hstatus : A.MAC_STATUS (portNo h i) ∈ showRegs h i := List.mem_cons_of_mem _ (List.mem_cons_of_mem _ List.mem_cons_self)
  unfold State.xoffUpdate
  extract_lets n xoff xon0 xon p was s1 s2
  have h1 : s.PortOnly s1 p (showRegs h i) := portOnly_wr s p _ hcells
  have hmark : ∀ v, s.PortOnly ((s1.txMark p).setf (A.MAC_STATUS p) F.MAC_STATUS.XOFF v) p (showRegs h i) := fun v =>
    h1.trans ((portOnly_txMark s1 p _).trans (portOnly_wr _ p _ hstatus))
  exact h1.ite ((hmark 1).ite (((hmark 0).trans (portOnly_putPort ..)).ite h1))

/-- What shows the depth of an account, before the free cells and the ingress port follow. -/
theorem planeShow_eq (s : State) (h : Half) (i o c : Nat) :
    (s.setf (A.SWQ_DEPTH h.n (8 * o + c)) F.SWQ_DEPTH.DEPTH ((s.plane h).depth o c)).PortOnly (s.planeShow h i o c) (portNo h i)
      (showRegs h i) := by
  have hfree : A.SW_BUF_FREE h.n ∈ showRegs h i := List.mem_cons_self
  unfold State.planeShow
  extract_lets x s1 free s2 s3
  have h2 : s1.PortOnly s2 (portNo h i) (showRegs h i) := portOnly_wr s1 _ _ hfree
  have h3 : s1.PortOnly s3 (portNo h i) (showRegs h i) := (h2.trans (portOnly_wr _ _ _ hfree)).ite h2
  exact h3.trans (portOnly_xoffUpdate ..)

theorem portOnly_planeShow (s : State) (h : Half) (i o c : Nat) :
    s.PortOnly (s.planeShow h i o c) (portNo h i) (A.SWQ_DEPTH h.n (8 * o + c) :: showRegs h i) :=
  (portOnly_wr s _ _ List.mem_cons_self).trans ((planeShow_eq s h i o c).mono (List.subset_cons_self ..))

theorem fld_depth_planeShow (s : State) (h : Half) (i o c : Nat) :
    (s.planeShow h i o c).fld (A.SWQ_DEPTH h.n (8 * o + c)) F.SWQ_DEPTH.DEPTH =
      ((s.plane h).depth o c) % 2 ^ fldWidth F.SWQ_DEPTH.DEPTH := by
  have hnot : A.SWQ_DEPTH h.n (8 * o + c) ∉ showRegs h i := by
    simp only [showRegs, portNo, List.mem_cons, List.not_mem_nil, or_false, not_or, A.SWQ_DEPTH, A.SW_BUF_FREE, A.SWP_IN_CELLS,
      A.MAC_STATUS]
    omega
  rw [State.fld, (planeShow_eq s h i o c).regs _ hnot, ← State.fld, State.fld_setf _ _ _ _ (by decide)]

/-! ### What the plane has taken is counted -/

/-- A frame counted as received: itself, its octets with the FCS, its kind of destination (R299). -/
def State.gotFrame (s t : State) (p : Nat) (bs : List Byte) : Prop :=
  t.rdn (A.MAC_CNT p 0) = (s.rdn (A.MAC_CNT p 0) + 1) % 2 ^ 32 ∧
  t.rdn (A.MAC_CNT p 1) = (s.rdn (A.MAC_CNT p 1) + bs.length + 4) % 2 ^ 32 ∧
  t.rdn (A.MAC_CNT p (2 + castOf bs)) = (s.rdn (A.MAC_CNT p (2 + castOf bs)) + 1) % 2 ^ 32

theorem gotFrame_rxCount (s : State) (p : Nat) (bs : List Byte) (at_ : Nat) : s.gotFrame (s.rxCount p bs at_) p bs := by
  obtain ⟨⟨h0, _⟩, h1, h2, _⟩ := rxCount_counts s p bs at_
  exact ⟨h0, h1, h2⟩

theorem gotFrame_of_rd {u v : State} {p : Nat} {bs : List Byte} (hg : t.gotFrame u p bs)
    (hold : ∀ k < 32, t.rd (A.MAC_CNT p k) = s.rd (A.MAC_CNT p k)) (hnew : ∀ k < 32, v.rd (A.MAC_CNT p k) = u.rd (A.MAC_CNT p k)) :
    s.gotFrame v p bs := by
  have hcast := castOf_le bs
  unfold State.gotFrame State.rdn at hg ⊢
  rwa [hold 0 (by decide), hold 1 (by decide), hold (2 + castOf bs) (by omega), ← hnew 0 (by decide), ← hnew 1 (by decide),
    ← hnew (2 + castOf bs) (by omega)] at hg

theorem validFrame_eq (s : State) (p : Nat) (bs : List Byte) : ∃ w, s.validFrame p bs = { s with wake := w } := by
  unfold State.validFrame
  extract_lets n
  split
  · unfold State.validTraffic
    split <;> exact ⟨_, rfl⟩
  · exact ⟨_, rfl⟩

theorem validFrame_frame (s : State) (p : Nat) (bs : List Byte) : { s.validFrame p bs with wake := s.wake } = s := by
  obtain ⟨w, hw⟩ := validFrame_eq s p bs
  rw [hw]

/-- Of the registers those of the ports and rings, and the ports and the checks of wakes have changed, nothing else. -/
theorem rxTaken_frame (s : State) (p : Nat) (f : InFrame) :
    { s.rxTaken p f with regs := s.regs, ports := s.ports, wake := s.wake } = s := by
  have h1 := (portOnly_rxCount s p f.bytes f.ended).rest
  have h2 := ptpRing_frame (s.rxCount p f.bytes f.ended) p true (8 * f.stamp + f.phase) f.bytes
  have h3 := validFrame_frame ((s.rxCount p f.bytes f.ended).ptpRing p true (8 * f.stamp + f.phase) f.bytes) p f.bytes
  exact ((congrArg (fun x : State => { x with regs := s.regs, ports := s.ports, wake := s.wake }) h3).trans
    (congrArg (fun x : State => { x with regs := s.regs, ports := s.ports, wake := s.wake }) h2)).trans
      (congrArg (fun x : State => { x with wake := s.wake }) h1)

theorem rd_rxTaken (s : State) (p : Nat) (f : InFrame) {a : Nat} (ha : a < 0x33000000) :
    (s.rxTaken p f).rd a = (s.rxCount p f.bytes f.ended).rd a := by
  have h3 := validFrame_frame ((s.rxCount p f.bytes f.ended).ptpRing p true (8 * f.stamp + f.phase) f.bytes) p f.bytes
  exact (congrArg (fun x : State => x.rd a) h3).trans (rd_ptpRing_below _ p true _ f.bytes ha)

/-- A frame that the plane has taken at a port, counted (R294, R299). -/
def State.ingressTaken (s : State) (h : Half) (p : Fin 12) (f : InFrame) : State :=
  if p.val < 9 then s.rxTaken (portNo h p) f else s.rxCount (portNo h p) f.bytes s.raw

theorem portNo_div (h : Half) (p : Fin 12) : portNo h p / 12 = h.n := by
  rw [portNo, Nat.mul_add_div (by decide), Nat.div_eq_of_lt p.isLt, Nat.add_zero]

theorem portNo_mod (h : Half) (p : Fin 12) : portNo h p % 12 = p := by
  rw [portNo, Nat.mul_add_mod, Nat.mod_eq_of_lt p.isLt]

theorem portNo_cnt_below (h : Half) (p : Fin 12) {k : Nat} (hk : k < 32) : A.MAC_CNT (portNo h p) k < 0x33000000 := by
  have hp := p.isLt
  have hn : h.n ≤ 1 := by cases h <;> decide
  simp only [A.MAC_CNT, portNo]
  omega

theorem ingressTaken_effect (s : State) (h : Half) (p : Fin 12) (f : InFrame) :
    s.gotFrame (s.ingressTaken h p f) (portNo h p) f.bytes ∧ (s.ingressTaken h p f).plane h = s.plane h ∧
    (s.ingressTaken h p f).mem = s.mem ∧ (s.ingressTaken h p f).ne = s.ne ∧
    ∀ a, (p.val < 9 → a < 0x33000000) → a ∉ countRegs (portNo h p) → (s.ingressTaken h p f).rd a = s.rd a := by
  by_cases hp : p.val < 9
  · rw [State.ingressTaken, if_pos hp]
    have hframe := rxTaken_frame s (portNo h p) f
    refine ⟨gotFrame_of_rd (gotFrame_rxCount s _ f.bytes f.ended) (fun _ _ => rfl) fun k hk =>
      rd_rxTaken s _ f (portNo_cnt_below h p hk), ?_, (congrArg State.mem hframe :), (congrArg State.ne hframe :), fun a ha hnot => ?_⟩
    · cases h
      · exact (congrArg State.planeK hframe :)
      · exact (congrArg State.planeP hframe :)
    · exact (rd_rxTaken s _ f (ha hp)).trans ((portOnly_rxCount s _ f.bytes f.ended).regs a hnot)
  · rw [State.ingressTaken, if_neg hp]
    have hcount := portOnly_rxCount s (portNo h p) f.bytes s.raw
    exact ⟨gotFrame_rxCount s _ f.bytes s.raw, hcount.part (State.plane · h) (by cases h <;> exact fun _ _ _ => rfl),
      hcount.part State.mem, hcount.part State.ne, fun a _ hnot => hcount.regs a hnot⟩

section
variable {p : Fin 12} (hfront : ((s.plane h).inq.find? fun f => f.ingress = p.val) = some f)
include hfront

theorem ingress_of_front : f.ingress = p.val := by
  simpa using List.find?_some hfront

/-- The state in which the frame at the front of a port no longer waits. -/
def State.unqueued (s : State) (h : Half) (p : Fin 12) : State :=
  s.putPlane h { s.plane h with inq := (s.plane h).inq.eraseP fun f => f.ingress = p.val }

theorem exec_ingress_taken (ht : (s.unqueued h p).planeIngress h f = (t, .taken)) :
    exec (.planeFrameIngress h p) s = .next (t.ingressTaken h p f) := by
  show execPlaneFrameIngress h p s = _
  rw [execPlaneFrameIngress, hfront]
  dsimp only
  rw [← State.unqueued, ht]
  rfl

theorem exec_ingress_refused (ht : (s.unqueued h p).planeIngress h f = (t, .refused)) :
    exec (.planeFrameIngress h p) s = .next (if p.val < 9 then t.macCntAt (portNo h p) 13 1 f.ended else s) := by
  show execPlaneFrameIngress h p s = _
  rw [execPlaneFrameIngress, hfront]
  dsimp only
  rw [← State.unqueued, ht]

end

/-! ### PLANE_FRAME_INGRESS -/

section
variable (s h) (p : Fin 12)

theorem rd_unqueued (a : Nat) : (s.unqueued h p).rd a = s.rd a := rd_putPlane ..
theorem mem_unqueued : (s.unqueued h p).mem = s.mem := by cases h <;> rfl
theorem ne_unqueued : (s.unqueued h p).ne = s.ne := by cases h <;> rfl
theorem plane_unqueued : (s.unqueued h p).plane h = { s.plane h with inq := (s.plane h).inq.eraseP fun f => f.ingress = p.val } :=
  plane_putPlane_self ..

end

/-- The decision for a frame of an external port names a class from 0 to 7. -/
theorem cls_lt_of_fwdDecide (hd : s.fwdDecide h f = some d) (hext : f.ingress < 9) : d.cls < 8 := by
  have hfget : fget F.SWP_CFG.DEF_TC (s.rd (A.SWP_CFG h.n f.ingress)) < 8 := Nat.mod_lt _ (by decide)
  have hclass : (s.classify h f).2 < 8 := by
    unfold State.classify
    split
    · simp only [Nat.not_le.2 hext]
      exact hfget
    · simp only [Nat.not_le.2 hext]
      exact Nat.mod_lt _ (by decide)
  unfold State.fwdDecide at hd
  rw [if_neg (by omega)] at hd
  split at hd
  next vid cls hvc =>
  rw [hvc] at hclass
  split at hd
  · next i _ =>
    obtain rfl := Option.some.inj hd
    show (if _ then _ else _) < 8
    split
    · exact Nat.mod_lt _ (by decide)
    · exact hclass
  · split at hd
    · obtain rfl := Option.some.inj hd
      exact hclass
    · cases hd

theorem notMem_countRegs_of_above (h : Half) (p : Fin 12) {a : Nat} (ha : 0x31040000 + 0x1000000 * h.n ≤ a) : a ∉ countRegs (portNo h p) := by
  have hp := p.isLt
  simp only [countRegs, perRegs, List.mem_append, List.mem_cons, List.mem_map, List.mem_range, not_or, not_exists, not_and,
    A.MAC_CNT, A.MAC_CNT_WRAP, A.MAC_PER_STATUS, A.MAC_PER_LIVE, A.MAC_PER_SHADOW, portNo]
  exact ⟨fun _ _ => by omega, by omega, ⟨by omega, fun _ _ => by omega⟩, fun _ _ => by omega⟩

section
variable {p : Fin 12} (hfront : ((s.plane h).inq.find? fun f => f.ingress = p.val) = some f)
include hfront

/-- A frame without a decision is taken, dropped and counted (R354). -/
theorem ingress_miss (hd : s.fwdDecide h f = none) : ∃ t, exec (.planeFrameIngress h p) s = .next t ∧
    t.plane h = { s.plane h with inq := (s.plane h).inq.eraseP fun f => f.ingress = p.val } ∧
    t.rd (A.SWP_MISS_DROP h.n p) = satSucc (s.rd (A.SWP_MISS_DROP h.n p)) ∧ s.gotFrame t (portNo h p) f.bytes ∧
    t.mem = s.mem ∧ t.ne = s.ne := by
  have hp := p.isLt
  have hn : h.n ≤ 1 := by cases h <;> decide
  have hing := ingress_of_front hfront
  let u := (s.unqueued h p).inc (A.SWP_MISS_DROP h.n p)
  have ht : (s.unqueued h p).planeIngress h f = (u, .taken) := by
    rw [State.planeIngress, State.unqueued, fwdDecide_putPlane, hd, hing]
    rfl
  have hplaneU : u.plane h = (s.unqueued h p).plane h := by cases h <;> rfl
  have hcnt : ∀ k < 32, u.rd (A.MAC_CNT (portNo h p) k) = s.rd (A.MAC_CNT (portNo h p) k) := fun k hk =>
    (State.rd_wr_other _ _ _ _ (by simp only [A.MAC_CNT, portNo_div, portNo_mod, A.SWP_MISS_DROP]; omega)).trans (rd_unqueued ..)
  obtain ⟨hgot, hplane, hmem, hne, hregs⟩ := ingressTaken_effect u h p f
  refine ⟨_, exec_ingress_taken hfront ht, hplane.trans (hplaneU.trans (plane_unqueued ..)), ?_,
    gotFrame_of_rd hgot hcnt fun _ _ => rfl, hmem.trans (mem_unqueued ..), hne.trans (ne_unqueued ..)⟩
  rw [hregs _ (by simp only [A.SWP_MISS_DROP]; omega) (notMem_countRegs_of_above h p (by simp only [A.SWP_MISS_DROP]; omega))]
  exact (State.rd_wr_self ..).trans (congrArg satSucc (rd_unqueued ..))

/-- A copy with room is queued, shown and counted (R348, R361). -/
theorem ingress_queued (hq : (s.unqueued h p).planeIngress h f = (s.unqueued h p).queueCopies h f [q])
    (hsieve : (s.unqueued h p).sieve h q = (some q, s.unqueued h p)) (hfits : (s.unqueued h p).fits h q = true)
    (hinp : q.inp = p.val) (hext : p.val < 9 → 8 * q.outp + q.cls < 96) : ∃ t, exec (.planeFrameIngress h p) s = .next t ∧
    (t.plane h).inq = ((s.plane h).inq.eraseP fun f => f.ingress = p.val) ∧ (t.plane h).voq = (s.plane h).voq ++ [q] ∧
    (t.plane h).handed = (s.plane h).handed ∧ t.fld (A.SWQ_DEPTH h.n (8 * q.outp + q.cls)) F.SWQ_DEPTH.DEPTH =
      ((t.plane h).depth q.outp q.cls) % 2 ^ fldWidth F.SWQ_DEPTH.DEPTH ∧ s.gotFrame t (portNo h p) f.bytes ∧
    t.mem = s.mem ∧ t.ne = s.ne := by
  have hp := p.isLt
  have hn : h.n ≤ 1 := by cases h <;> decide
  let v := (s.unqueued h p).mapPlane h fun x => { x with voq := x.voq ++ [q] }
  let u := v.planeShow h q.inp q.outp q.cls
  have ht : (s.unqueued h p).planeIngress h f = (u, .taken) := hq.trans (queueCopies_fits hsieve hfits)
  have hshow := portOnly_planeShow v h q.inp q.outp q.cls
  have hv : v.plane h = { s.plane h with inq := (s.plane h).inq.eraseP fun f => f.ingress = p.val, voq := (s.plane h).voq ++ [q] } := by
    rw [plane_mapPlane_self, plane_unqueued]
  have hplaneU : u.plane h = v.plane h := hshow.part (State.plane · h) (by cases h <;> exact fun _ _ _ => rfl)
  have hcnt : ∀ k < 32, u.rd (A.MAC_CNT (portNo h p) k) = s.rd (A.MAC_CNT (portNo h p) k) := fun k hk => by
    refine (hshow.regs _ ?_).trans ((rd_putPlane ..).trans (rd_unqueued ..))
    simp only [List.mem_cons, List.not_mem_nil, or_false, not_or, showRegs, hinp, A.SWQ_DEPTH, A.SW_BUF_FREE, A.SWP_IN_CELLS,
      A.MAC_STATUS, A.MAC_CNT, portNo_div, portNo_mod]
    omega
  obtain ⟨hgot, hplane, hmem, hne, hregs⟩ := ingressTaken_effect u h p f
  refine ⟨_, exec_ingress_taken hfront ht, ?_, ?_, ?_, ?_, gotFrame_of_rd hgot hcnt fun _ _ => rfl, ?_, ?_⟩
  · rw [hplane, hplaneU, hv]
  · rw [hplane, hplaneU, hv]
  · rw [hplane, hplaneU, hv]
  · rw [State.fld, hregs _ (fun hlt => by have := hext hlt; simp only [A.SWQ_DEPTH]; omega)
      (notMem_countRegs_of_above h p (by simp only [A.SWQ_DEPTH]; omega)), ← State.fld, fld_depth_planeShow, hplane, hplaneU]
  · exact hmem.trans ((hshow.part State.mem).trans ((mapPlane_mem ..).trans (mem_unqueued ..)))
  · exact hne.trans ((hshow.part State.ne).trans ((mapPlane_ne ..).trans (ne_unqueued ..)))

/-- A copy without room of a frame of an external port is counted in its account and at its port (R277, R361). -/
theorem ingress_refused (hq : (s.unqueued h p).planeIngress h f = (s.unqueued h p).queueCopies h f [q])
    (hsieve : (s.unqueued h p).sieve h q = (some q, s.unqueued h p)) (hfits : (s.unqueued h p).fits h q = false)
    (hext : p.val < 9) (hacc : 8 * q.outp + q.cls < 96) : ∃ t, exec (.planeFrameIngress h p) s = .next t ∧
    t.plane h = { s.plane h with inq := (s.plane h).inq.eraseP fun f => f.ingress = p.val } ∧
    t.rd (A.SWQ_DROP_LIMIT h.n (8 * q.outp + q.cls)) = satSucc (s.rd (A.SWQ_DROP_LIMIT h.n (8 * q.outp + q.cls))) ∧
    t.rdn (A.MAC_CNT (portNo h p) 13) = (s.rdn (A.MAC_CNT (portNo h p) 13) + 1) % 2 ^ 32 ∧ t.mem = s.mem ∧
    (s.perPending (portNo h p) f.ended = none → s.regsBut t (A.SWQ_DROP_LIMIT h.n (8 * q.outp + q.cls) :: eventRegs (portNo h p) 13)) := by
  have hp := p.isLt
  have hn : h.n ≤ 1 := by cases h <;> decide
  have hing := ingress_of_front hfront
  let drop := A.SWQ_DROP_LIMIT h.n (8 * q.outp + q.cls)
  let u := (s.unqueued h p).inc drop
  have hdrop : drop ∉ countRegs (portNo h p) := notMem_countRegs_of_above h p (by simp only [drop, A.SWQ_DROP_LIMIT]; omega)
  have ht : (s.unqueued h p).planeIngress h f = (u, .refused) := by
    rw [hq, queueCopies_refused hsieve hfits, if_neg (by omega)]
  have hu : ∀ b, b ≠ drop → u.rd b = s.rd b := fun b hb => (State.rd_wr_other _ _ _ _ hb).trans (rd_unqueued ..)
  have hcount := portOnly_count (k := 13) (by decide) u (portNo h p) 1 f.ended
  refine ⟨_, (exec_ingress_refused hfront ht).trans (congrArg _ (if_pos hext)), ?_, ?_, ?_, ?_, fun hstill => ?_⟩
  · have hplaneU : u.plane h = (s.unqueued h p).plane h := by cases h <;> rfl
    rw [hcount.part (State.plane · h) (by cases h <;> exact fun _ _ _ => rfl), hplaneU, plane_unqueued]
  · rw [hcount.regs _ hdrop]
    exact (State.rd_wr_self ..).trans (congrArg satSucc (rd_unqueued ..))
  · rw [rdn_macCntAt (by decide), State.rdn, hu, ← State.rdn]
    simp only [drop, A.MAC_CNT, portNo_div, portNo_mod, A.SWQ_DROP_LIMIT]
    omega
  · exact (hcount.part State.mem).trans (mem_unqueued ..)
  · have honly : (s.unqueued h p).onlyRegs u [drop] := ⟨fun b hb => State.rd_wr_other _ _ _ _ (by simpa using hb), rfl⟩
    have hstillU : u.perPending (portNo h p) f.ended = none := by
      rw [perPending_of_onlyRegs honly, State.unqueued, perPending_putPlane, hstill]
      · simp only [List.mem_singleton, drop, A.MAC_PER_CTRL, portNo_div, portNo_mod, A.SWQ_DROP_LIMIT]
        omega
      · simp only [List.forall_mem_singleton, drop, A.SWQ_DROP_LIMIT]
        omega
    have hport : portNo h p < 24 := by rw [portNo]; omega
    obtain ⟨hregs, _⟩ := onlyRegs_macCntAt_still u ⟨portNo h p, hport⟩ 1 (k := 13) (by decide) hstillU
    intro b hb
    rw [List.mem_cons, not_or] at hb
    exact (hregs b hb.2).trans (hu b hb.1)

end

/-! ### SP9 (R178, R179) -/

theorem engOnly_neStage (s : State) (i source status flow stamp : Nat) (data : List Byte) :
    s.EngOnly (s.neStage i source status flow stamp data) i [A.NE_RX_DROP i] :=
  .ite (engOnly_putEng ..) (engOnly_wr s i _ List.mem_cons_self)

theorem neState_of_rd {i : Nat} (hrst : t.rst = s.rst) (hst : t.rd (A.NE_STATUS i) = s.rd (A.NE_STATUS i)) : t.neState i = s.neState i := by
  have hheld : t.neHeld i = s.neHeld i := by
    unfold State.neHeld State.running State.hrst
    rw [hrst]
  unfold State.neState
  rw [hheld, State.fld, hst, ← State.fld]

/-- What a frame dispatched to an engine asks of it: the engine, its drop count and its run state. -/
structure State.SameFor (s t : State) (i : Nat) : Prop where
  eng : t.eng i = s.eng i
  drop : t.rd (A.NE_RX_DROP i) = s.rd (A.NE_RX_DROP i)
  state : t.neState i = s.neState i
  raw : t.raw = s.raw

theorem State.SameFor.refl (i : Nat) : s.SameFor s i := ⟨rfl, rfl, rfl, rfl⟩

theorem State.SameFor.trans {u : State} {i : Nat} (hst : s.SameFor t i) (htu : t.SameFor u i) : s.SameFor u i :=
  ⟨htu.eng.trans hst.eng, htu.drop.trans hst.drop, htu.state.trans hst.state, htu.raw.trans hst.raw⟩

theorem sameFor_of_engOnly {i j : Nat} (hst : s.EngOnly t j [A.NE_RX_DROP j]) (hne : i ≠ j) : s.SameFor t i where
  eng := hst.engs i hne
  drop := hst.regs _ (by simp only [List.mem_singleton, A.NE_RX_DROP]; omega)
  state := neState_of_rd (hst.part State.rst) (hst.regs _ (by simp only [List.mem_singleton, A.NE_RX_DROP, A.NE_STATUS]; omega))
  raw := hst.raw

theorem sameFor_foldl {β : Type} {g : State → β → State} {i : Nat} (xs : List β) (hg : ∀ b ∈ xs, ∀ s : State, s.SameFor (g s b) i) (s : State) :
    s.SameFor (xs.foldl g s) i := by
  induction xs generalizing s with
  | nil => exact .refl i
  | cons x xs ih => exact (hg x List.mem_cons_self s).trans (ih (fun b hb => hg b (List.mem_cons_of_mem x hb)) _)

/-- The dispatch of a frame to one engine of its Needle mask. -/
def State.dispatchTo (h : Half) (q : PCopy) (bs : List Byte) (s : State) (k : Nat) : State :=
  if bitAt q.needle k then s.neStage (12 * h.n + k) q.inp (1 + q.status) q.flow q.stamp bs else s

/-- Dispatched to all engines, a frame meets each as it was. -/
theorem dispatch_split (s : State) (h : Half) (q : PCopy) (bs : List Byte) (k : Fin 12) :
    ∃ u, s.SameFor u (12 * h.n + k) ∧
      (u.dispatchTo h q bs k).SameFor ((List.range 12).foldl (State.dispatchTo h q bs) s) (12 * h.n + k) := by
  have hother : ∀ j : Nat, j ≠ k → ∀ s : State, s.SameFor (s.dispatchTo h q bs j) (12 * h.n + k) := fun j hj s => by
    unfold State.dispatchTo
    split
    · exact sameFor_of_engOnly (engOnly_neStage ..) (by omega)
    · exact .refl _
  obtain ⟨xs, ys, hsplit⟩ := List.append_of_mem (List.mem_range.2 k.isLt)
  have hnodup : (xs ++ k.val :: ys).Nodup := hsplit ▸ List.nodup_range
  rw [List.nodup_append, List.nodup_cons] at hnodup
  obtain ⟨_, ⟨hys, _⟩, hxs⟩ := hnodup
  refine ⟨xs.foldl (State.dispatchTo h q bs) s, sameFor_foldl xs (fun j hj => hother j (hxs j hj _ List.mem_cons_self)) s, ?_⟩
  rw [hsplit, List.foldl_append, List.foldl_cons]
  exact sameFor_foldl ys (fun j hj => hother j fun hjk => hys (hjk ▸ hj)) _

theorem neRxDrop_notMem_countRegs (h : Half) (k : Fin 12) : A.NE_RX_DROP (12 * h.n + k) ∉ countRegs (portNo h 9) := by
  have hn : h.n ≤ 1 := by cases h <;> decide
  simp only [countRegs, perRegs, List.mem_append, List.mem_cons, List.mem_map, List.mem_range, not_or, not_exists, not_and,
    A.MAC_CNT, A.MAC_CNT_WRAP, A.MAC_PER_STATUS, A.MAC_PER_LIVE, A.MAC_PER_SHADOW, A.NE_RX_DROP, portNo]
  exact ⟨fun _ _ => by omega, by omega, ⟨by omega, fun _ _ => by omega⟩, fun _ _ => by omega⟩

theorem rdn_txCount_frames (s : State) (p : Nat) (bs : List Byte) (n : Nat) :
    (s.txCount p bs n).rdn (A.MAC_CNT p 14) = (s.rdn (A.MAC_CNT p 14) + 1) % 2 ^ 32 := by
  have hcast := castOf_le bs
  rw [State.txCount, State.macCnt, rdn_macCntAt_other (by decide) (by omega), State.macCnt, rdn_macCntAt_other (by decide) (by decide),
    State.macCnt, rdn_macCntAt (by decide)]

theorem exec_sp9 (hfront : ((s.plane h).handed.find? fun q => q.outp = 9) = some q) :
    exec (.sp9Dispatch h) s = .next (((List.range 12).foldl (State.dispatchTo h q (s.redLeave h q q.bytes))
      (s.putPlane h { s.plane h with handed := (s.plane h).handed.erase q })).txCount (portNo h 9) (s.redLeave h q q.bytes)
        (s.redLeave h q q.bytes).length) := by
  have hleave : ∀ x : Plane, (s.putPlane h x).redLeave h q q.bytes = s.redLeave h q q.bytes := fun x => by cases h <;> rfl
  show execSp9Dispatch h s = _
  rw [execSp9Dispatch, hfront]
  dsimp only
  rw [hleave]
  rfl

theorem sameFor_putPlane (s : State) (h : Half) (x : Plane) (i : Nat) : s.SameFor (s.putPlane h x) i := by
  cases h <;> exact ⟨rfl, rfl, rfl, rfl⟩

/-- The engine staged the frame, where its Needle mask names it, it runs and has the cells. -/
theorem eng_dispatchTo (s : State) (h : Half) (q : PCopy) (bs : List Byte) (k : Nat) :
    let i := 12 * h.n + k
    let staged := bitAt q.needle k ∧ s.neState i = neRunning ∧ (s.eng i).cellsUsed + rxCells bs.length ≤ 192
    (s.dispatchTo h q bs k).eng i =
      (if staged then { (s.eng i).stageRx with rx := (s.eng i).rx ++ [⟨q.inp, 1 + q.status, q.flow, q.stamp, bs, s.raw, false⟩] }
        else s.eng i) ∧
    (s.dispatchTo h q bs k).rd (A.NE_RX_DROP i) =
      if bitAt q.needle k ∧ ¬ staged then satSucc (s.rd (A.NE_RX_DROP i)) else s.rd (A.NE_RX_DROP i) := by
  intro i staged
  unfold State.dispatchTo
  by_cases hbit : bitAt q.needle k = true
  · rw [if_pos hbit]
    unfold State.neStage
    by_cases hroom : s.neState i = neRunning ∧ (s.eng i).cellsUsed + rxCells bs.length ≤ 192
    · rw [if_pos hroom, if_pos ⟨hbit, hroom⟩, if_neg fun hn => hn.2 ⟨hbit, hroom⟩]
      exact ⟨eng_putEng_self .., rfl⟩
    · rw [if_neg hroom, if_neg fun hn => hroom hn.2, if_pos ⟨hbit, fun hn => hroom hn.2⟩]
      exact ⟨rfl, State.rd_wr_self ..⟩
  · rw [if_neg hbit, if_neg fun hn => hbit hn.1, if_neg fun hn => hbit hn.1]
    exact ⟨rfl, rfl⟩

theorem foldl_dispatch_keeps {α : Type} (g : State → α) (hg : ∀ (s : State) regs ne, g { s with regs := regs, ne := ne } = g s)
    (s : State) (h : Half) (q : PCopy) (bs : List Byte) (ks : List Nat) : g (ks.foldl (State.dispatchTo h q bs) s) = g s := by
  refine keep_foldl g (fun t k => ?_) ks s
  unfold State.dispatchTo
  split
  · exact (engOnly_neStage ..).part g hg
  · rfl

theorem rd_foldl_dispatch (s : State) (h : Half) (q : PCopy) (bs : List Byte) {a : Nat} (ha : ∀ i, a ≠ A.NE_RX_DROP i) (ks : List Nat) :
    (ks.foldl (State.dispatchTo h q bs) s).rd a = s.rd a := by
  refine keep_foldl (State.rd · a) (fun t k => ?_) ks s
  unfold State.dispatchTo
  split
  · exact (engOnly_neStage ..).regs a (by simpa using ha _)
  · rfl

/-- A frame delivered to SP9: counted there, and staged by every engine of its Needle mask that has room (R178, R179). -/
theorem sp9_effect (hfront : ((s.plane h).handed.find? fun q => q.outp = 9) = some q) (k : Fin 12) :
    let i := 12 * h.n + k
    let bs := s.redLeave h q q.bytes
    let staged := bitAt q.needle k ∧ s.neState i = neRunning ∧ (s.eng i).cellsUsed + rxCells bs.length ≤ 192
    ∃ t, exec (.sp9Dispatch h) s = .next t ∧ t.plane h = { s.plane h with handed := (s.plane h).handed.erase q } ∧
      t.rdn (A.MAC_CNT (portNo h 9) 14) = (s.rdn (A.MAC_CNT (portNo h 9) 14) + 1) % 2 ^ 32 ∧ t.mem = s.mem ∧
      t.eng i = (if staged then { (s.eng i).stageRx with rx := (s.eng i).rx ++ [⟨q.inp, 1 + q.status, q.flow, q.stamp, bs, s.raw, false⟩] }
        else s.eng i) ∧
      t.rd (A.NE_RX_DROP i) = (if bitAt q.needle k ∧ ¬ staged then satSucc (s.rd (A.NE_RX_DROP i)) else s.rd (A.NE_RX_DROP i)) := by
  intro i bs staged
  let s0 := s.putPlane h { s.plane h with handed := (s.plane h).handed.erase q }
  let u := (List.range 12).foldl (State.dispatchTo h q bs) s0
  have hcount := portOnly_txCount u (portNo h 9) bs bs.length
  have hcnt : u.rd (A.MAC_CNT (portNo h 9) 14) = s.rd (A.MAC_CNT (portNo h 9) 14) :=
    (rd_foldl_dispatch s0 h q bs (fun i => by
      have hn : h.n ≤ 1 := by cases h <;> decide
      simp only [A.MAC_CNT, A.NE_RX_DROP, portNo]; omega) _).trans (rd_putPlane ..)
  obtain ⟨v, hsv, hvu⟩ := dispatch_split s0 h q bs k
  obtain ⟨heng, hdrop⟩ := eng_dispatchTo v h q bs k
  have hv : s.SameFor v i := (sameFor_putPlane s h _ i).trans hsv
  dsimp only at heng hdrop
  rw [hv.state, hv.eng, hv.raw] at heng
  rw [hv.state, hv.eng, hv.drop] at hdrop
  refine ⟨_, exec_sp9 hfront, ?_, ?_, ?_, ?_, ?_⟩
  · rw [hcount.part (State.plane · h) (by cases h <;> exact fun _ _ _ => rfl),
      foldl_dispatch_keeps (State.plane · h) (by cases h <;> exact fun _ _ _ => rfl)]
    exact plane_putPlane_self ..
  · rw [rdn_txCount_frames, State.rdn, hcnt, ← State.rdn]
  · rw [hcount.part State.mem, foldl_dispatch_keeps State.mem (fun _ _ _ => rfl)]
    cases h <;> rfl
  · exact (hcount.part (State.eng · i)).trans (hvu.eng.trans heng)
  · exact (hcount.regs _ (neRxDrop_notMem_countRegs h k)).trans (hvu.drop.trans hdrop)

/-! ### The twin check's window, the age of duplicate entries, the low mark -/

/-- Held copies whose window has closed leave as lone (R396, case 4). -/
theorem twinWindowClose_effect {e : DupEnt} (hfront : ((s.plane h).dup.find? fun d => d.held ≠ [] ∧
      d.s1 + s.fld (A.SW_TWIN h.n) F.SW_TWIN.WIN_US * usTicks + 4 * usTicks ≤ s.raw) = some e) :
    ∃ t, exec (.twinWindowClose h) s = .next t ∧
      (t.plane h).voq = (s.plane h).voq ++ e.held.map (fun q => { q with status := q.status + 4, stamp := e.s1 }) ∧
      (t.plane h).dup = dupSet (s.plane h).dup { e with hold := false, held := [] } ∧
      t.rd (A.SW_TWIN_LONE h.n) = satSucc (s.rd (A.SW_TWIN_LONE h.n)) ∧
      s.onlyRegs { t with planeK := s.planeK, planeP := s.planeP } [A.SW_TWIN_LONE h.n] := by
  let dup := dupSet (s.plane h).dup { e with hold := false, held := [] }
  let u := (s.putPlane h { s.plane h with dup := dup }).release h e.held 4 e.s1
  have hrd : ∀ a, u.rd a = s.rd a := fun a => (rd_putPlane ..).trans (rd_putPlane ..)
  let voq := (s.plane h).voq ++ e.held.map fun q => { q with status := q.status + 4, stamp := e.s1 }
  have hplane : u.plane h = { s.plane h with dup := dup, voq := voq } :=
    (plane_mapPlane_self ..).trans (by rw [plane_putPlane_self])
  have hexec : exec (.twinWindowClose h) s = .next (u.inc (A.SW_TWIN_LONE h.n)) := by
    show execTwinWindowClose h s = _
    rw [execTwinWindowClose]
    dsimp only
    rw [hfront]
  have hplaneInc : (u.inc (A.SW_TWIN_LONE h.n)).plane h = u.plane h := by cases h <;> rfl
  refine ⟨_, hexec, by rw [hplaneInc, hplane], by rw [hplaneInc, hplane], ?_, fun a ha => ?_, ?_⟩
  · exact (State.rd_wr_self ..).trans (congrArg satSucc (hrd _))
  · exact (State.rd_wr_other u _ a _ (by simpa using ha)).trans (hrd a)
  · have hrelease : { u with planeK := s.planeK, planeP := s.planeP } = s :=
      (congrArg (fun x : State => { x with planeK := s.planeK, planeP := s.planeP }) (putPlane_frame ..)).trans (putPlane_frame ..)
    exact (congrArg (fun x : State => { x with regs := s.regs }) hrelease :)

theorem view_dupStatus (s : State) (m : Nat) (h : Half) : s.regView m (A.SW_DUP_STATUS h.n) = (s.plane h).dupStatus := by
  cases h <;> rfl

/-- A write to LOW of SW_BUF_FREE sets it to FREE, a write of 0 leaves it (R344). -/
theorem swBufLowReset_effect {m : Byte} {v : Word} (hr : s.reaches m.toNat (A.SW_BUF_FREE h.n) true) :
    ∃ t, exec (.swBufLowReset m h v) s = .next t ∧ t.resp = some (.ok 0) ∧
      t.fld (A.SW_BUF_FREE h.n) F.SW_BUF_FREE.FREE = s.fld (A.SW_BUF_FREE h.n) F.SW_BUF_FREE.FREE ∧
      t.fld (A.SW_BUF_FREE h.n) F.SW_BUF_FREE.LOW =
        (if fget F.SW_BUF_FREE.LOW v = 0 then s.fld (A.SW_BUF_FREE h.n) F.SW_BUF_FREE.LOW
          else s.fld (A.SW_BUF_FREE h.n) F.SW_BUF_FREE.FREE) ∧
      s.onlyRegs { t with resp := s.resp } [A.SW_BUF_FREE h.n] := by
  obtain ⟨d, hd⟩ : ∃ d, regDesc? (A.SW_BUF_FREE h.n) = some d := by cases h <;> exact ⟨_, rfl⟩
  have hexec : exec (.swBufLowReset m h v) s = .next (if fget F.SW_BUF_FREE.LOW v = 0 then s.ok 0
      else (s.ok 0).setf (A.SW_BUF_FREE h.n) F.SW_BUF_FREE.LOW ((s.ok 0).fld (A.SW_BUF_FREE h.n) F.SW_BUF_FREE.FREE)) := by
    show Host.Outcome.next (s.bufLowWrite m.toNat h v) = _
    rw [State.bufLowWrite, guardReg_of_reaches s hr hd]
  refine ⟨_, hexec, ?_⟩
  by_cases hv : fget F.SW_BUF_FREE.LOW v = 0
  · rw [if_pos hv, if_pos hv]
    exact ⟨rfl, rfl, rfl, fun _ _ => rfl, rfl⟩
  · rw [if_neg hv, if_neg hv]
    refine ⟨rfl, fld_setf_apart _ _ _ _ _ (by decide), ?_, fun b hb => State.rd_wr_other (s.ok 0) _ b _ (by simpa using hb), rfl⟩
    have hfree : (s.ok 0).fld (A.SW_BUF_FREE h.n) F.SW_BUF_FREE.FREE < 2 ^ 14 := Nat.mod_lt _ (by decide)
    exact (State.fld_setf _ _ _ _ (by decide)).trans (Nat.mod_eq_of_lt hfree)

/-- Settles O43: each command by the effect of its parts. -/
theorem planeFrameEffects : Obligations.PlaneFrameEffects := by
  intro s h p o k f d e q m v x front rest a one pp got copy i bs staged buf
  have hone : one → copyTo f d o = copy ∧ (s.unqueued h p).planeIngress h f = (s.unqueued h p).queueCopies h f [copy] ∧
      (s.unqueued h p).sieve h copy = (some copy, s.unqueued h p) ∧ (s.unqueued h p).fits h copy = s.fits h copy := by
    rintro ⟨hfront, hd, hegress, hmeter, hred, hne, hinl, hmode, hrole⟩
    have hing := ingress_of_front hfront
    have hcopy : copyTo f d o = copy := by
      simp only [copyTo, hing, copy, Fin.ext_iff]
      rfl
    have hplane := planeIngress_one (s.unqueued h p) (f := f) o ((fwdDecide_putPlane ..).trans hd) hegress hmeter hred
      (hing ▸ hne) ((inlinePort_putPlane ..).trans hinl) ((redRole_putPlane ..).trans hrole)
    rw [hcopy] at hplane
    refine ⟨hcopy, hplane, sieve_off ?_, fits_putPlane_inq ..⟩
    rw [State.fld, State.unqueued, rd_putPlane]
    exact hmode
  have hacc : one → p.val < 9 → a < 96 := by
    rintro ⟨hfront, hd, -⟩ hext
    have hcls := cls_lt_of_fwdDecide hd (by rwa [ingress_of_front hfront])
    omega
  refine ⟨?_, ?_, ?_, ?_, ?_, ?_, ?_, ?_, ?_, ?_⟩
  · intro hnone
    show execPlaneFrameIngress h p s = _
    rw [execPlaneFrameIngress, hnone]
  · rintro ⟨hfront, hd⟩
    exact ingress_miss hfront hd
  · rintro ⟨ho, hfits⟩
    obtain ⟨-, hplane, hsieve, hfits'⟩ := hone ho
    exact ingress_queued ho.1 hplane hsieve (hfits'.trans hfits) rfl (hacc ho)
  · rintro ⟨ho, hfits, hext⟩
    obtain ⟨-, hplane, hsieve, hfits'⟩ := hone ho
    exact ingress_refused ho.1 hplane hsieve (hfits'.trans hfits) hext (hacc ho hext)
  · rintro ⟨ho, hfits, hown⟩
    obtain ⟨-, hplane, hsieve, hfits'⟩ := hone ho
    have hing := ingress_of_front ho.1
    exact (exec_ingress_refused ho.1 (hplane.trans (queueCopies_refused hsieve (hfits'.trans hfits)))).trans
      (congrArg _ (if_neg (by omega)))
  · intro hfront
    exact sp9_effect hfront k
  · intro hnone
    show execSp9Dispatch h s = _
    rw [execSp9Dispatch, hnone]
  · intro hfront
    exact twinWindowClose_effect hfront
  · refine ⟨_, rfl, by rw [plane_mapPlane_self]; rfl, by rw [plane_mapPlane_self]; rfl, mapPlane_frame .., view_dupStatus ..⟩
  · intro hr
    exact swBufLowReset_effect hr

end Sys2Proof.Machine
end

section
/-! PROOFS. A Recipe load: what a reply leaves, what the areas of an engine's window take (R161 to R163, R199, R245 to R247). -/

namespace Sys2Proof.Machine
open Sys2Proof

-- Parallel elaboration holds many stacks at once, and they count towards the memory a check may take.
set_option Elab.async false

variable {s t v : State} {i : Nat}

/-! ### A reply handed to its transport -/

/-- The status registers of the byte streams. -/
def streamRegs : List Nat := [A.QH_TSTAT 0, A.QH_TSTAT 1, A.LB_TSTAT 0]

/-- A reply may be on its way: transports, planes, output and the checks of wakes have changed, the outstanding commands have not. -/
structure State.Replies (s t : State) : Prop where
  regs : s.regsBut t streamRegs
  cmds : t.kcp.cmds = s.kcp.cmds
  kcp : { t.kcp with sess := s.kcp.sess, streams := s.kcp.streams, ready := s.kcp.ready } = s.kcp
  rest : { t with regs := s.regs, kcp := s.kcp, wake := s.wake, out := s.out, planeK := s.planeK, planeP := s.planeP } = s

theorem State.Replies.refl : s.Replies s := ⟨fun _ _ => rfl, rfl, rfl, rfl⟩

theorem State.Replies.trans (h : s.Replies t) (k : t.Replies v) : s.Replies v where
  regs a ha := (k.regs a ha).trans (h.regs a ha)
  cmds := k.cmds.trans h.cmds
  kcp := (congrArg (fun x : Kcp => { x with sess := s.kcp.sess, streams := s.kcp.streams, ready := s.kcp.ready }) k.kcp).trans h.kcp
  rest := (congrArg (fun x : State =>
    { x with regs := s.regs, kcp := s.kcp, wake := s.wake, out := s.out, planeK := s.planeK, planeP := s.planeP }) k.rest).trans h.rest

theorem replies_wr (s : State) {a : Nat} (w : Word) (ha : a ∈ streamRegs) : s.Replies (s.wr a w) :=
  ⟨fun b hb => State.rd_wr_other s a b w fun h => hb (h ▸ ha), rfl, rfl, rfl⟩

theorem tstatOf_mem (n : Nat) : tstatOf n ∈ streamRegs := by
  unfold tstatOf streamRegs
  split_ifs <;> simp

theorem replies_putStream (s : State) (n : Nat) (x : ByteStream) : s.Replies (s.putStream n x) := by
  unfold State.putStream
  extract_lets k s1 s2
  have h1 : s.Replies s1 := ⟨fun _ _ => rfl, rfl, rfl, rfl⟩
  exact (h1.trans (replies_wr s1 _ (tstatOf_mem n))).trans (replies_wr s2 _ (tstatOf_mem n))

theorem replies_fillStream (n : Nat) (rs : List (Nat × Nat × List Byte)) (s : State) : s.Replies (s.fillStream n rs) := by
  induction rs generalizing s with
  | nil => exact .refl
  | cons r rs ih =>
    obtain ⟨m, slot, bs⟩ := r
    rw [State.fillStream]
    split
    · extract_lets x k s1
      split
      · have h1 : s.Replies s1 := ⟨fun _ _ => rfl, rfl, rfl, rfl⟩
        exact (h1.trans (replies_putStream ..)).trans (ih _)
      · exact .refl
    · exact ih s

theorem replies_kcpFrame (s : State) (h : Half) (port : Nat) (bs : List Byte) : s.Replies (s.kcpFrame h port bs) := by
  unfold State.kcpFrame
  split
  · cases h <;> exact ⟨fun _ _ => rfl, rfl, rfl, rfl⟩
  · exact .refl

theorem replies_handReply (s : State) (r : ReplyTo) (pkt : List Byte) : s.Replies (s.handReply r pkt) := by
  unfold State.handReply
  extract_lets k s1 s2
  have h1 : s.Replies s1 := ⟨fun _ _ => rfl, rfl, rfl, rfl⟩
  have h2 : s.Replies s2 := h1.trans ⟨fun _ _ => rfl, rfl, rfl, rfl⟩
  split
  · exact h1
  · split
    · exact h2.trans (replies_fillStream ..)
    · split
      · exact h2
      · split
        · exact h2
        · next x _ =>
          extract_lets s3
          have h3 : s.Replies s3 := h2.trans ⟨fun _ _ => rfl, rfl, rfl, rfl⟩
          exact h3.trans (replies_kcpFrame ..)

/-- The state without an outstanding command. -/
def State.ended (s : State) (c : KCmd) : State :=
  { s with kcp := { s.kcp with cmds := s.kcp.cmds.filter fun d => !(d.tr == c.tr && d.tag == c.tag) } }

theorem replies_finish (s : State) (c : KCmd) (status : Nat) (data : List Byte) : (s.ended c).Replies (s.finish c status data) := by
  unfold State.finish
  extract_lets k s1 s2
  have h2 : s1.Replies s2 := ⟨fun _ _ => rfl, rfl, rfl, rfl⟩
  split
  · exact h2
  · exact h2.trans (replies_handReply ..)

/-- What a reply leaves. -/
theorem finish_leaves (s : State) (c : KCmd) (status : Nat) (data : List Byte) :
    s.regsBut (s.finish c status data) streamRegs ∧ (s.finish c status data).mem = s.mem ∧ (s.finish c status data).ne = s.ne ∧
    (s.finish c status data).rst = s.rst ∧ (s.finish c status data).kcmd c.tr c.tag = none := by
  have h := replies_finish s c status data
  refine ⟨h.regs, (congrArg State.mem h.rest :), (congrArg State.ne h.rest :), (congrArg State.rst h.rest :), ?_⟩
  rw [State.kcmd, h.cmds, List.find?_eq_none]
  intro d hd
  have := (List.mem_filter.1 hd).2
  simpa [Classical.or_iff_not_imp_left] using this

/-! ### The memory of an engine -/

/-- Of the memory only bytes of the first n of engine i's window have changed, of the engines only engine i, and nothing else. -/
structure State.WinOnly (s t : State) (i n : Nat) : Prop where
  bytes : s.bytesBut t (neWin i) n
  engs : s.engsBut t i
  rest : { t with mem := s.mem, ne := s.ne } = s

section
variable {n m : Nat}

theorem State.WinOnly.refl : s.WinOnly s i n := ⟨fun _ _ => rfl, fun _ _ => rfl, rfl⟩

theorem State.WinOnly.trans (h : s.WinOnly t i n) (k : t.WinOnly v i n) : s.WinOnly v i n where
  bytes a ha := (k.bytes a ha).trans (h.bytes a ha)
  engs j hj := (k.engs j hj).trans (h.engs j hj)
  rest := (congrArg (fun x : State => { x with mem := s.mem, ne := s.ne }) k.rest).trans h.rest

theorem State.WinOnly.mono (h : s.WinOnly t i n) (hnm : n ≤ m) : s.WinOnly t i m :=
  ⟨fun a ha => h.bytes a (by omega), h.engs, h.rest⟩

/-- What is neither memory nor an engine is as it was. -/
theorem State.WinOnly.part {α : Type} (h : s.WinOnly t i n) (g : State → α)
    (hg : ∀ (x : State) mem ne, g { x with mem := mem, ne := ne } = g x := by intros; rfl) : g t = g s :=
  (hg t s.mem s.ne).symm.trans (congrArg g h.rest)

theorem winOnly_foldl {β : Type} {f : State → β → State} (xs : List β) (hf : ∀ b ∈ xs, ∀ s : State, s.WinOnly (f s b) i n)
    (s : State) : s.WinOnly (xs.foldl f s) i n := by
  induction xs generalizing s with
  | nil => exact .refl
  | cons x xs ih => exact (hf x List.mem_cons_self s).trans (ih (fun b hb => hf b (List.mem_cons_of_mem x hb)) _)

theorem winOnly_clearMem (s : State) {lo hi : Nat} (hlo : neWin i ≤ lo) (hhi : hi ≤ neWin i + n) : s.WinOnly (s.clearMem lo hi) i n :=
  ⟨fun k hk => (State.mb_clearMem s lo hi k).trans (if_neg (by omega)), fun _ _ => rfl, rfl⟩

theorem winOnly_mapEng (s : State) (f : Engine → Engine) : s.WinOnly (s.mapEng i f) i n :=
  ⟨fun _ _ => rfl, fun _ hk => eng_mapEng_other s f hk, rfl⟩

theorem winOnly_putN (s : State) {off : Nat} {bs : List Byte} (hn : off + bs.length ≤ n) : s.WinOnly (s.putN i off bs) i n := by
  obtain ⟨mem, hmem⟩ := putbs_eq s (neWin i + off) bs
  have hput : s.putN i off bs = { s with mem := mem } := hmem
  refine ⟨fun k hk => bytesBut_putbs s _ bs k (by omega), fun j _ => ?_, ?_⟩
  · rw [hput]
    rfl
  · rw [hput]

theorem winOnly_neClear (s : State) (hn : 0x6800 ≤ n) : s.WinOnly (s.neClear i) i n :=
  (winOnly_clearMem s (Nat.le_refl _) (by omega)).trans (winOnly_mapEng ..)

theorem winOnly_neClearRecipe (s : State) (hn : 0x21000 ≤ n) : s.WinOnly (s.neClearRecipe i) i n :=
  (winOnly_clearMem s (by omega) (by omega)).trans (winOnly_clearMem _ (by omega) (by omega))

end

/-! ### The bounds of a Recipe that passes its validation -/

section
variable {img : List Byte}

theorem slice_length_le (bs : List Byte) (off n : Nat) : (slice bs off n).length ≤ n := by
  rw [slice, List.length_take]
  exact Nat.min_le_left _ _

theorem passes_iff {b : Bool} {code : Nat} {x : Option Nat} : (if !b then some code else x) = none ↔ b = true ∧ x = none := by
  cases b <;> simp

theorem checks_of_valid (h : validate img = none) : chkTable img = true ∧ chkSizes img = true ∧ chkArea img = true := by
  rw [validate, passes_iff, passes_iff, passes_iff, passes_iff, passes_iff] at h
  obtain ⟨-, htable, -, hsizes, harea, -⟩ := h
  exact ⟨htable, hsizes, harea⟩

theorem le_foldl_add (f : Nat → Nat) (xs : List Nat) (a : Nat) : a ≤ xs.foldl (fun n t => n + f t) a := by
  induction xs generalizing a with
  | nil => exact Nat.le_refl a
  | cons x xs ih => exact (Nat.le_add_right a (f x)).trans (ih _)

theorem foldl_add_start (f : Nat → Nat) (xs : List Nat) (a b : Nat) :
    xs.foldl (fun n t => n + f t) (a + b) = a + xs.foldl (fun n t => n + f t) b := by
  induction xs generalizing b with
  | nil => rfl
  | cons x xs ih => rw [List.foldl_cons, List.foldl_cons, Nat.add_assoc, ih]

/-- A resident section lies within the Recipe area (R199, check 0x08). -/
theorem placeOf_bound (harea : chkArea img = true) {t : Nat} (ht : t ∈ residents) :
    placeOf img t + (sectData img t).length ≤ 0x18000 := by
  have hsum : residents.foldl (fun n t => n + round64 (sectData img t).length) 0 ≤ 71680 := of_decide_eq_true harea
  have hround : (sectData img t).length ≤ round64 (sectData img t).length := by unfold round64; omega
  have hplace : placeOf img t + round64 (sectData img t).length ≤
      0x6800 + residents.foldl (fun n t => n + round64 (sectData img t).length) 0 := by
    rw [placeOf, ← foldl_add_start, Nat.add_zero]
    have hall : ∀ t ∈ residents, residents = (residents.takeWhile fun r => r != t) ++
        t :: residents.drop ((residents.takeWhile fun r => r != t).length + 1) := by decide
    have hsplit := hall t ht
    conv_rhs => rw [hsplit, List.foldl_append, List.foldl_cons]
    exact le_foldl_add ..
  omega

/-- The TCAM rows of a Recipe fit (Table 4.3). -/
theorem match_bound (htable : chkTable img = true) (hsizes : chkSizes img = true) : (sectData img tMatch).length ≤ 4096 := by
  unfold sectData sectOf
  cases hx : (sects img).find? fun x => x.typ = tMatch with
  | none => exact Nat.zero_le _
  | some x =>
    have hmem := List.mem_of_find?_eq_some hx
    have htyp : x.typ = 2 := by
      have hfind := List.find?_some hx
      exact of_decide_eq_true hfind
    have hcount : countFits x = true := by
      unfold chkTable at htable
      simp only [Bool.and_eq_true] at htable
      exact List.all_eq_true.1 htable.2 x hmem
    have hsize : sectFits img x = true := List.all_eq_true.1 hsizes x hmem
    simp only [countFits, htyp, decide_eq_true_eq] at hcount
    simp only [sectFits, htyp, beq_iff_eq] at hsize
    have hlen := slice_length_le img x.off x.size
    show (slice img x.off x.size).length ≤ 4096
    omega

theorem winOnly_neInstall (s : State) (h : validate img = none) : s.WinOnly (s.neInstall i img) i 0x100000 := by
  obtain ⟨htable, hsizes, harea⟩ := checks_of_valid h
  have hclear := (winOnly_neClear (i := i) s (n := 0x100000) (by decide)).trans (winOnly_neClearRecipe _ (by decide))
  have hmatch := match_bound htable hsizes
  unfold State.neInstall
  refine ((hclear.trans (winOnly_foldl residents (fun t ht s => ?_) _)).trans (winOnly_putN _ (by omega))).trans
    (winOnly_foldl (List.range 256) (fun c hc s => winOnly_putN s ?_) _)
  · have := placeOf_bound harea ht
    exact winOnly_putN s (by omega)
  · have := List.mem_range.1 hc
    have := slice_length_le img 22 2
    omega

end

/-! ### The run state -/

theorem neHeld_of_neState (h : s.neState i ≠ neOff) : s.neHeld i = false := by
  unfold State.neState at h
  by_contra hheld
  exact h (if_pos (by simpa using hheld))

theorem neState_eq (hheld : s.neHeld i = false) : s.neState i = s.fld (A.NE_STATUS i) F.NE_STATUS.STATE := if_neg (by simp [hheld])

theorem neHeld_of_rst (h : t.rst = s.rst) : t.neHeld i = s.neHeld i := by
  unfold State.neHeld State.running State.hrst
  rw [h]

/-- An engine that no reset holds is in the run state written to its status. -/
theorem neState_of_fld {n : Nat} (hheld : s.neHeld i = false) (hrst : t.rst = s.rst) (hst : t.fld (A.NE_STATUS i) F.NE_STATUS.STATE = n) :
    t.neState i = n := (neState_eq ((neHeld_of_rst hrst).trans hheld)).trans hst

/-! ### What a reply to a load leaves -/

theorem loadReply_eq (s : State) (l : Load) (status : Nat) : s.loadReply l status =
    match s.kcmd l.tr l.tag with
    | some c => s.finish c status []
    | none => s := rfl

theorem kcmd_keys {a b : Nat} {c : KCmd} (h : s.kcmd a b = some c) : c.tr = a ∧ c.tag = b := by
  have hfind := List.find?_some h
  exact of_decide_eq_true hfind

theorem loadReply_leaves (s : State) (l : Load) (status : Nat) :
    s.regsBut (s.loadReply l status) streamRegs ∧ (s.loadReply l status).ne = s.ne ∧ (s.loadReply l status).rst = s.rst ∧
    (s.loadReply l status).kcmd l.tr l.tag = none := by
  rw [loadReply_eq]
  cases hc : s.kcmd l.tr l.tag with
  | none => exact ⟨fun _ _ => rfl, rfl, rfl, hc⟩
  | some c =>
    obtain ⟨hregs, -, hne, hrst, hcmd⟩ := finish_leaves s c status []
    obtain ⟨htr, htag⟩ := kcmd_keys hc
    exact ⟨hregs, hne, hrst, htr ▸ htag ▸ hcmd⟩

theorem loadReply_of_none {l : Load} (h : s.kcmd l.tr l.tag = none) (status : Nat) : s.loadReply l status = s := by
  rw [loadReply_eq, h]

theorem ne_notMem_streamRegs (i : Fin 24) : A.NE_STATUS i ∉ streamRegs ∧ A.NE_RECIPE i ∉ streamRegs := by
  simp only [streamRegs, List.mem_cons, List.not_mem_nil, or_false, not_or, A.NE_STATUS, A.NE_RECIPE, A.QH_TSTAT, A.LB_TSTAT]
  omega

/-! ### The two commands -/

section
variable {i : Fin 24} {l : Load} {c : KCmd}

/-- The state in which the context area of an engine is zero and its load verified. -/
def State.loading (s : State) (i : Nat) (l : Load) : State :=
  ((s.setf (A.NE_STATUS i) F.NE_STATUS.STATE neLoading).neClear i).mapEng i fun e => { e with load := some { l with verified := true } }

theorem exec_verify (hload : (s.eng i).load = some l) (hv : l.verified = false) (hc : s.kcmd l.tr l.tag = some c)
    (hst : s.neState i = neStopped) : exec (.recipeVerifyDone i) s = .next (match s.precheck l.image with
      | some code => (s.mapEng i fun e => { e with load := none }).finish c (0x100 + code) []
      | none => (s.loading i l).putKcmd { c with committed := true }) := by
  show execRecipeVerifyDone i s = _
  rw [execRecipeVerifyDone]
  dsimp only
  rw [hload]
  dsimp only
  rw [if_neg (by simp [hv]), hc]
  dsimp only
  rw [if_neg (not_not.2 hst)]
  cases s.precheck l.image <;> rfl

/-- Checks 0x01 to 0x03 fail: the load is gone, the engine as it was. -/
theorem verify_failed (hst : s.neState i = neStopped) (status : Nat) :
    let t := (s.mapEng i fun e => { e with load := none }).finish c status []
    (t.eng i).load = none ∧ t.neState i = neStopped ∧ t.mem = s.mem := by
  intro t
  obtain ⟨hregs, hmem, hne, hrst, -⟩ := finish_leaves (s.mapEng i fun e => { e with load := none }) c status []
  have heng : t.eng i = (s.mapEng i fun e => { e with load := none }).eng i := by rw [State.eng, hne, ← State.eng]
  refine ⟨by rw [heng, eng_mapEng_self], ?_, hmem⟩
  rw [neState_of_rd (s := s) hrst (hregs _ (ne_notMem_streamRegs i).1), hst]

theorem putKcmd_leaves (s : State) (c : KCmd) : (s.putKcmd c).ne = s.ne ∧ (s.putKcmd c).regs = s.regs ∧ (s.putKcmd c).rst = s.rst ∧
    (s.putKcmd c).mem = s.mem := ⟨rfl, rfl, rfl, rfl⟩

theorem winOnly_loading (s : State) (i : Nat) (l : Load) :
    (s.setf (A.NE_STATUS i) F.NE_STATUS.STATE neLoading).WinOnly (s.loading i l) i 0x6800 :=
  (winOnly_neClear _ (Nat.le_refl _)).trans (winOnly_mapEng ..)

theorem mb_loading (s : State) (i : Nat) (l : Load) {q : Nat} (hq : q < 0x6800) : (s.loading i l).mb (neWin i + q) = 0 :=
  (State.mb_clearMem (s.setf (A.NE_STATUS i) F.NE_STATUS.STATE neLoading) (neWin i) (neWin i + 0x6800) _).trans (if_pos (by omega))

/-- Checks 0x01 to 0x03 pass: the engine is in LOADING, its context area zero. -/
theorem verify_passed (hst : s.neState i = neStopped) (d : KCmd) :
    (((s.loading i l).putKcmd d).eng i).load = some { l with verified := true } ∧ ((s.loading i l).putKcmd d).neState i = neLoading ∧
    (∀ q, q < 0x6800 → ((s.loading i l).putKcmd d).mb (neWin i + q) = 0) ∧ s.bytesBut ((s.loading i l).putKcmd d) (neWin i) 0x6800 := by
  obtain ⟨hne, hregs, hrst, hmem⟩ := putKcmd_leaves (s.loading i l) d
  have hwin := winOnly_loading s i l
  have hheld : s.neHeld i = false := neHeld_of_neState (by rw [hst]; decide)
  have hmb : ∀ a, ((s.loading i l).putKcmd d).mb a = (s.loading i l).mb a := fun a => by rw [State.mb, hmem, ← State.mb]
  refine ⟨?_, neState_of_fld hheld (hrst.trans (hwin.part State.rst)) ?_, fun q hq => (hmb _).trans (mb_loading s i l hq),
    fun a ha => (hmb a).trans (hwin.bytes a ha)⟩
  · rw [State.eng, hne, ← State.eng, State.loading, eng_mapEng_self]
  · rw [State.fld, State.rd, hregs, ← State.rd, hwin.part (State.rd · (A.NE_STATUS i)), ← State.fld]
    exact State.fld_setf s _ _ _ (by decide)

/-- The state in which an engine leaves LOADING: STOPPED, with LOADED and NE_RECIPE as given. -/
def State.leavesLoading (s : State) (i : Nat) (loaded : Bool) (recipe : Word) : State :=
  ((s.setf (A.NE_STATUS i) F.NE_STATUS.STATE neStopped).setf (A.NE_STATUS i) F.NE_STATUS.LOADED (b2n loaded)).wr (A.NE_RECIPE i) recipe

/-- The state in which a Recipe that fails its validation is not held (R247). -/
def State.unloaded (s : State) (i : Nat) : State :=
  (((s.leavesLoading i false 0).neClear i).neClearRecipe i).mapEng i fun e => { e with load := none, recipe := none, timers := [], inl := none }

/-- NE_RECIPE of an image: its identity and its version. -/
def recipeWord (img : List Byte) : Word := BitVec.ofNat 32 (u img 8 2 * 65536 + u img 10 2)

/-- The state in which an engine holds a Recipe that passes its validation (R162). -/
def State.holding (s : State) (i : Nat) (img : List Byte) : State :=
  ((s.leavesLoading i true (recipeWord img)).neInstall i img).mapEng i fun e =>
    { e with load := none, recipe := some (recipeOf img), timers := timersOf img }

theorem winOnly_unloaded (s : State) (i : Nat) : (s.leavesLoading i false 0).WinOnly (s.unloaded i) i 0x21000 :=
  ((winOnly_neClear _ (by decide)).trans (winOnly_neClearRecipe _ (Nat.le_refl _))).trans (winOnly_mapEng ..)

theorem winOnly_holding (s : State) (i : Nat) {img : List Byte} (h : validate img = none) :
    (s.leavesLoading i true (recipeWord img)).WinOnly (s.holding i img) i 0x100000 :=
  (winOnly_neInstall _ h).trans (winOnly_mapEng ..)

theorem exec_validated (hload : (s.eng i).load = some l) (hv : l.verified = true) (hst : s.neState i = neLoading) :
    exec (.recipeValidated i) s = .next (match validate l.image with
      | some code => (s.unloaded i).loadReply l (0x100 + code)
      | none => (s.holding i l.image).loadReply l stOk) := by
  show execRecipeValidated i s = _
  rw [execRecipeValidated]
  dsimp only
  rw [hload]
  dsimp only
  rw [if_neg (by simp [hv, hst])]
  cases validate l.image <;> rfl

theorem recipe_ne_status : A.NE_RECIPE i ≠ A.NE_STATUS i := by simp only [A.NE_RECIPE, A.NE_STATUS]; omega

theorem onlyRegs_wr (s : State) {a : Nat} {as : List Nat} (w : Word) (ha : a ∈ as) : s.onlyRegs (s.wr a w) as :=
  ⟨fun b hb => State.rd_wr_other s a b w fun h => hb (h ▸ ha), rfl⟩

theorem onlyRegs_trans {as : List Nat} (h : s.onlyRegs t as) (k : t.onlyRegs v as) : s.onlyRegs v as :=
  ⟨fun a ha => (k.1 a ha).trans (h.1 a ha), (congrArg (fun x : State => { x with regs := s.regs }) k.2).trans h.2⟩

/-- What is written to the two registers of an engine that leaves LOADING. -/
theorem stopped_regs (s : State) (i : Fin 24) (b : Bool) (w : Word) :
    let t := s.leavesLoading i b w
    t.fld (A.NE_STATUS i) F.NE_STATUS.STATE = neStopped ∧ t.flag (A.NE_STATUS i) F.NE_STATUS.LOADED = b ∧ t.rd (A.NE_RECIPE i) = w ∧
    s.onlyRegs t [A.NE_STATUS i, A.NE_RECIPE i] := by
  let t1 := s.setf (A.NE_STATUS i) F.NE_STATUS.STATE neStopped
  let t2 := t1.setb (A.NE_STATUS i) F.NE_STATUS.LOADED b
  have hstat : (t2.wr (A.NE_RECIPE i) w).rd (A.NE_STATUS i) = t2.rd (A.NE_STATUS i) :=
    State.rd_wr_other t2 (A.NE_RECIPE i) _ w recipe_ne_status.symm
  refine ⟨?_, ?_, State.rd_wr_self t2 _ w, onlyRegs_trans (onlyRegs_trans (onlyRegs_wr s _ (by simp)) (onlyRegs_wr t1 _ (by simp)))
    (onlyRegs_wr t2 _ (by simp))⟩
  · exact (congrArg (fget _) hstat).trans ((fld_setf_apart t1 _ _ _ _ (by decide)).trans (State.fld_setf s _ _ _ (by decide)))
  · exact (congrArg (fun v => fget F.NE_STATUS.LOADED v != 0) hstat).trans (State.flag_setb t1 _ _ b (by decide))

/-- What a change of the engine's memory, and the reply after it, leave of the registers. -/
theorem loaded_leaves {n : Nat} (hst : s.neState i = neLoading) (hregs : s.onlyRegs t [A.NE_STATUS i, A.NE_RECIPE i])
    (hstate : t.fld (A.NE_STATUS i) F.NE_STATUS.STATE = neStopped) (hwin : t.WinOnly v i n) (status : Nat) :
    (v.loadReply l status).neState i = neStopped ∧
    (v.loadReply l status).rd (A.NE_STATUS i) = t.rd (A.NE_STATUS i) ∧ (v.loadReply l status).rd (A.NE_RECIPE i) = t.rd (A.NE_RECIPE i) ∧
    (v.loadReply l status).eng i = v.eng i ∧ s.engsBut (v.loadReply l status) i ∧ (v.loadReply l status).kcmd l.tr l.tag = none ∧
    (s.kcmd l.tr l.tag = none → s.bytesBut (v.loadReply l status) (neWin i) n ∧
      s.regsBut (v.loadReply l status) [A.NE_STATUS i, A.NE_RECIPE i] ∧
      { v.loadReply l status with regs := s.regs, mem := s.mem, ne := s.ne } = s) := by
  obtain ⟨hregs, hrest⟩ := hregs
  obtain ⟨hreply, hne, hrst, hcmd⟩ := loadReply_leaves v l status
  have hrd : ∀ a, v.rd a = t.rd a := fun a => hwin.part (State.rd · a)
  have hrstS : (v.loadReply l status).rst = s.rst := hrst.trans ((hwin.part State.rst).trans (congrArg State.rst hrest :))
  have hstat := (hreply _ (ne_notMem_streamRegs i).1).trans (hrd _)
  have heng : ∀ j, (v.loadReply l status).eng j = v.eng j := fun j => by rw [State.eng, hne, ← State.eng]
  have hneS : ∀ j, t.eng j = s.eng j := fun j => (congrArg (State.eng · j) hrest :)
  refine ⟨?_, hstat, (hreply _ (ne_notMem_streamRegs i).2).trans (hrd _), heng i, fun j hj => ?_, hcmd, fun hnone => ?_⟩
  · exact neState_of_fld (neHeld_of_neState (by rw [hst]; decide)) hrstS ((congrArg (fget _) hstat).trans hstate)
  · exact (heng j).trans ((hwin.engs j hj).trans (hneS j))
  · have hnoneV : v.kcmd l.tr l.tag = none := by
      rw [State.kcmd, hwin.part State.kcp, show t.kcp = s.kcp from (congrArg State.kcp hrest :)]
      exact hnone
    rw [loadReply_of_none hnoneV]
    refine ⟨fun a ha => (hwin.bytes a ha).trans (congrArg (State.mb · a) hrest :), fun a ha => (hrd a).trans (hregs a ha), ?_⟩
    exact (congrArg (fun x : State => { x with regs := s.regs, mem := s.mem, ne := s.ne }) hwin.rest).trans
      (congrArg (fun x : State => { x with mem := s.mem, ne := s.ne }) hrest :)

end

/-- Settles O38: the verification and the validation by the verdict of their checks. -/
theorem recipeLoadEffects : Obligations.RecipeLoadEffects := by
  intro s i l c
  refine ⟨?_, ?_, ?_⟩
  · rintro ⟨hst, hload, hv, hc⟩
    refine ⟨_, exec_verify hload hv hc hst, fun hfail => ?_, fun hpass => ?_⟩
    · obtain ⟨code, hcode⟩ := Option.ne_none_iff_exists'.1 hfail
      rw [hcode]
      exact verify_failed hst _
    · rw [hpass]
      exact verify_passed hst _
  · intro hnone
    constructor
    · show execRecipeVerifyDone i s = _
      rw [execRecipeVerifyDone]
      dsimp only
      rw [hnone]
    · show execRecipeValidated i s = _
      rw [execRecipeValidated]
      dsimp only
      rw [hnone]
  · rintro ⟨hst, hload, hv⟩
    refine ⟨fun hpass => ?_, fun hfail => ?_⟩
    · refine ⟨_, exec_validated hload hv hst, ?_⟩
      rw [hpass]
      dsimp only
      obtain ⟨hstate, hloaded, hrecipe, honly⟩ := stopped_regs s i true (recipeWord l.image)
      obtain ⟨hst', hstat, hrec, heng, hengs, hcmd, hrest⟩ := loaded_leaves (l := l) hst honly hstate (winOnly_holding s i hpass) stOk
      refine ⟨hst', (congrArg (fun v => fget F.NE_STATUS.LOADED v != 0) hstat).trans hloaded, ?_, ?_, ?_, hengs, hcmd, hrest⟩
      · exact (congrArg Engine.recipe heng).trans (congrArg Engine.recipe (eng_mapEng_self ..))
      · exact (congrArg Engine.load heng).trans (congrArg Engine.load (eng_mapEng_self ..))
      · have hid := u_lt l.image 8 2
        have hver := u_lt l.image 10 2
        refine (congrArg BitVec.toNat (hrec.trans hrecipe)).trans ?_
        exact (BitVec.toNat_ofNat _ _).trans (Nat.mod_eq_of_lt (by omega))
    · obtain ⟨code, hcode⟩ := Option.ne_none_iff_exists'.1 hfail
      refine ⟨_, exec_validated hload hv hst, ?_⟩
      rw [hcode]
      dsimp only
      obtain ⟨hstate, hloaded, hrecipe, honly⟩ := stopped_regs s i false 0
      obtain ⟨hst', hstat, hrec, heng, hengs, hcmd, hrest⟩ := loaded_leaves (l := l) hst honly hstate (winOnly_unloaded s i) (0x100 + code)
      refine ⟨hst', (congrArg (fun v => fget F.NE_STATUS.LOADED v != 0) hstat).trans hloaded, ?_, ?_, hrec.trans hrecipe, hengs, hcmd, hrest⟩
      · exact (congrArg Engine.recipe heng).trans (congrArg Engine.recipe (eng_mapEng_self ..))
      · exact (congrArg Engine.load heng).trans (congrArg Engine.load (eng_mapEng_self ..))

end Sys2Proof.Machine
end

section
/-! PROOFS. Running and stopping of a Needle engine, its doorbell, bindings, inline pair and timers (R156 to R193, R241, R242). -/

namespace Sys2Proof.Machine
open Sys2Proof

-- Parallel elaboration holds many stacks at once, and they count towards the memory a check may take.
set_option Elab.async false

variable {s t v : State} {i : Nat} {as : List Nat}

/-! ### A fold of which one step acts; a pending event -/

theorem foldl_skip {α β : Type} {f : α → β → α} {xs : List β} (h : ∀ j ∈ xs, ∀ x, f x j = x) (x : α) : xs.foldl f x = x := by
  induction xs with
  | nil => rfl
  | cons j js ih => rw [List.foldl_cons, h j List.mem_cons_self, ih fun k hk => h k (List.mem_cons_of_mem j hk)]

theorem foldl_single {α β : Type} {f : α → β → α} {xs : List β} {k : β} (hk : k ∈ xs) (hnd : xs.Nodup)
    (hother : ∀ j, j ≠ k → ∀ x, f x j = x) (x : α) : xs.foldl f x = f x k := by
  obtain ⟨ys, zs, rfl⟩ := List.append_of_mem hk
  rw [List.nodup_append, List.nodup_cons] at hnd
  obtain ⟨-, ⟨hzs, -⟩, hys⟩ := hnd
  rw [List.foldl_append, List.foldl_cons, foldl_skip fun j hj => hother j (hys j hj k List.mem_cons_self),
    foldl_skip fun j hj => hother j fun hjk => hzs (hjk ▸ hj)]

/-- An event whose source has none pending becomes pending in a running engine. -/
theorem nePend_new {p : Pend} (hrun : s.neState i = neRunning)
    (hnew : ((s.eng i).pend.all fun q => !(q.prio == p.prio && q.idx == p.idx)) = true) :
    s.nePend i p = s.putEng i { s.eng i with pend := (s.eng i).pend ++ [p] } := by
  have hany : ((s.eng i).pend.any fun q => decide (q.prio = p.prio ∧ q.idx = p.idx ∧ q.code = p.code)) = false := by
    rw [List.any_eq_false]
    intro q hq hmatch
    have hne := List.all_eq_true.1 hnew q hq
    obtain ⟨hprio, hidx, -⟩ := of_decide_eq_true hmatch
    simp [hprio, hidx] at hne
  rw [State.nePend, if_pos hrun]
  exact if_neg (by rw [hany]; exact Bool.false_ne_true)

/-! ### Changes of one engine after an answered write -/

theorem engOnly_setf (s : State) (i : Nat) {a : Nat} (f : Fld) (n : Nat) (ha : a ∈ as) : s.EngOnly (s.setf a f n) i as := engOnly_wr s i _ ha

theorem engOnly_mapEng (s : State) (i : Nat) (f : Engine → Engine) : s.EngOnly (s.mapEng i f) i as := engOnly_putEng ..

theorem answered_of_engOnly (h : (s.ok 0).EngOnly t i as) : t.resp = some (.ok 0) ∧ s.engsBut t i ∧ s.regsBut t as ∧
    { t with regs := s.regs, ne := s.ne, resp := s.resp } = s :=
  ⟨h.resp, h.engs, h.regs, (congrArg (fun x : State => { x with resp := s.resp }) h.rest :)⟩

theorem answered_of_onlyRegs (h : (s.ok 0).onlyRegs t as) : t.resp = some (.ok 0) ∧ s.regsBut t as ∧
    { t with regs := s.regs, resp := s.resp } = s := by
  obtain ⟨hregs, hrest⟩ := h
  exact ⟨(congrArg State.resp hrest :), hregs, (congrArg (fun x : State => { x with resp := s.resp }) hrest :)⟩

theorem onlyRegs_setf (s : State) {a : Nat} (f : Fld) (n : Nat) (ha : a ∈ as) : s.onlyRegs (s.setf a f n) as := onlyRegs_wr s _ ha

theorem onlyRegs_mono {bs : List Nat} (h : s.onlyRegs t as) (hsub : as ⊆ bs) : s.onlyRegs t bs :=
  ⟨fun a ha => h.1 a fun hmem => ha (hsub hmem), h.2⟩

theorem neState_of_onlyRegs (h : s.onlyRegs t as) (hst : A.NE_STATUS i ∉ as) : t.neState i = s.neState i :=
  neState_of_rd (congrArg State.rst h.2 :) (h.1 _ hst)

/-! ### The transfers of an engine that stops (R160, R168) -/

/-- What the transfers in progress are cut to. -/
def State.cutDma (s : State) (i : Nat) : List Dma :=
  ((List.range 4).filterMap fun ch => ((s.eng i).dma.find? fun d => d.chan == ch).map fun d =>
    d.cut (Config.free (s.free + ch) % (d.bursts + 1))).filter fun d => d.len != 0

theorem stopDma_leaves (s : State) (i : Nat) : (s.stopDma i).eng i = { s.eng i with dma := s.cutDma i } ∧ s.engsBut (s.stopDma i) i ∧
    { s.stopDma i with ne := s.ne, free := s.free } = s :=
  ⟨eng_putEng_self s i _, fun _ hk => eng_putEng_other s _ hk, rfl⟩

theorem cutDma_nil (hdma : (s.eng i).dma = []) : s.cutDma i = [] := by
  rw [State.cutDma, hdma]
  rfl

theorem flushDma_nil (hdma : (s.eng i).dma = []) : s.flushDma i = s.mapEng i fun e => { e with dma := [] } := by
  rw [State.flushDma, hdma]
  rfl

/-- An engine without transfers loses its event, and nothing but a free value is used. -/
theorem stopped_transfers (s : State) (i : Nat) (hdma : (s.eng i).dma = []) :
    let t := ((s.mapEng i fun e => { e with evt := none }).stopDma i).flushDma i
    (t.eng i).evt = none ∧ (t.eng i).dma = [] ∧ s.engsBut t i ∧ { t with ne := s.ne, free := s.free } = s := by
  intro t
  let u := s.mapEng i fun e => { e with evt := none }
  have hu : (u.eng i).dma = [] := (congrArg Engine.dma (eng_mapEng_self s i _)).trans hdma
  obtain ⟨heng, hengs, hrest⟩ := stopDma_leaves u i
  rw [cutDma_nil hu] at heng
  have ht : t = (u.stopDma i).mapEng i fun e => { e with dma := [] } := flushDma_nil (congrArg Engine.dma heng)
  have hengt : t.eng i = { (u.stopDma i).eng i with dma := [] } := ht ▸ eng_mapEng_self ..
  refine ⟨?_, ?_, fun j hj => ?_, ?_⟩
  · rw [hengt, heng, eng_mapEng_self s i]
  · rw [hengt]
  · rw [ht, eng_mapEng_other _ _ hj, hengs j hj, eng_mapEng_other _ _ hj]
  · have hmap : { t with ne := u.ne, free := u.free } = u := by
      rw [ht]
      exact hrest
    clear_value t
    have hu : { u with ne := s.ne } = s := rfl
    exact (congrArg (fun x : State => { x with ne := s.ne }) hmap).trans hu

/-! ### NE_CTRL (R158, R166) -/

/-- The word that a write of NE_CTRL carries. -/
def ctrlWord (hard : Byte) (run : Nat) : Word := BitVec.ofNat 32 (hard.toNat * 256 + run)

theorem run_ctrlWord (hard : Byte) {run : Nat} (h : run < 2) : fget F.NE_CTRL.RUN (ctrlWord hard run) = run := by
  have hhard := hard.isLt
  simp only [fget, fldWidth, F.NE_CTRL.RUN, ctrlWord, BitVec.toNat_ushiftRight, BitVec.toNat_ofNat, Nat.shiftRight_eq_div_pow]
  omega

theorem hardUs_ctrlWord (hard : Byte) {run : Nat} (h : run < 2) : fget F.NE_CTRL.HARD_US (ctrlWord hard run) = hard.toNat := by
  have hhard := hard.isLt
  simp only [fget, fldWidth, F.NE_CTRL.HARD_US, ctrlWord, BitVec.toNat_ushiftRight, BitVec.toNat_ofNat, Nat.shiftRight_eq_div_pow]
  omega

theorem neDescs : ∀ i : Fin 24, (regDesc? (A.NE_CTRL i)).isSome = true ∧ (regDesc? (A.NE_DOORBELL i)).isSome = true ∧
    (regDesc? (A.NE_BIND i)).isSome = true ∧ (regDesc? (A.NE_INL_LAT i)).isSome = true := by
  decide +kernel

/-- The descriptor of NE_INL_CTRL. -/
def inlCtrlDesc : RegDesc :=
  ⟨"NE_INL_CTRL", 0x31080028, [(2, 0x1000000), (12, 0x1000)], [⟨31, 31, .trv, 0x0, false⟩, ⟨10, 10, .trv, 0x0, false⟩,
    ⟨9, 9, .trv, 0x1, false⟩, ⟨7, 4, .trv, 0x0, false⟩, ⟨3, 0, .trv, 0x0, false⟩]⟩

theorem regDesc_inlCtrl : ∀ i : Fin 24, regDesc? (A.NE_INL_CTRL i) = some inlCtrlDesc := by
  decide +kernel

section
variable {m : Byte} {i : Fin 24} {hard : Byte}

theorem ctrl_ne_status : A.NE_STATUS i ≠ A.NE_CTRL i := by simp only [A.NE_STATUS, A.NE_CTRL]; omega

/-- The state after the answer, with HARD_US stored. -/
def State.hardUsSet (s : State) (i : Nat) (hard : Byte) : State :=
  (s.ok 0).setf (A.NE_CTRL i) F.NE_CTRL.HARD_US (max 1 hard.toNat)

theorem hardUsSet_effect (s : State) (i : Fin 24) (hard : Byte) : (s.ok 0).onlyRegs (s.hardUsSet i hard) [A.NE_CTRL i] ∧
    (s.hardUsSet i hard).fld (A.NE_CTRL i) F.NE_CTRL.HARD_US = max 1 hard.toNat ∧
    (s.hardUsSet i hard).neState i = s.neState i ∧ (∀ f, (s.hardUsSet i hard).fld (A.NE_STATUS i) f = s.fld (A.NE_STATUS i) f) := by
  have hreg : (s.ok 0).onlyRegs (s.hardUsSet i hard) [A.NE_CTRL i] := onlyRegs_setf _ _ _ (List.mem_singleton_self _)
  have hst : A.NE_STATUS i ∉ [A.NE_CTRL i] := by simpa using ctrl_ne_status
  have hhard : max 1 hard.toNat < 256 := by have := hard.isLt; omega
  refine ⟨hreg, ?_, (neState_of_onlyRegs hreg hst).trans (neState_of_rd rfl rfl), fun f => congrArg (fget f) (hreg.1 _ hst)⟩
  exact (State.fld_setf (s.ok 0) _ _ _ (by decide)).trans (Nat.mod_eq_of_lt hhard)

theorem neCtrlWrite_eq (hr : s.reaches m.toNat (A.NE_CTRL i) true) {run : Nat} (hrun : run < 2) :
    s.neCtrlWrite m.toNat i (ctrlWord hard run) =
      if run = 1 then
        if s.neState i = neStopped ∧ s.flag (A.NE_STATUS i) F.NE_STATUS.LOADED = true then (s.hardUsSet i hard).neStart i
        else (s.hardUsSet i hard).setf (A.NE_STATUS i) F.NE_STATUS.START_REJ 1
      else if s.neState i = neRunning then (s.hardUsSet i hard).neStop i else s.hardUsSet i hard := by
  obtain ⟨hctrl, -⟩ := neDescs i
  obtain ⟨d, hd⟩ := Option.isSome_iff_exists.1 hctrl
  obtain ⟨-, -, hst, hfld⟩ := hardUsSet_effect s i hard
  have hloaded : (s.hardUsSet i hard).flag (A.NE_STATUS i) F.NE_STATUS.LOADED = s.flag (A.NE_STATUS i) F.NE_STATUS.LOADED := by
    rw [State.flag, hfld, ← State.flag]
  rw [State.neCtrlWrite, guardReg_of_reaches s hr hd, run_ctrlWord hard hrun, hardUs_ctrlWord hard hrun]
  dsimp only
  rw [← State.hardUsSet, hst, hloaded]

/-! ### The start (R158, R241) -/

theorem timers_nePend (s : State) (i : Nat) (p : Pend) : ((s.nePend i p).eng i).timers = (s.eng i).timers := by
  unfold State.nePend
  split
  · dsimp only
    split
    · rfl
    · rw [eng_putEng_self]
  · rfl

/-- The state of a started engine before the doorbell bits that were set become pending. -/
def State.started (s : State) (i : Nat) : State :=
  ((s.setf (A.NE_STATUS i) F.NE_STATUS.STATE neRunning).setf (A.NE_CTRL i) F.NE_CTRL.RUN 1).mapEng i fun e => e.armAll s.raw

/-- One doorbell bit that was set becomes pending. -/
def State.bellPends (i : Nat) (s : State) (b : Nat) : State :=
  if bitAt (s.rdn (A.NE_DOORBELL i)) b then s.nePend i (pendBit s prBell b 0) else s

theorem neStart_eq (s : State) (i : Nat) : s.neStart i = (List.range 32).foldl (State.bellPends i) (s.started i) := rfl

theorem engOnly_bellPends (s : State) (i b : Nat) : s.EngOnly (s.bellPends i b) i [A.NE_EVT_MERGE i] := by
  unfold State.bellPends
  split
  · exact engOnly_nePend ..
  · exact .refl

theorem timers_bellPends (s : State) (i b : Nat) : ((s.bellPends i b).eng i).timers = (s.eng i).timers := by
  unfold State.bellPends
  split
  · exact timers_nePend ..
  · rfl

theorem started_effect (s : State) (i : Fin 24) :
    s.EngOnly (s.started i) i [A.NE_STATUS i, A.NE_CTRL i] ∧ (s.started i).eng i = (s.eng i).armAll s.raw ∧
    (s.started i).fld (A.NE_STATUS i) F.NE_STATUS.STATE = neRunning ∧ (s.started i).flag (A.NE_CTRL i) F.NE_CTRL.RUN = true ∧
    (s.started i).fld (A.NE_CTRL i) F.NE_CTRL.HARD_US = s.fld (A.NE_CTRL i) F.NE_CTRL.HARD_US := by
  let s1 := s.setf (A.NE_STATUS i) F.NE_STATUS.STATE neRunning
  let s2 := s1.setb (A.NE_CTRL i) F.NE_CTRL.RUN true
  have h1 : s.EngOnly s1 i [A.NE_STATUS i, A.NE_CTRL i] := engOnly_setf s i _ _ (by simp)
  have h2 : s1.EngOnly s2 i [A.NE_STATUS i, A.NE_CTRL i] := engOnly_setf s1 i _ _ (by simp)
  have h3 : s2.EngOnly (s.started i) i [A.NE_STATUS i, A.NE_CTRL i] := engOnly_mapEng ..
  have hrd : ∀ a, (s.started i).rd a = s2.rd a := fun _ => rfl
  have heng : s2.eng i = s.eng i := rfl
  have hst : s2.rd (A.NE_STATUS i) = s1.rd (A.NE_STATUS i) := State.rd_wr_other s1 _ _ _ ctrl_ne_status
  have hctrl : s1.rd (A.NE_CTRL i) = s.rd (A.NE_CTRL i) := State.rd_wr_other s _ _ _ ctrl_ne_status.symm
  refine ⟨h1.trans (h2.trans h3), (eng_mapEng_self s2 i _).trans (by rw [heng]), ?_, ?_, ?_⟩
  · exact (congrArg (fget _) ((hrd _).trans hst)).trans (State.fld_setf s _ _ _ (by decide))
  · exact (congrArg (fun v => fget F.NE_CTRL.RUN v != 0) (hrd _)).trans (State.flag_setb s1 _ _ true (by decide))
  · exact (congrArg (fget _) (hrd _)).trans ((fld_setf_apart s1 _ _ _ _ (by decide)).trans (congrArg (fget _) hctrl))

theorem neStart_effect (s : State) (i : Fin 24) (hheld : s.neHeld i = false) :
    s.EngOnly (s.neStart i) i [A.NE_STATUS i, A.NE_CTRL i, A.NE_EVT_MERGE i] ∧ (s.neStart i).neState i = neRunning ∧
    (s.neStart i).flag (A.NE_CTRL i) F.NE_CTRL.RUN = true ∧
    (s.neStart i).fld (A.NE_CTRL i) F.NE_CTRL.HARD_US = s.fld (A.NE_CTRL i) F.NE_CTRL.HARD_US ∧
    ((s.neStart i).eng i).timers = ((s.eng i).armAll s.raw).timers ∧
    (s.rd (A.NE_DOORBELL i) = 0 → (s.neStart i).eng i = (s.eng i).armAll s.raw ∧ s.regsBut (s.neStart i) [A.NE_STATUS i, A.NE_CTRL i]) := by
  obtain ⟨hstart, heng, hstate, hrun, hhard⟩ := started_effect s i
  have hfold : (s.started i).EngOnly (s.neStart i) i [A.NE_EVT_MERGE i] := engOnly_foldl (fun u b => engOnly_bellPends u i b) _ _
  have hst : (s.neStart i).rd (A.NE_STATUS i) = (s.started i).rd (A.NE_STATUS i) :=
    hfold.regs _ (by simp only [List.mem_singleton, A.NE_STATUS, A.NE_EVT_MERGE]; omega)
  have hctrl : (s.neStart i).rd (A.NE_CTRL i) = (s.started i).rd (A.NE_CTRL i) :=
    hfold.regs _ (by simp only [List.mem_singleton, A.NE_CTRL, A.NE_EVT_MERGE]; omega)
  have htimers : ((s.neStart i).eng i).timers = ((s.started i).eng i).timers :=
    keep_foldl (fun u => (u.eng i).timers) (fun u b => timers_bellPends u i b) _ _
  refine ⟨(hstart.mono (by simp)).trans (hfold.mono (by simp)), ?_, ?_, ?_, by rw [htimers, heng], fun hbell => ?_⟩
  · exact neState_of_fld hheld ((hfold.part State.rst).trans (hstart.part State.rst)) ((congrArg (fget _) hst).trans hstate)
  · exact (congrArg (fun v => fget F.NE_CTRL.RUN v != 0) hctrl).trans hrun
  · exact (congrArg (fget _) hctrl).trans hhard
  · have hquiet : (s.started i).rdn (A.NE_DOORBELL i) = 0 := by
      rw [State.rdn, hstart.regs _ (by simp only [List.mem_cons, List.not_mem_nil, or_false, not_or, A.NE_STATUS, A.NE_CTRL, A.NE_DOORBELL]; omega),
        hbell]
      rfl
    have hsame : s.neStart i = s.started i := by
      rw [neStart_eq]
      exact List.foldl_fixed' (fun b => if_neg (by simp [hquiet, bitAt])) _
    rw [hsame]
    exact ⟨heng, hstart.regs⟩

/-! ### The stop (R166 to R168) -/

/-- The state with NE_STATUS and NE_CTRL of an engine that enters STOPPING. -/
def State.stopStatus (s : State) (i : Nat) : State :=
  (s.setf (A.NE_STATUS i) F.NE_STATUS.STATE neStopping).setf (A.NE_CTRL i) F.NE_CTRL.RUN 0

/-- The registers of an engine that enters STOPPING, where n events and inputs are dropped. -/
def State.stopRegs (s : State) (i n : Nat) : State := ((s.stopStatus i).incBy (A.NE_EVT_DROP i) n).wr (A.NE_DOORBELL i) 0

/-- An engine that stops, its events and inputs dropped. -/
def Engine.stopped (e : Engine) (now : Nat) : Engine := { e.disarm with rx := [], pend := [], stopAt := now }

/-- The events and inputs that wait. -/
def Engine.waiting (e : Engine) : Nat := e.pend.length + e.rx.length

theorem neStop_unfold (s : State) (i : Nat) : s.neStop i = (s.stopRegs i ((s.stopStatus i).eng i).waiting).putEng i
    (((s.stopStatus i).eng i).stopped (s.stopRegs i ((s.stopStatus i).eng i).waiting).now) := rfl

theorem stopRegs_effect (s : State) (i : Fin 24) (n : Nat) :
    s.onlyRegs (s.stopRegs i n) [A.NE_STATUS i, A.NE_CTRL i, A.NE_DOORBELL i, A.NE_EVT_DROP i] ∧
    (s.stopRegs i n).fld (A.NE_STATUS i) F.NE_STATUS.STATE = neStopping ∧ (s.stopRegs i n).flag (A.NE_CTRL i) F.NE_CTRL.RUN = false ∧
    (s.stopRegs i n).rd (A.NE_DOORBELL i) = 0 ∧
    (s.stopRegs i n).rdn (A.NE_EVT_DROP i) = min 0xFFFFFFFF (s.rdn (A.NE_EVT_DROP i) + n) := by
  let s1 := s.setf (A.NE_STATUS i) F.NE_STATUS.STATE neStopping
  let s2 := s1.setb (A.NE_CTRL i) F.NE_CTRL.RUN false
  let s3 := s2.incBy (A.NE_EVT_DROP i) n
  have heq : s.stopRegs i n = s3.wr (A.NE_DOORBELL i) 0 := rfl
  rw [heq]
  have hrd : ∀ a, a ≠ A.NE_DOORBELL i → (s3.wr (A.NE_DOORBELL i) 0).rd a = s3.rd a := fun a ha => State.rd_wr_other s3 _ a 0 ha
  have hrd3 : ∀ a, a ≠ A.NE_EVT_DROP i → s3.rd a = s2.rd a := fun a ha => State.rd_wr_other s2 _ a _ ha
  have hrd2 : ∀ a, a ≠ A.NE_CTRL i → s2.rd a = s1.rd a := fun a ha => State.rd_wr_other s1 _ a _ ha
  have hrd1 : ∀ a, a ≠ A.NE_STATUS i → s1.rd a = s.rd a := fun a ha => State.rd_wr_other s _ a _ ha
  have hstat : (s3.wr (A.NE_DOORBELL i) 0).rd (A.NE_STATUS i) = s1.rd (A.NE_STATUS i) := by
    rw [hrd, hrd3, hrd2]
    all_goals simp only [ne_eq, A.NE_STATUS, A.NE_CTRL, A.NE_DOORBELL, A.NE_EVT_DROP]; omega
  have hctrl : (s3.wr (A.NE_DOORBELL i) 0).rd (A.NE_CTRL i) = s2.rd (A.NE_CTRL i) := by
    rw [hrd, hrd3]
    all_goals simp only [ne_eq, A.NE_CTRL, A.NE_DOORBELL, A.NE_EVT_DROP]; omega
  have hdrop : s2.rd (A.NE_EVT_DROP i) = s.rd (A.NE_EVT_DROP i) := by
    rw [hrd2, hrd1]
    all_goals simp only [ne_eq, A.NE_STATUS, A.NE_CTRL, A.NE_EVT_DROP]; omega
  refine ⟨onlyRegs_trans (onlyRegs_trans (onlyRegs_trans (onlyRegs_setf s _ _ (by simp)) (onlyRegs_setf s1 _ _ (by simp)))
    (onlyRegs_wr s2 _ (by simp))) (onlyRegs_wr s3 _ (by simp)), ?_, ?_, State.rd_wr_self s3 _ 0, ?_⟩
  · exact (congrArg (fget _) hstat).trans (State.fld_setf s _ _ _ (by decide))
  · exact (congrArg (fun v => fget F.NE_CTRL.RUN v != 0) hctrl).trans (State.flag_setb s1 _ _ false (by decide))
  · have hval : s3.rd (A.NE_EVT_DROP i) = BitVec.ofNat 32 (min 0xFFFFFFFF (s.rdn (A.NE_EVT_DROP i) + n)) := by
      rw [State.rdn, ← hdrop, ← State.rdn]
      exact (State.rd_wrn s2 _ _ _).trans (if_pos rfl)
    rw [State.rdn, hrd _ (by simp only [ne_eq, A.NE_DOORBELL, A.NE_EVT_DROP]; omega), hval, BitVec.toNat_ofNat]
    omega

theorem neStop_eq (s : State) (i : Fin 24) : s.neStop i = (s.stopRegs i (s.eng i).waiting).putEng i ((s.eng i).stopped s.now) := by
  have heng : (s.stopStatus i).eng i = s.eng i := rfl
  have hnow : ∀ n, (s.stopRegs i n).now = s.now := fun n => (congrArg State.now (stopRegs_effect s i n).1.2 :)
  rw [neStop_unfold, heng, hnow]

theorem engOnly_of_onlyRegs {i : Nat} (h : s.onlyRegs t as) : s.EngOnly t i as :=
  ⟨h.1, fun j _ => (congrArg (State.eng · j) h.2 :), (congrArg (fun x : State => { x with ne := s.ne }) h.2 :)⟩

theorem stopComplete_effect (hst : s.neState i = neStopping) (hevt : (s.eng i).evt = none) (hdma : (s.eng i).dma = []) :
    ∃ t, exec (.neStopComplete i) s = .next t ∧ t.neState i = neStopped ∧ s.onlyRegs t [A.NE_STATUS i] := by
  have hquiet : s.neQuiet i = true := by rw [State.neQuiet, hevt, hdma]; rfl
  refine ⟨s.setf (A.NE_STATUS i) F.NE_STATUS.STATE neStopped, if_pos ⟨hst, hquiet⟩, ?_, onlyRegs_setf s _ _ (List.mem_singleton_self _)⟩
  exact neState_of_fld (neHeld_of_neState (s := s) (by rw [hst]; decide)) rfl (State.fld_setf s _ _ _ (by decide))

/-- A hard stop finds nothing in progress: the engine is STOPPED as after a completion. -/
theorem hardStop_quiet (hst : s.neState i = neStopping)
    (hdue : (s.eng i).stopAt + s.fld (A.NE_CTRL i) F.NE_CTRL.HARD_US * usTicks ≤ s.now) (hevt : (s.eng i).evt = none)
    (hdma : (s.eng i).dma = []) : ∃ t, exec (.neHardStop i) s = .next t ∧ t.neState i = neStopped ∧ s.onlyRegs t [A.NE_STATUS i] ∧
      t.flag (A.NE_STATUS i) F.NE_STATUS.HARD_STOPPED = s.flag (A.NE_STATUS i) F.NE_STATUS.HARD_STOPPED := by
  have hquiet : s.neQuiet i = true := by rw [State.neQuiet, hevt, hdma]; rfl
  have hexec : exec (.neHardStop i) s = .next (s.setf (A.NE_STATUS i) F.NE_STATUS.STATE neStopped) :=
    (if_pos ⟨hst, hdue⟩).trans (if_pos hquiet)
  refine ⟨_, hexec, ?_, onlyRegs_setf s _ _ (List.mem_singleton_self _), ?_⟩
  · exact neState_of_fld (neHeld_of_neState (s := s) (by rw [hst]; decide)) rfl (State.fld_setf s _ _ _ (by decide))
  · exact congrArg (· != 0) (fld_setf_apart s _ _ _ _ (by decide))

/-- A hard stop finds an event in progress: it is lost and recorded with cause 6. -/
theorem hardStop_event (hst : s.neState i = neStopping)
    (hdue : (s.eng i).stopAt + s.fld (A.NE_CTRL i) F.NE_CTRL.HARD_US * usTicks ≤ s.now) (hevt : (s.eng i).evt ≠ none)
    (hdma : (s.eng i).dma = []) : ∃ t, exec (.neHardStop i) s = .next t ∧ t.neState i = neStopped ∧
      t.flag (A.NE_STATUS i) F.NE_STATUS.HARD_STOPPED = true ∧ t.rdn (A.NE_FAULT i) / 2 ^ 24 = 6 ∧ (t.eng i).evt = none ∧
      (t.eng i).dma = [] ∧ s.engsBut t i ∧ s.regsBut t [A.NE_STATUS i, A.NE_FAULT i] ∧ t.mem = s.mem ∧ t.chg = s.chg ∧ t.kcp = s.kcp := by
  obtain ⟨c, hc⟩ := Option.ne_none_iff_exists'.1 hevt
  have hquiet : s.neQuiet i = false := by rw [State.neQuiet, hc]; rfl
  obtain ⟨hevt', hdma', hengs, hrest⟩ := stopped_transfers s i hdma
  obtain ⟨u, hu⟩ : ∃ u, u = ((s.mapEng i fun e => { e with evt := none }).stopDma i).flushDma i := ⟨_, rfl⟩
  rw [← hu] at hevt' hdma' hengs hrest
  let u1 := u.setf (A.NE_STATUS i) F.NE_STATUS.STATE neStopped
  let u2 := u1.setb (A.NE_STATUS i) F.NE_STATUS.HARD_STOPPED true
  let word := 6 * 2 ^ 24 + c.state % 2 ^ 11 * 2 ^ 13 + c.pc % 2 ^ 13
  have hexec : exec (.neHardStop i) s = .next (u2.wrn (A.NE_FAULT i) word) := by
    show execNeHardStop i s = _
    rw [execNeHardStop]
    dsimp only
    rw [if_pos ⟨hst, hdue⟩, if_neg (by simp [hquiet]), hc]
    dsimp only
    rw [← hu]
    rfl
  let t := u2.wrn (A.NE_FAULT i) word
  have hne : A.NE_STATUS i ≠ A.NE_FAULT i := by simp only [A.NE_STATUS, A.NE_FAULT]; omega
  have honly : u.onlyRegs t [A.NE_STATUS i, A.NE_FAULT i] :=
    onlyRegs_trans (onlyRegs_trans (onlyRegs_setf u _ _ (by simp)) (onlyRegs_setf u1 _ _ (by simp))) (onlyRegs_wr u2 _ (by simp))
  have hstat : t.rd (A.NE_STATUS i) = u2.rd (A.NE_STATUS i) := State.rd_wr_other u2 _ _ _ hne
  have heng : ∀ j, t.eng j = u.eng j := fun j => (congrArg (State.eng · j) honly.2 :)
  refine ⟨t, hexec, ?_, ?_, ?_, (congrArg Engine.evt (heng i)).trans hevt', (congrArg Engine.dma (heng i)).trans hdma',
    fun j hj => (heng j).trans (hengs j hj), fun a ha => (honly.1 a ha).trans (congrArg (State.rd · a) hrest :),
    (congrArg State.mem honly.2 :).trans (congrArg State.mem hrest :), (congrArg State.chg honly.2 :).trans (congrArg State.chg hrest :),
    (congrArg State.kcp honly.2 :).trans (congrArg State.kcp hrest :)⟩
  · have hrst : t.rst = s.rst := (congrArg State.rst honly.2 :).trans (congrArg State.rst hrest :)
    exact neState_of_fld (neHeld_of_neState (by rw [hst]; decide)) hrst ((congrArg (fget _) hstat).trans
      ((fld_setf_apart u1 _ _ _ _ (by decide)).trans (State.fld_setf u _ _ _ (by decide))))
  · exact (congrArg (fun v => fget F.NE_STATUS.HARD_STOPPED v != 0) hstat).trans (State.flag_setb u1 _ _ true (by decide))
  · have hval : t.rdn (A.NE_FAULT i) = word := by
      rw [State.rdn, State.rd_wrn, if_pos rfl, BitVec.toNat_ofNat]
      exact Nat.mod_eq_of_lt (by omega)
    rw [hval]
    omega

/-! ### The doorbell (R172) -/

/-- What the doorbell does with one bit of a write. -/
def State.bellStep (i bits : Nat) (s : State) (b : Nat) : State :=
  if bitAt bits b then
    if s.neState i = neRunning then s.nePend i (pendBit s prBell b 0)
    else if bitAt (s.rdn (A.NE_DOORBELL i)) b then s.inc (A.NE_EVT_MERGE i) else s
  else s

/-- The state after the bits of a doorbell write, before NE_DOORBELL takes them. -/
def State.bellSteps (s : State) (i bits : Nat) : State := (List.range 32).foldl (State.bellStep i bits) (s.rings i bits)

theorem neBell_eq (s : State) (i bits : Nat) : s.neBell i bits =
    (s.bellSteps i bits).wrn (A.NE_DOORBELL i) ((s.bellSteps i bits).rdn (A.NE_DOORBELL i) ||| bits) := rfl

theorem engOnly_bellSteps (s : State) (i bits : Nat) : s.EngOnly (s.bellSteps i bits) i [A.NE_EVT_MERGE i] := by
  refine (engOnly_rings s i bits).trans (engOnly_foldl (fun u b => ?_) _ _)
  unfold State.bellStep
  exact .ite (.ite (engOnly_nePend ..) (.ite (engOnly_wr u i _ (by simp)) .refl)) .refl

/-- NE_DOORBELL takes the bits written. -/
theorem rd_neBell (s : State) (i : Nat) (w : Word) : (s.neBell i w.toNat).rd (A.NE_DOORBELL i) = (s.rd (A.NE_DOORBELL i) ||| w) := by
  have hbell : (s.bellSteps i w.toNat).rd (A.NE_DOORBELL i) = s.rd (A.NE_DOORBELL i) :=
    (engOnly_bellSteps s i w.toNat).regs _ (by simp only [List.mem_singleton, A.NE_DOORBELL, A.NE_EVT_MERGE]; omega)
  rw [neBell_eq, State.rd_wrn, if_pos rfl, State.rdn, hbell, ← BitVec.toNat_or, BitVec.ofNat_toNat, BitVec.setWidth_eq]

theorem neBellWrite_eq {v : Word} (hr : s.reaches m.toNat (A.NE_DOORBELL i) true)
    (hbell : m.toNat = trivet ∨ (2 ≤ m.toNat ∧ m.toNat ≤ 5 ∧ masterHalf m.toNat = some (unitHalf i 12))) :
    s.neBellWrite m.toNat i v = (s.ok 0).neBell i v.toNat := by
  obtain ⟨-, hdoor, -⟩ := neDescs i
  obtain ⟨d, hd⟩ := Option.isSome_iff_exists.1 hdoor
  rw [State.neBellWrite, guardReg_of_reaches s hr hd]
  refine if_pos (hbell.imp_right ?_)
  rintro ⟨hlo, hhi, hhalf⟩
  simp [hlo, hhi, hhalf]

/-- A bit that is not pending in a running engine becomes pending, and nothing merges. -/
theorem bellSteps_one (s : State) (i : Nat) (b : Fin 32) (hrun : s.neState i = neRunning)
    (hnew : ((s.eng i).pend.all fun q => !(q.prio == prBell && q.idx == b.val)) = true) :
    ((s.bellSteps i (2 ^ b.val)).eng i).pend = (s.eng i).pend ++ [⟨prBell, b, 0, 0, 0, s.raw, false⟩] ∧
    s.EngOnly (s.bellSteps i (2 ^ b.val)) i [] := by
  have hrings : s.EngOnly (s.rings i (2 ^ b.val)) i [] := engOnly_rings s i _
  have hpend : ((s.rings i (2 ^ b.val)).eng i).pend = (s.eng i).pend := by rw [State.rings, eng_mapEng_self]
  have hrun' : (s.rings i (2 ^ b.val)).neState i = neRunning :=
    (neState_of_rd (hrings.part State.rst) (hrings.regs _ (by simp))).trans hrun
  have hfold : s.bellSteps i (2 ^ b.val) = (s.rings i (2 ^ b.val)).bellStep i (2 ^ b.val) b :=
    foldl_single (List.mem_range.2 b.isLt) List.nodup_range
      (fun k hk x => if_neg (by rw [bitAt_two_pow]; simpa using Ne.symm hk)) _
  have hraw := hrings.raw
  obtain ⟨u, hu⟩ : ∃ u, u = s.rings i (2 ^ b.val) := ⟨_, rfl⟩
  rw [← hu] at hrings hpend hrun' hraw hfold
  have hone : u.bellStep i (2 ^ b.val) b = u.nePend i (pendBit u prBell b 0) :=
    (if_pos (by simp [bitAt_two_pow])).trans (if_pos hrun')
  have hput := nePend_new (p := pendBit u prBell b 0) hrun' (by rw [hpend]; exact hnew)
  rw [hfold, hone, hput]
  exact ⟨(congrArg Engine.pend (eng_putEng_self u i _)).trans (by rw [hpend, pendBit, hraw]), hrings.trans (engOnly_putEng ..)⟩

theorem doorbell_effect {v : Word} (hr : s.reaches m.toNat (A.NE_DOORBELL i) true)
    (hbell : m.toNat = trivet ∨ (2 ≤ m.toNat ∧ m.toNat ≤ 5 ∧ masterHalf m.toNat = some (unitHalf i 12))) :
    ∃ t, exec (.neDoorbellWrite m i v) s = .next t ∧ t.resp = some (.ok 0) ∧
      t.rd (A.NE_DOORBELL i) = (s.rd (A.NE_DOORBELL i) ||| v) ∧ s.engsBut t i ∧
      s.regsBut t [A.NE_DOORBELL i, A.NE_EVT_MERGE i] ∧ { t with regs := s.regs, ne := s.ne, resp := s.resp } = s := by
  obtain ⟨hresp, hengs, hregs, hrest⟩ := answered_of_engOnly (engOnly_neBell (s.ok 0) i v.toNat)
  exact ⟨_, congrArg Host.Outcome.next (neBellWrite_eq hr hbell), hresp, rd_neBell (s.ok 0) i v, hengs, hregs, hrest⟩

theorem doorbell_one {b : Fin 32} (hr : s.reaches m.toNat (A.NE_DOORBELL i) true)
    (hbell : m.toNat = trivet ∨ (2 ≤ m.toNat ∧ m.toNat ≤ 5 ∧ masterHalf m.toNat = some (unitHalf i 12)))
    (hrun : s.neState i = neRunning) (hnew : ((s.eng i).pend.all fun q => !(q.prio == prBell && q.idx == b.val)) = true) :
    ∃ t, exec (.neDoorbellWrite m i (BitVec.ofNat 32 (2 ^ b.val))) s = .next t ∧ t.resp = some (.ok 0) ∧
      (t.eng i).pend = (s.eng i).pend ++ [⟨prBell, b, 0, 0, 0, s.raw, false⟩] ∧
      t.rd (A.NE_DOORBELL i) = (s.rd (A.NE_DOORBELL i) ||| BitVec.ofNat 32 (2 ^ b.val)) ∧ s.engsBut t i ∧
      s.regsBut t [A.NE_DOORBELL i] ∧ { t with regs := s.regs, ne := s.ne, resp := s.resp } = s := by
  have hbits : (BitVec.ofNat 32 (2 ^ b.val)).toNat = 2 ^ b.val :=
    (BitVec.toNat_ofNat _ _).trans (Nat.mod_eq_of_lt (Nat.pow_lt_pow_right (by decide) b.isLt))
  have hrun' : (s.ok 0).neState i = neRunning := (neState_of_rd rfl rfl).trans hrun
  obtain ⟨hpend, hsteps⟩ := bellSteps_one (s.ok 0) i b hrun' hnew
  have hwr : ((s.ok 0).bellSteps i (2 ^ b.val)).EngOnly ((s.ok 0).neBell i (2 ^ b.val)) i [A.NE_DOORBELL i] :=
    engOnly_wr _ _ _ (List.mem_singleton_self _)
  have hall : (s.ok 0).EngOnly ((s.ok 0).neBell i (2 ^ b.val)) i [A.NE_DOORBELL i] := (hsteps.mono (by simp)).trans hwr
  obtain ⟨hresp, hengs, hregs, hrest⟩ := answered_of_engOnly hall
  have hdoor := rd_neBell (s.ok 0) i (BitVec.ofNat 32 (2 ^ b.val))
  refine ⟨_, congrArg Host.Outcome.next (neBellWrite_eq hr hbell), ?_⟩
  rw [hbits] at hdoor ⊢
  exact ⟨hresp, hpend, hdoor, hengs, hregs, hrest⟩

/-! ### Bindings (R180, R181) -/

theorem bindRej_effect (s : State) (i : Nat) : s.onlyRegs (s.bindRej i) [A.NE_STATUS i] ∧
    (s.bindRej i).flag (A.NE_STATUS i) F.NE_STATUS.BIND_REJ = true :=
  ⟨onlyRegs_setf s _ _ (List.mem_singleton_self _), flag_setf_one s _ _ (by decide)⟩

/-- What is left of wanted units without those bound elsewhere. -/
theorem free_units_and (want bound : Nat) : (want - (want &&& bound)) &&& bound = 0 := by
  induction want using Nat.strong_induction_on generalizing bound with
  | _ want ih =>
    rcases Nat.eq_zero_or_pos want with rfl | hpos
    · simp
    · have hhalf := ih (want / 2) (by omega) (bound / 2)
      have hdiv : (want &&& bound) / 2 = want / 2 &&& bound / 2 := Nat.and_div_two
      have hmod : (want &&& bound) % 2 = want % 2 &&& bound % 2 := Nat.and_mod_two_pow (n := 1)
      have hle : (want / 2 &&& bound / 2) ≤ want / 2 := Nat.and_le_left
      have hbit : (want % 2 &&& bound % 2) ≤ want % 2 := Nat.and_le_left
      generalize hx : want - (want &&& bound) = x
      have hxdiv : x / 2 = want / 2 - (want / 2 &&& bound / 2) := by omega
      have hxmod : x % 2 = want % 2 - (want % 2 &&& bound % 2) := by omega
      have hlow : x % 2 &&& bound % 2 = 0 := by
        rw [hxmod]
        rcases Nat.mod_two_eq_zero_or_one want with h | h <;> rcases Nat.mod_two_eq_zero_or_one bound with h' | h' <;> rw [h, h'] <;> rfl
      have hdiv' : (x &&& bound) / 2 = x / 2 &&& bound / 2 := Nat.and_div_two
      have hmod' : (x &&& bound) % 2 = x % 2 &&& bound % 2 := Nat.and_mod_two_pow (n := 1)
      rw [hxdiv, hhalf] at hdiv'
      omega

theorem neBindWrite_eq {v : Word} (hr : s.reaches m.toNat (A.NE_BIND i) true) : s.neBindWrite m.toNat i v =
    if s.neState i ≠ neStopped then (s.ok 0).bindRej i
    else
      let bad := v.toNat % 4096 &&& s.boundElsewhere i
      let u := (s.ok 0).wrn (A.NE_BIND i) (v.toNat % 4096 - bad)
      if bad = 0 then u else u.bindRej i := by
  obtain ⟨-, -, hbind, -⟩ := neDescs i
  obtain ⟨d, hd⟩ := Option.isSome_iff_exists.1 hbind
  rw [State.neBindWrite, guardReg_of_reaches s hr hd, neState_of_rd (t := s.ok 0) (s := s) rfl rfl]
  rfl

theorem rdn_wrn_of_lt (s : State) (a : Nat) {n : Nat} (hn : n < 2 ^ 32) : (s.wrn a n).rdn a = n := by
  rw [State.rdn, State.rd_wrn, if_pos rfl, BitVec.toNat_ofNat, Nat.mod_eq_of_lt hn]

theorem bind_cases {v : Word} (hr : s.reaches m.toNat (A.NE_BIND i) true) :
    let bad := v.toNat % 4096 &&& s.boundElsewhere i
    (s.neState i = neStopped ∧ bad = 0 →
      ∃ t, exec (.neBindWrite m i v) s = .next t ∧ t.resp = some (.ok 0) ∧ t.rdn (A.NE_BIND i) = v.toNat % 4096 ∧
        s.regsBut t [A.NE_BIND i] ∧ { t with regs := s.regs, resp := s.resp } = s) ∧
    (s.neState i = neStopped ∧ bad ≠ 0 →
      ∃ t, exec (.neBindWrite m i v) s = .next t ∧ t.flag (A.NE_STATUS i) F.NE_STATUS.BIND_REJ = true ∧
        (t.rdn (A.NE_BIND i) &&& s.boundElsewhere i) = 0 ∧ s.regsBut t [A.NE_STATUS i, A.NE_BIND i]) ∧
    (s.neState i ≠ neStopped → ∃ t, exec (.neBindWrite m i v) s = .next t ∧
      t.flag (A.NE_STATUS i) F.NE_STATUS.BIND_REJ = true ∧ s.regsBut t [A.NE_STATUS i]) := by
  intro bad
  have hx : exec (.neBindWrite m i v) s = .next (s.neBindWrite m.toNat i v) := rfl
  rw [neBindWrite_eq hr] at hx
  let u := (s.ok 0).wrn (A.NE_BIND i) (v.toNat % 4096 - bad)
  have hu : (s.ok 0).onlyRegs u [A.NE_BIND i] := onlyRegs_wr _ _ (List.mem_singleton_self _)
  have hval : u.rdn (A.NE_BIND i) = v.toNat % 4096 - bad := rdn_wrn_of_lt _ _ (by omega)
  refine ⟨fun ⟨hst, hfree⟩ => ?_, fun ⟨hst, htaken⟩ => ?_, fun hst => ?_⟩
  · rw [if_neg (not_not.2 hst)] at hx
    obtain ⟨hresp, hregs, hrest⟩ := answered_of_onlyRegs hu
    exact ⟨u, hx.trans (congrArg _ (if_pos hfree)), hresp, by rw [hval, hfree, Nat.sub_zero], hregs, hrest⟩
  · rw [if_neg (not_not.2 hst)] at hx
    obtain ⟨hrej, hflag⟩ := bindRej_effect u i
    have hkeep : (u.bindRej i).rdn (A.NE_BIND i) = u.rdn (A.NE_BIND i) :=
      congrArg BitVec.toNat (hrej.1 _ (by simp only [List.mem_singleton, A.NE_STATUS, A.NE_BIND]; omega))
    refine ⟨u.bindRej i, hx.trans (congrArg _ (if_neg htaken)), hflag, ?_, fun a ha => ?_⟩
    · rw [hkeep, hval]
      exact free_units_and ..
    · simp only [List.mem_cons, List.not_mem_nil, or_false, not_or] at ha
      exact (hrej.1 a (by simpa using ha.1)).trans (hu.1 a (by simpa using ha.2))
  · rw [if_pos hst] at hx
    obtain ⟨hrej, hflag⟩ := bindRej_effect (s.ok 0) i
    exact ⟨_, hx, hflag, hrej.1⟩

/-! ### The whole of a start and of a stop -/

theorem runStart_effect (hr : s.reaches m.toNat (A.NE_CTRL i) true) (hst : s.neState i = neStopped)
    (hloaded : s.flag (A.NE_STATUS i) F.NE_STATUS.LOADED = true) :
    ∃ t, exec (.neRunStart m i hard) s = .next t ∧ t.resp = some (.ok 0) ∧ t.neState i = neRunning ∧
      t.flag (A.NE_CTRL i) F.NE_CTRL.RUN = true ∧ t.fld (A.NE_CTRL i) F.NE_CTRL.HARD_US = max 1 hard.toNat ∧
      (t.eng i).timers = ((s.eng i).armAll s.raw).timers ∧ s.engsBut t i ∧
      s.regsBut t [A.NE_STATUS i, A.NE_CTRL i, A.NE_EVT_MERGE i] ∧
      (s.rd (A.NE_DOORBELL i) = 0 → t.eng i = (s.eng i).armAll s.raw ∧ s.regsBut t [A.NE_STATUS i, A.NE_CTRL i]) ∧
      { t with regs := s.regs, ne := s.ne, resp := s.resp } = s := by
  obtain ⟨hset, hhard, hsetst, -⟩ := hardUsSet_effect s i hard
  obtain ⟨u, hu⟩ : ∃ u, u = s.hardUsSet i hard := ⟨_, rfl⟩
  have hexec : exec (.neRunStart m i hard) s = .next (u.neStart i) :=
    congrArg Host.Outcome.next ((neCtrlWrite_eq hr (by decide)).trans (by rw [if_pos rfl, if_pos ⟨hst, hloaded⟩, hu]))
  rw [← hu] at hset hhard hsetst
  have hheld : u.neHeld i = false := neHeld_of_neState (by rw [hsetst, hst]; decide)
  obtain ⟨honly, hrun, hflag, hkeep, htimers, hquiet⟩ := neStart_effect u i hheld
  have heng : u.eng i = s.eng i := (congrArg (State.eng · i) hset.2 :)
  have hraw : u.raw = s.raw := (congrArg State.raw hset.2 :)
  obtain ⟨hresp, hengs, hregs, hrest⟩ :=
    answered_of_engOnly (((engOnly_of_onlyRegs hset).mono (bs := [A.NE_STATUS i, A.NE_CTRL i, A.NE_EVT_MERGE i]) (by simp)).trans honly)
  rw [heng, hraw] at htimers hquiet
  refine ⟨_, hexec, hresp, hrun, hflag, hkeep.trans hhard, htimers, hengs, hregs, fun hbell => ?_, hrest⟩
  have hdoor : u.rd (A.NE_DOORBELL i) = 0 := (hset.1 _ (by simp only [List.mem_singleton, A.NE_DOORBELL, A.NE_CTRL]; omega)).trans hbell
  obtain ⟨hsame, hbut⟩ := hquiet hdoor
  exact ⟨hsame, fun a ha => (hbut a ha).trans (hset.1 a (by simp at ha ⊢; exact ha.2))⟩

theorem startRej_effect (hr : s.reaches m.toNat (A.NE_CTRL i) true)
    (hno : s.neState i ≠ neStopped ∨ s.flag (A.NE_STATUS i) F.NE_STATUS.LOADED = false) :
    ∃ t, exec (.neRunStart m i hard) s = .next t ∧ t.resp = some (.ok 0) ∧ t.flag (A.NE_STATUS i) F.NE_STATUS.START_REJ = true ∧
      t.neState i = s.neState i ∧ s.regsBut t [A.NE_STATUS i, A.NE_CTRL i] ∧ { t with regs := s.regs, resp := s.resp } = s := by
  obtain ⟨hset, -, hsetst, hfld⟩ := hardUsSet_effect s i hard
  have hneg : ¬(s.neState i = neStopped ∧ s.flag (A.NE_STATUS i) F.NE_STATUS.LOADED = true) := by
    rintro ⟨hst, hloaded⟩
    exact hno.elim (· hst) (by simp [hloaded])
  obtain ⟨u, hu⟩ : ∃ u, u = s.hardUsSet i hard := ⟨_, rfl⟩
  have hexec : exec (.neRunStart m i hard) s = .next (u.setf (A.NE_STATUS i) F.NE_STATUS.START_REJ 1) :=
    congrArg Host.Outcome.next ((neCtrlWrite_eq hr (by decide)).trans (by rw [if_pos rfl, if_neg hneg, hu]))
  rw [← hu] at hset hsetst
  obtain ⟨hresp, hregs, hrest⟩ := answered_of_onlyRegs
    (onlyRegs_trans (onlyRegs_mono (bs := [A.NE_STATUS i, A.NE_CTRL i]) hset (by simp)) (onlyRegs_setf u F.NE_STATUS.START_REJ 1 List.mem_cons_self))
  refine ⟨_, hexec, hresp, flag_setf_one u _ _ (by decide), ?_, hregs, hrest⟩
  have hstate := fld_setf_apart u (A.NE_STATUS i) F.NE_STATUS.START_REJ F.NE_STATUS.STATE 1 (by decide)
  have hheld : (u.setf (A.NE_STATUS i) F.NE_STATUS.START_REJ 1).neHeld i = u.neHeld i := neHeld_of_rst rfl
  rw [← hsetst, State.neState, hstate, hheld, ← State.neState]

theorem runStop_effect (hr : s.reaches m.toNat (A.NE_CTRL i) true) (hst : s.neState i = neRunning) :
    ∃ t, exec (.neRunStop m i hard) s = .next t ∧ t.resp = some (.ok 0) ∧ t.neState i = neStopping ∧
      t.flag (A.NE_CTRL i) F.NE_CTRL.RUN = false ∧ (t.eng i).rx = [] ∧ (t.eng i).pend = [] ∧ (t.eng i).evt = (s.eng i).evt ∧
      (t.eng i).stopAt = s.now ∧ t.rd (A.NE_DOORBELL i) = 0 ∧
      t.rdn (A.NE_EVT_DROP i) = min 0xFFFFFFFF (s.rdn (A.NE_EVT_DROP i) + ((s.eng i).pend.length + (s.eng i).rx.length)) ∧
      s.engsBut t i ∧ s.regsBut t [A.NE_STATUS i, A.NE_CTRL i, A.NE_DOORBELL i, A.NE_EVT_DROP i] ∧
      { t with regs := s.regs, ne := s.ne, resp := s.resp } = s := by
  obtain ⟨hset, -, hsetst, -⟩ := hardUsSet_effect s i hard
  obtain ⟨u, hu⟩ : ∃ u, u = s.hardUsSet i hard := ⟨_, rfl⟩
  have hexec : exec (.neRunStop m i hard) s = .next (s.neCtrlWrite m.toNat i (BitVec.ofNat 32 (hard.toNat * 256 + 0))) := by
    rw [Nat.add_zero]
    rfl
  rw [← ctrlWord, neCtrlWrite_eq hr (by decide), if_neg (by decide), if_pos hst, ← hu] at hexec
  rw [← hu] at hset hsetst
  have heng : u.eng i = s.eng i := (congrArg (State.eng · i) hset.2 :)
  have hnow : u.now = s.now := (congrArg State.now hset.2 :)
  have hdrop : u.rdn (A.NE_EVT_DROP i) = s.rdn (A.NE_EVT_DROP i) :=
    congrArg BitVec.toNat (hset.1 _ (by simp only [List.mem_singleton, A.NE_EVT_DROP, A.NE_CTRL]; omega))
  rw [neStop_eq, heng, hnow] at hexec
  obtain ⟨hregs, hstate, hrun, hdoor, hcount⟩ := stopRegs_effect u i (s.eng i).waiting
  obtain ⟨w, hw⟩ : ∃ w, w = u.stopRegs i (s.eng i).waiting := ⟨_, rfl⟩
  rw [← hw] at hregs hstate hrun hdoor hcount hexec
  let t := w.putEng i ((s.eng i).stopped s.now)
  have hput : t.eng i = (s.eng i).stopped s.now := eng_putEng_self ..
  have hrd : ∀ a, t.rd a = w.rd a := fun _ => rfl
  have hrst : t.rst = u.rst := (congrArg State.rst hregs.2 :)
  have honly : (s.ok 0).EngOnly t i [A.NE_STATUS i, A.NE_CTRL i, A.NE_DOORBELL i, A.NE_EVT_DROP i] :=
    ((engOnly_of_onlyRegs hset).mono (by simp)).trans ((engOnly_of_onlyRegs hregs).trans (engOnly_putEng ..))
  obtain ⟨hresp, hengs, hbut, hrest⟩ := answered_of_engOnly honly
  refine ⟨t, hexec, hresp, ?_, (congrArg (fun v => fget F.NE_CTRL.RUN v != 0) (hrd _)).trans hrun, by rw [hput]; rfl, by rw [hput]; rfl,
    by rw [hput]; rfl, by rw [hput]; rfl, (hrd _).trans hdoor, ?_, hengs, hbut, hrest⟩
  · exact neState_of_fld (neHeld_of_neState (by rw [hsetst, hst]; decide)) hrst ((congrArg (fget _) (hrd _)).trans hstate)
  · rw [State.rdn, hrd, ← State.rdn, hcount, hdrop]
    rfl

/-! ### The inline pair and its latency (R181 to R185, R193) -/

theorem neInlWrite_eq {v : Word} (hr : s.reaches m.toNat (A.NE_INL_CTRL i) true) : s.neInlWrite m.toNat i v =
    if s.neState i ≠ neStopped then (s.ok 0).bindRej i
    else if fget F.NE_INL_CTRL.EN v = 0 ∨ s.inlMay i (fget F.NE_INL_CTRL.PORT_A v) (fget F.NE_INL_CTRL.PORT_B v) then
      (s.ok 0).plainWrite (A.NE_INL_CTRL i) v
    else (((s.ok 0).plainWrite (A.NE_INL_CTRL i) v).setf (A.NE_INL_CTRL i) F.NE_INL_CTRL.EN 0).bindRej i := by
  have hmay : (s.ok 0).inlMay i (fget F.NE_INL_CTRL.PORT_A v) (fget F.NE_INL_CTRL.PORT_B v) =
      s.inlMay i (fget F.NE_INL_CTRL.PORT_A v) (fget F.NE_INL_CTRL.PORT_B v) := rfl
  rw [State.neInlWrite, guardReg_of_reaches s hr (regDesc_inlCtrl i), neState_of_rd (t := s.ok 0) (s := s) rfl rfl, hmay]

/-- What NE_INL_CTRL reads after a write. -/
theorem inlWritten_effect (s : State) (i : Fin 24) (v : Word) : (s.ok 0).onlyRegs ((s.ok 0).plainWrite (A.NE_INL_CTRL i) v) [A.NE_INL_CTRL i] ∧
    ∀ f ∈ inlCtrlDesc.fields, ((s.ok 0).plainWrite (A.NE_INL_CTRL i) v).fld (A.NE_INL_CTRL i) ⟨f.hi, f.lo⟩ = fget ⟨f.hi, f.lo⟩ v := by
  have hacc : ∀ f ∈ inlCtrlDesc.fields, f.acc = .trv := by decide
  rw [plainWrite_of_desc _ (regDesc_inlCtrl i)]
  refine ⟨onlyRegs_wr _ _ (List.mem_singleton_self _), fun f hf => ?_⟩
  rw [State.fld, State.rd_wr_self]
  exact fget_descWrite_of_written v (regDesc_inlCtrl i) hf (.inr (hacc f hf)) _ _

theorem inlCtrl_cases {v : Word} (hr : s.reaches m.toNat (A.NE_INL_CTRL i) true) (hst : s.neState i = neStopped) :
    (s.inlMay i (fget F.NE_INL_CTRL.PORT_A v) (fget F.NE_INL_CTRL.PORT_B v) = true →
      ∃ t, exec (.neInlCtrlWrite m i v) s = .next t ∧ t.resp = some (.ok 0) ∧
        t.fld (A.NE_INL_CTRL i) F.NE_INL_CTRL.EN = fget F.NE_INL_CTRL.EN v ∧
        t.fld (A.NE_INL_CTRL i) F.NE_INL_CTRL.PORT_A = fget F.NE_INL_CTRL.PORT_A v ∧
        t.fld (A.NE_INL_CTRL i) F.NE_INL_CTRL.PORT_B = fget F.NE_INL_CTRL.PORT_B v ∧
        s.regsBut t [A.NE_INL_CTRL i] ∧ { t with regs := s.regs, resp := s.resp } = s) ∧
    (fget F.NE_INL_CTRL.EN v = 1 ∧ s.inlMay i (fget F.NE_INL_CTRL.PORT_A v) (fget F.NE_INL_CTRL.PORT_B v) = false →
      ∃ t, exec (.neInlCtrlWrite m i v) s = .next t ∧ t.flag (A.NE_INL_CTRL i) F.NE_INL_CTRL.EN = false ∧
        t.flag (A.NE_STATUS i) F.NE_STATUS.BIND_REJ = true ∧ s.regsBut t [A.NE_INL_CTRL i, A.NE_STATUS i]) := by
  have hx : exec (.neInlCtrlWrite m i v) s = .next (s.neInlWrite m.toNat i v) := rfl
  rw [neInlWrite_eq hr, if_neg (not_not.2 hst)] at hx
  obtain ⟨honly, hfields⟩ := inlWritten_effect s i v
  obtain ⟨u, hu⟩ : ∃ u, u = (s.ok 0).plainWrite (A.NE_INL_CTRL i) v := ⟨_, rfl⟩
  rw [← hu] at hx honly hfields
  refine ⟨fun hmay => ?_, fun ⟨hen, hmay⟩ => ?_⟩
  · obtain ⟨hresp, hregs, hrest⟩ := answered_of_onlyRegs honly
    exact ⟨u, hx.trans (by rw [if_pos (.inr hmay)]), hresp, hfields ⟨31, 31, .trv, 0x0, false⟩ (by decide),
      hfields ⟨3, 0, .trv, 0x0, false⟩ (by decide), hfields ⟨7, 4, .trv, 0x0, false⟩ (by decide), hregs, hrest⟩
  · have hneg : ¬(fget F.NE_INL_CTRL.EN v = 0 ∨ s.inlMay i (fget F.NE_INL_CTRL.PORT_A v) (fget F.NE_INL_CTRL.PORT_B v) = true) := by
      simp [hen, hmay]
    let w := u.setf (A.NE_INL_CTRL i) F.NE_INL_CTRL.EN 0
    obtain ⟨hrej, hflag⟩ := bindRej_effect w i
    have hkeep : (w.bindRej i).rd (A.NE_INL_CTRL i) = w.rd (A.NE_INL_CTRL i) :=
      hrej.1 _ (by simp only [List.mem_singleton, A.NE_STATUS, A.NE_INL_CTRL]; omega)
    have hoff : w.flag (A.NE_INL_CTRL i) F.NE_INL_CTRL.EN = false := flag_setf_zero u _ _ (by decide)
    refine ⟨w.bindRej i, hx.trans (by rw [if_neg hneg]), (congrArg (fun v => fget F.NE_INL_CTRL.EN v != 0) hkeep).trans hoff, hflag,
      fun a ha => ?_⟩
    simp only [List.mem_cons, List.not_mem_nil, or_false, not_or] at ha
    exact (hrej.1 a (by simpa using ha.2)).trans ((State.rd_wr_other u _ a _ ha.1).trans (honly.1 a (by simpa using ha.1)))

theorem inlLat_effect {v : Word} (hr : s.reaches m.toNat (A.NE_INL_LAT i) true) (hv : fget F.NE_INL_LAT.MAX_NS v ≠ 0) :
    ∃ t, exec (.neInlLatClear m i v) s = .next t ∧ t.resp = some (.ok 0) ∧ t.fld (A.NE_INL_LAT i) F.NE_INL_LAT.MAX_NS = 0 ∧
      s.regsBut t [A.NE_INL_LAT i] ∧ { t with regs := s.regs, resp := s.resp } = s := by
  obtain ⟨-, -, -, hlat⟩ := neDescs i
  obtain ⟨d, hd⟩ := Option.isSome_iff_exists.1 hlat
  have heq : s.neLatWrite m.toNat i v = (s.ok 0).setf (A.NE_INL_LAT i) F.NE_INL_LAT.MAX_NS 0 := by
    rw [State.neLatWrite, guardReg_of_reaches s hr hd, if_neg hv]
  obtain ⟨hresp, hregs, hrest⟩ := answered_of_onlyRegs (onlyRegs_setf (s.ok 0) F.NE_INL_LAT.MAX_NS 0 (List.mem_singleton_self (A.NE_INL_LAT i)))
  exact ⟨_, congrArg Host.Outcome.next heq, hresp, State.fld_setf (s.ok 0) _ _ _ (by decide), hregs, hrest⟩

/-! ### A timer expires (R242) -/

theorem timerDue_effect {x : Fin 16} (hrun : s.neState i = neRunning) (harmed : ((s.eng i).timer x).armed = true)
    (hdue : ((s.eng i).timer x).expiry ≤ s.raw)
    (hnew : ((s.eng i).pend.all fun q => !(q.prio == prTimer && q.idx == x.val)) = true) :
    let tm := (s.eng i).timer x
    ∃ t, exec (.neTimerExpiry i x) s = .next t ∧ (t.eng i).pend = (s.eng i).pend ++ [⟨prTimer, x, 0, tm.ctx, 0, s.raw, false⟩] ∧
      (t.eng i).timer x = (if tm.periodic then { tm with expiry := rawMod (tm.expiry + tm.interval) } else { tm with armed := false }) ∧
      s.engsBut t i ∧ { t with ne := s.ne } = s := by
  intro tm
  obtain ⟨tm', htm⟩ : ∃ tm', tm' = if tm.periodic then { tm with expiry := rawMod (tm.expiry + tm.interval) } else { tm with armed := false } :=
    ⟨_, rfl⟩
  let u := s.mapEng i fun e => e.putTimer x tm'
  have heng : u.eng i = (s.eng i).putTimer x tm' := eng_mapEng_self ..
  have hexec : exec (.neTimerExpiry i x) s = .next (u.nePend i ⟨prTimer, x, 0, tm.ctx, 0, s.raw, false⟩) := by
    refine (if_pos ⟨harmed, hdue⟩).trans ?_
    rw [← htm]
    rfl
  have hrun' : u.neState i = neRunning := (neState_of_rd rfl rfl).trans hrun
  rw [nePend_new hrun' (by rw [heng]; exact hnew)] at hexec
  have hu : { u with ne := s.ne } = s := rfl
  have hother : s.engsBut u i := fun j hj => eng_mapEng_other _ _ hj
  clear_value u
  rw [heng] at hexec
  refine ⟨_, hexec, ?_, ?_, fun j hj => (eng_putEng_other _ _ hj).trans (hother j hj), ?_⟩
  · rw [eng_putEng_self]
    rfl
  · rw [eng_putEng_self, ← htm]
    exact timer_putTimer _ _ _
  · exact hu

theorem timer_still {x : Fin 16} (h : ((s.eng i).timer x).armed = false ∨ s.raw < ((s.eng i).timer x).expiry) :
    exec (.neTimerExpiry i x) s = .next s := by
  refine if_neg ?_
  rintro ⟨harmed, hdue⟩
  exact h.elim (fun hoff => by rw [hoff] at harmed; cases harmed) (by omega)

theorem stop_still (h : s.neState i ≠ neStopping) : exec (.neStopComplete i) s = .next s ∧ exec (.neHardStop i) s = .next s :=
  ⟨if_neg fun hst => h hst.1, if_neg fun hst => h hst.1⟩

end

/-- Settles O36: one lemma per command, over what a write that reaches its register does and what the engine then leaves. -/
theorem needleRunEffects : Obligations.NeedleRunEffects := by
  unfold Obligations.NeedleRunEffects
  intro s m i hard v b x e st tm bellHart
  refine ⟨fun hr => ⟨fun ⟨hst, hloaded⟩ => runStart_effect hr hst hloaded, startRej_effect hr, runStop_effect hr⟩,
    fun ⟨hst, hevt, hdma⟩ => stopComplete_effect hst hevt hdma, stop_still, fun ⟨hst, hdue, hdma, hevt⟩ => hardStop_event hst hdue hevt hdma,
    fun ⟨hst, hdue, hdma, hevt⟩ => hardStop_quiet hst hdue hevt hdma, fun ⟨hr, hbell, hrun, hnew⟩ => doorbell_one hr hbell hrun hnew,
    fun ⟨hr, hbell⟩ => doorbell_effect hr hbell, bind_cases, fun hr => ⟨fun ⟨hst, hmay⟩ => (inlCtrl_cases hr hst).1 hmay,
      fun ⟨hst, hen, hmay⟩ => (inlCtrl_cases hr hst).2 ⟨hen, hmay⟩⟩, fun ⟨hr, hv⟩ => inlLat_effect hr hv,
    fun ⟨hrun, harmed, hdue, hnew⟩ => timerDue_effect hrun harmed hdue hnew, timer_still⟩

end Sys2Proof.Machine
end

section
/-! PROOFS. A frame that passes a stopped engine, at a statistics boundary of its port (R189, R190, R300). -/

namespace Sys2Proof.Machine
open Sys2Proof

-- Parallel elaboration holds many stacks at once, and they count towards the memory a check may take.
set_option Elab.async false

/-- Engine 0 does not run and lets frames of its pair, ports 0 and 1, pass; port 1 has its link up and runs period statistics on
compare unit 0, which has had an event at raw count 0: a boundary that the port has not yet taken. -/
def State.passAtBoundary : State :=
  let pair := fput F.NE_INL_CTRL.EN (fput F.NE_INL_CTRL.STOP_POLICY (fput F.NE_INL_CTRL.PORT_B 0 1) 1) 1
  let s := ((State.reset.wr (A.NE_INL_CTRL 0) pair).setf (A.MAC_STATUS 1) F.MAC_STATUS.LINK 1).setf (A.MAC_PER_CTRL 1) F.MAC_PER_CTRL.EN 1
  { s with gauge := { s.gauge with fired := [(0, 1)] } }

theorem passAtBoundary_passes :
    let s := State.passAtBoundary
    s.flag (A.NE_INL_CTRL 0) F.NE_INL_CTRL.EN = true ∧ ¬(s.neState 0 = neRunning ∨ s.neState 0 = neStopping) ∧
    s.flag (A.NE_INL_CTRL 0) F.NE_INL_CTRL.STOP_POLICY = true ∧ s.inlOut 0 0 = some 1 ∧ (s.hrst (unitHalf 0 12)).isolated = false := by
  decide

/-- The raw count that a port takes no boundary before. -/
def boundOf (p : Nat) : Host.Outcome State Fault Refusal → Nat
  | .next t => (t.port p).bound
  | _ => 0

/-- The frame is counted as sent on port 1, and the boundary is taken first: the port has another bound. -/
theorem passAtBoundary_bound :
    boundOf 1 (exec (.inlineStoppedFrame 0 0 [] ⟨0, false⟩) State.passAtBoundary) = 1 ∧ (State.passAtBoundary.port 1).bound = 0 := by
  decide

/-- A Recipe without tables; the frames of a stopped engine do not depend on it. -/
def emptyRecipe : Recipe := ⟨false, 0, 0, 0, 0, 0, 0, 0, 0, 0, 0, 0, 0, 0, 0, 0, 0, 0, 0, 0, 0, 0⟩

/-- Refutes O37: a frame that passes an engine which does not run is counted as sent on the port that it leaves on. Where that port
has not yet taken a statistics boundary, its count takes it (R300), and the port is no longer as it was. -/
theorem not_needleEventEffects : ¬ Obligations.NeedleEventEffects := by
  unfold Obligations.NeedleEventEffects
  intro h
  obtain ⟨-, -, -, -, -, -, -, -, -, -, -, hpass, -⟩ := h State.passAtBoundary 0 emptyRecipe (.pend ⟨0, 0, 0, 0, 0, 0, false⟩) 0 0 []
    false false false 0 0 1 ⟨0, 0, false, 0, 0, 0, [], 0, false, none, false⟩ 0 []
  obtain ⟨hen, hstopped, hpolicy, hout, hiso⟩ := passAtBoundary_passes
  obtain ⟨t, ht, -, -, hrest⟩ := hpass ⟨hen, hstopped, hpolicy, hout, hiso⟩
  obtain ⟨hafter, hbefore⟩ := passAtBoundary_bound
  have hsame : (t.port 1).bound = (State.passAtBoundary.port 1).bound := (congrArg (fun x : State => (x.port 1).bound) hrest :)
  rw [ht, boundOf, hsame, hbefore] at hafter
  exact absurd hafter (by decide)

end Sys2Proof.Machine
end

section
/-! PROOFS. The commands of KCP groups 0x01 and 0x0B: images, Needle engines, profiles, lifecycle, keys, Vault, rollback, debug. -/

namespace Sys2Proof.Machine
open Sys2Proof

-- Parallel elaboration holds many stacks at once, and they count towards the memory a check may take.
set_option Elab.async false

section
variable {s : State} {tr : Fin 6} {tag : BitVec 16} {c : KCmd} {img : Image} {code k v : Nat} {data : List Byte}

/-! ### What a reply leaves of the KCP engine -/

/-- A reply changes no open image, no effect that waits, no profile block and no proof count. -/
theorem finish_kcp (s : State) (c : KCmd) (status : Nat) (data : List Byte) :
    (s.finish c status data).kcp.images = s.kcp.images ∧ (s.finish c status data).kcp.waits = s.kcp.waits ∧
    (s.finish c status data).kcp.tports = s.kcp.tports ∧ (s.finish c status data).sec = s.sec := by
  have h := replies_finish s c status data
  exact ⟨(congrArg Kcp.images h.kcp :), (congrArg Kcp.waits h.kcp :), (congrArg Kcp.tports h.kcp :), (congrArg State.sec h.rest :)⟩

theorem finish_mem (s : State) (c : KCmd) (status : Nat) (data : List Byte) : (s.finish c status data).mem = s.mem :=
  (finish_leaves s c status data).2.1

theorem finish_ne (s : State) (c : KCmd) (status : Nat) (data : List Byte) : (s.finish c status data).ne = s.ne :=
  (finish_leaves s c status data).2.2.1

theorem checked_second {p q : Bool} {a b : Nat} (hp : p = true) (hq : q = false) (s : State) (f : State → State) :
    s.checked c [(p, a), (q, b)] f = s.finish c 5 (leBytes 4 b) := by
  subst hp hq
  rfl

theorem checked_one {p : Bool} {a : Nat} (hp : p = true) (s : State) (f : State → State) : s.checked c [(p, a)] f = f s := by
  subst hp
  rfl

/-! ### Images (R655, R768) -/

/-- The size that an image of a kind may have. -/
def imageLimit (kind : Nat) : Nat := if kind = 1 then 98304 else 0x1000000

theorem exec_imgBegin (ha : CmdActs s tr tag c 0x0101) : exec (.imgBegin tr tag) s = .next (
    s.checked c [(decide (c.b 0 ≤ 2), 0), (decide (u c.params 2 4 ≤ imageLimit (c.b 0)), 2)] fun s =>
      if 4 ≤ s.kcp.images.length then s.say c stBadState
      else ({ s.useFree with kcp := { s.useFree.kcp with images := s.useFree.kcp.images ++ [⟨s.newHandle, c.b 0, c.b 1, u c.params 2 4, []⟩] } } : State).okData c
        (leBytes 2 s.newHandle)) := by
  show execImgBegin tr tag s = _
  rw [execImgBegin, ha.onCmd]
  rfl

theorem imgBegin_cases (ha : CmdActs s tr tag c 0x0101) (h0 : c.b 0 ≤ 2) :
    (imageLimit (c.b 0) < u c.params 2 4 → exec (.imgBegin tr tag) s = .next (s.finish c 5 (leBytes 4 2))) ∧
    (u c.params 2 4 ≤ imageLimit (c.b 0) ∧ 4 ≤ s.kcp.images.length → exec (.imgBegin tr tag) s = .next (s.finish c 0x10 [])) ∧
    (u c.params 2 4 ≤ imageLimit (c.b 0) ∧ s.kcp.images.length < 4 → ∃ t, exec (.imgBegin tr tag) s = .next t ∧
      t.kcp.images = s.kcp.images ++ [⟨s.newHandle, c.b 0, c.b 1, u c.params 2 4, []⟩] ∧ t.mem = s.mem) := by
  rw [exec_imgBegin ha]
  refine ⟨fun hsize => ?_, fun ⟨hsize, hfull⟩ => ?_, fun ⟨hsize, hroom⟩ => ?_⟩
  · rw [checked_second (decide_eq_true h0) (decide_eq_false (Nat.not_le.2 hsize))]
  · rw [checked_of_all (by simp [h0, hsize]), if_pos hfull]
    rfl
  · rw [checked_of_all (by simp [h0, hsize]), if_neg (Nat.not_le.2 hroom)]
    exact ⟨_, rfl, (finish_kcp _ c _ _).1, finish_mem _ c _ _⟩

theorem find_map_replaced {imgs : List Image} {new : Image} {h : Nat} (hold : imgs.find? (fun i => i.handle = h) = some img)
    (hnew : new.handle = h) : (imgs.map fun j => if j.handle = new.handle then new else j).find? (fun i => i.handle = h) = some new := by
  induction imgs with
  | nil => cases hold
  | cons j js ih =>
    by_cases hj : j.handle = h
    · simp [hj, hnew]
    · simp only [List.find?_cons, hj, decide_false] at hold
      simp [hj, hnew] at ih ⊢
      exact ih hold

theorem exec_imgData (ha : CmdActs s tr tag c 0x0102) : exec (.imgData tr tag) s = .next (
    match s.image (u c.params 0 2) with
    | none => s.say c stNotFound
    | some i => s.checked c [(decide (u c.params 2 4 + (c.params.drop 6).length ≤ i.size), 2)] fun s =>
        (s.putImage { i with data := overlay (padTo (max (u c.params 2 4) i.data.length) i.data) (u c.params 2 4) (c.params.drop 6) }).say c stOk) := by
  show execImgData tr tag s = _
  rw [execImgData, ha.onCmd] <;> rfl

theorem imgData_cases (ha : CmdActs s tr tag c 0x0102) :
    let off := u c.params 2 4
    let bytes := c.params.drop 6
    (s.image (u c.params 0 2) = none → exec (.imgData tr tag) s = .next (s.finish c 0x27 [])) ∧
    (s.image (u c.params 0 2) = some img ∧ img.size < off + bytes.length →
      exec (.imgData tr tag) s = .next (s.finish c 5 (leBytes 4 2))) ∧
    (s.image (u c.params 0 2) = some img ∧ off + bytes.length ≤ img.size → ∃ t, exec (.imgData tr tag) s = .next t ∧
      t.kcp.images.find? (fun i => i.handle = u c.params 0 2) =
        some { img with data := overlay (padTo (max off img.data.length) img.data) off bytes } ∧ t.mem = s.mem) := by
  intro off bytes
  rw [exec_imgData ha]
  refine ⟨fun hnone => ?_, fun ⟨hsome, hsize⟩ => ?_, fun ⟨hsome, hsize⟩ => ?_⟩
  · rw [hnone]
    rfl
  · rw [hsome]
    dsimp only
    rw [decide_eq_false (Nat.not_le.2 hsize)]
    rfl
  · rw [hsome]
    dsimp only
    rw [checked_one (decide_eq_true hsize)]
    have hhandle : img.handle = u c.params 0 2 := by
      have hfind := List.find?_some hsome
      exact of_decide_eq_true hfind
    refine ⟨_, rfl, ?_, finish_mem _ c _ _⟩
    rw [State.say, (finish_kcp _ c _ _).1]
    exact find_map_replaced hsome hhandle

theorem exec_imgCommit (ha : CmdActs s tr tag c 0x0103) : exec (.imgCommit tr tag) s = .next (
    match s.image (u c.params 0 2) with
    | none => s.say c stNotFound
    | some i => match s.imageCheck i with
      | some code => (s.inc A.SEC_SIG_FAIL).say c (0x100 + code)
      | none => ((s.imageStore i).hostImage tr i).okData c (digestBytes (sha384 i.data))) := by
  show execImgCommit tr tag s = _
  rw [execImgCommit, ha.onCmd] <;> rfl

theorem imgCommit_found (ha : CmdActs s tr tag c 0x0103) (hsome : s.image (u c.params 0 2) = some img) :
    exec (.imgCommit tr tag) s = .next (match s.imageCheck img with
      | some e => (s.inc A.SEC_SIG_FAIL).finish c (0x100 + e) []
      | none => ((s.imageStore img).hostImage tr img).finish c 0 (digestBytes (sha384 img.data))) := by
  rw [exec_imgCommit ha, hsome]
  dsimp only
  cases s.imageCheck img <;> rfl

theorem imgCommit_missing (ha : CmdActs s tr tag c 0x0103) (hnone : s.image (u c.params 0 2) = none) :
    exec (.imgCommit tr tag) s = .next (s.finish c 0x27 []) := by
  rw [exec_imgCommit ha, hnone]
  rfl

theorem imgAbort_cases (ha : CmdActs s tr tag c 0x0104) :
    (s.image (u c.params 0 2) = none → exec (.imgAbort tr tag) s = .next (s.finish c 0x27 [])) ∧
    (s.image (u c.params 0 2) = some img → ∃ t, exec (.imgAbort tr tag) s = .next t ∧
      t.kcp.images = s.kcp.images.filter (fun i => i.handle ≠ u c.params 0 2) ∧ t.mem = s.mem) := by
  have hexec : exec (.imgAbort tr tag) s = .next (match s.image (u c.params 0 2) with
      | none => s.say c stNotFound
      | some _ => (s.dropImage (u c.params 0 2)).say c stOk) := by
    show execImgAbort tr tag s = _
    rw [execImgAbort, ha.onCmd] <;> rfl
  rw [hexec]
  refine ⟨fun hnone => ?_, fun hsome => ?_⟩
  · rw [hnone]
    rfl
  · rw [hsome]
    exact ⟨_, rfl, (finish_kcp _ c _ _).1, finish_mem _ c _ _⟩

/-! ### Needle engines and profiles (R158 to R165, R252) -/

theorem exec_neLoad (ha : CmdActs s tr tag c 0x0105) : exec (.neLoad tr tag) s = .next (
    if s.loads c then s
    else match s.image (u c.params 0 2) with
      | none => s.say c stNotFound
      | some i => (s.dropImage (u c.params 0 2)).checked c [(decide (c.b 2 < 24), 2)] fun s =>
          if s.neState (c.b 2) ≠ neStopped ∨ (s.eng (c.b 2)).load.isSome then s.say c stBadState
          else s.mapEng (c.b 2) fun e => { e with load := some ⟨i.data, c.tr, c.tag, false⟩ }) := by
  show execNeLoad tr tag s = _
  rw [execNeLoad, ha.onCmd]
  rfl

theorem neLoad_cases (ha : CmdActs s tr tag c 0x0105) (hl : s.loads c = false) :
    (s.image (u c.params 0 2) = none → exec (.neLoad tr tag) s = .next (s.finish c 0x27 [])) ∧
    (s.image (u c.params 0 2) = some img ∧ c.b 2 < 24 ∧ (s.neState (c.b 2) ≠ neStopped ∨ (s.eng (c.b 2)).load.isSome = true) →
      ∃ t, exec (.neLoad tr tag) s = .next t ∧ t.kcp.images = s.kcp.images.filter (fun i => i.handle ≠ u c.params 0 2) ∧ t.ne = s.ne) ∧
    (s.image (u c.params 0 2) = some img ∧ c.b 2 < 24 ∧ s.neState (c.b 2) = neStopped ∧ (s.eng (c.b 2)).load = none →
      ∃ t, exec (.neLoad tr tag) s = .next t ∧ t.kcp.images = s.kcp.images.filter (fun i => i.handle ≠ u c.params 0 2) ∧
        t.eng (c.b 2) = { s.eng (c.b 2) with load := some ⟨img.data, c.tr, c.tag, false⟩ } ∧
        t.kcp.cmds = s.kcp.cmds ∧ t.regs = s.regs ∧ t.mem = s.mem) := by
  rw [exec_neLoad ha, if_neg (by simp [hl])]
  have hstate : (s.dropImage (u c.params 0 2)).neState (c.b 2) = s.neState (c.b 2) := neState_of_rd rfl rfl
  have heng : (s.dropImage (u c.params 0 2)).eng (c.b 2) = s.eng (c.b 2) := rfl
  refine ⟨fun hnone => ?_, fun ⟨hsome, hn, hbusy⟩ => ?_, fun ⟨hsome, hn, hst, hload⟩ => ?_⟩
  · rw [hnone]
    rfl
  · rw [hsome]
    dsimp only
    rw [checked_one (decide_eq_true hn), hstate, heng, if_pos hbusy]
    exact ⟨_, rfl, (finish_kcp _ c _ _).1, finish_ne _ c _ _⟩
  · have hidle : ¬(s.neState (c.b 2) ≠ neStopped ∨ (s.eng (c.b 2)).load.isSome = true) := by simp [hst, hload]
    rw [hsome]
    dsimp only
    rw [checked_one (decide_eq_true hn), hstate, heng, if_neg hidle]
    exact ⟨_, rfl, rfl, eng_mapEng_self .., rfl, rfl, rfl⟩

/-- The status of its engine as the Trivet reads it, which an NE_RUN replies with. -/
def KCmd.engineStatus (c : KCmd) (s : State) : List Byte := leBytes 4 (s.regView trivet (A.NE_STATUS (c.b 0)))

theorem exec_neRun (ha : CmdActs s tr tag c 0x0106) (h0 : c.b 0 < 24) (h1 : c.b 1 ≤ 1) : exec (.neRun tr tag) s = .next (
    s.writesThen c [(A.NE_CTRL (c.b 0), (fput F.NE_CTRL.RUN (s.rd (A.NE_CTRL (c.b 0))) (c.b 1)).toNat)] c.engineStatus) := by
  show execNeRun tr tag s = _
  rw [execNeRun, ha.onCmd]
  dsimp only
  rw [checked_of_all (by simp [show byteAt c.params 0 < 24 from h0, show byteAt c.params 1 ≤ 1 from h1])]
  rfl

theorem exec_neReset (ha : CmdActs s tr tag c 0x0107) (h0 : c.b 0 < 24) :
    exec (.neReset tr tag) s = .next ((s.kcpAssert ⟨4, 6, c.b 0⟩).finish c 0 []) := by
  show execNeReset tr tag s = _
  rw [execNeReset, ha.onCmd]
  dsimp only
  rw [checked_one (p := decide (byteAt c.params 0 < 24)) (decide_eq_true h0)]
  rfl

/-- The registers of an engine that NE_INFO reads. -/
def infoRegs (n : Nat) : List Nat :=
  [A.NE_STATUS n, A.NE_RECIPE n, A.NE_FAULT n, A.NE_EVT_DONE n, A.NE_EVT_DROP n, A.NE_EVT_MERGE n, A.NE_RX_DROP n, A.NE_ECC_CORR n,
    A.NE_INL_BADFCS n, A.NE_INL_UNDERRUN n, A.NE_INL_DISC n, A.NE_INL_PASS n]

theorem exec_neInfo (ha : CmdActs s tr tag c 0x0108) (h0 : c.b 0 < 24) : exec (.neInfo tr tag) s = .next (s.reads c (infoRegs (c.b 0))) := by
  show execNeInfo tr tag s = _
  rw [execNeInfo, ha.onCmd]
  dsimp only
  rw [checked_one (p := decide (byteAt c.params 0 < 24)) (decide_eq_true h0)]
  rfl

theorem exec_profileCfg (ha : CmdActs s tr tag c 0x0109) (h0 : c.b 0 < 24) : exec (.profileCfg tr tag) s = .next (
    if s.neState (c.b 0) ≠ neStopped ∨ !s.flag (A.NE_STATUS (c.b 0)) F.NE_STATUS.LOADED then s.finish c 0x10 []
    else if !s.profileOk (c.b 0) (c.params.drop 1) then s.finish c 0x24 []
    else ({ s with kcp := { s.kcp with profiles := storeInsert s.kcp.profiles (c.b 0) (c.params.drop 1) } } : State).finish c 0 []) := by
  show execProfileCfg tr tag s = _
  rw [execProfileCfg, ha.onCmd]
  dsimp only
  rw [checked_one (p := decide (byteAt c.params 0 < 24)) (decide_eq_true h0)]
  rfl

theorem profileCfg_cases (ha : CmdActs s tr tag c 0x0109) (h0 : c.b 0 < 24) :
    let idle := s.neState (c.b 0) = neStopped ∧ s.flag (A.NE_STATUS (c.b 0)) F.NE_STATUS.LOADED = true
    (¬ idle → exec (.profileCfg tr tag) s = .next (s.finish c 0x10 [])) ∧
    (idle → exec (.profileCfg tr tag) s = .next (if s.profileOk (c.b 0) (c.params.drop 1) then
      ({ s with kcp := { s.kcp with profiles := storeInsert s.kcp.profiles (c.b 0) (c.params.drop 1) } } : State).finish c 0 []
      else s.finish c 0x24 [])) := by
  intro idle
  rw [exec_profileCfg ha h0]
  refine ⟨fun hbusy => ?_, fun ⟨hst, hloaded⟩ => ?_⟩
  · have hor : s.neState (c.b 0) ≠ neStopped ∨ (!s.flag (A.NE_STATUS (c.b 0)) F.NE_STATUS.LOADED) = true := by
      by_contra hno
      simp only [not_or, not_not, Bool.not_eq_true, Bool.not_eq_false'] at hno
      exact hbusy hno
    rw [if_pos hor]
  · rw [if_neg (by simp [hst, hloaded])]
    cases s.profileOk (c.b 0) (c.params.drop 1) with
    | false => simp only [Bool.not_false, if_true, Bool.false_eq_true, if_false]
    | true => simp only [Bool.not_true, if_true, Bool.false_eq_true, if_false]

/-! ### Lifecycle (R758 to R760) -/

/-- A wrong authorisation on a transport: the fifth in a row locks it, and the count restarts. -/
def State.failed (s t : State) (tr : Nat) : Prop :=
  (t.tport tr).fails = (if 4 ≤ (s.tport tr).fails then 0 else (s.tport tr).fails + 1) ∧
  (4 ≤ (s.tport tr).fails → (t.tport tr).lockEnd = s.now + 30000000000)

theorem tport_putTport (s : State) (n : Nat) (x : Transport) : (s.putTport n x).tport n = x := storeGet_put_self _ _ _ _

theorem authFail_fails (s : State) (n : Nat) : s.failed (s.authFail n) n := by
  unfold State.failed State.authFail
  dsimp only
  by_cases h : 4 ≤ (s.tport n).fails
  · rw [if_pos h, if_pos h, tport_putTport]
    exact ⟨rfl, fun _ => rfl⟩
  · rw [if_neg h, if_neg h, tport_putTport]
    exact ⟨rfl, fun h4 => absurd h4 h⟩

theorem authFail_frame (s : State) (n : Nat) : { s.authFail n with kcp := { (s.authFail n).kcp with tports := s.kcp.tports } } = s := by
  unfold State.authFail
  dsimp only
  split <;> rfl

/-- The reply to a wrong authorisation leaves what the count of it left. -/
theorem authFail_reply (s : State) (n : Nat) (c : KCmd) (status : Nat) (data : List Byte) :
    s.failed ((s.authFail n).finish c status data) n ∧ ((s.authFail n).finish c status data).kcp.waits = s.kcp.waits ∧
    ((s.authFail n).finish c status data).sec = s.sec ∧ s.regsBut ((s.authFail n).finish c status data) streamRegs := by
  have hframe := authFail_frame s n
  have hfails := authFail_fails s n
  obtain ⟨w, hw⟩ : ∃ w, w = s.authFail n := ⟨_, rfl⟩
  rw [← hw] at hframe hfails ⊢
  obtain ⟨-, hwaits, htports, hsec⟩ := finish_kcp w c status data
  have htport : (w.finish c status data).tport n = w.tport n := by rw [State.tport, htports, ← State.tport]
  refine ⟨?_, hwaits.trans (congrArg (fun x : State => x.kcp.waits) hframe :), hsec.trans (congrArg State.sec hframe :), fun a ha =>
    ((finish_leaves w c status data).1 a ha).trans (congrArg (State.rd · a) hframe :)⟩
  rw [State.failed, htport]
  exact hfails

theorem exec_lcSet (ha : CmdActs s tr tag c 0x0B02) : exec (.lcSet tr tag) s = .next (
    match s.lcWord (c.b 0) with
    | none => s.say c stBadState
    | some (w, v) => if s.lcAuth c (c.b 0) ≠ slice c.params 1 16 then (s.authFail tr).say c stAuthFail
        else (s.say c stOk).later (.lifecycle w v)) := by
  show execLcSet tr tag s = _
  rw [execLcSet, ha.onCmd] <;> rfl

theorem lcSet_cases (ha : CmdActs s tr tag c 0x0B02) :
    (s.lcWord (c.b 0) = none → exec (.lcSet tr tag) s = .next (s.finish c 0x10 [])) ∧
    (s.lcWord (c.b 0) = some (k, v) ∧ s.lcAuth c (c.b 0) = slice c.params 1 16 →
      exec (.lcSet tr tag) s = .next ((s.finish c 0 []).later (.lifecycle k v))) ∧
    (s.lcWord (c.b 0) = some (k, v) ∧ s.lcAuth c (c.b 0) ≠ slice c.params 1 16 →
      ∃ t, exec (.lcSet tr tag) s = .next t ∧ s.failed t tr ∧ t.kcp.waits = s.kcp.waits) := by
  rw [exec_lcSet ha]
  refine ⟨fun hnone => ?_, fun ⟨hword, hmac⟩ => ?_, fun ⟨hword, hmac⟩ => ?_⟩
  · rw [hnone]
    rfl
  · rw [hword]
    exact congrArg _ (if_neg (not_not.2 hmac))
  · rw [hword]
    obtain ⟨hfails, hwaits, -, -⟩ := authFail_reply s tr c stAuthFail []
    exact ⟨_, congrArg _ (if_pos hmac), hfails, hwaits⟩

/-! ### Keys and rollback (R764 to R766) -/

theorem exec_keyLoad (ha : CmdActs s tr tag c 0x0B03) : exec (.keyLoad tr tag) s = .next (
    match s.keyLoad c with
    | .error (st, data) => (if st = stAuthFail then s.authFail tr else s).finish c st data
    | .ok ws => (s.fuseJobs ws).putKcmd { c with committed := true }) := by
  show execKeyLoad tr tag s = _
  rw [execKeyLoad, ha.onCmd]
  exact congrArg _ (if_neg (by simp [ha.uncommitted]))

theorem kcmd_putKcmd {d : KCmd} (hc : s.kcmd tr tag.toNat = some c) (htr : d.tr = c.tr) (htag : d.tag = c.tag) :
    (s.putKcmd d).kcmd tr tag.toNat = some d := by
  obtain ⟨hctr, hctag⟩ := kcmd_keys hc
  rw [State.kcmd] at hc ⊢
  rw [State.putKcmd]
  dsimp only
  generalize s.kcp.cmds = cs at hc ⊢
  induction cs with
  | nil => cases hc
  | cons x xs ih =>
    by_cases hx : x.tr = tr ∧ x.tag = tag.toNat
    · simp [hx, htr, htag, hctr, hctag]
    · simp only [List.find?_cons, hx, decide_false] at hc
      rw [List.map_cons, if_neg (by rw [htr, htag, hctr, hctag]; exact hx), List.find?_cons, decide_eq_false hx]
      exact ih hc

theorem keyLoad_cases {ws : List (Nat × Nat)} (ha : CmdActs s tr tag c 0x0B03) :
    (s.keyLoad c = .error (code, data) ∧ code ≠ 0xB → exec (.keyLoad tr tag) s = .next (s.finish c code data)) ∧
    (∃ t, exec (.keyLoad tr tag) s = .next t ∧ (s.keyLoad c = .error (0xB, data) → s.failed t tr ∧ t.sec = s.sec)) ∧
    (s.keyLoad c = .ok ws → ∃ t, exec (.keyLoad tr tag) s = .next t ∧ t.sec.jobs = s.sec.jobs ++ ws.map (fun w => ⟨w.1, w.2, false⟩) ∧
      t.kcmd tr tag.toNat = some { c with committed := true } ∧ t.regs = s.regs ∧ t.mem = s.mem) := by
  rw [exec_keyLoad ha]
  refine ⟨fun ⟨herr, hcode⟩ => ?_, ⟨_, rfl, fun herr => ?_⟩, fun hok => ?_⟩
  · rw [herr]
    dsimp only
    rw [if_neg (show ¬ code = stAuthFail from hcode)]
  · rw [herr]
    obtain ⟨hfails, -, hsec, -⟩ := authFail_reply s tr c 0xB data
    exact ⟨hfails, hsec⟩
  · rw [hok]
    exact ⟨_, rfl, rfl, kcmd_putKcmd (s := s.fuseJobs ws) ha.found rfl rfl, rfl, rfl⟩

/-- A command that waits for its fuse words replies once none is left. -/
theorem fusesDone_cases (s : State) (c : KCmd) : (s.sec.jobs = [] → s.fusesDone c = s.finish c 0 []) ∧ (s.sec.jobs ≠ [] → s.fusesDone c = s) :=
  ⟨fun h => if_pos h, fun h => if_neg h⟩

/-- A KEY_LOAD or ROLLBACK_SET that has asked for fuse words waits for them. -/
theorem committed_fuses (hc : s.kcmd tr tag.toNat = some c) (hst : c.started = true) (hl : s.trivetLost = false) (hcom : c.committed = true) :
    (c.op = 0x0B03 → exec (.keyLoad tr tag) s = .next (s.fusesDone c)) ∧
    (c.op = 0x0B06 → exec (.rollbackSet tr tag) s = .next (s.fusesDone c)) := by
  refine ⟨fun hop => ?_, fun hop => ?_⟩
  · show execKeyLoad tr tag s = _
    rw [execKeyLoad, onCmd_of_committed hc hop hst hl hcom]
    exact congrArg _ (if_pos hcom)
  · show execRollbackSet tr tag s = _
    rw [execRollbackSet, onCmd_of_committed hc hop hst hl hcom]
    exact congrArg _ (if_pos hcom)

theorem exec_vaultDelegate (ha : CmdActs s tr tag c 0x0B04) (h0 : c.b 0 < 8) : exec (.vaultDelegate tr tag) s = .next (
    s.writes c [(A.VAULT_DEL_CFG (c.b 0), u c.params 5 4), (A.VAULT_DEL_BASE (c.b 0), u c.params 1 4)]) := by
  show execVaultDelegate tr tag s = _
  rw [execVaultDelegate, ha.onCmd, bytesBelow_one h0]

theorem exec_vaultWipe (ha : CmdActs s tr tag c 0x0B05) : exec (.vaultWipe tr tag) s = .next ((s.vaultWipe 4).finish c 0 []) := by
  show execVaultWipe tr tag s = _
  rw [execVaultWipe, ha.onCmd]
  rfl

/-- The counter's next word. -/
def State.rollWord (s : State) (n : Nat) : Option Nat := (List.range 8).find? fun i => (s.fuse (100 + 8 * n + i)).isNone

theorem freeWord_roll (s : State) (n : Nat) :
    s.freeWord ((List.range 8).map fun i => 100 + 8 * n + i) = (s.rollWord n).map fun i => 100 + 8 * n + i := by
  rw [State.freeWord, List.find?_map]
  rfl

theorem exec_rollbackSet (ha : CmdActs s tr tag c 0x0B06) (h0 : c.b 0 < 3) : exec (.rollbackSet tr tag) s = .next (
    if u c.params 1 4 = s.rollback (c.b 0) then s.say c stOk
    else if u c.params 1 4 < s.rollback (c.b 0) ∨ (s.runningRolls (c.b 0)).any fun r => decide (r < u c.params 1 4) then s.badParam c 1
    else match (s.rollWord (c.b 0)).map fun i => 100 + 8 * c.b 0 + i with
      | none => s.say c stBadState
      | some w =>
        if (s.program w (u c.params 1 4) false).sec.jobs.length = s.sec.jobs.length then
          (s.program w (u c.params 1 4) false).say c stBadState
        else (s.program w (u c.params 1 4) false).putKcmd { c with committed := true }) := by
  show execRollbackSet tr tag s = _
  rw [execRollbackSet, ha.onCmd]
  dsimp only
  rw [if_neg (by simp [ha.uncommitted]), bytesBelow_one h0, freeWord_roll] <;> rfl

/-- The value may be programmed into the counter. -/
def State.rollOk (s : State) (n value : Nat) : Prop :=
  s.rollback n < value ∧ ((s.runningRolls n).any fun r => decide (r < value)) = false

theorem rollOk_iff {n value : Nat} (hne : value ≠ s.rollback n) :
    s.rollOk n value ↔ ¬(value < s.rollback n ∨ ((s.runningRolls n).any fun r => decide (r < value)) = true) := by
  rw [State.rollOk, not_or, Bool.not_eq_true]
  exact and_congr_left' ⟨fun h => by omega, fun h => by omega⟩

theorem rollbackSet_refused (ha : CmdActs s tr tag c 0x0B06) (h0 : c.b 0 < 3) :
    (u c.params 1 4 = s.rollback (c.b 0) → exec (.rollbackSet tr tag) s = .next (s.finish c 0 [])) ∧
    (u c.params 1 4 ≠ s.rollback (c.b 0) ∧ ¬ s.rollOk (c.b 0) (u c.params 1 4) →
      exec (.rollbackSet tr tag) s = .next (s.finish c 5 (leBytes 4 1))) := by
  rw [exec_rollbackSet ha h0]
  refine ⟨fun heq => congrArg _ (if_pos heq), fun ⟨hne, hbad⟩ => ?_⟩
  rw [rollOk_iff hne, not_not] at hbad
  exact congrArg _ ((if_neg hne).trans (if_pos hbad))

theorem rollbackSet_ok (ha : CmdActs s tr tag c 0x0B06) (h0 : c.b 0 < 3) (hok : s.rollOk (c.b 0) (u c.params 1 4)) :
    exec (.rollbackSet tr tag) s = .next (match (s.rollWord (c.b 0)).map fun i => 100 + 8 * c.b 0 + i with
      | none => s.say c stBadState
      | some w =>
        if (s.program w (u c.params 1 4) false).sec.jobs.length = s.sec.jobs.length then
          (s.program w (u c.params 1 4) false).say c stBadState
        else (s.program w (u c.params 1 4) false).putKcmd { c with committed := true }) := by
  have hne : u c.params 1 4 ≠ s.rollback (c.b 0) := (Nat.ne_of_lt hok.1).symm
  rw [exec_rollbackSet ha h0]
  exact congrArg _ ((if_neg hne).trans (if_neg ((rollOk_iff hne).1 hok)))

theorem program_in_range (hrail : s.fld A.PWR_RAIL F.PWR_RAIL.GOOD = 0xFFF) (w v : Nat) : s.program w v false = s.fuseJobs [(w, v)] :=
  if_pos hrail

theorem program_out_of_range (hrail : s.fld A.PWR_RAIL F.PWR_RAIL.GOOD ≠ 0xFFF) (w v : Nat) :
    s.program w v false = s.setf A.SEC_LC F.SEC_LC.ABANDONED 1 := if_neg hrail

theorem jobs_fuseJobs (s : State) (ws : List (Nat × Nat)) :
    (s.fuseJobs ws).sec.jobs = s.sec.jobs ++ ws.map fun w => ⟨w.1, w.2, false⟩ := rfl

theorem jobs_setf (s : State) (a : Nat) (f : Fld) (n : Nat) : (s.setf a f n).sec.jobs = s.sec.jobs := rfl

theorem rollbackSet_cases (ha : CmdActs s tr tag c 0x0B06) (h0 : c.b 0 < 3) (hok : s.rollOk (c.b 0) (u c.params 1 4)) :
    (s.rollWord (c.b 0) = none → exec (.rollbackSet tr tag) s = .next (s.finish c 0x10 [])) ∧
    (s.rollWord (c.b 0) = some k ∧ s.fld A.PWR_RAIL F.PWR_RAIL.GOOD = 0xFFF → ∃ t, exec (.rollbackSet tr tag) s = .next t ∧
      t.sec.jobs = s.sec.jobs ++ [⟨100 + 8 * c.b 0 + k, u c.params 1 4, false⟩] ∧
      t.kcmd tr tag.toNat = some { c with committed := true } ∧ t.regs = s.regs) ∧
    (s.rollWord (c.b 0) = some k ∧ s.fld A.PWR_RAIL F.PWR_RAIL.GOOD ≠ 0xFFF → exec (.rollbackSet tr tag) s =
      .next ((s.setf A.SEC_LC F.SEC_LC.ABANDONED 1).finish c 0x10 [])) := by
  rw [rollbackSet_ok ha h0 hok]
  refine ⟨fun hnone => ?_, fun ⟨hsome, hrail⟩ => ?_, fun ⟨hsome, hrail⟩ => ?_⟩
  · rw [hnone]
    rfl
  · rw [hsome, Option.map_some]
    dsimp only
    generalize 100 + 8 * c.b 0 + k = w
    rw [program_in_range hrail, if_neg (by simp [jobs_fuseJobs])]
    exact ⟨_, rfl, rfl, kcmd_putKcmd (s := s.fuseJobs _) ha.found rfl rfl, rfl⟩
  · rw [hsome, Option.map_some]
    dsimp only
    rw [program_out_of_range hrail, jobs_setf, if_pos rfl]
    rfl

theorem exec_bootSlot (ha : CmdActs s tr tag c 0x0B07) (h0 : c.b 0 < 2) :
    exec (.bootSlot tr tag) s = .next (s.writes c [(A.SYS_BOOT, c.b 0)]) := by
  show execBootSlot tr tag s = _
  rw [execBootSlot, ha.onCmd, bytesBelow_one h0]

/-! ### DEBUG_UNLOCK (R774) -/

/-- The halves that a mask names are in SERVICE. -/
def State.maskIdle (s : State) (mask : Nat) : Prop := (mask % 2 = 0 ∨ s.chgOf .k = .service) ∧ (mask / 2 % 2 = 0 ∨ s.chgOf .p = .service)

/-- A half that the mask names is unlocked. -/
def State.debugOpen (s : State) (mask : Nat) : State :=
  let t := if bitAt mask 0 then s.setf A.SEC_DEBUG F.SEC_DEBUG.UNLOCK_K 1 else s
  if bitAt mask 1 then t.setf A.SEC_DEBUG F.SEC_DEBUG.UNLOCK_P 1 else t

theorem maskIdle_iff (s : State) (mask : Nat) : s.maskIdle mask ↔
    ((!bitAt mask Half.k.n || s.chgOf .k == .service) && (!bitAt mask Half.p.n || s.chgOf .p == .service)) = true := by
  have hbit : ∀ n : Nat, n % 2 = 0 ↔ ¬ n % 2 = 1 := fun n => by omega
  simp only [State.maskIdle, Bool.and_eq_true, Bool.or_eq_true, Bool.not_eq_true', bitAt, Half.n, beq_iff_eq, beq_eq_false_iff_ne,
    pow_zero, Nat.div_one, pow_one, hbit, ne_eq]

theorem exec_debugUnlock (ha : CmdActs s tr tag c 0x0B08) (h0 : c.b 0 < 4) : exec (.debugUnlock tr tag) s = .next (
    if s.lc ≠ 3 ∨ bitAt ((s.fuse 67).getD 0) 0 ∨
        !((!bitAt (c.b 0) Half.k.n || s.chgOf .k == .service) && (!bitAt (c.b 0) Half.p.n || s.chgOf .p == .service)) then s.finish c 0x10 []
    else if s.debugToken c (c.b 0) ≠ slice c.params 1 16 then (s.authFail tr).finish c 0xB []
    else (s.debugOpen (c.b 0)).finish c 0 []) := by
  show execDebugUnlock tr tag s = _
  rw [execDebugUnlock, ha.onCmd, bytesBelow_one h0]
  rfl

theorem debug_notMem_streamRegs : A.SEC_DEBUG ∉ streamRegs := by
  simp [streamRegs, A.SEC_DEBUG, A.QH_TSTAT, A.LB_TSTAT]

theorem debugOpen_effect (s : State) {mask : Nat} (hm : mask < 4) :
    (s.debugOpen mask).fld A.SEC_DEBUG F.SEC_DEBUG.UNLOCK_K = (if mask % 2 = 1 then 1 else s.fld A.SEC_DEBUG F.SEC_DEBUG.UNLOCK_K) ∧
    (s.debugOpen mask).fld A.SEC_DEBUG F.SEC_DEBUG.UNLOCK_P = (if 2 ≤ mask then 1 else s.fld A.SEC_DEBUG F.SEC_DEBUG.UNLOCK_P) ∧
    (s.debugOpen mask).mem = s.mem := by
  have hk : ∀ t : State, (t.setf A.SEC_DEBUG F.SEC_DEBUG.UNLOCK_K 1).fld A.SEC_DEBUG F.SEC_DEBUG.UNLOCK_K = 1 ∧
      (t.setf A.SEC_DEBUG F.SEC_DEBUG.UNLOCK_K 1).fld A.SEC_DEBUG F.SEC_DEBUG.UNLOCK_P = t.fld A.SEC_DEBUG F.SEC_DEBUG.UNLOCK_P :=
    fun t => ⟨State.fld_setf t _ _ _ (by decide), fld_setf_apart t _ _ _ _ (by decide)⟩
  have hp : ∀ t : State, (t.setf A.SEC_DEBUG F.SEC_DEBUG.UNLOCK_P 1).fld A.SEC_DEBUG F.SEC_DEBUG.UNLOCK_P = 1 ∧
      (t.setf A.SEC_DEBUG F.SEC_DEBUG.UNLOCK_P 1).fld A.SEC_DEBUG F.SEC_DEBUG.UNLOCK_K = t.fld A.SEC_DEBUG F.SEC_DEBUG.UNLOCK_K :=
    fun t => ⟨State.fld_setf t _ _ _ (by decide), fld_setf_apart t _ _ _ _ (by decide)⟩
  obtain rfl | rfl | rfl | rfl : mask = 0 ∨ mask = 1 ∨ mask = 2 ∨ mask = 3 := by omega
  · exact ⟨rfl, rfl, rfl⟩
  · exact ⟨(hk s).1, (hk s).2, rfl⟩
  · exact ⟨(hp s).2, (hp s).1, rfl⟩
  · exact ⟨(hp _).2.trans (hk s).1, (hp _).1, rfl⟩

theorem debugUnlock_cases (ha : CmdActs s tr tag c 0x0B08) (h0 : c.b 0 < 4) :
    let closed := bitAt ((s.fuse 67).getD 0) 0
    (s.lc ≠ 3 ∨ closed = true ∨ ¬ s.maskIdle (c.b 0) → exec (.debugUnlock tr tag) s = .next (s.finish c 0x10 [])) ∧
    (s.lc = 3 ∧ closed = false ∧ s.maskIdle (c.b 0) ∧ s.debugToken c (c.b 0) ≠ slice c.params 1 16 →
      ∃ t, exec (.debugUnlock tr tag) s = .next t ∧ s.failed t tr ∧ t.rd A.SEC_DEBUG = s.rd A.SEC_DEBUG) ∧
    (s.lc = 3 ∧ closed = false ∧ s.maskIdle (c.b 0) ∧ s.debugToken c (c.b 0) = slice c.params 1 16 →
      ∃ t, exec (.debugUnlock tr tag) s = .next t ∧
        t.fld A.SEC_DEBUG F.SEC_DEBUG.UNLOCK_K = (if c.b 0 % 2 = 1 then 1 else s.fld A.SEC_DEBUG F.SEC_DEBUG.UNLOCK_K) ∧
        t.fld A.SEC_DEBUG F.SEC_DEBUG.UNLOCK_P = (if 2 ≤ c.b 0 then 1 else s.fld A.SEC_DEBUG F.SEC_DEBUG.UNLOCK_P) ∧ t.mem = s.mem) := by
  intro closed
  rw [exec_debugUnlock ha h0]
  have hidle := maskIdle_iff s (c.b 0)
  refine ⟨fun hno => ?_, fun ⟨hlc, hopen, hmask, htok⟩ => ?_, fun ⟨hlc, hopen, hmask, htok⟩ => ?_⟩
  · refine congrArg _ (if_pos (hno.imp_right (Or.imp_right fun hn => ?_)))
    rw [Bool.not_eq_true', ← Bool.not_eq_true, ← hidle]
    exact hn
  · obtain ⟨hfails, -, -, hregs⟩ := authFail_reply s tr c 0xB []
    refine ⟨_, congrArg _ ((if_neg ?_).trans (if_pos htok)), hfails, hregs _ debug_notMem_streamRegs⟩
    rw [hidle.1 hmask]
    simp [hlc, show bitAt ((s.fuse 67).getD 0) 0 = false from hopen]
  · obtain ⟨hk, hp, hmem⟩ := debugOpen_effect s h0
    have hkeep := (finish_leaves (s.debugOpen (c.b 0)) c 0 []).1 _ debug_notMem_streamRegs
    refine ⟨_, congrArg _ ((if_neg ?_).trans (if_neg (not_not.2 htok))), ?_, ?_, (finish_mem _ c _ _).trans hmem⟩
    · rw [hidle.1 hmask]
      simp [hlc, show bitAt ((s.fuse 67).getD 0) 0 = false from hopen]
    · exact (congrArg (fget _) hkeep).trans hk
    · exact (congrArg (fget _) hkeep).trans hp

theorem lcAuth_eq (hc : s.kcmd tr tag.toNat = some c) (dest : Nat) : s.lcAuth c dest =
    s.cmac (((s.session tr c.sess).map fun x => x.proved).getD 0) (leBytes 1 dest ++ s.uid ++ leBytes 2 s.svcUsed) := by
  rw [State.lcAuth, State.cmdSlot, (kcmd_keys hc).1]

theorem debugToken_eq (hc : s.kcmd tr tag.toNat = some c) (mask : Nat) : s.debugToken c mask =
    s.cmac (((s.session tr c.sess).map fun x => x.proved).getD 0) (s.uid ++ leBytes 2 s.svcUsed ++ leBytes 1 mask) := by
  rw [State.debugToken, State.cmdSlot, (kcmd_keys hc).1]

end

/-- Settles O55: each command of the groups performs the body of its equation, and a reply leaves what the body left. -/
theorem kcpImageSecurityEffects : Obligations.KcpImageSecurityEffects := by
  unfold Obligations.KcpImageSecurityEffects
  intro s tr tag c img code k v data ws act went b p W R d size off bytes held without fails proved lcMac token idle closed roll rollOk rollWord
  have acts : ∀ {op : Nat}, act op → CmdActs s tr tag c op := cmdActs_iff.2
  refine ⟨?_, ?_, ?_, ?_, ?_, ?_, ?_, ?_, ?_, ?_, ?_, ?_, ?_, ?_, ?_, ?_, ?_, ?_, ?_, ?_, ?_, ?_, ?_, ?_⟩
  · exact fun ⟨ha, h0⟩ => imgBegin_cases (acts ha) h0
  · exact fun ha => imgData_cases (acts ha)
  · exact fun ⟨ha, hsome⟩ => imgCommit_found (acts ha) hsome
  · exact fun ⟨ha, hnone⟩ => imgCommit_missing (acts ha) hnone
  · exact fun ha => imgAbort_cases (acts ha)
  · exact fun ⟨ha, hl⟩ => neLoad_cases (acts ha) hl
  · exact fun ⟨ha, hl⟩ => (exec_neLoad (acts ha)).trans (congrArg _ (if_pos hl))
  · intro w ⟨ha, h0, h1⟩
    exact reply_of_writesThen (f := c.engineStatus) (exec_neRun (acts ha) h0 h1)
  · exact fun ⟨ha, h0⟩ => exec_neReset (acts ha) h0
  · intro r ⟨ha, h0⟩
    exact reply_of_reads (exec_neInfo (acts ha) h0)
  · intro idleEng fits ⟨ha, h0⟩
    exact profileCfg_cases (acts ha) h0
  · intro ha
    show execLcGet tr tag s = _
    rw [execLcGet, (acts ha).onCmd]
    rfl
  · intro ha
    have hcases := lcSet_cases (k := k) (v := v) (acts ha)
    rw [lcAuth_eq (acts ha).found] at hcases
    exact hcases
  · rintro ⟨hlc, hd⟩
    simp only [State.lcWord, hlc, hd]
  · rintro ⟨hlc, hd⟩
    simp only [State.lcWord, hlc, hd]
  · exact fun ha => keyLoad_cases (acts ha)
  · rintro ⟨hc, hop, hst, hl, hcom⟩
    have hx := (committed_fuses hc hst hl hcom).1 hop
    obtain ⟨hdone, hwait⟩ := fusesDone_cases s c
    exact ⟨fun hj => hx.trans (congrArg _ (hdone hj)), fun hj => hx.trans (congrArg _ (hwait hj))⟩
  · intro w ⟨ha, h0⟩
    exact reply_of_writes (exec_vaultDelegate (acts ha) h0)
  · exact fun ha => exec_vaultWipe (acts ha)
  · rintro ⟨ha, h0⟩
    obtain ⟨hsame, hbad⟩ := rollbackSet_refused (acts ha) h0
    have hgo := fun hok : rollOk => rollbackSet_cases (k := k) (acts ha) h0 hok
    exact ⟨hsame, hbad, fun ⟨hok, hnone⟩ => (hgo hok).1 hnone, fun ⟨hok, hword⟩ => (hgo hok).2.1 hword,
      fun ⟨hok, hword⟩ => (hgo hok).2.2 hword⟩
  · rintro ⟨⟨hc, hop, hst, hl, hcom⟩, hj⟩
    exact ((committed_fuses hc hst hl hcom).2 hop).trans (congrArg _ ((fusesDone_cases s c).1 hj))
  · intro w ⟨ha, h0⟩
    exact reply_of_writes (exec_bootSlot (acts ha) h0)
  · rintro ⟨ha, h0⟩
    have hcases := debugUnlock_cases (acts ha) h0
    rw [debugToken_eq (acts ha).found] at hcases
    exact hcases
  · intro hn
    exact ⟨congrArg _ (onCmd_of_none_or_lost hn _ _), congrArg _ (onCmd_of_none_or_lost hn _ _),
      congrArg _ (onCmd_of_none_or_lost hn _ _), congrArg _ (onCmd_of_none_or_lost hn _ _)⟩

end Sys2Proof.Machine
end

section
/-! PROOFS. Where an action word faults, and where it does not execute (R152, R160, R170, R175, R191, R222 to R228, R239). -/

namespace Sys2Proof.Machine
open Sys2Proof

-- Parallel elaboration holds many stacks at once, and they count towards the memory a check may take.
set_option Elab.async false

variable {s t u : State}

/-! ### The entry to FAULTED (R160) -/

/-- An engine that has entered FAULTED, with what is left of its transfers. -/
def Engine.faulted (e : Engine) (dma : List Dma) : Engine :=
  { e with dma := dma, rx := [], pend := [], evt := none, inserts := [], build := [], blen := 0
           timers := e.timers.map fun t => (t.1, { t.2 with armed := false }) }

/-- The word of NE_FAULT: cause, state and action index. -/
def faultWord (cause st act : Nat) : Nat := cause * 2 ^ 24 + st % 2 ^ 11 * 2 ^ 13 + act % 2 ^ 13

/-- The registers of an engine that enters FAULTED. -/
def State.faultRegs (s : State) (i cause st act : Nat) : State :=
  ((((s.setf (A.NE_STATUS i) F.NE_STATUS.STATE neFaulted).setf (A.NE_CTRL i) F.NE_CTRL.RUN 0).dropTx i).wrn (A.NE_FAULT i)
    (faultWord cause st act))

/-- An engine that enters FAULTED, before the fault is logged. -/
def State.faultEng (s : State) (i : Nat) : State := (s.stopDma i).mapEng i fun e =>
  { e with rx := [], pend := [], evt := none, inserts := [], build := [], blen := 0
           timers := e.timers.map fun t => (t.1, { t.2 with armed := false }) }

theorem neFault_eq (s : State) (i cause st act : Nat) :
    s.neFault i cause st act = ((s.faultRegs i cause st act).faultEng i).fault 0x19 2 (originHalf (unitHalf i 12)) (0x10 + i) := rfl

theorem faultRegs_effect (s : State) (i : Fin 24) (cause st act : Nat) :
    (s.faultRegs i cause st act).fld (A.NE_STATUS i) F.NE_STATUS.STATE = neFaulted ∧
    (s.faultRegs i cause st act).rd (A.NE_FAULT i) = BitVec.ofNat 32 (faultWord cause st act) ∧
    s.regsBut (s.faultRegs i cause st act) [A.NE_STATUS i, A.NE_CTRL i, A.NE_FAULT i] ∧
    (s.faultRegs i cause st act).ne = s.ne ∧ (s.faultRegs i cause st act).rst = s.rst ∧ (s.faultRegs i cause st act).mem = s.mem := by
  let as := [A.NE_STATUS i, A.NE_CTRL i, A.NE_FAULT i]
  obtain ⟨s1, h1⟩ : ∃ s1, s1 = s.setf (A.NE_STATUS i) F.NE_STATUS.STATE neFaulted := ⟨_, rfl⟩
  obtain ⟨s2, h2⟩ : ∃ s2, s2 = s1.setf (A.NE_CTRL i) F.NE_CTRL.RUN 0 := ⟨_, rfl⟩
  obtain ⟨s3, h3⟩ : ∃ s3, s3 = s2.dropTx i := ⟨_, rfl⟩
  obtain ⟨s4, h4⟩ : ∃ s4, s4 = s3.wrn (A.NE_FAULT i) (faultWord cause st act) := ⟨_, rfl⟩
  have heq : s.faultRegs i cause st act = s4 := by rw [h4, h3, h2, h1, State.faultRegs]
  have k1 : s.onlyRegs s1 as := h1 ▸ onlyRegs_setf s _ _ (by simp [as])
  have k2 : s1.onlyRegs s2 as := h2 ▸ onlyRegs_setf s1 _ _ (by simp [as])
  have k4 : s3.onlyRegs s4 as := h4 ▸ onlyRegs_wr s3 _ (by simp [as])
  have k12 : s.onlyRegs s2 as := onlyRegs_trans k1 k2
  have hregs : s3.regs = s2.regs := h3 ▸ mapPlane_regs ..
  have hne : s3.ne = s2.ne := h3 ▸ mapPlane_ne ..
  have hmem : s3.mem = s2.mem := h3 ▸ mapPlane_mem ..
  have hrst : s3.rst = s2.rst :=
    (congrArg State.rst (h3 ▸ mapPlane_frame s2 (unitHalf i 12) _ : { s3 with planeK := s2.planeK, planeP := s2.planeP } = s2) :)
  have hrd : ∀ a, s3.rd a = s2.rd a := fun a => by rw [State.rd, hregs, ← State.rd]
  have hstat : s4.rd (A.NE_STATUS i) = s3.rd (A.NE_STATUS i) :=
    h4 ▸ State.rd_wr_other s3 _ _ _ (by simp only [ne_eq, A.NE_STATUS, A.NE_FAULT]; omega)
  have hstat2 : s2.rd (A.NE_STATUS i) = s1.rd (A.NE_STATUS i) :=
    h2 ▸ State.rd_wr_other s1 _ _ _ (by simp only [ne_eq, A.NE_STATUS, A.NE_CTRL]; omega)
  rw [heq]
  refine ⟨?_, ?_, fun a ha => ?_, ?_, ?_, ?_⟩
  · rw [State.fld, hstat, hrd, hstat2, h1]
    exact State.fld_setf s _ _ _ (by decide)
  · rw [h4]
    exact State.rd_wr_self s3 _ _
  · exact (k4.1 a ha).trans ((hrd a).trans (k12.1 a ha))
  · exact (congrArg State.ne k4.2 :).trans (hne.trans (congrArg State.ne k12.2 :))
  · exact (congrArg State.rst k4.2 :).trans (hrst.trans (congrArg State.rst k12.2 :))
  · exact (congrArg State.mem k4.2 :).trans (hmem.trans (congrArg State.mem k12.2 :))

theorem cutDma_effect (s : State) (i : Nat) : ((s.cutDma i).all fun d => !d.notify) = true ∧ (s.cutDma i).length ≤ 4 := by
  constructor
  · rw [List.all_eq_true]
    intro d hd
    obtain ⟨ch, -, hch⟩ := List.mem_filterMap.1 (List.mem_filter.1 hd).1
    obtain ⟨d0, -, rfl⟩ := Option.map_eq_some_iff.1 hch
    rfl
  · exact (List.length_filter_le _ _).trans (List.length_filterMap_le _ _)

theorem faultEng_effect (s : State) (i : Nat) : (∀ a, (s.faultEng i).rd a = s.rd a) ∧ (s.faultEng i).eng i = (s.eng i).faulted (s.cutDma i) ∧
    (s.faultEng i).rst = s.rst ∧ (s.faultEng i).mem = s.mem := by
  obtain ⟨heng, -, hrest⟩ := stopDma_leaves s i
  have hself : (s.faultEng i).eng i = _ := eng_mapEng_self (s.stopDma i) i _
  have hrd : ∀ a, (s.faultEng i).rd a = (s.stopDma i).rd a := fun _ => rfl
  have hrst : (s.faultEng i).rst = (s.stopDma i).rst := rfl
  have hmem : (s.faultEng i).mem = (s.stopDma i).mem := rfl
  refine ⟨fun a => (hrd a).trans (congrArg (State.rd · a) hrest :), ?_, hrst.trans (congrArg State.rst hrest :),
    hmem.trans (congrArg State.mem hrest :)⟩
  rw [hself, heng]
  rfl

/-- What the entry to FAULTED leaves of an engine, in the registers and in the memory. -/
theorem neFault_effect (s : State) (i : Fin 24) {cause : Nat} (st act : Nat) (hheld : s.neHeld i = false) (hcause : cause < 256) :
    let t := s.neFault i cause st act
    t.neState i = neFaulted ∧ t.rdn (A.NE_FAULT i) = faultWord cause st act ∧
    t.rd (A.SYS_FLT_CNT 2) = satSucc (s.rd (A.SYS_FLT_CNT 2)) ∧
    (∃ dma, t.eng i = (s.eng i).faulted dma ∧ (dma.all fun d => !d.notify) = true ∧ dma.length ≤ 4) ∧ t.mem = s.mem ∧ t.rst = s.rst := by
  intro t
  have ht : t = _ := neFault_eq s i cause st act
  obtain ⟨hstate, hword, hregs, hne, hrst, hmem⟩ := faultRegs_effect s i cause st act
  obtain ⟨r, hr⟩ : ∃ r, r = s.faultRegs i cause st act := ⟨_, rfl⟩
  rw [← hr] at ht hstate hword hregs hne hrst hmem
  obtain ⟨hrd, heng, hrst', hmem'⟩ := faultEng_effect r i
  obtain ⟨v, hv⟩ : ∃ v, v = r.faultEng i := ⟨_, rfl⟩
  rw [← hv] at ht hrd heng hrst' hmem'
  have hframe := faultD_frame v 0x19 2 (originHalf (unitHalf i 12)) (0x10 + i) 0 0 0 (by decide)
  have hout : ∀ b, A.SYS_FLT_SLOT 256 0 ≤ b → t.rd b = r.rd b := fun b hb => by
    rw [ht, State.fault, rd_faultD_outside v _ _ _ _ _ _ _ b (by decide) (.inr hb), hrd]
  have hrEng : r.eng i = s.eng i := by rw [State.eng, hne, ← State.eng]
  have htEng : t.eng i = v.eng i := by rw [ht]; exact (congrArg (State.eng · i) hframe :)
  have htRst : t.rst = s.rst := by rw [ht]; exact ((congrArg State.rst hframe :) : _ = v.rst).trans (hrst'.trans hrst)
  have htMem : t.mem = s.mem := by rw [ht]; exact ((congrArg State.mem hframe :) : _ = v.mem).trans (hmem'.trans hmem)
  refine ⟨?_, ?_, ?_, ⟨r.cutDma i, by rw [htEng, heng, hrEng], cutDma_effect r i⟩, htMem, htRst⟩
  · exact neState_of_fld hheld htRst ((congrArg (fget _) (hout _ (by simp only [A.SYS_FLT_SLOT, A.NE_STATUS]; omega))).trans hstate)
  · rw [State.rdn, hout _ (by simp only [A.SYS_FLT_SLOT, A.NE_FAULT]; omega), hword, BitVec.toNat_ofNat]
    refine Nat.mod_eq_of_lt ?_
    unfold faultWord
    omega
  · rw [ht, State.fault, rd_faultD_cnt v _ _ _ _ _ _ _ (by decide), hrd,
      hregs _ (by simp only [List.mem_cons, List.not_mem_nil, or_false, not_or, A.SYS_FLT_CNT, A.NE_STATUS, A.NE_CTRL, A.NE_FAULT]; omega)]

/-! ### A single-bit error (R152) -/

theorem neSingle_effect (s : State) (i : Fin 24) : (s.neSingle i).ne = s.ne ∧ (s.neSingle i).rst = s.rst ∧ (s.neSingle i).mem = s.mem ∧
    (s.neSingle i).rd (A.NE_ECC_CORR i) = satSucc (s.rd (A.NE_ECC_CORR i)) ∧
    (s.neSingle i).rd (A.SYS_FLT_CNT 1) = satSucc (s.rd (A.SYS_FLT_CNT 1)) ∧
    (s.neSingle i).rd (A.SYS_FLT_CNT 2) = s.rd (A.SYS_FLT_CNT 2) := by
  let v := s.inc (A.NE_ECC_CORR i)
  have heq : s.neSingle i = v.faultD 0x18 1 (originHalf (unitHalf i 12)) (0x10 + i) 0 0 0 := rfl
  have hframe := faultD_frame v 0x18 1 (originHalf (unitHalf i 12)) (0x10 + i) 0 0 0 (by decide)
  have hinc : ∀ a, a ≠ A.NE_ECC_CORR i → v.rd a = s.rd a := fun a ha => by rw [State.rd_inc, if_neg ha]
  rw [heq]
  refine ⟨(congrArg State.ne hframe :), (congrArg State.rst hframe :), (congrArg State.mem hframe :), ?_, ?_, ?_⟩
  · rw [rd_faultD_outside v _ _ _ _ _ _ _ _ (by decide) (.inr (by simp only [A.SYS_FLT_SLOT, A.NE_ECC_CORR]; omega)),
      State.rd_inc, if_pos rfl]
  · rw [rd_faultD_cnt v _ _ _ _ _ _ _ (by decide), hinc _ (by simp only [ne_eq, A.SYS_FLT_CNT, A.NE_ECC_CORR]; omega)]
  · rw [rd_faultD_of_not_slot v _ _ _ _ _ _ _ _ (by decide) (by decide) (.inl (by decide)), State.rd_inc, if_neg (by decide),
      hinc _ (by simp only [ne_eq, A.SYS_FLT_CNT, A.NE_ECC_CORR]; omega)]

/-- What a word leaves whose single-bit error, if any, has been corrected. -/
theorem eccWord_effect (s : State) (i : Fin 24) (w : ActWord) : (s.eccWord i w).ne = s.ne ∧ (s.eccWord i w).rst = s.rst ∧
    (s.eccWord i w).mem = s.mem ∧ (s.eccWord i w).rd (A.SYS_FLT_CNT 2) = s.rd (A.SYS_FLT_CNT 2) := by
  unfold State.eccWord
  split
  · obtain ⟨hne, hrst, hmem, -, -, hcnt⟩ := neSingle_effect s i
    exact ⟨hne, hrst, hmem, hcnt⟩
  · exact ⟨rfl, rfl, rfl, rfl⟩

/-! ### A word of the event context that faults -/

section
variable {i : Fin 24} {inl : Bool} {op cause : Nat} {w : ActWord} {r : Recipe} {c : ActCtx} {body : WordBody}

/-- A fault of the event context has taken the engine to FAULTED. -/
def State.gone (s t : State) (i : Nat) (c : ActCtx) (cause : Nat) : Prop :=
  t.neState i = neFaulted ∧ t.rdn (A.NE_FAULT i) = cause * 2 ^ 24 + c.state % 2 ^ 11 * 2 ^ 13 + c.pc % 2 ^ 13 ∧
  t.rd (A.SYS_FLT_CNT 2) = satSucc (s.rd (A.SYS_FLT_CNT 2)) ∧ (t.eng i).rx = [] ∧ (t.eng i).pend = [] ∧
  (t.eng i).evt = none ∧ (t.eng i).inl = (s.eng i).inl ∧ (t.eng i).frame = (s.eng i).frame ∧
  ((t.eng i).dma.all fun d => !d.notify) = true ∧ (t.eng i).dma.length ≤ 4 ∧ t.mem = s.mem

theorem neHeld_of_actCtx (h : s.actCtx i false = some (r, c)) : s.neHeld i = false := by
  refine neHeld_of_neState fun hoff => ?_
  unfold State.actCtx at h
  simp only [hoff] at h
  revert h
  cases (s.eng i).recipe <;> cases (s.eng i).evt <;> simp [neOff, neRunning, neStopping]

theorem gone_neHalt (h : s.actCtx i false = some (r, c)) (hcause : cause < 256) :
    s.gone ((s.eccWord i w).neHalt i false cause c.state c.pc) i c cause := by
  obtain ⟨hne, hrst, hmem, hcnt⟩ := eccWord_effect s i w
  obtain ⟨v, hv⟩ : ∃ v, v = s.eccWord i w := ⟨_, rfl⟩
  rw [← hv] at hne hrst hmem hcnt ⊢
  have hheld : v.neHeld i = false := (neHeld_of_rst hrst).trans (neHeld_of_actCtx h)
  obtain ⟨hstate, hword, hfault, ⟨dma, heng, hnotify, hlen⟩, hmem', -⟩ := neFault_effect v i c.state c.pc hheld hcause
  have hveng : v.eng i = s.eng i := by rw [State.eng, hne, ← State.eng]
  have hhalt : v.neHalt i false cause c.state c.pc = v.neFault i cause c.state c.pc := rfl
  rw [hhalt, State.gone]
  obtain ⟨t, ht⟩ : ∃ t, t = v.neFault i cause c.state c.pc := ⟨_, rfl⟩
  rw [← ht] at hstate hword hfault heng hmem' ⊢
  rw [heng, hveng]
  exact ⟨hstate, hword, hfault.trans (congrArg satSucc hcnt), rfl, rfl, rfl, rfl, rfl, hnotify, hlen, hmem'.trans hmem⟩

theorem act_of_fault (h : s.actRes i false op w body = some (c, .fault cause)) :
    s.act i false op w body = (s.eccWord i w).neHalt i false cause c.state c.pc := by
  rw [State.act, h]
  rfl

/-! ### What the word at the action index comes to -/

theorem actRes_none (h : s.actCtx i inl = none) : s.actRes i inl op w body = none := by
  rw [State.actRes, h]

theorem actRes_waits (h : s.actCtx i inl = some (r, c)) (hwait : c.wait ≠ none) : s.actRes i inl op w body = none := by
  rw [State.actRes, h]
  exact if_pos (Option.isSome_iff_ne_none.2 hwait)

theorem actRes_past (h : s.actCtx i inl = some (r, c)) (hwait : c.wait = none) (hpc : r.nact ≤ c.pc) :
    s.actRes i inl op w body = some (c, .fault 2) := by
  rw [State.actRes, h]
  exact (if_neg (by simp [hwait])).trans (if_pos (.inl hpc))

theorem actBits_inj {op op' : Nat} {w w' : ActWord} (h : actBits op w = actBits op' w') : op = op' := by
  rw [← actBits_div op w, h, actBits_div]

/-- Another word stands at the action index. -/
theorem actRes_other {op' : Nat} {w' : ActWord} (h : s.actCtx i inl = some (r, c)) (hpc : c.pc < r.nact) (hop : op' < 0x30)
    (hword : s.wordAt i r c.pc = actBits op' w') (hne : op' ≠ op) : s.actRes i inl op w body = none := by
  rw [State.actRes, h]
  dsimp only
  rw [hword, actBits_div]
  by_cases hwait : c.wait.isSome
  · exact if_pos hwait
  · exact (if_neg hwait).trans ((if_neg (by omega)).trans (if_pos fun heq => hne (actBits_inj heq)))

/-- The word itself stands there. -/
theorem actRes_here (h : s.actCtx i inl = some (r, c)) (hwait : c.wait = none) (hpc : c.pc < r.nact) (hop : op < 0x30)
    (hword : s.wordAt i r c.pc = actBits op w) : s.actRes i inl op w body =
      if w.ecc = .double then some (c, .fault 3)
      else if !inl ∧ s.fld (A.NE_LIMITS i) F.NE_LIMITS.ACT_LIMIT ≤ c.words then some (c, .fault 1)
      else if !wordAllowed inl op w then some (c, .fault 2)
      else some (c, body i inl w (s.eccWord i w) r c.next) := by
  rw [State.actRes, h]
  dsimp only
  rw [hword, actBits_div, if_neg (by simp [hwait]), if_neg (by omega), if_neg (by simp)]

/-- A word whose body faults. -/
theorem act_of_body_fault (hop : op < 0x30) (h : s.actsWord i inl op w r c) (hb : body i inl w s r c.next = .fault cause) :
    s.act i inl op w body = (s.eccWord i w).neHalt i inl cause c.state c.pc := by
  rw [act_of_actsWord hop h, hb]
  rfl

theorem gone_of_body_fault (hop : op < 0x30) (h : s.actsWord i false op w r c) (hb : body i false w s r c.next = .fault cause)
    (hcause : cause < 256) : ∃ t, s.act i false op w body = t ∧ s.gone t i c cause :=
  ⟨_, act_of_body_fault hop h hb, gone_neHalt h.1 hcause⟩

theorem gone_of_actRes (hctx : s.actCtx i false = some (r, c)) (h : s.actRes i false op w body = some (c, .fault cause))
    (hcause : cause < 256) : ∃ t, s.act i false op w body = t ∧ s.gone t i c cause :=
  ⟨_, act_of_fault h, gone_neHalt hctx hcause⟩

/-! ### A fault of the inline context: its frame goes on (R191) -/

/-- The run state, the recorded fault and the event of engine i are as they were. -/
structure State.KeepsFault (s t : State) (i : Nat) : Prop where
  rst : t.rst = s.rst
  status : t.rd (A.NE_STATUS i) = s.rd (A.NE_STATUS i)
  fault : t.rd (A.NE_FAULT i) = s.rd (A.NE_FAULT i)
  evt : (t.eng i).evt = (s.eng i).evt

theorem State.KeepsFault.refl {i : Nat} : s.KeepsFault s i := ⟨rfl, rfl, rfl, rfl⟩

theorem State.KeepsFault.trans {i : Nat} (h : s.KeepsFault t i) (k : t.KeepsFault u i) : s.KeepsFault u i :=
  ⟨k.rst.trans h.rst, k.status.trans h.status, k.fault.trans h.fault, k.evt.trans h.evt⟩

theorem keepsFault_foldl {β : Type} {i : Nat} {f : State → β → State} (hf : ∀ (s : State) (b : β), s.KeepsFault (f s b) i) (xs : List β) (s : State) :
    s.KeepsFault (xs.foldl f s) i := by
  induction xs generalizing s with
  | nil => exact .refl
  | cons x xs ih => exact (hf s x).trans (ih _)

theorem keepsFault_wr (s : State) (i : Nat) {a : Nat} (v : Word) (hst : A.NE_STATUS i ≠ a) (hflt : A.NE_FAULT i ≠ a) :
    s.KeepsFault (s.wr a v) i :=
  ⟨rfl, State.rd_wr_other s a _ v hst, State.rd_wr_other s a _ v hflt, rfl⟩

theorem keepsFault_disc (s : State) (i : Nat) : s.KeepsFault (s.inc (A.NE_INL_DISC i)) i :=
  keepsFault_wr s i _ (by simp only [ne_eq, A.NE_STATUS, A.NE_INL_DISC]; omega) (by simp only [ne_eq, A.NE_FAULT, A.NE_INL_DISC]; omega)

theorem keepsFault_putEng (s : State) (i : Nat) {e : Engine} (h : e.evt = (s.eng i).evt) : s.KeepsFault (s.putEng i e) i :=
  ⟨rfl, rfl, rfl, (congrArg Engine.evt (eng_putEng_self s i e)).trans h⟩

theorem ne_notMem_countRegs (i : Fin 24) (p : Nat) : A.NE_STATUS i ∉ countRegs p ∧ A.NE_FAULT i ∉ countRegs p := by
  have hi := i.isLt
  constructor <;>
  · simp only [countRegs, perRegs, List.mem_append, List.mem_cons, List.mem_map, List.mem_range, not_or, not_exists, not_and,
      A.MAC_CNT, A.MAC_CNT_WRAP, A.MAC_PER_STATUS, A.MAC_PER_LIVE, A.MAC_PER_SHADOW, A.NE_STATUS, A.NE_FAULT]
    refine ⟨fun k hk => ?_, ?_, ⟨?_, fun k hk => ?_⟩, fun k hk => ?_⟩ <;> omega

theorem keepsFault_inlEmit (s : State) (i : Fin 24) (n : Nat) (bs fcs : List Byte) : s.KeepsFault (s.inlEmit i n bs fcs) i := by
  have hcount := portOnly_txCount s (portNo (unitHalf i 12) n) bs bs.length
  obtain ⟨hst, hflt⟩ := ne_notMem_countRegs i (portNo (unitHalf i 12) n)
  rw [State.inlEmit, emitField_eq]
  exact ⟨hcount.part State.rst, hcount.regs _ hst, hcount.regs _ hflt, congrArg Engine.evt (hcount.part (State.eng · i))⟩

theorem keepsFault_inlLeave (s : State) (i : Fin 24) (fr : InlFrame) : s.KeepsFault (s.inlLeave i fr) i := by
  unfold State.inlLeave
  split
  · exact keepsFault_disc s i
  · next o _ =>
    extract_lets s1 s2
    have h1 : s.KeepsFault s1 i := by
      unfold s1
      split
      · exact .refl
      · exact keepsFault_wr s i _ (by simp only [ne_eq, A.NE_STATUS, A.NE_INL_BADFCS]; omega)
          (by simp only [ne_eq, A.NE_FAULT, A.NE_INL_BADFCS]; omega)
    have h2 : s1.KeepsFault s2 i := by
      unfold s2
      split
      · exact keepsFault_wr s1 i _ (by simp only [ne_eq, A.NE_STATUS, A.NE_INL_UNDERRUN]; omega)
          (by simp only [ne_eq, A.NE_FAULT, A.NE_INL_UNDERRUN]; omega)
      · exact .refl
    clear_value s1 s2
    refine (h1.trans h2).trans (.trans (keepsFault_inlEmit s2 i o fr.bytes (fcsOf (!fr.good || fr.late) fr.bytes)) ?_)
    generalize s2.inlEmit i o fr.bytes (fcsOf (!fr.good || fr.late) fr.bytes) = v
    have hpass : v.KeepsFault (v.inc (A.NE_INL_PASS i)) i :=
      keepsFault_wr v i _ (by simp only [ne_eq, A.NE_STATUS, A.NE_INL_PASS]; omega) (by simp only [ne_eq, A.NE_FAULT, A.NE_INL_PASS]; omega)
    exact hpass.trans (keepsFault_wr _ i _ (by simp only [ne_eq, A.NE_STATUS, A.NE_INL_LAT]; omega)
      (by simp only [ne_eq, A.NE_FAULT, A.NE_INL_LAT]; omega))

theorem keepsFault_inlNext (s : State) (i : Fin 24) : s.KeepsFault (s.inlNext i) i := by
  have hleave : ∀ (xs : List InlFrame) (v : State), v.KeepsFault (xs.foldl (fun s x => s.inlLeave i x) v) i :=
    keepsFault_foldl fun v x => keepsFault_inlLeave v i x
  unfold State.inlNext
  extract_lets e
  split
  · exact keepsFault_putEng s i rfl
  · split
    · exact keepsFault_putEng s i rfl
    · refine .trans ?_ (hleave _ _)
      exact keepsFault_putEng s i rfl
  · refine .trans ?_ (hleave _ _)
    exact keepsFault_putEng s i rfl

theorem keepsFault_inlFinish (s : State) (i : Fin 24) : s.KeepsFault (s.inlFinish i) i := by
  unfold State.inlFinish
  split
  · exact .refl
  · refine .trans (.trans ?_ (keepsFault_inlLeave _ i _)) (keepsFault_inlNext _ i)
    exact keepsFault_putEng s i rfl

/-- A fault of the inline context takes the engine to FAULTED; its frame goes on. -/
theorem neHalt_inline (s : State) (i : Fin 24) (st act : Nat) (hheld : s.neHeld i = false) (hcause : cause < 256) :
    (s.neHalt i true cause st act).neState i = neFaulted ∧ ((s.neHalt i true cause st act).eng i).evt = none ∧
    (s.neHalt i true cause st act).rdn (A.NE_FAULT i) = faultWord cause st act := by
  obtain ⟨hstate, hword, -, ⟨dma, heng, -, -⟩, -, -⟩ := neFault_effect s i st act hheld hcause
  have hhalt : s.neHalt i true cause st act = (s.neFault i cause st act).inlFinish i := rfl
  obtain ⟨v, hv⟩ : ∃ v, v = s.neFault i cause st act := ⟨_, rfl⟩
  rw [← hv] at hstate hword heng hhalt
  have hkeep := keepsFault_inlFinish v i
  rw [hhalt]
  refine ⟨(neState_of_rd hkeep.rst hkeep.status).trans hstate, hkeep.evt.trans (by rw [heng]; rfl), ?_⟩
  rw [State.rdn, hkeep.fault, ← State.rdn, hword]

theorem inlskip_fault (h : s.actsWord i true 0x2E w r c) (hheld : s.neHeld i = false) (himm : w.imm.toNat = 0 ∨ 255 < w.imm.toNat) :
    ∃ t, exec (.recInlskip i true w) s = .next t ∧ t.neState i = neFaulted ∧ (t.eng i).evt = none ∧
      t.rdn (A.NE_FAULT i) = 2 * 2 ^ 24 + c.state % 2 ^ 11 * 2 ^ 13 + c.pc % 2 ^ 13 := by
  obtain ⟨-, -, -, -, hecc, -, -⟩ := id h
  have hact := act_of_body_fault (body := fun i _ w s _ c =>
    let n := w.imm.toNat
    if n = 0 ∨ 255 < n then .fault 2
    else match (s.eng i).frame with
      | none => .fault 2
      | some x =>
        let y : InlFrame := { x with window := x.window + 64 * n, released := true }
        let s := s.mapEng i fun e => { e with frame := some y }
        if y.window + 64 ≤ y.bytes.length then .go s c else .done s c) (cause := 2) (by decide) h (if_pos himm)
  rw [eccWord_of_clean hecc] at hact
  exact ⟨_, congrArg Host.Outcome.next hact, neHalt_inline s i c.state c.pc hheld (by decide)⟩

/-! ### The words of the statement -/

theorem nop_faults (hctx : s.actCtx i false = some (r, c)) (hwait : c.wait = none) :
    (r.nact ≤ c.pc → ∃ t, exec (.recNop i false w) s = .next t ∧ s.gone t i c 2) ∧
    (c.pc < r.nact ∧ s.wordAt i r c.pc = actBits 0x01 w ∧ w.ecc = .double → ∃ t, exec (.recNop i false w) s = .next t ∧ s.gone t i c 3) ∧
    (c.pc < r.nact ∧ s.wordAt i r c.pc = actBits 0x01 w ∧ w.ecc ≠ .double ∧ s.fld (A.NE_LIMITS i) F.NE_LIMITS.ACT_LIMIT ≤ c.words →
      ∃ t, exec (.recNop i false w) s = .next t ∧ s.gone t i c 1) := by
  refine ⟨fun hpc => ?_, fun ⟨hpc, hword, hecc⟩ => ?_, fun ⟨hpc, hword, hecc, hlim⟩ => ?_⟩
  · obtain ⟨t, ht, hgone⟩ := gone_of_actRes hctx (actRes_past (op := 0x01) (w := w) (body := fun _ _ _ s _ c => .go s c) hctx hwait hpc)
      (by decide)
    exact ⟨t, congrArg _ ht, hgone⟩
  · obtain ⟨t, ht, hgone⟩ := gone_of_actRes (body := fun _ _ _ s _ c => .go s c) hctx
      ((actRes_here hctx hwait hpc (by decide) hword).trans (if_pos hecc)) (by decide)
    exact ⟨t, congrArg _ ht, hgone⟩
  · obtain ⟨t, ht, hgone⟩ := gone_of_actRes (body := fun _ _ _ s _ c => .go s c) hctx
      ((actRes_here hctx hwait hpc (by decide) hword).trans ((if_neg hecc).trans (if_pos ⟨rfl, hlim⟩))) (by decide)
    exact ⟨t, congrArg _ ht, hgone⟩

/-- A word of the inline path in the event context. -/
theorem inlskip_refused (hctx : s.actCtx i false = some (r, c)) (hwait : c.wait = none) (hpc : c.pc < r.nact)
    (hword : s.wordAt i r c.pc = actBits 0x2E w) (hecc : w.ecc ≠ .double) (hlim : c.words < s.fld (A.NE_LIMITS i) F.NE_LIMITS.ACT_LIMIT) :
    ∃ t, exec (.recInlskip i false w) s = .next t ∧ s.gone t i c 2 := by
  have hunder : ¬((!false) = true ∧ s.fld (A.NE_LIMITS i) F.NE_LIMITS.ACT_LIMIT ≤ c.words) := fun h => absurd h.2 (Nat.not_le.2 hlim)
  have hres : ∀ body, s.actRes i false 0x2E w body = some (c, .fault 2) := fun body =>
    (actRes_here hctx hwait hpc (by decide) hword).trans ((if_neg hecc).trans ((if_neg hunder).trans (if_pos rfl)))
  obtain ⟨t, ht, hgone⟩ := gone_of_actRes hctx (hres _) (by decide)
  exact ⟨t, congrArg _ ht, hgone⟩

/-- A NOP with a single-bit error goes on, and the error is corrected and counted. -/
theorem nop_single (hctx : s.actCtx i false = some (r, c)) (hwait : c.wait = none) (hpc : c.pc < r.nact)
    (hword : s.wordAt i r c.pc = actBits 0x01 w) (hecc : w.ecc = .single) (hlim : c.words < s.fld (A.NE_LIMITS i) F.NE_LIMITS.ACT_LIMIT) :
    ∃ t, exec (.recNop i false w) s = .next t ∧ t.eng i = { s.eng i with evt := some c.next } ∧
      t.rd (A.NE_ECC_CORR i) = satSucc (s.rd (A.NE_ECC_CORR i)) ∧ t.rd (A.SYS_FLT_CNT 1) = satSucc (s.rd (A.SYS_FLT_CNT 1)) ∧
      t.mem = s.mem := by
  have hunder : ¬((!false) = true ∧ s.fld (A.NE_LIMITS i) F.NE_LIMITS.ACT_LIMIT ≤ c.words) := fun h => absurd h.2 (Nat.not_le.2 hlim)
  have hres : s.actRes i false 0x01 w (fun _ _ _ s _ c => .go s c) = some (c, .go (s.eccWord i w) c.next) :=
    (actRes_here hctx hwait hpc (by decide) hword).trans ((if_neg (by simp [hecc])).trans ((if_neg hunder).trans (if_neg (by
      simp [wordAllowed]))))
  have hact : s.act i false 0x01 w (fun _ _ _ s _ c => .go s c) = (s.eccWord i w).putCtx i false c.next := by
    rw [State.act, hres]
    rfl
  have hsingle : s.eccWord i w = s.neSingle i := if_pos hecc
  obtain ⟨hne, -, hmem, hcorr, hcnt, -⟩ := neSingle_effect s i
  have heng : (s.neSingle i).eng i = s.eng i := by rw [State.eng, hne, ← State.eng]
  rw [hsingle] at hact
  generalize s.neSingle i = v at hact hmem hcorr hcnt heng
  refine ⟨_, congrArg Host.Outcome.next hact, ?_, hcorr, hcnt, hmem⟩
  rw [State.putCtx, eng_mapEng_self, heng]
  rfl

theorem call_fault (h : s.actsWord i false 0x04 w r c) (hfull : 4 ≤ c.stack.length) :
    ∃ t, exec (.recCall i false w) s = .next t ∧ s.gone t i c 2 := by
  obtain ⟨t, ht, hgone⟩ := gone_of_body_fault (body := fun _ _ w s _ c =>
    if 4 ≤ c.stack.length then .fault 2 else .go s { c with pc := w.imm.toNat % 2 ^ 13, stack := c.pc :: c.stack })
    (by decide) h (if_pos hfull) (by decide)
  exact ⟨t, congrArg _ ht, hgone⟩

theorem ret_fault (h : s.actsWord i false 0x05 w r c) (hempty : c.stack = []) :
    ∃ t, exec (.recRet i false w) s = .next t ∧ s.gone t i c 2 := by
  obtain ⟨t, ht, hgone⟩ := gone_of_body_fault (body := fun _ _ _ s _ c => match c.stack with
    | [] => .fault 2
    | p :: st => .go s { c with pc := p, stack := st }) (cause := 2) (by decide) h (by simp [ActCtx.next, hempty]) (by decide)
  exact ⟨t, congrArg _ ht, hgone⟩

theorem ext_fault (h : s.actsWord i false 0x0C w r c) (hwide : 64 < w.x.val + w.y.val) :
    ∃ t, exec (.recExt i false w) s = .next t ∧ s.gone t i c 2 := by
  have hbad : fieldOk w = false := by
    rw [fieldOk, Bool.and_eq_false_iff]
    exact .inr (decide_eq_false (Nat.not_le.2 hwide))
  obtain ⟨t, ht, hgone⟩ := gone_of_body_fault (body := fun _ _ w s _ c =>
    if fieldOk w then .go s (c.put w.d (c.get w.a / 2 ^ w.x.val % 2 ^ w.y.val)) else .fault 2)
    (by decide) h (if_neg (by simp [hbad])) (by decide)
  exact ⟨t, congrArg _ ht, hgone⟩

theorem ld_fault (h : s.actsWord i false 0x0A w r c) (hout : s.areaRead i false r c w.x (ldstOff w c) (w.y % 16) = none) :
    ∃ t, exec (.recLd i false w) s = .next t ∧ s.gone t i c 2 := by
  have hnext : s.areaRead i false r c.next w.x (ldstOff w c.next) (w.y % 16) = none := hout
  obtain ⟨t, ht, hgone⟩ := gone_of_body_fault (body := fun i inl w s r c =>
    if !ldstWidth w then .fault 2
    else match s.areaRead i inl r c w.x (ldstOff w c) (w.y % 16) with
      | some bs => .go s (c.put w.d (if bitAt w.y 6 then beNat bs else leNat bs))
      | none => .fault 2) (cause := 2) (by decide) h (by
        rw [hnext]
        exact ite_self _) (by decide)
  exact ⟨t, congrArg _ ht, hgone⟩

/-- A word that does not execute leaves the state as it is. -/
theorem act_of_none (h : s.actRes i inl op w body = none) : s.act i inl op w body = s := by
  rw [State.act, h]

theorem still_without_context (h : s.actCtx i inl = none) : exec (.recNop i inl w) s = .next s ∧ exec (.recAdd i inl w) s = .next s ∧
    exec (.recEnd i inl w none) s = .next s ∧ exec (.actWaitEnd i inl) s = .next s := by
  refine ⟨congrArg _ (act_of_none (actRes_none h)), congrArg _ (act_of_none (actRes_none h)),
    congrArg _ (actBeside_none.trans (act_of_none (actRes_none h))), ?_⟩
  show execActWaitEnd i inl s = _
  rw [execActWaitEnd, h]

end

/-- Settles O32: a fault of the event context does what the entry to FAULTED does, and each word of the statement comes to that. -/
theorem actionUnitFaults : Obligations.ActionUnitFaults := by
  unfold Obligations.ActionUnitFaults
  intro s i inl w r c gone
  refine ⟨fun ⟨hctx, hwait, hpc, hword, hecc, hlim⟩ => (nop_faults hctx hwait).2.2 ⟨hpc, hword, hecc, hlim⟩,
    fun ⟨hctx, hwait, hpc, hword, hecc, hlim⟩ => inlskip_refused hctx hwait hpc hword hecc hlim,
    fun ⟨hctx, hwait, hpc⟩ => (nop_faults hctx hwait).1 hpc,
    fun ⟨hctx, hwait, hpc, hword, hecc⟩ => (nop_faults hctx hwait).2.1 ⟨hpc, hword, hecc⟩,
    fun ⟨hctx, hwait, hpc, hword, hecc, hlim⟩ => nop_single hctx hwait hpc hword hecc hlim,
    fun ⟨h, hheld, himm⟩ => inlskip_fault h hheld himm,
    fun ⟨h, hfull⟩ => call_fault h hfull, fun ⟨h, hempty⟩ => ret_fault h hempty, fun ⟨h, hwide⟩ => ext_fault h hwide,
    fun ⟨h, hout⟩ => ld_fault h hout, still_without_context, fun ⟨hctx, hwait⟩ => ?_, fun ⟨hctx, hpc, hword⟩ => ?_⟩
  · exact ⟨congrArg _ (act_of_none (actRes_waits hctx hwait)), congrArg _ (act_of_none (actRes_waits hctx hwait))⟩
  · exact congrArg _ (act_of_none (actRes_other hctx hpc (by decide) hword (by decide)))

end Sys2Proof.Machine
end
